-- ==== Sys2Proof/Word.lean ====
section
/-! DEFINITION. The word types of the panel and the type of sparse tables. -/

namespace Sys2Proof

/-- One byte. -/
abbrev Byte := BitVec 8
/-- One 64-bit word: S registers, panel addresses, register words. -/
abbrev Word := BitVec 64
/-- One FP32 value as its 32 bits (R90). -/
abbrev F32 := BitVec 32
/-- One vector register: 2 KiB, 512 FP32 lanes or packed elements (Table 5.1, R153). -/
abbrev VReg := BitVec 16384
/-- One bundle (Table 5.4). -/
abbrev Bundle := BitVec 256

/-- A sparse table: keys strictly rising, no entry equal to the default (see Machine/Tbl.lean). -/
abbrev Tbl (α : Type) := List (Nat × α)
/-- A byte memory: the sparse table of bytes whose unlisted bytes read 0. -/
abbrev Mem := List Host.Cell

/-- A physical position 12 × row + column, 0 to 143 (1.2). -/
abbrev Pos := Fin 144
/-- A logical tile number (R17). -/
abbrev Lt := Fin 120
/-- A stack, numbered by R193. -/
abbrev StackN := Fin 24
/-- A reach, numbered as the stacks (Table 12.13). -/
abbrev ReachN := Fin 24
/-- An AXL port X00 to X17. -/
abbrev PortN := Fin 18
/-- A KCL port: 0 is K0, 1 is K1. -/
abbrev KPort := Fin 2
/-- A lock-house: 0 LH-N, 1 LH-C, 2 LH-S (Table 15.3). -/
abbrev House := Fin 3
/-- A cell of companion memory: (host window offset, byte). -/
abbrev HostCell := Host.Cell

end Sys2Proof
end

