-- ==== Sys2Proof/Config.lean ====
section
/-! DEFINITION. What the spec leaves open and what is fused at manufacture: constants without a body, so that no proof can see
their values. A free value is one of these constants applied to its operands or to the counter State.fresh (log entry 3). -/

namespace Sys2Proof.Config

/-- Which of the two FP32 neighbours of the exact value VEXP2, VLOG2, VRCP and VRSQRT return (R152 gives the bound of
1 ulp only); op is the opcode, x the input. Beyond the rules' words: log entry 4 (DESIGN CHOICE). -/
opaque transUp : (op : Nat) → (x : F32) → Bool
/-- Which of the four FP32 values within 2 ulp of tanh x VTANH returns (R152). Beyond the rules' words: log entry 4 (DESIGN CHOICE). -/
opaque tanhPick : (x : F32) → Fin 4
/-- ML-DSA-65 verification of a signature over bytes under a context string (R452); the spec names the algorithm.
Beyond the rules' words: log entry 5 (PRESUMED). -/
opaque verify : (pk : List Byte) → (context : String) → (msg : List Byte) → (sig : List Byte) → Bool
/-- The signature that the identity key makes over bytes under a context string (R452, R453). Beyond the rules' words: log entry 5 (PRESUMED). -/
opaque sign : (context : String) → (msg : List Byte) → List Byte
/-- The identity public key derived from the fused seed (R453). Beyond the rules' words: log entry 5 (PRESUMED). -/
opaque identityPk : List Byte
/-- The fused digest of the key of an owner slot (Table 17.1). -/
opaque ownerDigest : (slot : Nat) → BitVec 256
/-- The ROM's built-in digest and the digest of the fuse map (Table 17.5). -/
opaque romDigest : BitVec 256
opaque fuseMapDigest : BitVec 256
/-- The package written at manufacture to a boot flash slot: its owner public key, owner slot and security versions by class.
Beyond the rules' words: log entry 13 (DESIGN CHOICE). -/
opaque bootOwnerPk : (slot : Nat) → List Byte
opaque bootOwnerSlot : (slot : Nat) → Nat
opaque bootSvn : (slot : Nat) → (cls : Nat) → Nat
/-- The part-number word of the part (Table 0.1). Beyond the rules' words: log entry 6 (DESIGN CHOICE). -/
opaque partWord : Word
/-- What the part-number word names: the part (Table 15.13), the absent LTs (R409) and the disabled stacks (R408); its layout is not given.
Beyond the rules' words: log entry 6 (DESIGN CHOICE). -/
opaque partCode : Word → BitVec 8
opaque partAbsent : Word → (bankRow : Nat) → Nat
opaque partDisabled : Word → (pick : Nat) → Nat
/-- The part-number word with the mark -D (R4, R436). Beyond the rules' words: log entry 6 (DESIGN CHOICE). -/
opaque partDerated : Word → Word
/-- Digests that the package written to a flash slot at manufacture extends into the measurement registers (Table 17.5).
Beyond the rules' words: log entry 13 (DESIGN CHOICE). -/
opaque bootMeasure : (slot : Nat) → (reg : Nat) → BitVec 256
/-- Place of RUNTIME in the MGT_ block (R328 names MGT_PCIE_CFG.RUNTIME and gives neither offset nor bit).
Beyond the rules' words: log entry 22 (DESIGN CHOICE). -/
opaque mgtRuntimeOff : BitVec 16
opaque mgtRuntimeBit : BitVec 6
/-- A value the spec does not state, fresh for each count. -/
opaque freeWord : Nat → Word
/-- Element codes that a weight plane holds where no load has written it; free (log entry 26). -/
opaque freeWeight : (use : Nat) → (sub : Nat) → (i : Nat) → BitVec 32
/-- The core voltage target of a frequency step, in mV, fused per die (Table 12.5). Beyond the rules' words: log entry 51 (DEDUCED). -/
opaque stepMv : (pos : Nat) → (step : Nat) → BitVec 10

/-- The core current of a tile, in A, at a panel time: telemetry that no event of the table reports (Table 12.12, IVCORE_A).
Beyond the rules' words: log entry 30 (DEDUCED). -/
opaque coreAmps : (pos : Nat) → (now : Nat) → BitVec 7
/-- The power that firmware charges to the plan for a running sounding, in W; the spec states none (R415, log entry 59). -/
opaque soundW : BitVec 8
/-- The time of flight of a beacon from LH-C, or from LH-N, to a position, in ns. Beyond the rules' words: log entry 95 (DESIGN CHOICE). -/
opaque beaconFlight : (pos : Nat) → (north : Bool) → Nat

end Sys2Proof.Config
end

