-- ==== Sys2Proof/Machine/Tbl.lean ====
section
/-! DEFINITION. Sparse tables in canonical form: keys strictly rising, no entry equal to the default. Memory is the
sparse table of bytes whose unlisted bytes read 0 (log entry 2). -/

namespace Sys2Proof.Machine

open Sys2Proof

variable {α : Type}

/-- The value at a key; the default where none is listed. -/
def tblGet (d : α) : Tbl α → Nat → α
  | [], _ => d
  | (k', v) :: r, k => if k = k' then v else tblGet d r k

/-- Store a value at a key, keeping the canonical form. -/
def tblPut [DecidableEq α] (d : α) : Tbl α → Nat → α → Tbl α
  | [], k, v => if v = d then [] else [(k, v)]
  | (k', v') :: r, k, v =>
    if k < k' then (if v = d then (k', v') :: r else (k, v) :: (k', v') :: r)
    else if k = k' then (if v = d then r else (k, v) :: r)
    else (k', v') :: tblPut d r k v

/-- Every key of the table lies above k. -/
def tblAbove (k : Nat) : Tbl α → Bool
  | [] => true
  | (k', _) :: _ => decide (k < k')

/-- The canonical form. -/
def tblWf [DecidableEq α] (d : α) : Tbl α → Bool
  | [] => true
  | (k, v) :: r => decide (v ≠ d) && tblAbove k r && tblWf d r

/-- One byte of a memory. Beyond the rules' words: log entry 2 (DESIGN CHOICE). -/
def memGet (m : Mem) (a : Nat) : Byte := tblGet 0 m a
/-- Write one byte. -/
def memPut (m : Mem) (a : Nat) (b : Byte) : Mem := tblPut 0 m a b
/-- The canonical form of a memory. Beyond the rules' words: log entry 2 (DESIGN CHOICE). -/
def Memory.wf (m : Mem) : Bool := tblWf (0 : Byte) m

/-- n bytes from address a on. -/
def memRead (m : Mem) (a : Nat) : Nat → List Byte
  | 0 => []
  | n + 1 => memGet m a :: memRead m (a + 1) n

/-- Write bytes from address a on. -/
def memWrite (m : Mem) (a : Nat) : List Byte → Mem
  | [] => m
  | b :: bs => memWrite (memPut m a b) (a + 1) bs

/-- A byte string as a little-endian number. -/
def bytesNat : List Byte → Nat
  | [] => 0
  | b :: bs => b.toNat + 256 * bytesNat bs

/-- The n low bytes of a number, little-endian. -/
def natBytes (v : Nat) : Nat → List Byte
  | 0 => []
  | n + 1 => BitVec.ofNat 8 v :: natBytes (v / 256) n

/-- A little-endian number of n bytes at address a. -/
def memNat (m : Mem) (a n : Nat) : Nat := bytesNat (memRead m a n)
/-- The 64-bit word at address a. -/
def memW64 (m : Mem) (a : Nat) : Word := BitVec.ofNat 64 (memNat m a 8)
/-- Write a number of n bytes at address a. -/
def memPutNat (m : Mem) (a n v : Nat) : Mem := memWrite m a (natBytes v n)

/-- Zero n bytes from address a on. -/
def memZero (m : Mem) (a n : Nat) : Mem := m.filter fun c => c.1 < a || a + n ≤ c.1

/-- Replace element i of a vector. -/
def vmod {n : Nat} (v : Vector α n) (i : Fin n) (f : α → α) : Vector α n := v.set i (f v[i])
/-- The element at a number, taken modulo the length. -/
def vat {n : Nat} [NeZero n] (v : Vector α n) (i : Nat) : α := v[Fin.ofNat n i]

/-- Word n of a list of bytes seen as little-endian 64-bit words. -/
def wordOf (bs : List Byte) (n : Nat) : Word := BitVec.ofNat 64 (bytesNat ((bs.drop (8 * n)).take 8))

/-- Bits [lo + len - 1 : lo] of a bit string as a number. -/
def fld {w : Nat} (x : BitVec w) (lo len : Nat) : Nat := (x.extractLsb' lo len).toNat
/-- Bit i. -/
def bit {w : Nat} (x : BitVec w) (i : Nat) : Bool := x.getLsbD i
/-- A number as its low len bits, placed at lo. -/
def put64 (v lo len : Nat) : Word := BitVec.ofNat 64 ((v % 2 ^ len) <<< lo)
def b2n (b : Bool) : Nat := if b then 1 else 0

/-- Saturating count. -/
def satAdd {w : Nat} (x : BitVec w) (n : Nat) : BitVec w := BitVec.ofNat w (min (x.toNat + n) (2 ^ w - 1))
/-- A number saturated to w bits. -/
def satNat (w n : Nat) : BitVec w := BitVec.ofNat w (min n (2 ^ w - 1))
/-- ceil (a / b). -/
def cdiv (a b : Nat) : Nat := (a + b - 1) / b
/-- n divided by m, to the nearest. -/
def fromInt (w : Nat) (v : Int) : BitVec w := BitVec.ofInt w v

end Sys2Proof.Machine
end

