-- ==== Sys2Proof/Machine/Float.lean ====
section
/-! DEFINITION. Floating-point values as exact dyadic numbers, the scalar formats of Table 4.2 with their rounding
(R90, R91, R93, R110), and the FP32 operations of the scalar and vector units (R148, R150 to R152). -/

namespace Sys2Proof.Machine

open Sys2Proof

/-- A floating-point datum: NaN, an infinity, or (−1)^neg × m × 2^e; m = 0 is a signed zero. -/
inductive FV where
  | nan
  | inf (neg : Bool)
  | fin (neg : Bool) (m : Nat) (e : Int)
  deriving DecidableEq, Repr

/-- A binary interchange format: significand bits, exponent bits, exponent of the smallest subnormal, canonical NaN. -/
structure FFmt where
  prec : Nat
  ebits : Nat
  emin : Int
  qnan : Nat
  deriving DecidableEq, Repr

def fp32 : FFmt := { prec := 24, ebits := 8, emin := -149, qnan := 0x7FC00000 }
def fp16 : FFmt := { prec := 11, ebits := 5, emin := -24, qnan := 0x7E00 }
def bf16 : FFmt := { prec := 8, ebits := 8, emin := -133, qnan := 0x7FC0 }

/-- Decode a code of a binary interchange format (R90). -/
def ffDecode (f : FFmt) (c : Nat) : FV :=
  let fr := c % 2 ^ (f.prec - 1)
  let ex := (c >>> (f.prec - 1)) % 2 ^ f.ebits
  let neg := decide ((c >>> (f.prec - 1 + f.ebits)) % 2 = 1)
  if ex = 2 ^ f.ebits - 1 then (if fr = 0 then .inf neg else .nan)
  else if ex = 0 then .fin neg fr f.emin
  else .fin neg (fr + 2 ^ (f.prec - 1)) (f.emin + (ex - 1 : Nat))

/-- m × 2^(−k), rounded to an integer, ties to even. -/
def rneShift (m k : Nat) : Nat :=
  if k = 0 then m
  else
    let q := m >>> k
    let r := m % 2 ^ k
    let half := 2 ^ (k - 1)
    if r > half || (r = half && q % 2 = 1) then q + 1 else q

/-- Encode a significand m below or at 2^prec, in units of 2^q with q at least emin. -/
def ffPack (f : FFmt) (neg : Bool) (m : Nat) (q : Int) : Nat :=
  let s := if neg then 2 ^ (f.prec - 1 + f.ebits) else 0
  let mq := if m ≥ 2 ^ f.prec then (m / 2, q + 1) else (m, q)
  if mq.1 < 2 ^ (f.prec - 1) then s + mq.1
  else
    let ex := (mq.2 - f.emin + 1).toNat
    if ex ≥ 2 ^ f.ebits - 1 then s + (2 ^ f.ebits - 1) * 2 ^ (f.prec - 1)
    else s + ex * 2 ^ (f.prec - 1) + (mq.1 - 2 ^ (f.prec - 1))

/-- Exponent of the last place that a value m × 2^e gets in a format. -/
def ffQ (f : FFmt) (m : Nat) (e : Int) : Int := max (e + (Nat.log2 m + 1 : Nat) - (f.prec : Nat)) f.emin

/-- Round to a format, ties to even, with gradual underflow and overflow to infinity (R93, R110). -/
def ffRound (f : FFmt) : FV → Nat
  | .nan => f.qnan
  | .inf neg => (if neg then 2 ^ (f.prec - 1 + f.ebits) else 0) + (2 ^ f.ebits - 1) * 2 ^ (f.prec - 1)
  | .fin neg m e =>
    if m = 0 then (if neg then 2 ^ (f.prec - 1 + f.ebits) else 0)
    else
      let q := ffQ f m e
      let m' := if q ≤ e then m <<< (e - q).toNat else rneShift m (q - e).toNat
      ffPack f neg m' q

/-- Round toward zero, and whether the result is inexact: the lower neighbour of the magnitude. -/
def ffTrunc (f : FFmt) (neg : Bool) (m : Nat) (e : Int) : Nat × Bool :=
  if m = 0 then ((if neg then 2 ^ (f.prec - 1 + f.ebits) else 0), false)
  else
    let q := ffQ f m e
    if q ≤ e then (ffPack f neg (m <<< (e - q).toNat) q, false)
    else
      let k := (q - e).toNat
      (ffPack f neg (m >>> k) q, decide (m % 2 ^ k ≠ 0))

def dec32 (x : F32) : FV := ffDecode fp32 x.toNat
def rnd32 (v : FV) : F32 := BitVec.ofNat 32 (ffRound fp32 v)

/-- Signed mantissa of a finite value. -/
def sgn (neg : Bool) (m : Nat) : Int := if neg then -(m : Int) else m

def FV.neg : FV → FV
  | .nan => .nan
  | .inf s => .inf (!s)
  | .fin s m e => .fin (!s) m e

/-- Exact sum. A zero sum is −0 only when both operands are negative (IEEE 754, roundTiesToEven). -/
def FV.add : FV → FV → FV
  | .nan, _ => .nan
  | _, .nan => .nan
  | .inf a, .inf b => if a = b then .inf a else .nan
  | .inf a, _ => .inf a
  | _, .inf b => .inf b
  | .fin a m e, .fin b n f =>
    let q := min e f
    let v := sgn a m * 2 ^ (e - q).toNat + sgn b n * 2 ^ (f - q).toNat
    if v = 0 then .fin (a && b) 0 0 else .fin (decide (v < 0)) v.natAbs q

/-- Exact product. -/
def FV.mul : FV → FV → FV
  | .nan, _ => .nan
  | _, .nan => .nan
  | .inf a, .inf b => .inf (a != b)
  | .inf a, .fin b n _ => if n = 0 then .nan else .inf (a != b)
  | .fin a m _, .inf b => if m = 0 then .nan else .inf (a != b)
  | .fin a m e, .fin b n f => .fin (a != b) (m * n) (e + f)

def FV.isNan : FV → Bool
  | .nan => true
  | _ => false

/-- a < b; false with a NaN. -/
def FV.lt : FV → FV → Bool
  | .nan, _ => false
  | _, .nan => false
  | .inf a, .inf b => a && !b
  | .inf a, .fin _ _ _ => a
  | .fin _ _ _, .inf b => !b
  | .fin a m e, .fin b n f =>
    let q := min e f
    decide (sgn a m * 2 ^ (e - q).toNat < sgn b n * 2 ^ (f - q).toNat)

/-- a = b as numbers; false with a NaN. -/
def FV.eq : FV → FV → Bool
  | .nan, _ => false
  | _, .nan => false
  | .inf a, .inf b => a == b
  | .inf _, .fin _ _ _ => false
  | .fin _ _ _, .inf _ => false
  | .fin a m e, .fin b n f =>
    let q := min e f
    decide (sgn a m * 2 ^ (e - q).toNat = sgn b n * 2 ^ (f - q).toNat)

/-! ### FP32 operations (R93, R148, R150) -/

def f32Add (x y : F32) : F32 := rnd32 ((dec32 x).add (dec32 y))
def f32Sub (x y : F32) : F32 := rnd32 ((dec32 x).add (dec32 y).neg)
def f32Mul (x y : F32) : F32 := rnd32 ((dec32 x).mul (dec32 y))
/-- x × y + z with one rounding. -/
def f32Fma (x y z : F32) : F32 := rnd32 (((dec32 x).mul (dec32 y)).add (dec32 z))
def f32Nan (x : F32) : Bool := (dec32 x).isNan
def qnan32 : F32 := 0x7FC00000

/-- An order on codes with −0 below +0 (Table 6.3, FMIN). -/
def f32Key (x : F32) : Int := if x.getLsbD 31 then -(x.toNat % 2 ^ 31 : Nat) - 1 else (x.toNat : Int)

/-- IEEE 754-2019 minimum: NaN propagates, as the canonical NaN (R91); −0 < +0. -/
def f32Min (x y : F32) : F32 :=
  if f32Nan x || f32Nan y then qnan32 else if f32Key x ≤ f32Key y then x else y
/-- IEEE 754-2019 maximum. -/
def f32Max (x y : F32) : F32 :=
  if f32Nan x || f32Nan y then qnan32 else if f32Key x ≤ f32Key y then y else x
def f32Lt (x y : F32) : Bool := (dec32 x).lt (dec32 y)
def f32Eq (x y : F32) : Bool := (dec32 x).eq (dec32 y)
def f32Le (x y : F32) : Bool := f32Lt x y || f32Eq x y
def f32Zero (x : F32) : Bool := decide (x.toNat % 2 ^ 31 = 0)
def f32One : F32 := 0x3F800000
def f32Abs (x : F32) : F32 := x &&& 0x7FFFFFFF
def f32Neg (x : F32) : F32 := x ^^^ 0x80000000

/-! ### Transcendentals (R152, Table 6.5)

The exact value is computed in fixed point with far more digits than FP32 holds; the result is one of its FP32
neighbours, which of them is Config's (log entry 4). -/

/-- Integer square root by bits, from bit k down. -/
def isqrtBits (n : Nat) : Nat → Nat → Nat
  | 0, r => r
  | k + 1, r =>
    let t := r + 2 ^ k
    isqrtBits n k (if t * t ≤ n then t else r)
/-- floor (sqrt n). -/
def isqrt (n : Nat) : Nat := isqrtBits n (Nat.log2 n / 2 + 1) 0

/-- Working precision of the fixed-point evaluations. -/
def fpPrec : Nat := 192

/-- 2^f in units of 2^(−fpPrec), f the fraction in units of 2^(−fpPrec): the product of the roots 2^(2^(−j)) over the bits of f;
root is the current root, acc the product so far, n the bits left. -/
def exp2Frac (f : Nat) : Nat → Nat → Nat → Nat
  | 0, _, acc => acc
  | n + 1, root, acc =>
    let root' := isqrt (root <<< fpPrec)
    let acc' := if (f >>> n) % 2 = 1 then (acc * root') >>> fpPrec else acc
    exp2Frac f n root' acc'

/-- 2^y for y in units of 2^(−fpPrec): significand in units of 2^(−fpPrec) and exponent. -/
def exp2Fix (y : Int) : Nat × Int :=
  let i := y.fdiv (2 ^ fpPrec)
  let f := (y - i * 2 ^ fpPrec).toNat
  (exp2Frac f fpPrec (2 <<< fpPrec) (1 <<< fpPrec), i - (fpPrec : Nat))

/-- A finite value in units of 2^(−fpPrec), truncated. -/
def toFix (neg : Bool) (m : Nat) (e : Int) : Int :=
  let v := if e + (fpPrec : Nat) ≥ 0 then m <<< (e + (fpPrec : Nat)).toNat else m >>> (-(e + (fpPrec : Nat))).toNat
  sgn neg v

/-- The neighbour above a magnitude (the next code); an infinity has none. Beyond the rules' words: log entry 4 (DESIGN CHOICE). -/
def ulpUp (c : F32) (n : Nat) : F32 := if fld c 23 8 = 0xFF then c else BitVec.ofNat 32 (c.toNat + n)

/-- The result of an approximation: the truncated value, or the next one where up says so and the value is inexact. -/
def pick2 (op : Nat) (x : F32) (neg : Bool) (m : Nat) (e : Int) (sticky : Bool) : F32 :=
  let t := ffTrunc fp32 neg m e
  let c : F32 := BitVec.ofNat 32 t.1
  if (t.2 || sticky) && Config.transUp op x then ulpUp c 1 else c

/-- 2^x. -/
def f32Exp2 (x : F32) : F32 :=
  match dec32 x with
  | .nan => qnan32
  | .inf neg => if neg then 0 else 0x7F800000
  | .fin neg m e =>
    if m = 0 then f32One
    else if !neg && f32Key x ≥ 0x43000000 then 0x7F800000
    else if neg && f32Lt x 0xC3160000 then 0
    else if e ≥ 0 then
      let v := exp2Fix (toFix neg m e)
      pick2 0x18 x false v.1 v.2 false
    else
      let v := exp2Fix (toFix neg m e)
      pick2 0x18 x false v.1 v.2 (decide (m % 2 ^ (-e).toNat ≠ 0))

/-- Fraction bits of log2 y, y in [1, 2) in units of 2^(−fpPrec), n bits, most significant first. -/
def log2Frac : Nat → Nat → Nat → Nat
  | 0, _, acc => acc
  | n + 1, y, acc =>
    let y2 := (y * y) >>> fpPrec
    if y2 ≥ 2 <<< fpPrec then log2Frac n (y2 >>> 1) (2 * acc + 1) else log2Frac n y2 (2 * acc)

/-- log2 x. -/
def f32Log2 (x : F32) : F32 :=
  match dec32 x with
  | .nan => qnan32
  | .inf neg => if neg then qnan32 else 0x7F800000
  | .fin neg m e =>
    if m = 0 then 0xFF800000
    else if neg then qnan32
    else
      let k := Nat.log2 m
      let i : Int := e + (k : Nat)
      if m = 2 ^ k then rnd32 (.fin (decide (i < 0)) i.natAbs 0)
      else
        let fr := log2Frac 80 (m <<< (fpPrec - k)) 0
        let v : Int := i * 2 ^ 80 + (fr : Int)
        pick2 0x19 x (decide (v < 0)) v.natAbs (-80) true

/-- 1 / x. -/
def f32Rcp (x : F32) : F32 :=
  match dec32 x with
  | .nan => qnan32
  | .inf neg => if neg then 0x80000000 else 0
  | .fin neg m e =>
    if m = 0 then (if neg then 0xFF800000 else 0x7F800000)
    else pick2 0x1A x neg (2 ^ 64 / m) (-64 - e) (decide (2 ^ 64 % m ≠ 0))

/-- 1 / sqrt x. -/
def f32Rsqrt (x : F32) : F32 :=
  match dec32 x with
  | .nan => qnan32
  | .inf neg => if neg then qnan32 else 0
  | .fin neg m e =>
    if m = 0 then (if neg then 0xFF800000 else 0x7F800000)
    else if neg then qnan32
    else
      -- even exponent: x = n × 4^h; 1 / sqrt x = sqrt (2^128 / n) × 2^(−64 − h)
      let n := if e % 2 = 0 then m else 2 * m
      let h := if e % 2 = 0 then e / 2 else (e - 1) / 2
      let q := 2 ^ 128 / n
      let r := isqrt q
      pick2 0x1B x false r (-64 - h) (decide (r * r * n ≠ 2 ^ 128))

/-- log2 e in units of 2^(−fpPrec). -/
def log2e : Nat := 0x171547652b82fe1777d0ffda0d23a7d11d6aef551bad2b4b1

/-- tanh x; within 2 ulp, the value picked by Config. -/
def f32Tanh (x : F32) : F32 :=
  match dec32 x with
  | .nan => qnan32
  | .inf neg => if neg then 0xBF800000 else 0x3F800000
  | .fin neg m e =>
    if m = 0 then x
    else
      let ax := f32Key (f32Abs x)
      let low : F32 :=
        if ax < 0x39000000 then f32Abs x - 1        -- |x| < 2^−13: just below |x|
        else if ax ≥ 0x41800000 then 0x3F7FFFFF     -- |x| ≥ 16: just below 1
        else
          let t := (toFix false m e).toNat
          let y := (2 * t * log2e) >>> fpPrec
          let v := exp2Fix (y : Int)
          -- e^(2|x|) in units of 2^(−fpPrec)
          let ex := v.1 <<< (v.2 + (fpPrec : Nat)).toNat
          let num := ex - (1 <<< fpPrec)
          let den := ex + (1 <<< fpPrec)
          BitVec.ofNat 32 (ffTrunc fp32 false ((num <<< fpPrec) / den) (-(fpPrec : Nat))).1
      -- two codes above a magnitude that ends its binade lie more than 2 ulp away
      let k := (Config.tanhPick x).val
      let up := if k = 3 ∧ fld low 0 23 = 2 ^ 23 - 1 then 2 else k
      let r := BitVec.ofNat 32 (low.toNat + up - 1)
      if neg then f32Neg r else r

end Sys2Proof.Machine
end

