-- ==== Sys2Proof/Syntax.lean ====
section
/-! DEFINITION. The commands of the panel: one constructor of Instr per row of spec/opcode_table.json, with its
operands, and the small types the operands are made of. -/

namespace Sys2Proof

/-- The four hardware contexts of a core (Table 5.2, CR_CTX). -/
inductive Ctx where | main | hand | tow | dbg
  deriving DecidableEq, Repr

/-- The two banks (1.2). -/
inductive Bank where | west | east
  deriving DecidableEq, Repr

/-- The four seam directions, numbered N 0, E 1, S 2, W 3 (Table 9.7). -/
inductive Dir where | n | e | s | w
  deriving DecidableEq, Repr

/-- The rails of a tile (Table 12.4). -/
inductive Rail where | vnet | vsram | vcore
  deriving DecidableEq, Repr

/-- The supplies other than reaches (Table 1.6). -/
inductive Supply where | lhN | lhC | lhS | northOptics | southOptics | kcl
  deriving DecidableEq, Repr

/-- The completion statuses of Table 0.7 (R11), in the order of their codes. -/
inductive Status where
  | done | berthFull | berthClosed | staleGeneration | windowClosed | windowBounds | noRights | tileReset
  | tileFenced | replyTimeout | memoryUncorrectable | partnerLost | refusedCapacity | stepAborted | checkMismatch
  | pageNotPresent | illegalDescriptor | heldTimeout | admissionTimeout | timingUnsafe_ | mapUnverified
  deriving DecidableEq, Repr

/-- The core fault codes of Table 5.11. -/
inductive CoreFault where
  | illegalBundle | regRange | spdBounds | addrIllegal | matrixConfig | matrixHazard | handlerBudget | handStall
  | istoreBounds | contextIllegal | pendMismatch | spdEcc | istoreEcc | memUncorrectable
  deriving DecidableEq, Repr

/-- The cause of an abort: a status or a core fault code (Table 11.11, CAUSE and CAUSE_FAULT). -/
inductive Cause where
  | none | status (s : Status) | fault (f : CoreFault)
  deriving DecidableEq, Repr

/-- The paths of Table 17.12. -/
inductive Path where | internal | k0 | k1 | i3c | i2c | ethernet | pcie | jtag | towpath
  deriving DecidableEq, Repr

/-- The principals of Table 17.12. -/
inductive Origin where
  | none | firmware | runtimeK0 | runtimeK1 | bmc | ethPeer | pcieHost | jtag | hardware | certificate
  deriving DecidableEq, Repr

/-- The issue of one bundle by one context: where, by which context, in which cycle of the tile (counted without a
reset at gate ticks), at which bundle index, and the 256 bits of the bundle (Table 5.4). A command that carries it is
the slot of its own mnemonic; the other slots of the bundle come as commands with the same issue (R117). -/
structure Issue where
  pos : Pos
  ctx : Ctx
  cc : Nat
  idx : BitVec 14
  bundle : Bundle
  deriving DecidableEq, Repr

/-- What service code of TOW writes (R122). -/
inductive TowWrite where
  | sReg (hand : Bool) (r : Fin 32) (v : Word)
  | aReg (hand : Bool) (r : Fin 16) (v : BitVec 48)
  | pReg (hand : Bool) (r : Fin 8) (v : Bool)
  | vReg (r : Fin 64) (v : VReg)    -- of MAIN
  | vHand (r : Fin 4) (v : VReg)    -- of HAND
  | store (k : BitVec 14) (b : Bundle)
  | handler (k : BitVec 8) (e : Word)
  deriving DecidableEq, Repr

/-- An AXL link frame (Table 10.3): its fields, the payload's leading bytes, of which the rest are zero, and the reserved bits; with it
what the receiver's FEC met. -/
structure Frame where
  vc : BitVec 2
  kind : BitVec 2
  pseq : BitVec 16
  lseq : BitVec 8
  ack : BitVec 8
  nak : Bool
  crVc : BitVec 2
  credits : BitVec 11
  channel : BitVec 8
  code : BitVec 8
  len : BitVec 8
  index : BitVec 32
  payload : List Byte
  crc : BitVec 32
  resv0 : BitVec 14          -- reserved bits of word 0, of word 1, and of bytes 240 to 255
  resv1 : BitVec 8
  resv2 : BitVec 96
  fecCorr : Nat              -- codewords corrected in receiving it
  fecUncorr : Nat            -- uncorrectable codewords it fell in
  deriving DecidableEq, Repr

/-- What a start-up stage finds (Table 15.1): its time and duration, the identifiers of the units that failed in it
(Table 15.3), and the findings of the single stages. -/
structure StageIn where
  stage : Fin 11
  t : Nat
  durMs : BitVec 32
  failing : List (BitVec 40)
  housesUp : BitVec 3          -- stages 0x00 to 0x02: lock-houses powered, started, verified
  dly : BitVec 2               -- OSC_DLY strap
  boot : Bool                  -- BOOT_SEL strap
  slots : BitVec 3             -- stage 0x02: slot each lock-house runs
  pkgVersion : BitVec 32
  partCopies : Vector (BitVec 64) 3
  mapOk : Bool                 -- stage 0x03: the fuse map matches its digest
  profile : Bool               -- stage 0x05: 0 INFER, 1 BALANCED
  lats : List (Pos × Dir × BitVec 24)
  groups : List (Pos × BitVec 5 × BitVec 5)   -- stage 0x07: bad column groups
  mcode : BitVec 8
  delays : List (Pos × Nat × Nat)    -- stage 0x08: path delays of beacons from LH-C and from LH-N, ns
  homes : BitVec 5 × BitVec 5  -- stage 0x08: chart homes
  baseW : BitVec 16
  deriving DecidableEq, Repr

/-- A flit that fails its seam check (R251): the direction it came from, the lane group at fault, and the panel time. -/
structure BadFlit where
  dir : Dir
  lane : Fin 48
  t : Nat
  deriving DecidableEq, Repr

/-- The events of Table 15.8. -/
inductive RepairEvent where
  | checkMismatch (lt : Lt) | coreFault (lt : Lt) | scratchErrors (lt : Lt) | replyTimeouts (lt : Lt)
  | soundingMismatch (lt : Lt) | unsynced (p : Pos) | watchdogExp (p : Pos) | lockLate (p : Pos)
  | overcurrent (p : Pos) | sensors (p : Pos) | vnetTrip (p : Pos) | sliceLines (p : Pos) | watchdogNoExp (p : Pos)
  | reach (r : ReachN) | frame (m : StackN) (f : BitVec 20)
  deriving DecidableEq, Repr

/-- The conditions of R433. -/
inductive MoorCause where
  | ltLost (lt : Lt) | stackLost (m : StackN) | houses | lhcSupply | kclSupply | temperature
  deriving DecidableEq, Repr

/-- An IEEE 1588 message as far as R370 and R375 read it. -/
inductive PtpMsg where
  | sync (offset : Int) | announce | delayReq (rx : Nat) | delayResp (delay : Int) | leaveSlave
  deriving DecidableEq, Repr

/-- A component of a firmware package (Table 17.4) with its bytes. -/
structure PkgComp where
  cls : BitVec 8
  svn : BitVec 8
  offset : BitVec 32
  length : BitVec 32
  digest : BitVec 256
  bytes : List Byte
  deriving DecidableEq, Repr

/-- A firmware package (Table 17.3): the fields and the bytes 0x0000 to 0x0BBF that its signature covers. -/
structure PackageIn where
  magic : BitVec 32
  version : BitVec 16
  components : BitVec 8
  ownerSlot : BitVec 8
  pkgVersion : BitVec 32
  compatFrom : BitVec 32
  reservedZero : Bool
  ownerPk : List Byte
  comps : List PkgComp
  signed : List Byte
  signature : List Byte
  deriving DecidableEq, Repr

/-- A signed management request (R462): key index, counter, signing time, the write it asks for, bytes and signature. -/
structure MgmtReq where
  key : BitVec 8
  counter : BitVec 64
  signedAt : Nat
  addr : Word
  value : Word
  bytes : List Byte
  signature : List Byte
  deriving DecidableEq, Repr

/-- A record to be entered in the Logbook (Table 17.11). -/
structure LogIn where
  type : BitVec 16
  origin : Origin
  path : Path
  key : BitVec 8
  data : List Byte
  deriving DecidableEq, Repr

/-- The commands: one constructor per row of spec/opcode_table.json. -/
inductive Instr where
  /-- TIME_BEACON (R29). Every 32 µs LH-C sends a time beacon on the towpath, and each under-tile slews its local panel time by the beacon time plus its calibrated path delay. -/
  | timeBeacon (t : Nat)
  /-- BEACON_MISS (R30). After four consecutive missed beacons, or on loss of reference, the tile is flagged unsynchronised, its step is aborted and the tile is treated as failed. -/
  | beaconMiss (p : Pos) (refLoss : Bool) (t : Nat)
  /-- GATE_TICK (R32). When local panel time reaches a multiple of the pound length, each synchronised under-tile fires a gate tick on the next core clock edge. -/
  | gateTick (t : Nat)
  /-- QUIET_WINDOW_RELEASE (R35). 64 cycles after its gate tick, a router releases all three VCs on its electrical seams and spare links. -/
  | quietWindowRelease (p : Pos)
  /-- CROSSING_RECENTRE (R51). In cycles 40 to 47 of the quiet window, each receiving crossing empties and recentres, clearing SLIPPED and DRIFT. -/
  | crossingRecentre (p : Pos)
  /-- POUND_LEN_WRITE (R33). A write to NEXT_LEN_US requests a new pound length; an out-of-range value is ignored and sets ERR to ILLEGAL_DESCRIPTOR. -/
  | poundLenWrite (v : BitVec 15)
  /-- POUND_LENGTH_CHANGE (R34). At a gate tick with no accepted step on the panel, the pending pound length comes into force after an interval that runs no pound. -/
  | poundLengthChange (t : Nat)
  /-- DROOP_STRETCH (R339). When the lowest droop reading falls 20 mV below target, the adaptive clock stretches periods and the stretch is added to STRETCH_Q. -/
  | droopStretch (p : Pos) (mv : Nat) (quarters : Fin 4)
  /-- STEP_ABORT (R47). LH-C receives an abort cause, sends ABORT to every LT of the step, and resets the step's berths, windows and chambers before the next gate tick. -/
  | stepAbort (step : Nat) (cause : Cause) (lt : BitVec 7) (overrun : Bool) (t : Nat)
  /-- CORE_ABORT (R47). On arrival of ABORT, a core stops MAIN and HAND at the next bundle boundary and cancels its moves not yet injected. -/
  | coreAbort (p : Pos) (cc : Nat)
  /-- REPLAY_RESTORE (R493). Before each replay the migration engine copies the step's RESTORE entries in order; a failed copy ends the step without replay. -/
  | replayRestore (step : Nat) (t : Nat)
  /-- ADD (R148). Sd = Sa + Sb. -/
  | add (i : Issue)
  /-- SUB (R148). Sd = Sa − Sb. -/
  | sub (i : Issue)
  /-- AND (R148). Bitwise AND of Sa and Sb into Sd. -/
  | and (i : Issue)
  /-- OR (R148). Bitwise OR of Sa and Sb into Sd. -/
  | or (i : Issue)
  /-- XOR (R148). Bitwise XOR of Sa and Sb into Sd. -/
  | xor (i : Issue)
  /-- SHL (R148). Shifts Sa left by Sb[5:0]. -/
  | shl (i : Issue)
  /-- SHR (R148). Shifts Sa right, logically, by Sb[5:0]. -/
  | shr (i : Issue)
  /-- SAR (R148). Shifts Sa right, arithmetically, by Sb[5:0]. -/
  | sar (i : Issue)
  /-- MUL (R148). Low 64 bits of Sa × Sb into Sd, latency 3. -/
  | mul (i : Issue)
  /-- MIN (R148). Signed minimum of Sa and Sb. -/
  | min (i : Issue)
  /-- MAX (R148). Signed maximum of Sa and Sb. -/
  | max (i : Issue)
  /-- MINU (R148). Unsigned minimum of Sa and Sb. -/
  | minu (i : Issue)
  /-- MAXU (R148). Unsigned maximum of Sa and Sb. -/
  | maxu (i : Issue)
  /-- ADDI (R148). Sd = Sa + sign-extended immediate. -/
  | addi (i : Issue)
  /-- MOVI (R148). Sd = sign-extended immediate. -/
  | movi (i : Issue)
  /-- MOVHI (R148). Writes the immediate into Sd[63:32] and keeps Sd[31:0]. -/
  | movhi (i : Issue)
  /-- CMPEQ (R148). Pd = (Sa == Sb). -/
  | cmpeq (i : Issue)
  /-- CMPNE (R148). Pd = (Sa != Sb). -/
  | cmpne (i : Issue)
  /-- CMPLT (R148). Pd = Sa < Sb, signed. -/
  | cmplt (i : Issue)
  /-- CMPLTU (R148). Pd = Sa < Sb, unsigned. -/
  | cmpltu (i : Issue)
  /-- CMPLE (R148). Pd = Sa ≤ Sb, signed. -/
  | cmple (i : Issue)
  /-- CMPLEU (R148). Pd = Sa ≤ Sb, unsigned. -/
  | cmpleu (i : Issue)
  /-- FADD (R148). FP32 addition of the low words of Sa and Sb. -/
  | fadd (i : Issue)
  /-- FSUB (R148). FP32 subtraction of the low words of Sa and Sb. -/
  | fsub (i : Issue)
  /-- FMUL (R148). FP32 multiplication of the low words of Sa and Sb. -/
  | fmul (i : Issue)
  /-- FFMA (R148). Sd = Sa × Sb + Sd in FP32 with one rounding. -/
  | ffma (i : Issue)
  /-- FMIN (R148). IEEE 754-2019 FP32 minimum. -/
  | fmin (i : Issue)
  /-- FMAX (R148). IEEE 754-2019 FP32 maximum. -/
  | fmax (i : Issue)
  /-- FCMPLT (R148). FP32 less-than into Pd; false when either operand is NaN. -/
  | fcmplt (i : Issue)
  /-- FCMPEQ (R148). FP32 equality into Pd; false when either operand is NaN. -/
  | fcmpeq (i : Issue)
  /-- FCMPLE (R148). FP32 less-or-equal into Pd; false when either operand is NaN. -/
  | fcmple (i : Issue)
  /-- PAND (R148). Predicate AND. -/
  | pand (i : Issue)
  /-- POR (R148). Predicate OR. -/
  | por (i : Issue)
  /-- PXOR (R148). Predicate XOR. -/
  | pxor (i : Issue)
  /-- PNOT (R148). Pd = not Pa. -/
  | pnot (i : Issue)
  /-- SEL (R148). Sd = Sa when the guard is true, otherwise Sb. -/
  | sel (i : Issue)
  /-- AADDI (R148). Ad = Aa + immediate, modulo 2^48. -/
  | aaddi (i : Issue)
  /-- ATOS (R148). Sd = Aa, zero-extended. -/
  | atos (i : Issue)
  /-- STOA (R148). Ad = Sa[47:0]. -/
  | stoa (i : Issue)
  /-- LD32 (R146). Loads 32 bits, zero-extended, from the scratchpad through VX, with the wheel-timed latency. -/
  | ld32 (i : Issue)
  /-- LD64 (R146). Loads 64 bits from the scratchpad through VX. -/
  | ld64 (i : Issue)
  /-- ST32 (R146). Stores 32 bits to the scratchpad through VY. -/
  | st32 (i : Issue)
  /-- ST64 (R146). Stores 64 bits to the scratchpad through VY. -/
  | st64 (i : Issue)
  /-- CRR (R115). Reads a control register into Sd; an index above 0x0C raises ILLEGAL_BUNDLE. -/
  | crr (i : Issue)
  /-- CRW (R115). Writes Sa into a control register; a write to an RO register, or one the context may not write, raises CONTEXT_ILLEGAL. -/
  | crw (i : Issue)
  /-- BR (R120). Branches to the target bundle, which issues three cycles later. -/
  | br (i : Issue)
  /-- BRI (R120). Branches to the bundle index held in Sa. -/
  | bri (i : Issue)
  /-- CALL (R120). Writes the index of the next bundle into Sd, then branches to the target. -/
  | call (i : Issue)
  /-- LOOP (R149). Sets up a loop entry with its start, end and count; a count of 0 skips the body. -/
  | loop (i : Issue)
  /-- HWIN (R139). Opens a handler window of n cycles in which MAIN issues nothing. -/
  | hwin (i : Issue)
  /-- HWIN_EXPIRY (R139). At t + 1 + n, MAIN issues again and suspends any running handler. -/
  | hwinExpiry (p : Pos) (cc : Nat)
  /-- PEND (R132). Ends the pound for the core, which then waits at stall point 5 for the gate tick. -/
  | pend (i : Issue)
  /-- HRET (R138). Ends the handler and consumes its barge from the berth. -/
  | hret (i : Issue)
  /-- VADD (R150). Lane-wise FP32 addition. -/
  | vadd (i : Issue)
  /-- VSUB (R150). Lane-wise FP32 subtraction. -/
  | vsub (i : Issue)
  /-- VMUL (R150). Lane-wise FP32 multiplication. -/
  | vmul (i : Issue)
  /-- VFMA (R150). Lane-wise Va × Vb + Vc with one rounding. -/
  | vfma (i : Issue)
  /-- VMAX (R150). Lane-wise FMAX. -/
  | vmax (i : Issue)
  /-- VMIN (R150). Lane-wise FMIN. -/
  | vmin (i : Issue)
  /-- VABS (R150). Clears the sign bit of each lane. -/
  | vabs (i : Issue)
  /-- VNEG (R150). Flips the sign bit of each lane. -/
  | vneg (i : Issue)
  /-- VMOV (R150). Copies the lanes of Va. -/
  | vmov (i : Issue)
  /-- VBCAST (R150). Writes Sb[31:0] into every lane. -/
  | vbcast (i : Issue)
  /-- VCMPLT (R150). Each lane becomes 1.0 when Va < Vb, else +0. -/
  | vcmplt (i : Issue)
  /-- VCMPEQ (R150). Each lane becomes 1.0 when Va = Vb, else +0. -/
  | vcmpeq (i : Issue)
  /-- VSEL (R150). Each lane takes Va where Vc is not ±0, else Vb. -/
  | vsel (i : Issue)
  /-- VRSUM (R151). Tree-ordered FP32 sum of the lanes, written into every lane. -/
  | vrsum (i : Issue)
  /-- VRMAX (R151). Tree-ordered maximum of the lanes, written into every lane. -/
  | vrmax (i : Issue)
  /-- VEXP2 (R152). 2^x per lane, within 1 ulp. -/
  | vexp2 (i : Issue)
  /-- VLOG2 (R152). log2 per lane, within 1 ulp. -/
  | vlog2 (i : Issue)
  /-- VRCP (R152). Reciprocal per lane, within 1 ulp. -/
  | vrcp (i : Issue)
  /-- VRSQRT (R152). Reciprocal square root per lane, within 1 ulp. -/
  | vrsqrt (i : Issue)
  /-- VTANH (R152). tanh per lane, within 2 ulp. -/
  | vtanh (i : Issue)
  /-- VCVTI (R154). Converts FP32 or BF16 lanes into a packed format, choosing block scales. -/
  | vcvti (i : Issue)
  /-- VCVTO (R154). Decodes a packed format into FP32 lanes or packed BF16. -/
  | vcvto (i : Issue)
  /-- VLD (R150). Loads 4 × CR_VL bytes into the lanes through VX. -/
  | vld (i : Issue)
  /-- VST (R150). Stores the lanes below CR_VL through VY. -/
  | vst (i : Issue)
  /-- VLDB (R153). Loads packed elements and their block scales into a vector register. -/
  | vldb (i : Issue)
  /-- VSTB (R153). Stores packed elements and their block scales. -/
  | vstb (i : Issue)
  /-- MCONF (R67). Sets the format pair, the mode, the broadcast factor and the arithmetic mode, which fixes the feed stretch. -/
  | mconf (i : Issue)
  /-- MLOAD (R72). Loads k × n weights into submatrices of the shadow plane through MW. -/
  | mload (i : Issue)
  /-- MLOAD_COMPLETE (R72). At L_load, the check sums are complete and the shadow plane is ready. -/
  | mloadComplete (p : Pos) (cc : Nat)
  /-- MSTEP (R75). Runs c steps against the active plane, SET or ADD into the accumulator rows. -/
  | mstep (i : Issue)
  /-- MSTEP_COMPLETE (R160). The last step's partial sums are written, and the completion chamber is signalled. -/
  | mstepComplete (p : Pos) (cc : Nat)
  /-- MDRAIN (R76). Reads, converts and writes accumulator rows to the scratchpad through MO, clearing them when CLEAR is set. -/
  | mdrain (i : Issue)
  /-- MDRAIN_COMPLETE (R76). The drain finishes its check comparisons and completes. -/
  | mdrainComplete (p : Pos) (cc : Nat)
  /-- MCHKV (R155). Returns a row's check value into Sc. -/
  | mchkv (i : Issue)
  /-- MFLAGS (R155). Returns a row's INEXACT and OVF flags and its rounding count into Sc. -/
  | mflags (i : Issue)
  /-- KEEPER_FILL (R82). When the array falls idle during a step, the keeper fills the gap with dummy operations at LEVEL. -/
  | keeperFill (p : Pos) (cc : Nat)
  /-- KEEPER_GAP_EXPIRY (R84). A gap beyond THRESH with no DOWN note makes the keeper ramp down and counts UNANNOUNCED_DOWN. -/
  | keeperGapExpiry (p : Pos) (cc : Nat)
  /-- POWNOTE (R83). Issues a ramp notice with a direction, a level and a lead, and passes it to the tile regulator. -/
  | pownote (i : Issue)
  /-- POWNOTE_LEAD_EXPIRY (R342). At the noted cycle, the keeper and regulator carry out the UP boost or the DOWN clamp and ramp. -/
  | pownoteLeadExpiry (p : Pos) (cc : Nat)
  /-- STALL_RELEASE (R124). A held stalling bundle issues in the cycle after its releasing event becomes visible. -/
  | stallRelease (p : Pos) (cc : Nat)
  /-- SEND_PATIENCE_EXPIRY (R166). A SEND stalled for CR_PATIENCE cycles completes with BERTH_FULL and stages nothing. -/
  | sendPatienceExpiry (p : Pos) (cc : Nat)
  /-- HANDLER_START (R136). A pending invocation starts its handler four cycles after posting or after the previous HRET, with the entry registers of Table 5.10. -/
  | handlerStart (p : Pos) (cc : Nat)
  /-- DBG_HALT (R123). A debug request halts MAIN, only for a DEBUG step. -/
  | dbgHalt (p : Pos)
  /-- TOW_SERVICE (R122). Firmware posts service code to TOW, whose writes to MAIN state are refused while a step names the LT. -/
  | towService (p : Pos) (w : TowWrite)
  /-- STRM (R182). Reads a stream descriptor through DO and starts the stream, or refuses it at issue. -/
  | strm (i : Issue)
  /-- SWAIT (R124). Waits at stall point 4 until the stream completes, then returns its status. -/
  | swait (i : Issue)
  /-- STEST (R164). Returns a slot's status and busy bit without waiting. -/
  | stest (i : Issue)
  /-- RWR (R164). Starts a remote write of length bytes into a window. -/
  | rwr (i : Issue)
  /-- RRD (R164). Starts a remote read into the own scratchpad through DI. -/
  | rrd (i : Issue)
  /-- SEND (R166). Copies a barge into send staging, stalling at point 3 while staging is full. -/
  | send (i : Issue)
  /-- SENDN (R166). As SEND, but completes at once with BERTH_FULL when staging is full. -/
  | sendn (i : Issue)
  /-- SENDC (R210). Sends a combining barge to a weir berth. -/
  | sendc (i : Issue)
  /-- RECV (R219). Waits at stall point 2 for a whole barge and returns its offset, length, source and tag. -/
  | recv (i : Issue)
  /-- BPOP (R219). Consumes the head barge of a berth. -/
  | bpop (i : Issue)
  /-- BOPEN (R214). Opens a berth from its descriptor at a new generation. -/
  | bopen (i : Issue)
  /-- BCLOSE (R215). Closes a berth one cycle after issue. -/
  | bclose (i : Issue)
  /-- BCLOSE_COMPLETE (R215). BCLOSE completes once every barge accepted before the close has landed. -/
  | bcloseComplete (p : Pos) (b : Fin 64) (cc : Nat)
  /-- WOPEN (R232). Opens a window from its descriptor at a new generation, with its rights mask. -/
  | wopen (i : Issue)
  /-- WCLOSE (R234). Closes a window one cycle after issue and keeps its generation. -/
  | wclose (i : Issue)
  /-- WCLOSE_COMPLETE (R234). WCLOSE completes once every write accepted before the close has landed. -/
  | wcloseComplete (p : Pos) (w : Fin 256) (cc : Nat)
  /-- CARM (R236). Arms a tile or Canal chamber: count 0, target n. -/
  | carm (i : Issue)
  /-- CSIG (R243). Sends SIGNAL(n) to any chamber by a class 0x3 address. -/
  | csig (i : Issue)
  /-- CWAIT (R240). Waits at stall point 1 until the chamber, or the Canal mirror bit, shows it reached. -/
  | cwait (i : Issue)
  /-- CTEST (R236). Returns a tile chamber's count and whether it is reached. -/
  | ctest (i : Issue)
  /-- MOVE_COMPLETION (R161). An asynchronous move completes, its slot becomes free with the status, and the CH chamber is signalled. -/
  | moveCompletion (p : Pos) (slot : Fin 64) (cc : Nat)
  /-- STREAM_PAGE_ENTRY (R183). The stream engine translates the next page and ends the stream at the first outcome of Table 7.8 that holds. -/
  | streamPageEntry (p : Pos) (slot : Fin 64) (cc : Nat)
  /-- CHART_CACHE_FILL (R202). The chart line arrives, fills eight entries, and evicted counts are added into ACCESS. -/
  | chartCacheFill (p : Pos) (page : BitVec 25)
  /-- STREAM_RING_RESERVE (R188). A chunk request waiting for landing-ring space is made once space frees. -/
  | streamRingReserve (p : Pos) (slot : Fin 64) (cc : Nat)
  /-- STREAM_CHUNK_REQUEST (R185). At its paced cycle, an IN stream requests chunk j from HBM. -/
  | streamChunkRequest (p : Pos) (slot : Fin 64) (cc : Nat)
  /-- STREAM_CHUNK_RELEASE (R185). At its release cycle, chunk j is released from the ring to DI and written. -/
  | streamChunkRelease (p : Pos) (slot : Fin 64) (cc : Nat)
  /-- OUT_CHUNK_READ (R185). At its paced cycle, an OUT stream reads chunk j through DO. -/
  | outChunkRead (p : Pos) (slot : Fin 64) (cc : Nat)
  /-- STREAM_COMPLETE (R184). A stream completes after its last byte, an OUT stream once its home slices have accepted every line. -/
  | streamComplete (p : Pos) (slot : Fin 64) (cc : Nat)
  /-- PATROL_SCRUB (R180). In a cycle in which NI moves nothing, the scrub reads one chunk in address order. -/
  | patrolScrub (p : Pos) (cc : Nat)
  /-- SCRUB_WRITEBACK (R180). A corrected chunk is written back in NI's next idle turn, unless it has been written since. -/
  | scrubWriteback (p : Pos) (cc : Nat)
  /-- STG_PART_WRITE (R189). A new RING_MIB takes effect after the reach's cache portion has been written back and invalidated. -/
  | stgPartWrite (p : Pos) (v : BitVec 4)
  /-- STG_FLUSH (R189). Setting FLUSH writes back every dirty line of the slice. -/
  | stgFlush (p : Pos)
  /-- STG_FLUSH_DONE (R189). The flush finishes and FLUSH reads 0. -/
  | stgFlushDone (p : Pos)
  /-- LINE_REQ (R190). A line request reaches its home slice and is served write-back and write-allocate. -/
  | lineReq (id : Nat)
  /-- SLICE_MISS_FILL (R191). Missing data arrives from the row-end controller, answers the requester and fills the slice. -/
  | sliceMissFill (id : Nat)
  /-- HBM_LINE_ACCESS (R197). The row-end controller serves a whole-line transaction by arbitration class. -/
  | hbmLineAccess (id : Nat)
  /-- LINE_DATA (R246). Line data or a write completion reaches its requester on the reply mesh. -/
  | lineData (id : Nat)
  /-- HBM_WRITE_SHARE_WINDOW (R199). A 4,096-cycle window whose OUT share exceeded one eighth lapses the C1 guarantee and is counted. -/
  | hbmWriteShareWindow (m : StackN)
  /-- HBM_ERROR_RECHECK (R196). After MEMORY_UNCORRECTABLE, firmware re-reads the failing line, then replays, retires the frame, or ends the step. -/
  | hbmErrorRecheck (step : Nat) (t : Nat)
  /-- CHT_COUNT_FLUSH (R203). Setting GO adds every chart cache's access counts into ACCESS. -/
  | chtCountFlush
  /-- CHT_HOME_WRITE (R208). Names the stacks that hold the chart copies and which copies are in use. -/
  | chtHomeWrite (v : BitVec 64)
  /-- CHART_ENTRY_UPDATE (R204). Firmware or the migration engine sets MIGRATING in both copies and invalidates the page in every chart cache. -/
  | chartEntryUpdate (page : BitVec 25) (new : BitVec 64)
  /-- CHART_INVALIDATION (R204). A chart cache receives a page invalidation on the towpath and acknowledges it. -/
  | chartInvalidation (p : Pos) (page : BitVec 25)
  /-- CHART_UPDATE_DRAINED (R204). With no request to the old location outstanding, the data is moved, both copies are written, and the page is invalidated again. -/
  | chartUpdateDrained (page : BitVec 25)
  /-- MIGRATION_QUEUE_ADMIT (R206). A runtime or firmware migration request waiting on a full queue enters it when a place frees. -/
  | migrationQueueAdmit
  /-- MIGRATION_START (R207). The migration engine starts moving one 64 KiB page. -/
  | migrationStart (t : Nat)
  /-- MIGRATION_COMPLETE (R207). The page move finishes, or fails and the previous entry is restored. -/
  | migrationComplete (t : Nat)
  /-- BARGE (R221). A barge's head flit is accepted, checked in order and given the tail entry of its berth. -/
  | barge (id : Nat) (cc : Nat)
  /-- BARGE_WHOLE (R218). The barge becomes whole in the cycle after its last payload byte is written, and is answered. -/
  | bargeWhole (p : Pos) (b : Fin 64) (e : Nat) (cc : Nat)
  /-- ORDERED_COMBINE (R226). An ORDERED group at COUNT is combined in SRC_LT order and delivered within its bound. -/
  | orderedCombine (p : Pos) (b : Fin 64) (key : BitVec 16) (cc : Nat)
  /-- WEIR_TIMEOUT (R224). A group short of COUNT after WEIR_TIMEOUT delivers its partial result and retires its KEY. -/
  | weirTimeout (p : Pos) (b : Fin 64) (key : BitVec 16) (cc : Nat)
  /-- BARGE_DELIVERY (R219). A whole head barge is delivered in entry order, to a handler invocation or to RECV. -/
  | bargeDelivery (p : Pos) (b : Fin 64) (cc : Nat)
  /-- BARGE_ANS (R227). A barge answer completes the staged barge, or schedules a retry after BERTH_FULL. -/
  | bargeAns (id : Nat) (cc : Nat)
  /-- BARGE_RETRY (R227). When the backoff expires, the staged barge is re-injected whole. -/
  | bargeRetry (p : Pos) (g : Fin 8) (cc : Nat)
  /-- WR (R233). A remote write's first packet is checked once, and the whole write is accepted or refused. -/
  | wr (id : Nat) (cc : Nat)
  /-- WR_ANS (R233). A write answer reaches the writer, whose slot completes after its last packet. -/
  | wrAns (id : Nat) (cc : Nat)
  /-- RD_REQ (R246). A read request is served at its destination through NI, and the answer is sent. -/
  | rdReq (id : Nat) (cc : Nat)
  /-- RD_DATA (R246). Read data or a status reaches the requester and lands through DI. -/
  | rdData (id : Nat) (cc : Nat)
  /-- CHAMBER_SIGNAL_ARRIVAL (R242). A CSIG arrives at its tile or at LH-C, is checked, and adds n to the count. -/
  | chamberSignalArrival (id : Nat) (cc : Nat)
  /-- CSIG_ANS (R243). The signal's answer completes the sender's slot. -/
  | csigAns (id : Nat) (cc : Nat)
  /-- CANAL_ARM_ARRIVAL (R243). An ARM of a Canal chamber is applied in LH-C, and the mirrors are then updated. -/
  | canalArmArrival (id : Nat) (cc : Nat)
  /-- MIRROR_UPDATE (R240). A tile receives an update of a Canal chamber's reached state. -/
  | mirrorUpdate (p : Pos) (j : Fin 8192)
  /-- TOW (R246). A firmware register access or service packet is served at its destination. -/
  | tow (addr : BitVec 64) (data : Option (BitVec 64)) (t : Nat)
  /-- TOW_ANS (R246). The status and data of a TOW packet reach the requester. -/
  | towAns (id : Nat)
  /-- PACKET_ROUTE (R254). A router chooses a packet's output from the tables of its EPOCH. -/
  | packetRoute (id : Nat)
  /-- COMBINE_HOLD_EXPIRY (R266). A held combining barge is forwarded when HOLD expires. -/
  | combineHoldExpiry (p : Pos) (e : Fin 16) (cc : Nat)
  /-- FLIT_REPLAY (R251). A flit failing its seam check is discarded and replayed, which counts as a SLIP. -/
  | flitReplay (p : Pos) (f : BadFlit)
  /-- SLUICE_RECOVERY (R265). 256 cycles without an echoed mark raise W by STEP. -/
  | sluiceRecovery (p : Pos) (cc : Nat)
  /-- SLUICE_INJECT (R265). A waiting VC2 request is injected once it fits the window. -/
  | sluiceInject (p : Pos) (cc : Nat)
  /-- EXPRESS_LAUNCH (R270). An emitter launches a towpath or barge frame within its allowance. -/
  | expressLaunch (id : Nat) (xc : Nat)
  /-- REPLY_TIMEOUT (R274). A request unanswered within the reply timer completes with REPLY_TIMEOUT. -/
  | replyTimeout (p : Pos) (id : Nat) (t : Nat)
  /-- MSH_TABLE_WRITE (R256). A write to an LT map or override entry, ignored for the version in force or for a reserved direction. -/
  | mshTableWrite (p : Pos) (ovr : Bool) (ver : Bool) (k : Nat) (v : BitVec 64)
  /-- MSH_EPOCH_ARM (R261). Setting ARM schedules a routing flip at the next gate tick. -/
  | mshEpochArm
  /-- DRAIN_SUM (R261). Every 1 µs, LH-C sums old-version flits and sets FREE at zero. -/
  | drainSum (t : Nat)
  /-- EPOCH_DRAIN_TIMEOUT (R261). A drain unfinished after 2 ms reports the tiles that still hold old-version flits. -/
  | epochDrainTimeout (t : Nat)
  /-- MERGE_TABLE_UPDATE (R267). Routers update the ORDERED bit of a weir berth. -/
  | mergeTableUpdate (lt : Lt) (b : Fin 8)
  /-- MSH_SEAM_MAP_WRITE (R250). Firmware maps repair lane groups or sets a seam out of service. -/
  | mshSeamMapWrite (p : Pos) (d : Dir) (v : BitVec 13)
  /-- AXL_ENABLE (R284). Setting EN turns the lasers on and moves the port to DARK. -/
  | axlEnable (x : PortN)
  /-- AXL_FRAME_LOCK (R284). Frame lock on 8 lanes starts training, or LOOPBACK when the own digest returns. -/
  | axlFrameLock (x : PortN) (lanes : Nat) (digest : BitVec 256) (t : Nat)
  /-- AXL_TRAINED (R284). Training completes, and the port goes UP with credits and time exchange. -/
  | axlTrained (x : PortN) (peerGen2 : Bool) (lanes : BitVec 16) (t : Nat)
  /-- AXL_TRAINING_TIMEOUT (R284). Fewer than 8 lanes trained after 50 ms returns the port to DARK. -/
  | axlTrainingTimeout (x : PortN) (t : Nat)
  /-- AXL_RETRY_TIMER (R284). After 100 ms, a DARK port retries training. -/
  | axlRetryTimer (x : PortN) (t : Nat)
  /-- AXL_LOSS_OF_LIGHT (R285). Loss of light or lock completes consignments and peer reads with PARTNER_LOST. -/
  | axlLossOfLight (x : PortN) (lanes : BitVec 16) (t : Nat)
  /-- AXL_DISABLE (R284). Clearing EN, a link reset or a wharf reach loss takes the port OFF. -/
  | axlDisable (x : PortN)
  /-- AXL_LOOP_WRITE (R289). A write of LOOP enters a loop-back mode, or is ignored while a consignment is loaded. -/
  | axlLoopWrite (x : PortN) (v : BitVec 3) (accepted : Bool)
  /-- AXL_LOOP_REQUEST (R288). A far-end loop-back request is accepted or refused by the peer. -/
  | axlLoopRequest (x : PortN) (v : BitVec 3)
  /-- AXL_DATA_FRAME (R282). A received data frame is delivered in PSEQ order, with duplicates discarded. -/
  | axlDataFrame (x : PortN) (lane : Fin 16) (f : Frame) (t : Nat)
  /-- AXL_NAK (R281). A NAK makes the sender resend its lane from ACK + 1. -/
  | axlNak (x : PortN) (lane : Fin 16) (ack : BitVec 8) (t : Nat)
  /-- AXL_TIME_EXCHANGE (R290). Every 1 µs the port sends a time frame to its peer. -/
  | axlTimeExchange (x : PortN) (t : Nat)
  /-- AXL_TIME_FRAME (R290). A received time frame updates the peer offset and delay in AXL_TIME. -/
  | axlTimeFrame (x : PortN) (t1 : Int) (t2 : Int) (t3 : Int) (t4 : Int) (src : BitVec 2)
  /-- AXL_CLEAR (R294). A CLEAR frame is held for its channel, and a fired SEND starts moving data. -/
  | axlClear (x : PortN) (ch : BitVec 8) (len : BitVec 32) (attempt : BitVec 4) (t : Nat)
  /-- AXL_CANCEL (R298). A CANCEL completes the consignment with the status it carries. -/
  | axlCancel (x : PortN) (ch : BitVec 8) (st : Status) (t : Nat)
  /-- CONSIGNMENT_MEET_TIMEOUT (R295). A consignment unmet after MEET_US completes with HELD_TIMEOUT and sends CANCEL. -/
  | consignmentMeetTimeout (x : PortN) (e : Fin 256) (t : Nat)
  /-- CONSIGNMENT_COMPLETE (R298). A consignment completes, writes STATUS and signals DONE. -/
  | consignmentComplete (x : PortN) (e : Fin 256) (t : Nat)
  /-- AXL_FETCH (R297). A peer read is served through the page chart in class C2, or refused. -/
  | axlFetch (x : PortN) (addr : BitVec 64) (len : BitVec 32) (ch : BitVec 8)
  /-- KCL_PORT_UP (R306). A KCL port trains to its highest common generation and comes UP. -/
  | kclPortUp (k : KPort) (peerGen : Fin 4) (lanes : Nat) (t : Nat)
  /-- KCL_LOSS (R308). A port losing its partner detects it within 2 µs and leaves UP. -/
  | kclLoss (k : KPort) (lanes : Nat) (t : Nat)
  /-- KCL_LOOP_WRITE (R307). Firmware selects a KCL loop-back, with the companion's consent for modes 3 and 4. -/
  | kclLoopWrite (k : KPort) (v : BitVec 3) (consent : Bool)
  /-- RD_SHARED (R310). A shared-copy read of a line, refused with NO_RIGHTS outside enabled windows. -/
  | rdShared (k : KPort) (addr : BitVec 41) (t : Nat)
  /-- RD_OWN (R310). The companion reads a panel line into an exclusive copy. -/
  | rdOwn (k : KPort) (addr : BitVec 41) (t : Nat)
  /-- RD_NC (R310). A read without keeping a copy, through the page chart. -/
  | rdNc (k : KPort) (addr : BitVec 41) (t : Nat)
  /-- WR_NC (R310). A whole-line write without keeping a copy, through the page chart. -/
  | wrNc (k : KPort) (addr : BitVec 41) (data : BitVec 512) (t : Nat)
  /-- WB (R311). The companion writes back a dirty panel line and drops it. -/
  | wb (k : KPort) (addr : BitVec 41) (data : BitVec 512) (t : Nat)
  /-- SNP_INV (R309). An invalidation snoop makes the receiver give up its copy and answer SNP_RSP. -/
  | snpInv (line : BitVec 64)
  /-- SNP_RSP (R311). The companion's snoop response is applied before the panel's access. -/
  | snpRsp (addr : BitVec 41) (data : Option (BitVec 512)) (t : Nat)
  /-- SNOOP_TIMEOUT (R311). With no SNP_RSP within SNOOP_US, the companion's copy is dropped and the event is counted. -/
  | snoopTimeout (addr : BitVec 41) (t : Nat)
  /-- KCL_TIME (R315). A TIME frame mark from the companion feeds the time servo. -/
  | kclTime (k : KPort) (tai : Nat) (t : Nat)
  /-- KCL_TIME_SEND (R315). Every 1 µs the panel sends its panel time on each UP port. -/
  | kclTimeSend (t : Nat)
  /-- MANIFEST_RING_NOTIFY (R317). Invalidation of line 0 makes the intake unit reread it and take the new entries. -/
  | manifestRingNotify (w : List HostCell) (t : Nat)
  /-- MANIFEST_STEP (R322). A STEP manifest is checked in the order of Table 11.10 and admitted, held or refused. -/
  | manifestStep (t : Nat)
  /-- MANIFEST_LOAD (R128). A LOAD manifest has firmware load an image onto the named LTs through TOW. -/
  | manifestLoad (t : Nat)
  /-- IMAGE_LOAD_COMPLETE (R128). The image load completes on every named core, and admission of steps that name those LTs resumes. -/
  | imageLoadComplete (seq : BitVec 32) (t : Nat)
  /-- MANIFEST_CHART (R494). A CHART manifest carries out its entries one at a time. -/
  | manifestChart (t : Nat)
  /-- CHART_SET (R494). Rewrites a page entry by the procedure of R204. -/
  | chartSet (t : Nat)
  /-- CHART_INVALIDATE (R494). Invalidates a page entry by the procedure of R204. -/
  | chartInvalidate (t : Nat)
  /-- CHART_MIGRATE_IN (R494). Moves a host-tier page into a free frame. -/
  | chartMigrateIn (t : Nat)
  /-- CHART_MIGRATE_OUT (R494). Moves an HBM page to its backing host page. -/
  | chartMigrateOut (t : Nat)
  /-- MANIFEST_HOLD_END (R323). When its holding condition ends, a held manifest is checked again from row 1. -/
  | manifestHoldEnd (t : Nat)
  /-- ADMISSION_WAIT_TIMEOUT (R323). A hold beyond ADMIT_WAIT completes the manifest with ADMISSION_TIMEOUT. -/
  | admissionWaitTimeout (t : Nat)
  /-- STEP_COMPLETION (R326). Once every LT reached PEND FINAL and every operation completed, the completion record is written and the step number freed. -/
  | stepCompletion (step : Nat) (t : Nat)
  /-- PCIE_RING_POLL (R328). In PCIe runtime mode, the intake unit polls the ring lines every 10 µs. -/
  | pcieRingPoll (w : List HostCell) (t : Nat)
  /-- POWER_FAIL (R332). Input out of 36–62 V for 50 µs aborts steps, logs from hold-up energy and switches the converters off. -/
  | powerFail (mv : Nat) (t : Nat)
  /-- INPUT_RETURN (R332). Input back within 40–60 V for 100 ms starts a cold start. -/
  | inputReturn (t : Nat)
  /-- PWR_EN_FALL (R333). A falling PWR_EN aborts steps and switches off the reaches and optics within 100 µs. -/
  | pwrEnFall (t : Nat)
  /-- REACH_CURRENT_LIMIT (R335). A reach at 125 A makes its regulators hold VCORE current 10 percent lower. -/
  | reachCurrentLimit (r : ReachN) (quarters : Nat)
  /-- REACH_LIMIT_RELEASE (R335). The hold ends when the reach current falls below 115 A. -/
  | reachLimitRelease (r : ReachN) (quarters : Nat)
  /-- INPUT_CURRENT_HOLD (R336). Input current above 390 A, averaged over 100 µs, applies the hold to every reach. -/
  | inputCurrentHold (tenths : Nat)
  /-- REACH_PG_TIMEOUT (R337). A converter without power good 5 ms after enable is treated as a lost reach. -/
  | reachPgTimeout (r : ReachN) (t : Nat)
  /-- VCORE_OVERCURRENT (R340). VCORE above 125 A for 5 µs switches VCORE off and fences the core. -/
  | vcoreOvercurrent (p : Pos) (t : Nat)
  /-- VNET_TRIP (R341). A VNET overcurrent unpowers the under-tile, and the position is lost. -/
  | vnetTrip (p : Pos) (t : Nat)
  /-- POWER_ON_REQUEST (R344). A rail power-on request joins its reach's queue. -/
  | powerOnRequest (p : Pos) (rail : Rail) (t : Nat)
  /-- POWER_ON_ADMIT (R344). The head request is admitted once the current plus the allowances fit LIMIT_A. -/
  | powerOnAdmit (r : ReachN) (imeas : Nat) (t : Nat)
  /-- POWER_ON_COMPLETE (R345). The rail reaches power good and its allowance is released. -/
  | powerOnComplete (p : Pos) (rail : Rail) (t : Nat)
  /-- POWER_ON_TIMEOUT (R346). A request not admitted in 10 ms is refused with ADMISSION_TIMEOUT. -/
  | powerOnTimeout (r : ReachN) (t : Nat)
  /-- PWR_REQ_IDLE (R347). REQ = IDLE powers a RETAIN or DARK core back to IDLE. -/
  | pwrReqIdle (p : Pos) (t : Nat)
  /-- PWR_REQ_RETAIN (R347). REQ = RETAIN keeps the resident segments and switches VCORE off. -/
  | pwrReqRetain (p : Pos) (t : Nat)
  /-- PWR_REQ_DARK (R347). REQ = DARK switches VCORE and VSRAM off, and contents are lost. -/
  | pwrReqDark (p : Pos) (t : Nat)
  /-- CORE_IDLE_ENTRY (R347). After its step ends, a RUN core gates its clock once its last operation has completed. -/
  | coreIdleEntry (p : Pos) (t : Nat)
  /-- REACH_SHORT (R348). A shorted reach runs the sequence of Table 12.8: fuse, abort, new tables, flip, moor and loss record. -/
  | reachShort (r : ReachN) (t : Nat)
  /-- SUPPLY_LOSS (R350). Loss of a lock-house, optics or KCL supply acts as Table 12.9 gives. -/
  | supplyLoss (sup : Supply) (t : Nat)
  /-- POWER_CAP_CHECK (R353). Every 100 µs, firmware compares input power with the cap and requests a lower or higher bank step. -/
  | powerCapCheck (pinW : Nat) (wOut : Nat) (eOut : Nat) (t : Nat)
  /-- OSC_READY (R354). 1,024 good edges after the strap delay declare the oscillator ready. -/
  | oscReady (edges : Nat) (t : Nat)
  /-- OSC_TIMEOUT (R355). An oscillator not ready at twice the delay fails stage 0x01. -/
  | oscTimeout (t : Nat)
  /-- REF_INPUT_BAD (R356). A tile judges a reference input bad, fails over to the other input, or holds over. -/
  | refInputBad (p : Pos) (alt : Bool) (t : Nat)
  /-- REF_INPUT_GOOD (R356). An input is judged good again after 100 µs without fault. -/
  | refInputGood (p : Pos) (alt : Bool) (t : Nat)
  /-- CLK_STEP_REQUEST (R360). A write of W_NEXT or E_NEXT requests, replaces or cancels a bank step. -/
  | clkStepRequest (b : Bank) (code : BitVec 3) (t : Nat)
  /-- PLL_LOCKED (R361). A tile reports its idle PLL locked, and LH-C fixes T once every tile has. -/
  | pllLocked (p : Pos) (t : Nat)
  /-- VCORE_TARGET_RAISE (R361). At T − 20 µs, the VCORE targets rise for a step going up. -/
  | vcoreTargetRaise (b : Bank) (t : Nat)
  /-- PLL_LOCK_TIMEOUT (R363). A tile unlocked 1 ms after a request cancels the request and is treated as failed. -/
  | pllLockTimeout (p : Pos) (t : Nat)
  /-- PLL_LOCK_LOSS (R366). The PLL in use loses lock, and the multiplexer switches to SAFE. -/
  | pllLockLoss (p : Pos) (t : Nat)
  /-- CLOCK_WATCHDOG (R367). 64 µs without a data-path edge resets the clock block onto SAFE and aborts the tile's step. -/
  | clockWatchdog (p : Pos) (expRunning : Bool) (t : Nat)
  /-- CLK_MSW_SWITCH (R368). A write of SEL switches a management clock domain, or is refused when the target is not ready. -/
  | clkMswSwitch (c : Fin 4) (sel : Bool)
  /-- TIM_NOW_READ (R369). A read of the NS word latches the fraction for the next FRAC read. -/
  | timNowRead (tile : Option Pos) (t : Nat)
  /-- PPS_IN_EDGE (R370). A PPS_IN edge counts toward qualification of the first-priority source. -/
  | ppsInEdge (t : Nat)
  /-- TIME_SOURCE_QUALIFY (R370). A time source meets its qualification condition. -/
  | timeSourceQualify (src : Fin 3) (t : Nat)
  /-- TIME_SOURCE_DISQUALIFY (R371). The source in use disqualifies, and the next source takes over at once. -/
  | timeSourceDisqualify (src : Fin 3) (t : Nat)
  /-- TIME_SOURCE_TAKEOVER (R371). A higher-priority source that has stayed qualified for 10 s takes over. -/
  | timeSourceTakeover (src : Fin 3) (t : Nat)
  /-- TIME_SERVO_UPDATE (R372). The servo slews panel time toward the source, at most 50 ppm, and steers the trim. -/
  | timeServoUpdate (diff : Int) (ppb : Int) (t : Nat)
  /-- TIM_SET (R372). Steps panel time before stage 0x0A or in STANDBY, and is otherwise refused. -/
  | timSet (v : BitVec 64)
  /-- TRIM_SAVE (R373). Once an hour, firmware stores the averaged oscillator trim in MRAM; up: it rounds the average up (log entry 54). -/
  | trimSave (up : Bool) (t : Nat)
  /-- PPS_OUT_PULSE (R374). At each panel-time second, PPS_OUT rises for WIDTH_MS. -/
  | ppsOutPulse (t : Nat)
  /-- PTP_MESSAGE (R375). An IEEE 1588 message is handled as ordinary clock or as grandmaster. -/
  | ptpMessage (m : PtpMsg) (t : Nat)
  /-- THERMAL_SAMPLE (R376). Every millisecond each under-tile converts its sensors and derives the governing readings. -/
  | thermalSample (p : Pos) (a : Vector Int 6) (b : Vector Int 6) (stack : Int) (optics : Int) (t : Nat)
  /-- THERMAL_RECOVERY (R381). After 8 cool gate intervals and 100 ms, firmware requests one step higher for a throttled bank. -/
  | thermalRecovery (b : Bank) (t : Nat)
  /-- OPTICS_REENABLE (R382). After 10 s below 75 °C, the port is enabled again. -/
  | opticsReenable (x : PortN) (t : Nat)
  /-- HARDWARE_TRIP (R384). Three over-threshold comparator conversions open the reach e-fuse and drive THERM_TRIP_N low. -/
  | hardwareTrip (p : Pos) (ofStack : Bool) (readings : List Int) (t : Nat)
  /-- COOLANT_SAMPLE (R385). Every millisecond LH-C samples the thermistors and publishes the readings and the flow estimate. -/
  | coolantSample (inlet : Int) (outlet : Int) (pinW : Nat) (t : Nat)
  /-- FLOW_OK_LOSS (R386). FLOW_OK low for 100 µs counts as deasserted. -/
  | flowOkLoss (t : Nat)
  /-- FLOW_OK_GLITCH (R386). A low pulse shorter than 100 µs is ignored and counted. -/
  | flowOkGlitch (lowUs : Nat)
  /-- THERMAL_CAP_UPDATE (R390). Every 100 ms LH-C computes theta and cap_target, and lowers the thermal cap toward the target; upHot, upIn and
  upP: the averages of t_hot, t_in and p_in are rounded up (log entry 59). -/
  | thermalCapUpdate (upHot : Bool) (upIn : Bool) (upP : Bool) (t : Nat)
  /-- THERMAL_CAP_RISE (R391). Every second the thermal cap rises toward a higher target. -/
  | thermalCapRise (t : Nat)
  /-- THERMAL_EMERGENCY (R393). On flow loss, the rate test or a hot reading, every tile goes to SAFE, steps are aborted and the cap is set to BASE_W. -/
  | thermalEmergency (cause : Fin 4) (t : Nat)
  /-- THERMAL_EMERGENCY_EXIT (R394). After 10 s of good conditions, the emergency ends and both banks request S4. -/
  | thermalEmergencyExit (t : Nat)
  /-- FORECAST_UPDATE (R395). The forecaster plans a cap and a step for each pound within the next second. -/
  | forecastUpdate (t : Nat)
  /-- STAGE_00 (R398). The lock-house supplies come up and the straps are sampled. -/
  | stage00 (r : StageIn)
  /-- STAGE_01 (R398). The boot ROMs run, the oscillator becomes ready and the clocks move to OSC_PLL. -/
  | stage01 (r : StageIn)
  /-- STAGE_02 (R398). Firmware packages are verified and measured, and panel time is set. -/
  | stage02 (r : StageIn)
  /-- STAGE_03 (R398). The part-number word, fuse map and field defect record are read and checked. -/
  | stage03 (r : StageIn)
  /-- STAGE_04 (R398). The coolant is checked and the reach converters and VNET are brought up in order. -/
  | stage04 (r : StageIn)
  /-- STAGE_05 (R398). Under-tile self-test, seam training, repair mapping, profile and crossing calibration. -/
  | stage05 (r : StageIn)
  /-- STAGE_06 (R398). HBM training, repair, ECC initialisation and march test. -/
  | stage06 (r : StageIn)
  /-- STAGE_07 (R398). Compute dies are powered, self-tested and mapped, and microcode is loaded. -/
  | stage07 (r : StageIn)
  /-- STAGE_08 (R398). Unit states and placement are decided, tables written, beacons calibrated and chart homes chosen. -/
  | stage08 (r : StageIn)
  /-- STAGE_09 (R398). The optics supplies come on, and AXL and KCL train. -/
  | stage09 (r : StageIn)
  /-- STAGE_0A (R398). The descriptor is completed, PPS_OUT enabled and admission opened. -/
  | stage0A (r : StageIn)
  /-- STAGE_TIMEOUT (R399). A stage that reaches its bound marks its unfinished units as failing and ends with RESULT 0b01. -/
  | stageTimeout (r : StageIn)
  /-- LKH_MAP_ACK (R404). A write of 1 to ACK clears MAP_UNVERIFIED and is logged with its origin. -/
  | lkhMapAck (o : Origin) (path : Path)
  /-- NARROW_RETENTION_REQUEST (R411). A management request enables or withdraws narrow retention for the next cold start. -/
  | narrowRetentionRequest (p : Pos) (en : Bool) (path : Path)
  /-- REPAIR_EVENT_REPORT (R413). The repair logic classes a reported event as a suspicion or a failure and charges a unit. -/
  | repairEventReport (ev : RepairEvent) (t : Nat)
  /-- SOUNDING_ROTATION (R415). Every 4,096 pounds, the rotation advances to the next present LT. -/
  | soundingRotation
  /-- SOUNDING_START (R415). A sounding step is admitted at the first gate tick at which no admitted step names the LT. -/
  | soundingStart (t : Nat)
  /-- SOUNDING_RESULT (R416). The sounding's signature is compared, and a mismatch or fault is a failure. -/
  | soundingResult (ok : Bool) (t : Nat)
  /-- FENCE_COMMAND (R417). A fence command reaches a tile, and a matching second command within 1 ms fences the unit. -/
  | fenceCommand (h : House) (unit : BitVec 40) (cause : BitVec 8) (t : Nat)
  /-- FENCE_COMMAND_EXPIRY (R417). A single fence command unmatched after 1 ms is discarded and counted. -/
  | fenceCommandExpiry (h : House) (unit : BitVec 40) (cause : BitVec 8) (t : Nat)
  /-- SUBSTITUTION (R421). A fenced LT's spare is powered and a new table version is written for the next flip. -/
  | substitution (lt : Lt) (t : Nat)
  /-- SUBSTITUTION_LOAD (R423). After the drain, firmware loads the image and applies the stored RESTORE entries to the spare. -/
  | substitutionLoad (lt : Lt) (t : Nat)
  /-- SUBSTITUTION_READY (R421). After the spare's sounding, the repair is replay-ready. -/
  | substitutionReady (lt : Lt) (t : Nat)
  /-- LANE_REPAIR (R430). More than 8 replays in 1 s map a repair group onto the lane group, or take the seam out of service; second: of two free
  repair groups firmware takes the second (log entry 38). -/
  | laneRepair (p : Pos) (d : Dir) (lane : Fin 48) (second : Bool) (t : Nat)
  /-- HBM_RETRAIN (R431). Firmware starts a pseudo-channel retrain at a suitable gate tick. -/
  | hbmRetrain (m : StackN) (pc : Fin 64) (errs : Nat) (t : Nat)
  /-- HBM_RETRAIN_DONE (R431). The retrain finishes within 100 µs and held requests proceed. -/
  | hbmRetrainDone (m : StackN) (pc : Fin 64) (ok : Bool) (t : Nat)
  /-- MOOR (R433). A loss beyond the spares ends the steps, fences the cores and enters Moored. -/
  | moor (why : MoorCause) (t : Nat)
  /-- HEADWAY_SAVE (R437). Every second, firmware saves the headway buckets to MRAM. -/
  | headwaySave (t : Nat)
  /-- COLD_RESET (R439). PANEL_RST_N low, return of input power or a rising PWR_EN starts stages 0x00 to 0x0A. -/
  | coldReset (t : Nat)
  /-- WARM_RESET (R441). Aborts the steps, flushes, self-refreshes, takes the dies DARK and reruns the stages. -/
  | warmReset (t : Nat)
  /-- REACH_RESET (R448). Resets all six tiles of a reach and reinitialises its row-end controller. -/
  | reachReset (r : ReachN) (clear : Bool) (t : Nat)
  /-- TILE_RESET (R447). Resets a compute die and under-tile, dropping accepted requests unanswered, with optional CLEAR and UPDATE. -/
  | tileReset (p : Pos) (clear : Bool) (update : Bool) (t : Nat)
  /-- CORE_RESET (R439). Resets a compute die, optionally loading new microcode. -/
  | coreReset (p : Pos) (update : Bool) (t : Nat)
  /-- CONTEXT_RESET (R439). Resets one context's registers and loops, and for HAND discards its handlers. -/
  | contextReset (p : Pos) (c : Ctx) (t : Nat)
  /-- LINK_RESET (R450). An AXL or KCL port leaves UP and retrains. -/
  | linkReset (port : BitVec 8) (t : Nat)
  /-- LOCK_HOUSE_RESET (R449). One lock-house restarts after handing over its roles. -/
  | lockHouseReset (h : House) (update : Bool) (t : Nat)
  /-- RESET_PRECONDITION_MET (R440). A waiting reset begins once its precondition holds. -/
  | resetPreconditionMet (t : Nat)
  /-- RESET_WAIT_TIMEOUT (R440). A reset not begun within 100 ms completes with ADMISSION_TIMEOUT. -/
  | resetWaitTimeout (t : Nat)
  /-- STANDBY_REQUEST (R443). REQ = STANDBY enters STANDBY, or sets PENDING while a step is admitted. -/
  | standbyRequest (t : Nat)
  /-- STANDBY_ENTRY (R443). When the last admitted step ends, the panel flushes, retains its cores and self-refreshes its stacks. -/
  | standbyEntry (t : Nat)
  /-- ACTIVE_REQUEST (R443). REQ = ACTIVE, or a held manifest while WAKE is set, returns the panel to ACTIVE within 5 ms. -/
  | activeRequest (t : Nat)
  /-- FIRMWARE_UPDATE (R459). Writes the idle slot, resets the lock-houses onto it, then updates the units one at a time. -/
  | firmwareUpdate (pkg : PackageIn) (t : Nat)
  /-- SEC_QUOTE_REQUEST (R461). Setting GO returns a signed quote over the nonce within 5 ms. -/
  | secQuoteRequest (h : House) (t : Nat)
  /-- MANAGEMENT_REQUEST (R462). A signed management request is verified for key, counter, time and signature. -/
  | managementRequest (q : MgmtReq) (t : Nat)
  /-- CERTIFICATE_SUBMIT (R464). A quorum certificate is checked, in order, by two lock-houses. -/
  | certificateSubmit (agree : Bool) (t : Nat)
  /-- QUARANTINE (R305). Ports facing the named peer set QUAR and refuse collective traffic. -/
  | quarantine (digest : BitVec 256) (t : Nat)
  /-- RELEASE (R305). Clears QUAR on ports facing the named peer. -/
  | release (digest : BitVec 256) (t : Nat)
  /-- REQUALIFY (R435). Stores permission for re-qualification at the next cold start. -/
  | requalify
  /-- ENROL (R466). Replaces the manager key set with a new generation. -/
  | enrol (gen : BitVec 32) (k : Nat) (keys : List (List (BitVec 8)))
  /-- COMMIT (R457). Blows anti-rollback fuses of a class to the new value. -/
  | commit (cls : Fin 6) (v : BitVec 8)
  /-- REVOKE_OWNER (R464). Blows an owner slot's revoke fuse. -/
  | revokeOwner (slot : Fin 4)
  /-- LOGBOOK_ENTRY (R469). An entry is assigned an INDEX and committed in two lock-houses. -/
  | logbookEntry (e : LogIn) (t : Nat)
  /-- LOG_CKPT_REQUEST (R472). Setting REQ writes a requested checkpoint, at most one per second. -/
  | logCkptRequest (t : Nat)
  /-- LOG_CHECKPOINT_SIGNED (R472). The checkpoint signature is written within 10 ms. -/
  | logCheckpointSigned (t : Nat)
  /-- LOG_EXPORT_WRITE (R471). Records the highest exported entry; a lower write is ignored. -/
  | logExportWrite (v : BitVec 64)
  /-- REGISTER_WRITE (R8). A write to a register without a row of its own, by its access code. -/
  | registerWrite (addr : BitVec 64) (v : BitVec 64) (path : Path) (signed : Bool)
  /-- DBG_RESUME (R123). A debug request ends the halt of MAIN, whose cycle count then runs again. -/
  | dbgResume (p : Pos)
  /-- ALIVE_TOGGLE (R329). Every 500 µs of panel time while firmware runs, the panel toggles the ALIVE output. -/
  | aliveToggle (t : Nat)
  /-- FLOW_OK_ASSERT (R394). The coolant unit raises FLOW_OK, and the debounced THM_COOL.FLOW_OK becomes 1, which starts the waits of stage 0x04 and of the emergency exit. -/
  | flowOkAssert (t : Nat)
  /-- RESET_RETURN_TO_SERVICE (R439). A reach, tile, core, context or lock-house reset ends and its unit returns to service within the bound of Table 16.1. -/
  | resetReturnToService (t : Nat)
  /-- SEGMENT_ZEROING_DONE (R177). The zeroing of switched-off scratchpad segments ends after at most 8,192 cycles, and the core may issue and its ports serve again. -/
  | segmentZeroingDone (p : Pos) (cc : Nat)
  /-- AXL_IDLE_FRAME (R280). A received idle frame delivers ACK and credits, freeing replay buffer space and allowing further launches. -/
  | axlIdleFrame (x : PortN) (lane : Fin 16) (f : Frame) (t : Nat)
  deriving DecidableEq, Repr

end Sys2Proof
end

