-- ==== Sys2Proof/Machine/State.lean ====
section
/-! DEFINITION. The state of the panel: every register, queue, buffer, counter, mode and pin the spec names, as plain
data, and State.reset. A field's docstring cites the table or rule of spec/ it comes from. Reset values are those of
the register maps (R9: after a cold reset); where the spec gives none, notes/assumptions/ names the value. -/

namespace Sys2Proof.Machine

open Sys2Proof

/-! ### Outcomes -/

/-- The reasons a command stops the machine with a fault. The spec describes no such stop: core faults, refusals and
losses are states (Table 5.11, Table 0.7, R433). The one constructor is raised by no command (safe). -/
inductive Fault where
  /-- raised by no command: the spec describes no stop of the whole machine (safe) -/
  | none_
  deriving DecidableEq, Repr

/-- The reasons a command is turned away by the model. -/
inductive Refusal where
  /-- the command has no meaning yet; raised only by Dispatch (safe: the model stops) -/
  | notModelled (mnemonic : String)
  deriving DecidableEq, Repr

/-! ### Core: contexts and control unit (chapter 05) -/

/-- One loop entry (6.2.1). -/
structure LoopEnt where
  active : Bool := false
  start : BitVec 14 := 0
  last : BitVec 14 := 0
  left : BitVec 64 := 0
  deriving DecidableEq, Repr

/-- The registers and the issue state of one context (R113, Table 5.3, 6.2.1). -/
structure CtxState where
  s : Vector Word 32 := Vector.replicate 32 0
  a : Vector (BitVec 48) 16 := Vector.replicate 16 0
  p : Vector Bool 8 := Vector.replicate 8 false
  loops : Vector LoopEnt 4 := Vector.replicate 4 {}
  nextIdx : BitVec 14 := 0     -- program counter: bundle issued next
  nextCc : Nat := 0            -- first tile cycle in which it may issue
  curIdx : BitVec 14 := 0      -- bundle issued last, and its cycle
  curCc : Nat := 0
  slotsDone : BitVec 4 := 0    -- slots of the bundle issued last that have taken effect
  opened : Bool := false       -- a bundle has issued since the context started
  sendStat : Status := .done   -- CR_SENDSTAT
  deriving DecidableEq, Repr

/-- What a write in flight (R118) writes: a register, or scratchpad bytes. -/
inductive RegDst where
  | s (c : Ctx) (r : Fin 32) (v : Word)
  | a (c : Ctx) (r : Fin 16) (v : BitVec 48)
  | p (c : Ctx) (r : Fin 8) (v : Bool)
  | v (c : Ctx) (r : Fin 64) (mask val : VReg)
  | mem (a : Nat) (bs : List Byte)     -- a scratchpad store
  | ring (k : Fin 64) (a : Nat) (bs : List Byte)   -- bytes of a barge that lands in berth k
  | sig (c : Fin 2048) (n : Nat)       -- SIGNAL(n) to a chamber of the own tile
  | arm (c : Fin 2048) (n : BitVec 32) -- ARM(n) of a chamber of the own tile
  | vl (c : Ctx) (v : BitVec 10)       -- CR_VL
  | patience (c : Ctx) (v : BitVec 32) -- CR_PATIENCE
  deriving DecidableEq, Repr

structure PendW where
  due : Nat
  dst : RegDst
  deriving DecidableEq, Repr

/-- State of MAIN (Table 5.13): stalled carries the stall point. -/
inductive MainSt where | idle | issuing | stalled (point : Fin 6) | halted
  deriving DecidableEq, Repr

inductive HandSt where | idle | running | suspended
  deriving DecidableEq, Repr

/-- A handler invocation posted by the network interface (R135 to R137). -/
structure Invocation where
  berth : Fin 64
  gen : BitVec 16
  handler : BitVec 8
  entry : Nat                -- entry index in the berth ring
  postedCc : Nat
  payload : BitVec 26        -- scratchpad offset of the payload
  length : BitVec 13
  src : BitVec 7
  word0 : Word               -- header word with handler index and tag
  combined : Bool
  deriving DecidableEq, Repr

/-- COR_FAULT (Table 5.12). -/
structure FaultReg where
  code : BitVec 8 := 0
  context : BitVec 2 := 0
  hw : Bool := false
  valid : Bool := false
  slots : BitVec 4 := 0
  index : BitVec 14 := 0
  pound : BitVec 32 := 0
  deriving DecidableEq, Repr

/-- The control unit beyond the contexts (5.3 to 5.6). -/
structure Control where
  main : MainSt := .idle
  held : Option Issue := none        -- stalled bundle (5.4)
  heldHalt : Option MainSt := none   -- state DBG_RESUME returns to
  stallStart : Nat := 0
  lastStall : BitVec 35 := 0         -- CR_STALL
  hand : HandSt := .idle
  curInv : Option Invocation := none
  queue : List Invocation := []      -- posted invocations, oldest first
  handIssued : Nat := 0              -- bundles counted against BUDGET (R140)
  handBudget : Nat := 0
  handLast : Nat := 0                -- cycle of the last HRET
  issueCc : Option Nat := none       -- cycle in which the core issued a bundle last, in any context (R121)
  hwinEnd : Nat := 0                 -- MAIN issues again in this cycle (R139)
  hwinOpen : Bool := false
  towBusy : Bool := false
  dbgAttached : Bool := false
  haltWanted : Bool := false         -- a halt request waiting (R123)
  probed : Option Nat := none        -- cycle of the last WAIT or TEST of a chamber (R237)
  haltAt : Nat := 0                  -- cycle in which the running halt began
  haltLost : Nat := 0                -- cycles that halts took from MAIN's count since the gate tick (R123)
  freed : Bool := false              -- an overrun under CONTINUE_LATE has ended the stall (R125)
  pended : Bool := false             -- PEND has issued in this pound (R132)
  resume : BitVec 14 := 0
  lateRun : Bool := false            -- runs late under CONTINUE_LATE (R41)
  missed : Nat := 0                  -- gate ticks passed while late (R43)
  pound : BitVec 32 := 0             -- CR_POUND
  vl : Vector (BitVec 10) 4 := Vector.replicate 4 512      -- CR_VL per context
  patience : Vector (BitVec 32) 4 := Vector.replicate 4 475000   -- CR_PATIENCE: F of an empty pound of 1,000 µs at SAFE
  fault : FaultReg := {}
  mainFault : BitVec 8 := 0          -- CR_FAULT: last fault in MAIN or HAND
  stopped : Vector Bool 4 := Vector.replicate 4 false      -- a fault stopped the context (5.7)
  sounding : Bool := false           -- MAIN runs the sounding ROM (R415)
  deriving DecidableEq, Repr

/-- The loaded image (Tables 5.7, 5.9). -/
structure Image where
  loaded : Bool := false
  bundles : Nat := 0
  slack : BitVec 4 := 0
  store : Tbl Bundle := []
  htab : Tbl Word := []
  ecc : List Nat := []               -- bundles with an uncorrectable error (ISTORE_ECC, Table 5.11)
  deriving DecidableEq, Repr

/-! ### Core: matrix unit (chapter 03) -/

inductive MMode where | whole | halves | quarters | tiles32 | tiles16
  deriving DecidableEq, Repr

/-- Matrix configuration set by MCONF (Table 6.6). -/
structure MConf where
  wf : BitVec 4 := 3
  af : BitVec 4 := 3
  mode : MMode := .whole
  logb : Nat := 0
  strict : Bool := false
  q : Int := 0
  deriving DecidableEq, Repr

/-- One loaded submatrix: k × n element codes column by column, scale codes, check sums per K index and the bounds
W_bj (3.7). Beyond the rules' words: log entry 26 (DESIGN CHOICE). -/
structure SubMat where
  k : Nat
  n : Nat
  els : List (BitVec 32)
  scs : List Byte
  deriving DecidableEq, Repr

/-- A weight plane: the load's format and mode, its submatrices, whether it holds a load, and from which cycle on it is
ready (R72, R88). -/
structure Plane where
  fmt : BitVec 4 := 0
  mode : MMode := .whole
  held : Bool := false
  readyAt : Option Nat := none
  subs : Tbl (Option SubMat) := []
  deriving DecidableEq, Repr

/-- What kind of accumulation a row holds (Table 3.11). -/
inductive RowKind where | cleared | float | mxint
  deriving DecidableEq, Repr

/-- One accumulator row (3.6, 3.7): outputs (FP32 in the low 32 bits, or 64-bit integers in units of 2^q), check value, counts,
envelope, flags, and the configuration it was last SET under. -/
structure AccRow where
  kind : RowKind := .cleared
  conf : Option MConf := none
  q : Int := 0
  outs : List Word := []
  check : Word := 0x80000000
  n : Nat := 0
  g : F32 := 0
  inexact : Bool := false
  ovf : Bool := false
  deriving DecidableEq, Repr

/-- An accumulator write of a step in flight: cycle, row, and the row as it will be SET or the term to ADD. -/
structure MWrite where
  cc : Nat
  row : Nat
  add : Bool
  conf : MConf
  kEff : Nat
  subs : Tbl (Option SubMat)
  acts : List (List (BitVec 32) × List Byte)   -- vector and scales of each broadcast group
  rowInStep : Nat
  deriving DecidableEq, Repr

/-- What the check comparison of a drained row found (R79, R80). -/
inductive ChkRes where | ok | skipped | ovf | mismatch
  deriving DecidableEq, Repr

/-- A drain in progress (R76): t0 is the issue cycle with the wheel wait, next the row to be read next. -/
structure Drain where
  fmt : Nat
  isInt : Bool
  q : Int
  first : Nat
  m : Nat
  clear : Bool
  t0 : Nat
  w : Nat
  dst : Nat
  dstS : Nat
  next : Nat
  results : List (Nat × ChkRes)
  deriving DecidableEq, Repr

/-- A matrix operation in flight (R160). -/
structure MOp where
  kind : Nat                   -- opcode
  start : Nat
  finish : Nat
  chamber : Option (Bool × BitVec 13)
  writes : List MWrite
  drain : Option Drain
  retired : Bool               -- its completion has been carried out
  deriving DecidableEq, Repr

/-- A ramp note (R83, R342). -/
structure PowNote where
  down : Bool
  level : Nat      -- 0, 25, 50, 100
  at_ : Nat        -- cycle t + L
  deriving DecidableEq, Repr

structure Keeper where
  thresh : BitVec 12 := 0x100
  level : BitVec 2 := 1
  filled : BitVec 16 := 0
  unDown : BitVec 16 := 0
  unUp : BitVec 16 := 0
  shortLead : BitVec 16 := 0
  ramp : Nat × Nat × Nat := (0, 0, 0)   -- keeper current, percent: from, to, in steps of 25 every 128 cycles from a cycle on
  filling : Bool := false
  gapStart : Option Nat := none
  gapHeld : Bool := false      -- a DOWN note covers the gap (R83)
  notes : List PowNote := []
  upCover : Bool := false      -- an UP note covers the next operation
  deriving DecidableEq, Repr

structure Matrix where
  conf : MConf := {}
  confDue : Option (Nat × MConf) := none     -- MCONF in force from t + 2
  active : Plane := {}
  shadow : Plane := {}
  rows : Tbl AccRow := []
  ops : List MOp := []
  feedEnd : Nat := 0
  lastSwap : Option Nat := none
  margin : BitVec 3 := 2                     -- MAT_CHK_CFG
  marginStored : BitVec 3 := 2               -- the value stored in MRAM (R488)
  mismatch : BitVec 16 := 0                  -- MAT_CHK_STAT
  lastRow : BitVec 9 := 0
  lastValid : Bool := false
  lastOvf : Bool := false
  skipped : BitVec 16 := 0
  keeper : Keeper := {}
  deriving DecidableEq, Repr

/-! ### Core: scratchpad and move unit (chapters 06 and 07) -/

structure SpdRes where
  base : BitVec 10 := 0
  len : BitVec 11 := 0
  valid : Bool := false
  deriving DecidableEq, Repr

structure Scratch where
  mem : Mem := []
  single : List Nat := []      -- words with a single-bit error
  bad : List Nat := []         -- uncorrectable words (byte offset / 4)
  free : Vector Nat 8 := Vector.replicate 8 0    -- R172 free[p]
  res : Vector SpdRes 8 := Vector.replicate 8 {}
  corrected : BitVec 32 := 0
  corrTick : BitVec 32 := 0    -- corrected at the last gate tick (Table 15.8)
  uncorr : BitVec 16 := 0
  lastValid : Bool := false
  lastPort : BitVec 3 := 0
  lastAddr : BitVec 26 := 0
  scrubEn : Bool := true
  passes : BitVec 32 := 0
  scrubPos : Nat := 0          -- next chunk of the patrol scrub
  scrubFix : List Nat := []    -- corrected chunks awaiting their writeback
  scrubNext : Nat := 0         -- the cycle after the scrub's last access
  niBusy : List (Nat × Nat) := []   -- cycles in which NI moves chunks: first, count
  zeroing : Bool := false      -- segments being zeroed (R177)
  deriving DecidableEq, Repr

/-- The kinds of operation a status slot can hold (R164). -/
inductive MoveKind where
  | stream | write | read | send | signal | bopen | bclose | wopen | wclose | other
  deriving DecidableEq, Repr

/-- An operation in a status slot (R161, R168, R274). -/
structure MoveOp where
  id : Nat
  kind : MoveKind
  ctx : Ctx
  idx : BitVec 14
  ch : Option (Bool × BitVec 13)   -- completion chamber: (Canal, index)
  dst : BitVec 26                  -- local landing address of a read
  toLt : BitVec 8 := 0xFF          -- the LT that its requests go to, where they go to one
  left : Nat                       -- packets not yet answered
  injected : Bool
  tInj : Nat                       -- panel time of the last injection, ns
  landAt : Nat                     -- cycle from which landed replies count (R175)
  vc2 : Nat                        -- flits of its injected VC2 requests that are not answered (R265)
  worst : Status                   -- first status other than DONE
  cancelled : Bool
  outcome : Option Status          -- set: the operation has completed, MOVE_COMPLETION frees the slot
  deriving DecidableEq, Repr

structure Slot where
  busy : Bool := false
  status : Status := .done
  op : Option MoveOp := none
  deriving DecidableEq, Repr

/-- A barge header (Table 8.1). -/
structure BargeHdr where
  w0 : Word := 0
  w1 : Word := 0
  w2 : Word := 0
  deriving DecidableEq, Repr

/-- A barge in send staging (8.6). -/
structure Staged where
  slot : Fin 64
  ctx : Ctx
  hdr : BargeHdr
  payload : List Byte
  deadline : Nat
  backoff : Nat                -- next backoff, 32 to 2,048
  retryAt : Option Nat         -- waiting out a backoff
  inFlight : Bool
  fullAnswers : BitVec 16
  firstFull : Option Nat
  deriving DecidableEq, Repr

/-- A SEND stall or a staged barge that ended in the pound (R230): the fields of its record. -/
structure SendStall where
  dest : BitVec 7
  berth : BitVec 6
  barge : Bool                 -- KIND 1
  answers : BitVec 16
  waited : Nat
  deriving DecidableEq, Repr

/-- Arbitration class of a line request or of a stream's page (Table 7.12). -/
inductive HbmClass where | c0 | c1 | c2 | c3
  deriving DecidableEq, Repr

/-- A stream in progress (7.3). Positions in the stream are counted in 64-byte lines; a chunk is 16 lines. -/
structure Stream where
  slot : Fin 64
  op : Nat                    -- number of its operation
  ctx : Ctx
  idx : BitVec 14
  outDir : Bool
  bulk : Bool
  rate : Nat
  wait : Option (BitVec 32)   -- NEXT: START of the pound that has not begun
  s : Nat                     -- start cycle (7.3.3), tile cycles
  model : BitVec 41
  loc : BitVec 26
  rowBytes : Nat
  rows : Nat
  mstride : Nat
  lstride : Nat
  page : Option (BitVec 25 × Word)   -- page entered and its chart entry
  cls : HbmClass              -- class in which the page is carried (R187)
  waitMig : Bool              -- waits on MIGRATING (R205)
  waitRing : Bool             -- waits for ring space (R188)
  req : Nat                   -- lines requested (IN) or read (OUT)
  rel : Nat                   -- lines released to DI (IN) or accepted by their home slices (OUT)
  outst : List (Nat × Nat)    -- lines asked for and not answered, with the panel time of injection
  ring : List (Nat × List Byte)      -- arrived lines of the landing ring
  landAt : Nat                -- cycle from which every released line counts as landed
  late : Bool
  stop : Option (Nat × Status)       -- the stream ends at this line with this status (R183)
  deriving DecidableEq, Repr

structure MoveUnit where
  slots : Vector Slot 64 := Vector.replicate 64 {}
  staging : Vector (Option Staged) 8 := Vector.replicate 8 none
  refused : BitVec 16 := 0          -- COR_MOVE_STAT
  lastSlot : BitVec 6 := 0
  lastValid : Bool := false
  lastStatus : BitVec 8 := 0
  streams : List Stream := []
  stalls : List SendStall := []     -- stalls and barges that patience or a deadline ended in this pound
  nextOp : Nat := 1                 -- MODEL: number of the next operation; 0 names none
  deriving DecidableEq, Repr

/-- COR_DESC (Table 3.2). -/
structure CorDesc where
  lt : BitVec 7 := 0x7F
  cgPresent : BitVec 5 := 16
  narrow : Bool := false
  spareUsed : Bool := false
  disabled : Bool := false
  bad0 : BitVec 5 := 0x1F
  bad1 : BitVec 5 := 0x1F
  fmtMask : BitVec 6 := 0x3F
  mcode : BitVec 8 := 0
  deriving DecidableEq, Repr

/-- A compute die. -/
structure Core where
  main : CtxState := {}
  hand : CtxState := {}
  tow : CtxState := {}
  dbg : CtxState := {}
  vMain : Vector VReg 64 := Vector.replicate 64 0
  vHand : Vector VReg 4 := Vector.replicate 4 0
  vTow : Vector VReg 4 := Vector.replicate 4 0
  pend : List PendW := []
  ctl : Control := {}
  img : Image := {}
  mat : Matrix := {}
  spd : Scratch := {}
  mov : MoveUnit := {}
  desc : CorDesc := {}
  deriving DecidableEq, Repr

/-! ### Under-tile (chapters 02, 07, 08, 09, 12, 13, 14) -/

/-- TIM_POUND_STAT and TIM_POUND_LAST (Table 2.5). -/
structure PoundStat where
  stretchQ : BitVec 24 := 0
  slip : Bool := false
  canalAsync : Bool := false
  late : Bool := false
  throttled : Bool := false
  unsync : Bool := true
  overrun : Bool := false
  lateCyc : BitVec 24 := 0
  deriving DecidableEq, Repr

/-- The tile's local panel time and TIM_SYNC_STAT (Table 2.1, R369). err is local time minus panel time, in 2⁻¹⁶ ns. -/
structure TileTime where
  err : Int := 0
  pathDelay : Nat := 0               -- calibrated path delay of beacons from LH-C, ns (R29)
  pathDelayN : Nat := 0              -- the same from LH-N (R449)
  fracLatch : BitVec 16 := 0
  unsync : Bool := true
  beaconMiss : Bool := false
  refLoss : Bool := false
  lastOffset : BitVec 8 := 0
  beaconCount : BitVec 32 := 0
  goodBeacons : Nat := 0
  deriving DecidableEq, Repr

/-- CLK_XING_x (Table 2.7); stretch difference in quarter-periods since the last recentring. -/
structure Xing where
  lat : BitVec 4 := 0
  mode : BitVec 2 := 0
  slipped : Bool := false
  driftQ : Int := 0
  slipCount : BitVec 32 := 0
  dropped : Bool := false            -- the seam is dropped (9.3.3)
  deriving DecidableEq, Repr

/-- MSH_SEAM_MAPd (Table 9.7) with the write that waits for the quiet window (R429). -/
structure SeamMap where
  repair0 : BitVec 6 := 0x3F
  repair1 : BitVec 6 := 0x3F
  out : Bool := false
  pend : Option (BitVec 13) := none
  deriving DecidableEq, Repr

/-- One line of a staging-cache slice (7.4.2). -/
structure CLine where
  line : Nat                  -- stack address / 64
  data : List Byte            -- 64 bytes
  dirty : Bool
  failing : Bool
  leaving : Bool := false     -- evicted: held until its write-back is answered
  deriving DecidableEq, Repr

structure Staging where
  ringMib : BitVec 4 := 4
  flush : Bool := false
  late : BitVec 16 := 0
  demoted : BitVec 16 := 0
  migWait : BitVec 16 := 0
  eccAddr : BitVec 41 := 0     -- STG_ECC_LAST
  eccValid : Bool := false
  lines : List CLine := []     -- least recently used last
  errList : List Nat := []     -- failing dirty lines (R192)
  deriving DecidableEq, Repr

/-- A chart-cache entry: page, entry, private count (R202, R203). -/
structure ChartEnt where
  page : BitVec 25
  entry : Word
  count : BitVec 8
  deriving DecidableEq, Repr

structure ChartCache where
  ents : List ChartEnt := []   -- most recently used first
  faultAddr : BitVec 41 := 0   -- CHT_FAULT_LAST
  faultValid : Bool := false
  pendFill : List (BitVec 25) := []
  deriving DecidableEq, Repr

/-- A weir group in progress (8.5). -/
structure Group where
  key : BitVec 16
  op : BitVec 2
  count : BitVec 12
  length : BitVec 13
  handler : BitVec 8
  entry : Nat                  -- entry that holds the result
  some1 : Bool                 -- a contribution has become whole
  merged : Nat
  firstCc : Nat
  members : List Nat           -- entries of an ORDERED group, in arrival order
  deriving DecidableEq, Repr

/-- An accepted barge or weir contribution that has not become whole: the packet that brought it, and the cycle in which it
becomes whole (R218). -/
structure Contrib where
  packet : Nat
  hdr : BargeHdr
  payload : List Byte
  landAt : Nat
  deriving DecidableEq, Repr

/-- A berth entry (8.3). -/
structure BEntry where
  idx : Nat                    -- entry index in the ring
  hdr : BargeHdr
  whole : Bool
  voided : Bool
  posted : Bool                -- delivered: posted or released
  combined : Bool              -- the result of a weir group
  member : Bool                -- contribution of a group not yet delivered
  landing : List Contrib
  payload : List Byte
  deriving DecidableEq, Repr

structure Berth where
  open_ : Bool := false
  weir : Bool := false
  ordered : Bool := false
  declared : Bool := false
  gen : BitVec 16 := 0
  ring : BitVec 26 := 0
  entries : Nat := 0
  entryBytes : Nat := 0
  weirTimeout : BitVec 32 := 0
  head : Nat := 0
  tail : Nat := 0
  queue : List BEntry := []        -- allocated entries, head first
  groups : List Group := []
  retired : List (BitVec 16) := [] -- keys retired until the next gate tick
  strays : List (Nat × Contrib × Status) := []   -- accepted for an entry, not whole when its group was delivered (R224)
  excess : BitVec 12 := 0
  fullAnswers : BitVec 16 := 0
  opening : Option (Fin 64) := none   -- slot of an ORDERED BOPEN that waits for the merge tables (R267)
  closing : Option (Fin 64) := none   -- slot of a BCLOSE in progress
  closeAt : Option Nat := none        -- cycle in which a BCLOSE takes effect
  leaving : List (Fin 64 × List (Nat × Contrib × Status × Bool)) := []   -- BCLOSEs that a BOPEN overtook: slot, what still lands (R215)
  deriving DecidableEq, Repr

/-- A remote write whose first packet has been checked (R233): its source and operation, the status that refused the rest of
it, the packets seen, the number of its last packet, and the cycle from which what has arrived counts as landed. -/
structure WAcc where
  skind : BitVec 2
  src : BitVec 8
  op : Nat
  refused : Option Status
  got : Nat
  last : Option Nat
  landAt : Nat
  era : Nat                    -- the opening of the window in which it was accepted
  deriving DecidableEq, Repr

structure Window where
  open_ : Bool := false
  declared : Bool := false
  gen : BitVec 16 := 0
  base : BitVec 26 := 0
  length : BitVec 27 := 0
  rights : BitVec 128 := 0
  accs : List WAcc := []
  refused : BitVec 16 := 0
  closing : Option (Fin 64) := none
  closeAt : Option Nat := none
  era : Nat := 0                      -- openings so far
  leaving : List (Fin 64 × Nat) := [] -- WCLOSEs that a WOPEN overtook: slot, the opening they close (R234)
  deriving DecidableEq, Repr

structure Chamber where
  count : BitVec 32 := 0
  target : BitVec 32 := 0
  sat : Bool := false
  deriving DecidableEq, Repr

/-- A request-mesh combining entry (9.6): a held packet number and the cycle its HOLD expires. -/
structure CombEnt where
  packet : Nat
  expires : Nat
  deriving DecidableEq, Repr

structure LtMapEnt where
  pos : BitVec 8 := 0
  spareLink : Bool := false
  present : Bool := false
  deriving DecidableEq, Repr

structure OvrEnt where
  req : BitVec 3 := 0
  rpl : BitVec 3 := 0
  deriving DecidableEq, Repr

/-- What a requester keeps of a request, to know its answer by (R246). -/
inductive LineTag where
  | stream (p : Pos) (slot : Fin 64) (line : Nat)
  | slice (p : Pos) (id : Nat)       -- a slice's fetch for the request with that number
  | back (p : Pos) (line : Nat)      -- a slice's write-back of a line
  | fill (p : Pos) (line : Nat)      -- a chart cache's read of a chart line: page number / 8
  | count (page : Nat) (n : Nat)     -- a chart cache's add to ACCESS
  | errand (id : Nat) (off : Nat)    -- an engine's access: number of its errand, byte offset in its data
  | none
  deriving DecidableEq, Repr

/-- A request that a position's network interface has injected for no status slot, and times (R274): its operation number, the
panel time of its injection and its tag. -/
structure Loose where
  op : Nat
  since : Nat
  tag : LineTag
  deriving DecidableEq, Repr

/-- The tile's MSH_ block, router and network interface (chapter 09). LT maps and overrides are sparse over their
reset values, LT-map key 128 × version + lt, override key 149 × version + d. -/
structure Mesh where
  profile : Bool := false
  wmax : BitVec 11 := 0x100
  stepF : BitVec 5 := 0x10
  w : BitVec 11 := 0x100
  halvings : BitVec 16 := 0
  lastHalve : Option Nat := none
  lastEcho : Nat := 0
  thresh : BitVec 6 := 0x18
  weights : BitVec 40 := 0x0101010101
  tmrUs : BitVec 11 := 0x14
  hold : BitVec 8 := 0x10
  combEn : Bool := true
  epoch : Bool := false
  timeouts : BitVec 16 := 0
  lateAns : BitVec 16 := 0
  dropped : BitVec 12 := 0
  expWait : BitVec 12 := 0
  badHdr : BitVec 6 := 0
  badWrite : Bool := false
  seam : Vector SeamMap 4 := Vector.replicate 4 {}
  ltmap : Tbl (Option LtMapEnt) := []
  ovr : Tbl OvrEnt := []
  comb : Vector (Option CombEnt) 16 := Vector.replicate 16 none
  merge : List (Lt × Fin 8) := []      -- ORDERED bits that are 1 (R267)
  vc2Wait : List Nat := []             -- packets waiting for the sluice, in issue order
  towFree : Nat := 0                   -- express cycle from which the emitter may launch (R270)
  bargeFree : Nat := 0
  loose : List Loose := []             -- injected requests that no status slot holds (R274)
  turns : Tbl Nat := []                -- VC2 round: services left, by mesh, output and input port (R262)
  vc0Sent : List (Nat × Nat × Nat) := []   -- VC0 flits of the last 64 cycles: output, cycle, flits (R262)
  tapOut : Bool := false               -- express tap fenced or dead (R490)
  replays : List (Fin 4 × Nat × Nat) := []   -- replayed flits of the last second: direction, lane group, time (R430)
  deriving DecidableEq, Repr

/-- The tile regulator (Tables 12.10 to 12.12, R335 to R342). -/
structure Regulator where
  targetMv : BitVec 10 := 0x2EE
  boostMv : BitVec 5 := 0x0F
  req : BitVec 2 := 3
  state : BitVec 2 := 3
  pending : Bool := false
  refused : Bool := false
  minMv : BitVec 10 := 0
  minIdx : BitVec 4 := 0
  vnetOcp : Bool := false
  droop : BitVec 32 := 0
  vnet : Bool := false
  vsram : Bool := false
  vcore : Bool := false
  hold10 : Bool := false               -- VCORE current held 10 percent lower (R335)
  boost : Option (Nat × Nat) := none   -- output raised from, to (tile cycles)
  clamp : Option (Nat × Nat) := none
  deriving DecidableEq, Repr

/-- CLK_TILE_STAT and the lock state of the idle PLL (Table 13.8). -/
structure TileClock where
  sel : BitVec 2 := 2
  dp0 : Bool := false
  dp1 : Bool := false
  exp : Bool := false
  refSel : Bool := false
  priOk : Bool := false
  altOk : Bool := false
  holdover : Bool := false
  wdog : Bool := false
  lockLost : Bool := false
  step : BitVec 3 := 5
  failovers : BitVec 16 := 0
  lateLock : BitVec 16 := 0
  locked : Bool := false               -- the idle PLL has locked to the requested step
  running : Bool := true               -- the data-path clock runs
  expRuns : Bool := true
  deriving DecidableEq, Repr

/-- THM_SITEn (Table 14.4) and the sample counts of R378. -/
structure Site where
  a : BitVec 11 := 0
  aBad : Bool := false
  b : BitVec 11 := 0
  bBad : Bool := false
  split : Bool := false
  gov : BitVec 11 := 0
  govNone : Bool := false
  apart : Nat := 0
  close : Nat := 0
  deriving DecidableEq, Repr

structure TileTherm where
  sites : Vector Site 6 := Vector.replicate 6 {}
  hot : BitVec 11 := 0
  sensorSplit : Bool := false
  heldS4 : Bool := false
  throttle : Bool := false
  trip : Bool := false
  splitEvents : BitVec 16 := 0
  deriving DecidableEq, Repr

/-- What resets, fences and updates have done to the tile (Table 9.9). -/
structure TileFlags where
  fencedDie : Bool := false
  fencedUt : Bool := false
  lost : Bool := false                 -- position lost (R341, R348)
  inTileReset : Bool := false
  inCoreReset : Bool := false
  quiet : Bool := false                -- VCs held (R35)
  voted : Bool := false                -- fenced by a fence command of two lock-houses (R413)
  failedAt : Option Nat := none        -- when the failure of the die that started its repair was found (Table 15.9)
  deriving DecidableEq, Repr

structure UnderTile where
  time : TileTime := {}
  pound : PoundStat := {}
  poundLast : PoundStat := {}
  cycle : Nat := 0                     -- core cycles of the tile, never reset
  tick : Nat := 0                      -- cycle of the tile's last gate tick
  xing : Vector Xing 4 := Vector.replicate 4 {}
  spareX : Vector Xing 5 := Vector.replicate 5 {}     -- spare links of a spare position (9.3.4)
  xlat : Vector (BitVec 24) 4 := Vector.replicate 4 0
  stg : Staging := {}
  cht : ChartCache := {}
  stepNo : BitVec 12 := 0              -- BRT_STEP
  attempt : BitVec 4 := 0
  berths : Vector Berth 64 := Vector.replicate 64 {}
  windows : Vector Window 256 := Vector.replicate 256 {}
  chambers : Tbl Chamber := []
  mirror : List (Fin 8192) := []       -- Canal chambers shown reached (R240)
  mirrorDue : List (Fin 8192 × Bool) := []   -- updates on their way
  mesh : Mesh := {}
  pwr : Regulator := {}
  clk : TileClock := {}
  thm : TileTherm := {}
  flags : TileFlags := {}
  deriving DecidableEq, Repr

/-- A tile: compute die and under-tile (1.1). -/
structure Tile where
  core : Core := {}
  ut : UnderTile := {}
  deriving DecidableEq, Repr

/-! ### Fabric (chapter 09) -/

/-- Where a packet is. -/
inductive Place where
  | source (p : Pos)        -- at the network interface that injects it
  | router (p : Pos)
  | spareLink (p : Pos)     -- forwarded by exit position p over its spare link
  | express
  | delivered (p : Pos)     -- at the destination network interface
  | canal (d : Fin 5)       -- at a Canal die
  | combining (p : Pos)
  deriving DecidableEq, Repr

/-- A packet in flight (Table 9.3), its number and its place. -/
structure Packet where
  id : Nat
  place : Place
  type : BitVec 4
  vc : BitVec 2
  epoch : Bool
  mark : Bool
  echo : Bool
  last : Bool
  dkind : BitVec 2
  dest : BitVec 8
  skind : BitVec 2
  src : BitVec 8
  length : BitVec 13
  stepNo : BitVec 12
  attempt : BitVec 4
  addr : Word
  slot : BitVec 6
  status : Status
  seq : BitVec 16
  arg : BitVec 32
  mask : BitVec 120
  hdr : BargeHdr
  payload : List Byte
  opId : Nat
  gen : BitVec 16             -- window generation of a WR
  win : BitVec 8              -- window of a WR
  total : Nat                 -- length of the whole operation; LINE_REQ: release cycle, from the gate tick
  rflits : Nat                -- an answer: flits of its request
  base : Word                 -- address of its first byte
  write : Bool                -- LINE_REQ: write
  cls : HbmClass
  tag : LineTag
  passed : Bool               -- its hold at this router has ended (R266)
  taken : Bool                -- accepted by the destination, not yet answered
  resv : BitVec 15            -- the reserved bits of the header: 5 of word 0, 2 of word 2, 8 of word 4
  inPort : Fin 5              -- the router's input port it stands at: N, E, S, W, local
  sentAt : Nat                -- panel time of its injection; of a taken line request, that of the slice's fetch
  readyAt : Nat               -- an answer: tile cycle from which it can leave, when what it reports has happened
  expHeld : Bool              -- its wait at the emitter has been counted (R270)
  deriving DecidableEq, Repr

/-! ### HBM (chapter 07) -/

structure Stack where
  mem : Mem := []
  single : List Nat := []
  bad : List Nat := []
  wC2 : BitVec 8 := 1
  wC3 : BitVec 8 := 1
  writeShare : BitVec 16 := 0
  c0Capped : BitVec 16 := 0
  retrains : BitVec 16 := 0
  corrected : BitVec 32 := 0
  uncorr : BitVec 16 := 0
  c1Bytes : Nat := 0          -- in the running 4,096-cycle window (R199)
  outBytes : Nat := 0
  c0Lines : Nat := 0
  turnC2 : Nat := 0           -- services left to C2 and C3 in the round (R197)
  turnC3 : Nat := 0
  temp : Int := 0
  refresh2 : Bool := false
  selfRefresh : Bool := false
  present : Bool := true
  lost : Bool := false
  retraining : List (Fin 64) := []
  failedRetrains : Tbl Nat := []
  initing : Bool := false     -- row-end controller not reinitialised (R448)
  deriving DecidableEq, Repr

/-! ### Migration engine and page chart (7.6) -/

inductive MigKind where | in_ | out | demand | retire
  deriving DecidableEq, Repr

structure MigReq where
  page : BitVec 25
  kind : MigKind
  deriving DecidableEq, Repr

structure MigRun where
  req : MigReq
  old : Word
  new : Word
  host : Nat                 -- host page that the data comes from or goes to
  result : Option Status     -- set: the migration has ended, moved nothing, or failed
  moved : Nat := 0           -- lines of the page moved
  deriving DecidableEq, Repr

/-- An entry change under R204: the page, the new entry, the old entry, acknowledgements still missing. -/
structure ChartUpd where
  page : BitVec 25
  new : Word
  old : Word
  second : Bool              -- the entry is written; the second invalidation is under way
  manifest : Bool            -- an entry of a CHART manifest
  waiting : List Pos
  deriving DecidableEq, Repr

/-- An access from outside that waits on MIGRATING (R491) or on a snoop (R311). -/
inductive Waiter where
  | rdNc (k : KPort) (addr : BitVec 41)
  | wrNc (k : KPort) (addr : BitVec 41) (data : BitVec 512)
  | rdShared (k : KPort) (addr : BitVec 41) (own : Bool)
  deriving DecidableEq, Repr

/-- What an engine's line requests and remote packets are for (R246, R297, R310). -/
inductive Work where
  | kcl (w : Waiter)                                -- an access of the companion
  | back (k : Option KPort) (addr : BitVec 41)      -- dirty data given back: by a WB of a port, or in a snoop's response
  | migrate                                         -- the copy of the page being migrated
  | fill (x : PortN) (k : Fin 256) (off n : Nat)    -- a SEND entry reads n bytes at offset off
  | store (x : PortN) (k : Fin 256) (off n : Nat)   -- a RECV or FETCH entry writes n bytes at offset off
  | addend (x : PortN) (k : Fin 256) (off : Nat) (data : List Byte)   -- a COMBINE entry reads the addend of arrived data
  | mend (x : PortN) (k : Fin 256) (off : Nat) (data : List Byte)     -- an entry reads the lines that its data covers in part
  | fetch (x : PortN) (ch : BitVec 8) (addr : Word) (off n : Nat)     -- a peer's read of n bytes at addr, offset off of the read
  deriving DecidableEq, Repr

/-- An engine's access under way: its number, what it is for, answers missing, the first status other than DONE, and the data
read, by offset. -/
structure Errand where
  id : Nat
  work : Work
  left : Nat
  worst : Status
  got : List (Nat × List Byte)
  deriving DecidableEq, Repr

structure Chart where
  west : Tbl Word := []
  east : Tbl Word := []
  wHome : BitVec 5 := 0
  eHome : BitVec 5 := 0x0C
  wValid : Bool := false
  eValid : Bool := false
  demand : Bool := false
  dropped : BitVec 16 := 0
  queue : List MigReq := []
  waiting : List MigReq := []     -- runtime and firmware requests waiting for a place
  run : Option MigRun := none
  backBase : BitVec 36 := 0
  backEn : Bool := false
  upd : Option ChartUpd := none
  waiters : List Waiter := []
  deriving DecidableEq, Repr

/-! ### AXL (chapter 10) -/

inductive PortState where | off | dark | training | up | loopback
  deriving DecidableEq, Repr

/-- A consignment entry (Table 10.6) with its running state. -/
structure Consign where
  valid : Bool := false
  dir : BitVec 2 := 0
  linkAbort : Bool := false
  combine : Bool := false
  op : BitVec 2 := 0
  channel : BitVec 8 := 0
  trigger : BitVec 13 := 0
  loc : Word := 0
  addend : Word := 0
  length : BitVec 32 := 0
  window : BitVec 8 := 0
  gen : BitVec 16 := 0
  doneCh : Word := 0
  status : BitVec 8 := 0
  busy : Bool := false
  step : Nat := 0
  met : Bool := false
  firedAt : Nat := 0
  moved : Nat := 0                -- bytes moved
  ended : Option (Nat × Status) := none   -- the row of Table 10.7 that ended it, from 0, and its status
  id : Nat := 0                   -- number within the manifest's expansions; 0 for an entry of its own
  after : List Nat := []          -- entries whose completion fires it, in place of TRIGGER (10.7)
  coll : Nat := 0                 -- the collective it belongs to; 0 none
  auto : Bool := false            -- an expansion: its window is the one that covers the write
  deriving DecidableEq, Repr

/-- One lane of a port (10.2.2). -/
structure Lane where
  txSeq : BitVec 8 := 0
  rxSeq : BitVec 8 := 255         -- last LSEQ received in order
  replay : List Frame := []       -- unacknowledged frames, oldest first
  resends : Nat := 0
  deriving DecidableEq, Repr

/-- A data frame that has been delivered to the port engine: written for an entry now, or done with. -/
structure InFrame where
  frame : Frame
  entry : Option (Fin 256) := none
  done : Bool := false
  deriving DecidableEq, Repr

structure Port where
  en : Bool := false
  genMax : Bool := true
  peerRead : Bool := false
  meetUs : BitVec 15 := 0x7D0
  loop_ : BitVec 3 := 0
  state : PortState := .off
  gen2 : Bool := false
  quar : Bool := false
  fibreLoop : Bool := false
  los : Bool := false
  timeValid : Bool := false
  loopRefused : Bool := false
  downCount : BitVec 16 := 0
  laneMask : BitVec 16 := 0
  fecCorr : BitVec 24 := 0
  fecUncorr : BitVec 12 := 0
  replays : BitVec 12 := 0
  badFrame : BitVec 8 := 0
  pattern : BitVec 8 := 0
  offset : BitVec 48 := 0
  delay : BitVec 14 := 0
  peerSrc : BitVec 2 := 0
  peerId : BitVec 256 := 0
  refused : BitVec 16 := 0
  discarded : BitVec 16 := 0
  timeouts : BitVec 16 := 0
  cons : Vector Consign 256 := Vector.replicate 256 {}
  clears : List (BitVec 8 × BitVec 32 × BitVec 4) := []   -- held CLEARs: channel, length, attempt
  lanes : Vector Lane 16 := Vector.replicate 16 {}
  txPseq : BitVec 16 := 0
  rxNext : BitVec 16 := 0                                  -- next PSEQ to be delivered
  held : List Frame := []                                  -- frames waiting for PSEQ order
  credits : Vector Nat 3 := Vector.replicate 3 0
  owed : Vector Nat 3 := Vector.replicate 3 0              -- credits to be returned to the peer
  sent : List Frame := []                                  -- frames launched, oldest first
  waitTx : List Frame := []                                -- frames without a credit or a lane yet
  relay : List Frame := []                                 -- frames of removed lanes that have no lane yet (R283)
  inbox : List InFrame := []                               -- data frames delivered, whose credits are not returned
  tx1 : Nat := 0                                           -- VC1 frames launched since UP
  back1 : Nat := 0                                         -- VC1 credits returned since UP
  lastTx : Tbl Nat := []                                   -- by channel: tx1 at its last data frame
  lock : Bool := false                                     -- frame lock on 8 lanes or more, with the digest in peerId
  prbs : BitVec 31 := 0x7FFFFFFF                           -- state of the PRBS-31 generator (R287)
  fetches : List (BitVec 8 × Word × Nat × Nat) := []       -- peer reads being served: channel, address, length, sent
  timeIn : Int × Int := (0, 0)                             -- launch and arrival time of the last time frame
  exchanges : Nat := 0
  farLoop : BitVec 3 := 0                                  -- loop-back mode 3 or 4 entered for the peer (R288)
  stateSince : Nat := 0
  retryAt : Option Nat := none                             -- training is retried at this time
  temp : Int := 0
  hotOff : Bool := false             -- taken OFF at 85 °C (R382)
  coolAt : Option Nat := none        -- below 75 °C since
  deriving DecidableEq, Repr

/-! ### KCL, intake unit and manifests (chapter 11) -/

structure KclPort where
  en : Bool := true
  genMax : BitVec 2 := 3
  loop_ : BitVec 3 := 0
  state : BitVec 3 := 0
  gen : BitVec 2 := 0
  lanes : BitVec 5 := 0
  los : Bool := false
  loopRefused : Bool := false
  downCount : BitVec 16 := 0
  pattern : BitVec 16 := 0
  deriving DecidableEq, Repr

structure RingReg where
  base : BitVec 36 := 0
  sizeLog2 : BitVec 4 := 4
  en : Bool := false
  deriving DecidableEq, Repr

structure Cwin where
  basePage : BitVec 25 := 0
  pages : BitVec 25 := 0
  en : Bool := false
  pend : Option Word := none   -- a write that waits for the recall of the old window's lines
  deriving DecidableEq, Repr

/-- A message the panel has given to the companion (Table 11.3). -/
inductive KclOut where
  | data (k : KPort) (addr : Word) (d : BitVec 512)
  | ack (k : KPort) (st : Status)
  | snpInv (addr : BitVec 41)
  | snpRsp (line : Word)
  | time (k : KPort) (ns : Nat)
  | msix
  deriving DecidableEq, Repr

/-- A pound entry (Table 11.7). -/
structure PoundEnt where
  d : BitVec 32
  power : BitVec 16
  timed : Bool
  canalTimed : Bool
  deriving DecidableEq, Repr

/-- An LT entry (Table 11.8). -/
structure LtEnt where
  lt : Lt
  entry : BitVec 14
  narrowOk : Bool
  keeperReq : Bool
  thresh : BitVec 12
  level : BitVec 2
  berths : Word
  winBase : BitVec 8
  winCount : BitVec 9
  deriving DecidableEq, Repr

structure RestoreEnt where
  src : Word
  dst : Word
  len : BitVec 32
  deriving DecidableEq, Repr

/-- A parsed manifest (11.5). -/
structure Manifest where
  kind : BitVec 8
  seq : BitVec 32
  length : Nat
  lts : List Lt
  pounds : Nat
  replays : Nat
  late : Bool                  -- CONTINUE_LATE
  debug : Bool
  admitWait : Nat
  notBefore : Nat
  canalBase : Nat
  canalCount : Nat
  poundEnts : List PoundEnt
  ltEnts : List LtEnt
  reserve : List (Lt × Nat × Nat)
  consign : List (PortN × Fin 256 × Consign)
  colls : List (Nat × Nat × Word)      -- collectives: number, entries, DONE
  restore : List RestoreEnt
  image : Option (BitVec 48 × Nat)
  chart : List (BitVec 25 × BitVec 4 × Word)
  deriving DecidableEq, Repr

/-- Where an admitted step stands. -/
inductive StepPhase where
  | admitted | running | aborting | draining | repairing
  deriving DecidableEq, Repr

/-- An admitted step (2.4, 2.5, 11.6, 11.7). -/
structure StepRec where
  num : Nat
  man : Manifest
  phase : StepPhase
  poundIdx : Nat
  attempt : BitVec 4
  replaysRun : Nat
  stepW : BitVec 3             -- bank steps at admission
  stepE : BitVec 3
  tAdmit : Nat
  cause : Cause
  causeLt : BitVec 7
  overrun : Bool
  late : Bool
  throttled : Bool
  marked : Bool
  stalls : BitVec 16
  latePounds : BitVec 16
  poundsRun : BitVec 32
  faultSeen : Option (CoreFault × BitVec 14 × Ctx × BitVec 32)   -- last program-class fault (R142)
  faultLt : BitVec 7 := 0x7F   -- the LT in whose core it was
  ending : Option Status       -- the step ends with this status
  noReplay : Bool
  addr : Word
  attemptPounds : Nat          -- LT-pounds of the running attempt (R437)
  lost : Nat                   -- LT-pounds of its aborted attempts
  prog : Bool                  -- ended on a recurring program-class fault
  restored : Bool
  finals : List Lt             -- LTs that reached PEND FINAL
  colls : List (Nat × Nat × Word)   -- collectives: number, entries not yet complete, DONE
  recheck : Bool               -- a line error is to be re-read before replay (R196)
  retiring : Option (BitVec 41)   -- its page is being retired
  deriving DecidableEq, Repr

/-- An abort cause on its way to LH-C (phase 1 of Table 2.6); of a core fault, its code, bundle index, context and pound. -/
structure AbortReq where
  step : Nat
  cause : Cause
  lt : BitVec 7
  overrun : Bool
  seen : Option (CoreFault × BitVec 14 × Ctx × BitVec 32) := none
  deriving DecidableEq, Repr

/-- A completion record, eight words (Table 11.11). -/
structure CompRec where
  words : Vector Word 8
  deriving DecidableEq, Repr

structure LoadRun where
  man : Manifest
  tAdmit : Nat
  deriving DecidableEq, Repr

structure ChartRun where
  man : Manifest
  tAdmit : Nat
  next : Nat
  busy : Bool                -- its next entry is being carried out
  deriving DecidableEq, Repr

structure Intake where
  mring : RingReg := {}
  cring : RingReg := {}
  ffl : RingReg := {}
  hwinBase : Word := 0
  hwinLen : BitVec 48 := 0
  hwinStored : Word × BitVec 48 := (0, 0)    -- MRAM values (R488)
  snoopUs : BitVec 10 := 0x0A
  snoopLost : BitVec 16 := 0
  cwin : Vector Cwin 8 := Vector.replicate 8 {}
  mTaken : BitVec 32 := 0          -- manifest ring line 1
  mSeen : BitVec 32 := 0           -- line 0 as last read
  cProd : BitVec 32 := 0           -- completion ring line 0
  fTaken : BitVec 32 := 0          -- free-frame list line 1
  waiting : List (BitVec 48 × Nat) := []  -- manifests taken from the ring, not decided
  seenAt : Nat := 0
  heldSince : Option Nat := none
  cache : List Word := []          -- companion lines held as shared copies
  dir : List (BitVec 35 × Bool) := []      -- panel lines the companion holds (exclusive?), oldest grant first
  snooping : List (BitVec 35 × Nat) := []  -- SNP_INV sent, not answered
  kept : List CompRec := []        -- completion records kept while no port is UP
  written : List CompRec := []     -- records written, oldest first
  steps : List StepRec := []
  loads : List LoadRun := []
  chartRuns : List ChartRun := []  -- admitted CHART manifests, in order
  stopped : Bool := false          -- admits nothing (R348, R350)
  pcieRuntime : Bool := false      -- MGT_PCIE_CFG.RUNTIME
  out : List KclOut := []
  lastMark : Nat := 0
  marks : Nat := 0
  deriving DecidableEq, Repr

/-! ### Canal: time, clocks, power, thermal (chapters 02, 12, 13, 14) -/

structure PoundCfg where
  len : BitVec 15 := 0x3E8
  next : BitVec 15 := 0x3E8
  pend : Bool := false
  err : Status := .done
  deriving DecidableEq, Repr

structure Msw where
  sel : Bool := false
  cur : Bool := false
  ready : BitVec 2 := 0
  result : BitVec 2 := 0
  deriving DecidableEq, Repr

/-- CLK_STEP (Table 13.10) with the request times and the tick LH-C fixed. -/
structure ClkStep where
  wNext : BitVec 3 := 5
  eNext : BitVec 3 := 5
  pendW : Bool := false
  pendE : Bool := false
  link : Bool := false
  emerg : Bool := false
  wCur : BitVec 3 := 5
  eCur : BitVec 3 := 5
  err : Status := .done
  changes : BitVec 32 := 0
  wReq : Nat := 0
  eReq : Nat := 0
  wTick : Option Nat := none
  eTick : Option Nat := none
  deriving DecidableEq, Repr

structure Clocks where
  step : ClkStep := {}
  dly : BitVec 2 := 3
  oscReady : Bool := false
  trim : Int := 0
  trimStored : Int := 0
  trimSaved : Nat := 0                 -- time of the last save (13.1)
  msw : Vector Msw 4 := Vector.replicate 4 {}
  powerGood : Nat := 0
  deriving DecidableEq, Repr

/-- A message the grandmaster port sends: an Announce (Table 13.7), or the answer to a Delay_Req with its receive time. -/
inductive PtpOut where
  | announce (clockClass timeSource prio1 prio2 domain : BitVec 8) (utc : BitVec 16)
  | delayResp (rx : Nat)
  | sync (ns : Nat)
  | delayReq (ns : Nat)
  deriving DecidableEq, Repr

structure TimeSrc where
  fracLatch : BitVec 16 := 0
  cur : BitVec 2 := 3
  freeRun : Bool := true
  setRefused : Bool := false
  qual : BitVec 3 := 0
  qualSince : Vector Nat 3 := Vector.replicate 3 0
  en : BitVec 3 := 7
  holdFrom : Nat := 0
  lastClass : BitVec 2 := 3       -- class in use before holdover (Table 13.7)
  remain : Int := 0
  ppsEn : Bool := false
  ppsQual : Bool := false
  ppsWidth : BitVec 8 := 0x64
  ppsInDelay : BitVec 16 := 0
  ppsInCount : BitVec 32 := 0
  ppsLast : Option Nat := none
  ppsGood : Nat := 0
  ptpMode : BitVec 2 := 0
  ptpDomain : BitVec 8 := 0
  ptpPrio1 : BitVec 8 := 0x80
  ptpPrio2 : BitVec 8 := 0x80
  ptpTsrc : BitVec 8 := 0x20
  ptpUtc : BitVec 16 := 0x25
  ptpSlave : Bool := false
  ptpOffsets : List Int := []
  ptpLastSync : Nat := 0
  ptpDelay : Int := 0                          -- path delay measured last
  ptpSent : List PtpOut := []
  servoAt : Nat := 0                           -- last servo update
  slewAt : Nat := 0                            -- panel time up to which REMAIN has been slewed (R31)
  slewTick : Int := 0                          -- slewed since the last gate tick, in 2⁻¹⁶ ns
  gateSlew : Int := 0                          -- slewed in the last gate interval: what it differs by from the pound length
  trims : List (Nat × Int) := []               -- trims of the last hour, newest first (R373)
  deriving DecidableEq, Repr

/-- A queued power-on (R344). -/
structure PowerReq where
  pos : Pos
  rail : Rail
  at_ : Nat
  deriving DecidableEq, Repr

structure Reach where
  limitA : BitVec 8 := 0x64
  inrushV : BitVec 8 := 0x10
  inrushO : BitVec 8 := 0x06
  iout : BitVec 10 := 0
  pg : Bool := false
  tripped : Bool := false
  inLimit : Bool := false
  timeouts : BitVec 16 := 0
  limitEvents : BitVec 16 := 0
  queue : List PowerReq := []
  held : List (PowerReq × Nat) := []     -- admitted, with the allowance in A
  on : Bool := false
  lost : Bool := false
  deriving DecidableEq, Repr

structure PanelPower where
  userW : BitVec 16 := 0x3A98
  effW : BitVec 16 := 0x3A98
  baseW : BitVec 16 := 0x0BB8
  loggedW : BitVec 16 := 0x3A98
  vin : BitVec 16 := 0
  iin : BitVec 16 := 0
  pin : BitVec 16 := 0
  low : Bool := false
  high : Bool := false
  lost : List Supply := []               -- supplies that are lost (Table 12.9)
  inHold : Bool := false                 -- input-current limiting holds every reach output (R347)
  optics : Bool := true                  -- the optics supplies are on
  lowTicks : Nat := 0                    -- gate intervals at or below 92 percent (R353)
  deriving DecidableEq, Repr

structure Thermal where
  inlet : BitVec 14 := 0
  outlet : BitVec 14 := 0
  flowOk : Bool := false
  thermBad : Bool := false
  inletHigh : Bool := false
  inletLow : Bool := false
  flowEst : BitVec 10 := 0
  emerg : Bool := false
  glitch : BitVec 16 := 0
  thermalW : BitVec 16 := 0x3A98
  targetW : BitVec 16 := 0x3A98
  theta : BitVec 16 := 0
  tjPlan : BitVec 7 := 0x5C
  tauMs : BitVec 16 := 0x7D0
  horizon : BitVec 16 := 0
  emergencies : BitVec 16 := 0
  lastCause : BitVec 4 := 0
  throttles : BitVec 16 := 0
  plan : List (Nat × BitVec 3 × BitVec 3) := []   -- per pound: cap, West step, East step
  goodSince : Option Nat := none
  samples : List (Nat × Int × Nat) := []          -- last outlet - inlet and input power (R392)
  rateHeld : Bool := false
  coolSince : Option Nat := none                  -- since when FLOW_OK has been asserted and the inlet at 40 °C or below (R388)
  hist : List (Nat × Int × Int × Nat) := []       -- of the last second: time, hottest tile, inlet, input power (R390)
  coolTicks : Vector Nat 2 := Vector.replicate 2 0   -- gate intervals since a bank was last hot (R381)
  hotAt : Vector Nat 2 := Vector.replicate 2 0       -- when a bank was last hot
  loweredAt : Vector Nat 2 := Vector.replicate 2 0   -- last lowering of a bank for heat
  thetaN : Nat := 0                                  -- THETA before rounding, as a fraction
  thetaD : Nat := 1
  slowRise : Bool := false                           -- power rises by at most one step each 100 ms (R393)
  raisedAt : Nat := 0
  deriving DecidableEq, Repr

/-! ### Lock-houses: start-up, repair, resets, security, Logbook (chapters 15, 16, 17) -/

inductive PanelState where | off | starting | active | standby | moored
  deriving DecidableEq, Repr

structure FdrEnt where
  unit : BitVec 40
  cause : BitVec 8
  state : BitVec 4
  voters : BitVec 3
  time : Nat
  logIdx : Nat
  deriving DecidableEq, Repr

/-- TIL_POS and LKH_LTPOSlt (Table 15.12), the die that carries the LT, its stored RESTORE entries (R423). -/
structure LtPos where
  pos : BitVec 8 := 0
  home : BitVec 8 := 0
  added : BitVec 4 := 0
  spareLink : Bool := false
  borrowed : Bool := false
  detoured : Bool := false
  residentLost : Bool := false
  narrow : Bool := false
  present : Bool := true
  moves : BitVec 16 := 0
  die : Option Pos := none
  restore : List RestoreEnt := []
  lastLoad : Option (BitVec 48 × Nat) := none
  deriving DecidableEq, Repr

structure Subst where
  lt : Lt
  spare : Pos
  phase : Nat                -- of Table 15.9: 3 powering, 4 tables written, 7 to be sounded, 8 sounded
  start : Nat
  flips : BitVec 32          -- FLIPS when the tables were written
  loaded : Nat := 0          -- when phase 6 ended
  deriving DecidableEq, Repr

structure FenceCmd where
  house : House
  unit : BitVec 40
  cause : BitVec 8
  at_ : Nat
  deriving DecidableEq, Repr

structure Repair where
  suspicions : List (Lt × Nat) := []       -- LT and pound number of its first suspicion
  cmds : List FenceCmd := []
  fences : BitVec 16 := 0
  singles : BitVec 16 := 0
  nextLt : BitVec 7 := 0
  soundDone : BitVec 24 := 0
  soundFailed : BitVec 16 := 0
  due : List Lt := []                      -- LTs to be sounded, in order (R414, R415, R442, R421)
  sounding : List (Lt × Nat × Bool) := []  -- soundings that run: LT, pounds left, whether the signature has been compared
  subst : List Subst := []
  failures : List (BitVec 40 × BitVec 8) := []  -- unit failures that await fence commands, with their cause
  reports : List RepairEvent := []         -- event reports on the towpath to the lock-houses (R413)
  timeouts : List (Nat × Pos) := []        -- LTs that have not answered in this pound, each with a requester (Table 15.8)
  unusable : List Pos := []                -- spares found unusable
  units : List (BitVec 40) := []           -- units out of service
  pounds : Nat := 0                        -- gate ticks
  rotated : Nat := 0                       -- value of pounds at the rotation's last advance
  deriving DecidableEq, Repr

/-- The seven reset kinds' requests (LKH_RESET, Table 16.6). -/
structure ResetReg where
  kind : BitVec 4 := 0
  clear : Bool := false
  update : Bool := false
  ctx : BitVec 2 := 0
  target : BitVec 8 := 0
  busy : Bool := false
  status : Status := .done
  waiting : Bool := false
  since : Nat := 0
  origin : Origin := .firmware         -- who asked for it
  path : Path := .internal
  deriving DecidableEq, Repr

/-- LKH_ block, panel state and start-up (Tables 15.13, 16.6). Beyond the rules' words: log entry 13 (DESIGN CHOICE). -/
structure Lkh where
  part : BitVec 8 := 1
  derated : Bool := false
  mapUnverified : Bool := false
  wUns : Bool := false                    -- W_UNSAFE
  eUns : Bool := false                    -- E_UNSAFE
  fdrFull : Bool := false
  cores : BitVec 7 := 0
  stackBits : BitVec 24 := 0
  absent : List Lt := []
  deratedLts : List Lt := []              -- LTs and stacks that re-qualifications have marked absent (R436), in MRAM
  absentStacks : BitVec 24 := 0
  modelFrames : BitVec 32 := 0
  serving : BitVec 3 := 0
  hwDone : Word := 0
  hwLost : Word := 0
  hwLostProg : Word := 0
  hwSound : Word := 0
  hwMoored : Word := 0
  hwIdle : Word := 0
  hwSaved : Vector Word 6 := Vector.replicate 6 0
  hwCounted : List Lt := []               -- LTs whose running interval a step's end has counted
  hw30d : BitVec 17 := 0
  hwDays : BitVec 5 := 0
  hwRef : Bool := false
  refBroken : Bool := false               -- a condition of R438 has failed since the buckets were saved
  narrow : List Pos := []                 -- narrow retention in force
  narrowNext : List Pos := []             -- stored for the next cold start
  stages : Vector (Vector Word 8) 11 := Vector.replicate 11 (Vector.replicate 8 0)
  stageNext : Nat := 0
  halted : Bool := false
  coldStarts : BitVec 32 := 0
  warmRun : Bool := false                 -- the stages rerun for a warm reset
  fdr : List FdrEnt := []                 -- the field defect record as read by majority
  fdrCopies : Vector (Tbl (Vector Word 4)) 3 := Vector.replicate 3 []   -- its copies in the MRAM of the lock-houses, by entry (R405)
  fuseBad : List (BitVec 40) := []
  noPower : List (BitVec 40) := []
  mapTrusted : Bool := true
  testBad : List (BitVec 40) := []        -- units that failed in stages 0x04 to 0x07
  buckets : List (Nat × Nat × Nat × Bool) := []   -- per day of panel time: DONE, DONE + LOST, and whether R438's conditions held
  pstate : PanelState := .starting
  req : Bool := false                     -- LKH_PSTATE.REQ is STANDBY
  wake : Bool := true
  pending : Bool := false
  reset : ResetReg := {}
  requalify : Bool := false               -- stored permission (R435)
  keeperHouse : House := 1                -- who holds LH-C's roles
  sealed : Bool := false                  -- MAT_, KCL_, SEC_ blocks sealed (R488)
  stallPtr : BitVec 8 := 0
  stallLog : Tbl (Word × Word) := []
  deriving DecidableEq, Repr

structure LogEntry where
  index : Nat
  time : Nat
  prev : BitVec 256
  type : BitVec 16
  origin : Origin
  path : Path
  flags : BitVec 8
  key : BitVec 8
  data : List Byte
  deriving DecidableEq, Repr

structure Logbook where
  entries : List LogEntry := []        -- newest first
  nextIdx : Nat := 1                   -- GENESIS is entry 0
  oldest : Nat := 0
  sel : Word := 0
  ckptPend : List (Nat × Bool) := []   -- checkpoint entries (requested?) whose signatures are being written
  ckptLast : Nat := 0
  ckptReqAt : Option Nat := none
  lostUnread : Bool := false
  selBad : Bool := false
  holders : BitVec 3 := 0
  checkpoints : BitVec 32 := 0
  exported : Nat := 0                  -- LOG_EXPORT
  sigs : List (Nat × Bool × List Byte) := []   -- index, requested, signature
  reqKey : BitVec 8 := 0xFF            -- manager key of the signed request that is being carried out
  deriving DecidableEq, Repr

/-- What an accepted certificate carries out (Table 17.7). -/
inductive CertAct where
  | quarantine (d : BitVec 256)
  | release (d : BitVec 256)
  | requalify
  | enrol (gen : BitVec 32) (n k : Nat) (keys : List (List Byte))
  | commit (cls : Fin 6) (v : BitVec 8)
  | revoke (slot : Fin 4)
  deriving DecidableEq, Repr

structure Security where
  slots : BitVec 3 := 0
  updating : Bool := false
  revoked : BitVec 4 := 0
  pkgVersion : BitVec 32 := 0
  groups : Vector (Vector Nat 6) 3 := Vector.replicate 3 (Vector.replicate 6 0)   -- anti-rollback fuses, one set in each lock-house (R457)
  i3cLock : Bool := false
  pcieLock : Bool := false
  jtagLock : Bool := false
  locksStored : BitVec 3 := 0           -- MRAM values (R488)
  certAddr : Word := 0
  certLen : BitVec 32 := 0
  certBusy : Bool := false
  certStatus : Status := .done
  quoteBusy : Bool := false
  nonce : BitVec 256 := 0
  meas : Vector (Vector (BitVec 256) 8) 3 := Vector.replicate 3 (Vector.replicate 8 0)
  quote : List Byte := []
  setGen : BitVec 32 := 0
  mgrN : Nat := 0
  mgrK : Nat := 0
  mgrKeys : List (List Byte) := []
  lastSeq : BitVec 64 := 0
  lastCtr : Tbl Nat := []               -- last counter accepted per key (R462)
  quarantine : List (BitVec 256) := []
  pkgs : Vector (Option PackageIn) 2 := Vector.replicate 2 none
  updateStep : Nat := 0
  unitPkg : Tbl (BitVec 32) := []       -- PKG_VERSION of the component each unit runs: key 1024 × class + index
  pendingAct : Option CertAct := none   -- action of the certificate accepted last
  deriving DecidableEq, Repr

/-- The sideband pins (Table 11.13). Beyond the rules' words: log entry 11 (DESIGN CHOICE). -/
structure Pins where
  panelRstN : Bool := true
  pwrEn : Bool := true
  flowOk : Bool := false
  alertN : Bool := false
  alive : Bool := false
  aliveAt : Nat := 0                   -- time of the last toggle
  thermTripN : Bool := true
  ppsUntil : Nat := 0                  -- PPS_OUT is high before this time while EN is 1
  bootSel : Bool := false
  deriving DecidableEq, Repr

/-- The Canal MSH_ block (Table 9.6). -/
structure Epoch where
  cur : Bool := false
  arm : Bool := false
  free : Bool := true
  flips : BitVec 32 := 0
  drainSum : BitVec 32 := 0
  flippedAt : Nat := 0
  left : List (Pos × Nat) := []      -- tiles reported to the repair logic 2 ms after the last flip, with their old flits (R261)
  deriving DecidableEq, Repr

/-! ### The panel -/

structure State where
  pending : List Instr                 -- commands waiting, first in, first out (the block's queue)
  now : Nat                            -- panel time of LH-C, ns (TIM_NOW)
  lastTick : Nat                       -- panel time of the last gate tick
  fresh : Nat                          -- MODEL: counter for free values
  nextPkt : Nat                        -- MODEL: next packet number
  tiles : Vector Tile 144
  hbm : Vector Stack 24
  ports : Vector Port 18
  kports : Vector KclPort 2
  intake : Intake
  host : Mem                           -- companion memory, by host window offset
  chart : Chart
  canal : Tbl Chamber                  -- Canal chambers (8.8)
  canalSig : Tbl Nat                   -- 1 + the cycle of the last SIGNAL of each (R237)
  net : List Packet                    -- packets in flight, each behind those that reached their places before it
  errands : List Errand                -- engines' accesses under way
  aborts : List AbortReq               -- abort causes that have been reported and not acted on (Table 2.6)
  ltpos : Vector LtPos 120
  pcfg : PoundCfg
  epoch : Epoch
  clocks : Clocks
  tsrc : TimeSrc
  reaches : Vector Reach 24
  power : PanelPower
  therm : Thermal
  repair : Repair
  lkh : Lkh
  log : Logbook
  sec : Security
  pins : Pins
  deriving DecidableEq, Repr

/-- The home position of an LT (R18): 12 × row + column. -/
def homePos (lt : Nat) : Nat :=
  let lcol := lt % 10
  let c1 := if lcol ≥ 2 then lcol + 1 else lcol
  let col := if lcol ≥ 8 then c1 + 1 else c1
  12 * (lt / 10) + col

/-- The machine right after reset: every field at the reset value of its register map; see notes/assumptions for the
fields the spec gives none. Beyond the rules' words: log entry 2 (DESIGN CHOICE). -/
def State.reset : State where
  pending := []
  now := 0
  lastTick := 0
  fresh := 0
  nextPkt := 0
  tiles := Vector.replicate 144 {}
  hbm := Vector.replicate 24 {}
  ports := Vector.replicate 18 {}
  kports := Vector.replicate 2 {}
  intake := {}
  host := []
  chart := {}
  canal := []
  canalSig := []
  net := []
  errands := []
  aborts := []
  ltpos := Vector.ofFn fun lt : Fin 120 =>
    { pos := BitVec.ofNat 8 (homePos lt), home := BitVec.ofNat 8 (homePos lt) }
  pcfg := {}
  epoch := {}
  clocks := {}
  tsrc := {}
  reaches := Vector.replicate 24 {}
  power := {}
  therm := {}
  repair := {}
  lkh := {}
  log := {}
  sec := {}
  pins := {}

end Sys2Proof.Machine
end

