-- ==== Sys2Proof/Machine/Ops.lean ====
section
/-! DEFINITION. The named operations over the state that the meanings share: tiles, contexts and their registers, writes in
flight, statuses, panel addresses (R24, R25), positions (R17 to R22), steps, core faults (R141), chambers (R236), status
slots (R161) and packets (Table 9.3). -/

namespace Sys2Proof.Machine

open Sys2Proof

/-- What a command answers. -/
abbrev Out := Host.Outcome State Fault Refusal

/-! ### Reaching into the state -/

def State.tile (s : State) (p : Pos) : Tile := s.tiles[p]
def State.core (s : State) (p : Pos) : Core := s.tiles[p].core
def State.ut (s : State) (p : Pos) : UnderTile := s.tiles[p].ut

def State.modTile (s : State) (p : Pos) (f : Tile → Tile) : State := { s with tiles := vmod s.tiles p f }
def State.modCore (s : State) (p : Pos) (f : Core → Core) : State :=
  s.modTile p fun t => { t with core := f t.core }
def State.modUt (s : State) (p : Pos) (f : UnderTile → UnderTile) : State :=
  s.modTile p fun t => { t with ut := f t.ut }
def State.modCtl (s : State) (p : Pos) (f : Control → Control) : State :=
  s.modCore p fun c => { c with ctl := f c.ctl }
def State.modMov (s : State) (p : Pos) (f : MoveUnit → MoveUnit) : State :=
  s.modCore p fun c => { c with mov := f c.mov }
def State.modSpd (s : State) (p : Pos) (f : Scratch → Scratch) : State :=
  s.modCore p fun c => { c with spd := f c.spd }
def State.modMat (s : State) (p : Pos) (f : Matrix → Matrix) : State :=
  s.modCore p fun c => { c with mat := f c.mat }
def State.modMesh (s : State) (p : Pos) (f : Mesh → Mesh) : State :=
  s.modUt p fun u => { u with mesh := f u.mesh }
/-- Every tile at once. -/
def State.allTiles (s : State) (f : Pos → Tile → Tile) : State :=
  { s with tiles := Vector.ofFn fun p => f p s.tiles[p] }
def State.allUts (s : State) (f : Pos → UnderTile → UnderTile) : State :=
  s.allTiles fun p t => { t with ut := f p t.ut }
/-- The tiles of a list of positions, one after the other. -/
def State.eachPos (s : State) (ps : List Pos) (f : Pos → State → State) : State := ps.foldl (fun s p => f p s) s
/-- Panel time never runs back (R31). Beyond the rules' words: log entry 1 (DESIGN CHOICE). -/
def State.at_ (s : State) (t : Nat) : State := { s with now := max s.now t }

/-- What 50 ppm of an interval in ns takes off a difference, in 2⁻¹⁶ ns (R31). -/
def slewStep (remain : Int) (ns : Nat) : Int :=
  let m : Int := (ns * 65536 * 50 / 1000000 : Nat)
  max (-m) (min m remain)
/-- The difference to the source has been slewed up to now. -/
def State.slewed (s : State) : State :=
  let c := s.tsrc
  let k := slewStep c.remain (s.now - c.slewAt)
  { s with tsrc := { c with remain := c.remain - k, slewAt := s.now, slewTick := c.slewTick + k } }

/-! ### Contexts and registers (5.1) -/

def Core.ctx (c : Core) : Ctx → CtxState
  | .main => c.main | .hand => c.hand | .tow => c.tow | .dbg => c.dbg
def Core.modCtx (c : Core) (x : Ctx) (f : CtxState → CtxState) : Core :=
  match x with
  | .main => { c with main := f c.main }
  | .hand => { c with hand := f c.hand }
  | .tow => { c with tow := f c.tow }
  | .dbg => { c with dbg := f c.dbg }
def ctxNum : Ctx → Fin 4
  | .main => 0 | .hand => 1 | .tow => 2 | .dbg => 3

/-- The context whose S, A and P registers an instruction names: debug code, which issues only while MAIN is halted, reads and
writes MAIN's (Table 5.2). Beyond the rules' words: log entry 10 (DEDUCED). -/
def regCtx : Ctx → Ctx
  | .dbg => .main
  | x => x
def Core.readS (c : Core) (x : Ctx) (r : Nat) : Word := vat (c.ctx (regCtx x)).s r
def Core.readA (c : Core) (x : Ctx) (r : Nat) : BitVec 48 := vat (c.ctx (regCtx x)).a r
/-- P0 reads as 1 (Table 5.1). -/
def Core.readP (c : Core) (x : Ctx) (r : Nat) : Bool := if r % 8 = 0 then true else vat (c.ctx (regCtx x)).p r
/-- Vector registers of a context (Table 5.2); a debug context holds none, and its reads see MAIN's. -/
def Core.readV (c : Core) (x : Ctx) (r : Nat) : VReg :=
  match x with
  | .main => vat c.vMain r
  | .hand => vat c.vHand r
  | .tow => vat c.vTow r
  | .dbg => vat c.vMain r
def setV (v : VReg) (mask val : VReg) : VReg := (v &&& ~~~mask) ||| (val &&& mask)

/-- A scratchpad write replaces the words it covers, their error marks included (R179). -/
def Scratch.write (d : Scratch) (a : Nat) (bs : List Byte) : Scratch :=
  let hit (w : Nat) : Bool := decide (a ≤ 4 * w + 3) && decide (4 * w < a + bs.length)
  { d with mem := memWrite d.mem a bs, bad := d.bad.filter fun w => !hit w, single := d.single.filter fun w => !hit w
           scrubFix := d.scrubFix.filter fun k => decide (1024 * (k + 1) ≤ a) || decide (a + bs.length ≤ 1024 * k) }

/-- A write in flight reaches its register; P0 ignores writes (Table 5.1). -/
def Core.apply (c : Core) : RegDst → Core
  | .s x r v => c.modCtx (regCtx x) fun k => { k with s := k.s.set r v }
  | .a x r v => c.modCtx (regCtx x) fun k => { k with a := k.a.set r v }
  | .p x r v => if r = 0 then c else c.modCtx (regCtx x) fun k => { k with p := k.p.set r v }
  | .v x r m v =>
    match x with
    | .hand => { c with vHand := vmod c.vHand (Fin.ofNat 4 r.val) fun o => setV o m v }
    | .tow => { c with vTow := vmod c.vTow (Fin.ofNat 4 r.val) fun o => setV o m v }
    | _ => { c with vMain := vmod c.vMain r fun o => setV o m v }
  | .mem a bs => { c with spd := c.spd.write a bs }
  | .ring _ a bs => { c with spd := c.spd.write a bs }
  | .sig _ _ => c
  | .arm _ _ => c
  | .vl x v => { c with ctl := { c.ctl with vl := c.ctl.vl.set (ctxNum x) v } }
  | .patience x v => { c with ctl := { c.ctl with patience := c.ctl.patience.set (ctxNum x) v } }

/-- Whether a write in flight of the same cycle is applied ahead of another: an ARM before a SIGNAL (R237). -/
def aheadOf : RegDst → RegDst → Bool
  | .arm _ _, .sig _ _ => true
  | _, _ => false
/-- Enter a write in flight behind every earlier-issued write that is due no later: the later-issued stands (R119). -/
def pendInsert (w : PendW) : List PendW → List PendW
  | [] => [w]
  | x :: r => if x.due < w.due ∨ x.due = w.due ∧ !aheadOf w.dst x.dst then x :: pendInsert w r else w :: x :: r

def Core.later (c : Core) (due : Nat) (d : RegDst) : Core := { c with pend := pendInsert ⟨due, d⟩ c.pend }

/-- Apply the writes that a bundle issued in cycle cc sees (R118). -/
def commitList (cc : Nat) : List PendW → Core → Core
  | [], c => { c with pend := [] }
  | w :: r, c => if w.due ≤ cc then commitList cc r (c.apply w.dst) else { c with pend := w :: r }
def Core.commit (c : Core) (cc : Nat) : Core := commitList cc c.pend c

/-- What the scratchpad holds at tile cycle cc: the writes in flight that land by then, over what it holds now (R165). -/
def Core.spdAt (c : Core) (cc : Nat) : Scratch :=
  c.pend.foldl (fun d w => if w.due ≤ cc then (match w.dst with
    | .mem a bs => d.write a bs
    | .ring _ a bs => d.write a bs
    | _ => d) else d) c.spd

/-- Core cycles from the tile's gate tick to tile cycle cc, saturating at 32 bits. -/
def State.sinceTick (s : State) (p : Pos) (cc : Nat) : Nat := min (cc - (s.ut p).tick) (2 ^ 32 - 1)
/-- CR_CYCLE in tile cycle cc (Table 5.3): since the tile's gate tick, saturating; MAIN's count, which debug code reads too, leaves
out the cycles of a halt (R123). Beyond the rules' words: log entry 27 (DEDUCED). -/
def State.crCycle (s : State) (p : Pos) (x : Ctx) (cc : Nat) : Nat :=
  let k := (s.core p).ctl
  let lost := if regCtx x = .main then k.haltLost + (if k.main = .halted then cc - max k.haltAt (s.ut p).tick else 0) else 0
  min (cc - (s.ut p).tick - lost) (2 ^ 32 - 1)

/-! ### Codes (Tables 0.7, 5.11, 17.12) -/

def statusCode : Status → Nat
  | .done => 0 | .berthFull => 1 | .berthClosed => 2 | .staleGeneration => 3 | .windowClosed => 4 | .windowBounds => 5
  | .noRights => 6 | .tileReset => 7 | .tileFenced => 8 | .replyTimeout => 9 | .memoryUncorrectable => 0xA
  | .partnerLost => 0xB | .refusedCapacity => 0xC | .stepAborted => 0xD | .checkMismatch => 0xE | .pageNotPresent => 0xF
  | .illegalDescriptor => 0x10 | .heldTimeout => 0x11 | .admissionTimeout => 0x12 | .timingUnsafe_ => 0x13
  | .mapUnverified => 0x14
def faultCode : CoreFault → Nat
  | .illegalBundle => 1 | .regRange => 2 | .spdBounds => 3 | .addrIllegal => 4 | .matrixConfig => 5 | .matrixHazard => 6
  | .handlerBudget => 7 | .handStall => 8 | .istoreBounds => 9 | .contextIllegal => 0xA | .pendMismatch => 0xB
  | .spdEcc => 0x10 | .istoreEcc => 0x11 | .memUncorrectable => 0x12
/-- Class H of Table 5.11. -/
def faultHw : CoreFault → Bool
  | .spdEcc => true | .istoreEcc => true | .memUncorrectable => true | _ => false
def causeCode : Cause → Nat
  | .none => 0 | .status s => statusCode s | .fault f => faultCode f
def pathCode : Path → Nat
  | .internal => 0 | .k0 => 1 | .k1 => 2 | .i3c => 3 | .i2c => 4 | .ethernet => 5 | .pcie => 6 | .jtag => 7 | .towpath => 8
def originCode : Origin → Nat
  | .none => 0 | .firmware => 1 | .runtimeK0 => 2 | .runtimeK1 => 3 | .bmc => 4 | .ethPeer => 5 | .pcieHost => 6 | .jtag => 7
  | .hardware => 8 | .certificate => 9

/-! ### Positions (chapter 01) -/

def rowOf (p : Pos) : Nat := p.val / 12
def colOf (p : Pos) : Nat := p.val % 12
def mkPos (r c : Nat) : Pos := Fin.ofNat 144 (12 * r + c)
def bankOf (p : Pos) : Bank := if colOf p < 6 then .west else .east
/-- P.rr.02 and P.rr.09 are the spare positions (1.3). -/
def isSpare (p : Pos) : Bool := colOf p == 2 || colOf p == 9
def homeOf (l : Lt) : Pos := Fin.ofNat 144 (homePos l.val)
/-- The spare position of a bank-row. -/
def spareOf (r : Nat) (b : Bank) : Pos := mkPos r (match b with | .west => 2 | .east => 9)
/-- The reach that feeds a position (R22): W.rr is rr, E.rr is 12 + rr. -/
def reachOf (p : Pos) : ReachN := Fin.ofNat 24 (if colOf p < 6 then rowOf p else 12 + rowOf p)
/-- The six positions of a reach. -/
def reachTiles (r : ReachN) : List Pos :=
  (List.range 6).map fun i => mkPos (r.val % 12) (if r.val < 12 then i else 6 + i)
/-- The row-end position that serves a stack (R20). -/
def rowEnd (m : StackN) : Pos := mkPos (m.val % 12) (if m.val < 12 then 0 else 11)
/-- The stack a position serves, if it is a row end. -/
def stackAt (p : Pos) : Option StackN :=
  if colOf p = 0 then some (Fin.ofNat 24 (rowOf p)) else if colOf p = 11 then some (Fin.ofNat 24 (12 + rowOf p)) else none
def bankOfStack (m : StackN) : Bank := if m.val < 12 then .west else .east
/-- Table 1.5. -/
def wharfPos (x : PortN) : Pos :=
  let c := x.val
  if c < 9 then mkPos 0 (if c < 2 then c else if c < 8 then c + 1 else 10)
  else mkPos 11 (if c = 9 then 1 else if c < 16 then c - 7 else c - 6)
def portAt (p : Pos) : Option PortN := (List.finRange 18).find? fun x => wharfPos x == p
/-- Attachments of the Canal dies (Table 1.3). -/
def attachments (d : Fin 5) : List Pos :=
  match d.val with
  | 0 => [mkPos 0 5, mkPos 0 6]
  | 1 => [mkPos 5 5, mkPos 5 6, mkPos 6 5, mkPos 6 6]
  | 2 => [mkPos 11 5, mkPos 11 6]
  | 3 => [mkPos 5 5, mkPos 6 5]
  | _ => [mkPos 5 6, mkPos 6 6]
def allPos : List Pos := List.finRange 144
/-- K0 has its supply and an attachment in service, over which alone it reaches tiles and stacks (Table 1.3, R16). -/
def State.k0Reaches (s : State) : Bool := !s.power.lost.contains .kcl && (attachments 3).any fun p => !(s.ut p).flags.lost

/-! ### Logical tiles and steps -/

/-- The LT a position's core carries (COR_DESC.LT, 0x7F none). -/
def State.ltAt (s : State) (p : Pos) : Option Lt :=
  let n := (s.core p).desc.lt.toNat
  if h : n < 120 then some ⟨n, h⟩ else none
/-- The position that carries an LT. -/
def State.posOf (s : State) (l : Lt) : Option Pos := s.ltpos[l].die
/-- An LT absent on this variant (R3) or without a die. -/
def State.ltAbsent (s : State) (l : Lt) : Bool := s.lkh.absent.contains l

/-- The admitted step that names an LT; steps never share an LT (R322). -/
def State.stepOf (s : State) (l : Lt) : Option StepRec := s.intake.steps.find? fun r => r.man.lts.contains l
def State.stepAt (s : State) (p : Pos) : Option StepRec := (s.ltAt p).bind s.stepOf
def State.stepNum (s : State) (n : Nat) : Option StepRec := s.intake.steps.find? fun r => r.num == n
def State.modStep (s : State) (n : Nat) (f : StepRec → StepRec) : State :=
  { s with intake := { s.intake with steps := s.intake.steps.map fun r => if r.num = n then f r else r } }
/-- The pound entry of pound j; a single entry applies to every pound (Table 11.6). -/
def Manifest.ent (m : Manifest) (j : Nat) : PoundEnt :=
  match m.poundEnts with
  | [e] => e
  | l => l.getD j { d := 0, power := 0, timed := false, canalTimed := false }
/-- The positions of a step's LTs. -/
def State.stepTiles (s : State) (r : StepRec) : List Pos := r.man.lts.filterMap s.posOf

/-- The step can be aborted: it is admitted or runs. -/
def StepRec.live (r : StepRec) : Bool := r.phase == .admitted || r.phase == .running
/-- An abort cause of a step is reported to LH-C (phase 1 of Table 2.6); a step that is aborting already is not aborted again. -/
def State.report (s : State) (q : AbortReq) : State :=
  match s.stepNum q.step with
  | some r => if r.live then { s with aborts := s.aborts ++ [q] } else s
  | none => s
def State.askAbort (s : State) (n : Nat) (c : Cause) (lt : BitVec 7) : State :=
  s.report { step := n, cause := c, lt := lt, overrun := false }
/-- A unit that detects an event of Table 15.8 reports it to the lock-houses (R413). -/
def State.tellRepair (s : State) (ev : RepairEvent) : State :=
  if s.repair.reports.contains ev then s else { s with repair := { s.repair with reports := s.repair.reports ++ [ev] } }
/-- The same of an event in the core of a die that carries an LT. -/
def State.tellLt (s : State) (p : Pos) (ev : Lt → RepairEvent) : State :=
  match s.ltAt p with
  | some l => s.tellRepair (ev l)
  | none => s
/-- A core fault in MAIN or HAND is reported with what a replay compares (R142). -/
def State.faultAbort (s : State) (p : Pos) (x : Ctx) (idx : BitVec 14) (f : CoreFault) : State :=
  match s.stepAt p with
  | some r => s.report { step := r.num, cause := .fault f, lt := (s.core p).desc.lt, overrun := false
                         seen := some (f, idx, x, (s.core p).ctl.pound) }
  | none => s
/-- The step on a position is to be aborted. -/
def State.abortAt (s : State) (p : Pos) (c : Cause) : State :=
  match s.stepAt p with
  | some r => s.askAbort r.num c (s.core p).desc.lt
  | none => s

def Xing.slip (x : Xing) : Xing := { x with slipped := true, slipCount := x.slipCount + 1 }
/-- Two tiles note a SLIP between them (R50); a step with a tile there is aborted in a TIMED pound (R52). -/
def State.slipNoted (s : State) (p q : Pos) : State :=
  let note (s : State) (x : Pos) : State := s.modUt x fun u => { u with pound := { u.pound with slip := true } }
  let timed (s : State) (x : Pos) : State :=
    match s.stepAt x with
    | some r => if r.phase == .running && (r.man.ent r.poundIdx).timed then s.abortAt x (.status .timingUnsafe_) else s
    | none => s
  timed (timed (note (note s p) q) p) q
/-- SLIP is raised on crossing d of position p. -/
def State.slip (s : State) (p : Pos) (d : Fin 4) : State :=
  let q : Pos :=
    match d.val with
    | 0 => mkPos (rowOf p - 1) (colOf p)
    | 1 => mkPos (rowOf p) (min (colOf p + 1) 11)
    | 2 => mkPos (min (rowOf p + 1) 11) (colOf p)
    | _ => mkPos (rowOf p) (colOf p - 1)
  (s.modUt p fun u => { u with xing := vmod u.xing d Xing.slip }).slipNoted p q
/-- The position that spare link i of a spare leads to: the i-th home position of its bank-row. -/
def spareEnd (p : Pos) (i : Fin 5) : Pos :=
  mkPos (rowOf p) ((if colOf p < 6 then [0, 1, 3, 4, 5] else [6, 7, 8, 10, 11]).getD i.val 0)
/-- SLIP is raised on spare link i of spare position p (R259). -/
def State.slipSpare (s : State) (p : Pos) (i : Fin 5) : State :=
  (s.modUt p fun u => { u with spareX := vmod u.spareX i Xing.slip }).slipNoted p (spareEnd p i)
/-- The spare links that end at a position: those of a spare, or the one to the spare of its bank-row. -/
def spareLinks (p : Pos) : List (Pos × Fin 5) :=
  if isSpare p then (List.finRange 5).map fun i => (p, i)
  else ((List.finRange 5).filter fun i => spareEnd (spareOf (rowOf p) (bankOf p)) i == p).map fun i => (spareOf (rowOf p) (bankOf p), i)

/-! ### Core faults (5.7) -/

/-- A fault stops the context and is recorded in COR_FAULT; in MAIN or HAND it aborts the step (R141, R142). -/
def State.fault (s : State) (p : Pos) (x : Ctx) (idx : BitVec 14) (slots : BitVec 4) (f : CoreFault) : State :=
  let s1 := s.modCtl p fun k =>
    { k with
      fault := { code := BitVec.ofNat 8 (faultCode f), context := BitVec.ofNat 2 (ctxNum x).val, hw := faultHw f,
                 valid := true, slots := slots, index := idx, pound := k.pound }
      stopped := k.stopped.set (ctxNum x) true
      mainFault := if x = .main || x = .hand then BitVec.ofNat 8 (faultCode f) else k.mainFault
      main := if x = .main then .idle else k.main
      hand := if x = .hand then .idle else k.hand
      towBusy := if x = .tow then false else k.towBusy }
  let s2 := if faultHw f && (x == .main || x == .hand) then s1.tellLt p .coreFault else s1
  if x = .main || x = .hand then s2.faultAbort p x idx f else s2

/-! ### Panel addresses (R24, R25) -/

def addrClass (a : Word) : Nat := fld a 60 4
def addrLt (a : Word) : Nat := fld a 45 7
def addrPos (a : Word) : Nat := fld a 45 8
def addrOff (a : Word) : Nat := fld a 0 26
def addrModel (a : Word) : Nat := fld a 0 41
def addrReg (a : Word) : Nat := fld a 0 24
def addrChamber (a : Word) : Nat := fld a 0 13
/-- Position form of class 0x2. -/
def addrPosn (a : Word) : Bool := bit a 56

/-- The LT field names no LT of this part. -/
def State.badLt (s : State) (n : Nat) (canal : Bool) : Bool :=
  if h : n < 120 then s.ltAbsent ⟨n, h⟩ else !(n == 127 && canal)

/-- Whether block b of tile space is one that Table 1.8 places at a position (under-tile blocks only where utOnly). -/
def blockAt (p : Pos) (utOnly : Bool) (b : Nat) : Bool :=
  if b = 0x0D then (stackAt p).isSome
  else if b = 0x0F then (portAt p).isSome
  else decide (b ≤ 0x0F) && !(utOnly && decide (1 ≤ b) && decide (b ≤ 4))

/-- A Canal die has lost its supply (Table 1.6, R23). -/
def State.dieOff (s : State) (d : Fin 5) : Bool :=
  s.power.lost.contains (if d = 0 then .lhN else if d = 1 then .lhC else if d = 2 then .lhS else .kcl)
/-- R25: the panel refuses the address. -/
def State.addrBad (s : State) (a : Word) : Bool :=
  match addrClass a with
  | 0 => decide (fld a 52 8 ≠ 0) || decide (fld a 26 19 ≠ 0) || s.badLt (addrLt a) false
  | 1 => decide (fld a 41 19 ≠ 0)
  | 2 =>
    if addrPosn a then
      decide (fld a 57 3 ≠ 0) || decide (fld a 53 3 ≠ 0) || decide (fld a 24 21 ≠ 0) || decide (addrPos a ≥ 144) ||
        !blockAt (Fin.ofNat 144 (addrPos a)) true (addrReg a >>> 16)
    else
      decide (fld a 52 8 ≠ 0) || decide (fld a 24 21 ≠ 0) || s.badLt (addrLt a) true ||
        (if h : addrLt a < 120 then
          (match s.posOf ⟨addrLt a, h⟩ with
           | some p => !blockAt p false (addrReg a >>> 16)
           | none => decide (addrReg a >>> 16 > 0x0F))
         else decide (addrReg a >>> 16 > 0x0B))
  | 3 => decide (fld a 52 8 ≠ 0) || decide (fld a 13 32 ≠ 0) || s.badLt (addrLt a) true ||
      (decide (addrLt a < 120) && decide (addrChamber a ≥ 2048))
  | 4 => decide (fld a 48 12 ≠ 0)
  | _ => true

/-! ### Chambers (8.8) -/

/-- COUNT ≥ TARGET. -/
def Chamber.reached (c : Chamber) : Bool := decide (c.target.toNat ≤ c.count.toNat)
/-- SIGNAL(n), saturating (R236). -/
def Chamber.signal (c : Chamber) (n : Nat) : Chamber :=
  { c with count := satAdd c.count n, sat := c.sat || decide (c.count.toNat + n > 0xFFFFFFFF) }
/-- ARM(n); an ARM clears SAT. -/
def Chamber.arm (n : BitVec 32) : Chamber := { count := 0, target := n, sat := false }

def UnderTile.chamber (u : UnderTile) (i : Nat) : Chamber := tblGet {} u.chambers i
def UnderTile.setChamber (u : UnderTile) (i : Nat) (c : Chamber) : UnderTile := { u with chambers := tblPut {} u.chambers i c }
/-- A chamber operation in flight arrives. -/
def UnderTile.chDst (u : UnderTile) : RegDst → UnderTile
  | .sig c n => u.setChamber c.val ((u.chamber c.val).signal n)
  | .arm c n => u.setChamber c.val (Chamber.arm n)
  | _ => u
/-- The tile reaches cycle cc: writes, signals and arms in flight land. -/
def State.advance (s : State) (p : Pos) (cc : Nat) : State :=
  s.modTile p fun t =>
    { core := t.core.commit cc
      ut := (t.core.pend.takeWhile fun w => decide (w.due ≤ cc)).foldl (fun u w => u.chDst w.dst)
        { t.ut with cycle := max t.ut.cycle cc } }
/-- SIGNAL(n) to a tile chamber. -/
def State.signalTile (s : State) (p : Pos) (i n : Nat) : State :=
  s.modUt p fun u => u.setChamber i ((u.chamber i).signal n)

def State.canalCh (s : State) (j : Nat) : Chamber := tblGet {} s.canal j
/-- LH-C sends a mirror update to every under-tile (R240). -/
def State.publish (s : State) (j : Nat) (r : Bool) : State :=
  s.allUts fun _ u => { u with mirrorDue := u.mirrorDue ++ [(Fin.ofNat 8192 j, r)] }
/-- SIGNAL(n) applied in LH-C; the mirrors learn when the chamber becomes reached. -/
def State.signalCanal (s : State) (j n : Nat) : State :=
  let c := s.canalCh j
  let c' := c.signal n
  let s1 := { s with canal := tblPut {} s.canal j c' }
  if !c.reached && c'.reached then s1.publish j true else s1
/-- ARM(n) applied in LH-C; the mirrors learn of every ARM. -/
def State.armCanal (s : State) (j : Nat) (n : BitVec 32) : State :=
  let c := Chamber.arm n
  { s with canal := tblPut {} s.canal j c }.publish j c.reached

/-! ### Packets (9.3) -/

/-- A packet of a type with every other field at its neutral value. -/
def Packet.blank (id : Nat) (place : Place) (type : BitVec 4) : Packet :=
  { id := id, place := place, type := type, vc := 0, epoch := false, mark := false, echo := false, last := true, dkind := 0,
    dest := 0, skind := 0, src := 0, length := 0, stepNo := 0, attempt := 0, addr := 0, slot := 0, status := .done, seq := 0,
    arg := 0, mask := 0, hdr := {}, payload := [], opId := 0, gen := 0, win := 0, total := 0, rflits := 0, base := 0, write := false,
    cls := .c3, tag := .none, passed := false, taken := false, resv := 0,
    inPort := 4, sentAt := 0, readyAt := 0, expHeld := false }

/-- Put a packet into the fabric under a new number. -/
def State.emit (s : State) (p : Packet) : State :=
  { s with net := s.net ++ [{ p with id := s.nextPkt }], nextPkt := s.nextPkt + 1 }
def State.packet (s : State) (id : Nat) : Option Packet := s.net.find? fun p => p.id == id
def State.dropPacket (s : State) (id : Nat) : State := { s with net := s.net.filter fun p => p.id != id }
def State.modPacket (s : State) (id : Nat) (f : Packet → Packet) : State :=
  { s with net := s.net.map fun p => if p.id = id then f p else p }
/-- A packet moves on: it stands last among the packets in flight, which are so in order of their last arrival. -/
def State.movePacket (s : State) (id : Nat) (f : Packet → Packet) : State :=
  { s with net := (s.net.filter fun p => p.id != id) ++ (s.net.filter fun p => p.id == id).map f }
/-- A position's interface sends a request that no status slot holds, under an operation number of its own. -/
def State.ask (s : State) (p : Pos) (q : Packet) : State :=
  (s.emit { q with opId := (s.core p).mov.nextOp }).modMov p fun m => { m with nextOp := m.nextOp + 1 }

/-- The five words of a packet's header (Table 9.3). -/
def Packet.headerWords (q : Packet) : Vector Word 5 :=
  #v[q.attempt ++ q.stepNo ++ q.resv.extractLsb' 0 5 ++ q.length ++ q.src ++ q.skind ++ q.dest ++ q.dkind ++ BitVec.ofBool q.last ++ BitVec.ofBool q.echo ++
       BitVec.ofBool q.mark ++ BitVec.ofBool q.epoch ++ q.vc ++ q.type,
     q.addr, q.arg ++ q.seq ++ q.resv.extractLsb' 5 2 ++ BitVec.ofNat 8 (statusCode q.status) ++ q.slot,
     q.mask.extractLsb' 0 64, q.resv.extractLsb' 7 8 ++ q.mask.extractLsb' 64 56]
/-- A reserved encoding stands in the header (R253): a reserved type, VC or node kind, or a reserved bit that is 1. -/
def badWords (h : Vector Word 5) : Bool :=
  fld h[0] 0 4 == 0 || decide (0xE ≤ fld h[0] 0 4) || fld h[0] 4 2 == 3 || fld h[0] 10 2 == 3 || fld h[0] 20 2 == 3 || fld h[0] 43 5 != 0 ||
    fld h[2] 14 2 != 0 || fld h[4] 56 8 != 0
def Packet.badHeader (q : Packet) : Bool := badWords q.headerWords
/-- Header flit and payload flits of a packet. -/
def Packet.flits (p : Packet) : Nat := 1 + cdiv p.length.toNat 64

/-- A packet that a position's network interface sends: source, step tag of BRT_STEP and routing version in force
(R209, R211, R260). -/
def State.fromTile (s : State) (p : Pos) (type : BitVec 4) (vc : BitVec 2) : Packet :=
  let u := s.ut p
  { Packet.blank 0 (.source p) type with
    vc := vc, epoch := u.mesh.epoch
    skind := if (s.ltAt p).isSome then 0 else 1
    src := if (s.ltAt p).isSome then BitVec.zeroExtend 8 (s.core p).desc.lt else BitVec.ofNat 8 p.val
    stepNo := u.stepNo, attempt := u.attempt }

/-- A packet that a context's instruction sends: service code of TOW sends with step number 0 (R213). -/
def State.fromCtx (s : State) (p : Pos) (x : Ctx) (type : BitVec 4) (vc : BitVec 2) : Packet :=
  let q := s.fromTile p type vc
  if x = .tow then { q with stepNo := 0, attempt := 0 } else q

/-- Where an answer goes: source and destination change places, the header keeps slot, number and step tag; the answers to a combining
barge keep its KEY, by which each contributor knows its own. Beyond the rules' words: log entry 87 (DEDUCED). -/
def Packet.answer (q : Packet) (place : Place) (epoch : Bool) (st : Status) (data : List Byte) : Packet :=
  { Packet.blank 0 place (BitVec.ofNat 4 (q.type.toNat + 1)) with
    vc := q.vc, epoch := epoch, echo := q.mark, last := q.last, dkind := q.skind, dest := q.src, skind := q.dkind, src := q.dest,
    length := BitVec.ofNat 13 data.length, stepNo := q.stepNo, attempt := q.attempt, slot := q.slot, status := st, seq := q.seq,
    arg := if q.type = 5 then q.arg else 0, mask := q.mask, payload := data, opId := q.opId, addr := 0, total := q.total, base := q.base,
    rflits := q.flits, tag := q.tag }

/-- The answers to a packet: one, or for a combining barge one to each contributor of its MASK (R268). -/
def Packet.answers (q : Packet) (place : Place) (epoch : Bool) (st : Status) (data : List Byte) : List Packet :=
  let a := q.answer place epoch st data
  if q.mask = 0 then [a]
  else ((List.range 120).filter fun i => q.mask.getLsbD i).map fun i =>
    { a with dkind := 0, dest := BitVec.ofNat 8 i, mask := BitVec.ofNat 120 (2 ^ i) }
def State.emitAll (s : State) (l : List Packet) : State := l.foldl State.emit s
/-- The network interface or router at position p answers a packet, which then leaves the fabric. -/
def State.reply (s : State) (p : Pos) (q : Packet) (st : Status) (data : List Byte) : State :=
  (s.dropPacket q.id).emitAll (q.answers (.source p) (s.ut p).mesh.epoch st data)
/-- The same, with an answer that leaves no earlier than tile cycle c. -/
def State.replyFrom (s : State) (p : Pos) (q : Packet) (c : Nat) (st : Status) (data : List Byte) : State :=
  (s.dropPacket q.id).emitAll ((q.answers (.source p) (s.ut p).mesh.epoch st data).map fun a => { a with readyAt := c })
/-- A Canal die answers. -/
def State.replyCanal (s : State) (d : Fin 5) (q : Packet) (st : Status) (data : List Byte) : State :=
  (s.dropPacket q.id).emitAll (q.answers (.canal d) s.epoch.cur st data)

/-! ### Status slots (6.5.1) -/

def State.slot (s : State) (p : Pos) (k : Fin 64) : Slot := (s.core p).mov.slots[k]
def State.modSlot (s : State) (p : Pos) (k : Fin 64) (f : Slot → Slot) : State :=
  s.modMov p fun m => { m with slots := vmod m.slots k f }

/-- SIGNAL(1) to a completion chamber: a tile chamber of the own tile, visible in the tile's next cycle (Table 8.14), or a Canal chamber,
by a CSIG packet (R161, R243). -/
def State.signalCh (s : State) (p : Pos) : Option (Bool × BitVec 13) → State
  | none => s
  | some (false, c) => s.modCore p fun k => k.later ((s.ut p).cycle + 1) (.sig (Fin.ofNat 2048 c.toNat) 1)
  | some (true, c) =>
    s.ask p { s.fromTile p 7 0 with dkind := 2, dest := 1, arg := 1, addr := put64 3 60 4 ||| put64 0x7F 45 7 ||| c.zeroExtend 64 }

/-- An operation refused at issue, or complete at issue: the slot holds the status and the chamber is signalled (R163). -/
def State.endAtIssue (s : State) (p : Pos) (k : Fin 64) (ch : Option (Bool × BitVec 13)) (st : Status) : State :=
  (s.modSlot p k fun _ => { busy := false, status := st, op := none }).signalCh p ch

/-- R162: the slot is busy; nothing is performed and the refusal is counted. -/
def State.slotBusy (s : State) (p : Pos) (k : Fin 64) : State :=
  s.modMov p fun m =>
    { m with refused := m.refused + 1, lastSlot := BitVec.ofNat 6 k.val, lastValid := true,
             lastStatus := BitVec.ofNat 8 (statusCode .illegalDescriptor) }

/-- Start an operation in a slot. -/
def State.startOp (s : State) (p : Pos) (k : Fin 64) (op : MoveOp) : State :=
  (s.modSlot p k fun c => { c with busy := true, op := some { op with id := (s.core p).mov.nextOp } }).modMov p
    fun m => { m with nextOp := m.nextOp + 1 }

def newOp (kind : MoveKind) (x : Ctx) (idx : BitVec 14) (ch : Option (Bool × BitVec 13)) : MoveOp :=
  { id := 0, kind := kind, ctx := x, idx := idx, ch := ch, dst := 0, left := 0, injected := false, tInj := 0, landAt := 0, vc2 := 0, worst := .done,
    cancelled := false, outcome := none }

/-- The operation in a slot has ended with a status: MOVE_COMPLETION frees the slot. -/
def State.endOp (s : State) (p : Pos) (k : Fin 64) (st : Status) : State :=
  s.modSlot p k fun c => { c with op := c.op.map fun o => { o with outcome := some st } }

/-- The slot that holds operation number n. -/
def State.slotOfOp (s : State) (p : Pos) (n : Nat) : Option (Fin 64) :=
  (List.finRange 64).find? fun k => match (s.slot p k).op with | some o => o.id == n && o.outcome.isNone | none => false

/-! ### Free values (log entry 3) -/

/-- The statuses of Table 0.7. -/
def allStatuses : List Status :=
  [.done, .berthFull, .berthClosed, .staleGeneration, .windowClosed, .windowBounds, .noRights, .tileReset, .tileFenced, .replyTimeout,
   .memoryUncorrectable, .partnerLost, .refusedCapacity, .stepAborted, .checkMismatch, .pageNotPresent, .illegalDescriptor,
   .heldTimeout, .admissionTimeout, .timingUnsafe_, .mapUnverified]

/-- A mean, rounded up or down where the spec states no rounding. -/
def meanOf (up : Bool) (sum : Int) (n : Nat) : Int := if up then -(-sum / (n : Int)) else sum / (n : Int)

/-- A value the spec does not state: fresh at every use. Beyond the rules' words: log entry 3 (DESIGN CHOICE). -/
def State.freeWord (s : State) : Word × State := (Config.freeWord s.fresh, { s with fresh := s.fresh + 1 })

end Sys2Proof.Machine
end

