-- ==== Sys2Proof/Machine/Operands.lean ====
section
/-! DEFINITION. Bundles, slots and operand fields (Tables 5.4 and 6.1), and the form checks that raise ILLEGAL_BUNDLE
(R116, R119, R144, R145). -/

namespace Sys2Proof.Machine

open Sys2Proof

/-- The four slots of a bundle, in the order of VALID. -/
inductive SlotK where | c | v | m | x
  deriving DecidableEq, Repr

def slotNum : SlotK → Nat
  | .c => 0 | .v => 1 | .m => 2 | .x => 3

/-- The word of a slot, the M slot zero-extended. -/
def slotWord (b : Bundle) : SlotK → BitVec 64
  | .c => b.extractLsb' 8 64
  | .v => b.extractLsb' 72 64
  | .m => (b.extractLsb' 136 56).zeroExtend 64
  | .x => b.extractLsb' 192 64
def slotValid (b : Bundle) (k : SlotK) : Bool := bit b (slotNum k)

def guardP (w : BitVec 64) : Nat := fld w 0 3
/-- Guard sense: executes when the predicate is 0. -/
def guardInv (w : BitVec 64) : Bool := bit w 3
def opcode (w : BitVec 64) : Nat := fld w 4 8

/-! ### Operand fields -/

def fD (w : BitVec 64) : Nat := fld w 12 6
def fA (w : BitVec 64) : Nat := fld w 18 6
def fB (w : BitVec 64) : Nat := fld w 24 6
def fC (w : BitVec 64) : Nat := fld w 30 6
/-- Form CI: the 32-bit immediate. -/
def imm32 (w : BitVec 64) : BitVec 32 := w.extractLsb' 24 32
def immS (w : BitVec 64) : Word := (imm32 w).signExtend 64
/-- Form CB. -/
def cbTarget (w : BitVec 64) : BitVec 14 := w.extractLsb' 12 14
def cbLink (w : BitVec 64) : Nat := fld w 26 6
/-- Form CL. -/
def clNum (w : BitVec 64) : Nat := fld w 12 2
def clLen (w : BitVec 64) : Nat := fld w 24 12
/-- Form CW. -/
def cwIndex (w : BitVec 64) : BitVec 14 := w.extractLsb' 12 14
def cwFinal (w : BitVec 64) : Bool := bit w 26
def hwinN (w : BitVec 64) : Nat := fld w 12 12
/-- Forms VR and VM. -/
def vFmt (w : BitVec 64) : Nat := fld w 36 4
def vFmt2 (w : BitVec 64) : Nat := fld w 40 4
def vmOff (w : BitVec 64) : Int := (w.extractLsb' 44 20).toInt * 64
/-- Form MX. -/
def mA (w : BitVec 64) : Nat := fld w 12 6
def mB (w : BitVec 64) : Nat := fld w 18 6
def mC (w : BitVec 64) : Nat := fld w 24 6
def mCh (w : BitVec 64) : Option (Bool × BitVec 13) :=
  if bit w 41 then some (false, (w.extractLsb' 30 11).zeroExtend 13) else none
def mOpBits (w : BitVec 64) : Nat := fld w 42 14
/-- Form XX. -/
def xA (w : BitVec 64) : Nat := fld w 12 6
def xB (w : BitVec 64) : Nat := fld w 18 6
def xC (w : BitVec 64) : Nat := fld w 24 6
def xSlot (w : BitVec 64) : Fin 64 := Fin.ofNat 64 (fld w 30 6)
def xChamber (w : BitVec 64) : BitVec 13 := w.extractLsb' 36 13
def xCh (w : BitVec 64) : Bool := bit w 49
def xCn (w : BitVec 64) : Bool := bit w 50
def xOpBits (w : BitVec 64) : Nat := fld w 51 13
def xBerth (w : BitVec 64) : Fin 64 := Fin.ofNat 64 (fld w 51 6)
def xWindow (w : BitVec 64) : Fin 256 := Fin.ofNat 256 (fld w 51 8)
/-- The completion chamber a move instruction names. -/
def xChOpt (w : BitVec 64) : Option (Bool × BitVec 13) := if xCh w then some (xCn w, xChamber w) else none

/-! ### Opcode maps (Tables 6.3, 6.4, 6.6, 6.8) -/

/-- What a register field holds. -/
inductive RKind where | none | s | a | p | v
  deriving DecidableEq, Repr

/-- The unused high bits of a register field, and an unused field, are 0 (R144). -/
def regOk (k : RKind) (f : Nat) : Bool :=
  match k with
  | .none => decide (f = 0)
  | .s => decide (f < 32)
  | .a => decide (f < 16)
  | .p => decide (f < 8)
  | .v => true

/-- Operand forms of Table 6.1. -/
inductive Form where | cr | ci | cb | cl | cw | vr | vm | mx | xx
  deriving DecidableEq, Repr

/-- Kinds of the fields d, a, b, c of an opcode (for XX: a, b, c and op bits in use), and whether d is a destination. -/
structure OpInfo where
  form : Form
  d : RKind := .none
  a : RKind := .none
  b : RKind := .none
  c : RKind := .none
  dst : Bool := false
  deriving DecidableEq, Repr

/-- Table 6.3. -/
def cInfo (op : Nat) : Option OpInfo :=
  if 0x01 ≤ op ∧ op ≤ 0x0D then some { form := .cr, d := .s, a := .s, b := .s, dst := true }
  else if op = 0x10 then some { form := .ci, d := .s, a := .s, dst := true }
  else if op = 0x11 ∨ op = 0x12 then some { form := .ci, d := .s, dst := true }
  else if 0x18 ≤ op ∧ op ≤ 0x1D then some { form := .cr, d := .p, a := .s, b := .s, dst := true }
  else if 0x20 ≤ op ∧ op ≤ 0x25 then some { form := .cr, d := .s, a := .s, b := .s, dst := true }
  else if 0x26 ≤ op ∧ op ≤ 0x28 then some { form := .cr, d := .p, a := .s, b := .s, dst := true }
  else if 0x30 ≤ op ∧ op ≤ 0x32 then some { form := .cr, d := .p, a := .p, b := .p, dst := true }
  else if op = 0x33 then some { form := .cr, d := .p, a := .p, dst := true }
  else if op = 0x34 then some { form := .cr, d := .s, a := .s, b := .s, dst := true }
  else if op = 0x38 then some { form := .ci, d := .a, a := .a, dst := true }
  else if op = 0x39 then some { form := .cr, d := .s, a := .a, dst := true }
  else if op = 0x3A then some { form := .cr, d := .a, a := .s, dst := true }
  else if op = 0x40 ∨ op = 0x41 then some { form := .ci, d := .s, a := .a, dst := true }
  else if op = 0x42 ∨ op = 0x43 then some { form := .ci, d := .s, a := .a }
  else if op = 0x48 then some { form := .ci, d := .s, dst := true }
  else if op = 0x49 then some { form := .ci, a := .s }
  else if op = 0x50 then some { form := .cb }
  else if op = 0x51 then some { form := .cr, a := .s }
  else if op = 0x52 then some { form := .cb, d := .s, dst := true }
  else if op = 0x53 then some { form := .cl, a := .s }
  else if op = 0x54 ∨ op = 0x55 then some { form := .cw }
  else if op = 0x56 then some { form := .cr }
  else none

/-- Table 6.4. -/
def vInfo (op : Nat) : Option OpInfo :=
  if 0x01 ≤ op ∧ op ≤ 0x03 ∨ op = 0x05 ∨ op = 0x06 ∨ op = 0x0B ∨ op = 0x0C then
    some { form := .vr, d := .v, a := .v, b := .v, dst := true }
  else if op = 0x04 ∨ op = 0x0D then some { form := .vr, d := .v, a := .v, b := .v, c := .v, dst := true }
  else if 0x07 ≤ op ∧ op ≤ 0x09 then some { form := .vr, d := .v, a := .v, dst := true }
  else if op = 0x0A then some { form := .vr, d := .v, b := .s, dst := true }
  else if op = 0x10 ∨ op = 0x11 ∨ 0x18 ≤ op ∧ op ≤ 0x1C then some { form := .vr, d := .v, a := .v, dst := true }
  else if op = 0x20 ∨ op = 0x21 then some { form := .vr, d := .v, a := .v, dst := true }
  else if op = 0x28 then some { form := .vm, d := .v, a := .a, dst := true }
  else if op = 0x29 then some { form := .vm, d := .v, a := .a }
  else if op = 0x2A then some { form := .vm, d := .v, a := .a, b := .a, dst := true }
  else if op = 0x2B then some { form := .vm, d := .v, a := .a, b := .a }
  else none

/-- Table 6.6; for MCHKV and MFLAGS field Sc is the destination. -/
def mInfo (op : Nat) : Option OpInfo :=
  if op = 0x01 then some { form := .mx, c := .s }
  else if 0x02 ≤ op ∧ op ≤ 0x04 then some { form := .mx, a := .a, b := .a, c := .s }
  else if op = 0x05 ∨ op = 0x06 then some { form := .mx, c := .s, dst := true }
  else none

/-- What of the fields slot, chamber and op bits a move opcode uses. -/
structure XInfo where
  a : RKind := .none
  b : RKind := .none
  c : RKind := .none
  slot : Bool := false
  ch : Bool := false          -- completion chamber
  operandCh : Bool := false   -- chamber field names the operand
  cn : Bool := false
  opLen : Nat := 0            -- op bits in use, from bit 51
  deriving DecidableEq, Repr

/-- Table 6.8. -/
def xInfo (op : Nat) : Option XInfo :=
  match op with
  | 0x01 => some { a := .a, slot := true, ch := true }
  | 0x02 => some { a := .s, slot := true }
  | 0x03 => some { a := .s, slot := true }
  | 0x04 => some { a := .s, b := .a, c := .s, slot := true, ch := true }
  | 0x05 => some { a := .s, b := .a, c := .s, slot := true, ch := true }
  | 0x08 => some { a := .s, b := .a, c := .s, slot := true, ch := true }
  | 0x09 => some { a := .s, b := .a, c := .s, slot := true, ch := true }
  | 0x0A => some { a := .s, b := .a, c := .s, slot := true, ch := true }
  | 0x0B => some { a := .a, b := .s, opLen := 6 }
  | 0x0C => some { opLen := 6 }
  | 0x0D => some { a := .a, slot := true, ch := true, opLen := 6 }
  | 0x0E => some { slot := true, ch := true, opLen := 6 }
  | 0x0F => some { a := .a, slot := true, ch := true, opLen := 8 }
  | 0x10 => some { slot := true, ch := true, opLen := 8 }
  | 0x18 => some { b := .s, operandCh := true, cn := true }
  | 0x19 => some { a := .s, b := .s, slot := true, ch := true }
  | 0x1A => some { operandCh := true, cn := true }
  | 0x1B => some { a := .s, operandCh := true }
  | 0x20 => some { a := .s, opLen := 3 }
  | _ => none

/-! ### Form checks -/

/-- Formats that a conversion opcode lists (Table 6.4); any other combination is an unassigned opcode (R145). -/
def vFmtOk (op : Nat) (w : BitVec 64) : Bool :=
  let f := vFmt w
  let g := vFmt2 w
  let packed := decide (1 ≤ f) && decide (f ≤ 0xA)
  if op = 0x20 then packed && (g == 0 || g == 2)
  else if op = 0x21 then packed && (g == 0 || (g == 2 && f != 2))
  else if op = 0x2A ∨ op = 0x2B then packed && g == 0
  else f == 0 && g == 0

/-- A C slot keeps its form: assigned opcode, reserved and unused fields 0, control register index in range (R115). -/
def cOk (w : BitVec 64) : Bool :=
  match cInfo (opcode w) with
  | none => false
  | some i =>
    match i.form with
    | .cr => regOk i.d (fD w) && regOk i.a (fA w) && regOk i.b (fB w) && decide (fld w 30 34 = 0)
    | .ci => regOk i.d (fD w) && regOk i.a (fA w) && decide (fld w 56 8 = 0) &&
        !((opcode w == 0x48 || opcode w == 0x49) && decide ((imm32 w).toNat > 0x0C))
    | .cb => regOk i.d (cbLink w) && decide (fld w 32 32 = 0)
    | .cl => decide (fld w 14 4 = 0) && regOk i.a (fA w) && decide (fld w 36 28 = 0)
    | .cw => decide (fld w 27 37 = 0) && !(opcode w == 0x54 && decide (fld w 24 3 ≠ 0))
    | _ => false

def vOk (w : BitVec 64) : Bool :=
  match vInfo (opcode w) with
  | none => false
  | some i =>
    match i.form with
    | .vr => regOk i.d (fD w) && regOk i.a (fA w) && regOk i.b (fB w) && regOk i.c (fC w) && vFmtOk (opcode w) w &&
        decide (fld w 44 20 = 0)
    | .vm => regOk i.d (fD w) && regOk i.a (fA w) && regOk i.b (fB w) && decide (fC w = 0) && vFmtOk (opcode w) w
    | _ => false

/-- Op bits that a matrix opcode assigns; the rest are reserved (R155), and a slot that sets one is illegal (R116, R144). -/
def mOpMax (op : Nat) : Nat :=
  if op = 0x03 then 2 else if op = 0x04 then 4 else if op = 0x05 ∨ op = 0x06 then 9 else 0

def mOk (w : BitVec 64) : Bool :=
  match mInfo (opcode w) with
  | none => false
  | some i => regOk i.a (mA w) && regOk i.b (mB w) && regOk i.c (mC w) && decide (mOpBits w < 2 ^ mOpMax (opcode w)) &&
      (bit w 41 || decide (fld w 30 11 = 0))

def xOk (w : BitVec 64) : Bool :=
  match xInfo (opcode w) with
  | none => false
  | some i =>
    regOk i.a (xA w) && regOk i.b (xB w) && regOk i.c (xC w) && (i.slot || decide (fld w 30 6 = 0)) &&
    ((i.ch && xCh w) || i.operandCh || decide ((xChamber w).toNat = 0)) && (i.ch || !xCh w) && ((i.ch && xCh w) || i.cn || !xCn w) &&
    (xCn w || !(xCh w || i.operandCh) || decide ((xChamber w).toNat < 2048)) && decide (xOpBits w < 2 ^ i.opLen)

def slotOk (k : SlotK) (w : BitVec 64) : Bool :=
  match k with
  | .c => cOk w | .v => vOk w | .m => mOk w | .x => xOk w

/-- The destination registers a slot names (R119). -/
def slotDsts (k : SlotK) (w : BitVec 64) : List (RKind × Nat) :=
  match k with
  | .c =>
    match cInfo (opcode w) with
    | some i => if i.dst then [(i.d, if i.form = .cb then cbLink w else fD w)] else []
    | none => []
  | .v =>
    match vInfo (opcode w) with
    | some i => if i.dst then [(i.d, fD w)] else []
    | none => []
  | .m =>
    match mInfo (opcode w) with
    | some i => if i.dst then [(.s, mC w)] else []
    | none => []
  | .x =>
    match opcode w with
    | 0x02 => [(.s, xA w)]
    | 0x03 => [(.s, xA w)]
    | 0x0B => [(.a, xA w), (.s, xB w)]
    | 0x1B => [(.s, xA w)]
    | _ => []

/-- A slot holds a stalling instruction (5.4), PEND included. -/
def slotStalls (k : SlotK) (w : BitVec 64) : Bool :=
  match k with
  | .c => opcode w == 0x55
  | .x => opcode w == 0x02 || opcode w == 0x08 || opcode w == 0x0B || opcode w == 0x1A
  | _ => false

def allSlots : List SlotK := [.c, .v, .m, .x]
/-- The valid slots of a bundle with their words. -/
def validSlots (b : Bundle) : List (SlotK × BitVec 64) :=
  (allSlots.filter fun k => slotValid b k).map fun k => (k, slotWord b k)

/-- A slot whose destination another slot also names. -/
def dupDst (b : Bundle) (k : SlotK) (w : BitVec 64) : Bool :=
  (slotDsts k w).any fun d => (validSlots b).any fun o => o.1 != k && (slotDsts o.1 o.2).contains d

/-- The slots of a bundle that break its form (R116, R119): a valid slot that breaks its own, one with a doubled
destination or a second stalling instruction, an invalid slot that is not zero. Reserved bits [7:4] count for slot C. -/
def illegalSlots (b : Bundle) : List SlotK :=
  let stalls := (validSlots b).filter fun o => slotStalls o.1 o.2
  allSlots.filter fun k =>
    let w := slotWord b k
    if slotValid b k then
      !slotOk k w || dupDst b k w || (decide (stalls.length > 1) && slotStalls k w) || (k == .c && decide (fld b 4 4 ≠ 0))
    else decide (w.toNat ≠ 0) || (k == .c && decide (fld b 4 4 ≠ 0))

/-- SLOTS of COR_FAULT: a bit for every slot of a list. -/
def slotBits (l : List SlotK) : BitVec 4 := l.foldl (fun m k => m ||| BitVec.ofNat 4 (2 ^ slotNum k)) 0
/-- The opcode of a slot is assigned. -/
def slotKnown (k : SlotK) (w : BitVec 64) : Bool :=
  match k with
  | .c => (cInfo (opcode w)).isSome
  | .v => (vInfo (opcode w)).isSome
  | .m => (mInfo (opcode w)).isSome
  | .x => (xInfo (opcode w)).isSome
/-- A bundle that is not empty and holds no instruction of the tables: an illegal bundle (R116, Table 5.11) that no command spells. -/
def slotless (b : Bundle) : Bool := b != 0 && allSlots.all fun k => !(slotValid b k && slotKnown k (slotWord b k))

/-- Registers that a vector slot names (R113). -/
def vRegs (w : BitVec 64) : List Nat :=
  match vInfo (opcode w) with
  | none => []
  | some i => [fD w] ++ (if i.a = .v then [fA w] else []) ++ (if i.b = .v then [fB w] else []) ++
      (if i.c = .v then [fC w] else [])

/-- The guard of a slot is true (5.2). -/
def guardTrue (c : Core) (x : Ctx) (w : BitVec 64) : Bool := c.readP x (guardP w) != guardInv w

/-! ### Scratchpad addresses of instructions (R112, R146, R147) -/

/-- The effective byte offset: register plus displacement, if it and the register lie within the scratchpad. -/
def effAddr (a : BitVec 48) (disp : Int) (bytes align : Nat) : Option Nat :=
  let v : Int := (a.toNat : Int) + disp
  if a.toNat < 2 ^ 26 ∧ 0 ≤ v ∧ v.toNat + bytes ≤ 2 ^ 26 ∧ v.toNat % align = 0 then some v.toNat else none

end Sys2Proof.Machine
end

