-- ==== Sys2Proof/WellFormed.lean ====
section
/-! DEFINITION. Which operands a command may carry: a slot command's bundle holds the instruction in its slot (Tables 5.4,
6.3, 6.4, 6.6, 6.8), a stage command its own stage (Table 15.1), a frame at most 256 payload bytes (Table 10.3), a link
at most 16 lanes (10.2, 11.1), a signed request a signature of 3,309 bytes (R452). -/

namespace Sys2Proof

open Sys2Proof.Machine

/-- The bundle's slot is valid and holds the opcode. -/
def slotHolds (k : SlotK) (op : Nat) (i : Issue) : Bool :=
  slotValid i.bundle k && opcode (slotWord i.bundle k) == op

/-- The stage report is that of the stage. -/
def stageHolds (n : Nat) (r : StageIn) : Bool := r.stage.val == n

/-- A frame's payload has the length LEN gives. -/
def frameHolds (f : Frame) : Bool := decide (f.payload.length ≤ 224)

/-- The slot, opcode and issue of a slot command. -/
def Instr.slotOf (c : Instr) : Option (SlotK × Nat × Issue) :=
  match c with
  | .timeBeacon _ => none
  | .beaconMiss _ _ _ => none
  | .gateTick _ => none
  | .quietWindowRelease _ => none
  | .crossingRecentre _ => none
  | .poundLenWrite _ => none
  | .poundLengthChange _ => none
  | .droopStretch _ _ _ => none
  | .stepAbort _ _ _ _ _ => none
  | .coreAbort _ _ => none
  | .replayRestore _ _ => none
  | .add i => some (.c, 0x01, i)
  | .sub i => some (.c, 0x02, i)
  | .and i => some (.c, 0x03, i)
  | .or i => some (.c, 0x04, i)
  | .xor i => some (.c, 0x05, i)
  | .shl i => some (.c, 0x06, i)
  | .shr i => some (.c, 0x07, i)
  | .sar i => some (.c, 0x08, i)
  | .mul i => some (.c, 0x09, i)
  | .min i => some (.c, 0x0A, i)
  | .max i => some (.c, 0x0B, i)
  | .minu i => some (.c, 0x0C, i)
  | .maxu i => some (.c, 0x0D, i)
  | .addi i => some (.c, 0x10, i)
  | .movi i => some (.c, 0x11, i)
  | .movhi i => some (.c, 0x12, i)
  | .cmpeq i => some (.c, 0x18, i)
  | .cmpne i => some (.c, 0x19, i)
  | .cmplt i => some (.c, 0x1A, i)
  | .cmpltu i => some (.c, 0x1B, i)
  | .cmple i => some (.c, 0x1C, i)
  | .cmpleu i => some (.c, 0x1D, i)
  | .fadd i => some (.c, 0x20, i)
  | .fsub i => some (.c, 0x21, i)
  | .fmul i => some (.c, 0x22, i)
  | .ffma i => some (.c, 0x23, i)
  | .fmin i => some (.c, 0x24, i)
  | .fmax i => some (.c, 0x25, i)
  | .fcmplt i => some (.c, 0x26, i)
  | .fcmpeq i => some (.c, 0x27, i)
  | .fcmple i => some (.c, 0x28, i)
  | .pand i => some (.c, 0x30, i)
  | .por i => some (.c, 0x31, i)
  | .pxor i => some (.c, 0x32, i)
  | .pnot i => some (.c, 0x33, i)
  | .sel i => some (.c, 0x34, i)
  | .aaddi i => some (.c, 0x38, i)
  | .atos i => some (.c, 0x39, i)
  | .stoa i => some (.c, 0x3A, i)
  | .ld32 i => some (.c, 0x40, i)
  | .ld64 i => some (.c, 0x41, i)
  | .st32 i => some (.c, 0x42, i)
  | .st64 i => some (.c, 0x43, i)
  | .crr i => some (.c, 0x48, i)
  | .crw i => some (.c, 0x49, i)
  | .br i => some (.c, 0x50, i)
  | .bri i => some (.c, 0x51, i)
  | .call i => some (.c, 0x52, i)
  | .loop i => some (.c, 0x53, i)
  | .hwin i => some (.c, 0x54, i)
  | .hwinExpiry _ _ => none
  | .pend i => some (.c, 0x55, i)
  | .hret i => some (.c, 0x56, i)
  | .vadd i => some (.v, 0x01, i)
  | .vsub i => some (.v, 0x02, i)
  | .vmul i => some (.v, 0x03, i)
  | .vfma i => some (.v, 0x04, i)
  | .vmax i => some (.v, 0x05, i)
  | .vmin i => some (.v, 0x06, i)
  | .vabs i => some (.v, 0x07, i)
  | .vneg i => some (.v, 0x08, i)
  | .vmov i => some (.v, 0x09, i)
  | .vbcast i => some (.v, 0x0A, i)
  | .vcmplt i => some (.v, 0x0B, i)
  | .vcmpeq i => some (.v, 0x0C, i)
  | .vsel i => some (.v, 0x0D, i)
  | .vrsum i => some (.v, 0x10, i)
  | .vrmax i => some (.v, 0x11, i)
  | .vexp2 i => some (.v, 0x18, i)
  | .vlog2 i => some (.v, 0x19, i)
  | .vrcp i => some (.v, 0x1A, i)
  | .vrsqrt i => some (.v, 0x1B, i)
  | .vtanh i => some (.v, 0x1C, i)
  | .vcvti i => some (.v, 0x20, i)
  | .vcvto i => some (.v, 0x21, i)
  | .vld i => some (.v, 0x28, i)
  | .vst i => some (.v, 0x29, i)
  | .vldb i => some (.v, 0x2A, i)
  | .vstb i => some (.v, 0x2B, i)
  | .mconf i => some (.m, 0x01, i)
  | .mload i => some (.m, 0x02, i)
  | .mloadComplete _ _ => none
  | .mstep i => some (.m, 0x03, i)
  | .mstepComplete _ _ => none
  | .mdrain i => some (.m, 0x04, i)
  | .mdrainComplete _ _ => none
  | .mchkv i => some (.m, 0x05, i)
  | .mflags i => some (.m, 0x06, i)
  | .keeperFill _ _ => none
  | .keeperGapExpiry _ _ => none
  | .pownote i => some (.x, 0x20, i)
  | .pownoteLeadExpiry _ _ => none
  | .stallRelease _ _ => none
  | .sendPatienceExpiry _ _ => none
  | .handlerStart _ _ => none
  | .dbgHalt _ => none
  | .towService _ _ => none
  | .strm i => some (.x, 0x01, i)
  | .swait i => some (.x, 0x02, i)
  | .stest i => some (.x, 0x03, i)
  | .rwr i => some (.x, 0x04, i)
  | .rrd i => some (.x, 0x05, i)
  | .send i => some (.x, 0x08, i)
  | .sendn i => some (.x, 0x09, i)
  | .sendc i => some (.x, 0x0A, i)
  | .recv i => some (.x, 0x0B, i)
  | .bpop i => some (.x, 0x0C, i)
  | .bopen i => some (.x, 0x0D, i)
  | .bclose i => some (.x, 0x0E, i)
  | .bcloseComplete _ _ _ => none
  | .wopen i => some (.x, 0x0F, i)
  | .wclose i => some (.x, 0x10, i)
  | .wcloseComplete _ _ _ => none
  | .carm i => some (.x, 0x18, i)
  | .csig i => some (.x, 0x19, i)
  | .cwait i => some (.x, 0x1A, i)
  | .ctest i => some (.x, 0x1B, i)
  | .moveCompletion _ _ _ => none
  | .streamPageEntry _ _ _ => none
  | .chartCacheFill _ _ => none
  | .streamRingReserve _ _ _ => none
  | .streamChunkRequest _ _ _ => none
  | .streamChunkRelease _ _ _ => none
  | .outChunkRead _ _ _ => none
  | .streamComplete _ _ _ => none
  | .patrolScrub _ _ => none
  | .scrubWriteback _ _ => none
  | .stgPartWrite _ _ => none
  | .stgFlush _ => none
  | .stgFlushDone _ => none
  | .lineReq _ => none
  | .sliceMissFill _ => none
  | .hbmLineAccess _ => none
  | .lineData _ => none
  | .hbmWriteShareWindow _ => none
  | .hbmErrorRecheck _ _ => none
  | .chtCountFlush => none
  | .chtHomeWrite _ => none
  | .chartEntryUpdate _ _ => none
  | .chartInvalidation _ _ => none
  | .chartUpdateDrained _ => none
  | .migrationQueueAdmit => none
  | .migrationStart _ => none
  | .migrationComplete _ => none
  | .barge _ _ => none
  | .bargeWhole _ _ _ _ => none
  | .orderedCombine _ _ _ _ => none
  | .weirTimeout _ _ _ _ => none
  | .bargeDelivery _ _ _ => none
  | .bargeAns _ _ => none
  | .bargeRetry _ _ _ => none
  | .wr _ _ => none
  | .wrAns _ _ => none
  | .rdReq _ _ => none
  | .rdData _ _ => none
  | .chamberSignalArrival _ _ => none
  | .csigAns _ _ => none
  | .canalArmArrival _ _ => none
  | .mirrorUpdate _ _ => none
  | .tow _ _ _ => none
  | .towAns _ => none
  | .packetRoute _ => none
  | .combineHoldExpiry _ _ _ => none
  | .flitReplay _ _ => none
  | .sluiceRecovery _ _ => none
  | .sluiceInject _ _ => none
  | .expressLaunch _ _ => none
  | .replyTimeout _ _ _ => none
  | .mshTableWrite _ _ _ _ _ => none
  | .mshEpochArm => none
  | .drainSum _ => none
  | .epochDrainTimeout _ => none
  | .mergeTableUpdate _ _ => none
  | .mshSeamMapWrite _ _ _ => none
  | .axlEnable _ => none
  | .axlFrameLock _ _ _ _ => none
  | .axlTrained _ _ _ _ => none
  | .axlTrainingTimeout _ _ => none
  | .axlRetryTimer _ _ => none
  | .axlLossOfLight _ _ _ => none
  | .axlDisable _ => none
  | .axlLoopWrite _ _ _ => none
  | .axlLoopRequest _ _ => none
  | .axlDataFrame _ _ _ _ => none
  | .axlNak _ _ _ _ => none
  | .axlTimeExchange _ _ => none
  | .axlTimeFrame _ _ _ _ _ _ => none
  | .axlClear _ _ _ _ _ => none
  | .axlCancel _ _ _ _ => none
  | .consignmentMeetTimeout _ _ _ => none
  | .consignmentComplete _ _ _ => none
  | .axlFetch _ _ _ _ => none
  | .kclPortUp _ _ _ _ => none
  | .kclLoss _ _ _ => none
  | .kclLoopWrite _ _ _ => none
  | .rdShared _ _ _ => none
  | .rdOwn _ _ _ => none
  | .rdNc _ _ _ => none
  | .wrNc _ _ _ _ => none
  | .wb _ _ _ _ => none
  | .snpInv _ => none
  | .snpRsp _ _ _ => none
  | .snoopTimeout _ _ => none
  | .kclTime _ _ _ => none
  | .kclTimeSend _ => none
  | .manifestRingNotify _ _ => none
  | .manifestStep _ => none
  | .manifestLoad _ => none
  | .imageLoadComplete _ _ => none
  | .manifestChart _ => none
  | .chartSet _ => none
  | .chartInvalidate _ => none
  | .chartMigrateIn _ => none
  | .chartMigrateOut _ => none
  | .manifestHoldEnd _ => none
  | .admissionWaitTimeout _ => none
  | .stepCompletion _ _ => none
  | .pcieRingPoll _ _ => none
  | .powerFail _ _ => none
  | .inputReturn _ => none
  | .pwrEnFall _ => none
  | .reachCurrentLimit _ _ => none
  | .reachLimitRelease _ _ => none
  | .inputCurrentHold _ => none
  | .reachPgTimeout _ _ => none
  | .vcoreOvercurrent _ _ => none
  | .vnetTrip _ _ => none
  | .powerOnRequest _ _ _ => none
  | .powerOnAdmit _ _ _ => none
  | .powerOnComplete _ _ _ => none
  | .powerOnTimeout _ _ => none
  | .pwrReqIdle _ _ => none
  | .pwrReqRetain _ _ => none
  | .pwrReqDark _ _ => none
  | .coreIdleEntry _ _ => none
  | .reachShort _ _ => none
  | .supplyLoss _ _ => none
  | .powerCapCheck _ _ _ _ => none
  | .oscReady _ _ => none
  | .oscTimeout _ => none
  | .refInputBad _ _ _ => none
  | .refInputGood _ _ _ => none
  | .clkStepRequest _ _ _ => none
  | .pllLocked _ _ => none
  | .vcoreTargetRaise _ _ => none
  | .pllLockTimeout _ _ => none
  | .pllLockLoss _ _ => none
  | .clockWatchdog _ _ _ => none
  | .clkMswSwitch _ _ => none
  | .timNowRead _ _ => none
  | .ppsInEdge _ => none
  | .timeSourceQualify _ _ => none
  | .timeSourceDisqualify _ _ => none
  | .timeSourceTakeover _ _ => none
  | .timeServoUpdate _ _ _ => none
  | .timSet _ => none
  | .trimSave _ _ => none
  | .ppsOutPulse _ => none
  | .ptpMessage _ _ => none
  | .thermalSample _ _ _ _ _ _ => none
  | .thermalRecovery _ _ => none
  | .opticsReenable _ _ => none
  | .hardwareTrip _ _ _ _ => none
  | .coolantSample _ _ _ _ => none
  | .flowOkLoss _ => none
  | .flowOkGlitch _ => none
  | .thermalCapUpdate _ _ _ _ => none
  | .thermalCapRise _ => none
  | .thermalEmergency _ _ => none
  | .thermalEmergencyExit _ => none
  | .forecastUpdate _ => none
  | .stage00 _ => none
  | .stage01 _ => none
  | .stage02 _ => none
  | .stage03 _ => none
  | .stage04 _ => none
  | .stage05 _ => none
  | .stage06 _ => none
  | .stage07 _ => none
  | .stage08 _ => none
  | .stage09 _ => none
  | .stage0A _ => none
  | .stageTimeout _ => none
  | .lkhMapAck _ _ => none
  | .narrowRetentionRequest _ _ _ => none
  | .repairEventReport _ _ => none
  | .soundingRotation => none
  | .soundingStart _ => none
  | .soundingResult _ _ => none
  | .fenceCommand _ _ _ _ => none
  | .fenceCommandExpiry _ _ _ _ => none
  | .substitution _ _ => none
  | .substitutionLoad _ _ => none
  | .substitutionReady _ _ => none
  | .laneRepair _ _ _ _ _ => none
  | .hbmRetrain _ _ _ _ => none
  | .hbmRetrainDone _ _ _ _ => none
  | .moor _ _ => none
  | .headwaySave _ => none
  | .coldReset _ => none
  | .warmReset _ => none
  | .reachReset _ _ _ => none
  | .tileReset _ _ _ _ => none
  | .coreReset _ _ _ => none
  | .contextReset _ _ _ => none
  | .linkReset _ _ => none
  | .lockHouseReset _ _ _ => none
  | .resetPreconditionMet _ => none
  | .resetWaitTimeout _ => none
  | .standbyRequest _ => none
  | .standbyEntry _ => none
  | .activeRequest _ => none
  | .firmwareUpdate _ _ => none
  | .secQuoteRequest _ _ => none
  | .managementRequest _ _ => none
  | .certificateSubmit _ _ => none
  | .quarantine _ _ => none
  | .release _ _ => none
  | .requalify => none
  | .enrol _ _ _ => none
  | .commit _ _ => none
  | .revokeOwner _ => none
  | .logbookEntry _ _ => none
  | .logCkptRequest _ => none
  | .logCheckpointSigned _ => none
  | .logExportWrite _ => none
  | .registerWrite _ _ _ _ => none
  | .dbgResume _ => none
  | .aliveToggle _ => none
  | .flowOkAssert _ => none
  | .resetReturnToService _ => none
  | .segmentZeroingDone _ _ => none
  | .axlIdleFrame _ _ _ _ => none

/-- The command is well formed. -/
def Instr.wf (c : Instr) : Bool :=
  match c with
  | .timeBeacon _ => true
  | .beaconMiss _ _ _ => true
  | .gateTick _ => true
  | .quietWindowRelease _ => true
  | .crossingRecentre _ => true
  | .poundLenWrite _ => true
  | .poundLengthChange _ => true
  | .droopStretch _ _ _ => true
  | .stepAbort _ _ _ _ _ => true
  | .coreAbort _ _ => true
  | .replayRestore _ _ => true
  | .add i => slotHolds .c 0x01 i
  | .sub i => slotHolds .c 0x02 i
  | .and i => slotHolds .c 0x03 i
  | .or i => slotHolds .c 0x04 i
  | .xor i => slotHolds .c 0x05 i
  | .shl i => slotHolds .c 0x06 i
  | .shr i => slotHolds .c 0x07 i
  | .sar i => slotHolds .c 0x08 i
  | .mul i => slotHolds .c 0x09 i
  | .min i => slotHolds .c 0x0A i
  | .max i => slotHolds .c 0x0B i
  | .minu i => slotHolds .c 0x0C i
  | .maxu i => slotHolds .c 0x0D i
  | .addi i => slotHolds .c 0x10 i
  | .movi i => slotHolds .c 0x11 i
  | .movhi i => slotHolds .c 0x12 i
  | .cmpeq i => slotHolds .c 0x18 i
  | .cmpne i => slotHolds .c 0x19 i
  | .cmplt i => slotHolds .c 0x1A i
  | .cmpltu i => slotHolds .c 0x1B i
  | .cmple i => slotHolds .c 0x1C i
  | .cmpleu i => slotHolds .c 0x1D i
  | .fadd i => slotHolds .c 0x20 i
  | .fsub i => slotHolds .c 0x21 i
  | .fmul i => slotHolds .c 0x22 i
  | .ffma i => slotHolds .c 0x23 i
  | .fmin i => slotHolds .c 0x24 i
  | .fmax i => slotHolds .c 0x25 i
  | .fcmplt i => slotHolds .c 0x26 i
  | .fcmpeq i => slotHolds .c 0x27 i
  | .fcmple i => slotHolds .c 0x28 i
  | .pand i => slotHolds .c 0x30 i
  | .por i => slotHolds .c 0x31 i
  | .pxor i => slotHolds .c 0x32 i
  | .pnot i => slotHolds .c 0x33 i
  | .sel i => slotHolds .c 0x34 i
  | .aaddi i => slotHolds .c 0x38 i
  | .atos i => slotHolds .c 0x39 i
  | .stoa i => slotHolds .c 0x3A i
  | .ld32 i => slotHolds .c 0x40 i
  | .ld64 i => slotHolds .c 0x41 i
  | .st32 i => slotHolds .c 0x42 i
  | .st64 i => slotHolds .c 0x43 i
  | .crr i => slotHolds .c 0x48 i
  | .crw i => slotHolds .c 0x49 i
  | .br i => slotHolds .c 0x50 i
  | .bri i => slotHolds .c 0x51 i
  | .call i => slotHolds .c 0x52 i
  | .loop i => slotHolds .c 0x53 i
  | .hwin i => slotHolds .c 0x54 i
  | .hwinExpiry _ _ => true
  | .pend i => slotHolds .c 0x55 i
  | .hret i => slotHolds .c 0x56 i
  | .vadd i => slotHolds .v 0x01 i
  | .vsub i => slotHolds .v 0x02 i
  | .vmul i => slotHolds .v 0x03 i
  | .vfma i => slotHolds .v 0x04 i
  | .vmax i => slotHolds .v 0x05 i
  | .vmin i => slotHolds .v 0x06 i
  | .vabs i => slotHolds .v 0x07 i
  | .vneg i => slotHolds .v 0x08 i
  | .vmov i => slotHolds .v 0x09 i
  | .vbcast i => slotHolds .v 0x0A i
  | .vcmplt i => slotHolds .v 0x0B i
  | .vcmpeq i => slotHolds .v 0x0C i
  | .vsel i => slotHolds .v 0x0D i
  | .vrsum i => slotHolds .v 0x10 i
  | .vrmax i => slotHolds .v 0x11 i
  | .vexp2 i => slotHolds .v 0x18 i
  | .vlog2 i => slotHolds .v 0x19 i
  | .vrcp i => slotHolds .v 0x1A i
  | .vrsqrt i => slotHolds .v 0x1B i
  | .vtanh i => slotHolds .v 0x1C i
  | .vcvti i => slotHolds .v 0x20 i
  | .vcvto i => slotHolds .v 0x21 i
  | .vld i => slotHolds .v 0x28 i
  | .vst i => slotHolds .v 0x29 i
  | .vldb i => slotHolds .v 0x2A i
  | .vstb i => slotHolds .v 0x2B i
  | .mconf i => slotHolds .m 0x01 i
  | .mload i => slotHolds .m 0x02 i
  | .mloadComplete _ _ => true
  | .mstep i => slotHolds .m 0x03 i
  | .mstepComplete _ _ => true
  | .mdrain i => slotHolds .m 0x04 i
  | .mdrainComplete _ _ => true
  | .mchkv i => slotHolds .m 0x05 i
  | .mflags i => slotHolds .m 0x06 i
  | .keeperFill _ _ => true
  | .keeperGapExpiry _ _ => true
  | .pownote i => slotHolds .x 0x20 i
  | .pownoteLeadExpiry _ _ => true
  | .stallRelease _ _ => true
  | .sendPatienceExpiry _ _ => true
  | .handlerStart _ _ => true
  | .dbgHalt _ => true
  | .towService _ _ => true
  | .strm i => slotHolds .x 0x01 i
  | .swait i => slotHolds .x 0x02 i
  | .stest i => slotHolds .x 0x03 i
  | .rwr i => slotHolds .x 0x04 i
  | .rrd i => slotHolds .x 0x05 i
  | .send i => slotHolds .x 0x08 i
  | .sendn i => slotHolds .x 0x09 i
  | .sendc i => slotHolds .x 0x0A i
  | .recv i => slotHolds .x 0x0B i
  | .bpop i => slotHolds .x 0x0C i
  | .bopen i => slotHolds .x 0x0D i
  | .bclose i => slotHolds .x 0x0E i
  | .bcloseComplete _ _ _ => true
  | .wopen i => slotHolds .x 0x0F i
  | .wclose i => slotHolds .x 0x10 i
  | .wcloseComplete _ _ _ => true
  | .carm i => slotHolds .x 0x18 i
  | .csig i => slotHolds .x 0x19 i
  | .cwait i => slotHolds .x 0x1A i
  | .ctest i => slotHolds .x 0x1B i
  | .moveCompletion _ _ _ => true
  | .streamPageEntry _ _ _ => true
  | .chartCacheFill _ _ => true
  | .streamRingReserve _ _ _ => true
  | .streamChunkRequest _ _ _ => true
  | .streamChunkRelease _ _ _ => true
  | .outChunkRead _ _ _ => true
  | .streamComplete _ _ _ => true
  | .patrolScrub _ _ => true
  | .scrubWriteback _ _ => true
  | .stgPartWrite _ _ => true
  | .stgFlush _ => true
  | .stgFlushDone _ => true
  | .lineReq _ => true
  | .sliceMissFill _ => true
  | .hbmLineAccess _ => true
  | .lineData _ => true
  | .hbmWriteShareWindow _ => true
  | .hbmErrorRecheck _ _ => true
  | .chtCountFlush => true
  | .chtHomeWrite _ => true
  | .chartEntryUpdate _ _ => true
  | .chartInvalidation _ _ => true
  | .chartUpdateDrained _ => true
  | .migrationQueueAdmit => true
  | .migrationStart _ => true
  | .migrationComplete _ => true
  | .barge _ _ => true
  | .bargeWhole _ _ _ _ => true
  | .orderedCombine _ _ _ _ => true
  | .weirTimeout _ _ _ _ => true
  | .bargeDelivery _ _ _ => true
  | .bargeAns _ _ => true
  | .bargeRetry _ _ _ => true
  | .wr _ _ => true
  | .wrAns _ _ => true
  | .rdReq _ _ => true
  | .rdData _ _ => true
  | .chamberSignalArrival _ _ => true
  | .csigAns _ _ => true
  | .canalArmArrival _ _ => true
  | .mirrorUpdate _ _ => true
  | .tow _ _ _ => true
  | .towAns _ => true
  | .packetRoute _ => true
  | .combineHoldExpiry _ _ _ => true
  | .flitReplay _ _ => true
  | .sluiceRecovery _ _ => true
  | .sluiceInject _ _ => true
  | .expressLaunch _ _ => true
  | .replyTimeout _ _ _ => true
  | .mshTableWrite _ _ _ _ _ => true
  | .mshEpochArm => true
  | .drainSum _ => true
  | .epochDrainTimeout _ => true
  | .mergeTableUpdate _ _ => true
  | .mshSeamMapWrite _ _ _ => true
  | .axlEnable _ => true
  | .axlFrameLock _ lanes _ _ => decide (lanes ≤ 16)
  | .axlTrained _ _ _ _ => true
  | .axlTrainingTimeout _ _ => true
  | .axlRetryTimer _ _ => true
  | .axlLossOfLight _ _ _ => true
  | .axlDisable _ => true
  | .axlLoopWrite _ _ _ => true
  | .axlLoopRequest _ _ => true
  | .axlDataFrame _ _ f _ => frameHolds f
  | .axlNak _ _ _ _ => true
  | .axlTimeExchange _ _ => true
  | .axlTimeFrame _ _ _ _ _ _ => true
  | .axlClear _ _ _ _ _ => true
  | .axlCancel _ _ _ _ => true
  | .consignmentMeetTimeout _ _ _ => true
  | .consignmentComplete _ _ _ => true
  | .axlFetch _ _ _ _ => true
  | .kclPortUp _ _ lanes _ => decide (lanes ≤ 16)
  | .kclLoss _ lanes _ => decide (lanes ≤ 16)
  | .kclLoopWrite _ _ _ => true
  | .rdShared _ _ _ => true
  | .rdOwn _ _ _ => true
  | .rdNc _ _ _ => true
  | .wrNc _ _ _ _ => true
  | .wb _ _ _ _ => true
  | .snpInv _ => true
  | .snpRsp _ _ _ => true
  | .snoopTimeout _ _ => true
  | .kclTime _ _ _ => true
  | .kclTimeSend _ => true
  | .manifestRingNotify _ _ => true
  | .manifestStep _ => true
  | .manifestLoad _ => true
  | .imageLoadComplete _ _ => true
  | .manifestChart _ => true
  | .chartSet _ => true
  | .chartInvalidate _ => true
  | .chartMigrateIn _ => true
  | .chartMigrateOut _ => true
  | .manifestHoldEnd _ => true
  | .admissionWaitTimeout _ => true
  | .stepCompletion _ _ => true
  | .pcieRingPoll _ _ => true
  | .powerFail _ _ => true
  | .inputReturn _ => true
  | .pwrEnFall _ => true
  | .reachCurrentLimit _ _ => true
  | .reachLimitRelease _ _ => true
  | .inputCurrentHold _ => true
  | .reachPgTimeout _ _ => true
  | .vcoreOvercurrent _ _ => true
  | .vnetTrip _ _ => true
  | .powerOnRequest _ _ _ => true
  | .powerOnAdmit _ _ _ => true
  | .powerOnComplete _ _ _ => true
  | .powerOnTimeout _ _ => true
  | .pwrReqIdle _ _ => true
  | .pwrReqRetain _ _ => true
  | .pwrReqDark _ _ => true
  | .coreIdleEntry _ _ => true
  | .reachShort _ _ => true
  | .supplyLoss _ _ => true
  | .powerCapCheck _ _ _ _ => true
  | .oscReady _ _ => true
  | .oscTimeout _ => true
  | .refInputBad _ _ _ => true
  | .refInputGood _ _ _ => true
  | .clkStepRequest _ _ _ => true
  | .pllLocked _ _ => true
  | .vcoreTargetRaise _ _ => true
  | .pllLockTimeout _ _ => true
  | .pllLockLoss _ _ => true
  | .clockWatchdog _ _ _ => true
  | .clkMswSwitch _ _ => true
  | .timNowRead _ _ => true
  | .ppsInEdge _ => true
  | .timeSourceQualify _ _ => true
  | .timeSourceDisqualify _ _ => true
  | .timeSourceTakeover _ _ => true
  | .timeServoUpdate _ _ _ => true
  | .timSet _ => true
  | .trimSave _ _ => true
  | .ppsOutPulse _ => true
  | .ptpMessage _ _ => true
  | .thermalSample _ _ _ _ _ _ => true
  | .thermalRecovery _ _ => true
  | .opticsReenable _ _ => true
  | .hardwareTrip _ _ _ _ => true
  | .coolantSample _ _ _ _ => true
  | .flowOkLoss _ => true
  | .flowOkGlitch _ => true
  | .thermalCapUpdate _ _ _ _ => true
  | .thermalCapRise _ => true
  | .thermalEmergency _ _ => true
  | .thermalEmergencyExit _ => true
  | .forecastUpdate _ => true
  | .stage00 r => stageHolds 0 r
  | .stage01 r => stageHolds 1 r
  | .stage02 r => stageHolds 2 r
  | .stage03 r => stageHolds 3 r
  | .stage04 r => stageHolds 4 r
  | .stage05 r => stageHolds 5 r
  | .stage06 r => stageHolds 6 r
  | .stage07 r => stageHolds 7 r
  | .stage08 r => stageHolds 8 r
  | .stage09 r => stageHolds 9 r
  | .stage0A r => stageHolds 10 r
  | .stageTimeout _ => true
  | .lkhMapAck _ _ => true
  | .narrowRetentionRequest _ _ _ => true
  | .repairEventReport _ _ => true
  | .soundingRotation => true
  | .soundingStart _ => true
  | .soundingResult _ _ => true
  | .fenceCommand _ _ _ _ => true
  | .fenceCommandExpiry _ _ _ _ => true
  | .substitution _ _ => true
  | .substitutionLoad _ _ => true
  | .substitutionReady _ _ => true
  | .laneRepair _ _ _ _ _ => true
  | .hbmRetrain _ _ _ _ => true
  | .hbmRetrainDone _ _ _ _ => true
  | .moor _ _ => true
  | .headwaySave _ => true
  | .coldReset _ => true
  | .warmReset _ => true
  | .reachReset _ _ _ => true
  | .tileReset _ _ _ _ => true
  | .coreReset _ _ _ => true
  | .contextReset _ _ _ => true
  | .linkReset _ _ => true
  | .lockHouseReset _ _ _ => true
  | .resetPreconditionMet _ => true
  | .resetWaitTimeout _ => true
  | .standbyRequest _ => true
  | .standbyEntry _ => true
  | .activeRequest _ => true
  | .firmwareUpdate _ _ => true
  | .secQuoteRequest _ _ => true
  | .managementRequest q _ => q.signature.length == 3309
  | .certificateSubmit _ _ => true
  | .quarantine _ _ => true
  | .release _ _ => true
  | .requalify => true
  | .enrol _ _ _ => true
  | .commit _ _ => true
  | .revokeOwner _ => true
  | .logbookEntry _ _ => true
  | .logCkptRequest _ => true
  | .logCheckpointSigned _ => true
  | .logExportWrite _ => true
  | .registerWrite _ _ _ _ => true
  | .dbgResume _ => true
  | .aliveToggle _ => true
  | .flowOkAssert _ => true
  | .resetReturnToService _ => true
  | .segmentZeroingDone _ _ => true
  | .axlIdleFrame _ _ f _ => frameHolds f

end Sys2Proof
end

