-- ==== Sys2Proof/Decode.lean ====
section
/-! DEFINITION. Words that spell a command. No row of spec/opcode_table.json gives bits, so no word spells one; the bits of
an instruction stand in the bundle that an issue command carries (Machine/Operands.lean). -/

namespace Sys2Proof

/-- The command that the table's bits spell: none, since the table gives its rows no bits. -/
def decodeTableWord (_nbits _w : Nat) : Option Instr := none

end Sys2Proof
end

