-- ==== Sys2Proof/Machine/Shake.lean ====
section
/-! DEFINITION. SHAKE256 and the digest of R452: the first 32 bytes of SHAKE256. The spec names FIPS 202; the permutation is
written from that standard (log entry 5), its constants and offsets as the standard's procedures make them. -/

namespace Sys2Proof.Machine

open Sys2Proof

/-- The 1,600 bits of the permutation: lane 5 y + x. -/
abbrev Lanes := Vector Word 25

/-! ### Tables of the permutation -/

/-- One step of the standard's feedback register, x⁸ + x⁶ + x⁵ + x⁴ + 1. -/
def feedback (r : Nat) : Nat := if r < 128 then 2 * r else (2 * r) ^^^ 0x171
/-- The register runs on over bit places 2ʲ − 1 of one round's constant. -/
def iotaBits : List Nat → Nat → Word → Nat × Word
  | [], r, w => (r, w)
  | j :: js, r, w => iotaBits js (feedback r) (if r % 2 = 1 then w ||| (1 : Word) <<< (2 ^ j - 1) else w)
/-- The constants of n rounds from a state of the register on. -/
def iotaWords : Nat → Nat → List Word
  | 0, _ => []
  | n + 1, r => let x := iotaBits [0, 1, 2, 3, 4, 5, 6] r 0; x.2 :: iotaWords n x.1
/-- The walk over the 24 lanes other than lane 0: from (x, y) to (y, 2x + 3y), with its number, from which the rotation follows. Lane (x, y)
moves to the place that the walk visits next. -/
def rhoWalk : Nat → Nat → Nat → Nat → List (Nat × Nat × Nat)
  | 0, _, _, _ => []
  | n + 1, t, x, y => let z := (2 * x + 3 * y) % 5; (5 * y + x, 5 * z + y, (t + 1) * (t + 2) / 2 % 64) :: rhoWalk n (t + 1) y z

/-! ### The permutation -/

/-- Each lane takes in the parity of the column before it and the turned parity of the column behind it. -/
def mixColumns (a : Lanes) : Lanes :=
  let par (x : Nat) : Word := (List.range 5).foldl (fun w y => w ^^^ vat a (5 * y + x % 5)) 0
  Vector.ofFn fun i : Fin 25 => a[i] ^^^ (par (i.val + 4) ^^^ (par (i.val + 1)).rotateLeft 1)
/-- Every lane is turned and moved along the walk. -/
def turnLanes (a : Lanes) : Lanes := (rhoWalk 24 0 1 0).foldl (fun b m => b.set (Fin.ofNat 25 m.2.1) ((vat a m.1).rotateLeft m.2.2)) a
/-- Within a row each lane takes in the two lanes after it. -/
def mixRows (a : Lanes) : Lanes :=
  Vector.ofFn fun i : Fin 25 =>
    let row := i.val - i.val % 5
    a[i] ^^^ (vat a (row + (i.val + 2) % 5) &&& ~~~(vat a (row + (i.val + 1) % 5)))
def permute (a : Lanes) : Lanes :=
  (iotaWords 24 1).foldl (fun a w => vmod (mixRows (turnLanes (mixColumns a))) 0 fun l => l ^^^ w) a

/-! ### The sponge -/

/-- One block of 136 bytes enters. -/
def soak (a : Lanes) (blk : List Byte) : Lanes :=
  permute ((List.range 17).foldl (fun a i => vmod a (Fin.ofNat 25 i) fun l => l ^^^ wordOf blk i) a)
/-- n whole blocks, then the rest of the message under its padding, which ends in the top bit of byte 135. -/
def soakAll : Nat → List Byte → Lanes → Lanes
  | 0, m, a =>
    let gap := 135 - m.length
    soak a (if gap = 0 then m ++ [0x9F] else m ++ 0x1F :: List.replicate (gap - 1) 0 ++ [0x80])
  | n + 1, m, a => soakAll n (m.drop 136) (soak a (m.take 136))

/-- The digest of a byte string: byte 0 of the hash is the low byte of the number. Beyond the rules' words: log entry 5 (PRESUMED). -/
def digest (m : List Byte) : BitVec 256 :=
  let a := soakAll (m.length / 136) m (Vector.replicate 25 0)
  a[3] ++ a[2] ++ a[1] ++ a[0]

end Sys2Proof.Machine
end

