-- ==== Sys2Proof/Machine/Log.lean ====
section
/-! DEFINITION. The Logbook (17.6): entries, commit, retention and checkpoints. The Logbook of every serving lock-house is
one list here: each holds the same entries (R469). Entry 0 (GENESIS) is `genesis`; State.log lists the later ones. -/

namespace Sys2Proof.Machine

open Sys2Proof

/-- 32 bytes of a digest. -/
def digestBytes (d : BitVec 256) : List Byte := natBytes d.toNat 32
/-- The digest of the identity public key (Table 17.1). -/
def identityDigest : BitVec 256 := digest Config.identityPk

/-- DATA is padded to 72 bytes with zeros. -/
def padTo (n : Nat) (bs : List Byte) : List Byte := bs ++ List.replicate (n - bs.length) 0

/-- The 128 bytes of an entry (Table 17.11). -/
def LogEntry.bytes (e : LogEntry) : List Byte :=
  natBytes e.index 8 ++ natBytes e.time 8 ++ digestBytes e.prev ++ natBytes e.type.toNat 2 ++
    [BitVec.ofNat 8 (originCode e.origin), BitVec.ofNat 8 (pathCode e.path), e.flags, e.key, 0, 0] ++ padTo 72 (e.data.take 72)

/-- Entry 0, written at manufacture (R467). Beyond the rules' words: log entry 13 (DESIGN CHOICE). -/
def genesis : LogEntry :=
  { index := 0, time := 0, prev := 0, type := 1, origin := .none, path := .internal, flags := 0, key := 0xFF
    data := natBytes Config.partWord.toNat 8 ++ digestBytes identityDigest }

/-- The newest committed entry. -/
def Logbook.head (l : Logbook) : LogEntry := l.entries.headD genesis
/-- The retained entry of an index. -/
def Logbook.entry (l : Logbook) (i : Nat) : Option LogEntry :=
  if i < l.oldest then none else if i = 0 then some genesis else l.entries.find? fun e => e.index == i

/-- The lock-houses that serve. -/
def State.serves (s : State) : Nat := ((List.range 3).filter fun i => s.lkh.serving.getLsbD i).length

/-- Drop the oldest segment of 4,096 when the store of 524,288 entries is full (R471). -/
def Logbook.trim (l : Logbook) : Logbook :=
  if l.nextIdx - l.oldest ≤ 524288 then l
  else
    let first := (l.oldest / 4096 + 1) * 4096
    { l with oldest := first, entries := l.entries.filter fun e => decide (first ≤ e.index),
             lostUnread := l.lostUnread || decide (l.exported < first - 1) }

/-- Append one entry of at most 72 bytes of DATA (R467, R469). -/
def Logbook.append (l : Logbook) (now : Nat) (holders : BitVec 3) (type : BitVec 16) (origin : Origin) (path : Path)
    (key flags : BitVec 8) (data : List Byte) : Logbook :=
  let h := l.head
  let e : LogEntry :=
    { index := l.nextIdx, time := max h.time now, prev := digest h.bytes, type := type, origin := origin, path := path,
      flags := flags, key := key, data := data }
  { l with entries := e :: l.entries, nextIdx := l.nextIdx + 1, holders := holders }.trim

/-- The parts of a record: 72 bytes of DATA each, at least one (R468). -/
def logParts : Nat → List Byte → List (List Byte)
  | 0, _ => []
  | n + 1, bs => bs.take 72 :: logParts n (bs.drop 72)

/-- Write a record, its continuations marked CONT (R468). -/
def Logbook.record (l : Logbook) (now : Nat) (holders : BitVec 3) (single holdup : Bool) (type : BitVec 16) (origin : Origin)
    (path : Path) (key : BitVec 8) (data : List Byte) : Logbook :=
  let f (cont : Bool) : BitVec 8 := BitVec.ofNat 8 (b2n cont + 2 * b2n single + 4 * b2n holdup)
  ((logParts (max 1 (cdiv data.length 72)) data).foldl
    (fun (x : Logbook × Bool) bs => (x.1.append now holders type origin path key (f x.2) bs, true)) (l, false)).1

/-- Write a CHECKPOINT entry; its signature follows (R472). Beyond the rules' words: log entry 15 (DEDUCED). -/
def Logbook.checkpoint (l : Logbook) (now : Nat) (holders : BitVec 3) (single : Bool) (house : House) (requested : Bool) : Logbook :=
  let n := l.checkpoints + 1
  let x := l.record now holders single false 0x80 .none .internal 0xFF
    (natBytes n.toNat 8 ++ natBytes (b2n requested) 8 ++ natBytes house.val 8)
  { x with checkpoints := n, ckptLast := l.nextIdx, ckptPend := x.ckptPend ++ [(l.nextIdx, requested)] }

/-- Commit a record (R469); a CHECKPOINT entry follows where INDEX has reached a multiple of 4,096 (R472, log entry 15). -/
def State.logFull (s : State) (holdup : Bool) (type : BitVec 16) (origin : Origin) (path : Path) (key : BitVec 8) (data : List Byte) : State :=
  let single := decide (s.serves = 1)
  let a := s.log.nextIdx
  let l := s.log.record s.now s.lkh.serving single holdup type origin path key data
  let l1 := if (l.nextIdx - 1) / 4096 > (a - 1) / 4096 then l.checkpoint s.now s.lkh.serving single s.lkh.keeperHouse false else l
  { s with log := l1 }
/-- A record made by firmware or hardware on its own. Beyond the rules' words: log entry 76 (DESIGN CHOICE). -/
def State.logRec (s : State) (type : Nat) (origin : Origin) (data : List Nat) : State :=
  s.logFull false (BitVec.ofNat 16 type) origin .internal 0xFF (data.flatMap fun n => natBytes n 8)
/-- A record of a change made through a path. Beyond the rules' words: log entry 76 (DESIGN CHOICE). -/
def State.logPath (s : State) (type : Nat) (origin : Origin) (path : Path) (data : List Nat) : State :=
  s.logFull false (BitVec.ofNat 16 type) origin path s.log.reqKey (data.flatMap fun n => natBytes n 8)
/-- REGISTER: panel address, old value, new value. Beyond the rules' words: log entry 76 (DESIGN CHOICE). -/
def State.logReg (s : State) (origin : Origin) (path : Path) (addr old new : Nat) : State :=
  s.logPath 0x10 origin path [addr, old, new]
/-- ERROR: unit identifier, status, count. -/
def State.logErr (s : State) (unit : BitVec 40) (st n : Nat) : State := s.logRec 0x90 .hardware [unit.toNat, st, n]

def State.houses (s : State) : List House := (List.finRange 3).filter fun h => s.lkh.serving.getLsbD h.val
/-- The anti-rollback counter in force for a class, from 0 on: the highest among the lock-houses that serve, or of all while none does
(R457). -/
def State.counter (s : State) (c : Nat) : Nat :=
  (if s.houses.isEmpty then List.finRange 3 else s.houses).foldl (fun n h => max n (vat s.sec.groups[h] c)) 0

/-! ### Units (Table 15.3) -/

/-- A unit identifier (Table 15.3). Beyond the rules' words: log entry 77 (DESIGN CHOICE). -/
def unitId (kind index : Nat) : BitVec 40 := BitVec.ofNat 40 (kind + 256 * index)
def dieUnit (p : Pos) : BitVec 40 := unitId 1 p.val
def utUnit (p : Pos) : BitVec 40 := unitId 3 p.val

/-- A unit failure that the repair logic has found: unit and cause (15.4). -/
def State.failUnit (s : State) (unit : BitVec 40) (cause : BitVec 8) : State :=
  if s.repair.failures.contains (unit, cause) then s
  else
    let s1 : State := { s with repair := { s.repair with failures := s.repair.failures ++ [(unit, cause)] } }
    if unit.toNat % 256 = 1 || unit.toNat % 256 = 3 then
      s1.modUt (Fin.ofNat 144 (unit.toNat / 256)) fun u => { u with flags := { u.flags with failedAt := some s.now } }
    else s1
/-- The event that started a repair: the failure found within 1 ms before the fence, else the fence (Table 15.9).
Beyond the rules' words: log entry 66 (DEDUCED). -/
def TileFlags.failed (f : TileFlags) (now_ : Nat) : TileFlags :=
  { f with failedAt := match f.failedAt with
      | some t => if now_ ≤ t + 1000000 then some t else some now_
      | none => some now_ }

/-- Who acts on a path (Table 17.12). -/
def originOf : Path → Origin
  | .internal => .firmware | .k0 => .runtimeK0 | .k1 => .runtimeK1 | .i3c => .bmc | .i2c => .bmc | .ethernet => .ethPeer
  | .pcie => .pcieHost | .jtag => .jtag | .towpath => .hardware

def execLogbookEntry (e : LogIn) (t : Nat) (s : State) : Out :=
  .next ((s.at_ t).logFull false e.type e.origin e.path e.key e.data)

def State.ckptRequest (s : State) (t : Nat) : State :=
  let s0 := s.at_ t
  match s0.log.ckptReqAt with
  | some a => if s0.now < a + 1000000000 then s0 else
      { s0 with log := { s0.log.checkpoint s0.now s0.lkh.serving (decide (s0.serves = 1)) s0.lkh.keeperHouse true with ckptReqAt := some s0.now } }
  | none =>
      { s0 with log := { s0.log.checkpoint s0.now s0.lkh.serving (decide (s0.serves = 1)) s0.lkh.keeperHouse true with ckptReqAt := some s0.now } }
def execLogCkptRequest (t : Nat) (s : State) : Out := .next (s.ckptRequest t)

/-- What a checkpoint's signature covers (R472). -/
def ckptMsg (e : LogEntry) : List Byte := digestBytes identityDigest ++ natBytes e.index 8 ++ digestBytes (digest e.bytes)

/-- Drop from a full signature store: the oldest of a requested checkpoint first, else the oldest. The store lists the
newest first. -/
def sigTrim (l : List (Nat × Bool × List Byte)) : List (Nat × Bool × List Byte) :=
  if l.length ≤ 4096 then l
  else match l.reverse.find? fun x => x.2.1 with
    | some v => l.filter fun x => x.1 != v.1
    | none => l.dropLast

/-- The oldest checkpoint signature in preparation is written. -/
def execLogCheckpointSigned (t : Nat) (s : State) : Out := .next (
  let s0 := s.at_ t
  match s0.log.ckptPend with
  | [] => s0
  | (i, r) :: rest =>
    let sg := match s0.log.entry i with
      | some e => [(i, r, Config.sign "OVP-LOG" (ckptMsg e))]
      | none => []
    { s0 with log := { s0.log with ckptPend := rest, sigs := sigTrim (sg ++ s0.log.sigs) } })

/-- A lower write is ignored (Table 17.15). -/
def State.exportWrite (s : State) (v : BitVec 64) : State := { s with log := { s.log with exported := max s.log.exported v.toNat } }
def execLogExportWrite (v : BitVec 64) (s : State) : Out := .next (s.exportWrite v)

end Sys2Proof.Machine
end

