-- ==== Sys2Proof/Machine/Memory.lean ====
section
/-! DEFINITION. Memory behind the scratchpads: chart copies and entries (7.6), home slices and stacks (7.4, 7.5), the
directory of companion-held lines (R311) and the host window (R314). -/

namespace Sys2Proof.Machine

open Sys2Proof

/-! ### Chart entries (R200, R201, R208) -/

def entValid (e : Word) : Bool := bit e 0
def entHost (e : Word) : Bool := bit e 1
def entAttr (e : Word) : Nat := fld e 2 2
def entRo (e : Word) : Bool := bit e 4
def entMig (e : Word) : Bool := bit e 5
def entStack (e : Word) : StackN := Fin.ofNat 24 (fld e 8 5)
def entFrame (e : Word) : Nat := fld e 13 20
def entHostPage (e : Word) : Nat := fld e 8 32
def entAccess (e : Word) : Nat := fld e 48 16
def setMig (e : Word) (b : Bool) : Word := if b then e ||| 32 else e &&& ~~~(32 : Word)
/-- The entry with a location in HBM, or in the host tier; MIGRATING clear. -/
def entAt (e : Word) (host : Bool) (loc : Nat) : Word :=
  (setMig e false &&& ~~~(put64 (2 ^ 32 - 1) 8 32 ||| 2)) ||| put64 loc 8 32 ||| put64 (b2n host) 1 1
def frameLoc (m f : Nat) : Nat := m + 32 * f

/-- The page has a location in HBM. -/
def entHere (e : Word) : Bool := entValid e && !entHost e

/-- Read a page's entry from the copy of a bank, or from the other copy where that one is not in use (R208). -/
def Chart.entry (c : Chart) (b : Bank) (page : Nat) : Word :=
  match b with
  | .west => if c.wValid then tblGet 0 c.west page else if c.eValid then tblGet 0 c.east page else 0
  | .east => if c.eValid then tblGet 0 c.east page else if c.wValid then tblGet 0 c.west page else 0
/-- A copy is in use. -/
def Chart.inUse (c : Chart) : Bool := c.wValid || c.eValid
/-- Write an entry into each copy in use, West first. -/
def Chart.put (c : Chart) (page : Nat) (e : Word) : Chart :=
  let c1 := if c.wValid then { c with west := tblPut 0 c.west page e } else c
  if c.eValid then { c1 with east := tblPut 0 c1.east page e } else c1
def State.modChart (s : State) (f : Chart → Chart) : State := { s with chart := f s.chart }
/-- The entry as the Canal reads it: the West copy's while that is in use. -/
def State.entry (s : State) (page : Nat) : Word := s.chart.entry .west page

/-- R201: an entry write is refused. The frames that CHT_HOME names are the top 4,096 of its two stacks (R194). -/
def State.entryBad (s : State) (e : Word) : Bool :=
  entAttr e == 3 || decide (fld e 6 2 ≠ 0) || decide (fld e 40 8 ≠ 0) ||
    (!entHost e && (decide (fld e 33 7 ≠ 0) || decide (fld e 8 5 ≥ 24) || !s.hbm[entStack e].present ||
      (decide (entFrame e ≥ 2 ^ 20 - 4096) &&
        ((s.chart.wValid && decide (fld e 8 5 = s.chart.wHome.toNat)) ||
         (s.chart.eValid && decide (fld e 8 5 = s.chart.eHome.toNat))))))

/-! ### Home slices (R190, R191) and stacks -/

/-- The slices of a stack's reach that have a cache portion. -/
def State.slices (s : State) (m : StackN) : List Pos :=
  (reachTiles m).filter fun p => decide ((s.ut p).stg.ringMib.toNat < 8)
/-- The home slice of a stack address; none where the reach has no cache portion. -/
def State.homeSlice (s : State) (m : StackN) (a : Nat) : Option Pos :=
  let l := s.slices m
  if l.length = 0 then none else l[(a / 4096) % l.length]?

def State.modStack (s : State) (m : StackN) (f : Stack → Stack) : State := { s with hbm := vmod s.hbm m f }
/-- Lines of 16-way sets: an 8 MiB part holds 131,072 lines. -/
def Staging.sets (g : Staging) : Nat := (8 - g.ringMib.toNat) * 1024
def Staging.line (g : Staging) (a : Nat) : Option CLine := g.lines.find? fun l => l.line == a / 64

/-- What a read of a line gives. -/
inductive LineRd where
  | data (bs : List Byte)
  | uncorrectable
  deriving DecidableEq, Repr

/-- A stack reads one line (R195): the data, or uncorrectable; counts what it meets. -/
def Stack.read (k : Stack) (a : Nat) : Stack × LineRd :=
  let l := a / 64
  if k.bad.contains l then ({ k with uncorr := k.uncorr + 1 }, .uncorrectable)
  else ((if k.single.contains l then { k with corrected := k.corrected + 1 } else k), .data (memRead k.mem (64 * l) 64))
/-- A whole-line write replaces the line and its errors (R195). -/
def Stack.write (k : Stack) (a : Nat) (bs : List Byte) : Stack :=
  let l := a / 64
  { k with mem := memWrite k.mem (64 * l) bs, bad := k.bad.filter fun x => x != l, single := k.single.filter fun x => x != l }

/-- The round of C2 and C3 goes on; a spent round begins anew with the weights of HBM_ARB_CFG (R197). -/
def Stack.served (k : Stack) (c : HbmClass) : Stack :=
  let k1 := if k.turnC2 = 0 ∧ k.turnC3 = 0 then { k with turnC2 := k.wC2.toNat, turnC3 := k.wC3.toNat } else k
  match c with
  | .c0 => { k with c0Lines := k.c0Lines + 1 }
  | .c1 => k
  | .c2 => { k1 with turnC2 := k1.turnC2 - 1 }
  | .c3 => { k1 with turnC3 := k1.turnC3 - 1 }

/-- A LINE_REQ that position p's under-tile sends to a stack's line for no status slot: to the line's home slice, or with direct to the
row end (R190, R246). -/
def State.lineAsk (s : State) (p : Pos) (direct : Bool) (m : StackN) (a : Nat) (cls : HbmClass) (data : Option (List Byte)) (tag : LineTag) : State :=
  let d := if direct then rowEnd m else match s.homeSlice m a with | some q => q | none => rowEnd m
  s.ask p { s.fromTile p 9 (match cls with | .c0 => 0 | .c1 => 1 | _ => 2) with
    dkind := 1, dest := BitVec.ofNat 8 d.val, addr := put64 m.val 36 5 ||| put64 (a / 64 * 64) 0 36, cls := cls, write := data.isSome
    length := if data.isSome then 64 else 0, payload := data.getD [], tag := tag }

/-- A slice has met an uncorrectable error in a dirty line (R192): the line enters its error list and the Logbook; with the 17th the
slice is a failed unit. -/
def State.sliceError (s : State) (p : Pos) (line : Nat) : State :=
  let g := (s.ut p).stg
  if g.errList.contains line then s
  else if g.errList.length < 16 then
    (s.modUt p fun u => { u with stg := { u.stg with errList := u.stg.errList ++ [line] } }).logErr (utUnit p) (statusCode .memoryUncorrectable) 1
  else s.tellRepair (.sliceLines p)

/-- A line that a full set evicts: a dirty line is held until its write-back is answered, a failing dirty line stays in the error
list alone. Beyond the rules' words: log entry 23 (DESIGN CHOICE). -/
def State.evict (s : State) (m : StackN) (p : Pos) (v : CLine) : State :=
  let drop (s : State) : State := s.modUt p fun u => { u with stg := { u.stg with lines := u.stg.lines.filter fun x => x.line != v.line } }
  if !v.dirty then drop s
  else if v.failing then (drop s).sliceError p v.line
  else
    (s.modUt p fun u => { u with stg := { u.stg with
      lines := u.stg.lines.map fun x => if x.line = v.line then { x with leaving := true } else x } }).lineAsk
        p true m (64 * v.line) .c3 (some v.data) (.back p v.line)

/-- Put a line in front of a slice; the least recently used line of a full set leaves (R191). A whole-line write ends a failing
line (R192). -/
def State.sliceFill (s : State) (m : StackN) (p : Pos) (l : CLine) : State :=
  let g := (s.ut p).stg
  let rest := g.lines.filter fun x => x.line != l.line
  let same := rest.filter fun x => x.line % g.sets == l.line % g.sets && !x.leaving
  let s1 := s.modUt p fun u => { u with stg := { u.stg with
    lines := { l with leaving := false } :: rest, errList := if l.failing || !l.dirty then u.stg.errList else u.stg.errList.filter fun e => e != l.line } }
  if same.length < 16 then s1
  else match same.getLast? with
    | none => s1
    | some v => s1.evict m p v

/-- Write a dirty line back to its stack at once: a flush. Beyond the rules' words: log entry 23 (DESIGN CHOICE). -/
def State.writeBack (s : State) (m : StackN) (l : CLine) : State :=
  if l.dirty && !l.failing then s.modStack m fun k => k.write (64 * l.line) l.data else s

/-- A slice's answer to a read of a line: its data, uncorrectable, or a miss; what it drops and reports on the way (R191, R192). -/
def State.sliceRead (s : State) (m : StackN) (p : Pos) (a : Nat) : State × Option LineRd :=
  if (s.ut p).stg.errList.contains (a / 64) then (s, some .uncorrectable)
  else match (s.ut p).stg.line a with
    | none => (s, none)
    | some l =>
      if !l.failing then (s.sliceFill m p l, some (.data l.data))
      else if l.dirty then (s.sliceError p l.line, some .uncorrectable)
      else (s.modUt p fun u => { u with stg := { u.stg with lines := u.stg.lines.filter fun x => x.line != l.line } }, none)

/-- Read a line through its home slice in one step. -/
def State.lineGet (s : State) (m : StackN) (a : Nat) : State × LineRd :=
  match s.homeSlice m a with
  | none => let x := s.hbm[m].read a; (s.modStack m fun _ => x.1.served .c2, x.2)
  | some p =>
    match s.sliceRead m p a with
    | (s1, some r) => (s1, r)
    | (s1, none) =>
      let x := s1.hbm[m].read a
      let s2 := s1.modStack m fun _ => x.1.served .c2
      match x.2 with
      | .data bs => (s2.sliceFill m p { line := a / 64, data := bs, dirty := false, failing := false }, .data bs)
      | .uncorrectable => (s2, .uncorrectable)
/-- Write a whole line through its home slice in one step. -/
def State.linePut (s : State) (m : StackN) (a : Nat) (bs : List Byte) : State :=
  match s.homeSlice m a with
  | some p => s.sliceFill m p { line := a / 64, data := bs, dirty := true, failing := false }
  | none => s.modStack m fun k => (k.write a bs).served .c2

/-! ### Chart caches (R202, R203) -/

/-- First address of the 4,096 frames that hold a chart copy (R194). -/
def chartBase : Nat := (2 ^ 20 - 4096) * 65536
/-- The copy that a cache of bank b reads: its own while that is in use, else the other (R208). -/
def Chart.copyFor (c : Chart) : Bank → Option Bank
  | .west => if c.wValid then some .west else if c.eValid then some .east else none
  | .east => if c.eValid then some .east else if c.wValid then some .west else none
def Chart.home (c : Chart) : Bank → StackN
  | .west => Fin.ofNat 24 c.wHome.toNat
  | .east => Fin.ofNat 24 c.eHome.toNat
def Chart.valid (c : Chart) : Bank → Bool
  | .west => c.wValid
  | .east => c.eValid
def Chart.copy (c : Chart) : Bank → Tbl Word
  | .west => c.west
  | .east => c.east
/-- The copy that a stack's line belongs to, with the chart line: page number / 8. -/
def Chart.lineAt (c : Chart) (m : StackN) (a : Nat) : Option (Bank × Nat) :=
  if a < chartBase then none
  else if c.wValid && c.home .west == m then some (.west, (a - chartBase) / 64)
  else if c.eValid && c.home .east == m then some (.east, (a - chartBase) / 64)
  else none
/-- The eight entries of a chart line as the stack holds them. -/
def Chart.lineBytes (c : Chart) (b : Bank) (l : Nat) : List Byte :=
  (List.range 8).flatMap fun k => natBytes (tblGet 0 (c.copy b) (8 * l + k)).toNat 8
/-- Add to ACCESS of one copy, saturating (R203). -/
def Chart.addOne (c : Chart) (b : Bank) (page n : Nat) : Chart :=
  let up (e : Word) : Word := (e &&& put64 (2 ^ 48 - 1) 0 48) ||| put64 (min (entAccess e + n) 0xFFFF) 48 16
  match b with
  | .west => { c with west := tblPut 0 c.west page (up (tblGet 0 c.west page)) }
  | .east => { c with east := tblPut 0 c.east page (up (tblGet 0 c.east page)) }

/-- Write an entry into each copy in use, West first, in class C0 (R197, R208). -/
def State.putEntry (s : State) (page : Nat) (e : Word) : State :=
  let count (s : State) (b : Bank) : State := if s.chart.valid b then s.modStack (s.chart.home b) fun k => k.served .c0 else s
  (count (count s .west) .east).modChart fun c => c.put page e

/-- GO of CHT_COUNT_FLUSH: counts are still on their way. -/
def State.countsMove (s : State) : Bool := s.net.any fun q => match q.tag with | .count _ _ => true | _ => false
/-- A chart cache's private count goes to ACCESS of each copy in use, in class C0. -/
def State.sendCount (s : State) (p : Pos) (page n : Nat) : State :=
  let one (s : State) (b : Bank) : State :=
    if s.chart.valid b then s.lineAsk p false (s.chart.home b) (chartBase + 8 * page) .c0 (some []) (.count page n) else s
  if n = 0 then s else one (one s .west) .east

/-- A chart cache drops a page, and every read of its line that is under way; its private count goes into ACCESS. -/
def State.chartDrop (s : State) (p : Pos) (page : BitVec 25) : State :=
  let es := (s.ut p).cht.ents
  let n := match es.find? fun e => e.page == page with | some e => e.count.toNat | none => 0
  let l := page.toNat / 8
  let off (q : Packet) : Packet := if q.tag = .fill p l then { q with tag := .none } else q
  let s1 : State := { s with net := s.net.map off }
  (s1.modUt p fun u => { u with cht := { u.cht with
    ents := u.cht.ents.filter fun e => e.page != page
    pendFill := u.cht.pendFill.filter fun q => q.toNat / 8 != l } }).sendCount p page.toNat n

/-- Split a list, most recent first, into the entries a 4-way set keeps and those it evicts (R202). -/
def keepWays (ways : Nat) : List ChartEnt → List ChartEnt → List ChartEnt × List ChartEnt
  | _, [] => ([], [])
  | kept, e :: r =>
    if (kept.filter fun k => k.page.toNat % 1024 == e.page.toNat % 1024).length < ways then
      let x := keepWays ways (kept ++ [e]) r
      (e :: x.1, x.2)
    else let x := keepWays ways kept r; (x.1, e :: x.2)

/-- Read the lines of the pages that the cache neither holds nor has asked for, in class C0 from the copy of its bank (R202). -/
def State.askChart (s : State) (p : Pos) (pages : List Nat) : State :=
  pages.foldl (fun s n =>
    let c := (s.ut p).cht
    if (c.ents.any fun e => e.page.toNat == n) || (c.pendFill.any fun q => q.toNat / 8 == n / 8) then s
    else match s.chart.copyFor (bankOf p) with
      | none => s
      | some b =>
        (s.lineAsk p false (s.chart.home b) (chartBase + 8 * n) .c0 none (.fill p (n / 8))).modUt p fun u =>
          { u with cht := { u.cht with pendFill := u.cht.pendFill ++ [BitVec.ofNat 25 n] } }) s

/-- The line that holds a page's entry fills eight entries; evicted counts go into ACCESS. -/
def State.chartFill (s : State) (p : Pos) (page : BitVec 25) (bs : List Byte) : State :=
  let base := page.toNat / 8 * 8
  let old := (s.ut p).cht.ents
  let pages := page.toNat :: (List.range' base 8).filter fun n => n != page.toNat
  let fresh : List ChartEnt := pages.map fun n =>
    { page := BitVec.ofNat 25 n, entry := BitVec.ofNat 64 (bytesNat ((bs.drop (8 * (n % 8))).take 8))
      count := match old.find? fun e => e.page.toNat == n with | some e => e.count | none => 0 }
  let x := keepWays 4 [] (fresh ++ old.filter fun e => !pages.contains e.page.toNat)
  x.2.foldl (fun s e => s.sendCount p e.page.toNat e.count.toNat)
    (s.modUt p fun u => { u with cht := { u.cht with ents := x.1, pendFill := u.cht.pendFill.filter fun q => q.toNat / 8 != page.toNat / 8 } })

/-! ### The host window (R314, R328) -/

/-- A KCL port is UP. -/
def State.kclUp (s : State) : Bool := s.kports[0].state == 3 || s.kports[1].state == 3
/-- The port that carries an access at host window offset o (R314): even 4 KiB granules on K0 and odd ones on K1 while both are UP. -/
def State.hostPort (s : State) (o : Nat) : Option KPort :=
  match s.kports[0].state == 3, s.kports[1].state == 3 with
  | true, true => some (if o / 4096 % 2 = 0 then 0 else 1)
  | true, false => some 0
  | false, true => some 1
  | false, false => none
/-- The status of an access of n bytes at host window offset o: none where it is carried out. -/
def State.hostBad (s : State) (o n : Nat) : Option Status :=
  if s.intake.pcieRuntime then none
  else if o + n > s.intake.hwinLen.toNat then some .illegalDescriptor
  else if (s.hostPort o).isSome then none else some .partnerLost
def State.hostRead (s : State) (o n : Nat) : List Byte := memRead s.host o n
def State.hostWrite (s : State) (o : Nat) (bs : List Byte) : State := { s with host := memWrite s.host o bs }

/-- The host page that the backing entry of a page names (R492). -/
def State.backing (s : State) (page : Nat) : Option Nat :=
  let o := s.chart.backBase.toNat * 4096 + 8 * page
  if !s.chart.backEn || (s.hostBad o 8).isSome then none
  else
    let e := memW64 s.host o
    if bit e 32 && fld e 33 31 == 0 then some (fld e 0 32) else none

/-- Entries in the free-frame list that the panel has not taken (Table 11.4). -/
def State.freeFrame (s : State) : Option (Nat × Nat) :=
  let base := s.intake.ffl.base.toNat * 4096
  let size := 2 ^ s.intake.ffl.sizeLog2.toNat
  if !s.intake.ffl.en || (s.hostBad base (128 + 8 * size)).isSome then none
  else if memNat s.host base 4 = s.intake.fTaken.toNat then none
  else
    let e := memW64 s.host (base + 128 + 8 * (s.intake.fTaken.toNat % size))
    some (fld e 0 5, fld e 5 20)
/-- Take the frame: line 1 of the list tells the runtime. -/
def State.takeFrame (s : State) : State :=
  let n := s.intake.fTaken + 1
  { s.hostWrite (s.intake.ffl.base.toNat * 4096 + 64) (natBytes n.toNat 4) with intake := { s.intake with fTaken := n } }

/-! ### Companion-held lines (R310 to R313) -/

/-- The line of a model address. -/
def lineNo (a : Nat) : BitVec 35 := BitVec.ofNat 35 (a / 64)
/-- The companion holds the line; exclusively. -/
def State.held (s : State) (a : Nat) : Option Bool := (s.intake.dir.find? fun e => e.1 == lineNo a).map fun e => e.2
/-- A panel access must wait for the companion's copy. -/
def State.mustSnoop (s : State) (a : Nat) (write : Bool) : Bool :=
  match s.held a with
  | none => false
  | some ex => ex || write
/-- Send SNP_INV for a line, once. -/
def State.snoop (s : State) (a : Nat) : State :=
  if s.intake.snooping.any fun e => e.1 == lineNo a then s
  else { s with intake := { s.intake with
    snooping := s.intake.snooping ++ [(lineNo a, s.now)], out := s.intake.out ++ [.snpInv (BitVec.ofNat 41 (a / 64 * 64))] } }

/-- Grant a line to the companion: the newest grant stands last. -/
def State.grant (s : State) (a : Nat) (own : Bool) : State :=
  { s with intake := { s.intake with dir := (s.intake.dir.filter fun e => e.1 != lineNo a) ++ [(lineNo a, own)] } }

/-! ### Engines' accesses (R246, R297, R310) -/

/-- What an engine's access begins with: its requests by offset, a wait for the page's entry (R491), or a status. -/
inductive Plan where
  | go (qs : List (Nat × Packet))
  | waits
  | ends (st : Status)
  deriving DecidableEq, Repr

def State.errand (s : State) (id : Nat) : Option Errand := s.errands.find? fun e => e.id == id
def State.dropErrand (s : State) (id : Nat) : State := { s with errands := s.errands.filter fun e => e.id != id }
/-- What the access is for that a request belongs to. -/
def State.workOf (s : State) (q : Packet) : Option Work :=
  match q.tag with
  | .errand id _ => (s.errand id).map fun e => e.work
  | _ => none
/-- A line request must wait at its home slice for the companion's copy (R311); the companion's own copies and data that it gives back do
not. -/
def State.mustWait (s : State) (q : Packet) : Bool :=
  match q.tag with
  | .stream _ _ _ => s.mustSnoop q.base.toNat q.write
  | .errand _ _ => match s.workOf q with
    | some (.kcl (.rdShared _ _ _)) => false
    | some (.back _ _) => false
    | some _ => s.mustSnoop q.base.toNat q.write
    | none => false
  | _ => false
/-- A line that is read for the companion to keep is granted as the home slice serves it. -/
def State.grantFor (s : State) (q : Packet) : State :=
  match s.workOf q with
  | some (.kcl (.rdShared _ addr own)) => s.grant addr.toNat own
  | _ => s

/-- The answers that the access waits for are one less. -/
def Errand.answer (e : Errand) (off : Nat) (st : Status) (data : List Byte) : Errand :=
  { e with left := e.left - 1, worst := if e.worst = .done then st else e.worst, got := e.got ++ [(off, data)] }
/-- The data read, in order of offset, for the n pieces of the access. -/
def Errand.piece (e : Errand) (off : Nat) : List Byte := match e.got.find? fun g => g.1 == off with | some g => g.2 | none => []
/-- An engine at a position, or on a Canal die, sends the requests of one access. -/
def State.errandStart (s : State) (p : Option Pos) (w : Work) (qs : List (Nat × Packet)) : State :=
  let id := s.nextPkt
  let send (s : State) (e : Nat × Packet) : State :=
    let q : Packet := { e.2 with tag := .errand id e.1 }
    match p with | some p => s.ask p q | none => s.emit q
  qs.foldl send { s with errands := s.errands ++ [{ id := id, work := w, left := qs.length, worst := .done, got := [] }] }

/-! ### Translation (R200, R491) -/

/-- What a model address translates to. -/
inductive Tr where
  | at_ (m : StackN) (a : Nat) (e : Word)
  | wait                    -- MIGRATING is set
  | absent                  -- no HBM location
  deriving DecidableEq, Repr
def State.translate (s : State) (a : Nat) : Tr :=
  let e := s.entry (a / 65536)
  if entMig e then .wait
  else if entHere e then .at_ (entStack e) (entFrame e * 65536 + a % 65536) e
  else .absent

/-- The requests for n lines from model address a, in class C2 through their home slices (R297); b carries the source and its step tag.
An RO page refuses a write, a Moored panel every write (R310, R434). -/
def State.linePlan (s : State) (b : Packet) (a : Nat) : List (Nat × Option (List Byte)) → Plan
  | [] => .go []
  | (off, w) :: r =>
    if w.isSome && s.lkh.pstate == .moored then .ends .noRights
    else match s.translate (a + off) with
      | .wait => .waits
      | .absent => .ends .pageNotPresent
      | .at_ m x e =>
        if w.isSome && entRo e then .ends .noRights
        else match s.linePlan b a r with
          | .go qs =>
            let d := match s.homeSlice m x with | some q => q | none => rowEnd m
            .go ((off, { b with
              type := 9, vc := 2, dkind := 1, dest := BitVec.ofNat 8 d.val, addr := put64 m.val 36 5 ||| put64 (x / 64 * 64) 0 36
              cls := .c2, base := BitVec.ofNat 64 (a + off), write := w.isSome, length := if w.isSome then 64 else 0
              payload := w.getD [] }) :: qs)
          | y => y

/-- What an access by line does: done with a status and the data read, or it waits. -/
inductive Acc where
  | ended (s : State) (st : Status) (bs : List Byte)
  | waits (s : State)

/-- Read or write the 64-byte line at a model address through the page chart: an RO page refuses a write, a Moored panel every
write (R310, R434), and a lost stack answers as its lost row end does (R258). -/
def State.modelLine (s : State) (a : Nat) (w : Option (List Byte)) : Acc :=
  if w.isSome && s.lkh.pstate == .moored then .ended s .noRights []
  else
  match s.translate a with
  | .wait => .waits s
  | .absent => .ended s .pageNotPresent []
  | .at_ m b e =>
    if w.isSome && entRo e then .ended s .noRights []
    else if s.hbm[m].lost || !s.hbm[m].present then .ended s .tileFenced []
    else if s.mustSnoop a w.isSome then .waits (s.snoop a)
    else match w with
      | some bs => .ended (s.linePut m b bs) .done []
      | none => match s.lineGet m b with
        | (s1, .uncorrectable) => .ended s1 .memoryUncorrectable []
        | (s1, .data bs) => .ended s1 .done bs

/-- Read or write n lines one after the other; it ends at the first status that is not DONE. -/
def State.modelLines (s : State) (a : Nat) : Nat → Option (List Byte) → List Byte → Acc
  | 0, _, out => .ended s .done out
  | n + 1, w, out =>
    match s.modelLine a (w.map fun bs => bs.take 64) with
    | .waits s1 => .waits s1
    | .ended s1 st bs => if st = .done then s1.modelLines (a + 64) n (w.map fun bs => bs.drop 64) (out ++ bs) else .ended s1 st []

end Sys2Proof.Machine
end

