-- ==== Sys2Proof/Machine/Flags.lean ====
section
/-! DEFINITION. The values that instructions write into predicates, and the row flags of the matrix unit: the panel has
no condition codes (R92, Table 6.3). -/

namespace Sys2Proof.Machine

open Sys2Proof

def cmpEq (a b : Word) : Bool := a == b
def cmpNe (a b : Word) : Bool := a != b
def cmpLt (a b : Word) : Bool := a.slt b
def cmpLtu (a b : Word) : Bool := a.ult b
def cmpLe (a b : Word) : Bool := a.sle b
def cmpLeu (a b : Word) : Bool := a.ule b
/-- Low words compared as FP32; false with a NaN. -/
def fcmpLt (a b : Word) : Bool := f32Lt (a.truncate 32) (b.truncate 32)
def fcmpEq (a b : Word) : Bool := f32Eq (a.truncate 32) (b.truncate 32)
def fcmpLe (a b : Word) : Bool := f32Le (a.truncate 32) (b.truncate 32)

/-- The word MFLAGS returns: INEXACT, OVF, saturating count of rounding events (Table 6.6). -/
def rowFlags (inexact ovf : Bool) (n : Nat) : Word := BitVec.ofNat 64 (b2n inexact + 2 * b2n ovf + 4 * min n 0xFFF)

end Sys2Proof.Machine
end

