-- ==== Sys2Proof/Machine/Formats.lean ====
section
/-! DEFINITION. The block formats of chapter 04: element values (R95 to R97, R486), conversion into a block (R105 to R108)
and out of it (R109), and the packing of elements (Table 4.3). -/

namespace Sys2Proof.Machine

open Sys2Proof

/-! ### Logarithmic elements -/

/-- Table 4.8. -/
def lnsT : Nat → Nat
  | 0 => 8388608 | 1 => 8760003 | 2 => 9147842 | 3 => 9552851 | 4 => 9975792 | 5 => 10417458 | 6 => 10878679
  | 7 => 11360319 | 8 => 11863283 | 9 => 12388516 | 10 => 12937002 | 11 => 13509772 | 12 => 14107901 | 13 => 14732511
  | 14 => 15384775 | _ => 16065917

/-- Sign and logarithm in sixteenths of an LNS element; none for the zero code (R96, R97). -/
def lnsParts (lns4 : Bool) (c : Nat) : Option (Bool × Int) :=
  if lns4 then
    let m : Int := ((BitVec.ofNat 3 c).toInt)
    if m = -4 then none else some (decide ((c >>> 3) % 2 = 1), 8 * m)
  else
    let m : Int := ((BitVec.ofNat 7 c).toInt)
    if m = -64 then none else some (decide ((c >>> 7) % 2 = 1), m)

/-- (−1)^s × T[f] × 2^(i − 23) for a logarithm of q sixteenths. -/
def lnsLin (neg : Bool) (q : Int) : FV :=
  let i := q.fdiv 16
  .fin neg (lnsT (q - 16 * i).toNat) (i - 23)

/-! ### Element values -/

/-- An MX float element: mantissa bits, exponent bits, bias, emax, largest finite magnitude code (Table 4.4). -/
structure MxFmt where
  mbits : Nat
  ebits : Nat
  bias : Int
  emax : Int
  top : Nat
  deriving DecidableEq, Repr

def mxFmt (f : Nat) : MxFmt :=
  match f with
  | 3 => { mbits := 3, ebits := 4, bias := 7, emax := 8, top := 0x7E }
  | 4 => { mbits := 2, ebits := 5, bias := 15, emax := 15, top := 0x7B }
  | 5 => { mbits := 2, ebits := 3, bias := 3, emax := 4, top := 0x1F }
  | 6 => { mbits := 3, ebits := 2, bias := 1, emax := 2, top := 0x1F }
  | _ => { mbits := 1, ebits := 2, bias := 1, emax := 2, top := 0x7 }

/-- emax of scale selection for every block format (R105). -/
def blockEmax (f : Nat) : Int := if f = 8 then 0 else if f = 9 then 3 else if f = 0xA then 1 else (mxFmt f).emax

def mxDecode (f c : Nat) : FV :=
  let x := mxFmt f
  let mag := c % 2 ^ (x.mbits + x.ebits)
  let neg := decide ((c >>> (x.mbits + x.ebits)) % 2 = 1)
  let ex := mag >>> x.mbits
  let m := mag % 2 ^ x.mbits
  if f = 3 && mag == 0x7F then .nan
  else if f = 4 && decide (mag > 0x7C) then .nan
  else if f = 4 && mag == 0x7C then .inf neg
  else if ex = 0 then .fin neg m (1 - x.bias - (x.mbits : Nat))
  else .fin neg (m + 2 ^ x.mbits) ((ex : Int) - x.bias - (x.mbits : Nat))

/-- The value of an element without its scale; the scalar formats included. A zero LNS code is +0. -/
def elemVal (f c : Nat) : FV :=
  match f with
  | 0 => ffDecode fp32 c
  | 1 => ffDecode fp16 c
  | 2 => ffDecode bf16 c
  | 8 => let v := (BitVec.ofNat 8 c).toInt; .fin (decide (v < 0)) v.natAbs (-6)
  | 9 => match lnsParts false c with | some (s, q) => lnsLin s q | none => .fin false 0 0
  | 0xA => match lnsParts true c with | some (s, q) => lnsLin s q | none => .fin false 0 0
  | _ => mxDecode f c

/-- Multiply by a power of two. -/
def FV.scale (v : FV) (k : Int) : FV :=
  match v with
  | .fin n m e => .fin n m (e + k)
  | o => o

/-- An element with its block's scale code (R95). -/
def scaledVal (f c sc : Nat) : FV := if sc = 0xFF then .nan else (elemVal f c).scale ((sc : Int) - 127)

/-! ### Into a block (R105 to R108) -/

def FV.special : FV → Bool
  | .fin _ _ _ => false
  | _ => true

/-- floor (log2 |v|) of a finite non-zero value. -/
def FV.flog2 : FV → Option Int
  | .fin _ m e => if m = 0 then none else some (e + (Nat.log2 m : Nat))
  | _ => none

/-- The unbiased scale exponent of a block. -/
def blockX (f : Nat) (vs : List FV) : Int :=
  match (vs.filterMap FV.flog2) with
  | [] => -127
  | a :: r => max (-127) (min 127 (r.foldl max a - blockEmax f))

def intRound (m : Nat) (e : Int) : Nat := if 0 ≤ e then m <<< e.toNat else rneShift m (-e).toNat

/-- One element converted at scale exponent X. -/
def elemEncode (f : Nat) (x : Int) : FV → Nat
  | .nan => if f = 3 then 0x7F else if f = 4 then 0x7E else 0
  | .inf n => if f = 3 then 0x7F else if f = 4 then (if n then 0xFC else 0x7C) else 0
  | .fin n m e0 =>
    let e := e0 - x
    match f with
    | 8 =>
      let v := min 127 (intRound m (e + 6))
      if n && v != 0 then 256 - v else v
    | 9 =>
      if m = 0 then 0x40
      else
        let l : Int := 32 * e + (Nat.log2 (m ^ 32) : Nat)
        let k := (l + 1).fdiv 2
        if k < -63 then 0x40 else (if n then 0x80 else 0) + (fromInt 7 (min k 63)).toNat
    | 0xA =>
      if m = 0 then 0x4
      else
        let l : Int := 4 * e + (Nat.log2 (m ^ 4) : Nat)
        let k := (l + 1).fdiv 2
        if k < -3 then 0x4 else (if n then 0x8 else 0) + (fromInt 3 (min k 3)).toNat
    | _ =>
      let g := mxFmt f
      let s := if n then 2 ^ (g.mbits + g.ebits) else 0
      if m = 0 then s
      else
        let low : Int := 1 - g.bias - (g.mbits : Nat)
        let q := max (e + (Nat.log2 m : Nat) - (g.mbits : Nat)) low
        let r := intRound m (e - q)
        let rq := if r ≥ 2 ^ (g.mbits + 1) then (r / 2, q + 1) else (r, q)
        let code := if rq.1 < 2 ^ g.mbits then rq.1 else (rq.2 - low + 1).toNat * 2 ^ g.mbits + (rq.1 - 2 ^ g.mbits)
        s + min code g.top

/-- A block converted: scale code and element codes (Table 4.9 for special values). -/
def blockEncode (f : Nat) (vs : List FV) : Nat × List Nat :=
  if f ≠ 3 ∧ f ≠ 4 ∧ vs.any FV.special then (0xFF, vs.map fun _ => 0)
  else
    let x := blockX f vs
    ((x + 127).toNat, vs.map (elemEncode f x))

/-- A value rounded to a scalar format code (R110). -/
def scalarEncode (f : Nat) (v : FV) : Nat := ffRound (if f = 1 then fp16 else if f = 2 then bf16 else fp32) v

/-! ### Packing (Table 4.3) -/

/-- Elements of w bits, the first lowest. -/
def packBits (w : Nat) : List Nat → Nat
  | [] => 0
  | x :: xs => x % 2 ^ w + 2 ^ w * packBits w xs

/-- Element e of w bits in a little-endian number. -/
def unpackAt (w e n : Nat) : Nat := (n >>> (w * e)) % 2 ^ w

/-- A list cut into groups of 32. -/
def groups32 {α : Type} : Nat → List α → List (List α)
  | 0, _ => []
  | n + 1, l => match l with
    | [] => []
    | _ => l.take 32 :: groups32 n (l.drop 32)

end Sys2Proof.Machine
end

