-- ==== Sys2Proof/Machine/MatGeom.lean ====
section
/-! DEFINITION. Formats and shapes of the matrix unit: format pairs, depth and interval (Table 3.3), modes (Table 3.4),
stretch (R70), step and load latency (Table 3.5), operand words (Table 6.6). -/

namespace Sys2Proof.Machine

open Sys2Proof

/-- Element bits of a format code (Table 6.2). -/
def fmtBits (f : Nat) : Nat :=
  match f with
  | 0 => 32 | 1 => 16 | 2 => 16 | 3 => 8 | 4 => 8 | 5 => 6 | 6 => 6 | 7 => 4 | 8 => 8 | 9 => 8 | 0xA => 4 | 0xB => 32 | _ => 0
/-- A block format with an E8M0 scale per block. -/
def fmtBlock (f : Nat) : Bool := decide (3 ≤ f) && decide (f ≤ 0xA)

/-- Format pairs of Table 3.3. -/
def pairOk (wf af : Nat) (strict : Bool) : Bool :=
  if strict then wf == af && decide (wf ≤ 2)
  else if wf = 3 ∨ wf = 4 then af == 3 || af == 4
  else if wf = 5 ∨ wf = 6 then af == 5 || af == 6
  else if wf = 7 then decide (3 ≤ af) && decide (af ≤ 7)
  else if wf = 8 ∨ wf = 9 ∨ wf = 0xA ∨ wf = 1 ∨ wf = 2 then af == wf
  else false

/-- Products per cell per cycle. -/
def prodsPerCell (wf : Nat) : Nat := if wf = 7 ∨ wf = 9 then 2 else if wf = 0xA then 4 else 1

def modeCount : MMode → Nat
  | .whole => 1 | .halves => 2 | .quarters => 4 | .tiles32 => 64 | .tiles16 => 256
/-- Cell rows of one submatrix. -/
def modeRows : MMode → Nat
  | .whole => 128 | .halves => 128 | .quarters => 128 | .tiles32 => 32 | .tiles16 => 16
/-- Columns of one submatrix; a narrow core splits 480 (R64). -/
def modeCols (narrow : Bool) : MMode → Nat
  | .whole => if narrow then 480 else 512
  | .halves => if narrow then 240 else 256
  | .quarters => 128 | .tiles32 => 32 | .tiles16 => 16
/-- Accumulator rows that a step writes (R69). -/
def modeRps : MMode → Nat
  | .tiles32 => 4 | .tiles16 => 8 | _ => 1
/-- Largest log2 of the broadcast factor (Table 3.4). -/
def modeMaxLogB : MMode → Nat
  | .whole => 0 | .halves => 1 | .quarters => 2 | .tiles32 => 4 | .tiles16 => 5
def modeOf (n : Nat) : Option MMode :=
  match n with
  | 0 => some .whole | 1 => some .halves | 2 => some .quarters | 3 => some .tiles32 | 4 => some .tiles16 | _ => none

namespace MConf

def isInt (c : MConf) : Bool := c.wf == 8
/-- Depth K of a submatrix. -/
def depth (c : MConf) : Nat := modeRows c.mode * prodsPerCell c.wf.toNat
def interval (c : MConf) : Nat := if c.strict then 16 else if c.wf == 1 || c.wf == 2 then 4 else 1
/-- Cell-row inputs per step without broadcast (Table 3.4). -/
def inputs (c : MConf) : Nat := modeCount c.mode * modeRows c.mode
/-- Bits of one cell-row input, which is what a row of cells consumes in one cycle (below Table 3.4): a 16-bit or FP32 element is
spread over its step interval, and the input of a two-element format is 1 byte. Beyond the rules' words: log entry 12 (DEDUCED). -/
def inputBits (c : MConf) : Nat :=
  match c.wf.toNat with
  | 0 => 2 | 1 => 16 / c.interval | 2 => 16 / c.interval | 5 => 6 | 6 => 6 | 0xA => 16 | _ => 8
/-- R70. Beyond the rules' words: log entry 12 (DEDUCED). -/
def stretch (c : MConf) : Nat :=
  max 1 (max (cdiv c.inputs (1024 * 2 ^ c.logb)) (cdiv (c.inputs * c.inputBits) (8192 * 2 ^ c.logb)))
/-- Interval times stretch. -/
def step (c : MConf) : Nat := c.interval * c.stretch
/-- L_step of Table 3.5. -/
def lstep (c : MConf) : Nat :=
  if c.strict then 76
  else match c.wf.toNat with
    | 7 => 38 | 9 => 38 | 0xA => 40 | 1 => 44 | 2 => 44 | _ => 36
/-- Accumulator rows (R68). -/
def rows (c : MConf) : Nat := if c.isInt then 256 else 512
/-- Distinct activation vectors of a step, V of R158. -/
def vecs (c : MConf) : Nat := modeCount c.mode / 2 ^ c.logb

end MConf

/-- Blocks of a vector or column of k elements: 1 for a short block (R487), none for a scalar format. -/
def blocksOf (f k : Nat) : Nat := if fmtBlock f then (if k < 32 then 1 else k / 32) else 0
/-- The k that a format admits at depth K (R487). -/
def kOk (f depth k : Nat) : Bool :=
  decide (k ≤ depth) && (!fmtBlock f || k % 32 == 0 || decide (depth < 32))
/-- A submatrix that a narrow core lacks (R156). -/
def missing (m : MMode) (narrow : Bool) (q : Nat) : Bool :=
  narrow && (match m with | .tiles32 => q % 16 == 15 | .tiles16 => decide (q % 32 ≥ 30) | _ => false)
/-- Presented columns N. -/
def presented (narrow : Bool) : Nat := if narrow then 480 else 512

/-! ### Operand words (Table 6.6) -/

/-- The configuration an MCONF word names. -/
def mconfOf (w : Word) : Option MConf :=
  match modeOf (fld w 8 3) with
  | none => none
  | some m =>
    let wf := fld w 0 4
    let af := fld w 4 4
    let strict := bit w 14
    let q := (w.extractLsb' 16 10).toInt
    if bit w 15 || decide (fld w 26 38 ≠ 0) || !pairOk wf af strict || decide (fld w 11 3 > modeMaxLogB m) ||
        (wf != 8 && decide (q ≠ 0)) then none
    else some { wf := BitVec.ofNat 4 wf, af := BitVec.ofNat 4 af, mode := m, logb := fld w 11 3, strict := strict, q := q }

def mlK (w : Word) : Nat := fld w 0 10
def mlN (w : Word) : Nat := fld w 10 10
def mlQ0 (w : Word) : Nat := fld w 20 8
def mlNq (w : Word) : Nat := fld w 28 9
def msC (w : Word) : Nat := fld w 0 16
def msBase (w : Word) : Nat := fld w 16 9
def msK (w : Word) : Nat := fld w 25 10
def mdFirst (w : Word) : Nat := fld w 0 9
def mdM (w : Word) : Nat := fld w 9 10
def mdClear (w : Word) : Bool := bit w 19

/-- A zero k, n, nq, step count or row count: a no-op (R71). -/
def mZero (op : Nat) (w : Word) : Bool :=
  if op = 2 then mlK w == 0 || mlN w == 0 || mlNq w == 0
  else if op = 3 then msC w == 0 || msK w == 0
  else if op = 4 then mdM w == 0
  else false

/-- The configuration in force in cycle cc: an MCONF takes effect two cycles after its issue (Table 6.7). -/
def Matrix.confAt (m : Matrix) (cc : Nat) : MConf :=
  match m.confDue with
  | some (d, c) => if d ≤ cc then c else m.conf
  | none => m.conf

/-- The storage rows of accumulator row r: MXINT8 row r occupies FP32 rows 2r and 2r + 1 (Table 3.11). -/
def rowKeys (isInt : Bool) (r : Nat) : List Nat := if isInt then [2 * r, 2 * r + 1] else [r]

/-- The row's storage was last written under the other accumulation kind. -/
def kindClash (m : Matrix) (isInt : Bool) (r : Nat) : Bool :=
  (rowKeys isInt r).any fun k =>
    match (tblGet {} m.rows k).kind with
    | .cleared => false
    | .float => isInt
    | .mxint => !isInt

/-- Drain formats (Table 6.6). -/
def drainOk (c : MConf) (f : Nat) : Bool := decide (f ≤ 3) || (f == 0xB && c.isInt)

end Sys2Proof.Machine
end

