-- ==== Sys2Proof/Machine/Array.lean ====
section
/-! DEFINITION. The arithmetic of the matrix array: fast and strict columns (R100 to R103), MXINT8 columns (R68), the check
lane (3.7, R495), the comparison at a drain (R79, R80) and the conversion of a drained row (R78, R110, R111). -/

namespace Sys2Proof.Machine

open Sys2Proof

/-! ### Sums -/

def FV.pos : FV → Bool
  | .fin false m _ => decide (m ≠ 0)
  | _ => false
/-- The exact sum of the products of a block; a zero sum is −0 unless some non-zero product has a sign of + (R101). -/
def blockSum (ps : List FV) : FV :=
  match ps.foldl FV.add (.fin true 0 0) with
  | .fin n m e => if m = 0 then .fin (!ps.any FV.pos) 0 0 else .fin n m e
  | v => v
/-- An exact sum. -/
def sumFV (ps : List FV) : FV := ps.foldl FV.add (.fin false 0 0)

/-- A subnormal result becomes a zero of its sign (R100). -/
def flush32 (x : F32) : F32 := if fld x 23 8 = 0 then x &&& 0x80000000 else x
/-- One accumulation of the fast mode. -/
def fastAdd (acc : F32) (v : FV) : F32 := flush32 (rnd32 ((dec32 acc).add v))

/-- The product of two elements without their scales; LNS by R98. -/
def elemMul (wf af a w : Nat) : FV :=
  if wf = 9 ∨ wf = 0xA then
    match lnsParts (wf == 0xA) a, lnsParts (wf == 0xA) w with
    | some (sa, qa), some (sw, qw) => lnsLin (sa != sw) (qa + qw)
    | _, _ => .fin false 0 0
  else (elemVal af a).mul (elemVal wf w)

/-- Scale exponent of a block; none for code 0xFF. A scalar format has exponent 0. -/
def scaleX (f : Nat) (scs : List Nat) (b : Nat) : Option Int :=
  if fmtBlock f then (let c := scs.getD b 0x7F; if c = 0xFF then none else some ((c : Int) - 127)) else some 0

/-- A list with its blocks of 32, numbered. -/
def blocks32 {α : Type} (l : List α) : List (Nat × List α) := (List.range (cdiv l.length 32)).map fun b => (b, (l.drop (32 * b)).take 32)

/-! ### Columns -/

/-- R100: a vector of activations with a column of weights, blocks ascending. -/
def fastColumn (wf af : Nat) (a sa w sw : List Nat) (acc : F32) : F32 :=
  (blocks32 (a.zip w)).foldl (fun acc b =>
    match scaleX af sa b.1, scaleX wf sw b.1 with
    | some xa, some xw => fastAdd acc ((blockSum (b.2.map fun p => elemMul wf af p.1 p.2)).scale (xa + xw))
    | _, _ => fastAdd acc .nan) acc

/-- R103. -/
def strictColumn (f : Nat) (a w : List Nat) (acc : F32) : F32 :=
  (a.zip w).foldl (fun acc p => f32Add acc (rnd32 ((elemVal f p.1).mul (elemVal f p.2)))) acc

/-- v × 2^k rounded to an integer, ties to even. -/
def intShift (v k : Int) : Int := sgn (decide (v < 0)) (intRound v.natAbs k)
/-- A 64-bit addition that wraps, and whether it overflowed (R68). -/
def wrapAdd (acc : Word) (u : Int) : Word × Bool :=
  let t := acc.toInt + u
  (BitVec.ofInt 64 t, decide ((BitVec.ofInt 64 t).toInt ≠ t))

def int8 (c : Nat) : Int := (BitVec.ofNat 8 c).toInt
/-- R68: the accumulator, the blocks whose rounding changed the value, OVF. -/
def intColumn (q : Int) (a sa w sw : List Nat) (acc : Word) : Word × List Nat × Bool :=
  (blocks32 (a.zip w)).foldl (fun (acc, rounded, ovf) b =>
    match scaleX 8 sa b.1, scaleX 8 sw b.1 with
    | some xa, some xw =>
      let s := b.2.foldl (fun t p => t + int8 p.1 * int8 p.2) 0
      let k := xa + xw - 12 - q
      let u := intShift s k
      let r := wrapAdd acc u
      (r.1, (if k < 0 ∧ u * 2 ^ (-k).toNat ≠ s then b.1 :: rounded else rounded), ovf || r.2)
    | _, _ => (acc, rounded, true)) (acc, [], false)

/-! ### Weights of a submatrix -/

/-- The zero code of a format. -/
def zeroCode (f : Nat) : Nat := if f = 9 then 0x40 else if f = 0xA then 0x4 else 0

/-- Column j fitted to depth k: weights beyond the load are zero (3.4.1). -/
def SubMat.col (m : SubMat) (f k j : Nat) : List Nat :=
  let l := if j < m.n then (((m.els.drop (j * m.k)).take m.k).map BitVec.toNat).take k else []
  l ++ List.replicate (k - l.length) (zeroCode f)
def SubMat.colScales (m : SubMat) (f j : Nat) : List Nat :=
  if j < m.n then ((m.scs.drop (j * blocksOf f m.k)).take (blocksOf f m.k)).map BitVec.toNat else []
/-- A region that no load has written. -/
def SubMat.empty : SubMat := { k := 0, n := 0, els := [], scs := [] }

/-- Weights of a column with their scales. -/
def SubMat.colVals (m : SubMat) (f k j : Nat) : List FV :=
  let sc := m.colScales f j
  (m.col f k j).mapIdx fun i c => match scaleX f sc (i / 32) with | some x => (elemVal f c).scale x | none => .nan

/-- The check sum at each K index: rounded to FP32, exact under MXINT8 (3.7). -/
def SubMat.checkSums (m : SubMat) (f k : Nat) : List FV :=
  let s := (List.range m.n).foldl (fun acc j => List.zipWith FV.add acc (m.colVals f k j)) (List.replicate k (.fin false 0 0))
  if f = 8 then s else s.map fun v => dec32 (rnd32 v)

/-! ### Envelope (3.7) -/

/-- The smallest power of two not less than |v|, as a value; 0 for zero. -/
def pow2Above : FV → FV
  | .fin _ m e =>
    if m = 0 then .fin false 0 0
    else if m = 2 ^ Nat.log2 m then .fin false m e else .fin false (2 ^ (Nat.log2 m + 1)) e
  | _ => .inf false
/-- The larger of two magnitudes. -/
def maxAbs (a b : FV) : FV :=
  let x : FV := match a with | .fin _ m e => .fin false m e | _ => .inf false
  let y : FV := match b with | .fin _ m e => .fin false m e | _ => .inf false
  if x.lt y then y else x
/-- The bound of a list of values. -/
def boundOf (l : List FV) : FV := pow2Above (l.foldl maxAbs (.fin false 0 0))
/-- An infinite bound stays infinite, also against a zero. -/
def mulBound (a b : FV) : FV :=
  match a.mul b with
  | .nan => .inf false
  | v => v
/-- Round a magnitude to FP32 towards +∞. -/
def up32 : FV → F32
  | .fin _ m e => let t := ffTrunc fp32 false m e; BitVec.ofNat 32 (if t.2 then t.1 + 1 else t.1)
  | _ => 0x7F800000

/-- What one step adds to G for one submatrix: 32 × A_b × the sum over columns of W_bj, over blocks; W_bj bounds every weight that
the load put into the block. -/
def envTerms (wf af : Nat) (a sa : List Nat) (m : SubMat) : List FV :=
  let k := a.length
  (blocks32 a).map fun b =>
    let av := b.2.map fun c => match scaleX af sa b.1 with | some x => (elemVal af c).scale x | none => .nan
    let ws := sumFV ((List.range m.n).map fun j => boundOf (((m.colVals wf (max k m.k) j).drop (32 * b.1)).take 32))
    let cnt := if fmtBlock af then b.2.length else 32
    let ab := boundOf av
    match ab with
    | .fin _ 0 _ => .fin false 0 0
    | _ => (mulBound ab ws).mul (.fin false cnt 0)

/-! ### The check lane (R495) -/

/-- Activations, their scales and the check sums of each submatrix that writes the row. -/
abbrev ChkPart := List Nat × List Nat × List FV

/-- The products of one block, each with its activation block's scale. -/
def chkBlock (af b : Nat) (parts : List ChkPart) : List FV :=
  parts.flatMap fun p =>
    let x := scaleX af p.2.1 b
    (((p.1.zip p.2.2).drop (32 * b)).take 32).map fun q =>
      match x with | some x => ((elemVal af q.1).mul q.2).scale x | none => .nan

def chkFast (af k : Nat) (parts : List ChkPart) (acc : F32) : F32 :=
  (List.range (cdiv k 32)).foldl (fun acc b => fastAdd acc (blockSum (chkBlock af b parts))) acc
def chkStrict (f k : Nat) (parts : List ChkPart) (acc : F32) : F32 :=
  (List.range k).foldl (fun acc i => parts.foldl (fun acc p =>
    f32Add acc (rnd32 ((elemVal f (p.1.getD i 0)).mul (p.2.2.getD i (.fin false 0 0))))) acc) acc
/-- Under MXINT8 the exact sum is added in units of 2^Q; a block with a NaN scale adds nothing, its row carries OVF. -/
def chkInt (q : Int) (k : Nat) (parts : List ChkPart) (acc : Word) : Word :=
  (List.range (cdiv k 32)).foldl (fun acc b =>
    match sumFV (chkBlock 8 b parts) with
    | .fin n m e => (wrapAdd acc (sgn n (intRound m (e - q)))).1
    | _ => acc) acc

/-! ### Rows -/

def zeroOut (isInt : Bool) : Word := if isInt then 0 else 0x80000000
def AccRow.outN (r : AccRow) (isInt : Bool) (n : Nat) : List Word := r.outs ++ List.replicate (n - r.outs.length) (zeroOut isInt)
/-- The check value; a cleared row holds −0, or 0 under MXINT8 (R77). -/
def AccRow.chk (r : AccRow) (isInt : Bool) : Word := if r.kind = .cleared then zeroOut isInt else r.check

def f32w (f : F32 → F32) (x : Word) : Word := (f (x.truncate 32)).zeroExtend 64

/-- Row r as the present configuration reads it. -/
def Matrix.row (m : Matrix) (isInt : Bool) (r : Nat) : AccRow := tblGet {} m.rows ((rowKeys isInt r).headD 0)
/-- Store row r; under MXINT8 it occupies two storage rows. -/
def Matrix.setRow (m : Matrix) (isInt : Bool) (r : Nat) (a : AccRow) : Matrix :=
  let rows := tblPut {} m.rows ((rowKeys isInt r).headD 0) a
  { m with rows := if isInt then tblPut {} rows (2 * r + 1) { ({} : AccRow) with kind := a.kind, conf := a.conf } else rows }
/-- A SET has been issued for row r: an ADD issued after it is held against its configuration (Table 3.11). -/
def Matrix.tagRow (m : Matrix) (c : MConf) (r : Nat) : Matrix :=
  (rowKeys c.isInt r).foldl (fun m k => { m with rows := tblPut {} m.rows k { tblGet {} m.rows k with conf := some c } }) m

/-- One submatrix of a step: activations, scales, its weights, its columns. -/
structure Part where
  acts : List Nat
  scs : List Nat
  sub : SubMat
  col0 : Nat

/-- The submatrices that write the row of an accumulator write, ascending. -/
def MWrite.parts (w : MWrite) (narrow : Bool) : List Part :=
  let md := w.conf.mode
  let per := modeCount md / modeRps md
  (List.range per).filterMap fun g =>
    let q := w.rowInStep * per + g
    if missing md narrow q then none
    else
      let v := w.acts.getD (q / 2 ^ w.conf.logb) ([], [])
      some { acts := v.1.map BitVec.toNat, scs := v.2.map BitVec.toNat,
             sub := (tblGet none w.subs q).getD SubMat.empty, col0 := g * modeCols narrow md }

/-- Replace n elements of a list from i on by f of them. -/
def mapRange {α : Type} (l : List α) (i n : Nat) (f : Nat → α → α) : List α :=
  l.mapIdx fun j x => if i ≤ j ∧ j < i + n then f (j - i) x else x

/-- The partial sums of a step reach a row (R73 to R75, R100 to R103, R68, R495). G is rounded towards +infinity once, over the sum of the
terms of all blocks (DEDUCED, log entry 101). -/
def MWrite.apply (w : MWrite) (narrow : Bool) (m : Matrix) : Matrix :=
  let c := w.conf
  let old : AccRow := m.row c.isInt w.row
  let r : AccRow := if w.add then old else {}
  let n := presented narrow
  let wf := c.wf.toNat
  let af := c.af.toNat
  let ps := w.parts narrow
  let cp : List ChkPart := ps.map fun p => (p.acts, p.scs, p.sub.checkSums wf w.kEff)
  let width := modeCols narrow c.mode
  let conf := if w.add then (match old.conf with | some o => some o | none => some c) else some c
  if c.isInt then
    let x := ps.foldl (fun (acc : List Word × List Nat × Bool) p =>
      let cols := (List.range width).map fun j =>
        intColumn c.q p.acts p.scs (p.sub.col wf w.kEff j) (p.sub.colScales wf j) (acc.1.getD (p.col0 + j) 0)
      (mapRange acc.1 p.col0 width (fun j o => match cols[j]? with | some v => v.1 | none => o),
       (cols.flatMap fun v => v.2.1).foldl (fun l b => if l.contains b then l else b :: l) acc.2.1,
       acc.2.2 || cols.any fun v => v.2.2)) (r.outN true n, [], false)
    m.setRow true w.row { r with
      kind := .mxint, conf := conf, q := if w.add && old.kind == .mxint then old.q else c.q, outs := x.1, check := chkInt c.q w.kEff cp (r.chk true)
      n := r.n + x.2.1.length, inexact := r.inexact || !x.2.1.isEmpty, ovf := r.ovf || x.2.2 }
  else
    let outs := ps.foldl (fun (acc : List Word) p => mapRange acc p.col0 width fun j o =>
      let col := p.sub.col wf w.kEff j
      f32w (fun a => if c.strict then strictColumn wf p.acts col a
        else fastColumn wf af p.acts p.scs col (p.sub.colScales wf j) a) o) (r.outN false n)
    let check := f32w (fun a => if c.strict then chkStrict wf w.kEff cp a else chkFast af w.kEff cp a) (r.chk false)
    let g := ps.flatMap fun p => envTerms wf af p.acts p.scs p.sub
    m.setRow false w.row { r with
      kind := .float, conf := conf, outs := outs, check := check
      n := r.n + (if c.strict then 2 * w.kEff else cdiv w.kEff 32), g := up32 (sumFV (dec32 r.g :: g)) }

/-! ### Drain -/

/-- R79, R80: the comparison of a drained row. -/
def AccRow.compare (r : AccRow) (isInt : Bool) (n margin : Nat) : ChkRes :=
  let os := r.outN isInt n
  if r.ovf then .ovf
  else if isInt then
    let d := (BitVec.ofInt 64 (os.foldl (fun t o => t + o.toInt) 0 - (r.chk true).toInt)).toInt
    if r.inexact then (if d.natAbs > 257 * r.n then .mismatch else .ok) else if d ≠ 0 then .mismatch else .ok
  else
    let vs := os.map fun o => dec32 (o.truncate 32)
    let ck := dec32 ((r.chk false).truncate 32)
    if ck.special || vs.any FV.special then .skipped
    else
      let d : FV := match sumFV (ck.neg :: vs) with | .fin _ m e => .fin false m e | v => v
      if (((dec32 r.g).mul (.fin false (2 * r.n + 2) 0)).scale ((margin : Int) - 24)).lt d then .mismatch else .ok

/-- The elements and scales of a drained row (R78, R110, R111, R159). -/
def AccRow.drain (r : AccRow) (isInt : Bool) (q : Int) (f n : Nat) : List Byte × List Byte :=
  let os := r.outN isInt n
  let pack (l : List Nat) : List Byte := natBytes (packBits (fmtBits f) l) (n * fmtBits f / 8)
  if f = 0xB then
    (pack (os.map fun o => if r.ovf then 0x80000000 else
      (BitVec.ofInt 32 (max (-2147483647) (min 2147483647 o.toInt))).toNat), [])
  else
    let fs : List F32 := os.map fun o =>
      if r.ovf then qnan32
      else if isInt then rnd32 (.fin (decide (o.toInt < 0)) o.toInt.natAbs q) else o.truncate 32
    if f = 3 then
      let bs := (blocks32 (fs.map dec32)).map fun b => blockEncode 3 b.2
      (pack (bs.flatMap fun b => b.2), natBytes (packBits 8 (bs.map fun b => b.1)) (n / 32))
    else if f = 0 then (pack (fs.map BitVec.toNat), [])
    else (pack (fs.map fun x => scalarEncode f (dec32 x)), [])

end Sys2Proof.Machine
end

