-- ==== Sys2Proof/Machine/Fetch.lean ====
section
/-! DEFINITION. The sequence of bundles a context fetches (R120, R149), the bundles for which no command stands, and the faults that
a fetch finds (R116, R141). -/

namespace Sys2Proof.Machine

open Sys2Proof

/-- The compute die is powered and serves: RUN or IDLE, not fenced, not in reset, not zeroing (R177, Table 12.11). -/
def State.dieUp (s : State) (p : Pos) : Bool :=
  let u := s.ut p
  (u.pwr.state == 0 || u.pwr.state == 1) && !u.flags.fencedDie && !u.flags.fencedUt && !u.flags.lost &&
    !u.flags.inTileReset && !u.flags.inCoreReset && !(s.core p).spd.zeroing

/-! ### Sequence (R149) -/

/-- The loop entries at the end bundle of active loops, lowest number first: whether the next bundle is a start. -/
def loopBack (idx : BitVec 14) : Nat → Vector LoopEnt 4 → Vector LoopEnt 4 × Option (BitVec 14)
  | 0, l => (l, none)
  | n + 1, l =>
    let k : Fin 4 := Fin.ofNat 4 (3 - n)
    let e := l[k]
    if e.active && e.last == idx then
      if e.left.toNat > 1 then (l.set k { e with left := e.left - 1 }, some e.start)
      else loopBack idx n (l.set k {})
    else loopBack idx n l

/-- The context after the issue of bundle idx in cycle cc: the bundle it issues next, and when. -/
def CtxState.seq (c : CtxState) (idx : BitVec 14) (cc : Nat) : CtxState :=
  let r := loopBack idx 4 c.loops
  { c with loops := r.1, nextIdx := (match r.2 with | some t => t | none => idx + 1), nextCc := cc + 1, curIdx := idx,
           curCc := cc, opened := true }

/-- Where the empty bundles of the instruction store lead that stand before a bundle: they issue one a cycle and have no slot, so no
command stands for them (log entry 8). -/
inductive Skipped where
  | reached (c : CtxState) (n : Nat)   -- the context issues the bundle next; n empty bundles were passed
  | over (c : CtxState) (n : Nat)      -- the next empty bundle is beyond the handler's BUDGET (R140)
  | no                                 -- the context does not come to the bundle by that cycle

/-- Pass over empty bundles, at most room of them, to bundle idx in cycle cc. -/
def CtxState.skip (store : Tbl Bundle) (idx : BitVec 14) (cc room : Nat) : Nat → CtxState → Nat → Skipped
  | 0, c, n => if c.nextIdx = idx ∧ c.nextCc ≤ cc then .reached c n else .no
  | f + 1, c, n =>
    if c.nextIdx = idx then (if c.nextCc ≤ cc then .reached c n else .no)
    else if tblGet 0 store c.nextIdx.toNat = 0 ∧ c.nextCc < cc then
      if n < room then CtxState.skip store idx cc room f (c.seq c.nextIdx c.nextCc) (n + 1) else .over c n
    else .no

/-- Pass over the empty bundles that issue before cycle cc, at most room of them; the last component tells whether one more would
have issued. -/
def CtxState.settle (store : Tbl Bundle) (cc room : Nat) : Nat → CtxState → Nat → CtxState × Nat × Bool
  | 0, c, n => (c, n, false)
  | f + 1, c, n =>
    if tblGet 0 store c.nextIdx.toNat = 0 ∧ c.nextCc < cc then
      if n < room then CtxState.settle store cc room f (c.seq c.nextIdx c.nextCc) (n + 1) else (c, n, true)
    else (c, n, false)

/-! ### Faults of a fetch -/

/-- What the fetch of bundle n finds: an uncorrectable error, which names no slot, or an illegal bundle that no command spells.
Beyond the rules' words: log entry 84 (DEDUCED). -/
def Image.fetchFault (m : Image) (n : Nat) : Option (CoreFault × BitVec 4) :=
  let b := tblGet 0 m.store n
  if m.ecc.contains n then some (.istoreEcc, 0)
  else if slotless b then some (.illegalBundle, slotBits (illegalSlots b)) else none
/-- Some bundle of the store faults when it is fetched. -/
def Image.faulty (m : Image) : Bool := !m.ecc.isEmpty || m.store.any fun e => slotless e.2

/-- The first fetch that faults, by cycle cc, past empty bundles. -/
def CtxState.toFault (m : Image) (cc : Nat) : Nat → CtxState → Option (CtxState × CoreFault × BitVec 4)
  | 0, _ => none
  | f + 1, c =>
    if cc < c.nextCc then none
    else match m.fetchFault c.nextIdx.toNat with
      | some x => some (c, x)
      | none => if tblGet 0 m.store c.nextIdx.toNat = 0 then CtxState.toFault m cc f (c.seq c.nextIdx c.nextCc) else none

/-- The fetches of MAIN up to cycle cc, and those of HAND before it, raise the faults they find (R141). -/
def State.fetch (s : State) (p : Pos) (cc : Nat) : State :=
  let go (x : Ctx) (to_ : Nat) (s : State) : State :=
    let q := (s.core p).ctx x
    match q.toFault (s.core p).img to_ (to_ + 1 - q.nextCc) with
    | some (c, f) => (s.modCore p fun k => k.modCtx x fun _ => c).fault p x c.nextIdx f.2 f.1
    | none => s
  if !(s.core p).img.faulty || !s.dieUp p then s
  else
    let s1 := if (s.core p).ctl.main = .issuing then go .main cc s else s
    if (s1.core p).ctl.hand ≠ .idle && decide (0 < cc) then go .hand (cc - 1) s1 else s1

end Sys2Proof.Machine
end

