-- ==== Sys2Proof/Machine/MatRun.lean ====
section
/-! DEFINITION. The matrix unit as cycles pass (R72, R76, R77): loads become ready, accumulator writes land, drains read
their rows; and the current keeper's level (R82 to R86). -/

namespace Sys2Proof.Machine

open Sys2Proof

/-! ### Accumulator writes -/

/-- The accumulator writes of cycles before c reach their rows, in issue order. -/
def MOp.land (narrow : Bool) (c : Nat) (o : MOp) (m : Matrix) : MOp × Matrix :=
  let now := o.writes.filter fun w => decide (w.cc < c)
  ({ o with writes := o.writes.filter fun w => !decide (w.cc < c) }, now.foldl (fun m w => w.apply narrow m) m)
def Matrix.land (m : Matrix) (narrow : Bool) (c : Nat) : Matrix :=
  let x := m.ops.foldl (fun (acc : List MOp × Matrix) o => let y := o.land narrow c acc.2; (acc.1 ++ [y.1], y.2)) ([], m)
  { x.2 with ops := x.1 }

/-! ### Drains -/

/-- Read cycle of the drain's next row (R76); none when all are read. -/
def Drain.due (d : Drain) : Option Nat := if d.next < d.m then some (d.t0 + 8 + d.w * d.next) else none
/-- The operation numbers of drains with the earliest row due by cycle c. -/
def nextDrain (c : Nat) : List MOp → Nat → Option (Nat × Nat)
  | [], _ => none
  | o :: r, k =>
    let rest := nextDrain c r (k + 1)
    match o.drain.bind Drain.due with
    | none => rest
    | some t =>
      if c < t then rest
      else match rest with
        | some (t', k') => if t ≤ t' then some (t, k) else some (t', k')
        | none => some (t, k)

/-- One row of drain number k is read in cycle t: written to scratchpad over the following w cycles, cleared under CLEAR,
compared (R76 to R80). Beyond the rules' words: log entry 29 (DEDUCED). -/
def Core.drainRow (c : Core) (k t : Nat) : Core :=
  let nar := c.desc.narrow
  let m := c.mat.land nar t
  match m.ops[k]? with
  | none => c
  | some o =>
    match o.drain with
    | none => c
    | some d =>
      let r := d.first + d.next
      let row := m.row d.isInt r
      let n := presented nar
      let q := if row.kind = .mxint then row.q else d.q
      let out := row.drain d.isInt q d.fmt n
      let res := row.compare d.isInt n m.margin.toNat
      let d' := { d with next := d.next + 1, results := d.results ++ [(r, res)] }
      let m1 := { m with ops := m.ops.set k { o with drain := some d' } }
      let m2 := if d.clear then m1.setRow d.isInt r {} else m1
      let c1 := { c with mat := m2 }
      let c2 := c1.later (t + d.w + 1) (.mem (d.dst + d.next * out.1.length) out.1)
      if out.2.isEmpty then c2 else c2.later (t + d.w + 1) (.mem (d.dstS + d.next * out.2.length) out.2)

def Core.drains (c : Core) (cc : Nat) : Nat → Core
  | 0 => c
  | f + 1 =>
    match nextDrain cc c.mat.ops 0 with
    | none => c
    | some (t, k) => (c.drainRow k t).drains cc f

/-- Rows that drains have still to read. -/
def Matrix.rowsLeft (m : Matrix) : Nat := m.ops.foldl (fun n o => n + (match o.drain with | some d => d.m - d.next | none => 0)) 0

/-- The matrix unit as the bundle of cycle cc sees it. -/
def Core.matRun (c : Core) (cc : Nat) : Core :=
  let c1 := c.drains cc c.mat.rowsLeft
  let m0 := c1.mat.land c1.desc.narrow cc
  let m := { m0 with ops := m0.ops.filter fun o => !(o.retired && o.writes.isEmpty) }
  let m1 := match m.confDue with
    | some (d, x) => if d ≤ cc then { m with conf := x, confDue := none } else m
    | none => m
  { c1 with mat := m1 }

/-- The plane is ready in cycle cc (R72, R74). -/
def Plane.readyIn (p : Plane) (cc : Nat) : Bool := match p.readyAt with | some t => decide (t ≤ cc) | none => false

/-- The tile reaches cycle cc: the matrix unit has run, writes in flight have landed, and fetches that fault have raised their fault. -/
def State.run (s : State) (p : Pos) (cc : Nat) : State := ((s.modCore p fun c => c.matRun cc).advance p cc).fetch p cc

/-! ### The current keeper -/

/-- Steps of 25 percent every 128 cycles from one level to another (R83, R84). -/
def rampLevel (r : Nat × Nat × Nat) (cc : Nat) : Nat :=
  let k := 25 * ((cc - r.2.2) / 128)
  if cc < r.2.2 then r.1 else if r.2.1 ≤ r.1 then max r.2.1 (r.1 - k) else min r.2.1 (r.1 + k)

/-- The keeper's current in cycle cc, percent of full array current: its level, or the ramp of an UP note that ends at the
noted cycle. -/
def Keeper.at_ (k : Keeper) (cc : Nat) : Nat :=
  (k.notes.filter fun n => !n.down).foldl (fun l n => max l (n.level - 25 * cdiv (n.at_ - cc) 128)) (rampLevel k.ramp cc)

/-- Fill levels of Table 3.8. -/
def keeperPct (l : BitVec 2) : Nat := if l = 0 then 25 else if l = 1 then 50 else 100

/-- The keeper stops in the same cycle, without ramping (R86). -/
def Keeper.stop (k : Keeper) : Keeper :=
  { k with ramp := (0, 0, 0), filling := false, gapStart := none, gapHeld := false, notes := [], upCover := false }

/-- The array feeds or holds a step in cycle cc: only an MSTEP makes the keeper yield, until its last write (R82; DEDUCED, log entry 101). -/
def Matrix.stepping (m : Matrix) (cc : Nat) : Bool := m.ops.any fun o => o.kind == 3 && decide (cc < o.finish)

/-- A stop edge: the keeper stops and the regulator engages its clamp in the same cycle (R86, R342), for 1,024 cycles as after a DOWN note
(DEDUCED, log entry 56). -/
def State.stopEdge (s : State) (p : Pos) (cc : Nat) : State :=
  (s.modMat p fun m => { m with keeper := m.keeper.stop }).modUt p fun u =>
    { u with pwr := { u.pwr with clamp := some (cc, cc + 1024), boost := none } }

/-- R88: work in flight is discarded, both planes hold no load, every row is cleared, MCONF returns to its defaults. -/
def Matrix.discard (m : Matrix) : Matrix :=
  { m with conf := {}, confDue := none, active := { m.active with held := false, readyAt := none },
           shadow := { m.shadow with held := false, readyAt := none }, rows := [], ops := [], feedEnd := 0, lastSwap := none }

end Sys2Proof.Machine
end

