-- ==== Sys2Proof/Machine/Check.lean ====
section
/-! DEFINITION. The faults found at issue (5.7, R141): every slot of a bundle is checked before any slot takes effect. -/

namespace Sys2Proof.Machine

open Sys2Proof

/-- A bundle index at or beyond the image's bundle count (R120). -/
def istoreBad (c : Core) (n : Nat) : Bool := decide (c.img.bundles ≤ n)

/-- Control register access (Table 5.3): a context may write CR_VL, and MAIN and HAND may write CR_PATIENCE. -/
def crwOk (x : Ctx) (n : Nat) : Bool := n == 6 || (n == 4 && (x == .main || x == .hand))

/-- Faults of a C slot whose guard is true. The loop that a LOOP of count 0 skips must end inside the image (R149). -/
def cFaults (s : State) (p : Pos) (x : Ctx) (idx : BitVec 14) (w : BitVec 64) : List CoreFault :=
  let c := s.core p
  let ls (n : Nat) : List CoreFault :=
    if (effAddr (c.readA x (fA w)) (imm32 w).toInt n n).isNone then [.spdBounds] else []
  match opcode w with
  | 0x40 => ls 4
  | 0x41 => ls 8
  | 0x42 => ls 4
  | 0x43 => ls 8
  | 0x49 => if crwOk x (imm32 w).toNat then [] else [.contextIllegal]
  | 0x50 => if istoreBad c (cbTarget w).toNat then [.istoreBounds] else []
  | 0x51 => if istoreBad c (c.readS x (fA w)).toNat then [.istoreBounds] else []
  | 0x52 => if istoreBad c (cbTarget w).toNat then [.istoreBounds] else []
  | 0x53 =>
    if (c.readS x (fA w)).toNat = 0 && istoreBad c (idx.toNat + clLen w + 2) then [.istoreBounds] else []
  | 0x54 => if x = .main then [] else [.contextIllegal]
  | 0x55 =>
    if x = .hand then [.handStall]
    else if x = .main then
      (if istoreBad c (cwIndex w).toNat then [.istoreBounds] else []) ++
      (match s.stepAt p with
       | some r => if cwFinal w != decide (c.ctl.pound.toNat + 1 = r.man.pounds) then [.pendMismatch] else []
       | none => [])
    else []
  | 0x56 => if x = .hand then [] else [.contextIllegal]
  | _ => []

/-- Bytes that a vector access moves: elements, and scales of block formats (R153). -/
def vElems (vl : Nat) (f : Nat) : Nat := if fmtBlock f then 32 * cdiv vl 32 else vl
def vElemBytes (vl f : Nat) : Nat := cdiv (vElems vl f * fmtBits f) 8
def vScaleBytes (vl f : Nat) : Nat := if fmtBlock f then vElems vl f / 32 else 0

def State.vl (s : State) (p : Pos) (x : Ctx) : Nat := (vat (s.core p).ctl.vl (ctxNum x)).toNat

/-- Faults of a V slot whose guard is true. -/
def vFaults (s : State) (p : Pos) (x : Ctx) (w : BitVec 64) : List CoreFault :=
  let c := s.core p
  let vl := s.vl p x
  let rr := match x with
    | .main => false
    | .dbg => true
    | _ => (vRegs w).any fun r => decide (r ≥ 4)
  let ea (n al : Nat) : Bool := (effAddr (c.readA x (fA w)) (vmOff w) n al).isNone
  let mem : Bool :=
    match opcode w with
    | 0x28 => ea (4 * vl) 64
    | 0x29 => ea (4 * vl) 64
    | 0x2A => ea (vElemBytes vl (vFmt w)) 64 ||
        (fmtBlock (vFmt w) && (effAddr (c.readA x (fB w)) 0 (vScaleBytes vl (vFmt w)) 16).isNone)
    | 0x2B => ea (vElemBytes vl (vFmt w)) 64 ||
        (fmtBlock (vFmt w) && (effAddr (c.readA x (fB w)) 0 (vScaleBytes vl (vFmt w)) 16).isNone)
    | _ => false
  (if rr then [.regRange] else []) ++ (if mem && vl != 0 then [.spdBounds] else [])

/-- An element array or scale array of a matrix operand runs out of the scratchpad or is misaligned. -/
def arrBad (c : Core) (r : Nat) (bytes al : Nat) : Bool := (effAddr (c.readA .main r) 0 bytes al).isNone

/-- Faults of an M slot whose guard is true, in cycle cc. L_step of the MLOAD window is that of the configuration in force at the MLOAD (R74), and a
plane of another mode, or an ADD on a row SET under another Q, strict bit or activation format, raises MATRIX_CONFIG as another format does (R87):
log entry 101 (DEDUCED). Beyond the rules' words: log entry 28 (DEDUCED). -/
def mFaults (s : State) (p : Pos) (x : Ctx) (cc : Nat) (w : BitVec 64) : List CoreFault :=
  let c := s.core p
  let m := c.mat
  let cf := m.confAt cc
  let op := opcode w
  let sw := c.readS x (mC w)
  let nar := c.desc.narrow
  if x ≠ .main then [.matrixConfig]
  else
    match op with
    | 0x01 =>
      (match mconfOf sw with
       | none => [.matrixConfig]
       | some n => if nar && n.mode == .quarters then [.matrixConfig] else []) ++
      (if m.ops.any fun o => (o.kind == 3 || o.kind == 4) && decide (o.finish > cc) then [.matrixHazard] else [])
    | 0x02 =>
      let wf := cf.wf.toNat
      if fld sw 37 27 ≠ 0 then [.matrixConfig]
      else if mZero op sw then []
      else
        let qs := List.range' (mlQ0 sw) (mlNq sw)
        (if decide (mlQ0 sw + mlNq sw > modeCount cf.mode) || !kOk wf cf.depth (mlK sw) ||
            decide (mlN sw > modeCols nar cf.mode) || (qs.any fun q => missing cf.mode nar q) then [.matrixConfig] else []) ++
        (match m.lastSwap with | some t => if cc < t + cf.lstep then [.matrixHazard] else [] | none => []) ++
        (if arrBad c (mA w) (cdiv (mlNq sw * mlN sw * mlK sw * fmtBits wf) 8) 64 ||
            (fmtBlock wf && arrBad c (mB w) (mlNq sw * mlN sw * blocksOf wf (mlK sw)) 16) then [.spdBounds] else [])
    | 0x03 =>
      let af := cf.af.toNat
      let swap := bit w 42
      let pl := if swap then m.shadow else m.active
      if fld sw 35 29 ≠ 0 then [.matrixConfig]
      else if mZero op sw then []
      else
        let rps := modeRps cf.mode
        let rows := List.range' (msBase sw) (msC sw * rps)
        (if decide (msBase sw % rps ≠ 0) || decide (msBase sw + msC sw * rps > cf.rows) || !kOk af cf.depth (msK sw) ||
            (pl.held && (pl.fmt != cf.wf || pl.mode != cf.mode)) ||
            (bit w 43 && rows.any fun r => (rowKeys cf.isInt r).any fun k => match (tblGet {} m.rows k).conf with
              | some o => decide ({ o with logb := cf.logb } ≠ cf)
              | none => kindClash m cf.isInt r)
          then [.matrixConfig] else []) ++
        (if (swap && !(pl.held && pl.readyIn cc)) || (!swap && !pl.held) || decide (cc < m.feedEnd) then [.matrixHazard] else []) ++
        (if arrBad c (mA w) (cdiv (msC sw * cf.vecs * msK sw * fmtBits af) 8) 64 ||
            (fmtBlock af && arrBad c (mB w) (msC sw * cf.vecs * blocksOf af (msK sw)) 16) then [.spdBounds] else [])
    | 0x04 =>
      let f := mOpBits w
      if fld sw 20 44 ≠ 0 || !drainOk cf f then [.matrixConfig]
      else if mZero op sw then []
      else
        (if decide (mdFirst sw + mdM sw > cf.rows) ||
            (List.range' (mdFirst sw) (mdM sw)).any (fun r => kindClash m cf.isInt r) then [.matrixConfig] else []) ++
        (if arrBad c (mA w) (mdM sw * presented nar * fmtBits f / 8) 64 ||
            (f == 3 && arrBad c (mB w) (mdM sw * presented nar / 32) 16) then [.spdBounds] else [])
    | 0x05 => if decide (mOpBits w ≥ cf.rows) || kindClash m cf.isInt (mOpBits w) then [.matrixConfig] else []
    | 0x06 => if decide (mOpBits w ≥ cf.rows) || kindClash m cf.isInt (mOpBits w) then [.matrixConfig] else []
    | _ => []

/-- The step running on a position declares a berth or window; TOW names any (R213). -/
def berthOpen (s : State) (p : Pos) (x : Ctx) (b : Fin 64) : Bool := x == .tow || (s.ut p).berths[b].declared
def windowOpen (s : State) (p : Pos) (x : Ctx) (k : Fin 256) : Bool := x == .tow || (s.ut p).windows[k].declared
/-- A Canal chamber lies in the range the step's manifest declares; no context is exempt (R239). -/
def canalOk (s : State) (p : Pos) (j : Nat) : Bool :=
  match s.stepAt p with
  | some r => decide (r.man.canalBase ≤ j) && decide (j < r.man.canalBase + r.man.canalCount)
  | none => false

def stagingFull (s : State) (p : Pos) : Bool := (s.core p).mov.staging.all fun e => e.isSome

/-- Faults of an X slot whose guard is true. -/
def xFaults (s : State) (p : Pos) (x : Ctx) (w : BitVec 64) : List CoreFault :=
  let c := s.core p
  let op := opcode w
  let sa := c.readS x (xA w)
  let sc := c.readS x (xC w)
  let hand (b : Bool) : List CoreFault := if x = .hand && b then [.handStall] else []
  let addr (b : Bool) : List CoreFault := if b then [.addrIllegal] else []
  let spd (r n al : Nat) : List CoreFault := if (effAddr (c.readA x r) 0 n al).isNone then [.spdBounds] else []
  let send : List CoreFault := spd (xB w) (fld sc 0 13) 64 ++ addr (s.badLt (fld sa 0 7) false)
  match op with
  | 0x01 => spd (xA w) 64 64
  | 0x02 => hand true
  | 0x04 => spd (xB w) (fld sc 0 32) 64 ++ addr (s.addrBad sa)
  | 0x05 => spd (xB w) (fld sc 0 32) 1 ++ addr (s.addrBad sa)
  | 0x08 => send ++ hand (stagingFull s p)
  | 0x09 => send
  | 0x0A => send
  | 0x0B => addr (!berthOpen s p x (xBerth w)) ++ hand true
  | 0x0C => addr (!berthOpen s p x (xBerth w))
  | 0x0D => spd (xA w) 64 64
  | 0x0F => spd (xA w) 64 64
  | 0x18 => addr (xCn w && !canalOk s p (xChamber w).toNat)
  | 0x19 => addr (s.addrBad sa)
  | 0x1A => addr (xCn w && !canalOk s p (xChamber w).toNat) ++ hand true
  | _ => []

/-- Faults of one valid slot; a false guard leaves none but ILLEGAL_BUNDLE, which bundleFaults adds (R117). -/
def slotFaults (s : State) (p : Pos) (x : Ctx) (cc : Nat) (idx : BitVec 14) (k : SlotK) (w : BitVec 64) : List CoreFault :=
  if !guardTrue (s.core p) x w then []
  else match k with
    | .c => cFaults s p x idx w
    | .v => vFaults s p x w
    | .m => mFaults s p x cc w
    | .x => xFaults s p x w

/-- Every fault of a bundle at issue, in slot order C, V, M, X (R141). A HAND bundle beyond its BUDGET raises
HANDLER_BUDGET in its valid slots, before it issues (R140, log entry 14). -/
def bundleFaults (s : State) (i : Issue) : List (SlotK × CoreFault) :=
  let bad := illegalSlots i.bundle
  if i.ctx = .hand && decide ((s.core i.pos).ctl.handIssued + 1 > (s.core i.pos).ctl.handBudget) then
    (validSlots i.bundle).map fun o => (o.1, .handlerBudget)
  else
    allSlots.flatMap fun k =>
      if bad.contains k then [(k, .illegalBundle)]
      else if slotValid i.bundle k then
        (slotFaults s i.pos i.ctx i.cc i.idx k (slotWord i.bundle k)).map fun f => (k, f)
      else []

/-- SLOTS of COR_FAULT: a bit for every slot that met a condition. -/
def slotMask (l : List (SlotK × CoreFault)) : BitVec 4 := slotBits (l.map fun o => o.1)

end Sys2Proof.Machine
end

