-- ==== Sys2Proof/Machine/Issue.lean ====
section
/-! DEFINITION. The issue of a bundle (5.2 to 5.4): which context may issue (R121), the sequence of bundles with loops and
branches (R120, R149), stall points (R124), faults at issue (R141), guards (R117). A command that carries an Issue is one
slot of that bundle; slotCmd is what all of them share. -/

namespace Sys2Proof.Machine

open Sys2Proof

/-! ### Berth heads (8.3) -/

/-- Handler index, tag and length of a barge header (Table 8.1). -/
def hdrHandler (h : BargeHdr) : Nat := fld h.w0 13 8
def hdrTag (h : BargeHdr) : Nat := fld h.w0 21 32
def hdrLt (h : BargeHdr) : Nat := fld h.w0 0 7
def hdrBerth (h : BargeHdr) : Nat := fld h.w0 7 6
def hdrSrc (h : BargeHdr) : Nat := fld h.w1 0 7
def hdrLen (h : BargeHdr) : Nat := fld h.w1 8 13
def hdrCombine (h : BargeHdr) : Bool := bit h.w1 21
def hdrOp (h : BargeHdr) : Nat := fld h.w1 22 2
def hdrGenChk (h : BargeHdr) : Bool := bit h.w1 24
def hdrGen (h : BargeHdr) : Nat := fld h.w1 32 16
def hdrKey (h : BargeHdr) : Nat := fld h.w2 0 16
def hdrCount (h : BargeHdr) : Nat := fld h.w2 16 12
def hdrMerged (h : BargeHdr) : Nat := fld h.w2 28 12

/-- The handler table entry a barge names (Table 5.9). -/
def handlerEntry (c : Core) (n : Nat) : Word := tblGet 0 c.img.htab n
/-- The barge names an entry with VALID 1 (R135). -/
def toHandler (c : Core) (h : BargeHdr) : Bool := bit (handlerEntry c (hdrHandler h)) 28

/-- Remove the head entry and the voided entries behind it (R219, R220). -/
def dropVoided : List BEntry → List BEntry
  | [] => []
  | e :: r => if e.voided then dropVoided r else e :: r
def Berth.consume (b : Berth) : Berth :=
  let q := dropVoided (b.queue.drop 1)
  { b with queue := q, head := if b.entries = 0 then 0 else (b.head + (b.queue.length - q.length)) % b.entries }
/-- Pass voided entries at the head. -/
def Berth.pass (b : Berth) : Berth :=
  let q := dropVoided b.queue
  { b with queue := q, head := if b.entries = 0 then 0 else (b.head + (b.queue.length - q.length)) % b.entries }
def UnderTile.modBerth (u : UnderTile) (k : Fin 64) (f : Berth → Berth) : UnderTile :=
  { u with berths := vmod u.berths k f }
def State.berth (s : State) (p : Pos) (k : Fin 64) : Berth := (s.ut p).berths[k]
def State.modBerth (s : State) (p : Pos) (k : Fin 64) (f : Berth → Berth) : State := s.modUt p fun u => u.modBerth k f

/-! ### Stall points (Table 5.6) -/

/-- The stall point at which a MAIN bundle is held, with the state as it stands: points 1 to 4. -/
def stallPoint (s : State) (p : Pos) (b : Bundle) : Option (Fin 6) :=
  let w := slotWord b .x
  if !slotValid b .x || !guardTrue (s.core p) .main w then none
  else match opcode w with
    | 0x1A =>
      let i := (xChamber w).toNat
      if xCn w then (if (s.ut p).mirror.contains (xChamber w).toFin then none else some 1)
      else if ((s.ut p).chamber (i % 2048)).reached then none else some 1
    | 0x0B =>
      match (s.ut p).berths[xBerth w].queue with
      | e :: _ => if e.whole && e.posted && !toHandler (s.core p) e.hdr then none else some 2
      | [] => some 2
    | 0x08 => if stagingFull s p then some 3 else none
    | 0x02 => if (s.slot p (xSlot w)).busy then some 4 else none
    | _ => none

/-! ### Who may issue (Table 5.5) -/

/-- MAIN's held bundle issues in cycle cc: its stall point is released, a SEND's patience has run out, or an overrun has ended the
stall (R124, R125). -/
def State.heldOpens (s : State) (p : Pos) (cc : Nat) : Bool :=
  let k := (s.core p).ctl
  match k.main, k.held with
  | .stalled pt, some i =>
    decide (k.stallStart < cc) && (k.freed || (stallPoint s p i.bundle).isNone ||
      (pt == 3 && decide (k.stallStart + (vat k.patience 0).toNat ≤ cc)))
  | _, _ => false

/-- MAIN can issue in cycle cc. -/
def State.mainIssues (s : State) (p : Pos) (cc : Nat) : Bool :=
  match (s.core p).ctl.main with
  | .issuing => decide ((s.core p).main.nextCc ≤ cc)
  | .stalled _ => s.heldOpens p cc
  | _ => false
/-- HAND can issue in a cycle cc that MAIN leaves: a handler is running, or an invocation is pending and its entry latency has passed. -/
def State.handIssues (s : State) (p : Pos) (cc : Nat) : Bool :=
  let k := (s.core p).ctl
  !vat k.stopped 1 && (match k.hand with
    | .idle => (match k.queue with
      | v :: _ => decide (v.postedCc + 4 ≤ cc) && (k.handLast == 0 || decide (k.handLast + 4 ≤ cc))
      | [] => false)
    | _ => decide ((s.core p).hand.nextCc ≤ cc))

/-- The context may open a bundle in cycle cc: nobody has issued in it, and no context before it in Table 5.5 can. -/
def State.ctxReady (s : State) (p : Pos) (x : Ctx) (cc : Nat) : Bool :=
  let k := (s.core p).ctl
  !vat k.stopped (ctxNum x) && k.issueCc != some cc &&
  match x with
  | .main => k.main == .issuing
  | .hand => k.hand != .idle && !s.mainIssues p cc
  | .tow => k.towBusy && !s.mainIssues p cc && !s.handIssues p cc
  | .dbg => k.main == .halted && k.dbgAttached

/-- HAND before a bundle of MAIN in cycle cc: its empty bundles have issued in the cycles before, and it issues next after cc. -/
def State.yieldHand (s : State) (p : Pos) (cc : Nat) : State :=
  let c := s.core p
  let k := c.ctl
  if k.hand = .idle then s
  else
    let room := k.handBudget - k.handIssued
    let x := c.hand.settle c.img.store cc room (min (cc - c.hand.nextCc) (room + 1)) 0
    let s1 := s.modCore p fun c => { c with
      hand := { x.1 with nextCc := max x.1.nextCc (cc + 1) }
      ctl := { c.ctl with handIssued := c.ctl.handIssued + x.2.1, hand := if c.ctl.hand = .running then .suspended else c.ctl.hand } }
    if x.2.2 then s1.fault p .hand x.1.nextIdx 0 .handlerBudget else s1

/-! ### Opening a bundle -/

/-- What became of a slot command. -/
inductive Opened where
  | closed                      -- the event is not enabled: the context does not issue this bundle now
  | ended (s : State)           -- the bundle faulted or stalls: no slot takes effect
  | ready (s : State) (run : Bool)   -- the slot takes effect where run holds (its guard is true)

/-- Hold MAIN's bundle at a stall point. -/
def State.hold (s : State) (i : Issue) (pt : Fin 6) : State :=
  s.modCtl i.pos fun k => { k with
    main := .stalled pt, held := some i, stallStart := i.cc, freed := false
    probed := if pt = 1 && !xCn (slotWord i.bundle .x) then some i.cc else k.probed }

/-- The registers of CR_STALL at the end of a stall: point and length (Table 5.3). -/
def stallReg (pt len : Nat) : BitVec 35 := BitVec.ofNat 35 (pt + 8 * min len (2 ^ 32 - 1))

/-- The slot's bit is set and its guard evaluated. -/
def openedSlot (s : State) (i : Issue) (k : SlotK) : Opened :=
  let s1 := s.modCore i.pos fun c => c.modCtx i.ctx fun x =>
    { x with slotsDone := x.slotsDone ||| BitVec.ofNat 4 (2 ^ slotNum k) }
  .ready s1 (guardTrue (s1.core i.pos) i.ctx (slotWord i.bundle k))

/-- The context stands before a bundle: empty bundles before it are counted (R140). -/
def State.arriveAt (s : State) (p : Pos) (x : Ctx) (cs : CtxState) (empties : Nat) : State :=
  s.modCore p fun c => { c.modCtx x (fun _ => cs) with
    ctl := { c.ctl with handIssued := if x = .hand then c.ctl.handIssued + empties else c.ctl.handIssued } }

/-- The first slot of a bundle issues the bundle as a whole: faults, then the stall, then the sequence (5.2 to 5.4, 5.7). -/
def openBundle (s : State) (i : Issue) (k : SlotK) (cs : CtxState) (empties : Nat) : Opened :=
  let x := i.ctx
  let sa := s.arriveAt i.pos x cs empties
  let s0 := sa.modCtl i.pos fun c => { c with
    hand := if x = .hand then .running else c.hand, hwinOpen := if x = .main then false else c.hwinOpen }
  let fs := bundleFaults s0 i
  match fs with
  | f :: _ => .ended (s0.fault i.pos x i.idx (slotMask fs) f.2)
  | [] =>
    match (if x = .main then stallPoint s0 i.pos i.bundle else none) with
    | some pt => .ended (s0.hold i pt)
    | none =>
      if (x == .tow || x == .dbg) && (stallPoint s0 i.pos i.bundle).isSome then .closed
      else
        let s1 := (if x = .main then s0.yieldHand i.pos i.cc else s0).modCore i.pos fun c => { c.modCtx x (fun q => { q.seq i.idx i.cc with slotsDone := 0 }) with
          ctl := { c.ctl with issueCc := some i.cc, handIssued := if x = .hand then c.ctl.handIssued + 1 else c.ctl.handIssued } }
        openedSlot s1 i k

/-- Bring the tile to the command's cycle, and open the bundle or its next slot. Slots of one bundle come in the order C, V,
M, X (log entry 9). Beyond the rules' words: log entry 16 (DESIGN CHOICE). -/
def openSlot (s : State) (i : Issue) (k : SlotK) : Opened :=
  let s1 := s.run i.pos i.cc
  let c := s1.core i.pos
  let q := c.ctx i.ctx
  if i.cc < (s.ut i.pos).cycle || !s.dieUp i.pos then .closed
  else if q.opened && q.curCc == i.cc && q.curIdx == i.idx then
    if q.slotsDone.toNat < 2 ^ slotNum k then openedSlot s1 i k else .closed
  else if !s1.ctxReady i.pos i.ctx i.cc then .closed
  else
    let room := if i.ctx = .hand then c.ctl.handBudget - c.ctl.handIssued else i.cc
    match CtxState.skip c.img.store i.idx i.cc room (i.cc - q.nextCc) q 0 with
    | .no => .closed
    | .over cs n => .ended ((s1.arriveAt i.pos .hand cs n).fault i.pos .hand cs.nextIdx 0 .handlerBudget)
    | .reached cs n => if c.img.ecc.contains i.idx.toNat then .ended ((s1.arriveAt i.pos i.ctx cs n).fault i.pos i.ctx i.idx 0 .istoreEcc)
        else openBundle s1 i k cs n

/-- A command that is one slot of a bundle: op is the opcode the slot must hold, always whether it acts under a false
guard (SEL only), eff its effect. A bundle that does not hold the instruction is no such event. -/
def slotCmd (k : SlotK) (op : Nat) (always : Bool) (eff : Issue → State → State) (i : Issue) (s : State) : State :=
  if slotValid i.bundle k && opcode (slotWord i.bundle k) == op then
    match openSlot s i k with
    | .closed => s
    | .ended t => t
    | .ready t run => if run || always then eff i t else t
  else s

/-! ### What effects share -/

/-- Write results at the end of cycle cc + L − 1 (R118). -/
def State.later (s : State) (i : Issue) (lat : Nat) (d : RegDst) : State :=
  s.modCore i.pos fun c => c.later (i.cc + lat) d
def State.laterS (s : State) (i : Issue) (lat r : Nat) (v : Word) : State := s.later i lat (.s i.ctx (Fin.ofNat 32 r) v)
def State.laterA (s : State) (i : Issue) (lat r : Nat) (v : BitVec 48) : State := s.later i lat (.a i.ctx (Fin.ofNat 16 r) v)
def State.laterP (s : State) (i : Issue) (lat r : Nat) (v : Bool) : State := s.later i lat (.p i.ctx (Fin.ofNat 8 r) v)
def State.laterV (s : State) (i : Issue) (lat r : Nat) (m v : VReg) : State := s.later i lat (.v i.ctx (Fin.ofNat 64 r) m v)

def State.rS (s : State) (i : Issue) (r : Nat) : Word := (s.core i.pos).readS i.ctx r
def State.rA (s : State) (i : Issue) (r : Nat) : BitVec 48 := (s.core i.pos).readA i.ctx r
def State.rP (s : State) (i : Issue) (r : Nat) : Bool := (s.core i.pos).readP i.ctx r
def State.rV (s : State) (i : Issue) (r : Nat) : VReg := (s.core i.pos).readV i.ctx r

/-! ### The port wheel (R146, R170 to R173) -/

/-- Chunks a run touches. -/
def chunksOf (a n : Nat) : Nat := if n = 0 then 0 else (a + n - 1) / 1024 - a / 1024 + 1

/-- The first cycle at or after c in which port p owns group g (R170); tick is the cycle of wheel phase 0. -/
def wheelAt (p tick c g : Nat) : Nat := c + ((g + 16 - p - (c - tick) % 8) % 8)

/-- Time one access (R172): runs as (address, bytes); the cycle after its last chunk, and the chunks it touches. -/
def portRuns (p tick : Nat) : Nat → List (Nat × Nat) → Nat × Nat
  | c, [] => (c, 0)
  | c, (a, n) :: r =>
    if n = 0 then portRuns p tick c r
    else
      let c1 := wheelAt p tick c ((a / 1024) % 8)
      let k := chunksOf a n
      let x := portRuns p tick (c1 + k) r
      (x.1, x.2 + k)

/-- The cycles in which the access moves its chunks: first, count. -/
def portSpans (p tick : Nat) : Nat → List (Nat × Nat) → List (Nat × Nat)
  | _, [] => []
  | c, (a, n) :: r =>
    if n = 0 then portSpans p tick c r
    else
      let c1 := wheelAt p tick c ((a / 1024) % 8)
      (c1, chunksOf a n) :: portSpans p tick (c1 + chunksOf a n) r

/-- An access issued in cycle t on port p, a scale run of at most 64 bytes on the side lane (R173): the state with free[p] moved, the wheel wait w and the chunks touched.
Beyond the rules' words: log entry 25 (DEDUCED). -/
def State.access (s : State) (pos : Pos) (p t : Nat) (runs : List (Nat × Nat)) : State × Nat × Nat :=
  let d := (s.core pos).spd
  let x := portRuns p (s.ut pos).tick (max t (vat d.free p)) (runs.take 1 ++ (runs.drop 1).filter fun r => decide (r.2 > 64))
  (s.modSpd pos fun d => { d with free := d.free.set (Fin.ofNat 8 p) x.1 }, x.1 - t - x.2, x.2)

/-- Latency of R146: base + w + chunks − 1. -/
def accLat (base w chunks : Nat) : Nat := base + w + chunks - 1

/-! ### Reads with ECC (R179) -/

def wordHit (a n w : Nat) : Bool := decide (a ≤ 4 * w + 3) && decide (4 * w < a + n)
/-- The uncorrectable words of a range, lowest first. -/
def Scratch.badIn (d : Scratch) (a n : Nat) : List Nat := d.bad.filter fun w => wordHit a n w
/-- Count what one access, given as its runs, meets: corrected words, uncorrectable words, and the last uncorrectable event with
the lowest of them. -/
def Scratch.meetRuns (d : Scratch) (port : Nat) (runs : List (Nat × Nat)) : Scratch :=
  let b := runs.flatMap fun r => d.badIn r.1 r.2
  let d1 := { d with
    corrected := d.corrected + BitVec.ofNat 32 (runs.flatMap fun r => d.single.filter fun w => wordHit r.1 r.2 w).length
    uncorr := d.uncorr + BitVec.ofNat 16 b.length }
  match b with
  | [] => d1
  | w :: r => { d1 with lastValid := true, lastPort := BitVec.ofNat 3 port, lastAddr := BitVec.ofNat 26 (4 * r.foldl min w) }

/-- Count what a read of one run meets. -/
def Scratch.meet (d : Scratch) (port a n : Nat) : Scratch := d.meetRuns port [(a, n)]

/-- The n bytes at a that a port reads, one chunk in each cycle from cycle t on: what the scratchpad holds at that port cycle (R165). -/
def Core.portRead (c : Core) (t a n : Nat) : List Byte :=
  (List.range (chunksOf a n)).flatMap fun j =>
    let lo := max a (1024 * (a / 1024 + j))
    memRead (c.spdAt (t + j)).mem lo (min (a + n) (1024 * (a / 1024 + j + 1)) - lo)
/-- The same for runs that follow one another. -/
def Core.portReads (c : Core) : Nat → List (Nat × Nat) → List (List Byte)
  | _, [] => []
  | t, (a, n) :: r => c.portRead t a n :: c.portReads (t + chunksOf a n) r

/-- A scratchpad access by an instruction that reads some runs from port cycle t on: the bytes of each, or one SPD_ECC in the issuing
context where a word is uncorrectable at cycle t (R179). Beyond the rules' words: log entry 25 (DEDUCED). -/
def State.readRuns (s : State) (i : Issue) (k : SlotK) (port t : Nat) (runs : List (Nat × Nat)) : State × Option (List (List Byte)) :=
  let c := s.core i.pos
  let s1 := s.modSpd i.pos fun d => d.meetRuns port runs
  if (runs.flatMap fun r => (c.spdAt t).badIn r.1 r.2).isEmpty then (s1, some (c.portReads t runs))
  else (s1.fault i.pos i.ctx i.idx (BitVec.ofNat 4 (2 ^ slotNum k)) .spdEcc, none)
/-- A scratchpad read of one run by an instruction. -/
def State.readSpd (s : State) (i : Issue) (k : SlotK) (port t a n : Nat) : State × Option (List Byte) :=
  let x := s.readRuns i k port t [(a, n)]
  (x.1, x.2.map fun l => l.headD [])

end Sys2Proof.Machine
end

