-- ==== Sys2Proof/Machine/Matrix.lean ====
section
/-! DEFINITION. The M slot (R155 to R160, Table 6.6), the completions of matrix operations, ramp notices and the current
keeper (3.8). Shapes are checked at issue (Machine/Check.lean); here they hold. -/

namespace Sys2Proof.Machine

open Sys2Proof

def mw (i : Issue) : BitVec 64 := slotWord i.bundle .m

/-- SIGNAL(1) to the completion chamber in cycle c. -/
def State.mSignal (s : State) (p : Pos) (c : Nat) : Option (Bool × BitVec 13) → State
  | none => s
  | some (_, n) => s.modCore p fun k => k.later c (.sig (Fin.ofNat 2048 n.toNat) 1)

/-- The operand word in Sc. -/
def mWord (i : Issue) (s : State) : Word := s.rS i (mC (mw i))
def State.mconf (s : State) (i : Issue) : MConf := (s.core i.pos).mat.confAt i.cc

/-- In force for steps issued from t + 2 on. -/
def effMconf (i : Issue) (s : State) : State :=
  match mconfOf (mWord i s) with
  | none => s
  | some c => (s.modMat i.pos fun m => { m with conf := m.confAt i.cc, confDue := some (i.cc + 2, c) }).mSignal i.pos (i.cc + 3)
      (mCh (mw i))

/-! ### MLOAD (R72, R157) -/

/-- n elements of w bits out of a little-endian number. -/
def unpackList (w : Nat) : Nat → Nat → List Nat
  | 0, _ => []
  | n + 1, x => x % 2 ^ w :: unpackList w n (x >>> w)

/-- A scratchpad read of the M slot, elements then scales. -/
def readTwo (i : Issue) (port t : Nat) (e c : Nat × Nat) (s : State) : State × Option (List Byte × List Byte) :=
  let x := s.readRuns i .m port t [e, c]
  (x.1, x.2.map fun l => (l.headD [], l.getD 1 []))

/-- The submatrices that nq × n columns of k elements make. -/
def loadSubs (f k n q0 nq : Nat) (es cs : List Byte) (subs : Tbl (Option SubMat)) : Tbl (Option SubMat) :=
  let els := (unpackList (fmtBits f) (nq * n * k) (bytesNat es)).map (BitVec.ofNat 32)
  let nb := blocksOf f k
  (List.range nq).foldl (fun t j => tblPut none t (q0 + j) (some
    { k := k, n := n, els := (els.drop (j * n * k)).take (n * k), scs := (cs.drop (j * n * nb)).take (n * nb) })) subs

/-- MLOAD. A submatrix that it does not load keeps its weights where the shadow plane holds a load of this format and mode; what it holds
otherwise is free at its next use (R88, log entry 26). -/
def effMload (i : Issue) (s : State) : State :=
  let sw := mWord i s
  let c := s.mconf i
  let f := c.wf.toNat
  if mZero 2 sw then s.mSignal i.pos (i.cc + 1) (mCh (mw i))
  else
    let e := ((s.rA i (mA (mw i))).toNat, cdiv (mlNq sw * mlN sw * mlK sw * fmtBits f) 8)
    let b := ((s.rA i (mB (mw i))).toNat, mlNq sw * mlN sw * blocksOf f (mlK sw))
    let x := s.access i.pos 1 i.cc (if fmtBlock f then [e, b] else [e])
    match readTwo i 1 (i.cc + x.2.1) e b x.1 with
    | (s1, none) => s1
    | (s1, some (es, cs)) =>
      let fin := i.cc + x.2.1 + x.2.2 + 8
      s1.modMat i.pos fun m =>
        let old := if m.shadow.held && m.shadow.fmt == c.wf && m.shadow.mode == c.mode then m.shadow.subs else []
        let busy := m.ops.filter fun o => o.kind == 2 && !o.retired
        { m with
          shadow := { fmt := c.wf, mode := c.mode, held := true, readyAt := some (busy.foldl (fun t o => max t o.finish) fin)
                      subs := loadSubs f (mlK sw) (mlN sw) (mlQ0 sw) (mlNq sw) es cs old }
          ops := m.ops ++ [{ kind := 2, start := i.cc, finish := fin, chamber := mCh (mw i), writes := [], drain := none
                             retired := false }] }

/-! ### MSTEP (R73 to R75, R156, R158, R174) -/

/-- When each step is fed: no earlier than its place after the one before, and not before MA has delivered its bytes, one
chunk a cycle from the first chunk on; base is the cycle of that chunk. -/
def feedTimes (aa bits step base : Nat) : Nat → Nat → Nat → List Nat
  | 0, _, _ => []
  | n + 1, i, t =>
    let lo := aa + i * bits / 8
    let hi := aa + cdiv ((i + 1) * bits) 8
    let need := (List.range (cdiv (hi - lo) 1024)).foldl
      (fun m j => max m (base + ((min (lo + 1024 * (j + 1)) hi - 1) / 1024 - aa / 1024) - j)) 0
    let f := max t need
    f :: feedTimes aa bits step base n (i + 1) (f + step)

/-- The activations of step i: one vector and its scales per broadcast group. -/
def stepActs (v k nb : Nat) (els : List (BitVec 32)) (scs : List Byte) (i : Nat) : List (List (BitVec 32) × List Byte) :=
  (List.range v).map fun g => ((els.drop ((i * v + g) * k)).take k, (scs.drop ((i * v + g) * nb)).take nb)

/-- The keeper yields to a matrix operation; a step far above its current with no UP note is counted (R82, R84). The draw of an operation is
taken as 100 percent in every mode, and which notes cover an edge is the model's reading (DEDUCED, log entry 101). -/
def Keeper.yields (k : Keeper) (stepping runs : Bool) (cc : Nat) : Keeper :=
  let covered := k.upCover || k.notes.any fun n => !n.down
  { k with
    unUp := if runs && !stepping && !covered && decide (k.at_ cc + 25 < 100) then k.unUp + 1 else k.unUp
    filling := false, gapStart := none, gapHeld := false, upCover := false, ramp := (0, 0, 0) }

/-- The submatrices of a mode, with free weights for those that no load has written (log entry 26). -/
def fillSubs (use : Nat) (f : Nat) (mode : MMode) (k n : Nat) (subs : Tbl (Option SubMat)) : Tbl (Option SubMat) :=
  (List.range (modeCount mode)).foldl (fun t q =>
    if (tblGet none t q).isSome then t
    else tblPut none t q (some
      { k := k, n := n, els := (List.range (n * k)).map fun i => Config.freeWeight use q i &&& BitVec.ofNat 32 (2 ^ fmtBits f - 1)
        scs := (List.range (n * blocksOf f k)).map fun i => (Config.freeWeight use q (n * k + i)).setWidth 8 })) subs
/-- Some submatrix of a mode has no load. -/
def unfilled (mode : MMode) (subs : Tbl (Option SubMat)) : Bool := (List.range (modeCount mode)).any fun q => (tblGet none subs q).isNone

def effMstep (i : Issue) (s : State) : State :=
  let w := mw i
  let sw := mWord i s
  let c := s.mconf i
  let af := c.af.toNat
  if mZero 3 sw then s.mSignal i.pos (i.cc + 1) (mCh w)
  else
    let k := msK sw
    let n := msC sw
    let aa := (s.rA i (mA w)).toNat
    let bits := c.vecs * k * fmtBits af
    let e := (aa, cdiv (n * bits) 8)
    let b := ((s.rA i (mB w)).toNat, n * c.vecs * blocksOf af k)
    let x := s.access i.pos 0 i.cc [e]
    match readTwo i 0 (i.cc + x.2.1) e b x.1 with
    | (s1, none) => s1
    | (s1, some (es, cs)) =>
      let els := (unpackList (fmtBits af) (n * c.vecs * k) (bytesNat es)).map (BitVec.ofNat 32)
      let fed := feedTimes aa bits c.step (i.cc + x.2.1) n 0 i.cc
      let last := fed.getLastD i.cc
      let rps := modeRps c.mode
      let runs := (s.stepAt i.pos).isSome
      let m0 := (s1.core i.pos).mat
      let have_ := if bit w 42 then m0.shadow.subs else m0.active.subs
      let subs := if unfilled c.mode have_ then fillSubs s.fresh c.wf.toNat c.mode c.depth (modeCols (s.core i.pos).desc.narrow c.mode) have_ else have_
      ({ s1 with fresh := if unfilled c.mode have_ then s1.fresh + 1 else s1.fresh } : State).modMat i.pos fun m =>
        let m1 := if bit w 42 then
            { m with active := { m.shadow with subs := subs }, shadow := { m.active with readyAt := none }, lastSwap := some i.cc }
          else { m with active := { m.active with subs := subs } }
        let writes : List MWrite := (fed.mapIdx fun j t => (List.range rps).map fun ro =>
          { cc := t + c.lstep, row := msBase sw + j * rps + ro, add := bit w 43, conf := c, kEff := k, subs := subs
            acts := stepActs c.vecs k (blocksOf af k) els cs j, rowInStep := ro }).flatten
        let m2 := if bit w 43 then m1 else (List.range' (msBase sw) (n * rps)).foldl (fun m r => m.tagRow c r) m1
        { m2 with
          feedEnd := last + c.step
          keeper := m2.keeper.yields (m2.stepping i.cc) runs i.cc
          ops := m2.ops ++ [{ kind := 3, start := i.cc, finish := last + c.lstep, chamber := mCh w, writes := writes
                              drain := none, retired := false }] }

/-! ### MDRAIN, MCHKV, MFLAGS (R76, R77, R159) -/

def effMdrain (i : Issue) (s : State) : State :=
  let w := mw i
  let sw := mWord i s
  let c := s.mconf i
  let f := mOpBits w
  if mZero 4 sw then s.mSignal i.pos (i.cc + 1) (mCh w)
  else
    let n := presented (s.core i.pos).desc.narrow
    let m := mdM sw
    let e := ((s.rA i (mA w)).toNat, m * n * fmtBits f / 8)
    let b := ((s.rA i (mB w)).toNat, m * n / 32)
    let x := s.access i.pos 2 i.cc (if f = 3 then [e, b] else [e])
    let wd := if fmtBits f = 32 then 2 else 1
    let t0 := i.cc + x.2.1
    let d : Drain := { fmt := f, isInt := c.isInt, q := c.q, first := mdFirst sw, m := m, clear := mdClear sw, t0 := t0, w := wd,
                       dst := e.1, dstS := b.1, next := 0, results := [] }
    x.1.modMat i.pos fun q => { q with ops := q.ops ++
      [{ kind := 4, start := i.cc, finish := t0 + 8 + wd * m + 6, chamber := mCh w, writes := [], drain := some d, retired := false }] }

def effMchkv (i : Issue) (s : State) : State :=
  let m := (s.core i.pos).mat
  let isInt := (s.mconf i).isInt
  (s.laterS i 4 (mC (mw i)) ((m.row isInt (mOpBits (mw i))).chk isInt)).mSignal i.pos (i.cc + 5) (mCh (mw i))
def effMflags (i : Issue) (s : State) : State :=
  let r := (s.core i.pos).mat.row (s.mconf i).isInt (mOpBits (mw i))
  (s.laterS i 4 (mC (mw i)) (rowFlags r.inexact r.ovf r.n)).mSignal i.pos (i.cc + 5) (mCh (mw i))

/-- The effect of an M-slot opcode. -/
def mEffect (op : Nat) : Issue → State → State :=
  match op with
  | 0x01 => effMconf | 0x02 => effMload | 0x03 => effMstep | 0x04 => effMdrain | 0x05 => effMchkv | 0x06 => effMflags
  | _ => fun _ s => s

def execMconf (i : Issue) (s : State) : Out := .next (slotCmd .m 0x01 false effMconf i s)
def execMload (i : Issue) (s : State) : Out := .next (slotCmd .m 0x02 false effMload i s)
def execMstep (i : Issue) (s : State) : Out := .next (slotCmd .m 0x03 false effMstep i s)
def execMdrain (i : Issue) (s : State) : Out := .next (slotCmd .m 0x04 false effMdrain i s)
def execMchkv (i : Issue) (s : State) : Out := .next (slotCmd .m 0x05 false effMchkv i s)
def execMflags (i : Issue) (s : State) : Out := .next (slotCmd .m 0x06 false effMflags i s)

/-! ### Completions (R160) -/

/-- Retire the first operation of a kind that has finished by cycle cc, and signal its chamber in the cycle after it
finished. Beyond the rules' words: log entry 29 (DEDUCED). -/
def retireOp (kind : BitVec 8) (cc : Nat) : List MOp → List MOp × Option MOp
  | [] => ([], none)
  | o :: r =>
    if o.kind = kind ∧ !o.retired ∧ o.finish ≤ cc then ({ o with retired := true } :: r, some o)
    else let x := retireOp kind cc r; (o :: x.1, x.2)

/-- What the comparisons of a drain record (R78, R80, R81). -/
def Matrix.checked (m : Matrix) (r : Nat × ChkRes) : Matrix :=
  match r.2 with
  | .ok => m
  | .skipped => { m with skipped := m.skipped + 1 }
  | .ovf => { m with skipped := m.skipped + 1, lastRow := BitVec.ofNat 9 r.1, lastValid := true, lastOvf := true }
  | .mismatch => { m with mismatch := m.mismatch + 1, lastRow := BitVec.ofNat 9 r.1, lastValid := true, lastOvf := false }

/-- The tile is at cycle cc and its die serves; otherwise the event does not come. -/
def tileEvent (p : Pos) (cc : Nat) (f : State → State) (s : State) : State :=
  if cc < (s.ut p).cycle || !s.dieUp p then s else f (s.run p cc)

/-- A matrix operation completes. The results of compared rows reach MAT_CHK_STAT only here, so a drain that an abort discards leaves none
(DESIGN CHOICE, log entry 101). -/
def matComplete (kind : BitVec 8) (p : Pos) (cc : Nat) : State → State := tileEvent p cc fun s =>
  let x := retireOp kind cc (s.core p).mat.ops
  match x.2 with
  | none => s
  | some o =>
    let s1 := (s.modMat p fun m => { m with ops := x.1 }).mSignal p (o.finish + 1) o.chamber
    match o.drain with
    | none => s1.run p cc
    | some d =>
      let s2 := (s1.modMat p fun m => d.results.foldl Matrix.checked m).run p cc
      if d.results.any fun r => r.2 == .mismatch then (s2.abortAt p (.status .checkMismatch)).tellLt p .checkMismatch else s2

def execMloadComplete (p : Pos) (cc : Nat) (s : State) : Out := .next (matComplete 2 p cc s)
def execMstepComplete (p : Pos) (cc : Nat) (s : State) : Out := .next (matComplete 3 p cc s)
def execMdrainComplete (p : Pos) (cc : Nat) (s : State) : Out := .next (matComplete 4 p cc s)

/-! ### Current keeper and ramp notices (R82 to R86, R342) -/

/-- MAIN runs a step on the core: issuing or stalled before pound end. -/
def State.mainRuns (s : State) (p : Pos) : Bool :=
  (s.stepAt p).isSome && (match (s.core p).ctl.main with
    | .issuing => true
    | .stalled pt => pt != 5
    | _ => false)

/-- The keeper fills the gap at LEVEL. -/
def execKeeperFill (p : Pos) (cc : Nat) (s : State) : Out := .next (tileEvent p cc (fun s =>
  let m := (s.core p).mat
  let k := m.keeper
  if s.mainRuns p && !m.stepping cc && !k.filling && !k.gapHeld && k.gapStart.isNone && k.thresh != 0 then
    s.modMat p fun m => { m with keeper := { m.keeper with
      filling := true, gapStart := some cc, filled := m.keeper.filled + 1
      ramp := (keeperPct m.keeper.level, keeperPct m.keeper.level, cc) } }
  else s) s)

/-- The gap has exceeded THRESH with no DOWN note. -/
def execKeeperGapExpiry (p : Pos) (cc : Nat) (s : State) : Out := .next (tileEvent p cc (fun s =>
  let m := (s.core p).mat
  let k := m.keeper
  let past := match k.gapStart with
    | some g => k.filling && decide (g + k.thresh.toNat < cc)
    | none => k.thresh == 0
  if s.mainRuns p && !m.stepping cc && !k.gapHeld && past then
    s.modMat p fun m => { m with keeper := { m.keeper with
      filling := false, gapStart := some cc, unDown := m.keeper.unDown + 1, ramp := (m.keeper.at_ cc, 0, cc) } }
  else s) s)

/-- The boost or clamp window of a note for cycle c. -/
def Regulator.note (r : Regulator) (down : Bool) (c : Nat) : Regulator :=
  if down then { r with clamp := some (c, c + 1024) } else { r with boost := some (c - 1024, c + 1024) }

def noteLevel (v : Nat) : Nat := if v = 0 then 25 else if v = 1 then 50 else if v = 2 then 100 else 0

/-- A lead below 2,000 counts as 2,000 (R85); an UP note naming 0 percent has no effect (R83). The keeper, which runs only while MAIN
executes a step (R86), takes no note outside it. -/
def effPownote (i : Issue) (s : State) : State :=
  let w := slotWord i.bundle .x
  let l := fld (s.rS i (xA w)) 0 32
  let down := bit w 51
  let level := noteLevel (fld w 52 2)
  let at_ := i.cc + max l 2000
  let s1 := s.modMat i.pos fun m => { m with keeper := { m.keeper with
    shortLead := if l < 2000 then m.keeper.shortLead + 1 else m.keeper.shortLead
    notes := if !down && level == 0 || !s.mainRuns i.pos then m.keeper.notes
      else m.keeper.notes ++ [{ down := down, level := level, at_ := at_ }] } }
  if !down && level == 0 then s1 else s1.modUt i.pos fun u => { u with pwr := u.pwr.note down at_ }
def execPownote (i : Issue) (s : State) : Out := .next (slotCmd .x 0x20 false effPownote i s)

/-- The keeper carries out a note in cycle cc. -/
def Keeper.carry (k : Keeper) (n : PowNote) (stepping : Bool) (cc : Nat) : Keeper :=
  let cur := if stepping then 100 else k.at_ cc
  let k1 := { k with notes := k.notes.erase n }
  if n.down then { k1 with ramp := (cur, min n.level cur, cc), gapHeld := true, filling := false, gapStart := none }
  else { k1 with ramp := (max n.level (k.at_ cc), max n.level (k.at_ cc), cc), upCover := true }
def execPownoteLeadExpiry (p : Pos) (cc : Nat) (s : State) : Out := .next (tileEvent p cc (fun s =>
  let m := (s.core p).mat
  match m.keeper.notes.find? fun n => decide (n.at_ ≤ cc) with
  | none => s
  | some n =>
    let k := if s.mainRuns p then m.keeper.carry n (m.stepping cc) cc else { m.keeper with notes := m.keeper.notes.erase n }
    (s.modMat p fun m => { m with keeper := k }).modUt p fun u => { u with pwr := u.pwr.note n.down n.at_ }) s)

end Sys2Proof.Machine
end

