-- ==== Sys2Proof/Machine/Move.lean ====
section
/-! DEFINITION. The X slot (Table 6.8): streams, remote writes and reads, barges, berths, windows and chambers as the
issuing core sees them. What happens on the way and at the destination is in the files of the fabric and of the berths. -/

namespace Sys2Proof.Machine

open Sys2Proof

def xw (i : Issue) : BitVec 64 := slotWord i.bundle .x

/-! ### Injection (R246, R247, R265, R270) -/

/-- The VC of RD_REQ, WR and BARGE of a context; a late core uses VC2 in place of VC1 (R44, R247). -/
def State.vcOf (s : State) (p : Pos) : Ctx → BitVec 2
  | .main => if (s.core p).ctl.lateRun then 2 else 1
  | .hand => 2
  | _ => 0

/-- Flits of VC2 requests of the core that are injected and not answered (R265). -/
def State.unanswered (s : State) (p : Pos) : Nat :=
  (s.core p).mov.slots.toList.foldl (fun n c => n + match c.op with | some o => o.vc2 | none => 0) 0
/-- A request of f flits fits the sluice window. -/
def State.fitsWindow (s : State) (p : Pos) (f : Nat) : Bool :=
  decide (s.unanswered p + f ≤ (s.ut p).mesh.w.toNat) || s.unanswered p == 0

/-- Change the operation with number n, if its slot still holds it. -/
def State.modOp (s : State) (p : Pos) (n : Nat) (f : MoveOp → MoveOp) : State :=
  s.modMov p fun m => { m with slots := m.slots.map fun c =>
    { c with op := c.op.map fun o => if o.id = n && o.outcome.isNone then f o else o } }

/-- The operation's request has left the network interface. -/
def MoveOp.sent (o : MoveOp) (now : Nat) : MoveOp := { o with injected := true, tInj := now }
/-- A VC2 request of the operation counts against the sluice window. -/
def MoveOp.counted (o : MoveOp) (flits : Nat) : MoveOp := { o with vc2 := o.vc2 + flits }

/-- A core's request goes to the network interface, which injects it when PACKET_ROUTE or EXPRESS_LAUNCH takes it there; on VC2 it
waits for the sluice window first, behind earlier ones (R265). -/
def State.inject (s : State) (p : Pos) (q : Packet) : State :=
  let s1 := s.emit q
  if q.vc ≠ 2 then s1
  else if (s.ut p).mesh.vc2Wait.isEmpty && s.fitsWindow p q.flits then s1.modOp p q.opId fun o => o.counted q.flits
  else s1.modMesh p fun m => { m with vc2Wait := m.vc2Wait ++ [s.nextPkt] }
def State.injectAll (s : State) (p : Pos) (qs : List Packet) : State := qs.foldl (fun s q => s.inject p q) s

/-- Cut n bytes at address a at every 4 KiB boundary of the address: (offset, length), at least one piece (R253). -/
def pieces (a n : Nat) : Nat → Nat → List (Nat × Nat)
  | 0, _ => []
  | f + 1, off =>
    let m := min (4096 - (a + off) % 4096) (n - off)
    if off + m ≥ n then [(off, m)] else (off, m) :: pieces a n f (off + m)
def piecesOf (a n : Nat) : List (Nat × Nat) := pieces a n (n / 4096 + 2) 0

/-- Operation number that the next operation of the core gets. -/
def State.opNo (s : State) (p : Pos) : Nat := (s.core p).mov.nextOp

/-- An answer that finds no request waiting is discarded and counted (R273, R274). -/
def State.late (s : State) (p : Pos) : State := s.modMesh p fun m => { m with lateAns := m.lateAns + 1 }
/-- The answer to a request that no status slot holds: its timer stops. -/
def State.settleLoose (s : State) (p : Pos) (op : Nat) : State :=
  if (s.ut p).mesh.loose.any fun l => l.op == op then s.modMesh p fun m => { m with loose := m.loose.filter fun l => l.op != op }
  else s.late p

/-! ### What the X slot shares -/

/-- Run f unless the slot is busy (R162). -/
def withSlot (i : Issue) (s : State) (f : State → State) : State :=
  if (s.slot i.pos (xSlot (xw i))).busy then s.slotBusy i.pos (xSlot (xw i)) else f s
/-- Complete at issue with a status (R163). -/
def State.xEnd (s : State) (i : Issue) (st : Status) : State := s.endAtIssue i.pos (xSlot (xw i)) (xChOpt (xw i)) st
def State.xStart (s : State) (i : Issue) (k : MoveKind) (f : MoveOp → MoveOp) : State :=
  s.startOp i.pos (xSlot (xw i)) (f (newOp k i.ctx i.idx (xChOpt (xw i))))

/-- Read the 64-byte descriptor in Aa through DO (R163, R179): its bytes, or SPD_ECC. -/
def State.xDesc (s : State) (i : Issue) : State × Option (List Byte) :=
  let a := (s.rA i (xA (xw i))).toNat
  let x := s.access i.pos 6 i.cc [(a, 64)]
  x.1.readSpd i .x 6 (i.cc + x.2.1) a 64

/-! ### Status slots: SWAIT, STEST -/

def effSwait (i : Issue) (s : State) : State :=
  s.laterS i 1 (xA (xw i)) (BitVec.ofNat 64 (statusCode (s.slot i.pos (xSlot (xw i))).status))
def effStest (i : Issue) (s : State) : State :=
  let c := s.slot i.pos (xSlot (xw i))
  s.laterS i 1 (xA (xw i)) (BitVec.ofNat 64 (statusCode c.status + 256 * b2n c.busy))

/-! ### STRM (R181, R182) -/

/-- The reservation of the tile's LT on a stack, in units of 8 bytes per cycle (7.5.3). -/
def State.reservation (s : State) (p : Pos) (m : Nat) : Nat :=
  match s.stepAt p with
  | none => 0
  | some r => r.man.reserve.foldl (fun n e => if some e.1 = s.ltAt p ∧ e.2.1 = m then n + e.2.2 else n) 0

/-- The fields of a stream descriptor as a stream of the slot. -/
def streamOf (i : Issue) (op tick : Nat) (d : List Byte) : Stream :=
  let w0 := wordOf d 0
  let start := fld w0 16 32
  let next := bit w0 3
  { slot := xSlot (xw i), op := op, ctx := i.ctx, idx := i.idx, outDir := fld w0 0 2 == 2, bulk := bit w0 2
    rate := fld w0 8 8, wait := if next then some (BitVec.ofNat 32 start) else none
    s := max (tick + start) (i.cc + 1)
    model := BitVec.ofNat 41 (fld (wordOf d 1) 0 41), loc := BitVec.ofNat 26 (fld (wordOf d 2) 0 26)
    rowBytes := fld (wordOf d 3) 0 26, rows := fld (wordOf d 3) 32 32, mstride := fld (wordOf d 4) 0 41
    lstride := fld (wordOf d 5) 0 26, page := none, cls := if bit w0 2 then .c3 else .c1, waitMig := false
    waitRing := false, req := 0, rel := 0, outst := [], ring := [], landAt := 0, late := false, stop := none }

/-- R182: the descriptor is refused. -/
def streamBad (last : Bool) (st : Stream) (d : List Byte) : Bool :=
  let w (n : Nat) := wordOf d n
  let len := st.rowBytes
  let far (base stride : Nat) : Nat := base + (st.rows - 1) * stride + len
  decide (fld (w 0) 0 2 ≠ 1 ∧ fld (w 0) 0 2 ≠ 2) || decide (fld (w 0) 4 4 ≠ 0) || decide (fld (w 0) 48 16 ≠ 0) ||
    decide (fld (w 1) 41 23 ≠ 2 ^ 19) || decide (fld (w 2) 26 38 ≠ 0) || decide (fld (w 3) 26 6 ≠ 0) ||
    decide (fld (w 4) 41 23 ≠ 0) || decide (fld (w 5) 26 38 ≠ 0) || (w 6 != 0) || (w 7 != 0) ||
    decide (st.model.toNat % 64 ≠ 0) || decide (st.loc.toNat % 64 ≠ 0) || decide (len % 64 ≠ 0) ||
    decide (st.mstride % 64 ≠ 0) || decide (st.lstride % 64 ≠ 0) ||
    (if st.bulk then decide (st.rate ≠ 0) else decide (st.rate < 1 ∨ 128 < st.rate)) ||
    (decide (st.rows ≥ 1) && (decide (far st.loc.toNat st.lstride > 2 ^ 26) || decide (far st.model.toNat st.mstride > 2 ^ 41))) ||
    (!st.outDir && decide (st.rows > 1) && decide (st.lstride < len)) || (st.wait.isSome && last)

/-- The stream's length in lines. -/
def Stream.lines (st : Stream) : Nat := st.rows * st.rowBytes / 64
/-- Model address and local address of line n. -/
def Stream.modelAt (st : Stream) (n : Nat) : Nat :=
  if st.rowBytes = 0 then st.model.toNat else st.model.toNat + (64 * n / st.rowBytes) * st.mstride + 64 * n % st.rowBytes
def Stream.localAt (st : Stream) (n : Nat) : Nat :=
  if st.rowBytes = 0 then st.loc.toNat else st.loc.toNat + (64 * n / st.rowBytes) * st.lstride + 64 * n % st.rowBytes
def Stream.pageAt (st : Stream) (n : Nat) : Nat := st.modelAt n / 65536

/-- The pages of the stream's next segments: up to 64 pages ahead are translated (R202). -/
def Stream.ahead (st : Stream) : Nat → Nat → List Nat
  | 0, _ => []
  | f + 1, n =>
    if n ≥ st.lines then []
    else
      let a := st.modelAt n
      let d := min (st.rowBytes - 64 * n % st.rowBytes) (65536 - a % 65536)
      a / 65536 :: st.ahead f (n + d / 64)

/-- The step's last pound runs on the position. -/
def State.lastPound (s : State) (p : Pos) : Bool :=
  match s.stepAt p with
  | some r => decide ((s.core p).ctl.pound.toNat + 1 ≥ r.man.pounds)
  | none => false

def effStrm (i : Issue) (s : State) : State := withSlot i s fun s =>
  match s.xDesc i with
  | (s1, none) => s1
  | (s1, some d) =>
    let st := streamOf i (s1.opNo i.pos) (s.ut i.pos).tick d
    if streamBad (s.lastPound i.pos) st d then s1.xEnd i .illegalDescriptor
    else if st.lines = 0 then s1.xEnd i .done
    else ((s1.xStart i .stream id).modMov i.pos fun m => { m with streams := m.streams ++ [st] }).askChart i.pos (st.ahead 64 0)

/-! ### RWR, RRD (R164, R233, R253) -/

/-- The banks run different steps, so scheduled traffic may not cross (R55). -/
def State.banksDiffer (s : State) : Bool := s.clocks.step.wCur != s.clocks.step.eCur

/-- The position at which a packet for an LT leaves the mesh, by the tables in force at p (R254). -/
def State.exitOfLt (s : State) (p : Pos) (lt : Nat) : Pos :=
  let m := (s.ut p).mesh
  let e := tblGet none m.ltmap (128 * b2n m.epoch + lt)
  match e with
  | some e => Fin.ofNat 144 e.pos.toNat
  | none => Fin.ofNat 144 (homePos lt)
/-- Traffic on VC1 to an LT would cross between banks at different steps (R55). -/
def State.timingUnsafe (s : State) (p : Pos) (vc : BitVec 2) (lt : Nat) : Bool :=
  vc == 1 && s.banksDiffer && decide (bankOf (s.exitOfLt p lt) ≠ bankOf p)

/-- The bytes of a source before its first 64-byte line with an uncorrectable word (R179). -/
def Scratch.cleanPrefix (d : Scratch) (a n : Nat) : Nat :=
  match d.badIn a n with
  | [] => n
  | w :: r => (4 * r.foldl min w) / 64 * 64 - a

/-- The packets of a remote write of n bytes, of which the first m are sent. -/
def rwrPackets (b : Packet) (dest : Word) (n m : Nat) (bytes : List Byte) : List Packet :=
  let ps := piecesOf (addrOff dest) m
  ps.mapIdx fun j e => { b with
    addr := dest + BitVec.ofNat 64 e.1, length := BitVec.ofNat 13 e.2, payload := (bytes.drop e.1).take e.2
    seq := BitVec.ofNat 16 j, last := decide (j + 1 = ps.length), total := n, base := dest }

def effRwr (i : Issue) (s : State) : State := withSlot i s fun s =>
  let w := xw i
  let dest := s.rS i (xA w)
  let sc := s.rS i (xC w)
  let src := (s.rA i (xB w)).toNat
  let n := fld sc 0 32
  let vc := s.vcOf i.pos i.ctx
  if addrClass dest ≠ 0 || fld sc 56 8 ≠ 0 then s.xEnd i .illegalDescriptor
  else if s.timingUnsafe i.pos vc (addrLt dest) then s.xEnd i .timingUnsafe_
  else
    let x := s.access i.pos 6 i.cc [(src, n)]
    let c := s.core i.pos
    let m := (c.spdAt (i.cc + x.2.1)).cleanPrefix src n
    let s1 := x.1.modSpd i.pos fun d => d.meet 6 src n
    let st : Status := if m < n then .memoryUncorrectable else .done
    if m = 0 ∧ 0 < n then
      s1.xStart i .write fun o => { o with outcome := some st }
    else
      let b := { s1.fromCtx i.pos i.ctx 3 vc with
        dest := BitVec.ofNat 8 (addrLt dest), slot := BitVec.ofNat 6 (xSlot w).val, win := sc.extractLsb' 32 8
        gen := sc.extractLsb' 40 16, opId := s1.opNo i.pos }
      let qs := rwrPackets b dest n m (c.portRead (i.cc + x.2.1) src m)
      (s1.xStart i .write fun o => { o with left := qs.length, worst := st, toLt := BitVec.ofNat 8 (addrLt dest) }).injectAll i.pos qs

/-- A read on VC1 whose route crosses between banks at different steps: to an LT, a position or a Canal die (R55). -/
def State.unsafeRead (s : State) (p : Pos) (vc : BitVec 2) (src : Word) : Bool :=
  if addrClass src == 2 && addrPosn src then
    vc == 1 && s.banksDiffer && decide (bankOf (Fin.ofNat 144 (addrPos src)) ≠ bankOf p)
  else addrLt src != 127 && s.timingUnsafe p vc (addrLt src)

def effRrd (i : Issue) (s : State) : State := withSlot i s fun s =>
  let w := xw i
  let src := s.rS i (xA w)
  let n := fld (s.rS i (xC w)) 0 32
  let dst := (s.rA i (xB w)).toNat
  let vc := s.vcOf i.pos i.ctx
  let isReg := addrClass src == 2
  if fld (s.rS i (xC w)) 32 32 ≠ 0 || !(addrClass src == 0 || (isReg && n == 8)) then s.xEnd i .illegalDescriptor
  else if s.unsafeRead i.pos vc src then s.xEnd i .timingUnsafe_
  else
    let ps := if isReg then [(0, 8)] else piecesOf (addrOff src) n
    let b : Packet := { s.fromCtx i.pos i.ctx 1 vc with
      dkind := if isReg && addrPosn src then 1 else if isReg && addrLt src == 127 then 2 else 0
      dest := BitVec.ofNat 8 (if isReg && addrPosn src then addrPos src else if isReg && addrLt src == 127 then 1 else addrLt src)
      slot := BitVec.ofNat 6 (xSlot w).val, opId := s.opNo i.pos }
    let qs := ps.mapIdx fun j e => { b with
      addr := src + BitVec.ofNat 64 e.1, seq := BitVec.ofNat 16 j, last := decide (j + 1 = ps.length), total := e.2
      base := BitVec.ofNat 64 (dst + e.1) }
    (s.xStart i .read fun o => { o with left := qs.length, dst := BitVec.ofNat 26 dst, toLt := if b.dkind == 0 then b.dest else 0xFF }).injectAll i.pos qs

/-! ### Barges (R166, R209, R210) -/

/-- R210: the send is refused. -/
def sendBad (combining : Bool) (sa sc : Word) : Bool :=
  let len := fld sc 0 13
  let op := fld sc 13 2
  decide (fld sa 53 11 ≠ 0) || decide (fld sc 43 4 ≠ 0) || decide (len > 4096) ||
    (if combining then decide (fld sc 31 12 = 0) || decide (len % (if op = 1 then 2 else 4) ≠ 0) else decide (fld sc 13 30 ≠ 0))

/-- The barge header of Table 8.1. -/
def bargeHdr (combining : Bool) (sa sc : Word) (srcLt : BitVec 7) (stepTag : Nat) : BargeHdr :=
  { w0 := sa
    w1 := put64 srcLt.toNat 0 7 ||| put64 (fld sc 0 13) 8 13 ||| put64 (b2n combining) 21 1 |||
      put64 (if combining then fld sc 13 2 else 0) 22 2 ||| put64 (fld sc 47 1) 24 1 ||| put64 (fld sc 48 16) 32 16 |||
      put64 stepTag 48 16
    w2 := put64 (if combining then fld sc 15 16 else 0) 0 16 ||| put64 (if combining then fld sc 31 12 else 0) 16 12 |||
      put64 1 28 12 }

/-- The step tag of what a context sends: BRT_STEP, or 0 from TOW (R211, R213). -/
def stepTagOf (u : UnderTile) (x : Ctx) : Nat := if x = .tow then 0 else u.stepNo.toNat + 4096 * u.attempt.toNat

/-- The packet of a staged barge (R252): MASK and ARG of a combining barge. -/
def State.bargePacket (s : State) (p : Pos) (vc : BitVec 2) (g : Staged) (op : Nat) : Packet :=
  { s.fromCtx p g.ctx 5 vc with
    dest := BitVec.ofNat 8 (hdrLt g.hdr), length := BitVec.ofNat 13 (hdrLen g.hdr)
    addr := BitVec.ofNat 64 (hdrLt g.hdr * 2 ^ 45), slot := BitVec.ofNat 6 g.slot.val
    arg := if hdrCombine g.hdr then BitVec.ofNat 32 (hdrKey g.hdr) else 0
    mask := if hdrCombine g.hdr then BitVec.ofNat 120 (2 ^ hdrSrc g.hdr) else 0
    hdr := g.hdr, payload := g.payload, opId := op }

def State.setSendStat (s : State) (p : Pos) (x : Ctx) (st : Status) : State :=
  s.modCore p fun c => c.modCtx x fun k => { k with sendStat := st }

/-- A staging entry that is free. -/
def MoveUnit.freeStage (m : MoveUnit) : Option (Fin 8) := (List.finRange 8).find? fun g => m.staging[g].isNone
def State.modStage (s : State) (p : Pos) (g : Fin 8) (f : Option Staged → Option Staged) : State :=
  s.modMov p fun m => { m with staging := vmod m.staging g f }

/-- Copy the barge into send staging and inject it. -/
def stageBarge (i : Issue) (combining blocking : Bool) (g : Fin 8) (s : State) : State :=
  let w := xw i
  let sa := s.rS i (xA w)
  let sc := s.rS i (xC w)
  let n := fld sc 0 13
  let a := (s.rA i (xB w)).toNat
  let x := s.access i.pos 6 i.cc [(a, n)]
  match x.1.readSpd i .x 6 (i.cc + x.2.1) a n with
  | (s1, none) => s1
  | (s1, some bytes) =>
    let k := s1.core i.pos
    let e : Staged := { slot := xSlot w, ctx := i.ctx, hdr := bargeHdr combining sa sc k.desc.lt (stepTagOf (s1.ut i.pos) i.ctx)
                        payload := bytes, deadline := i.cc + (vat k.ctl.patience (ctxNum i.ctx)).toNat
                        backoff := 32, retryAt := none, inFlight := true, fullAnswers := 0, firstFull := none }
    let q := s1.bargePacket i.pos (s1.vcOf i.pos i.ctx) e (s1.opNo i.pos)
    let s2 := ((s1.modStage i.pos g fun _ => some e).xStart i .send fun o => { o with left := 1, toLt := if q.dkind = 0 then q.dest else 0xFF }).inject i.pos q
    if blocking then s2.setSendStat i.pos i.ctx .done else s2

/-- SEND, SENDN and SENDC; a blocking SEND that is refused tells CR_SENDSTAT. -/
def sendAny (i : Issue) (combining blocking : Bool) (s : State) : State := withSlot i s fun s =>
  let w := xw i
  let fin (st : Status) (s : State) : State := (if blocking then s.setSendStat i.pos i.ctx st else s).xEnd i st
  if sendBad combining (s.rS i (xA w)) (s.rS i (xC w)) then fin .illegalDescriptor s
  else if s.timingUnsafe i.pos (s.vcOf i.pos i.ctx) (fld (s.rS i (xA w)) 0 7) then fin .timingUnsafe_ s
  else match (s.core i.pos).mov.freeStage with
    | none => fin .berthFull s
    | some g => stageBarge i combining blocking g s

def effSend (i : Issue) (s : State) : State := sendAny i false true s
def effSendn (i : Issue) (s : State) : State := sendAny i false false s
def effSendc (i : Issue) (s : State) : State := sendAny i true false s

/-! ### RECV, BPOP (R219) -/

/-- Scratchpad offset of an entry's payload. -/
def Berth.payloadAt (b : Berth) (e : Nat) : Nat := b.ring.toNat + e * b.entryBytes + 64

def effRecv (i : Issue) (s : State) : State :=
  let w := xw i
  let b := s.berth i.pos (xBerth w)
  match b.queue with
  | [] => s
  | e :: _ =>
    (s.laterA i 2 (xA w) (BitVec.ofNat 48 (b.payloadAt e.idx))).laterS i 2 (xB w)
      (put64 (hdrLen e.hdr) 0 13 ||| put64 (hdrSrc e.hdr) 13 7 ||| put64 (hdrTag e.hdr) 20 32)

def effBpop (i : Issue) (s : State) : State :=
  let c := s.core i.pos
  s.modBerth i.pos (xBerth (xw i)) fun b =>
    match b.queue with
    | e :: _ => if e.posted && e.whole && !toHandler c e.hdr then b.consume else b
    | [] => b

/-! ### Berths and windows (R213 to R215, R232, R234) -/

/-- R214: the descriptor is refused. -/
def berthBad (n : Nat) (b : Berth) (d : List Byte) : Bool :=
  let w0 := wordOf d 0
  let w1 := wordOf d 1
  let ents := fld w0 32 13
  let eb := fld w1 0 13
  decide (fld w0 26 6 ≠ 0) || decide (fld w0 45 3 ≠ 0) || bit w1 15 || decide (fld w1 48 16 ≠ 0) ||
    ((List.range 6).any fun k => wordOf d (k + 2) != 0) || decide (fld w0 0 26 % 64 ≠ 0) ||
    decide (ents = 0 ∨ 4096 < ents) || decide (eb % 64 ≠ 0 ∨ eb < 64 ∨ 4160 < eb) ||
    decide (fld w0 0 26 + ents * eb > 2 ^ 26) || (bit w1 13 && decide (n < 56)) || (bit w1 14 && !bit w1 13) ||
    b.open_ || decide (fld w0 48 16 = b.gen.toNat)

/-- Discard the pending handler invocations of a berth's ring. -/
def State.dropInvocations (s : State) (p : Pos) (b : Fin 64) : State :=
  s.modCtl p fun k => { k with queue := k.queue.filter fun v => v.berth != b }

/-- A BCLOSE that has not completed goes on to wait for what was accepted before it (R215). Beyond the rules' words: log entry 97 (DEDUCED). -/
def Berth.overtaken (b : Berth) : List (Fin 64 × List (Nat × Contrib × Status × Bool)) :=
  match b.closing with
  | none => []
  | some k => [(k, (b.queue.flatMap fun e => e.landing.map fun c => (e.idx, c, .done, false)) ++
      b.strays.map fun x => (x.1, x.2.1, x.2.2, x.2.2 == .done))]
/-- The berth as the descriptor opens it: an empty ring at generation GEN. -/
def berthOpened (b : Berth) (d : List Byte) (opening : Option (Fin 64)) : Berth :=
  let w0 := wordOf d 0
  let w1 := wordOf d 1
  { b with
    open_ := true, weir := bit w1 13, ordered := bit w1 14, gen := w0.extractLsb' 48 16, ring := w0.extractLsb' 0 26
    entries := fld w0 32 13, entryBytes := fld w1 0 13, weirTimeout := w1.extractLsb' 16 32, head := 0, tail := 0
    queue := [], groups := [], opening := opening, closing := none, closeAt := none, strays := [], leaving := b.leaving ++ b.overtaken }

def effBopen (i : Issue) (s : State) : State := withSlot i s fun s =>
  let w := xw i
  let n := xBerth w
  match s.xDesc i with
  | (s1, none) => s1
  | (s1, some d) =>
    if !berthOpen s i.pos i.ctx n then s1.xEnd i .noRights
    else if berthBad n.val (s.berth i.pos n) d then s1.xEnd i .illegalDescriptor
    else
      let s2 := s1.dropInvocations i.pos n
      if bit (wordOf d 1) 14 then
        (s2.xStart i .bopen id).modBerth i.pos n fun b => berthOpened b d (some (xSlot w))
      else (s2.modBerth i.pos n fun b => berthOpened b d none).xEnd i .done

def effBclose (i : Issue) (s : State) : State := withSlot i s fun s =>
  let w := xw i
  let n := xBerth w
  if !berthOpen s i.pos i.ctx n then s.xEnd i .noRights
  else if !(s.berth i.pos n).open_ then s.xEnd i .done
  else (s.xStart i .bclose id).modBerth i.pos n fun b =>
    { b with open_ := false, closing := some (xSlot w), closeAt := some (i.cc + 1) }

/-- The berth takes barges in cycle cc. -/
def Berth.takes (b : Berth) (cc : Nat) : Bool :=
  b.open_ || match b.closeAt with | some c => decide (cc < c) | none => false
/-- Every barge accepted has landed. -/
def Berth.landed (b : Berth) : Bool := b.strays.isEmpty && b.queue.all fun e => (e.whole || e.voided || e.member) && e.landing.isEmpty

/-- BCLOSE completes once every barge accepted before the close has landed (R215), one that a BOPEN overtook as well. -/
def execBcloseComplete (p : Pos) (b : Fin 64) (cc : Nat) (s : State) : Out := .next (
  if cc < (s.ut p).cycle then s
  else
    let s1 := s.run p cc
    let h := s1.berth p b
    match h.leaving.find? fun x => x.2.isEmpty with
    | some x => (s1.endOp p x.1 .done).modBerth p b fun h => { h with leaving := h.leaving.erase x }
    | none => match h.closing, h.closeAt with
      | some k, some c => if c ≤ cc && h.landed then (s1.endOp p k .done).modBerth p b fun h => { h with closing := none, closeAt := none } else s1
      | _, _ => s1)

/-- R232: the descriptor is refused. -/
def windowBad (b : Window) (d : List Byte) : Bool :=
  let w (n : Nat) := wordOf d n
  let base := fld (w 0) 0 26
  let len := fld (w 0) 32 27
  decide (fld (w 0) 26 6 ≠ 0) || decide (fld (w 0) 59 5 ≠ 0) || decide (fld (w 1) 16 48 ≠ 0) || decide (fld (w 3) 56 7 ≠ 0) ||
    ((List.range 4).any fun k => w (k + 4) != 0) || decide (base % 64 ≠ 0) || decide (len = 0 ∨ len % 64 ≠ 0) ||
    decide (base + len > 2 ^ 26) || b.open_ || decide (fld (w 1) 0 16 = b.gen.toNat)

def UnderTile.modWindow (u : UnderTile) (k : Fin 256) (f : Window → Window) : UnderTile :=
  { u with windows := vmod u.windows k f }
def State.window (s : State) (p : Pos) (k : Fin 256) : Window := (s.ut p).windows[k]
def State.modWindow (s : State) (p : Pos) (k : Fin 256) (f : Window → Window) : State := s.modUt p fun u => u.modWindow k f

def windowOpened (b : Window) (d : List Byte) : Window :=
  { b with
    open_ := true, gen := (wordOf d 1).extractLsb' 0 16, base := (wordOf d 0).extractLsb' 0 26
    length := (wordOf d 0).extractLsb' 32 27, rights := (wordOf d 3).append (wordOf d 2), closing := none, closeAt := none
    era := b.era + 1, leaving := match b.closing with | some k => b.leaving ++ [(k, b.era)] | none => b.leaving }

def effWopen (i : Issue) (s : State) : State := withSlot i s fun s =>
  let n := xWindow (xw i)
  match s.xDesc i with
  | (s1, none) => s1
  | (s1, some d) =>
    if !windowOpen s i.pos i.ctx n then s1.xEnd i .noRights
    else if windowBad (s.window i.pos n) d then s1.xEnd i .illegalDescriptor
    else (s1.modWindow i.pos n fun b => windowOpened b d).xEnd i .done

def effWclose (i : Issue) (s : State) : State := withSlot i s fun s =>
  let n := xWindow (xw i)
  if !windowOpen s i.pos i.ctx n then s.xEnd i .noRights
  else if !(s.window i.pos n).open_ then s.xEnd i .done
  else (s.xStart i .wclose id).modWindow i.pos n fun b =>
    { b with open_ := false, closing := some (xSlot (xw i)), closeAt := some (i.cc + 1) }

/-- The window takes writes in cycle cc. -/
def Window.takes (b : Window) (cc : Nat) : Bool :=
  b.open_ || match b.closeAt with | some c => decide (cc < c) | none => false
/-- An accepted write of which not every byte has landed by cycle cc. -/
def WAcc.landing (a : WAcc) (cc : Nat) : Bool :=
  a.refused.isNone && (decide (cc < a.landAt) || match a.last with | some l => decide (a.got ≤ l) | none => true)

/-- WCLOSE completes in the cycle after every write accepted before the close has landed (R234), one that a WOPEN overtook as well. -/
def execWcloseComplete (p : Pos) (w : Fin 256) (cc : Nat) (s : State) : Out := .next (
  if cc < (s.ut p).cycle then s
  else
    let s1 := s.run p cc
    let h := s1.window p w
    match h.leaving.find? fun x => h.accs.all fun a => a.era != x.2 || !a.landing cc with
    | some x => (s1.endOp p x.1 .done).modWindow p w fun h => { h with leaving := h.leaving.erase x }
    | none => match h.closing, h.closeAt with
      | some k, some c =>
        if c ≤ cc && h.accs.all (fun a => !a.landing cc) then
          (s1.endOp p k .done).modWindow p w fun h => { h with closing := none, closeAt := none }
        else s1
      | _, _ => s1)

/-! ### Chambers (R236 to R243) -/

/-- The class 0x3 address of a Canal chamber. -/
def canalAddr (j : BitVec 13) : Word := put64 3 60 4 ||| put64 0x7F 45 7 ||| j.zeroExtend 64

def effCarm (i : Issue) (s : State) : State :=
  let w := xw i
  let n := (s.rS i (xB w)).extractLsb' 0 32
  if xCn w then
    s.emit { s.fromCtx i.pos i.ctx 0xD 0 with
      dkind := 2, dest := 1, addr := canalAddr (xChamber w), length := 4, payload := natBytes n.toNat 4 }
  else s.later i 2 (.arm (Fin.ofNat 2048 (xChamber w).toNat) n)

def effCsig (i : Issue) (s : State) : State := withSlot i s fun s =>
  let w := xw i
  let a := s.rS i (xA w)
  let n := (s.rS i (xB w)).extractLsb' 0 32
  if addrClass a ≠ 3 then s.xEnd i .illegalDescriptor
  else if addrLt a < 120 && (s.core i.pos).desc.lt.toNat == addrLt a then
    (s.later i 1 (.sig (Fin.ofNat 2048 (addrChamber a)) n.toNat)).xStart i .signal fun o => { o with outcome := some .done }
  else
    let canal := addrLt a == 127
    (s.xStart i .signal fun o => { o with left := 1, toLt := if canal then 0xFF else BitVec.ofNat 8 (addrLt a) }).inject i.pos
      { s.fromCtx i.pos i.ctx 7 0 with
        dkind := if canal then 2 else 0, dest := if canal then 1 else BitVec.ofNat 8 (addrLt a), arg := n, addr := a
        slot := BitVec.ofNat 6 (xSlot w).val, opId := s.opNo i.pos }

/-- A WAIT that issues has nothing left to do; the stall is decided when its bundle opens. -/
def effCwait (i : Issue) (s : State) : State := if xCn (xw i) then s else s.modCtl i.pos fun k => { k with probed := some i.cc }
def effCtest (i : Issue) (s : State) : State :=
  let c := (s.ut i.pos).chamber ((xChamber (xw i)).toNat % 2048)
  (s.modCtl i.pos fun k => { k with probed := some i.cc }).laterS i 2 (xA (xw i)) (c.count.zeroExtend 64 ||| put64 (b2n c.reached) 32 1)

/-! ### The opcode map of the X slot -/

/-- The effect of an X-slot opcode; STALL_RELEASE issues a held bundle through it. -/
def xEffect (op : Nat) : Issue → State → State :=
  match op with
  | 0x01 => effStrm | 0x02 => effSwait | 0x03 => effStest | 0x04 => effRwr | 0x05 => effRrd
  | 0x08 => effSend | 0x09 => effSendn | 0x0A => effSendc | 0x0B => effRecv | 0x0C => effBpop
  | 0x0D => effBopen | 0x0E => effBclose | 0x0F => effWopen | 0x10 => effWclose
  | 0x18 => effCarm | 0x19 => effCsig | 0x1A => effCwait | 0x1B => effCtest | 0x20 => effPownote
  | _ => fun _ s => s

def execStrm (i : Issue) (s : State) : Out := .next (slotCmd .x 0x01 false effStrm i s)
def execSwait (i : Issue) (s : State) : Out := .next (slotCmd .x 0x02 false effSwait i s)
def execStest (i : Issue) (s : State) : Out := .next (slotCmd .x 0x03 false effStest i s)
def execRwr (i : Issue) (s : State) : Out := .next (slotCmd .x 0x04 false effRwr i s)
def execRrd (i : Issue) (s : State) : Out := .next (slotCmd .x 0x05 false effRrd i s)
def execSend (i : Issue) (s : State) : Out := .next (slotCmd .x 0x08 false effSend i s)
def execSendn (i : Issue) (s : State) : Out := .next (slotCmd .x 0x09 false effSendn i s)
def execSendc (i : Issue) (s : State) : Out := .next (slotCmd .x 0x0A false effSendc i s)
def execRecv (i : Issue) (s : State) : Out := .next (slotCmd .x 0x0B false effRecv i s)
def execBpop (i : Issue) (s : State) : Out := .next (slotCmd .x 0x0C false effBpop i s)
def execBopen (i : Issue) (s : State) : Out := .next (slotCmd .x 0x0D false effBopen i s)
def execBclose (i : Issue) (s : State) : Out := .next (slotCmd .x 0x0E false effBclose i s)
def execWopen (i : Issue) (s : State) : Out := .next (slotCmd .x 0x0F false effWopen i s)
def execWclose (i : Issue) (s : State) : Out := .next (slotCmd .x 0x10 false effWclose i s)
def execCarm (i : Issue) (s : State) : Out := .next (slotCmd .x 0x18 false effCarm i s)
def execCsig (i : Issue) (s : State) : Out := .next (slotCmd .x 0x19 false effCsig i s)
def execCwait (i : Issue) (s : State) : Out := .next (slotCmd .x 0x1A false effCwait i s)
def execCtest (i : Issue) (s : State) : Out := .next (slotCmd .x 0x1B false effCtest i s)

/-! ### MOVE_COMPLETION (R161, R168, 5.7) -/

/-- A completed operation frees its slot and signals its chamber, unless an abort cancelled it. A stream, write or read that
ends with MEMORY_UNCORRECTABLE raises MEM_UNCORRECTABLE in the context that issued it. -/
def State.freeSlot (s : State) (p : Pos) (k : Fin 64) (o : MoveOp) (st : Status) : State :=
  let s1 := (s.modSlot p k fun _ => { busy := false, status := if o.cancelled then .stepAborted else st, op := none }).modMov p
    fun m => { m with streams := m.streams.filter fun x => x.op != o.id }
  let s2 := if o.cancelled then s1 else s1.signalCh p o.ch
  let h := o.kind == .stream || o.kind == .write || o.kind == .read
  if h && st == .memoryUncorrectable && !o.cancelled then s2.fault p o.ctx o.idx 8 .memUncorrectable else s2

def execMoveCompletion (p : Pos) (slot : Fin 64) (cc : Nat) (s : State) : Out := .next (
  if cc < (s.ut p).cycle then s
  else
    let s1 := s.run p cc
    match (s1.slot p slot).op with
    | none => s1
    | some o => match o.outcome with
      | none => s1
      | some st => if o.landAt ≤ cc then s1.freeSlot p slot o st else s1)

end Sys2Proof.Machine
end

