-- ==== Sys2Proof/Machine/Stream.lean ====
section
/-! DEFINITION. The stream engine (7.3), the landing ring (7.4.1) and the chart cache's fills (7.6.2). -/

namespace Sys2Proof.Machine

open Sys2Proof

def State.stream (s : State) (p : Pos) (k : Fin 64) : Option Stream := (s.core p).mov.streams.find? fun x => x.slot == k
def State.modStream (s : State) (p : Pos) (op : Nat) (f : Stream → Stream) : State :=
  s.modMov p fun m => { m with streams := m.streams.map fun x => if x.op = op then f x else x }
def State.modStg (s : State) (p : Pos) (f : Staging → Staging) : State := s.modUt p fun u => { u with stg := f u.stg }
def State.modCht (s : State) (p : Pos) (f : ChartCache → ChartCache) : State := s.modUt p fun u => { u with cht := f u.cht }

/-- The stream moves the lines below this one. -/
def Stream.limit (st : Stream) : Nat := match st.stop with | some x => x.1 | none => st.lines
/-- The stream ends at line n with a status, unless it ends earlier. -/
def Stream.stopAt (st : Stream) (n : Nat) (x : Status) : Stream :=
  if n < st.limit ∨ st.stop.isNone then { st with stop := some (n, x) } else st

/-- The tile is at cycle cc with a live stream in the slot. -/
def withStream (p : Pos) (k : Fin 64) (cc : Nat) (f : Stream → State → State) (s : State) : State :=
  if cc < (s.ut p).cycle then s
  else
    let s1 := s.run p cc
    match s1.stream p k with
    | some st => f st s1
    | none => s1

/-! ### Page entry (R183, R187, R202, R205, R206, R312) -/

/-- The page lies in an enabled companion window. -/
def Cwin.has (w : Cwin) (page : Nat) : Bool :=
  w.en && w.pages != 0 && decide (w.basePage.toNat ≤ page) && decide (page < w.basePage.toNat + w.pages.toNat)
def State.inCwin (s : State) (page : Nat) : Bool := !s.intake.pcieRuntime && s.intake.cwin.toList.any fun w => w.has page

/-- RATE of the LT's running C1 streams whose current page lies in a stack, other than stream op. -/
def State.c1Rate (s : State) (p : Pos) (op m : Nat) : Nat :=
  let here (x : Stream) : Bool := match x.page with | some e => (entStack e.2).val == m | none => false
  (s.core p).mov.streams.foldl (fun n x => if x.op != op && !x.bulk && x.cls == .c1 && here x then n + x.rate else n) 0

/-- The class in which the stream carries a page of stack m. Beyond the rules' words: log entry 32 (DEDUCED). -/
def State.pageClass (s : State) (p : Pos) (st : Stream) (page m : Nat) : HbmClass :=
  if st.bulk || s.inCwin page || decide (s.c1Rate p st.op m + st.rate > s.reservation p m) then .c3 else .c1

/-- Post a demand migration (R206). -/
def State.demand (s : State) (page : BitVec 25) (e : Word) : State :=
  if !s.chart.demand || !entValid e then s
  else if s.chart.queue.length < 256 then s.modChart fun c => { c with queue := c.queue ++ [{ page := page, kind := .demand }] }
  else s.modChart fun c => { c with dropped := c.dropped + 1 }

/-- The stream ends with PAGE_NOT_PRESENT at its next line. -/
def State.pageFault (s : State) (p : Pos) (st : Stream) : State :=
  (s.modStream p st.op fun x => x.stopAt st.req .pageNotPresent).modCht p fun c =>
    { c with faultAddr := BitVec.ofNat 41 (st.modelAt st.req), faultValid := true }

/-- The engine enters the page of its next line with the entry its chart cache holds, which becomes the most recently used. -/
def State.enterPage (s : State) (p : Pos) (st : Stream) (e : Word) : State :=
  let page := BitVec.ofNat 25 (st.pageAt st.req)
  let m := (entStack e).val
  if entMig e then
    if st.waitMig then s
    else (s.modStream p st.op fun x => { x with waitMig := true }).modStg p fun g => { g with migWait := g.migWait + 1 }
  else if !entHere e then (s.pageFault p st).demand page e
  else if st.outDir && entRo e then s.modStream p st.op fun x => x.stopAt st.req .noRights
  else if !st.bulk && bankOfStack (entStack e) != bankOf p && s.banksDiffer then
    s.modStream p st.op fun x => x.stopAt st.req .timingUnsafe_
  else
    let cls := s.pageClass p st page.toNat m
    let s1 := s.modStream p st.op fun x => { x with page := some (page, e), cls := cls, waitMig := false }
    let s2 := if !st.bulk && cls == .c3 then s1.modStg p fun g => { g with demoted := g.demoted + 1 } else s1
    s2.modCht p fun c => { c with
      ents := (c.ents.filter fun x => x.page == page).map (fun x => { x with count := satAdd x.count 1 }) ++ c.ents.filter fun x => x.page != page }

/-- The stream stands before a page it has not entered. -/
def Stream.before (st : Stream) : Bool :=
  st.stop.isNone && decide (st.req < st.lines) &&
    match st.page with | some e => e.1 != BitVec.ofNat 25 (st.pageAt st.req) | none => true

/-- The chart cache asks for the pages that lie ahead of the stream (R202). -/
def State.translateAhead (s : State) (p : Pos) (st : Stream) : State := s.askChart p (st.ahead 64 st.req)

/-- A page that the chart cache holds is entered; for any other its line is read. Either way up to 64 pages ahead are translated. -/
def execStreamPageEntry (p : Pos) (slot : Fin 64) (cc : Nat) (s : State) : Out := .next (withStream p slot cc (fun st s =>
  if !st.before then s
  else
    let page := BitVec.ofNat 25 (st.pageAt st.req)
    match (s.ut p).cht.ents.find? fun e => e.page == page with
    | some e => (s.enterPage p st e.entry).translateAhead p st
    | none => s.translateAhead p st) s)

/-- The chart line that the page's entry stands in arrives (R202). A read that was refused or found the line uncorrectable fills nothing,
and is made again when the page is next wanted. Beyond the rules' words: log entry 88 (DESIGN CHOICE). -/
def execChartCacheFill (p : Pos) (page : BitVec 25) (s : State) : Out := .next (
  match s.net.find? fun q => q.place == .delivered p && q.type == 0xA && decide (q.tag = .fill p (page.toNat / 8)) with
  | none => s
  | some q =>
    let s1 := (s.dropPacket q.id).settleLoose p q.opId
    if q.status = .done then s1.chartFill p page q.payload
    else s1.modCht p fun c => { c with pendFill := c.pendFill.filter fun x => x.toNat / 8 != page.toNat / 8 })

/-! ### Requests (R185, R188) -/

/-- First line of the next chunk. -/
def chunkEnd (n : Nat) : Nat := (n / 16 + 1) * 16
/-- The lines from n on that lie in one chunk and in the page entered, below the limit. -/
def Stream.run1 (st : Stream) (n : Nat) : List Nat :=
  (List.range' n (min (chunkEnd n) st.limit - n)).takeWhile fun k => st.pageAt k == st.pageAt n

/-- The earliest cycle for chunk j: paced at RATE for a C1 stream (R185). Beyond the rules' words: log entry 32 (DEDUCED). -/
def Stream.paced (st : Stream) (j : Nat) : Nat := if st.bulk then st.s else st.s + cdiv (j * 128) st.rate

/-- The stream has entered the page of its next line and its pound has begun. -/
def Stream.ready (st : Stream) (cc : Nat) : Bool :=
  st.wait.isNone && decide (st.req < st.limit) && !st.before && st.page.isSome && decide (st.paced (st.req / 16) ≤ cc)

/-- Bytes of the landing ring in use: requested and not released. -/
def State.ringUsed (s : State) (p : Pos) : Nat :=
  (s.core p).mov.streams.foldl (fun n x => if x.outDir then n else n + 64 * (x.req - x.rel)) 0
def State.ringRoom (s : State) (p : Pos) (n : Nat) : Bool :=
  decide (s.ringUsed p + 64 * n ≤ (s.ut p).stg.ringMib.toNat * 2 ^ 20)

/-- VC of a stream's line request: VC0 for service code; VC1 for C1, VC2 for C3 and for a late core (R44, R247). -/
def State.lineVc (s : State) (p : Pos) (x : Ctx) (c : HbmClass) : BitVec 2 :=
  if x = .tow then 0
  else match c with
    | .c0 => 0
    | .c1 => if (s.core p).ctl.lateRun then 2 else 1
    | _ => 2

/-- The LINE_REQ of line n of a stream, to the line's home slice or to the row end (R190, R246). -/
def State.linePacket (s : State) (p : Pos) (st : Stream) (n : Nat) (data : Option (List Byte)) : Packet :=
  let e := match st.page with | some e => e.2 | none => 0
  let m := entStack e
  let a := entFrame e * 65536 + st.modelAt n % 65536
  let dst := match s.homeSlice m a with | some q => q | none => rowEnd m
  { s.fromCtx p st.ctx 9 (s.lineVc p st.ctx st.cls) with
    dkind := 1, dest := BitVec.ofNat 8 dst.val, length := if data.isSome then 64 else 0, payload := data.getD []
    addr := put64 m.val 36 5 ||| put64 a 0 36, slot := BitVec.ofNat 6 st.slot.val, seq := BitVec.ofNat 16 n, opId := st.op
    write := data.isSome, cls := st.cls, base := BitVec.ofNat 64 (st.modelAt n)
    total := st.s + 2048 + cdiv (n / 16 * 128) (max st.rate 1) - (s.ut p).tick, tag := .stream p st.slot n, last := decide (n + 1 = st.lines) }

/-- The stream's line requests would cross on VC1 between banks at different steps (R55). -/
def State.streamUnsafe (s : State) (p : Pos) (st : Stream) : Bool :=
  match st.page with
  | some e => s.lineVc p st.ctx st.cls == 1 && s.banksDiffer && bankOfStack (entStack e.2) != bankOf p
  | none => false

/-- Request the lines; the stream remembers what is outstanding. -/
def State.askLines (s : State) (p : Pos) (st : Stream) (ls : List Nat) : State :=
  if s.streamUnsafe p st then s.modStream p st.op fun x => x.stopAt st.req .timingUnsafe_
  else (s.injectAll p (ls.map fun n => s.linePacket p st n none)).modStream p st.op fun x =>
    { x with req := st.req + ls.length, outst := x.outst ++ ls.map fun n => (n, s.now), waitRing := false }

def execStreamChunkRequest (p : Pos) (slot : Fin 64) (cc : Nat) (s : State) : Out := .next (withStream p slot cc (fun st s =>
  let ls := st.run1 st.req
  if st.outDir || st.waitRing || !st.ready cc then s
  else if s.ringRoom p ls.length then s.askLines p st ls
  else s.modStream p st.op fun x => { x with waitRing := true }) s)

def execStreamRingReserve (p : Pos) (slot : Fin 64) (cc : Nat) (s : State) : Out := .next (withStream p slot cc (fun st s =>
  let ls := st.run1 st.req
  if st.waitRing && st.ready cc && s.ringRoom p ls.length then s.askLines p st ls else s) s)

/-! ### Scratchpad runs (R175) -/

/-- Adjacent runs joined. -/
def joinRuns : List (Nat × Nat) → List (Nat × Nat)
  | [] => []
  | (a, n) :: r =>
    match joinRuns r with
    | (b, m) :: q => if a + n = b then (a, n + m) :: q else (a, n) :: (b, m) :: q
    | [] => [(a, n)]

/-- An engine-driven access on a port at cycle cc: the state, and the cycle from which it counts as landed. -/
def State.engine (s : State) (p : Pos) (port cc : Nat) (runs : List (Nat × Nat)) : State × Nat :=
  let c := max cc (vat (s.core p).spd.free port)
  let x := portRuns port (s.ut p).tick c (joinRuns runs)
  (s.modSpd p fun d => { d with
    free := d.free.set (Fin.ofNat 8 port) x.1
    niBusy := if port = 7 then (d.niBusy.filter fun e => decide (cc < e.1 + e.2)) ++ portSpans 7 (s.ut p).tick c (joinRuns runs) else d.niBusy }, x.1)

/-- Bytes reach the scratchpad in cycle due − 1 and are read from due on. -/
def State.land (s : State) (p : Pos) (due a : Nat) (bs : List Byte) : State :=
  if bs.isEmpty then s else s.modCore p fun c => c.later due (.mem a bs)

/-- Bytes that a port moves from cycle c on, chunk by chunk: each reaches the scratchpad in the cycle of its chunk. -/
def State.landChunks (s : State) (p : Pos) (f : Nat → List Byte → RegDst) : Nat → Nat → Nat → List Byte → State
  | 0, _, _, _ => s
  | n + 1, c, a, bs =>
    let k := 1024 - a % 1024
    State.landChunks (if bs.isEmpty then s else s.modCore p fun x => x.later (c + 1) (f a (bs.take k))) p f n (c + 1) (a + k) (bs.drop k)
/-- NI writes a run of bytes; the cycle from which all of it counts as landed. -/
def State.niWrite (s : State) (p : Pos) (cc a : Nat) (bs : List Byte) (f : Nat → List Byte → RegDst) : State × Nat :=
  let x := s.engine p 7 cc [(a, bs.length)]
  (x.1.landChunks p f (chunksOf a bs.length) (x.2 - chunksOf a bs.length) a bs, x.2)

/-! ### Release and reading (R185, R186) -/

def State.countLate (s : State) (p : Pos) (st : Stream) (late : Bool) : State :=
  if late && !st.late && !st.bulk then
    (s.modStream p st.op fun x => { x with late := true }).modStg p fun g => { g with late := g.late + 1 }
  else s

/-- The lines of the next chunk to be released. -/
def Stream.nextOut (st : Stream) : List Nat := List.range' st.rel (min (chunkEnd st.rel) st.limit - st.rel)
/-- The next chunk has arrived and its release cycle has come by cycle cc (R185). -/
def Stream.dueIn (st : Stream) (cc : Nat) : Bool :=
  let due := if st.bulk then st.s else st.s + 2048 + cdiv (st.rel / 16 * 128) st.rate
  !st.outDir && !st.nextOut.isEmpty && st.wait.isNone && decide (due ≤ cc) && st.nextOut.all fun k => st.ring.any fun e => e.1 == k
/-- Write the next chunk through DI. -/
def State.releaseChunk (s : State) (p : Pos) (st : Stream) (cc : Nat) : State :=
  let ls := st.nextOut
  let x := s.engine p 5 cc (ls.map fun k => (st.localAt k, 64))
  let s1 := ls.foldl (fun s k => s.land p x.2 (st.localAt k) (match st.ring.find? fun e => e.1 == k with | some e => e.2 | none => [])) x.1
  let s2 := s1.modStream p st.op fun y => { y with
    rel := st.rel + ls.length, ring := y.ring.filter fun e => decide (e.1 ≥ st.rel + ls.length), landAt := max y.landAt x.2 }
  s2.countLate p st (decide (x.2 > st.s + 2048 + cdiv ((st.rel / 16 + 1) * 128) (max st.rate 1) + 8))
/-- DI serves every stream chunk whose release cycle has come, before an RRD landing (R175): at most n chunks. -/
def State.releaseDue (p : Pos) (cc : Nat) : Nat → State → State
  | 0, s => s
  | n + 1, s => match (s.core p).mov.streams.find? fun st => st.dueIn cc with
    | some st => State.releaseDue p cc n (s.releaseChunk p st cc)
    | none => s
/-- Lines in the tile's landing ring. -/
def State.ringLines (s : State) (p : Pos) : Nat := (s.core p).mov.streams.foldl (fun n st => n + st.ring.length) 0

/-- While segments are zeroed the port serves nothing (R177). -/
def execStreamChunkRelease (p : Pos) (slot : Fin 64) (cc : Nat) (s : State) : Out := .next (withStream p slot cc (fun st s =>
  if st.dueIn cc && !(s.core p).spd.zeroing then s.releaseChunk p st cc else s) s)

/-- Read the lines through DO up to the first with an uncorrectable word: the bytes of each line before it. -/
def outLines (d : Scratch) (st : Stream) : List Nat → List (Nat × List Byte) × Option Nat
  | [] => ([], none)
  | n :: r =>
    if (d.badIn (st.localAt n) 64).isEmpty then
      let x := outLines d st r
      ((n, memRead d.mem (st.localAt n) 64) :: x.1, x.2)
    else ([], some n)

def execOutChunkRead (p : Pos) (slot : Fin 64) (cc : Nat) (s : State) : Out := .next (withStream p slot cc (fun st s =>
  let j := st.req / 16
  if !st.outDir || !st.ready cc then s
  else if s.streamUnsafe p st then s.modStream p st.op fun x => x.stopAt st.req .timingUnsafe_
  else
    let ls := st.run1 st.req
    let x := s.engine p 6 cc (ls.map fun k => (st.localAt k, 64))
    let d := (s.core p).spd
    let r := outLines d st ls
    let s1 := x.1.modSpd p fun d => d.meetRuns 6 (ls.map fun k => (st.localAt k, 64))
    let s2 := s1.injectAll p (r.1.map fun e => s1.linePacket p st e.1 (some e.2))
    let s3 := s2.modStream p st.op fun y =>
      let y1 := { y with req := st.req + r.1.length, outst := y.outst ++ r.1.map fun e => (e.1, s.now) }
      match r.2 with
      | some n => y1.stopAt n .memoryUncorrectable
      | none => y1
    s3.countLate p st (decide (x.2 > st.s + cdiv ((j + 1) * 128) (max st.rate 1) + 8))) s)

/-! ### Answers and completion (R183, R184) -/

/-- The stream has moved every line it moves: IN landed, OUT accepted. -/
def Stream.finished (st : Stream) (cc : Nat) : Bool :=
  if st.outDir then decide (st.limit ≤ st.req) && st.outst.all (fun e => decide (st.limit ≤ e.1))
  else decide (st.rel = st.limit) && decide (st.landAt ≤ cc)

/-- A cancelled stream also waits for the requests that are under way (R168). -/
def execStreamComplete (p : Pos) (slot : Fin 64) (cc : Nat) (s : State) : Out := .next (withStream p slot cc (fun st s =>
  match (s.slot p slot).op with
  | some o =>
    if o.id == st.op && o.outcome.isNone && st.finished cc && (!o.cancelled || st.outst.isEmpty) then
      s.endOp p slot (match st.stop with | some x => x.2 | none => .done)
    else s
  | none => s) s)

/-- Line data or a write completion reaches the stream that asked (R183, R196). -/
def State.streamData (s : State) (p : Pos) (st : Stream) (n : Nat) (q : Packet) : State :=
  let s1 := s.modStream p st.op fun x => { x with outst := x.outst.filter fun e => e.1 != n }
  if q.status = .done then
    s1.modStream p st.op fun x => if x.outDir then { x with rel := x.rel + 1 } else { x with ring := x.ring ++ [(n, q.payload)] }
  else
    let s2 := s1.modStream p st.op fun x => x.stopAt n q.status
    if q.status = .memoryUncorrectable && !(s.ut p).stg.eccValid then
      s2.modStg p fun g => { g with eccAddr := BitVec.ofNat 41 (st.modelAt n / 64 * 64), eccValid := true }
    else s2

end Sys2Proof.Machine
end

