-- ==== Sys2Proof/Machine/Nic.lean ====
section
/-! DEFINITION. The network interface: what it answers for its tile (Table 9.9, R212), the answers it takes (R264, R265, R273),
remote writes at their windows (R233), chamber signals and arms (R242, R243), and mirrors (R240). -/

namespace Sys2Proof.Machine

open Sys2Proof

/-! ### Arrivals -/

/-- A header with a reserved encoding is discarded and counted (R253). -/
def State.discardBad (s : State) (p : Pos) (q : Packet) : State :=
  (s.dropPacket q.id).modMesh p fun m => { m with badHdr := m.badHdr + 1 }

/-- A packet of a type that has reached a position's network interface, in cycle cc. A tile whose own reach is lost answers
nothing (R272). -/
def arrive (type id cc : Nat) (f : Pos → Packet → State → State) (s : State) : State :=
  match s.packet id with
  | none => s
  | some q =>
    match q.place with
    | .delivered p =>
      if q.type.toNat ≠ type || q.taken || cc < (s.ut p).cycle then s
      else if (s.ut p).flags.lost then s.dropPacket id
      else if q.badHeader then s.discardBad p q
      else f p q (s.run p cc)
    | _ => s
/-- An arrival that moves bytes of the scratchpad: it waits while segments are zeroed, when no port serves an access (R177). -/
def arriveMem (type id cc : Nat) (f : Pos → Packet → State → State) (s : State) : State :=
  arrive type id cc (fun p q s => if (s.core p).spd.zeroing then s else f p q s) s

/-- The status that Table 9.9 gives a request; utReg: it names a register held in the under-tile. -/
def State.notServed (s : State) (p : Pos) (q : Packet) (utReg : Bool) : Option Status :=
  let u := s.ut p
  let lt := q.dkind == 0
  if lt && (s.ltAt p).map (fun l => l.val) != some q.dest.toNat then some .tileFenced
  else if lt && !utReg && u.flags.fencedDie then some .tileFenced
  else if u.flags.inTileReset then some .tileReset
  else if lt && !utReg && (u.flags.inCoreReset || u.pwr.state == 2 || u.pwr.state == 3) then some .tileReset
  else none

/-- R212. -/
def tagBad (u : UnderTile) (q : Packet) : Option Status :=
  if q.stepNo = 0 then none
  else if q.stepNo ≠ u.stepNo then some .noRights
  else if q.attempt ≠ u.attempt then some .staleGeneration
  else none

/-! ### Answers taken -/

/-- An echoed mark halves the window, once in 64 cycles, and marks the step (R60, R265). -/
def State.echoed (s : State) (p : Pos) (cc : Nat) : State :=
  let m := (s.ut p).mesh
  let free := match m.lastHalve with | some c => decide (c + 64 ≤ cc) | none => true
  let s1 := s.modMesh p fun m =>
    if free then { m with w := BitVec.ofNat 11 (max (m.w.toNat / 2) 8), halvings := m.halvings + 1, lastHalve := some cc, lastEcho := cc }
    else { m with lastEcho := cc }
  match s1.stepAt p with
  | some r => s1.modStep r.num fun r => { r with marked := true }
  | none => s1

/-- An answer reaches the network interface: the sluice learns of it and the packet leaves the fabric. An answer to a request
that has ended is discarded and counted (R273, R274). -/
def State.takeAnswer (s : State) (p : Pos) (q : Packet) (cc : Nat) (f : Fin 64 → MoveOp → State → State) : State :=
  let s1 := s.dropPacket q.id
  let s2 := if q.echo then s1.echoed p cc else s1
  match s2.slotOfOp p q.opId with
  | none => s2.late p
  | some k =>
    let s3 := if q.vc = 2 then s2.modOp p q.opId fun o => { o with vc2 := o.vc2 - q.rflits } else s2
    match (s3.slot p k).op with
    | some o => f k o s3
    | none => s3

/-- One packet of an operation has been answered: the first status other than DONE completes it, else the last answer does (R274). A
cancelled operation waits for all its answers (R168), and one whose source read uncorrectable for its own (R179). -/
def MoveOp.answered (o : MoveOp) (st : Status) : MoveOp :=
  let w := if o.worst = .done then st else o.worst
  let n := o.left - 1
  { o with left := n, worst := w, outcome := if n = 0 || (!o.cancelled && st != .done) then some w else none }
def State.opAnswered (s : State) (p : Pos) (n : Nat) (st : Status) : State := s.modOp p n fun o => o.answered st

/-! ### Remote writes (R233 to R235) -/

/-- Table 8.11, rows 3 to 6, and the rows shared with barges. -/
def State.writeRefused (s : State) (p : Pos) (q : Packet) (w : Window) (cc : Nat) : Option Status :=
  match s.notServed p q false with
  | some st => some st
  | none =>
    match tagBad (s.ut p) q with
    | some st => some st
    | none =>
      let off := addrOff q.base
      if !w.takes cc || (q.stepNo != 0 && !w.declared) then some .windowClosed
      else if q.gen ≠ w.gen then some .staleGeneration
      else if !(q.skind = 1 && q.stepNo != 0 && (portAt (Fin.ofNat 144 q.src.toNat)).isSome) &&
          !w.rights.getLsbD (if q.skind = 0 then q.src.toNat else 127) then some .noRights
      else if off < w.base.toNat || w.base.toNat + w.length.toNat < off + max q.total 1 then some .windowBounds
      else none

/-- The write of which a packet is part. -/
def WAcc.of (q : Packet) (a : WAcc) : Bool := a.skind == q.skind && a.src == q.src && a.op == q.opId
/-- A packet of the write has come; a write whose packets have all come and landed is forgotten. -/
def Window.saw (w : Window) (q : Packet) (land : Nat) : Window :=
  { w with accs := w.accs.map fun a =>
      if a.of q then { a with got := a.got + 1, landAt := max a.landAt land, last := if q.last then some q.seq.toNat else a.last }
      else a }
def Window.tidy (w : Window) (cc : Nat) : Window :=
  { w with accs := w.accs.filter fun a =>
      match a.last with
      | some l => decide (a.got ≤ l) || (a.refused.isNone && decide (cc < a.landAt))
      | none => true }

def execWr (id : Nat) (cc : Nat) (s : State) : Out := .next (arriveMem 3 id cc (fun p q s =>
  let k : Fin 256 := Fin.ofNat 256 q.win.toNat
  let w := (s.window p k).tidy cc
  let w1 : Window :=
    if w.accs.any fun a => a.of q then w
    else
      let r := s.writeRefused p q w cc
      { w with refused := if r.isSome then w.refused + 1 else w.refused
               accs := w.accs ++ [{ skind := q.skind, src := q.src, op := q.opId, refused := r, got := 0, last := none, landAt := 0, era := w.era }] }
  match (w1.accs.find? fun a => a.of q).bind fun a => a.refused with
  | some st => (s.modWindow p k fun _ => (w1.saw q 0).tidy cc).reply p q st []
  | none =>
    let x := s.niWrite p cc (addrOff q.addr) q.payload .mem
    (x.1.modWindow p k fun _ => w1.saw q x.2).replyFrom p q x.2 .done []) s)

/-- A WR_ANS reaches the core's move unit. -/
def State.wrAns (s : State) (p : Pos) (q : Packet) (cc : Nat) : State :=
  s.takeAnswer p q cc fun _ o s => s.opAnswered p o.id q.status

/-- Read data lands through DI, after every stream chunk that is due (R175, R246). -/
def State.rdData (s : State) (p : Pos) (q : Packet) (cc : Nat) : State :=
  s.takeAnswer p q cc fun _ o s =>
    let s1 := s.opAnswered p o.id q.status
    if q.status = .done then
      let x := (State.releaseDue p cc (s1.ringLines p) s1).engine p 5 cc [(q.base.toNat, q.payload.length)]
      (x.1.land p x.2 q.base.toNat q.payload).modMov p fun m =>
        { m with slots := m.slots.map fun c => { c with op := c.op.map fun y => if y.id = o.id then { y with landAt := max y.landAt x.2 } else y } }
    else s1

/-! ### Line answers -/

/-- Line data or a write completion for a stream: a line whose answer has been missed is late (R273, R274). -/
def State.streamLine (s : State) (p : Pos) (k : Fin 64) (n : Nat) (q : Packet) : State :=
  s.takeAnswer p q (s.ut p).cycle fun _ o s =>
    match s.stream p k with
    | some st => if st.op = o.id && st.outst.any (fun e => e.1 == n) then s.streamData p st n q else s.late p
    | none => s

/-- A slice's write-back has been answered: the line leaves, unless it has been wanted since. -/
def State.backDone (s : State) (p : Pos) (line : Nat) (q : Packet) : State :=
  ((s.dropPacket q.id).settleLoose p q.opId).modStg p fun g => { g with lines := g.lines.filter fun l => !(l.line == line && l.leaving) }

/-! ### Chambers (R242, R243) -/

/-- R242 at LH-C: its own record of the running steps, then the sending step's range. -/
def State.canalRefused (s : State) (q : Packet) : Option Status :=
  if q.stepNo = 0 then none
  else match s.stepNum q.stepNo.toNat with
    | none => some .noRights
    | some r =>
      if r.phase = .admitted then some .noRights
      else if r.attempt ≠ q.attempt then some .staleGeneration
      else
        let j := addrChamber q.addr
        if r.man.canalBase ≤ j ∧ j < r.man.canalBase + r.man.canalCount then none else some .noRights

/-- A lock-house is in reset: its attachments answer TILE_RESET (R449). -/
def State.houseResets (s : State) (d : Nat) : Bool :=
  let r := s.lkh.reset
  r.busy && !r.waiting && r.kind == 7 && r.target.toNat == d

/-- A SIGNAL reaches its chamber. In one cycle every ARM comes first, then every SIGNAL, then every WAIT and TEST (R237): a SIGNAL of the
cycle of a WAIT or TEST that has been carried out, like an ARM of the cycle of a SIGNAL, cannot come any more.
Beyond the rules' words: log entry 98 (DEDUCED). -/
def execChamberSignalArrival (id : Nat) (cc : Nat) (s : State) : Out := .next (
  match s.packet id with
  | none => s
  | some q =>
    match q.place with
    | .canal d =>
      if s.dieOff d then s.dropPacket id
      else if q.type = 7 ∧ d = 1 ∧ !q.badHeader then
        match (if s.houseResets 1 then some .tileReset else s.canalRefused q) with
        | some st => s.replyCanal d q st []
        | none =>
          let j := addrChamber q.addr
          ({ s.signalCanal j q.arg.toNat with canalSig := tblPut 0 s.canalSig j (cc + 1) } : State).replyCanal d q .done []
      else s
    | _ => arrive 7 id cc (fun p q s =>
        if (s.core p).ctl.probed = some cc then s
        else match s.notServed p q false with
        | some st => s.reply p q st []
        | none => match tagBad (s.ut p) q with
          | some st => s.reply p q st []
          | none => (s.signalTile p (addrChamber q.addr % 2048) q.arg.toNat).reply p q .done []) s)

/-- The answer to a CSIG; a completion signal has no slot of its own (R161). -/
def execCsigAns (id : Nat) (cc : Nat) (s : State) : Out := .next (arrive 8 id cc (fun p q s =>
  match s.slotOfOp p q.opId with
  | some _ => s.takeAnswer p q cc fun _ o s => s.opAnswered p o.id q.status
  | none => (s.dropPacket id).settleLoose p q.opId) s)

/-- An ARM of a Canal chamber is applied in LH-C, and the mirrors are then updated. -/
def execCanalArmArrival (id : Nat) (cc : Nat) (s : State) : Out := .next (
  match s.packet id with
  | none => s
  | some q =>
    if q.type = 0xD ∧ q.place = .canal 1 ∧ tblGet 0 s.canalSig (addrChamber q.addr) ≤ cc then
      let s1 := s.dropPacket id
      if s.houseResets 1 || s.dieOff 1 then s1 else s1.armCanal (addrChamber q.addr) (BitVec.ofNat 32 (bytesNat q.payload))
    else s)

end Sys2Proof.Machine
end

