-- ==== Sys2Proof/Machine/Berths.lean ====
section
/-! DEFINITION. Berths (8.3 to 8.6): acceptance of barges in the order of Table 8.8, landing, weir groups, delivery, and what a
sender does with the answer. -/

namespace Sys2Proof.Machine

open Sys2Proof

/-! ### Entries -/

/-- The berth has a free entry. -/
def Berth.hasRoom (b : Berth) : Bool := decide (b.queue.length < b.entries)
/-- The entry at the tail; an entry that a later one overtook is passed over. -/
def Berth.freeIdx (b : Berth) : Nat :=
  match (List.range b.entries).find? fun k => b.queue.all fun e => e.idx != (b.tail + k) % b.entries with
  | some k => (b.tail + k) % b.entries
  | none => b.tail
/-- Allocate the entry at the tail. -/
def Berth.alloc (b : Berth) (e : BEntry) : Berth :=
  { b with queue := b.queue ++ [{ e with idx := b.freeIdx }], tail := if b.entries = 0 then 0 else (b.freeIdx + 1) % b.entries }
def Berth.modEntry (b : Berth) (i : Nat) (f : BEntry → BEntry) : Berth :=
  { b with queue := b.queue.map fun e => if e.idx = i then f e else e }
def Berth.entry (b : Berth) (i : Nat) : Option BEntry := b.queue.find? fun e => e.idx == i
/-- Scratchpad offset of an entry. -/
def Berth.entryAt (b : Berth) (i : Nat) : Nat := b.ring.toNat + i * b.entryBytes

/-- The contribution's packet is answered. -/
def State.answerContrib (s : State) (p : Pos) (c : Contrib) (st : Status) : State :=
  match s.packet c.packet with
  | some q => s.reply p q st []
  | none => s

/-- The landing header (Table 8.7). -/
def landingHdr (b : Berth) (h : BargeHdr) (merged : Nat) (complete : Bool) (cyc : Nat) : List Byte :=
  natBytes h.w0.toNat 8 ++ natBytes ((h.w1 &&& ~~~(put64 0xFFFF 32 16)) ||| put64 b.gen.toNat 32 16).toNat 8 ++
    natBytes ((h.w2 &&& put64 (2 ^ 28 - 1) 0 28) ||| put64 merged 28 12 ||| put64 (b2n complete) 40 1).toNat 8 ++
    natBytes cyc 8 ++ List.replicate 32 0
/-- A barge or contribution lands in its own entry, header first, as NI moves its bytes (R218); the cycle in which it is whole. -/
def State.landEntry (s : State) (p : Pos) (k : Fin 64) (i cc : Nat) (h : BargeHdr) (pay : List Byte) : State × Nat :=
  let b := s.berth p k
  s.niWrite p cc (b.entryAt i) (landingHdr b h (hdrMerged h) false 0 ++ pay) (.ring k)
/-- Write an entry's landing header and payload. Beyond the rules' words: log entries 31 (DESIGN CHOICE) and 80 (DEDUCED). -/
def State.writeEntry (s : State) (p : Pos) (k : Fin 64) (i cc : Nat) (h : BargeHdr) (merged : Nat) (complete : Bool) (cyc : Nat)
    (pay : List Byte) : State :=
  let b := s.berth p k
  (s.land p cc (b.entryAt i) (landingHdr b h merged complete cyc)).land p cc (b.entryAt i + 64) pay

/-! ### Combining (R222, R226) -/

/-- n little-endian elements of k bytes. -/
def splitEls (k : Nat) : Nat → List Byte → List Nat
  | 0, _ => []
  | n + 1, bs => bytesNat (bs.take k) :: splitEls k n (bs.drop k)
/-- One element by element operation: add FP32, add BF16, add INT32, max FP32. -/
def combineEl (op : BitVec 2) (x y : Nat) : Nat :=
  let a := BitVec.ofNat 32 x
  let b := BitVec.ofNat 32 y
  if op = 0 then (f32Add a b).toNat
  else if op = 1 then ffRound bf16 (dec32 (f32Add (BitVec.ofNat 32 (x * 65536)) (BitVec.ofNat 32 (y * 65536))))
  else if op = 2 then (a + b).toNat
  else (f32Max a b).toNat
def combine (op : BitVec 2) (x y : List Byte) : List Byte :=
  let k := if op = 1 then 2 else 4
  ((splitEls k (x.length / k) x).zipWith (combineEl op) (splitEls k (y.length / k) y)).flatMap fun v => natBytes v k

/-- Contributions in ascending SRC_LT order, in arrival order for one LT. -/
def bySrc : List BEntry → List BEntry
  | [] => []
  | e :: r => ins e (bySrc r)
where
  ins (e : BEntry) : List BEntry → List BEntry
  | [] => [e]
  | x :: r => if hdrSrc e.hdr ≤ hdrSrc x.hdr then e :: x :: r else x :: ins e r

/-! ### Acceptance (R217, R221) -/

def Berth.group (b : Berth) (key : BitVec 16) : Option Group := b.groups.find? fun g => g.key == key
def hdrKey16 (h : BargeHdr) : BitVec 16 := BitVec.ofNat 16 (hdrKey h)
/-- Row 7: the contribution differs from its open group. -/
def groupDiffers (g : Group) (h : BargeHdr) : Bool :=
  g.op.toNat != hdrOp h || g.count.toNat != hdrCount h || g.length.toNat != hdrLen h || g.handler.toNat != hdrHandler h
/-- Every entry of the berth belongs to one ORDERED group (R226). -/
def Berth.groupFills (b : Berth) (g : Group) : Bool := !b.hasRoom && decide (g.members.length = b.queue.length)

/-- Rows 1 to 9 of Table 8.8. -/
def State.bargeRefused (s : State) (p : Pos) (q : Packet) (b : Berth) (cc : Nat) : Option Status :=
  match s.notServed p q false with
  | some st => some st
  | none =>
    match tagBad (s.ut p) q with
    | some st => some st
    | none =>
      let h := q.hdr
      let g := b.group (hdrKey16 h)
      if !b.takes cc || (q.stepNo != 0 && !b.declared) then some .berthClosed
      else if hdrGenChk h && hdrGen h != b.gen.toNat then some .staleGeneration
      else if hdrCombine h != b.weir then some .illegalDescriptor
      else if 64 + hdrLen h > b.entryBytes then some .illegalDescriptor
      else if b.weir && (match g with | some g => groupDiffers g h | none => false) then some .illegalDescriptor
      else if b.weir && (b.retired.contains (hdrKey16 h) || (b.ordered && (match g with | some g => b.groupFills g | none => false))) then
        some .heldTimeout
      else if !b.hasRoom && (!b.weir || b.ordered || g.isNone) then some .berthFull
      else none

/-- The entry a barge or contribution gets. -/
def newEntry (h : BargeHdr) (member : Bool) (c : Contrib) : BEntry :=
  { idx := 0, hdr := h, whole := false, voided := false, posted := false, combined := false, member := member
    landing := [c], payload := [] }
/-- The group a first contribution opens. -/
def newGroup (h : BargeHdr) (entry cc : Nat) : Group :=
  { key := hdrKey16 h, op := BitVec.ofNat 2 (hdrOp h), count := BitVec.ofNat 12 (hdrCount h), length := BitVec.ofNat 13 (hdrLen h)
    handler := BitVec.ofNat 8 (hdrHandler h), entry := entry, some1 := false, merged := 0, firstCc := cc, members := [entry] }

/-- The accepted barge gets its entry; a contribution to an open group of a berth that is not ORDERED joins the group's. -/
def Berth.accept (b : Berth) (h : BargeHdr) (c : Contrib) (cc : Nat) : Berth :=
  let i := b.freeIdx
  if !b.weir then b.alloc (newEntry h false c)
  else match b.group (hdrKey16 h) with
    | none => { b.alloc (newEntry h true c) with groups := b.groups ++ [newGroup h i cc] }
    | some g =>
      if b.ordered then
        { b.alloc (newEntry h true c) with groups := b.groups.map fun x => if x.key = g.key then { x with members := x.members ++ [i] } else x }
      else b.modEntry g.entry fun e => { e with landing := e.landing ++ [c] }

/-! ### Groups delivered (R223, R224, R226) -/

/-- The group leaves the berth with its result in its first entry; what has not become whole is a stray with a status, the
other entries of an ORDERED group are freed. -/
def Berth.deliver (b : Berth) (g : Group) (pay : List Byte) (stray : Status) : Berth :=
  let late := (b.queue.filter fun e => g.members.contains e.idx).flatMap fun e => e.landing.map fun c => (g.entry, c, stray)
  let q := (b.queue.filter fun e => e.idx == g.entry || !g.members.contains e.idx).map fun e =>
    if e.idx = g.entry then
      { e with whole := true, member := false, combined := true, landing := [], payload := pay
               hdr := { e.hdr with w2 := (e.hdr.w2 &&& put64 (2 ^ 28 - 1) 0 28) ||| put64 g.merged 28 12 } }
    else e
  { b with queue := q, groups := b.groups.filter fun x => x.key != g.key, strays := b.strays ++ late }

/-- The payload of a group: accumulated in its entry, or combined now in source order for an ORDERED berth. -/
def Berth.groupPayload (b : Berth) (g : Group) : List Byte :=
  if b.ordered then
    match bySrc (b.queue.filter fun e => g.members.contains e.idx && e.whole) with
    | [] => []
    | e :: r => r.foldl (fun x y => combine g.op x y.payload) e.payload
  else match b.entry g.entry with
    | some e => e.payload
    | none => []

/-- Deliver a group's result: the entry is written and becomes whole. -/
def State.deliverGroup (s : State) (p : Pos) (k : Fin 64) (g : Group) (complete : Bool) (cc : Nat) (stray : Status) : State :=
  let b := s.berth p k
  let pay := b.groupPayload g
  let h := match b.entry g.entry with | some e => e.hdr | none => {}
  (s.modBerth p k fun b => b.deliver g pay stray).writeEntry p k g.entry cc h g.merged complete (s.sinceTick p cc) pay

/-- The partial result of a group that ran out of time, or of entries; its KEY is retired until the next gate tick. -/
def State.partialGroup (s : State) (p : Pos) (k : Fin 64) (g : Group) (cc : Nat) : State :=
  (s.deliverGroup p k g false cc .heldTimeout).modBerth p k fun b => { b with retired := b.retired ++ [g.key] }

/-- Row 8's exception: the group that holds every entry is delivered before the contribution is refused. -/
def State.yieldFull (s : State) (p : Pos) (k : Fin 64) (q : Packet) (cc : Nat) : State :=
  let b := s.berth p k
  match b.group (hdrKey16 q.hdr) with
  | some g => if b.ordered && b.groupFills g && !b.retired.contains g.key then s.partialGroup p k g cc else s
  | none => s

/-- A barge whose header has been accepted lands at once; a contribution to an open group of a berth that is not ORDERED is held until it
is whole (R217, R218, R223). -/
def execBarge (id : Nat) (cc : Nat) (s : State) : Out := .next (arriveMem 5 id cc (fun p q s =>
  let k : Fin 64 := Fin.ofNat 64 (hdrBerth q.hdr)
  let b := s.berth p k
  match s.bargeRefused p q b cc with
  | some st =>
    let s1 := if st = .heldTimeout then s.yieldFull p k q cc else s
    let s2 := if st = .berthFull then s1.modBerth p k fun b => { b with fullAnswers := b.fullAnswers + 1 } else s1
    s2.reply p q st []
  | none =>
    let x := match b.group (hdrKey16 q.hdr), b.weir && !b.ordered with
      | some g, true => s.engine p 7 cc [(b.entryAt g.entry, 64 + q.payload.length)]
      | _, _ => s.landEntry p k b.freeIdx cc q.hdr q.payload
    let c : Contrib := { packet := id, hdr := q.hdr, payload := q.payload, landAt := x.2 }
    (x.1.modPacket id fun q => { q with taken := true }).modBerth p k fun b => b.accept q.hdr c cc) s)

/-! ### Landing (R218, R223, R224) -/

/-- A whole contribution goes into its group; the group that meets its COUNT is delivered, unless the berth is ORDERED. -/
def State.contribute (s : State) (p : Pos) (k : Fin 64) (g : Group) (c : Contrib) (cc : Nat) : State :=
  let b := s.berth p k
  let g1 := { g with merged := g.merged + hdrMerged c.hdr, some1 := true }
  let s1 := s.modBerth p k fun b => { b with groups := b.groups.map fun x => if x.key = g.key then g1 else x }
  if b.ordered then s1
  else
    let pay := match b.entry g.entry with
      | some e => if g.some1 then combine g.op e.payload c.payload else c.payload
      | none => c.payload
    let s2 := (s1.modBerth p k fun b => b.modEntry g.entry fun e => { e with payload := pay }).writeEntry p k g.entry cc c.hdr g1.merged false 0 pay
    if g.count.toNat ≤ g1.merged then
      (s2.modBerth p k fun b => { b with excess := b.excess + BitVec.ofNat 12 (g1.merged - g.count.toNat) }).deliverGroup p k g1 true cc .done
    else s2

/-- Entry e's first landing barge or contribution that is due by cycle cc becomes whole and is answered. -/
def State.wholeEntry (s : State) (p : Pos) (k : Fin 64) (e : BEntry) (c : Contrib) (cc : Nat) : State :=
  let b := s.berth p k
  let s1 := s.modBerth p k fun b => b.modEntry e.idx fun x => { x with landing := x.landing.erase c }
  if !b.weir then
    let s2 := s1.modBerth p k fun b => b.modEntry e.idx fun x => { x with whole := true, payload := c.payload }
    (s2.land p cc (b.entryAt e.idx + 24) (natBytes (s.sinceTick p c.landAt) 4)).answerContrib p c .done
  else
    let s2 := if b.ordered then s1.modBerth p k fun b => b.modEntry e.idx fun x => { x with whole := true, payload := c.payload } else s1
    match b.groups.find? fun g => g.members.contains e.idx with
    | some g => (s2.contribute p k g c cc).answerContrib p c .done
    | none => s2.answerContrib p c .done

/-- A stray contribution's payload is discarded. -/
def State.wholeStray (s : State) (p : Pos) (k : Fin 64) (x : Nat × Contrib × Status) : State :=
  (s.modBerth p k fun b => { b with
    strays := b.strays.erase x
    excess := if x.2.2 = .done then b.excess + BitVec.ofNat 12 (hdrMerged x.2.1.hdr) else b.excess }).answerContrib p x.2.1 x.2.2

/-- A barge that a BCLOSE overtaken by a BOPEN waits for has landed (R215). -/
def State.wholeLeft (s : State) (p : Pos) (k : Fin 64) (e cc : Nat) : State :=
  let due (x : Nat × Contrib × Status × Bool) : Bool := x.1 == e && decide (x.2.1.landAt ≤ cc)
  match (s.berth p k).leaving.flatMap (fun l => l.2.filter due) with
  | [] => s
  | x :: _ =>
    (s.modBerth p k fun b => { b with
      leaving := b.leaving.map fun l => (l.1, l.2.filter fun y => y != x)
      excess := if x.2.2.2 then b.excess + BitVec.ofNat 12 (hdrMerged x.2.1.hdr) else b.excess }).answerContrib p x.2.1 x.2.2.1

def execBargeWhole (p : Pos) (b : Fin 64) (e : Nat) (cc : Nat) (s : State) : Out := .next (
  if cc < (s.ut p).cycle then s
  else
    let s1 := s.run p cc
    let h := s1.berth p b
    match (h.entry e).bind fun x => (x.landing.find? fun c => decide (c.landAt ≤ cc)).map fun c => (x, c) with
    | some (x, c) => s1.wholeEntry p b x c cc
    | none =>
      match h.strays.find? fun x => x.1 == e && decide (x.2.1.landAt ≤ cc) with
      | some x => s1.wholeStray p b x
      | none => s1.wholeLeft p b e cc)

def execOrderedCombine (p : Pos) (b : Fin 64) (key : BitVec 16) (cc : Nat) (s : State) : Out := .next (
  if cc < (s.ut p).cycle then s
  else
    let s1 := s.run p cc
    let h := s1.berth p b
    match h.group key with
    | some g =>
      if h.ordered && decide (g.count.toNat ≤ g.merged) then
        (s1.modBerth p b fun h => { h with excess := h.excess + BitVec.ofNat 12 (g.merged - g.count.toNat) }).deliverGroup p b g true cc .done
      else s1
    | none => s1)

def execWeirTimeout (p : Pos) (b : Fin 64) (key : BitVec 16) (cc : Nat) (s : State) : Out := .next (
  if cc < (s.ut p).cycle then s
  else
    let s1 := s.run p cc
    let h := s1.berth p b
    match h.group key with
    | some g =>
      if h.weirTimeout ≠ 0 ∧ g.firstCc + h.weirTimeout.toNat ≤ cc ∧ g.merged < g.count.toNat then s1.partialGroup p b g cc else s1
    | none => s1)

/-! ### Delivery (R135, R219) -/

def invocationOf (b : Berth) (k : Fin 64) (e : BEntry) (cc : Nat) : Invocation :=
  { berth := k, gen := b.gen, handler := BitVec.ofNat 8 (hdrHandler e.hdr), entry := e.idx, postedCc := cc
    payload := BitVec.ofNat 26 (b.payloadAt e.idx), length := BitVec.ofNat 13 (hdrLen e.hdr), src := BitVec.ofNat 7 (hdrSrc e.hdr)
    word0 := e.hdr.w0, combined := e.combined }

/-- The whole head barge is delivered: an invocation is posted, or RECV finds it. -/
def execBargeDelivery (p : Pos) (b : Fin 64) (cc : Nat) (s : State) : Out := .next (
  if cc < (s.ut p).cycle then s
  else
    let s1 := (s.run p cc).modBerth p b Berth.pass
    let h := s1.berth p b
    match h.queue with
    | [] => s1
    | e :: _ =>
      if !e.whole || e.member || e.posted then s1
      else
        let s2 := s1.modBerth p b fun h => h.modEntry e.idx fun x => { x with posted := true }
        if toHandler (s1.core p) e.hdr then s2.modCtl p fun k => { k with queue := k.queue ++ [invocationOf h b e cc] } else s2)

/-! ### The sender (R227, R228) -/

/-- The staging entry an answer belongs to: by operation, or for a combining barge by destination, berth and KEY. -/
def State.stagedOf (s : State) (p : Pos) (q : Packet) : Option (Fin 8) :=
  (List.finRange 8).find? fun g =>
    match (s.core p).mov.staging[g] with
    | none => false
    | some e =>
      e.inFlight &&
      if q.mask ≠ 0 then hdrCombine e.hdr && decide (hdrKey e.hdr = q.arg.toNat % 65536) && decide (hdrLt e.hdr = q.src.toNat)
      else (match (s.slot p e.slot).op with | some o => o.id == q.opId && o.outcome.isNone | none => false)

/-- BERTH_FULL: back off, or give up at the deadline. -/
def Staged.full (e : Staged) (cc : Nat) : Staged :=
  { e with fullAnswers := satAdd e.fullAnswers 1, firstFull := some (e.firstFull.getD cc), retryAt := some (cc + e.backoff)
           backoff := min (2 * e.backoff) 2048, inFlight := false }

def stalledBarge (e : Staged) (cc : Nat) : SendStall :=
  { dest := BitVec.ofNat 7 (hdrLt e.hdr), berth := BitVec.ofNat 6 (hdrBerth e.hdr), barge := true, answers := e.fullAnswers
    waited := cc - e.firstFull.getD cc }

/-- The answer to the staged barge in entry g. -/
def State.bargeAnswered (s : State) (p : Pos) (g : Fin 8) (e : Staged) (st : Status) (cc : Nat) : State :=
  if st = .berthFull ∧ cc < e.deadline then s.modStage p g fun _ => some (e.full cc)
  else
    let s1 := (s.modStage p g fun _ => none).endOp p e.slot st
    if st = .berthFull then s1.modMov p fun m => { m with stalls := m.stalls ++ [stalledBarge (e.full cc) cc] } else s1

def execBargeAns (id : Nat) (cc : Nat) (s : State) : Out := .next (arrive 6 id cc (fun p q s =>
  match s.stagedOf p q with
  | none => s.takeAnswer p { q with opId := 0 } cc fun _ _ s => s
  | some g =>
    match (s.core p).mov.staging[g] with
    | none => s
    | some e =>
      let n := match (s.slot p e.slot).op with | some o => o.id | none => 0
      s.takeAnswer p { q with opId := n } cc fun _ _ s => s.bargeAnswered p g e q.status cc) s)

/-- The backoff has run out: the whole barge is injected again, unless it would cross the Canal on VC1 between banks at different steps (R55). -/
def execBargeRetry (p : Pos) (g : Fin 8) (cc : Nat) (s : State) : Out := .next (
  if cc < (s.ut p).cycle then s
  else
    let s1 := s.run p cc
    match (s1.core p).mov.staging[g] with
    | none => s1
    | some e =>
      match e.retryAt with
      | some c =>
        if c ≤ cc then
          let n := match (s1.slot p e.slot).op with | some o => o.id | none => 0
          if s1.timingUnsafe p (s1.vcOf p e.ctx) (hdrLt e.hdr) then (s1.modStage p g fun _ => none).endOp p e.slot .timingUnsafe_
          else (s1.modStage p g fun _ => some { e with retryAt := none, inFlight := true }).inject p (s1.bargePacket p (s1.vcOf p e.ctx) e n)
        else s1
      | none => s1)

end Sys2Proof.Machine
end

