-- ==== Sys2Proof/Machine/Hbm.lean ====
section
/-! DEFINITION. Home slices of the staging cache (7.4.2), row-end controllers and their arbitration (7.5). -/

namespace Sys2Proof.Machine

open Sys2Proof

/-! ### Line requests at their home slice (R190 to R192, R311) -/

def lineStack (q : Packet) : StackN := Fin.ofNat 24 (fld q.addr 36 5)
def lineAddr (q : Packet) : Nat := fld q.addr 0 36

/-- The request is for the row-end controller: a slice's own, or for a line without a home slice. -/
def State.forHbm (s : State) (q : Packet) : Bool :=
  (match q.tag with | .slice _ _ => true | .back _ _ => true | _ => false) || (s.homeSlice (lineStack q) (lineAddr q)).isNone

/-- A line request that waits at a position. -/
def Packet.lineAt (q : Packet) : Option Pos :=
  match q.place with
  | .delivered p => if q.type = 9 ∧ !q.taken then some p else none
  | _ => none

/-- Bytes of C1 lines, and of those the bytes of OUT streams (R199). -/
def Stack.countC1 (k : Stack) (q : Packet) : Stack :=
  if q.cls = .c1 then { k with c1Bytes := k.c1Bytes + 64, outBytes := k.outBytes + if q.write then 64 else 0 } else k

/-- A slice asks the row-end controller for a line that it misses; what a chart cache adds to a chart line goes on as a write. -/
def State.fetchLine (s : State) (p : Pos) (q : Packet) : State :=
  (s.modPacket q.id fun x => { x with taken := true }).ask p
    { s.fromTile p 9 q.vc with
      dkind := 1, dest := BitVec.ofNat 8 (rowEnd (lineStack q)).val, addr := q.addr, cls := q.cls, total := q.total
      write := q.write, length := q.length, tag := .slice p q.id }

/-- The home slice answers a request for one of its lines; a line kept for the companion is granted with the answer. -/
def State.sliceReply (s : State) (p : Pos) (q : Packet) (r : LineRd) : State :=
  match r with
  | .data bs => (s.grantFor q).reply p q .done bs
  | .uncorrectable => s.reply p q .memoryUncorrectable []

/-- A whole line comes in front of the slice and the requester is answered; a slice keeps no line of a chart copy.
Beyond the rules' words: log entry 88 (DESIGN CHOICE). -/
def State.sliceServe (s : State) (p : Pos) (q : Packet) : State :=
  let m := lineStack q
  let a := lineAddr q
  let s0 := s.modStack m fun k => k.countC1 q
  if (s.chart.lineAt m a).isSome then s0.fetchLine p q
  else if q.write then (s0.sliceFill m p { line := a / 64, data := q.payload, dirty := true, failing := false }).reply p q .done []
  else match s0.sliceRead m p a with
    | (s1, some r) => s1.sliceReply p q r
    | (s1, none) => s1.fetchLine p q

/-- A line request reaches its home slice; a line that the companion holds is recalled first (R311). -/
def execLineReq (id : Nat) (s : State) : Out := .next (
  match s.packet id with
  | none => s
  | some q =>
    match q.lineAt with
    | none => s
    | some p =>
      if q.badHeader then s.discardBad p q
      else if s.forHbm q then s
      else match s.notServed p q true with
        | some st => s.reply p q st []
        | none => if s.mustWait q then s.snoop q.base.toNat else s.sliceServe p q)

/-- The fetched line answers the requester and fills the slice, unless the slice has taken a newer one since; one whose request has ended
is counted as late (R273, R274). -/
def execSliceMissFill (id : Nat) (s : State) : Out := .next (
  match s.packet id with
  | none => s
  | some d =>
    match d.place, d.tag with
    | .delivered p, .slice _ rid =>
      if d.type ≠ 0xA then s
      else
        let s1 := (s.dropPacket id).settleLoose p d.opId
        match s1.packet rid with
        | none => s1
        | some q =>
          let m := lineStack q
          let a := lineAddr q
          if d.status ≠ .done || q.write || (s.chart.lineAt m a).isSome then s1.reply p q d.status (if d.status = .done then d.payload else [])
          else match s1.sliceRead m p a with
            | (s2, some r) => s2.sliceReply p q r
            | (s2, none) => (s2.sliceFill m p { line := a / 64, data := d.payload, dirty := false, failing := false }).sliceReply p q (.data d.payload)
    | _, _ => s)

/-! ### Arbitration (R197, R199) -/

/-- The requests that wait at a stack's controller. -/
def State.hbmWaiting (s : State) (m : StackN) : List Packet :=
  s.net.filter fun q => q.lineAt == some (rowEnd m) && s.forHbm q && lineStack q == m

/-- C0 has used 1 percent of the running window of 4,096 cycles. -/
def Stack.c0Spent (k : Stack) : Bool := decide (k.c0Lines * 100 ≥ 4096)

/-- Requests for one line are served in the order in which they came. Beyond the rules' words: log entry 88 (DESIGN CHOICE). -/
def State.lineFirst (s : State) (m : StackN) (q : Packet) : Bool :=
  ((s.hbmWaiting m).find? fun x => lineAddr x / 64 == lineAddr q / 64).map (fun x => x.id) == some q.id

/-- It is the request's turn: C0 first unless capped, then C1 by release cycle, then C2 and C3 by their weights. -/
def State.hbmTurn (s : State) (m : StackN) (q : Packet) : Bool :=
  let k := s.hbm[m]
  let l := s.hbmWaiting m
  let has (c : HbmClass) : Bool := l.any fun x => x.cls == c
  let c0 := has .c0 && !k.c0Spent
  match q.cls with
  | .c0 => !k.c0Spent || !(has .c1 || has .c2 || has .c3)
  | .c1 => !c0 && l.all fun x => x.cls != .c1 || decide (q.total ≤ x.total)
  | .c2 => !c0 && !has .c1 && (!has .c3 || decide (0 < k.turnC2) || decide (k.turnC3 = 0))
  | .c3 => !c0 && !has .c1 && (!has .c2 || decide (0 < k.turnC3) || decide (k.turnC2 = 0))

/-- The stack serves: present, not lost, not in self-refresh, the line's pseudo-channel not
retraining (R193, R431). -/
def Stack.serves (k : Stack) (a : Nat) : Bool :=
  k.present && !k.lost && !k.selfRefresh && !k.retraining.contains (Fin.ofNat 64 (a / 1024))

/-- What the request adds to ACCESS of a page (R203). -/
def State.countOf (s : State) (q : Packet) : Option (Nat × Nat) :=
  let of (t : LineTag) : Option (Nat × Nat) := match t with | .count page n => some (page, n) | _ => none
  match q.tag with
  | .slice _ rid => (s.packet rid).bind fun x => of x.tag
  | t => of t

/-- The stack's own transaction: a line of a chart copy is read from the chart, and a count is added there (R194, R203). -/
def State.hbmServe (s : State) (q : Packet) : State :=
  let m := lineStack q
  let a := lineAddr q
  let p := rowEnd m
  match s.chart.lineAt m a, s.countOf q with
  | some (b, _), some (page, n) => (s.modChart fun c => c.addOne b page n).reply p q .done []
  | none, some _ => s.reply p q .done []
  | at_, none =>
    if q.write then (s.modStack m fun k => k.write a q.payload).reply p q .done []
    else
      let x := s.hbm[m].read a
      let s1 := s.modStack m fun _ => x.1
      match x.2, at_ with
      | .uncorrectable, _ => s1.reply p q .memoryUncorrectable []
      | .data _, some (b, l) => s1.reply p q .done (s.chart.lineBytes b l)
      | .data bs, none => (s1.grantFor q).reply p q .done bs

/-- The row-end controller serves a whole-line transaction (R195); until it is initialised it answers TILE_RESET (R448). A lost stack is
answered for as its lost row end (R258). Beyond the rules' words: log entry 91 (DEDUCED). -/
def execHbmLineAccess (id : Nat) (s : State) : Out := .next (
  match s.packet id with
  | none => s
  | some q =>
    let m := lineStack q
    let p := rowEnd m
    if q.lineAt != some p || !s.forHbm q then s
    else if q.badHeader then s.discardBad p q
    else if s.hbm[m].initing then s.reply p q .tileReset []
    else if !s.hbm[m].present || s.hbm[m].lost then s.reply p q .tileFenced []
    else if !s.hbm[m].serves (lineAddr q) || !s.hbmTurn m q || !s.lineFirst m q then s
    else match s.notServed p q true with
      | some st => s.reply p q st []
      | none =>
        let direct := (match q.tag with | .slice _ _ => false | .back _ _ => false | _ => true)
        if direct && s.mustWait q then s.snoop q.base.toNat
        else (s.modStack m fun k => (if direct then k.countC1 q else k).served q.cls).hbmServe q)

/-- A window of 4,096 cycles ends: what lapsed in it is counted (R199, Table 7.16). -/
def execHbmWriteShareWindow (m : StackN) (s : State) : Out := .next (s.modStack m fun k =>
  { k with
    writeShare := if k.c1Bytes < 8 * k.outBytes then k.writeShare + 1 else k.writeShare
    c0Capped := if k.c0Spent then k.c0Capped + 1 else k.c0Capped
    c1Bytes := 0, outBytes := 0, c0Lines := 0 })

/-! ### Partition and flush (R189) -/

/-- Write every dirty line of a slice back; drop: the slice is invalidated too. A line that fails is reported and keeps its place.
Beyond the rules' words: log entry 23 (DESIGN CHOICE). -/
def State.flushSlice (s : State) (m : StackN) (p : Pos) (drop : Bool) : State :=
  let ls := (s.ut p).stg.lines
  (ls.foldl (fun s l => if l.failing && l.dirty then s.sliceError p l.line else s.writeBack m l) s).modStg p fun g =>
    if drop then { g with lines := [], errList := [] }
    else { g with lines := (g.lines.filter fun l => !l.leaving).map fun l => if l.failing then l else { l with dirty := false } }

/-- Flush every slice of a reach. -/
def State.flushReach (s : State) (r : ReachN) (drop : Bool) : State :=
  s.eachPos (reachTiles r) fun p s => s.flushSlice r p drop

/-- A write outside 2 to 8 is ignored; a change takes effect once the reach's cache portion is written back and invalid. -/
def State.ringPart (s : State) (p : Pos) (v : BitVec 4) : State :=
  if v.toNat < 2 ∨ 8 < v.toNat ∨ v = (s.ut p).stg.ringMib then s
  else (s.flushReach (reachOf p) true).modStg p fun g => { g with ringMib := v }
def execStgPartWrite (p : Pos) (v : BitVec 4) (s : State) : Out := .next (s.ringPart p v)

/-- FLUSH reads 1 until the flush is done. -/
def State.flushStart (s : State) (p : Pos) : State := s.modStg p fun g => { g with flush := true }
def execStgFlush (p : Pos) (s : State) : Out := .next (s.flushStart p)
def execStgFlushDone (p : Pos) (s : State) : Out := .next (
  if (s.ut p).stg.flush then (s.flushSlice (reachOf p) p false).modStg p fun g => { g with flush := false } else s)

end Sys2Proof.Machine
end

