-- ==== Sys2Proof/Machine/Fabric.lean ====
section
/-! DEFINITION. The meshes and the express lanes (chapter 09): headers, injection, one hop of a packet and whose turn it is, combining
in routers, the sluice, tables and epochs. A packet moves when a command moves it; latencies are left out (see
NOTES.md). -/

namespace Sys2Proof.Machine

open Sys2Proof

/-! ### The packet header (R252) -/

/-- Words 0 to 4 of the header (Table 9.3) and, in a BARGE packet, the barge header in bytes 40 to 63. -/
def Packet.header (q : Packet) : List Word :=
  q.headerWords.toList ++
  (if q.type = 5 then [q.hdr.w0, q.hdr.w1, q.hdr.w2] else [0, 0, 0])

/-! ### Routes (R254) -/

/-- Where a packet leaves the mesh, by the tables of a router; over the spare link of that position or not; none: absent. -/
inductive Exit where
  | at_ (p : Pos) (spareLink : Bool) (ovr : Nat)
  | absent
  deriving DecidableEq, Repr

def ltMapAt (m : Mesh) (v : Bool) (lt : Nat) : LtMapEnt :=
  match tblGet none m.ltmap (128 * b2n v + lt) with
  | some e => e
  | none => { pos := BitVec.ofNat 8 (if lt < 120 then homePos lt else 0), spareLink := false, present := decide (lt < 120) }
def ovrAt (m : Mesh) (v : Bool) (d : Nat) : OvrEnt := tblGet {} m.ovr (149 * b2n v + d)

def dist (p q : Pos) : Nat :=
  (rowOf p - rowOf q) + (rowOf q - rowOf p) + (colOf p - colOf q) + (colOf q - colOf p)
/-- The under-tile works: VNET, not lost (R14). -/
def State.utWorks (s : State) (p : Pos) : Bool := !(s.ut p).flags.lost
/-- The nearest of a list of positions in service. Beyond the rules' words: log entry 37 (DESIGN CHOICE). -/
def nearest (s : State) (p : Pos) : List Pos → Option Pos
  | [] => none
  | q :: r =>
    match nearest s p r with
    | none => if s.utWorks q then some q else none
    | some x => if s.utWorks q && decide (dist p q ≤ dist p x) then some q else some x

def State.exitOf (s : State) (p : Pos) (q : Packet) : Exit :=
  let m := (s.ut p).mesh
  if q.dkind = 0 then
    let e := ltMapAt m q.epoch q.dest.toNat
    if e.present then .at_ (Fin.ofNat 144 e.pos.toNat) e.spareLink e.pos.toNat else .absent
  else if q.dkind = 1 then .at_ (Fin.ofNat 144 q.dest.toNat) false q.dest.toNat
  else match nearest s p (attachments (Fin.ofNat 5 q.dest.toNat)) with
    | some x => .at_ x false (144 + q.dest.toNat % 5)
    | none => .absent

/-- The packet travels the request mesh: an odd type (Table 9.1). -/
def Packet.isRequest (q : Packet) : Bool := q.type.toNat % 2 == 1

/-- Direction of one hop: the override, or dimension order, row first. -/
def hopDir (p x : Pos) (code : BitVec 3) : Dir :=
  if code = 1 then .n else if code = 2 then .e else if code = 3 then .s else if code = 4 then .w
  else if colOf p < colOf x then .e else if colOf x < colOf p then .w else if rowOf p < rowOf x then .s else .n
def dirNum : Dir → Fin 4
  | .n => 0 | .e => 1 | .s => 2 | .w => 3
def opposite : Dir → Dir
  | .n => .s | .e => .w | .s => .n | .w => .e
/-- The tile beyond a seam; none at the panel's edge. -/
def neighbour (p : Pos) : Dir → Option Pos
  | .n => if rowOf p = 0 then none else some (mkPos (rowOf p - 1) (colOf p))
  | .e => if colOf p = 11 then none else some (mkPos (rowOf p) (colOf p + 1))
  | .s => if rowOf p = 11 then none else some (mkPos (rowOf p + 1) (colOf p))
  | .w => if colOf p = 0 then none else some (mkPos (rowOf p) (colOf p - 1))

/-- The seam that p sends over in a direction is dropped (9.3.3): out of service, or the reach on a side of it lost.
Beyond the rules' words: log entry 38 (DEDUCED). -/
def State.seamDropped (s : State) (p : Pos) (d : Dir) : Bool :=
  match neighbour p d with
  | none => true
  | some q => (s.ut p).mesh.seam[dirNum d].out || (s.ut q).xing[dirNum (opposite d)].dropped || !s.utWorks q

/-- The router at p refuses the packet (R255, R258): a request is answered, an answer is discarded. -/
def State.routeRefused (s : State) (p : Pos) (q : Packet) : State :=
  let s1 := s.modMesh p fun m => { m with dropped := m.dropped + 1 }
  if q.isRequest && q.type != 0xD then s1.reply p q .tileFenced [] else s1.dropPacket q.id

/-! ### Express lanes (R269 to R271, R490) -/

/-- Frames of the express lanes. -/
def Packet.towpath (q : Packet) : Bool :=
  q.type == 7 || q.type == 8 || q.type == 0xB || q.type == 0xC || q.type == 0xD
def Packet.expressBarge (q : Packet) : Bool :=
  (q.type == 5 && decide (q.length.toNat ≤ 256) && !hdrCombine q.hdr) || (q.type == 6 && q.mask == 0 && decide (q.rflits ≤ 5))

/-- The express interface at a position works: its under-tile is powered and not lost, and its express clock runs (R490). -/
def State.expWorks (s : State) (p : Pos) : Bool := s.utWorks p && (s.ut p).pwr.vnet && (s.ut p).clk.expRuns
/-- A tap of the row is in service. -/
def State.tapServes (s : State) (r : Nat) : Bool :=
  [5, 6].any fun c => s.expWorks (mkPos r c) && !(s.ut (mkPos r c)).mesh.tapOut
/-- A tap in service, whose copy of the LT maps a frame from the trunk follows (R269). Beyond the rules' words: log entry 89 (DESIGN CHOICE). -/
def State.tapAt (s : State) : Option Pos :=
  ((List.range 12).flatMap fun r => [mkPos r 5, mkPos r 6]).find? fun p => s.expWorks p && !(s.ut p).mesh.tapOut
/-- The spare position that an LT's SPARE_LINK entry leads to. -/
def spareBeside (x : Pos) : Pos := spareOf (rowOf x) (bankOf x)
/-- The position from which a packet starts on the express lanes; a Canal die starts anywhere. -/
def Place.start : Place → Option Pos
  | .source p => some p
  | .router p => some p
  | _ => none

/-- The express destination: a position, or a Canal die. -/
def State.expressDest (s : State) (p : Pos) (q : Packet) : Option Place :=
  if q.dkind = 2 then some (.canal (Fin.ofNat 5 q.dest.toNat))
  else match s.exitOf p q with
    | .absent => none
    | .at_ x sp _ => some (.delivered (if sp then spareBeside x else x))
/-- Every interface and tap on the path serves. -/
def State.expressServes (s : State) (p : Option Pos) (d : Place) : Bool :=
  let from_ := match p with | some p => s.expWorks p | none => true
  match d with
  | .delivered x =>
    from_ && s.expWorks x &&
      match p with
      | some p => rowOf p == rowOf x || (s.tapServes (rowOf p) && s.tapServes (rowOf x))
      | none => s.tapServes (rowOf x)
  | _ => from_ && match p with | some p => s.tapServes (rowOf p) | none => true

/-- The packet is an express frame and its path serves: it does not take the meshes (R269, R271). -/
def State.onExpress (s : State) (q : Packet) : Bool :=
  (q.towpath || q.expressBarge) &&
    match q.place with
    | .source p => (match s.expressDest p q with | some d => s.expressServes (some p) d | none => false)
    | .canal _ => (match s.tapAt.bind fun p => s.expressDest p q with | some d => s.expressServes none d | none => false)
    | _ => false

/-- An answer or a frame of a lock-house is not limited (R270). -/
def Packet.limited (q : Packet) : Bool := q.isRequest

/-! ### Injection (R167, R260, R274) -/

/-- An earlier request that waits at the same interface goes first: one to the same destination on the same VC (R167). -/
def State.overtakes (s : State) (p : Pos) (q : Packet) : Bool :=
  q.isRequest && ((s.net.takeWhile fun x => x.id != q.id).any fun x =>
    x.place == .source p && x.isRequest && x.dkind == q.dkind && x.dest == q.dest && x.vc == q.vc)
/-- The timer of a request starts as it leaves the interface: that of its slot, of its stream's line, or one of its own; a slice's fetch
is timed for the request it serves (R274). -/
def State.startTimer (s : State) (p : Pos) (q : Packet) : State :=
  if !q.isRequest || q.type = 0xD then s
  else match s.slotOfOp p q.opId with
    | some _ =>
      let s1 := s.modOp p q.opId fun o => o.sent s.now
      match q.tag with
      | .stream _ _ n => s1.modStream p q.opId fun x => { x with outst := x.outst.map fun e => if e.1 = n then (n, s.now) else e }
      | _ => s1
    | none => s.modMesh p fun m => { m with loose := m.loose ++ [{ op := q.opId, since := s.now, tag := q.tag }] }
/-- The interface at p injects the packet with the version in force (R260); an answer leaves once what it reports has happened. -/
def State.leaves (s : State) (p : Pos) (q : Packet) (d : Place) : State :=
  let s1 := if (s.ut p).cycle < q.readyAt then s.run p q.readyAt else s
  (s1.movePacket q.id fun x => { x with place := d, epoch := (s1.ut p).mesh.epoch, inPort := 4 }).startTimer p q

/-- Launch a frame in express cycle xc; one that finds its allowance spent waits at the emitter and is counted once.
Beyond the rules' words: log entry 24 (DESIGN CHOICE). -/
def execExpressLaunch (id : Nat) (xc : Nat) (s : State) : Out := .next (
  match s.packet id with
  | none => s
  | some q =>
    if !s.onExpress q then s
    else match q.place with
      | .source p =>
        let m := (s.ut p).mesh
        let free := if q.towpath then m.towFree else m.bargeFree
        match s.expressDest p q with
        | none => s
        | some d =>
          if m.vc2Wait.contains id || s.overtakes p q then s
          else if q.limited && decide (xc < free) then
            if q.expHeld then s
            else (s.modPacket id fun q => { q with expHeld := true }).modMesh p fun m => { m with expWait := m.expWait + 1 }
          else
            let s1 := s.leaves p q d
            if !q.limited then s1
            else s1.modMesh p fun m => if q.towpath then { m with towFree := xc + 8 } else { m with bargeFree := xc + 16 }
      | .canal c =>
        match s.tapAt.bind fun p => s.expressDest p q with
        | none => s
        | some d => if (q.dkind = 2 ∧ q.dest.toNat = c.val) || s.dieOff c then s else s.movePacket id fun q => { q with place := d, epoch := s.epoch.cur }
      | _ => s)

/-! ### Combining (R266, R267) -/

/-- What two barges must share to be merged. -/
def sameGroup (a b : Packet) : Bool :=
  a.dest == b.dest && a.dkind == b.dkind && hdrLt a.hdr == hdrLt b.hdr && hdrBerth a.hdr == hdrBerth b.hdr &&
    hdrKey a.hdr == hdrKey b.hdr && hdrOp a.hdr == hdrOp b.hdr && hdrCount a.hdr == hdrCount b.hdr && hdrLen a.hdr == hdrLen b.hdr &&
    hdrHandler a.hdr == hdrHandler b.hdr && hdrGenChk a.hdr == hdrGenChk b.hdr && hdrGen a.hdr == hdrGen b.hdr &&
    a.stepNo == b.stepNo && a.attempt == b.attempt && a.epoch == b.epoch && a.vc == b.vc

/-- The merged barge: payloads combined, MERGED summed, MASK united, MARK of either. -/
def mergePackets (a b : Packet) : Packet :=
  { a with
    payload := combine (BitVec.ofNat 2 (hdrOp a.hdr)) a.payload b.payload, mask := a.mask ||| b.mask, mark := a.mark || b.mark
    hdr := { a.hdr with w2 := (a.hdr.w2 &&& ~~~(put64 0xFFF 28 12)) ||| put64 (hdrMerged a.hdr + hdrMerged b.hdr) 28 12 } }

/-- The merge table marks the barge's berth ORDERED. -/
def marksOrdered (m : Mesh) (q : Packet) : Bool :=
  m.merge.any fun e => decide (e.1.val = hdrLt q.hdr) && decide (56 + e.2.val = hdrBerth q.hdr)

/-- The combining entry that holds a barge the new one merges with. -/
def State.mergeWith (s : State) (p : Pos) (q : Packet) : Option (Fin 16 × Packet) :=
  (List.finRange 16).findSome? fun e =>
    match (s.ut p).mesh.comb[e] with
    | none => none
    | some c => match s.packet c.packet with
      | some h => if sameGroup h q && (h.mask &&& q.mask) == 0 then some (e, h) else none
      | none => none

/-- A combining barge at a router: held, merged, or passed on (none). -/
def State.combineAt (s : State) (p : Pos) (q : Packet) : Option State :=
  let m := (s.ut p).mesh
  if !m.combEn || q.type != 5 || !hdrCombine q.hdr || q.mask == 0 || q.passed || marksOrdered m q then none
  else match s.mergeWith p q with
    | some (e, h) =>
      let n := mergePackets h q
      let s1 := (s.dropPacket q.id).modPacket h.id fun _ => n
      if hdrCount n.hdr ≤ hdrMerged n.hdr then
        some ((s1.modPacket h.id fun x => { x with place := .router p, passed := true }).modMesh p fun m => { m with comb := m.comb.set e none })
      else some s1
    | none =>
      match (List.finRange 16).find? fun e => m.comb[e].isNone with
      | some e =>
        some ((s.modPacket q.id fun x => { x with place := .combining p }).modMesh p fun m =>
          { m with comb := m.comb.set e (some { packet := q.id, expires := (s.ut p).cycle + m.hold.toNat }) })
      | none => none

def execCombineHoldExpiry (p : Pos) (e : Fin 16) (cc : Nat) (s : State) : Out := .next (
  match (s.ut p).mesh.comb[e] with
  | none => s
  | some c =>
    if c.expires ≤ cc then
      (s.modPacket c.packet fun x => { x with place := .router p, passed := true }).modMesh p fun m => { m with comb := m.comb.set e none }
    else s)

/-! ### Outputs and turns (R254, R262, R264) -/

/-- The output a router chooses for a packet: none for an absent LT; the tile's own interface, a Canal die's, the spare link, or a seam. -/
inductive Output where
  | absent | local | canal (d : Fin 5) | spare | seam (d : Dir)
  deriving DecidableEq, Repr

def State.outputOf (s : State) (p : Pos) (q : Packet) : Output :=
  match s.exitOf p q with
  | .absent => .absent
  | .at_ x sp n =>
    if x = p then if q.dkind = 2 then .canal (Fin.ofNat 5 q.dest.toNat) else if sp then .spare else .local
    else
      let o := ovrAt (s.ut p).mesh q.epoch n
      .seam (hopDir p x (if q.isRequest then o.req else o.rpl))
/-- The packets that stand at the router of p on q's mesh and want q's output, those that came earlier first. -/
def State.rivals (s : State) (p : Pos) (q : Packet) : List Packet :=
  s.net.filter fun x => x.place == .router p && x.isRequest == q.isRequest && decide (s.outputOf p x = s.outputOf p q)
/-- Flits of VC2 packets that wait at the same output. -/
def State.outputQueue (s : State) (p : Pos) (q : Packet) : Nat :=
  ((s.rivals p q).filter fun x => x.vc == 2).foldl (fun n x => n + x.flits) 0

/-- Flits an input port buffers of a VC. -/
def vcDepth (vc : BitVec 2) : Nat := if vc = 0 then 8 else if vc = 1 then 32 else 64
/-- The input port's buffer for the packet's VC takes the packet: room for its flits, or empty, when a longer packet streams through. -/
def State.bufferTakes (s : State) (p : Pos) (port : Fin 5) (q : Packet) : Bool :=
  let n := (s.net.filter fun x => x.place == .router p && x.isRequest == q.isRequest && x.vc == q.vc && x.inPort == port).foldl (fun n x => n + x.flits) 0
  n == 0 || decide (n + q.flits ≤ vcDepth q.vc)
def dirPort (d : Dir) : Fin 5 := ⟨(dirNum d).val, by have := (dirNum d).isLt; omega⟩
/-- The next hop holds a credit for the packet's VC (R262). -/
def State.credit (s : State) (p : Pos) (q : Packet) : Bool :=
  match s.outputOf p q with
  | .seam d => match neighbour p d with
    | some y => s.bufferTakes y (dirPort (opposite d)) q
    | none => true
  | _ => true

/-- Key of an output on a mesh. -/
def outKey (req : Bool) : Output → Nat
  | .seam d => b2n req + 2 * (dirNum d).val
  | .local => b2n req + 8
  | .canal _ => b2n req + 10
  | .spare => b2n req + 12
  | .absent => b2n req + 14
/-- Flits per cycle of a link (Table 9.2). -/
def linkFlits (m : Mesh) (req : Bool) : Nat := if m.profile then 12 else if req then 8 else 16
/-- VC0 has used its share of the output: one slot in 32 of the last 64 cycles. Beyond the rules' words: log entry 90 (DESIGN CHOICE). -/
def State.vc0Spent (s : State) (p : Pos) (q : Packet) : Bool :=
  let m := (s.ut p).mesh
  let k := outKey q.isRequest (s.outputOf p q)
  decide (2 * linkFlits m q.isRequest ≤
    (m.vc0Sent.filter fun e => e.1 == k && decide ((s.ut p).cycle < e.2.1 + 64)).foldl (fun n e => n + e.2.2) 0)
/-- Services left to an input port in the output's VC2 round. -/
def State.turnOf (s : State) (p : Pos) (q : Packet) (port : Fin 5) : Nat :=
  tblGet 0 (s.ut p).mesh.turns (5 * outKey q.isRequest (s.outputOf p q) + port.val)
def Mesh.weight (m : Mesh) (port : Fin 5) : Nat := (m.weights >>> (8 * port.val)).toNat % 256
/-- It is the packet's turn at its output: VC0 within its share, then VC1 oldest first, then VC2 by weighted round robin over the input
ports (R262). Beyond the rules' words: log entry 90 (DESIGN CHOICE). -/
def State.routeTurn (s : State) (p : Pos) (q : Packet) : Bool :=
  let rs := (s.rivals p q).filter fun x => s.credit p x
  let spent := s.vc0Spent p q
  let others := rs.filter fun x => x.vc != q.vc
  let first (f : Packet → Bool) : Bool := (rs.find? f).map (fun x => x.id) == some q.id
  s.credit p q &&
    if q.vc = 0 then !spent || others.isEmpty
    else if rs.any (fun x => x.vc == 0) && !spent then false
    else if q.vc = 1 then first fun x => x.vc == 1
    else
      !(rs.any fun x => x.vc == 1) && first (fun x => x.vc == q.vc && x.inPort == q.inPort) &&
        (decide (0 < s.turnOf p q q.inPort) || rs.all fun x => x.vc != q.vc || s.turnOf p q x.inPort == 0)
/-- The output has sent the packet. -/
def State.routeServed (s : State) (p : Pos) (q : Packet) : State :=
  let k := outKey q.isRequest (s.outputOf p q)
  if q.vc = 0 then
    s.modMesh p fun m => { m with
      vc0Sent := (k, (s.ut p).cycle, q.flits) :: m.vc0Sent.filter fun e => decide ((s.ut p).cycle < e.2.1 + 64) }
  else if q.vc = 2 then
    let renew (m : Mesh) : Mesh :=
      if s.turnOf p q q.inPort = 0 then
        { m with turns := (List.finRange 5).foldl (fun t (i : Fin 5) => tblPut 0 t (5 * k + i.val) (m.weight i)) m.turns }
      else m
    s.modMesh p fun m =>
      let m1 := renew m
      { m1 with turns := tblPut 0 m1.turns (5 * k + q.inPort.val) (tblGet 0 m1.turns (5 * k + q.inPort.val) - 1) }
  else s

/-! ### One hop (R253, R254, R258, R264) -/

/-- Nothing crosses a seam or a spare link of p in the quiet window (R35), nor while its data-path clock is stopped (R272). -/
def State.seamsHeld (s : State) (p : Pos) : Bool := (s.ut p).flags.quiet || !(s.ut p).clk.running

/-- The packet leaves the router's output towards a place, marked where its VC2 queue is long (R264). -/
def State.sendOn (s : State) (p : Pos) (q : Packet) (d : Place) (port : Fin 5) : State :=
  let marked := q.vc == 2 && decide ((s.ut p).mesh.thresh.toNat ≤ s.outputQueue p q)
  (s.routeServed p q).movePacket q.id fun z => { z with place := d, passed := false, mark := z.mark || marked, inPort := port }

/-- The router at p moves the packet to its output, or refuses it (R255, R258). -/
def State.hop (s : State) (p : Pos) (q : Packet) : State :=
  match s.outputOf p q with
  | .absent => s.routeRefused p q
  | .canal d => if s.routeTurn p q then s.sendOn p q (.canal d) 4 else s
  | .local => if s.routeTurn p q then s.sendOn p q (.delivered p) 4 else s
  | .spare => if s.seamsHeld p || !s.routeTurn p q then s else s.sendOn p q (.spareLink p) 4
  | .seam d =>
    if s.seamsHeld p then s
    else if s.seamDropped p d then s.routeRefused p q
    else match neighbour p d with
      | none => s.routeRefused p q
      | some y => if s.routeTurn p q then s.sendOn p q (.router y) (dirPort (opposite d)) else s

/-- A packet at a router: combined, or moved on. A header with a reserved encoding is discarded and counted (R253). -/
def State.atRouter (s : State) (p : Pos) (q : Packet) : State :=
  if q.badHeader then s.discardBad p q
  else match s.combineAt p q with
    | some t => t
    | none => s.hop p q

/-- The position whose router an interface injects into: a spare that carries an LT over its spare link uses the exit
position's (R259). -/
def State.injectAt (s : State) (p : Pos) : Pos :=
  match s.ltAt p with
  | some l =>
    let e := ltMapAt (s.ut p).mesh (s.ut p).mesh.epoch l.val
    if e.spareLink && e.present && isSpare p then Fin.ofNat 144 e.pos.toNat else p
  | none => p

/-- A packet moves: from an interface into its router, from a router through its output, over a spare link, or from a Canal die into the
router of an attachment in service (R16). -/
def execPacketRoute (id : Nat) (s : State) : Out := .next (
  match s.packet id with
  | none => s
  | some q =>
    if s.onExpress q then s
    else match q.place with
      | .source p =>
        let x := s.injectAt p
        if (s.ut p).mesh.vc2Wait.contains id || s.overtakes p q || !s.bufferTakes x 4 q then s
        else if x ≠ p && s.seamsHeld p then s
        else s.leaves p q (.router x)
      | .router p => s.atRouter p q
      | .spareLink p => s.movePacket id fun y => { y with place := .delivered (spareBeside p) }
      | .canal d =>
        if (q.dkind = 2 ∧ q.dest.toNat = d.val) || s.dieOff d then s
        else match nearest s (mkPos 5 5) (attachments d) with
          | some x => if s.bufferTakes x 4 q then s.movePacket id fun y => { y with place := .router x, epoch := (s.ut x).mesh.epoch, inPort := 4 } else s
          | none => s
      | _ => s)

/-- R251: a flit that has met p from a direction with a lane group at fault is discarded and replayed; nothing is lost. The sending side counts
the replay against the lane group (R430). -/
def execFlitReplay (p : Pos) (f : BadFlit) (s : State) : Out := .next (
  let s0 := s.at_ f.t
  match neighbour p f.dir with
  | some q =>
    if s0.utWorks p then
      (s0.slip p (dirNum f.dir)).modMesh q fun m => { m with replays :=
        (dirNum (opposite f.dir), f.lane.val, s0.now) :: m.replays.filter fun e => decide (s0.now < e.2.2 + 1000000000) }
    else s0
  | none => s0)

/-! ### The sluice (R265) -/

/-- 256 cycles in which no answer with ECHO arrived. -/
def execSluiceRecovery (p : Pos) (cc : Nat) (s : State) : Out := .next (
  let m := (s.ut p).mesh
  if cc < (s.ut p).cycle ∨ cc < m.lastEcho + 256 then s
  else (s.run p cc).modMesh p fun m => { m with w := BitVec.ofNat 11 (min (m.w.toNat + m.stepF.toNat) (max m.wmax.toNat m.w.toNat)), lastEcho := cc })

def execSluiceInject (p : Pos) (cc : Nat) (s : State) : Out := .next (
  if cc < (s.ut p).cycle then s
  else
    let s1 := s.run p cc
    match (s1.ut p).mesh.vc2Wait with
    | [] => s1
    | id :: r =>
      match s1.packet id with
      | none => s1.modMesh p fun m => { m with vc2Wait := r }
      | some q =>
        if s1.fitsWindow p q.flits then
          (s1.modMesh p fun m => { m with vc2Wait := r }).modOp p q.opId fun o => o.counted q.flits
        else s1)

/-! ### Tables and epochs (R256, R261, R267) -/

/-- A write to a table of the version in force, or with a reserved direction, is ignored and sets BAD_WRITE. -/
def State.tableWrite (s : State) (p : Pos) (ovr : Bool) (ver : Bool) (k : Nat) (v : BitVec 64) : State :=
  let m := (s.ut p).mesh
  if ver == m.epoch || (ovr && (decide (fld v 0 3 > 4) || decide (fld v 3 3 > 4))) then s.modMesh p fun m => { m with badWrite := true }
  else if ovr then
    if k < 149 then s.modMesh p fun m => { m with ovr := tblPut {} m.ovr (149 * b2n ver + k) { req := v.extractLsb' 0 3, rpl := v.extractLsb' 3 3 } }
    else s
  else if k < 128 then
    let e : LtMapEnt := { pos := v.extractLsb' 0 8, spareLink := bit v 8, present := bit v 9 }
    s.modMesh p fun m => { m with ltmap := tblPut none m.ltmap (128 * b2n ver + k) (some e) }
  else s
def execMshTableWrite (p : Pos) (ovr : Bool) (ver : Bool) (k : Nat) (v : BitVec 64) (s : State) : Out := .next (s.tableWrite p ovr ver k v)

/-- ARM is ignored while FREE is 0. -/
def State.armEpoch (s : State) : State := if s.epoch.free then { s with epoch := { s.epoch with arm := true } } else s
def execMshEpochArm (s : State) : Out := .next (s.armEpoch)

/-- The packet stands in the router of a position. -/
def Packet.inRouter (q : Packet) (p : Pos) : Bool := q.place == .router p || q.place == .combining p
/-- OLD_FLITS of a router: flits of the version not in force (Table 9.7). -/
def State.routerOld (s : State) (p : Pos) : Nat :=
  (s.net.filter fun q => q.inRouter p && q.epoch != (s.ut p).mesh.epoch).foldl (fun n q => n + q.flits) 0
/-- The sum of OLD_FLITS over the routers in service. -/
def State.oldFlits (s : State) : Nat := allPos.foldl (fun n p => n + s.routerOld p) 0
def execDrainSum (t : Nat) (s : State) : Out := .next (
  let n := s.oldFlits
  { s.at_ t with epoch := { s.epoch with drainSum := BitVec.ofNat 32 n, free := s.epoch.free || n == 0 } })

/-- LH-C sends the present ORDERED bit of a weir berth; an ORDERED BOPEN that waited completes (R267). -/
def execMergeTableUpdate (lt : Lt) (b : Fin 8) (s : State) : Out := .next (
  match s.posOf lt with
  | none => s
  | some p =>
    let k : Fin 64 := Fin.ofNat 64 (56 + b.val)
    let h := s.berth p k
    let on := h.open_ && h.ordered
    let s1 := s.allUts fun _ u => { u with mesh := { u.mesh with
      merge := if on then (if u.mesh.merge.contains (lt, b) then u.mesh.merge else (lt, b) :: u.mesh.merge)
        else u.mesh.merge.filter fun e => e != (lt, b) } }
    match h.opening with
    | some k' => if on then (s1.endOp p k' .done).modBerth p k fun h => { h with opening := none } else s1
    | none => s1)

end Sys2Proof.Machine
end

