-- ==== Sys2Proof/Machine/Frames.lean ====
section
/-! DEFINITION. AXL link frames as bytes (Table 10.3): their layout, the CRC-32 of R278, reserved encodings (R279), and the PRBS-31
pattern of the loop-backs (R287). -/

namespace Sys2Proof.Machine

open Sys2Proof

/-! ### Layout (R278) -/

/-- Words 0 and 1. -/
def frameHeads (f : Frame) : List Nat :=
  [f.vc.toNat + 2 ^ 2 * f.kind.toNat + 2 ^ 4 * f.pseq.toNat + 2 ^ 20 * f.lseq.toNat + 2 ^ 28 * f.ack.toNat + 2 ^ 36 * f.nak.toNat +
      2 ^ 37 * f.crVc.toNat + 2 ^ 39 * f.credits.toNat + 2 ^ 50 * f.resv0.toNat,
   f.channel.toNat + 2 ^ 8 * f.code.toNat + 2 ^ 16 * f.len.toNat + 2 ^ 24 * f.index.toNat + 2 ^ 56 * f.resv1.toNat]
/-- Bytes 0 to 239, over which the CRC runs. -/
def frameBody (f : Frame) : List Byte :=
  ((frameHeads f).flatMap fun w => natBytes w 8) ++ f.payload ++ List.replicate (224 - f.payload.length) 0
/-- The 256 bytes of the frame. -/
def frameBytes (f : Frame) : List Byte := (frameBody f) ++ natBytes (f.crc.toNat + 2 ^ 32 * f.resv2.toNat) 16

/-- One bit of the CRC-32 of IEEE 802.3, low bit first. -/
def crcBit (c : Nat) : Nat := if c % 2 = 0 then c / 2 else (c / 2) ^^^ 0xEDB88320
def crcBits : Nat → Nat → Nat
  | 0, c => c
  | n + 1, c => crcBits n (crcBit c)
/-- The CRC-32 of IEEE 802.3. Beyond the rules' words: log entry 92 (PRESUMED). -/
def crc32 (bs : List Byte) : BitVec 32 :=
  ~~~BitVec.ofNat 32 (bs.foldl (fun c b => crcBits 8 (c ^^^ b.toNat)) 0xFFFFFFFF)
/-- The frame with its CRC. -/
def sealFrame (f : Frame) : Frame := { f with crc := crc32 (frameBody f) }
/-- The data that the frame carries. -/
def frameData (f : Frame) : List Byte := f.payload.take f.len.toNat ++ List.replicate (f.len.toNat - f.payload.length) 0

/-! ### Reserved encodings (R279) -/

/-- Control codes that the spec names (10.6.2). -/
def codeKnown (c : BitVec 8) : Bool := c == 1 || c == 2 || c == 3 || (decide (0x10 ≤ c.toNat) && decide (c.toNat ≤ 0x13))
/-- A reserved encoding stands in the frame. Beyond the rules' words: log entry 92 (DEDUCED). -/
def frameReserved (f : Frame) : Bool :=
  f.vc == 3 || f.kind == 3 || f.crVc == 3 || f.resv0 != 0 || f.resv1 != 0 || f.resv2 != 0 || decide (224 < f.len.toNat) ||
    (f.kind == 0 && f.code != 0) || (f.kind == 1 && !codeKnown f.code)
/-- The frame is discarded: a reserved encoding, a failed CRC, or an uncorrectable codeword (R279, R281). -/
def frameBad (f : Frame) : Bool := frameReserved f || f.crc != crc32 (frameBody f) || f.fecUncorr != 0

/-! ### PRBS-31 (R287) -/

/-- The next n bits of the generator, and its state after them. Beyond the rules' words: log entry 17 (PRESUMED). -/
def prbsBits : Nat → BitVec 31 → List Bool → List Bool × BitVec 31
  | 0, g, acc => (acc.reverse, g)
  | n + 1, g, acc =>
    let b := g.getLsbD 30 ^^ g.getLsbD 27
    prbsBits n (g <<< 1 ||| (if b then 1 else 0)) (b :: acc)
/-- Eight bits a byte, the first in bit 0. -/
def prbsBytes : Nat → List Bool → List Byte
  | 0, _ => []
  | n + 1, l => (((l.take 8).zipIdx.foldl (fun (v : Nat) e => v + 2 ^ e.2 * e.1.toNat) 0 : Nat) : Byte) :: prbsBytes n (l.drop 8)
/-- The bits of a payload, low bit of each byte first. -/
def bitsOf (bs : List Byte) : List Bool := bs.flatMap fun b => (List.range 8).map fun i => b.getLsbD i
/-- Bits that break x^31 + x^28 + 1. Beyond the rules' words: log entries 17 (PRESUMED) and 40 (DESIGN CHOICE). -/
def prbsErrors (bs : List Byte) : Nat :=
  let b := (bitsOf bs).toArray
  ((List.range' 31 (b.size - 31)).filter fun i => b.getD i false != (b.getD (i - 31) false ^^ b.getD (i - 28) false)).length

end Sys2Proof.Machine
end

