-- ==== Sys2Proof/Machine/Axl.lean ====
section
/-! DEFINITION. Axzal ports (chapter 10): credits, retry and order of frames; port states; time; consignments and the port engine; peer
reads. The frames a port launches stand in Port.sent. -/

namespace Sys2Proof.Machine

open Sys2Proof

def State.port (s : State) (x : PortN) : Port := s.ports[x]
def State.modPort (s : State) (x : PortN) (f : Port → Port) : State := { s with ports := vmod s.ports x f }
def State.modCons (s : State) (x : PortN) (e : Fin 256) (f : Consign → Consign) : State :=
  s.modPort x fun q => { q with cons := vmod q.cons e f }
/-- Number of lanes in a mask. -/
def laneCount (m : BitVec 16) : Nat := ((List.range 16).filter fun l => m.getLsbD l).length

/-! ### Frames and lanes (10.2) -/

/-- A frame before launch. -/
def mkFrame (vc kind : BitVec 2) (ch code : BitVec 8) (idx : BitVec 32) (pl : List Byte) : Frame :=
  { vc := vc, kind := kind, pseq := 0, lseq := 0, ack := 0, nak := false, crVc := 0, credits := 0, channel := ch, code := code,
    len := BitVec.ofNat 8 pl.length, index := idx, payload := pl, crc := 0, resv0 := 0, resv1 := 0, resv2 := 0, fecCorr := 0, fecUncorr := 0 }
/-- CANCEL carries the status in its first payload byte (10.6.2). Beyond the rules' words: log entry 17 (DESIGN CHOICE). -/
def cancelFrame (ch : BitVec 8) (st : Status) : Frame := mkFrame 0 1 ch 2 0 [BitVec.ofNat 8 (statusCode st)]
/-- CLEAR carries CHANNEL, LENGTH and the attempt count (R294). Beyond the rules' words: log entry 17 (DESIGN CHOICE). -/
def clearFrame (ch : BitVec 8) (len : BitVec 32) (attempt : BitVec 4) : Frame :=
  mkFrame 0 1 ch 1 0 (natBytes len.toNat 4 ++ [attempt.zeroExtend 8])
/-- A data frame of a consignment's channel on VC1. -/
def consFrame (ch : BitVec 8) (f : Frame) : Bool := f.vc == 1 && f.kind == 0 && f.channel == ch

/-- The lane in service with the fewest unacknowledged frames, if it holds fewer than 64 (R281). -/
def Port.pickLane (x : Port) : Option (Fin 16) :=
  (List.finRange 16).foldl (fun (b : Option (Fin 16)) l =>
    if !x.laneMask.getLsbD l.val || decide (x.lanes[l].replay.length ≥ 64) then b
    else match b with
      | none => some l
      | some k => if x.lanes[l].replay.length < x.lanes[k].replay.length then some l else b) none

/-- Put a frame with its PSEQ onto a lane: LSEQ, ACK, the credits owed and the CRC are filled in (R278, R280). -/
def Port.onLane (x : Port) (l : Fin 16) (f : Frame) : Port :=
  let v : Fin 3 := ((List.finRange 3).find? fun v => x.owed[v] != 0).getD 0
  let n := min x.owed[v] 2047
  let g := sealFrame { f with lseq := x.lanes[l].txSeq, ack := x.lanes[l].rxSeq, crVc := BitVec.ofNat 2 v.val, credits := BitVec.ofNat 11 n }
  { x with
    owed := vmod x.owed v fun m => m - n, sent := x.sent ++ [g]
    lanes := vmod x.lanes l fun a => { a with txSeq := a.txSeq + 1, replay := a.replay ++ [g] } }
/-- Launch a frame: a credit of its VC, PSEQ, and a lane with room. Beyond the rules' words: log entry 39 (DEDUCED). -/
def Port.launch (x : Port) (f : Frame) : Option Port :=
  let v : Fin 3 := Fin.ofNat 3 f.vc.toNat
  if x.credits[v] = 0 then none
  else match x.pickLane with
    | none => none
    | some l =>
      let n := if f.vc = 1 then x.tx1 + 1 else x.tx1
      some ({ x with
        credits := vmod x.credits v fun n => n - 1, txPseq := x.txPseq + 1, tx1 := n
        lastTx := if consFrame f.channel f then tblPut 0 x.lastTx f.channel.toNat n else x.lastTx }.onLane l { f with pseq := x.txPseq })

/-- Frames of removed lanes go onto lanes with room (R283). -/
def Port.relayAll : Nat → Port → Port
  | 0, x => x
  | n + 1, x => match x.relay, x.pickLane with
    | f :: r, some l => relayAll n ({ x with relay := r }.onLane l f)
    | _, _ => x
/-- Launch what waits, in order, as far as lanes and the credits of each VC allow. -/
def Port.launchAll : List Frame → Port → Port
  | [], x => x
  | f :: r, x => match x.launch f with
    | some y => launchAll r y
    | none => launchAll r { x with waitTx := x.waitTx ++ [f] }
def Port.flushTx (x : Port) : Port :=
  let y := x.relayAll x.relay.length
  if y.relay.isEmpty then Port.launchAll y.waitTx { y with waitTx := [] } else y
/-- Queue a frame and launch what can be launched. -/
def Port.queue (x : Port) (f : Frame) : Port := { x with waitTx := x.waitTx ++ [f] }.flushTx

/-- An idle frame carries ACK, a NAK, and the credits owed of a VC; it takes no credit (R280, R281). -/
def Port.idle (x : Port) (l : Fin 16) (nak : Bool) (v : Fin 3) : Port :=
  let n := min x.owed[v] 2047
  { x with
    owed := vmod x.owed v fun m => m - n
    sent := x.sent ++ [sealFrame { mkFrame 0 2 0 0 0 [] with
      ack := x.lanes[l].rxSeq, nak := nak, crVc := BitVec.ofNat 2 v.val, credits := BitVec.ofNat 11 n }] }
/-- Idle frames return every credit owed; with none owed, one carries the ACK that is due. Beyond the rules' words: log entry 39 (DEDUCED). -/
def Port.idles (x : Port) (l : Fin 16) (ackDue : Bool) : Port :=
  match (List.finRange 3).filter fun v => x.owed[v] != 0 with
  | [] => if ackDue then x.idle l false 0 else x
  | vs => vs.foldl (fun (y : Port) v => y.idle l false v) x
/-- The first lane in service. -/
def Port.lane0 (x : Port) : Fin 16 := ((List.finRange 16).find? fun l => x.laneMask.getLsbD l.val).getD 0

/-- Frames up to LSEQ ack have arrived. -/
def Lane.acked (a : Lane) (ack : BitVec 8) : Lane :=
  if a.replay.any fun f => f.lseq == ack then
    { a with replay := (a.replay.dropWhile fun f => f.lseq != ack).drop 1, resends := 0 }
  else a

/-- Lane l leaves service: its unacknowledged frames go to the remaining lanes, or wait for one with room (R283). -/
def Port.dropLane (x : Port) (l : Fin 16) : Port :=
  let y := { x with
    relay := x.relay ++ x.lanes[l].replay, laneMask := x.laneMask &&& ~~~(1#16 <<< l.val)
    lanes := vmod x.lanes l fun a => { a with replay := [], resends := 0 } }
  y.relayAll y.relay.length

/-- Resend a lane from ACK + 1 (R281); none where the frame has failed 16 consecutive resends. -/
def Port.nakked (x : Port) (l : Fin 16) (ack : BitVec 8) : Option Port :=
  let a := x.lanes[l].acked ack
  if a.replay.isEmpty then some { x with lanes := x.lanes.set l a }
  else if a.resends ≥ 16 then none
  else some { x with
    lanes := x.lanes.set l { a with resends := a.resends + 1 }, replays := x.replays + 1, sent := x.sent ++ a.replay }

/-! ### Logbook records of a port -/

/-- Unit identifier of an AXL port (Table 15.3). Beyond the rules' words: log entry 77 (DESIGN CHOICE). -/
def portUnit (x : PortN) : BitVec 40 := BitVec.ofNat 40 (9 + 256 * x.val)
def State.logPort (s : State) (x : PortN) (action : Nat) : State := s.logRec 0x31 .hardware [(portUnit x).toNat, action]

/-! ### Ends (R285, R298) -/

/-- The entry runs and has not ended. -/
def Consign.live (c : Consign) : Bool := c.busy && c.ended.isNone
/-- The entry ends with the status of a row of Table 10.7, unless an earlier row applies already. -/
def Consign.stop (c : Consign) (row : Nat) (st : Status) : Consign :=
  match c.ended with
  | some e => if row < e.1 then { c with ended := some (row, st) } else c
  | none => { c with ended := some (row, st) }
/-- The running entries end. -/
def Port.stopAll (x : Port) (row : Nat) (st : Status) : Port :=
  { x with cons := x.cons.map fun c => if c.busy then c.stop row st else c }
/-- The entry that an engine's access belongs to; a peer's read has none. -/
def Work.entry : Work → Option (PortN × Fin 256)
  | .fill x k _ _ => some (x, k)
  | .store x k _ _ => some (x, k)
  | .addend x k _ _ => some (x, k)
  | .mend x k _ _ => some (x, k)
  | _ => none
/-- The accesses of entries that have ended, and of peer reads over ports that serve none, are given up. -/
def State.sweep (s : State) : State :=
  let keep (e : Errand) : Bool := match e.work.entry, e.work with
    | some (x, k), _ => ((s.port x).cons[k]).live
    | none, .fetch x _ _ _ _ => (s.port x).state == .up
    | none, _ => true
  { s with errands := s.errands.filter keep }

/-- Running consignments and peer reads complete; nothing more is owed to the peer. -/
def Port.ends (x : Port) (st : Status) : Port :=
  { x.stopAll 1 st with clears := [], fetches := [], inbox := [], farLoop := 0, timeValid := false, exchanges := 0 }
/-- The lanes carry nothing more. -/
def Port.hush (x : Port) : Port :=
  { x with held := [], waitTx := [], relay := [], laneMask := 0, lanes := x.lanes.map fun a => { a with replay := [] } }
/-- The port leaves its state for another. -/
def State.portLeave (s : State) (x : PortN) (nx : PortState) (st : Status) : State :=
  (s.modPort x fun q =>
    let y := if q.state = .up then { q.ends st with downCount := q.downCount + 1 } else q
    { y.hush with
      state := nx, stateSince := s.now, retryAt := none, fibreLoop := if nx = .loopback then q.fibreLoop else false
      lock := q.lock && nx == .dark }).sweep
/-- Loss of light or lock on so many lanes that fewer than 8 serve; the loss of a peer is recorded (R304). -/
def State.portLost (s : State) (x : PortN) : State :=
  let s1 := (s.portLeave x .dark .partnerLost).modPort x fun q => { q with los := true, lock := false }
  if (s.port x).state = .up then s1.logErr (portUnit x) (statusCode .partnerLost) 1 else s1

/-- A lane that failed 16 resends is removed. -/
def State.laneRemove (s : State) (x : PortN) (l : Fin 16) : State :=
  let s1 := (s.modPort x fun q => q.dropLane l).logPort x (0x100 + l.val)
  if laneCount (s1.port x).laneMask < 8 then s1.portLost x else s1

/-! ### The port engine (R297) -/

/-- The wharf tile of a port sends a packet with the step tag of a consignment. Beyond the rules' words: log entry 79 (DEDUCED). -/
def State.enginePacket (s : State) (x : PortN) (step : Nat) (type : BitVec 4) (vc : BitVec 2) : Packet :=
  let p := wharfPos x
  let at_ := match s.stepNum step with | some r => r.attempt | none => 0
  { Packet.blank 0 (.source p) type with
    vc := vc, epoch := (s.ut p).mesh.epoch, skind := 1, src := BitVec.ofNat 8 p.val, stepNo := BitVec.ofNat 12 step, attempt := at_ }

/-- The lines that n bytes from model address a on touch, by their offset from the first; all of them, or those covered in part. -/
def lineSpan (a n : Nat) (partly : Bool) : List Nat :=
  let lo := a / 64 * 64
  ((List.range (cdiv (a + n - lo) 64)).map fun i => 64 * i).filter fun o => !partly || decide (lo + o < a) || decide (a + n < lo + o + 64)
/-- The requests by which the engine reads n bytes at a panel address: RD_REQ of class 0x0, LINE_REQ of class 0x1. -/
def State.readPlan (s : State) (x : PortN) (step : Nat) (addr : Word) (n : Nat) (partly : Bool) : Plan :=
  if s.addrBad addr || s.addrBad (addr + BitVec.ofNat 64 (n - 1)) then .ends .illegalDescriptor
  else if addrClass addr = 1 then
    let a := addrModel addr
    s.linePlan (s.enginePacket x step 9 2) (a / 64 * 64) ((lineSpan a n partly).map fun o => (o, none))
  else
    let b := { s.enginePacket x step 1 2 with dest := BitVec.ofNat 8 (addrLt addr) }
    .go ((piecesOf (addrOff addr) n).map fun e =>
      (e.1, { b with addr := addr + BitVec.ofNat 64 e.1, total := e.2, base := 0 }))
/-- The n bytes at a panel address in what the requests brought. -/
def Errand.bytes (e : Errand) (addr : Word) (n : Nat) : List Byte :=
  if addrClass addr = 1 then
    let a := addrModel addr
    (((lineSpan a n false).flatMap fun o => e.piece o).drop (a % 64)).take n
  else (piecesOf (addrOff addr) n).flatMap fun g => e.piece g.1
/-- The whole lines to be written, with old bytes around those of a line covered in part. -/
def linesWith (a : Nat) (bs : List Byte) (old : Nat → List Byte) : List (Nat × Option (List Byte)) :=
  let lo := a / 64 * 64
  (lineSpan a bs.length false).map fun o =>
    let q := old o
    (o, some ((List.range 64).map fun i =>
      if a ≤ lo + o + i ∧ lo + o + i < a + bs.length then bs.getD (lo + o + i - a) 0 else q.getD i 0))

/-- The window of a class 0x0 destination: the entry's, or for an expansion the one that covers its bytes. -/
def State.consWindow (s : State) (c : Consign) : Fin 256 × BitVec 16 :=
  if !c.auto then (Fin.ofNat 256 c.window.toNat, c.gen)
  else match s.posOf (Fin.ofNat 120 (addrLt c.loc)) with
    | none => (0, 0)
    | some p =>
      let k := ((List.finRange 256).find? fun k =>
        let w := s.window p k
        w.open_ && w.declared && decide (w.base.toNat ≤ addrOff c.loc) && decide (addrOff c.loc + c.length.toNat ≤ w.base.toNat + w.length.toNat)).getD 0
      (k, (s.window p k).gen)
/-- The requests by which the engine writes bytes at offset off of an entry's LOCAL; old gives the lines covered in part. Each packet is a
write of its own. Beyond the rules' words: log entry 93 (DESIGN CHOICE). -/
def State.writePlan (s : State) (x : PortN) (c : Consign) (off : Nat) (bs : List Byte) (old : Nat → List Byte) : Plan :=
  let addr := c.loc + BitVec.ofNat 64 off
  if s.addrBad addr || s.addrBad (addr + BitVec.ofNat 64 (bs.length - 1)) then .ends .illegalDescriptor
  else if addrClass addr = 1 then
    let a := addrModel addr
    s.linePlan (s.enginePacket x c.step 9 2) (a / 64 * 64) (linesWith a bs old)
  else
    let w := s.consWindow c
    let b := { s.enginePacket x c.step 3 2 with dest := BitVec.ofNat 8 (addrLt addr), gen := w.2, win := BitVec.ofNat 8 w.1.val }
    .go ((piecesOf (addrOff addr) bs.length).map fun e =>
      let y := addr + BitVec.ofNat 64 e.1
      (e.1, { b with addr := y, base := y, total := e.2, length := BitVec.ofNat 13 e.2, payload := (bs.drop e.1).take e.2 }))

/-- What has come of beginning an access: done for now, held up, or ended with a status. -/
inductive Begun where
  | under (s : State)
  | held
  | failed (st : Status)
def State.begin (s : State) (x : PortN) (w : Work) (p : Plan) : Begun :=
  match p with
  | .go qs => .under (s.errandStart (some (wharfPos x)) w qs)
  | .waits => .held
  | .ends st => .failed st
/-- The model lines that an entry's write under way touches. -/
def State.writing (s : State) (w : Work) : List Nat :=
  let span (x : PortN) (k : Fin 256) (off n : Nat) : List Nat :=
    let a := (s.port x).cons[k].loc + BitVec.ofNat 64 off
    if addrClass a = 1 then (lineSpan (addrModel a) n false).map fun o => addrModel a / 64 + o / 64 else []
  match w with
  | .store x k off n => span x k off n
  | .mend x k off bs => span x k off bs.length
  | _ => []
/-- Write bytes for an entry, after the lines covered in part have been read (R195); a line that another write covers in part is waited for.
Beyond the rules' words: log entry 93 (DESIGN CHOICE). -/
def State.store (s : State) (x : PortN) (e : Fin 256) (off : Nat) (bs : List Byte) : Begun :=
  let c := (s.port x).cons[e]
  let addr := c.loc + BitVec.ofNat 64 off
  let mine := (lineSpan (addrModel addr) bs.length true).map fun o => addrModel addr / 64 + o / 64
  if addrClass addr = 1 && !mine.isEmpty then
    if s.errands.any fun r => (s.writing r.work).any fun l => mine.contains l then .held
    else s.begin x (.mend x e off bs) (s.readPlan x c.step addr bs.length true)
  else s.begin x (.store x e off bs.length) (s.writePlan x c off bs fun _ => [])
/-- Take arrived data: as it is, or after the addend has been read. -/
def State.takeData (s : State) (x : PortN) (e : Fin 256) (off : Nat) (bs : List Byte) : Begun :=
  let c := (s.port x).cons[e]
  if c.combine then s.begin x (.addend x e off bs) (s.readPlan x c.step (c.addend + BitVec.ofNat 64 off) bs.length false)
  else s.store x e off bs

/-- Accesses of an entry, or of a peer's read, under way. -/
def State.consBusy (s : State) (x : PortN) (e : Fin 256) : Nat := (s.errands.filter fun r => r.work.entry == some (x, e)).length
def State.fetchBusy (s : State) (x : PortN) (ch : BitVec 8) : Nat :=
  (s.errands.filter fun r => match r.work with | .fetch y c _ _ _ => y == x && c == ch | _ => false).length
/-- Frames and reads that the engine keeps ahead of the link, for one entry or peer read (DESIGN CHOICE, log entry 93). -/
def engineDepth : Nat := 16

/-- The entry ends with a status: its accesses and frames not launched are given up. -/
def State.consStop (s : State) (x : PortN) (e : Fin 256) (row : Nat) (st : Status) : State :=
  let ch := (s.port x).cons[e].channel
  let send := (s.port x).cons[e].dir == 0
  ((s.modCons x e fun c => c.stop row st).modPort x fun q =>
    { q with waitTx := if send then q.waitTx.filter fun f => !consFrame ch f else q.waitTx }).sweep

/-- A met SEND begins to read one frame's data: the new state where it did, none where it is held up. -/
def State.sendOne (s : State) (x : PortN) (e : Fin 256) : Option State :=
  let c := (s.port x).cons[e]
  let n := min 224 (c.length.toNat - c.moved)
  if !c.live || c.dir != 0 || !c.met || n == 0 then none
  else if s.consBusy x e + ((s.port x).waitTx.filter fun f => consFrame c.channel f).length ≥ engineDepth then none
  else match s.begin x (.fill x e c.moved n) (s.readPlan x c.step (c.loc + BitVec.ofNat 64 c.moved) n false) with
    | .held => none
    | .under s1 => some (s1.modCons x e fun c => { c with moved := c.moved + n })
    | .failed st => some (s.consStop x e 5 st)

/-- A peer read begins to read one frame's data, or is refused. Reads go in class C2 (10.6.3). -/
def State.fetchOne (s : State) (x : PortN) : Option State :=
  match (s.port x).fetches with
  | [] => none
  | (ch, a, len, done) :: rest =>
    let n := min 224 (len - done)
    let drop (s : State) : State := s.modPort x fun q => { q with fetches := rest }
    if s.fetchBusy x ch + ((s.port x).waitTx.filter fun f => f.vc == 2 && f.kind == 0 && f.channel == ch).length ≥ engineDepth then none
    else if n = 0 then some ((drop s).modPort x fun q => q.queue (mkFrame 2 0 ch 0 0 []))
    else match s.begin x (.fetch x ch (a + BitVec.ofNat 64 done) done n) (s.readPlan x 0 (a + BitVec.ofNat 64 done) n false) with
      | .held => none
      | .under s1 => some (if done + n ≥ len then drop s1 else s1.modPort x fun q => { q with fetches := (ch, a, len, done + n) :: rest })
      | .failed st => some ((drop s).modPort x fun q => q.queue (cancelFrame ch st))

/-- The running entry of a channel that takes data: RECV on VC1, FETCH on VC2. -/
def Port.taker (x : Port) (ch : BitVec 8) (dir : BitVec 2) : Option (Fin 256) :=
  (List.finRange 256).find? fun e =>
    let c := x.cons[e]
    c.live && c.dir == dir && c.channel == ch
/-- Mark a delivered frame by its PSEQ. -/
def Port.markIn (x : Port) (n : BitVec 16) (f : InFrame → InFrame) : Port :=
  { x with inbox := x.inbox.map fun i => if i.frame.pseq = n then f i else i }
def Port.doneIn (x : Port) (n : BitVec 16) : Port := x.markIn n fun i => { i with done := true }
/-- The engine takes up one delivered frame, unless its entry is still being written. -/
def State.takeOne (s : State) (x : PortN) (i : InFrame) : State :=
  let f := i.frame
  let q := s.port x
  let done (s : State) : State := s.modPort x fun q => q.doneIn f.pseq
  if i.done then s
  else match i.entry with
    | some e => if (q.cons[e]).live then s else done s
    | none =>
      if q.quar then done (s.modPort x fun q => q.queue (cancelFrame f.channel .noRights))
      else match q.taker f.channel (if f.vc = 2 then 2 else 1) with
        | none => done (s.modPort x fun q => { q with discarded := q.discarded + 1 })
        | some e =>
          if q.inbox.any fun j => j.entry == some e && !j.done then s
          else if q.cons[e].length = 0 || (frameData f).isEmpty then done ((s.modCons x e fun c => { c with met := true }).consStop x e 7 .done)
          else match s.takeData x e (f.index.toNat * 224) (frameData f) with
            | .held => s
            | .under s1 => (s1.modCons x e fun c => { c with met := true }).modPort x fun q => q.markIn f.pseq fun i => { i with entry := some e }
            | .failed st => done ((s.modCons x e fun c => { c with met := true }).consStop x e 5 st)
/-- Credits of the frames that have been dealt with are owed, in order of arrival on each VC. Beyond the rules' words: log entry 93
(DESIGN CHOICE). -/
def settleIn : List InFrame → Bool → Bool → List InFrame × Nat × Nat
  | [], _, _ => ([], 0, 0)
  | i :: r, b1, b2 =>
    let v2 := i.frame.vc == 2
    if i.done && !(if v2 then b2 else b1) then
      let x := settleIn r b1 b2
      (x.1, if v2 then (x.2.1, x.2.2 + 1) else (x.2.1 + 1, x.2.2))
    else
      let x := settleIn r (b1 || !v2) (b2 || v2)
      (i :: x.1, x.2)
def Port.settle (x : Port) : Port :=
  let r := settleIn x.inbox false false
  { x with inbox := r.1, owed := (x.owed.set 1 (x.owed[1] + r.2.1)).set 2 (x.owed[2] + r.2.2) }

/-- Whatever the engine can begin now: data of met SENDs in entry order, then peer reads. -/
def State.pumpN (x : PortN) : Nat → State → State
  | 0, s => s
  | n + 1, s =>
    match (List.finRange 256).findSome? fun e => s.sendOne x e with
    | some s1 => pumpN x n s1
    | none => match s.fetchOne x with
      | some s1 => pumpN x n s1
      | none => s
/-- The port goes on: frames that wait are launched, delivered data is taken up, and reads begin. -/
def State.pump (s : State) (x : PortN) : State :=
  if (s.port x).state = .up then
    let s1 := s.modPort x Port.flushTx
    let s2 := (s1.port x).inbox.foldl (fun (s : State) i => s.takeOne x i) s1
    (s2.modPort x Port.settle).pumpN x 4096
  else s
/-- The same, after which idle frames return the credits that no frame has taken along. -/
def State.pumpIdle (s : State) (x : PortN) : State :=
  let s1 := s.pump x
  if (s.port x).state = .up then s1.modPort x fun q => q.idles q.lane0 false else s1

/-- A fired SEND meets the CLEAR held for its channel (R294, R296). A pair of LENGTH 0 is closed by an empty data frame.
Beyond the rules' words: log entry 39 (DEDUCED). -/
def State.tryMeet (s : State) (x : PortN) (e : Fin 256) : State :=
  let c := (s.port x).cons[e]
  match (s.port x).clears.find? fun k => k.1 == c.channel with
  | none => s
  | some k =>
    if !c.live || c.dir != 0 || c.met then s
    else
      let s1 := s.modPort x fun q => { q with clears := q.clears.filter fun k => k.1 != c.channel }
      if k.2.1 ≠ c.length then s1.modCons x e fun c => { c with met := true }.stop 4 .windowBounds
      else if c.length = 0 then
        (s1.modCons x e fun c => { c with met := true }.stop 7 .done).modPort x fun q => q.queue (mkFrame 1 0 c.channel 0 0 [])
      else s1.modCons x e fun c => { c with met := true }

/-! ### Firing (R293) -/

/-- The request of a FETCH: VC2, the peer model address and the length (DESIGN CHOICE, log entry 17). -/
def fetchFrame (c : Consign) : Frame := mkFrame 2 1 c.channel 0 0 (natBytes c.addend.toNat 8 ++ natBytes c.length.toNat 4)

def State.fire (s : State) (x : PortN) (e : Fin 256) : State :=
  let q := s.port x
  let c := q.cons[e]
  if c.busy then s.modPort x fun q => { q with refused := q.refused + 1 }
  else
    let s1 := s.modCons x e fun c => { c with busy := true, met := false, moved := 0, firedAt := s.now, ended := none }
    if q.state ≠ .up then s1.modCons x e fun c => c.stop 1 .partnerLost
    else if q.quar then s1.modCons x e fun c => c.stop 2 .noRights
    else if c.dir = 1 then
      let at_ := match s.stepNum c.step with | some r => r.attempt | none => 0
      s1.modPort x fun q => q.queue (clearFrame c.channel c.length at_)
    else if c.dir = 0 then (s1.tryMeet x e).pump x
    else (s1.modCons x e fun c => { c with met := true }).modPort x fun q => q.queue (fetchFrame c)

/-- Trigger j shows reached in the mirror of position p. -/
def State.trigger (s : State) (p : Pos) (j : Nat) : State :=
  match portAt p with
  | none => s
  | some x => (List.finRange 256).foldl (fun s e =>
      let c := (s.port x).cons[e]
      if c.valid && c.after.isEmpty && c.trigger.toNat == j then s.fire x e else s) s

/-- The first update of chamber j on its way to the tile arrives. -/
def takeUpdate (j : Fin 8192) : List (Fin 8192 × Bool) → Option Bool × List (Fin 8192 × Bool)
  | [] => (none, [])
  | e :: r => if e.1 = j then (some e.2, r) else let x := takeUpdate j r; (x.1, e :: x.2)
/-- R240; a consignment of the tile's port fires when the mirror shows its trigger reached (R293). -/
def execMirrorUpdate (p : Pos) (j : Fin 8192) (s : State) : Out := .next (
  let x := takeUpdate j (s.ut p).mirrorDue
  match x.1 with
  | none => s
  | some r =>
    let s1 := s.modUt p fun u => { u with
      mirrorDue := x.2, mirror := if r then (if u.mirror.contains j then u.mirror else j :: u.mirror) else u.mirror.filter fun c => c != j }
    if r then s1.trigger p j.val else s1)


/-! ### Receiving -/

/-- The port launches a data frame of the PRBS-31 pattern (R287). Beyond the rules' words: log entry 40 (DESIGN CHOICE). -/
def Port.pattern_ (x : Port) : Port :=
  let b := prbsBits 1792 x.prbs []
  match { x with prbs := b.2 }.launch (mkFrame 1 0 0 0 0 (prbsBytes 224 b.1)) with
  | some y => y
  | none => x

/-- One frame is delivered in PSEQ order: data to the port engine, or as the loop-back modes say; the credit of any other frame is owed at
once. What a control frame says is a command of its own. Beyond the rules' words: log entries 39 (DEDUCED) and 40 (DESIGN CHOICE). -/
def Port.deliver (x : Port) (f : Frame) : Port :=
  let y := { x with owed := vmod x.owed (Fin.ofNat 3 f.vc.toNat) fun n => n + 1 }
  if f.kind ≠ 0 then y
  else if x.state = .loopback then
    if x.loop_ = 0 then y else { y with pattern := satAdd y.pattern (prbsErrors (frameData f)) }.pattern_
  else if x.farLoop = 4 then y.queue (mkFrame f.vc 0 f.channel 0 f.index (frameData f))
  else if x.farLoop = 3 then { y with sent := y.sent ++ [f] }
  else { x with inbox := x.inbox ++ [{ frame := f }] }

/-- Deliver held frames in PSEQ order (R282). -/
def Port.deliverN : Nat → Port → Port
  | 0, x => x
  | n + 1, x =>
    match x.held.find? fun f => f.pseq == x.rxNext with
    | none => x
    | some f => deliverN n ({ x with rxNext := x.rxNext + 1, held := x.held.filter fun g => g.pseq != f.pseq }.deliver f)

/-- ACK, credits and NAK of a frame that arrived. -/
def State.frameBack (s : State) (x : PortN) (l : Fin 16) (f : Frame) : State :=
  let s1 := s.modPort x fun q => { q with
    lanes := vmod q.lanes l fun a => a.acked f.ack
    credits := vmod q.credits (Fin.ofNat 3 f.crVc.toNat) fun n => n + f.credits.toNat
    back1 := if f.crVc = 1 then q.back1 + f.credits.toNat else q.back1 }
  if f.nak then
    match (s1.port x).nakked l f.ack with
    | some y => s1.modPort x fun _ => y
    | none => s1.laneRemove x l
  else s1

/-- What every received frame does first: FEC counts, and the count of R279. -/
def Port.fec (x : Port) (f : Frame) : Port :=
  { x with
    fecCorr := x.fecCorr + BitVec.ofNat 24 f.fecCorr, fecUncorr := x.fecUncorr + BitVec.ofNat 12 f.fecUncorr
    badFrame := if frameReserved f then x.badFrame + 1 else x.badFrame }

def Port.listening (x : Port) : Bool := x.state == .up || x.state == .loopback
/-- In mode 3 a data frame is the port's own, retimed by the peer, and stands outside the peer's order. Beyond the rules' words: log entry 40
(DESIGN CHOICE). -/
def Port.own (x : Port) (f : Frame) : Bool := x.state == .loopback && x.loop_ == 3 && f.kind == 0

/-- A frame that takes a credit arrives on a lane (R279 to R282); what the port has to acknowledge and owes goes back with its next frame on
the lane, or in an idle frame. -/
def execAxlDataFrame (x : PortN) (lane : Fin 16) (f : Frame) (t : Nat) (s : State) : Out := .next (
  let s0 := s.at_ t
  let q := s0.port x
  if !q.listening || !q.laneMask.getLsbD lane.val then s0
  else
    let s1 := s0.modPort x fun q => q.fec f
    if q.own f then if frameBad f then s1 else s1.modPort x fun q => { q with pattern := satAdd q.pattern (prbsErrors (frameData f)) }.pattern_
    else if frameBad f || f.lseq != q.lanes[lane].rxSeq + 1 then s1.modPort x fun q => q.idle lane true 0
    else
      let s2 := (s1.modPort x fun q => { q with lanes := vmod q.lanes lane fun a => { a with rxSeq := f.lseq } }).frameBack x lane f
      let r := s2.port x
      let seen := (f.pseq - r.rxNext).toNat ≥ 32768 || r.held.any fun g => g.pseq == f.pseq
      let s3 := s2.modPort x fun q => if seen then q else { q with held := q.held ++ [f] }.deliverN (q.held.length + 1)
      let s4 := s3.pump x
      s4.modPort x fun y => if y.listening then y.idles lane (y.sent.length == r.sent.length) else y)

/-- Idle frames carry ACK and credits (R280). -/
def execAxlIdleFrame (x : PortN) (lane : Fin 16) (f : Frame) (t : Nat) (s : State) : Out := .next (
  let s0 := s.at_ t
  let q := s0.port x
  if !q.listening || !q.laneMask.getLsbD lane.val then s0
  else
    let s1 := s0.modPort x fun q => q.fec f
    if frameBad f then s1.modPort x fun q => q.idle lane true 0
    else (s1.frameBack x lane f).pump x)

def execAxlNak (x : PortN) (lane : Fin 16) (ack : BitVec 8) (t : Nat) (s : State) : Out := .next (
  let s0 := s.at_ t
  let q := s0.port x
  if !q.listening || !q.laneMask.getLsbD lane.val then s0
  else match q.nakked lane ack with
    | some y => (s0.modPort x fun _ => y).pump x
    | none => s0.laneRemove x lane)

/-! ### Port states (Table 10.4) -/

/-- The port's lasers may be on: the panel is powered and past stage 0x08, the port's optics supply lives, its optical engine is not held off for
heat, and its wharf under-tile works (R21, R23, R286, R382, Table 16.5). -/
def State.portCan (s : State) (x : PortN) : Bool :=
  let u := s.ut (wharfPos x)
  let lit := s.lkh.pstate != .off && (s.lkh.pstate != .starting || (decide (9 ≤ s.lkh.stageNext) && !s.lkh.halted))
  lit && !(s.port x).hotOff && !s.power.lost.contains (if x.val < 9 then .northOptics else .southOptics) && !u.flags.lost && u.pwr.vnet &&
    !u.flags.inTileReset
def State.axlEnable (s : State) (x : PortN) : State := s.modPort x fun q =>
  let on := q.state == .off && s.portCan x
  { q with en := true, state := if on then .dark else q.state, stateSince := if on then s.now else q.stateSince }
def execAxlEnable (x : PortN) (s : State) : Out := .next (s.axlEnable x)

/-- A DARK port with frame lock on 8 lanes goes on by the digest that it receives; after a failed training, once 100 ms are over. -/
def Port.locked (x : Port) (now_ : Nat) : Port :=
  if x.state ≠ .dark ∨ x.lock = false ∨ x.retryAt.isSome then x
  else if x.peerId = identityDigest then
    { x with state := .loopback, fibreLoop := true, stateSince := now_, laneMask := 0xFFFF, rxNext := x.txPseq, lock := false
             lanes := x.lanes.map fun a => { a with rxSeq := a.txSeq - 1 } }
  else { x with state := .training, stateSince := now_ }

def execAxlFrameLock (x : PortN) (lanes : Nat) (digest : BitVec 256) (t : Nat) (s : State) : Out := .next (
  let s0 := s.at_ t
  if (s0.port x).state ≠ .dark || lanes < 8 || !s0.portCan x then s0
  else s0.modPort x fun q => { q with lock := true, peerId := digest }.locked s0.now)

/-- R305: whether a peer is quarantined. -/
def execAxlTrained (x : PortN) (peerGen2 : Bool) (lanes : BitVec 16) (t : Nat) (s : State) : Out := .next (
  let s0 := s.at_ t
  let q := s0.port x
  if q.state ≠ .training || laneCount lanes < 8 || s0.now > q.stateSince + 50000000 || !s0.portCan x then s0
  else (s0.modPort x fun q => { q with
      state := .up, stateSince := s0.now, gen2 := q.genMax && peerGen2, laneMask := lanes
      quar := s.sec.quarantine.contains q.peerId, credits := #v[32, 1024, 1024], owed := Vector.replicate 3 0
      lanes := Vector.replicate 16 {}, txPseq := 0, rxNext := 0, held := [], waitTx := [], relay := [], inbox := [], tx1 := 0, back1 := 0
      lastTx := [], fetches := [], exchanges := 0, timeValid := false, farLoop := 0 }).logPort x 1)

def execAxlTrainingTimeout (x : PortN) (t : Nat) (s : State) : Out := .next (
  let s0 := s.at_ t
  let q := s0.port x
  if q.state = .training && decide (q.stateSince + 50000000 ≤ s0.now) then
    s0.modPort x fun q => { q with state := .dark, stateSince := s0.now, retryAt := some (s0.now + 100000000) }
  else s0)

/-- The retry is due: a port that still has frame lock trains again, any other goes on searching. -/
def execAxlRetryTimer (x : PortN) (t : Nat) (s : State) : Out := .next (
  let s0 := s.at_ t
  let q := s0.port x
  match q.retryAt with
  | some a => if q.state = .dark && decide (a ≤ s0.now) then s0.modPort x fun q => { q with retryAt := none }.locked s0.now else s0
  | none => s0)

/-- `lanes`: the lanes that still have light and lock. -/
def execAxlLossOfLight (x : PortN) (lanes : BitVec 16) (t : Nat) (s : State) : Out := .next (
  let s0 := s.at_ t
  let q := s0.port x
  match q.state with
  | .up =>
    if laneCount (q.laneMask &&& lanes) < 8 then s0.portLost x
    else ((List.finRange 16).foldl (fun s l =>
      if q.laneMask.getLsbD l.val && !lanes.getLsbD l.val then s.modPort x fun q => q.dropLane l else s) s0).pump x
  | .loopback => if laneCount lanes < 8 then (s0.portLeave x .dark .partnerLost).modPort x fun q => { q with lock := false } else s0
  | .off => s0
  | _ => s0.modPort x fun q => { q with lock := q.lock && decide (8 ≤ laneCount lanes) })

def State.axlDisable (s : State) (x : PortN) : State := (s.portLeave x .off .tileReset).modPort x fun q => { q with en := false }
def execAxlDisable (x : PortN) (s : State) : Out := .next (s.axlDisable x)

/-! ### Loop-backs (10.4) -/

/-- A consignment of an admitted step is loaded on the port. -/
def Port.loaded (x : Port) : Bool := x.cons.toList.any fun c => c.valid
/-- A loop-back notice on VC0; the notice codes are a DESIGN CHOICE (log entry 17). -/
def loopFrame (code : BitVec 8) (v : BitVec 3) : Frame := mkFrame 0 1 0 code 0 [v.zeroExtend 8]

/-- The port enters mode v: what ran ends, the link goes on, and the first pattern frame is launched. In modes 1 and 2 the port hears its own
frames. Beyond the rules' words: log entry 40 (DESIGN CHOICE). -/
def State.enterLoop (s : State) (x : PortN) (v : BitVec 3) : State :=
  (s.modPort x fun q =>
    let y := { q.ends .tileReset with state := .loopback, loop_ := v, downCount := q.downCount + 1, stateSince := s.now }
    let own := { y with held := [], rxNext := y.txPseq, lanes := y.lanes.map fun a => { a with rxSeq := a.txSeq - 1 } }
    (if v.toNat ≤ 2 then own else y).pattern_).sweep
/-- LOOP is written: a mode is entered, asked of the peer, or left. -/
def State.axlLoop (s : State) (x : PortN) (v : BitVec 3) (accepted : Bool) : State :=
  let q := s.port x
  if v.toNat > 4 then s
  else if v = 0 then
    if q.state = .loopback then (s.portLeave x .dark .tileReset).modPort x fun q => { q with loop_ := 0 }
    else s.modPort x fun q => { q with loop_ := 0 }
  else if q.loaded || q.state ≠ .up then s
  else
    let s1 := if v.toNat ≥ 3 then s.modPort x fun q => q.queue (loopFrame 0x10 v) else s
    if v.toNat ≥ 3 && !accepted then s1.modPort x fun q => { q with loop_ := 0, loopRefused := true }
    else
      let s2 := s1.enterLoop x v
      { s2 with lkh := { s2.lkh with refBroken := true } }
def execAxlLoopWrite (x : PortN) (v : BitVec 3) (accepted : Bool) (s : State) : Out := .next (s.axlLoop x v accepted)

/-- The peer asks for mode 3 or 4. -/
def execAxlLoopRequest (x : PortN) (v : BitVec 3) (s : State) : Out := .next (
  let q := s.port x
  if q.state ≠ .up then s
  else if v = 0 then s.modPort x fun q => { q with farLoop := 0 }
  else if (v = 3 || v = 4) && !q.loaded then s.modPort x fun q => { q with farLoop := v }.queue (loopFrame 0x11 v)
  else s.modPort x fun q => q.queue (loopFrame 0x12 v))

/-! ### Time (R290) -/

/-- VC0 control and time frames pass: UP, and in the modes 1 to 4 (R289). -/
def Port.talks (x : Port) : Bool := x.state == .up || (x.state == .loopback && x.loop_ != 0)

def execAxlTimeExchange (x : PortN) (t : Nat) (s : State) : Out := .next (
  let s0 := s.at_ t
  if !(s0.port x).talks then s0
  else s0.modPort x fun q => q.queue (mkFrame 0 1 0 3 0
    (natBytes (s0.now * 65536) 8 ++ natBytes (BitVec.ofInt 64 q.timeIn.1).toNat 8 ++ natBytes (BitVec.ofInt 64 q.timeIn.2).toNat 8 ++
      [s0.tsrc.cur.zeroExtend 8])))

/-- The four times in units of 2⁻¹⁶ ns. -/
def execAxlTimeFrame (x : PortN) (t1 t2 t3 t4 : Int) (src : BitVec 2) (s : State) : Out := .next (
  if !(s.port x).talks then s
  else s.modPort x fun q =>
    let off := ((t1 - t2) + (t4 - t3)) / 2
    let dly := ((t2 - t1) + (t4 - t3)) / 2
    { q with
      offset := BitVec.ofInt 48 off, delay := BitVec.ofNat 14 (min (dly / 65536).toNat 16383), peerSrc := src
      timeIn := (t1, t2), exchanges := q.exchanges + 1, timeValid := q.timeValid || decide (q.exchanges + 1 ≥ 4) })

/-! ### Consignment control frames (R294 to R298) -/

/-- A CLEAR arrives; in loop-back every consignment is refused (R289). -/
def execAxlClear (x : PortN) (ch : BitVec 8) (len : BitVec 32) (attempt : BitVec 4) (t : Nat) (s : State) : Out := .next (
  let s0 := s.at_ t
  let q := s0.port x
  let refuse (st : Status) : State := s0.modPort x fun q => q.queue (cancelFrame ch st)
  if !q.talks then s0
  else if q.state ≠ .up then refuse .partnerLost
  else if q.quar then refuse .noRights
  else if q.clears.any fun k => k.1 == ch then refuse .illegalDescriptor
  else
    let s1 := s0.modPort x fun q => { q with clears := q.clears ++ [(ch, len, attempt)] }
    match (List.finRange 256).find? fun e => let c := q.cons[e]; c.live && c.dir == 0 && c.channel == ch && !c.met with
    | some e => (s1.tryMeet x e).pump x
    | none => s1)

/-- The running entries of the channel complete with the status; an unheld CLEAR of it is withdrawn. -/
def execAxlCancel (x : PortN) (ch : BitVec 8) (st : Status) (t : Nat) (s : State) : Out := .next (
  let s0 := s.at_ t
  if !(s0.port x).talks then s0
  else
    let hit (c : Consign) : Bool := c.busy && c.channel == ch && c.ended.isNone
    let s1 := (s0.modPort x fun q => { q with
      clears := q.clears.filter fun k => k.1 != ch
      cons := q.cons.map fun c => if c.busy && c.channel == ch then c.stop 6 st else c }).sweep
    ((s0.port x).cons.toList.filter fun c => hit c && c.linkAbort).foldl (fun s c => s.askAbort c.step (.status st) 0x7F) s1)

def execConsignmentMeetTimeout (x : PortN) (e : Fin 256) (t : Nat) (s : State) : Out := .next (
  let s0 := s.at_ t
  let c := (s0.port x).cons[e]
  if c.live && !c.met && decide (c.firedAt + (s0.port x).meetUs.toNat * 1000 ≤ s0.now) then
    ((s0.modCons x e fun c => c.stop 3 .heldTimeout).modPort x fun q =>
      { q with timeouts := q.timeouts + 1 }.queue (cancelFrame c.channel .heldTimeout)).logErr (portUnit x) (statusCode .heldTimeout) 1
  else s0)

/-- Every data frame of a SEND has been read, launched and acknowledged, and the RECV end has written its bytes: the credits of VC1, which it
returns in order as it writes, reach the last of them. Beyond the rules' words: log entry 93 (DESIGN CHOICE). -/
def State.sendDone (s : State) (x : PortN) (e : Fin 256) : Bool :=
  let q := s.port x
  let c := q.cons[e]
  c.dir == 0 && c.met && c.moved == c.length.toNat && s.consBusy x e == 0 &&
    !(q.waitTx.any fun f => consFrame c.channel f) && !(q.relay.any fun f => consFrame c.channel f) &&
    !(q.lanes.toList.any fun a => a.replay.any fun f => consFrame c.channel f) && decide (tblGet 0 q.lastTx c.channel.toNat ≤ q.back1)

/-- SIGNAL(1) to the DONE chamber, with the step tag of the consignment. -/
def State.consSignal (s : State) (x : PortN) (c : Consign) : State :=
  s.emit { s.enginePacket x c.step 7 0 with
    dkind := if addrLt c.doneCh = 127 then 2 else 0, dest := if addrLt c.doneCh = 127 then 1 else BitVec.ofNat 8 (addrLt c.doneCh)
    arg := 1, addr := c.doneCh }

/-- An expansion's entry has completed: entries chained behind it alone fire, and the last one signals DONE (10.7). -/
def State.chainOn (s : State) (x : PortN) (c : Consign) : State :=
  if c.id = 0 then s
  else
    let left (o : Consign) : Consign :=
      if o.valid && o.step == c.step && o.after.contains c.id then { o with after := o.after.filter fun n => n != c.id } else o
    let hit : List (PortN × Fin 256) := (List.finRange 18).flatMap fun y =>
      ((List.finRange 256).filter fun e =>
        let o := (s.port y).cons[e]
        o.valid && o.step == c.step && o.after == [c.id]).map fun e => (y, e)
    let s1 := { s with ports := s.ports.map fun q => { q with cons := q.cons.map left } }
    let s2 := hit.foldl (fun (s : State) h => (s.modCons h.1 h.2 fun o => { o with after := [0] }).fire h.1 h.2) s1
    let now_ := match s2.stepNum c.step with
      | some r => r.colls.any fun k => k.1 == c.coll && k.2.1 == 1
      | none => false
    let s3 := s2.modStep c.step fun r => { r with colls := r.colls.map fun k => if k.1 = c.coll then (k.1, k.2.1 - 1, k.2.2) else k }
    if now_ then
      match (s2.stepNum c.step).bind fun r => r.colls.find? fun k => k.1 == c.coll with
      | some k => s3.consSignal x { c with doneCh := k.2.2 }
      | none => s3
    else s3

/-- The first status of Table 10.7 that applies is written and DONE is signalled, except where the own step is aborted; a pair that has met
learns of any status other than DONE. -/
def State.consComplete (s : State) (x : PortN) (e : Fin 256) : State :=
  let q := s.port x
  let c := q.cons[e]
  match (if c.ended.isSome then c.ended else if s.sendDone x e then some (7, .done) else none) with
  | none => s
  | some (row, st) =>
    if !c.busy then s
    else
      let s1 := s.modCons x e fun c => { c with busy := false, ended := none, status := BitVec.ofNat 8 (statusCode st) }
      let s2 := if row = 0 then s1 else if c.coll = 0 then s1.consSignal x c else s1.chainOn x c
      if st ≠ .done && c.met && row != 6 && q.state == .up then s2.modPort x fun q => q.queue (cancelFrame c.channel st) else s2
def execConsignmentComplete (x : PortN) (e : Fin 256) (t : Nat) (s : State) : Out := .next ((s.at_ t).consComplete x e)

/-! ### Peer reads (10.6.3) -/

/-- A peer read is served, or refused (R289). -/
def execAxlFetch (x : PortN) (addr : BitVec 64) (len : BitVec 32) (ch : BitVec 8) (s : State) : Out := .next (
  let q := s.port x
  let refuse (st : Status) : State := s.modPort x fun q => q.queue (cancelFrame ch st)
  if !q.talks then s
  else if q.state ≠ .up then refuse .partnerLost
  else if !q.peerRead || q.quar then refuse .noRights
  else if s.addrBad addr || addrClass addr != 1 then refuse .illegalDescriptor
  else (s.modPort x fun q => { q with fetches := q.fetches ++ [(ch, addr, len.toNat, 0)] }).pump x)

/-- Ports whose transfers waited on a page go on (R491). -/
def State.pumpAll (s : State) : State := (List.finRange 18).foldl (fun s x => s.pumpIdle x) s

/-- An access of an entry or of a peer's read has all its answers. -/
def State.portWork (s : State) (e : Errand) : State :=
  match e.work with
  | .fill x k off n =>
    let c := (s.port x).cons[k]
    if e.worst ≠ .done then s.consStop x k 5 e.worst
    else (s.modPort x fun q => q.queue (mkFrame 1 0 c.channel 0 (BitVec.ofNat 32 (off / 224)) (e.bytes (c.loc + BitVec.ofNat 64 off) n))).pumpIdle x
  | .fetch x ch a off n =>
    if e.worst ≠ .done then
      (({ s with errands := s.errands.filter fun r => match r.work with | .fetch y c _ _ _ => !(y == x && c == ch) | _ => true }).modPort x
        fun q => { q with fetches := q.fetches.filter fun f => f.1 != ch }.queue (cancelFrame ch e.worst)).pumpIdle x
    else (s.modPort x fun q => q.queue (mkFrame 2 0 ch 0 (BitVec.ofNat 32 (off / 224)) (e.bytes a n))).pumpIdle x
  | .addend x k off bs =>
    let c := (s.port x).cons[k]
    if e.worst ≠ .done then (s.consStop x k 5 e.worst).pumpIdle x
    else match s.store x k off (combine c.op bs (e.bytes (c.addend + BitVec.ofNat 64 off) bs.length)) with
      | .under s1 => s1
      | .held => s.modPort x fun q => { q with inbox := q.inbox.map fun i => if i.entry = some k then { i with entry := none } else i }
      | .failed st => (s.consStop x k 5 st).pumpIdle x
  | .mend x k off bs =>
    let c := (s.port x).cons[k]
    if e.worst ≠ .done then (s.consStop x k 5 e.worst).pumpIdle x
    else match s.begin x (.store x k off bs.length) (s.writePlan x c off bs fun o => e.piece o) with
      | .under s1 => s1
      | .held => s.modPort x fun q => { q with inbox := q.inbox.map fun i => if i.entry = some k then { i with entry := none } else i }
      | .failed st => (s.consStop x k 5 st).pumpIdle x
  | .store x k _ n =>
    let s1 := s.modPort x fun q => { q with inbox := q.inbox.map fun i => if i.entry = some k then { i with done := true } else i }
    if e.worst ≠ .done then (s1.consStop x k 5 e.worst).pumpAll
    else
      let s2 := s1.modCons x k fun c => { c with moved := c.moved + n }
      (if (s2.port x).cons[k].length.toNat ≤ (s2.port x).cons[k].moved then s2.consStop x k 7 .done else s2).pumpAll
  | _ => s

end Sys2Proof.Machine
end

