-- ==== Sys2Proof/Machine/Kcl.lean ====
section
/-! DEFINITION. The companion link (chapter 11): coherence messages, the directory, rings, port states and loop-backs. What the
panel sends to the companion is appended to intake.out. -/

namespace Sys2Proof.Machine

open Sys2Proof

def State.modIntake (s : State) (f : Intake → Intake) : State := { s with intake := f s.intake }
def State.kport (s : State) (k : KPort) : KclPort := s.kports[k]
def State.modKport (s : State) (k : KPort) (f : KclPort → KclPort) : State := { s with kports := vmod s.kports k f }
def State.tell (s : State) (o : KclOut) : State := s.modIntake fun i => { i with out := i.out ++ [o] }

/-! ### Accesses of the companion (R310, R311) -/

def lineBytes (d : BitVec 512) : List Byte := natBytes d.toNat 64
def lineBits (bs : List Byte) : BitVec 512 := BitVec.ofNat 512 (bytesNat bs)
def State.answerLine (s : State) (k : KPort) (addr : BitVec 41) (st : Status) (bs : List Byte) : State :=
  if st = .done then s.tell (.data k (addr.zeroExtend 64) (lineBits bs)) else s.tell (.ack k st)
/-- The request waits until the page's entry is rewritten or a snoop is answered (R311, R491). Beyond the rules' words: log entry 78 (DEDUCED). -/
def State.queueWaiter (s : State) (w : Waiter) : State :=
  s.modChart fun c => if c.waiters.contains w then c else { c with waiters := c.waiters ++ [w] }
def State.unqueue (s : State) (w : Waiter) : State := s.modChart fun c => { c with waiters := c.waiters.filter fun x => x != w }

/-- K0 sends the requests of one access into the mesh (R16, R246). -/
def k0Packet : Packet := { Packet.blank 0 (.canal 3) 9 with skind := 2, src := 3 }
/-- Begin a companion's access, or let it wait; a request that no line can be asked for is answered at once. -/
def State.companionAsk (s : State) (k : KPort) (w : Waiter) (a : Nat) (data : Option (List Byte)) : State :=
  match s.linePlan k0Packet a [(0, data)] with
  | .waits => s.queueWaiter w
  | .ends st => (s.unqueue w).tell (.ack k st)
  | .go qs => (s.unqueue w).errandStart none (.kcl w) qs

/-- Lines on their way to the companion, which the directory will hold. -/
def State.granting (s : State) : Nat :=
  (s.errands.filter fun e => match e.work with | .kcl (.rdShared _ _ _) => true | _ => false).length
/-- Carry out a companion's access, or let it wait. Beyond the rules' words: log entry 78 (DEDUCED). -/
def State.companion (s : State) (w : Waiter) : State :=
  match w with
  | .rdNc k addr => s.companionAsk k w (addr.toNat / 64 * 64) none
  | .wrNc k addr data => s.companionAsk k w (addr.toNat / 64 * 64) (some (lineBytes data))
  | .rdShared k addr _ =>
    let a := addr.toNat / 64 * 64
    if s.intake.cwin.toList.any fun c => c.pend.isSome && c.has (a / 65536) then s.queueWaiter w
    else if !s.inCwin (a / 65536) then (s.unqueue w).tell (.ack k .noRights)
    else if (s.held a).isNone && decide (s.intake.dir.length + s.granting ≥ 1048576) then
      match s.translate a, s.intake.dir with
      | .at_ _ _ _, e :: _ => (s.snoop (e.1.toNat * 64)).queueWaiter w
      | _, _ => s.companionAsk k w a none
    else s.companionAsk k w a none

/-- A window as its register holds it. -/
def cwinOf (v : Word) : Cwin := { basePage := v.extractLsb' 0 25, pages := v.extractLsb' 25 25, en := bit v 50, pend := none }
/-- Written windows take effect once no line of the old window is held. Beyond the rules' words: log entry 42 (DEDUCED). -/
def State.settleCwin (s : State) : State :=
  let take (w : Cwin) : Cwin :=
    match w.pend with
    | some v => if s.intake.dir.any fun e => w.has (e.1.toNat / 1024) then w else cwinOf v
    | none => w
  s.modIntake fun i => { i with cwin := i.cwin.map take }
/-- Every waiting access is tried again. Beyond the rules' words: log entry 78 (DEDUCED). -/
def State.wake (s : State) : State := ((s.settleCwin.chart.waiters).foldl State.companion s.settleCwin).pumpAll

/-- The port carries coherent traffic; with the PCIe host as runtime it is refused (R328). -/
def State.kclServe (s : State) (k : KPort) (t : Nat) (f : State → State) : State :=
  let s0 := s.at_ t
  if (s0.kport k).state ≠ 3 then s0
  else if s0.intake.pcieRuntime then s0.tell (.ack k .noRights)
  else f s0

def execRdShared (k : KPort) (addr : BitVec 41) (t : Nat) (s : State) : Out :=
  .next (s.kclServe k t fun s => s.companion (.rdShared k addr false))
def execRdOwn (k : KPort) (addr : BitVec 41) (t : Nat) (s : State) : Out :=
  .next (s.kclServe k t fun s => s.companion (.rdShared k addr true))
def execRdNc (k : KPort) (addr : BitVec 41) (t : Nat) (s : State) : Out :=
  .next (s.kclServe k t fun s => s.companion (.rdNc k addr))
def execWrNc (k : KPort) (addr : BitVec 41) (data : BitVec 512) (t : Nat) (s : State) : Out :=
  .next (s.kclServe k t fun s => s.companion (.wrNc k addr data))

/-- Dirty data of a line goes back to the location that the entry still names, MIGRATING or not (R204, R311); k: the port whose WB it is.
None where the data has no location to go to. -/
def State.giveBack (s : State) (k : Option KPort) (addr : BitVec 41) (data : BitVec 512) : Option State :=
  let a := addr.toNat / 64 * 64
  let e := s.entry (a / 65536)
  if !entHere e || s.lkh.pstate == .moored then none
  else
    let m := entStack e
    let x := entFrame e * 65536 + a % 65536
    let d := match s.homeSlice m x with | some q => q | none => rowEnd m
    some (s.errandStart none (.back k addr) [(0, { k0Packet with
      vc := 2, dkind := 1, dest := BitVec.ofNat 8 d.val, addr := put64 m.val 36 5 ||| put64 x 0 36, cls := .c2, write := true
      base := BitVec.ofNat 64 a, length := 64, payload := lineBytes data })])
def State.dropDir (s : State) (a : Nat) : State := s.modIntake fun i => { i with dir := i.dir.filter fun e => e.1 != lineNo a }
def State.dropSnoop (s : State) (a : Nat) : State := s.modIntake fun i => { i with snooping := i.snooping.filter fun e => e.1 != lineNo a }
/-- Data of the line is on its way back. -/
def State.backing_ (s : State) (a : Nat) : Bool :=
  s.errands.any fun e => match e.work with | .back _ b => lineNo b.toNat == lineNo a | _ => false
/-- The companion holds the line no more: whoever waited for it goes on. -/
def State.released (s : State) (a : Nat) : State := (s.dropDir a).wake

/-- A write-back of a line that the companion does not hold exclusively is refused (R310).
Beyond the rules' words: log entry 41 (DEDUCED). -/
def execWb (k : KPort) (addr : BitVec 41) (data : BitVec 512) (t : Nat) (s : State) : Out := .next (s.kclServe k t fun s =>
  if s.lkh.pstate = .moored || s.held addr.toNat != some true then s.tell (.ack k .noRights)
  else match s.giveBack (some k) addr data with
    | some s1 => s1
    | none => (s.tell (.ack k .done)).released addr.toNat)

/-- The companion has given up its copy; dirty data is written before any access that waited (R311). -/
def execSnpRsp (addr : BitVec 41) (data : Option (BitVec 512)) (t : Nat) (s : State) : Out := .next (
  let s0 := s.at_ t
  if s0.intake.snooping.any fun e => e.1 == lineNo addr.toNat then
    let s1 := s0.dropSnoop addr.toNat
    match data.bind fun d => s1.giveBack none addr d with
    | some s2 => s2
    | none => if s1.backing_ addr.toNat then s1 else s1.released addr.toNat
  else s0)

def execSnoopTimeout (addr : BitVec 41) (t : Nat) (s : State) : Out := .next (
  let s0 := s.at_ t
  if s0.intake.snooping.any fun e => e.1 == lineNo addr.toNat && decide (e.2 + s0.intake.snoopUs.toNat * 1000 ≤ s0.now) then
    (((s0.dropSnoop addr.toNat).modIntake fun i => { i with snoopLost := i.snoopLost + 1 }).logErr 0x0A 0 1).released addr.toNat
  else s0)

/-- An access of the companion, or data that it gave back, has been answered (R310, R311). -/
def State.kclWork (s : State) (e : Errand) : State :=
  match e.work with
  | .kcl w =>
    match w with
    | .rdNc k addr => s.answerLine k addr e.worst (e.piece 0)
    | .wrNc k _ _ => s.tell (.ack k e.worst)
    | .rdShared k addr _ => s.answerLine k addr e.worst (e.piece 0)
  | .back k addr =>
    let s1 := s.released addr.toNat
    match k with
    | some k => s1.tell (.ack k e.worst)
    | none => s1
  | _ => s

/-! ### Rings (11.4) -/

def RingReg.at_ (r : RingReg) : Nat := r.base.toNat * 4096
def RingReg.size (r : RingReg) : Nat := 2 ^ r.sizeLog2.toNat

/-- Entries of the manifest ring from index i on: host window offset and length of each manifest. The reserved bits of an entry are not
looked at: what one that is not 0 does is not said (DESIGN CHOICE, log entry 19). -/
def State.ringEntries (s : State) (i : Nat) : Nat → List (BitVec 48 × Nat)
  | 0 => []
  | n + 1 =>
    let a := s.intake.mring.at_ + 128 + 16 * (i % s.intake.mring.size)
    (BitVec.ofNat 48 (memNat s.host a 6), memNat s.host (a + 8) 4 % 2 ^ 21) :: s.ringEntries (i + 1) n
/-- The companion address of line 0 of the manifest ring (R314). -/
def State.ringLine (s : State) : Word := s.intake.hwinBase + BitVec.ofNat 64 s.intake.mring.at_
/-- Read line 0 and take every entry up to the new index, at most SIZE (R316, R317). Beyond the rules' words: log entry 19 (DESIGN CHOICE). -/
def State.ringRead (s : State) : State :=
  let r := s.intake.mring
  if !r.en || (s.hostBad r.at_ (128 + 16 * r.size)).isSome then s
  else
    let new : BitVec 32 := BitVec.ofNat 32 (memNat s.host r.at_ 4)
    let n := min (new - s.intake.mSeen).toNat r.size
    s.modIntake fun i => { i with
      waiting := i.waiting ++ s.ringEntries i.mSeen.toNat n, mSeen := i.mSeen + BitVec.ofNat 32 n
      seenAt := if i.waiting.isEmpty then s.now else i.seenAt
      cache := if i.cache.contains s.ringLine then i.cache else i.cache ++ [s.ringLine] }
/-- R309; line 0 of the manifest ring is read again when its copy is invalidated (R317). -/
def execSnpInv (line : BitVec 64) (s : State) : Out := .next (
  let same (l : Word) : Bool := l >>> 6 == line >>> 6
  let s1 := (s.modIntake fun i => { i with cache := i.cache.filter fun l => !same l }).tell (.snpRsp line)
  if s.intake.cache.contains s.ringLine && same s.ringLine && !s.intake.pcieRuntime then s1.ringRead else s1)

/-- Line 1 of the manifest ring shows how far the panel has come, as soon as the host window can be reached. -/
def State.ringLine1 (s : State) : State :=
  if !s.intake.mring.en || (s.hostBad s.intake.mring.at_ 128).isSome then s
  else s.hostWrite (s.intake.mring.at_ + 64) (natBytes s.intake.mTaken.toNat 4)
/-- The first waiting manifest has been decided: line 1 passes it (R318). -/
def State.ringPass (s : State) : State :=
  (s.modIntake fun i => { i with waiting := i.waiting.drop 1, mTaken := i.mTaken + 1, heldSince := none, seenAt := s.now }).ringLine1

/-- Room in the completion ring for n records (Table 11.10, row 4). -/
def State.ringRoomFor (s : State) (n : Nat) : Bool :=
  let r := s.intake.cring
  r.en && (s.hostBad r.at_ (128 + 64 * r.size)).isNone &&
    decide ((s.intake.cProd - BitVec.ofNat 32 (memNat s.host (r.at_ + 64) 4)).toNat + s.intake.kept.length + n ≤ r.size)

/-- Write one record into the completion ring, then line 0 (R319); the PCIe host also gets its interrupt (R328). -/
def State.putRecord (s : State) (c : CompRec) : State :=
  let r := s.intake.cring
  let s1 := s.modIntake fun i => { i with written := i.written ++ [c], cProd := i.cProd + 1 }
  let s2 := if r.en && (s.hostBad r.at_ (128 + 64 * r.size)).isNone then
      (s1.hostWrite (r.at_ + 128 + 64 * (s.intake.cProd.toNat % r.size)) (c.words.toList.flatMap fun w => natBytes w.toNat 8)).hostWrite
        r.at_ (natBytes (s.intake.cProd + 1).toNat 4)
    else s1
  if s.intake.pcieRuntime then s2.tell .msix else s2
/-- A record is written, or kept while no port is UP: up to 256 (R319). -/
def State.record (s : State) (c : CompRec) : State :=
  if s.kclUp || s.intake.pcieRuntime then s.putRecord c
  else s.modIntake fun i => { i with kept := if i.kept.length < 256 then i.kept ++ [c] else i.kept }

/-- The record of a manifest that was refused, or of a LOAD or CHART manifest (Table 11.11). -/
def State.manifestDone (s : State) (seq : BitVec 32) (tAdmit : Nat) (st : Status) (reason addr : Nat) : State :=
  s.record { words := #v[put64 seq.toNat 0 32 ||| put64 (statusCode st) 44 8, put64 reason 16 8 ||| put64 0x7F 24 7, 0,
    BitVec.ofNat 64 addr, BitVec.ofNat 64 tAdmit, BitVec.ofNat 64 s.now, 0, 0] }

/-! ### Port states (R306 to R308) -/

def execKclPortUp (k : KPort) (peerGen : Fin 4) (lanes : Nat) (t : Nat) (s : State) : Out := .next (
  let s0 := s.at_ t
  let q := s0.kport k
  let g := min peerGen.val q.genMax.toNat
  if !q.en || q.state = 0 || q.state = 3 || q.state = 4 || g = 0 || lanes < 4 || s0.power.lost.contains .kcl then s0
  else
    let s1 := s0.modKport k fun q => { q with state := 3, gen := BitVec.ofNat 2 g, lanes := BitVec.ofNat 5 (min lanes 16) }
    let s2 := s1.intake.kept.foldl (fun s c => s.putRecord c) (s1.modIntake fun i => { i with kept := [] })
    if s2.intake.pcieRuntime then s2 else s2.ringLine1.ringRead)

/-- With no port UP, the intake cache and the directory are dropped; the lines held exclusively may have been dirty (R313). -/
def State.intakeDrop (s : State) : State :=
  if s.kclUp then s
  else
    let n := (s.intake.dir.filter fun e => e.2).length
    ((s.modIntake fun i => { i with cache := [], dir := [], snooping := [] }).logErr 0x0A (statusCode .partnerLost) n).wake

/-- The port leaves UP; requests that came over it and are not answered go with it. Beyond the rules' words: log entry 41 (DEDUCED). -/
def State.kclLeave (s : State) (k : KPort) (st : BitVec 3) : State :=
  let mine : Waiter → Bool
    | .rdNc j _ => j == k
    | .wrNc j _ _ => j == k
    | .rdShared j _ _ => j == k
  let keep (e : Errand) : Bool := match e.work with | .kcl w => !mine w | _ => true
  if (s.kport k).state = 3 then
    (({ s with errands := s.errands.filter keep }.modKport k fun q => { q with state := st, gen := 0, lanes := 0, downCount := q.downCount + 1 }).modChart
      fun c => { c with waiters := c.waiters.filter fun w => !mine w }).intakeDrop
  else s.modKport k fun q => { q with state := st, gen := 0, lanes := 0 }

def execKclLoss (k : KPort) (lanes : Nat) (t : Nat) (s : State) : Out := .next (
  let s0 := s.at_ t
  if (s0.kport k).state ≠ 3 then s0
  else if lanes < 4 then (s0.kclLeave k 1).modKport k fun q => { q with los := true }
  else s0.modKport k fun q => { q with lanes := BitVec.ofNat 5 (min lanes q.lanes.toNat) })

/-- R307: only while no admitted step and no migration uses the port. -/
def State.kclLoop (s : State) (k : KPort) (v : BitVec 3) (consent : Bool) : State :=
  let q := s.kport k
  if v.toNat > 4 then s
  else if v = 0 then
    (if q.state = 4 then s.kclLeave k 1 else s).modKport k fun q => { q with loop_ := 0 }
  else if !s.intake.steps.isEmpty || s.chart.run.isSome || !q.en then s
  else if v.toNat ≥ 3 && !consent then s.modKport k fun q => { q with loop_ := 0, loopRefused := true }
  else
    let s1 := (s.kclLeave k 4).modKport k fun q => { q with loop_ := v }
    { s1 with lkh := { s1.lkh with refBroken := true } }
def execKclLoopWrite (k : KPort) (v : BitVec 3) (consent : Bool) (s : State) : Out := .next (s.kclLoop k v consent)

/-- The bit errors that a port in loop-back has counted in the pattern since the last microsecond: free (R307, log entry 41). -/
def State.patternErrors (s : State) (k : KPort) : State :=
  s.freeWord.2.modKport k fun q => { q with pattern := BitVec.ofNat 16 (min 65535 (q.pattern.toNat + s.freeWord.1.toNat % 65536)) }
/-- The panel's TIME message on each UP port (11.3.2); a port in loop-back carries the pattern instead (R307). -/
def execKclTimeSend (t : Nat) (s : State) : Out := .next (
  let s0 := s.at_ t
  (List.finRange 2).foldl (fun s k =>
    if (s.kport k).state = 3 then s.tell (.time k s.now) else if (s.kport k).state = 4 then s.patternErrors k else s) s0)

end Sys2Proof.Machine
end

