-- ==== Sys2Proof/Machine/Chart.lean ====
section
/-! DEFINITION. Chart entry updates (R204), access counts (R203) and the migration engine (R206, R207, R491, R492, R494); the
field defect record (R405, R406). -/

namespace Sys2Proof.Machine

open Sys2Proof

/-! ### The field defect record (15.2.3) -/

/-- Words 0 to 2 of a field defect record entry (Table 15.5). -/
def FdrEnt.words (e : FdrEnt) : List Nat :=
  [e.unit.toNat + e.cause.toNat * 2 ^ 40 + e.state.toNat * 2 ^ 48 + e.voters.toNat * 2 ^ 52, e.time, e.logIdx]

/-- An entry in the words of Table 15.5, its CRC with them. -/
def FdrEnt.entry (e : FdrEnt) : Vector Word 4 :=
  let w (n : Nat) : Word := BitVec.ofNat 64 (e.words.getD n 0)
  #v[w 0, w 1, w 2, (crc32 (e.words.flatMap fun w => natBytes w 8)).zeroExtend 64]
/-- What the words of an entry say. -/
def fdrOf (w : Vector Word 4) : FdrEnt :=
  { unit := w[0].extractLsb' 0 40, cause := w[0].extractLsb' 40 8, state := w[0].extractLsb' 48 4, voters := w[0].extractLsb' 52 3, time := w[1].toNat
    logIdx := w[2].toNat }
/-- The CRC of an entry holds. -/
def fdrSound (w : Vector Word 4) : Bool := w[3] == (crc32 ((w.toList.take 3).flatMap fun x => natBytes x.toNat 8)).zeroExtend 64
/-- Entry n by majority of the three copies, and whether no two of them agree: then the first copy whose CRC holds tells the unit. -/
def fdrVote (m : Vector (Tbl (Vector Word 4)) 3) (n : Nat) : Option FdrEnt × Bool :=
  let zero : Vector Word 4 := Vector.replicate 4 0
  let v (k : Fin 3) : Vector Word 4 := tblGet zero (m[k]) n
  let say (w : Vector Word 4) : Option FdrEnt := if w == zero then none else some (fdrOf w)
  if v 0 == v 1 || v 0 == v 2 then (say (v 0), false) else if v 1 == v 2 then (say (v 1), false)
  else (((List.finRange 3).find? fun k => v k != zero && fdrSound (v k)).map fun k => fdrOf (v k), true)
/-- Entries in use. -/
def Lkh.fdrUsed (k : Lkh) : Nat := k.fdrCopies.toList.foldl (fun m t => t.foldl (fun m e => max m (e.1 + 1)) m) k.fdr.length
/-- R405: the record is read at stage 0x03; a disagreement is recorded with its entry number. -/
def State.fdrRead (s : State) : State :=
  let l := (List.range s.lkh.fdrUsed).map fun i => (i, fdrVote s.lkh.fdrCopies i)
  let s1 : State := { s with lkh := { s.lkh with fdr := l.filterMap fun x => x.2.1 } }
  (l.filter fun x => x.2.2).foldl (fun (s : State) x => s.logRec 0x23 .firmware [match x.2.1 with | some e => e.unit.toNat | none => 0, 16, x.1]) s1
/-- Whether a lock-house has supply to write its MRAM. -/
def State.housePowered (s : State) (h : House) : Bool := !s.power.lost.contains (match h with | 0 => .lhN | 1 => .lhC | 2 => .lhS)

/-- Enter a defect: the record entry, in the copies of the lock-houses that have supply, and its Logbook entry; a full record takes no more
(R406). Beyond the rules' words: log entry 61 (DEDUCED). -/
def State.fdrAdd (s : State) (unit : BitVec 40) (cause : BitVec 8) (st : BitVec 4) (voters : BitVec 3) : State :=
  let e : FdrEnt := { unit := unit, cause := cause, state := st, voters := voters, time := s.now, logIdx := s.log.nextIdx }
  let s1 := s.logRec 0x22 .firmware e.words
  if s.lkh.fdrUsed < 256 then
    { s1 with lkh := { s1.lkh with
        fdr := s1.lkh.fdr ++ [e]
        fdrCopies := Vector.ofFn fun h : Fin 3 =>
          if s.housePowered h then tblPut (Vector.replicate 4 0) s1.lkh.fdrCopies[h] s.lkh.fdrUsed e.entry else s1.lkh.fdrCopies[h]
        fdrFull := s1.lkh.fdrFull || decide (s.lkh.fdrUsed = 255) } }
  else { s1 with lkh := { s1.lkh with fdrFull := true } }

/-! ### Access counts and chart homes -/

/-- Every chart cache adds its counts into ACCESS (R203). -/
def State.countFlush (s : State) : State :=
  allPos.foldl (fun s p =>
    ((s.ut p).cht.ents.foldl (fun (s : State) e => s.sendCount p e.page.toNat e.count.toNat) s).modCht p
      fun c => { c with ents := c.ents.map fun e => { e with count := 0 } }) s
def execChtCountFlush (s : State) : Out := .next (s.countFlush)

/-- CHT_HOME (Table 7.18). A copy that comes into use holds no valid entry (R444); a copy left keeps nothing.
Beyond the rules' words: log entry 34 (DESIGN CHOICE). -/
def State.chartHome (s : State) (v : BitVec 64) : State := s.modChart fun c =>
  let w := bit v 16
  let e := bit v 17
  let wh : BitVec 5 := v.extractLsb' 0 5
  let eh : BitVec 5 := v.extractLsb' 8 5
  { c with
    wHome := wh, eHome := eh, wValid := w, eValid := e
    west := if w then (if c.wValid then c.west else if c.eValid && e then c.east else []) else []
    east := if e then (if c.eValid then c.east else if c.wValid && w then c.west else []) else [] }
def execChtHomeWrite (v : BitVec 64) (s : State) : Out := .next (s.chartHome v)

/-! ### Entry updates (R204) -/

/-- The tiles whose chart caches acknowledge: every working under-tile. -/
def State.chartTiles (s : State) : List Pos := allPos.filter fun p => !(s.ut p).flags.fencedUt && !(s.ut p).flags.lost

/-- Steps 1 and 2: MIGRATING is set in the copies, and the invalidation goes out. -/
def State.startUpd (s : State) (page : BitVec 25) (old new : Word) (manifest : Bool) : State :=
  (s.putEntry page.toNat (setMig old true)).modChart fun c => { c with
    upd := some { page := page, new := new, old := old, second := false, manifest := manifest, waiting := s.chartTiles } }

/-- An entry change may begin: none is under way. -/
def Chart.free (c : Chart) : Bool := c.upd.isNone && c.run.isNone

def execChartEntryUpdate (page : BitVec 25) (new : BitVec 64) (s : State) : Out := .next (
  let e := setMig new false
  if !s.chart.free || s.entryBad e || !s.chart.inUse then s
  else s.startUpd page (s.entry page.toNat) e false)

/-- The running entry of a CHART manifest has ended: the next one is due, or the manifest is complete (R494).
Beyond the rules' words: log entry 36 (DEDUCED). -/
def State.chartEntryDone (s : State) (st : Status) (page : BitVec 25) : State :=
  match s.intake.chartRuns with
  | [] => s
  | r :: rest =>
    if st = .done && r.next + 1 < r.man.chart.length then
      s.modIntake fun i => { i with chartRuns := { r with next := r.next + 1, busy := false } :: rest }
    else
      (s.modIntake fun i => { i with chartRuns := rest }).manifestDone r.man.seq r.tAdmit st 0 (if st = .done then 0 else page.toNat * 65536)

/-- A retirement has ended (R196): the step replays, or ends with MEMORY_UNCORRECTABLE. -/
def State.retired (s : State) (page : BitVec 25) (old : Word) (st : Status) : State :=
  let mine (r : StepRec) : Bool := match r.retiring with | some a => a.toNat / 65536 == page.toNat | none => false
  let s1 := if st = .done then
      s.tellRepair (.frame (entStack old) (BitVec.ofNat 20 (entFrame old))) else s.logErr (unitId 8 ((entStack old).val + 32 * entFrame old)) (statusCode st) 1
  let upd (r : StepRec) : StepRec :=
    if !mine r then r
    else if st = .done then { r with retiring := none }
    else
      let a : Word := match r.retiring with | some a => a.zeroExtend 64 | none => r.addr
      { r with retiring := none, ending := some .memoryUncorrectable, addr := a }
  s1.modIntake fun i => { i with steps := i.steps.map upd }

/-- The second invalidation is acknowledged by all: the change is complete. -/
def State.updDone (s : State) (u : ChartUpd) : State :=
  let s1 := s.modChart fun c => { c with upd := none, run := c.run.map fun r => if r.result.isNone then { r with result := some .done } else r }
  if u.manifest then s1.chartEntryDone .done u.page else s1

/-- A tile drops the page and acknowledges; its streams enter the page again. Beyond the rules' words: log entry 33 (DEDUCED). -/
def execChartInvalidation (p : Pos) (page : BitVec 25) (s : State) : Out := .next (
  match s.chart.upd with
  | none => s
  | some u =>
    if u.page ≠ page || !u.waiting.contains p then s
    else
      let w := u.waiting.filter fun q => q != p
      let s1 := ((s.chartDrop p page).modMov p fun m => { m with
        streams := m.streams.map fun st => match st.page with
          | some e => if e.1 = page then { st with page := none } else st
          | none => st }).modChart fun c => { c with upd := some { u with waiting := w } }
      if w.isEmpty && u.second then s1.updDone u else s1)

/-- An engine has a line request to the page under way. -/
def Packet.engineAt (q : Packet) (page : Nat) : Bool :=
  (match q.tag with | .errand _ _ => q.type == 9 || q.type == 0xA | _ => false) && decide (q.base.toNat / 65536 = page)
/-- A stream engine, or another engine, still has a request to the page outstanding (step 3). -/
def State.pageBusy (s : State) (page : Nat) : Bool :=
  (allPos.any fun p => (s.core p).mov.streams.any fun st => st.outst.any fun e => st.pageAt e.1 == page) || s.net.any fun q => q.engineAt page
/-- Lines of the page that the companion holds (R312). -/
def State.pageHeld (s : State) (page : Nat) : List (BitVec 35) := (s.intake.dir.filter fun e => e.1.toNat / 1024 == page).map fun e => e.1

/-- Step 5: the new entry is written, West copy first, and the second invalidation goes out; whoever waited goes on. -/
def State.rewriteEntry (s : State) (u : ChartUpd) (e : Word) : State :=
  ((s.putEntry u.page.toNat e).modChart fun c => { c with upd := some { u with second := true, waiting := s.chartTiles } }).wake

/-- The engine restores the previous entry, and streams that wait on the page end with PAGE_NOT_PRESENT (R207).
Beyond the rules' words: log entry 35 (DEDUCED). -/
def State.migFailed (s : State) (u : ChartUpd) (st : Status) : State :=
  let s1 := s.modChart fun c => { c with run := c.run.map fun r => { r with result := some st } }
  let waits (x : Stream) : Bool := x.waitMig && x.pageAt x.req == u.page.toNat
  let stop (s : State) (p : Pos) : State :=
    match (s.core p).mov.streams.find? waits with
    | none => s
    | some x => (s.modMov p fun m => { m with streams := m.streams.map fun x => if waits x then x.stopAt x.req .pageNotPresent else x }).modCht p
        fun c => { c with faultAddr := BitVec.ofNat 41 (x.modelAt x.req), faultValid := true }
  (allPos.foldl stop s1).rewriteEntry u (setMig u.old false)

/-- Lines that the migration engine moves at a time (DESIGN CHOICE, log entry 35). -/
def migGroup : Nat := 16
/-- The next lines of the page that migrates are read from its frame, or written into it, by K0 in class C2 (step 4).
Beyond the rules' words: log entry 35 (DESIGN CHOICE). -/
def State.migMove (s : State) (u : ChartUpd) (r : MigRun) : State :=
  match s.hostBad (r.host * 65536) 65536 with
  | some st => s.migFailed u st
  | none =>
    let out := r.req.kind == .out
    let e := if out then r.old else r.new
    let m := entStack e
    s.errandStart none .migrate ((List.range' r.moved migGroup).map fun i =>
      let x := entFrame e * 65536 + 64 * i
      let d := match s.homeSlice m x with | some q => q | none => rowEnd m
      (64 * i, { k0Packet with
        vc := 2, dkind := 1, dest := BitVec.ofNat 8 d.val, addr := put64 m.val 36 5 ||| put64 x 0 36, cls := .c2, write := !out
        base := BitVec.ofNat 64 (u.page.toNat * 65536 + 64 * i), length := if out then 0 else 64
        payload := if out then [] else s.hostRead (r.host * 65536 + 64 * i) 64 }))
/-- A group of lines has been moved: the next one follows, or the entry is rewritten. Beyond the rules' words: log entry 35 (DEDUCED). -/
def State.migWork (s : State) (e : Errand) : State :=
  match s.chart.upd, s.chart.run with
  | some u, some r =>
    if e.worst ≠ .done then s.migFailed u e.worst
    else match s.hostBad (r.host * 65536) 65536 with
      | some st => s.migFailed u st
      | none =>
        let s1 := if r.req.kind == .out then e.got.foldl (fun (s : State) g => s.hostWrite (r.host * 65536 + g.1) g.2) s else s
        let n := r.moved + migGroup
        let s2 := s1.modChart fun c => { c with run := some { r with moved := n } }
        if n < 1024 then s2.migMove u { r with moved := n } else s2.rewriteEntry u u.new
  | _, _ => s

def execChartUpdateDrained (page : BitVec 25) (s : State) : Out := .next (
  match s.chart.upd with
  | none => s
  | some u =>
    if u.page ≠ page || u.second || !u.waiting.isEmpty || s.pageBusy page.toNat then s
    else
      let held := s.pageHeld page.toNat
      if !held.isEmpty then held.foldl (fun s l => s.snoop (l.toNat * 64)) s
      else match s.chart.run with
        | none => s.rewriteEntry u u.new
        | some r => s.migMove u r)

/-! ### The migration engine -/

/-- Requests of the runtime and of firmware that found the queue full take places in order of arrival (R206). -/
def execMigrationQueueAdmit (s : State) : Out := .next (
  match s.chart.waiting with
  | [] => s
  | r :: rest => if s.chart.queue.length < 256 then s.modChart fun c => { c with queue := c.queue ++ [r], waiting := rest } else s)

/-- Post a request of the runtime or of firmware. -/
def State.postMig (s : State) (r : MigReq) : State := s.modChart fun c =>
  if c.queue.length < 256 && c.waiting.isEmpty then { c with queue := c.queue ++ [r] } else { c with waiting := c.waiting ++ [r] }

/-- What a migration begins with: nothing to move and its status, or the new entry and the host page. -/
inductive MigPlan where
  | ends (st : Status)
  | moves (s : State) (new : Word) (host : Nat)

def State.migPlan (s : State) (r : MigReq) (e : Word) : MigPlan :=
  let intoFrame (host : Nat) : MigPlan :=
    match s.hostBad (host * 65536) 65536 with
    | some st => .ends st
    | none => match s.freeFrame with
      | none => .ends .refusedCapacity
      | some f =>
        let new := entAt e false (frameLoc f.1 f.2)
        let s1 := s.takeFrame
        if s.entryBad new then .ends .illegalDescriptor else .moves s1 new host
  if s.lkh.pstate = .moored then .ends .refusedCapacity
  else match r.kind with
  | .retire =>
    match s.backing r.page.toNat with
    | some h => intoFrame h
    | none => .ends .illegalDescriptor
  | .out =>
    if !entValid e then .ends .pageNotPresent
    else if entHost e then .ends .done
    else match s.backing r.page.toNat with
      | none => .ends .illegalDescriptor
      | some h => match s.hostBad (h * 65536) 65536 with
        | some st => .ends st
        | none => .moves s (entAt e true h) h
  | _ =>
    if !entValid e then .ends .pageNotPresent
    else if !entHost e then .ends .done
    else intoFrame (entHostPage e)

def execMigrationStart (t : Nat) (s : State) : Out := .next (
  let s0 := s.at_ t
  match s0.chart.queue with
  | [] => s0
  | r :: rest =>
    if !s0.chart.free then s0
    else
      let e := s0.entry r.page.toNat
      let s1 := s0.modChart fun c => { c with queue := rest }
      match s1.migPlan r e with
      | .ends st => s1.modChart fun c => { c with run := some { req := r, old := e, new := e, host := 0, result := some st } }
      | .moves s2 new host =>
        (s2.modChart fun c => { c with run := some { req := r, old := e, new := new, host := host, result := none } }).startUpd r.page e new false)

/-- The migration reports its status to whoever asked (R196, R207, R494). -/
def execMigrationComplete (t : Nat) (s : State) : Out := .next (
  let s0 := s.at_ t
  match s0.chart.run with
  | none => s0
  | some r => match r.result with
    | none => s0
    | some st =>
      if s0.chart.upd.isSome then s0
      else
        let s1 := s0.modChart fun c => { c with run := none }
        match r.req.kind with
        | .demand => s1
        | .retire => s1.retired r.req.page r.old st
        | _ => s1.chartEntryDone st r.req.page)

end Sys2Proof.Machine
end

