-- ==== Sys2Proof/Machine/Collect.lean ====
section
/-! DEFINITION. Collectives and low-rank schedules (10.7, 10.8) expanded into consignment entries. The spec fixes the order of
every reduction (R300) and the phases of Table 10.9; how firmware numbers entries, channels and partial results is a DESIGN
CHOICE (log entry 18). -/

namespace Sys2Proof.Machine

open Sys2Proof

/-- The shape a collective is expanded with: operation, ranks, stripes, pieces per stripe, and the two ports of each stripe. -/
structure Ring where
  op : BitVec 2
  n : Nat
  r : Nat
  stripes : Nat
  chunks : Nat
  outs : List PortN
  ins : List PortN
  deriving DecidableEq, Repr

/-- One transfer of an expansion before it is numbered: port, direction, bytes, and what fires it. -/
structure Xfer where
  port : PortN
  send : Bool
  loc : Word
  addend : Option Word
  len : Nat
  trigger : Option (BitVec 13)
  id : Nat
  after : List Nat
  coll : Nat
  deriving DecidableEq, Repr

/-- The ports of the stripes: stripe s in bits [5s+4:5s]. -/
def stripePorts (w : Word) (stripes : Nat) : Option (List PortN) :=
  if (List.range stripes).all fun i => decide (fld w (5 * i) 5 < 18) then
    some ((List.range stripes).map fun i => Fin.ofNat 18 (fld w (5 * i) 5))
  else none

/-- Boundary i of k parts of a length, at a multiple of 4 bytes. Beyond the rules' words: log entry 18 (DESIGN CHOICE). -/
def cut (len k i : Nat) : Nat := if i ≥ k then len else i * len / k / 4 * 4

/-- One step of one stripe and piece: send a range of one buffer, receive a range into another, combined with an addend. -/
structure Hop where
  send : Option (Word × Nat)                    -- source and bytes
  recv : Option (Word × Option Word × Nat)      -- destination, addend, bytes
  chained : Bool                                -- the send waits for the receive of the hop before it
  deriving DecidableEq, Repr

def off (a : Word) (n : Nat) : Word := a + BitVec.ofNat 64 n

/-- The hops of one collective at rank r for one stripe and piece; sub gives the bytes lo, len of ring chunk c of it. -/
def hopsOf (kind : Nat) (g : Ring) (root : Nat) (src res : Word) (sub : Nat → Nat × Nat) (whole : Nat × Nat) : List Hop :=
  let n := g.n
  let md (a : Nat) : Nat := a % n
  let scatter : List Hop := (List.range' 1 (n - 1)).map fun k =>
    let c := md (g.r + n - k % n)
    let d := md (g.r + 2 * n - k - 1)
    { send := some (off (if k = 1 then src else res) (sub c).1, (sub c).2)
      recv := some (off res (sub d).1, some (off src (sub d).1), (sub d).2), chained := decide (k ≠ 1) }
  let gather (own : Word) (first : Bool) : List Hop := (List.range' 1 (n - 1)).map fun k =>
    let c := md (g.r + n + 1 - k)
    let d := md (g.r + n - k)
    { send := some (off (if k = 1 then own else res) (sub c).1, (sub c).2)
      recv := some (off res (sub d).1, none, (sub d).2), chained := first || decide (k ≠ 1) }
  let dist := md (g.r + n - root)        -- hops behind ROOT
  if kind = 0 then scatter
  else if kind = 1 then gather src false
  else if kind = 2 then scatter ++ gather res true
  else if kind = 3 then
    -- chunk c = ROOT: rank ROOT + 1 sends first, ROOT receives last
    let w := whole
    let rx : Hop := { send := none, recv := some (off res w.1, some (off src w.1), w.2), chained := false }
    if dist = 1 then [{ send := some (off src w.1, w.2), recv := none, chained := false }]
    else if dist = 0 then [rx]
    else [rx, { send := some (off res w.1, w.2), recv := none, chained := true }]
  else
    let w := whole
    let tx (a : Word) (c : Bool) : Hop := { send := some (off a w.1, w.2), recv := none, chained := c }
    let rx : Hop := { send := none, recv := some (off res w.1, none, w.2), chained := false }
    if dist = 0 then [tx src false] else if dist = n - 1 then [rx] else [rx, tx res true]

/-- Number the transfers of a run of hops: each hop uses two numbers, its receive the odd one.
Beyond the rules' words: log entry 18 (DESIGN CHOICE). -/
def numberHops (o i : PortN) (trig : Option (BitVec 13)) (start : List Nat) (coll id : Nat) : Option Nat → List Hop → List Xfer
  | _, [] => []
  | prev, h :: r =>
    let s : List Xfer := match h.send with
      | some (a, n) =>
        let w := if h.chained then (match prev with | some p => [p] | none => start) else start
        [{ port := o, send := true, loc := a, addend := none, len := n, trigger := if w.isEmpty then trig else none
           id := id, after := w, coll := coll }]
      | none => []
    let v : List Xfer := match h.recv with
      | some (a, b, n) =>
        [{ port := i, send := false, loc := a, addend := b, len := n, trigger := if start.isEmpty then trig else none
           id := id + 1, after := start, coll := coll }]
      | none => []
    s ++ v ++ numberHops o i trig start coll (id + 2) (if h.recv.isSome then some (id + 1) else prev) r

/-- Expand one collective: all stripes, all pieces. Beyond the rules' words: log entry 18 (DESIGN CHOICE). -/
def expandRing (kind : Nat) (g : Ring) (root : Nat) (len : Nat) (src res : Word) (trig : BitVec 13) (start : List Nat) (coll id : Nat) : List Xfer :=
  let one (s q : Nat) : List Hop :=
    let lo := cut len g.stripes s
    let sl := cut len g.stripes (s + 1) - lo
    let sub (c : Nat) : Nat × Nat :=
      let a := cut sl g.n c
      let z := cut sl g.n (c + 1) - a
      (lo + a + cut z g.chunks q, cut z g.chunks (q + 1) - cut z g.chunks q)
    hopsOf kind g root src res sub (lo + cut sl g.chunks q, cut sl g.chunks (q + 1) - cut sl g.chunks q)
  ((List.range g.stripes).flatMap fun s => (List.range g.chunks).map fun q => (s, q)).foldl (fun (acc : List Xfer) x =>
    acc ++ numberHops (g.outs.getD x.1 0) (g.ins.getD x.1 0) (some trig) start coll (id + 2 * acc.length) none (one x.1 x.2)) []

/-- Give the transfers entry numbers and channels: the lowest that are free on the port, for a channel in the direction.
Beyond the rules' words: log entry 18 (DESIGN CHOICE). -/
def place (taken : List (PortN × Fin 256 × Consign)) : List Xfer → Nat → Option (List (PortN × Fin 256 × Consign))
  | [], _ => some taken
  | x :: r, combineOp =>
    let idx := (List.finRange 256).find? fun e => !taken.any fun y => y.1 == x.port && y.2.1 == e
    let dir : BitVec 2 := if x.send then 0 else 1
    let ch := (List.range 256).find? fun c => !taken.any fun y => y.1 == x.port && y.2.2.dir == dir && y.2.2.channel.toNat == c
    match idx, ch with
    | some e, some c =>
      place (taken ++ [(x.port, e,
        { valid := true, dir := dir, combine := x.addend.isSome, op := BitVec.ofNat 2 combineOp, channel := BitVec.ofNat 8 c
          trigger := x.trigger.getD 0, loc := x.loc, addend := x.addend.getD 0, length := BitVec.ofNat 32 x.len
          doneCh := 0, id := x.id, after := x.after, coll := x.coll, auto := true })]) r combineOp
    | _, _ => none

def fieldsZero (w : Word) (lo : Nat) : Bool := fld w lo (64 - lo) == 0
/-- An address of class 0x0 or 0x1 that R25 allows. -/
def plainAddr (s : State) (a : Word) : Bool := decide (addrClass a ≤ 1) && !s.addrBad a
def doneAddr (s : State) (a : Word) : Bool := addrClass a == 3 && !s.addrBad a
def trigIn (base count t k : Nat) : Bool := decide (base ≤ t) && decide (t + k ≤ base + count)

/-- The running state of an expansion: entries, collectives, next number of an entry and of a collective. -/
structure Exp where
  cons : List (PortN × Fin 256 × Consign)
  colls : List (Nat × Nat × Word)
  id : Nat
  coll : Nat

/-- Parts into which each pipeline chunk is cut, so that every transfer fits LENGTH. Beyond the rules' words: log entry 18 (DESIGN CHOICE). -/
def partsOf (g : Ring) (len : Nat) : Nat := len / (2 ^ 31 * g.stripes * g.chunks) + 1
/-- Add one collective; what it is chained behind stands in start. -/
def Exp.add (e : Exp) (kind : Nat) (g : Ring) (root len : Nat) (src res : Word) (trig : BitVec 13) (start : List Nat) (done : Word) :
    Option (Exp × List Nat) :=
  let xs := expandRing kind { g with chunks := g.chunks * partsOf g len } root len src res trig start e.coll e.id
  match place e.cons xs g.op.toNat with
  | none => none
  | some cs => some ({ cons := cs, colls := e.colls ++ [(e.coll, xs.length, done)], id := e.id + 2 * xs.length, coll := e.coll + 1 },
      xs.map fun x => x.id)

/-- A COLLECT entry (Table 11.9, R299). Beyond the rules' words: log entry 18 (DESIGN CHOICE). -/
def addCollect (s : State) (base count : Nat) (l : List Word) (e : Exp) : Option Exp :=
  let w := l.getD 0 0
  let kind := fld w 0 3
  let n := fld w 5 5
  let r := fld w 10 4
  let root := fld w 14 4
  let stripes := fld w 18 4
  let chunks := fld w 22 11
  let len := fld (l.getD 1 0) 0 40
  let d := 4 * n * stripes * chunks
  match stripePorts (l.getD 5 0) stripes, stripePorts (l.getD 6 0) stripes with
  | some outs, some ins =>
    if kind > 4 || n < 2 || n > 16 || r ≥ n || root ≥ n || stripes = 0 || stripes > 9 || chunks = 0 || chunks > 1024 || len % d ≠ 0 ||
        !fieldsZero w 46 || !fieldsZero (l.getD 1 0) 40 || !fieldsZero (l.getD 5 0) 45 || !fieldsZero (l.getD 6 0) 45 || l.getD 7 0 ≠ 0 ||
        !plainAddr s (l.getD 2 0) || !plainAddr s (l.getD 3 0) || !doneAddr s (l.getD 4 0) || !trigIn base count (fld w 33 13) 1 then none
    else
      (e.add kind { op := w.extractLsb' 3 2, n := n, r := r, stripes := stripes, chunks := chunks, outs := outs, ins := ins } root len
        (l.getD 2 0) (l.getD 3 0) (w.extractLsb' 33 13) [] (l.getD 4 0)).map fun x => x.1
  | _, _ => none

/-- Bytes of an m × n matrix in a format: elements, and scales per block of 32 (Table 4.1). -/
def storedBytes (f m n : Nat) : Nat := m * n * fmtBits f / 8 + (if fmtBlock f then cdiv (m * n) 32 else 0)

/-- A LOWRANK entry (Table 11.9): the five collectives of Table 10.9, each phase with a trigger of its own (R302, R303).
Beyond the rules' words: log entry 18 (DESIGN CHOICE). -/
def addLowrank (s : State) (base count : Nat) (l : List Word) (e : Exp) : Option Exp :=
  let w := l.getD 0 0
  let x := l.getD 6 0
  let y := l.getD 8 0
  let owner := fld w 0 4
  let rho := fld w 4 9
  let m := fld w 16 24
  let nn := fld w 40 24
  let n := fld y 0 5
  let r := fld y 5 4
  let stripes := fld y 9 4
  let chunks := fld y 13 11
  let t := fld x 44 13
  let done := l.getD 7 0
  match stripePorts (l.getD 9 0) stripes, stripePorts (l.getD 10 0) stripes with
  | some outs, some ins =>
    if rho = 0 || rho > 256 || m = 0 || nn = 0 || n < 2 || n > 16 || r ≥ n || owner ≥ n || stripes = 0 || stripes > 9 || chunks = 0 ||
        chunks > 1024 || fld w 13 3 ≠ 0 || !fieldsZero x 57 || !fieldsZero y 24 || !fieldsZero (l.getD 9 0) 45 || !fieldsZero (l.getD 10 0) 45 ||
        !((l.drop 11).all fun v => v == 0) || fmtBits (fld x 40 4) = 0 || fld x 0 40 ≠ storedBytes (fld x 40 4) m nn ||
        !((List.range' 1 5).all fun k => plainAddr s (l.getD k 0)) || !doneAddr s done || !trigIn base count t 4 then none
    else
      let g : Ring := { op := 0, n := n, r := r, stripes := stripes, chunks := chunks, outs := outs, ins := ins }
      let tr (k : Nat) : BitVec 13 := BitVec.ofNat 13 (t + k)
      match e.add 3 g owner (4 * m * rho) (l.getD 1 0) (l.getD 3 0) (tr 0) [] done with
      | none => none
      | some (e1, _) => match e1.add 4 g owner (4 * m * rho) (l.getD 3 0) (l.getD 3 0) (tr 1) [] done with
        | none => none
        | some (e2, _) => match e2.add 3 g owner (4 * nn * rho) (l.getD 2 0) (l.getD 4 0) (tr 2) [] done with
          | none => none
          | some (e3, _) => match e3.add 4 g owner (fld x 0 40) (l.getD 5 0) (l.getD 5 0) (tr 3) [] done with
            | none => none
            | some (e4, ids) =>
              (e4.add 4 g owner (4 * nn * rho) (l.getD 4 0) (l.getD 4 0) (tr 3) ids done).map fun z => z.1
  | _, _ => none

/-- Every COLLECT and LOWRANK entry of a manifest, behind its CONSIGN entries; none where one is refused. -/
def expandAll (s : State) (base count : Nat) (cons : List (PortN × Fin 256 × Consign)) (collect lowrank : List (List Word)) :
    Option (List (PortN × Fin 256 × Consign) × List (Nat × Nat × Word)) :=
  let step (f : List Word → Exp → Option Exp) (l : List (List Word)) (e : Option Exp) : Option Exp :=
    l.foldl (fun e x => e.bind (f x)) e
  let e0 : Exp := { cons := cons, colls := [], id := 1, coll := 1 }
  (step (addLowrank s base count) lowrank (step (addCollect s base count) collect (some e0))).map fun e => (e.cons, e.colls)

end Sys2Proof.Machine
end

