-- ==== Sys2Proof/Machine/Manifest.lean ====
section
/-! DEFINITION. The format of manifests (11.5) and of program images (Table 5.7): none where a rule of the format is broken. -/

namespace Sys2Proof.Machine

open Sys2Proof

/-- Bits lo to lo + n - 1 of a word are 0. -/
def zero (w : Word) (lo n : Nat) : Bool := fld w lo n == 0

/-- A section table entry: TYPE, COUNT, OFFSET. -/
structure Section where
  type : Nat
  count : Nat
  offset : Nat
  deriving DecidableEq, Repr

/-- Entry bytes of a section TYPE, and its KIND. -/
def sectionSize (t : Nat) : Nat :=
  if t = 1 then 8 else if t = 2 then 64 else if t = 3 then 8 else if t = 4 then 128 else if t = 5 then 64 else if t = 6 then 128
  else if t = 7 then 32 else 16
def sectionKind (t : Nat) : Nat := if t = 8 then 2 else if t = 9 then 3 else 1

/-- COUNT of Table 11.6. Beyond the rules' words: log entry 43 (DEDUCED). -/
def countOk (t n pounds lts : Nat) : Bool :=
  if t = 1 then n == 1 || n == pounds
  else if t = 2 then n == lts
  else if t = 3 then decide (n ≤ 2880)
  else if t = 4 then decide (n ≤ 4608)
  else if t = 8 then n == 1
  else if t = 9 then decide (1 ≤ n) && decide (n ≤ 4096)
  else decide (n ≤ 256)

def readSection (bs : List Byte) (i : Nat) : Option Section :=
  let a := wordOf bs (8 + 2 * i)
  let b := wordOf bs (9 + 2 * i)
  if zero a 8 24 && zero b 32 32 && fld b 0 6 == 0 then some { type := fld a 0 8, count := fld a 32 32, offset := fld b 0 32 } else none
def readSections (bs : List Byte) : Nat → Nat → Option (List Section)
  | _, 0 => some []
  | i, n + 1 =>
    match readSection bs i, readSections bs (i + 1) n with
    | some x, some r => some (x :: r)
    | _, _ => none

/-- No two sections overlap, and no TYPE appears twice (R321). Beyond the rules' words: log entry 43 (DEDUCED). -/
def apart : List Section → Bool
  | [] => true
  | x :: r =>
    let fin (y : Section) : Nat := y.offset + y.count * sectionSize y.type
    (r.all fun y => x.type != y.type && (decide (fin x ≤ y.offset) || decide (fin y ≤ x.offset) || x.count == 0 || y.count == 0)) && apart r

/-- The words of entry i of a section. -/
def entryWords (bs : List Byte) (x : Section) (i : Nat) : List Word :=
  let z := sectionSize x.type
  let e := (bs.drop (x.offset + i * z)).take z
  (List.range (z / 8)).map fun k => wordOf e k
def sectionWords (bs : List Byte) (x : Section) : List (List Word) := (List.range x.count).map fun i => entryWords bs x i
def wAt (l : List Word) (k : Nat) : Word := l.getD k 0

/-- All results, or none. -/
def allSome {α β : Type} (f : α → Option β) : List α → Option (List β)
  | [] => some []
  | a :: r => match f a, allSome f r with
    | some x, some y => some (x :: y)
    | _, _ => none

def readPound (l : List Word) : Option PoundEnt :=
  let w := wAt l 0
  if zero w 50 14 then some { d := w.extractLsb' 0 32, power := w.extractLsb' 32 16, timed := bit w 48, canalTimed := bit w 49 } else none

def readLt (x : Lt × List Word) : Option LtEnt :=
  let a := wAt x.2 0
  let c := wAt x.2 2
  if zero a 30 34 && zero c 17 47 && ((x.2.drop 3).all fun w => w == 0) && decide (fld c 8 9 ≤ 256) && decide (fld c 0 8 + fld c 8 9 ≤ 256) then
    some { lt := x.1, entry := a.extractLsb' 0 14, narrowOk := bit a 14, keeperReq := bit a 15, thresh := a.extractLsb' 16 12
           level := a.extractLsb' 28 2, berths := wAt x.2 1, winBase := c.extractLsb' 0 8, winCount := c.extractLsb' 8 9 }
  else none

def readReserve (l : List Word) : Option (Lt × Nat × Nat) :=
  let w := wAt l 0
  if zero w 7 1 && zero w 13 3 && zero w 24 40 && decide (fld w 8 5 < 24) then
    if h : fld w 0 7 < 120 then some (⟨fld w 0 7, h⟩, fld w 8 5, fld w 16 8) else none
  else none

/-- A consignment entry from its words (Table 10.6). -/
def consignOf (l : List Word) : Consign :=
  let a := wAt l 0
  let d := wAt l 3
  { valid := bit a 0, dir := a.extractLsb' 1 2, linkAbort := bit a 3, combine := bit a 4, op := a.extractLsb' 5 2
    channel := a.extractLsb' 8 8, trigger := a.extractLsb' 16 13, loc := wAt l 1, addend := wAt l 2, length := d.extractLsb' 0 32
    window := d.extractLsb' 32 8, gen := d.extractLsb' 40 16, doneCh := wAt l 4 }
def local64 (s : State) (a : Word) : Bool := decide (addrClass a ≤ 1) && fld a 0 6 == 0 && !s.addrBad a
/-- R292, for one entry whose step's Canal range is base and count. -/
def consignOk (s : State) (base count : Nat) (l : List Word) (c : Consign) : Bool :=
  zero (wAt l 0) 7 1 && zero (wAt l 0) 29 35 && zero (wAt l 3) 56 8 && zero (wAt l 5) 9 55 && wAt l 6 == 0 && wAt l 7 == 0 &&
    c.dir != 3 && local64 s c.loc &&
    (if c.dir = 2 then addrClass c.addend == 1 && fld c.addend 0 6 == 0 && !s.addrBad c.addend
     else if c.combine then local64 s c.addend else c.addend == 0) &&
    addrClass c.doneCh == 3 && !s.addrBad c.doneCh &&
    (if c.combine && c.op == 1 then c.length.toNat % 2 == 0 else c.length.toNat % 4 == 0) &&
    (!c.combine || c.dir == 1) && (c.combine || c.op == 0) &&
    decide (base ≤ c.trigger.toNat) && decide (c.trigger.toNat < base + count)
def readConsign (s : State) (base count : Nat) (l : List Word) : Option (PortN × Fin 256 × Consign) :=
  let w := wAt l 0
  let c := consignOf (l.drop 8)
  if zero w 5 3 && zero w 16 48 && ((l.take 8).drop 1).all (fun w => w == 0) && consignOk s base count (l.drop 8) c then
    if h : fld w 0 5 < 18 then some (⟨fld w 0 5, h⟩, Fin.ofNat 256 (fld w 8 8), c) else none
  else none
/-- Two valid entries of a port name one entry index, or one CHANNEL with one DIR. -/
def consignsApart : List (PortN × Fin 256 × Consign) → Bool
  | [] => true
  | x :: r => (r.all fun y => x.1 != y.1 || !x.2.2.valid || !y.2.2.valid ||
      (x.2.1 != y.2.1 && (x.2.2.channel != y.2.2.channel || x.2.2.dir != y.2.2.dir))) && consignsApart r

def readRestore (s : State) (l : List Word) : Option RestoreEnt :=
  let src := wAt l 0
  let dst := wAt l 1
  let n := wAt l 2
  if (addrClass src = 1 || addrClass src = 4) && decide (addrClass dst ≤ 1) && !s.addrBad src && !s.addrBad dst &&
      zero n 32 32 && wAt l 3 == 0 && fld n 0 6 == 0 then some { src := src, dst := dst, len := n.extractLsb' 0 32 }
  else none

def readChart (l : List Word) : Option (BitVec 25 × BitVec 4 × Word) :=
  let w := wAt l 0
  let op := fld w 32 4
  if zero w 25 7 && zero w 36 28 && decide (1 ≤ op) && decide (op ≤ 4) && (op == 1 || wAt l 1 == 0) then
    some (w.extractLsb' 0 25, w.extractLsb' 32 4, wAt l 1)
  else none

/-- The LTs of LT_MASK, ascending. -/
def maskLts (lo hi : Word) : List Lt := (List.finRange 120).filter fun l => if l.val < 64 then bit lo l.val else bit hi (l.val - 64)

/-- Parse a manifest whose ring entry gives its length (R321, R45, R292, R299, R303). Beyond the rules' words: log entry 43 (DEDUCED). -/
def parseManifest (s : State) (bs : List Byte) (len : Nat) : Option Manifest :=
  let w0 := wordOf bs 0
  let w1 := wordOf bs 1
  let w3 := wordOf bs 3
  let w4 := wordOf bs 4
  let w6 := wordOf bs 6
  let w7 := wordOf bs 7
  let kind := fld w0 48 8
  let pounds := fld w4 0 16
  let lts := maskLts (wordOf bs 2) w3
  let base := fld w6 0 13
  let count := fld w6 16 14
  let late := bit w4 19
  if fld w0 0 32 ≠ 0x4D4E4601 || fld w0 32 16 ≠ 1 || kind = 0 || kind > 3 || !zero w0 56 8 || fld w1 32 32 ≠ len || len < 64 ||
      len > 1048576 || len % 64 ≠ 0 || !zero w3 56 8 || !zero w4 21 11 || (if kind = 1 then pounds = 0 else pounds ≠ 0) ||
      !zero w6 13 3 || !zero w6 30 34 || base + count > 8192 || !zero w7 5 59 || fld w7 0 5 > 16 || 64 + 16 * fld w7 0 5 > len then none
  else
    match readSections bs 0 (fld w7 0 5) with
    | none => none
    | some xs =>
      let ok (x : Section) : Bool :=
        decide (1 ≤ x.type) && decide (x.type ≤ 9) && sectionKind x.type == kind && countOk x.type x.count pounds lts.length &&
          decide (x.offset + x.count * sectionSize x.type ≤ len)
      let get (t : Nat) : List (List Word) := match xs.find? fun x => x.type == t with | some x => sectionWords bs x | none => []
      let has (t : Nat) : Bool := xs.any fun x => x.type == t
      if !xs.all ok || !apart xs || (kind = 1 && !(has 1 && has 2)) || (kind = 2 && !has 8) || (kind = 3 && !has 9) then none
      else
        match allSome readPound (get 1), allSome readLt (lts.zip (get 2)), allSome readReserve (get 3),
              allSome (readConsign s base count) (get 4), allSome (readRestore s) (get 7), allSome readChart (get 9) with
        | some ps, some ls, some rs, some cs, some es, some hs =>
          if !consignsApart cs || (late && ps.any fun p => p.timed) || !((get 8).all fun l => zero (wAt l 0) 48 16 && zero (wAt l 1) 32 32) then none
          else
            match expandAll s base count (cs.filter fun c => c.2.2.valid) (get 5) (get 6) with
            | none => none
            | some (cons, colls) => some {
                kind := BitVec.ofNat 8 kind, seq := w1.extractLsb' 0 32, length := len, lts := lts, pounds := pounds, replays := fld w4 16 3
                late := late, debug := bit w4 20, admitWait := fld w4 32 32, notBefore := (wordOf bs 5).toNat, canalBase := base
                canalCount := count, poundEnts := ps, ltEnts := ls, reserve := rs, consign := cons, colls := colls, restore := es
                image := match get 8 with | l :: _ => some ((wAt l 0).extractLsb' 0 48, fld (wAt l 1) 0 32) | [] => none
                chart := hs }
        | _, _, _, _, _, _ => none

/-! ### Program images (R127, R129) -/

structure ImageIn where
  bundles : Nat
  slack : BitVec 4
  htab : Tbl Word
  res : List (Nat × Nat × Bool)      -- base and length in bytes, VALID
  store : Tbl Bundle
  deriving DecidableEq, Repr

def tblOf {α : Type} [DecidableEq α] (d : α) (l : List α) : Tbl α := (l.mapIdx fun i v => (i, v)).filter fun e => e.2 != d

/-- Table 5.9: ENTRY below BUNDLES, reserved bits 0, BUDGET not 0 where VALID. -/
def htabOk (bundles : Nat) (w : Word) : Bool :=
  zero w 14 2 && zero w 29 35 && decide (fld w 0 14 < bundles) && (!bit w 28 || decide (fld w 16 12 ≠ 0))

/-- The first n little-endian words of a byte string. -/
def wordsOf (bs : List Byte) : Nat → List Word
  | 0 => []
  | n + 1 => wordOf bs 0 :: wordsOf (bs.drop 8) n

/-- The image that a byte string holds (Table 5.7): none where R127 or R129 refuses it. -/
def parseImage (bs : List Byte) : Option ImageIn :=
  let w0 := wordOf bs 0
  let w1 := wordOf bs 1
  let n := fld w1 0 32
  let regions := fld w1 40 8
  let decl (i : Nat) : List Byte := (bs.drop (0x810 + 16 * i)).take 16
  let res := (List.range 8).map fun i => ((wordOf (decl i) 0).toNat, fld (wordOf (decl i) 1) 0 32, fld (wordOf (decl i) 1) 32 32)
  let used := res.take regions
  let regOk (r : Nat × Nat × Nat) : Bool :=
    r.1 % 65536 == 0 && r.2.1 % 65536 == 0 && decide (65536 ≤ r.2.1) && decide (r.1 + r.2.1 ≤ 2 ^ 26) && decide (r.2.2 ≤ 1)
  let rec clear (l : List (Nat × Nat × Nat)) : Bool := match l with
    | [] => true
    | x :: r => (r.all fun y => decide (x.1 + x.2.1 ≤ y.1) || decide (y.1 + y.2.1 ≤ x.1)) && clear r
  let htab := wordsOf (bs.drop 0x10) 256
  if fld w0 0 32 ≠ 0x51575304 || fld w0 32 16 ≠ 1 || !zero w0 48 16 || n = 0 || n > 16384 || fld w1 32 8 > 15 || regions > 8 ||
      !zero w1 48 16 || !used.all regOk || !clear used || !((res.drop regions).all fun r => r.1 == 0 && r.2.1 == 0 && r.2.2 == 0) ||
      !((bs.drop 0x890).take 112).all (fun b => b == 0) || !htab.all (htabOk n) || bs.length < 0x900 + 32 * n then none
  else some {
    bundles := n, slack := BitVec.ofNat 4 (fld w1 32 8), htab := tblOf 0 htab
    res := used.map fun r => (r.1, r.2.1, r.2.2 == 1)
    store := tblOf 0 ((List.range n).map fun i => BitVec.ofNat 256 (bytesNat ((bs.drop (0x900 + 32 * i)).take 32))) }

end Sys2Proof.Machine
end

