-- ==== Sys2Proof/Machine/Intake.lean ====
section
/-! DEFINITION. The intake unit: admission (Table 11.10), LOAD and CHART manifests, completion records (R326), and the end of a
step. -/

namespace Sys2Proof.Machine

open Sys2Proof

/-! ### What admission looks at -/

/-- MHz of a bank step (Table 12.5). -/
def stepMhz (c : Nat) : Nat := [1900, 1700, 1500, 1200, 950, 475].getD c 475
def State.bankStep (s : State) (b : Bank) : Nat := match b with | .west => s.clocks.step.wCur.toNat | .east => s.clocks.step.eCur.toNat
/-- The forecaster's plan for the i-th pound from the next gate tick on: cap, West step, East step; beyond the horizon its
last pound (R395). -/
def State.planAt (s : State) (i : Nat) : Nat × Nat × Nat :=
  match s.therm.plan[min i (s.therm.plan.length - 1)]? with
  | some x => (x.1, x.2.1.toNat, x.2.2.toNat)
  | none => (s.power.effW.toNat, s.bankStep .west, s.bankStep .east)
def planStep (x : Nat × Nat × Nat) (b : Bank) : Nat := match b with | .west => x.2.1 | .east => x.2.2
def State.poundNs (s : State) : Nat := s.pcfg.len.toNat * 1000
/-- The first pound of a step admitted now: how many gate ticks lie before its tick (R325). -/
def State.startIn (s : State) (notBefore : Nat) : Nat :=
  let n := s.poundNs
  let first := cdiv (max (s.now + 4000) notBefore) n
  first - (s.now / n + 1)

/-- The freeboard of D cycles at N meets R36. -/
def freeboardOk (n d : Nat) : Bool := d == 0 || decide (d + 16 + cdiv (n * 50) 1000000 + 32 ≤ n)
def ltBank (l : Lt) : Bank := bankOf (homeOf l)
/-- The banks whose planned steps a manifest must fit (R36), by the home position of each LT, also of one carried by a die borrowed across
the Canal (DEDUCED, log entry 100). -/
def stepBanks (m : Manifest) : List Bank := [Bank.west, Bank.east].filter fun b => m.lts.any fun l => ltBank l == b

/-- Reservation caps (Tables 7.14 and 9.2). -/
def stackCap (step : Nat) : Nat := [130, 145, 164, 205, 260, 520].getD step 130

/-- The seams that a packet from p crosses to position x, by the tables in force: at most 40 hops. -/
def State.seams (s : State) (x : Pos) (ovrKey : Nat) (reply : Bool) : Nat → Pos → List (Pos × Dir)
  | 0, _ => []
  | n + 1, p =>
    if p = x then []
    else
      let o := ovrAt (s.ut p).mesh s.epoch.cur ovrKey
      let d := hopDir p x (if reply then o.rpl else o.req)
      match neighbour p d with
      | some q => (p, d) :: s.seams x ovrKey reply n q
      | none => []
/-- Each reservation in force: LT, stack, units. -/
def State.reservations (s : State) (m : Manifest) : List (Lt × Nat × Nat) := s.intake.steps.flatMap (fun r => r.man.reserve) ++ m.reserve
/-- Units per seam, over the reservations' routes from row end to the exit position of the LT (reply mesh) or back (request mesh); a spare
link beside the exit position is no mesh link (R259). -/
def State.linkLoads (s : State) (m : Manifest) (reply : Bool) : List ((Pos × Dir) × Nat) :=
  (s.reservations m).flatMap fun r =>
    match s.posOf r.1 with
    | none => []
    | some _ =>
      let e := rowEnd (Fin.ofNat 24 r.2.1)
      let p := s.exitOfLt e r.1.val
      (if reply then s.seams p p.val true 40 e else s.seams e e.val false 40 p).map fun k => (k, r.2.2)
def State.linkOver (s : State) (m : Manifest) (reply : Bool) (cap : Nat) : Bool :=
  let l := s.linkLoads m reply
  l.any fun x => decide ((l.foldl (fun n y => if y.1 = x.1 then n + y.2 else n) 0) > cap)
/-- R198 and R249: the reason that applies. -/
def State.hbmRefused (s : State) (m : Manifest) : Option Nat :=
  let i := s.startIn m.notBefore
  let rs := s.reservations m
  let tooMuch (k : Nat) : Bool :=
    let b := bankOfStack (Fin.ofNat 24 k)
    let c := (List.range (min m.pounds 1000)).foldl (fun c j => min c (stackCap (planStep (s.planAt (i + j)) b))) 520
    decide ((rs.foldl (fun n r => if r.2.1 = k then n + r.2.2 else n) 0) > c)
  let bal := match allPos.find? fun p => !(s.ut p).flags.lost with | some p => (s.ut p).mesh.profile | none => false
  if m.reserve.isEmpty then none
  else if (List.range 24).any tooMuch then some 3
  else if s.linkOver m true (if bal then 93 else 124) then some 4
  else if s.linkOver m false (if bal then 93 else 62) then some 5
  else none

/-- POWER of the running steps in the i-th pound from the next gate tick on. -/
def State.powerAt (s : State) (i : Nat) : Nat :=
  s.intake.steps.foldl (fun n r =>
    let j := if r.phase == .admitted then (if i ≥ s.startIn r.man.notBefore then some (i - s.startIn r.man.notBefore) else none) else some (r.poundIdx + 1 + i)
    match j with
    | some j => if j < r.man.pounds then n + (r.man.ent j).power.toNat else n
    | none => n) 0
/-- R352. -/
def State.powerOver (s : State) (m : Manifest) : Bool :=
  let i := s.startIn m.notBefore
  (List.range m.pounds).any fun j =>
    decide (s.power.baseW.toNat + s.powerAt (i + j) + (m.ent j).power.toNat > (s.planAt (i + j)).1)
/-- R36. -/
def State.boardShort (s : State) (m : Manifest) : Bool :=
  let i := s.startIn m.notBefore
  (List.range m.pounds).any fun j => (stepBanks m).any fun b =>
    !freeboardOk (s.pcfg.len.toNat * stepMhz (planStep (s.planAt (i + j)) b)) (m.ent j).d.toNat

def State.bankUns (s : State) (b : Bank) : Bool := match b with | .west => s.lkh.wUns | .east => s.lkh.eUns
/-- The core that carries an LT. -/
def State.coreOf (s : State) (l : Lt) : Option Core := (s.posOf l).map s.core
def State.substRuns (s : State) (l : Lt) : Bool := s.repair.subst.any fun x => x.lt == l
def State.soundingRuns (s : State) (l : Lt) : Bool := s.repair.sounding.any fun x => x.1 == l

/-- Row 1 beyond the manifest's own format. Beyond the rules' words: log entry 44 (DEDUCED). -/
def State.stepIllegal (s : State) (m : Manifest) : Bool :=
  m.lts.any s.ltAbsent || m.ltEnts.any fun e =>
    match s.coreOf e.lt with
    | some c => !s.substRuns e.lt && (!c.img.loaded || decide (c.img.bundles ≤ e.entry.toNat))
    | none => false
/-- A reset waits or runs whose precondition the manifest would break (R440). Beyond the rules' words: log entry 69 (DEDUCED). -/
def State.resetHolds (s : State) (m : Manifest) : Bool :=
  let r := s.lkh.reset
  r.busy &&
    match r.kind.toNat with
    | 2 => m.lts.any (fun l => match s.posOf l with | some p => (reachOf p).val == r.target.toNat | none => false) ||
        m.reserve.any fun x => x.2.1 == r.target.toNat
    | 3 => m.lts.any (fun l => match s.posOf l with | some p => reachOf p == reachOf (Fin.ofNat 144 r.target.toNat) | none => false) ||
        m.reserve.any fun x => x.2.1 == (reachOf (Fin.ofNat 144 r.target.toNat)).val
    | 4 => m.lts.any fun l => (s.posOf l).map (fun p => p.val) == some r.target.toNat
    | 5 => r.ctx == 0 && m.lts.any fun l => (s.posOf l).map (fun p => p.val) == some r.target.toNat
    | 7 => r.target == 1 && (m.canalCount != 0 || !m.consign.isEmpty)
    | _ => false
/-- Row 4, and what other rules hold as row 4 does (R415, R421, R440, R443). Beyond the rules' words: log entry 64 (DEDUCED). -/
def State.mustHold (s : State) (m : Manifest) : Bool :=
  s.pcfg.pend || (s.intake.loads.any fun r => r.man.lts.any fun l => m.lts.contains l) ||
    (m.lts.any fun l => (s.stepOf l).isSome || s.soundingRuns l || s.repair.due.contains l || s.substRuns l) ||
    !s.ringRoomFor (s.intake.steps.length + 1) && (s.intake.cring.en || !s.kclUp && !s.intake.pcieRuntime && decide (s.intake.kept.length ≥ 256)) ||
    s.resetHolds m || s.lkh.pstate == .standby || s.lkh.req || s.intake.stopped

/-- What admission decides. -/
inductive Verdict where
  | refuse (st : Status) (reason : Nat)
  | hold
  | takes
  deriving DecidableEq, Repr

/-- Rows 2 to 4. -/
def State.common (s : State) (m : Manifest) : Verdict :=
  if s.lkh.mapUnverified then .refuse .mapUnverified 0
  else if s.lkh.pstate = .moored then .refuse .refusedCapacity 0x0A
  else if s.mustHold m then .hold
  else .takes
/-- A step number is free again when the record that carries it has been written (R326). -/
def State.numFree (s : State) (n : Nat) : Bool := (s.stepNum n).isNone && !(s.intake.kept.any fun c => fld c.words[0] 32 12 == n)
/-- Rows 1 to 13 for a STEP manifest. -/
def State.verdict (s : State) (m : Manifest) : Verdict :=
  if s.stepIllegal m then .refuse .illegalDescriptor 0
  else match s.common m with
    | .takes =>
      let narrow (e : LtEnt) : Bool := match s.posOf e.lt with
        | some p => (s.core p).desc.narrow && !(e.narrowOk && s.lkh.narrow.contains p)
        | none => false
      let slack (l : Lt) : Bool := match s.coreOf l with
        | some c => decide (s.ltpos[l].added.toNat > c.img.slack.toNat)
        | none => false
      if m.lts.any fun l => (s.posOf l).isNone then .refuse .refusedCapacity 7
      else if m.ltEnts.any narrow then .refuse .refusedCapacity 6
      else if m.lts.any slack || ((m.poundEnts.any fun p => p.timed) && m.lts.any fun l => s.bankUns (ltBank l)) then .refuse .timingUnsafe_ 0
      else if s.boardShort m then .refuse .refusedCapacity 1
      else match s.hbmRefused m with
        | some n => .refuse .refusedCapacity n
        | none =>
          if s.powerOver m then .refuse .refusedCapacity 2
          else if m.consign.any fun c => c.2.2.valid && s.ports[c.1].state != .up then .refuse .refusedCapacity 8
          else if (List.range' 1 4095).all fun n => !s.numFree n then .refuse .refusedCapacity 9
          else .takes
    | v => v

/-! ### Admission -/

/-- The bytes of the first waiting manifest, or why they cannot be read. -/
def State.front (s : State) : Option (List Byte × Nat) :=
  match s.intake.waiting with
  | [] => none
  | (o, n) :: _ => if (s.hostBad o.toNat n).isSome then none else some (s.hostRead o.toNat n, n)

/-- The front manifest is refused. -/
def State.refuseFront (s : State) (seq : BitVec 32) (st : Status) (reason : Nat) : State :=
  (s.ringPass).manifestDone seq s.now st reason 0
/-- The front manifest is held, or completes at once where ADMIT_WAIT is 0 (R323); a held manifest wakes a STANDBY panel
(R443). -/
def State.holdFront (s : State) (seq : BitVec 32) (wait : Nat) : State :=
  if wait = 0 then s.refuseFront seq .admissionTimeout 0
  else
    let s1 := s.modIntake fun i => { i with heldSince := some (i.heldSince.getD s.now) }
    if s.lkh.pstate = .standby && s.lkh.wake then { s1 with lkh := { s1.lkh with req := false, pending := true } } else s1

/-- The step keeps the conditions that R438 sets for steps. -/
def State.refStep (s : State) (m : Manifest) : Bool :=
  let i := s.startIn m.notBefore
  let board (j : Nat) : Bool := (stepBanks m).all fun b =>
    let n := s.pcfg.len.toNat * stepMhz (planStep (s.planAt (i + j)) b)
    decide ((m.ent j).d.toNat * 100 ≤ n * 98)
  decide (1000 ≤ s.pcfg.len.toNat) && decide (2 ≤ m.replays) && !m.late && (List.range m.pounds).all board &&
    m.lts.all fun l => match s.coreOf l with | some c => decide (6 ≤ c.img.slack.toNat) | none => false
/-- R325: the new step; its RESTORE entries are stored for each of its LTs (R423). The step of each bank at which it was admitted (R60) is
the one in force, not the one planned (DEDUCED, log entry 100). -/
def State.admitStep (s : State) (m : Manifest) : State :=
  let n := ((List.range' 1 4095).find? s.numFree).getD 1
  let r : StepRec :=
    { num := n, man := m, phase := .admitted, poundIdx := 0, attempt := 0, replaysRun := 0, stepW := s.clocks.step.wCur,
      stepE := s.clocks.step.eCur, tAdmit := s.now, cause := .none, causeLt := 0x7F, overrun := false, late := false, throttled := false,
      marked := false, stalls := 0, latePounds := 0, poundsRun := 0, faultSeen := none, ending := none, noReplay := false, addr := 0,
      attemptPounds := 0, lost := 0, prog := false, restored := false, finals := [], colls := [], recheck := false, retiring := none }
  let s1 := s.ringPass.modIntake fun i => { i with steps := i.steps ++ [r] }
  { s1 with lkh := { s1.lkh with refBroken := s1.lkh.refBroken || !s.refStep m }, ltpos := Vector.ofFn fun l : Fin 120 => if m.lts.contains l then { s1.ltpos[l] with restore := m.restore } else s1.ltpos[l] }

/-- Decide the front manifest when its KIND is the command's. -/
def State.decideFront (s : State) (kind : Nat) : State :=
  match s.front with
  | none =>
    match s.intake.waiting with
    | [] => s
    | (o, n) :: _ => match s.hostBad o.toNat n with
      | some st => if kind = 1 then s.refuseFront 0 st 0 else s
      | none => s
  | some (bs, n) =>
    let k := fld (wordOf bs 0) 48 8
    let seq : BitVec 32 := (wordOf bs 1).extractLsb' 0 32
    if !(k == kind || kind == 1 && k != 2 && k != 3) then s
    else match parseManifest s bs n with
      | none => s.refuseFront seq .illegalDescriptor 0
      | some m =>
        let v := if kind = 1 then s.verdict m else if m.lts.any s.ltAbsent then .refuse .illegalDescriptor 0 else
          match m.image with
          | some (o, len) => (match s.hostBad o.toNat len with
            | some st => .refuse st 0
            | none => if (parseImage (s.hostRead o.toNat len)).isNone then .refuse .illegalDescriptor 0 else s.common m)
          | none => s.common m
        match v with
        | .refuse st reason => s.refuseFront seq st reason
        | .hold => s.holdFront seq m.admitWait
        | .takes =>
          if kind = 1 then s.admitStep m
          else if kind = 2 then s.ringPass.modIntake fun i => { i with loads := i.loads ++ [{ man := m, tAdmit := s.now }] }
          else s.ringPass.modIntake fun i => { i with chartRuns := i.chartRuns ++ [{ man := m, tAdmit := s.now, next := 0, busy := false }] }

/-- The intake unit takes up the front manifest, unless it is held (R318) or the panel does not read manifests (Table 16.5). -/
def State.takeUp (s : State) (kind t : Nat) : State :=
  let s0 := s.at_ t
  if s0.intake.heldSince.isSome || s0.lkh.pstate == .starting || s0.lkh.pstate == .off then s0 else s0.decideFront kind

def execManifestStep (t : Nat) (s : State) : Out := .next (s.takeUp 1 t)
def execManifestLoad (t : Nat) (s : State) : Out := .next (s.takeUp 2 t)
def execManifestChart (t : Nat) (s : State) : Out := .next (s.takeUp 3 t)

/-- The checks start again from row 1 for the held manifest (R323). -/
def execManifestHoldEnd (t : Nat) (s : State) : Out := .next (
  let s0 := s.at_ t
  match s0.intake.heldSince, s0.front with
  | some _, some (bs, _) =>
    let k := fld (wordOf bs 0) 48 8
    s0.decideFront (if k = 2 then 2 else if k = 3 then 3 else 1)
  | _, _ => s0)

def execAdmissionWaitTimeout (t : Nat) (s : State) : Out := .next (
  let s0 := s.at_ t
  match s0.intake.heldSince, s0.front with
  | some a, some (bs, n) => match parseManifest s0 bs n with
    | some m => if a + m.admitWait * 1000 < s0.now then s0.refuseFront m.seq .admissionTimeout 0 else s0
    | none => s0
  | _, _ => s0)

/-- The runtime writes companion memory, line 0 of the ring last; the invalidation is the notification (11.4).
Beyond the rules' words: log entry 19 (DESIGN CHOICE). -/
def execManifestRingNotify (w : List HostCell) (t : Nat) (s : State) : Out := .next (
  let s0 := s.at_ t
  let s1 := { s0 with host := w.foldl (fun (m : Mem) (c : HostCell) => memPut m c.1 c.2) s0.host }
  if s1.kclUp && !s1.intake.pcieRuntime then s1.ringRead else s1)
/-- Every 10 µs with the PCIe host as runtime (R328). Beyond the rules' words: log entry 19 (DESIGN CHOICE). -/
def execPcieRingPoll (w : List HostCell) (t : Nat) (s : State) : Out := .next (
  let s0 := s.at_ t
  let s1 := { s0 with host := w.foldl (fun (m : Mem) (c : HostCell) => memPut m c.1 c.2) s0.host }
  if s1.intake.pcieRuntime then s1.ringRead else s1)

/-! ### LOAD (R127 to R130) -/

/-- Load an image onto a core: store, handler table, CR_SLACK and resident regions; no scratchpad byte changes. -/
def Core.loadImage (c : Core) (m : ImageIn) : Core :=
  { c with
    img := { loaded := true, bundles := m.bundles, slack := m.slack, store := m.store, htab := m.htab }
    spd := { c.spd with res := Vector.ofFn fun i : Fin 8 => match m.res[i.val]? with
      | some r => { base := BitVec.ofNat 10 (r.1 / 65536), len := BitVec.ofNat 11 (r.2.1 / 65536), valid := r.2.2 }
      | none => {} } }

def execImageLoadComplete (seq : BitVec 32) (t : Nat) (s : State) : Out := .next (
  let s0 := s.at_ t
  match s0.intake.loads.find? fun r => r.man.seq == seq && s0.k0Reaches with
  | none => s0
  | some r =>
    let s1 := s0.modIntake fun i => { i with loads := i.loads.erase r }
    match r.man.image with
    | none => s1
    | some (o, n) => match s1.hostBad o.toNat n with
      | some st => s1.manifestDone seq r.tAdmit st 0 0
      | none => match parseImage (s1.hostRead o.toNat n) with
        | none => s1.manifestDone seq r.tAdmit .illegalDescriptor 0 0
        | some m =>
          let s2 := (r.man.lts.filterMap s1.posOf).foldl (fun (s : State) p => s.modCore p fun c => c.loadImage m) s1
          let s3 := { s2 with ltpos := Vector.ofFn fun l : Fin 120 => if r.man.lts.contains l then { s2.ltpos[l] with lastLoad := some (o, n) } else s2.ltpos[l] }
          s3.manifestDone seq r.tAdmit .done 0 0)

/-! ### CHART (R494) -/

/-- The next entry of the oldest CHART manifest, when it has the operation and nothing of it is under way.
Beyond the rules' words: log entry 36 (DEDUCED). -/
def State.chartEntry (s : State) (op t : Nat) (f : BitVec 25 → Word → State → State) : State :=
  let s0 := s.at_ t
  match s0.intake.chartRuns with
  | [] => s0
  | r :: rest =>
    match r.man.chart[r.next]? with
    | none => s0
    | some (page, o, e) =>
      if r.busy || o.toNat ≠ op then s0
      else f page e (s0.modIntake fun i => { i with chartRuns := { r with busy := true } :: rest })
/-- SET and INVALIDATE wait for an update or a migration under way. Beyond the rules' words: log entry 36 (DEDUCED). -/
def State.chartWrite (s : State) (op t : Nat) (new : BitVec 25 → Word → Word) : State :=
  if !s.chart.free then s.at_ t
  else s.chartEntry op t fun page e s =>
    let n := new page e
    if op = 1 && s.entryBad n then s.chartEntryDone .illegalDescriptor page
    else s.startUpd page (s.entry page.toNat) n true
def execChartSet (t : Nat) (s : State) : Out := .next (s.chartWrite 1 t fun _ e => setMig e false)
/-- VALID is cleared. -/
def execChartInvalidate (t : Nat) (s : State) : Out := .next (s.chartWrite 4 t fun page _ => setMig (s.entry page.toNat) false &&& ~~~(1 : Word))
def execChartMigrateIn (t : Nat) (s : State) : Out := .next (s.chartEntry 2 t fun page _ s => s.postMig { page := page, kind := .in_ })
def execChartMigrateOut (t : Nat) (s : State) : Out := .next (s.chartEntry 3 t fun page _ s => s.postMig { page := page, kind := .out })

/-! ### The end of a step (R326, R60) -/

/-- The service mark (Table 0.8): LATE, THROTTLED, MARKED, ON_TIME. Replays make a record LATE only where the step completes (R49, DEDUCED,
log entry 100). -/
def StepRec.mark (r : StepRec) (st : Status) : Nat :=
  if r.late || (st == .done && decide (r.replaysRun > 0)) then 3 else if r.throttled then 2 else if r.marked then 1 else 0
def StepRec.words (r : StepRec) (st : Status) (now : Nat) : Vector Word 8 :=
  let isF := match r.cause with | .fault _ => true | _ => false
  #v[put64 r.man.seq.toNat 0 32 ||| put64 r.num 32 12 ||| put64 (statusCode st) 44 8 ||| put64 (r.mark st) 52 2 ||| put64 r.replaysRun 54 3,
     put64 (causeCode r.cause) 0 8 ||| put64 (b2n isF) 8 1 ||| put64 (b2n r.overrun) 9 1 ||| put64 r.causeLt.toNat 24 7 |||
       put64 r.stalls.toNat 32 16 ||| put64 r.latePounds.toNat 48 16,
     put64 r.poundsRun.toNat 0 32, r.addr, BitVec.ofNat 64 r.tAdmit, BitVec.ofNat 64 now, 0, 0]

/-- Every operation that the step's LTs issued has completed, and every consignment of the step is answered (R133, R326). -/
def State.stepDrained (s : State) (r : StepRec) : Bool :=
  let own (x : Ctx) : Bool := x == .main || x == .hand
  let tile (p : Pos) : Bool :=
    let c := s.core p
    let f := (s.ut p).flags
    f.lost || f.fencedDie || f.fencedUt || !(c.mov.streams.any fun x => own x.ctx) && !(c.mov.slots.toList.any fun k => match k.op with | some o => own o.ctx | none => false) &&
      (c.mov.staging.toList.all fun g => match g with | some e => !own e.ctx | none => true) && c.mat.ops.all fun o => o.retired
  (s.stepTiles r).all tile && !(s.ports.toList.any fun q => q.cons.toList.any fun c => c.valid && c.step == r.num && c.busy)

def State.addLkh (s : State) (f : Lkh → Lkh) : State := { s with lkh := f s.lkh }
/-- Charge LT-pounds (R437). -/
def State.charge (s : State) (r : StepRec) (st : Status) : State :=
  let idle := r.phase == .admitted || decide (r.poundIdx ≥ r.man.pounds)
  let a := r.attemptPounds + if idle then 0 else r.man.lts.length
  s.addLkh fun k0 =>
    let k := if idle then k0 else { k0 with hwCounted := k0.hwCounted ++ r.man.lts }
    if st = .done then { k with hwDone := k.hwDone + BitVec.ofNat 64 a }
    else if r.prog then { k with hwLostProg := k.hwLostProg + BitVec.ofNat 64 (a + r.lost), hwLost := k.hwLost - BitVec.ofNat 64 r.lost }
    else { k with hwLost := k.hwLost + BitVec.ofNat 64 a }

/-- Nothing of a step stays on a tile: its number, what it declared, handlers still pending (5.6.2); a halt that waited for its
end takes effect (R123). -/
def Tile.stepGone (t : Tile) : Tile :=
  let stop := t.core.ctl.haltWanted || t.core.ctl.main == .halted
  { core := { t.core with ctl := { t.core.ctl with
      lateRun := false, missed := 0, pended := false, main := if stop then .halted else .idle, held := none
      heldHalt := if stop then some .idle else none, haltWanted := false, freed := false, haltAt := t.ut.cycle, dbgAttached := t.core.ctl.dbgAttached || stop
      hand := .idle, curInv := none, queue := [] } }
    ut := { t.ut with
      stepNo := 0, attempt := 0, berths := t.ut.berths.map fun b => { b with declared := false }
      windows := t.ut.windows.map fun w => { w with declared := false } } }

/-- A program-class fault that the replay did not repeat goes to the repair logic (R142). -/
def State.tellUnrepeated (s : State) (r : StepRec) : State :=
  if h : r.faultSeen.isSome ∧ r.faultLt.toNat < 120 then s.tellRepair (.coreFault ⟨r.faultLt.toNat, h.2⟩) else s
/-- The step ends: its record is written and its number is free again. -/
def State.endStep (s0 : State) (r : StepRec) (st : Status) : State :=
  let s := if st = .done then s0.tellUnrepeated r else s0
  let s1 := (s.stepTiles r).foldl (fun (s : State) p => s.modTile p Tile.stepGone) (s.charge r st)
  let gone (c : Consign) : Consign := if c.valid && c.step == r.num then {} else c
  let clean (q : Port) : Port := { q with cons := q.cons.map gone }
  let s2 := { s1 with
    ports := s1.ports.map clean
    aborts := s1.aborts.filter fun a => a.step != r.num }
  (s2.modIntake fun i => { i with steps := i.steps.filter fun x => x.num != r.num }).record { words := r.words st s2.now }

/-- A step is complete when every LT has reached its FINAL pound end, or when it is to end and its drain pound is over; a step
that is not to be replayed for a loss does not wait for that. Beyond the rules' words: log entry 49 (DEDUCED). -/
def execStepCompletion (step : Nat) (t : Nat) (s : State) : Out := .next (
  let s0 := s.at_ t
  match s0.stepNum step with
  | none => s0
  | some r =>
    if !s0.stepDrained r then s0
    else match r.ending with
      | some st =>
        let done_ := r.phase = .admitted || (r.phase = .repairing && !r.recheck && r.retiring.isNone) || (r.noReplay && r.phase ≠ .running)
        if done_ then s0.endStep r st else s0
      | none => if r.phase = .running && r.man.lts.all (fun l => r.finals.contains l) then s0.endStep r .done else s0)

end Sys2Proof.Machine
end

