-- ==== Sys2Proof/Machine/Abort.lean ====
section
/-! DEFINITION. Step aborts (2.5, Table 2.6): phases 1, 2 and 4 in LH-C, phase 3 in each core; the copies and the re-read that
come before a replay (R493, R196). -/

namespace Sys2Proof.Machine

open Sys2Proof

/-! ### Resets of berths and windows -/

/-- Bytes of landing barges that NI has not written yet: those of berth k in the ring from a on, n of them. -/
def Core.dropRing (c : Core) (k : Fin 64) (cc a n : Nat) : Core :=
  { c with pend := c.pend.filter fun w => match w.dst with
      | .ring j b _ => !(j == k && decide (cc < w.due) && decide (a ≤ b) && decide (b < a + n))
      | _ => true }
/-- R216: generation up by one, closed, empty; what has not landed is answered STALE_GENERATION, and nothing more of it is written. -/
def State.berthReset (s : State) (p : Pos) (k : Fin 64) : State :=
  let b := s.berth p k
  let cs := b.queue.flatMap (fun e => e.landing) ++ (b.strays.map fun x => x.2.1) ++ b.leaving.flatMap fun l => l.2.map fun x => x.2.1
  (((cs.foldl (fun (s : State) c => s.answerContrib p c .staleGeneration) s).modBerth p k fun b => { b with
    open_ := false, gen := b.gen + 1, head := 0, tail := 0, queue := [], groups := [], retired := [], strays := [], opening := none
    closing := none, closeAt := none, leaving := [] }).modCore p fun c => c.dropRing k (s.ut p).cycle 0 (2 ^ 27)).dropInvocations p k
/-- R235: generation up by one, closed; the remaining packets of writes that are landing are answered STALE_GENERATION. -/
def Window.reset (w : Window) : Window :=
  { w with
    open_ := false, gen := w.gen + 1, closing := none, closeAt := none, leaving := []
    accs := w.accs.map fun a => if a.refused.isNone then { a with refused := some .staleGeneration } else a }

/-- The berths and windows of a tile that a step declares. -/
def declBerths (e : LtEnt) : List (Fin 64) := (List.finRange 64).filter fun k => bit e.berths k.val
def LtEnt.declares (e : LtEnt) (k : Nat) : Bool := decide (e.winBase.toNat ≤ k) && decide (k < e.winBase.toNat + e.winCount.toNat)

/-- MAIN waits on no chamber any more: stalled in a CWAIT, it has stopped at its bundle boundary. -/
def Control.dropWait (k : Control) : Control :=
  let waits := k.main == .stalled 1 || (k.main == .halted && k.heldHalt == some (.stalled 1))
  if waits then { k with main := if k.main = .halted then .halted else .idle, heldHalt := if k.main = .halted then some .idle else none, held := none }
  else k
/-- Every chamber of a tile at count 0 and target 0 with no waiter; what the core has sent to them and has not arrived is gone too (R245). -/
def State.clearChambers (s : State) (p : Pos) : State :=
  ((s.modUt p fun u => { u with chambers := [] }).modCtl p Control.dropWait).modCore p fun c =>
    { c with pend := c.pend.filter fun w => match w.dst with | .sig _ _ => false | .arm _ _ => false | _ => true }

/-- Phase 4 at the tile of one LT: berths, windows, tile chambers, and the attempt count (R211, R245). -/
def State.abortTile (s : State) (e : LtEnt) (attempt : BitVec 4) : State :=
  match s.posOf e.lt with
  | none => s
  | some p => (((declBerths e).foldl (fun (s : State) k => s.berthReset p k) s).modUt p fun u => { u with
      windows := Vector.ofFn fun k : Fin 256 => if e.declares k.val then u.windows[k].reset else u.windows[k]
      attempt := attempt }).clearChambers p

/-- Canal chambers of a range return to count 0 and target 0; their mirror bits are cleared and nothing is published (R245). -/
def State.clearCanal (s : State) (base count : Nat) : State :=
  let hit (j : Nat) : Bool := decide (base ≤ j) && decide (j < base + count)
  { s with canal := s.canal.filter fun e => !hit e.1 }.allUts fun _ u => { u with
    mirror := u.mirror.filter fun j => !hit j.val, mirrorDue := u.mirrorDue.filter fun e => !hit e.1.val }

/-- A class P fault: class H faults and statuses give none. -/
def programOf : Cause → Option CoreFault
  | .fault f => if faultHw f then none else some f
  | _ => none

/-- The line of R196 is to be re-read: the abort's cause is an uncorrectable line, and the tile of CAUSE_LT names it. -/
def State.mustRecheck (s : State) (c : Cause) (lt : BitVec 7) : Bool :=
  (c == .fault .memUncorrectable || c == .status .memoryUncorrectable) &&
    (if h : lt.toNat < 120 then (match s.posOf ⟨lt.toNat, h⟩ with | some p => (s.ut p).stg.eccValid | none => false) else false)

/-- Entries of a step on a port end with STEP_ABORTED. -/
def Port.abortStep (x : Port) (n : Nat) : Port :=
  { x with cons := x.cons.map fun c => if c.busy && c.step == n then c.stop 0 .stepAborted else c }

/-- LH-C begins the abort of an admitted or running step (phases 1, 2 and 4). Without a replay, `fin` is the status it ends with.
Beyond the rules' words: log entry 45 (DESIGN CHOICE). -/
def State.beginAbort (s : State) (r : StepRec) (q : AbortReq) (fin : Option Status) : State :=
  let c := q.cause
  let lt := q.lt
  let seen := if (programOf c).isSome then q.seen else none
  let again := seen.isSome && seen == r.faultSeen
  let last := decide (r.replaysRun ≥ r.man.replays)
  let at1 := r.attempt + 1
  let r1 : StepRec := { r with
    phase := .aborting, cause := c, causeLt := lt, overrun := q.overrun, attempt := at1, lost := r.lost + r.attemptPounds, attemptPounds := 0
    faultSeen := if seen.isSome then seen else r.faultSeen, faultLt := if seen.isSome then lt else r.faultLt, prog := again, restored := false, finals := []
    recheck := s.mustRecheck c lt, ending := if fin.isSome then fin else if again || last then some .stepAborted else none
    noReplay := fin.isSome }
  let s0 := if seen.isSome && !again then s.tellUnrepeated r else s
  let s1 := s0.addLkh fun k => { k with hwLost := k.hwLost + BitVec.ofNat 64 r.attemptPounds }
  let s2 := (r.man.ltEnts.foldl (fun (s : State) e => s.abortTile e at1) s1).clearCanal r.man.canalBase r.man.canalCount
  { s2 with ports := s2.ports.map fun (x : Port) => x.abortStep r.num, aborts := s2.aborts.filter fun a => a.step != r.num }.sweep.modStep r.num fun _ => r1

/-- LH-C acts on an abort cause that has been reported. A step that is aborting already is not aborted again.
Beyond the rules' words: log entry 45 (DESIGN CHOICE). -/
def execStepAbort (step : Nat) (cause : Cause) (lt : BitVec 7) (overrun : Bool) (t : Nat) (s : State) : Out := .next (
  let s0 := s.at_ t
  match s0.aborts.find? fun q => q.step == step && q.cause == cause && q.lt == lt && q.overrun == overrun with
  | none => s0
  | some q =>
    let s1 := { s0 with aborts := s0.aborts.erase q }
    match s1.stepNum step with
    | none => s1
    | some r => if r.live then s1.beginAbort r q none else s1)

/-- LH-C aborts every live step itself: replayed, or ended with a status. -/
def State.abortAll (s : State) (c : Cause) (lt : BitVec 7) (fin : Option Status) : State :=
  (s.intake.steps.filter StepRec.live).foldl (fun (s : State) r =>
    s.beginAbort r { step := r.num, cause := c, lt := lt, overrun := false } fin) s
/-- Steps whose abort is under way end without replay. -/
def State.endAborted (s : State) (st : Status) : State := s.modIntake fun i => { i with
  steps := i.steps.map fun r => if r.live then r else { r with ending := some st, noReplay := true } }

/-! ### Phase 3: the core (R168, R229, R88, R86) -/

/-- Requests of an operation that have not been injected. -/
def State.waitingOf (s : State) (p : Pos) (op : Nat) : List Packet :=
  s.net.filter fun q => q.opId == op && q.place == .source p && q.isRequest
/-- They are cancelled; the window that the sluice had opened for them closes again. -/
def State.dropWaiting (s : State) (p : Pos) (op : Nat) (qs : List Packet) : State :=
  let m := (s.ut p).mesh
  let n := (qs.filter fun q => q.vc == 2 && !m.vc2Wait.contains q.id).foldl (fun n q => n + q.flits) 0
  let gone (i : Nat) : Bool := qs.any fun q => q.id == i
  (({ s with net := s.net.filter fun q => !gone q.id }.modMesh p fun m => { m with vc2Wait := m.vc2Wait.filter fun i => !gone i })).modOp p op
    fun o => { o with vc2 := o.vc2 - n }
/-- The stream line that a request asks for. -/
def Packet.streamLineNo (q : Packet) : Option Nat := match q.tag with | .stream _ _ n => some n | _ => none

/-- The slot is free at once with STEP_ABORTED, and no chamber is signalled. Beyond the rules' words: log entry 46 (DEDUCED). -/
def State.slotAborted (s : State) (p : Pos) (k : Fin 64) (op : Nat) : State :=
  (s.modSlot p k fun _ => { busy := false, status := .stepAborted, op := none }).modMov p fun m =>
    { m with streams := m.streams.filter fun x => x.op != op }

/-- Cancel what a stream has not requested, or whose request has not been injected: it ends at the first line that it does not move. -/
def State.cancelStream (s : State) (p : Pos) (k : Fin 64) (o : MoveOp) (st : Stream) : State :=
  let qs := s.waitingOf p o.id
  let ns := qs.filterMap Packet.streamLineNo
  let s1 := s.dropWaiting p o.id qs
  if st.req ≤ ns.length then s1.slotAborted p k o.id
  else if ns.isEmpty && decide (st.limit ≤ st.req) then s1
  else
    let low := ns.foldl min st.req
    (s1.modStream p o.id fun x => { x.stopAt low .stepAborted with outst := x.outst.filter fun e => !ns.contains e.1 }).modOp p o.id
      fun o => { o with cancelled := true }
/-- Cancel what a slot's operation has not injected (R168); what is injected completes into the slot, a barge without another attempt.
Beyond the rules' words: log entry 46 (DEDUCED). -/
def State.cancelSlot (s : State) (p : Pos) (k : Fin 64) (cc : Nat) : State :=
  match (s.slot p k).op with
  | none => s
  | some o =>
    let qs := s.waitingOf p o.id
    if o.outcome.isSome then s
    else match o.kind with
      | .stream => match s.stream p k with
        | none => s.slotAborted p k o.id
        | some st => s.cancelStream p k o st
      | .send =>
        let out := (s.core p).mov.staging.toList.any fun g => match g with | some e => e.slot == k && e.inFlight | none => false
        let mine (e : Staged) : Bool := e.slot == k
        if qs.isEmpty && out then
          s.modMov p fun m => { m with staging := m.staging.map fun g => g.map fun e => if mine e then { e with deadline := min e.deadline cc } else e }
        else
          ((s.dropWaiting p o.id qs).slotAborted p k o.id).modMov p fun m => { m with
            staging := m.staging.map fun g => g.bind fun e => if mine e then none else some e }
      | .write | .read | .signal =>
        if qs.isEmpty then s
        else
          let s1 := s.dropWaiting p o.id qs
          if !o.injected then s1.slotAborted p k o.id
          else s1.modOp p o.id fun o =>
            let n := o.left - qs.length
            { o with left := n, cancelled := true, outcome := if n = 0 then some .stepAborted else none }
      | _ => s.slotAborted p k o.id

/-- MAIN and HAND stop; a halt by DBG stays. -/
def Control.stop (k : Control) : Control :=
  { k with
    main := if k.main = .halted then .halted else .idle, heldHalt := if k.main = .halted then some .idle else none, held := none
    hand := .idle, curInv := none, hwinOpen := false, lateRun := false, missed := 0, pended := false, freed := false }

/-- The core stops in cycle cc and cancels its moves not yet injected; what MAIN still sent to the tile's chambers is cleared with them. -/
def State.coreStop (s : State) (p : Pos) (cc : Nat) : State :=
  let s1 := (List.finRange 64).foldl (fun (s : State) k => s.cancelSlot p k cc) ((s.run p cc).modCtl p Control.stop)
  ((s1.modMat p Matrix.discard).stopEdge p cc).clearChambers p

def execCoreAbort (p : Pos) (cc : Nat) (s : State) : Out := .next (
  match s.stepAt p with
  | none => s
  | some r => if r.live || cc < (s.ut p).cycle then s else s.coreStop p cc)

/-! ### Before the replay -/

/-- What the copy of a RESTORE entry comes to: done, failed with a status and the failing model address, or it waits. -/
inductive Copied where
  | done (s : State)
  | failed (s : State) (st : Status) (addr : Nat)
  | waits (s : State)

/-- Write 64 bytes at a class 0x0 or 0x1 panel address. -/
def State.restorePut (s : State) (a : Word) (bs : List Byte) : Copied :=
  if addrClass a = 1 then
    match s.modelLine (addrModel a) (some bs) with
    | .waits s1 => .waits s1
    | .ended s1 .done _ => .done s1
    | .ended s1 st _ => .failed s1 st (addrModel a)
  else if h : addrLt a < 120 then
    match s.posOf ⟨addrLt a, h⟩ with
    | none => .failed s .tileFenced 0
    | some p =>
      let f := (s.ut p).flags
      if f.fencedDie || f.fencedUt || f.lost then .failed s .tileFenced 0
      else if f.inTileReset || f.inCoreReset then .failed s .tileReset 0
      else if fld a 0 45 + 64 > 2 ^ 26 then .failed s .illegalDescriptor 0
      else .done (s.modSpd p fun d => d.write (addrOff a) bs)
  else .failed s .illegalDescriptor 0

/-- Copy n lines. -/
def State.restoreLines : Nat → Word → Word → State → Copied
  | 0, _, _, s => .done s
  | n + 1, src, dst, s =>
    let got : Acc :=
      if addrClass src = 1 then s.modelLine (addrModel src) none
      else match s.hostBad (fld src 0 48) 64 with
        | some st => .ended s st []
        | none => .ended s .done (s.hostRead (fld src 0 48) 64)
    match got with
    | .waits s1 => .waits s1
    | .ended s1 .done bs => match s1.restorePut dst bs with
      | .done s2 => State.restoreLines n (src + 64) (dst + 64) s2
      | r => r
    | .ended s1 st _ => .failed s1 st (if addrClass src = 1 then addrModel src else 0)

/-- Copy entries in order. -/
def State.restoreAll : List RestoreEnt → State → Copied
  | [], s => .done s
  | e :: r, s => match State.restoreLines (e.len.toNat / 64) e.src e.dst s with
    | .done s1 => State.restoreAll r s1
    | x => x

/-- R493: the step's RESTORE entries are copied; a failed copy ends the step. -/
def execReplayRestore (step : Nat) (t : Nat) (s : State) : Out := .next (
  let s0 := s.at_ t
  match s0.stepNum step with
  | none => s0
  | some r =>
    if r.live || r.restored || r.ending.isSome || r.recheck || r.retiring.isSome || r.man.lts.any s0.substRuns || !s0.k0Reaches then s0
    else match State.restoreAll r.man.restore s0 with
      | .done s1 => s1.modStep step fun r => { r with restored := true }
      | .waits s1 => s1
      | .failed s1 st a => s1.modStep step fun r => { r with ending := some st, addr := BitVec.ofNat 64 a })

/-- Unit identifier of the HBM frame that a chart entry names. -/
def frameUnit (e : Word) : BitVec 40 := unitId 8 ((entStack e).val + 32 * entFrame e)

/-- R196: the line that STG_ECC_LAST names at the tile of CAUSE_LT is read again. -/
def execHbmErrorRecheck (step : Nat) (t : Nat) (s : State) : Out := .next (
  let s0 := s.at_ t
  match s0.stepNum step with
  | none => s0
  | some r =>
    let at_ : Option Pos := if h : r.causeLt.toNat < 120 then s0.posOf ⟨r.causeLt.toNat, h⟩ else none
    match r.recheck, at_ with
    | true, some p =>
      let a := (s0.ut p).stg.eccAddr
      let e := s0.entry (a.toNat / 65536)
      match s0.modelLine a.toNat none with
      | .waits s1 => s1
      | .ended s1 st _ =>
        let s2 := (s1.modStg p fun g => { g with eccValid := false }).modStep step fun r => { r with recheck := false }
        if st = .done then s2.logErr (frameUnit e) 0 1
        else if st = .memoryUncorrectable && entRo e && entAttr e == 1 then
          (s2.postMig { page := BitVec.ofNat 25 (a.toNat / 65536), kind := .retire }).modStep step fun r => { r with retiring := some a }
        else (s2.logErr (frameUnit e) (statusCode .memoryUncorrectable) 1).modStep step fun r =>
          { r with ending := some .memoryUncorrectable, addr := a.zeroExtend 64 }
    | true, none => s0.modStep step fun r => { r with recheck := false }
    | false, _ => s0)

end Sys2Proof.Machine
end

