-- ==== Sys2Proof/Machine/Pound.lean ====
section
/-! DEFINITION. Gate ticks (R32), what ends and begins with a pound (2.2 to 2.4), the first pound of a step and its replays (R325,
R47), frequency steps and routing flips that a gate tick brings into force (R361, R261), headway counts (R437); the quiet window
(R35, R51), the pound length (R33, R34), stretch (R339) and beacons (R29, R30). -/

namespace Sys2Proof.Machine

open Sys2Proof

/-! ### The pound that ends -/

/-- MHz of a tile's data path: SAFE is S5. -/
def tileMhz (c : TileClock) : Nat := if c.sel = 2 then 475 else stepMhz c.step.toNat

/-- The two words of a stall record (Table 8.9). -/
def stallWords (lt pound : Nat) (ended : Bool) (k : SendStall) : Word × Word :=
  (put64 lt 0 7 ||| put64 k.dest.toNat 7 7 ||| put64 k.berth.toNat 14 6 ||| put64 (b2n k.barge) 20 1 ||| put64 (b2n ended) 21 1 |||
     put64 pound 32 32,
   put64 k.answers.toNat 0 16 ||| put64 (min k.waited (2 ^ 32 - 1)) 16 32)
def Lkh.stall (k : Lkh) (w : Word × Word) : Lkh :=
  { k with stallLog := tblPut (0, 0) k.stallLog k.stallPtr.toNat w, stallPtr := k.stallPtr + 1 }

/-- Stalls of a core in progress in cycle cc: MAIN at stall point 3, and staged barges with a BERTH_FULL answer. -/
def State.stallsNow (s : State) (p : Pos) (cc : Nat) : List SendStall :=
  let c := s.core p
  let main : List SendStall := match c.ctl.main, c.ctl.held with
    | .stalled pt, some i => if pt = 3 then
          let w := s.rS i (xA (xw i))
          [{ dest := w.extractLsb' 0 7, berth := w.extractLsb' 7 6, barge := false, answers := 0, waited := cc - c.ctl.stallStart }] else []
    | _, _ => []
  main ++ c.mov.staging.toList.filterMap fun g => match g with
    | some e => if e.fullAnswers = 0 then none else some (stalledBarge e cc)
    | none => none

/-- R230: the stall records of one core, counted for its step. -/
def State.stallRecords (s : State) (p : Pos) (cc : Nat) : State :=
  match s.stepAt p with
  | none => s.modMov p fun m => { m with stalls := [] }
  | some r =>
    let c := s.core p
    let w (b : Bool) (k : SendStall) : Word × Word := stallWords c.desc.lt.toNat c.ctl.pound.toNat b k
    let l := c.mov.stalls.map (w true) ++ (s.stallsNow p cc).map (w false)
    ((s.addLkh fun k => l.foldl Lkh.stall k).modStep r.num fun r => { r with stalls := satAdd r.stalls l.length }).modMov p
      fun m => { m with stalls := [] }

/-- A core overran: it has not reached pound end, or DBG holds MAIN halted (R123). -/
def Control.behind (k : Control) : Bool := !k.pended || k.main == .halted
/-- The core's step runs and the core has not reached pound end. -/
def State.overruns (s : State) (p : Pos) : Bool :=
  match s.stepAt p with
  | some r => r.phase == .running && (s.core p).ctl.behind && !((s.ltAt p).any fun l => r.finals.contains l)
  | none => false

/-- A synchronised under-tile fires its gate tick: the pound's figures move to TIM_POUND_LAST, every loop entry is cleared (R149),
keys retired in the pound are free again, the quiet window opens. Beyond the rules' words: log entry 47 (DEDUCED). -/
def State.tileTick (s : State) (n t : Nat) (p : Pos) : State :=
  let u := s.ut p
  if u.time.unsync || u.flags.lost then s
  else
    let cc := max u.cycle (u.tick + (min (t - s.lastTick) n * tileMhz u.clk / 1000 - u.pound.stretchQ.toNat / 4))
    let s1 := (s.run p cc).stallRecords p cc
    let o := s1.overruns p
    let clr (q : CtxState) : CtxState := { q with loops := Vector.replicate 4 {} }
    let go (x : Stream) : Stream := match x.wait with
      | some d => { x with wait := none, s := cc + d.toNat }
      | none => x
    s1.modTile p fun k =>
      { core := { k.core with main := clr k.core.main, hand := clr k.core.hand, tow := clr k.core.tow, dbg := clr k.core.dbg
                              ctl := { k.core.ctl with haltLost := 0 }
                              mov := { k.core.mov with streams := k.core.mov.streams.map go } }
        ut := { k.ut with
          poundLast := { k.ut.pound with overrun := o }, pound := { unsync := k.ut.time.unsync }, tick := cc
          flags := { k.ut.flags with quiet := true }, berths := k.ut.berths.map fun b => { b with retired := [] } } }

/-! ### Frequency steps (R361, R40) and routing flips (R261) -/

/-- The VCORE target of a core at a step, within the ranges of Table 12.5. Beyond the rules' words: log entries 3 (DESIGN CHOICE) and 51 (DEDUCED). -/
def coreMv (p : Pos) (step : Nat) : BitVec 10 :=
  let lo := [780, 720, 670, 610, 560, 550].getD step 550
  let n := [71, 81, 81, 81, 71, 31].getD step 31
  BitVec.ofNat 10 (lo + (Config.stepMv p.val step).toNat % n)
/-- The tile switches to its idle PLL, which runs the new step; a falling step lowers the VCORE target now.
Beyond the rules' words: log entry 50 (DEDUCED). -/
def UnderTile.switchClock (u : UnderTile) (p : Pos) (code : BitVec 3) (falls : Bool) : UnderTile :=
  { u with
    clk := { u.clk with sel := if u.clk.sel = 0 then 1 else 0, step := code, locked := false, running := true }
    pwr := if falls then { u.pwr with targetMv := coreMv p code.toNat } else u.pwr }

def ClkStep.cur (c : ClkStep) (b : Bank) : BitVec 3 := match b with | .west => c.wCur | .east => c.eCur
def ClkStep.next (c : ClkStep) (b : Bank) : BitVec 3 := match b with | .west => c.wNext | .east => c.eNext
def ClkStep.tick (c : ClkStep) (b : Bank) : Option Nat := match b with | .west => c.wTick | .east => c.eTick
/-- The request of a bank has taken effect. -/
def ClkStep.took (c : ClkStep) (b : Bank) : ClkStep :=
  match b with
  | .west => { c with wCur := c.wNext, pendW := false, wTick := none, changes := c.changes + 1, emerg := false }
  | .east => { c with eCur := c.eNext, pendE := false, eTick := none, changes := c.changes + 1, emerg := false }

/-- Every pound of a step. -/
def Manifest.allPounds (m : Manifest) : List PoundEnt := (List.range m.pounds).map m.ent
/-- R40: an ABORT_STEP step with a pound that no longer fits at the lowered step, one that has run included, since a replay would run it
again. -/
def State.unfit (s : State) (b : Bank) (r : StepRec) : Bool :=
  r.live && !r.man.late && (stepBanks r.man).contains b &&
    r.man.allPounds.any fun e => !freeboardOk (s.pcfg.len.toNat * stepMhz (s.bankStep b)) e.d.toNat

/-- A bank's request whose tick has come takes effect. Beyond the rules' words: log entry 50 (DEDUCED). -/
def State.stepChange (s : State) (b : Bank) (t : Nat) : State :=
  let c := s.clocks.step
  match c.tick b with
  | none => s
  | some at_ =>
    if t < at_ then s
    else
      let code := c.next b
      let falls := decide ((c.cur b).toNat < code.toNat)
      let s1 := { s with clocks := { s.clocks with step := c.took b } }.allUts fun p u =>
        if bankOf p = b && !u.flags.lost then u.switchClock p code falls else u
      if falls then
        (s1.intake.steps.filter (s1.unfit b)).foldl (fun (s : State) r =>
          s.report { step := r.num, cause := .status .timingUnsafe_, lt := 0x7F, overrun := true }) s1
      else s1

/-- An armed flip takes effect at every network interface and express tap; it is recorded. -/
def State.flip (s : State) : State :=
  if !s.epoch.arm then s
  else
    let v := !s.epoch.cur
    let s1 := { s with epoch := { s.epoch with cur := v, arm := false, free := false, flips := s.epoch.flips + 1, flippedAt := s.now } }.allUts
      fun _ u => { u with mesh := { u.mesh with epoch := v } }
    s1.logRec 0x30 .firmware [s1.epoch.flips.toNat, b2n v, 0]

/-! ### Headway (R437) -/

/-- The interval that ends, for one present LT whose interval no ended step has counted: sounding, Moored or idle; a step's own
intervals are charged with it. Beyond the rules' words: log entry 49 (DEDUCED). -/
def State.countLt (s : State) (l : Lt) : State :=
  if s.ltAbsent l || s.lkh.hwCounted.contains l then s
  else if s.lkh.pstate = .moored then s.addLkh fun k => { k with hwMoored := k.hwMoored + 1 }
  else if s.soundingRuns l then s.addLkh fun k => { k with hwSound := k.hwSound + 1 }
  else match s.stepOf l with
    | none => s.addLkh fun k => { k with hwIdle := k.hwIdle + 1 }
    | some r =>
      if r.phase = .admitted || (r.phase = .running && r.poundIdx ≥ r.man.pounds) then s.addLkh fun k => { k with hwIdle := k.hwIdle + 1 }
      else if r.phase = .running then s.modStep r.num fun r => { r with attemptPounds := r.attemptPounds + 1 }
      else (s.addLkh fun k => { k with hwLost := k.hwLost + 1 }).modStep r.num fun r => { r with lost := r.lost + 1 }
def State.countHeadway (s : State) : State :=
  ((List.finRange 120).foldl (fun (s : State) l => s.countLt l) s).addLkh fun k => { k with hwCounted := [] }

/-- A pound of every sounding has ended; one whose signature has been compared is over (R415). -/
def State.soundTick (s : State) : State :=
  let l := (s.repair.sounding.map fun x => (x.1, x.2.1 - 1, x.2.2)).filter fun x => !(x.2.2 && x.2.1 == 0)
  { s with repair := { s.repair with sounding := l } }

/-! ### The pound that begins -/

/-- A bank with a die that carries an LT of the step is below the step at which the step was admitted (R60). -/
def State.slowed (s : State) (r : StepRec) (b : Bank) : Bool :=
  ((s.stepTiles r).any fun p => bankOf p == b) && decide ((s.bankStep b) > (match b with | .west => r.stepW | .east => r.stepE).toNat)

/-- More than 64 corrected scratchpad errors in the pound that ends are an event of Table 15.8. -/
def State.corrReport (s : State) (p : Pos) : State :=
  let d := (s.core p).spd
  if d.corrected = d.corrTick then s
  else
    let s1 := s.modSpd p fun d => { d with corrTick := d.corrected }
    if 64 < (d.corrected - d.corrTick).toNat then s1.tellLt p .scratchErrors else s1

/-- Freeboard of D cycles at a position (Table 5.3). Beyond the rules' words: log entry 47 (DEDUCED). -/
def State.freeboard (s : State) (p : Pos) (d : Nat) : BitVec 32 := BitVec.ofNat 32 (s.pcfg.len.toNat * tileMhz (s.ut p).clk - d)

/-- TIM_POUND_STAT and CR_PATIENCE of the new pound. Beyond the rules' words: log entry 47 (DEDUCED). -/
def State.newPound (s : State) (p : Pos) : State :=
  let u := s.ut p
  if u.flags.lost then s
  else if u.time.unsync then s.modUt p fun u => { u with pound := { u.pound with canalAsync := s.banksDiffer } }
  else
    let thr := match s.stepAt p with | some r => s.slowed r (bankOf p) | none => false
    let d := match s.stepAt p with
      | some r => if r.phase = .running then (r.man.ent (s.core p).ctl.pound.toNat).d.toNat else 0
      | none => 0
    let f := s.freeboard p d
    (s.modUt p fun u => { u with pound := { u.pound with throttled := thr, canalAsync := s.banksDiffer } }).modCtl p fun k =>
      { k with patience := Vector.replicate 4 f }

/-- MAIN starts a slice at the tile's gate tick (R131); the regulator treats it as an UP note (R342). -/
def State.startSlice (s : State) (p : Pos) (j : Nat) : State :=
  let cc := (s.ut p).tick
  let k0 := (s.core p).ctl
  let s1 := (s.modCtl p fun k => { k with
      main := if k.main = .halted then .halted else .issuing, heldHalt := if k.main = .halted then some .issuing else k.heldHalt
      lastStall := if k.main = .stalled 5 then stallReg 5 (cc - k.stallStart) else k.lastStall
      pended := false, lateRun := false, missed := 0, hwinOpen := false, freed := false, pound := BitVec.ofNat 32 j
      hand := if k.hand = .running then .suspended else k.hand }).modTile p fun t =>
    { core := t.core.modCtx .main fun q => { q with nextIdx := k0.resume, nextCc := cc, opened := false }
      ut := { t.ut with pwr := t.ut.pwr.note false cc } }
  if istoreBad (s.core p) k0.resume.toNat then s1.fault p .main k0.resume 0 .istoreBounds else s1

/-- Pound j begins for a step: every core that is not late starts its slice; without a slice the core has reached pound end, with
FINAL in the last pound (R133). -/
def State.startPound (s : State) (r : StepRec) (j : Nat) : State :=
  let slice := (r.man.ent j).d != 0
  let s1 := (s.stepTiles r).foldl (fun (s : State) p =>
    if !(s.core p).ctl.pended || (s.core p).ctl.lateRun then s
    else if slice then s.startSlice p j
    else s.modCtl p fun k => { k with pound := BitVec.ofNat 32 j, lateRun := false, missed := 0 }) s
  s1.modStep r.num fun r => { r with
    poundIdx := j
    finals := if !slice && j + 1 = r.man.pounds then r.man.lts.filter fun l => match s.coreOf l with
        | some c => c.ctl.pended && !c.ctl.lateRun
        | none => true
      else r.finals
    throttled := r.throttled || s.slowed r .west || s.slowed r .east }

/-- A core at the first gate tick of a step or replay (R114, R115, R161, R265, R211). A halt stays for a DEBUG step only; for another it
waits until the step ends (R123). Beyond the rules' words: log entry 48 (DEDUCED). -/
def Tile.stepStart (t : Tile) (e : LtEnt) (num : Nat) (attempt : BitVec 4) (debug : Bool) : Tile :=
  let clr (q : CtxState) : CtxState :=
    { q with s := Vector.replicate 32 0, a := Vector.replicate 16 0, p := Vector.replicate 8 false, sendStat := .done }
  let c := t.core
  { core := { c with
      main := clr c.main, hand := clr c.hand, vMain := Vector.replicate 64 0, vHand := Vector.replicate 4 0, pend := []
      tow := { c.tow with sendStat := .done }, dbg := { c.dbg with sendStat := .done }
      mov := { c.mov with slots := Vector.replicate 64 {}, staging := Vector.replicate 8 none, streams := [], stalls := [] }
      ctl := { c.ctl with
        main := if c.ctl.main = .halted && debug then .halted else .idle
        heldHalt := if c.ctl.main = .halted && debug then some .idle else none
        haltWanted := c.ctl.haltWanted || (c.ctl.main == .halted && !debug), freed := false
        held := none, lastStall := 0, hand := .idle, curInv := none, queue := [], handLast := 0, hwinOpen := false, pended := true
        resume := e.entry, lateRun := false, missed := 0, pound := 0, vl := Vector.replicate 4 512
        mainFault := 0, stopped := (c.ctl.stopped.set 0 false).set 1 false }
      mat := if e.keeperReq then { c.mat with keeper := { c.mat.keeper with
          thresh := e.thresh, level := if e.level = 3 then c.mat.keeper.level else e.level } } else c.mat }
    ut := { t.ut with
      stepNo := BitVec.ofNat 12 num, attempt := attempt, pwr := { t.ut.pwr with state := 0 }
      mesh := { t.ut.mesh with w := t.ut.mesh.wmax }
      berths := Vector.ofFn fun k : Fin 64 => { t.ut.berths[k] with declared := bit e.berths k.val }
      windows := Vector.ofFn fun k : Fin 256 => { t.ut.windows[k] with declared := e.declares k.val } } }

/-- Every LT has a core in service that nothing else holds. -/
def State.stepReady (s : State) (r : StepRec) : Bool :=
  r.man.lts.all fun l => match s.posOf l with
    | none => false
    | some p => s.dieUp p && !s.substRuns l && !s.soundingRuns l

/-- The first pound of a step or of a replay: consignments and collectives are loaded (R325). Beyond the rules' words: log entry 48 (DEDUCED). -/
def State.beginStep (s : State) (r : StepRec) : State :=
  let s1 := r.man.ltEnts.foldl (fun (s : State) e => match s.posOf e.lt with
    | some p => s.modTile p fun t => t.stepStart e r.num r.attempt r.man.debug
    | none => s) s
  let load (q : Vector Port 18) (c : PortN × Fin 256 × Consign) : Vector Port 18 :=
    vmod q c.1 fun x => { x with cons := x.cons.set c.2.1 { c.2.2 with step := r.num } }
  let s2 := { s1 with ports := r.man.consign.foldl load s1.ports }.modStep r.num fun r => { r with
    phase := .running, colls := r.man.colls, finals := [], poundsRun := r.poundsRun + 1 }
  s2.startPound r 0

/-- R134 and R428: after a repair the step cannot run as it was admitted. -/
def State.unsafeNow (s : State) (r : StepRec) : Bool :=
  (r.man.lts.any fun l => match s.coreOf l with | some c => decide (s.ltpos[l].added.toNat > c.img.slack.toNat) | none => false) ||
    ((r.man.poundEnts.any fun p => p.timed) && (stepBanks r.man).any s.bankUns)

/-- An overrun under CONTINUE_LATE: the core runs late, one more gate tick is missed, and a stall at points 1 to 4 ends (R41, R125). -/
def Control.runLate (k : Control) : Control :=
  { k with lateRun := true, missed := k.missed + 1, freed := k.freed || (match k.main with | .stalled pt => pt != 5 | _ => false) }
/-- A running step at a gate tick: overrun under its policy (R39, R41, R43), else its next pound. An LT whose PEND FINAL is counted has
nothing left to be late for. -/
def State.runOn (s : State) (r : StepRec) : State :=
  let behind := r.man.lts.filter fun l => match s.coreOf l with | some c => c.ctl.behind && !r.finals.contains l | none => false
  let ask (l : Lt) (s : State) : State := s.report { step := r.num, cause := .status .timingUnsafe_, lt := BitVec.ofNat 7 l.val, overrun := true }
  if s.aborts.any fun a => a.step == r.num then s
  else if r.man.late then
    let s1 := (behind.filterMap s.posOf).foldl (fun (s : State) p => s.modCtl p Control.runLate) s
    match behind.find? fun l => match s1.coreOf l with | some c => decide (c.ctl.missed ≥ 3) | none => false with
    | some l => ask l s1
    | none => if r.poundIdx + 1 < r.man.pounds then s1.startPound r (r.poundIdx + 1)
        else s1.modStep r.num fun r => { r with poundIdx := r.man.pounds }
  else match behind with
    | l :: _ => ask l s
    | [] => if r.poundIdx + 1 < r.man.pounds then s.startPound r (r.poundIdx + 1)
        else s.modStep r.num fun r => { r with poundIdx := r.man.pounds }

/-- An aborted step whose drain pound is over replays, or ends, or waits until it is replay-ready. -/
def State.replayOn (s : State) (r : StepRec) : State :=
  let stay (s : State) : State := s.modStep r.num fun r => { r with phase := .repairing, poundsRun := r.poundsRun + 1 }
  if r.ending.isSome || r.recheck || r.retiring.isSome || !s.stepReady r then stay s
  else if s.unsafeNow r then stay (s.modStep r.num fun r => { r with ending := some .timingUnsafe_ })
  else if !r.restored && !r.man.restore.isEmpty then stay s
  else (s.modStep r.num fun r => { r with replaysRun := r.replaysRun + 1 }).beginStep r

/-- A step at a gate tick at panel time t. Beyond the rules' words: log entry 49 (DEDUCED). -/
def State.stepTick (s : State) (t : Nat) (n : Nat) : State :=
  match s.stepNum n with
  | none => s
  | some r =>
    let more (s : State) : State := s.modStep n fun r => { r with poundsRun := r.poundsRun + 1 }
    match r.phase with
    | .admitted =>
      if r.ending.isNone && decide (r.tAdmit + 4000 ≤ t) && decide (r.man.notBefore ≤ t) && s.stepReady r &&
          !(s.aborts.any fun a => a.step == n) then s.beginStep r else s
    | .running => (more s).runOn r
    | .aborting => (more s).modStep n fun r => { r with phase := .draining }
    | .draining => s.replayOn r
    | .repairing => s.replayOn r

/-- R32. The counts of gate intervals that other rules need move with it (R415, R353). -/
def execGateTick (t : Nat) (s : State) : Out := .next (
  let n := s.poundNs
  if n = 0 || t % n ≠ 0 || t ≤ s.lastTick then s
  else
    let s1 := allPos.foldl (fun (s : State) p => s.tileTick n t p) (s.at_ t)
    let s2 := ((s1.stepChange .west t).stepChange .east t).flip.countHeadway.soundTick
    let s3 := (s2.intake.steps.map fun r => r.num).foldl (fun (s : State) k => s.stepTick t k) s2
    let s4 := allPos.foldl (fun (s : State) p => s.newPound p) s3
    let s5 := (allPos.foldl (fun (s : State) p => s.corrReport p) s4).slewed
    { s5 with
      tsrc := { s5.tsrc with gateSlew := s5.tsrc.slewTick, slewTick := 0 }
      lastTick := t, repair := { s5.repair with pounds := s5.repair.pounds + 1, timeouts := [] }
      power := { s4.power with lowTicks := s4.power.lowTicks + 1 }, therm := { s4.therm with coolTicks := s4.therm.coolTicks.map fun k => k + 1 } })

/-! ### The quiet window -/

/-- The window opened with the tile's gate tick; it is at cycle k of it at the earliest. -/
def State.inWindow (s : State) (p : Pos) (k : Nat) (f : State → State) : State :=
  if (s.ut p).flags.quiet then f (s.run p (max (s.ut p).cycle ((s.ut p).tick + k))) else s

def execQuietWindowRelease (p : Pos) (s : State) : Out := .next (s.inWindow p 64 fun s =>
  s.modUt p fun u => { u with flags := { u.flags with quiet := false } })

/-- A calibrated LAT of a step (Table 13.9). -/
def latAt (x : BitVec 24) (step : Nat) : BitVec 4 := x.extractLsb' (4 * step) 4
/-- A seam map as MSH_SEAM_MAPd holds it (R429). Beyond the rules' words: log entry 38 (DEDUCED). -/
def SeamMap.take (m : SeamMap) : SeamMap :=
  match m.pend with
  | some v => { repair0 := v.extractLsb' 0 6, repair1 := v.extractLsb' 6 6, out := bit v 12, pend := none }
  | none => m
/-- The crossing between p and its neighbour in direction d joins the banks. -/
def canalSeam (p : Pos) (d : Nat) : Bool := (colOf p == 5 && d == 1) || (colOf p == 6 && d == 3)
/-- A crossing after recentring: LAT of the step in force, MODE of its kind (R54, R55). -/
def Xing.centre (x : Xing) (lat : BitVec 4) (canal async : Bool) : Xing :=
  { x with
    slipped := false, driftQ := 0, lat := lat
    mode := if x.mode = 0 || x.dropped then 0 else if !canal then 1 else if async then 3 else 2 }

/-- Every receiving crossing of p recentres; a pending map of a seam toward p takes effect with it. -/
def execCrossingRecentre (p : Pos) (s : State) : Out := .next (s.inWindow p 40 fun s =>
  let s1 := s.modUt p fun u => { u with
    xing := Vector.ofFn fun d : Fin 4 => u.xing[d].centre (latAt u.xlat[d] (s.bankStep (bankOf p))) (canalSeam p d.val) s.banksDiffer
    spareX := u.spareX.map fun x => x.centre x.lat false false }
  [Dir.n, Dir.e, Dir.s, Dir.w].foldl (fun (s : State) d => match neighbour p d with
    | some q => s.modMesh q fun m => { m with seam := vmod m.seam (dirNum (opposite d)) SeamMap.take }
    | none => s) s1)

/-! ### The pound length -/

/-- R33. -/
def State.poundLen (s : State) (v : BitVec 15) : State :=
  if v.toNat < 20 || v.toNat > 20000 then { s with pcfg := { s.pcfg with err := .illegalDescriptor } }
  else { s with pcfg := { s.pcfg with next := v, err := .done, pend := v != s.pcfg.len } }
def execPoundLenWrite (v : BitVec 15) (s : State) : Out := .next (s.poundLen v)

/-- R34: at a gate tick with no accepted step. -/
def execPoundLengthChange (t : Nat) (s : State) : Out := .next (
  if s.pcfg.pend && s.intake.steps.isEmpty && t == s.lastTick then
    { s with pcfg := { s.pcfg with len := s.pcfg.next, pend := false } }
  else s)

/-! ### Stretch and drift (R339, R37, R50) -/

/-- Drift of crossing d of tile p changes by k quarter-periods; past three periods it raises SLIP. -/
def State.drift (s : State) (p : Pos) (d : Fin 4) (k : Int) : State :=
  let x := (s.ut p).xing[d]
  let s1 := s.modUt p fun u => { u with xing := vmod u.xing d fun x => { x with driftQ := x.driftQ + k } }
  let n := x.driftQ + k
  if (x.mode = 1 || x.mode = 2) && !x.slipped && (n > 12 || n < -12) then s1.slip p d else s1
/-- The same for spare link i of a spare position (R259). -/
def State.driftSpare (s : State) (p : Pos) (i : Fin 5) (k : Int) : State :=
  let x := (s.ut p).spareX[i]
  let s1 := s.modUt p fun u => { u with spareX := vmod u.spareX i fun x => { x with driftQ := x.driftQ + k } }
  let n := x.driftQ + k
  if x.mode = 1 && !x.slipped && (n > 12 || n < -12) then s1.slipSpare p i else s1

/-- Stretch of 1 to 4 quarter-periods in a core whose lowest reading is mv; a fall counts once until the reading recovers (R339). The spec does not say which sensor reads lowest.
Beyond the rules' words: log entry 3 (DESIGN CHOICE). -/
def execDroopStretch (p : Pos) (mv : Nat) (quarters : Fin 4) (s : State) : Out := .next (
  let f := s.freeWord
  let s1 := f.2.modUt p fun u => { u with pwr := { u.pwr with minMv := BitVec.ofNat 10 mv, minIdx := f.1.extractLsb' 0 4 } }
  if (s.ut p).pwr.targetMv.toNat ≤ mv + 20 then s1
  else
    let q := quarters.val + 1
    let r := (s.ut p).pwr
    let falls := r.minMv = 0 || decide (r.targetMv.toNat ≤ r.minMv.toNat + 20)
    let s2 := s1.modUt p fun u => { u with
      pwr := { u.pwr with droop := if falls then u.pwr.droop + 1 else u.pwr.droop }, pound := { u.pound with stretchQ := satAdd u.pound.stretchQ q } }
    let s3 := [Dir.n, Dir.e, Dir.s, Dir.w].foldl (fun (s : State) d => match neighbour p d with
      | some x => (s.drift p (dirNum d) q).drift x (dirNum (opposite d)) (-q)
      | none => s) s2
    (spareLinks p).foldl (fun (s : State) l => s.driftSpare l.1 l.2 (if l.1 = p then q else -q)) s3)

/-! ### Beacons -/

/-- One beacon at an under-tile, from LH-C or LH-N, that was in flight for a time in ns: a slew of at most 50 ppm of 32 µs, in 2⁻¹⁶ ns, toward
the beacon's time plus the calibrated path delay, and the correction in core cycles. -/
def UnderTile.beacon (u : UnderTile) (north : Bool) (flight : Nat) : UnderTile :=
  let off : Int := u.time.err + ((flight : Int) - ((if north then u.time.pathDelayN else u.time.pathDelay : Nat) : Int)) * 65536
  let k : Int := max (-104857) (min 104857 off)
  let good := u.time.goodBeacons + 1
  let cause := u.clk.holdover
  let clear := decide (good ≥ 4) && !cause
  { u with
    time := { u.time with
      err := u.time.err - k, lastOffset := BitVec.ofInt 8 (-(k * tileMhz u.clk / 65536000)), beaconCount := u.time.beaconCount + 1
      goodBeacons := if cause then 0 else good, unsync := u.time.unsync && !clear }
    pound := { u.pound with unsync := u.time.unsync && !clear } }

/-- R29: the beacon of LH-C, or of LH-N in its place, reaches every powered under-tile after its time of flight, which the spec does not give.
Beyond the rules' words: log entry 95 (DESIGN CHOICE). -/
def execTimeBeacon (t : Nat) (s : State) : Out := .next (
  let s0 := s.at_ t
  let north := s0.lkh.keeperHouse == 0
  s0.allUts fun p u => if u.pwr.vnet && !u.flags.lost then u.beacon north (Config.beaconFlight p.val north) else u)

/-- The tile is unsynchronised, its step is aborted and its die counts as failed; the spec gives no code for the cause (log entry 3). -/
def State.unsynced (s : State) (p : Pos) (f : TileTime → TileTime) : State :=
  let w := s.freeWord
  let c := allStatuses.getD (w.1.toNat % 21) .done
  ((w.2.modUt p fun u => { u with time := f { u.time with unsync := true, goodBeacons := 0 }, pound := { u.pound with unsync := true } }).abortAt p
    (.status c)).tellRepair (.unsynced p)
/-- R30. -/
def execBeaconMiss (p : Pos) (refLoss : Bool) (t : Nat) (s : State) : Out := .next (
  (s.at_ t).unsynced p fun k => if refLoss then { k with refLoss := true } else { k with beaconMiss := true })

end Sys2Proof.Machine
end

