-- ==== Sys2Proof/Machine/RegMap.lean ====
section
/-! DEFINITION. Register space (1.6.1): what each register of Table 1.8's blocks reads as, by its offset. An offset of a described
block that no table names reads 0 (R10, log entry 20). The VEC_ and MGT_ blocks are described nowhere but for MGT_PCIE_CFG.RUNTIME: their words
read as free values (log entry 22). -/

namespace Sys2Proof.Machine

open Sys2Proof

/-- A register word from its fields: value, lowest bit, length. -/
def pk (l : List (Nat × Nat × Nat)) : Word := l.foldl (fun w e => w ||| put64 e.1 e.2.1 e.2.2) 0
/-- Word n of a long field. -/
def bigWord {w : Nat} (v : BitVec w) (n : Nat) : Word := v.extractLsb' (64 * n) 64

/-! ### Tile space -/

/-- Table 15.12 for an LT. -/
def State.posWord (s : State) (l : Lt) : Word :=
  let x := s.ltpos[l]
  if s.ltAbsent l || !x.present then pk [(homePos l.val, 0, 8), (homePos l.val, 8, 8)]
  else pk [(x.pos.toNat, 0, 8), (x.home.toNat, 8, 8), (x.added.toNat, 16, 4), (b2n x.spareLink, 20, 1), (b2n x.borrowed, 21, 1),
    (b2n x.detoured, 22, 1), (b2n (s.bankUns (ltBank l)), 23, 1), (b2n x.residentLost, 24, 1), (b2n x.narrow, 25, 1), (1, 26, 1),
    (x.moves.toNat, 32, 16)]
/-- TIL_POS of a position; one that carries no LT shows its own position and PRESENT 0 (log entry 20). -/
def State.tilPos (s : State) (p : Pos) : Word :=
  match s.ltAt p with
  | some l => s.posWord l
  | none => pk [(p.val, 0, 8), (p.val, 8, 8)]

/-- Table 3.2. Beyond the rules' words: log entry 20 (DESIGN CHOICE). -/
def CorDesc.word (d : CorDesc) : Word :=
  if d.disabled then pk [(0x7F, 0, 7), (16, 8, 5), (1, 15, 1), (0x1F, 16, 5), (0x1F, 21, 5), (0x3F, 32, 6)]
  else pk [(d.lt.toNat, 0, 7), (d.cgPresent.toNat, 8, 5), (b2n d.narrow, 13, 1), (b2n d.spareUsed, 14, 1), (d.bad0.toNat, 16, 5),
    (d.bad1.toNat, 21, 5), (d.fmtMask.toNat, 32, 6), (d.mcode.toNat, 40, 8)]
def mainCode : MainSt → Nat × Nat
  | .idle => (0, 0) | .issuing => (1, 0) | .stalled p => (2, p.val) | .halted => (3, 0)
def handCode : HandSt → Nat
  | .idle => 0 | .running => 1 | .suspended => 2
/-- Table 5.13. -/
def Core.ctxStat (c : Core) : Word :=
  let m := if c.ctl.sounding then (1, 0) else mainCode c.ctl.main
  let i := match c.ctl.held with | some i => i.idx | none => c.main.nextIdx
  pk [(m.1, 0, 2), (m.2, 2, 3), (handCode c.ctl.hand, 5, 2), (b2n c.ctl.towBusy, 7, 1), (b2n c.ctl.dbgAttached, 8, 1), (i.toNat, 16, 14),
    (min c.ctl.queue.length 255, 32, 8)]
/-- Table 5.12. -/
def FaultReg.word (f : FaultReg) : Word :=
  pk [(f.code.toNat, 0, 8), (f.context.toNat, 8, 2), (b2n f.hw, 10, 1), (b2n f.valid, 11, 1), (f.slots.toNat, 12, 4), (f.index.toNat, 16, 14),
    (f.pound.toNat, 32, 32)]
/-- Table 6.10. -/
def MoveUnit.stat (m : MoveUnit) : Word :=
  pk [(m.refused.toNat, 0, 16), (m.lastSlot.toNat, 16, 6), (b2n m.lastValid, 22, 1), (m.lastStatus.toNat, 24, 8),
    ((m.slots.toList.filter fun k => k.busy).length, 32, 7), ((m.staging.toList.filter fun g => g.isSome).length, 39, 4)]
def MoveUnit.busyWord (m : MoveUnit) : Word :=
  BitVec.ofNat 64 ((List.finRange 64).foldl (fun n k => if m.slots[k].busy then n + 2 ^ k.val else n) 0)
def State.corReg (s : State) (p : Pos) (o : Nat) : Word :=
  let c := s.core p
  match o with
  | 0x00 => c.desc.word | 0x08 => c.ctxStat | 0x10 => c.ctl.fault.word | 0x18 => c.mov.stat | 0x20 => c.mov.busyWord | _ => 0
/-- Tables 3.6 to 3.9. -/
def Matrix.reg (m : Matrix) (o : Nat) : Word :=
  match o with
  | 0x00 => pk [(m.margin.toNat, 0, 3)]
  | 0x08 => pk [(m.mismatch.toNat, 0, 16), (m.lastRow.toNat, 16, 9), (b2n m.lastValid, 25, 1), (b2n m.lastOvf, 26, 1), (m.skipped.toNat, 32, 16)]
  | 0x10 => pk [(m.keeper.thresh.toNat, 0, 12), (m.keeper.level.toNat, 12, 2)]
  | 0x18 => pk [(m.keeper.filled.toNat, 0, 16), (m.keeper.unDown.toNat, 16, 16), (m.keeper.unUp.toNat, 32, 16), (m.keeper.shortLead.toNat, 48, 16)]
  | _ => 0
/-- Tables 7.4 and 7.5, SPD_ECC_LAST and SPD_SCRUB. -/
def Scratch.reg (d : Scratch) (o : Nat) : Word :=
  if o < 0x40 then
    let r := vat d.res (o / 8)
    pk [(r.base.toNat, 0, 10), (r.len.toNat, 16, 11), (b2n r.valid, 32, 1)]
  else match o with
    | 0x40 => pk [(d.corrected.toNat, 0, 32), (d.uncorr.toNat, 32, 16), (b2n d.lastValid, 48, 1), (d.lastPort.toNat, 49, 3)]
    | 0x48 => pk [(d.lastAddr.toNat / 4 * 4, 0, 26)]
    | 0x50 => pk [(b2n d.scrubEn, 0, 1), (d.passes.toNat, 32, 32)]
    | _ => 0
/-- Tables 7.10, 7.11 and STG_ECC_LAST. -/
def Staging.reg (g : Staging) (o : Nat) : Word :=
  match o with
  | 0x00 => pk [(g.ringMib.toNat, 0, 4), (b2n g.flush, 8, 1)]
  | 0x08 => pk [(g.late.toNat, 0, 16), (g.demoted.toNat, 16, 16), (g.migWait.toNat, 32, 16)]
  | 0x10 => pk [(g.eccAddr.toNat, 0, 41), (b2n g.eccValid, 63, 1)]
  | _ => 0
def LtMapEnt.word (e : LtMapEnt) : Word := pk [(e.pos.toNat, 0, 8), (b2n e.spareLink, 8, 1), (b2n e.present, 9, 1)]
def SeamMap.word (m : SeamMap) : Word := pk [(m.repair0.toNat, 0, 6), (m.repair1.toNat, 6, 6), (b2n m.out, 12, 1)]
/-- Tables 9.4, 9.5, 9.7. -/
def State.mshReg (s : State) (p : Pos) (o : Nat) : Word :=
  let m := (s.ut p).mesh
  if o < 0x40 then match o with
    | 0x00 => pk [(b2n m.profile, 0, 1)]
    | 0x08 => pk [(m.wmax.toNat, 0, 11), (m.stepF.toNat, 11, 5), (m.w.toNat, 16, 11), (m.halvings.toNat, 32, 16)]
    | 0x10 => pk [(m.thresh.toNat, 0, 6)]
    | 0x18 => pk [(m.weights.toNat, 0, 40)]
    | 0x20 => pk [(m.tmrUs.toNat, 0, 11)]
    | 0x28 => pk [(m.hold.toNat, 0, 8), (b2n m.combEn, 8, 1)]
    | 0x30 => pk [(min (s.routerOld p) 65535, 0, 16), (b2n m.epoch, 16, 1)]
    | 0x38 => pk [(m.timeouts.toNat, 0, 16), (m.lateAns.toNat, 16, 16), (m.dropped.toNat, 32, 12), (m.expWait.toNat, 44, 12),
        (m.badHdr.toNat, 56, 6), (b2n m.badWrite, 62, 1)]
    | _ => 0
  else if 0x1000 ≤ o ∧ o < 0x1800 then (ltMapAt m (decide (o ≥ 0x1400)) (o % 0x400 / 8)).word
  else if 0x2000 ≤ o ∧ o < 0x3000 ∧ o % 0x800 / 8 < 149 then
    let e := ovrAt m (decide (o ≥ 0x2800)) (o % 0x800 / 8)
    pk [(e.req.toNat, 0, 3), (e.rpl.toNat, 3, 3)]
  else if 0x3000 ≤ o ∧ o < 0x3020 then (vat m.seam (o % 0x20 / 8)).word
  else 0
/-- Tables 8.3, 8.5, 8.6, 8.12, 8.13. -/
def State.brtReg (s : State) (p : Pos) (o : Nat) : Word :=
  let u := s.ut p
  if o < 0x400 then
    let b := vat u.berths (o / 16)
    if o % 16 = 0 then
      pk [(b2n b.open_, 0, 1), (b2n b.weir, 1, 1), (b2n b.ordered, 2, 1), (b2n b.declared, 3, 1), (b.excess.toNat, 4, 12), (b.gen.toNat, 16, 16),
        (b.queue.length, 32, 13), (b.fullAnswers.toNat, 48, 16)]
    else match b.queue with
      | [] => pk [(b.head, 0, 12), (1, 14, 1)]
      | e :: _ => pk [(e.idx, 0, 12), (b2n e.whole, 12, 1), (b2n (toHandler (s.core p) e.hdr), 13, 1), (hdrSrc e.hdr, 16, 7), (hdrLen e.hdr, 23, 13),
          (hdrHandler e.hdr, 36, 8)]
  else if 0x1000 ≤ o ∧ o < 0x2000 then
    let w := vat u.windows (o % 0x1000 / 16)
    if o % 16 = 0 then
      pk [(b2n w.open_, 0, 1), (b2n w.declared, 1, 1), (w.gen.toNat, 16, 16),
        (min (w.accs.filter fun a => a.refused.isNone).length 65535, 32, 16), (w.refused.toNat, 48, 16)]
    else pk [(w.base.toNat, 0, 26), (w.length.toNat, 32, 27)]
  else if o = 0x2000 then pk [(u.stepNo.toNat, 0, 12), (u.attempt.toNat, 12, 4)]
  else 0
/-- MAIN is stalled on chamber i of its own tile. -/
def Core.waitsOn (c : Core) (i : Nat) : Bool :=
  match c.ctl.main, c.ctl.held with
  | .stalled pt, some k =>
    let w := slotWord k.bundle .x
    pt == 1 && !xCn w && (xChamber w).toNat == i
  | _, _ => false
/-- Table 8.15. -/
def State.chbReg (s : State) (p : Pos) (o : Nat) : Word :=
  if o < 0x8000 then
    let c := (s.ut p).chamber (o / 16)
    if o % 16 = 0 then pk [(c.count.toNat, 0, 32), (c.target.toNat, 32, 32)]
    else pk [(b2n c.reached, 0, 1), (b2n ((s.core p).waitsOn (o / 16)), 1, 1), (b2n c.sat, 2, 1)]
  else 0
/-- Tables 12.10 to 12.12. -/
def Regulator.reg (r : Regulator) (amps : BitVec 7) (o : Nat) : Word :=
  match o with
  | 0x00 => pk [(r.targetMv.toNat, 0, 10), (r.boostMv.toNat, 16, 5)]
  | 0x08 => pk [(r.req.toNat, 0, 2), (r.state.toNat, 2, 2), (b2n r.pending, 4, 1), (b2n r.refused, 5, 1)]
  | 0x10 => pk [(r.minMv.toNat, 0, 10), (r.minIdx.toNat, 10, 4), (if r.vcore then amps.toNat else 0, 16, 7), (b2n r.vnetOcp, 23, 1), (r.droop.toNat, 32, 32)]
  | _ => 0
/-- DRIFT in whole periods. -/
def Xing.word (x : Xing) : Word :=
  pk [(x.lat.toNat, 0, 4), (x.mode.toNat, 4, 2), (b2n x.slipped, 6, 1), ((BitVec.ofInt 8 (Int.tdiv x.driftQ 4)).toNat, 8, 8), (x.slipCount.toNat, 32, 32)]
/-- Tables 13.8, 2.7, 13.9. -/
def State.clkReg (s : State) (p : Pos) (o : Nat) : Word :=
  let u := s.ut p
  let c := u.clk
  if o = 0 then pk [(c.sel.toNat, 0, 2), (b2n c.dp0, 2, 1), (b2n c.dp1, 3, 1), (b2n c.exp, 4, 1), (b2n c.refSel, 5, 1), (b2n c.priOk, 6, 1),
      (b2n c.altOk, 7, 1), (b2n c.holdover, 8, 1), (b2n c.wdog, 9, 1), (b2n c.lockLost, 10, 1), (c.step.toNat, 12, 3), (c.failovers.toNat, 16, 16),
      (c.lateLock.toNat, 32, 16)]
  else if 0x40 ≤ o ∧ o < 0x60 then (vat u.xing (o % 0x20 / 8)).word
  else if 0x60 ≤ o ∧ o < 0x80 then (vat u.xlat (o % 0x20 / 8)).zeroExtend 64
  else 0
/-- Sites 0, 1 and 5 carry a pair (Table 14.1). -/
def sitePaired (n : Nat) : Bool := n == 0 || n == 1 || n == 5
/-- Tables 14.4 and 14.5. -/
def TileTherm.reg (t : TileTherm) (o : Nat) : Word :=
  if o < 0x30 then
    let x := vat t.sites (o / 8)
    pk [(x.a.toNat, 0, 11), (b2n x.aBad, 11, 1), (x.b.toNat, 16, 11), (b2n x.bBad, 27, 1), (b2n (sitePaired (o / 8)), 28, 1), (b2n x.split, 29, 1),
      (x.gov.toNat, 32, 11), (b2n x.govNone, 43, 1)]
  else if o = 0x30 then
    pk [(t.hot.toNat, 0, 11), (b2n t.sensorSplit, 11, 1), (b2n t.heldS4, 12, 1), (b2n t.throttle, 13, 1), (b2n t.trip, 14, 1), (t.splitEvents.toNat, 16, 16)]
  else 0
/-- The tile's local panel time, units of 2⁻¹⁶ ns. -/
def State.localTime (s : State) (p : Pos) : Nat := (Int.ofNat (s.now * 65536) + (s.ut p).time.err).toNat
/-- Table 2.5. -/
def PoundStat.word (x : PoundStat) : Word :=
  pk [(x.stretchQ.toNat, 0, 24), (b2n x.slip, 32, 1), (b2n x.canalAsync, 33, 1), (b2n x.late, 34, 1), (b2n x.throttled, 35, 1), (b2n x.unsync, 36, 1),
    (b2n x.overrun, 37, 1), (x.lateCyc.toNat, 40, 24)]
/-- Local panel time (R369) and Tables 2.1, 2.5. -/
def State.timReg (s : State) (p : Pos) (o : Nat) : Word :=
  let u := s.ut p
  match o with
  | 0x00 => BitVec.ofNat 64 (s.localTime p / 65536)
  | 0x08 => u.time.fracLatch.zeroExtend 64
  | 0x10 => pk [(b2n u.time.unsync, 0, 1), (b2n u.time.beaconMiss, 1, 1), (b2n u.time.refLoss, 2, 1), (u.time.lastOffset.toNat, 8, 8),
      (u.time.beaconCount.toNat, 32, 32)]
  | 0x18 => u.pound.word
  | 0x20 => u.poundLast.word
  | _ => 0
/-- Tables 7.13, 7.16, 7.17. -/
def Stack.reg (k : Stack) (o : Nat) : Word :=
  match o with
  | 0x00 => pk [(k.wC2.toNat, 0, 8), (k.wC3.toNat, 8, 8)]
  | 0x08 => pk [(k.writeShare.toNat, 0, 16), (k.c0Capped.toNat, 16, 16), (k.retrains.toNat, 32, 16)]
  | 0x10 => pk [(k.corrected.toNat, 0, 32), (k.uncorr.toNat, 32, 16)]
  | _ => 0
def portCode : PortState → Nat
  | .off => 0 | .dark => 1 | .training => 2 | .up => 3 | .loopback => 4
def Port.lanesUp (x : Port) : Nat := laneCount x.laneMask
/-- Tables 10.10 to 10.15 and the consignment table of 10.6. -/
def Port.reg (x : Port) (o : Nat) : Word :=
  match o with
  | 0x00 => pk [(b2n x.en, 0, 1), (b2n x.genMax, 1, 1), (b2n x.peerRead, 2, 1), (x.meetUs.toNat, 4, 15), (x.loop_.toNat, 19, 3)]
  | 0x08 => pk [(portCode x.state, 0, 3), (b2n x.gen2, 3, 1), (x.lanesUp, 4, 5), (b2n x.quar, 9, 1), (b2n x.fibreLoop, 10, 1), (b2n x.los, 11, 1),
      (b2n x.timeValid, 12, 1), (b2n x.loopRefused, 13, 1), (x.downCount.toNat, 16, 16), (x.laneMask.toNat, 32, 16)]
  | 0x10 => pk [(x.fecCorr.toNat, 0, 24), (x.fecUncorr.toNat, 24, 12), (x.replays.toNat, 36, 12), (x.badFrame.toNat, 48, 8), (x.pattern.toNat, 56, 8)]
  | 0x18 => pk [(x.offset.toNat, 0, 48), (x.delay.toNat, 48, 14), (x.peerSrc.toNat, 62, 2)]
  | 0x20 => bigWord x.peerId 0 | 0x28 => bigWord x.peerId 1 | 0x30 => bigWord x.peerId 2 | 0x38 => bigWord x.peerId 3
  | 0x40 => pk [(x.refused.toNat, 0, 16), (x.discarded.toNat, 16, 16), (x.timeouts.toNat, 32, 16)]
  | _ => 0
/-- AXL_CONSi (Table 10.6). -/
def Consign.word (c : Consign) (n : Nat) : Word :=
  match n with
  | 0 => pk [(b2n c.valid, 0, 1), (c.dir.toNat, 1, 2), (b2n c.linkAbort, 3, 1), (b2n c.combine, 4, 1), (c.op.toNat, 5, 2), (c.channel.toNat, 8, 8),
      (c.trigger.toNat, 16, 13)]
  | 1 => c.loc
  | 2 => c.addend
  | 3 => pk [(c.length.toNat, 0, 32), (c.window.toNat, 32, 8), (c.gen.toNat, 40, 16)]
  | 4 => c.doneCh
  | 5 => pk [(c.status.toNat, 0, 8), (b2n c.busy, 8, 1)]
  | _ => 0
def State.axlReg (s : State) (p : Pos) (o : Nat) : Word :=
  match portAt p with
  | none => 0
  | some x => if o < 0x8000 then (s.port x).reg o else if o < 0xC000 then (vat (s.port x).cons (o % 0x8000 / 64)).word (o % 64 / 8) else 0
def State.hbmReg (s : State) (p : Pos) (o : Nat) : Word :=
  match stackAt p with
  | none => 0
  | some m => s.hbm[m].reg o

/-- A register of a position, by its 24-bit offset (Table 1.8). -/
def State.tileReg (s : State) (p : Pos) (off : Nat) : Word :=
  let o := off % 0x10000 / 8 * 8
  let u := s.ut p
  match off / 0x10000 with
  | 0x00 => if o = 0 then s.tilPos p else 0
  | 0x01 => s.corReg p o
  | 0x02 => (s.core p).mat.reg o
  | 0x04 => (s.core p).spd.reg o
  | 0x05 => u.stg.reg o
  | 0x06 => s.mshReg p o
  | 0x07 => s.brtReg p o
  | 0x08 => s.chbReg p o
  | 0x09 => u.pwr.reg (Config.coreAmps p.val s.now) o
  | 0x0A => s.clkReg p o
  | 0x0B => u.thm.reg o
  | 0x0C => s.timReg p o
  | 0x0D => s.hbmReg p o
  | 0x0E => if o = 8 then pk [(u.cht.faultAddr.toNat, 0, 41), (b2n u.cht.faultValid, 63, 1)] else 0
  | 0x0F => s.axlReg p o
  | _ => 0

/-! ### Canal space -/

/-- Words of the list of LTs or positions: bit i − 64k. -/
def maskWord (l : List Nat) (k : Nat) : Word := BitVec.ofNat 64 ((l.filter fun i => i / 64 == k).foldl (fun n i => n ||| 2 ^ (i % 64)) 0)
/-- LKH_PSTATE.STATE; OFF is never read. -/
def pstateCode : PanelState → Nat
  | .active => 0 | .standby => 1 | .moored => 2 | .starting => 3 | .off => 3
/-- LKH_DESC. -/
def Lkh.desc (k : Lkh) : Word :=
  pk [(k.part.toNat, 0, 8), (b2n k.derated, 8, 1), (b2n (k.pstate == .moored), 9, 1), (b2n k.mapUnverified, 10, 1), (b2n k.wUns, 11, 1),
    (b2n k.eUns, 12, 1), (b2n k.fdrFull, 13, 1), (k.cores.toNat, 16, 7), (k.stackBits.toNat, 24, 24)]
/-- LKH_RESET; GO reads 0. -/
def ResetReg.word (r : ResetReg) : Word :=
  pk [(r.kind.toNat, 0, 4), (b2n r.clear, 4, 1), (b2n r.update, 5, 1), (r.ctx.toNat, 6, 2), (r.target.toNat, 8, 8), (b2n r.busy, 17, 1),
    (statusCode r.status, 24, 8)]
/-- Tables 15.12, 15.13, 16.6, 8.9. -/
def State.lkhReg (s : State) (o : Nat) : Word :=
  let k := s.lkh
  if o < 0x80 then match o with
    | 0x00 => k.desc
    | 0x08 => maskWord (k.absent.map fun l => l.val) 0
    | 0x10 => maskWord (k.absent.map fun l => l.val) 1
    | 0x18 => pk [(k.modelFrames.toNat, 32, 32)]
    | 0x20 => pk [(s.repair.fences.toNat, 0, 16), (s.repair.singles.toNat, 16, 16), (k.serving.toNat, 32, 3)]
    | 0x28 => pk [(match s.repair.due with | l :: _ => l.val | [] => s.repair.nextLt.toNat, 0, 7), (s.repair.soundDone.toNat, 8, 24), (s.repair.soundFailed.toNat, 32, 16)]
    | 0x30 => k.hwDone | 0x38 => k.hwLost | 0x40 => k.hwLostProg | 0x48 => k.hwSound | 0x50 => k.hwMoored | 0x58 => k.hwIdle
    | 0x60 => pk [(k.hw30d.toNat, 0, 17), (k.hwDays.toNat, 24, 5), (b2n k.hwRef, 29, 1)]
    | 0x70 => k.reset.word
    | 0x78 => pk [(pstateCode k.pstate, 0, 2), (b2n k.req, 2, 2), (b2n k.wake, 4, 1), (b2n k.pending, 5, 1)]
    | _ => 0
  else if 0x100 ≤ o ∧ o < 0x118 then maskWord (k.narrowNext.map fun p => p.val) (o % 0x100 / 8)
  else if 0x1000 ≤ o ∧ o < 0x13C0 then s.posWord (Fin.ofNat 120 (o % 0x1000 / 8))
  else if 0x2000 ≤ o ∧ o < 0x22C0 then vat (vat k.stages (o % 0x2000 / 64)) (o % 64 / 8)
  else if 0x4000 ≤ o ∧ o < 0x6000 then
    match k.fdr[o % 0x4000 / 32]? with
    | some e => vat e.entry (o % 32 / 8)
    | none => 0
  else if o = 0x8000 then k.stallPtr.zeroExtend 64
  else if 0x8100 ≤ o ∧ o < 0x9100 then
    let w := tblGet (0, 0) k.stallLog ((o - 0x8100) / 16)
    if o % 16 = 0 then w.1 else w.2
  else 0
/-- HOLD_S: seconds in holdover. -/
def State.holdS (s : State) : Nat := if s.tsrc.cur = 3 then min ((s.now - s.tsrc.holdFrom) / 1000000000) (2 ^ 32 - 1) else 0
/-- Tables 2.3 and 13.11. TIM_NOW counts whole nanoseconds (log entry 20); TIM_SET is write-only. -/
def State.timCanal (s : State) (o : Nat) : Word :=
  let c := s.tsrc
  match o with
  | 0x00 => pk [(s.pcfg.len.toNat, 0, 15), (s.pcfg.next.toNat, 16, 15), (b2n s.pcfg.pend, 31, 1), (statusCode s.pcfg.err, 32, 8)]
  | 0x08 => BitVec.ofNat 64 s.now
  | 0x10 => c.fracLatch.zeroExtend 64
  | 0x18 => pk [(c.cur.toNat, 0, 2), (b2n c.freeRun, 2, 1), (b2n c.setRefused, 3, 1), (c.qual.toNat, 4, 3), (c.en.toNat, 8, 3), (s.holdS, 32, 32)]
  | 0x20 => (BitVec.ofInt 48 (c.remain - slewStep c.remain (s.now - c.slewAt))).zeroExtend 64
  | 0x30 => pk [(b2n c.ppsEn, 0, 1), (b2n c.ppsQual, 1, 1), (c.ppsWidth.toNat, 8, 8), (c.ppsInDelay.toNat, 16, 16), (c.ppsInCount.toNat, 32, 32)]
  | 0x38 => pk [(c.ptpMode.toNat, 0, 2), (c.ptpDomain.toNat, 2, 8), (c.ptpPrio1.toNat, 10, 8), (c.ptpPrio2.toNat, 18, 8), (c.ptpTsrc.toNat, 26, 8),
      (c.ptpUtc.toNat, 34, 16)]
  | _ => 0
/-- Table 12.13. -/
def State.pwrCanal (s : State) (o : Nat) : Word :=
  let k := s.power
  if o = 0 then pk [(k.userW.toNat, 0, 16), (k.effW.toNat, 16, 16), (k.baseW.toNat, 32, 16)]
  else if o = 8 then pk [(k.vin.toNat, 0, 16), (k.iin.toNat, 16, 16), (k.pin.toNat, 32, 16), (b2n k.low, 48, 1), (b2n k.high, 49, 1)]
  else if 0x100 ≤ o ∧ o < 0x280 then
    let r := vat s.reaches ((o - 0x100) / 16)
    if o % 16 = 0 then pk [(r.limitA.toNat, 0, 8), (r.inrushV.toNat, 8, 8), (r.inrushO.toNat, 16, 8)]
    else pk [(r.iout.toNat, 0, 10), (b2n r.pg, 10, 1), (b2n r.tripped, 11, 1), (b2n r.inLimit, 12, 1), (min r.queue.length 255, 16, 8),
      (r.timeouts.toNat, 24, 16), (r.limitEvents.toNat, 40, 16)]
  else 0
/-- CLK_STEP (Table 13.10). -/
def ClkStep.word (c : ClkStep) : Word :=
  pk [(c.wNext.toNat, 0, 3), (c.eNext.toNat, 4, 3), (b2n c.pendW, 8, 1), (b2n c.pendE, 9, 1), (b2n c.link, 10, 1), (b2n c.emerg, 11, 1),
    (c.wCur.toNat, 12, 3), (c.eCur.toNat, 16, 3), (statusCode c.err, 24, 8), (c.changes.toNat, 32, 32)]
def State.clkCanal (s : State) (o : Nat) : Word :=
  let c := s.clocks
  if o = 0 then c.step.word
  else if o = 8 then pk [(c.dly.toNat, 0, 2), (b2n c.oscReady, 2, 1), ((BitVec.ofInt 24 c.trim).toNat, 16, 24)]
  else if 0x10 ≤ o ∧ o < 0x30 then
    let m := vat c.msw ((o - 0x10) / 8)
    pk [(b2n m.sel, 0, 1), (b2n m.cur, 1, 1), (m.ready.toNat, 2, 2), (m.result.toNat, 4, 2)]
  else 0
/-- Table 14.6. -/
def Thermal.reg (t : Thermal) (o : Nat) : Word :=
  match o with
  | 0x00 => pk [(t.inlet.toNat, 0, 14), (t.outlet.toNat, 14, 14), (b2n t.flowOk, 28, 1), (b2n t.thermBad, 29, 1), (b2n t.inletHigh, 30, 1),
      (b2n t.inletLow, 31, 1), (t.flowEst.toNat, 32, 10), (b2n t.emerg, 42, 1), (t.glitch.toNat, 48, 16)]
  | 0x08 => pk [(t.thermalW.toNat, 0, 16), (t.targetW.toNat, 16, 16), (t.theta.toNat, 32, 16), (t.tjPlan.toNat, 48, 7)]
  | 0x10 => pk [(t.tauMs.toNat, 0, 16), (t.horizon.toNat, 16, 16)]
  | 0x18 => pk [(t.emergencies.toNat, 0, 16), (t.lastCause.toNat, 16, 4), (t.throttles.toNat, 20, 16)]
  | _ => 0
def RingReg.word (r : RingReg) : Word := pk [(r.base.toNat, 12, 36), (r.sizeLog2.toNat, 48, 4), (b2n r.en, 52, 1)]
/-- Table 11.14. -/
def State.kclReg (s : State) (o : Nat) : Word :=
  let i := s.intake
  if o < 0x40 then
    let q := vat s.kports (o / 0x20)
    match o % 0x20 with
    | 0x00 => pk [(b2n q.en, 0, 1), (q.genMax.toNat, 1, 2), (q.loop_.toNat, 3, 3)]
    | 0x08 => pk [(q.state.toNat, 0, 3), (q.gen.toNat, 3, 2), (q.lanes.toNat, 5, 5), (b2n q.los, 10, 1), (b2n q.loopRefused, 11, 1),
        (q.downCount.toNat, 16, 16), (q.pattern.toNat, 32, 16)]
    | _ => 0
  else if 0x200 ≤ o ∧ o < 0x240 then
    let c := vat i.cwin (o % 0x200 / 8)
    pk [(c.basePage.toNat, 0, 25), (c.pages.toNat, 25, 25), (b2n c.en, 50, 1)]
  else match o with
    | 0x100 => i.mring.word | 0x108 => i.cring.word | 0x110 => i.ffl.word
    | 0x120 => i.hwinBase
    | 0x128 => i.hwinLen.zeroExtend 64
    | 0x130 => pk [(i.snoopUs.toNat, 0, 10)]
    | 0x138 => pk [(i.snoopLost.toNat, 0, 16)]
    | _ => 0
/-- Table 17.14; GO reads 0. -/
def State.secReg (s : State) (o : Nat) : Word :=
  let k := s.sec
  if o < 0x40 then match o with
    | 0x00 => pk [(k.slots.toNat, 0, 3), (b2n k.updating, 3, 1), (k.revoked.toNat, 4, 4), (k.pkgVersion.toNat, 32, 32)]
    | 0x08 => pk ((List.finRange 6).map fun c => (s.counter c.val, 7 * c.val, 7))
    | 0x10 => pk [(b2n k.i3cLock, 0, 1), (b2n k.pcieLock, 1, 1), (b2n k.jtagLock, 2, 1)]
    | 0x18 => k.certAddr
    | 0x20 => pk [(b2n k.certBusy, 1, 1), (statusCode k.certStatus, 8, 8), (k.certLen.toNat, 32, 32)]
    | 0x28 => pk [(b2n k.quoteBusy, 1, 1)]
    | _ => 0
  else if o < 0x60 then bigWord k.nonce ((o - 0x40) / 8)
  else if 0x100 ≤ o ∧ o < 0x400 then bigWord (vat (vat k.meas ((o - 0x100) / 0x100)) (o % 0x100 / 32)) (o % 32 / 8)
  else if 0x1000 ≤ o ∧ o < 0x17A0 then wordOf (Config.identityPk.take 1952) ((o - 0x1000) / 8)
  else if 0x2000 ≤ o ∧ o < 0x2E80 then wordOf k.quote ((o - 0x2000) / 8)
  else 0
/-- Table 17.15. -/
def State.logRegs (s : State) (o : Nat) : Word :=
  let k := s.log
  if o < 0x38 then match o with
    | 0x00 => BitVec.ofNat 64 k.head.index
    | 0x08 => BitVec.ofNat 64 k.oldest
    | 0x10 => k.sel
    | 0x18 => pk [(b2n (!k.ckptPend.isEmpty), 1, 1)]
    | 0x20 => BitVec.ofNat 64 k.ckptLast
    | 0x28 => pk [(b2n k.lostUnread, 0, 1), (b2n k.selBad, 1, 1), (k.holders.toNat, 2, 3), (k.checkpoints.toNat, 32, 32)]
    | 0x30 => BitVec.ofNat 64 k.exported
    | _ => 0
  else if 0x100 ≤ o ∧ o < 0x180 then
    match k.entry k.sel.toNat with
    | some e => wordOf e.bytes ((o - 0x100) / 8)
    | none => 0
  else if 0x1000 ≤ o ∧ o < 0x1CF0 then
    match k.entry k.sel.toNat, k.sigs.find? fun x => x.1 == k.sel.toNat with
    | some _, some x => wordOf x.2.2 ((o - 0x1000) / 8)
    | _, _ => 0
  else 0
/-- Table 7.18; a count flush is done at once, so GO reads 0. -/
def State.chtCanal (s : State) (o : Nat) : Word :=
  let c := s.chart
  match o with
  | 0x00 => pk [(c.wHome.toNat, 0, 5), (c.eHome.toNat, 8, 5), (b2n c.wValid, 16, 1), (b2n c.eValid, 17, 1)]
  | 0x08 => pk [(b2n c.demand, 0, 1), (c.queue.length, 16, 9), (c.dropped.toNat, 25, 16)]
  | 0x10 => pk [(b2n s.countsMove, 0, 1)]
  | 0x18 => pk [(c.backBase.toNat, 12, 36), (b2n c.backEn, 48, 1)]
  | _ => 0

/-- A register of Canal space, by its 24-bit offset (Table 1.8). -/
def State.canalReg (s : State) (off : Nat) : Word :=
  let o := off % 0x10000 / 8 * 8
  match off / 0x10000 with
  | 0x00 => s.lkhReg o
  | 0x01 => s.timCanal o
  | 0x02 => s.pwrCanal o
  | 0x03 => s.clkCanal o
  | 0x04 => s.therm.reg o
  | 0x05 => s.kclReg o
  | 0x07 => s.secReg o
  | 0x08 => s.logRegs o
  | 0x09 => let c := s.canalCh (o / 8); pk [(c.count.toNat, 0, 32), (c.target.toNat, 32, 32)]
  | 0x0A => match o with
    | 0x00 => pk [(b2n s.epoch.cur, 0, 1), (b2n s.epoch.arm, 1, 1), (b2n s.epoch.free, 2, 1), (s.epoch.flips.toNat, 32, 32)]
    | 0x08 => pk [(s.epoch.drainSum.toNat, 0, 32)]
    | _ => 0
  | 0x0B => s.chtCanal o
  | _ => 0

/-! ### Addresses of registers -/

/-- What a register address names. -/
inductive RegAt where
  | canal (off : Nat)
  | tile (p : Pos) (off : Nat)
  | none
  deriving DecidableEq, Repr

/-- The register a well-formed class 0x2 address names; an LT without a die names none. -/
def State.regAt (s : State) (a : Word) : RegAt :=
  if addrClass a != 2 || s.addrBad a then .none
  else if addrPosn a then .tile (Fin.ofNat 144 (addrPos a)) (addrReg a)
  else if h : addrLt a < 120 then match s.posOf ⟨addrLt a, h⟩ with
    | some p => .tile p (addrReg a)
    | none => .none
  else .canal (addrReg a)
/-- Chapters describe the block's registers: the tile VEC_ and the Canal MGT_ block have none. -/
def RegAt.described : RegAt → Bool
  | .canal off => off / 0x10000 != 6
  | .tile _ off => off / 0x10000 != 3
  | .none => true
/-- The offset of MGT_PCIE_CFG, which Config leaves open. -/
def isPcieCfg (off : Nat) : Bool := off % 0x10000 / 8 == Config.mgtRuntimeOff.toNat / 8
/-- MGT_PCIE_CFG: RUNTIME (R328), the other bits free. -/
def State.pcieWord (s : State) : Word :=
  let b : Word := BitVec.ofNat 64 (2 ^ Config.mgtRuntimeBit.toNat)
  if s.intake.pcieRuntime then s.freeWord.1 ||| b else s.freeWord.1 &&& ~~~b
/-- What a register reads as. A word of a block whose registers no chapter describes is free (log entry 22, DESIGN CHOICE). -/
def State.regWord (s : State) (r : RegAt) : Word :=
  if !r.described then
    match r with
    | .canal off => if isPcieCfg off then s.pcieWord else s.freeWord.1
    | _ => s.freeWord.1
  else match r with
    | .canal off => s.canalReg off
    | .tile p off => s.tileReg p off
    | .none => 0

/-- Panel addresses of registers, for Logbook records. -/
def regCanal (off : Nat) : Nat := 2 * 2 ^ 60 + 127 * 2 ^ 45 + off
def regTile (p : Pos) (off : Nat) : Nat := 2 * 2 ^ 60 + 2 ^ 56 + p.val * 2 ^ 45 + off

/-- What a read leaves behind: one of a NS word latches the fraction for the next read of the FRAC word (R369); the free word of a block
that is not described is spent. -/
def State.latchFrac (s : State) (r : RegAt) : State :=
  if !r.described then s.freeWord.2
  else match r with
  | .canal off => if off / 8 * 8 = 0x010008 then { s with tsrc := { s.tsrc with fracLatch := 0 } } else s
  | .tile p off => if off / 8 * 8 = 0x0C0000 then
      s.modUt p fun u => { u with time := { u.time with fracLatch := BitVec.ofNat 16 (s.localTime p % 65536) } } else s
  | .none => s

/-- A change of a Canal register by firmware, with its Logbook record (old and new word). -/
def State.chgCanal (s : State) (origin : Origin) (path : Path) (off : Nat) (f : State → State) : State :=
  let s1 := f s
  let a := s.canalReg off
  let b := s1.canalReg off
  if a = b then s1 else s1.logReg origin path (regCanal off) a.toNat b.toNat

end Sys2Proof.Machine
end

