-- ==== Sys2Proof/Machine/Clock.lean ====
section
/-! DEFINITION. Clocks (chapter 13.1 to 13.6): the oscillator, reference inputs, frequency-step requests and locks, the multiplexer's
faults, the clock domains of Table 13.4; the seam maps (R429) and the drain of a flip that does not end (R261). -/

namespace Sys2Proof.Machine

open Sys2Proof

/-! ### The oscillator (R354) -/

/-- Table 13.1, in ns. -/
def oscDelay (dly : BitVec 2) : Nat := [1, 4, 16, 64].getD dly.toNat 64 * 1000000
/-- A source of a clock domain becomes ready or not. Beyond the rules' words: log entry 52 (DEDUCED). -/
def State.mswReady (s : State) (c : Fin 4) (src : Bool) (ok : Bool) : State :=
  let f (m : Msw) : Msw := { m with ready := BitVec.ofNat 2 (b2n (if src then m.ready.getLsbD 0 else ok) + 2 * b2n (if src then ok else m.ready.getLsbD 1)) }
  { s with clocks := { s.clocks with msw := vmod s.clocks.msw c f } }
/-- The oscillator and what is made from it are ready. Beyond the rules' words: log entry 52 (DEDUCED). -/
def State.oscStarts (s : State) : State :=
  (((({ s with clocks := { s.clocks with oscReady := true } }.mswReady 0 true true).mswReady 1 false true).mswReady 2 false true).mswReady 2 true true).mswReady
    3 true true

def execOscReady (edges : Nat) (t : Nat) (s : State) : Out := .next (
  let s0 := s.at_ t
  if edges < 1024 || t < s0.clocks.powerGood + oscDelay s0.clocks.dly || s0.lkh.pstate == .off then s0 else s0.oscStarts)

/-- SEL and CUR of a domain move to a source. -/
def State.mswTo (s : State) (c : Fin 4) (src : Bool) (result : BitVec 2) : State :=
  { s with clocks := { s.clocks with msw := vmod s.clocks.msw c fun m => { m with sel := src, cur := src, result := result } } }
def regMsw (c : Fin 4) : Nat := 0x030010 + 8 * c.val
/-- A write of CLK_MSWc.SEL (R368): the target must be ready. -/
def State.mswWrite (s : State) (c : Fin 4) (src : Bool) : State :=
  if s.clocks.msw[c].ready.getLsbD (b2n src) then s.mswTo c src 1
  else { s with clocks := { s.clocks with msw := vmod s.clocks.msw c fun m => { m with sel := src, result := 2 } } }
def execClkMswSwitch (c : Fin 4) (sel : Bool) (s : State) : Out :=
  .next (s.chgCanal .firmware .internal (regMsw c) fun s => s.mswWrite c sel)

/-! ### Reference inputs (R356 to R358) -/

/-- A crossing that is not under flow control raises SLIP. -/
def State.slipOne (s : State) (p : Pos) (d : Fin 4) : State :=
  let x := (s.ut p).xing[d]
  if (x.mode = 1 || x.mode = 2) && !x.slipped then s.slip p d else s
/-- The crossings of a tile and of its neighbours toward it raise SLIP. -/
def State.slipAll (s : State) (p : Pos) : State :=
  let s1 := [Dir.n, Dir.e, Dir.s, Dir.w].foldl (fun (s : State) d => match neighbour p d with
    | none => s
    | some q => (s.slipOne p (dirNum d)).slipOne q (dirNum (opposite d))) s
  (spareLinks p).foldl (fun (s : State) l =>
    let x := (s.ut l.1).spareX[l.2]
    if x.mode = 1 && !x.slipped then s.slipSpare l.1 l.2 else s) s1
/-- The under-tile is powered and not lost. -/
def UnderTile.alive (u : UnderTile) : Bool := u.pwr.vnet && !u.flags.lost
def State.modClk (s : State) (p : Pos) (f : TileClock → TileClock) : State := s.modUt p fun u => { u with clk := f u.clk }

def TileClock.setInput (c : TileClock) (alt ok : Bool) : TileClock := if alt then { c with altOk := ok } else { c with priOk := ok }
def TileClock.inputOk (c : TileClock) (alt : Bool) : Bool := if alt then c.altOk else c.priOk

def execRefInputBad (p : Pos) (alt : Bool) (t : Nat) (s : State) : Out := .next (
  let s0 := s.at_ t
  let c := (s0.ut p).clk
  let s1 := s0.modClk p fun c => c.setInput alt false
  if !(s0.ut p).alive then s0
  else if c.refSel != alt || c.holdover then s1
  else if c.inputOk (!alt) then s1.modClk p fun c => { c with refSel := !alt, failovers := c.failovers + 1 }
  else ((s1.modClk p fun c => { c with holdover := true }).slipAll p).unsynced p fun k => { k with refLoss := true })

/-- An input is good again; a tile in holdover uses it. Beyond the rules' words: log entry 52 (DEDUCED). -/
def execRefInputGood (p : Pos) (alt : Bool) (t : Nat) (s : State) : Out := .next (
  let s0 := s.at_ t
  if !(s0.ut p).alive then s0
  else s0.modClk p fun c =>
    let c1 := c.setInput alt true
    if c.holdover then { c1 with holdover := false, refSel := alt } else c1)

/-! ### Frequency steps (R360 to R363) -/

def ClkStep.pendOf (c : ClkStep) (b : Bank) : Bool := match b with | .west => c.pendW | .east => c.pendE
def ClkStep.reqOf (c : ClkStep) (b : Bank) : Nat := match b with | .west => c.wReq | .east => c.eReq
def ClkStep.setReq (c : ClkStep) (b : Bank) (code : BitVec 3) (t : Nat) : ClkStep :=
  match b with
  | .west => { c with wNext := code, pendW := true, wReq := t, wTick := none, eTick := if c.link then none else c.eTick }
  | .east => { c with eNext := code, pendE := true, eReq := t, eTick := none, wTick := if c.link then none else c.wTick }
/-- A request is cancelled: NEXT shows the step in force. -/
def ClkStep.cancel (c : ClkStep) (b : Bank) : ClkStep :=
  match b with
  | .west => { c with wNext := c.wCur, pendW := false, wTick := none, eTick := if c.link then none else c.eTick }
  | .east => { c with eNext := c.eCur, pendE := false, eTick := none, wTick := if c.link then none else c.wTick }
def ClkStep.setTick (c : ClkStep) (b : Bank) (t : Nat) : ClkStep :=
  match b with
  | .west => { c with wTick := some t }
  | .east => { c with eTick := some t }
def State.modStepReg (s : State) (f : ClkStep → ClkStep) : State := { s with clocks := { s.clocks with step := f s.clocks.step } }

/-- The tiles whose locks a bank waits for. -/
def State.bankTiles (s : State) (b : Bank) : List Pos := allPos.filter fun p => bankOf p == b && (s.ut p).alive
def State.bankLocked (s : State) (b : Bank) : Bool := (s.bankTiles b).all fun p => (s.ut p).clk.locked
/-- The first gate tick at or after a time. -/
def State.tickFrom (s : State) (t : Nat) : Nat := cdiv t s.poundNs * s.poundNs
/-- LH-C fixes T once every lock it waits for has been reported (R361, R362). -/
def State.fixTicks (s : State) : State :=
  let c := s.clocks.step
  let at_ (r : Nat) : Nat := s.tickFrom (max (r + 60000) (s.now + 20000))
  if c.link then
    if c.pendW && c.pendE && (c.wTick.isNone || c.eTick.isNone) && s.bankLocked .west && s.bankLocked .east then
      let k := at_ (max c.wReq c.eReq)
      s.modStepReg fun c => (c.setTick .west k).setTick .east k
    else s
  else
    [Bank.west, Bank.east].foldl (fun (s : State) b =>
      if c.pendOf b && (c.tick b).isNone && s.bankLocked b then s.modStepReg fun c => c.setTick b (at_ (c.reqOf b)) else s) s

/-- The lock bit of the PLL that the data path does not use; from SAFE that is DP0. Beyond the rules' words: log entry 50 (DEDUCED). -/
def TileClock.idleLock (c : TileClock) (on : Bool) : TileClock :=
  if c.sel = 0 then { c with dp1 := on, locked := on } else { c with dp0 := on, locked := on }

/-- A write of W_NEXT or E_NEXT at panel time t. -/
def State.reqStep (s : State) (b : Bank) (code : BitVec 3) : State :=
  let c := s.clocks.step
  if code.toNat > 5 then s.modStepReg fun c => { c with err := .illegalDescriptor }
  else if code = c.cur b then (s.modStepReg fun c => { c.cancel b with err := .done }).fixTicks
  else ((s.modStepReg fun c => { c.setReq b code s.now with err := .done }).allUts fun p u =>
    if bankOf p == b && u.alive then { u with clk := u.clk.idleLock false } else u).fixTicks
def regStep : Nat := 0x030000
/-- Firmware's request, recorded. -/
def State.askStep (s : State) (b : Bank) (code : BitVec 3) : State :=
  s.chgCanal .firmware .internal regStep fun s => s.reqStep b code
def State.setLinkBit (s : State) (on : Bool) : State := (s.modStepReg fun c => { c with link := on }).fixTicks
/-- Firmware sets or clears LINK. -/
def State.setLink (s : State) (on : Bool) : State := s.chgCanal .firmware .internal regStep fun s => s.setLinkBit on
def execClkStepRequest (b : Bank) (code : BitVec 3) (t : Nat) (s : State) : Out := .next ((s.at_ t).askStep b code)

/-- A tile reports its idle PLL locked. -/
def execPllLocked (p : Pos) (t : Nat) (s : State) : Out := .next (
  let s0 := s.at_ t
  let c := s0.clocks.step
  if !c.pendOf (bankOf p) || (s0.ut p).clk.locked || !(s0.ut p).alive then s0
  else (s0.modClk p fun k => { k.idleLock true with
    lateLock := if c.reqOf (bankOf p) + 40000 < s0.now then k.lateLock + 1 else k.lateLock }).fixTicks)

/-- LH-C raises the VCORE targets 20 µs before a rising step takes effect. -/
def execVcoreTargetRaise (b : Bank) (t : Nat) (s : State) : Out := .next (
  let s0 := s.at_ t
  let c := s0.clocks.step
  match c.tick b with
  | some at_ =>
    if at_ ≤ t + 20000 && decide ((c.next b).toNat < (c.cur b).toNat) then
      s0.allUts fun p u => if bankOf p == b && u.alive then { u with pwr := { u.pwr with targetMv := coreMv p (c.next b).toNat } } else u
    else s0
  | none => s0)

/-- The request is cancelled, and the tile's die counts as failed. -/
def execPllLockTimeout (p : Pos) (t : Nat) (s : State) : Out := .next (
  let s0 := s.at_ t
  let b := bankOf p
  if s0.clocks.step.pendOf b && !(s0.ut p).clk.locked && (s0.ut p).alive && decide (s0.clocks.step.reqOf b + 1000000 ≤ t) then
    (s0.chgCanal .firmware .internal regStep fun s => (s.modStepReg fun c => c.cancel b).fixTicks).tellRepair (.lockLate p)
  else s0)

/-! ### The multiplexer (R366, R367) -/

/-- The PLL in use loses lock: SAFE, and the drift that follows raises SLIP. -/
def execPllLockLoss (p : Pos) (t : Nat) (s : State) : Out := .next (
  let s0 := s.at_ t
  let c := (s0.ut p).clk
  if c.sel.toNat ≥ 2 || !(s0.ut p).alive then s0
  else
    let s1 := s0.modClk p fun c => { c with sel := 2, lockLost := true, dp0 := c.dp0 && c.sel != 0, dp1 := c.dp1 && c.sel != 1 }
    if c.step = 5 then s1 else s1.slipAll p)

/-- The route of a packet from router x meets position p, in at most n hops. -/
def State.passes (s : State) (q : Packet) (p : Pos) : Nat → Pos → Bool
  | 0, x => x == p
  | n + 1, x => x == p || match s.outputOf x q with
    | .seam d => (match neighbour x d with | some y => s.passes q p n y | none => false)
    | _ => false
/-- Traffic of a step stands in the router of p or is routed across it. -/
def State.crosses (s : State) (p : Pos) (r : StepRec) : Bool :=
  s.net.any fun q => decide (q.stepNo.toNat = r.num) && match q.place with
    | .router x => s.passes q p 24 x
    | .combining x => s.passes q p 24 x
    | .source x => s.passes q p 24 (s.injectAt x)
    | _ => false
/-- Running steps in a TIMED pound whose traffic crosses a stopped tile are aborted (R272). Beyond the rules' words: log entry 94 (DEDUCED). -/
def State.abortCrossing (s : State) (p : Pos) : State :=
  (s.intake.steps.filter fun r => r.phase == .running && (r.man.ent r.poundIdx).timed && s.crosses p r).foldl
    (fun (s : State) r => s.askAbort r.num (.status .timingUnsafe_) 0x7F) s

/-- 64 µs without an edge: the clock block is reset and its crossings raise SLIP, the step on the tile is aborted and the tile counts as
failed. Without EXP the data path has no clock, the tile does not answer on the towpath, and its under-tile is the unit. -/
def execClockWatchdog (p : Pos) (expRunning : Bool) (t : Nat) (s : State) : Out := .next (
  let s0 := s.at_ t
  if !(s0.ut p).alive then s0
  else
    let s1 := (s0.modClk p fun c => { c with
      sel := 2, wdog := true, dp0 := false, dp1 := false, locked := false, step := 5, exp := c.exp && expRunning
      running := expRunning, expRuns := c.expRuns && expRunning }).abortAt p (.status .tileFenced)
    ((s1.abortCrossing p).slipAll p).tellRepair (if expRunning then .watchdogExp p else .watchdogNoExp p))

/-! ### Seam maps and flips -/

/-- The write waits for the quiet window (R429). Beyond the rules' words: log entry 38 (DEDUCED). -/
def State.seamWrite (s : State) (p : Pos) (d : Fin 4) (v : BitVec 13) : State := s.modMesh p fun m =>
  { m with seam := vmod m.seam d fun x => { x with pend := some v } }
def execMshSeamMapWrite (p : Pos) (d : Dir) (v : BitVec 13) (s : State) : Out := .next (s.seamWrite p (dirNum d) v)

/-- 2 ms after a flip: each tile that holds flits of the old version is reported, and the result recorded.
Beyond the rules' words: log entry 53 (DEDUCED). -/
def execEpochDrainTimeout (t : Nat) (s : State) : Out := .next (
  let s0 := s.at_ t
  if s0.epoch.free || t < s0.epoch.flippedAt + 2000000 then s0
  else
    let l := allPos.filter fun p => decide (0 < s0.routerOld p)
    let s1 : State := { s0 with epoch := { s0.epoch with left := l.map fun p => (p, s0.routerOld p) } }
    (l.foldl (fun (s : State) p => s.logErr (utUnit p) 0 (s0.routerOld p)) s1).logRec 0x30 .firmware
      [s0.epoch.flips.toNat, b2n s0.epoch.cur, s0.oldFlits])

end Sys2Proof.Machine
end

