-- ==== Sys2Proof/Machine/Scalar.lean ====
section
/-! DEFINITION. The C slot: control and scalar instructions (R148, R149, Table 6.3), control registers (R115), branches and loops
(R120, R149), scratchpad loads and stores (R146). Each eff… is the effect of the slot, each exec… the command. -/

namespace Sys2Proof.Machine

open Sys2Proof


def cw (i : Issue) : BitVec 64 := slotWord i.bundle .c

/-- Sd = f Sa Sb with latency lat. -/
def effSS (lat : Nat) (f : Word → Word → Word) (i : Issue) (s : State) : State :=
  s.laterS i lat (fD (cw i)) (f (s.rS i (fA (cw i))) (s.rS i (fB (cw i))))
/-- Pd = f Sa Sb. -/
def effPS (f : Word → Word → Bool) (i : Issue) (s : State) : State :=
  s.laterP i 1 (fD (cw i)) (f (s.rS i (fA (cw i))) (s.rS i (fB (cw i))))
/-- Pd = f Pa Pb. -/
def effPP (f : Bool → Bool → Bool) (i : Issue) (s : State) : State :=
  s.laterP i 1 (fD (cw i)) (f (s.rP i (fA (cw i))) (s.rP i (fB (cw i))))

/-- An FP32 operation on the low words; bits [63:32] of the result are 0 (R148). -/
def lowF (f : F32 → F32 → F32) (a b : Word) : Word := (f (a.truncate 32) (b.truncate 32)).zeroExtend 64

def effAdd : Issue → State → State := effSS 1 fun a b => a + b
def effSub : Issue → State → State := effSS 1 fun a b => a - b
def effAnd : Issue → State → State := effSS 1 fun a b => a &&& b
def effOr : Issue → State → State := effSS 1 fun a b => a ||| b
def effXor : Issue → State → State := effSS 1 fun a b => a ^^^ b
def effShl : Issue → State → State := effSS 1 fun a b => a <<< fld b 0 6
def effShr : Issue → State → State := effSS 1 fun a b => a >>> fld b 0 6
def effSar : Issue → State → State := effSS 1 fun a b => a.sshiftRight (fld b 0 6)
def effMul : Issue → State → State := effSS 3 fun a b => a * b
def effMin : Issue → State → State := effSS 1 fun a b => if a.sle b then a else b
def effMax : Issue → State → State := effSS 1 fun a b => if a.sle b then b else a
def effMinu : Issue → State → State := effSS 1 fun a b => if a.ule b then a else b
def effMaxu : Issue → State → State := effSS 1 fun a b => if a.ule b then b else a

def effAddi (i : Issue) (s : State) : State := s.laterS i 1 (fD (cw i)) (s.rS i (fA (cw i)) + immS (cw i))
def effMovi (i : Issue) (s : State) : State := s.laterS i 1 (fD (cw i)) (immS (cw i))
/-- Sd[63:32] = imm; Sd[31:0] unchanged. -/
def effMovhi (i : Issue) (s : State) : State :=
  s.laterS i 1 (fD (cw i)) (imm32 (cw i) ++ (s.rS i (fD (cw i))).truncate 32)

def effCmpeq : Issue → State → State := effPS cmpEq
def effCmpne : Issue → State → State := effPS cmpNe
def effCmplt : Issue → State → State := effPS cmpLt
def effCmpltu : Issue → State → State := effPS cmpLtu
def effCmple : Issue → State → State := effPS cmpLe
def effCmpleu : Issue → State → State := effPS cmpLeu

def effFadd : Issue → State → State := effSS 3 (lowF f32Add)
def effFsub : Issue → State → State := effSS 3 (lowF f32Sub)
def effFmul : Issue → State → State := effSS 3 (lowF f32Mul)
/-- Sd = Sa × Sb + Sd with one rounding. -/
def effFfma (i : Issue) (s : State) : State :=
  let z := s.rS i (fD (cw i))
  s.laterS i 4 (fD (cw i))
    ((f32Fma ((s.rS i (fA (cw i))).truncate 32) ((s.rS i (fB (cw i))).truncate 32) (z.truncate 32)).zeroExtend 64)
def effFmin : Issue → State → State := effSS 1 (lowF f32Min)
def effFmax : Issue → State → State := effSS 1 (lowF f32Max)
def effFcmplt : Issue → State → State := effPS fcmpLt
def effFcmpeq : Issue → State → State := effPS fcmpEq
def effFcmple : Issue → State → State := effPS fcmpLe

def effPand : Issue → State → State := effPP and
def effPor : Issue → State → State := effPP or
def effPxor : Issue → State → State := effPP xor
def effPnot (i : Issue) (s : State) : State := s.laterP i 1 (fD (cw i)) (!s.rP i (fA (cw i)))
/-- Sd = Sa when the guard is true, else Sb; it never skips. -/
def effSel (i : Issue) (s : State) : State :=
  s.laterS i 1 (fD (cw i))
    (if guardTrue (s.core i.pos) i.ctx (cw i) then s.rS i (fA (cw i)) else s.rS i (fB (cw i)))

/-- Modulo 2^48. -/
def effAaddi (i : Issue) (s : State) : State :=
  s.laterA i 1 (fD (cw i)) (s.rA i (fA (cw i)) + (imm32 (cw i)).signExtend 48)
def effAtos (i : Issue) (s : State) : State := s.laterS i 1 (fD (cw i)) ((s.rA i (fA (cw i))).zeroExtend 64)
def effStoa (i : Issue) (s : State) : State := s.laterA i 1 (fD (cw i)) ((s.rS i (fA (cw i))).truncate 48)

/-! ### Loads and stores (R146, R112) -/

/-- Load n bytes through VX, base 3, zero-extended. Beyond the rules' words: log entry 25 (DEDUCED). -/
def effLoad (n : Nat) (i : Issue) (s : State) : State :=
  match effAddr (s.rA i (fA (cw i))) (imm32 (cw i)).toInt n n with
  | none => s
  | some a =>
    let x := s.access i.pos 3 i.cc [(a, n)]
    match x.1.readSpd i .c 3 (i.cc + x.2.1) a n with
    | (s1, none) => s1
    | (s1, some bs) => s1.laterS i (accLat 3 x.2.1 x.2.2) (fD (cw i)) (BitVec.ofNat 64 (bytesNat bs))
/-- Store the low n bytes of Sd through VY, base 2. Beyond the rules' words: log entry 25 (DEDUCED). -/
def effStore (n : Nat) (i : Issue) (s : State) : State :=
  match effAddr (s.rA i (fA (cw i))) (imm32 (cw i)).toInt n n with
  | none => s
  | some a =>
    let x := s.access i.pos 4 i.cc [(a, n)]
    x.1.later i (accLat 2 x.2.1 x.2.2) (.mem a (natBytes (s.rS i (fD (cw i))).toNat n))

def effLd32 : Issue → State → State := effLoad 4
def effLd64 : Issue → State → State := effLoad 8
def effSt32 : Issue → State → State := effStore 4
def effSt64 : Issue → State → State := effStore 8

/-! ### Control registers (Table 5.3) -/

/-- The value of control register n as context x reads it in cycle cc. -/
def crRead (s : State) (p : Pos) (x : Ctx) (cc n : Nat) : Nat :=
  let c := s.core p
  let k := c.ctl
  match n with
  | 0x00 => c.desc.lt.toNat
  | 0x01 => k.pound.toNat
  | 0x02 => s.crCycle p x cc
  | 0x03 => (ctxNum x).val
  | 0x04 => (vat k.patience (ctxNum x)).toNat
  | 0x05 => statusCode (c.ctx x).sendStat
  | 0x06 => (vat k.vl (ctxNum x)).toNat
  | 0x07 => if k.hwinOpen then (k.hwinEnd - cc) % 4096 else 0
  | 0x08 => min k.queue.length 255
  | 0x09 => k.lastStall.toNat
  | 0x0A => c.img.slack.toNat
  | 0x0B => if x = .main ∨ x = .hand then 0 else k.mainFault.toNat
  | 0x0C => b2n c.desc.narrow
  | _ => 0

def effCrr (i : Issue) (s : State) : State :=
  s.laterS i 1 (fD (cw i)) (BitVec.ofNat 64 (crRead s i.pos i.ctx i.cc (imm32 (cw i)).toNat))
/-- CR_VL takes at most 512; CR_PATIENCE the low 32 bits. -/
def effCrw (i : Issue) (s : State) : State :=
  let v := s.rS i (fA (cw i))
  if (imm32 (cw i)).toNat = 6 then s.later i 1 (.vl i.ctx (BitVec.ofNat 10 (min v.toNat 512)))
  else if (imm32 (cw i)).toNat = 4 then s.later i 1 (.patience i.ctx (v.truncate 32))
  else s

/-! ### Branches, loops and handler windows (R120, R149, R139) -/

/-- The context issues bundle idx next, in cycle cc. -/
def State.jump (s : State) (i : Issue) (idx : BitVec 14) (cc : Nat) : State :=
  s.modCore i.pos fun c => c.modCtx i.ctx fun q => { q with nextIdx := idx, nextCc := cc }

def effBr (i : Issue) (s : State) : State := s.jump i (cbTarget (cw i)) (i.cc + 3)
def effBri (i : Issue) (s : State) : State := s.jump i ((s.rS i (fA (cw i))).truncate 14) (i.cc + 3)
def effCall (i : Issue) (s : State) : State :=
  (s.laterS i 1 (cbLink (cw i)) (BitVec.ofNat 64 (i.idx.toNat + 1))).jump i (cbTarget (cw i)) (i.cc + 3)
/-- A count of 0 clears the entry and skips the body. -/
def effLoop (i : Issue) (s : State) : State :=
  let w := cw i
  let n := s.rS i (fA w)
  let start := i.idx + 1
  let last := start + BitVec.ofNat 14 (clLen w)
  let ent : LoopEnt := if n = 0 then {} else { active := true, start := start, last := last, left := n }
  let s1 := s.modCore i.pos fun c => c.modCtx i.ctx fun q => { q with loops := q.loops.set (Fin.ofNat 4 (clNum w)) ent }
  s1.jump i (if n = 0 then last + 1 else start) (i.cc + 3)
/-- MAIN issues its next bundle at t + 1 + n. -/
def effHwin (i : Issue) (s : State) : State :=
  let n := hwinN (cw i)
  (s.modCore i.pos fun c => c.modCtx .main fun q => { q with nextCc := i.cc + 1 + n }).modCtl i.pos fun k =>
    { k with hwinOpen := decide (n > 0), hwinEnd := i.cc + 1 + n }

/-! ### Pound end (R132, R41, R42) and the end of a handler (R138) -/

/-- LH-C counts the core's pound end for the pound in which the PEND issued (R132). -/
def State.pendReport (s : State) (p : Pos) (final : Bool) : State :=
  match s.ltAt p with
  | none => s
  | some l =>
    match s.stepOf l with
    | none => s
    | some r => s.modStep r.num fun r => { r with
        finals := if final && !r.finals.contains l then r.finals ++ [l] else r.finals }

/-- The next pound after k, up to n, whose schedule length is above 0. -/
def nextSlice (m : Manifest) (k n : Nat) : Option Nat :=
  (List.range' (k + 1) (n - k)).find? fun j => (m.ent j).d != 0

/-- The pound whose slice a core that runs late under CONTINUE_LATE has still to start (R41). -/
def State.catchUp (s : State) (p : Pos) (final : Bool) : Option Nat :=
  match s.stepAt p with
  | some r => if (s.core p).ctl.lateRun && !final
      then nextSlice r.man (s.core p).ctl.pound.toNat (min r.poundIdx (r.man.pounds - 1)) else none
  | none => none

/-- The step's last pound has begun and runs no slice: a late core that has caught up has reached its FINAL pound end (R133). -/
def State.lastEmpty (s : State) (p : Pos) : Bool :=
  match s.stepAt p with
  | some r => (s.core p).ctl.lateRun && decide (r.man.pounds ≤ r.poundIdx + 1) && (r.man.ent (r.man.pounds - 1)).d == 0
  | none => false

/-- A late core starts the slice of pound j in cycle cc, without waiting for a gate tick, and records LATE; LATE_CYC counts from the
tile's latest gate tick, and the gate ticks it has missed count anew. Beyond the rules' words: log entry 86 (DESIGN CHOICE). -/
def State.startLate (s : State) (p : Pos) (cc j : Nat) : State :=
  let s1 := s.modCtl p fun k => { k with pound := BitVec.ofNat 32 j, missed := 0, main := .issuing, pended := false }
  let s2 := s1.modUt p fun u => { u with pound := { u.pound with late := true, lateCyc := satNat 24 (cc - u.tick) } }
  let s3 := s2.modCore p fun c => c.modCtx .main fun q => { q with nextIdx := c.ctl.resume, nextCc := cc }
  match s.stepAt p with
  | some r => s3.modStep r.num fun r => { r with late := true, latePounds := r.latePounds + 1 }
  | none => s3

/-- A PEND of MAIN ends the pound. A core that runs late under CONTINUE_LATE and has pounds to catch up starts its next
slice at once (R41); otherwise MAIN waits at stall point 5 for the gate tick, and a late core is back in step there (R42).
From which tick a core two ticks behind counts: log entry 86 (DESIGN CHOICE). -/
def pendMain (i : Issue) (resume : BitVec 14) (final : Bool) (s : State) : State :=
  let s1 := ((s.pendReport i.pos (final || ((s.catchUp i.pos final).isNone && s.lastEmpty i.pos))).stopEdge i.pos i.cc).modCtl i.pos fun k => { k with resume := resume }
  match s.catchUp i.pos final with
  | some j => s1.startLate i.pos (i.cc + 1) j
  | none => s1.modCtl i.pos fun k => { k with pended := true, main := .stalled 5, stallStart := i.cc, missed := 0, lateRun := false }

/-- PEND of MAIN; issued by TOW it ends the service code, issued by DBG it changes nothing (DEDUCED, log entry 10). -/
def effPend (i : Issue) (s : State) : State :=
  let w := cw i
  match i.ctx with
  | .main => pendMain i (cwIndex w) (cwFinal w) s
  | .tow => s.modCtl i.pos fun k => { k with towBusy := false }
  | _ => s

/-- HRET ends the handler and consumes its barge; HAND's loop entries are cleared (R138, R149). -/
def effHret (i : Issue) (s : State) : State :=
  let s1 := match (s.core i.pos).ctl.curInv with
    | none => s
    | some v => s.modBerth i.pos v.berth fun b =>
        match b.queue with
        | e :: _ => if e.idx = v.entry && e.posted && b.gen == v.gen then b.consume else b
        | [] => b
  let s2 := s1.modCtl i.pos fun k =>
    { k with hand := .idle, curInv := none, handIssued := 0, handBudget := 0, handLast := i.cc }
  s2.modCore i.pos fun c => c.modCtx .hand fun q => { q with loops := Vector.replicate 4 {} }

/-! ### The opcode map of the C slot -/

/-- The effect of a C-slot opcode; STALL_RELEASE issues a held bundle through it. -/
def cEffect (op : Nat) : Issue → State → State :=
  match op with
  | 0x01 => effAdd | 0x02 => effSub | 0x03 => effAnd | 0x04 => effOr | 0x05 => effXor | 0x06 => effShl | 0x07 => effShr
  | 0x08 => effSar | 0x09 => effMul | 0x0A => effMin | 0x0B => effMax | 0x0C => effMinu | 0x0D => effMaxu
  | 0x10 => effAddi | 0x11 => effMovi | 0x12 => effMovhi
  | 0x18 => effCmpeq | 0x19 => effCmpne | 0x1A => effCmplt | 0x1B => effCmpltu | 0x1C => effCmple | 0x1D => effCmpleu
  | 0x20 => effFadd | 0x21 => effFsub | 0x22 => effFmul | 0x23 => effFfma | 0x24 => effFmin | 0x25 => effFmax
  | 0x26 => effFcmplt | 0x27 => effFcmpeq | 0x28 => effFcmple
  | 0x30 => effPand | 0x31 => effPor | 0x32 => effPxor | 0x33 => effPnot | 0x34 => effSel
  | 0x38 => effAaddi | 0x39 => effAtos | 0x3A => effStoa
  | 0x40 => effLd32 | 0x41 => effLd64 | 0x42 => effSt32 | 0x43 => effSt64 | 0x48 => effCrr | 0x49 => effCrw
  | 0x50 => effBr | 0x51 => effBri | 0x52 => effCall | 0x53 => effLoop | 0x54 => effHwin | 0x55 => effPend
  | 0x56 => effHret
  | _ => fun _ s => s

/-! ### The commands -/

def execAdd (i : Issue) (s : State) : Out := .next (slotCmd .c 0x01 false effAdd i s)
def execSub (i : Issue) (s : State) : Out := .next (slotCmd .c 0x02 false effSub i s)
def execAnd (i : Issue) (s : State) : Out := .next (slotCmd .c 0x03 false effAnd i s)
def execOr (i : Issue) (s : State) : Out := .next (slotCmd .c 0x04 false effOr i s)
def execXor (i : Issue) (s : State) : Out := .next (slotCmd .c 0x05 false effXor i s)
def execShl (i : Issue) (s : State) : Out := .next (slotCmd .c 0x06 false effShl i s)
def execShr (i : Issue) (s : State) : Out := .next (slotCmd .c 0x07 false effShr i s)
def execSar (i : Issue) (s : State) : Out := .next (slotCmd .c 0x08 false effSar i s)
def execMul (i : Issue) (s : State) : Out := .next (slotCmd .c 0x09 false effMul i s)
def execMin (i : Issue) (s : State) : Out := .next (slotCmd .c 0x0A false effMin i s)
def execMax (i : Issue) (s : State) : Out := .next (slotCmd .c 0x0B false effMax i s)
def execMinu (i : Issue) (s : State) : Out := .next (slotCmd .c 0x0C false effMinu i s)
def execMaxu (i : Issue) (s : State) : Out := .next (slotCmd .c 0x0D false effMaxu i s)
def execAddi (i : Issue) (s : State) : Out := .next (slotCmd .c 0x10 false effAddi i s)
def execMovi (i : Issue) (s : State) : Out := .next (slotCmd .c 0x11 false effMovi i s)
def execMovhi (i : Issue) (s : State) : Out := .next (slotCmd .c 0x12 false effMovhi i s)
def execCmpeq (i : Issue) (s : State) : Out := .next (slotCmd .c 0x18 false effCmpeq i s)
def execCmpne (i : Issue) (s : State) : Out := .next (slotCmd .c 0x19 false effCmpne i s)
def execCmplt (i : Issue) (s : State) : Out := .next (slotCmd .c 0x1A false effCmplt i s)
def execCmpltu (i : Issue) (s : State) : Out := .next (slotCmd .c 0x1B false effCmpltu i s)
def execCmple (i : Issue) (s : State) : Out := .next (slotCmd .c 0x1C false effCmple i s)
def execCmpleu (i : Issue) (s : State) : Out := .next (slotCmd .c 0x1D false effCmpleu i s)
def execFadd (i : Issue) (s : State) : Out := .next (slotCmd .c 0x20 false effFadd i s)
def execFsub (i : Issue) (s : State) : Out := .next (slotCmd .c 0x21 false effFsub i s)
def execFmul (i : Issue) (s : State) : Out := .next (slotCmd .c 0x22 false effFmul i s)
def execFfma (i : Issue) (s : State) : Out := .next (slotCmd .c 0x23 false effFfma i s)
def execFmin (i : Issue) (s : State) : Out := .next (slotCmd .c 0x24 false effFmin i s)
def execFmax (i : Issue) (s : State) : Out := .next (slotCmd .c 0x25 false effFmax i s)
def execFcmplt (i : Issue) (s : State) : Out := .next (slotCmd .c 0x26 false effFcmplt i s)
def execFcmpeq (i : Issue) (s : State) : Out := .next (slotCmd .c 0x27 false effFcmpeq i s)
def execFcmple (i : Issue) (s : State) : Out := .next (slotCmd .c 0x28 false effFcmple i s)
def execPand (i : Issue) (s : State) : Out := .next (slotCmd .c 0x30 false effPand i s)
def execPor (i : Issue) (s : State) : Out := .next (slotCmd .c 0x31 false effPor i s)
def execPxor (i : Issue) (s : State) : Out := .next (slotCmd .c 0x32 false effPxor i s)
def execPnot (i : Issue) (s : State) : Out := .next (slotCmd .c 0x33 false effPnot i s)
def execSel (i : Issue) (s : State) : Out := .next (slotCmd .c 0x34 true effSel i s)
def execAaddi (i : Issue) (s : State) : Out := .next (slotCmd .c 0x38 false effAaddi i s)
def execAtos (i : Issue) (s : State) : Out := .next (slotCmd .c 0x39 false effAtos i s)
def execStoa (i : Issue) (s : State) : Out := .next (slotCmd .c 0x3A false effStoa i s)
def execLd32 (i : Issue) (s : State) : Out := .next (slotCmd .c 0x40 false effLd32 i s)
def execLd64 (i : Issue) (s : State) : Out := .next (slotCmd .c 0x41 false effLd64 i s)
def execSt32 (i : Issue) (s : State) : Out := .next (slotCmd .c 0x42 false effSt32 i s)
def execSt64 (i : Issue) (s : State) : Out := .next (slotCmd .c 0x43 false effSt64 i s)
def execCrr (i : Issue) (s : State) : Out := .next (slotCmd .c 0x48 false effCrr i s)
def execCrw (i : Issue) (s : State) : Out := .next (slotCmd .c 0x49 false effCrw i s)
def execBr (i : Issue) (s : State) : Out := .next (slotCmd .c 0x50 false effBr i s)
def execBri (i : Issue) (s : State) : Out := .next (slotCmd .c 0x51 false effBri i s)
def execCall (i : Issue) (s : State) : Out := .next (slotCmd .c 0x52 false effCall i s)
def execLoop (i : Issue) (s : State) : Out := .next (slotCmd .c 0x53 false effLoop i s)
def execHwin (i : Issue) (s : State) : Out := .next (slotCmd .c 0x54 false effHwin i s)
def execPend (i : Issue) (s : State) : Out := .next (slotCmd .c 0x55 false effPend i s)
def execHret (i : Issue) (s : State) : Out := .next (slotCmd .c 0x56 false effHret i s)

end Sys2Proof.Machine
end

