-- ==== Sys2Proof/Machine/Vector.lean ====
section
/-! DEFINITION. The V slot: vector instructions (R150 to R154, Tables 6.4 and 6.5). With CR_VL = 0 an instruction writes no
register (Table 5.14). -/

namespace Sys2Proof.Machine

open Sys2Proof

def vw (i : Issue) : BitVec 64 := slotWord i.bundle .v

/-- Lane n of a register. -/
def lane (v : VReg) (n : Nat) : F32 := v.extractLsb' (32 * n) 32
/-- Lanes 0 to n − 1. -/
def lanes (v : VReg) (n : Nat) : List F32 := (List.range n).map (lane v)
/-- The bits of lanes 0 to n − 1. -/
def laneMask (n : Nat) : VReg := BitVec.ofNat 16384 (2 ^ (32 * n) - 1)
def ofLanes (l : List F32) : VReg := BitVec.ofNat 16384 (packBits 32 (l.map BitVec.toNat))
/-- Every bit of a register. -/
def fullMask : VReg := BitVec.allOnes 16384

/-- Write lanes 0 to CR_VL − 1 with latency lat. -/
def State.putLanes (s : State) (i : Issue) (lat : Nat) (l : List F32) : State :=
  if s.vl i.pos i.ctx = 0 then s else s.laterV i lat (fD (vw i)) (laneMask (s.vl i.pos i.ctx)) (ofLanes l)
/-- Write every lane. -/
def State.putAll (s : State) (i : Issue) (lat : Nat) (v : VReg) : State :=
  if s.vl i.pos i.ctx = 0 then s else s.laterV i lat (fD (vw i)) fullMask v

def effV1 (lat : Nat) (f : F32 → F32) (i : Issue) (s : State) : State :=
  s.putLanes i lat ((lanes (s.rV i (fA (vw i))) (s.vl i.pos i.ctx)).map f)
def effV2 (lat : Nat) (f : F32 → F32 → F32) (i : Issue) (s : State) : State :=
  let n := s.vl i.pos i.ctx
  s.putLanes i lat (List.zipWith f (lanes (s.rV i (fA (vw i))) n) (lanes (s.rV i (fB (vw i))) n))
def effV3 (lat : Nat) (f : F32 → F32 → F32 → F32) (i : Issue) (s : State) : State :=
  let n := s.vl i.pos i.ctx
  let ab := (lanes (s.rV i (fA (vw i))) n).zip (lanes (s.rV i (fB (vw i))) n)
  s.putLanes i lat (List.zipWith (fun x z => f x.1 x.2 z) ab (lanes (s.rV i (fC (vw i))) n))

def effVadd : Issue → State → State := effV2 4 f32Add
def effVsub : Issue → State → State := effV2 4 f32Sub
def effVmul : Issue → State → State := effV2 4 f32Mul
def effVfma : Issue → State → State := effV3 5 f32Fma
def effVmax : Issue → State → State := effV2 4 f32Max
def effVmin : Issue → State → State := effV2 4 f32Min
def effVabs : Issue → State → State := effV1 2 f32Abs
def effVneg : Issue → State → State := effV1 2 f32Neg
def effVmov : Issue → State → State := effV1 2 fun x => x
/-- Each lane = Sb[31:0]. -/
def effVbcast (i : Issue) (s : State) : State :=
  s.putLanes i 2 (List.replicate (s.vl i.pos i.ctx) ((s.rS i (fB (vw i))).truncate 32))
def effVcmplt : Issue → State → State := effV2 2 fun a b => if f32Lt a b then f32One else 0
def effVcmpeq : Issue → State → State := effV2 2 fun a b => if f32Eq a b then f32One else 0
def effVsel : Issue → State → State := effV3 2 fun a b c => if f32Zero c then b else a

/-- R151: one level per h, from 256 down. -/
def treeReduce (op : F32 → F32 → F32) : Nat → List F32 → List F32
  | 0, l => l
  | n + 1, l => treeReduce op n (List.zipWith op (l.take (2 ^ n)) (l.drop (2 ^ n)))
def effReduce (lat : Nat) (op : F32 → F32 → F32) (fill : F32) (i : Issue) (s : State) : State :=
  let n := s.vl i.pos i.ctx
  let l := lanes (s.rV i (fA (vw i))) n ++ List.replicate (512 - n) fill
  s.putAll i lat (ofLanes (List.replicate 512 ((treeReduce op 9 l).headD fill)))
/-- Lanes at and above CR_VL count as −0. -/
def effVrsum : Issue → State → State := effReduce 14 f32Add 0x80000000
/-- Lanes at and above CR_VL count as −∞. -/
def effVrmax : Issue → State → State := effReduce 10 f32Max 0xFF800000

def effVexp2 : Issue → State → State := effV1 12 f32Exp2
def effVlog2 : Issue → State → State := effV1 12 f32Log2
def effVrcp : Issue → State → State := effV1 12 f32Rcp
def effVrsqrt : Issue → State → State := effV1 12 f32Rsqrt
def effVtanh : Issue → State → State := effV1 12 f32Tanh

/-! ### Packed registers and conversions (R153, R154) -/

/-- A packed register: elements from byte 0, scales from byte 1,536. -/
def packReg (f : Nat) (els scs : List Nat) : VReg :=
  BitVec.ofNat 16384 (packBits (fmtBits f) els + 2 ^ (8 * 1536) * packBits 8 scs)
def packedElem (f : Nat) (v : VReg) (e : Nat) : Nat := unpackAt (fmtBits f) e v.toNat
def packedScale (v : VReg) (b : Nat) : Nat := unpackAt 8 (1536 + b) v.toNat

/-- VCVTI: n source values into format f. -/
def vcvtInto (f n : Nat) (src : List FV) : VReg :=
  if fmtBlock f then
    let m := 32 * cdiv n 32
    let bs := (groups32 16 (src ++ List.replicate (m - n) (.fin false 0 0))).map (blockEncode f)
    packReg f (bs.flatMap fun b => b.2) (bs.map fun b => b.1)
  else packReg f (src.map (scalarEncode f)) []
def effVcvti (i : Issue) (s : State) : State :=
  let w := vw i
  let n := s.vl i.pos i.ctx
  let v := s.rV i (fA w)
  let src := (List.range n).map fun e =>
    if vFmt2 w = 2 then ffDecode bf16 (packedElem 2 v e) else dec32 (lane v e)
  s.putAll i 8 (vcvtInto (vFmt w) n src)

/-- The value of element e of a packed register. -/
def packedVal (f : Nat) (v : VReg) (e : Nat) : FV :=
  if fmtBlock f then scaledVal f (packedElem f v e) (packedScale v (e / 32)) else elemVal f (packedElem f v e)
/-- VCVTO: lanes or packed BF16 elements 0 to CR_VL − 1, the rest +0. -/
def effVcvto (i : Issue) (s : State) : State :=
  let w := vw i
  let vs := (List.range (s.vl i.pos i.ctx)).map (packedVal (vFmt w) (s.rV i (fA w)))
  s.putAll i 6 (if vFmt2 w = 2 then packReg 2 (vs.map (ffRound bf16)) [] else ofLanes (vs.map rnd32))

/-! ### Loads and stores (R146, R153) -/

/-- Offset of the elements of a form VM access. -/
def vmAddr (i : Issue) (s : State) (n : Nat) : Option Nat := effAddr (s.rA i (fA (vw i))) (vmOff (vw i)) n 64

def effVld (i : Issue) (s : State) : State :=
  let n := s.vl i.pos i.ctx
  match vmAddr i s (4 * n) with
  | none => s
  | some a =>
    if n = 0 then s
    else
      let x := s.access i.pos 3 i.cc [(a, 4 * n)]
      match x.1.readSpd i .v 3 (i.cc + x.2.1) a (4 * n) with
      | (s1, none) => s1
      | (s1, some bs) =>
        s1.laterV i (accLat 3 x.2.1 x.2.2) (fD (vw i)) (laneMask n) (BitVec.ofNat 16384 (bytesNat bs))
def effVst (i : Issue) (s : State) : State :=
  let n := s.vl i.pos i.ctx
  match vmAddr i s (4 * n) with
  | none => s
  | some a =>
    if n = 0 then s
    else
      let x := s.access i.pos 4 i.cc [(a, 4 * n)]
      x.1.later i (accLat 2 x.2.1 x.2.2) (.mem a (natBytes (s.rV i (fD (vw i))).toNat (4 * n)))

/-- The element run and the scale run of VLDB and VSTB. -/
def vbRuns (i : Issue) (s : State) : Option ((Nat × Nat) × (Nat × Nat)) :=
  let w := vw i
  let f := vFmt w
  let n := s.vl i.pos i.ctx
  match vmAddr i s (vElemBytes n f) with
  | none => none
  | some a =>
    if !fmtBlock f then some ((a, vElemBytes n f), (0, 0))
    else match effAddr (s.rA i (fB w)) 0 (vScaleBytes n f) 16 with
      | none => none
      | some b => some ((a, vElemBytes n f), (b, vScaleBytes n f))
def effVldb (i : Issue) (s : State) : State :=
  match vbRuns i s with
  | none => s
  | some (e, c) =>
    if s.vl i.pos i.ctx = 0 then s
    else
      let x := s.access i.pos 3 i.cc [e, c]
      match x.1.readRuns i .v 3 (i.cc + x.2.1) [e, c] with
      | (s1, none) => s1
      | (s1, some l) =>
        s1.laterV i (accLat 3 x.2.1 x.2.2) (fD (vw i)) fullMask
          (BitVec.ofNat 16384 (bytesNat (l.headD []) + 2 ^ (8 * 1536) * bytesNat (l.getD 1 [])))
def effVstb (i : Issue) (s : State) : State :=
  match vbRuns i s with
  | none => s
  | some (e, c) =>
    if s.vl i.pos i.ctx = 0 then s
    else
      let x := s.access i.pos 4 i.cc [e, c]
      let l := accLat 2 x.2.1 x.2.2
      let v := (s.rV i (fD (vw i))).toNat
      (x.1.later i l (.mem e.1 (natBytes v e.2))).later i l (.mem c.1 (natBytes (v >>> (8 * 1536)) c.2))

/-! ### The opcode map and the commands -/

/-- The effect of a V-slot opcode. -/
def vEffect (op : Nat) : Issue → State → State :=
  match op with
  | 0x01 => effVadd | 0x02 => effVsub | 0x03 => effVmul | 0x04 => effVfma | 0x05 => effVmax | 0x06 => effVmin
  | 0x07 => effVabs | 0x08 => effVneg | 0x09 => effVmov | 0x0A => effVbcast | 0x0B => effVcmplt | 0x0C => effVcmpeq
  | 0x0D => effVsel | 0x10 => effVrsum | 0x11 => effVrmax | 0x18 => effVexp2 | 0x19 => effVlog2 | 0x1A => effVrcp
  | 0x1B => effVrsqrt | 0x1C => effVtanh | 0x20 => effVcvti | 0x21 => effVcvto | 0x28 => effVld | 0x29 => effVst
  | 0x2A => effVldb | 0x2B => effVstb
  | _ => fun _ s => s

def execVadd (i : Issue) (s : State) : Out := .next (slotCmd .v 0x01 false effVadd i s)
def execVsub (i : Issue) (s : State) : Out := .next (slotCmd .v 0x02 false effVsub i s)
def execVmul (i : Issue) (s : State) : Out := .next (slotCmd .v 0x03 false effVmul i s)
def execVfma (i : Issue) (s : State) : Out := .next (slotCmd .v 0x04 false effVfma i s)
def execVmax (i : Issue) (s : State) : Out := .next (slotCmd .v 0x05 false effVmax i s)
def execVmin (i : Issue) (s : State) : Out := .next (slotCmd .v 0x06 false effVmin i s)
def execVabs (i : Issue) (s : State) : Out := .next (slotCmd .v 0x07 false effVabs i s)
def execVneg (i : Issue) (s : State) : Out := .next (slotCmd .v 0x08 false effVneg i s)
def execVmov (i : Issue) (s : State) : Out := .next (slotCmd .v 0x09 false effVmov i s)
def execVbcast (i : Issue) (s : State) : Out := .next (slotCmd .v 0x0A false effVbcast i s)
def execVcmplt (i : Issue) (s : State) : Out := .next (slotCmd .v 0x0B false effVcmplt i s)
def execVcmpeq (i : Issue) (s : State) : Out := .next (slotCmd .v 0x0C false effVcmpeq i s)
def execVsel (i : Issue) (s : State) : Out := .next (slotCmd .v 0x0D false effVsel i s)
def execVrsum (i : Issue) (s : State) : Out := .next (slotCmd .v 0x10 false effVrsum i s)
def execVrmax (i : Issue) (s : State) : Out := .next (slotCmd .v 0x11 false effVrmax i s)
def execVexp2 (i : Issue) (s : State) : Out := .next (slotCmd .v 0x18 false effVexp2 i s)
def execVlog2 (i : Issue) (s : State) : Out := .next (slotCmd .v 0x19 false effVlog2 i s)
def execVrcp (i : Issue) (s : State) : Out := .next (slotCmd .v 0x1A false effVrcp i s)
def execVrsqrt (i : Issue) (s : State) : Out := .next (slotCmd .v 0x1B false effVrsqrt i s)
def execVtanh (i : Issue) (s : State) : Out := .next (slotCmd .v 0x1C false effVtanh i s)
def execVcvti (i : Issue) (s : State) : Out := .next (slotCmd .v 0x20 false effVcvti i s)
def execVcvto (i : Issue) (s : State) : Out := .next (slotCmd .v 0x21 false effVcvto i s)
def execVld (i : Issue) (s : State) : Out := .next (slotCmd .v 0x28 false effVld i s)
def execVst (i : Issue) (s : State) : Out := .next (slotCmd .v 0x29 false effVst i s)
def execVldb (i : Issue) (s : State) : Out := .next (slotCmd .v 0x2A false effVldb i s)
def execVstb (i : Issue) (s : State) : Out := .next (slotCmd .v 0x2B false effVstb i s)

end Sys2Proof.Machine
end

