-- ==== Sys2Proof/Machine/Control.lean ====
section
/-! DEFINITION. The control unit's events (5.3 to 5.6): releases of stalls, handler windows and starts, halts by DBG,
service code of TOW; and the scratchpad's own events (7.2): zeroing of segments and patrol scrub. -/

namespace Sys2Proof.Machine

open Sys2Proof

/-! ### Stalls (R124, R166) -/

/-- The effect of an opcode in a slot. -/
def slotEffect : SlotK → Nat → Issue → State → State
  | .c => cEffect | .v => vEffect | .m => mEffect | .x => xEffect

/-- Every slot of a bundle takes effect, in slot order, where its guard is true (SEL always); x replaces the X slot. -/
def issueSlots (x : Issue → State → State) (i : Issue) (s : State) : State :=
  allSlots.foldl (fun s k =>
    let w := slotWord i.bundle k
    if slotValid i.bundle k && (guardTrue (s.core i.pos) i.ctx w || (k == .c && opcode w == 0x34)) then
      (if k = .x then x i s else slotEffect k (opcode w) i s)
    else s) s

/-- MAIN's held bundle issues in cycle cc: the length of the stall is recorded, a running handler is suspended. -/
def releaseHeld (p : Pos) (cc : Nat) (x : Issue → State → State) (i : Issue) (pt : Fin 6) (s : State) : State :=
  let j := { i with cc := cc }
  let fs := bundleFaults s j
  let s1 := (s.yieldHand p cc).modCtl p fun k => { k with
    main := .issuing, held := none, freed := false, issueCc := some cc, lastStall := stallReg pt.val (cc - k.stallStart) }
  match fs with
  | f :: _ => s1.fault p .main i.idx (slotMask fs) f.2
  | [] =>
    let s2 := s1.modCore p fun c => c.modCtx .main fun q => { q.seq i.idx cc with slotsDone := 15 }
    issueSlots x j s2

/-- The bundle MAIN is held at, with its stall point. -/
def Control.heldAt (k : Control) : Option (Issue × Fin 6) :=
  match k.main, k.held with
  | .stalled pt, some i => some (i, pt)
  | _, _ => none

/-- What a SEND does whose patience ran out: nothing is staged and the slot completes with BERTH_FULL. -/
def sendGivesUp (i : Issue) (s : State) : State := withSlot i s fun s =>
  ((s.setSendStat i.pos i.ctx .berthFull).modMov i.pos fun m =>
    { m with stalls := m.stalls ++ [{ dest := (s.rS i (xA (xw i))).extractLsb' 0 7, berth := (s.rS i (xA (xw i))).extractLsb' 7 6
                                      barge := false, answers := 0, waited := i.cc - (s.core i.pos).ctl.stallStart }] }).xEnd i .berthFull

/-- The X slot of a bundle whose stall an overrun ended before its condition held (R125): a WAIT and a RECV do nothing, an SWAIT reads
its slot, a SEND gives up. Beyond the rules' words: log entry 85 (DEDUCED). -/
def freedEffect (met : Bool) (i : Issue) (s : State) : State :=
  let op := opcode (xw i)
  if met || op == 0x02 then slotEffect .x op i s else if op == 0x08 then sendGivesUp i s else s

/-- The held bundle issues in the cycle after the releasing event became visible; a SEND, before its patience ran out. -/
def execStallRelease (p : Pos) (cc : Nat) (s : State) : Out := .next (
  if cc = 0 ∨ cc - 1 < (s.ut p).cycle ∨ !s.dieUp p then s
  else
    let s0 := s.run p (cc - 1)
    let k := (s0.core p).ctl
    match k.heldAt with
    | none => s0
    | some (i, pt) =>
      let met := (stallPoint s0 p i.bundle).isNone
      let open_ := met && (pt != 3 || decide (cc ≤ k.stallStart + (vat k.patience 0).toNat))
      if (open_ || k.freed) && decide (k.stallStart < cc) then releaseHeld p cc (freedEffect met) i pt (s0.run p cc) else s0)

def execSendPatienceExpiry (p : Pos) (cc : Nat) (s : State) : Out := .next (tileEvent p cc (fun s =>
  let k := (s.core p).ctl
  match k.heldAt with
  | some (i, 3) =>
    if k.stallStart + (vat k.patience 0).toNat ≤ cc && stagingFull s p then releaseHeld p cc sendGivesUp i 3 s else s
  | _ => s) s)

/-! ### Handlers (R136, R137, R139) -/

/-- MAIN issues again; a running handler is suspended. -/
def execHwinExpiry (p : Pos) (cc : Nat) (s : State) : Out := .next (tileEvent p cc (fun s =>
  let k := (s.core p).ctl
  if k.hwinOpen && decide (k.hwinEnd ≤ cc) then
    s.modCtl p fun k => { k with hwinOpen := false, hand := if k.hand == .running then .suspended else k.hand }
  else s) s)

/-- The registers of Table 5.10. -/
def CtxState.entered (c : CtxState) (v : Invocation) (entry : BitVec 14) (cc : Nat) : CtxState :=
  { c with
    a := c.a.set 0 (v.payload.zeroExtend 48)
    s := (((c.s.set 0 (v.length.zeroExtend 64)).set 1 (v.src.zeroExtend 64)).set 2
      (BitVec.ofNat 64 (v.berth.val + 65536 * v.gen.toNat))).set 3 v.word0
    p := c.p.set 1 v.combined
    nextIdx := entry, nextCc := cc, opened := false }

def execHandlerStart (p : Pos) (cc : Nat) (s : State) : Out := .next (tileEvent p cc (fun s =>
  let c := s.core p
  let k := c.ctl
  match k.queue with
  | [] => s
  | v :: r =>
    if k.hand == .idle && !vat k.stopped 1 && decide (v.postedCc + 4 ≤ cc) && (k.handLast == 0 || decide (k.handLast + 4 ≤ cc)) then
      let e := handlerEntry c v.handler.toNat
      let s1 := s.modCtl p fun k => { k with queue := r }
      if istoreBad c (fld e 0 14) then s1.fault p .hand (e.extractLsb' 0 14) 0 .istoreBounds
      else
        (s1.modCtl p fun k => { k with
          hand := if s.mainIssues p cc then .suspended else .running
          curInv := some v, handIssued := 0, handBudget := fld e 16 12 }).modCore p fun c =>
          c.modCtx .hand fun q => q.entered v (e.extractLsb' 0 14) cc
    else s) s)

/-! ### DBG and TOW (R122, R123) -/

/-- MAIN is halted in a cycle; its state is kept for the resume. -/
def Control.halt (at_ : Nat) (k : Control) : Control :=
  { k with main := .halted, heldHalt := some k.main, haltWanted := false, dbgAttached := true, haltAt := at_ }

/-- A halt request takes effect for a DEBUG step or where no step runs; otherwise it waits until the step ends.
Beyond the rules' words: log entry 27 (DEDUCED). -/
def execDbgHalt (p : Pos) (s : State) : Out := .next (
  if !s.dieUp p || (s.core p).ctl.main == .halted then s
  else match s.stepAt p with
    | some r => if r.man.debug then s.modCtl p (Control.halt (s.ut p).cycle) else s.modCtl p fun k => { k with haltWanted := true }
    | none => s.modCtl p (Control.halt (s.ut p).cycle))

/-- MAIN's count goes on in cycle now: what it had still to wait at the halt, it waits after it (R123). -/
def Control.resumed (k : Control) (m : MainSt) (now tick : Nat) : Control :=
  { k with
    main := m, heldHalt := none, haltLost := k.haltLost + (now - max k.haltAt tick), hwinEnd := k.hwinEnd + (now - k.haltAt)
    stallStart := k.stallStart + (now - k.haltAt) }

/-- MAIN goes on where it was halted, in the tile's present cycle. A core that a gate tick found halted at pound end is late and starts
its next slice (R41). Beyond the rules' words: log entry 27 (DEDUCED). -/
def execDbgResume (p : Pos) (s : State) : Out := .next (
  let k := (s.core p).ctl
  match k.main, k.heldHalt with
  | .halted, some m =>
    let now := (s.ut p).cycle
    let s1 := (s.modCtl p fun k => k.resumed m now (s.ut p).tick).modCore p fun c =>
      c.modCtx .main fun q => { q with nextCc := max q.nextCc k.haltAt + (now - k.haltAt) }
    if m = .stalled 5 && k.lateRun then
      (match s1.catchUp p false with
       | some j => s1.startLate p now j
       | none => (s1.pendReport p (s1.lastEmpty p)).modCtl p fun k => { k with lateRun := false, missed := 0 })
    else s1
  | _, _ => s)

/-- What a write of service code does. -/
def Core.towWrite (c : Core) : TowWrite → Core
  | .sReg h r v => c.modCtx (if h then .hand else .main) fun q => { q with s := q.s.set r v }
  | .aReg h r v => c.modCtx (if h then .hand else .main) fun q => { q with a := q.a.set r v }
  | .pReg h r v => if r = 0 then c else c.modCtx (if h then .hand else .main) fun q => { q with p := q.p.set r v }
  | .vReg r v => { c with vMain := c.vMain.set r v }
  | .vHand r v => { c with vHand := c.vHand.set r v }
  | .store k b => { c with img := { c.img with store := tblPut 0 c.img.store k.toNat b, ecc := c.img.ecc.filter fun n => n != k.toNat } }
  | .handler k e => { c with img := { c.img with htab := tblPut 0 c.img.htab k.toNat e } }

/-- TOW runs service code; its write to MAIN's or HAND's state, the instruction store or the handler table raises
CONTEXT_ILLEGAL in TOW while an admitted step names the LT. -/
def execTowService (p : Pos) (w : TowWrite) (s : State) : Out := .next (
  if !s.dieUp p then s
  else
    let s1 := (s.modCtl p fun k => { k with towBusy := true, stopped := k.stopped.set 2 false }).modCore p fun c =>
      c.modCtx .tow fun q => { q with nextCc := max q.nextCc (s.ut p).cycle }
    if (s.stepAt p).isSome then s1.fault p .tow (s1.core p).tow.nextIdx 0 .contextIllegal
    else s1.modCore p fun c => c.towWrite w)

/-! ### Scratchpad events (R177, R180) -/

/-- A die whose VCORE has come back is IDLE (Table 12.7). -/
def Regulator.awake (r : Regulator) : Regulator :=
  if r.vcore && (r.state == 2 || r.state == 3) then { r with state := 1, pending := false } else r
/-- The core may issue and its ports serve again, from cycle cc on. -/
def execSegmentZeroingDone (p : Pos) (cc : Nat) (s : State) : Out := .next (
  if cc < (s.ut p).cycle || !(s.core p).spd.zeroing then s
  else ((s.run p cc).modSpd p fun d => { d with zeroing := false, free := d.free.map fun f => max f cc }).modUt p fun u => { u with pwr := u.pwr.awake })

/-- NI moves nothing in cycle cc and owns the group of chunk k (R170, R180); an access of NI that waits for its group moves nothing. -/
def State.niIdle (s : State) (p : Pos) (cc k : Nat) : Bool :=
  (s.core p).spd.niBusy.all (fun e => decide (cc < e.1) || decide (e.1 + e.2 ≤ cc)) && decide ((s.core p).spd.scrubNext ≤ cc) &&
    !(s.core p).spd.zeroing && decide ((7 + (cc - (s.ut p).tick)) % 8 = k % 8)

/-- The scrub reads the next chunk in address order. -/
def execPatrolScrub (p : Pos) (cc : Nat) (s : State) : Out := .next (tileEvent p cc (fun s =>
  let d := (s.core p).spd
  let k := d.scrubPos
  if d.scrubEn && s.niIdle p cc k then
    s.modSpd p fun d =>
      let e := (d.meet 7 (1024 * k) 1024)
      { e with
        scrubNext := cc + 1, scrubPos := (k + 1) % 65536, passes := if k + 1 = 65536 then e.passes + 1 else e.passes
        scrubFix := if d.single.any (fun w => wordHit (1024 * k) 1024 w) && !e.scrubFix.contains k then e.scrubFix ++ [k]
          else e.scrubFix }
  else s) s)

/-- A corrected chunk that no port has written since goes back in NI's idle turn on its group. -/
def execScrubWriteback (p : Pos) (cc : Nat) (s : State) : Out := .next (tileEvent p cc (fun s =>
  match (s.core p).spd.scrubFix.find? fun k => s.niIdle p cc k with
  | none => s
  | some k => s.modSpd p fun d => { d with
      scrubNext := cc + 1, scrubFix := d.scrubFix.erase k
      single := d.single.filter fun w => !wordHit (1024 * k) 1024 w }) s)

end Sys2Proof.Machine
end

