-- ==== Sys2Proof/Machine/Engines.lean ====
section
/-! DEFINITION. Answers that reach their requesters (R246): of a core's operations and streams, of slices, and of the engines whose accesses
stand in State.errands; the reply timer (R274). -/

namespace Sys2Proof.Machine

open Sys2Proof

/-! ### Engines' accesses (R297, R310, R204) -/

/-- An access that has all its answers goes on as its engine says. -/
def State.conclude (s : State) (e : Errand) : State :=
  match e.work with
  | .migrate => s.migWork e
  | .kcl _ => s.kclWork e
  | .back _ _ => s.kclWork e
  | _ => s.portWork e
/-- One request of an access is answered; the first status other than DONE ends the access. -/
def State.errandAnswered (s : State) (id off : Nat) (st : Status) (data : List Byte) : State :=
  match s.errand id with
  | none => s
  | some e =>
    let e1 := e.answer off st data
    if e1.left = 0 ∨ st ≠ .done then (s.dropErrand id).conclude e1
    else { s with errands := s.errands.map fun x => if x.id = id then e1 else x }

/-- An answer has reached a tile's engine: its timer stops. -/
def State.engineAnswer (s : State) (p : Pos) (q : Packet) (id off : Nat) : State :=
  ((s.dropPacket q.id).settleLoose p q.opId).errandAnswered id off q.status q.payload

/-! ### Arrivals -/

def execWrAns (id : Nat) (cc : Nat) (s : State) : Out := .next (arrive 4 id cc (fun p q s =>
  match q.tag with
  | .errand e off => s.engineAnswer p q e off
  | _ => s.wrAns p q cc) s)

/-- Read data for the core waits while segments are zeroed (R177); for a port engine it does not. -/
def execRdData (id : Nat) (cc : Nat) (s : State) : Out := .next (arrive 2 id cc (fun p q s =>
  match q.tag with
  | .errand e off => s.engineAnswer p q e off
  | _ => if (s.core p).spd.zeroing then s else s.rdData p q cc) s)

/-- Line data or a write completion reaches whoever asked: at a Canal die, K0's engines; the fills of slices and of chart caches are
commands of their own. -/
def execLineData (id : Nat) (s : State) : Out := .next (
  match s.packet id with
  | none => s
  | some q =>
    if q.type ≠ 0xA then s
    else match q.place, q.tag with
      | .canal d, .errand e off => if q.badHeader || s.dieOff d then s.dropPacket id else (s.dropPacket id).errandAnswered e off q.status q.payload
      | .delivered p, tag =>
        if (s.ut p).flags.lost then s.dropPacket id
        else if q.badHeader then s.discardBad p q
        else match tag with
          | .stream _ k n => s.streamLine p k n q
          | .back _ n => s.backDone p n q
          | .errand e off => s.engineAnswer p q e off
          | .slice _ _ => s
          | .fill _ _ => s
          | _ => (s.dropPacket id).settleLoose p q.opId
      | _, _ => s)

/-! ### Reply timer (R274) -/

/-- Some request of the operation is injected and unanswered, and none still waits at the interface. -/
def State.underWay (s : State) (p : Pos) (o : MoveOp) : Bool :=
  o.injected && o.outcome.isNone && !(s.net.any fun q => q.opId == o.id && q.place == .source p && q.isRequest)

/-- The staging entry of an operation's barge that is in flight. -/
def State.stageOfSlot (s : State) (p : Pos) (k : Fin 64) : Option (Fin 8) :=
  (List.finRange 8).find? fun g => match (s.core p).mov.staging[g] with | some e => e.slot == k && e.inFlight | none => false
/-- A line's request still waits at the interface. -/
def State.lineWaits (s : State) (p : Pos) (op n : Nat) : Bool :=
  s.net.any fun q => q.place == .source p && q.opId == op && match q.tag with | .stream _ _ m => m == n | _ => false

def State.countTimeout (s : State) (p : Pos) : State := s.modMesh p fun m => { m with timeouts := m.timeouts + 1 }

/-- A requester's timer has run out on an LT; with the fourth requester in one pound the event is reported (Table 15.8). -/
def State.noteTimeout (s : State) (p : Pos) (lt : Nat) : State :=
  if h : lt < 120 then
    let l := if s.repair.timeouts.contains (lt, p) then s.repair.timeouts else s.repair.timeouts ++ [(lt, p)]
    let s1 : State := { s with repair := { s.repair with timeouts := l } }
    if 4 ≤ (l.filter fun e => e.1 == lt).length then s1.tellRepair (.replyTimeouts ⟨lt, h⟩) else s1
  else s
/-- A request that no slot holds has met the timer: a slice answers for its fetch, a chart cache may ask again, a write-back is given up, an
engine's access ends with REPLY_TIMEOUT. Beyond the rules' words: log entry 91 (DEDUCED). -/
def State.looseTimeout (s : State) (p : Pos) (l : Loose) : State :=
  let s1 := (s.countTimeout p).modMesh p fun m => { m with loose := m.loose.filter fun x => x.op != l.op }
  match l.tag with
  | .slice _ rid => match s1.packet rid with
    | some q => s1.reply p q .replyTimeout []
    | none => s1
  | .fill _ n => s1.modCht p fun c => { c with pendFill := c.pendFill.filter fun x => x.toNat / 8 != n }
  | .back _ n => s1.modStg p fun g => { g with lines := g.lines.filter fun x => !(x.line == n && x.leaving) }
  | .errand id off => s1.errandAnswered id off .replyTimeout []
  | _ => s1

/-- Operation number id of the tile's core has met the reply timer: its slot completes with the first status other than DONE,
and later answers find no operation. A stream ends at the first line whose answer is missing. -/
def execReplyTimeout (p : Pos) (id : Nat) (t : Nat) (s : State) : Out := .next (
  let tmr := (s.ut p).mesh.tmrUs.toNat * 1000
  match s.slotOfOp p id with
  | none =>
    match (s.ut p).mesh.loose.find? fun l => l.op == id && decide (l.since + tmr ≤ t) with
    | some l => (s.at_ t).looseTimeout p l
    | none => s.at_ t
  | some k =>
    match (s.slot p k).op with
    | none => s.at_ t
    | some o =>
      let s0 := (s.at_ t).countTimeout p
      if o.kind = .stream then
        match (s.core p).mov.streams.find? fun x => x.op == id with
        | none => s.at_ t
        | some st =>
          match st.outst.find? fun e => decide (e.2 + tmr ≤ t) && !s.lineWaits p id e.1 with
          | some e => s0.modStream p id fun x =>
              let y := x.stopAt e.1 .replyTimeout
              { y with outst := y.outst.filter fun z => z.1 != e.1 }
          | none => s.at_ t
      else if s.underWay p o && decide (0 < o.left) && decide (o.tInj + tmr ≤ t) then
        let s1 := (s0.noteTimeout p o.toLt.toNat).endOp p k (if o.worst = .done then .replyTimeout else o.worst)
        match s.stageOfSlot p k with
        | some g => if o.kind = .send then s1.modStage p g fun _ => none else s1
        | none => s1
      else s.at_ t)

end Sys2Proof.Machine
end

