-- ==== Sys2Proof/Machine/Time.lean ====
section
/-! DEFINITION. Panel time (13.7) and its outputs (13.8): sources, the servo, the trim, TIM_SET, PPS_OUT, IEEE 1588, the companion's
frame marks, and the ALIVE pin (Table 11.13). -/

namespace Sys2Proof.Machine

open Sys2Proof

def execTimNowRead (tile : Option Pos) (t : Nat) (s : State) : Out := .next (
  (s.at_ t).latchFrac (match tile with | some p => .tile p 0x0C0000 | none => .canal 0x010008))

def State.modTsrc (s : State) (f : TimeSrc → TimeSrc) : State := { s with tsrc := f s.tsrc }

/-! ### Sources (R370, R371) -/

/-- PPS_IN edges one second ± 1 µs apart count toward qualification. -/
def execPpsInEdge (t : Nat) (s : State) : Out := .next (
  let s0 := s.at_ t
  s0.modTsrc fun c =>
    let good := match c.ppsLast with
      | some l => if 999999000 ≤ t - l && t - l ≤ 1000001000 then c.ppsGood + 1 else 1
      | none => 1
    { c with ppsInCount := c.ppsInCount + 1, ppsLast := some t, ppsGood := good })

/-- The largest and the least of the offsets lie within 1 µs. -/
def closeTogether (l : List Int) : Bool := l.all fun x => l.all fun y => decide (x - y ≤ 1000)
/-- Table 13.5, third column, as far as the panel's own state shows it. Beyond the rules' words: log entry 54 (DEDUCED). -/
def State.meetsSource (s : State) (src : Fin 3) : Bool :=
  let c := s.tsrc
  match src.val with
  | 0 => decide (4 ≤ c.ppsGood)
  | 1 => c.ptpMode == 1 && c.ptpSlave && c.ptpOffsets.length == 16 && closeTogether c.ptpOffsets
  | _ => decide (64 ≤ s.intake.marks)

/-- Sum and length of what a trim has stood, from a time on; newest first. -/
def trimSum (start : Nat) : Nat → List (Nat × Int) → Int × Nat
  | _, [] => (0, 0)
  | until_, (a, v) :: r =>
    if until_ ≤ start then (0, 0)
    else
      let from_ := max a start
      let x := trimSum start from_ r
      (x.1 + v * (until_ - from_ : Nat), x.2 + (until_ - from_))
/-- The trim's mean over the last `window` ns: 1,000 s (R373) or an hour (13.1), rounded up or down. Beyond the rules' words: log entry 54
(DEDUCED). -/
def State.trimMean (s : State) (up : Bool) (window : Nat) : Int :=
  let x := trimSum (s.now - window) s.now s.tsrc.trims
  if x.2 = 0 then s.clocks.trim else meanOf up x.1 x.2

/-- A source comes into use, with its record: old and new class, offset, slew. Into holdover the trim is frozen at its mean (R373), rounded
one way or the other (log entry 3). -/
def State.useSource (s : State) (new : BitVec 2) : State :=
  let old := s.tsrc.cur
  let s1 := if new = 3 then
      let v := s.trimMean (bit s.freeWord.1 0) 1000000000000
      { s.freeWord.2.slewed.modTsrc fun c => { c with
        cur := 3, holdFrom := s.now, lastClass := old, remain := 0, trims := (s.now, v) :: c.trims } with
        clocks := { s.clocks with trim := v } }
    else s.modTsrc fun c => { c with cur := new, servoAt := s.now }
  s1.logRec 0x40 .firmware [old.toNat, new.toNat, (BitVec.ofInt 64 s1.tsrc.remain).toNat, 1]

/-- The qualified and enabled source of highest priority; 3 without one. -/
def TimeSrc.best (c : TimeSrc) : BitVec 2 :=
  if c.qual.getLsbD 0 && c.en.getLsbD 0 then 0 else if c.qual.getLsbD 1 && c.en.getLsbD 1 then 1
  else if c.qual.getLsbD 2 && c.en.getLsbD 2 then 2 else 3
/-- The source in use serves no longer: the next one takes over at once. Beyond the rules' words: log entry 55 (DEDUCED). -/
def State.nextSource (s : State) : State :=
  let c := s.tsrc
  if c.cur = 3 || (c.qual.getLsbD c.cur.toNat && c.en.getLsbD c.cur.toNat) then s else s.useSource c.best

def execTimeSourceQualify (src : Fin 3) (t : Nat) (s : State) : Out := .next (
  let s0 := s.at_ t
  if s0.tsrc.qual.getLsbD src.val || !s0.meetsSource src then s0
  else
    let s1 := s0.modTsrc fun c => { c with
      qual := c.qual ||| BitVec.ofNat 3 (2 ^ src.val), qualSince := c.qualSince.set src s0.now, freeRun := false }
    if src = 0 then s1.mswReady 1 true true else s1)

/-- A source of higher priority takes over after 10 s. -/
def execTimeSourceTakeover (src : Fin 3) (t : Nat) (s : State) : Out := .next (
  let s0 := s.at_ t
  let c := s0.tsrc
  let held (k : Fin 3) : Bool := c.qual.getLsbD k.val && c.en.getLsbD k.val && decide (c.qualSince[k] + 10000000000 ≤ s0.now)
  if held src && decide (src.val < c.cur.toNat) && !((List.finRange 3).any fun k => decide (k < src) && held k) then
    s0.useSource (BitVec.ofNat 2 src.val)
  else s0)

/-- What disqualifies a source, as far as the panel's own state shows it: REF_IN is outside it. Beyond the rules' words: log entry 54 (DEDUCED). -/
def State.failsSource (s : State) (src : Fin 3) : Bool :=
  let c := s.tsrc
  match src.val with
  | 0 => true
  | 1 => !c.ptpSlave || decide (c.ptpLastSync + 3000000000 ≤ s.now)
  | _ => decide (s.intake.lastMark + 10000 ≤ s.now) && !((s.kport 0).state == 3 && (s.kport 1).state == 3)
/-- Two PPS_IN edges are missing: the source fails although REF_IN is good. -/
def State.ppsMissing (s : State) : Bool :=
  match s.tsrc.ppsLast with
  | some l => decide (l + 2000001000 ≤ s.now)
  | none => true

/-- A source disqualifies. A bad REF_IN takes the TIME domain back to OSC (R368). Beyond the rules' words: log entry 55 (DEDUCED). -/
def State.disqualify (s : State) (src : Fin 3) : State :=
  let s1 := s.modTsrc fun c => { c with qual := c.qual &&& ~~~BitVec.ofNat 3 (2 ^ src.val) }
  let s2 := match src.val with
    | 0 =>
      let k := s1.modTsrc fun c => { c with ppsGood := 0 }
      if s.ppsMissing then k
      else
        let k1 := k.mswReady 1 true false
        if k1.clocks.msw[1].cur then k1.mswTo 1 false 3 else k1
    | 1 => s1.modTsrc fun c => { c with ptpOffsets := [] }
    | _ => { s1 with intake := { s1.intake with marks := 0 } }
  s2.nextSource
def execTimeSourceDisqualify (src : Fin 3) (t : Nat) (s : State) : Out := .next (
  let s0 := s.at_ t
  if s0.tsrc.qual.getLsbD src.val && s0.failsSource src then s0.disqualify src else s0)

/-! ### The servo (R372, R373) -/

/-- Trims that the means still need: those of the last hour and the one before. -/
def keepTrims (start : Nat) : List (Nat × Int) → List (Nat × Int)
  | [] => []
  | x :: r => if x.1 ≤ start then [x] else x :: keepTrims start r
def clampInt (lo hi v : Int) : Int := max lo (min hi v)

/-- What is due has been slewed; the difference still to slew, in 2⁻¹⁶ ns, is measured anew, and the trim moves toward the source's frequency: 1 ppb every 10 ms at most. -/
def execTimeServoUpdate (diff : Int) (ppb : Int) (t : Nat) (s : State) : Out := .next (
  let s0 := s.at_ t
  let c := s0.tsrc
  if c.cur = 3 then s0
  else
    let n := (s0.now - c.servoAt) / 10000000
    let trim := clampInt (-100000) 100000 (s0.clocks.trim + clampInt (-(n : Int)) n (ppb - s0.clocks.trim))
    let s1 : State := { s0.slewed with clocks := { s0.clocks with trim := trim } }
    s1.modTsrc fun c => { c with
      remain := diff, servoAt := c.servoAt + n * 10000000, trims := keepTrims (s0.now - 3600000000000) ((s0.now, trim) :: c.trims) })

/-- TIM_SET is accepted before stage 0x0A has passed and in STANDBY. -/
def State.timSettable (s : State) : Bool := s.lkh.pstate == .starting || s.lkh.pstate == .standby
/-- Panel time steps; the gate ticks that follow are those of the new time. Beyond the rules' words: log entry 54 (DEDUCED). -/
def State.stepTime (s : State) (v : Nat) : State :=
  { s with now := v, lastTick := v / s.poundNs * s.poundNs, tsrc := { s.tsrc with slewAt := v } }
def State.timSetWrite (s : State) (v : Nat) (origin : Origin) (path : Path) : State :=
  if s.timSettable then (s.logReg origin path (regCanal 0x010028) s.now v).stepTime v
  else s.modTsrc fun c => { c with setRefused := true }
def execTimSet (v : BitVec 64) (s : State) : Out := .next (s.timSetWrite v.toNat .firmware .internal)

/-- Once an hour, the mean of that hour. -/
def execTrimSave (up : Bool) (t : Nat) (s : State) : Out := .next (
  let s0 := s.at_ t
  if s0.clocks.trimSaved + 3600000000000 ≤ s0.now then
    { s0 with clocks := { s0.clocks with trimStored := s0.trimMean up 3600000000000, trimSaved := s0.now } }
  else s0)

/-! ### Outputs (R374, R375, Table 11.13) -/

/-- What holds PPS_OUT low whatever the second. -/
def State.ppsHeld (s : State) : Bool :=
  !s.tsrc.ppsEn || s.lkh.pstate == .off || (s.lkh.pstate == .starting && !s.lkh.warmRun) || (s.tsrc.ppsQual && s.tsrc.cur == 3)
/-- The level of PPS_OUT. -/
def State.ppsOut (s : State) : Bool := !s.ppsHeld && decide (s.now < s.pins.ppsUntil)
def execPpsOutPulse (t : Nat) (s : State) : Out := .next (
  let s0 := s.at_ t
  if t % 1000000000 ≠ 0 || t < s.now || s0.ppsHeld then s0
  else { s0 with pins := { s0.pins with ppsUntil := t + s0.tsrc.ppsWidth.toNat * 1000000 } })

/-- Table 13.7: clockClass and timeSource. -/
def TimeSrc.announced (c : TimeSrc) : BitVec 8 × BitVec 8 :=
  if c.cur = 0 then (6, c.ptpTsrc)
  else if c.cur = 2 then (13, 0x90)
  else if c.freeRun then (248, 0xA0)
  else if c.cur = 3 && c.lastClass = 0 then (7, 0xA0)
  else (14, 0xA0)
def State.ptpSend (s : State) (m : PtpOut) : State := s.modTsrc fun c => { c with ptpSent := c.ptpSent ++ [m] }

/-- An ordinary clock takes Sync, Announce and delay answers and measures the delay end to end; a grandmaster announces, sends Sync when one is
due and answers delay requests. Beyond the rules' words: log entry 54 (DEDUCED). -/
def execPtpMessage (m : PtpMsg) (t : Nat) (s : State) : Out := .next (
  let s0 := s.at_ t
  let c := s0.tsrc
  if c.ptpMode = 1 then match m with
    | .sync o => (s0.modTsrc fun c => { c with ptpSlave := true, ptpOffsets := (o :: c.ptpOffsets).take 16, ptpLastSync := s0.now }).ptpSend (.delayReq s0.now)
    | .announce => s0.modTsrc fun c => { c with ptpSlave := true }
    | .delayResp d => s0.modTsrc fun c => { c with ptpDelay := d }
    | .leaveSlave => s0.modTsrc fun c => { c with ptpSlave := false, ptpOffsets := [] }
    | .delayReq _ => s0
  else if c.ptpMode = 2 then match m with
    | .announce =>
      let a := c.announced
      s0.ptpSend (.announce a.1 a.2 c.ptpPrio1 c.ptpPrio2 c.ptpDomain c.ptpUtc)
    | .delayReq rx => s0.ptpSend (.delayResp rx)
    | .sync _ => s0.ptpSend (.sync s0.now)
    | _ => s0
  else s0)

/-- A frame mark of the port in use: K0 while UP, else K1 (R315). -/
def execKclTime (k : KPort) (tai : Nat) (t : Nat) (s : State) : Out := .next (
  let s0 := s.at_ t
  if (s0.kport k).state ≠ 3 || (k = 1 && (s0.kport 0).state = 3) then s0
  else
    let d := t - s0.intake.lastMark
    let n := if 990 ≤ d && d ≤ 1010 then s0.intake.marks + 1 else 1
    let s1 : State := { s0 with intake := { s0.intake with lastMark := t, marks := n } }
    if s1.tsrc.cur = 2 then s1.slewed.modTsrc fun c => { c with remain := ((tai : Int) - (s1.now : Int)) * 65536 } else s1)

/-- Firmware runs. -/
def State.firmwareRuns (s : State) : Bool := s.lkh.pstate != .off && (s.lkh.pstate != .starting || decide (2 ≤ s.lkh.stageNext))
def execAliveToggle (t : Nat) (s : State) : Out := .next (
  let s0 := s.at_ t
  if t % 500000 ≠ 0 || t < s.now || s0.pins.aliveAt = t || !s0.firmwareRuns then s0
  else { s0 with pins := { s0.pins with alive := !s0.pins.alive, aliveAt := t } })

end Sys2Proof.Machine
end

