-- ==== Sys2Proof/Machine/Tables.lean ====
section
/-! DEFINITION. Routing tables that firmware writes (R254 to R258, R261): LT maps from the placement, overrides around dropped seams
under the west-first rule (R257). -/

namespace Sys2Proof.Machine

open Sys2Proof

/-- Seams inside the panel that are dropped, by sending position and direction. -/
def State.deadSeams (s : State) : List (Nat × Nat) :=
  allPos.flatMap fun p => ([Dir.n, Dir.e, Dir.s, Dir.w].filter fun d => (neighbour p d).isSome && (s.seamDropped p d || !s.utWorks p)).map
    fun d => (p.val, (dirNum d).val)

/-- Every hop along a row, or along a column, is over a seam in service. -/
def rowClear (bad : List (Nat × Nat)) (r c1 c2 : Nat) : Bool :=
  if c1 ≤ c2 then (List.range' c1 (c2 - c1)).all fun c => !bad.contains (12 * r + c, 1)
  else (List.range' (c2 + 1) (c1 - c2)).all fun c => !bad.contains (12 * r + c, 3)
def colClear (bad : List (Nat × Nat)) (c r1 r2 : Nat) : Bool :=
  if r1 ≤ r2 then (List.range' r1 (r2 - r1)).all fun r => !bad.contains (12 * r + c, 2)
  else (List.range' (r2 + 1) (r1 - r2)).all fun r => !bad.contains (12 * r + c, 0)

/-- The override code of a tile for an exit: 0 where dimension order serves or nothing does (R254, R257). Every westward hop of the route
comes first: a column is used for the vertical hops only at or west of the exit's column. -/
def detourCode (bad : List (Nat × Nat)) (p x : Pos) : Nat :=
  let r := rowOf p
  let c := colOf p
  let rx := rowOf x
  let cx := colOf x
  let serves (k : Nat) : Bool := decide (k ≤ cx) && colClear bad k r rx && rowClear bad rx k cx
  if rowClear bad r c cx && colClear bad cx r rx then 0
  else if serves c && decide (r ≠ rx) then (if r < rx then 3 else 1)
  else if (List.range' (c + 1) (cx - c)).any fun k => serves k && rowClear bad r c k then 2
  else if (List.range c).any fun k => serves k && rowClear bad r c k then 4
  else 0

/-- The LT map entry of an LT (R425, R426). -/
def State.mapEnt (s : State) (l : Lt) : LtMapEnt :=
  let x := s.ltpos[l]
  if s.ltAbsent l || x.die.isNone then { pos := x.home, spareLink := false, present := false }
  else { pos := x.pos, spareLink := x.spareLink, present := true }

/-- Write both tables into a version at one tile. -/
def State.tileTables (s : State) (bad : List (Nat × Nat)) (maps : List LtMapEnt) (v : Bool) (p : Pos) : State :=
  let put (m : Mesh) (d x : Nat) : Mesh :=
    let k : BitVec 3 := BitVec.ofNat 3 (if bad.isEmpty then 0 else detourCode bad p (Fin.ofNat 144 x))
    { m with ovr := tblPut {} m.ovr (149 * b2n v + d) { req := k, rpl := k } }
  let canal (m : Mesh) (d : Nat) : Mesh :=
    match nearest s p (attachments (Fin.ofNat 5 d)) with
    | some x => put m (144 + d) x.val
    | none => put m (144 + d) p.val
  s.modMesh p fun m =>
    let m1 := (List.range 144).foldl (fun m d => put m d d) m
    let m2 := (List.range 5).foldl canal m1
    { m2 with ltmap := (maps.zipIdx).foldl (fun t e => tblPut none t (128 * b2n v + e.2) (some e.1)) m2.ltmap }
/-- Firmware writes the tables of the placement into a version at every working tile. -/
def State.writeTables (s : State) (v : Bool) : State :=
  let bad := s.deadSeams
  let maps := (List.finRange 120).map s.mapEnt
  (allPos.filter s.utWorks).foldl (fun (s : State) p => s.tileTables bad maps v p) s
/-- New tables for the next gate tick: the idle version is written and the flip armed. Firmware waits for a drain to end first. -/
def State.newTables (s : State) : State :=
  if s.epoch.free then { s.writeTables (!s.epoch.cur) with epoch := { s.epoch with arm := true } } else s

end Sys2Proof.Machine
end

