-- ==== Sys2Proof/Machine/Power.lean ====
section
/-! DEFINITION. Power (chapter 12): the input and the cap, reaches, rails and the power states of a die, power-on admission, loss of a
reach or of a supply; the ALERT_N pin. -/

namespace Sys2Proof.Machine

open Sys2Proof

/-! ### ALERT_N (Table 16.5) -/

/-- Firmware drives ALERT_N high in ACTIVE and STANDBY while no alert is pending. -/
def State.alert (s : State) : State :=
  { s with pins := { s.pins with alertN := (s.lkh.pstate == .active || s.lkh.pstate == .standby) && !s.therm.emerg && !s.therm.thermBad &&
      !s.intake.stopped && s.pins.thermTripN } }

/-! ### The cap in force (R331, R351) -/

def State.capNow (s : State) : Nat :=
  let k := s.power
  min (min (min k.userW.toNat 15000) (if k.vin = 0 then 15000 else 375 * k.vin.toNat / 100)) s.therm.thermalW.toNat
/-- EFFECTIVE_W follows; a record is made where it has changed by 500 W since the last record, or where one is due anyway (R470). -/
def State.recap (s : State) (force : Bool) (cause : Nat) : State :=
  let n := s.capNow
  let old := s.power.loggedW.toNat
  let s1 : State := { s with power := { s.power with effW := BitVec.ofNat 16 n } }
  if force || n + 500 ≤ old || old + 500 ≤ n then
    let s2 := s1.logRec 0x50 .firmware [old, n, cause]
    { s2 with power := { s2.power with loggedW := BitVec.ofNat 16 n } }
  else s1

/-! ### What a die keeps (Table 16.3, R445) -/

/-- A core reset: contexts, status slots, staging and matrix state at their reset values; scratchpad, image, COR_DESC, counters and fields
sealed under RWL kept. Beyond the rules' words: log entry 57 (DEDUCED). -/
def Core.resetRegs (c : Core) : Core :=
  let m := c.mat
  { c with
    main := {}, hand := {}, tow := {}, dbg := {}, vMain := Vector.replicate 64 0, vHand := Vector.replicate 4 0, vTow := Vector.replicate 4 0
    pend := [], ctl := { fault := c.ctl.fault, pended := true }
    mat := { margin := m.margin, marginStored := m.marginStored, mismatch := m.mismatch, lastRow := m.lastRow, lastValid := m.lastValid
             lastOvf := m.lastOvf, skipped := m.skipped
             keeper := { filled := m.keeper.filled, unDown := m.keeper.unDown, unUp := m.keeper.unUp, shortLead := m.keeper.shortLead } }
    spd := { c.spd with scrubEn := true, scrubPos := 0, scrubFix := [] }
    mov := { refused := c.mov.refused, lastSlot := c.mov.lastSlot, lastValid := c.mov.lastValid, lastStatus := c.mov.lastStatus
             nextOp := c.mov.nextOp } }
/-- The scratchpad, the image and the resident regions go as well: CLEAR, DARK and a warm reset.
Beyond the rules' words: log entry 57 (DEDUCED). -/
def Core.clearAll (c : Core) : Core :=
  let k := c.resetRegs
  { k with img := {}, spd := { k.spd with mem := [], single := [], bad := [], res := Vector.replicate 8 {} } }
/-- A byte of the scratchpad lies in a valid resident region (R177). -/
def Scratch.resident (d : Scratch) (a : Nat) : Bool :=
  d.res.toList.any fun r => r.valid && decide (r.base.toNat ≤ a / 65536) && decide (a / 65536 < r.base.toNat + r.len.toNat)
/-- RETAIN: resident regions, image, settings and counters stay. -/
def Core.retain (c : Core) : Core :=
  let k := c.resetRegs
  { k with
    mat := { k.mat with keeper := { k.mat.keeper with thresh := c.mat.keeper.thresh, level := c.mat.keeper.level } }
    spd := { k.spd with
      scrubEn := c.spd.scrubEn, mem := c.spd.mem.filter fun e => c.spd.resident e.1
      single := c.spd.single.filter fun w => c.spd.resident (4 * w), bad := c.spd.bad.filter fun w => c.spd.resident (4 * w) } }

/-- Every berth and window of a tile is closed under a new generation (Table 16.3, letter G). -/
def State.closeAll (s : State) (p : Pos) : State :=
  ((List.finRange 64).foldl (fun (s : State) k => s.berthReset p k) s).modUt p fun u => { u with windows := u.windows.map Window.reset }
def State.modPwr (s : State) (p : Pos) (f : Regulator → Regulator) : State := s.modUt p fun u => { u with pwr := f u.pwr }
/-- The die goes DARK: VCORE and VSRAM off, contents lost, what Table 16.3 keeps held in the under-tile (R445).
Beyond the rules' words: log entry 57 (DEDUCED). -/
def State.goDark (s : State) (p : Pos) : State :=
  ((s.closeAll p).modCore p Core.clearAll).modPwr p fun r => { r with
    req := 3, state := 3, pending := false, vsram := false, vcore := false, hold10 := false, boost := none, clamp := none }

/-! ### Fences and losses -/

def State.modFlags (s : State) (p : Pos) (f : TileFlags → TileFlags) : State := s.modUt p fun u => { u with flags := f u.flags }
/-- A unit goes out of service: its record entries (R419), and it awaits no fence command any more. -/
def State.fenceUnit (s : State) (unit : BitVec 40) (cause : BitVec 8) (voters : BitVec 3) : State :=
  let s1 := s.fdrAdd unit cause 1 voters
  { s1 with repair := { s1.repair with
    units := if s1.repair.units.contains unit then s1.repair.units else s1.repair.units ++ [unit]
    failures := s1.repair.failures.filter fun e => e.1 != unit } }
/-- What remains of a berth whose landing barges `bad` cannot complete: their entries are voided; an entry that a weir group has combined
into stays the group's, and a group left without an entry is forgotten. Beyond the rules' words: log entry 97 (DEDUCED). -/
def Berth.voidFrom (b : Berth) (bad : Contrib → Bool) : Berth :=
  let kept (e : BEntry) : Bool := b.weir && !b.ordered && b.groups.any fun g => g.entry == e.idx && g.some1
  let q := b.queue.map fun e =>
    if !e.whole && e.landing.any bad then
      let l := e.landing.filter fun c => !bad c
      if l.isEmpty && !kept e then { e with landing := [], voided := true, member := false } else { e with landing := l }
    else e
  let live (i : Nat) : Bool := !(q.any fun e => e.idx == i && e.voided)
  let again (g : Group) : Option Group :=
    match g.members.filter live with
    | [] => none
    | i :: r => some { g with members := i :: r, entry := if live g.entry then g.entry else i }
  { b with
    queue := q, groups := b.groups.filterMap again, strays := b.strays.filter fun x => !bad x.2.1
    leaving := b.leaving.map fun l => (l.1, l.2.filter fun x => !bad x.2.1) }
/-- The landing of one accepted barge ends with a status: its entry is voided, the rest of it is not written, its sender is answered. -/
def State.voidBarge (s : State) (x : Pos) (q : Packet) (st : Status) : State :=
  let k : Fin 64 := Fin.ofNat 64 (hdrBerth q.hdr)
  let b := s.berth x k
  let cs := b.queue.flatMap (fun e => e.landing.map fun c => (e.idx, c)) ++ (b.strays.map fun y => (y.1, y.2.1)) ++
    b.leaving.flatMap fun l => l.2.map fun y => (y.1, y.2.1)
  match cs.find? fun y => y.2.packet == q.id && decide ((s.ut x).cycle < y.2.landAt) with
  | none => s
  | some y =>
    ((s.modBerth x k fun b => b.voidFrom fun c => c.packet == q.id).modCore x fun c =>
      c.dropRing k (s.ut x).cycle (b.entryAt y.1) b.entryBytes).reply x q st []
/-- R220: the sender of barges that are still landing is fenced or reset. -/
def State.voidSender (s : State) (p : Pos) (st : Status) : State :=
  match s.ltAt p with
  | none => s
  | some l => s.net.foldl (fun (s : State) q =>
      match q.place with
      | .delivered x => if q.type = 5 ∧ q.taken ∧ q.skind = 0 ∧ q.src.toNat = l.val ∧ hdrMerged q.hdr = 1 then s.voidBarge x q st else s
      | _ => s) s
/-- A compute die is fenced; its step is aborted (phases 1 and 2 of Table 15.9). -/
def State.fenceDie (s : State) (p : Pos) (cause : BitVec 8) (voters : BitVec 3) : State :=
  if (s.ut p).flags.fencedDie then s
  else (((s.voidSender p .tileFenced).modFlags p fun f => { f.failed s.now with fencedDie := true, voted := voters != 0 }).fenceUnit (dieUnit p) cause voters).abortAt p (.status .tileFenced)

/-- A stack is lost: its contents, and the slices that held its lines. -/
def State.loseStack (s : State) (m : StackN) : State :=
  { s with hbm := vmod s.hbm m fun k => { k with mem := [], single := [], bad := [], lost := true, selfRefresh := false, retraining := [] } }
/-- Packets that stood at a position are gone. -/
def State.dropAt (s : State) (p : Pos) : State :=
  let here (q : Packet) : Bool := match q.place with
    | .source x => x == p | .router x => x == p | .spareLink x => x == p | .delivered x => x == p | .combining x => x == p | _ => false
  { s with net := s.net.filter fun q => !here q }
/-- A position loses its VNET, or its interface to the towpath: its seams drop, its die is out of service, its stack is lost and its port
is OFF (R341). -/
def State.losePos (s : State) (p : Pos) : State :=
  if (s.ut p).flags.lost then s
  else
    let s1 := ((s.voidSender p .tileFenced).dropAt p).modTile p fun t => { t with
      core := t.core.clearAll
      ut := { t.ut with
        stg := { t.ut.stg with lines := [], errList := [] }, cht := { t.ut.cht with ents := [], pendFill := [] }
        pwr := { t.ut.pwr with req := 3, state := 3, pending := false, vnet := false, vsram := false, vcore := false, hold10 := false }
        clk := { t.ut.clk with running := false, expRuns := false, dp0 := false, dp1 := false, exp := false, locked := false }
        flags := { t.ut.flags with lost := true, fencedDie := true } } }
    let drop (s : State) (d : Dir) : State := match neighbour p d with
      | none => s
      | some q => s.modUt q fun u => { u with xing := vmod u.xing (dirNum (opposite d)) fun x => { x with mode := 0, dropped := true } }
    let s2 := [Dir.n, Dir.e, Dir.s, Dir.w].foldl drop s1
    let s3 := match stackAt p with | some m => s2.loseStack m | none => s2
    match portAt p with
    | some x => s3.portLeave x .off .partnerLost
    | none => s3
/-- LTs that a position carried have no tile now. -/
def State.orphan (s : State) (p : Pos) : State :=
  { s with ltpos := s.ltpos.map fun x => if x.die = some p then { x with die := none } else x }

/-! ### Converters off (R332, R333) -/

def State.offTile (s : State) (p : Pos) : State :=
  (s.modCore p Core.clearAll).modPwr p fun r => { r with
    req := 3, state := 3, pending := false, vnet := false, vsram := false, vcore := false, hold10 := false }
/-- Every reach converter and both optics supplies off; the panel is OFF. -/
def State.goOff (s : State) : State :=
  let s1 := allPos.foldl (fun (s : State) p => s.offTile p) s
  let s2 := (List.finRange 18).foldl (fun (s : State) x => s.portLeave x .off .partnerLost) s1
  let s3 := (List.finRange 2).foldl (fun (s : State) k => s.kclLeave k 0) s2
  ({ s3 with
    reaches := s3.reaches.map fun (r : Reach) => { r with on := false, pg := false, inLimit := false, iout := 0, queue := [], held := [] }
    power := { s3.power with optics := false, inHold := false }, net := []
    lkh := { s3.lkh with pstate := .off, pending := false } }).alert
def pstateNum : PanelState → Nat
  | .active => 0 | .standby => 1 | .moored => 2 | .starting => 3 | .off => 4
/-- STATE: old and new panel state. -/
def State.logState (s : State) (holdup : Bool) (old new : PanelState) : State :=
  s.logFull holdup 0x12 .hardware .internal 0xFF (natBytes (pstateNum old) 8 ++ natBytes (pstateNum new) 8)
/-- Every running step is aborted; the manual gives no cause for it (log entry 3). -/
def State.abortForLoss (s : State) : State :=
  let w := s.freeWord
  (w.2.abortAll (.status (allStatuses.getD (w.1.toNat % 21) .done)) 0x7F (some .stepAborted)).endAborted .stepAborted

/-- R332: the input outside 36 to 62 V; a sample inside it moves the supply cap (R331). -/
def execPowerFail (mv : Nat) (t : Nat) (s : State) : Out := .next (
  let s0 := s.at_ t
  let s1 : State := { s0 with power := { s0.power with vin := BitVec.ofNat 16 (mv / 10), low := decide (mv < 40000), high := decide (60000 < mv) } }
  if (36000 ≤ mv && mv ≤ 62000) || s1.lkh.pstate == .off then s1.recap false 0
  else ((s1.abortForLoss).logState true s1.lkh.pstate .off).goOff)
def execPwrEnFall (t : Nat) (s : State) : Out := .next (
  let s0 := s.at_ t
  let s1 : State := { s0 with pins := { s0.pins with pwrEn := false } }
  if s1.lkh.pstate = .off then s1 else ((s1.abortForLoss).logState false s1.lkh.pstate .off).goOff)

/-! ### The cold start (Table 16.3, column Cold) -/

/-- What MRAM and fuses hold of the lock-houses' registers. Beyond the rules' words: log entry 62 (DEDUCED). -/
def Lkh.cold (k : Lkh) : Lkh :=
  { part := k.part, derated := k.derated, deratedLts := k.deratedLts, absentStacks := k.absentStacks
    hwDone := k.hwSaved[0], hwLost := k.hwSaved[1], hwLostProg := k.hwSaved[2], hwSound := k.hwSaved[3], hwMoored := k.hwSaved[4]
    hwIdle := k.hwSaved[5], hwSaved := k.hwSaved, narrow := k.narrowNext, narrowNext := k.narrowNext, coldStarts := k.coldStarts
    fdr := k.fdr, fdrCopies := k.fdrCopies, fuseBad := k.fuseBad, noPower := k.noPower, mapTrusted := k.mapTrusted, requalify := k.requalify, buckets := k.buckets, refBroken := true }
def Logbook.cold (l : Logbook) : Logbook := { l with sel := 0, ckptPend := [], ckptReqAt := none, lostUnread := false, selBad := false, holders := 0 }
def Security.cold (k : Security) : Security :=
  { revoked := k.revoked, groups := k.groups, locksStored := k.locksStored, setGen := k.setGen, mgrN := k.mgrN, mgrK := k.mgrK
    mgrKeys := k.mgrKeys, lastSeq := k.lastSeq, lastCtr := k.lastCtr, quarantine := k.quarantine, pkgs := k.pkgs }
/-- A cold start: reset values, but for what Table 16.3 keeps and for what is outside the panel. -/
def State.coldStart (s : State) : State :=
  let k := State.reset
  let s1 : State := { k with
    pending := s.pending, fresh := s.fresh, nextPkt := s.nextPkt, host := s.host
    tiles := Vector.ofFn fun p : Fin 144 => { core := { mat := { marginStored := s.tiles[p].core.mat.marginStored } } }
    intake := { hwinStored := s.intake.hwinStored, out := s.intake.out }
    clocks := { k.clocks with trim := s.clocks.trimStored, trimStored := s.clocks.trimStored }
    lkh := s.lkh.cold, log := s.log.cold, sec := s.sec.cold
    pins := { k.pins with panelRstN := true, pwrEn := true, flowOk := s.pins.flowOk, bootSel := s.pins.bootSel } }
  s1.logRec 0x11 .hardware [0, statusCode .done]

def execInputReturn (t : Nat) (s : State) : Out := .next (
  let s0 := s.at_ t
  if s0.lkh.pstate = .off && s0.pins.pwrEn && s0.pins.panelRstN then s0.coldStart else s0)

/-! ### Current limits (R335, R336) -/

def State.modReach (s : State) (r : ReachN) (f : Reach → Reach) : State := { s with reaches := vmod s.reaches r f }
/-- The regulators of a reach hold VCORE current, or hold it no more. -/
def State.holdReach (s : State) (r : ReachN) (on : Bool) : State :=
  (reachTiles r).foldl (fun (s : State) p => s.modPwr p fun k => { k with hold10 := on })
    (s.modReach r fun x => { x with inLimit := on, limitEvents := if on && !x.inLimit then x.limitEvents + 1 else x.limitEvents })
def State.sampleReach (s : State) (r : ReachN) (quarters : Nat) : State := s.modReach r fun x => { x with iout := BitVec.ofNat 10 (min quarters 1023) }
/-- 125 A. -/
def execReachCurrentLimit (r : ReachN) (quarters : Nat) (s : State) : Out := .next (
  let s1 := s.sampleReach r quarters
  if 500 ≤ quarters then s1.holdReach r true else s1)
/-- Below 115 A, unless the panel's own hold lasts. -/
def execReachLimitRelease (r : ReachN) (quarters : Nat) (s : State) : Out := .next (
  let s1 := s.sampleReach r quarters
  if quarters < 460 && !s.power.inHold then s1.holdReach r false else s1)
/-- The hold of every reach while the input current exceeds 390 A. -/
def execInputCurrentHold (tenths : Nat) (s : State) : Out := .next (
  let on := decide (3900 < tenths)
  let s1 : State := { s with power := { s.power with iin := BitVec.ofNat 16 (min tenths 65535), inHold := on } }
  if on then (List.finRange 24).foldl (fun (s : State) r => s.holdReach r true) s1
  else if s.power.inHold then
    (List.finRange 24).foldl (fun (s : State) r => if (s.reaches[r].iout.toNat) < 460 then s.holdReach r false else s) s1
  else s1)

/-! ### Power-on admission (R344 to R346) -/

def Regulator.rail (r : Regulator) : Rail → Bool
  | .vnet => r.vnet | .vsram => r.vsram | .vcore => r.vcore
def railNs : Rail → Nat
  | .vcore => 32000 | .vsram => 8000 | .vnet => 16000
/-- A request joins its reach's queue. -/
def State.askRail (s : State) (p : Pos) (rail : Rail) : State :=
  let r := s.reaches[reachOf p]
  let mine (q : PowerReq) : Bool := q.pos == p && q.rail == rail
  if (s.ut p).pwr.rail rail || r.queue.any mine || r.held.any fun e => mine e.1 then s
  else s.modReach (reachOf p) fun r => { r with queue := r.queue ++ [{ pos := p, rail := rail, at_ := s.now }] }
/-- A die that may be powered: its under-tile has VNET, and neither is out of service. -/
def State.dieUsable (s : State) (p : Pos) : Bool :=
  let u := s.ut p
  u.pwr.vnet && !u.flags.lost && !u.flags.fencedDie && !u.flags.fencedUt && !(s.core p).desc.disabled
/-- R338: VNET, then VSRAM, then VCORE. -/
def execPowerOnRequest (p : Pos) (rail : Rail) (t : Nat) (s : State) : Out := .next (
  let s0 := s.at_ t
  let ok := match rail with
    | .vnet => s0.reaches[reachOf p].pg && !(s0.ut p).flags.lost
    | .vsram => s0.dieUsable p
    | .vcore => s0.dieUsable p && (s0.ut p).pwr.vsram
  if ok then (s0.askRail p rail).modPwr p fun r => { r with pending := r.pending || rail != .vnet } else s0)

def Reach.allowance (r : Reach) (rail : Rail) : Nat := if rail = .vcore then r.inrushV.toNat else r.inrushO.toNat
/-- imeas: the highest sample of the last 16 µs, in quarters of an ampere. Beyond the rules' words: log entry 56 (DEDUCED). -/
def execPowerOnAdmit (r : ReachN) (imeas : Nat) (t : Nat) (s : State) : Out := .next (
  let s0 := s.at_ t
  let x := s0.reaches[r]
  match x.queue with
  | [] => s0
  | q :: rest =>
    let a := x.allowance q.rail
    if imeas + 4 * (x.held.foldl (fun n e => n + e.2) 0) + 4 * a ≤ 4 * x.limitA.toNat then
      s0.modReach r fun x => { x with queue := rest, held := x.held ++ [({ q with at_ := s0.now }, a)] }
    else s0)

/-- The rail is good. With VSRAM a die that was DARK goes on to VCORE; with VCORE its segments are zeroed, and then it is IDLE.
Beyond the rules' words: log entry 52 (DEDUCED). -/
def execPowerOnComplete (p : Pos) (rail : Rail) (t : Nat) (s : State) : Out := .next (
  let s0 := s.at_ t
  match s0.reaches[reachOf p].held.find? fun e => e.1.pos == p && e.1.rail == rail with
  | none => s0
  | some e =>
    if t < e.1.at_ + railNs rail then s0
    else
      let s1 := s0.modReach (reachOf p) fun x => { x with held := x.held.erase e }
      match rail with
      | .vnet => s1.modUt p fun u => { u with pwr := { u.pwr with vnet := true }, clk := { u.clk with exp := true, running := true, expRuns := true } }
      | .vsram => (s1.modPwr p fun r => { r with vsram := true }).askRail p .vcore
      | .vcore => (s1.modPwr p fun r => { r with vcore := true }).modSpd p fun d => { d with zeroing := true })

/-- A spare cannot serve (R424): its die counts as failed with the cause of the failure; where the manual names no cause code, the code is
free (log entry 3). -/
def State.spareFailed (s : State) (p : Pos) (cause : BitVec 8) : State :=
  let s1 := s.failUnit (dieUnit p) cause
  { s1 with repair := { s1.repair with
    unusable := if s1.repair.unusable.contains p then s1.repair.unusable else s1.repair.unusable ++ [p]
    subst := s1.repair.subst.filter fun x => x.spare != p } }
def State.spareFailedFree (s : State) (p : Pos) : State :=
  let w := s.freeWord
  w.2.spareFailed p (BitVec.ofNat 8 (w.1.toNat % 16 + 1))

/-- The request at the head has waited for 10 ms. -/
def execPowerOnTimeout (r : ReachN) (t : Nat) (s : State) : Out := .next (
  let s0 := s.at_ t
  match s0.reaches[r].queue with
  | [] => s0
  | q :: rest =>
    if t < q.at_ + 10000000 then s0
    else
      let s1 := ((s0.modReach r fun x => { x with queue := rest, timeouts := x.timeouts + 1 }).modPwr q.pos fun k => { k with
        refused := true, pending := false, req := k.state, vsram := k.vsram && k.state != 3 }).logErr (dieUnit q.pos) (statusCode .admissionTimeout) 1
      if s1.repair.subst.any fun x => x.spare == q.pos then s1.spareFailedFree q.pos else s1)

/-! ### Power states of a die (Table 12.7) -/

/-- R343: where firmware places a die: one that carries an LT in RETAIN only in STANDBY and in DARK only when it is out of service; a spare
without an LT is powered only for a substitution. Beyond the rules' words: log entry 58 (DEDUCED). -/
def State.mayPlace (s : State) (p : Pos) (v : BitVec 2) : Bool :=
  let has := (s.ltAt p).isSome
  let out := (s.ut p).flags.fencedDie || (s.ut p).flags.fencedUt || (s.core p).desc.disabled
  if v = 2 then !has || s.lkh.pstate == .standby
  else if v = 3 then !has || out
  else has || s.repair.subst.any fun x => x.spare == p
/-- A write of REQ; one while PENDING is ignored, and so is 0b00. Beyond the rules' words: log entry 58 (DEDUCED). -/
def State.powerReq (s : State) (p : Pos) (v : BitVec 2) : State :=
  let r := (s.ut p).pwr
  if r.pending || v = 0 || !s.mayPlace p v then s
  else
    let s1 := s.modPwr p fun k => { k with req := v }
    if v = 1 then
      if !s.dieUsable p then s1
      else if r.state = 2 then (s1.modPwr p fun k => { k with pending := true }).askRail p .vcore
      else if r.state = 3 then (s1.modPwr p fun k => { k with pending := true }).askRail p .vsram
      else s1
    else if v = 2 then
      if r.state = 1 then (s1.modCore p Core.retain).modPwr p fun k => { k with state := 2, vcore := false } else s1
    else if r.state = 1 || r.state = 2 then s1.goDark p
    else s1
def execPwrReqIdle (p : Pos) (t : Nat) (s : State) : Out := .next ((s.at_ t).powerReq p 1)
def execPwrReqRetain (p : Pos) (t : Nat) (s : State) : Out := .next ((s.at_ t).powerReq p 2)
def execPwrReqDark (p : Pos) (t : Nat) (s : State) : Out := .next ((s.at_ t).powerReq p 3)

/-- Nothing of the core is in flight. -/
def State.coreQuiet (s : State) (p : Pos) : Bool :=
  let m := (s.core p).mov
  m.streams.isEmpty && !(m.slots.toList.any fun k => k.busy)
/-- RUN to IDLE when the step has ended or is aborted. -/
def execCoreIdleEntry (p : Pos) (t : Nat) (s : State) : Out := .next (
  let s0 := s.at_ t
  let ended := match s0.stepAt p with | some r => r.phase != .running | none => true
  if (s0.ut p).pwr.state = 0 && ended && s0.coreQuiet p then s0.modPwr p fun k => { k with state := 1 } else s0)

/-! ### Faults of rails and reaches (R337, R340, R341, R348) -/

/-- 5 ms without power good. -/
def execReachPgTimeout (r : ReachN) (t : Nat) (s : State) : Out := .next (
  let s0 := s.at_ t
  let x := s0.reaches[r]
  if x.pg || x.lost || s0.lkh.pstate != .starting then s0
  else
    let s1 := (reachTiles r).foldl (fun (s : State) p => s.losePos p) (s0.modReach r fun x => { x with on := false, lost := true, queue := [], held := [] })
    s1.tellRepair (.reach r))

/-- The regulator switches VCORE off; the die is fenced without a vote (R418). -/
def execVcoreOvercurrent (p : Pos) (t : Nat) (s : State) : Out := .next (
  let s0 := s.at_ t
  if (s0.ut p).pwr.state = 3 then s0 else ((s0.fenceDie p 6 0).goDark p).tellRepair (.overcurrent p))

/-- VNET trips: the position is lost, fenced without a vote; its step is aborted. -/
def execVnetTrip (p : Pos) (t : Nat) (s : State) : Out := .next (
  let s0 := s.at_ t
  if (s0.ut p).flags.lost || !(s0.ut p).pwr.vnet then s0
  else (((((s0.abortAt p (.status .tileFenced)).losePos p).modPwr p fun k => { k with vnetOcp := true }).modFlags p (·.failed s0.now)).fenceUnit (utUnit p) 6 0).tellRepair (.vnetTrip p))

/-- Phases 1 to 6 of Table 12.8; the moor that follows is the panel's next event (R433). Beyond the rules' words: log entry 60 (DEDUCED). -/
def State.shortReach (s : State) (r : ReachN) : State :=
  let ps := reachTiles r
  let s1 := ps.foldl (fun (s : State) p => s.losePos p) (s.modReach r fun x => { x with
    on := false, pg := false, tripped := true, lost := true, iout := 0, inLimit := false, queue := [], held := [] })
  let s2 := ({ s1 with intake := { s1.intake with stopped := true } }).alert
  let s3 := (s2.abortAll (.status .tileFenced) 0x7F (some .stepAborted)).endAborted .stepAborted
  let s4 := (ps.foldl (fun (s : State) p => s.orphan p) s3).fenceUnit (unitId 0x0C r.val) 0x0B 0
  (s4.tellRepair (.reach r)).newTables
def execReachShort (r : ReachN) (t : Nat) (s : State) : Out := .next (
  let s0 := s.at_ t
  if s0.reaches[r].tripped || !s0.reaches[r].on then s0 else s0.shortReach r)

/-! ### Other supplies (Table 12.9) -/

def State.loseHouse (s : State) (h : House) : State :=
  { s with lkh := { s.lkh with
    serving := s.lkh.serving &&& ~~~BitVec.ofNat 3 (2 ^ h.val), keeperHouse := if s.lkh.keeperHouse = h then (if h = 0 then 1 else 0) else s.lkh.keeperHouse } }
/-- The steps end with STEP_ABORTED and the cause of a lost unit, without replay (Table 15.11). -/
def State.endAll (s : State) : State := (s.abortAll (.status .tileFenced) 0x7F (some .stepAborted)).endAborted .stepAborted

def execSupplyLoss (sup : Supply) (t : Nat) (s : State) : Out := .next (
  let s0 := s.at_ t
  if s0.power.lost.contains sup then s0
  else
    let s1 : State := { s0 with power := { s0.power with lost := s0.power.lost ++ [sup] } }
    match sup with
    | .lhN => (s1.loseHouse 0).logErr (unitId 0x0B 0) 0 1
    | .lhS => (s1.loseHouse 2).logErr (unitId 0x0B 2) 0 1
    | .lhC =>
      let s2 := (s1.loseHouse 1).logErr (unitId 0x0B 1) 0 1
      let s3 : State := { s2 with canal := [], clocks := { s2.clocks with oscReady := false } }
      let hold (s : State) (p : Pos) : State :=
        s.modUt p fun u => { u with
          clk := { u.clk with holdover := true, priOk := false, altOk := false }, mirror := [], mirrorDue := []
          time := { u.time with unsync := true, refLoss := true, goodBeacons := 0 }, pound := { u.pound with unsync := true } }
      (allPos.foldl hold s3).endAll
    | .northOptics => (List.finRange 9).foldl (fun (s : State) k => s.portLeave (Fin.ofNat 18 k.val) .off .partnerLost) s1
    | .southOptics => (List.finRange 9).foldl (fun (s : State) k => s.portLeave (Fin.ofNat 18 (9 + k.val)) .off .partnerLost) s1
    | .kcl =>
      let s2 := (List.finRange 2).foldl (fun (s : State) k => s.kclLeave k 0) s1
      ({ s2 with intake := { s2.intake with stopped := true } }.alert).endAll)

/-! ### The cap and the bank steps (R353) -/

/-- The pounds of an accepted step that may run before or as a request made now takes effect: 60 µs, and the 100 µs to the next check.
Beyond the rules' words: log entry 56 (DEDUCED). -/
def State.nearPounds (s : State) (r : StepRec) : List PoundEnt :=
  let first := if r.phase = .running then r.poundIdx else 0
  let n := if r.phase = .running || r.phase = .admitted then 160000 / s.poundNs + 2 else r.man.pounds
  ((List.range' first n).filter fun j => decide (j < r.man.pounds)).map r.man.ent
/-- A pound flagged CANAL_TIMED runs, or is due to run with the banks as a request made now leaves them (R56). -/
def State.canalTimedRuns (s : State) : Bool := s.intake.steps.any fun r => (s.nearPounds r).any fun e => e.canalTimed
/-- Firmware brings each bank to a step, with LINK set where both must change, so that they change together (R56, R362). -/
def State.askSteps (s : State) (w e : BitVec 3) : State :=
  let c := s.clocks.step
  let both := c.wCur != w && c.eCur != e
  let one (s : State) (b : Bank) (k : BitVec 3) : State := if s.clocks.step.cur b = k && !s.clocks.step.pendOf b then s else s.askStep b k
  one (one (if c.link = both then s else s.setLink both) .west w) .east e
/-- R56: banks that differ must come together before a CANAL_TIMED pound; only the emergency keeps them apart. -/
def State.mustJoin (s : State) : Bool :=
  let c := s.clocks.step
  !c.pendW && !c.pendE && c.wCur != c.eCur && s.canalTimedRuns
/-- The faster bank is brought to the slower one's step. -/
def State.joinBanks (s : State) : State :=
  let c := s.clocks.step
  let k := if c.wCur.toNat ≤ c.eCur.toNat then c.eCur else c.wCur
  s.askSteps k k
/-- The fastest step to which a bank may rise: the one at which its running steps were admitted, and S4 where a tile holds it there
(R379). -/
def State.bankFloor (s : State) (b : Bank) : Nat :=
  let adm := (s.intake.steps.filter fun r => (stepBanks r.man).contains b).map fun r => (match b with | .west => r.stepW | .east => r.stepE).toNat
  let held := allPos.any fun p => bankOf p == b && (s.ut p).thm.heldS4
  adm.foldl max (if held then 4 else 0)
/-- One step lower, for one bank or for both together, which then run at one step (R56); nothing while a request is pending, or at S5. -/
def State.lowerBank (s : State) (b : Bank) (both : Bool) : State :=
  let c := s.clocks.step
  let down (s : State) (b : Bank) : State := if s.bankStep b < 5 then s.askStep b (BitVec.ofNat 3 (s.bankStep b + 1)) else s
  let k := BitVec.ofNat 3 (min 5 (max (s.bankStep .west) (s.bankStep .east) + 1))
  if both then (if c.pendW || c.pendE then s else s.askSteps k k)
  else if c.pendOf b then s
  else down (if c.link && !c.pendW && !c.pendE then s.setLink false else s) b
def State.canRaise (s : State) (b : Bank) : Bool := decide (s.bankFloor b < s.bankStep b)
/-- One step higher. -/
def State.raiseBank (s : State) (b : Bank) (both : Bool) : State :=
  let c := s.clocks.step
  let up (s : State) (b : Bank) : State := if s.canRaise b then s.askStep b (BitVec.ofNat 3 (s.bankStep b - 1)) else s
  let s1 :=
    if both then
      let k := max (s.bankStep .west) (s.bankStep .east) - 1
      if c.pendW || c.pendE || k < s.bankFloor .west || k < s.bankFloor .east then s else s.askSteps (BitVec.ofNat 3 k) (BitVec.ofNat 3 k)
    else if c.pendOf b then s
    else up (if c.link && !c.pendW && !c.pendE then s.setLink false else s) b
  { s1 with therm := { s1.therm with raisedAt := s1.now } }

/-- pinW: the input power of the last millisecond; wOut, eOut: the output of each bank's converters.
Beyond the rules' words: log entry 56 (DEDUCED). -/
def execPowerCapCheck (pinW : Nat) (wOut : Nat) (eOut : Nat) (t : Nat) (s : State) : Out := .next (
  let s0 := s.at_ t
  let s1 := ({ s0 with power := { s0.power with pin := BitVec.ofNat 16 (min pinW 65535) } }).recap false 0
  let cap := s1.power.effW.toNat
  let high (s : State) : State := if pinW * 100 ≤ cap * 92 then s else { s with power := { s.power with lowTicks := 0 } }
  if s1.therm.emerg || s1.lkh.pstate != .active then high s1
  else if cap < pinW then (high s1).lowerBank (if eOut ≤ wOut then .west else .east) s1.canalTimedRuns
  else if s1.mustJoin then (high s1).joinBanks
  else
    let s2 := high s1
    let any_ := s2.canRaise .west || s2.canRaise .east
    if !any_ then { s2 with therm := { s2.therm with slowRise := false } }
    else if s2.power.lowTicks < 8 || s2.clocks.step.pendW || s2.clocks.step.pendE || (s2.therm.slowRise && decide (s2.now < s2.therm.raisedAt + 100000000)) then s2
    else
      let b : Bank := if !s2.canRaise .west then .east else if !s2.canRaise .east then .west
        else if s2.bankStep .west ≥ s2.bankStep .east then .west else .east
      let s3 := s2.raiseBank b s2.canalTimedRuns
      { s3 with power := { s3.power with lowTicks := 0 } })

end Sys2Proof.Machine
end

