-- ==== Sys2Proof/Machine/Thermal.lean ====
section
/-! DEFINITION. The entry into Moored (R433, Table 15.11, phase 8 of Table 12.8), and thermal sensing and coolant (chapter 14): sites,
thresholds, the coolant, theta and the thermal cap, the emergency, the forecaster. Temperatures of sensors are in 0.25 °C, of the
coolant in 0.01 °C. -/

namespace Sys2Proof.Machine

open Sys2Proof

/-! ### Moored -/

/-- Pages that a chart entry places in a lost stack, as ranges of first page and length, in rising order. -/
def pageRanges : List Nat → List (Nat × Nat)
  | [] => []
  | p :: r => match pageRanges r with
    | (a, n) :: rest => if a = p + 1 then (p, n + 1) :: rest else (p, 1) :: (a, n) :: rest
    | [] => [(p, 1)]
def State.lostPages (s : State) : List Nat :=
  let l := if s.chart.wValid then s.chart.west else s.chart.east
  (l.filter fun e => entHere e.2 && s.hbm[entStack e.2].lost).map fun e => e.1
/-- Phase 8: VALID is cleared in every entry that names a lost stack, and a chart copy in a lost stack is given up. -/
def State.chartLoss (s : State) : State :=
  let clr (t : Tbl Word) : Tbl Word := t.foldl (fun (t : Tbl Word) e => if entHere e.2 && s.hbm[entStack e.2].lost then tblPut 0 t e.1 (e.2 &&& ~~~1) else t) t
  let gone (h : BitVec 5) : Bool := s.hbm[(Fin.ofNat 24 h.toNat)].lost
  let s1 := s.modChart fun c =>
    let w := c.wValid && !gone c.wHome
    let e := c.eValid && !gone c.eHome
    { c with west := if w then clr c.west else [], east := if e then clr c.east else [], wValid := w, eValid := e }
  let keep (x : ChartEnt) : Bool := !(entHere x.entry && s.hbm[entStack x.entry].lost)
  s1.allUts fun _ u => { u with cht := { u.cht with ents := u.cht.ents.filter keep } }
/-- LTs of the part without a tile, and stacks of the part that are lost. -/
def State.lostLts (s : State) : List Nat := ((List.finRange 120).filter fun l => !s.ltAbsent l && (s.posOf l).isNone).map fun l => l.val
def State.lostStacks (s : State) : List Nat := (List.range 24).filter fun m => s.hbm[(Fin.ofNat 24 m)].present && s.hbm[(Fin.ofNat 24 m)].lost

/-- Every die is fenced without a vote and DARK; the fence of a moor is no defect and enters no record (R418, R433).
Beyond the rules' words: log entry 60 (DEDUCED). -/
def State.fenceAllDies (s : State) : State :=
  allPos.foldl (fun (s : State) p => (s.modFlags p fun f => { f with fencedDie := true }).goDark p) s
/-- The sequence of Table 15.11; of a Moored panel only phase 8 of Table 12.8 remains. Beyond the rules' words: log entry 60 (DEDUCED). -/
def State.moor (s : State) (c : Cause) (lt : BitVec 7) : State :=
  if s.lkh.pstate = .off then s
  else if s.lkh.pstate = .moored then s.chartLoss
  else
    let s1 := (s.abortAll c lt (some .stepAborted)).endAborted .stepAborted
    let s2 := s1.fenceAllDies.askSteps 5 5
    let old := s2.lkh.pstate
    let s3 : State := { s2 with
      ports := s2.ports.map fun (x : Port) => if x.state = .up then { x with peerRead := true } else x
      lkh := { s2.lkh with pstate := .moored, pending := false }, therm := { s2.therm with emerg := false } }
    let lost := s3.lostLts
    let data := [lost.foldl (fun n l => if l < 64 then n + 2 ^ l else n) 0, lost.foldl (fun n l => if 64 ≤ l then n + 2 ^ (l - 64) else n) 0,
      s3.lostStacks.foldl (fun n m => n + 2 ^ m) 0] ++ (pageRanges s3.lostPages).flatMap fun r => [r.1, r.2]
    (((s3.chartLoss).logRec 0x24 .firmware data).logState false old .moored).alert

/-- A tile in service, or a stack, is at or above a temperature. -/
def State.hotTile (s : State) (x : Int) : Bool := allPos.any fun p => (s.ut p).alive && decide (x ≤ (s.ut p).thm.hot.toInt)
def State.hotStack (s : State) (x : Int) : Bool := s.hbm.toList.any fun k => k.present && !k.lost && decide (x ≤ k.temp)
/-- A tile or a stack is at its moor threshold. -/
def State.moorHeat (s : State) : Bool :=
  s.hotTile 440 || s.hotStack 412
/-- The condition of R433 holds. After the loss of a reach, the flip to the new tables and its drain come first (Table 12.8). -/
def State.mustMoor (s : State) (why : MoorCause) : Bool :=
  let flipped := !s.reaches.toList.any (fun r => r.lost) || (!s.epoch.arm && (s.epoch.free || decide (s.epoch.flippedAt + 2000000 ≤ s.now)))
  match why with
  | .ltLost l => !s.ltAbsent l && (s.posOf l).isNone && flipped && s.lkh.pstate != .starting
  | .stackLost m => s.hbm[m].present && s.hbm[m].lost && flipped && s.lkh.pstate != .starting
  | .houses => decide (s.serves < 2) && (s.lkh.pstate != .starting || decide (2 < s.lkh.stageNext))
  | .lhcSupply => s.power.lost.contains .lhC
  | .kclSupply => s.power.lost.contains .kcl
  | .temperature => s.moorHeat && s.therm.emerg
def execMoor (why : MoorCause) (t : Nat) (s : State) : Out := .next (
  let s0 := s.at_ t
  if s0.mustMoor why then
    let lt : BitVec 7 := match why with | .ltLost l => BitVec.ofNat 7 l.val | _ => 0x7F
    s0.moor (if why = .temperature then .status .stepAborted else .status .tileFenced) lt
  else s0)

/-! ### The emergency (R392 to R394) -/

def State.modTherm (s : State) (f : Thermal → Thermal) : State := { s with therm := f s.therm }
/-- Every tile to SAFE, at S5; pending requests are void. -/
def State.allSafe (s : State) : State :=
  (s.allUts fun p u => if u.alive then { u with
      clk := { u.clk with sel := 2, step := 5, locked := false }
      pwr := if u.clk.step.toNat < 5 then { u.pwr with targetMv := coreMv p 5 } else u.pwr } else u).modStepReg fun c =>
    { c with wNext := 5, eNext := 5, pendW := false, pendE := false, emerg := true, wCur := 5, eCur := 5, wTick := none, eTick := none }
/-- Table 14.3. -/
def State.emergency (s : State) (cause : Nat) : State :=
  let s1 := (s.modTherm fun k => { k with emerg := true, emergencies := k.emergencies + 1, lastCause := BitVec.ofNat 4 cause, goodSince := none }).allSafe.alert
  let s2 := s1.modIntake fun i => { i with steps := i.steps.map fun r => { r with throttled := true } }
  let s3 := ((s2.abortAll (.status .stepAborted) 0x7F (some .stepAborted)).endAborted .stepAborted).modTherm fun k => { k with thermalW := s2.power.baseW }
  (s3.recap true cause).logRec 0x51 .firmware [1, cause]
/-- What brings the emergency about. -/
def State.mustEmergency (s : State) (cause : Fin 4) : Bool :=
  match cause.val with
  | 0 => !s.therm.flowOk
  | 1 => s.therm.rateHeld
  | 2 => s.hotTile 420
  | _ => s.hotStack 400
/-- The panel can be in an emergency: its reaches are powered, and it is neither OFF nor Moored.
Beyond the rules' words: log entry 59 (DEDUCED). -/
def State.drawsPower (s : State) : Bool :=
  s.lkh.pstate == .active || s.lkh.pstate == .standby || (s.lkh.pstate == .starting && decide (4 < s.lkh.stageNext))
def execThermalEmergency (cause : Fin 4) (t : Nat) (s : State) : Out := .next (
  let s0 := s.at_ t
  if s0.therm.emerg || !s0.drawsPower || !s0.mustEmergency cause then s0 else s0.emergency (cause.val + 1))

/-- Since when the conditions of R394 have held. Beyond the rules' words: log entry 59 (DEDUCED). -/
def State.noteGood (s : State) : State :=
  let good := s.therm.flowOk && !s.therm.rateHeld && !s.therm.thermBad && !s.hotTile 341 && !s.hotStack 341
  s.modTherm fun k => { k with goodSince := if !good then none else some (k.goodSince.getD s.now) }

/-- Thermal cap within its bounds (R391). -/
def State.clipCap (s : State) (w : Nat) : Nat := min (max w s.power.baseW.toNat) 15000
def execThermalEmergencyExit (t : Nat) (s : State) : Out := .next (
  let s0 := s.at_ t
  match s0.therm.emerg, s0.therm.goodSince with
  | true, some g =>
    if s0.now < g + 10000000000 then s0
    else
      let s1 := (s0.modTherm fun k => { k with
        emerg := false, slowRise := true, raisedAt := s0.now, thermalW := BitVec.ofNat 16 (s0.clipCap k.targetW.toNat) }).recap true s0.therm.lastCause.toNat
      ((s1.logRec 0x51 .firmware [0, s0.therm.lastCause.toNat]).askSteps 4 4).alert
  | _, _ => s0)

/-! ### Sites (R376 to R379) -/

def plausible (x : Int) : Bool := decide (-160 ≤ x) && decide (x ≤ 600)
/-- One site's new sample; `other` is the governing reading of the rest of the die, for an unpaired site whose diode is implausible. -/
def Site.sample (x : Site) (paired : Bool) (a b : Int) (other : Option Int) : Site :=
  let okA := plausible a
  let okB := paired && plausible b
  let gov : Option Int :=
    if okA && okB then some (max a b) else if okA then some (if paired then a + 12 else a) else if okB then some (b + 12)
    else if paired then none else other.map fun g => g + 12
  let both := okA && okB
  let far := both && (decide (20 < a - b) || decide (20 < b - a))
  let apart := if far then x.apart + 1 else 0
  let close := if both && !far then x.close + 1 else 0
  { a := BitVec.ofInt 11 (max (-1024) (min 1023 a)), aBad := !okA, b := if paired then BitVec.ofInt 11 (max (-1024) (min 1023 b)) else 0
    bBad := paired && !okB, split := if apart ≥ 10 then true else if close ≥ 10 then false else x.split
    gov := match gov with | some g => BitVec.ofInt 11 g | none => 0, govNone := gov.isNone, apart := apart, close := close }
/-- The governing reading of a site by its own sensors. -/
def ownGov (paired : Bool) (a b : Int) : Option Int :=
  if plausible a && paired && plausible b then some (max a b) else if plausible a then some (if paired then a + 12 else a)
  else if paired && plausible b then some (b + 12) else none
def maxGov (l : List (Option Int)) : Option Int := l.foldl (fun m x => match m, x with | some u, some v => some (max u v) | none, v => v | u, none => u) none
/-- Sites 0 to 3 lie on the compute die, 4 and 5 on the under-tile (Table 14.1). -/
def siteDie (n : Nat) : List Nat := if n < 4 then [0, 1, 2, 3] else [4, 5]

/-- A tile's samples: sites, governing temperature, THROTTLE, HELD_S4, split events. -/
def TileTherm.sample (k : TileTherm) (a b : Vector Int 6) : TileTherm :=
  let g (n : Nat) : Option Int := ownGov (sitePaired n) (vat a n) (vat b n)
  let sites : Vector Site 6 := Vector.ofFn fun n : Fin 6 => k.sites[n].sample (sitePaired n.val) a[n] b[n] (maxGov ((siteDie n.val).map g))
  let hot := maxGov (sites.toList.map fun x => if x.govNone then none else some x.gov.toInt)
  let new := ((List.finRange 6).filter fun n => sites[n].split && !k.sites[n].split).length
  { k with
    sites := sites, hot := match hot with | some h => BitVec.ofInt 11 h | none => k.hot
    sensorSplit := k.sensorSplit || decide (0 < new), splitEvents := k.splitEvents + BitVec.ofNat 16 new
    throttle := match hot with | some h => decide (380 ≤ h) | none => k.throttle
    heldS4 := (List.range 6).any fun n => (g n).isNone }

/-! ### Thresholds (R380 to R383) -/

def bankIx : Bank → Fin 2
  | .west => 0 | .east => 1
/-- A bank is brought to S4 or lower (R379). -/
def State.toS4 (s : State) (b : Bank) : State :=
  let one (s : State) (b : Bank) : State := if s.bankStep b < 4 && !s.clocks.step.pendOf b then s.askStep b 4 else s
  let k := max 4 (max (s.bankStep .west) (s.bankStep .east))
  if s.canalTimedRuns then (if s.clocks.step.pendW || s.clocks.step.pendE then s else s.askSteps (BitVec.ofNat 3 k) (BitVec.ofNat 3 k))
  else one (if s.clocks.step.link && !s.clocks.step.pendW && !s.clocks.step.pendE then s.setLink false else s) b
/-- R381: one step lower, at most once a millisecond. -/
def State.throttleBank (s : State) (b : Bank) : State :=
  let c := s.clocks.step
  if s.bankStep b ≥ 5 || c.pendOf b || s.now < s.therm.loweredAt[bankIx b] + 1000000 then s
  else (s.lowerBank b s.canalTimedRuns).modTherm fun k => { k with throttles := k.throttles + 1, loweredAt := k.loweredAt.set (bankIx b) s.now }
/-- A bank is not cool: above its throttle threshold less 5 °C. -/
def State.warmBank (s : State) (b : Bank) : State :=
  s.modTherm fun k => { k with coolTicks := k.coolTicks.set (bankIx b) 0, hotAt := k.hotAt.set (bankIx b) s.now }

/-- A sample of one under-tile each millisecond: its six sites, the stack and the optical engine beside it.
Beyond the rules' words: log entry 59 (DEDUCED). -/
def execThermalSample (p : Pos) (a : Vector Int 6) (b : Vector Int 6) (stack : Int) (optics : Int) (t : Nat) (s : State) : Out := .next (
  let s0 := s.at_ t
  if !(s0.ut p).alive then s0
  else
    let bk := bankOf p
    let k0 := (s0.ut p).thm
    let k1 := k0.sample a b
    let dark := (s0.ut p).pwr.state = 3 && (s0.ltAt p).isNone
    let held := k1.heldS4 && !dark
    let s1 := s0.modUt p fun u => { u with thm := { k1 with heldS4 := held } }
    let s2 := if k1.splitEvents != k0.splitEvents then s1.logRec 0x51 .firmware [2, 0, (dieUnit p).toNat, k1.splitEvents.toNat] else s1
    let s3 := if k1.heldS4 && !k0.heldS4 then s2.tellRepair (.sensors p) else s2
    let s4 := if held && !s3.therm.emerg then s3.toS4 bk else s3
    let onStack : Option StackN := (stackAt p).bind fun m => if s4.hbm[m].present && !s4.hbm[m].lost then some m else none
    let s5 : State := match onStack with
      | some m => s4.modStack m fun k => { k with temp := stack, refresh2 := decide (340 ≤ stack) }
      | none => s4
    let s6 : State := match portAt p with
      | some x =>
        let q := s5.port x
        let y := s5.modPort x fun q => { q with temp := optics, coolAt := if optics < 300 then some (q.coolAt.getD s5.now) else none }
        if 340 ≤ optics && q.state != .off then (y.portLeave x .off .tileReset).modPort x fun q => { q with hotOff := true } else y
      | none => s5
    let worst : Int := match onStack with | some _ => max k1.hot.toInt stack | none => k1.hot.toInt
    let s7 := if 360 < worst then s6.warmBank bk else s6
    let s8 := if 380 ≤ worst && !s7.therm.emerg then s7.throttleBank bk else s7
    let s9 := s8.noteGood
    if s9.moorHeat && s9.drawsPower then
      let cause := if 420 ≤ k1.hot.toInt then 3 else 4
      (if s9.therm.emerg then s9 else s9.emergency cause).moor (.status .stepAborted) 0x7F
    else s9)

/-- R381: after 8 gate intervals and 100 ms in which the bank stayed cool. Beyond the rules' words: log entry 56 (DEDUCED). -/
def execThermalRecovery (b : Bank) (t : Nat) (s : State) : Out := .next (
  let s0 := s.at_ t
  let i := bankIx b
  if s0.therm.emerg || s0.therm.coolTicks[i] < 8 || s0.now < s0.therm.hotAt[i] + 100000000 || s0.clocks.step.pendOf b || !s0.canRaise b then s0
  else (s0.raiseBank b s0.canalTimedRuns).modTherm fun k => { k with coolTicks := k.coolTicks.set i 0, hotAt := k.hotAt.set i s0.now })

/-- R382: after 10 s below 75 °C firmware enables the port again. -/
def execOpticsReenable (x : PortN) (t : Nat) (s : State) : Out := .next (
  let s0 := s.at_ t
  let q := s0.port x
  match q.hotOff, q.coolAt with
  | true, some c =>
    if s0.now < c + 10000000000 then s0
    else (s0.modPort x fun q => { q with hotOff := false }).portLeave x (if q.en && (s0.modPort x fun q => { q with hotOff := false }).portCan x then .dark else .off) .done
  | _, _ => s0)

/-- R384: of a powered reach, three consecutive conversions between the trip threshold and 150 °C open the reach's e-fuse. -/
def execHardwareTrip (p : Pos) (ofStack : Bool) (readings : List Int) (t : Nat) (s : State) : Out := .next (
  let s0 := s.at_ t
  let lo : Int := if ofStack then 420 else 460
  let last := readings.reverse.take 3
  if last.length < 3 || !s0.reaches[reachOf p].on || last.any (fun x => decide (x < lo) || decide (600 < x)) || (ofStack && (stackAt p).isNone) then s0
  else
    let s1 := s0.modUt p fun u => { u with thm := { u.thm with trip := true } }
    let s2 : State := { s1 with pins := { s1.pins with thermTripN := false } }
    s2.shortReach (reachOf p))

/-! ### Coolant (R385 to R387, R392) -/

/-- Samples: time, outlet − inlet, input power, newest first. -/
def meanPin (l : List (Nat × Int × Nat)) : Nat := if l.isEmpty then 0 else (l.foldl (fun n x => n + x.2.2) 0) / l.length
/-- The rate test over the last 250 ms. -/
def rateTest (now : Nat) (l : List (Nat × Int × Nat)) : Bool :=
  let new := l.filter fun x => decide (now < x.1 + 250000000)
  let old := l.filter fun x => decide (x.1 + 250000000 ≤ now)
  match new, old with
  | a :: _, b :: _ =>
    let u := meanPin new
    let v := meanPin old
    decide (50 < a.2.1 - b.2.1) && decide ((u - v + (v - u)) * 10 < v)
  | _, _ => false

/-- The highest tile governing temperature of the panel, in 0.01 °C. -/
def State.hottest (s : State) : Int :=
  25 * ((allPos.filter fun p => (s.ut p).alive).foldl (fun (m : Option Int) p => match m with
    | some x => some (max x (s.ut p).thm.hot.toInt) | none => some (s.ut p).thm.hot.toInt) none).getD 0

def execCoolantSample (inlet : Int) (outlet : Int) (pinW : Nat) (t : Nat) (s : State) : Out := .next (
  let s0 := s.at_ t
  let bad (x : Int) : Bool := decide (x < 0) || decide (10000 < x)
  let isBad := bad inlet || bad outlet
  let clip (x : Int) : BitVec 14 := BitVec.ofInt 14 (max 0 (min 16383 x))
  let d := outlet - inlet
  let s1 : State := { s0 with power := { s0.power with pin := BitVec.ofNat 16 (min pinW 65535) } }
  let warm := isBad || decide (4000 < inlet)
  ((s1.modTherm fun k =>
    let l := if isBad then [] else (s0.now, d, pinW) :: k.samples.filter fun x => decide (s0.now < x.1 + 500000000)
    { k with
      inlet := clip inlet, outlet := clip outlet, thermBad := isBad, inletHigh := decide (4000 < inlet), inletLow := decide (inlet < 2000)
      flowEst := if d < 100 then k.flowEst else BitVec.ofNat 10 (min (22000 * pinW / (1532 * d.toNat)) 1023)
      samples := l, rateHeld := !isBad && rateTest s0.now l
      hist := (s0.now, s0.hottest, (if isBad then 4000 else inlet), pinW) :: k.hist.filter fun x => decide (s0.now < x.1 + 1000000000)
      coolSince := if warm || !k.flowOk then none else some (k.coolSince.getD s0.now) }).noteGood).alert)

/-- FLOW_OK has been low for 100 µs. -/
def execFlowOkLoss (t : Nat) (s : State) : Out := .next (
  let s0 := s.at_ t
  ({ s0 with pins := { s0.pins with flowOk := false }, therm := { s0.therm with flowOk := false, coolSince := none } }).noteGood)
def execFlowOkGlitch (lowUs : Nat) (s : State) : Out := .next (if lowUs < 100 then s.modTherm fun k => { k with glitch := k.glitch + 1 } else s)
def execFlowOkAssert (t : Nat) (s : State) : Out := .next (
  let s0 := s.at_ t
  ({ s0 with pins := { s0.pins with flowOk := true }
             therm := { s0.therm with
               flowOk := true
               coolSince := if s0.therm.thermBad || s0.therm.inletHigh || s0.therm.hist.isEmpty then none else some (s0.therm.coolSince.getD s0.now) } }).noteGood)

/-! ### Theta and the thermal cap (R389 to R391) -/

/-- The cap moves from stage 0x0A of a cold start on. -/
def State.capMoves (s : State) : Bool :=
  s.lkh.pstate != .off && (s.lkh.pstate != .starting || s.lkh.warmRun || decide (10 ≤ s.lkh.stageNext)) && !s.therm.emerg
/-- While a thermistor is implausible the inlet counts as 40 °C (R387). -/
def Thermal.tIn (k : Thermal) (tIn : Int) : Int := if k.thermBad then 4000 else tIn
/-- Means over the last second, each rounded up or down: hottest tile, inlet, input power. -/
def Thermal.means (k : Thermal) (upHot upIn upP : Bool) (now_ : Nat) : Option (Int × Int × Nat) :=
  match k.hist.filter fun x => decide (now_ < x.1 + 1000000000) with
  | [] => none
  | l =>
    let n : Nat := l.length
    some (meanOf upHot (l.foldl (fun a x => a + x.2.1) 0) n, meanOf upIn (l.foldl (fun a x => a + x.2.2.1) 0) n,
      (meanOf upP (l.foldl (fun a x => a + (x.2.2.2 : Int)) 0) n).toNat)
/-- cap_target by the theta held, rounded up; without a rise it is the maximum. -/
def Thermal.target (k : Thermal) (tIn : Int) : Nat :=
  if k.thetaN = 0 then 15000 else min (cdiv ((k.tjPlan.toNat * 100 - tIn : Int).toNat * k.thetaD) (k.thetaN * 100)) 15000

/-- Theta and the target by the means (R390). -/
def Thermal.measured (k : Thermal) (upHot upIn upP : Bool) (now_ : Nat) : Thermal :=
  match k.means upHot upIn upP now_ with
  | none => k
  | some (tHot, tIn, pIn) =>
    let tin := k.tIn tIn
    let k1 := if pIn < 2000 then k else
      let n := (tHot - tin).toNat
      { k with thetaN := n, thetaD := 100 * pIn, theta := BitVec.ofNat 16 (min (n * 1000000 / (100 * pIn)) 65535) }
    { k1 with targetW := BitVec.ofNat 16 (k1.target tin) }
/-- Each 100 ms. -/
def execThermalCapUpdate (upHot upIn upP : Bool) (t : Nat) (s : State) : Out := .next (
  let s0 := s.at_ t
  let s1 := s0.modTherm fun k => k.measured upHot upIn upP s0.now
  let w := s1.therm.thermalW.toNat
  let g := s1.therm.targetW.toNat
  if s1.capMoves && decide (g < w) then
    (s1.modTherm fun k => { k with thermalW := BitVec.ofNat 16 (s1.clipCap (max (w * 95 / 100) g)) }).recap false 1
  else s1)
/-- Each second. -/
def execThermalCapRise (t : Nat) (s : State) : Out := .next (
  let s0 := s.at_ t
  let w := s0.therm.thermalW.toNat
  let g := s0.therm.targetW.toNat
  if s0.capMoves && decide (w < g) then
    (s0.modTherm fun k => { k with thermalW := BitVec.ofNat 16 (s0.clipCap (min (w * 105 / 100) g)) }).recap false 1
  else s0)

/-! ### The forecaster (R395 to R397) -/

/-- Midpoint of a step's VCORE range, in units of 5 mV (Table 12.5). -/
def stepMid (c : Nat) : Nat := [163, 152, 142, 130, 119, 113].getD c 113
/-- A declared POWER scaled from one step to a lower one, rounded up (R396). -/
def scalePower (w adm step : Nat) : Nat :=
  if step ≤ adm then w else cdiv (w * stepMhz step * (stepMid step * stepMid step)) (stepMhz adm * (stepMid adm * stepMid adm))
/-- Scaled POWER of the steps in the i-th pound from the next gate tick on, and that of the soundings that run on into it (R415). -/
def State.scaledAt (s : State) (i step : Nat) : Nat :=
  s.intake.steps.foldl (fun n r =>
    let j := if r.phase == .admitted then (if i ≥ s.startIn r.man.notBefore then some (i - s.startIn r.man.notBefore) else none) else some (r.poundIdx + 1 + i)
    match j with
    | some j => if j < r.man.pounds then n + scalePower (r.man.ent j).power.toNat r.stepW.toNat step else n
    | none => n) (Config.soundW.toNat * (s.repair.sounding.filter fun x => decide (i + 1 < x.2.1)).length)
/-- A lowered bank that is not to rise yet stays where it is (R353, R381). -/
def State.planFloor (s : State) (b : Bank) : Nat :=
  let i := bankIx b
  let stay := s.power.lowTicks < 8 || s.therm.coolTicks[i] < 8 || s.now < s.therm.hotAt[i] + 100000000 || s.therm.slowRise
  max (s.bankFloor b) (if stay then s.bankStep b else 0)
/-- t_hot for a filtered power, in 0.01 °C; power in mW. -/
def Thermal.predict (k : Thermal) (tIn : Int) (mw : Nat) : Int := tIn + (mw * k.thetaN * 100 / (k.thetaD * 1000) : Nat)
/-- The plan of n pounds from the i-th on: filtered power, in mW, runs along. Both banks are planned at one step.
Beyond the rules' words: log entry 59 (DEDUCED). -/
def State.planFrom (s : State) (tIn : Int) (floor lenUs : Nat) : Nat → Nat → Nat → List (Nat × BitVec 3 × BitVec 3)
  | 0, _, _ => []
  | n + 1, i, pf =>
    let k := s.therm
    let base := s.power.baseW.toNat
    let cap0 := s.power.effW.toNat
    let next (step : Nat) : Nat :=
      let p := (base + s.scaledAt i step) * 1000
      let d := k.tauMs.toNat * 1000
      if pf ≤ p then pf + (p - pf) * min lenUs d / d else pf - (pf - p) * min lenUs d / d
    let limit : Int := k.tjPlan.toNat * 100
    let cool (step : Nat) : Bool := decide (k.predict tIn (next step) ≤ limit)
    let cap := if cool floor then cap0 else min cap0 (k.target tIn)
    let fits (step : Nat) : Bool := decide (base + s.scaledAt i step ≤ cap) && cool step
    let st := ((List.range' floor (6 - floor)).find? fits).getD 5
    (cap, BitVec.ofNat 3 st, BitVec.ofNat 3 st) :: s.planFrom tIn floor lenUs n (i + 1) (next st)
/-- Gate ticks within the next second. -/
def State.horizonPounds (s : State) : Nat := (s.now + 1000000000) / s.poundNs - s.now / s.poundNs
/-- The planned change whose request is due: R361 lets it take effect at its tick, 100 µs or more ahead. -/
def State.dueChange (s : State) (plan : List (Nat × BitVec 3 × BitVec 3)) : Option (BitVec 3) :=
  let first := (s.now / s.poundNs + 1) * s.poundNs
  let ix := (List.range plan.length).find? fun i => decide (s.now + 100000 ≤ first + i * s.poundNs)
  match ix with
  | some i => match plan[i]? with
    | some x => if i = 0 || decide (first + (i - 1) * s.poundNs < s.now + 60000) then some x.2.1 else none
    | none => none
  | none => none

def execForecastUpdate (t : Nat) (s : State) : Out := .next (
  let s0 := s.at_ t
  if s0.lkh.pstate != .active || s0.poundNs = 0 then s0
  else
    let floor := if s0.therm.emerg then 5 else min 5 (max (s0.planFloor .west) (s0.planFloor .east))
    let plan := s0.planFrom (s0.therm.tIn s0.therm.inlet.toNat) floor s0.pcfg.len.toNat s0.horizonPounds 0 (s0.power.pin.toNat * 1000)
    let s1 := s0.modTherm fun k => { k with plan := plan, horizon := BitVec.ofNat 16 (min plan.length 65535) }
    match s1.dueChange plan with
    | some st =>
      if s1.therm.emerg || s1.clocks.step.pendW || s1.clocks.step.pendE then s1 else s1.askSteps st st
    | none => s1)

end Sys2Proof.Machine
end

