-- ==== Sys2Proof/Machine/Startup.lean ====
section
/-! DEFINITION. Start-up (15.1 to 15.3): stage reports, the eleven stages, unit states (R402), placement (R410), re-qualification (R436);
the checks of a firmware package (R455) and the measurement registers (R458) that stage 0x02 needs. -/

namespace Sys2Proof.Machine

open Sys2Proof

/-! ### Stage reports (R401) -/

def unitKind (u : BitVec 40) : Nat := u.toNat % 256
def unitIndex (u : BitVec 40) : Nat := u.toNat / 256
def insertNat (a : Nat) : List Nat → List Nat
  | [] => [a]
  | b :: r => if a ≤ b then a :: b :: r else b :: insertNat a r
def sortNat (l : List Nat) : List Nat := l.foldr insertNat []

/-- Table 15.2. Beyond the rules' words: log entry 76 (DESIGN CHOICE). -/
def stageWords (stage result dur tStart cause : Nat) (units : List (BitVec 40)) (seq : BitVec 32) : Vector Word 8 :=
  let d : BitVec 256 := if units.isEmpty then 0 else digest ((sortNat (units.map fun u => u.toNat)).flatMap fun n => natBytes n 8)
  let w0 := pk [(stage, 0, 8), (result, 8, 2), (min units.length 65535, 16, 16), (dur, 32, 32)]
  let w1 : Word := BitVec.ofNat 64 (if stage < 2 then 0 else tStart)
  let w2 := pk [(cause, 0, 8), ((units.headD 0).toNat, 8, 40)]
  let bytes := ([w0, w1, w2, bigWord d 0, bigWord d 1, bigWord d 2, bigWord d 3].flatMap fun w => natBytes w.toNat 8) ++ natBytes seq.toNat 4
  #v[w0, w1, w2, bigWord d 0, bigWord d 1, bigWord d 2, bigWord d 3, pk [(seq.toNat, 0, 32), ((crc32 bytes).toNat, 32, 32)]]
/-- The report goes to LKH_STAGEs and into the Logbook. -/
def State.stageReport (s : State) (stage : Fin 11) (result dur tStart cause : Nat) (units : List (BitVec 40)) : State :=
  let w := stageWords stage.val result dur tStart cause units s.lkh.coldStarts
  let s1 : State := { s with lkh := { s.lkh with stages := s.lkh.stages.set stage w } }
  s1.logRec 0x20 .firmware (w.toList.map fun x => x.toNat)

/-- The start is under way and a stage is the next one. -/
def State.atStage (s : State) (stage : Nat) : Bool := s.lkh.pstate == .starting && !s.lkh.halted && s.lkh.stageNext == stage
/-- R400: the panel goes no further. -/
def State.haltStart (s : State) : State := ({ s with lkh := { s.lkh with halted := true } }).alert

/-! ### Packages and measurements (R455, R458) -/

def classAt (g : PackageIn) (c : Nat) : Option PkgComp := g.comps.find? fun x => x.cls.toNat == c
/-- Bytes 0x0000 to 0x0BBF of a package with every reserved field 0 (Tables 17.3 and 17.4). -/
def packageHeader (g : PackageIn) : List Byte :=
  let comp (x : PkgComp) : List Byte :=
    natBytes x.cls.toNat 1 ++ natBytes x.svn.toNat 1 ++ natBytes 0 6 ++ natBytes x.offset.toNat 4 ++ natBytes x.length.toNat 4 ++ natBytes x.digest.toNat 32 ++
      natBytes 0 16
  natBytes g.magic.toNat 4 ++ natBytes g.version.toNat 2 ++ natBytes g.components.toNat 1 ++ natBytes g.ownerSlot.toNat 1 ++ natBytes g.pkgVersion.toNat 4 ++
    natBytes g.compatFrom.toNat 4 ++ natBytes 0 16 ++ g.ownerPk ++ g.comps.flatMap comp ++ natBytes 0 640
/-- R455. -/
def State.pkgOk (s : State) (g : PackageIn) : Bool :=
  let comp (c : Nat) : Bool :=
    match g.comps.filter fun x => x.cls.toNat == c with
    | [x] => decide (0x1900 ≤ x.offset.toNat) && decide (x.offset.toNat % 256 = 0) && decide (x.offset.toNat + x.length.toNat ≤ 134217728) &&
        decide (x.bytes.length = x.length.toNat) && digest x.bytes == x.digest && decide (x.svn.toNat ≤ 64) &&
        decide (s.counter (c - 1) ≤ x.svn.toNat)
    | _ => false
  g.magic == 0x4B504B01 && g.version == 1 && g.components == 6 && g.reservedZero && decide (g.ownerSlot.toNat < 4) &&
    !s.sec.revoked.getLsbD g.ownerSlot.toNat && digest g.ownerPk == Config.ownerDigest g.ownerSlot.toNat && decide (g.ownerPk.length = 1952) &&
    decide (g.signature.length = 3309) && g.signed == packageHeader g && Config.verify g.ownerPk "OVP-IMAGE" g.signed g.signature && decide (g.comps.length = 6) &&
    (List.range' 1 6).all comp

/-- A measurement register is extended with a digest; after stage 0x0A the extension is recorded. -/
def State.extend (s : State) (h : House) (i : Fin 8) (d : BitVec 256) : State :=
  let v := s.sec.meas[h][i]
  let s1 : State := { s with sec := { s.sec with meas := vmod s.sec.meas h fun m => m.set i (digest (digestBytes v ++ digestBytes d)) } }
  if s.lkh.pstate = .starting then s1
  else s1.logFull false 0x61 .firmware .internal 0xFF (natBytes 3 8 ++ natBytes h.val 4 ++ natBytes i.val 4 ++ digestBytes d)
/-- The fuse configuration of Table 17.5, of one lock-house. -/
def State.fuseConfig (s : State) (h : House) : List Byte :=
  ((List.range 4).flatMap fun k => digestBytes (Config.ownerDigest k)) ++ natBytes s.sec.revoked.toNat 1 ++ natBytes Config.partWord.toNat 8 ++
    digestBytes Config.fuseMapDigest ++ s.sec.groups[h].toList.flatMap fun n => natBytes n 1
/-- The manager key set (Table 17.1). -/
def setBytes (gen : BitVec 32) (n k : Nat) (keys : List (List Byte)) : List Byte := natBytes gen.toNat 4 ++ natBytes n 1 ++ natBytes k 1 ++ keys.flatten
def State.slotOf (s : State) (h : House) : Fin 2 := if s.sec.slots.getLsbD h.val then 1 else 0
/-- The package a lock-house runs, where its contents are known. -/
def State.pkgOf (s : State) (h : House) : Option PackageIn := s.sec.pkgs[s.slotOf h]
def compDigest (g : PackageIn) (c : Nat) : BitVec 256 := match classAt g c with | some x => x.digest | none => 0
/-- A lock-house measures its own start: registers 0 to 7 from zero. -/
def State.measureBoot (s : State) (h : House) : State :=
  let s0 : State := { s with sec := { s.sec with meas := s.sec.meas.set h (Vector.replicate 8 0) } }
  let pkg (i : Nat) (g : PackageIn) : List (BitVec 256) :=
    match i with
    | 1 => [digest (g.signed ++ g.signature)]
    | 2 => [compDigest g 1] | 3 => [compDigest g 2] | 4 => [compDigest g 3] | 5 => [compDigest g 4]
    | _ => [compDigest g 5, compDigest g 6]
  let ds (i : Fin 8) : List (BitVec 256) :=
    if i = 0 then [Config.romDigest, digest (s.fuseConfig h)]
    else if i = 7 then [digest (setBytes s.sec.setGen s.sec.mgrN s.sec.mgrK s.sec.mgrKeys)]
    else match s.pkgOf h with
      | some g => pkg i.val g
      | none => [Config.bootMeasure (s.slotOf h).val i.val]
  (List.finRange 8).foldl (fun (s : State) i => (ds i).foldl (fun (s : State) d => s.extend h i d) s) s0
/-- The slot from which a lock-house boots (R456): that of BOOT_SEL, else the other; where a slot's contents are not known, the operand
tells. -/
def State.bootSlot (s : State) (sel : Bool) (said : Bool) : Option Bool :=
  let ok (b : Bool) : Option Bool := (s.sec.pkgs[(if b then 1 else 0 : Fin 2)]).map s.pkgOk
  match ok sel, ok (!sel) with
  | some true, _ => some sel
  | some false, some true => some (!sel)
  | some false, some false => none
  | some false, none => if said = !sel then some (!sel) else none
  | none, _ => some said

/-! ### Placement (R410, R425, R426) -/

def unitOut (s : State) (u : BitVec 40) : Bool := s.repair.units.contains u
/-- A die that may carry an LT: in service, with a working under-tile. -/
def State.dieServes (s : State) (p : Pos) : Bool :=
  !unitOut s (dieUnit p) && !unitOut s (utUnit p) && !(s.ut p).flags.lost && !(s.core p).desc.disabled && !s.repair.unusable.contains p &&
    !(s.ut p).flags.fencedDie
def State.spareFree (s : State) (p : Pos) : Bool := !(s.ltpos.toList.any fun x => x.die == some p)
def otherBank : Bank → Bank
  | .west => .east | .east => .west
/-- Table 15.10. -/
def addedAt (col : Nat) : BitVec 4 := BitVec.ofNat 4 ([5, 4, 0, 4, 5, 6, 6, 5, 4, 0, 4, 5].getD col 0)
/-- The bits of TIL_POS for an LT on a die. -/
def State.placeWord (s : State) (l : Lt) (p : Pos) : LtPos :=
  let h := homeOf l
  let x := s.ltpos[l]
  let n := (s.core p).desc.narrow
  let at_ (q : Pos) : LtPos := { x with
    pos := BitVec.ofNat 8 q.val, home := BitVec.ofNat 8 h.val, added := 0, spareLink := false, borrowed := false, detoured := false, narrow := n
    present := true, die := some p }
  if p = h then at_ h
  else if p = spareOf (rowOf h) (bankOf h) then
    if s.utWorks h then { at_ h with spareLink := true, added := addedAt (colOf h) } else { at_ p with detoured := true }
  else { at_ p with borrowed := true }
/-- The map of a bank becomes TIMING_UNSAFE (R427). -/
def State.setUns (s : State) (b : Bank) : State :=
  { s with lkh := match b with | .west => { s.lkh with wUns := true } | .east => { s.lkh with eUns := true } }
/-- An LT is carried by a die. -/
def State.carry (s : State) (l : Lt) (p : Pos) : State :=
  let x := s.placeWord l p
  let s1 := ({ s with ltpos := s.ltpos.set l x }).modCore p fun c => { c with desc := { c.desc with lt := BitVec.ofNat 7 l.val } }
  let s2 := if x.borrowed then (s1.setUns .west).setUns .east else s1
  if x.detoured then s2.setUns (ltBank l) else s2
/-- First pass: home, the bank-row's spare, or the narrow home die. -/
def State.placeOne (s : State) (l : Lt) : State :=
  let h := homeOf l
  let sp := spareOf (rowOf h) (bankOf h)
  if s.ltAbsent l then s
  else if s.dieServes h && !(s.core h).desc.narrow then s.carry l h
  else if s.dieServes sp && !(s.core sp).desc.narrow && s.spareFree sp then s.carry l sp
  else if s.dieServes h && s.lkh.narrow.contains h then s.carry l h
  else s
/-- Second pass: the spare of the other bank. -/
def State.borrowOne (s : State) (l : Lt) : State :=
  let h := homeOf l
  let sp := spareOf (rowOf h) (otherBank (bankOf h))
  if s.ltAbsent l || (s.posOf l).isSome then s
  else if s.dieServes sp && !(s.core sp).desc.narrow && s.spareFree sp then s.carry l sp
  else s
/-- place(): LTs in ascending order are the bank-rows in order. Placements that are not at home are recorded. -/
def State.place (s : State) : State :=
  let s0 : State := { s with ltpos := s.ltpos.map fun x => { x with die := none } }
  let s1 := allPos.foldl (fun (s : State) p => s.modCore p fun c => { c with desc := { c.desc with lt := 0x7F } }) s0
  let s2 := (List.finRange 120).foldl (fun (s : State) l => s.borrowOne l) ((List.finRange 120).foldl (fun (s : State) l => s.placeOne l) s1)
  (List.finRange 120).foldl (fun (s : State) l =>
    if (s.posOf l).isSome && s.posOf l != some (homeOf l) then s.logRec 0x21 .firmware [l.val, (s.posWord l).toNat &&& 0xFFFF, (s.posWord l).toNat] else s) s2

/-! ### Unit states (R402) -/

/-- A unit out of service takes what it carries out of service; a die with a fault is disabled whole (R66).
Beyond the rules' words: log entry 61 (DEDUCED). -/
def State.takeOut (s : State) (u : BitVec 40) (fused : Bool) : State :=
  let i := unitIndex u
  let p : Pos := Fin.ofNat 144 i
  match unitKind u with
  | 1 =>
    let s1 := s.modCore p fun c => { c with desc := { c.desc with disabled := true } }
    if fused then s1 else s1.modFlags p fun f => { f with fencedDie := true }
  | 3 => (s.losePos p).modFlags p fun f => { f with fencedUt := true }
  | 5 => s.modStg p fun g => { g with ringMib := 8 }
  | 6 => if fused then s.modStack (Fin.ofNat 24 i) fun k => { k with present := false } else s.loseStack (Fin.ofNat 24 i)
  | 7 => s.loseStack (Fin.ofNat 24 (i % 32))
  | 0x0B => { s with lkh := { s.lkh with serving := s.lkh.serving &&& ~~~BitVec.ofNat 3 (2 ^ (i % 3)) } }
  | 0x0C => (reachTiles (Fin.ofNat 24 i)).foldl (fun (s : State) p => s.losePos p) (s.modReach (Fin.ofNat 24 i) fun r => { r with lost := true })
  | 0x0D => s.modMesh p fun m => { m with tapOut := true }
  | _ => s
/-- Table 15.4 for one unit that some source names. A lane group replaced in service is tested again and counts as listed no longer. -/
def State.decideUnit (s : State) (u : BitVec 40) : State :=
  let fused := s.lkh.mapTrusted && s.lkh.fuseBad.contains u
  let listed := s.lkh.fdr.any fun e => e.unit == u && e.state != 3
  let notRun := s.lkh.mapTrusted && s.lkh.noPower.contains u
  let failed := s.lkh.testBad.contains u
  if !(fused || listed || failed) then s
  else
    let s1 : State := { s with repair := { s.repair with units := if s.repair.units.contains u then s.repair.units else s.repair.units ++ [u] } }
    let s2 := if !fused && !listed then s1.fdrAdd u 1 1 0 else s1
    let odd := if fused then !failed && !notRun else if listed then !failed else true
    let s3 := if odd then s2.logRec 0x23 .firmware [u.toNat, b2n fused + 2 * b2n listed + 4 * b2n failed + 8 * b2n notRun] else s2
    s3.takeOut u fused
def State.decideUnits (s : State) : State :=
  let l := (s.lkh.fuseBad ++ s.lkh.fdr.map (fun e => e.unit) ++ s.lkh.testBad).foldl (fun (l : List (BitVec 40)) u => if l.contains u then l else l ++ [u]) []
  l.foldl (fun (s : State) u => s.decideUnit u) s

/-! ### Descriptor and re-qualification (R2, R194, R436) -/

def State.stackMask (s : State) : BitVec 24 :=
  BitVec.ofNat 24 ((List.range 24).foldl (fun n m => if s.hbm[(Fin.ofNat 24 m)].present && !s.hbm[(Fin.ofNat 24 m)].lost then n + 2 ^ m else n) 0)
/-- How many stacks serve. -/
def State.stackCount (s : State) : Nat := ((List.range 24).filter fun m => s.stackMask.getLsbD m).length
/-- Frames for model pages: those of the present stacks, less the chart copies and the retired frames.
Beyond the rules' words: log entry 63 (DEDUCED). -/
def State.modelFrames (s : State) : Nat :=
  let n := ((List.range 24).filter fun m => s.stackMask.getLsbD m).length
  n * 1048576 - 4096 * (b2n s.chart.wValid + b2n s.chart.eValid) - (s.lkh.fdr.filter fun e => e.state == 2).length
def State.presentLts (s : State) : List Lt := (List.finRange 120).filter fun l => !s.ltAbsent l
def State.describe (s : State) : State := { s with lkh := { s.lkh with
  cores := BitVec.ofNat 7 s.presentLts.length, stackBits := s.stackMask, modelFrames := BitVec.ofNat 32 s.modelFrames } }
/-- What the part has and the placement leaves out. -/
def State.hasLoss (s : State) : Bool := !s.lostLts.isEmpty || !s.lostStacks.isEmpty
/-- R435, R436: a permitted start marks what is lost absent. The permission is used once. Beyond the rules' words: log entry 63 (DEDUCED). -/
def State.requalified (s : State) : State :=
  let s0 : State := { s with lkh := { s.lkh with requalify := false } }
  if !s.lkh.requalify || !s.hasLoss || 120 - s.lkh.absent.length - s.lostLts.length < 60 || s.stackCount < 12 then s0
  else
    let gone := s.lostStacks
    let s1 : State := { s0 with
      lkh := { s0.lkh with
        derated := true, deratedLts := s0.lkh.deratedLts ++ s.lostLts.map fun l => Fin.ofNat 120 l
        absent := s0.lkh.absent ++ s.lostLts.map fun l => Fin.ofNat 120 l
        absentStacks := s0.lkh.absentStacks ||| BitVec.ofNat 24 (gone.foldl (fun n m => n + 2 ^ m) 0) }
      hbm := Vector.ofFn fun m : Fin 24 => if gone.contains m.val then { s0.hbm[m] with present := false } else s0.hbm[m] }
    let n := s1.presentLts.map fun l => l.val
    s1.logRec 0x25 .firmware [(Config.partDerated Config.partWord).toNat, (maskWord n 0).toNat, (maskWord n 1).toNat, s1.stackMask.toNat,
      64 * s1.stackCount, s1.modelFrames]

/-! ### What the stages do (Table 15.1) -/

def stageFails (r : StageIn) (u : BitVec 40) : Bool := r.failing.contains u
def popHouses (b : BitVec 3) : Nat := ((List.range 3).filter fun i => b.getLsbD i).length

def State.act00 (s : State) (r : StageIn) : State :=
  let s1 : State := { s with
    clocks := { s.clocks with dly := r.dly, powerGood := s.now }, pins := { s.pins with bootSel := r.boot }, lkh := { s.lkh with testBad := [] } }
  (s1.mswReady 0 false true).mswReady 3 false true
def State.act01 (s : State) : State :=
  (s.chgCanal .firmware .internal (regMsw 0) fun s => s.mswWrite 0 true).chgCanal .firmware .internal (regMsw 3) fun s => s.mswWrite 3 true

/-- The lock-houses that find a package that passes. -/
def State.booted (s : State) (r : StageIn) : List (House × Bool) :=
  (List.finRange 3).filterMap fun h =>
    if r.housesUp.getLsbD h.val then (s.bootSlot s.pins.bootSel (r.slots.getLsbD h.val)).map fun b => (h, b) else none
def State.act02 (s : State) (r : StageIn) : State :=
  let l := s.booted r
  let bits (f : House × Bool → Bool) : BitVec 3 := BitVec.ofNat 3 (l.foldl (fun n x => if f x then n + 2 ^ x.1.val else n) 0)
  let keeper : House := if l.any fun x => x.1 == 1 then 1 else if l.any fun x => x.1 == 0 then 0 else 2
  let s1 : State := { s with
    lkh := { s.lkh with serving := bits fun _ => true, keeperHouse := keeper }, sec := { s.sec with slots := bits fun x => x.2 } }
  let ver := match s1.pkgOf keeper with | some g => g.pkgVersion | none => r.pkgVersion
  let s2 : State := { s1 with sec := { s1.sec with pkgVersion := ver } }
  let s3 := if (l.any fun x => x.2) && (l.any fun x => !x.2) then s2.logRec 0x61 .firmware [4, s2.sec.slots.toNat, ver.toNat] else s2
  let s4 := s3.houses.foldl (fun (s : State) h => s.measureBoot h) s3
  (s4.stepTime (s4.log.head.time + 1000000000)).modTsrc fun c => { c with freeRun := true }

/-- Majority of the three copies (R403). -/
def majority (v : Vector (BitVec 64) 3) : Option Word :=
  if v[0] = v[1] || v[0] = v[2] then some v[0] else if v[1] = v[2] then some v[1] else none
/-- The part that a part-number word names: code 1, 2 or 3 (Table 15.13). -/
def partOf (w : Word) : BitVec 8 := BitVec.ofNat 8 (1 + (Config.partCode w).toNat % 3)
/-- One absent LT in each of the 24 bank-rows (R409). -/
def absentLts (w : Word) : List Lt := (List.range 24).filterMap fun b =>
  let l := (List.finRange 120).filter fun x => rowOf (homeOf x) == b / 2 && (ltBank x == .east) == (b % 2 == 1)
  l[Config.partAbsent w b % 5]?
/-- n different members of a list, picked by f. -/
def picks (f : Nat → Nat) : Nat → List Nat → List Nat
  | 0, _ => []
  | n + 1, l => match l[f n % l.length]? with
    | some x => x :: picks f n (l.erase x)
    | none => []
/-- Six disabled stacks, no two in one row, three in each bank (R408). -/
def disabledStacks (w : Word) : List Nat :=
  let rows := picks (Config.partDisabled w) 6 (List.range 12)
  rows.take 3 ++ (rows.drop 3).map fun r => 12 + r
def State.act03 (s0 : State) (r : StageIn) (w : Word) : State :=
  let s := s0.fdrRead
  let part := partOf w
  let abs : List Lt := if part = 3 then absentLts w else []
  let off (m : Nat) : Bool := (part == 2 && (disabledStacks w).contains m) || s.lkh.absentStacks.getLsbD m
  { s with
    lkh := { s.lkh with
      part := part, absent := abs ++ s.lkh.deratedLts.filter fun l => !abs.contains l, mapTrusted := r.mapOk
      mapUnverified := !r.mapOk, fdrFull := s.lkh.fdrFull || decide (256 ≤ s.lkh.fdrUsed) }
    hbm := Vector.ofFn fun m : Fin 24 => if off m.val then { s.hbm[m] with present := false } else s.hbm[m] }

/-- Converters in order, then VNET of every under-tile, through admission. A unit that the fuse map forbids to power stays off. -/
def State.act04 (s : State) (r : StageIn) : State :=
  let banned (u : BitVec 40) : Bool := s.lkh.mapTrusted && s.lkh.noPower.contains u
  let reach (s : State) (k : ReachN) : State :=
    if s.reaches[k].lost then s
    else if stageFails r (unitId 0x0C k.val) then
      ((reachTiles k).foldl (fun (s : State) p => s.losePos p) (s.modReach k fun x => { x with lost := true })).failUnit (unitId 0x0C k.val) 0x0B
    else s.modReach k fun x => { x with on := true, pg := true }
  let tile (s : State) (p : Pos) : State :=
    if (s.ut p).flags.lost then s
    else if banned (utUnit p) then s.losePos p
    else s.modUt p fun u => { u with pwr := { u.pwr with vnet := true }, clk := { u.clk with exp := true, running := true, expRuns := true } }
  allPos.foldl tile ((List.finRange 24).foldl reach s)

/-- Lane groups of a seam direction that failed (Table 15.3), the repair groups 48 and 49 among them. -/
def laneFails (r : StageIn) (p : Pos) (d : Nat) : List Nat :=
  (r.failing.filter fun u => unitKind u == 4 && unitIndex u % 256 == p.val && unitIndex u / 256 % 4 == d).map fun u => unitIndex u / 1024 % 64
/-- R250: the repair groups that work carry the failing lane groups; a seam with more than two failed groups is out of service. -/
def SeamMap.repaired (l : List Nat) : SeamMap :=
  let bad := l.filter fun k => decide (k < 48)
  let r0 := if l.contains 48 then 0x3F else bad.getD 0 0x3F
  let r1 := if l.contains 49 then 0x3F else bad.getD (if l.contains 48 then 0 else 1) 0x3F
  { repair0 := BitVec.ofNat 6 r0, repair1 := BitVec.ofNat 6 r1, out := decide (2 < l.length), pend := none }
/-- Seams spanned by the link between a spare and the i-th home position of its bank-row. -/
def spareSpan (p : Pos) (i : Fin 5) : Nat := dist p (spareEnd p i)
def State.act05 (s : State) (r : StageIn) : State :=
  let ut (s : State) (p : Pos) : State :=
    if !(s.ut p).alive then s
    else
      let latOf (d : Fin 4) : BitVec 24 := match r.lats.find? fun x => x.1 == p && dirNum x.2.1 == d with | some x => x.2.2 | none => (s.ut p).xlat[d]
      let dead (d : Fin 4) : Bool := match neighbour p (if d = 0 then .n else if d = 1 then .e else if d = 2 then .s else .w) with
        | some q => !(s.ut q).alive || decide (2 < (laneFails r q ((d.val + 2) % 4)).length)
        | none => true
      s.modUt p fun u => { u with
        mesh := { u.mesh with profile := r.profile, seam := Vector.ofFn fun d : Fin 4 => SeamMap.repaired (laneFails r p d.val) }
        xlat := Vector.ofFn latOf
        xing := Vector.ofFn fun d : Fin 4 => if dead d then { u.xing[d] with mode := 0, dropped := (neighbour p .n).isSome || d != 0, lat := 0 }
          else { u.xing[d] with mode := if canalSeam p d.val then (if s.banksDiffer then 3 else 2) else 1, dropped := false, slipped := false, driftQ := 0
                                lat := latAt (latOf d) (s.bankStep (bankOf p)) }
        spareX := Vector.ofFn fun i : Fin 5 => if isSpare p then { u.spareX[i] with mode := 1, lat := BitVec.ofNat 4 (spareSpan p i + 3) } else u.spareX[i] }
  let s1 := allPos.foldl ut s
  { s1 with sec := { s1.sec with unitPkg := (List.range 144).foldl (fun t i => tblPut 0 t (1024 * 3 + i) s1.sec.pkgVersion) s1.sec.unitPkg } }

/-- HBM training; a warm reset retrains only, and the contents stay (R441). Beyond the rules' words: log entry 61 (DEDUCED). -/
def State.act06 (s : State) : State :=
  let one (k : Stack) : Stack :=
    if !k.present || k.lost then k
    else if s.lkh.warmRun then { k with selfRefresh := false, retraining := [] }
    else { k with mem := [], single := [], bad := [], selfRefresh := false, retraining := [] }
  { s with
    hbm := s.hbm.map one
    sec := { s.sec with unitPkg := (List.range 24).foldl (fun t i => tblPut 0 t (1024 * 4 + i) s.sec.pkgVersion) s.sec.unitPkg } }

/-- Column groups of R62 and R64. -/
def CorDesc.groups (d : CorDesc) (b0 b1 : BitVec 5) : CorDesc :=
  let n := b2n (b0 != 0x1F) + b2n (b1 != 0x1F)
  { d with
    cgPresent := if n = 2 then 15 else 16, narrow := n == 2, spareUsed := decide (0 < n) && b0 != 16 && b1 != 16, bad0 := b0, bad1 := b1 }
/-- The bad column groups of a die: what the self-test has found, and the units that fuses, the defect record and the tests name (R402). -/
def State.badGroups (s : State) (r : StageIn) (p : Pos) : List (BitVec 5) :=
  let found := match r.groups.find? fun x => x.1 == p with | some x => [x.2.1, x.2.2] | none => []
  let units := (if s.lkh.mapTrusted then s.lkh.fuseBad else []) ++ (s.lkh.fdr.filter fun e => e.state != 3).map (fun e => e.unit) ++ s.lkh.testBad ++ r.failing
  let named := (units.filter fun u => unitKind u == 2 && unitIndex u % 256 == p.val).map fun u => BitVec.ofNat 5 (unitIndex u / 256)
  let l := (found ++ named).filter fun g => decide (g.toNat ≤ 16)
  (List.range 17).filterMap fun i => if l.contains (BitVec.ofNat 5 i) then some (BitVec.ofNat 5 i) else none
def State.act07 (s : State) (r : StageIn) : State :=
  let banned (u : BitVec 40) : Bool := s.lkh.mapTrusted && s.lkh.noPower.contains u
  let die (s : State) (p : Pos) : State :=
    if !s.dieUsable p || stageFails r (dieUnit p) || banned (dieUnit p) then s
    else match s.badGroups r p with
    | _ :: _ :: _ :: _ => (s.modCore p fun c => { c with desc := { c.desc with disabled := true } }).modFlags p fun f => { f with fencedDie := true }
    | g =>
      (s.modCore p fun c => { c.clearAll with desc := { c.desc.groups (g.getD 0 0x1F) (g.getD 1 0x1F) with mcode := r.mcode } }).modPwr p fun k => { k with
        req := 1, state := 1, pending := false, refused := false, vsram := true, vcore := true, targetMv := coreMv p (s.bankStep (bankOf p)) }
  let s1 := allPos.foldl die s
  { s1 with sec := { s1.sec with unitPkg := (List.range 144).foldl (fun t i => tblPut 0 t (1024 * 2 + i) s1.sec.pkgVersion) s1.sec.unitPkg } }

/-- R427: at a cold start the flags clear where nothing of the kind is left, and a seam out of service sets that of its bank.
Beyond the rules' words: log entry 68 (DEDUCED). -/
def State.seamUns (s : State) : State :=
  let out (b : Bank) : Bool := allPos.any fun p => bankOf p == b && (List.finRange 4).any fun d => (s.ut p).mesh.seam[d].out
  let kept := s.lkh.warmRun
  { s with lkh := { s.lkh with wUns := (kept && s.lkh.wUns) || out .west, eUns := (kept && s.lkh.eUns) || out .east } }
/-- Whether dimension order and the maps of reset serve the placement. -/
def State.tablesPlain (s : State) : Bool :=
  s.deadSeams.isEmpty && s.lkh.absent.isEmpty && (List.finRange 120).all fun l => s.posOf l == some (homeOf l)
/-- Firmware chooses the stacks of the chart's two copies (R194). A copy on a stack that is lost is not valid. -/
def State.chartChosen (s : State) (homes : BitVec 5 × BitVec 5) : State :=
  let has (m : Nat) : Bool := s.hbm[(Fin.ofNat 24 m)].present && !s.hbm[(Fin.ofNat 24 m)].lost
  let wh := if 12 ≤ homes.1.toNat then 0 else homes.1
  let eh := if homes.2.toNat < 12 || 24 ≤ homes.2.toNat then 12 else homes.2
  s.modChart fun c =>
    let w := has wh.toNat
    let e := has eh.toNat
    { c with
      wHome := wh, eHome := eh, wValid := w, eValid := e, west := if s.lkh.warmRun && w then c.west else []
      east := if s.lkh.warmRun && e then c.east else [] }
def State.act08 (s : State) (r : StageIn) : State :=
  let s1 := ((s.decideUnits.seamUns).place).chartChosen r.homes
  let s2 := s1.requalified
  let s3 := allPos.foldl (fun (s : State) p => if (s.ltAt p).isNone && (s.ut p).pwr.state != 3 then s.goDark p else s) s2
  let s4 := s3.allUts fun p u => if u.alive then { u with
      time := { u.time with
        unsync := false, goodBeacons := 4
        pathDelay := match r.delays.find? fun x => x.1 == p with | some x => x.2.1 | none => u.time.pathDelay
        pathDelayN := match r.delays.find? fun x => x.1 == p with | some x => x.2.2 | none => u.time.pathDelayN }
      pound := { u.pound with unsync := false } } else u
  if s4.tablesPlain then s4 else s4.newTables

/-- Units that fail this stage take their state of Table 15.4, and firmware enables the ports in service.
Beyond the rules' words: log entry 61 (DEDUCED). -/
def State.act09 (s0 : State) (r : StageIn) : State :=
  let s := r.failing.foldl (fun (s : State) u => s.decideUnit u) s0
  let port (x : Fin 18) (q : Port) : Port := if q.state = .off && s.portCan x && !unitOut s (unitId 9 x.val) then { q with en := true, state := .dark, stateSince := s.now } else q
  let kcl (k : Fin 2) (q : KclPort) : KclPort := if q.en && q.state = 0 && !s.power.lost.contains .kcl && !unitOut s (unitId 0x0A k.val) then { q with state := 1 } else q
  let axl := (List.range 18).foldl (fun t i => tblPut 0 t (1024 * 5 + i) s.sec.pkgVersion) s.sec.unitPkg
  let links := (List.range 2).foldl (fun t i => tblPut 0 t (1024 * 6 + i) s.sec.pkgVersion) axl
  { s with
    power := { s.power with optics := true }, ports := Vector.ofFn fun x : Fin 18 => port x s.ports[x]
    kports := Vector.ofFn fun k : Fin 2 => kcl k s.kports[k]
    sec := { s.sec with unitPkg := links } }

/-- R488: fields sealed under RWL take their values of MRAM, and the blocks are sealed. Beyond the rules' words: log entry 71 (DEDUCED). -/
def State.sealAll (s : State) : State :=
  let s1 := s.allTiles fun _ t => { t with core := { t.core with mat := { t.core.mat with margin := t.core.mat.marginStored } } }
  let k := s1.sec.locksStored
  { s1 with
    intake := { s1.intake with hwinBase := s1.intake.hwinStored.1, hwinLen := s1.intake.hwinStored.2 }
    sec := { s1.sec with i3cLock := k.getLsbD 0, pcieLock := k.getLsbD 1, jtagLock := k.getLsbD 2 }, lkh := { s1.lkh with sealed := true } }
/-- A reset ends: BUSY falls and the RESET record is made (R439). -/
def State.resetDone (s : State) (st : Status) : State :=
  let s1 : State := { s with lkh := { s.lkh with reset := { s.lkh.reset with busy := false, waiting := false, status := st } } }
  let r := s1.lkh.reset
  s1.logPath 0x11 r.origin r.path [r.word.toNat, statusCode st]
/-- Manifests are admitted from ACTIVE; where the placement has left a loss the panel comes up Moored (R435). -/
def State.act0A (s : State) (r : StageIn) : State :=
  let s0 := ((if s.lkh.warmRun then s else s.sealAll).describe).modTsrc fun c => { c with ppsEn := true }
  let s1 := if s0.lkh.warmRun && s0.lkh.reset.busy then s0.resetDone .done else s0
  let s2 : State := { s1 with power := { s1.power with baseW := r.baseW }, lkh := { s1.lkh with warmRun := false } }
  if s2.hasLoss then s2.moor (.status .tileFenced) (match s2.lostLts with | [l] => BitVec.ofNat 7 l | _ => 0x7F)
  else (({ s2 with lkh := { s2.lkh with pstate := .active } } : State).logState false .starting .active).alert

/-- FLOW_OK asserted and the inlet at 40 °C or below for 1 s (R388). -/
def State.coolantGood (s : State) : Bool := match s.therm.coolSince with | some c => decide (c + 1000000000 ≤ s.now) | none => false
/-- Why a stage fails the start (Table 15.1): the code of Table 15.6. -/
def State.stageFails (s : State) (k : Nat) (r : StageIn) : Option Nat :=
  match k with
  | 0 => if r.housesUp = 0 then some 0x10 else none
  | 1 => if !s.clocks.oscReady then some 0x0C else if popHouses r.housesUp < 2 then some 0x10 else none
  | 2 => if (s.booted r).isEmpty then some 0x0D else none
  | 3 => if (majority r.partCopies).isNone then some 0x0F else none
  | 4 => if s.coolantGood then none else some 0x0E
  | _ => none
def State.stageAct (s : State) (k : Nat) (r : StageIn) : State :=
  match k with
  | 0 => s.act00 r
  | 1 => s.act01
  | 2 => s.act02 r
  | 3 => match majority r.partCopies with | some w => s.act03 r w | none => s
  | 4 => s.act04 r
  | 5 => s.act05 r
  | 6 => s.act06
  | 7 => s.act07 r
  | 8 => s.act08 r
  | 9 => s.act09 r
  | _ => s.act0A r
/-- The stage after this one; a warm reset leaves out 0x04 (R441). -/
def Lkh.stageAfter (k : Lkh) (n : Nat) : Nat := if n = 3 && k.warmRun then 5 else n + 1

/-- A stage ends: its actions and its report, or the fail of the start (R398 to R400). Stage 0x04 waits for the coolant for up to 30 s. Beyond the rules' words: log entry 62 (DEDUCED). -/
def State.runStage (s : State) (k : Fin 11) (r : StageIn) (timeout : Bool) : State :=
  let s0 := s.at_ r.t
  if !s0.atStage k.val || (k = 4 && !s0.coolantGood && decide (r.durMs.toNat < 30000)) then s0
  else
    let s1 : State := { s0 with lkh := { s0.lkh with
      coldStarts := if k = 0 then s0.lkh.coldStarts + 1 else s0.lkh.coldStarts
      testBad := if k = 0 then [] else s0.lkh.testBad ++ r.failing } }
    match s1.stageFails k.val r with
    | some c => (s1.stageReport k 2 r.durMs.toNat r.t c r.failing).haltStart
    | none =>
      let s2 := s1.stageAct k.val r
      let res := if timeout || !r.failing.isEmpty then 1 else 0
      let s3 := s2.stageReport k res r.durMs.toNat r.t 0 r.failing
      { s3 with lkh := { s3.lkh with stageNext := s1.lkh.stageAfter k.val } }

def execStage00 (r : StageIn) (s : State) : Out := .next (s.runStage 0 r false)
def execStage01 (r : StageIn) (s : State) : Out := .next (s.runStage 1 r false)
def execStage02 (r : StageIn) (s : State) : Out := .next (s.runStage 2 r false)
def execStage03 (r : StageIn) (s : State) : Out := .next (s.runStage 3 r false)
def execStage04 (r : StageIn) (s : State) : Out := .next (s.runStage 4 r false)
def execStage05 (r : StageIn) (s : State) : Out := .next (s.runStage 5 r false)
def execStage06 (r : StageIn) (s : State) : Out := .next (s.runStage 6 r false)
def execStage07 (r : StageIn) (s : State) : Out := .next (s.runStage 7 r false)
def execStage08 (r : StageIn) (s : State) : Out := .next (s.runStage 8 r false)
def execStage09 (r : StageIn) (s : State) : Out := .next (s.runStage 9 r false)
def execStage0A (r : StageIn) (s : State) : Out := .next (s.runStage 10 r false)
/-- R399: work unfinished at the bound counts as failing units. -/
def execStageTimeout (r : StageIn) (s : State) : Out := .next (s.runStage r.stage r true)

/-- R355: twice the delay without a ready oscillator. -/
def execOscTimeout (t : Nat) (s : State) : Out := .next (
  let s0 := s.at_ t
  if !s0.atStage 1 || s0.clocks.oscReady || t < s0.clocks.powerGood + 2 * oscDelay s0.clocks.dly then s0
  else (s0.stageReport 1 2 ((t - s0.clocks.powerGood) / 1000000) 0 0x0C []).haltStart)

/-! ### LKH_MAP.ACK and narrow retention (R404, R411) -/

/-- Unsigned writes of a path are refused under its lock in SEC_CFG (Table 17.8). -/
def State.pathLocked (s : State) (path : Path) : Bool :=
  match path with
  | .i3c => s.sec.i3cLock | .i2c => s.sec.i3cLock | .pcie => s.sec.pcieLock | .jtag => s.sec.jtagLock | _ => false
def State.mapAck (s : State) (o : Origin) (path : Path) : State :=
  if s.lkh.mapUnverified then ({ s with lkh := { s.lkh with mapUnverified := false } } : State).logReg o path (regCanal 0x18) 0 1 else s
def execLkhMapAck (o : Origin) (path : Path) (s : State) : Out := .next (if s.pathLocked path then s else s.mapAck o path)

/-- The setting takes effect at the next cold start. -/
def State.narrowSet (s : State) (p : Pos) (en : Bool) (o : Origin) (path : Path) : State :=
  s.chgCanal o path (0x100 + 8 * (p.val / 64)) fun s => { s with lkh := { s.lkh with
    narrowNext := if en then (if s.lkh.narrowNext.contains p then s.lkh.narrowNext else s.lkh.narrowNext ++ [p]) else s.lkh.narrowNext.filter fun q => q != p } }
def execNarrowRetentionRequest (p : Pos) (en : Bool) (path : Path) (s : State) : Out :=
  .next (if s.pathLocked path then s else s.narrowSet p en (originOf path) path)

end Sys2Proof.Machine
end

