-- ==== Sys2Proof/Machine/Repair.lean ====
section
/-! DEFINITION. Repair in service (15.4 to 15.7): events and suspicions, soundings, fence commands, substitution, lane groups and
pseudo-channels; headway (15.9). -/

namespace Sys2Proof.Machine

open Sys2Proof

def State.modRepair (s : State) (f : Repair → Repair) : State := { s with repair := f s.repair }

/-! ### Detection (R413, R414) -/

/-- An LT is to be sounded next, ahead of the rotation. -/
def State.soundNext (s : State) (l : Lt) : State := s.modRepair fun r => { r with due := l :: r.due.filter fun x => x != l }
/-- A failure of a unit that is not yet out of service. -/
def State.failNew (s : State) (u : BitVec 40) (cause : BitVec 8) : State := if unitOut s u then s else s.failUnit u cause
/-- A suspicion against an LT's compute die; the second within 65,536 pounds is a failure. -/
def State.suspect (s : State) (l : Lt) : State :=
  match s.posOf l with
  | none => s
  | some p =>
    let rest := s.repair.suspicions.filter fun x => x.1 != l
    match s.repair.suspicions.find? fun x => x.1 == l with
    | some x =>
      if s.repair.pounds ≤ x.2 + 65536 then (s.modRepair fun r => { r with suspicions := rest }).failNew (dieUnit p) 3
      else (s.modRepair fun r => { r with suspicions := rest ++ [(l, s.repair.pounds)] }).soundNext l
    | none => (s.modRepair fun r => { r with suspicions := rest ++ [(l, s.repair.pounds)] }).soundNext l
/-- Table 15.8. -/
def State.repairEvent (s : State) (ev : RepairEvent) : State :=
  match ev with
  | .checkMismatch l => s.suspect l
  | .coreFault l => s.suspect l
  | .scratchErrors l => s.suspect l
  | .replyTimeouts l => s.suspect l
  | .soundingMismatch l => match s.posOf l with | some p => s.failNew (dieUnit p) 2 | none => s
  | .unsynced p => s.failNew (dieUnit p) 4
  | .watchdogExp p => s.failNew (dieUnit p) 5
  | .lockLate p => s.failNew (dieUnit p) 5
  | .overcurrent p => s.failNew (dieUnit p) 6
  | .sensors p => s.failNew (dieUnit p) 7
  | .vnetTrip p => s.failNew (utUnit p) 6
  | .sliceLines p => s.failNew (utUnit p) 8
  | .watchdogNoExp p => s.failNew (utUnit p) 5
  | .reach r => s.failNew (unitId 0x0C r.val) 0x0B
  | .frame m f =>
    let u := unitId 8 (m.val + 32 * f.toNat)
    if s.lkh.fdr.any fun e => e.unit == u then s else s.fdrAdd u 0x0A 2 0
/-- A report on the towpath reaches the lock-houses that serve. -/
def execRepairEventReport (ev : RepairEvent) (t : Nat) (s : State) : Out := .next (
  let s0 := s.at_ t
  if !s0.repair.reports.contains ev || s0.serves = 0 then s0
  else (s0.modRepair fun r => { r with reports := r.reports.filter fun x => x != ev }).repairEvent ev)

/-! ### Soundings (R415, R416) -/

/-- The next present LT in ascending order after an LT, wrapping. -/
def State.nextPresent (s : State) (n : Nat) : Option Lt :=
  let l := s.presentLts
  match l.find? fun x => decide (n < x.val) with
  | some x => some x
  | none => l.head?
def execSoundingRotation (s : State) : Out := .next (
  if s.lkh.pstate != .active || s.repair.pounds < s.repair.rotated + 4096 then s
  else match s.nextPresent s.repair.nextLt.toNat with
    | none => s
    | some l => s.modRepair fun r => { r with
        nextLt := BitVec.ofNat 7 l.val, rotated := r.pounds, due := if r.due.contains l then r.due else r.due ++ [l] })

/-- ceil(190,000 ÷ N). -/
def State.soundPounds (s : State) (p : Pos) : Nat := cdiv 190000 (max 1 (s.pcfg.len.toNat * tileMhz (s.ut p).clk))
/-- The LT can be sounded at this gate tick: its core is up, and no admitted step names it; the sounding of a substitution's spare does not
wait for the steps that wait for it. Beyond the rules' words: log entry 64 (DEDUCED). -/
def State.canSound (s : State) (l : Lt) : Bool :=
  match s.posOf l with
  | none => false
  | some p => s.dieUp p && !s.soundingRuns l && ((s.repair.subst.any fun x => x.lt == l && x.phase == 7) || (!s.substRuns l && (s.stepOf l).isNone))
def State.startSounding (s : State) (l : Lt) : State :=
  match s.posOf l with
  | none => s
  | some p => (s.modCtl p fun k => { k with sounding := true }).modRepair fun r => { r with
      due := r.due.filter fun x => x != l, sounding := r.sounding ++ [(l, s.soundPounds p, false)] }
/-- LTs without a die are no longer due. Beyond the rules' words: log entry 64 (DEDUCED). -/
def execSoundingStart (t : Nat) (s : State) : Out := .next (
  let s0 := s.at_ t
  if t ≠ s0.lastTick || s0.lkh.pstate != .active then s0
  else
    let s1 := s0.modRepair fun r => { r with due := r.due.filter fun l => (s0.posOf l).isSome }
    (s1.repair.due.filter s1.canSound).foldl (fun (s : State) l => s.startSounding l) s1)

/-- After a sounding: what R114, R88 and R161 clear is as they leave it. Beyond the rules' words: log entry 64 (DEDUCED). -/
def Core.sounded (c : Core) : Core :=
  let clr (q : CtxState) : CtxState := { q with s := Vector.replicate 32 0, a := Vector.replicate 16 0, p := Vector.replicate 8 false }
  { c with
    main := clr c.main, hand := clr c.hand, vMain := Vector.replicate 64 0, vHand := Vector.replicate 4 0, mat := c.mat.discard
    mov := { c.mov with slots := Vector.replicate 64 {} }, ctl := { c.ctl with sounding := false } }
/-- The whole scratchpad and instruction store read through their ECC without a fault. -/
def Core.readsClean (c : Core) : Bool := c.spd.bad.isEmpty && c.img.ecc.isEmpty
/-- The signature of the oldest sounding under way is compared; a fault of its reads fails it as well (R416). The step lasts to its last gate tick.
Beyond the rules' words: log entry 64 (DEDUCED). -/
def execSoundingResult (same : Bool) (t : Nat) (s : State) : Out := .next (
  let s0 := s.at_ t
  match s0.repair.sounding.find? fun x => !x.2.2 with
  | none => s0
  | some (l, n, _) =>
    if 1 < n then s0
    else
      let ok := same && (match s0.posOf l with | some p => (s0.core p).readsClean | none => true)
      let compared (x : Lt × Nat × Bool) : Lt × Nat × Bool := if x.1 = l then (l, n, true) else x
      let s1 := s0.modRepair fun r => { r with
        sounding := if n = 0 then r.sounding.filter fun x => x.1 != l else r.sounding.map compared
        soundDone := if ok then r.soundDone + 1 else r.soundDone, soundFailed := if ok then r.soundFailed else r.soundFailed + 1 }
      match s1.posOf l with
      | none => s1
      | some p =>
        let s2 := s1.modCore p Core.sounded
        if ok then s2.modRepair fun r => { r with subst := r.subst.map fun x => if x.lt = l && x.phase = 7 then { x with phase := 8 } else x }
        else if s2.substRuns l then s2.spareFailed p 2
        else s2.tellRepair (.soundingMismatch l))

/-! ### Votes (R417 to R420) -/

/-- The effect of a fence by votes. A unit fenced by hardware before only takes note of the vote.
Beyond the rules' words: log entry 65 (DEDUCED). -/
def State.fenceVoted (s : State) (u : BitVec 40) (cause : BitVec 8) (voters : BitVec 3) : State :=
  let p : Pos := Fin.ofNat 144 (unitIndex u)
  let s1 := s.modRepair fun r => { r with failures := r.failures.filter fun e => e.1 != u }
  match unitKind u with
  | 1 =>
    if (s.ut p).flags.fencedDie then s1.modFlags p fun f => { f with voted := true }
    else ((s1.modRepair fun r => { r with
      fences := r.fences + 1, sounding := r.sounding.filter fun x => s1.posOf x.1 != some p }).fenceDie p cause voters).modCore p fun c =>
        { c with mat := c.mat.discard, ctl := { c.ctl with sounding := false } }
  | 3 =>
    if (s.ut p).flags.fencedUt then s1.modFlags p fun f => { f with voted := true }
    else ((((s1.modRepair fun r => { r with fences := r.fences + 1 }).abortAt p (.status .tileFenced)).losePos p).modFlags p fun f =>
      { f.failed s.now with fencedUt := true, voted := true }).fenceUnit u cause voters
  | 5 => if unitOut s u then s1 else (s1.takeOut u false).fenceUnit u cause voters
  | 0x0D => if unitOut s u then s1 else (s1.takeOut u false).fenceUnit u cause voters
  | _ => if unitOut s u then s1 else s1.fenceUnit u cause voters
def houseBit (h : House) : BitVec 3 := BitVec.ofNat 3 (2 ^ h.val)
def execFenceCommand (h : House) (unit : BitVec 40) (cause : BitVec 8) (t : Nat) (s : State) : Out := .next (
  let s0 := s.at_ t
  if !s0.lkh.serving.getLsbD h.val || s0.serves < 2 then s0
  else
    let same (c : FenceCmd) : Bool := c.unit == unit && c.cause == cause
    match s0.repair.cmds.find? fun c => same c && c.house != h && decide (t ≤ c.at_ + 1000000) with
    | some c => (s0.modRepair fun r => { r with cmds := r.cmds.filter fun x => !same x }).fenceVoted unit cause (houseBit h ||| houseBit c.house)
    | none => s0.modRepair fun r => { r with
        cmds := (r.cmds.filter fun x => !(same x && x.house == h)) ++ [{ house := h, unit := unit, cause := cause, at_ := t }] })
def execFenceCommandExpiry (h : House) (unit : BitVec 40) (cause : BitVec 8) (t : Nat) (s : State) : Out := .next (
  let s0 := s.at_ t
  match s0.repair.cmds.find? fun c => c.house == h && c.unit == unit && c.cause == cause with
  | none => s0
  | some c =>
    if t ≤ c.at_ + 1000000 then s0
    else (s0.modRepair fun r => { r with cmds := r.cmds.erase c, singles := r.singles + 1 }).logErr unit cause.toNat 1)

/-! ### Substitution (R421 to R428) -/

/-- R428: steps of a bank made TIMING_UNSAFE that have a TIMED pound end without replay. Beyond the rules' words: log entry 66 (DEDUCED). -/
def State.timedEnd (s : State) (b : Bank) : State :=
  let hit (r : StepRec) : Bool := (stepBanks r.man).contains b && r.man.poundEnts.any fun p => p.timed
  let s1 := (s.intake.steps.filter fun r => hit r && r.live).foldl (fun (s : State) r =>
    s.beginAbort r { step := r.num, cause := .status .timingUnsafe_, lt := 0x7F, overrun := false } (some .timingUnsafe_)) s
  s1.modIntake fun i => { i with steps := i.steps.map fun r => if hit r then { r with ending := some .timingUnsafe_, noReplay := true } else r }
/-- A repair sets the flag of a bank. -/
def State.unsafeFrom (s old : State) : State :=
  [Bank.west, Bank.east].foldl (fun (s : State) b => if s.bankUns b && !old.bankUns b then s.timedEnd b else s) s

/-- A spare that no LT has and no substitution uses. -/
def State.spareReady (s : State) (p : Pos) : Bool :=
  s.dieServes p && !(s.core p).desc.narrow && s.spareFree p && !(s.repair.subst.any fun x => x.spare == p)
/-- The spare for an LT: its bank-row's own, else that of the other bank. -/
def State.spareFor (s : State) (l : Lt) : Option Pos :=
  let own := spareOf (rowOf (homeOf l)) (bankOf (homeOf l))
  let far := spareOf (rowOf (homeOf l)) (otherBank (bankOf (homeOf l)))
  if s.spareReady own then some own else if s.spareReady far then some far else none
/-- A substitution of the same bank-row has not reached phase 5 (R422). -/
def State.rowBusy (s : State) (l : Lt) : Bool :=
  s.repair.subst.any fun x => x.lt != l && rowOf (homeOf x.lt) == rowOf (homeOf l) && ltBank x.lt == ltBank l &&
    (x.phase == 3 || (x.phase == 4 && x.flips == s.epoch.flips))
/-- Whether the LT's die is out of service with the votes that a substitution needs. -/
def State.mustReplace (s : State) (l : Lt) : Bool :=
  match s.posOf l with
  | none => false
  | some p => (s.ut p).flags.voted
/-- An LT has no tile. -/
def State.noTile (s : State) (l : Lt) : State :=
  let s1 := match s.posOf l with
    | some p => s.modCore p fun c => { c with desc := { c.desc with lt := 0x7F } }
    | none => s
  { s1 with ltpos := vmod s1.ltpos l fun x => { x with die := none } }
/-- Phase 3: the spare goes to IDLE. -/
def State.substBegin (s : State) (l : Lt) (sp : Pos) : State :=
  let start := match s.posOf l with | some p => (s.ut p).flags.failedAt.getD s.now | none => s.now
  (s.modRepair fun r => { r with subst := r.subst ++ [{ lt := l, spare := sp, phase := 3, start := start, flips := 0 }] }).powerReq sp 1
/-- The spare is IDLE. -/
def State.spareIdle (s : State) (p : Pos) : Bool := (s.ut p).pwr.state == 1 && !(s.core p).spd.zeroing
/-- Phase 4: the LT is carried by the spare, whose tile chambers restart, and a new table version is written. -/
def State.substPlace (s : State) (l : Lt) (sp : Pos) : State :=
  let old := s.posWord l
  let s1 := ((s.noTile l).carry l sp).modUt sp fun u => { u with chambers := [] }
  let s2 : State := { s1 with ltpos := vmod s1.ltpos l fun x => { x with moves := x.moves + 1 } }
  let s3 := (s2.modRepair fun r => { r with
    suspicions := r.suspicions.filter fun x => x.1 != l
    subst := r.subst.map fun x => if x.lt = l then { x with phase := 4, flips := s2.epoch.flips } else x }).newTables
  (s3.logRec 0x21 .firmware [l.val, old.toNat, (s3.posWord l).toNat]).unsafeFrom s
/-- The sequence begins with the power-on of the spare; once the spare is IDLE, the new tables are written for the next flip.
Beyond the rules' words: log entry 66 (DEDUCED). -/
def execSubstitution (lt : Lt) (t : Nat) (s : State) : Out := .next (
  let s0 := s.at_ t
  if s0.lkh.pstate != .active then s0
  else match s0.repair.subst.find? fun x => x.lt == lt with
    | none =>
      if !s0.mustReplace lt || s0.rowBusy lt then s0
      else (match s0.spareFor lt with
        | some sp => s0.substBegin lt sp
        | none => s0.noTile lt)
    | some x =>
      if x.phase ≠ 3 then s0
      else if x.start + (if s0.spareIdle x.spare then 13000000 else 12000000) < t then s0.spareFailedFree x.spare
      else if s0.spareIdle x.spare && s0.epoch.free then s0.substPlace lt x.spare
      else s0)

/-- What loading the stored RESTORE entries comes to: the state and the byte ranges that they have covered, or it waits. -/
def State.restoreFor (l : Lt) : List RestoreEnt → State → Option (State × List (Nat × Nat)) × State
  | [], s => (some (s, []), s)
  | e :: r, s =>
    if addrClass e.dst ≠ 0 || addrLt e.dst ≠ l.val then State.restoreFor l r s
    else match State.restoreLines (e.len.toNat / 64) e.src e.dst s with
      | .waits s1 => (none, s1)
      | .failed s1 _ _ => State.restoreFor l r s1
      | .done s1 => match State.restoreFor l r s1 with
        | (some (s2, c), s3) => (some (s2, (addrOff e.dst, e.len.toNat) :: c), s3)
        | (none, s3) => (none, s3)
/-- Ranges cover n bytes from a on: the part of it still open, for ranges in rising order. -/
def coverFrom (a : Nat) : List (Nat × Nat) → Nat
  | [] => a
  | (b, n) :: r => if b ≤ a then coverFrom (max a (b + n)) r else a
def insertRange (x : Nat × Nat) : List (Nat × Nat) → List (Nat × Nat)
  | [] => [x]
  | y :: r => if x.1 ≤ y.1 then x :: y :: r else y :: insertRange x r
def covered (l : List (Nat × Nat)) (a n : Nat) : Bool :=
  decide (a + n ≤ coverFrom a ((l.foldr insertRange []).filter fun x => decide (a < x.1 + x.2)))
/-- The image of the LT's last LOAD, where the host window still gives it. Beyond the rules' words: log entry 66 (DEDUCED). -/
def State.lastImage (s : State) (l : Lt) : Option ImageIn :=
  match s.ltpos[l].lastLoad with
  | none => none
  | some (o, n) => if (s.hostBad o.toNat n).isSome then none else parseImage (s.hostRead o.toNat n)
/-- Phase 6. Beyond the rules' words: log entry 66 (DEDUCED). -/
def execSubstitutionLoad (lt : Lt) (t : Nat) (s : State) : Out := .next (
  let s0 := s.at_ t
  match s0.repair.subst.find? fun x => x.lt == lt with
  | none => s0
  | some x =>
    let flipped := x.flips != s0.epoch.flips && (s0.epoch.free || decide (s0.epoch.flippedAt + 2000000 ≤ t))
    if x.phase ≠ 4 then s0
    else if !flipped then (if x.start + 15000000 + s0.poundNs < t then s0.spareFailedFree x.spare else s0)
    else if x.start + 1400000000 < t then s0.spareFailedFree x.spare
    else
      let s1 := match s0.lastImage lt with
        | some m => s0.modCore x.spare fun c => c.loadImage m
        | none => s0
      match State.restoreFor lt s1.ltpos[lt].restore s1 with
      | (none, s2) => s2
      | (some (_, cov), s2) =>
        let lost := (s2.core x.spare).spd.res.toList.any fun r => r.valid && !covered cov (r.base.toNat * 65536) (r.len.toNat * 65536)
        let s3 : State := { s2 with ltpos := vmod s2.ltpos lt fun y => { y with residentLost := y.residentLost || lost } }
        (s3.modRepair fun r => { r with subst := r.subst.map fun y => if y.lt = lt then { y with phase := 7, loaded := s3.now } else y }).soundNext lt)
/-- Phase 8. The sounding's bound of two pounds holds for pounds of up to 20 ms. -/
def execSubstitutionReady (lt : Lt) (t : Nat) (s : State) : Out := .next (
  let s0 := s.at_ t
  match s0.repair.subst.find? fun x => x.lt == lt with
  | none => s0
  | some x =>
    if x.phase = 7 && decide (s0.poundNs ≤ 20000000) && decide (x.loaded + 2 * s0.poundNs < t) then s0.spareFailedFree x.spare
    else if x.phase ≠ 8 then s0
    else if x.start + 1500000000 < t then s0.spareFailedFree x.spare
    else s0.modRepair fun r => { r with subst := r.subst.filter fun y => y.lt != lt })

/-! ### Lane groups and pseudo-channels (R429 to R432) -/

def laneUnit (p : Pos) (d : Dir) (lane : Nat) : BitVec 40 := unitId 4 (p.val + 256 * (dirNum d).val + 1024 * lane)
/-- Flits that a lane group has replayed within the last second. -/
def Mesh.replaysOf (m : Mesh) (d : Dir) (lane : Fin 48) (t : Nat) : Nat :=
  (m.replays.filter fun e => e.1 == dirNum d && e.2.1 == lane.val && decide (t < e.2.2 + 1000000000)).length
/-- A free repair group, of two either, takes the lane group's charge at the next quiet window; with none free the seam goes out of service, and tables
that route around it are written. Beyond the rules' words: log entry 38 (DEDUCED). -/
def execLaneRepair (p : Pos) (d : Dir) (lane : Fin 48) (second : Bool) (t : Nat) (s : State) : Out := .next (
  let s0 := s.at_ t
  let m := (s0.ut p).mesh.seam[dirNum d]
  let w : BitVec 13 := m.pend.getD (BitVec.ofNat 13 (m.repair0.toNat + 64 * m.repair1.toNat + 4096 * b2n m.out))
  let a := fld w 0 6
  let b := fld w 6 6
  if (s0.ut p).mesh.replaysOf d lane t ≤ 8 || bit w 12 || a = lane.val || b = lane.val then s0
  else
    let put (v : Nat) (s : State) : State := s.modMesh p fun k => { k with seam := vmod k.seam (dirNum d) fun x => { x with pend := some (BitVec.ofNat 13 v) } }
    let u := laneUnit p d lane.val
    let mend (v : Nat) : State := ((put v s0).fdrAdd u 9 3 0).logRec 0x31 .firmware [u.toNat, 1]
    if a = 0x3F && !(second && b == 0x3F) then mend (lane.val + 64 * b)
    else if b = 0x3F then mend (a + 64 * lane.val)
    else if !s0.epoch.free then s0
    else
      let set (v : SeamMap) (s : State) : State := s.modMesh p fun k => { k with seam := k.seam.set (dirNum d) v }
      let s1 := ((set { m with out := true } s0).newTables).logRec 0x31 .firmware [u.toNat, 2]
      ((set { m with pend := some (w ||| 0x1000) } s1).setUns (bankOf p)).unsafeFrom s0)

/-- A C1 reservation of an admitted step on the stack. -/
def State.stackReserved (s : State) (m : StackN) : Bool := s.intake.steps.any fun r => r.man.reserve.any fun x => x.2.1 == m.val
/-- errs: corrected errors of the last second. Beyond the rules' words: log entry 67 (DEDUCED). -/
def execHbmRetrain (m : StackN) (pc : Fin 64) (errs : Nat) (t : Nat) (s : State) : Out := .next (
  let s0 := s.at_ t
  let k := s0.hbm[m]
  if t ≠ s0.lastTick || k.lost || !k.present || k.retraining.contains pc || (s0.stackReserved m && decide (errs ≤ 4096)) then s0
  else s0.modStack m fun k => { k with retraining := k.retraining ++ [pc], retrains := k.retrains + 1 })
/-- The third retrain in a row that fails loses the stack. -/
def execHbmRetrainDone (m : StackN) (pc : Fin 64) (ok : Bool) (t : Nat) (s : State) : Out := .next (
  let s0 := s.at_ t
  if !s0.hbm[m].retraining.contains pc then s0
  else
    let n := if ok then 0 else tblGet 0 s0.hbm[m].failedRetrains pc.val + 1
    let s1 := s0.modStack m fun k => { k with
      retraining := k.retraining.filter fun x => x != pc, failedRetrains := tblPut 0 k.failedRetrains pc.val n }
    if n < 3 then s1 else (s1.loseStack m).fenceUnit (unitId 6 m.val) 0x0A 0)

/-! ### Headway (R437, R438) -/

def dayNs : Nat := 86400000000000
/-- The conditions of R438 that the panel's state shows. Beyond the rules' words: log entry 67 (DEDUCED). -/
def State.refNow (s : State) : Bool :=
  !s.lkh.refBroken && s.lkh.pstate != .moored && decide (4400 ≤ s.power.vin.toNat) && decide (s.power.vin.toNat ≤ 5600) && s.power.userW == 15000 &&
    decide (220 ≤ s.therm.flowEst.toNat) && decide (2000 ≤ s.therm.inlet.toNat) && decide (s.therm.inlet.toNat ≤ 3500) && s.therm.flowOk &&
    s.kclUp && !s.sec.updating
/-- Add to the bucket of a day: DONE, what has joined DONE + LOST, and what has left it. Beyond the rules' words: log entry 67 (DEDUCED). -/
def addBucket (day d more less : Nat) (ok : Bool) : List (Nat × Nat × Nat × Bool) → List (Nat × Nat × Nat × Bool)
  | [] => [(day, d, more - less, ok)]
  | (x, a, b, k) :: r => if x = day then (x, a + d, b + more - less, k && ok) :: r else (x, a, b, k) :: addBucket day d more less ok r
/-- Firmware saves the counters, and publishes the headway of the last 30 days. Beyond the rules' words: log entry 67 (DEDUCED). -/
def execHeadwaySave (t : Nat) (s : State) : Out := .next (
  let s0 := s.at_ t
  let k := s0.lkh
  let d := (k.hwDone - k.hwSaved[0]).toNat
  let day := s0.now / dayNs
  let b := (addBucket day d (d + k.hwLost.toNat) k.hwSaved[1].toNat s0.refNow k.buckets).filter fun x => decide (day < x.1 + 30)
  let don := b.foldl (fun n x => n + x.2.1) 0
  let all_ := b.foldl (fun n x => n + x.2.2.1) 0
  { s0 with lkh := { k with
    hwSaved := #v[k.hwDone, k.hwLost, k.hwLostProg, k.hwSound, k.hwMoored, k.hwIdle], buckets := b, refBroken := false
    hw30d := BitVec.ofNat 17 (if all_ = 0 then 0 else don * 100000 / all_), hwDays := BitVec.ofNat 5 b.length
    hwRef := decide (b.length = 30) && b.all fun x => x.2.2.2 } })

end Sys2Proof.Machine
end

