-- ==== Sys2Proof/Machine/Reset.lean ====
section
/-! DEFINITION. Resets (16.1, 16.3, 16.4) and panel states (16.2): LKH_RESET, what each reset kind keeps (Table 16.3), STANDBY. -/

namespace Sys2Proof.Machine

open Sys2Proof

/-! ### Preconditions (Table 16.1, R440) -/

def ResetReg.pos (r : ResetReg) : Pos := Fin.ofNat 144 r.target.toNat
def ResetReg.house (r : ResetReg) : House := Fin.ofNat 3 r.target.toNat
/-- A KIND or TARGET outside Table 16.6, or a warm reset of a Moored panel. -/
def State.resetIllegal (s : State) (r : ResetReg) : Bool :=
  match r.kind.toNat with
  | 1 => s.lkh.pstate == .moored
  | 2 => decide (23 < r.target.toNat)
  | 3 => decide (144 ≤ r.target.toNat)
  | 4 => decide (144 ≤ r.target.toNat)
  | 5 => decide (144 ≤ r.target.toNat)
  | 6 => decide (0x11 < r.target.toNat) && r.target != 0x20 && r.target != 0x21
  | 7 => decide (2 < r.target.toNat)
  | _ => true
/-- No admitted step names an LT of the reach or holds a reservation on its stack. -/
def State.reachFree (s : State) (k : ReachN) : Bool :=
  ((reachTiles k).all fun p => (s.stepAt p).isNone) && !s.stackReserved k
def State.resetMay (s : State) (r : ResetReg) : Bool :=
  match r.kind.toNat with
  | 2 => s.reachFree (Fin.ofNat 24 r.target.toNat)
  | 3 => s.reachFree (reachOf r.pos)
  | 4 => (s.stepAt r.pos).isNone
  | 5 => r.ctx != 0 || (s.stepAt r.pos).isNone
  | 7 => ((List.finRange 3).all fun h => h == r.house || s.lkh.serving.getLsbD h.val) &&
      (r.target != 1 || s.intake.steps.all fun x => x.man.canalCount == 0 && x.man.consign.isEmpty && x.man.colls.isEmpty)
  | _ => true

/-! ### Core, tile and reach resets (R447, R448, R273) -/

/-- A request that a network interface has accepted and not answered. -/
def Packet.request (q : Packet) : Bool := q.type.toNat % 2 == 1
/-- A register that the under-tile holds. -/
def Packet.utRegister (q : Packet) : Bool :=
  addrClass q.addr == 2 && !(decide (1 ≤ addrReg q.addr >>> 16) && decide (addrReg q.addr >>> 16 ≤ 4))
/-- They are dropped without an answer; a barge that is still landing is refused under R216. Beyond the rules' words: log entry 99 (DEDUCED). -/
def State.dropAccepted (s : State) (p : Pos) (ltOnly : Bool) : State :=
  let gone (q : Packet) : Bool := q.place == .delivered p && q.request && !(q.type == 5 && q.taken) && (!ltOnly || (q.dkind == 0 && !q.utRegister))
  { s with net := s.net.filter fun q => !gone q }
/-- Packets of abandoned requests that have not been injected are dropped. -/
def State.dropUninjected (s : State) (p : Pos) : State :=
  { s with net := s.net.filter fun q => !(q.place == Place.source p && q.request && q.type != 0xD) }.modMesh p fun m => { m with vc2Wait := [], loose := [] }
/-- Busy slots complete with TILE_RESET and signal no chamber. -/
def slotAbandoned (k : Slot) : Slot := if k.busy then { busy := false, status := .tileReset, op := none } else {}

/-- A compute die is reset (Table 16.3, column Core). Beyond the rules' words: log entry 68 (DEDUCED). -/
def State.coreResetAt (s : State) (p : Pos) : State :=
  ((((s.voidSender p .tileReset).dropAccepted p true).closeAll p).modCore p Core.resetRegs).modFlags p fun f => { f with inCoreReset := true }
/-- A wharf port at the reset values of its AXL_ block, counters kept. -/
def Port.blockReset (x : Port) : Port :=
  { x with en := false, genMax := true, peerRead := false, meetUs := 0x7D0, loop_ := 0, cons := Vector.replicate 256 {} }
/-- Table 16.3, columns Tile and CLEAR; the consignments of a wharf's port complete before its block is reset (R285). Beyond the rules' words: log entry 68 (DEDUCED). -/
def State.tileResetAt (s : State) (p : Pos) (clear : Bool) : State :=
  if (s.ut p).flags.lost then s
  else
    let slots := (s.core p).mov.slots.map slotAbandoned
    let s1 := (((s.voidSender p .tileReset).flushSlice (reachOf p) p true).dropAccepted p false).dropUninjected p
    let s2 := (s1.closeAll p).modTile p fun t => { core := if clear then t.core.clearAll else t.core.resetRegs, ut := t.ut }
    let s3 := s2.modTile p fun t =>
      { core := { t.core with
          mov := { t.core.mov with slots := slots }, spd := { t.core.spd with zeroing := clear || t.core.spd.zeroing } }
        ut := { t.ut with
          stg := { t.ut.stg with ringMib := 4, flush := false }
          cht := { faultAddr := t.ut.cht.faultAddr, faultValid := t.ut.cht.faultValid }
          stepNo := 0, attempt := 0, chambers := []
          pwr := { t.ut.pwr with boostMv := 0x0F, refused := false }
          flags := { t.ut.flags with inTileReset := true } } }
    let s4 := match stackAt p with | some m => s3.modStack m fun k => { k with wC2 := 1, wC3 := 1 } | none => s3
    match portAt p with
    | some x =>
      let s5 := (s4.portLeave x .off .tileReset).modPort x fun q => q.stopAll 1 .tileReset
      ((List.finRange 256).foldl (fun (s : State) e => s.consComplete x e) s5).modPort x Port.blockReset
    | none => s4
/-- The row-end controller stops with its stack in self-refresh. -/
def State.holdStack (s : State) (m : StackN) : State := s.modStack m fun k => { k with selfRefresh := true, initing := true, retraining := [] }
def State.reachResetAt (s : State) (k : ReachN) (clear : Bool) : State :=
  ((reachTiles k).foldl (fun (s : State) p => s.tileResetAt p clear) s).holdStack k
/-- One context's S, A and P registers and loop entries, its writes in flight to them included; HAND's handlers go as well.
Beyond the rules' words: log entry 68 (DEDUCED). -/
def Core.contextReset (c : Core) (x : Ctx) : Core :=
  let clr (q : CtxState) : CtxState :=
    { q with s := Vector.replicate 32 0, a := Vector.replicate 16 0, p := Vector.replicate 8 false, loops := Vector.replicate 4 {} }
  let mine : RegDst → Bool
    | .s y _ _ => y == x
    | .a y _ _ => y == x
    | .p y _ _ => y == x
    | _ => false
  let c1 := { c.modCtx x clr with pend := c.pend.filter fun w => !mine w.dst }
  if x = .hand then { c1 with ctl := { c1.ctl with hand := .idle, curInv := none, queue := [] } } else c1
def ctxOf (n : BitVec 2) : Ctx := if n = 0 then .main else if n = 1 then .hand else if n = 2 then .tow else .dbg

/-! ### Link and lock-house resets (R449, R450) -/

/-- The unit of a key of State.sec.unitPkg. -/
def pkgUnit (k : Nat) : BitVec 40 := unitId (match k / 1024 with | 2 => 1 | 3 => 3 | 4 => 6 | 5 => 9 | _ => 0x0A) (k % 1024)
/-- The update ends once every unit in service runs the package in force (R459, step 3). Beyond the rules' words: log entry 74 (DEDUCED). -/
def State.updateEnd (s : State) : State :=
  if s.sec.updating && s.sec.updateStep == 4 && (s.sec.unitPkg.all fun e => unitOut s (pkgUnit e.1) || e.2 == s.sec.pkgVersion) then
    ({ s with sec := { s.sec with updating := false, updateStep := 0 } } : State).logRec 0x61 .firmware [5, s.sec.pkgVersion.toNat, 0]
  else s
/-- A unit runs the package in force; the first unit of a class to do so extends the registers of Table 17.5.
Beyond the rules' words: log entry 74 (DEDUCED). -/
def State.unitUpdated (s : State) (cls idx : Nat) : State :=
  let v := s.sec.pkgVersion
  let first := !(s.sec.unitPkg.any fun e => e.1 / 1024 == cls && e.2 == v)
  let s1 : State := { s with sec := { s.sec with unitPkg := tblPut 0 s.sec.unitPkg (1024 * cls + idx) v } }
  let s2 := s1.logRec 0x61 .firmware [2, v.toNat, cls, idx]
  let reg : Fin 8 := if cls = 2 then 3 else if cls = 3 then 4 else if cls = 4 then 5 else 6
  let src : House := if s2.lkh.serving.getLsbD 1 then 1 else 0
  let d := match s2.pkgOf src with | some g => compDigest g cls | none => Config.bootMeasure (s2.slotOf src).val reg.val
  (if first then s2.houses.foldl (fun (s : State) h => s.extend h reg d) s2 else s2).updateEnd
/-- A port goes OFF (Table 10.4), with the link code of the package in force (Table 17.6). -/
def State.linkResetAt (s : State) (t : Nat) : State :=
  if t < 18 then
    let x : PortN := Fin.ofNat 18 t
    (s.portLeave x .off .tileReset).unitUpdated 5 t
  else
    let k : KPort := if t = 0x20 then 0 else 1
    (s.kclLeave k (if (s.kport k).en then 1 else 0)).unitUpdated 6 (t - 0x20)
/-- The roles pass, and LH-C's volatile state goes. -/
def State.houseResetAt (s : State) (h : House) : State :=
  let s1 := s.loseHouse h
  if h = 1 then
    { s1 with canal := [], lkh := { s1.lkh with stallPtr := 0, stallLog := [] } }.allUts fun _ u => { u with mirror := [], mirrorDue := [] }
  else s1

/-! ### The warm reset (R441, R446, Table 16.4) -/

/-- The Warm column for a tile; the die has gone DARK. -/
def Tile.warm (t : Tile) : Tile :=
  let u := t.ut
  let m := u.mesh
  { core := { t.core with desc := {} }
    ut := { u with
      time := {}, pound := {}, poundLast := {}, xing := u.xing.map fun x => { slipCount := x.slipCount }
      spareX := u.spareX.map fun x => { slipCount := x.slipCount }, xlat := Vector.replicate 4 0
      stg := { late := u.stg.late, demoted := u.stg.demoted, migWait := u.stg.migWait, eccAddr := u.stg.eccAddr, eccValid := u.stg.eccValid }
      cht := { faultAddr := u.cht.faultAddr, faultValid := u.cht.faultValid }
      stepNo := 0, attempt := 0, berths := Vector.replicate 64 {}, windows := Vector.replicate 256 {}, chambers := [], mirror := [], mirrorDue := []
      mesh := { tmrUs := m.tmrUs, halvings := m.halvings, timeouts := m.timeouts, lateAns := m.lateAns, dropped := m.dropped, expWait := m.expWait
                badHdr := m.badHdr, badWrite := m.badWrite, tapOut := m.tapOut }
      pwr := { u.pwr with targetMv := 0x2EE, boostMv := 0x0F, refused := false }
      clk := { u.clk with sel := 2, step := 5, locked := false }
      thm := { splitEvents := u.thm.splitEvents, trip := u.thm.trip }
      flags := { u.flags with inTileReset := false, inCoreReset := false, quiet := false } } }
def Stack.warm (k : Stack) : Stack := { k with wC2 := 1, wC3 := 1, selfRefresh := k.present && !k.lost, initing := false, retraining := [] }
def Port.warm (x : Port) : Port := { x.blockReset with genMax := x.genMax, meetUs := x.meetUs, peerRead := x.peerRead }
/-- Canal blocks at their reset values, but for what Table 16.4 keeps and the counters. -/
def State.warmCanal (s : State) : State :=
  let k := s.lkh
  let i := s.intake
  { s with
    canal := [], net := [], errands := [], aborts := []
    ltpos := s.ltpos.map fun x => { x with residentLost := false }
    pcfg := { len := s.pcfg.len, next := s.pcfg.next }, epoch := { flips := s.epoch.flips }
    clocks := { s.clocks with step := { changes := s.clocks.step.changes } }
    reaches := s.reaches.map fun (r : Reach) => { r with queue := [], held := [] }
    power := { s.power with lowTicks := 0 }
    therm := { tjPlan := s.therm.tjPlan, tauMs := s.therm.tauMs, glitch := s.therm.glitch, emergencies := s.therm.emergencies
               lastCause := s.therm.lastCause, throttles := s.therm.throttles, inlet := s.therm.inlet, outlet := s.therm.outlet, flowOk := s.therm.flowOk
               thermBad := s.therm.thermBad, hist := s.therm.hist, coolSince := s.therm.coolSince }
    repair := { fences := s.repair.fences, singles := s.repair.singles, soundDone := s.repair.soundDone, soundFailed := s.repair.soundFailed
                failures := s.repair.failures, unusable := s.repair.unusable, units := s.repair.units, pounds := s.repair.pounds
                rotated := s.repair.pounds }
    chart := { west := s.chart.west, east := s.chart.east, wHome := s.chart.wHome, eHome := s.chart.eHome, wValid := s.chart.wValid
               eValid := s.chart.eValid, dropped := s.chart.dropped }
    intake := { i with
      snoopUs := 0x0A, cwin := Vector.replicate 8 {}, heldSince := none, cache := [], dir := [], snooping := [] }
    kports := s.kports.map fun q => { genMax := q.genMax, downCount := q.downCount }
    sec := { s.sec with certAddr := 0, certLen := 0, certBusy := false, certStatus := .done, quoteBusy := false, nonce := 0, quote := [] }
    log := { s.log with sel := 0, selBad := false }
    lkh := { k with
      pstate := .starting, stageNext := 3, halted := false, warmRun := true, req := false, pending := false, mapUnverified := false, testBad := [], stallPtr := 0, stallLog := [], refBroken := true } }
def State.warmReset (s : State) : State :=
  let s1 := (s.abortAll (.status .tileReset) 0x7F (some .stepAborted)).endAborted .stepAborted
  let s2 := s1.intake.steps.foldl (fun (s : State) r => s.endStep r .stepAborted) s1
  let s3 := (List.finRange 24).foldl (fun (s : State) k => s.flushReach k true) s2
  let s4 := allPos.foldl (fun (s : State) p => s.goDark p) { s3 with hbm := s3.hbm.map Stack.warm }
  let s5 := (List.finRange 18).foldl (fun (s : State) x => (s.portLeave x .off .tileReset).modPort x Port.warm) s4
  let s6 := (List.finRange 2).foldl (fun (s : State) k => s.kclLeave k 0) s5
  let old := s.lkh.pstate
  ((((s6.allTiles fun _ t => t.warm).warmCanal).recap false 0).logState false old .starting).alert

/-! ### LKH_RESET (Table 16.6) -/

/-- The reset begins; a warm reset of a panel that is starting, or OFF, is none of Table 16.2. -/
def State.resetBegin (s : State) : State :=
  let s0 : State := { s with lkh := { s.lkh with reset := { s.lkh.reset with waiting := false, since := s.now } } }
  let r := s0.lkh.reset
  match r.kind.toNat with
  | 1 => s0.warmReset
  | 2 => s0.reachResetAt (Fin.ofNat 24 r.target.toNat) r.clear
  | 3 =>
    let s1 := s0.tileResetAt r.pos r.clear
    match r.update, stackAt r.pos with
    | true, some m => s1.holdStack m
    | _, _ => s1
  | 4 => s0.coreResetAt r.pos
  | 5 => s0.modCore r.pos fun c => c.contextReset (ctxOf r.ctx)
  | 6 => s0.linkResetAt r.target.toNat
  | 7 => s0.houseResetAt r.house
  | _ => s0
/-- GO with the fields of the register. -/
def State.askReset (s : State) (kind : BitVec 4) (clear update : Bool) (ctx : BitVec 2) (target : BitVec 8) (o : Origin) (path : Path) : State :=
  if s.lkh.reset.busy || s.lkh.pstate == .off || (kind == 1 && s.lkh.pstate == .starting) then s
  else
    let r : ResetReg := { kind := kind, clear := clear, update := update, ctx := ctx, target := target, busy := true, status := .done, waiting := true
                          since := s.now, origin := o, path := path }
    let s1 : State := { s with lkh := { s.lkh with reset := r } }
    if s1.resetIllegal r then s1.resetDone .illegalDescriptor
    else if s1.resetMay r then s1.resetBegin
    else s1
def State.fwReset (s : State) (kind : BitVec 4) (clear update : Bool) (ctx : BitVec 2) (target : Nat) : State :=
  s.askReset kind clear update ctx (BitVec.ofNat 8 target) .firmware .internal

def execColdReset (t : Nat) (s : State) : Out := .next (
  let s0 := s.at_ t
  (if s0.lkh.pstate = .off then s0 else s0.logState false s0.lkh.pstate .off).coldStart)
def execWarmReset (t : Nat) (s : State) : Out := .next ((s.at_ t).fwReset 1 false false 0 0)
def execReachReset (r : ReachN) (clear : Bool) (t : Nat) (s : State) : Out := .next ((s.at_ t).fwReset 2 clear false 0 r.val)
def execTileReset (p : Pos) (clear update : Bool) (t : Nat) (s : State) : Out := .next ((s.at_ t).fwReset 3 clear update 0 p.val)
def execCoreReset (p : Pos) (update : Bool) (t : Nat) (s : State) : Out := .next ((s.at_ t).fwReset 4 false update 0 p.val)
def execContextReset (p : Pos) (c : Ctx) (t : Nat) (s : State) : Out :=
  .next ((s.at_ t).fwReset 5 false false (BitVec.ofNat 2 (ctxNum c).val) p.val)
def execLinkReset (port : BitVec 8) (t : Nat) (s : State) : Out := .next ((s.at_ t).fwReset 6 false false 0 port.toNat)
def execLockHouseReset (h : House) (update : Bool) (t : Nat) (s : State) : Out := .next ((s.at_ t).fwReset 7 false update 0 h.val)

/-- The lock-house that a step of the update resets: LH-N, LH-S, LH-C (R459, step 2). -/
def updateHouse (n : Nat) : Option House :=
  match n with | 1 => some 0 | 2 => some 2 | 3 => some 1 | _ => none
/-- Firmware asks for the reset that the update is at, once no other reset is under way. Beyond the rules' words: log entry 74 (DEDUCED). -/
def State.updateNext (s : State) : State :=
  if !s.sec.updating || s.lkh.reset.busy then s
  else match updateHouse s.sec.updateStep with
    | some h => s.fwReset 7 false true 0 h.val
    | none => s.updateEnd
/-- A lock-house serves again on the new package: the next step follows. -/
def State.updateStepDone (s : State) (h : House) : State :=
  if s.sec.updating && updateHouse s.sec.updateStep == some h then { s with sec := { s.sec with updateStep := s.sec.updateStep + 1 } } else s
def execResetPreconditionMet (t : Nat) (s : State) : Out := .next (
  let s0 := s.at_ t
  let r := s0.lkh.reset
  if r.busy && r.waiting && s0.resetMay r then s0.resetBegin else s0)
/-- 100 ms of GO. -/
def execResetWaitTimeout (t : Nat) (s : State) : Out := .next (
  let s0 := s.at_ t
  let r := s0.lkh.reset
  if r.busy && r.waiting && decide (r.since + 100000000 ≤ t) then (s0.resetDone .admissionTimeout).updateNext else s0)

/-! ### The return to service -/

def State.tileBack (s : State) (p : Pos) : State := s.modFlags p fun f => { f with inTileReset := false, inCoreReset := false }
def State.stackBack (s : State) (m : StackN) : State := s.modStack m fun k => { k with selfRefresh := s.lkh.pstate == .standby, initing := false }
/-- A lock-house serves again; with UPDATE it runs its other image, where that passes R455, else the former one, and the update stops
(R460). Beyond the rules' words: log entries 68 (DEDUCED) and 74 (DEDUCED). -/
def State.houseBack (s : State) (h : House) (update : Bool) : State :=
  let other : Fin 2 := if s.sec.slots.getLsbD h.val then 0 else 1
  let takes := update && (match s.sec.pkgs[other] with | some g => s.pkgOk g | none => false)
  let s1 : State := { s with
    sec := { s.sec with slots := if takes then s.sec.slots ^^^ houseBit h else s.sec.slots }
    lkh := { s.lkh with serving := s.lkh.serving ||| houseBit h } }
  let s2 : State := match takes, s1.pkgOf h with
    | true, some g => if h = 1 then { s1 with sec := { s1.sec with pkgVersion := g.pkgVersion } } else s1
    | _, _ => s1
  let s3 := s2.measureBoot h
  if !update then s3
  else if takes then s3.logRec 0x61 .firmware [1, s3.sec.pkgVersion.toNat, h.val]
  else { s3 with sec := { s3.sec with updating := false, updateStep := 0 } }.logRec 0x61 .firmware [5, s3.sec.pkgVersion.toNat, h.val]
/-- The units named by the register return to service, and BUSY falls. A warm reset ends with stage 0x0A.
Beyond the rules' words: log entry 68 (DEDUCED). -/
def State.resetReturn (s : State) : State :=
  let r := s.lkh.reset
  let s1 : State :=
    match r.kind.toNat with
    | 2 =>
      let k : ReachN := Fin.ofNat 24 r.target.toNat
      ((reachTiles k).foldl (fun (s : State) p => s.tileBack p) s).stackBack k
    | 3 =>
      let a := s.tileBack r.pos
      if !r.update then a
      else match stackAt r.pos with
        | some m => ((a.stackBack m).unitUpdated 3 r.pos.val).unitUpdated 4 m.val
        | none => a.unitUpdated 3 r.pos.val
    | 4 =>
      let a := s.tileBack r.pos
      if !r.update then a
      else match (a.unitUpdated 2 r.pos.val).ltAt r.pos with
        | some l => (a.unitUpdated 2 r.pos.val).soundNext l
        | none => a.unitUpdated 2 r.pos.val
    | 7 => if r.update then (s.houseBack r.house true).updateStepDone r.house else s.houseBack r.house false
    | _ => s
  (s1.resetDone .done).updateNext
def execResetReturnToService (t : Nat) (s : State) : Out := .next (
  let s0 := s.at_ t
  let r := s0.lkh.reset
  if r.busy && !r.waiting && r.kind != 1 then s0.resetReturn else s0)

/-! ### STANDBY (R443) -/

def State.enterStandby (s : State) : State :=
  let s1 := (List.finRange 24).foldl (fun (s : State) k => s.flushReach k false) s
  let s2 := (allPos.filter fun p => (s1.ltAt p).isSome && ((s1.ut p).pwr.state == 0 || (s1.ut p).pwr.state == 1)).foldl (fun (s : State) p =>
    (s.modCore p Core.retain).modPwr p fun k => { k with req := 2, state := 2, vcore := false, pending := false }) s1
  let s3 := ({ s2 with hbm := s2.hbm.map fun (k : Stack) => if k.present && !k.lost then { k with selfRefresh := true } else k } : State).askSteps 5 5
  (({ s3 with lkh := { s3.lkh with pstate := .standby, pending := false } } : State).logState false .active .standby).alert
def State.canStandby (s : State) : Bool := s.intake.steps.isEmpty && s.repair.sounding.isEmpty && s.repair.subst.isEmpty
def State.askStandby (s : State) : State :=
  if s.lkh.pstate ≠ .active then s
  else
    let s1 : State := { s with lkh := { s.lkh with req := true, pending := true } }
    if s1.canStandby then s1.enterStandby else s1
def execStandbyRequest (t : Nat) (s : State) : Out := .next ((s.at_ t).askStandby)
def execStandbyEntry (t : Nat) (s : State) : Out := .next (
  let s0 := s.at_ t
  if s0.lkh.pstate == .active && s0.lkh.req && s0.canStandby then s0.enterStandby else s0)
def State.askActive (s : State) : State :=
  if s.lkh.pstate = .standby then
    let s1 : State := { s with
      hbm := s.hbm.map fun (k : Stack) => if k.initing then k else { k with selfRefresh := false }
      lkh := { s.lkh with pstate := .active, req := false, pending := false } }
    let s2 := (allPos.filter fun p => (s1.ltAt p).isSome && (s1.ut p).pwr.state == 2).foldl (fun (s : State) p => s.powerReq p 1) s1
    (s2.logState false .standby .active).alert
  else if s.lkh.pstate = .active then { s with lkh := { s.lkh with req := false, pending := false } }
  else s
def execActiveRequest (t : Nat) (s : State) : Out := .next ((s.at_ t).askActive)

end Sys2Proof.Machine
end

