-- ==== Sys2Proof/Machine/Regs.lean ====
section
/-! DEFINITION. Register access: reads at their destination (RD_REQ), firmware's accesses over the towpath (TOW), and writes by access
code (R8) with the ranges and effects of each register's table; the authority of Table 17.8 and the sealed fields of R488. -/

namespace Sys2Proof.Machine

open Sys2Proof

/-! ### Fields -/

/-- A field of a written word. -/
def fbv (v : Word) (lo w : Nat) : BitVec w := v.extractLsb' lo w
/-- The new value where it lies in the range, else the old one. -/
def inRange {w : Nat} (lo hi : Nat) (new old : BitVec w) : BitVec w := if lo ≤ new.toNat ∧ new.toNat ≤ hi then new else old
/-- W1C of a flag by bit i. -/
def w1c (v : Word) (i : Nat) (b : Bool) : Bool := b && !bit v i

/-! ### Registers of a compute die -/

/-- COR_FAULT and COR_MOVE_STAT. -/
def Core.writeCor (c : Core) (o : Nat) (v : Word) : Core :=
  match o with
  | 0x10 => { c with ctl := { c.ctl with fault := { c.ctl.fault with valid := w1c v 11 c.ctl.fault.valid } } }
  | 0x18 => { c with mov := { c.mov with lastValid := w1c v 22 c.mov.lastValid } }
  | _ => c
/-- MAT_CHK_STAT, MAT_KEEPER_CFG; MAT_CHK_CFG before the block is sealed. Beyond the rules' words: log entries 70 (DEDUCED) and 71 (DEDUCED). -/
def Matrix.writeReg (m : Matrix) (o : Nat) (v : Word) : Matrix :=
  match o with
  | 0x00 => { m with margin := fbv v 0 3 }
  | 0x08 => { m with lastValid := w1c v 25 m.lastValid }
  | 0x10 => { m with keeper := { m.keeper with thresh := fbv v 0 12, level := inRange 0 2 (fbv v 12 2) m.keeper.level } }
  | _ => m
def Scratch.writeReg (d : Scratch) (o : Nat) (v : Word) : Scratch :=
  match o with
  | 0x40 => { d with lastValid := w1c v 48 d.lastValid }
  | 0x50 => { d with scrubEn := bit v 0 }
  | _ => d

/-! ### Registers of an under-tile -/

/-- The plain registers of Table 9.7. -/
def Mesh.writeReg (m : Mesh) (o : Nat) (v : Word) : Mesh :=
  match o with
  | 0x08 =>
    let n : BitVec 11 := fbv v 0 11
    { m with wmax := if n.toNat % 8 = 0 then inRange 8 1024 n m.wmax else m.wmax, stepF := inRange 1 31 (fbv v 11 5) m.stepF }
  | 0x10 => { m with thresh := inRange 1 63 (fbv v 0 6) m.thresh }
  | 0x18 => if (List.range 5).all fun i => fld v (8 * i) 8 != 0 then { m with weights := fbv v 0 40 } else m
  | 0x20 => { m with tmrUs := inRange 2 2000 (fbv v 0 11) m.tmrUs }
  | 0x28 => { m with hold := fbv v 0 8, combEn := bit v 8 }
  | 0x38 => { m with badWrite := w1c v 62 m.badWrite }
  | _ => m
/-- MSH_ block: tables, seam maps, plain registers. The profile holds from stage 0x05 to the next cold or warm reset (R248). -/
def State.writeMesh (s : State) (p : Pos) (o : Nat) (v : Word) : State :=
  if o = 0 then if s.lkh.pstate = .starting then s.modMesh p fun m => { m with profile := bit v 0 } else s
  else if o < 0x40 then s.modMesh p fun m => m.writeReg o v
  else if 0x1000 ≤ o ∧ o < 0x1800 then s.tableWrite p false (decide (o ≥ 0x1400)) (o % 0x400 / 8) v
  else if 0x2000 ≤ o ∧ o < 0x3000 ∧ o % 0x800 / 8 < 149 then s.tableWrite p true (decide (o ≥ 0x2800)) (o % 0x800 / 8) v
  else if 0x3000 ≤ o ∧ o < 0x3020 then s.seamWrite p (Fin.ofNat 4 (o % 0x20 / 8)) (fbv v 0 13)
  else s
/-- Tables 12.10 and 12.11. -/
def State.writePwr (s : State) (p : Pos) (o : Nat) (v : Word) : State :=
  match o with
  | 0x00 => s.modPwr p fun k => { k with targetMv := inRange 550 850 (fbv v 0 10) k.targetMv, boostMv := inRange 0 30 (fbv v 16 5) k.boostMv }
  | 0x08 => (s.modPwr p fun k => { k with refused := w1c v 5 k.refused }).powerReq p (fbv v 0 2)
  | _ => s
/-- AXL_CFG: the plain fields, then EN, then LOOP. Whether the peer enters modes 3 and 4 is the peer's (free). -/
def State.writeAxlCfg (s : State) (x : PortN) (v : Word) : State :=
  let q := s.port x
  let s1 := s.modPort x fun q => { q with genMax := bit v 1, peerRead := bit v 2, meetUs := inRange 20 20000 (fbv v 4 15) q.meetUs }
  let s2 := if bit v 0 then s1.axlEnable x else if q.en then s1.axlDisable x else s1
  let l : BitVec 3 := fbv v 19 3
  if l = 0 then s2.axlLoop x 0 false else if l = q.loop_ then s2 else s2.freeWord.2.axlLoop x l (bit s2.freeWord.1 0)
/-- A word of a consignment entry (Table 10.6); STATUS and BUSY are the port engine's, and a running entry is not changed. -/
def Consign.writeWord (c : Consign) (n : Nat) (v : Word) : Consign :=
  if c.busy then c
  else match n with
    | 0 => { c with valid := bit v 0, dir := fbv v 1 2, linkAbort := bit v 3, combine := bit v 4, op := fbv v 5 2, channel := fbv v 8 8, trigger := fbv v 16 13 }
    | 1 => { c with loc := v }
    | 2 => { c with addend := v }
    | 3 => { c with length := fbv v 0 32, window := fbv v 32 8, gen := fbv v 40 16 }
    | 4 => { c with doneCh := v }
    | _ => c
def State.writeAxl (s : State) (p : Pos) (o : Nat) (v : Word) : State :=
  match portAt p with
  | none => s
  | some x =>
    if o = 0 then s.writeAxlCfg x v
    else if o = 8 then s.modPort x fun q => { q with los := w1c v 11 q.los, loopRefused := w1c v 13 q.loopRefused }
    else if 0x8000 ≤ o ∧ o < 0xC000 then
      s.modPort x fun q => { q with cons := vmod q.cons (Fin.ofNat 256 (o % 0x8000 / 64)) fun c => c.writeWord (o % 64 / 8) v }
    else s
def State.writeHbm (s : State) (p : Pos) (o : Nat) (v : Word) : State :=
  match stackAt p with
  | none => s
  | some m => if o = 0 then s.modStack m fun k => { k with wC2 := inRange 1 255 (fbv v 0 8) k.wC2, wC3 := inRange 1 255 (fbv v 8 8) k.wC3 } else s

/-! ### Sealed fields (R488) -/

/-- Who writes carries the authority of Table 17.8: everyone but firmware of its own accord. -/
def pathOutside : Path → Bool
  | .internal => false | .towpath => false | _ => true
/-- A write to a sealed field: the stored value is replaced and the write recorded. -/
def State.storeSealed (s : State) (o : Origin) (path : Path) (addr old new : Nat) (f : State → State) : State :=
  if pathOutside path then f (s.logReg o path addr old new) else s

/-! ### Tile space -/

/-- A write to a register of a position. -/
def State.writeTile (s : State) (p : Pos) (off : Nat) (v : Word) (org : Origin) (path : Path) : State :=
  let o := off % 0x10000 / 8 * 8
  match off / 0x10000 with
  | 0x00 =>
    match s.ltAt p with
    | some l => if o = 0 then { s with ltpos := vmod s.ltpos l fun x => { x with residentLost := w1c v 24 x.residentLost } } else s
    | none => s
  | 0x01 => s.modCore p fun c => c.writeCor o v
  | 0x02 =>
    if o = 0 && s.lkh.sealed then
      s.storeSealed org path (regTile p off) (s.core p).mat.marginStored.toNat (fld v 0 3) fun s => s.modMat p fun m => { m with marginStored := fbv v 0 3 }
    else s.modMat p fun m => m.writeReg o v
  | 0x04 => s.modSpd p fun d => d.writeReg o v
  | 0x05 =>
    if o = 0 then
      let s1 := s.ringPart p (fbv v 0 4)
      if bit v 8 then s1.flushStart p else s1
    else if o = 0x10 then s.modStg p fun g => { g with eccValid := w1c v 63 g.eccValid }
    else s
  | 0x06 => s.writeMesh p o v
  | 0x09 => s.writePwr p o v
  | 0x0A => if o = 0 then s.modClk p fun c => { c with wdog := w1c v 9 c.wdog, lockLost := w1c v 10 c.lockLost } else s
  | 0x0B => if o = 0x30 then s.modUt p fun u => { u with thm := { u.thm with sensorSplit := w1c v 11 u.thm.sensorSplit } } else s
  | 0x0C =>
    if o = 0x10 then s.modUt p fun u => { u with time := { u.time with beaconMiss := w1c v 1 u.time.beaconMiss, refLoss := w1c v 2 u.time.refLoss } } else s
  | 0x0D => s.writeHbm p o v
  | 0x0E => if o = 8 then s.modCht p fun c => { c with faultValid := w1c v 63 c.faultValid } else s
  | 0x0F => s.writeAxl p o v
  | _ => s

/-! ### Canal space -/

/-- LKH_RESET: the fields, then GO; while BUSY the register keeps the reset that runs (log entry 21). -/
def State.writeReset (s : State) (v : Word) (org : Origin) (path : Path) : State :=
  if s.lkh.reset.busy then s
  else
    let s1 : State := { s with lkh := { s.lkh with reset := { s.lkh.reset with
      kind := fbv v 0 4, clear := bit v 4, update := bit v 5, ctx := fbv v 6 2, target := fbv v 8 8 } } }
    if bit v 16 then s1.askReset (fbv v 0 4) (bit v 4) (bit v 5) (fbv v 6 2) (fbv v 8 8) org path else s1
/-- LKH_PSTATE: WAKE, and REQ where it names ACTIVE or STANDBY. -/
def State.writePstate (s : State) (v : Word) : State :=
  let s1 : State := { s with lkh := { s.lkh with wake := bit v 4 } }
  match fld v 2 2 with
  | 0 => s1.askActive
  | 1 => s1.askStandby
  | _ => s1
def State.writeLkh (s : State) (o : Nat) (v : Word) (org : Origin) (path : Path) : State :=
  match o with
  | 0x18 => if bit v 0 then s.mapAck org path else s
  | 0x70 => s.writeReset v org path
  | 0x78 => s.writePstate v
  | _ => s
/-- TIM_PTP: leaving the ordinary clock ends the slave state and the 1588 source. -/
def State.writePtp (s : State) (v : Word) : State :=
  let s1 := s.modTsrc fun c => { c with
    ptpMode := inRange 0 2 (fbv v 0 2) c.ptpMode, ptpDomain := inRange 0 127 (fbv v 2 8) c.ptpDomain, ptpPrio1 := fbv v 10 8
    ptpPrio2 := fbv v 18 8, ptpTsrc := fbv v 26 8, ptpUtc := fbv v 34 16 }
  if s1.tsrc.ptpMode = 1 then s1
  else
    let s2 := s1.modTsrc fun c => { c with ptpSlave := false }
    if s2.tsrc.qual.getLsbD 1 then s2.disqualify 1 else s2
def State.writeTim (s : State) (o : Nat) (v : Word) (org : Origin) (path : Path) : State :=
  match o with
  | 0x00 => s.poundLen (fbv v 16 15)
  | 0x18 => (s.modTsrc fun c => { c with setRefused := w1c v 3 c.setRefused, en := fbv v 8 3 }).nextSource
  | 0x28 => s.timSetWrite v.toNat org path
  | 0x30 => s.modTsrc fun c => { c with
      ppsEn := bit v 0, ppsQual := bit v 1, ppsWidth := inRange 1 250 (fbv v 8 8) c.ppsWidth, ppsInDelay := fbv v 16 16 }
  | 0x38 => s.writePtp v
  | _ => s
/-- PWR_CAP: a change of USER_W makes a CAP record, and EFFECTIVE_W follows. -/
def State.writeCap (s : State) (v : Word) (org : Origin) (path : Path) : State :=
  let old := s.power.userW
  let new := inRange 2000 15000 (fbv v 0 16) old
  let s1 : State := { s with power := { s.power with userW := new, baseW := fbv v 32 16 } }
  if new = old then s1 else (s1.logPath 0x50 org path [old.toNat, new.toNat, 0]).recap false 0
def State.writePower (s : State) (o : Nat) (v : Word) (org : Origin) (path : Path) : State :=
  if o = 0 then s.writeCap v org path
  else if 0x100 ≤ o ∧ o < 0x280 ∧ o % 16 = 0 then
    s.modReach (Fin.ofNat 24 ((o - 0x100) / 16)) fun r => { r with
      limitA := inRange 40 100 (fbv v 0 8) r.limitA, inrushV := inRange 1 40 (fbv v 8 8) r.inrushV, inrushO := inRange 1 20 (fbv v 16 8) r.inrushO }
  else s
/-- CLK_STEP and CLK_MSWc. A reserved step code is ignored and stays in ERR. -/
def State.writeClk (s : State) (o : Nat) (v : Word) : State :=
  if o = 0 then
    let s1 := ((s.setLinkBit (bit v 10)).reqStep .west (fbv v 0 3)).reqStep .east (fbv v 4 3)
    if fld v 0 3 > 5 then s1.modStepReg fun c => { c with err := .illegalDescriptor } else s1
  else if 0x10 ≤ o ∧ o < 0x30 then s.mswWrite (Fin.ofNat 4 ((o - 0x10) / 8)) (bit v 0)
  else s
def State.writeTherm (s : State) (o : Nat) (v : Word) : State :=
  match o with
  | 0x08 => s.modTherm fun t => { t with tjPlan := inRange 80 92 (fbv v 48 7) t.tjPlan }
  | 0x10 => s.modTherm fun t => { t with tauMs := inRange 100 60000 (fbv v 0 16) t.tauMs }
  | _ => s
/-- BASE and SIZE_LOG2 change only while EN is 0. -/
def RingReg.write (r : RingReg) (v : Word) : RingReg :=
  if r.en then { r with en := bit v 52 } else { base := fbv v 12 36, sizeLog2 := inRange 4 12 (fbv v 48 4) r.sizeLog2, en := bit v 52 }
/-- The companion link is powered and stage 0x09 has enabled it (Table 16.5). -/
def State.kclLive (s : State) : Bool := s.lkh.pstate != .off && (s.lkh.pstate != .starting || decide (9 < s.lkh.stageNext)) && !s.power.lost.contains .kcl
/-- KCL_PORTn_CFG; whether the companion consents to modes 3 and 4 is its own (free). -/
def State.writeKclCfg (s : State) (k : KPort) (v : Word) : State :=
  let q := s.kport k
  let s1 := s.modKport k fun q => { q with genMax := inRange 1 3 (fbv v 1 2) q.genMax, en := bit v 0 }
  let s2 := if bit v 0 = q.en then s1 else if bit v 0 then s1.modKport k fun q => { q with state := if s.kclLive then 1 else 0 } else s1.kclLeave k 0
  let l : BitVec 3 := fbv v 3 3
  if l = q.loop_ then s2 else s2.freeWord.2.kclLoop k l (bit s2.freeWord.1 0)
/-- KCL_CWINn: the lines held in the old window are recalled first. -/
def State.writeCwin (s : State) (n : Fin 8) (v : Word) : State :=
  let w := s.intake.cwin[n]
  let s1 := s.modIntake fun i => { i with cwin := i.cwin.set n { w with pend := some v } }
  ((s1.intake.dir.filter fun e => w.has (e.1.toNat / 1024)).foldl (fun (s : State) e => s.snoop (e.1.toNat * 64)) s1).settleCwin
def State.writeKcl (s : State) (o : Nat) (v : Word) (org : Origin) (path : Path) : State :=
  let i := s.intake
  if o < 0x40 then
    let k : KPort := Fin.ofNat 2 (o / 0x20)
    match o % 0x20 with
    | 0x00 => s.writeKclCfg k v
    | 0x08 => s.modKport k fun q => { q with los := w1c v 10 q.los, loopRefused := w1c v 11 q.loopRefused }
    | _ => s
  else if 0x200 ≤ o ∧ o < 0x240 then s.writeCwin (Fin.ofNat 8 (o % 0x200 / 8)) v
  else match o with
    | 0x100 => s.modIntake fun i => { i with mring := i.mring.write v }
    | 0x108 => s.modIntake fun i => { i with cring := i.cring.write v }
    | 0x110 => s.modIntake fun i => { i with ffl := i.ffl.write v }
    | 0x120 =>
      if s.lkh.sealed then
        s.storeSealed org path (regCanal 0x050120) i.hwinStored.1.toNat v.toNat fun s => s.modIntake fun i => { i with hwinStored := (v, i.hwinStored.2) }
      else s.modIntake fun i => { i with hwinBase := v }
    | 0x128 =>
      if s.lkh.sealed then
        s.storeSealed org path (regCanal 0x050128) i.hwinStored.2.toNat (fld v 0 48) fun s => s.modIntake fun i => { i with hwinStored := (i.hwinStored.1, fbv v 0 48) }
      else s.modIntake fun i => { i with hwinLen := fbv v 0 48 }
    | 0x130 => s.modIntake fun i => { i with snoopUs := inRange 1 1000 (fbv v 0 10) i.snoopUs }
    | _ => s
def State.writeSec (s : State) (o : Nat) (v : Word) (org : Origin) (path : Path) : State :=
  let k := s.sec
  if 0x40 ≤ o ∧ o < 0x60 then
    let n := (o - 0x40) / 8
    { s with sec := { k with nonce := (k.nonce &&& ~~~((0xFFFFFFFFFFFFFFFF : BitVec 256) <<< (64 * n))) ||| (v.zeroExtend 256 <<< (64 * n)) } }
  else match o with
    | 0x10 =>
      if s.lkh.sealed then
        s.storeSealed org path (regCanal 0x070010) k.locksStored.toNat (fld v 0 3) fun s => { s with sec := { s.sec with locksStored := fbv v 0 3 } }
      else { s with sec := { k with i3cLock := bit v 0, pcieLock := bit v 1, jtagLock := bit v 2 } }
    | 0x18 => { s with sec := { k with certAddr := v } }
    | 0x20 => { s with sec := { k with certLen := fbv v 32 32, certBusy := k.certBusy || bit v 0 } }
    | 0x28 => { s with sec := { k with quoteBusy := k.quoteBusy || bit v 0 } }
    | _ => s
def State.writeLog (s : State) (o : Nat) (v : Word) : State :=
  let k := s.log
  match o with
  | 0x10 => { s with log := { k with sel := v, selBad := k.selBad || (k.entry v.toNat).isNone } }
  | 0x18 => if bit v 0 then s.ckptRequest s.now else s
  | 0x28 => { s with log := { k with lostUnread := w1c v 0 k.lostUnread, selBad := w1c v 1 k.selBad } }
  | 0x30 => s.exportWrite v
  | _ => s
def State.writeChart (s : State) (o : Nat) (v : Word) : State :=
  match o with
  | 0x00 => s.chartHome v
  | 0x08 => s.modChart fun c => { c with demand := bit v 0 }
  | 0x10 => if bit v 0 then s.countFlush else s
  | 0x18 => s.modChart fun c => { c with backBase := fbv v 12 36, backEn := bit v 48 }
  | _ => s
/-- MGT_PCIE_CFG.RUNTIME, at the place Config names: firmware changes it only while no step is admitted (R328). -/
def State.writeRuntime (s : State) (v : Word) : State :=
  if s.intake.steps.isEmpty then s.modIntake fun i => { i with pcieRuntime := bit v Config.mgtRuntimeBit.toNat } else s

/-- A write to a register of Canal space. -/
def State.writeCanal (s : State) (off : Nat) (v : Word) (org : Origin) (path : Path) : State :=
  let o := off % 0x10000 / 8 * 8
  match off / 0x10000 with
  | 0x00 => s.writeLkh o v org path
  | 0x01 => s.writeTim o v org path
  | 0x02 => s.writePower o v org path
  | 0x03 => s.writeClk o v
  | 0x04 => s.writeTherm o v
  | 0x05 => s.writeKcl o v org path
  | 0x06 => if isPcieCfg off then s.writeRuntime v else s
  | 0x07 => s.writeSec o v org path
  | 0x08 => s.writeLog o v
  | 0x0A => if o = 0 && bit v 1 then s.armEpoch else s
  | 0x0B => s.writeChart o v
  | _ => s

/-! ### Access -/

/-- The write is recorded where the register changes: every change made through a management port (11.8), and the registers whose tables
say so. Registers with a record of their own make no second one. -/
def pathLogsAll : Path → Bool
  | .i3c => true | .i2c => true | .ethernet => true | .pcie => true | .jtag => true | _ => false
def loggedCanal (o : Nat) : Bool := o == 0x010018 || o == 0x010038 || o / 0x10000 == 3 || decide (0x020100 ≤ o ∧ o < 0x020280)
/-- LKH_MAP, LKH_RESET and PWR_CAP: their changes make records of their own types. -/
def ownRecord (o : Nat) : Bool := o == 0x18 || o == 0x70 || o == 0x020000
def RegAt.addr : RegAt → Nat
  | .canal off => regCanal (off / 8 * 8) | .tile p off => regTile p (off / 8 * 8) | .none => 0
def State.writeRaw (s : State) (r : RegAt) (v : Word) (org : Origin) (path : Path) : State :=
  match r with
  | .canal off => s.writeCanal off v org path
  | .tile p off => s.writeTile p off v org path
  | .none => s
/-- The change of the register is to be recorded. Beyond the rules' words: log entry 72 (DEDUCED). -/
def RegAt.recorded (r : RegAt) (path : Path) : Bool :=
  match r with
  | .canal off => !ownRecord (off / 8 * 8) && (pathLogsAll path || loggedCanal (off / 8 * 8))
  | .tile _ _ => pathLogsAll path
  | .none => false
def State.writeReg (s : State) (r : RegAt) (v : Word) (org : Origin) (path : Path) : State :=
  let s1 := s.writeRaw r v org path
  if r.recorded path && s1.regWord r != s.regWord r then s1.logReg org path r.addr (s.regWord r).toNat (s1.regWord r).toNat else s1

/-- The status with which the panel turns a register access away before it reaches the register. -/
def State.regRefused (s : State) (a : Word) : Option Status :=
  if addrClass a ≠ 2 || s.addrBad a then some .illegalDescriptor
  else match s.regAt a with
    | .none => some .tileFenced
    | .canal _ => if s.houseResets 1 then some .tileReset else none
    | .tile p off =>
      let f := (s.ut p).flags
      let die := !addrPosn a && decide (1 ≤ off / 0x10000 ∧ off / 0x10000 ≤ 4)
      if die && f.fencedDie then some .tileFenced
      else if f.inTileReset then some .tileReset
      else if die && (f.inCoreReset || (s.ut p).pwr.state == 2 || (s.ut p).pwr.state == 3) then some .tileReset
      else none
/-- The tile of a register is lost with its reach and answers nothing. -/
def State.regSilent (s : State) : RegAt → Bool
  | .tile p _ => (s.ut p).flags.lost
  | _ => false
/-- Requests that need no authority: Logbook reads, quotes and checkpoint requests (Table 17.8).
Beyond the rules' words: log entry 72 (DEDUCED). -/
def RegAt.openWrite : RegAt → Bool
  | .canal off => let o := off / 8 * 8; o == 0x080010 || o == 0x080018 || o == 0x070028 || decide (0x070040 ≤ o ∧ o < 0x070060)
  | _ => false
/-- Table 17.8. Beyond the rules' words: log entry 72 (DEDUCED). -/
def State.mayWrite (s : State) (r : RegAt) (path : Path) (signed : Bool) : Bool :=
  r.openWrite || (match path with | .ethernet => signed | _ => signed || !s.pathLocked path)

def execRegisterWrite (addr : BitVec 64) (v : BitVec 64) (path : Path) (signed : Bool) (s : State) : Out :=
  let r := s.regAt addr
  if (s.regRefused addr).isSome || s.regSilent r || !s.mayWrite r path signed then .next s
  else .next (s.writeReg r v (originOf path) path)

/-! ### Read requests (R246) -/

/-- A register held in the compute die. -/
def dieReg (a : Word) : Bool := addrClass a == 2 && !addrPosn a && decide (1 ≤ addrReg a / 0x10000 ∧ addrReg a / 0x10000 ≤ 4)
/-- A scratchpad read through NI (R176, R179): the data leave once the port has read them. -/
def State.niRead (s : State) (p : Pos) (q : Packet) (cc : Nat) : State :=
  let a := addrOff q.addr
  let n := q.total
  let x := s.engine p 7 cc [(a, n)]
  let d := (x.1.core p).spd
  let s2 := x.1.modSpd p fun d => d.meet 7 a n
  if (d.badIn a n).isEmpty then s2.replyFrom p q x.2 .done (memRead d.mem a n) else s2.replyFrom p q x.2 .memoryUncorrectable []
/-- What a read request that has reached position p reads: the register it names. -/
def Packet.regRead (q : Packet) (p : Pos) : RegAt := .tile p (addrReg q.addr)
def State.serveRead (s : State) (p : Pos) (q : Packet) (cc : Nat) : State :=
  if s.addrBad q.addr || !(addrClass q.addr == 0 || addrClass q.addr == 2) then s.reply p q .illegalDescriptor []
  else match s.notServed p q (addrClass q.addr == 2 && !dieReg q.addr) with
    | some st => s.reply p q st []
    | none =>
      if addrClass q.addr = 0 then (if (s.core p).spd.zeroing then s else s.niRead p q cc)
      else
        let r := q.regRead p
        (s.latchFrac r).reply p q .done (natBytes (s.regWord r).toNat 8)
/-- A register read at a Canal die. -/
def State.serveCanalRead (s : State) (d : Fin 5) (q : Packet) : State :=
  if s.houseResets d.val then s.replyCanal d q .tileReset []
  else if s.addrBad q.addr || addrClass q.addr ≠ 2 then s.replyCanal d q .illegalDescriptor []
  else
    let r : RegAt := .canal (addrReg q.addr)
    (s.latchFrac r).replyCanal d q .done (natBytes (s.regWord r).toNat 8)
def execRdReq (id : Nat) (cc : Nat) (s : State) : Out := .next (
  match s.packet id with
  | none => s
  | some q => match q.place with
    | .canal d => if q.type ≠ 1 ∨ q.taken then s else if s.dieOff d then s.dropPacket id else s.serveCanalRead d q
    | _ => arrive 1 id cc (fun p q s => s.serveRead p q cc) s)

/-! ### The towpath (R246, R213) -/

/-- A TOW_ANS packet from where the access was served. -/
def State.towAnswer (s : State) (r : RegAt) (st : Status) (data : List Byte) : State :=
  match r with
  | .tile p _ => s.emit { s.fromTile p 0xC 0 with
      skind := 1, src := BitVec.ofNat 8 p.val, stepNo := 0, attempt := 0, dkind := 2, dest := 1, status := st, payload := data
      length := BitVec.ofNat 13 data.length }
  | _ => s.emit { Packet.blank 0 (.canal 1) 0xC with
      epoch := s.epoch.cur, skind := 2, src := 1, dkind := 2, dest := 1, status := st, payload := data, length := BitVec.ofNat 13 data.length }
/-- The position to which a tap's LT map in force leads an access that names a tile LT (R269, R259). -/
def State.towPos (s : State) (a : Word) : Option Pos :=
  if addrClass a ≠ 2 || s.addrBad a || addrPosn a || addrLt a ≥ 120 then none
  else s.tapAt.bind fun x =>
    let e := ltMapAt (s.ut x).mesh (s.ut x).mesh.epoch (addrLt a)
    if !e.present then none
    else
      let y : Pos := Fin.ofNat 144 e.pos.toNat
      some (if e.spareLink then spareBeside y else y)
/-- The access reaches a position that does not carry the LT (R489). -/
def State.towAstray (s : State) (a : Word) : Option Pos :=
  (s.towPos a).bind fun y => if (s.ltAt y).map (fun l => l.val) = some (addrLt a) then none else some y
/-- The access at the register that it names. -/
def State.towServe (s : State) (addr : Word) (data : Option Word) : State :=
  let r := s.regAt addr
  if s.regSilent r then s
  else match s.regRefused addr with
    | some st => s.towAnswer r st []
    | none => match data with
      | some v => (s.writeReg r v .firmware .internal).towAnswer r .done []
      | none => (s.latchFrac r).towAnswer r .done (natBytes (s.regWord r).toNat 8)
/-- Firmware reads (no data) or writes a register. The command is the access at its arrival; its answer is a packet (log entry 96). -/
def execTow (addr : BitVec 64) (data : Option (BitVec 64)) (t : Nat) (s : State) : Out := .next (
  let s0 := s.at_ t
  match s0.towAstray addr with
  | some y => if (s0.ut y).flags.lost then s0 else s0.towAnswer (.tile y 0) .tileFenced []
  | none => s0.towServe addr data)

/-- The answer reaches the lock-house that asked. -/
def execTowAns (id : Nat) (s : State) : Out := .next (
  match s.packet id with
  | some q => (match q.place with | .canal _ => if q.type = 0xC then s.dropPacket id else s | _ => s)
  | none => s)

end Sys2Proof.Machine
end

