-- ==== Sys2Proof/Machine/Security.lean ====
section
/-! DEFINITION. Security (17.3 to 17.5): the firmware update (R459, R460), quotes (R461), signed management requests (R462), quorum
certificates (R463 to R466) and their actions (R305, R435, R457, Table 17.10). -/

namespace Sys2Proof.Machine

open Sys2Proof

/-! ### Firmware update (R459) -/

/-- The slot that no serving lock-house runs. -/
def State.idleSlot (s : State) : Option (Fin 2) :=
  let used (b : Fin 2) : Bool := s.houses.any fun h => s.slotOf h == b
  if !used 0 then some 0 else if !used 1 then some 1 else none
/-- A unit in service runs a component of a package older than COMPAT_FROM. -/
def State.unitTooOld (s : State) (g : PackageIn) : Bool := s.sec.unitPkg.any fun e => !unitOut s (pkgUnit e.1) && decide (e.2.toNat < g.compatFrom.toNat)
/-- FIRMWARE record of an update that is refused or has ended. Beyond the rules' words: log entry 74 (DEDUCED). -/
def State.logUpdate (s : State) (g : PackageIn) (st : Status) : State := s.logRec 0x61 .firmware [5, g.pkgVersion.toNat, statusCode st]

def execFirmwareUpdate (pkg : PackageIn) (t : Nat) (s : State) : Out := .next (
  let s0 := s.at_ t
  if s0.sec.updating then s0.logUpdate pkg .illegalDescriptor
  else match s0.idleSlot with
    | none => s0.logUpdate pkg .illegalDescriptor
    | some b =>
      let s1 := ({ s0 with sec := { s0.sec with pkgs := s0.sec.pkgs.set b (some pkg) } } : State).logRec 0x61 .firmware [0, pkg.pkgVersion.toNat, b.val]
      if !s1.pkgOk pkg || s1.unitTooOld pkg then s1.logUpdate pkg .illegalDescriptor
      else
        let s2 : State := { s1 with
          sec := { s1.sec with updating := true, updateStep := 1 }, lkh := { s1.lkh with refBroken := true } }
        s2.updateNext)

/-! ### Quotes (R461) -/

/-- PKG_VERSION of the package a lock-house runs; 0 where it does not serve. -/
def State.housePkg (s : State) (h : House) : BitVec 32 :=
  if !s.lkh.serving.getLsbD h.val then 0 else match s.pkgOf h with | some g => g.pkgVersion | none => s.sec.pkgVersion
/-- The bytes 0x000 to 0x18F of Table 17.7. -/
def State.quoteBytes (s : State) (h : House) : List Byte :=
  natBytes 0x51544501 4 ++ natBytes 1 2 ++ natBytes h.val 1 ++ [0] ++ natBytes s.now 8 ++ natBytes s.sec.nonce.toNat 32 ++ digestBytes identityDigest ++
    natBytes s.lkh.desc.toNat 8 ++ ((List.finRange 3).flatMap fun k => natBytes (s.housePkg k).toNat 4) ++ natBytes s.tsrc.cur.toNat 1 ++ [0, 0, 0] ++
    natBytes s.log.head.index 8 ++ digestBytes (digest s.log.head.bytes) ++ s.sec.meas[h].toList.flatMap digestBytes
/-- A serving lock-house signs the quote. -/
def execSecQuoteRequest (h : House) (t : Nat) (s : State) : Out := .next (
  let s0 := s.at_ t
  if !s0.lkh.serving.getLsbD h.val then s0
  else
    let b := s0.quoteBytes h
    { s0 with sec := { s0.sec with quote := b ++ Config.sign "OVP-QUOTE" b, quoteBusy := false } })

/-! ### Signed management requests (R462) -/

/-- The four refusals of R462 do not hold. The table of counters holds the last accepted counter plus 1.
Beyond the rules' words: log entry 75 (DEDUCED). -/
def State.mgmtOk (s : State) (q : MgmtReq) : Bool :=
  match s.sec.mgrKeys[q.key.toNat]? with
  | none => false
  | some pk =>
    decide (q.key.toNat < s.sec.mgrN) && decide (tblGet 0 s.sec.lastCtr q.key.toNat ≤ q.counter.toNat) &&
      decide (q.signedAt ≤ s.now + 5000000000) && decide (s.now ≤ q.signedAt + 5000000000) && decide (q.signature.length = 3309) && Config.verify pk "OVP-MGMT" q.bytes q.signature
/-- The write of an accepted request, recorded with its key. -/
def State.mgmtWrite (s : State) (q : MgmtReq) : State :=
  let s1 : State := { s with sec := { s.sec with lastCtr := tblPut 0 s.sec.lastCtr q.key.toNat (q.counter.toNat + 1) } }
  if (s1.regRefused q.addr).isSome || s1.regSilent (s1.regAt q.addr) then s1
  else
    let s2 := ({ s1 with log := { s1.log with reqKey := q.key } } : State).writeReg (s1.regAt q.addr) q.value .ethPeer .ethernet
    { s2 with log := { s2.log with reqKey := 0xFF } }
def execManagementRequest (q : MgmtReq) (t : Nat) (s : State) : Out :=
  let s0 := s.at_ t
  if !s0.mgmtOk q then .next s0
  else .next (s0.mgmtWrite q)

/-! ### Certificates (R463, R464) -/

/-- A parsed certificate. -/
structure Cert where
  action : Nat
  count : Nat
  seq : Nat
  notAfter : Nat
  setGen : BitVec 32
  subject : BitVec 256
  payload : List Byte
  signed : List Byte                        -- header and payload
  signers : List (Nat × List Byte)          -- key index and signature
  whole : List Byte
  deriving DecidableEq, Repr

def bytesAt (bs : List Byte) (a n : Nat) : List Byte := (bs.drop a).take n
def zeros (bs : List Byte) : Bool := bs.all fun b => b == 0
/-- 256 bits from 32 bytes. -/
def digestOf (bs : List Byte) : BitVec 256 := BitVec.ofNat 256 (bytesNat (bs.take 32))
/-- PAYLOAD_LEN of Table 17.10 and the values of its payload. -/
def payloadOk (action : Nat) (setGen : BitVec 32) (p : List Byte) : Bool :=
  let w := wordOf p 0
  match action with
  | 4 =>
    let n := fld w 32 8
    decide (8 ≤ p.length) && decide (1 ≤ n ∧ n ≤ 16) && decide (1 ≤ fld w 40 8 ∧ fld w 40 8 ≤ n) && fld w 48 16 == 0 &&
      fbv w 0 32 == setGen + 1 && decide (p.length = 8 + 1952 * n)
  | 5 => decide (p.length = 8) && decide (1 ≤ fld w 0 8 ∧ fld w 0 8 ≤ 6) && fld w 16 48 == 0
  | 6 => decide (p.length = 8) && decide (fld w 0 8 < 4) && fld w 8 56 == 0
  | _ => p.isEmpty
/-- The signer records: key index, zero bytes, signature. -/
def signersOf (bs : List Byte) : Nat → Option (List (Nat × List Byte))
  | 0 => some []
  | n + 1 =>
    if zeros (bytesAt bs 1 7) && zeros (bytesAt bs 3317 3) then
      (signersOf (bs.drop 3320) n).map fun l => ((bs.headD 0).toNat, bytesAt bs 8 3309) :: l
    else none
/-- Check 1 of R464. Beyond the rules' words: log entry 75 (DEDUCED). -/
def certParse (bs : List Byte) : Option Cert :=
  let w (i : Nat) := wordOf bs i
  let act := fld (w 0) 40 8
  let cnt := fld (w 0) 48 8
  let len := fld (w 3) 32 32
  let gen : BitVec 32 := fbv (w 3) 0 32
  let p := bytesAt bs 128 len
  if bs.length < 128 || fld (w 0) 0 32 ≠ 0x51435201 || fld (w 0) 32 8 ≠ 1 || act < 1 || 6 < act || cnt < 1 || 16 < cnt || fld (w 0) 56 8 ≠ 0 ||
      !zeros (bytesAt bs 64 64) || bs.length ≠ 128 + len + 3320 * cnt || !payloadOk act gen p then none
  else (signersOf (bs.drop (128 + len)) cnt).map fun l =>
    { action := act, count := cnt, seq := (w 1).toNat, notAfter := (w 2).toNat, setGen := gen, subject := digestOf (bytesAt bs 32 32), payload := p
      signed := bs.take (128 + len), signers := l, whole := bs }

/-- OWNER_PK of the package that LH-C runs. -/
def State.ownerPk (s : State) : List Byte := match s.pkgOf 1 with | some g => g.ownerPk | none => Config.bootOwnerPk (s.slotOf 1).val
/-- Check 5: distinct indices below n, and at least k signatures verify; with an empty set the owner's key signs (R466). -/
def State.signersOk (s : State) (c : Cert) : Bool :=
  if s.sec.mgrN = 0 then
    c.action == 4 && (match c.signers with | [x] => x.1 == 0xFF && Config.verify s.ownerPk "OVP-CERT" c.signed x.2 | _ => false)
  else
    (c.signers.map fun x => x.1).Nodup && (c.signers.all fun x => decide (x.1 < s.sec.mgrN)) &&
      decide (s.sec.mgrK ≤ (c.signers.filter fun x => Config.verify (s.sec.mgrKeys.getD x.1 []) "OVP-CERT" c.signed x.2).length)
/-- The owner slot that the package in a flash slot names, and its security version of a class. -/
def State.flashOwner (s : State) (b : Fin 2) : Nat := match s.sec.pkgs[b] with | some g => g.ownerSlot.toNat | none => Config.bootOwnerSlot b.val
def State.flashSvn (s : State) (b : Fin 2) (cls : Nat) : Nat :=
  match s.sec.pkgs[b] with
  | some g => (match classAt g cls with | some x => x.svn.toNat | none => 0)
  | none => Config.bootSvn b.val cls
/-- Check 6, of REVOKE_OWNER and of COMMIT (R457). -/
def State.actionOk (s : State) (c : Cert) : Bool :=
  let w := wordOf c.payload 0
  match c.action with
  | 5 =>
    let v := fld w 8 8
    decide (v ≤ 64) && decide (s.counter (fld w 0 8 - 1) < v) && decide (v ≤ s.flashSvn 0 (fld w 0 8)) && decide (v ≤ s.flashSvn 1 (fld w 0 8))
  | 6 =>
    let k := fld w 0 8
    let good (j : Nat) : Bool := j != k && decide (j < 4) && !s.sec.revoked.getLsbD j
    ((List.range 4).any good) && good (s.flashOwner 0) && good (s.flashOwner 1)
  | _ => true
/-- R464, checks 2 to 6. -/
def State.certOk (s : State) (c : Cert) : Bool :=
  c.setGen == s.sec.setGen && decide (s.sec.lastSeq.toNat < c.seq) && (c.notAfter == 0 || decide (s.now ≤ c.notAfter)) &&
    ((c.subject == identityDigest) == decide (3 ≤ c.action)) && s.signersOk c && s.actionOk c

/-- The n-th public key of an ENROL payload. -/
def enrolKeys (p : List Byte) : List (List Byte) := (List.range (fld (wordOf p 0) 32 8)).map fun i => bytesAt p (8 + 1952 * i) 1952
/-- What an accepted certificate is to carry out. -/
def Cert.act (c : Cert) : CertAct :=
  let w := wordOf c.payload 0
  match c.action with
  | 1 => .quarantine c.subject
  | 2 => .release c.subject
  | 3 => .requalify
  | 4 => .enrol (fbv w 0 32) (fld w 32 8) (fld w 40 8) (enrolKeys c.payload)
  | 5 => .commit (Fin.ofNat 6 (fld w 0 8 - 1)) (fbv w 8 8)
  | _ => .revoke (Fin.ofNat 4 (fld w 0 8))

/-- CERTIFICATE: ACTION, SEQ, status and the first 16 bytes of SUBJECT. -/
def State.logCert (s : State) (c : Cert) (st : Status) : State :=
  s.logFull false 0x71 .certificate .internal (match c.signers with | x :: _ => BitVec.ofNat 8 x.1 | [] => 0xFF)
    (natBytes c.action 8 ++ natBytes c.seq 8 ++ natBytes (statusCode st) 8 ++ (digestBytes c.subject).take 16)
/-- The decision is made: STATUS, and BUSY falls. -/
def State.certEnd (s : State) (st : Status) : State := { s with sec := { s.sec with certBusy := false, certStatus := st } }
/-- R465: SEQ is stored, the certificate recorded and register 7 extended; its action follows. Beyond the rules' words: log entry 75 (DEDUCED). -/
def State.certAccept (s : State) (c : Cert) : State :=
  let s1 := ({ s with sec := { s.sec with lastSeq := BitVec.ofNat 64 c.seq, pendingAct := some c.act } } : State).logCert c .done
  (s1.houses.foldl (fun (s : State) h => s.extend h 7 (digest c.whole)) s1).certEnd .done
/-- The decision on a certificate's bytes; agree: two lock-houses come to the same result. Beyond the rules' words: log entry 75 (DEDUCED). -/
def State.certDecide (s : State) (agree : Bool) (bs : List Byte) : State :=
  match certParse bs with
  | none => s.certEnd .illegalDescriptor
  | some c =>
    if !agree then (s.logCert c .noRights).certEnd .noRights
    else if s.serves < 2 || !s.certOk c then s.certEnd .noRights
    else s.certAccept c
/-- The bytes of a model address, read line by line. -/
def State.modelBytes (s : State) (a n : Nat) : Acc :=
  match s.modelLines (a / 64 * 64) ((a % 64 + n + 63) / 64) none [] with
  | .ended s1 st bs => .ended s1 st ((bs.drop (a % 64)).take n)
  | .waits s1 => .waits s1
/-- GO with a certificate at SEC_CERT.ADDR; certificates are decided one at a time. -/
def execCertificateSubmit (agree : Bool) (t : Nat) (s : State) : Out := .next (
  let s0 := s.at_ t
  let a := s0.sec.certAddr
  let n := s0.sec.certLen.toNat
  if s0.sec.pendingAct.isSome then s0
  else if s0.addrBad a || n > 84488 then s0.certEnd .illegalDescriptor
  else match addrClass a with
    | 1 => (match s0.modelBytes (addrModel a) n with
      | .ended s1 .done bs => s1.certDecide agree bs
      | .ended s1 _ _ => s1.certEnd .illegalDescriptor
      | .waits s1 => { s1 with sec := { s1.sec with certBusy := true } })
    | 4 =>
      let o := fld a 0 48
      if (s0.hostBad o n).isSome then s0.certEnd .illegalDescriptor else s0.certDecide agree (s0.hostRead o n)
    | _ => s0.certEnd .illegalDescriptor)

/-! ### Actions (Table 17.10) -/

/-- The action that an accepted certificate waits to have carried out. Beyond the rules' words: log entry 75 (DEDUCED). -/
def State.carryOut (s : State) (a : CertAct) (f : State → State) : State :=
  if s.sec.pendingAct = some a then f { s with sec := { s.sec with pendingAct := none } } else s

/-- Ports facing the peer complete running consignments with NO_RIGHTS (R305). -/
def State.setQuar (s : State) (d : BitVec 256) (on : Bool) : State :=
  ({ s with ports := s.ports.map fun (q : Port) =>
      if q.peerId = d then { (if on then q.stopAll 2 .noRights else q) with quar := on } else q } : State).sweep
def execQuarantine (digest : BitVec 256) (t : Nat) (s : State) : Out := .next (
  let s0 := s.at_ t
  s0.carryOut (.quarantine digest) fun s =>
    ({ s with sec := { s.sec with quarantine := if s.sec.quarantine.contains digest then s.sec.quarantine else s.sec.quarantine ++ [digest] } } : State).setQuar digest true)
def execRelease (digest : BitVec 256) (t : Nat) (s : State) : Out := .next (
  let s0 := s.at_ t
  s0.carryOut (.release digest) fun s =>
    ({ s with sec := { s.sec with quarantine := s.sec.quarantine.filter fun x => x != digest } } : State).setQuar digest false)
/-- R435: the permission is stored for the next cold start. -/
def execRequalify (s : State) : Out := .next (s.carryOut .requalify fun s => { s with lkh := { s.lkh with requalify := true } })
/-- The new set replaces the old one; its keys start with no counter. Beyond the rules' words: log entry 75 (DEDUCED). -/
def execEnrol (gen : BitVec 32) (k : Nat) (keys : List (List (BitVec 8))) (s : State) : Out := .next (
  s.carryOut (.enrol gen keys.length k keys) fun s =>
    ({ s with sec := { s.sec with setGen := gen, mgrN := keys.length, mgrK := k, mgrKeys := keys, lastCtr := [] } } : State).logFull false 0x70 .certificate
      .internal 0xFF (natBytes gen.toNat 8 ++ natBytes keys.length 8 ++ natBytes k 8 ++ digestBytes (digest (setBytes gen keys.length k keys))))
/-- FUSE: group, old and new value. Beyond the rules' words: log entry 75 (DEDUCED). -/
def State.logFuse (s : State) (group old new : Nat) : State := s.logFull false 0x60 .certificate .internal 0xFF (natBytes group 8 ++ natBytes old 8 ++ natBytes new 8)
/-- Each serving lock-house blows fuses of a class up to the new value; one whose group ends lower is recorded (R457). -/
def execCommit (cls : Fin 6) (v : BitVec 8) (s : State) : Out := .next (
  s.carryOut (.commit cls v) fun s =>
    let blow (h : Fin 3) : Vector Nat 6 := if s.lkh.serving.getLsbD h.val then vmod s.sec.groups[h] cls fun n => max n v.toNat else s.sec.groups[h]
    let s1 := ({ s with sec := { s.sec with groups := Vector.ofFn blow } } : State).logFuse (cls.val + 1) (s.counter cls.val) v.toNat
    ((List.finRange 3).filter fun h => decide (s1.sec.groups[h][cls] < v.toNat)).foldl (fun (s : State) h => s.logErr (unitId 0x0B h.val) 0 s.sec.groups[h][cls]) s1)
/-- The revoke fuse of an owner slot; groups 16 to 19 in the record. -/
def execRevokeOwner (slot : Fin 4) (s : State) : Out := .next (
  s.carryOut (.revoke slot) fun s =>
    ({ s with sec := { s.sec with revoked := s.sec.revoked ||| BitVec.ofNat 4 (2 ^ slot.val) } } : State).logFuse (16 + slot.val)
      (b2n (s.sec.revoked.getLsbD slot.val)) 1)

end Sys2Proof.Machine
end

