-- ==== Sys2Proof/Machine/Dispatch.lean ====
section
/-! DEFINITION. One arm per command: the meaning of each row of spec/opcode_table.json. -/

namespace Sys2Proof.Machine

open Sys2Proof

def exec (i : Instr) (s : State) : Host.Outcome State Fault Refusal :=
  match i with
  | .timeBeacon t => Sys2Proof.Machine.execTimeBeacon t s
  | .beaconMiss p refLoss t => Sys2Proof.Machine.execBeaconMiss p refLoss t s
  | .gateTick t => Sys2Proof.Machine.execGateTick t s
  | .quietWindowRelease p => Sys2Proof.Machine.execQuietWindowRelease p s
  | .crossingRecentre p => Sys2Proof.Machine.execCrossingRecentre p s
  | .poundLenWrite v => Sys2Proof.Machine.execPoundLenWrite v s
  | .poundLengthChange t => Sys2Proof.Machine.execPoundLengthChange t s
  | .droopStretch p mv quarters => Sys2Proof.Machine.execDroopStretch p mv quarters s
  | .stepAbort step cause lt overrun t => Sys2Proof.Machine.execStepAbort step cause lt overrun t s
  | .coreAbort p cc => Sys2Proof.Machine.execCoreAbort p cc s
  | .replayRestore step t => Sys2Proof.Machine.execReplayRestore step t s
  | .add b => Sys2Proof.Machine.execAdd b s
  | .sub b => Sys2Proof.Machine.execSub b s
  | .and b => Sys2Proof.Machine.execAnd b s
  | .or b => Sys2Proof.Machine.execOr b s
  | .xor b => Sys2Proof.Machine.execXor b s
  | .shl b => Sys2Proof.Machine.execShl b s
  | .shr b => Sys2Proof.Machine.execShr b s
  | .sar b => Sys2Proof.Machine.execSar b s
  | .mul b => Sys2Proof.Machine.execMul b s
  | .min b => Sys2Proof.Machine.execMin b s
  | .max b => Sys2Proof.Machine.execMax b s
  | .minu b => Sys2Proof.Machine.execMinu b s
  | .maxu b => Sys2Proof.Machine.execMaxu b s
  | .addi b => Sys2Proof.Machine.execAddi b s
  | .movi b => Sys2Proof.Machine.execMovi b s
  | .movhi b => Sys2Proof.Machine.execMovhi b s
  | .cmpeq b => Sys2Proof.Machine.execCmpeq b s
  | .cmpne b => Sys2Proof.Machine.execCmpne b s
  | .cmplt b => Sys2Proof.Machine.execCmplt b s
  | .cmpltu b => Sys2Proof.Machine.execCmpltu b s
  | .cmple b => Sys2Proof.Machine.execCmple b s
  | .cmpleu b => Sys2Proof.Machine.execCmpleu b s
  | .fadd b => Sys2Proof.Machine.execFadd b s
  | .fsub b => Sys2Proof.Machine.execFsub b s
  | .fmul b => Sys2Proof.Machine.execFmul b s
  | .ffma b => Sys2Proof.Machine.execFfma b s
  | .fmin b => Sys2Proof.Machine.execFmin b s
  | .fmax b => Sys2Proof.Machine.execFmax b s
  | .fcmplt b => Sys2Proof.Machine.execFcmplt b s
  | .fcmpeq b => Sys2Proof.Machine.execFcmpeq b s
  | .fcmple b => Sys2Proof.Machine.execFcmple b s
  | .pand b => Sys2Proof.Machine.execPand b s
  | .por b => Sys2Proof.Machine.execPor b s
  | .pxor b => Sys2Proof.Machine.execPxor b s
  | .pnot b => Sys2Proof.Machine.execPnot b s
  | .sel b => Sys2Proof.Machine.execSel b s
  | .aaddi b => Sys2Proof.Machine.execAaddi b s
  | .atos b => Sys2Proof.Machine.execAtos b s
  | .stoa b => Sys2Proof.Machine.execStoa b s
  | .ld32 b => Sys2Proof.Machine.execLd32 b s
  | .ld64 b => Sys2Proof.Machine.execLd64 b s
  | .st32 b => Sys2Proof.Machine.execSt32 b s
  | .st64 b => Sys2Proof.Machine.execSt64 b s
  | .crr b => Sys2Proof.Machine.execCrr b s
  | .crw b => Sys2Proof.Machine.execCrw b s
  | .br b => Sys2Proof.Machine.execBr b s
  | .bri b => Sys2Proof.Machine.execBri b s
  | .call b => Sys2Proof.Machine.execCall b s
  | .loop b => Sys2Proof.Machine.execLoop b s
  | .hwin b => Sys2Proof.Machine.execHwin b s
  | .hwinExpiry p cc => Sys2Proof.Machine.execHwinExpiry p cc s
  | .pend b => Sys2Proof.Machine.execPend b s
  | .hret b => Sys2Proof.Machine.execHret b s
  | .vadd b => Sys2Proof.Machine.execVadd b s
  | .vsub b => Sys2Proof.Machine.execVsub b s
  | .vmul b => Sys2Proof.Machine.execVmul b s
  | .vfma b => Sys2Proof.Machine.execVfma b s
  | .vmax b => Sys2Proof.Machine.execVmax b s
  | .vmin b => Sys2Proof.Machine.execVmin b s
  | .vabs b => Sys2Proof.Machine.execVabs b s
  | .vneg b => Sys2Proof.Machine.execVneg b s
  | .vmov b => Sys2Proof.Machine.execVmov b s
  | .vbcast b => Sys2Proof.Machine.execVbcast b s
  | .vcmplt b => Sys2Proof.Machine.execVcmplt b s
  | .vcmpeq b => Sys2Proof.Machine.execVcmpeq b s
  | .vsel b => Sys2Proof.Machine.execVsel b s
  | .vrsum b => Sys2Proof.Machine.execVrsum b s
  | .vrmax b => Sys2Proof.Machine.execVrmax b s
  | .vexp2 b => Sys2Proof.Machine.execVexp2 b s
  | .vlog2 b => Sys2Proof.Machine.execVlog2 b s
  | .vrcp b => Sys2Proof.Machine.execVrcp b s
  | .vrsqrt b => Sys2Proof.Machine.execVrsqrt b s
  | .vtanh b => Sys2Proof.Machine.execVtanh b s
  | .vcvti b => Sys2Proof.Machine.execVcvti b s
  | .vcvto b => Sys2Proof.Machine.execVcvto b s
  | .vld b => Sys2Proof.Machine.execVld b s
  | .vst b => Sys2Proof.Machine.execVst b s
  | .vldb b => Sys2Proof.Machine.execVldb b s
  | .vstb b => Sys2Proof.Machine.execVstb b s
  | .mconf b => Sys2Proof.Machine.execMconf b s
  | .mload b => Sys2Proof.Machine.execMload b s
  | .mloadComplete p cc => Sys2Proof.Machine.execMloadComplete p cc s
  | .mstep b => Sys2Proof.Machine.execMstep b s
  | .mstepComplete p cc => Sys2Proof.Machine.execMstepComplete p cc s
  | .mdrain b => Sys2Proof.Machine.execMdrain b s
  | .mdrainComplete p cc => Sys2Proof.Machine.execMdrainComplete p cc s
  | .mchkv b => Sys2Proof.Machine.execMchkv b s
  | .mflags b => Sys2Proof.Machine.execMflags b s
  | .keeperFill p cc => Sys2Proof.Machine.execKeeperFill p cc s
  | .keeperGapExpiry p cc => Sys2Proof.Machine.execKeeperGapExpiry p cc s
  | .pownote b => Sys2Proof.Machine.execPownote b s
  | .pownoteLeadExpiry p cc => Sys2Proof.Machine.execPownoteLeadExpiry p cc s
  | .stallRelease p cc => Sys2Proof.Machine.execStallRelease p cc s
  | .sendPatienceExpiry p cc => Sys2Proof.Machine.execSendPatienceExpiry p cc s
  | .handlerStart p cc => Sys2Proof.Machine.execHandlerStart p cc s
  | .dbgHalt p => Sys2Proof.Machine.execDbgHalt p s
  | .towService p w => Sys2Proof.Machine.execTowService p w s
  | .strm b => Sys2Proof.Machine.execStrm b s
  | .swait b => Sys2Proof.Machine.execSwait b s
  | .stest b => Sys2Proof.Machine.execStest b s
  | .rwr b => Sys2Proof.Machine.execRwr b s
  | .rrd b => Sys2Proof.Machine.execRrd b s
  | .send b => Sys2Proof.Machine.execSend b s
  | .sendn b => Sys2Proof.Machine.execSendn b s
  | .sendc b => Sys2Proof.Machine.execSendc b s
  | .recv b => Sys2Proof.Machine.execRecv b s
  | .bpop b => Sys2Proof.Machine.execBpop b s
  | .bopen b => Sys2Proof.Machine.execBopen b s
  | .bclose b => Sys2Proof.Machine.execBclose b s
  | .bcloseComplete p b cc => Sys2Proof.Machine.execBcloseComplete p b cc s
  | .wopen b => Sys2Proof.Machine.execWopen b s
  | .wclose b => Sys2Proof.Machine.execWclose b s
  | .wcloseComplete p w cc => Sys2Proof.Machine.execWcloseComplete p w cc s
  | .carm b => Sys2Proof.Machine.execCarm b s
  | .csig b => Sys2Proof.Machine.execCsig b s
  | .cwait b => Sys2Proof.Machine.execCwait b s
  | .ctest b => Sys2Proof.Machine.execCtest b s
  | .moveCompletion p slot cc => Sys2Proof.Machine.execMoveCompletion p slot cc s
  | .streamPageEntry p slot cc => Sys2Proof.Machine.execStreamPageEntry p slot cc s
  | .chartCacheFill p page => Sys2Proof.Machine.execChartCacheFill p page s
  | .streamRingReserve p slot cc => Sys2Proof.Machine.execStreamRingReserve p slot cc s
  | .streamChunkRequest p slot cc => Sys2Proof.Machine.execStreamChunkRequest p slot cc s
  | .streamChunkRelease p slot cc => Sys2Proof.Machine.execStreamChunkRelease p slot cc s
  | .outChunkRead p slot cc => Sys2Proof.Machine.execOutChunkRead p slot cc s
  | .streamComplete p slot cc => Sys2Proof.Machine.execStreamComplete p slot cc s
  | .patrolScrub p cc => Sys2Proof.Machine.execPatrolScrub p cc s
  | .scrubWriteback p cc => Sys2Proof.Machine.execScrubWriteback p cc s
  | .stgPartWrite p v => Sys2Proof.Machine.execStgPartWrite p v s
  | .stgFlush p => Sys2Proof.Machine.execStgFlush p s
  | .stgFlushDone p => Sys2Proof.Machine.execStgFlushDone p s
  | .lineReq id => Sys2Proof.Machine.execLineReq id s
  | .sliceMissFill id => Sys2Proof.Machine.execSliceMissFill id s
  | .hbmLineAccess id => Sys2Proof.Machine.execHbmLineAccess id s
  | .lineData id => Sys2Proof.Machine.execLineData id s
  | .hbmWriteShareWindow m => Sys2Proof.Machine.execHbmWriteShareWindow m s
  | .hbmErrorRecheck step t => Sys2Proof.Machine.execHbmErrorRecheck step t s
  | .chtCountFlush => Sys2Proof.Machine.execChtCountFlush s
  | .chtHomeWrite v => Sys2Proof.Machine.execChtHomeWrite v s
  | .chartEntryUpdate page new => Sys2Proof.Machine.execChartEntryUpdate page new s
  | .chartInvalidation p page => Sys2Proof.Machine.execChartInvalidation p page s
  | .chartUpdateDrained page => Sys2Proof.Machine.execChartUpdateDrained page s
  | .migrationQueueAdmit => Sys2Proof.Machine.execMigrationQueueAdmit s
  | .migrationStart t => Sys2Proof.Machine.execMigrationStart t s
  | .migrationComplete t => Sys2Proof.Machine.execMigrationComplete t s
  | .barge id cc => Sys2Proof.Machine.execBarge id cc s
  | .bargeWhole p b e cc => Sys2Proof.Machine.execBargeWhole p b e cc s
  | .orderedCombine p b key cc => Sys2Proof.Machine.execOrderedCombine p b key cc s
  | .weirTimeout p b key cc => Sys2Proof.Machine.execWeirTimeout p b key cc s
  | .bargeDelivery p b cc => Sys2Proof.Machine.execBargeDelivery p b cc s
  | .bargeAns id cc => Sys2Proof.Machine.execBargeAns id cc s
  | .bargeRetry p g cc => Sys2Proof.Machine.execBargeRetry p g cc s
  | .wr id cc => Sys2Proof.Machine.execWr id cc s
  | .wrAns id cc => Sys2Proof.Machine.execWrAns id cc s
  | .rdReq id cc => Sys2Proof.Machine.execRdReq id cc s
  | .rdData id cc => Sys2Proof.Machine.execRdData id cc s
  | .chamberSignalArrival id cc => Sys2Proof.Machine.execChamberSignalArrival id cc s
  | .csigAns id cc => Sys2Proof.Machine.execCsigAns id cc s
  | .canalArmArrival id cc => Sys2Proof.Machine.execCanalArmArrival id cc s
  | .mirrorUpdate p j => Sys2Proof.Machine.execMirrorUpdate p j s
  | .tow addr data t => Sys2Proof.Machine.execTow addr data t s
  | .towAns id => Sys2Proof.Machine.execTowAns id s
  | .packetRoute id => Sys2Proof.Machine.execPacketRoute id s
  | .combineHoldExpiry p e cc => Sys2Proof.Machine.execCombineHoldExpiry p e cc s
  | .flitReplay p f => Sys2Proof.Machine.execFlitReplay p f s
  | .sluiceRecovery p cc => Sys2Proof.Machine.execSluiceRecovery p cc s
  | .sluiceInject p cc => Sys2Proof.Machine.execSluiceInject p cc s
  | .expressLaunch id xc => Sys2Proof.Machine.execExpressLaunch id xc s
  | .replyTimeout p id t => Sys2Proof.Machine.execReplyTimeout p id t s
  | .mshTableWrite p ovr ver k v => Sys2Proof.Machine.execMshTableWrite p ovr ver k v s
  | .mshEpochArm => Sys2Proof.Machine.execMshEpochArm s
  | .drainSum t => Sys2Proof.Machine.execDrainSum t s
  | .epochDrainTimeout t => Sys2Proof.Machine.execEpochDrainTimeout t s
  | .mergeTableUpdate lt b => Sys2Proof.Machine.execMergeTableUpdate lt b s
  | .mshSeamMapWrite p d v => Sys2Proof.Machine.execMshSeamMapWrite p d v s
  | .axlEnable x => Sys2Proof.Machine.execAxlEnable x s
  | .axlFrameLock x lanes digest t => Sys2Proof.Machine.execAxlFrameLock x lanes digest t s
  | .axlTrained x peerGen2 lanes t => Sys2Proof.Machine.execAxlTrained x peerGen2 lanes t s
  | .axlTrainingTimeout x t => Sys2Proof.Machine.execAxlTrainingTimeout x t s
  | .axlRetryTimer x t => Sys2Proof.Machine.execAxlRetryTimer x t s
  | .axlLossOfLight x lanes t => Sys2Proof.Machine.execAxlLossOfLight x lanes t s
  | .axlDisable x => Sys2Proof.Machine.execAxlDisable x s
  | .axlLoopWrite x v accepted => Sys2Proof.Machine.execAxlLoopWrite x v accepted s
  | .axlLoopRequest x v => Sys2Proof.Machine.execAxlLoopRequest x v s
  | .axlDataFrame x lane f t => Sys2Proof.Machine.execAxlDataFrame x lane f t s
  | .axlNak x lane ack t => Sys2Proof.Machine.execAxlNak x lane ack t s
  | .axlTimeExchange x t => Sys2Proof.Machine.execAxlTimeExchange x t s
  | .axlTimeFrame x t1 t2 t3 t4 src => Sys2Proof.Machine.execAxlTimeFrame x t1 t2 t3 t4 src s
  | .axlClear x ch len attempt t => Sys2Proof.Machine.execAxlClear x ch len attempt t s
  | .axlCancel x ch st t => Sys2Proof.Machine.execAxlCancel x ch st t s
  | .consignmentMeetTimeout x e t => Sys2Proof.Machine.execConsignmentMeetTimeout x e t s
  | .consignmentComplete x e t => Sys2Proof.Machine.execConsignmentComplete x e t s
  | .axlFetch x addr len ch => Sys2Proof.Machine.execAxlFetch x addr len ch s
  | .kclPortUp k peerGen lanes t => Sys2Proof.Machine.execKclPortUp k peerGen lanes t s
  | .kclLoss k lanes t => Sys2Proof.Machine.execKclLoss k lanes t s
  | .kclLoopWrite k v consent => Sys2Proof.Machine.execKclLoopWrite k v consent s
  | .rdShared k addr t => Sys2Proof.Machine.execRdShared k addr t s
  | .rdOwn k addr t => Sys2Proof.Machine.execRdOwn k addr t s
  | .rdNc k addr t => Sys2Proof.Machine.execRdNc k addr t s
  | .wrNc k addr data t => Sys2Proof.Machine.execWrNc k addr data t s
  | .wb k addr data t => Sys2Proof.Machine.execWb k addr data t s
  | .snpInv line => Sys2Proof.Machine.execSnpInv line s
  | .snpRsp addr data t => Sys2Proof.Machine.execSnpRsp addr data t s
  | .snoopTimeout addr t => Sys2Proof.Machine.execSnoopTimeout addr t s
  | .kclTime k tai t => Sys2Proof.Machine.execKclTime k tai t s
  | .kclTimeSend t => Sys2Proof.Machine.execKclTimeSend t s
  | .manifestRingNotify w t => Sys2Proof.Machine.execManifestRingNotify w t s
  | .manifestStep t => Sys2Proof.Machine.execManifestStep t s
  | .manifestLoad t => Sys2Proof.Machine.execManifestLoad t s
  | .imageLoadComplete seq t => Sys2Proof.Machine.execImageLoadComplete seq t s
  | .manifestChart t => Sys2Proof.Machine.execManifestChart t s
  | .chartSet t => Sys2Proof.Machine.execChartSet t s
  | .chartInvalidate t => Sys2Proof.Machine.execChartInvalidate t s
  | .chartMigrateIn t => Sys2Proof.Machine.execChartMigrateIn t s
  | .chartMigrateOut t => Sys2Proof.Machine.execChartMigrateOut t s
  | .manifestHoldEnd t => Sys2Proof.Machine.execManifestHoldEnd t s
  | .admissionWaitTimeout t => Sys2Proof.Machine.execAdmissionWaitTimeout t s
  | .stepCompletion step t => Sys2Proof.Machine.execStepCompletion step t s
  | .pcieRingPoll w t => Sys2Proof.Machine.execPcieRingPoll w t s
  | .powerFail mv t => Sys2Proof.Machine.execPowerFail mv t s
  | .inputReturn t => Sys2Proof.Machine.execInputReturn t s
  | .pwrEnFall t => Sys2Proof.Machine.execPwrEnFall t s
  | .reachCurrentLimit r quarters => Sys2Proof.Machine.execReachCurrentLimit r quarters s
  | .reachLimitRelease r quarters => Sys2Proof.Machine.execReachLimitRelease r quarters s
  | .inputCurrentHold tenths => Sys2Proof.Machine.execInputCurrentHold tenths s
  | .reachPgTimeout r t => Sys2Proof.Machine.execReachPgTimeout r t s
  | .vcoreOvercurrent p t => Sys2Proof.Machine.execVcoreOvercurrent p t s
  | .vnetTrip p t => Sys2Proof.Machine.execVnetTrip p t s
  | .powerOnRequest p rail t => Sys2Proof.Machine.execPowerOnRequest p rail t s
  | .powerOnAdmit r imeas t => Sys2Proof.Machine.execPowerOnAdmit r imeas t s
  | .powerOnComplete p rail t => Sys2Proof.Machine.execPowerOnComplete p rail t s
  | .powerOnTimeout r t => Sys2Proof.Machine.execPowerOnTimeout r t s
  | .pwrReqIdle p t => Sys2Proof.Machine.execPwrReqIdle p t s
  | .pwrReqRetain p t => Sys2Proof.Machine.execPwrReqRetain p t s
  | .pwrReqDark p t => Sys2Proof.Machine.execPwrReqDark p t s
  | .coreIdleEntry p t => Sys2Proof.Machine.execCoreIdleEntry p t s
  | .reachShort r t => Sys2Proof.Machine.execReachShort r t s
  | .supplyLoss sup t => Sys2Proof.Machine.execSupplyLoss sup t s
  | .powerCapCheck pinW wOut eOut t => Sys2Proof.Machine.execPowerCapCheck pinW wOut eOut t s
  | .oscReady edges t => Sys2Proof.Machine.execOscReady edges t s
  | .oscTimeout t => Sys2Proof.Machine.execOscTimeout t s
  | .refInputBad p alt t => Sys2Proof.Machine.execRefInputBad p alt t s
  | .refInputGood p alt t => Sys2Proof.Machine.execRefInputGood p alt t s
  | .clkStepRequest b code t => Sys2Proof.Machine.execClkStepRequest b code t s
  | .pllLocked p t => Sys2Proof.Machine.execPllLocked p t s
  | .vcoreTargetRaise b t => Sys2Proof.Machine.execVcoreTargetRaise b t s
  | .pllLockTimeout p t => Sys2Proof.Machine.execPllLockTimeout p t s
  | .pllLockLoss p t => Sys2Proof.Machine.execPllLockLoss p t s
  | .clockWatchdog p expRunning t => Sys2Proof.Machine.execClockWatchdog p expRunning t s
  | .clkMswSwitch c sel => Sys2Proof.Machine.execClkMswSwitch c sel s
  | .timNowRead tile t => Sys2Proof.Machine.execTimNowRead tile t s
  | .ppsInEdge t => Sys2Proof.Machine.execPpsInEdge t s
  | .timeSourceQualify src t => Sys2Proof.Machine.execTimeSourceQualify src t s
  | .timeSourceDisqualify src t => Sys2Proof.Machine.execTimeSourceDisqualify src t s
  | .timeSourceTakeover src t => Sys2Proof.Machine.execTimeSourceTakeover src t s
  | .timeServoUpdate diff ppb t => Sys2Proof.Machine.execTimeServoUpdate diff ppb t s
  | .timSet v => Sys2Proof.Machine.execTimSet v s
  | .trimSave up t => Sys2Proof.Machine.execTrimSave up t s
  | .ppsOutPulse t => Sys2Proof.Machine.execPpsOutPulse t s
  | .ptpMessage m t => Sys2Proof.Machine.execPtpMessage m t s
  | .thermalSample p a b stack optics t => Sys2Proof.Machine.execThermalSample p a b stack optics t s
  | .thermalRecovery b t => Sys2Proof.Machine.execThermalRecovery b t s
  | .opticsReenable x t => Sys2Proof.Machine.execOpticsReenable x t s
  | .hardwareTrip p ofStack readings t => Sys2Proof.Machine.execHardwareTrip p ofStack readings t s
  | .coolantSample inlet outlet pinW t => Sys2Proof.Machine.execCoolantSample inlet outlet pinW t s
  | .flowOkLoss t => Sys2Proof.Machine.execFlowOkLoss t s
  | .flowOkGlitch lowUs => Sys2Proof.Machine.execFlowOkGlitch lowUs s
  | .thermalCapUpdate upHot upIn upP t => Sys2Proof.Machine.execThermalCapUpdate upHot upIn upP t s
  | .thermalCapRise t => Sys2Proof.Machine.execThermalCapRise t s
  | .thermalEmergency cause t => Sys2Proof.Machine.execThermalEmergency cause t s
  | .thermalEmergencyExit t => Sys2Proof.Machine.execThermalEmergencyExit t s
  | .forecastUpdate t => Sys2Proof.Machine.execForecastUpdate t s
  | .stage00 r => Sys2Proof.Machine.execStage00 r s
  | .stage01 r => Sys2Proof.Machine.execStage01 r s
  | .stage02 r => Sys2Proof.Machine.execStage02 r s
  | .stage03 r => Sys2Proof.Machine.execStage03 r s
  | .stage04 r => Sys2Proof.Machine.execStage04 r s
  | .stage05 r => Sys2Proof.Machine.execStage05 r s
  | .stage06 r => Sys2Proof.Machine.execStage06 r s
  | .stage07 r => Sys2Proof.Machine.execStage07 r s
  | .stage08 r => Sys2Proof.Machine.execStage08 r s
  | .stage09 r => Sys2Proof.Machine.execStage09 r s
  | .stage0A r => Sys2Proof.Machine.execStage0A r s
  | .stageTimeout r => Sys2Proof.Machine.execStageTimeout r s
  | .lkhMapAck o path => Sys2Proof.Machine.execLkhMapAck o path s
  | .narrowRetentionRequest p en path => Sys2Proof.Machine.execNarrowRetentionRequest p en path s
  | .repairEventReport ev t => Sys2Proof.Machine.execRepairEventReport ev t s
  | .soundingRotation => Sys2Proof.Machine.execSoundingRotation s
  | .soundingStart t => Sys2Proof.Machine.execSoundingStart t s
  | .soundingResult ok t => Sys2Proof.Machine.execSoundingResult ok t s
  | .fenceCommand h unit cause t => Sys2Proof.Machine.execFenceCommand h unit cause t s
  | .fenceCommandExpiry h unit cause t => Sys2Proof.Machine.execFenceCommandExpiry h unit cause t s
  | .substitution lt t => Sys2Proof.Machine.execSubstitution lt t s
  | .substitutionLoad lt t => Sys2Proof.Machine.execSubstitutionLoad lt t s
  | .substitutionReady lt t => Sys2Proof.Machine.execSubstitutionReady lt t s
  | .laneRepair p d lane second t => Sys2Proof.Machine.execLaneRepair p d lane second t s
  | .hbmRetrain m pc errs t => Sys2Proof.Machine.execHbmRetrain m pc errs t s
  | .hbmRetrainDone m pc ok t => Sys2Proof.Machine.execHbmRetrainDone m pc ok t s
  | .moor why t => Sys2Proof.Machine.execMoor why t s
  | .headwaySave t => Sys2Proof.Machine.execHeadwaySave t s
  | .coldReset t => Sys2Proof.Machine.execColdReset t s
  | .warmReset t => Sys2Proof.Machine.execWarmReset t s
  | .reachReset r clear t => Sys2Proof.Machine.execReachReset r clear t s
  | .tileReset p clear update t => Sys2Proof.Machine.execTileReset p clear update t s
  | .coreReset p update t => Sys2Proof.Machine.execCoreReset p update t s
  | .contextReset p c t => Sys2Proof.Machine.execContextReset p c t s
  | .linkReset port t => Sys2Proof.Machine.execLinkReset port t s
  | .lockHouseReset h update t => Sys2Proof.Machine.execLockHouseReset h update t s
  | .resetPreconditionMet t => Sys2Proof.Machine.execResetPreconditionMet t s
  | .resetWaitTimeout t => Sys2Proof.Machine.execResetWaitTimeout t s
  | .standbyRequest t => Sys2Proof.Machine.execStandbyRequest t s
  | .standbyEntry t => Sys2Proof.Machine.execStandbyEntry t s
  | .activeRequest t => Sys2Proof.Machine.execActiveRequest t s
  | .firmwareUpdate pkg t => Sys2Proof.Machine.execFirmwareUpdate pkg t s
  | .secQuoteRequest h t => Sys2Proof.Machine.execSecQuoteRequest h t s
  | .managementRequest q t => Sys2Proof.Machine.execManagementRequest q t s
  | .certificateSubmit agree t => Sys2Proof.Machine.execCertificateSubmit agree t s
  | .quarantine digest t => Sys2Proof.Machine.execQuarantine digest t s
  | .release digest t => Sys2Proof.Machine.execRelease digest t s
  | .requalify => Sys2Proof.Machine.execRequalify s
  | .enrol gen k keys => Sys2Proof.Machine.execEnrol gen k keys s
  | .commit cls v => Sys2Proof.Machine.execCommit cls v s
  | .revokeOwner slot => Sys2Proof.Machine.execRevokeOwner slot s
  | .logbookEntry e t => Sys2Proof.Machine.execLogbookEntry e t s
  | .logCkptRequest t => Sys2Proof.Machine.execLogCkptRequest t s
  | .logCheckpointSigned t => Sys2Proof.Machine.execLogCheckpointSigned t s
  | .logExportWrite v => Sys2Proof.Machine.execLogExportWrite v s
  | .registerWrite addr v path signed => Sys2Proof.Machine.execRegisterWrite addr v path signed s
  | .dbgResume p => Sys2Proof.Machine.execDbgResume p s
  | .aliveToggle t => Sys2Proof.Machine.execAliveToggle t s
  | .flowOkAssert t => Sys2Proof.Machine.execFlowOkAssert t s
  | .resetReturnToService t => Sys2Proof.Machine.execResetReturnToService t s
  | .segmentZeroingDone p cc => Sys2Proof.Machine.execSegmentZeroingDone p cc s
  | .axlIdleFrame x lane f t => Sys2Proof.Machine.execAxlIdleFrame x lane f t s

end Sys2Proof.Machine
end

