-- ==== Sys2Proof/Safety.lean ====
section
/-! DEFINITION. The terms in which statements about runs are made: a command that completes, a slot that issues, the rows of
Tables 6.3 and 6.4 as properties of one command, and the security state that no command may loosen. -/

namespace Sys2Proof

open Sys2Proof.Machine

/-- The command completes on the state. -/
def Completes (c : Instr) (s : State) : Prop := ∃ t, exec c s = .next t

/-- Slot k of the bundle holds the opcode and the bundle issues with the slot's guard true; t is the state in which the
slot takes effect. -/
def Issues (k : SlotK) (op : Nat) (i : Issue) (s t : State) : Prop :=
  slotValid i.bundle k = true ∧ opcode (slotWord i.bundle k) = op ∧ openSlot s i k = .ready t true

/-- The same, as a test on a state. -/
def issues (k : SlotK) (op : Nat) (i : Issue) (s : State) : Bool :=
  slotValid i.bundle k && opcode (slotWord i.bundle k) == op &&
    match openSlot s i k with
    | .ready _ r => r
    | _ => false

/-! ### Rows of Table 6.3 -/

/-- Sd = f Sa Sb, visible lat cycles after the issue. -/
def RowSS (op : Nat) (c : Issue → Instr) (lat : Nat) (f : Word → Word → Word) : Prop :=
  ∀ i s t, Issues .c op i s t →
    let w := slotWord i.bundle .c
    exec (c i) s = .next (t.later i lat (.s i.ctx (Fin.ofNat 32 (fD w))
      (f ((t.core i.pos).readS i.ctx (fA w)) ((t.core i.pos).readS i.ctx (fB w)))))
/-- Pd = f Sa Sb, visible in the next cycle. -/
def RowPS (op : Nat) (c : Issue → Instr) (f : Word → Word → Bool) : Prop :=
  ∀ i s t, Issues .c op i s t →
    let w := slotWord i.bundle .c
    exec (c i) s = .next (t.later i 1 (.p i.ctx (Fin.ofNat 8 (fD w))
      (f ((t.core i.pos).readS i.ctx (fA w)) ((t.core i.pos).readS i.ctx (fB w)))))
/-- Pd = f Pa Pb. -/
def RowPP (op : Nat) (c : Issue → Instr) (f : Bool → Bool → Bool) : Prop :=
  ∀ i s t, Issues .c op i s t →
    let w := slotWord i.bundle .c
    exec (c i) s = .next (t.later i 1 (.p i.ctx (Fin.ofNat 8 (fD w))
      (f ((t.core i.pos).readP i.ctx (fA w)) ((t.core i.pos).readP i.ctx (fB w)))))
/-- Bits [31:0] of Sd = f of bits [31:0] of Sa and Sb, the rest 0. -/
def RowFF (op : Nat) (c : Issue → Instr) (lat : Nat) (f : F32 → F32 → F32) : Prop :=
  RowSS op c lat fun a b => (f (a.truncate 32) (b.truncate 32)).zeroExtend 64

/-! ### Rows of Table 6.4 -/

/-- Vector length of the issuing context. -/
def vlOf (t : State) (i : Issue) : Nat := t.vl i.pos i.ctx
/-- Lanes 0 to CR_VL − 1 of a vector register of the issuing context. -/
def lanesOf (t : State) (i : Issue) (r : Nat) : List F32 := lanes ((t.core i.pos).readV i.ctx r) (vlOf t i)

/-- Lanes 0 to CR_VL − 1 of Vd become l after lat cycles; with CR_VL 0 nothing is written. -/
def LanesResult (op : Nat) (c : Issue → Instr) (lat : Nat) (l : BitVec 64 → State → Issue → List F32) : Prop :=
  ∀ i s t, Issues .v op i s t →
    let w := slotWord i.bundle .v
    (vlOf t i = 0 → exec (c i) s = .next t) ∧
    (vlOf t i ≠ 0 → exec (c i) s = .next (t.later i lat (.v i.ctx (Fin.ofNat 64 (fD w)) (laneMask (vlOf t i)) (ofLanes (l w t i)))))
/-- Every lane of Vd is written. -/
def RegResult (op : Nat) (c : Issue → Instr) (lat : Nat) (v : BitVec 64 → State → Issue → VReg) : Prop :=
  ∀ i s t, Issues .v op i s t →
    let w := slotWord i.bundle .v
    (vlOf t i = 0 → exec (c i) s = .next t) ∧
    (vlOf t i ≠ 0 → exec (c i) s = .next (t.later i lat (.v i.ctx (Fin.ofNat 64 (fD w)) fullMask (v w t i))))

def RowV1 (op : Nat) (c : Issue → Instr) (lat : Nat) (f : F32 → F32) : Prop :=
  LanesResult op c lat fun w t i => (lanesOf t i (fA w)).map f
def RowV2 (op : Nat) (c : Issue → Instr) (lat : Nat) (f : F32 → F32 → F32) : Prop :=
  LanesResult op c lat fun w t i => List.zipWith f (lanesOf t i (fA w)) (lanesOf t i (fB w))

/-! ### Security state -/

/-- The part of the security state that fuses and MRAM keep (R455, R457, R461, R463). -/
def Machine.Security.trust (k : Machine.Security) :
    Vector (Vector Nat 6) 3 × BitVec 4 × BitVec 64 × BitVec 32 × Nat × Nat × List (List Byte) × List (BitVec 256) × Option CertAct :=
  (k.groups, k.revoked, k.lastSeq, k.setGen, k.mgrN, k.mgrK, k.mgrKeys, k.quarantine, k.pendingAct)

end Sys2Proof
end

