-- ==== Sys2Proof/Certificates/Slice0/Obligations.lean ====
section
/-! DEFINITION. The statements for the provers. A rule of a chapter is written once as Sys2Proof.Rules.<Name>; an obligation is one such rule, or
the rules of one subject together. Each docstring names the rules it formalises; a log entry it names is the model's choice. -/

set_option Elab.async false

open Sys2Proof Sys2Proof.Machine

/-! ### The block -/

/-- A step takes the command at the front of the queue and runs it on the state with the queue's rest; with no command waiting the
block idles (log entry 1). -/
def Obligations.StepRunsFrontCommand : Prop :=
  (∀ (c : Instr) (r : List Instr) (s : State), step { s with pending := c :: r } = exec c { s with pending := r }) ∧
  (∀ s : State, s.pending = [] → step s = .next s)

/-- No command faults and none is refused, on any state: each answers a next state, as the table of commands gives every row an effect. -/
def Obligations.EveryCommandAnswers : Prop :=
  ∀ (c : Instr) (s : State), (∃ t, exec c s = .next t) ∧ (∀ f : Fault, exec c s ≠ .fault f) ∧ (∀ r : Refusal, exec c s ≠ .refused r)

/-- Every command leaves the queue of waiting commands as it stands, so that a step takes exactly the front command off it. -/
def Obligations.QueueIsFirstInFirstOut : Prop :=
  (∀ (c : Instr) (s t : State), exec c s = .next t → t.pending = s.pending) ∧
  (∀ (c : Instr) (r : List Instr) (s t : State), s.pending = c :: r → step s = .next t → t.pending = r)

/-- The security state is well-formed: at most 64 fuses blown in each of the six groups of each lock-house, a manager set of at most 16 keys
with a threshold no larger than the set, and an accepted COMMIT or ENROL that keeps these. -/
def Sys2Proof.TrustInv (k : Security) : Prop :=
  (∀ (h : Fin 3) (cls : Fin 6), k.groups[h][cls] ≤ 64) ∧ k.mgrKeys.length = k.mgrN ∧ k.mgrK ≤ k.mgrN ∧ k.mgrN ≤ 16 ∧
  (match k.pendingAct with
    | some (.commit _ v) => v.toNat ≤ 64
    | some (.enrol _ n m keys) => keys.length = n ∧ 1 ≤ m ∧ m ≤ n ∧ n ≤ 16
    | _ => True)

/-- A floor under the values that may only rise: every group of fuses of every lock-house, the last accepted SEQ, the revoke fuses. -/
def Sys2Proof.TrustFloor (lo : Vector (Vector Nat 6) 3) (q : BitVec 64) (r : BitVec 4) (k : Security) : Prop :=
  (∀ (h : Fin 3) (cls : Fin 6), lo[h][cls] ≤ k.groups[h][cls]) ∧ q.toNat ≤ k.lastSeq.toNat ∧ r &&& k.revoked = r

/-- Every step keeps the security state well-formed (at most 64 fuses in each group, a manager set of at most 16 keys with a threshold it can
meet, an accepted COMMIT or ENROL that keeps both), lowers no lock-house's anti-rollback fuses and not the last accepted SEQ, and clears no
revoke fuse. -/
def Obligations.EveryStepKeepsTrust : Prop :=
  ∀ (c : Vector (Vector Nat 6) 3) (q : BitVec 64) (r : BitVec 4) (s t : State),
    TrustInv s.sec → TrustFloor c q r s.sec → step s = .next t → TrustInv t.sec ∧ TrustFloor c q r t.sec

/-- The security state after reset is well-formed, with every group of fuses at 0 (log entry 13). -/
def Sys2Proof.Rules.ResetMeetsTrust : Prop :=
  TrustInv State.reset.sec ∧ ∀ (h : Fin 3) (cls : Fin 6), State.reset.sec.groups[h][cls] = 0

/-! ### Issue (5.2 to 5.4, 5.7) -/

/-- A context that may issue, whose next bundle this is, opens it when the bundle meets no fault and no stall: the slot is told the value of
its guard, and in the next cycle the context goes on with the next bundle in sequence, where no loop ends here. -/
def Sys2Proof.Rules.ReadyContextIssues : Prop :=
  ∀ (i : Issue) (k : SlotK) (s : State),
    let u := s.run i.pos i.cc
    let q := (u.core i.pos).ctx i.ctx
    (s.ut i.pos).cycle ≤ i.cc → s.dieUp i.pos = true → u.ctxReady i.pos i.ctx i.cc = true →
    (q.opened = true → q.curCc ≠ i.cc) → q.nextIdx = i.idx → q.nextCc ≤ i.cc → (u.core i.pos).img.ecc.contains i.idx.toNat = false →
    (∀ e : Fin 4, q.loops[e].active = false ∨ q.loops[e].last ≠ i.idx) →
    bundleFaults u i = [] → (i.ctx = .hand ∨ stallPoint u i.pos i.bundle = none) →
    ∃ t, openSlot s i k = .ready t (guardTrue (t.core i.pos) i.ctx (slotWord i.bundle k)) ∧
      ((t.core i.pos).ctx i.ctx).nextIdx = i.idx + 1 ∧ ((t.core i.pos).ctx i.ctx).nextCc = i.cc + 1

/-- A bundle that meets a fault at issue opens no slot: the context is stopped, COR_FAULT holds the code of the first fault in slot order, a
bit for every slot that met one, the context and the bundle's index; no register of any context, no write in flight and nothing of the
scratchpad changes. -/
def Sys2Proof.Rules.FaultStopsContext : Prop :=
  ∀ (i : Issue) (k : SlotK) (s : State) (f : SlotK × CoreFault) (r : List (SlotK × CoreFault)),
    let u := s.run i.pos i.cc
    let q := (u.core i.pos).ctx i.ctx
    (s.ut i.pos).cycle ≤ i.cc → s.dieUp i.pos = true → u.ctxReady i.pos i.ctx i.cc = true →
    (q.opened = true → q.curCc ≠ i.cc) → q.nextIdx = i.idx → q.nextCc ≤ i.cc → (u.core i.pos).img.ecc.contains i.idx.toNat = false →
    bundleFaults u i = f :: r →
    ∃ t, openSlot s i k = .ended t ∧
      (t.core i.pos).ctl.fault.code = BitVec.ofNat 8 (faultCode f.2) ∧ (t.core i.pos).ctl.fault.slots = slotMask (f :: r) ∧
      (t.core i.pos).ctl.fault.hw = faultHw f.2 ∧ (t.core i.pos).ctl.fault.valid = true ∧
      (t.core i.pos).ctl.fault.context = BitVec.ofNat 2 (ctxNum i.ctx).val ∧ (t.core i.pos).ctl.fault.index = i.idx ∧
      vat (t.core i.pos).ctl.stopped (ctxNum i.ctx) = true ∧
      (∀ x n, (t.core i.pos).readS x n = (u.core i.pos).readS x n ∧ (t.core i.pos).readA x n = (u.core i.pos).readA x n ∧
        (t.core i.pos).readP x n = (u.core i.pos).readP x n ∧ (t.core i.pos).readV x n = (u.core i.pos).readV x n) ∧
      (t.core i.pos).pend = (u.core i.pos).pend ∧ (t.core i.pos).spd = (u.core i.pos).spd

/-- A bundle of MAIN that meets no fault and whose stalling instruction's condition does not hold yet is held as a whole at its stall point
from this cycle: no slot of it opens, and no S or A register, move operation or write in flight changes. -/
def Sys2Proof.Rules.StallHoldsBundle : Prop :=
  ∀ (i : Issue) (k : SlotK) (s : State) (pt : Fin 6),
    let u := s.run i.pos i.cc
    let q := (u.core i.pos).ctx .main
    i.ctx = .main → (s.ut i.pos).cycle ≤ i.cc → s.dieUp i.pos = true → u.ctxReady i.pos .main i.cc = true →
    (q.opened = true → q.curCc ≠ i.cc) → q.nextIdx = i.idx → q.nextCc ≤ i.cc → (u.core i.pos).img.ecc.contains i.idx.toNat = false →
    bundleFaults u i = [] →
    stallPoint u i.pos i.bundle = some pt →
    ∃ t, openSlot s i k = .ended t ∧ (t.core i.pos).ctl.main = .stalled pt ∧ (t.core i.pos).ctl.held = some i ∧
      (t.core i.pos).ctl.stallStart = i.cc ∧ (t.core i.pos).pend = (u.core i.pos).pend ∧ (t.core i.pos).mov = (u.core i.pos).mov ∧
      (∀ x n, (t.core i.pos).readS x n = (u.core i.pos).readS x n ∧ (t.core i.pos).readA x n = (u.core i.pos).readA x n)

/-- A ready bundle opens; one that meets a fault stops its context; a stall holds the whole bundle of MAIN. -/
def Obligations.IssueRules : Prop :=
  Sys2Proof.Rules.ReadyContextIssues ∧ Sys2Proof.Rules.FaultStopsContext ∧ Sys2Proof.Rules.StallHoldsBundle

/-- Frame of a slot that opens, beyond what the cycles up to the issue bring about: outside the issuing tile nothing changes but the
requests for a step's abort, and in it no register, no scratchpad byte, nothing of the matrix unit, the move unit, the image and the
under-tile and no write in flight; COR_FAULT and the abort requests stay too unless a bundle of MAIN takes the issue from a handler. -/
def Obligations.IssueFrame : Prop :=
  ∀ (i : Issue) (k : SlotK) (s t : State) (g : Bool), openSlot s i k = .ready t g →
    let u := s.run i.pos i.cc
    { t with tiles := u.tiles, aborts := u.aborts } = u ∧ (∀ q : Pos, q ≠ i.pos → t.tile q = u.tile q) ∧ t.ut i.pos = u.ut i.pos ∧
    (∀ x n, (t.core i.pos).readS x n = (u.core i.pos).readS x n ∧ (t.core i.pos).readA x n = (u.core i.pos).readA x n ∧
      (t.core i.pos).readP x n = (u.core i.pos).readP x n ∧ (t.core i.pos).readV x n = (u.core i.pos).readV x n) ∧
    (∀ a, memGet (t.core i.pos).spd.mem a = memGet (u.core i.pos).spd.mem a) ∧
    (t.core i.pos).mat = (u.core i.pos).mat ∧ (t.core i.pos).mov = (u.core i.pos).mov ∧ (t.core i.pos).pend = (u.core i.pos).pend ∧
    (t.core i.pos).img = (u.core i.pos).img ∧
    ((i.ctx ≠ .main ∨ (u.core i.pos).ctl.hand = .idle) → (t.core i.pos).ctl.fault = (u.core i.pos).ctl.fault ∧ t.aborts = u.aborts)

/-- A result entered with latency L in cycle t for an S register, on a core with nothing else in flight, is not seen in a cycle before t + L,
and from t + L on the register holds it, while every other S register keeps its value; debug code names MAIN's registers (log entry 10). -/
def Obligations.ResultsAppearAtLatency : Prop :=
  ∀ (c : Core) (x : Ctx) (r : Fin 32) (v : Word) (t l cc : Nat), c.pend = [] →
    (cc < t + l → ((c.later (t + l) (.s x r v)).commit cc).readS x r.val = c.readS x r.val) ∧
    (t + l ≤ cc → ((c.later (t + l) (.s x r v)).commit cc).readS x r.val = v ∧
      (∀ y n, (regCtx y ≠ regCtx x ∨ n % 32 ≠ r.val) → ((c.later (t + l) (.s x r v)).commit cc).readS y n = c.readS y n))

/-- At the issue of the end bundle of an active loop entry, the lowest that ends here: with a remaining count above 1 the count falls by 1 and
the entry's start bundle is next; with a count of at most 1 the entry is cleared and, where no higher entry ends here, the next bundle in
sequence is next. Either way the context issues again no earlier than the next cycle. -/
def Sys2Proof.Rules.LoopBackEdge : Prop :=
  ∀ (q : CtxState) (idx : BitVec 14) (cc : Nat) (e : Fin 4),
    q.loops[e].active = true → q.loops[e].last = idx → (∀ f : Fin 4, f < e → q.loops[f].active = false ∨ q.loops[f].last ≠ idx) →
    (q.loops[e].left.toNat > 1 →
      (q.seq idx cc).nextIdx = q.loops[e].start ∧ (q.seq idx cc).loops = q.loops.set e { q.loops[e] with left := q.loops[e].left - 1 }) ∧
    (q.loops[e].left.toNat ≤ 1 → (∀ f : Fin 4, e < f → q.loops[f].active = false ∨ q.loops[f].last ≠ idx) →
      (q.seq idx cc).nextIdx = idx + 1 ∧ (q.seq idx cc).loops = q.loops.set e {}) ∧
    (q.seq idx cc).nextCc = cc + 1

/-! ### The C slot (Table 6.3) -/

/-- Integer arithmetic of the C slot: 64-bit two's complement that wraps; MUL has latency 3, every other row 1. -/
def Sys2Proof.Rules.ScalarIntegerResults : Prop :=
  RowSS 0x01 .add 1 (fun a b => a + b) ∧ RowSS 0x02 .sub 1 (fun a b => a - b) ∧ RowSS 0x03 .and 1 (fun a b => a &&& b) ∧
  RowSS 0x04 .or 1 (fun a b => a ||| b) ∧ RowSS 0x05 .xor 1 (fun a b => a ^^^ b) ∧
  RowSS 0x06 .shl 1 (fun a b => a <<< (b.extractLsb' 0 6).toNat) ∧ RowSS 0x07 .shr 1 (fun a b => a >>> (b.extractLsb' 0 6).toNat) ∧
  RowSS 0x08 .sar 1 (fun a b => a.sshiftRight (b.extractLsb' 0 6).toNat) ∧ RowSS 0x09 .mul 3 (fun a b => a * b) ∧
  RowSS 0x0A .min 1 (fun a b => if a.toInt ≤ b.toInt then a else b) ∧ RowSS 0x0B .max 1 (fun a b => if a.toInt ≤ b.toInt then b else a) ∧
  RowSS 0x0C .minu 1 (fun a b => if a.toNat ≤ b.toNat then a else b) ∧ RowSS 0x0D .maxu 1 (fun a b => if a.toNat ≤ b.toNat then b else a)

/-- ADDI, MOVI, MOVHI, and SEL under a true guard: their results, visible in the next cycle. -/
def Sys2Proof.Rules.ScalarImmediateResults : Prop :=
  ∀ (i : Issue) (s t : State),
    let w := slotWord i.bundle .c
    let d := Fin.ofNat 32 (fD w)
    let imm := w.extractLsb' 24 32
    let S (r : Nat) := (t.core i.pos).readS i.ctx r
    (Issues .c 0x10 i s t → exec (.addi i) s = .next (t.later i 1 (.s i.ctx d (S (fA w) + imm.signExtend 64)))) ∧
    (Issues .c 0x11 i s t → exec (.movi i) s = .next (t.later i 1 (.s i.ctx d (imm.signExtend 64)))) ∧
    (Issues .c 0x12 i s t → exec (.movhi i) s = .next (t.later i 1 (.s i.ctx d (imm ++ (S (fD w)).truncate 32)))) ∧
    (Issues .c 0x34 i s t → exec (.sel i) s = .next (t.later i 1 (.s i.ctx d (S (fA w)))))

/-- Integer arithmetic, immediates and moves between S registers. -/
def Obligations.ScalarIntegerResults : Prop :=
  Sys2Proof.Rules.ScalarIntegerResults ∧ Sys2Proof.Rules.ScalarImmediateResults

/-- SEL under a false guard writes Sb to Sd. -/
def Sys2Proof.Rules.SelNeverSkips : Prop :=
  ∀ (i : Issue) (s t : State), slotValid i.bundle .c = true → opcode (slotWord i.bundle .c) = 0x34 → openSlot s i .c = .ready t false →
    let w := slotWord i.bundle .c
    exec (.sel i) s = .next (t.later i 1 (.s i.ctx (Fin.ofNat 32 (fD w)) ((t.core i.pos).readS i.ctx (fB w))))

/-- Comparisons of S registers (signed, unsigned, FP32) write a predicate, and PAND, POR, PXOR and PNOT combine predicates; each is visible in
the next cycle. -/
def Sys2Proof.Rules.PredicateResults : Prop :=
  RowPS 0x18 .cmpeq (fun a b => decide (a = b)) ∧ RowPS 0x19 .cmpne (fun a b => decide (a ≠ b)) ∧
  RowPS 0x1A .cmplt (fun a b => decide (a.toInt < b.toInt)) ∧ RowPS 0x1B .cmpltu (fun a b => decide (a.toNat < b.toNat)) ∧
  RowPS 0x1C .cmple (fun a b => decide (a.toInt ≤ b.toInt)) ∧ RowPS 0x1D .cmpleu (fun a b => decide (a.toNat ≤ b.toNat)) ∧
  RowPS 0x26 .fcmplt (fun a b => (dec32 (a.truncate 32)).lt (dec32 (b.truncate 32))) ∧
  RowPS 0x27 .fcmpeq (fun a b => (dec32 (a.truncate 32)).eq (dec32 (b.truncate 32))) ∧
  RowPS 0x28 .fcmple (fun a b => (dec32 (a.truncate 32)).lt (dec32 (b.truncate 32)) || (dec32 (a.truncate 32)).eq (dec32 (b.truncate 32))) ∧
  RowPP 0x30 .pand (fun a b => a && b) ∧ RowPP 0x31 .por (fun a b => a || b) ∧ RowPP 0x32 .pxor (fun a b => a != b) ∧
  (∀ i s t, Issues .c 0x33 i s t → exec (.pnot i) s = .next (t.later i 1
    (.p i.ctx (Fin.ofNat 8 (fD (slotWord i.bundle .c))) (!(t.core i.pos).readP i.ctx (fA (slotWord i.bundle .c))))))

/-- Comparisons and predicate logic write a predicate in the next cycle; SEL under a false guard writes Sb. -/
def Obligations.PredicateResults : Prop :=
  Sys2Proof.Rules.SelNeverSkips ∧ Sys2Proof.Rules.PredicateResults

/-- Scalar FP32 on bits [31:0]: FADD, FSUB and FMUL round the exact sum, difference or product once with latency 3, FFMA rounds the exact
product plus addend once with latency 4, FMIN and FMAX have latency 1; bits [63:32] of each result are 0. -/
def Sys2Proof.Rules.ScalarFloatResults : Prop :=
  RowFF 0x20 .fadd 3 (fun a b => rnd32 ((dec32 a).add (dec32 b))) ∧ RowFF 0x21 .fsub 3 (fun a b => rnd32 ((dec32 a).add (dec32 b).neg)) ∧
  RowFF 0x22 .fmul 3 (fun a b => rnd32 ((dec32 a).mul (dec32 b))) ∧ RowFF 0x24 .fmin 1 f32Min ∧ RowFF 0x25 .fmax 1 f32Max ∧
  (∀ i s t, Issues .c 0x23 i s t →
    let w := slotWord i.bundle .c
    let F (r : Nat) := dec32 (((t.core i.pos).readS i.ctx r).truncate 32)
    exec (.ffma i) s = .next (t.later i 4 (.s i.ctx (Fin.ofNat 32 (fD w)) ((rnd32 (((F (fA w)).mul (F (fB w))).add (F (fD w)))).zeroExtend 64))))

/-- The values of FMIN and FMAX: with a NaN operand the canonical NaN, else one of the operands: the smaller, or the larger, where one is
below the other, with −0 below +0. -/
def Sys2Proof.Rules.MinimumMaximum : Prop :=
  ∀ a b : F32,
    ((f32Nan a = true ∨ f32Nan b = true) → f32Min a b = 0x7FC00000 ∧ f32Max a b = 0x7FC00000) ∧
    (f32Nan a = false → f32Nan b = false → (f32Min a b = a ∨ f32Min a b = b) ∧ (f32Max a b = a ∨ f32Max a b = b) ∧
      ((dec32 a).lt (dec32 b) = true → f32Min a b = a ∧ f32Max a b = b) ∧ ((dec32 b).lt (dec32 a) = true → f32Min a b = b ∧ f32Max a b = a)) ∧
    f32Min 0x80000000 0 = 0x80000000 ∧ f32Min 0 0x80000000 = 0x80000000 ∧ f32Max 0x80000000 0 = 0 ∧ f32Max 0 0x80000000 = 0

/-- Results of the scalar FP32 rows FADD to FMAX, and the values of FMIN and FMAX with NaN and signed zeros. -/
def Obligations.ScalarFloatResults : Prop :=
  Sys2Proof.Rules.ScalarFloatResults ∧ Sys2Proof.Rules.MinimumMaximum

/-- AADDI adds the sign-extended immediate modulo 2^48, ATOS zero-extends an address register, STOA takes bits [47:0]; each is visible in the
next cycle. -/
def Sys2Proof.Rules.AddressRegisterResults : Prop :=
  ∀ (i : Issue) (s t : State),
    let w := slotWord i.bundle .c
    (Issues .c 0x38 i s t → exec (.aaddi i) s = .next (t.later i 1 (.a i.ctx (Fin.ofNat 16 (fD w))
      ((t.core i.pos).readA i.ctx (fA w) + (w.extractLsb' 24 32).signExtend 48)))) ∧
    (Issues .c 0x39 i s t → exec (.atos i) s = .next (t.later i 1 (.s i.ctx (Fin.ofNat 32 (fD w)) (((t.core i.pos).readA i.ctx (fA w)).zeroExtend 64)))) ∧
    (Issues .c 0x3A i s t → exec (.stoa i) s = .next (t.later i 1 (.a i.ctx (Fin.ofNat 16 (fD w)) (((t.core i.pos).readS i.ctx (fA w)).truncate 48))))

/-- CRR reads each control register of Table 5.3 zero-extended, CR_CYCLE of MAIN and of debug code without the cycles of a halt (log entry
27); CRW writes CR_VL (a value above 512 writes 512) and the issuing context's CR_PATIENCE. -/
def Sys2Proof.Rules.ControlRegisters : Prop :=
  ∀ (i : Issue) (s t : State),
    let w := slotWord i.bundle .c
    let n := (w.extractLsb' 24 32).toNat
    let v := (t.core i.pos).readS i.ctx (fA w)
    let c := t.core i.pos
    let rd (x : Nat) := exec (.crr i) s = .next (t.later i 1 (.s i.ctx (Fin.ofNat 32 (fD w)) (BitVec.ofNat 64 x)))
    (Issues .c 0x48 i s t →
      (n = 0 → rd c.desc.lt.toNat) ∧ (n = 1 → rd c.ctl.pound.toNat) ∧ 
      (n = 2 → (i.ctx = .hand ∨ i.ctx = .tow) → rd (min (i.cc - (t.ut i.pos).tick) (2 ^ 32 - 1))) ∧
      (n = 2 → i.ctx = .main → c.ctl.main ≠ .halted → rd (min (i.cc - (t.ut i.pos).tick - c.ctl.haltLost) (2 ^ 32 - 1))) ∧
      (n = 2 → i.ctx = .dbg → c.ctl.main = .halted →
        rd (min (i.cc - (t.ut i.pos).tick - (c.ctl.haltLost + (i.cc - max c.ctl.haltAt (t.ut i.pos).tick))) (2 ^ 32 - 1))) ∧
      (n = 3 → rd (ctxNum i.ctx).val) ∧ (n = 4 → rd (vat c.ctl.patience (ctxNum i.ctx)).toNat) ∧ (n = 5 → rd (statusCode (c.ctx i.ctx).sendStat)) ∧
      (n = 6 → rd (vat c.ctl.vl (ctxNum i.ctx)).toNat) ∧ (n = 7 → rd (if c.ctl.hwinOpen then (c.ctl.hwinEnd - i.cc) % 4096 else 0)) ∧
      (n = 8 → rd (min c.ctl.queue.length 255)) ∧ (n = 9 → rd c.ctl.lastStall.toNat) ∧
      (n = 10 → rd c.img.slack.toNat) ∧ (n = 11 → (i.ctx = .main ∨ i.ctx = .hand) → rd 0) ∧
      (n = 11 → (i.ctx = .tow ∨ i.ctx = .dbg) → rd c.ctl.mainFault.toNat) ∧ (n = 12 → rd (if c.desc.narrow then 1 else 0))) ∧
    (Issues .c 0x49 i s t →
      (n = 6 → exec (.crw i) s = .next (t.later i 1 (.vl i.ctx (BitVec.ofNat 10 (min v.toNat 512))))) ∧
      (n = 4 → exec (.crw i) s = .next (t.later i 1 (.patience i.ctx (v.truncate 32)))))

/-- Results of AADDI, ATOS and STOA, and the control registers that CRR reads and CRW writes. -/
def Obligations.AddressAndControlRegisters : Prop :=
  Sys2Proof.Rules.AddressRegisterResults ∧ Sys2Proof.Rules.ControlRegisters

/-- Scalar loads and stores through the VX and VY ports: base latency 3 or 2, plus the wheel wait, plus the chunks touched less one. A load of
words that are clean at its port cycle writes Sd, zero-extended, with what the scratchpad holds then (log entry 25) and counts what the read
met; a store's bytes land with its latency; the port is taken. -/
def Sys2Proof.Rules.ScalarLoadsAndStores : Prop :=
  ∀ (i : Issue) (s t : State) (a n : Nat) (op : Nat),
    let w := slotWord i.bundle .c
    effAddr ((t.core i.pos).readA i.ctx (fA w)) (w.extractLsb' 24 32).toInt n n = some a → Issues .c op i s t →
    let ld := t.access i.pos 3 i.cc [(a, n)]
    let st := t.access i.pos 4 i.cc [(a, n)]
    let r := ld.1.modSpd i.pos fun d => d.meet 3 a n
    let d := (t.core i.pos).spdAt (i.cc + ld.2.1)
    let ldTo := r.later i (3 + ld.2.1 + ld.2.2 - 1) (.s i.ctx (Fin.ofNat 32 (fD w)) (BitVec.ofNat 64 (memNat d.mem a n)))
    let stTo := st.1.later i (2 + st.2.1 + st.2.2 - 1) (.mem a (natBytes ((t.core i.pos).readS i.ctx (fD w)).toNat n))
    (d.badIn a n = [] →
      (op = 0x40 → n = 4 → exec (.ld32 i) s = .next ldTo) ∧ (op = 0x41 → n = 8 → exec (.ld64 i) s = .next ldTo)) ∧
    (op = 0x42 → n = 4 → exec (.st32 i) s = .next stTo) ∧ (op = 0x43 → n = 8 → exec (.st64 i) s = .next stTo)

/-- A scalar load that meets an uncorrectable word enters no result: its context is stopped, and COR_FAULT holds SPD_ECC, the C slot and the
bundle's index. -/
def Sys2Proof.Rules.LoadOfBadWordFaults : Prop :=
  ∀ (i : Issue) (s t : State) (op n a : Nat) (c : Issue → Instr),
    let w := slotWord i.bundle .c
    (op, n, c) ∈ [(0x40, 4, Instr.ld32), (0x41, 8, Instr.ld64)] →
    effAddr ((t.core i.pos).readA i.ctx (fA w)) (w.extractLsb' 24 32).toInt n n = some a → Issues .c op i s t →
    ((t.core i.pos).spdAt (i.cc + (t.access i.pos 3 i.cc [(a, n)]).2.1)).badIn a n ≠ [] →
    ∃ v, exec (c i) s = .next v ∧ (v.core i.pos).ctl.fault.code = 0x10 ∧ (v.core i.pos).ctl.fault.slots = 1 ∧
      (v.core i.pos).ctl.fault.index = i.idx ∧ vat (v.core i.pos).ctl.stopped (ctxNum i.ctx) = true ∧ (v.core i.pos).pend = (t.core i.pos).pend

/-- Scalar loads and stores, and the fault of a load that meets an uncorrectable word. -/
def Obligations.ScalarLoadsAndStores : Prop :=
  Sys2Proof.Rules.ScalarLoadsAndStores ∧ Sys2Proof.Rules.LoadOfBadWordFaults

/-- BR, BRI and CALL: the context issues its next bundle, the target, at t + 3; CALL writes the index after its own to the link register. -/
def Sys2Proof.Rules.BranchesTakeThreeCycles : Prop :=
  ∀ (i : Issue) (s t : State),
    let w := slotWord i.bundle .c
    let jump (v : State) (x : BitVec 14) : State := v.modCore i.pos fun c => c.modCtx i.ctx fun q => { q with nextIdx := x, nextCc := i.cc + 3 }
    (Issues .c 0x50 i s t → exec (.br i) s = .next (jump t (w.extractLsb' 12 14))) ∧
    (Issues .c 0x51 i s t → exec (.bri i) s = .next (jump t (((t.core i.pos).readS i.ctx (fA w)).truncate 14))) ∧
    (Issues .c 0x52 i s t → exec (.call i) s = .next (jump (t.later i 1 (.s i.ctx (Fin.ofNat 32 (fld w 26 6)) (BitVec.ofNat 64 (i.idx.toNat + 1)))) (w.extractLsb' 12 14)))

/-- LOOP writes its entry with the count of Sa and the context issues the start bundle at t + 3; with a count of 0 it clears the entry and
issues the bundle after the end at t + 3. -/
def Sys2Proof.Rules.LoopEntry : Prop :=
  ∀ (i : Issue) (s t : State), Issues .c 0x53 i s t →
    let w := slotWord i.bundle .c
    let n := (t.core i.pos).readS i.ctx (fA w)
    let start := i.idx + 1
    let last := start + BitVec.ofNat 14 (fld w 24 12)
    let k := Fin.ofNat 4 (fld w 12 2)
    exec (.loop i) s = .next (t.modCore i.pos fun c => c.modCtx i.ctx fun q =>
      { q with
        loops := q.loops.set k (if n = 0 then {} else { active := true, start := start, last := last, left := n })
        nextIdx := if n = 0 then last + 1 else start, nextCc := i.cc + 3 })

/-- Loops and branches: where the context issues next, and what the loop entries become. -/
def Obligations.LoopsAndBranches : Prop :=
  Sys2Proof.Rules.LoopBackEdge ∧ Sys2Proof.Rules.LoopEntry ∧ Sys2Proof.Rules.BranchesTakeThreeCycles

/-- HWIN n: MAIN issues next at t + 1 + n, and the handler window is open until then if n > 0. HRET: HAND is idle with its loop entries cleared
and no invocation current, and the berth whose head is still the delivered barge that this invocation handles loses it, every other berth
staying as it is. -/
def Sys2Proof.Rules.HandlerWindowAndReturn : Prop :=
  ∀ (i : Issue) (s t : State),
    let w := slotWord i.bundle .c
    (Issues .c 0x54 i s t → ∃ v, exec (.hwin i) s = .next v ∧ (v.core i.pos).main.nextCc = i.cc + 1 + fld w 12 12 ∧
      (v.core i.pos).ctl.hwinEnd = i.cc + 1 + fld w 12 12 ∧ ((v.core i.pos).ctl.hwinOpen = true ↔ 0 < fld w 12 12) ∧
      (v.core i.pos).ctl.main = (t.core i.pos).ctl.main) ∧
    (Issues .c 0x56 i s t → ∃ v, exec (.hret i) s = .next v ∧ (v.core i.pos).ctl.hand = .idle ∧ (v.core i.pos).ctl.curInv = none ∧
      (v.core i.pos).ctl.handLast = i.cc ∧ (v.core i.pos).hand.loops = Vector.replicate 4 {} ∧
      (∀ b : Fin 64, (∀ y, (t.core i.pos).ctl.curInv = some y → y.berth ≠ b) → (v.ut i.pos).berths[b] = (t.ut i.pos).berths[b]) ∧
      (∀ y e r, (t.core i.pos).ctl.curInv = some y → (t.berth i.pos y.berth).queue = e :: r → e.idx = y.entry → e.posted = true →
        (t.berth i.pos y.berth).gen = y.gen → (v.berth i.pos y.berth).queue = r.dropWhile BEntry.voided))

/-- PEND of MAIN: the resume bundle is noted, the keeper stops in the same cycle, and move and matrix operations go on. A core that has no
pound to catch up waits at stall point 5 for the gate tick with its pound ended; a late one that has goes on in the next cycle at the resume
bundle with the next pound of a slice. PEND of service code ends it; in debug code it changes nothing (log entry 10). -/
def Sys2Proof.Rules.PendEndsThePound : Prop :=
  ∀ (i : Issue) (s t : State), Issues .c 0x55 i s t →
    let w := slotWord i.bundle .c
    (i.ctx = .main → ∃ v, exec (.pend i) s = .next v ∧ (v.core i.pos).ctl.resume = w.extractLsb' 12 14 ∧
      (v.core i.pos).mat.keeper.filling = false ∧ (v.core i.pos).mat.keeper.ramp = (0, 0, 0) ∧
      (v.core i.pos).mov = (t.core i.pos).mov ∧ (v.core i.pos).mat.ops = (t.core i.pos).mat.ops ∧ (v.core i.pos).mat.rows = (t.core i.pos).mat.rows ∧
      (t.catchUp i.pos (bit w 26) = none → (v.core i.pos).ctl.main = .stalled 5 ∧ (v.core i.pos).ctl.pended = true ∧
        (v.core i.pos).ctl.stallStart = i.cc ∧ (v.core i.pos).ctl.lateRun = false) ∧
      (∀ j, t.catchUp i.pos (bit w 26) = some j → (v.core i.pos).ctl.main = .issuing ∧ (v.core i.pos).ctl.pended = false ∧
        (v.core i.pos).ctl.pound = BitVec.ofNat 32 j ∧ (v.core i.pos).main.nextIdx = w.extractLsb' 12 14 ∧ (v.core i.pos).main.nextCc = i.cc + 1)) ∧
    (i.ctx = .tow → exec (.pend i) s = .next (t.modCtl i.pos fun k => { k with towBusy := false })) ∧
    (i.ctx = .dbg → exec (.pend i) s = .next t)

/-- HWIN, HRET and PEND: what each does when it issues with a true guard. -/
def Obligations.PoundEndAndHandlerReturn : Prop :=
  Sys2Proof.Rules.HandlerWindowAndReturn ∧ Sys2Proof.Rules.PendEndsThePound

/-! ### The V slot (Table 6.4) -/

/-- Lane-wise rows of the V slot, VADD to VSEL but the reductions and conversions, and VEXP2 to VTANH: lanes 0 to CR_VL − 1 of Vd take the
row's function of the operands' lanes after the row's latency, lanes above keep their values, and with CR_VL 0 nothing changes. The values
of the transcendental functions are the model's within Table 6.5 (log entry 4). -/
def Obligations.VectorLaneResults : Prop :=
  RowV2 0x01 .vadd 4 f32Add ∧ RowV2 0x02 .vsub 4 f32Sub ∧ RowV2 0x03 .vmul 4 f32Mul ∧
  RowV2 0x05 .vmax 4 f32Max ∧ RowV2 0x06 .vmin 4 f32Min ∧
  RowV1 0x07 .vabs 2 (fun x => x &&& 0x7FFFFFFF) ∧ RowV1 0x08 .vneg 2 (fun x => x ^^^ 0x80000000) ∧ RowV1 0x09 .vmov 2 (fun x => x) ∧
  RowV2 0x0B .vcmplt 2 (fun a b => if (dec32 a).lt (dec32 b) then 0x3F800000 else 0) ∧
  RowV2 0x0C .vcmpeq 2 (fun a b => if (dec32 a).eq (dec32 b) then 0x3F800000 else 0) ∧
  RowV1 0x18 .vexp2 12 f32Exp2 ∧ RowV1 0x19 .vlog2 12 f32Log2 ∧ RowV1 0x1A .vrcp 12 f32Rcp ∧ RowV1 0x1B .vrsqrt 12 f32Rsqrt ∧
  RowV1 0x1C .vtanh 12 f32Tanh ∧
  LanesResult 0x0A .vbcast 2 (fun w t i => List.replicate (vlOf t i) (((t.core i.pos).readS i.ctx (fB w)).truncate 32)) ∧
  LanesResult 0x04 .vfma 5 (fun w t i => List.zipWith (fun (x : F32 × F32) z => f32Fma x.1 x.2 z)
    ((lanesOf t i (fA w)).zip (lanesOf t i (fB w))) (lanesOf t i (fC w))) ∧
  LanesResult 0x0D .vsel 2 (fun w t i => List.zipWith (fun (x : F32 × F32) z => if z.toNat % 2 ^ 31 = 0 then x.2 else x.1)
    ((lanesOf t i (fA w)).zip (lanesOf t i (fB w))) (lanesOf t i (fC w)))

/-- The special values of Table 6.5 for VEXP2, VLOG2, VRCP, VRSQRT and VTANH, each at the operands named here, and the canonical NaN for every
NaN operand. -/
def Sys2Proof.Rules.TranscendentalSpecialValues : Prop :=
  (∀ x : F32, f32Nan x = true → f32Exp2 x = 0x7FC00000 ∧ f32Log2 x = 0x7FC00000 ∧ f32Rcp x = 0x7FC00000 ∧ f32Rsqrt x = 0x7FC00000 ∧
    f32Tanh x = 0x7FC00000) ∧
  f32Exp2 0xFF800000 = 0 ∧ f32Exp2 0x43000000 = 0x7F800000 ∧ f32Exp2 0xC3160001 = 0 ∧
  f32Log2 0 = 0xFF800000 ∧ f32Log2 0x80000000 = 0xFF800000 ∧ f32Log2 0x7F800000 = 0x7F800000 ∧ f32Log2 0xBF800000 = 0x7FC00000 ∧
  f32Rcp 0 = 0x7F800000 ∧ f32Rcp 0x80000000 = 0xFF800000 ∧ f32Rcp 0x7F800000 = 0 ∧ f32Rcp 0xFF800000 = 0x80000000 ∧
  f32Rsqrt 0 = 0x7F800000 ∧ f32Rsqrt 0x80000000 = 0xFF800000 ∧ f32Rsqrt 0x7F800000 = 0 ∧ f32Rsqrt 0xBF800000 = 0x7FC00000 ∧
  f32Tanh 0x7F800000 = 0x3F800000 ∧ f32Tanh 0xFF800000 = 0xBF800000 ∧ f32Tanh 0 = 0 ∧ f32Tanh 0x80000000 = 0x80000000

/-- VRSUM and VRMAX reduce in a tree of halves, 256 down to 1, with lanes at and above CR_VL −0 for a sum and −∞ for a maximum, and every lane
of Vd takes the result; VCVTI and VCVTO write the whole of Vd with the converted elements, whose rounding is the model's function. With
CR_VL 0 no register is written (Table 5.14). -/
def Sys2Proof.Rules.VectorReductionsAndConversions : Prop :=
  let pad (fill : F32) (w : BitVec 64) (t : State) (i : Issue) := lanesOf t i (fA w) ++ List.replicate (512 - vlOf t i) fill
  let half (op : F32 → F32 → F32) (l : List F32) (h : Nat) := List.zipWith op (l.take h) (l.drop h)
  let tree (op : F32 → F32 → F32) (l : List F32) := [256, 128, 64, 32, 16, 8, 4, 2, 1].foldl (half op) l
  let every (l : List F32) (fill : F32) := ofLanes (List.replicate 512 (l.headD fill))
  RegResult 0x10 .vrsum 14 (fun w t i => every (tree f32Add (pad 0x80000000 w t i)) 0x80000000) ∧
  RegResult 0x11 .vrmax 10 (fun w t i => every (tree f32Max (pad 0xFF800000 w t i)) 0xFF800000) ∧
  RegResult 0x20 .vcvti 8 (fun w t i => vcvtInto (vFmt w) (vlOf t i) ((List.range (vlOf t i)).map fun e =>
    if vFmt2 w = 2 then ffDecode bf16 (packedElem 2 ((t.core i.pos).readV i.ctx (fA w)) e) else dec32 (lane ((t.core i.pos).readV i.ctx (fA w)) e))) ∧
  RegResult 0x21 .vcvto 6 (fun w t i =>
    let vs := (List.range (vlOf t i)).map (packedVal (vFmt w) ((t.core i.pos).readV i.ctx (fA w)))
    if vFmt2 w = 2 then packReg 2 (vs.map (ffRound bf16)) [] else ofLanes (vs.map rnd32))

/-- A block of elements with a NaN or an infinity among them, converted to a block format of codes 5 to 10, has the scale 0xFF and elements 0. -/
def Sys2Proof.Rules.BlockConversion : Prop :=
  ∀ (f : Nat) (vs : List FV), 5 ≤ f → f ≤ 10 → vs.any FV.special = true →
    (blockEncode f vs).1 = 0xFF ∧ (blockEncode f vs).2 = vs.map fun _ => 0

/-- Special values of the transcendental rows, reductions and conversions, and blocks with a special value. -/
def Obligations.VectorSpecials : Prop :=
  Sys2Proof.Rules.TranscendentalSpecialValues ∧ Sys2Proof.Rules.VectorReductionsAndConversions ∧ Sys2Proof.Rules.BlockConversion

/-- Vector loads and stores: the bytes move as one access of the VX or VY port, scales after elements, with base latency 3 or 2, plus the
wheel wait, plus the chunks touched less one. A load whose words are clean takes each chunk as the scratchpad holds it at its port cycle (log
entry 25); one that meets an uncorrectable word enters no result and stops its context with SPD_ECC. With CR_VL 0 nothing changes. -/
def Obligations.VectorLoadsAndStores : Prop :=
  ∀ (i : Issue) (s t : State),
    let w := slotWord i.bundle .v
    let n := vlOf t i
    let d := Fin.ofNat 64 (fD w)
    let c := t.core i.pos
    (∀ (op : Nat) (x : Issue → Instr), (op, x) ∈ [(0x28, Instr.vld), (0x29, Instr.vst), (0x2A, Instr.vldb), (0x2B, Instr.vstb)] →
      Issues .v op i s t → n = 0 → exec (x i) s = .next t) ∧
    (∀ a, n ≠ 0 → effAddr (c.readA i.ctx (fA w)) (vmOff w) (4 * n) 64 = some a →
      (Issues .v 0x28 i s t →
        let x := t.access i.pos 3 i.cc [(a, 4 * n)]
        let at_ := i.cc + x.2.1
        ((c.spdAt at_).badIn a (4 * n) = [] →
          exec (.vld i) s = .next ((x.1.modSpd i.pos fun m => m.meet 3 a (4 * n)).later i (3 + x.2.1 + x.2.2 - 1)
            (.v i.ctx d (laneMask n) (BitVec.ofNat 16384 (bytesNat (c.portRead at_ a (4 * n))))))) ∧
        ((c.spdAt at_).badIn a (4 * n) ≠ [] → ∃ v, exec (.vld i) s = .next v ∧ (v.core i.pos).ctl.fault.code = 0x10 ∧
          (v.core i.pos).ctl.fault.slots = 2 ∧ vat (v.core i.pos).ctl.stopped (ctxNum i.ctx) = true ∧ (v.core i.pos).pend = c.pend)) ∧
      (Issues .v 0x29 i s t →
        let x := t.access i.pos 4 i.cc [(a, 4 * n)]
        exec (.vst i) s = .next (x.1.later i (2 + x.2.1 + x.2.2 - 1) (.mem a (natBytes (c.readV i.ctx (fD w)).toNat (4 * n)))))) ∧
    (∀ e k : Nat × Nat, n ≠ 0 → vbRuns i t = some (e, k) →
      (Issues .v 0x2A i s t →
        let x := t.access i.pos 3 i.cc [e, k]
        let at_ := i.cc + x.2.1
        ((c.spdAt at_).badIn e.1 e.2 = [] → (c.spdAt at_).badIn k.1 k.2 = [] →
          exec (.vldb i) s = .next ((x.1.modSpd i.pos fun m => m.meetRuns 3 [e, k]).later i (3 + x.2.1 + x.2.2 - 1)
            (.v i.ctx d fullMask (BitVec.ofNat 16384 (bytesNat (c.portRead at_ e.1 e.2) +
              2 ^ (8 * 1536) * bytesNat (c.portRead (at_ + chunksOf e.1 e.2) k.1 k.2)))))) ∧
        (((c.spdAt at_).badIn e.1 e.2 ≠ [] ∨ (c.spdAt at_).badIn k.1 k.2 ≠ []) → ∃ v, exec (.vldb i) s = .next v ∧
          (v.core i.pos).ctl.fault.code = 0x10 ∧ (v.core i.pos).ctl.fault.slots = 2 ∧
          vat (v.core i.pos).ctl.stopped (ctxNum i.ctx) = true ∧ (v.core i.pos).pend = c.pend)) ∧
      (Issues .v 0x2B i s t →
        let x := t.access i.pos 4 i.cc [e, k]
        let v := (c.readV i.ctx (fD w)).toNat
        exec (.vstb i) s = .next ((x.1.later i (2 + x.2.1 + x.2.2 - 1) (.mem e.1 (natBytes v e.2))).later i (2 + x.2.1 + x.2.2 - 1)
          (.mem k.1 (natBytes (v >>> (8 * 1536)) k.2)))))

/-! ### The M slot (Table 6.6) -/

/-- MCONF's configuration is due at t + 2. MCHKV and MFLAGS return the row's check value, or its flags and count, after 4 cycles. A load, step
or drain with a zero field does nothing but signal. Each of them signals the chamber it names, MCONF in cycle t + 3, MCHKV and MFLAGS in
t + 5, one with a zero field in t + 1. -/
def Sys2Proof.Rules.MatrixSmallOperations : Prop :=
  ∀ (i : Issue) (s t : State),
    let w := slotWord i.bundle .m
    let sw := (t.core i.pos).readS i.ctx (mC w)
    let m := (t.core i.pos).mat
    let cf := m.confAt i.cc
    let signal (v : State) (c : Nat) : State := v.mSignal i.pos c (mCh w)
    (∀ c, Issues .m 0x01 i s t → mconfOf sw = some c →
      exec (.mconf i) s = .next (signal (t.modMat i.pos fun m => { m with conf := cf, confDue := some (i.cc + 2, c) }) (i.cc + 3))) ∧
    (Issues .m 0x05 i s t → exec (.mchkv i) s = .next (signal (t.later i 4 (.s i.ctx (Fin.ofNat 32 (mC w)) ((m.row cf.isInt (mOpBits w)).chk cf.isInt))) (i.cc + 5))) ∧
    (Issues .m 0x06 i s t →
      let r := m.row cf.isInt (mOpBits w)
      exec (.mflags i) s = .next (signal (t.later i 4 (.s i.ctx (Fin.ofNat 32 (mC w))
        (put64 (if r.inexact then 1 else 0) 0 1 ||| put64 (if r.ovf then 1 else 0) 1 1 ||| put64 (min r.n 4095) 2 12))) (i.cc + 5))) ∧
    (Issues .m 0x02 i s t → mZero 2 sw = true → exec (.mload i) s = .next (signal t (i.cc + 1))) ∧
    (Issues .m 0x03 i s t → mZero 3 sw = true → exec (.mstep i) s = .next (signal t (i.cc + 1))) ∧
    (Issues .m 0x04 i s t → mZero 4 sw = true → exec (.mdrain i) s = .next (signal t (i.cc + 1)))

/-- MLOAD whose words are clean puts their elements and scales into the submatrices it names of the shadow plane, which keeps the others only
where it held a load of this format and mode (log entry 26) and is ready no earlier than after the port's wait, its chunks and 8 cycles, and
exactly then with no operation in flight; the active plane and every accumulator row keep their contents. One that meets an uncorrectable
word loads nothing and ends there. -/
def Sys2Proof.Rules.MloadFillsShadow : Prop :=
  ∀ (i : Issue) (s t u : State), Issues .m 0x02 i s t →
    let w := slotWord i.bundle .m
    let sw := (t.core i.pos).readS i.ctx (mC w)
    let c := (t.core i.pos).mat.confAt i.cc
    let f := c.wf.toNat
    let e := (((t.core i.pos).readA i.ctx (mA w)).toNat, cdiv (mlNq sw * mlN sw * mlK sw * fmtBits f) 8)
    let b := (((t.core i.pos).readA i.ctx (mB w)).toNat, mlNq sw * mlN sw * blocksOf f (mlK sw))
    let x := t.access i.pos 1 i.cc (if fmtBlock f then [e, b] else [e])
    let sh := (t.core i.pos).mat.shadow
    mZero 2 sw = false →
    (readTwo i 1 (i.cc + x.2.1) e b x.1 = (u, none) → exec (.mload i) s = .next u ∧ (u.core i.pos).mat = (t.core i.pos).mat) ∧
    ∀ es cs : List Byte, readTwo i 1 (i.cc + x.2.1) e b x.1 = (u, some (es, cs)) →
    ∃ v, exec (.mload i) s = .next v ∧ (v.core i.pos).mat.shadow.held = true ∧ (v.core i.pos).mat.shadow.fmt = c.wf ∧
      (v.core i.pos).mat.shadow.mode = c.mode ∧
      (v.core i.pos).mat.shadow.subs = loadSubs f (mlK sw) (mlN sw) (mlQ0 sw) (mlNq sw) es cs
        (if sh.held = true ∧ sh.fmt = c.wf ∧ sh.mode = c.mode then sh.subs else []) ∧
      (∃ r, (v.core i.pos).mat.shadow.readyAt = some r ∧ i.cc + x.2.1 + x.2.2 + 8 ≤ r) ∧
      ((t.core i.pos).mat.ops = [] → (v.core i.pos).mat.shadow.readyAt = some (i.cc + x.2.1 + x.2.2 + 8)) ∧
      (v.core i.pos).mat.active = (t.core i.pos).mat.active ∧ (v.core i.pos).mat.rows = (t.core i.pos).mat.rows

/-- MSTEP whose words are clean enters an operation that writes one accumulator row after another from the base row on, and finishes one
pipeline length after its last step is fed, the feed staying occupied for one step interval more. With SWAP it exchanges the planes, without
SWAP both stay; submatrices of the plane that no load has written take free weights (log entry 26). One that meets an uncorrectable word enters
nothing and ends there. -/
def Sys2Proof.Rules.MstepRunsAgainstActive : Prop :=
  ∀ (i : Issue) (s t u : State), Issues .m 0x03 i s t →
    let w := slotWord i.bundle .m
    let sw := (t.core i.pos).readS i.ctx (mC w)
    let c := (t.core i.pos).mat.confAt i.cc
    let af := c.af.toNat
    let e := (((t.core i.pos).readA i.ctx (mA w)).toNat, cdiv (msC sw * (c.vecs * msK sw * fmtBits af)) 8)
    let b := (((t.core i.pos).readA i.ctx (mB w)).toNat, msC sw * c.vecs * blocksOf af (msK sw))
    let x := t.access i.pos 0 i.cc [e]
    let m := (t.core i.pos).mat
    let from_ := if bit w 42 then m.shadow else m.active
    mZero 3 sw = false →
    (readTwo i 0 (i.cc + x.2.1) e b x.1 = (u, none) → exec (.mstep i) s = .next u ∧ (u.core i.pos).mat = m) ∧
    ∀ es cs : List Byte, readTwo i 0 (i.cc + x.2.1) e b x.1 = (u, some (es, cs)) →
    ∃ v o z, exec (.mstep i) s = .next v ∧ (v.core i.pos).mat.ops = m.ops ++ [o] ∧ o.kind = 3 ∧ o.start = i.cc ∧
      o.chamber = mCh w ∧ o.finish + c.step = (v.core i.pos).mat.feedEnd + c.lstep ∧
      o.writes.map MWrite.row = List.range' (msBase sw) (msC sw * modeRps c.mode) ∧
      (unfilled c.mode from_.subs = false → z = from_.subs) ∧ (v.core i.pos).mat.active = { from_ with subs := z } ∧
      (bit w 42 = true → (v.core i.pos).mat.lastSwap = some i.cc ∧ (v.core i.pos).mat.shadow = { m.active with readyAt := none }) ∧
      (bit w 42 = false → (v.core i.pos).mat.shadow = m.shadow)

/-- MDRAIN with m rows enters a drain from its first row in its format that finishes 8 + w × m + 6 cycles after t and its wheel wait, w being 2
for a 32-bit format and else 1; no row changes yet. -/
def Sys2Proof.Rules.MdrainEntersDrain : Prop :=
  ∀ (i : Issue) (s t : State), Issues .m 0x04 i s t →
    let w := slotWord i.bundle .m
    let sw := (t.core i.pos).readS i.ctx (mC w)
    let f := mOpBits w
    let n := if (t.core i.pos).desc.narrow then 480 else 512
    let e := (((t.core i.pos).readA i.ctx (mA w)).toNat, mdM sw * n * fmtBits f / 8)
    let b := (((t.core i.pos).readA i.ctx (mB w)).toNat, mdM sw * n / 32)
    let x := t.access i.pos 2 i.cc (if f = 3 then [e, b] else [e])
    let wd := if fmtBits f = 32 then 2 else 1
    mZero 4 sw = false →
    ∃ v o d, exec (.mdrain i) s = .next v ∧ (v.core i.pos).mat.ops = (t.core i.pos).mat.ops ++ [o] ∧ o.kind = 4 ∧ o.drain = some d ∧
      o.finish = i.cc + x.2.1 + 8 + wd * mdM sw + 6 ∧ d.first = mdFirst sw ∧ d.m = mdM sw ∧ d.clear = mdClear sw ∧ d.fmt = f ∧
      (v.core i.pos).mat.rows = (t.core i.pos).mat.rows

/-- MCONF, MLOAD, MSTEP, MDRAIN, MCHKV and MFLAGS: what each enters or changes at issue. -/
def Obligations.MatrixInstructions : Prop :=
  Sys2Proof.Rules.MatrixSmallOperations ∧ Sys2Proof.Rules.MloadFillsShadow ∧ Sys2Proof.Rules.MstepRunsAgainstActive ∧ Sys2Proof.Rules.MdrainEntersDrain

/-! ### The X slot (Table 6.8) -/

/-- SWAIT, STEST, RECV and CTEST write registers from the status slot, the berth's head entry and the chamber, and a CWAIT that issues writes
nothing; a look at a tile chamber notes its cycle (log entry 98); nothing else changes. -/
def Sys2Proof.Rules.WaitsAndTests : Prop :=
  ∀ (i : Issue) (s t : State),
    let w := slotWord i.bundle .x
    let q := t.slot i.pos (xSlot w)
    let S (v : State) (l r : Nat) (x : Word) : State := v.later i l (.s i.ctx (Fin.ofNat 32 r) x)
    let c := (t.ut i.pos).chamber ((xChamber w).toNat % 2048)
    (Issues .x 0x02 i s t → exec (.swait i) s = .next (S t 1 (xA w) (BitVec.ofNat 64 (statusCode q.status)))) ∧
    (Issues .x 0x03 i s t → exec (.stest i) s = .next (S t 1 (xA w)
      (BitVec.ofNat 64 (statusCode q.status + if q.busy then 256 else 0)))) ∧
    (∀ e r, Issues .x 0x0B i s t → (t.berth i.pos (xBerth w)).queue = e :: r →
      exec (.recv i) s = .next (S (t.later i 2 (.a i.ctx (Fin.ofNat 16 (xA w))
          (BitVec.ofNat 48 ((t.berth i.pos (xBerth w)).ring.toNat + e.idx * (t.berth i.pos (xBerth w)).entryBytes + 64))))
        2 (xB w) (put64 (fld e.hdr.w1 8 13) 0 13 ||| put64 (fld e.hdr.w1 0 7) 13 7 ||| put64 (fld e.hdr.w0 21 32) 20 32))) ∧
    let noted : State := t.modCtl i.pos fun k => { k with probed := some i.cc }
    (Issues .x 0x1A i s t → exec (.cwait i) s = .next (if xCn w then t else noted)) ∧
    (Issues .x 0x1B i s t → exec (.ctest i) s = .next (S noted 2 (xA w)
      (c.count.zeroExtend 64 ||| if c.target.toNat ≤ c.count.toNat then 0x100000000 else 0)))

/-- BPOP consumes the head entry of a ring whose head is delivered and not a handler's, voided entries behind it included, and else changes
nothing; CARM enters an ARM of the tile's chamber for t + 2 or sends a Canal chamber's to LH-C; CSIG to a chamber of the own LT enters a
SIGNAL for t + 1 and has the outcome DONE, to any other chamber it sends the SIGNAL, and with an address of another class it completes with
ILLEGAL_DESCRIPTOR. -/
def Sys2Proof.Rules.PopArmSignal : Prop :=
  ∀ (i : Issue) (s t : State),
    let w := slotWord i.bundle .x
    let b := t.berth i.pos (xBerth w)
    let a := (t.core i.pos).readS i.ctx (xA w)
    let n := ((t.core i.pos).readS i.ctx (xB w)).extractLsb' 0 32
    (∀ e r, Issues .x 0x0C i s t → b.queue = e :: r → e.posted = true → e.whole = true → toHandler (t.core i.pos) e.hdr = false →
      ∃ v, exec (.bpop i) s = .next v ∧ v = t.modBerth i.pos (xBerth w) (fun _ => (v.berth i.pos (xBerth w))) ∧
        (v.berth i.pos (xBerth w)).queue = r.dropWhile BEntry.voided ∧
        (b.entries ≠ 0 → (v.berth i.pos (xBerth w)).head = (b.head + (b.queue.length - (r.dropWhile BEntry.voided).length)) % b.entries)) ∧
    ((∀ e r, b.queue = e :: r → e.posted = false ∨ e.whole = false ∨ toHandler (t.core i.pos) e.hdr = true) → Issues .x 0x0C i s t →
      exec (.bpop i) s = .next (t.modBerth i.pos (xBerth w) fun b => b)) ∧
    (Issues .x 0x18 i s t → xCn w = false → exec (.carm i) s = .next (t.later i 2 (.arm (Fin.ofNat 2048 (xChamber w).toNat) n))) ∧
    (Issues .x 0x18 i s t → xCn w = true → exec (.carm i) s = .next (t.emit { t.fromCtx i.pos i.ctx 0xD 0 with
      dkind := 2, dest := 1, addr := 0x300FE00000000000 ||| (xChamber w).zeroExtend 64, length := 4, payload := natBytes n.toNat 4 })) ∧
    (Issues .x 0x19 i s t → (t.slot i.pos (xSlot w)).busy = false → addrClass a ≠ 3 →
      exec (.csig i) s = .next (t.endAtIssue i.pos (xSlot w) (xChOpt w) .illegalDescriptor)) ∧
    (Issues .x 0x19 i s t → (t.slot i.pos (xSlot w)).busy = false → addrClass a = 3 → addrLt a < 120 → (t.core i.pos).desc.lt.toNat = addrLt a →
      ∃ v o, exec (.csig i) s = .next v ∧ (v.slot i.pos (xSlot w)).busy = true ∧ (v.slot i.pos (xSlot w)).op = some o ∧ o.outcome = some .done ∧
        (v.core i.pos).pend = ((t.core i.pos).later (i.cc + 1) (.sig (Fin.ofNat 2048 (addrChamber a)) n.toNat)).pend ∧ v.net = t.net) ∧
    (Issues .x 0x19 i s t → (t.slot i.pos (xSlot w)).busy = false → addrClass a = 3 → ¬(addrLt a < 120 ∧ (t.core i.pos).desc.lt.toNat = addrLt a) →
      ∃ v o q, exec (.csig i) s = .next v ∧ (v.slot i.pos (xSlot w)).busy = true ∧ (v.slot i.pos (xSlot w)).op = some o ∧ o.outcome = none ∧
        o.left = 1 ∧ v.net = t.net ++ [q] ∧ q.type = 7 ∧ q.arg = n ∧ q.addr = a ∧ q.id = t.nextPkt ∧
        (v.core i.pos).pend = (t.core i.pos).pend)

/-- A move instruction that names a busy slot changes nothing but COR_MOVE_STAT, which counts the refusal and holds the slot and
ILLEGAL_DESCRIPTOR. -/
def Sys2Proof.Rules.BusySlotRefuses : Prop :=
  ∀ (i : Issue) (s t : State) (op : Nat) (c : Issue → Instr),
    let k := xSlot (slotWord i.bundle .x)
    (op, c) ∈ [(0x01, Instr.strm), (0x04, Instr.rwr), (0x05, Instr.rrd), (0x08, Instr.send), (0x09, Instr.sendn), (0x0A, Instr.sendc),
      (0x0D, Instr.bopen), (0x0E, Instr.bclose), (0x0F, Instr.wopen), (0x10, Instr.wclose), (0x19, Instr.csig)] →
    Issues .x op i s t → (t.slot i.pos k).busy = true →
    exec (c i) s = .next (t.modMov i.pos fun m =>
      { m with refused := m.refused + 1, lastSlot := BitVec.ofNat 6 k.val, lastValid := true, lastStatus := 0x10 })

/-- SWAIT, STEST, RECV, CWAIT, CTEST, BPOP, CARM and CSIG at issue; a busy slot refuses a move. -/
def Obligations.WaitsTestsAndBusySlots : Prop :=
  Sys2Proof.Rules.WaitsAndTests ∧ Sys2Proof.Rules.PopArmSignal ∧ Sys2Proof.Rules.BusySlotRefuses

/-- STRM on a free slot: a descriptor that the model's test refuses completes the slot at issue with ILLEGAL_DESCRIPTOR, one of less than a
line in all with DONE; any other makes the slot busy with a stream operation, the stream joins the move unit's with nothing requested, and
only line requests for the chart enter the fabric. A descriptor with an uncorrectable word is an SPD_ECC fault of the X slot. -/
def Sys2Proof.Rules.StreamIssue : Prop :=
  ∀ (i : Issue) (s t u : State), Issues .x 0x01 i s t →
    let k := xSlot (slotWord i.bundle .x)
    (t.slot i.pos k).busy = false →
    (t.xDesc i = (u, none) → exec (.strm i) s = .next u ∧ (u.core i.pos).ctl.fault.code = 0x10 ∧ (u.core i.pos).ctl.fault.slots = 8) ∧
    ∀ d : List Byte, t.xDesc i = (u, some d) →
    let st := streamOf i (t.opNo i.pos) (t.ut i.pos).tick d
    let bad := streamBad (t.lastPound i.pos) st d
    (bad = true → exec (.strm i) s = .next (u.endAtIssue i.pos k (xChOpt (slotWord i.bundle .x)) .illegalDescriptor)) ∧
    (bad = false → fld (wordOf d 3) 0 26 * fld (wordOf d 3) 32 32 < 64 →
      exec (.strm i) s = .next (u.endAtIssue i.pos k (xChOpt (slotWord i.bundle .x)) .done)) ∧
    (bad = false → 64 ≤ fld (wordOf d 3) 0 26 * fld (wordOf d 3) 32 32 →
      ∃ v o, exec (.strm i) s = .next v ∧ (v.slot i.pos k).busy = true ∧ (v.slot i.pos k).op = some o ∧ o.kind = .stream ∧ o.outcome = none ∧
        o.id = t.opNo i.pos ∧ (v.core i.pos).mov.streams = (u.core i.pos).mov.streams ++ [st] ∧
        st.req = 0 ∧ st.rel = 0 ∧ i.cc < st.s ∧ (∃ qs, v.net = t.net ++ qs ∧ ∀ q ∈ qs, q.type = 9 ∧ q.write = false) ∧
        (v.core i.pos).pend = (t.core i.pos).pend)

/-- RWR and RRD on a free slot: a remote write reads its source at its port cycles and sends it cut at every 4 KiB boundary of the
destination; of a source with an uncorrectable word it sends the bytes before that line only, with MEMORY_UNCORRECTABLE as its status, and where
there are none it ends at once. A remote read sends one request for each piece. Both occupy the slot until every piece is answered. An address
of another class, a non-zero reserved field or, for a register, a length other than 8 completes the slot with ILLEGAL_DESCRIPTOR, traffic
between banks at different steps with TIMING_UNSAFE. -/
def Sys2Proof.Rules.RemoteAccessIssue : Prop :=
  ∀ (i : Issue) (s t : State),
    let w := slotWord i.bundle .x
    let k := xSlot w
    let c := t.core i.pos
    let sa := c.readS i.ctx (xA w)
    let sc := c.readS i.ctx (xC w)
    let a := (c.readA i.ctx (xB w)).toNat
    let n := fld sc 0 32
    let vc := t.vcOf i.pos i.ctx
    let x := t.access i.pos 6 i.cc [(a, n)]
    let m := (c.spdAt (i.cc + x.2.1)).cleanPrefix a n
    let ends (x : Instr) (st : Status) : Prop := exec x s = .next (t.endAtIssue i.pos k (xChOpt w) st)
    (t.slot i.pos k).busy = false →
    (Issues .x 0x04 i s t → (addrClass sa ≠ 0 ∨ fld sc 56 8 ≠ 0) → ends (.rwr i) .illegalDescriptor) ∧
    (Issues .x 0x05 i s t → (fld sc 32 32 ≠ 0 ∨ (addrClass sa ≠ 0 ∧ ¬(addrClass sa = 2 ∧ n = 8))) → ends (.rrd i) .illegalDescriptor) ∧
    (Issues .x 0x04 i s t → addrClass sa = 0 → fld sc 56 8 = 0 → t.timingUnsafe i.pos vc (addrLt sa) = true → ends (.rwr i) .timingUnsafe_) ∧
    (Issues .x 0x05 i s t → (addrClass sa = 0 ∨ (addrClass sa = 2 ∧ n = 8)) → fld sc 32 32 = 0 → t.unsafeRead i.pos vc sa = true →
      ends (.rrd i) .timingUnsafe_) ∧
    (Issues .x 0x04 i s t → addrClass sa = 0 → fld sc 56 8 = 0 → t.timingUnsafe i.pos vc (addrLt sa) = false →
      ∃ v o qs, exec (.rwr i) s = .next v ∧ (v.slot i.pos k).busy = true ∧ (v.slot i.pos k).op = some o ∧ o.kind = .write ∧ v.net = t.net ++ qs ∧
        (m = 0 → 0 < n → qs = [] ∧ o.outcome = some .memoryUncorrectable) ∧
        ((0 < m ∨ n = 0) → o.outcome = none ∧ o.left = qs.length ∧ o.worst = (if m < n then .memoryUncorrectable else .done) ∧
          qs.length = (addrOff sa % 4096 + max m 1 + 4095) / 4096 ∧ qs.flatMap Packet.payload = c.portRead (i.cc + x.2.1) a m ∧
          (∀ q ∈ qs, q.type = 3 ∧ q.vc = vc ∧ q.dest.toNat = addrLt sa ∧ q.win = sc.extractLsb' 32 8 ∧ q.gen = sc.extractLsb' 40 16 ∧
            q.total = n ∧ q.payload.length ≤ 4096))) ∧
    (Issues .x 0x05 i s t → addrClass sa = 0 → fld sc 32 32 = 0 → t.unsafeRead i.pos vc sa = false →
      ∃ v o qs, exec (.rrd i) s = .next v ∧ (v.slot i.pos k).busy = true ∧ (v.slot i.pos k).op = some o ∧ o.kind = .read ∧
        o.left = qs.length ∧ o.dst = BitVec.ofNat 26 a ∧ v.net = t.net ++ qs ∧ qs.length = (addrOff sa % 4096 + max n 1 + 4095) / 4096 ∧
        (qs.map Packet.total).sum = n ∧ (∀ q ∈ qs, q.type = 1 ∧ q.vc = vc ∧ q.dest.toNat = addrLt sa ∧ q.payload = [])) ∧
    (Issues .x 0x05 i s t → addrClass sa = 2 → n = 8 → fld sc 32 32 = 0 → t.unsafeRead i.pos vc sa = false →
      ∃ v o q, exec (.rrd i) s = .next v ∧ (v.slot i.pos k).busy = true ∧ (v.slot i.pos k).op = some o ∧ o.kind = .read ∧ o.left = 1 ∧
        o.dst = BitVec.ofNat 26 a ∧ v.net = t.net ++ [q] ∧ q.type = 1 ∧ q.vc = vc ∧ q.addr = sa ∧ q.total = 8)

/-- STRM, RWR and RRD at issue. -/
def Obligations.StreamAndRemoteIssue : Prop :=
  Sys2Proof.Rules.StreamIssue ∧ Sys2Proof.Rules.RemoteAccessIssue

/-- SEND, SENDN and SENDC on a free slot: a header that breaks the sender's rules completes the slot with ILLEGAL_DESCRIPTOR, traffic between
banks at different steps with TIMING_UNSAFE, no free staging entry with BERTH_FULL; else the payload, read at its port cycles, is copied into
the lowest free entry with the patience as its deadline, and the barge goes to the interface; the slot is busy until it is answered. A payload
with an uncorrectable word is an SPD_ECC fault of the X slot. SEND tells CR_SENDSTAT what became of it; the others leave it. -/
def Sys2Proof.Rules.BargeSends : Prop :=
  ∀ (i : Issue) (s t : State) (op : Nat) (cmd : Issue → Instr) (comb block : Bool),
    (op, cmd, comb, block) ∈ [(0x08, Instr.send, false, true), (0x09, Instr.sendn, false, false), (0x0A, Instr.sendc, true, false)] →
    Issues .x op i s t →
    let w := slotWord i.bundle .x
    let k := xSlot w
    let c := t.core i.pos
    let sa := c.readS i.ctx (xA w)
    let sc := c.readS i.ctx (xC w)
    let n := fld sc 0 13
    let a := (c.readA i.ctx (xB w)).toNat
    let vc := t.vcOf i.pos i.ctx
    let at_ := i.cc + (t.access i.pos 6 i.cc [(a, n)]).2.1
    let fin (st : Status) : State := (if block then t.setSendStat i.pos i.ctx st else t).endAtIssue i.pos k (xChOpt w) st
    (t.slot i.pos k).busy = false →
    (sendBad comb sa sc = true → exec (cmd i) s = .next (fin .illegalDescriptor)) ∧
    (sendBad comb sa sc = false → t.timingUnsafe i.pos vc (fld sa 0 7) = true → exec (cmd i) s = .next (fin .timingUnsafe_)) ∧
    (sendBad comb sa sc = false → t.timingUnsafe i.pos vc (fld sa 0 7) = false → (∀ g : Fin 8, c.mov.staging[g].isSome = true) →
      exec (cmd i) s = .next (fin .berthFull)) ∧
    (sendBad comb sa sc = false → t.timingUnsafe i.pos vc (fld sa 0 7) = false →
      ∀ g : Fin 8, c.mov.staging[g] = none → (∀ h < g, c.mov.staging[h].isSome = true) →
      ((c.spdAt at_).badIn a n ≠ [] → ∃ v, exec (cmd i) s = .next v ∧ (v.core i.pos).ctl.fault.code = 0x10 ∧ (v.core i.pos).ctl.fault.slots = 8 ∧
        (v.slot i.pos k).busy = false ∧ (v.core i.pos).mov.staging = c.mov.staging ∧ v.net = t.net) ∧
      ((c.spdAt at_).badIn a n = [] →
      ∃ v o e q, exec (cmd i) s = .next v ∧ (v.slot i.pos k).busy = true ∧ (v.slot i.pos k).op = some o ∧ o.kind = .send ∧ o.left = 1 ∧
        (v.core i.pos).mov.staging = c.mov.staging.set g (some e) ∧ e.slot = k ∧ e.payload = c.portRead at_ a n ∧
        e.deadline = i.cc + (vat c.ctl.patience (ctxNum i.ctx)).toNat ∧ e.hdr = bargeHdr comb sa sc c.desc.lt (stepTagOf (t.ut i.pos) i.ctx) ∧
        v.net = t.net ++ [q] ∧ q.type = 5 ∧ q.vc = vc ∧ q.dest.toNat = fld sa 0 7 ∧ q.hdr = e.hdr ∧ q.payload = e.payload ∧ q.opId = o.id ∧
        ((v.core i.pos).ctx i.ctx).sendStat = (if block then .done else (c.ctx i.ctx).sendStat)))

/-- BOPEN, BCLOSE, WOPEN and WCLOSE on a free slot: a berth or window that the step does not declare completes the slot with NO_RIGHTS, then a
refused descriptor with ILLEGAL_DESCRIPTOR. BOPEN opens the berth as an empty ring with the descriptor's entries, generation and kind and
completes with DONE, but for an ORDERED one, whose slot stays busy; WOPEN opens the window with the descriptor's range and generation and
completes with DONE. A close of what is open takes effect in the next cycle, and its slot stays busy; closing what is closed completes with DONE.
A descriptor with an uncorrectable word is an SPD_ECC fault of the X slot. -/
def Sys2Proof.Rules.OpenAndClose : Prop :=
  ∀ (i : Issue) (s t : State),
    let w := slotWord i.bundle .x
    let k := xSlot w
    let b := xBerth w
    let n := xWindow w
    let ends (x : Instr) (u : State) (st : Status) : Prop := exec x s = .next (u.endAtIssue i.pos k (xChOpt w) st)
    (t.slot i.pos k).busy = false →
    (∀ u, t.xDesc i = (u, none) → (u.core i.pos).ctl.fault.code = 0x10 ∧ (u.core i.pos).ctl.fault.slots = 8 ∧
      (Issues .x 0x0D i s t → exec (.bopen i) s = .next u) ∧ (Issues .x 0x0F i s t → exec (.wopen i) s = .next u)) ∧
    (∀ u d, Issues .x 0x0D i s t → t.xDesc i = (u, some d) → berthOpen t i.pos i.ctx b = false → ends (.bopen i) u .noRights) ∧
    (∀ u d, Issues .x 0x0D i s t → t.xDesc i = (u, some d) → berthOpen t i.pos i.ctx b = true → berthBad b.val (t.berth i.pos b) d = true →
      ends (.bopen i) u .illegalDescriptor) ∧
    (∀ u d, Issues .x 0x0D i s t → t.xDesc i = (u, some d) → berthOpen t i.pos i.ctx b = true → berthBad b.val (t.berth i.pos b) d = false →
      ∃ v, exec (.bopen i) s = .next v ∧ (v.berth i.pos b).open_ = true ∧ (v.berth i.pos b).gen = (wordOf d 0).extractLsb' 48 16 ∧
        (v.berth i.pos b).queue = [] ∧ (v.berth i.pos b).head = 0 ∧ (v.berth i.pos b).tail = 0 ∧ (v.berth i.pos b).entries = fld (wordOf d 0) 32 13 ∧
        (v.berth i.pos b).weir = bit (wordOf d 1) 13 ∧ (v.berth i.pos b).ordered = bit (wordOf d 1) 14 ∧
        ((v.slot i.pos k).busy = bit (wordOf d 1) 14) ∧ (bit (wordOf d 1) 14 = false → (v.slot i.pos k).status = .done)) ∧
    (Issues .x 0x0E i s t → berthOpen t i.pos i.ctx b = false → ends (.bclose i) t .noRights) ∧
    (Issues .x 0x0E i s t → berthOpen t i.pos i.ctx b = true → (t.berth i.pos b).open_ = false → ends (.bclose i) t .done) ∧
    (Issues .x 0x0E i s t → berthOpen t i.pos i.ctx b = true → (t.berth i.pos b).open_ = true →
      ∃ v, exec (.bclose i) s = .next v ∧ (v.berth i.pos b).open_ = false ∧ (v.berth i.pos b).closeAt = some (i.cc + 1) ∧
        (v.berth i.pos b).queue = (t.berth i.pos b).queue ∧ (v.berth i.pos b).gen = (t.berth i.pos b).gen ∧ (v.slot i.pos k).busy = true) ∧
    (∀ u d, Issues .x 0x0F i s t → t.xDesc i = (u, some d) → windowOpen t i.pos i.ctx n = false → ends (.wopen i) u .noRights) ∧
    (∀ u d, Issues .x 0x0F i s t → t.xDesc i = (u, some d) → windowOpen t i.pos i.ctx n = true → windowBad (t.window i.pos n) d = true →
      ends (.wopen i) u .illegalDescriptor) ∧
    (∀ u d, Issues .x 0x0F i s t → t.xDesc i = (u, some d) → windowOpen t i.pos i.ctx n = true → windowBad (t.window i.pos n) d = false →
      ∃ v, exec (.wopen i) s = .next v ∧ (v.window i.pos n).open_ = true ∧ (v.window i.pos n).gen = (wordOf d 1).extractLsb' 0 16 ∧
        (v.window i.pos n).base = (wordOf d 0).extractLsb' 0 26 ∧ (v.window i.pos n).length = (wordOf d 0).extractLsb' 32 27 ∧
        (v.slot i.pos k).busy = false ∧ (v.slot i.pos k).status = .done) ∧
    (Issues .x 0x10 i s t → windowOpen t i.pos i.ctx n = false → ends (.wclose i) t .noRights) ∧
    (Issues .x 0x10 i s t → windowOpen t i.pos i.ctx n = true → (t.window i.pos n).open_ = false → ends (.wclose i) t .done) ∧
    (Issues .x 0x10 i s t → windowOpen t i.pos i.ctx n = true → (t.window i.pos n).open_ = true →
      ∃ v, exec (.wclose i) s = .next v ∧ (v.window i.pos n).open_ = false ∧ (v.window i.pos n).closeAt = some (i.cc + 1) ∧
        (v.window i.pos n).accs = (t.window i.pos n).accs ∧ (v.slot i.pos k).busy = true)

/-- SEND, SENDN, SENDC, BOPEN, BCLOSE, WOPEN and WCLOSE at issue. -/
def Obligations.SendsAndOpens : Prop :=
  Sys2Proof.Rules.BargeSends ∧ Sys2Proof.Rules.OpenAndClose

/-! ### Events of the core (3.8, 5.3 to 5.6) -/

/-- The completion of a matrix operation retires the first finished one of its kind, and its chamber is signalled once the cycle after its
finish has come; a drain's comparisons are counted then (log entry 101), and a mismatch asks for the abort of the step with CHECK_MISMATCH
and is reported to the repair logic for the die's LT; no S or V register changes. -/
def Sys2Proof.Rules.MatrixCompletions : Prop :=
  ∀ (p : Pos) (cc kind : Nat) (c : Instr) (s : State) (o : MOp) (l : List MOp),
    (kind, c) ∈ [(2, Instr.mloadComplete p cc), (3, Instr.mstepComplete p cc), (4, Instr.mdrainComplete p cc)] →
    let u := s.run p cc
    let live (v : State) := ((v.core p).mat.ops.filter fun o => o.kind == kind && !o.retired).length
    let found (x : ChkRes) : Nat := match o.drain with | some d => (d.results.filter fun r => r.2 == x).length | none => 0
    (s.ut p).cycle ≤ cc → s.dieUp p = true → retireOp kind cc (u.core p).mat.ops = (l, some o) →
    ∃ v, exec c s = .next v ∧ live v + 1 = live u ∧ o.kind = kind ∧ o.finish ≤ cc ∧
      (v.core p).mat.mismatch = (u.core p).mat.mismatch + BitVec.ofNat 16 (found .mismatch) ∧
      (v.core p).mat.skipped = (u.core p).mat.skipped + BitVec.ofNat 16 (found .skipped + found .ovf) ∧
      (∀ b n, o.chamber = some (b, n) → o.finish < cc →
        (v.ut p).chamber (n.toNat % 2048) = ((u.ut p).chamber (n.toNat % 2048)).signal 1) ∧
      v.aborts = (if found .mismatch = 0 then u else u.abortAt p (.status .checkMismatch)).aborts ∧
      (∀ y, found .mismatch ≠ 0 → u.ltAt p = some y → .checkMismatch y ∈ v.repair.reports) ∧
      (∀ x r, (v.core p).readS x r = (u.core p).readS x r ∧ (v.core p).readV x r = (u.core p).readV x r)

/-- The current keeper, while MAIN runs a step and no step is fed: it begins to fill a gap at LEVEL, and stops with a ramp when the gap exceeds
THRESH or, with THRESH 0, when it begins. The first ramp note that is due is taken off the list, moves the regulator's window, and is carried
out where MAIN runs a step. POWNOTE counts a short lead and, for a note other than UP to 0 percent, sets the regulator's window for
t + max(lead, 2,000) cycles and, where MAIN runs a step, enters the note. -/
def Sys2Proof.Rules.CurrentKeeper : Prop :=
  (∀ (p : Pos) (cc : Nat) (s : State),
    let u := s.run p cc
    let m := (u.core p).mat
    let k := m.keeper
    let upd (k : Keeper) : State := u.modMat p fun m => { m with keeper := k }
    (s.ut p).cycle ≤ cc → s.dieUp p = true →
    (u.mainRuns p = true → m.stepping cc = false → k.filling = false → k.gapHeld = false → k.gapStart = none → k.thresh ≠ 0 →
      let l := if k.level = 0 then 25 else if k.level = 1 then 50 else 100
      exec (.keeperFill p cc) s = .next (upd { k with filling := true, gapStart := some cc, filled := k.filled + 1, ramp := (l, l, cc) })) ∧
    (u.mainRuns p = true → m.stepping cc = false → k.gapHeld = false →
      ((∃ g, k.filling = true ∧ k.gapStart = some g ∧ g + k.thresh.toNat < cc) ∨ (k.gapStart = none ∧ k.thresh = 0)) →
      exec (.keeperGapExpiry p cc) s = .next (upd { k with
        filling := false, gapStart := some cc, unDown := k.unDown + 1, ramp := (k.at_ cc, 0, cc) })) ∧
    (∀ n r, k.notes = n :: r → n.at_ ≤ cc →
      ∃ v, exec (.pownoteLeadExpiry p cc) s = .next v ∧ (v.core p).mat.keeper.notes = r ∧
        (n.down = true → (v.ut p).pwr.clamp = some (n.at_, n.at_ + 1024) ∧ (v.ut p).pwr.boost = (u.ut p).pwr.boost) ∧
        (n.down = false → (v.ut p).pwr.boost = some (n.at_ - 1024, n.at_ + 1024) ∧ (v.ut p).pwr.clamp = (u.ut p).pwr.clamp) ∧
        (u.mainRuns p = true → n.down = true → (v.core p).mat.keeper.gapHeld = true ∧ (v.core p).mat.keeper.filling = false) ∧
        (u.mainRuns p = true → n.down = false → (v.core p).mat.keeper.upCover = true) ∧
        (u.mainRuns p = false → (v.core p).mat.keeper = { k with notes := r }) ∧
        (v.core p).mat.rows = m.rows ∧ (v.core p).mat.ops = m.ops)) ∧
  (∀ (i : Issue) (s t : State), Issues .x 0x20 i s t →
    let w := slotWord i.bundle .x
    let l := fld ((t.core i.pos).readS i.ctx (xA w)) 0 32
    let lv := if fld w 52 2 = 0 then 25 else if fld w 52 2 = 1 then 50 else if fld w 52 2 = 2 then 100 else 0
    let k := (t.core i.pos).mat.keeper
    let due := i.cc + max l 2000
    ∃ v, exec (.pownote i) s = .next v ∧ (v.core i.pos).pend = (t.core i.pos).pend ∧
      (v.core i.pos).mat.keeper.shortLead = (if l < 2000 then k.shortLead + 1 else k.shortLead) ∧
      (v.core i.pos).mat.keeper.notes = (if (bit w 51 = false ∧ lv = 0) ∨ t.mainRuns i.pos = false then k.notes
        else k.notes ++ [{ down := bit w 51, level := lv, at_ := due }]) ∧
      (bit w 51 = true → (v.ut i.pos).pwr.clamp = some (due, due + 1024) ∧ (v.ut i.pos).pwr.boost = (t.ut i.pos).pwr.boost) ∧
      (bit w 51 = false → lv ≠ 0 → (v.ut i.pos).pwr.boost = some (due - 1024, due + 1024) ∧ (v.ut i.pos).pwr.clamp = (t.ut i.pos).pwr.clamp) ∧
      (bit w 51 = false → lv = 0 → (v.ut i.pos).pwr = (t.ut i.pos).pwr))

/-- Completion of matrix operations, and the current keeper with its notes. -/
def Obligations.MatrixCompletionsAndKeeper : Prop :=
  Sys2Proof.Rules.MatrixCompletions ∧ Sys2Proof.Rules.CurrentKeeper

/-- What the release of MAIN's held bundle leaves before its slots take effect: MAIN issues, in this cycle, nothing is held, CR_STALL holds the
length of the stall and its point, MAIN issues its next bundle no earlier than in the next cycle, and no write in flight and no S register of
MAIN changes. -/
def Sys2Proof.Released (z b : State) (p : Pos) (cc : Nat) (pt : Fin 6) : Prop :=
  (b.core p).ctl.main = .issuing ∧ (b.core p).ctl.held = none ∧ (b.core p).ctl.issueCc = some cc ∧
  (b.core p).ctl.lastStall = BitVec.ofNat 35 (pt.val + 8 * min (cc - (z.core p).ctl.stallStart) (2 ^ 32 - 1)) ∧
  (b.core p).main.nextCc = cc + 1 ∧ (b.core p).pend = (z.core p).pend ∧ (b.core p).main.s = (z.core p).main.s

/-- A held bundle of MAIN whose condition held one cycle earlier, or whose stall an overrun has ended, issues whole in the release cycle: a
bundle that faults now stops MAIN with the fault, any other takes effect slot by slot in slot order. A SEND whose patience has run out with
no staging entry free issues then, and gives up: on a free slot it completes with BERTH_FULL, told to CR_SENDSTAT, with nothing staged and
one entry in the list of stalls. -/
def Sys2Proof.Rules.StallsEnd : Prop :=
  (∀ (p : Pos) (cc : Nat) (s : State) (i : Issue) (pt : Fin 6),
    let u := s.run p (cc - 1)
    let z := u.run p cc
    let k := (u.core p).ctl
    let met := (stallPoint u p i.bundle).isNone
    0 < cc → (s.ut p).cycle ≤ cc - 1 → s.dieUp p = true → k.main = .stalled pt → k.held = some i → k.stallStart < cc →
    ((met = true ∧ (pt ≠ 3 ∨ cc ≤ k.stallStart + (vat k.patience 0).toNat)) ∨ k.freed = true) →
    (bundleFaults z { i with cc := cc } = [] → ∃ b, Released z b p cc pt ∧
      exec (.stallRelease p cc) s = .next (issueSlots (freedEffect met) { i with cc := cc } b)) ∧
    (∀ f r, bundleFaults z { i with cc := cc } = f :: r → ∃ v, exec (.stallRelease p cc) s = .next v ∧
      (v.core p).ctl.fault.code = BitVec.ofNat 8 (faultCode f.2) ∧ (v.core p).ctl.fault.slots = slotMask (f :: r) ∧
      vat (v.core p).ctl.stopped 0 = true ∧ (v.core p).ctl.main = .idle)) ∧
  (∀ (p : Pos) (cc : Nat) (s : State) (i : Issue),
    let u := s.run p cc
    let k := (u.core p).ctl
    (s.ut p).cycle ≤ cc → s.dieUp p = true → k.main = .stalled 3 → k.held = some i → k.stallStart + (vat k.patience 0).toNat ≤ cc →
    stagingFull u p = true → bundleFaults u { i with cc := cc } = [] → ∃ b, Released u b p cc 3 ∧
      exec (.sendPatienceExpiry p cc) s = .next (issueSlots sendGivesUp { i with cc := cc } b)) ∧
  (∀ (i : Issue) (s : State),
    let k := xSlot (slotWord i.bundle .x)
    (s.slot i.pos k).busy = false → ((sendGivesUp i s).slot i.pos k).status = .berthFull ∧ ((sendGivesUp i s).slot i.pos k).busy = false ∧
      (((sendGivesUp i s).core i.pos).ctx i.ctx).sendStat = .berthFull ∧ ((sendGivesUp i s).core i.pos).mov.staging = (s.core i.pos).mov.staging ∧
      ((sendGivesUp i s).core i.pos).mov.stalls.length = (s.core i.pos).mov.stalls.length + 1)

/-- Handlers start in posting order, four cycles after the posting and after the last HRET: the invocation leaves the queue, HAND has the
registers of Table 5.10 and issues the entry bundle next; with an entry beyond the image HAND stops with ISTORE_BOUNDS instead. The end of a
handler window closes it and suspends a running handler. -/
def Sys2Proof.Rules.HandlersStart : Prop :=
  ∀ (p : Pos) (cc : Nat) (s : State),
    let u := s.run p cc
    let c := u.core p
    (s.ut p).cycle ≤ cc → s.dieUp p = true →
    (∀ v r, c.ctl.queue = v :: r → c.ctl.hand = .idle → vat c.ctl.stopped 1 = false → v.postedCc + 4 ≤ cc →
      (c.ctl.handLast = 0 ∨ c.ctl.handLast + 4 ≤ cc) →
      let e := handlerEntry c v.handler.toNat
      fld e 0 14 < c.img.bundles →
      ∃ t, exec (.handlerStart p cc) s = .next t ∧ (t.core p).ctl.queue = r ∧ (t.core p).ctl.curInv = some v ∧ (t.core p).ctl.handIssued = 0 ∧
        (t.core p).ctl.handBudget = fld e 16 12 ∧ (t.core p).ctl.hand ≠ .idle ∧
        (t.core p).readA .hand 0 = v.payload.zeroExtend 48 ∧ (t.core p).readS .hand 0 = v.length.zeroExtend 64 ∧
        (t.core p).readS .hand 1 = v.src.zeroExtend 64 ∧ (t.core p).readS .hand 2 = BitVec.ofNat 64 (v.berth.val + 65536 * v.gen.toNat) ∧
        (t.core p).readS .hand 3 = v.word0 ∧ (t.core p).readP .hand 1 = v.combined ∧
        (t.core p).hand.nextIdx = e.extractLsb' 0 14 ∧ (t.core p).hand.nextCc = cc ∧ (t.core p).main = c.main ∧ (t.core p).pend = c.pend) ∧
    (∀ v r, c.ctl.queue = v :: r → c.ctl.hand = .idle → vat c.ctl.stopped 1 = false → v.postedCc + 4 ≤ cc →
      (c.ctl.handLast = 0 ∨ c.ctl.handLast + 4 ≤ cc) → c.img.bundles ≤ fld (handlerEntry c v.handler.toNat) 0 14 →
      ∃ t, exec (.handlerStart p cc) s = .next t ∧ (t.core p).ctl.fault.code = 9 ∧ (t.core p).ctl.fault.context = 1 ∧
        vat (t.core p).ctl.stopped 1 = true) ∧
    (c.ctl.hwinOpen = true → c.ctl.hwinEnd ≤ cc →
      exec (.hwinExpiry p cc) s = .next (u.modCtl p fun k => { k with
        hwinOpen := false, hand := if k.hand = .running then .suspended else k.hand }))

/-- DBG halts MAIN at once where no step runs or the step is a DEBUG step, keeping the state MAIN had, and else notes the request; a resume puts
MAIN back into that state, where it issues after as many cycles as it had left at the halt (log entry 27), and a core that an overrun found
halted at pound end goes on with its next slice. Service code of TOW writes one item of the core where no admitted step names its LT, and stops
with CONTEXT_ILLEGAL, writing nothing of MAIN and of the image, where one does. -/
def Sys2Proof.Rules.DebugAndService : Prop :=
  ∀ (p : Pos) (s : State),
    (s.dieUp p = true → (s.core p).ctl.main ≠ .halted →
      ((∀ r, s.stepAt p = some r → r.man.debug = true) →
        ∃ t, exec (.dbgHalt p) s = .next t ∧ (t.core p).ctl.main = .halted ∧ (t.core p).ctl.heldHalt = some (s.core p).ctl.main ∧
          (t.core p).ctl.dbgAttached = true ∧ (t.core p).ctl.haltAt = (s.ut p).cycle ∧ (t.core p).main = (s.core p).main) ∧
      (∀ r, s.stepAt p = some r → r.man.debug = false →
        exec (.dbgHalt p) s = .next (s.modCtl p fun k => { k with haltWanted := true }))) ∧
    (∀ m, (s.core p).ctl.main = .halted → (s.core p).ctl.heldHalt = some m →
      let k := (s.core p).ctl
      (¬(m = .stalled 5 ∧ k.lateRun = true) →
        ∃ t, exec (.dbgResume p) s = .next t ∧ (t.core p).ctl.main = m ∧ (t.core p).ctl.heldHalt = none ∧
          (t.core p).main.nextIdx = (s.core p).main.nextIdx ∧
          (t.core p).main.nextCc = max (s.core p).main.nextCc k.haltAt + ((s.ut p).cycle - k.haltAt) ∧ (t.core p).pend = (s.core p).pend) ∧
      (m = .stalled 5 → k.lateRun = true →
        ∃ t, exec (.dbgResume p) s = .next t ∧ (t.core p).ctl.heldHalt = none ∧ (t.core p).pend = (s.core p).pend ∧
          (s.catchUp p false = none → (t.core p).ctl.main = .stalled 5 ∧ (t.core p).ctl.lateRun = false) ∧
          (∀ j, s.catchUp p false = some j → (t.core p).ctl.main = .issuing ∧ (t.core p).ctl.pound = BitVec.ofNat 32 j ∧
            (t.core p).main.nextIdx = k.resume ∧ (t.core p).main.nextCc = (s.ut p).cycle))) ∧
    (∀ w, s.dieUp p = true → s.stepAt p = none →
      ∃ t, exec (.towService p w) s = .next t ∧ (t.core p).ctl.towBusy = true ∧
        (match w with
          | .sReg h r v => (t.core p).readS (if h then .hand else .main) r.val = v
          | .aReg h r v => (t.core p).readA (if h then .hand else .main) r.val = v
          | .pReg h r v => (t.core p).readP (if h then .hand else .main) r.val = (v || decide (r = 0))
          | .vReg r v => vat (t.core p).vMain r.val = v
          | .vHand r v => vat (t.core p).vHand r.val = v
          | .store k b => (t.core p).img.store = tblPut 0 (s.core p).img.store k.toNat b
          | .handler k e => (t.core p).img.htab = tblPut 0 (s.core p).img.htab k.toNat e)) ∧
    (∀ w r, s.dieUp p = true → s.stepAt p = some r →
      ∃ t, exec (.towService p w) s = .next t ∧ (t.core p).ctl.fault.code = 0x0A ∧ (t.core p).ctl.fault.context = 2 ∧
        vat (t.core p).ctl.stopped 2 = true ∧ (t.core p).img = (s.core p).img ∧ (t.core p).main = (s.core p).main ∧ (t.core p).hand = (s.core p).hand)

/-- The patrol scrub reads the next chunk where NI moves nothing and owns its group: corrected words are counted and their chunk is noted for
the writeback, which clears its corrected words and changes no byte; the position wraps and the pass counter counts a full pass. The end of
zeroing opens the ports no earlier than its cycle, and a die whose VCORE is on is no longer in RETAIN or DARK. -/
def Sys2Proof.Rules.ScrubAndZeroing : Prop :=
  ∀ (p : Pos) (cc : Nat) (s : State),
    let u := s.run p cc
    let d := (u.core p).spd
    (s.ut p).cycle ≤ cc →
    (s.dieUp p = true → d.scrubEn = true → u.niIdle p cc d.scrubPos = true →
      let met := d.single.filter fun w => wordHit (1024 * d.scrubPos) 1024 w
      ∃ t, exec (.patrolScrub p cc) s = .next t ∧ (t.core p).spd.scrubPos = (d.scrubPos + 1) % 65536 ∧
        (t.core p).spd.passes = (if d.scrubPos = 65535 then d.passes + 1 else d.passes) ∧ (t.core p).spd.mem = d.mem ∧
        (t.core p).spd.corrected = d.corrected + BitVec.ofNat 32 met.length ∧ (met ≠ [] → d.scrubPos ∈ (t.core p).spd.scrubFix) ∧
        (t.core p).spd.scrubNext = cc + 1 ∧ { t with tiles := u.tiles } = u) ∧
    (∀ k, s.dieUp p = true → (d.scrubFix.find? fun k => u.niIdle p cc k) = some k →
      ∃ t, exec (.scrubWriteback p cc) s = .next t ∧ (t.core p).spd.scrubFix = d.scrubFix.erase k ∧ (t.core p).spd.mem = d.mem ∧
        (∀ w ∈ (t.core p).spd.single, w ∈ d.single ∧ wordHit (1024 * k) 1024 w = false) ∧ (t.core p).spd.bad = d.bad) ∧
    ((s.core p).spd.zeroing = true →
      ∃ t, exec (.segmentZeroingDone p cc) s = .next t ∧ (t.core p).spd.zeroing = false ∧ (t.core p).spd.mem = d.mem ∧
        (∀ x : Fin 8, cc ≤ (t.core p).spd.free[x]) ∧
        ((u.ut p).pwr.vcore = true → (t.ut p).pwr.state = 0 ∨ (t.ut p).pwr.state = 1))

/-- Ends of stalls, handler starts, debug and service requests, scrub and the end of zeroing. -/
def Obligations.CoreEvents : Prop :=
  Sys2Proof.Rules.StallsEnd ∧ Sys2Proof.Rules.HandlersStart ∧ Sys2Proof.Rules.DebugAndService ∧ Sys2Proof.Rules.ScrubAndZeroing

/-! ### Completions and streams (6.5, 7.3) -/

/-- MOVE_COMPLETION frees the slot of an operation that has ended, with its status, and drops its stream; its chamber is signalled in the next
cycle, a Canal chamber by a CSIG packet. A cancelled operation leaves STEP_ABORTED and signals nothing. A stream, write or read that ends with
MEMORY_UNCORRECTABLE raises MEM_UNCORRECTABLE in the X slot of its bundle. BCLOSE_COMPLETE and WCLOSE_COMPLETE end the wait of a close once
what was accepted before it has landed; that of a close which an open overtook first. -/
def Sys2Proof.Rules.MoveCompletions : Prop :=
  ∀ (p : Pos) (k : Fin 64) (cc : Nat) (s : State),
    let u := s.run p cc
    (s.ut p).cycle ≤ cc →
    (∀ o st, (u.slot p k).op = some o → o.outcome = some st → o.landAt ≤ cc →
      ∃ v, exec (.moveCompletion p k cc) s = .next v ∧
        v.slot p k = { busy := false, status := if o.cancelled then .stepAborted else st, op := none } ∧
        (v.core p).mov.streams = (u.core p).mov.streams.filter (fun x => x.op ≠ o.id) ∧
        (∀ n, o.ch = some (false, n) → o.cancelled = false →
          (v.core p).pend = ((u.core p).later (cc + 1) (.sig (Fin.ofNat 2048 n.toNat) 1)).pend ∧ v.net = u.net) ∧
        (∀ n, o.ch = some (true, n) → o.cancelled = false → (v.core p).pend = (u.core p).pend ∧
          ∃ x, v.net = u.net ++ [x] ∧ x.type = 7 ∧ x.arg = 1 ∧ x.dkind = 2 ∧ x.dest = 1 ∧ addrChamber x.addr = n.toNat) ∧
        ((o.ch = none ∨ o.cancelled = true) → (v.core p).pend = (u.core p).pend ∧ v.net = u.net) ∧
        (o.cancelled = false → st = .memoryUncorrectable → (o.kind = .stream ∨ o.kind = .write ∨ o.kind = .read) →
          (v.core p).ctl.fault.code = 0x12 ∧ (v.core p).ctl.fault.slots = 8 ∧ (v.core p).ctl.fault.index = o.idx) ∧
        ((o.cancelled = true ∨ st ≠ .memoryUncorrectable ∨ (o.kind ≠ .stream ∧ o.kind ≠ .write ∧ o.kind ≠ .read)) →
          (v.core p).ctl = (u.core p).ctl)) ∧
    (∀ b x, ((u.berth p b).leaving.find? fun x => x.2.isEmpty) = some x →
      exec (.bcloseComplete p b cc) s = .next ((u.endOp p x.1 .done).modBerth p b fun h => { h with leaving := h.leaving.erase x })) ∧
    (∀ b c, ((u.berth p b).leaving.find? fun x => x.2.isEmpty) = none →
      (u.berth p b).closing = some k → (u.berth p b).closeAt = some c → c ≤ cc → (u.berth p b).landed = true →
      exec (.bcloseComplete p b cc) s = .next ((u.endOp p k .done).modBerth p b fun h => { h with closing := none, closeAt := none })) ∧
    (∀ w x, ((u.window p w).leaving.find? fun x => (u.window p w).accs.all fun a => a.era != x.2 || !a.landing cc) = some x →
      exec (.wcloseComplete p w cc) s = .next ((u.endOp p x.1 .done).modWindow p w fun h => { h with leaving := h.leaving.erase x })) ∧
    (∀ w c, ((u.window p w).leaving.find? fun x => (u.window p w).accs.all fun a => a.era != x.2 || !a.landing cc) = none →
      (u.window p w).closing = some k → (u.window p w).closeAt = some c → c ≤ cc → (u.window p w).accs.all (fun a => !a.landing cc) = true →
      exec (.wcloseComplete p w cc) s = .next ((u.endOp p k .done).modWindow p w fun h => { h with closing := none, closeAt := none }))

/-- A stream stands before a page that its chart cache holds: it waits on MIGRATING, ends with PAGE_NOT_PRESENT and CHT_FAULT_LAST where the page
has no location in HBM, with NO_RIGHTS writing an RO page, with TIMING_UNSAFE when scheduled across banks at different steps; else it enters the
page, in class C3 where it is BULK, the page lies in an enabled companion window or its reservation does not hold it, else in C1, and the cache's
entry counts one access and becomes the most recently used. Either way, and where the cache does not hold the page, the chart lines of the
pages ahead are asked for in class C0; a line that arrives fills the cache with the page's entry, one that did not come with DONE fills nothing. -/
def Sys2Proof.Rules.StreamPageEntry : Prop :=
  ∀ (p : Pos) (k : Fin 64) (cc : Nat) (s : State) (st : Stream),
    let u := s.run p cc
    let page : BitVec 25 := BitVec.ofNat 25 (st.pageAt st.req)
    let goes (v : State) : Prop := exec (.streamPageEntry p k cc) s = .next (v.translateAhead p st)
    let ends (v : State) (x : Status) : State := v.modStream p st.op fun y => y.stopAt st.req x
    ((s.ut p).cycle ≤ cc → u.stream p k = some st → st.before = true →
      (((u.ut p).cht.ents.find? fun e => e.page == page) = none → goes u ∧
        (∀ b, (∀ q ∈ (u.ut p).cht.pendFill, q.toNat / 8 ≠ st.pageAt st.req / 8) → u.chart.copyFor (bankOf p) = some b →
          page ∈ ((u.translateAhead p st).ut p).cht.pendFill ∧
          ∃ x ∈ (u.translateAhead p st).net, x.type = 9 ∧ x.write = false ∧ x.cls = .c0 ∧ x.tag = .fill p (st.pageAt st.req / 8))) ∧
      (∀ e, ((u.ut p).cht.ents.find? fun e => e.page == page) = some e →
        (bit e.entry 5 = true → st.waitMig = true → goes u) ∧
        (bit e.entry 5 = true → st.waitMig = false →
          goes ((u.modStream p st.op fun x => { x with waitMig := true }).modStg p fun g => { g with migWait := g.migWait + 1 })) ∧
        (bit e.entry 5 = false → entHere e.entry = false →
          goes (State.demand ((ends u .pageNotPresent).modCht p fun c => { c with
            faultAddr := BitVec.ofNat 41 (st.modelAt st.req), faultValid := true }) page e.entry)) ∧
        (bit e.entry 5 = false → entHere e.entry = true → st.outDir = true → bit e.entry 4 = true → goes (ends u .noRights)) ∧
        (bit e.entry 5 = false → entHere e.entry = true → (st.outDir = false ∨ bit e.entry 4 = false) → st.bulk = false →
          bankOfStack (entStack e.entry) ≠ bankOf p → u.banksDiffer = true → goes (ends u .timingUnsafe_)) ∧
        (bit e.entry 5 = false → entHere e.entry = true → (st.outDir = false ∨ bit e.entry 4 = false) →
          (st.bulk = true ∨ bankOfStack (entStack e.entry) = bankOf p ∨ u.banksDiffer = false) →
          ∃ v x y, exec (.streamPageEntry p k cc) s = .next v ∧ v.stream p k = some x ∧ x.page = some (page, e.entry) ∧ x.waitMig = false ∧
            x.req = st.req ∧
            (x.cls = .c3 ↔ (st.bulk = true ∨ u.inCwin page.toNat = true ∨
              u.c1Rate p st.op (entStack e.entry).val + st.rate > u.reservation p (entStack e.entry).val)) ∧ (x.cls = .c3 ∨ x.cls = .c1) ∧
            (v.ut p).cht.ents.head? = some y ∧ y.page = page ∧ y.entry = e.entry ∧ y.count = satAdd e.count 1 ∧
            v.chart = u.chart ∧ ∃ qs, v.net = u.net ++ qs ∧ ∀ q ∈ qs, q.type = 9 ∧ q.write = false ∧ q.cls = .c0))) ∧
    (∀ (n : BitVec 25) (q : Packet),
      (s.net.find? fun q => q.place == .delivered p && q.type == 0xA && decide (q.tag = .fill p (n.toNat / 8))) = some q →
      ∃ v, exec (.chartCacheFill p n) s = .next v ∧ q ∉ v.net ∧ (∀ x ∈ (v.ut p).cht.pendFill, x.toNat / 8 ≠ n.toNat / 8) ∧
        (q.status = .done → ∃ e ∈ (v.ut p).cht.ents, e.page = n ∧ e.entry = wordOf q.payload (n.toNat % 8)) ∧
        (q.status ≠ .done → (v.ut p).cht.ents = (s.ut p).cht.ents))

/-- Requests, reservations, releases and reads of a stream go chunk by chunk, each within one chunk and page: an IN chunk whose ring has room
is asked for line by line, one without waits until there is room; a chunk whose lines have come is released once its release cycle is there; an
OUT chunk is read and written line by line, up to a line with an uncorrectable word, where the stream ends; a request that would cross
on VC1 between banks at different steps ends the stream with TIMING_UNSAFE; a stream whose lines have moved ends its operation. -/
def Sys2Proof.Rules.StreamChunks : Prop :=
  ∀ (p : Pos) (k : Fin 64) (cc : Nat) (s : State) (st : Stream),
    let u := s.run p cc
    let ls := st.run1 st.req
    (s.ut p).cycle ≤ cc → u.stream p k = some st →
    (st.outDir = false → st.waitRing = false → st.ready cc = true →
      (u.ringRoom p ls.length = true → u.streamUnsafe p st = false →
        ∃ v x, exec (.streamChunkRequest p k cc) s = .next v ∧ v.stream p k = some x ∧ x.req = st.req + ls.length ∧
          x.outst = st.outst ++ ls.map (fun n => (n, u.now)) ∧ v.net.length = u.net.length + ls.length ∧ v.hbm = u.hbm) ∧
      (u.ringRoom p ls.length = true → u.streamUnsafe p st = true →
        exec (.streamChunkRequest p k cc) s = .next (u.modStream p st.op fun x => x.stopAt st.req .timingUnsafe_)) ∧
      (u.ringRoom p ls.length = false →
        exec (.streamChunkRequest p k cc) s = .next (u.modStream p st.op fun x => { x with waitRing := true }))) ∧
    (st.waitRing = true → st.ready cc = true → u.ringRoom p ls.length = true → u.streamUnsafe p st = false →
      ∃ v x, exec (.streamRingReserve p k cc) s = .next v ∧ v.stream p k = some x ∧ x.req = st.req + ls.length ∧ x.waitRing = false ∧
        v.net.length = u.net.length + ls.length) ∧
    (let n := min (chunkEnd st.rel) st.limit - st.rel
     let j := st.rel / 16
     st.outDir = false → n ≠ 0 → (∀ m ∈ List.range' st.rel n, ∃ e ∈ st.ring, e.1 = m) → st.wait = none → (u.core p).spd.zeroing = false →
     (if st.bulk then st.s else st.s + 2048 + cdiv (j * 128) st.rate) ≤ cc →
     ∃ v x, exec (.streamChunkRelease p k cc) s = .next v ∧ v.stream p k = some x ∧ x.rel = st.rel + n ∧
       (∀ e ∈ x.ring, st.rel + n ≤ e.1) ∧ cc < x.landAt ∧ v.net = u.net) ∧
    (st.outDir = true → st.ready cc = true → u.streamUnsafe p st = true →
      exec (.outChunkRead p k cc) s = .next (u.modStream p st.op fun x => x.stopAt st.req .timingUnsafe_)) ∧
    (st.outDir = true → st.ready cc = true → u.streamUnsafe p st = false → (∀ n ∈ ls, (u.core p).spd.badIn (st.localAt n) 64 = []) →
      ∃ v x qs, exec (.outChunkRead p k cc) s = .next v ∧ v.stream p k = some x ∧ x.req = st.req + ls.length ∧ v.net = u.net ++ qs ∧
        qs.length = ls.length ∧ (∀ q ∈ qs, q.type = 9 ∧ q.write = true) ∧
        qs.map Packet.payload = ls.map (fun n => memRead (u.core p).spd.mem (st.localAt n) 64)) ∧
    (∀ a n b, st.outDir = true → st.ready cc = true → u.streamUnsafe p st = false → st.stop = none → ls = a ++ n :: b →
      (∀ m ∈ a, (u.core p).spd.badIn (st.localAt m) 64 = []) → (u.core p).spd.badIn (st.localAt n) 64 ≠ [] →
      ∃ v x, exec (.outChunkRead p k cc) s = .next v ∧ v.stream p k = some x ∧ x.req = st.req + a.length ∧
        x.stop = some (n, .memoryUncorrectable) ∧ v.net.length = u.net.length + a.length) ∧
    (∀ o, (u.slot p k).op = some o → o.id = st.op → o.outcome = none → st.finished cc = true → (o.cancelled = false ∨ st.outst = []) →
      exec (.streamComplete p k cc) s = .next (u.endOp p k (match st.stop with | some x => x.2 | none => .done)))

/-- Move completions, and how a stream enters pages and goes chunk by chunk. -/
def Obligations.StreamsRun : Prop :=
  Sys2Proof.Rules.MoveCompletions ∧ Sys2Proof.Rules.StreamPageEntry ∧ Sys2Proof.Rules.StreamChunks

/-! ### Staging cache and stacks (7.4, 7.5) -/

/-- A line request at its home slice, for a line that is no part of a chart copy: a write puts the line in front, dirty, and answers DONE; a
read hit answers the line's data; a line in the slice's error list answers MEMORY_UNCORRECTABLE; a miss asks the row end for the line, whose
arrival answers the requester and fills the slice clean. A request for a line of a chart copy goes on to the row end. -/
def Sys2Proof.Rules.HomeSliceServes : Prop :=
  ∀ (id : Nat) (s : State) (q : Packet) (p : Pos),
    let m : StackN := Fin.ofNat 24 (fld q.addr 36 5)
    let a := fld q.addr 0 36
    s.packet id = some q → q.place = .delivered p → q.badHeader = false →
    (q.type = 9 → q.taken = false → s.forHbm q = false → s.notServed p q true = none → s.mustWait q = false →
      let fetches (v : State) : Prop := ∃ x ∈ v.net, x.id = s.nextPkt ∧ x.type = 9 ∧ x.tag = .slice p id ∧ x.addr = q.addr ∧
        x.dest.toNat = (rowEnd m).val ∧ (v.ut p).stg = (s.ut p).stg
      (s.chart.lineAt m a = none → q.write = true → ∃ v, exec (.lineReq id) s = .next v ∧
        (∃ l, (v.ut p).stg.line a = some l ∧ l.data = q.payload ∧ l.dirty = true ∧ l.failing = false) ∧
        q ∉ v.net ∧ (∃ x ∈ v.net, x.type = 0xA ∧ x.status = .done ∧ x.opId = q.opId)) ∧
      (∀ l, s.chart.lineAt m a = none → q.write = false → (a / 64) ∉ (s.ut p).stg.errList → (s.ut p).stg.line a = some l → l.failing = false →
        ∃ v, exec (.lineReq id) s = .next v ∧ q ∉ v.net ∧ (∃ x ∈ v.net, x.type = 0xA ∧ x.status = .done ∧ x.payload = l.data)) ∧
      (s.chart.lineAt m a = none → q.write = false → (a / 64) ∈ (s.ut p).stg.errList →
        ∃ v, exec (.lineReq id) s = .next v ∧ q ∉ v.net ∧ (∃ x ∈ v.net, x.type = 0xA ∧ x.status = .memoryUncorrectable)) ∧
      (s.chart.lineAt m a = none → q.write = false → (a / 64) ∉ (s.ut p).stg.errList → (s.ut p).stg.line a = none →
        ∃ v, exec (.lineReq id) s = .next v ∧ fetches v) ∧
      (s.chart.lineAt m a ≠ none → ∃ v, exec (.lineReq id) s = .next v ∧ fetches v)) ∧
    (∀ r, q.type = 0xA → q.tag = .slice p r.id → s.packet r.id = some r → q.status = .done → r.id ≠ id → r.write = false →
      let b := fld r.addr 0 36
      s.chart.lineAt (Fin.ofNat 24 (fld r.addr 36 5)) b = none → (b / 64) ∉ (s.ut p).stg.errList → (s.ut p).stg.line b = none →
      ∃ v, exec (.sliceMissFill id) s = .next v ∧
        (∃ l, (v.ut p).stg.line b = some l ∧ l.data = q.payload ∧ l.dirty = false ∧ l.failing = false) ∧
        (∃ x ∈ v.net, x.type = BitVec.ofNat 4 (r.type.toNat + 1) ∧ x.status = .done ∧ x.payload = q.payload))

/-- A row-end controller that serves, at the turn of a request: a write replaces the line and its errors, a read answers the line, or
MEMORY_UNCORRECTABLE and counts it; a read of a chart line answers eight entries of the copy, and what a chart cache adds is added to ACCESS in it.
A turn goes to C0 before all while C0 has used less than 1 percent of the window, and to C1 before C2 and C3, by release cycle. Every window of 4,096
cycles counts what lapsed in it. -/
def Sys2Proof.Rules.RowEndServes : Prop :=
  (∀ (id : Nat) (s : State) (q : Packet),
    let m := lineStack q
    let a := lineAddr q
    let k := s.hbm[m]
    s.packet id = some q → q.place = .delivered (rowEnd m) → q.type = 9 → q.taken = false → s.forHbm q = true → q.badHeader = false →
    k.initing = false → k.present = true → k.lost = false → k.selfRefresh = false → (Fin.ofNat 64 (a / 1024)) ∉ k.retraining →
    s.hbmTurn m q = true → s.lineFirst m q = true → s.notServed (rowEnd m) q true = none → s.mustWait q = false →
    (s.chart.lineAt m a = none → s.countOf q = none → q.write = true →
      ∃ v, exec (.hbmLineAccess id) s = .next v ∧ (v.hbm[m]).mem = memWrite k.mem (64 * (a / 64)) q.payload ∧
      (a / 64) ∉ (v.hbm[m]).bad ∧ (∃ x ∈ v.net, x.type = 0xA ∧ x.status = .done) ∧ q ∉ v.net) ∧
    (s.chart.lineAt m a = none → s.countOf q = none → q.write = false → (a / 64) ∉ k.bad →
      ∃ v, exec (.hbmLineAccess id) s = .next v ∧ (v.hbm[m]).mem = k.mem ∧ (v.hbm[m]).uncorr = k.uncorr ∧
      (∃ x ∈ v.net, x.type = 0xA ∧ x.status = .done ∧ x.payload = memRead k.mem (64 * (a / 64)) 64) ∧
      (v.hbm[m]).corrected = (if (a / 64) ∈ k.single then k.corrected + 1 else k.corrected)) ∧
    (s.countOf q = none → q.write = false → (a / 64) ∈ k.bad → ∃ v, exec (.hbmLineAccess id) s = .next v ∧ (v.hbm[m]).uncorr = k.uncorr + 1 ∧
      (∃ x ∈ v.net, x.type = 0xA ∧ x.status = .memoryUncorrectable)) ∧
    (∀ b l, s.chart.lineAt m a = some (b, l) → s.countOf q = none → q.write = false → (a / 64) ∉ k.bad →
      ∃ v, exec (.hbmLineAccess id) s = .next v ∧ (∃ x ∈ v.net, x.type = 0xA ∧ x.status = .done ∧ x.payload = s.chart.lineBytes b l)) ∧
    (∀ b l page n, s.chart.lineAt m a = some (b, l) → s.countOf q = some (page, n) →
      ∃ v, exec (.hbmLineAccess id) s = .next v ∧ v.chart = s.chart.addOne b page n)) ∧
  (∀ (s : State) (m : StackN) (q r : Packet), q ∈ s.hbmWaiting m → r ∈ s.hbmWaiting m → s.hbmTurn m q = true →
    (r.cls = .c0 → (s.hbm[m]).c0Lines * 100 < 4096 → q.cls = .c0) ∧
    (q.cls = .c1 → r.cls = .c1 → q.total ≤ r.total) ∧ (r.cls = .c1 → q.cls ≠ .c2 ∧ q.cls ≠ .c3)) ∧
  (∀ (m : StackN) (s : State),
    let k := s.hbm[m]
    exec (.hbmWriteShareWindow m) s = .next { s with hbm := s.hbm.set m { k with
      writeShare := if k.c1Bytes < 8 * k.outBytes then k.writeShare + 1 else k.writeShare
      c0Capped := if 4096 ≤ k.c0Lines * 100 then k.c0Capped + 1 else k.c0Capped
      c1Bytes := 0, outBytes := 0, c0Lines := 0 } })

/-- A partition write of 2 to 8 that changes the partition takes effect with the slices of the reach empty; any other is ignored. A flush reads as
running until FLUSH_DONE, which leaves no dirty line in the slice but one that fails, and drops the lines that were leaving. -/
def Sys2Proof.Rules.PartitionAndFlush : Prop :=
  (∀ (p : Pos) (v : BitVec 4) (s : State),
    ((v.toNat < 2 ∨ 8 < v.toNat ∨ v = (s.ut p).stg.ringMib) → exec (.stgPartWrite p v) s = .next s) ∧
    (2 ≤ v.toNat → v.toNat ≤ 8 → v ≠ (s.ut p).stg.ringMib →
      ∃ t, exec (.stgPartWrite p v) s = .next t ∧ (t.ut p).stg.ringMib = v ∧ (∀ q ∈ reachTiles (reachOf p), (t.ut q).stg.lines = []) ∧
        (∀ q, q ≠ p → (t.ut q).stg.ringMib = (s.ut q).stg.ringMib) ∧ (∀ q, q ∉ reachTiles (reachOf p) → t.tile q = s.tile q) ∧ t.net = s.net ∧
        t.chart = s.chart)) ∧
  (∀ (p : Pos) (s : State),
    (∃ t, exec (.stgFlush p) s = .next t ∧ (t.ut p).stg.flush = true ∧ (t.ut p).stg.lines = (s.ut p).stg.lines ∧ t.hbm = s.hbm) ∧
    ((s.ut p).stg.flush = true → ∃ t, exec (.stgFlushDone p) s = .next t ∧ (t.ut p).stg.flush = false ∧
      (∀ l ∈ (t.ut p).stg.lines, l.dirty = true → l.failing = true) ∧
      (t.ut p).stg.lines.map CLine.line = ((s.ut p).stg.lines.filter fun l => !l.leaving).map CLine.line))

/-- LINE_DATA for a stream's line n takes it off the outstanding list: data of an IN stream goes into the landing ring, an OUT stream counts one
line more accepted, an answer of another status ends the stream there, and an uncorrectable line is noted in STG_ECC_LAST unless that holds one
already. The answer to a slice's write-back drops the line that was leaving. -/
def Sys2Proof.Rules.LineAnswers : Prop :=
  ∀ (id n : Nat) (s : State) (q : Packet) (p : Pos),
    s.packet id = some q → q.id = id → q.place = .delivered p → q.type = 0xA → (s.ut p).flags.lost = false → q.badHeader = false →
    (∀ r k o st, q.tag = .stream r k n → q.echo = false → s.slotOfOp p q.opId = some k → (s.slot p k).op = some o → o.id = q.opId →
      s.stream p k = some st → st.op = o.id → (∃ e ∈ st.outst, e.1 = n) →
      (q.status = .done → st.outDir = false → ∃ v x, exec (.lineData id) s = .next v ∧ v.stream p k = some x ∧
        x.outst = st.outst.filter (fun e => e.1 ≠ n) ∧ x.ring = st.ring ++ [(n, q.payload)] ∧ x.req = st.req ∧ x.stop = st.stop ∧
        v.packet id = none) ∧
      (q.status = .done → st.outDir = true → ∃ v x, exec (.lineData id) s = .next v ∧ v.stream p k = some x ∧
        x.outst = st.outst.filter (fun e => e.1 ≠ n) ∧ x.rel = st.rel + 1 ∧ x.stop = st.stop) ∧
      (q.status ≠ .done → st.stop = none → ∃ v x, exec (.lineData id) s = .next v ∧ v.stream p k = some x ∧ x.stop = some (n, q.status) ∧
        x.ring = st.ring ∧ (q.status = .memoryUncorrectable → (s.ut p).stg.eccValid = false → (v.ut p).stg.eccValid = true ∧
          (v.ut p).stg.eccAddr = BitVec.ofNat 41 (st.modelAt n / 64 * 64)))) ∧
    (∀ r, q.tag = .back r n → ∃ v, exec (.lineData id) s = .next v ∧ v.packet id = none ∧
      (v.ut p).stg.lines = (s.ut p).stg.lines.filter fun l => !(l.line == n && l.leaving))

/-- Line requests at the home slice, transactions at the row end, partition writes and line answers. -/
def Obligations.LineTransactions : Prop :=
  Sys2Proof.Rules.HomeSliceServes ∧ Sys2Proof.Rules.RowEndServes ∧ Sys2Proof.Rules.PartitionAndFlush ∧ Sys2Proof.Rules.LineAnswers

/-! ### The page chart (7.6) -/

/-- An entry change that the chart takes sets MIGRATING in the copies in use, and waits for every working tile; a tile's acknowledgement drops the
page from its chart cache; when all have answered and no request to the page is outstanding, the new entry is written into each copy in use
and a second invalidation goes out, whose last acknowledgement completes the change (R204). -/
def Sys2Proof.Rules.ChartChange : Prop :=
  ∀ (s : State) (page : BitVec 25) (new : Word),
    (s.chart.upd = none → s.chart.run = none → s.entryBad (setMig new false) = false → s.chart.inUse = true →
      ∃ v, exec (.chartEntryUpdate page new) s = .next v ∧
        (∃ u, v.chart.upd = some u ∧ u.page = page ∧ u.new = setMig new false ∧ u.old = s.entry page.toNat ∧ u.second = false ∧
          ∀ p, p ∈ u.waiting ↔ ((s.ut p).flags.fencedUt = false ∧ (s.ut p).flags.lost = false)) ∧
        (s.chart.wValid = true → bit (tblGet 0 v.chart.west page.toNat) 5 = true) ∧
        (s.chart.eValid = true → bit (tblGet 0 v.chart.east page.toNat) 5 = true) ∧
        v = { s with chart := v.chart, hbm := v.hbm }) ∧
    ((s.chart.upd ≠ none ∨ s.chart.run ≠ none ∨ s.entryBad (setMig new false) = true ∨ s.chart.inUse = false) →
      exec (.chartEntryUpdate page new) s = .next s) ∧
    (∀ u p, s.chart.upd = some u → u.page = page → p ∈ u.waiting → (u.second = false ∨ ∃ q ∈ u.waiting, q ≠ p) →
      ∃ v, exec (.chartInvalidation p page) s = .next v ∧ v.chart.upd = some { u with waiting := u.waiting.filter (fun q => q ≠ p) } ∧
        (∀ e ∈ (v.ut p).cht.ents, e.page ≠ page) ∧ v.hbm = s.hbm ∧ (∀ q, q ≠ p → v.tile q = s.tile q)) ∧
    (∀ u p, s.chart.upd = some u → u.page = page → u.waiting = [p] → u.second = true → u.manifest = false →
      ∃ v, exec (.chartInvalidation p page) s = .next v ∧ v.chart.upd = none ∧ (∀ e ∈ (v.ut p).cht.ents, e.page ≠ page)) ∧
    (∀ u, s.chart.upd = some u → u.page = page → u.second = false → u.waiting = [] → s.pageBusy page.toNat = false → s.pageHeld page.toNat = [] →
      s.chart.run = none →
      exec (.chartUpdateDrained page) s = .next (((s.putEntry page.toNat u.new).modChart fun c => { c with
        upd := some { u with second := true, waiting := s.chartTiles } }).wake)) ∧
    (∀ e : Word,
      (s.chart.wValid = true → (s.putEntry page.toNat e).chart.west = tblPut 0 s.chart.west page.toNat e) ∧
      (s.chart.wValid = false → (s.putEntry page.toNat e).chart.west = s.chart.west) ∧
      (s.chart.eValid = true → (s.putEntry page.toNat e).chart.east = tblPut 0 s.chart.east page.toNat e) ∧
      (s.chart.eValid = false → (s.putEntry page.toNat e).chart.east = s.chart.east))

/-- The migration engine takes requests in order of arrival into its 256 places, and begins one at a time: it refuses all while the panel is
Moored, ends with DONE where the page is already where it is to go and with PAGE_NOT_PRESENT where it has no entry; else it plans the new
entry and invalidates the page. A demand migration that has ended frees the engine; a retirement, and a migration of a CHART manifest, tell whoever
asked. CHT_HOME moves the copies; a count flush sends every private count to each copy in use and clears it. -/
def Sys2Proof.Rules.MigrationEngine : Prop :=
  (∀ (s : State) (r : MigReq) (l : List MigReq), s.chart.waiting = r :: l → s.chart.queue.length < 256 →
    exec .migrationQueueAdmit s = .next { s with chart := { s.chart with queue := s.chart.queue ++ [r], waiting := l } }) ∧
  (∀ (t : Nat) (s : State) (r : MigReq) (l : List MigReq), s.chart.queue = r :: l → s.chart.upd = none → s.chart.run = none →
    let e := s.entry r.page.toNat
    let ends (st : Status) : Prop := exec (.migrationStart t) s = .next { s.at_ t with chart := { s.chart with
      queue := l, run := some { req := r, old := e, new := e, host := 0, result := some st } } }
    (s.lkh.pstate = .moored → ends .refusedCapacity) ∧
    (s.lkh.pstate ≠ .moored → r.kind ≠ .retire → entValid e = false → ends .pageNotPresent) ∧
    (s.lkh.pstate ≠ .moored → r.kind = .out → entValid e = true → entHost e = true → ends .done) ∧
    (s.lkh.pstate ≠ .moored → (r.kind = .in_ ∨ r.kind = .demand) → entValid e = true → entHost e = false → ends .done) ∧
    (∀ u new h, s.lkh.pstate ≠ .moored →
      ({ s.at_ t with chart := { s.chart with queue := l } } : State).migPlan r e = .moves u new h →
      ∃ v w, exec (.migrationStart t) s = .next v ∧ v.chart.queue = u.chart.queue ∧
        v.chart.run = some { req := r, old := e, new := new, host := h, result := none } ∧ v.chart.upd = some w ∧ w.page = r.page ∧ w.new = new)) ∧
  (∀ (t : Nat) (s : State) (r : MigRun) (st : Status), s.chart.run = some r → r.result = some st → s.chart.upd = none →
    let u : State := { s.at_ t with chart := { s.chart with run := none } }
    (r.req.kind = .demand → exec (.migrationComplete t) s = .next u) ∧
    (r.req.kind = .retire → exec (.migrationComplete t) s = .next (u.retired r.req.page r.old st)) ∧
    ((r.req.kind = .in_ ∨ r.req.kind = .out) → exec (.migrationComplete t) s = .next (u.chartEntryDone st r.req.page))) ∧
  (∀ (v : Word) (s : State), ∃ t, exec (.chtHomeWrite v) s = .next t ∧ t.chart.wHome = v.extractLsb' 0 5 ∧ t.chart.eHome = v.extractLsb' 8 5 ∧
    t.chart.wValid = bit v 16 ∧ t.chart.eValid = bit v 17 ∧ (bit v 16 = true → s.chart.wValid = true → t.chart.west = s.chart.west) ∧
    (bit v 16 = true → s.chart.wValid = false → s.chart.eValid = false → t.chart.west = []) ∧ t = { s with chart := t.chart }) ∧
  (∀ s : State, ∃ t, exec .chtCountFlush s = .next t ∧ (∀ p, ∀ e ∈ (t.ut p).cht.ents, e.count = 0) ∧
    (∀ p, (t.ut p).cht.ents.map ChartEnt.page = (s.ut p).cht.ents.map ChartEnt.page) ∧ t.hbm = s.hbm ∧ t.chart = s.chart ∧
    (∀ p, ∀ e ∈ (s.ut p).cht.ents, e.count ≠ 0 → ∀ b, s.chart.valid b = true →
      ∃ q ∈ t.net, q.type = 9 ∧ q.cls = .c0 ∧ q.tag = .count e.page.toNat e.count.toNat))

/-- Page chart entry changes and the migration engine. -/
def Obligations.PageChart : Prop :=
  Sys2Proof.Rules.ChartChange ∧ Sys2Proof.Rules.MigrationEngine

/-! ### Barges, windows, chambers (chapter 08) -/

/-- A barge that reaches its berth: refused by the first row of Table 8.8 that holds, and BERTH_FULL is counted; else a plain barge gets the entry
at the tail, is landing, and is not answered yet; the first contribution of a KEY opens a group, a later one joins it, in an entry of its
own where the berth is ORDERED. -/
def Sys2Proof.Rules.BargeArrival : Prop :=
  ∀ (id cc : Nat) (s : State) (q : Packet) (p : Pos),
    let u := s.run p cc
    let k : Fin 64 := Fin.ofNat 64 (fld q.hdr.w0 7 6)
    let b := u.berth p k
    s.packet id = some q → q.place = .delivered p → q.type = 5 → q.taken = false → (s.ut p).cycle ≤ cc → (s.ut p).flags.lost = false →
    q.badHeader = false → (u.core p).spd.zeroing = false →
    (∀ st, u.bargeRefused p q b cc = some st → st ≠ .heldTimeout →
      exec (.barge id cc) s = .next ((if st = .berthFull then u.modBerth p k fun b => { b with fullAnswers := b.fullAnswers + 1 } else u).reply p q st [])) ∧
    (u.bargeRefused p q b cc = some .heldTimeout → exec (.barge id cc) s = .next ((u.yieldFull p k q cc).reply p q .heldTimeout [])) ∧
    (u.bargeRefused p q b cc = none → b.weir = false →
      ∃ v e, exec (.barge id cc) s = .next v ∧ (v.berth p k).queue = b.queue ++ [e] ∧ e.idx = b.freeIdx ∧ e.hdr = q.hdr ∧ e.whole = false ∧
        e.posted = false ∧ (∃ c, e.landing = [c] ∧ c.payload = q.payload ∧ c.packet = id ∧ cc < c.landAt) ∧ v.net.length = u.net.length ∧
        (∃ x, v.packet id = some x ∧ x.taken = true)) ∧
    (u.bargeRefused p q b cc = none → b.weir = true → b.group (hdrKey16 q.hdr) = none →
      ∃ v g, exec (.barge id cc) s = .next v ∧ (v.berth p k).groups = b.groups ++ [g] ∧ g.key.toNat = fld q.hdr.w2 0 16 ∧ g.entry = b.freeIdx ∧
        g.merged = 0 ∧ g.count.toNat = fld q.hdr.w2 16 12 ∧ g.firstCc = cc ∧ (v.berth p k).queue.length = b.queue.length + 1) ∧
    (∀ g, u.bargeRefused p q b cc = none → b.weir = true → b.ordered = false → b.group (hdrKey16 q.hdr) = some g →
      ∃ v, exec (.barge id cc) s = .next v ∧ (v.berth p k).groups = b.groups ∧ (v.berth p k).queue.length = b.queue.length) ∧
    (∀ g, u.bargeRefused p q b cc = none → b.weir = true → b.ordered = true → b.group (hdrKey16 q.hdr) = some g →
      ∃ v, exec (.barge id cc) s = .next v ∧ (v.berth p k).queue.length = b.queue.length + 1 ∧
        (v.berth p k).groups = b.groups.map fun x => if x.key = g.key then { x with members := x.members ++ [b.freeIdx] } else x)

/-- Landing, weirs and delivery: a plain barge that has landed becomes whole, with its arrival cycle in its landing header, and is answered DONE;
a group of an ORDERED weir that has met its COUNT is combined into its first entry and its other entries are freed; one that times out is
delivered in part and its KEY retired; a whole head barge is delivered, to its handler where the table has one. -/
def Sys2Proof.Rules.BargeDeliveryRules : Prop :=
  ∀ (p : Pos) (k : Fin 64) (cc : Nat) (s : State),
    let u := s.run p cc
    let b := u.berth p k
    (s.ut p).cycle ≤ cc →
    (∀ e c n, b.weir = false → b.entry n = some e → (e.landing.find? fun c => decide (c.landAt ≤ cc)) = some c →
      ∃ v x, exec (.bargeWhole p k n cc) s = .next v ∧ (v.berth p k).entry n = some x ∧ x.whole = true ∧ x.payload = c.payload ∧
        x.landing = e.landing.erase c ∧ (v.berth p k).queue.length = b.queue.length ∧
        (v.core p).pend = ((u.core p).later cc (.mem (b.entryAt n + 24) (natBytes (u.sinceTick p c.landAt) 4))).pend ∧
        (∀ q, u.packet c.packet = some q → ∃ a ∈ v.net, a.status = .done ∧ a.opId = q.opId ∧ a.type = BitVec.ofNat 4 (q.type.toNat + 1))) ∧
    (∀ g key, b.group key = some g → b.ordered = true → g.count.toNat ≤ g.merged →
      ∃ v, exec (.orderedCombine p k key cc) s = .next v ∧ (v.berth p k).groups = b.groups.filter (fun x => x.key ≠ g.key) ∧
        (v.berth p k).excess = b.excess + BitVec.ofNat 12 (g.merged - g.count.toNat) ∧
        (∀ x ∈ (v.berth p k).queue, x.idx = g.entry → x.whole = true ∧ x.combined = true ∧ x.payload = b.groupPayload g) ∧
        (∀ x ∈ (v.berth p k).queue, x.idx ∈ g.members → x.idx = g.entry)) ∧
    (∀ g key, b.group key = some g → b.weirTimeout ≠ 0 → g.firstCc + b.weirTimeout.toNat ≤ cc → g.merged < g.count.toNat →
      ∃ v, exec (.weirTimeout p k key cc) s = .next v ∧ (v.berth p k).groups = b.groups.filter (fun x => x.key ≠ g.key) ∧
        (v.berth p k).retired = b.retired ++ [g.key] ∧ (∀ x ∈ (v.berth p k).queue, x.idx = g.entry → x.whole = true ∧ x.combined = true)) ∧
    (∀ e r, b.pass.queue = e :: r → e.whole = true → e.member = false → e.posted = false →
      ∃ v, exec (.bargeDelivery p k cc) s = .next v ∧ (∀ x ∈ (v.berth p k).queue, x.idx = e.idx → x.posted = true) ∧
        (bit (handlerEntry (u.core p) (fld e.hdr.w0 13 8)) 28 = true →
          (v.core p).ctl.queue = (u.core p).ctl.queue ++ [invocationOf b.pass k e cc]) ∧
        (bit (handlerEntry (u.core p) (fld e.hdr.w0 13 8)) 28 = false → (v.core p).ctl.queue = (u.core p).ctl.queue))

/-- Barges at their berth and their delivery. -/
def Obligations.BargesArrive : Prop :=
  Sys2Proof.Rules.BargeArrival ∧ Sys2Proof.Rules.BargeDeliveryRules

/-- The sender: BERTH_FULL before the deadline backs off, doubled up to 2,048 cycles; any other answer frees the staging entry and ends the
slot's operation with its status; BERTH_FULL at the deadline does too, and notes a stalled send; after the backoff the whole barge goes out
again, unless it would cross on VC1 between banks at different steps. -/
def Sys2Proof.Rules.BargeSender : Prop :=
  ∀ (p : Pos) (g : Fin 8) (cc : Nat) (s : State) (e : Staged),
    let u := s.run p cc
    (s.ut p).cycle ≤ cc →
    (∀ id q o, s.packet id = some q → q.place = .delivered p → q.type = 6 → q.taken = false → (s.ut p).flags.lost = false → q.badHeader = false →
      q.echo = false → u.stagedOf p q = some g → (u.core p).mov.staging[g] = some e → (u.slot p e.slot).op = some o →
      u.slotOfOp p o.id = some e.slot →
      (q.status = .berthFull → cc < e.deadline → ∃ v x, exec (.bargeAns id cc) s = .next v ∧ (v.core p).mov.staging[g] = some x ∧
        x.retryAt = some (cc + e.backoff) ∧ x.backoff = min (2 * e.backoff) 2048 ∧ x.inFlight = false ∧ x.payload = e.payload ∧ x.deadline = e.deadline) ∧
      (q.status ≠ .berthFull → ∃ v y, exec (.bargeAns id cc) s = .next v ∧ (v.core p).mov.staging[g] = none ∧ (v.slot p e.slot).op = some y ∧
        y.outcome = some q.status ∧ (v.core p).mov.stalls = (u.core p).mov.stalls) ∧
      (q.status = .berthFull → e.deadline ≤ cc → ∃ v y, exec (.bargeAns id cc) s = .next v ∧ (v.core p).mov.staging[g] = none ∧
        (v.slot p e.slot).op = some y ∧ y.outcome = some .berthFull ∧ (v.core p).mov.stalls.length = (u.core p).mov.stalls.length + 1)) ∧
    (∀ c, (u.core p).mov.staging[g] = some e → e.retryAt = some c → c ≤ cc →
      (u.timingUnsafe p (u.vcOf p e.ctx) (hdrLt e.hdr) = false →
        ∃ v x y, exec (.bargeRetry p g cc) s = .next v ∧ (v.core p).mov.staging[g] = some x ∧ x.inFlight = true ∧ x.retryAt = none ∧
          v.net = u.net ++ [y] ∧ y.type = 5 ∧ y.payload = e.payload ∧ y.hdr = e.hdr) ∧
      (u.timingUnsafe p (u.vcOf p e.ctx) (hdrLt e.hdr) = true →
        exec (.bargeRetry p g cc) s = .next ((u.modStage p g fun _ => none).endOp p e.slot .timingUnsafe_)))

/-- Remote writes: the first packet of a write is checked against its window in the order of Table 8.11; a refusal is counted and answered, an
accepted packet's bytes go through NI, and its answer DONE leaves no earlier than they have landed. The last answer of a write, of a CSIG or of a
read ends its operation with the first status other than DONE; data read land through DI, here where no stream chunk is due. An answer that
finds no operation is discarded and counted. -/
def Sys2Proof.Rules.RemoteWrites : Prop :=
  ∀ (id cc : Nat) (s : State) (q : Packet) (p : Pos),
    let u := s.run p cc
    let k : Fin 256 := Fin.ofNat 256 q.win.toNat
    let w := (u.window p k).tidy cc
    s.packet id = some q → q.id = id → q.place = .delivered p → q.taken = false → (s.ut p).cycle ≤ cc → (s.ut p).flags.lost = false →
    q.badHeader = false →
    (∀ st, q.type = 3 → (u.core p).spd.zeroing = false → w.accs.any (fun a => a.of q) = false → u.writeRefused p q w cc = some st →
      ∃ v, exec (.wr id cc) s = .next v ∧ (v.window p k).refused = w.refused + 1 ∧ (∃ a ∈ v.net, a.type = 4 ∧ a.status = st ∧ a.opId = q.opId) ∧
        q ∉ v.net ∧ (v.core p).spd = (u.core p).spd ∧ (v.core p).pend = (u.core p).pend) ∧
    (q.type = 3 → (u.core p).spd.zeroing = false → w.accs.any (fun a => a.of q) = false → u.writeRefused p q w cc = none → q.payload ≠ [] →
      let x := u.niWrite p cc (addrOff q.addr) q.payload .mem
      cc < x.2 ∧ ∃ v, exec (.wr id cc) s = .next v ∧ (v.window p k).refused = w.refused ∧ v.core p = x.1.core p ∧
        (∃ a ∈ v.net, a.type = 4 ∧ a.status = .done ∧ a.opId = q.opId ∧ a.readyAt = x.2) ∧ q ∉ v.net) ∧
    (∀ n o, (∀ e off, q.tag ≠ .errand e off) → q.echo = false → u.slotOfOp p q.opId = some n → (u.slot p n).op = some o → o.id = q.opId →
      o.left = 1 → o.outcome = none →
      (q.type = 4 → ∃ v y, exec (.wrAns id cc) s = .next v ∧ (v.slot p n).op = some y ∧
        y.outcome = some (if o.worst = .done then q.status else o.worst) ∧ v.net = u.net.filter (fun x => x.id ≠ q.id)) ∧
      (q.type = 8 → ∃ v y, exec (.csigAns id cc) s = .next v ∧ (v.slot p n).op = some y ∧
        y.outcome = some (if o.worst = .done then q.status else o.worst)) ∧
      (q.type = 2 → (u.core p).spd.zeroing = false → (∀ x ∈ (u.core p).mov.streams, x.dueIn cc = false) → q.status = .done → q.payload ≠ [] →
        ∃ v y due, exec (.rdData id cc) s = .next v ∧ (v.slot p n).op = some y ∧ cc < due ∧ due ≤ y.landAt ∧
          y.outcome = some o.worst ∧ (v.core p).pend = ((u.core p).later due (.mem q.base.toNat q.payload)).pend)) ∧
    ((∀ e off, q.tag ≠ .errand e off) → q.echo = false → u.slotOfOp p q.opId = none →
      (q.type = 4 → exec (.wrAns id cc) s = .next ((u.dropPacket id).late p)) ∧
      (q.type = 2 → (u.core p).spd.zeroing = false → exec (.rdData id cc) s = .next ((u.dropPacket id).late p)))

/-- Answers at the sender, and remote writes at their window. -/
def Obligations.SendersAndWindows : Prop :=
  Sys2Proof.Rules.BargeSender ∧ Sys2Proof.Rules.RemoteWrites

/-- Chambers: SIGNAL(n) adds n, saturating, and a chamber is reached when its count is at least its target; ARM(n) zeroes the count and sets
the target. A signal that arrives at a tile is carried out and answered, at LH-C too, or answered there with the status that refuses it; an
ARM that arrives zeroes a Canal chamber and sets its target, and every mirror is sent it; an update that arrives shows in the tile's mirror. -/
def Obligations.ChamberSignals : Prop :=
  (∀ (c : Chamber) (n : Nat) (m : BitVec 32),
    (c.signal n).count.toNat = min (c.count.toNat + n) (2 ^ 32 - 1) ∧ (c.signal n).target = c.target ∧
    ((c.signal n).sat = true ↔ (c.sat = true ∨ 2 ^ 32 ≤ c.count.toNat + n)) ∧
    (c.reached = true ↔ c.target.toNat ≤ c.count.toNat) ∧ Chamber.arm m = { count := 0, target := m, sat := false }) ∧
  (∀ (id cc : Nat) (s : State) (q : Packet), s.packet id = some q → q.type = 7 → q.badHeader = false →
    (∀ p, q.place = .delivered p → q.taken = false → (s.ut p).cycle ≤ cc → (s.ut p).flags.lost = false →
      ((s.run p cc).core p).ctl.probed ≠ some cc → (s.run p cc).notServed p q false = none → tagBad ((s.run p cc).ut p) q = none →
      exec (.chamberSignalArrival id cc) s = .next (((s.run p cc).signalTile p (addrChamber q.addr % 2048) q.arg.toNat).reply p q .done [])) ∧
    (q.place = .canal 1 → s.dieOff 1 = false → s.houseResets 1 = false → s.canalRefused q = none →
      ∃ v, exec (.chamberSignalArrival id cc) s = .next v ∧
        v.canal = tblPut {} s.canal (addrChamber q.addr) ((tblGet {} s.canal (addrChamber q.addr)).signal q.arg.toNat) ∧
        (∃ a ∈ v.net, a.type = 8 ∧ a.status = .done) ∧ q ∉ v.net ∧
        (∀ p, (v.ut p).mirrorDue = if (tblGet {} s.canal (addrChamber q.addr)).reached = false ∧
            ((tblGet {} s.canal (addrChamber q.addr)).signal q.arg.toNat).reached = true
          then (s.ut p).mirrorDue ++ [(Fin.ofNat 8192 (addrChamber q.addr), true)] else (s.ut p).mirrorDue)) ∧
    (∀ st, q.place = .canal 1 → s.dieOff 1 = false → s.houseResets 1 = false → s.canalRefused q = some st →
      exec (.chamberSignalArrival id cc) s = .next (s.replyCanal 1 q st []))) ∧
  (∀ (id cc : Nat) (s : State) (q : Packet), s.packet id = some q → q.id = id → q.type = 0xD → q.place = .canal 1 → s.houseResets 1 = false →
    s.dieOff 1 = false → tblGet 0 s.canalSig (addrChamber q.addr) ≤ cc →
    exec (.canalArmArrival id cc) s = .next ((s.dropPacket id).armCanal (addrChamber q.addr) (BitVec.ofNat 32 (bytesNat q.payload))) ∧
    ((s.dropPacket id).armCanal (addrChamber q.addr) (BitVec.ofNat 32 (bytesNat q.payload))).canal =
      tblPut {} s.canal (addrChamber q.addr) { count := 0, target := BitVec.ofNat 32 (bytesNat q.payload), sat := false }) ∧
  (∀ (p : Pos) (j : Fin 8192) (s : State) (r : Bool), (takeUpdate j (s.ut p).mirrorDue).1 = some r →
    let u := s.modUt p fun u => { u with
      mirrorDue := (takeUpdate j (s.ut p).mirrorDue).2
      mirror := if r then (if u.mirror.contains j then u.mirror else j :: u.mirror) else u.mirror.filter fun c => c != j }
    exec (.mirrorUpdate p j) s = .next (if r then u.trigger p j.val else u) ∧ (r = true ↔ (u.ut p).mirror.contains j = true))

/-! ### Fabric (chapter 09) -/

/-- A packet moves by one hop. At a router a packet whose exit is here goes to the tile's interface, a Canal die or the spare link; one that is
under way goes to the neighbour in dimension order, or as its override says, at its turn and with MARK set where its VC2 queue is long; without
its turn it stays. In the quiet window, or with the data-path clock stopped, nothing crosses; an absent LT and a dropped seam refuse it, a request
with TILE_FENCED, counted; a reserved encoding is discarded and counted. Of the packets that want one output and hold a credit, none goes before a
VC0 packet while VC0 keeps within its share, and none of VC2 before a VC1 packet. An interface injects a packet with the routing version in force,
an earlier request on its VC to its destination before it; a spare link delivers; a Canal die's packet goes to its nearest attachment in service. -/
def Sys2Proof.Rules.PacketHops : Prop :=
  ∀ (id : Nat) (s : State) (q : Packet) (p : Pos),
    let u := s.ut p
    let n (x : Nat) := ovrAt u.mesh q.epoch x
    let dir (x : Pos) (o : Nat) := hopDir p x (if q.isRequest then (n o).req else (n o).rpl)
    let stays : Prop := exec (.packetRoute id) s = .next s
    let goesTo (d : Place) : Prop := ∃ v z, exec (.packetRoute id) s = .next v ∧ v.packet id = some z ∧ z.place = d ∧ z.payload = q.payload ∧
      z.hdr = q.hdr ∧ (z.mark = true ↔ (q.mark = true ∨ (q.vc = 2 ∧ u.mesh.thresh.toNat ≤ s.outputQueue p q))) ∧ (∀ r, r ≠ p → v.tile r = s.tile r)
    s.packet id = some q → q.id = id →
    (q.place = .router p → q.badHeader = true → exec (.packetRoute id) s = .next ((s.dropPacket id).modMesh p fun m => { m with badHdr := m.badHdr + 1 })) ∧
    (q.place = .router p → s.combineAt p q = none →
      (∀ o, q.badHeader = false → s.exitOf p q = .at_ p false o → q.dkind ≠ 2 → s.routeTurn p q = true → goesTo (.delivered p)) ∧
      (∀ sp o, q.badHeader = false → s.exitOf p q = .at_ p sp o → q.dkind = 2 → s.routeTurn p q = true →
        goesTo (.canal (Fin.ofNat 5 q.dest.toNat))) ∧
      (∀ o, q.badHeader = false → s.exitOf p q = .at_ p true o → q.dkind ≠ 2 → s.seamsHeld p = false → s.routeTurn p q = true →
        goesTo (.spareLink p)) ∧
      (∀ sp o, q.badHeader = false → s.exitOf p q = .at_ p sp o → s.routeTurn p q = false → stays) ∧
      (∀ x sp o, q.badHeader = false → s.exitOf p q = .at_ x sp o → x ≠ p → (u.flags.quiet = true ∨ u.clk.running = false) → stays) ∧
      (∀ x sp o y, q.badHeader = false → s.exitOf p q = .at_ x sp o → x ≠ p → u.flags.quiet = false → u.clk.running = true →
        s.seamDropped p (dir x o) = false → neighbour p (dir x o) = some y →
        (s.routeTurn p q = true → goesTo (.router y)) ∧ (s.routeTurn p q = false → stays)) ∧
      ((s.exitOf p q = .absent ∨ ∃ x sp o, s.exitOf p q = .at_ x sp o ∧ x ≠ p ∧ u.flags.quiet = false ∧ u.clk.running = true ∧
          s.seamDropped p (dir x o) = true) → q.badHeader = false → q.isRequest = true → q.type ≠ 0xD →
        ∃ v, exec (.packetRoute id) s = .next v ∧ (v.ut p).mesh.dropped = u.mesh.dropped + 1 ∧ q ∉ v.net ∧
          ∃ a ∈ v.net, a.status = .tileFenced ∧ a.opId = q.opId) ∧
      (∀ x, x ≠ p → ((n x.val).req = 0 → hopDir p x (n x.val).req =
        if colOf p < colOf x then .e else if colOf x < colOf p then .w else if rowOf p < rowOf x then .s else .n)) ∧
      (s.routeTurn p q = true → ∀ x ∈ s.rivals p q, s.credit p x = true →
        (x.vc = 0 → q.vc ≠ 0 → s.vc0Spent p q = true) ∧ (x.vc = 1 → q.vc ≠ 2 ∧ q.vc ≠ 3))) ∧
    (q.place = .source p → s.onExpress q = false → id ∉ u.mesh.vc2Wait → s.overtakes p q = false → s.bufferTakes (s.injectAt p) 4 q = true →
      (s.injectAt p = p ∨ s.seamsHeld p = false) →
      ∃ v z, exec (.packetRoute id) s = .next v ∧ v.packet id = some z ∧ z.place = .router (s.injectAt p) ∧ z.epoch = u.mesh.epoch ∧ z.payload = q.payload) ∧
    (q.place = .source p → s.onExpress q = false → s.overtakes p q = true → stays) ∧
    (q.place = .spareLink p → exec (.packetRoute id) s = .next (s.movePacket id fun y => { y with place := .delivered (spareBeside p) })) ∧
    (∀ d x, q.place = .canal d → s.onExpress q = false → q.dkind ≠ 2 → s.dieOff d = false → nearest s (mkPos 5 5) (attachments d) = some x →
      s.bufferTakes x 4 q = true →
      exec (.packetRoute id) s = .next (s.movePacket id fun y => { y with place := .router x, epoch := (s.ut x).mesh.epoch, inPort := 4 }))

/-- Combining routers: the first combining barge of a group is held for HOLD cycles in a free entry; one that meets it merges with it, MERGED adding
up, MASK uniting and the payloads combined, and the merged barge goes on when COUNT is met, or as it is when its hold expires. -/
def Sys2Proof.Rules.CombiningRouters : Prop :=
  (∀ (id : Nat) (s : State) (q : Packet) (p : Pos), s.packet id = some q → q.id = id → q.place = .router p → q.badHeader = false →
    (s.ut p).mesh.combEn = true → q.type = 5 → hdrCombine q.hdr = true → q.mask ≠ 0 → q.passed = false → marksOrdered (s.ut p).mesh q = false →
    (∀ e : Fin 16, s.mergeWith p q = none → (s.ut p).mesh.comb[e] = none → (∀ f < e, (s.ut p).mesh.comb[f] ≠ none) →
      exec (.packetRoute id) s = .next ((s.modPacket id fun x => { x with place := .combining p }).modMesh p fun m =>
        { m with comb := m.comb.set e (some { packet := id, expires := (s.ut p).cycle + m.hold.toNat }) })) ∧
    (∀ e h, s.mergeWith p q = some (e, h) → hdrMerged h.hdr + hdrMerged q.hdr < 4096 →
      ∃ v z, exec (.packetRoute id) s = .next v ∧ v.packet id = none ∧ v.packet h.id = some z ∧ z.mask = h.mask ||| q.mask ∧
        hdrMerged z.hdr = hdrMerged h.hdr + hdrMerged q.hdr ∧ z.payload = combine (BitVec.ofNat 2 (hdrOp h.hdr)) h.payload q.payload ∧
        (hdrMerged h.hdr + hdrMerged q.hdr < hdrCount h.hdr → z.place = h.place ∧ v.tiles = s.tiles) ∧
        (hdrCount h.hdr ≤ hdrMerged h.hdr + hdrMerged q.hdr → z.place = .router p ∧ z.passed = true ∧ (v.ut p).mesh.comb[e] = none))) ∧
  (∀ (p : Pos) (e : Fin 16) (cc : Nat) (s : State) (c : CombEnt), (s.ut p).mesh.comb[e] = some c → c.expires ≤ cc →
    exec (.combineHoldExpiry p e cc) s = .next ((s.modPacket c.packet fun x => { x with place := .router p, passed := true }).modMesh p fun m =>
      { m with comb := m.comb.set e none }))

/-- One hop of a packet, and combining routers. -/
def Obligations.PacketHops : Prop :=
  Sys2Proof.Rules.PacketHops ∧ Sys2Proof.Rules.CombiningRouters

/-- The sluice, the express lanes, flit replay and the reply timer: 256 cycles without an echo raise the window by STEP up to WMAX; a waiting
request that fits leaves the sluice and is counted; an express frame at its turn is delivered with the routing version in force and the next of its
kind may leave after its allowance, one that finds it spent waits and is counted once; a corrupt flit is replayed, with a slip; a request
unanswered for the timer's time ends its operation with REPLY_TIMEOUT, a stream at the line that is missing. -/
def Obligations.SluiceExpressTimer : Prop :=
  (∀ (p : Pos) (cc : Nat) (s : State), (s.ut p).cycle ≤ cc → (s.ut p).mesh.lastEcho + 256 ≤ cc → (s.ut p).mesh.w.toNat ≤ (s.ut p).mesh.wmax.toNat →
    ∃ v, exec (.sluiceRecovery p cc) s = .next v ∧
      (v.ut p).mesh.w.toNat = min ((s.ut p).mesh.w.toNat + (s.ut p).mesh.stepF.toNat) (s.ut p).mesh.wmax.toNat ∧ (v.ut p).mesh.lastEcho = cc) ∧
  (∀ (p : Pos) (cc id : Nat) (s : State) (q : Packet) (r : List Nat), (s.ut p).cycle ≤ cc → (s.ut p).mesh.vc2Wait = id :: r → s.packet id = some q →
    (s.run p cc).fitsWindow p q.flits = true →
    ∃ v, exec (.sluiceInject p cc) s = .next v ∧ (v.ut p).mesh.vc2Wait = r ∧ v.net = s.net ∧
      (∀ k o, ((s.run p cc).slot p k).op = some o → o.id = q.opId → o.outcome = none →
        ∃ y, (v.slot p k).op = some y ∧ y.vc2 = o.vc2 + q.flits)) ∧
  (∀ (id xc : Nat) (s : State) (q : Packet) (p : Pos) (d : Place), s.packet id = some q → q.id = id → q.place = .source p → s.onExpress q = true →
    s.expressDest p q = some d → id ∉ (s.ut p).mesh.vc2Wait → s.overtakes p q = false →
    ((q.isRequest = false ∨ (if q.towpath then (s.ut p).mesh.towFree else (s.ut p).mesh.bargeFree) ≤ xc) →
      ∃ v z, exec (.expressLaunch id xc) s = .next v ∧ v.packet id = some z ∧ z.place = d ∧ z.payload = q.payload ∧ z.epoch = (s.ut p).mesh.epoch ∧
        (q.isRequest = true → q.towpath = true → (v.ut p).mesh.towFree = xc + 8) ∧
        (q.isRequest = true → q.towpath = false → (v.ut p).mesh.bargeFree = xc + 16)) ∧
    (q.isRequest = true → xc < (if q.towpath then (s.ut p).mesh.towFree else (s.ut p).mesh.bargeFree) →
      (q.expHeld = true → exec (.expressLaunch id xc) s = .next s) ∧
      (q.expHeld = false → exec (.expressLaunch id xc) s =
        .next ((s.modPacket id fun q => { q with expHeld := true }).modMesh p fun m => { m with expWait := m.expWait + 1 })))) ∧
  (∀ (p q : Pos) (d : Dir) (l : Fin 48) (t : Nat) (s : State), neighbour p d = some q → s.utWorks p = true →
    ∃ v, exec (.flitReplay p ⟨d, l, t⟩) s = .next v ∧ (v.ut p).xing[dirNum d].slipped = true ∧ v.net = s.net ∧ v.now = max s.now t ∧
      (v.ut q).mesh.replays.head? = some (dirNum (opposite d), l.val, max s.now t)) ∧
  (∀ (p : Pos) (id t : Nat) (s : State),
    let due (since : Nat) : Prop := since + (s.ut p).mesh.tmrUs.toNat * 1000 ≤ t
    (∀ k o, s.slotOfOp p id = some k → (s.slot p k).op = some o → o.kind ≠ .stream → s.underWay p o = true → 0 < o.left → due o.tInj →
      ∃ v y, exec (.replyTimeout p id t) s = .next v ∧ (v.slot p k).op = some y ∧
        y.outcome = some (if o.worst = .done then .replyTimeout else o.worst) ∧ (v.ut p).mesh.timeouts = (s.ut p).mesh.timeouts + 1 ∧
        v.now = max s.now t ∧ (∀ g, o.kind = .send → s.stageOfSlot p k = some g → (v.core p).mov.staging[g] = none)) ∧
    (∀ k o st e, s.slotOfOp p id = some k → (s.slot p k).op = some o → o.kind = .stream →
      ((s.core p).mov.streams.find? fun x => x.op == id) = some st → st.stop = none →
      (st.outst.find? fun e => decide (e.2 + (s.ut p).mesh.tmrUs.toNat * 1000 ≤ t) && !s.lineWaits p id e.1) = some e →
      ∃ v x, exec (.replyTimeout p id t) s = .next v ∧ ((v.core p).mov.streams.find? fun x => x.op == id) = some x ∧
        x.stop = some (e.1, .replyTimeout) ∧ (v.ut p).mesh.timeouts = (s.ut p).mesh.timeouts + 1) ∧
    (∀ l, s.slotOfOp p id = none → ((s.ut p).mesh.loose.find? fun l => l.op == id && decide (l.since + (s.ut p).mesh.tmrUs.toNat * 1000 ≤ t)) = some l →
      exec (.replyTimeout p id t) s = .next ((s.at_ t).looseTimeout p l)))

/-- Tables and epochs: a write to a table version that is not in force changes that entry, one to the version in force, or with a reserved
direction, sets BAD_WRITE and changes none; ARM waits for the next flip and is ignored while FREE is 0; the drain sum is that of OLD_FLITS over
the routers, and frees the epoch at 0; a merge table update carries the present ORDERED bit of a weir berth to every router and ends the BOPEN
that waited; a seam map write waits in its place; 2 ms after a flip without FREE, every router with old flits is reported, noted for the
repair logic, and the flip recorded. -/
def Obligations.RoutingEpochs : Prop :=
  (∀ (p : Pos) (ver : Bool) (k : Nat) (v : Word) (s : State),
    let m := (s.ut p).mesh
    (ver = m.epoch → ∀ ovr, exec (.mshTableWrite p ovr ver k v) s = .next (s.modMesh p fun m => { m with badWrite := true })) ∧
    (ver ≠ m.epoch → (4 < fld v 0 3 ∨ 4 < fld v 3 3) →
      exec (.mshTableWrite p true ver k v) s = .next (s.modMesh p fun m => { m with badWrite := true })) ∧
    (ver ≠ m.epoch → k < 128 → ∃ t, exec (.mshTableWrite p false ver k v) s = .next t ∧
      ltMapAt (t.ut p).mesh ver k = { pos := v.extractLsb' 0 8, spareLink := bit v 8, present := bit v 9 } ∧
      (∀ w n, n < 128 → (w ≠ ver ∨ n ≠ k) → ltMapAt (t.ut p).mesh w n = ltMapAt m w n) ∧ (t.ut p).mesh.ovr = m.ovr ∧ (t.ut p).mesh.epoch = m.epoch) ∧
    (ver ≠ m.epoch → k < 149 → fld v 0 3 ≤ 4 → fld v 3 3 ≤ 4 → ∃ t, exec (.mshTableWrite p true ver k v) s = .next t ∧
      (t.ut p).mesh.ovr = tblPut {} m.ovr (if ver then 149 + k else k) { req := v.extractLsb' 0 3, rpl := v.extractLsb' 3 3 } ∧
      (t.ut p).mesh.ltmap = m.ltmap ∧ (t.ut p).mesh.badWrite = m.badWrite)) ∧
  (∀ s : State, exec .mshEpochArm s = .next (if s.epoch.free then { s with epoch := { s.epoch with arm := true } } else s)) ∧
  (∀ (t : Nat) (s : State),
    let n := (allPos.map s.routerOld).sum
    exec (.drainSum t) s = .next { s with
      now := max s.now t, epoch := { s.epoch with drainSum := BitVec.ofNat 32 n, free := s.epoch.free || n == 0 } }) ∧
  (∀ (lt : Lt) (b : Fin 8) (s : State) (p : Pos), s.posOf lt = some p →
    let h := s.berth p (Fin.ofNat 64 (56 + b.val))
    ∃ t, exec (.mergeTableUpdate lt b) s = .next t ∧ (∀ q, (lt, b) ∈ (t.ut q).mesh.merge ↔ (h.open_ = true ∧ h.ordered = true)) ∧
      (∀ q e, e ≠ (lt, b) → (e ∈ (t.ut q).mesh.merge ↔ e ∈ (s.ut q).mesh.merge)) ∧
      (∀ k o, h.open_ = true → h.ordered = true → h.opening = some k → (s.slot p k).op = some o →
        ∃ y, (t.slot p k).op = some y ∧ y.outcome = some .done)) ∧
  (∀ (p : Pos) (d : Dir) (v : BitVec 13) (s : State), exec (.mshSeamMapWrite p d v) s = .next (s.modMesh p fun m => { m with
    seam := m.seam.set (dirNum d) { m.seam[dirNum d] with pend := some v } })) ∧
  (∀ (t : Nat) (s : State), s.epoch.free = false → s.epoch.flippedAt + 2000000 ≤ t →
    let l := allPos.filter fun p => decide (0 < s.routerOld p)
    let u : State := { s.at_ t with epoch := { s.epoch with left := l.map fun p => (p, s.routerOld p) } }
    exec (.epochDrainTimeout t) s = .next ((l.foldl (fun (v : State) p => v.logErr (utUnit p) 0 (s.routerOld p)) u).logRec
      0x30 .firmware [s.epoch.flips.toNat, b2n s.epoch.cur, s.oldFlits]))

/-! ### Axzal links (chapter 10) -/

/-- States of a port (Table 10.4): enabled it goes DARK, where its lasers may be on; with frame lock on 8 lanes it trains, or loops back on its own
identity, and waits where a retry is due; trained it is UP with the credits, sequence numbers and quarantine bit that UP begins with; 50 ms without
success and 100 ms of waiting retry; fewer than 8 lanes make it DARK, and disabling it OFF, and end what runs; LOOP enters a mode from UP with no
consignment loaded, asks the peer for modes 3 and 4 first, and tells what became of it; a peer's request is granted or refused. -/
def Sys2Proof.Rules.AxlPortStates : Prop :=
  ∀ (x : PortN) (t : Nat) (s : State),
    let q := s.port x
    let now := max s.now t
    let upd (y : Port) : State := (s.at_ t).modPort x fun _ => y
    (q.state = .off → s.portCan x = true →
      exec (.axlEnable x) s = .next (s.modPort x fun q => { q with en := true, state := .dark, stateSince := s.now })) ∧
    ((q.state ≠ .off ∨ s.portCan x = false) → exec (.axlEnable x) s = .next (s.modPort x fun q => { q with en := true })) ∧
    (∀ n d, q.state = .dark → 8 ≤ n → s.portCan x = true → q.retryAt = none → d ≠ identityDigest →
      exec (.axlFrameLock x n d t) s = .next (upd { q with state := .training, lock := true, peerId := d, stateSince := now })) ∧
    (∀ n, q.state = .dark → 8 ≤ n → s.portCan x = true → q.retryAt = none → ∃ y, exec (.axlFrameLock x n identityDigest t) s = .next (upd y) ∧
      y.state = .loopback ∧ y.fibreLoop = true ∧ y.stateSince = now ∧ y.laneMask = 0xFFFF ∧ y.peerId = identityDigest ∧ y.cons = q.cons) ∧
    (∀ n d, q.state = .dark → 8 ≤ n → s.portCan x = true → q.retryAt.isSome = true →
      exec (.axlFrameLock x n d t) s = .next (upd { q with lock := true, peerId := d })) ∧
    (∀ g m, q.state = .training → 8 ≤ laneCount m → now ≤ q.stateSince + 50000000 → s.portCan x = true →
      ∃ v y, exec (.axlTrained x g m t) s = .next v ∧ v.port x = y ∧ y.state = .up ∧ y.gen2 = (q.genMax && g) ∧ y.laneMask = m ∧
        y.quar = s.sec.quarantine.contains q.peerId ∧ y.credits = #v[32, 1024, 1024] ∧ y.txPseq = 0 ∧ y.rxNext = 0 ∧
        (∀ l : Fin 16, y.lanes[l] = {}) ∧ y.cons = q.cons ∧ (∀ z, z ≠ x → v.port z = s.port z)) ∧
    (q.state = .training → q.stateSince + 50000000 ≤ now →
      exec (.axlTrainingTimeout x t) s = .next (upd { q with state := .dark, stateSince := now, retryAt := some (now + 100000000) })) ∧
    (∀ a, q.retryAt = some a → q.state = .dark → a ≤ now →
      (q.lock = false → exec (.axlRetryTimer x t) s = .next (upd { q with retryAt := none })) ∧
      (q.lock = true → q.peerId ≠ identityDigest →
        exec (.axlRetryTimer x t) s = .next (upd { q with state := .training, stateSince := now, retryAt := none }))) ∧
    (∀ m, q.state = .up → laneCount (q.laneMask &&& m) < 8 →
      ∃ v y, exec (.axlLossOfLight x m t) s = .next v ∧ v.port x = y ∧ y.state = .dark ∧ y.los = true ∧ y.downCount = q.downCount + 1 ∧
        (∀ e : Fin 256, q.cons[e].busy = true → q.cons[e].ended = none → y.cons[e].ended = some (1, .partnerLost)) ∧ y.clears = [] ∧ y.fetches = [] ∧
        y.laneMask = 0 ∧ v.net = s.net) ∧
    (∃ v y, exec (.axlDisable x) s = .next v ∧ v.port x = y ∧ y.en = false ∧ y.state = .off ∧ y.laneMask = 0 ∧
      (q.state = .up → ∀ e : Fin 256, q.cons[e].busy = true → q.cons[e].ended = none → y.cons[e].ended = some (1, .tileReset))) ∧
    (∀ v : BitVec 3, (v = 1 ∨ v = 2 ∨ v = 3 ∨ v = 4) → q.loaded = false → q.state = .up →
      ∃ w y, exec (.axlLoopWrite x v true) s = .next w ∧ w.port x = y ∧ y.state = .loopback ∧ y.loop_ = v ∧ y.laneMask = q.laneMask) ∧
    (∀ v : BitVec 3, (v = 3 ∨ v = 4) → q.loaded = false → q.state = .up →
      exec (.axlLoopWrite x v false) s = .next ((s.modPort x fun q => q.queue (loopFrame 0x10 v)).modPort x fun q =>
        { q with loop_ := 0, loopRefused := true })) ∧
    (∀ v : BitVec 3, (v = 3 ∨ v = 4) → q.loaded = false → q.state = .up →
      exec (.axlLoopRequest x v) s = .next (s.modPort x fun q => { q with farLoop := v }.queue (loopFrame 0x11 v))) ∧
    (∀ v : BitVec 3, v ≠ 0 → ((v ≠ 3 ∧ v ≠ 4) ∨ q.loaded = true) → q.state = .up →
      exec (.axlLoopRequest x v) s = .next (s.modPort x fun q => q.queue (loopFrame 0x12 v)))

/-- Time over a port: the exchange launches a TIME frame that begins with the time of its launch, and a received one sets offset, delay and source,
valid from the fourth on. -/
def Sys2Proof.Rules.AxlTime : Prop :=
  ∀ (x : PortN) (t : Nat) (t1 t2 t3 t4 : Int) (src : BitVec 2) (s : State), (s.port x).talks = true →
    (∃ v pl, exec (.axlTimeExchange x t) s = .next v ∧ v = (s.at_ t).modPort x (fun q => q.queue (mkFrame 0 1 0 3 0 pl)) ∧
      pl.length = 25 ∧ bytesNat (pl.take 8) = max s.now t * 65536 % 2 ^ 64) ∧
    (∃ v y, exec (.axlTimeFrame x t1 t2 t3 t4 src) s = .next v ∧ v.port x = y ∧ y.peerSrc = src ∧
      y.offset = BitVec.ofInt 48 (((t1 - t2) + (t4 - t3)) / 2) ∧ y.delay.toNat = min ((((t2 - t1) + (t4 - t3)) / 2) / 65536).toNat 16383 ∧
      (y.timeValid = true ↔ ((s.port x).timeValid = true ∨ 3 ≤ (s.port x).exchanges)) ∧ y.cons = (s.port x).cons ∧ (∀ z, z ≠ x → v.port z = s.port z))

/-- Frames on a lane in service: a data frame in LSEQ order advances the lane, gives its ACK and credits, joins the frames that wait for PSEQ order
and lets those that are next be delivered, and idle frames return what is owed; any other, and a bad one, is answered with a NAK and moves nothing;
an idle frame gives ACK and credits; a NAK resends the lane's unacknowledged frames in order, and after 16 resends the lane is removed. -/
def Sys2Proof.Rules.AxlFrames : Prop :=
  ∀ (x : PortN) (l : Fin 16) (f : Frame) (t : Nat) (s : State),
    let q := s.port x
    let u := s.at_ t
    (q.state = .up ∨ q.state = .loopback) → q.laneMask.getLsbD l.val = true →
    (q.own f = false → (frameBad f = true ∨ f.lseq ≠ q.lanes[l].rxSeq + 1) → ∃ v y, exec (.axlDataFrame x l f t) s = .next v ∧ v.port x = y ∧
      y.rxNext = q.rxNext ∧ y.held = q.held ∧ y.lanes = q.lanes ∧ y.cons = q.cons ∧
      (∃ g, y.sent = q.sent ++ [g] ∧ g.kind = 2 ∧ g.nak = true ∧ g.ack = q.lanes[l].rxSeq) ∧
      (∀ p, v.tile p = s.tile p) ∧ v.host = s.host) ∧
    (q.own f = false → frameBad f = false → f.lseq = q.lanes[l].rxSeq + 1 →
      let a := ((u.modPort x fun q => q.fec f).modPort x fun q => { q with
        lanes := vmod q.lanes l fun a => { a with rxSeq := f.lseq } }).frameBack x l f
      let r := a.port x
      let b := (if (f.pseq - r.rxNext).toNat ≥ 32768 || r.held.any (fun g => g.pseq == f.pseq) then a
        else a.modPort x fun q => { q with held := q.held ++ [f] }.deliverN (q.held.length + 1)).pump x
      exec (.axlDataFrame x l f t) s = .next (b.modPort x fun y => if y.listening then y.idles l (y.sent.length == r.sent.length) else y)) ∧
    (frameBad f = false → exec (.axlIdleFrame x l f t) s = .next (((u.modPort x fun q => q.fec f).frameBack x l f).pump x)) ∧
    (frameBad f = true → exec (.axlIdleFrame x l f t) s = .next ((u.modPort x fun q => q.fec f).modPort x fun q => q.idle l true 0)) ∧
    (∀ ack, (q.lanes[l].acked ack).resends < 16 → (q.lanes[l].acked ack).replay ≠ [] →
      exec (.axlNak x l ack t) s = .next ((u.modPort x fun q => { q with
        lanes := q.lanes.set l { q.lanes[l].acked ack with resends := (q.lanes[l].acked ack).resends + 1 }
        replays := q.replays + 1, sent := q.sent ++ (q.lanes[l].acked ack).replay }).pump x)) ∧
    (∀ ack, 16 ≤ (q.lanes[l].acked ack).resends → (q.lanes[l].acked ack).replay ≠ [] →
      exec (.axlNak x l ack t) s = .next (u.laneRemove x l))

/-- Consignments: a trigger that fires a busy entry is refused and counted, one that fires an entry of a port that is not UP ends it with
PARTNER_LOST; a CLEAR is held, or meets the SEND of its channel, and is refused when one is held already, the peer is quarantined or the port is in
loop-back; a CANCEL ends the channel's running entries; an entry unmet for MEET_US ends with HELD_TIMEOUT; an entry that has ended, or a SEND that
is done, becomes idle with its status and signals its chamber, but not where its own step is aborted; a peer read is served with PEER_READ, and
refused otherwise. -/
def Sys2Proof.Rules.Consignments : Prop :=
  ∀ (x : PortN) (e : Fin 256) (t : Nat) (s : State),
    let q := s.port x
    let c := q.cons[e]
    let u := s.at_ t
    (c.busy = true → s.fire x e = s.modPort x fun q => { q with refused := q.refused + 1 }) ∧
    (c.busy = false → q.state ≠ .up → ((s.fire x e).port x).cons[e].busy = true ∧ ((s.fire x e).port x).cons[e].ended = some (1, .partnerLost) ∧
      ((s.fire x e).port x).cons[e].firedAt = s.now) ∧
    (∀ ch n a, q.state = .up → q.quar = false → (∃ k ∈ q.clears, k.1 = ch) →
      exec (.axlClear x ch n a t) s = .next (u.modPort x fun q => q.queue (cancelFrame ch .illegalDescriptor))) ∧
    (∀ ch n a, q.state = .up → q.quar = true →
      exec (.axlClear x ch n a t) s = .next (u.modPort x fun q => q.queue (cancelFrame ch .noRights))) ∧
    (∀ ch n a, q.state = .loopback → q.loop_ ≠ 0 →
      exec (.axlClear x ch n a t) s = .next (u.modPort x fun q => q.queue (cancelFrame ch .partnerLost))) ∧
    (∀ ch n a, q.state = .up → q.quar = false → (∀ k ∈ q.clears, k.1 ≠ ch) →
      let v := u.modPort x fun q => { q with clears := q.clears ++ [(ch, n, a)] }
      let found := (List.finRange 256).find? fun e => (q.cons[e]).live && q.cons[e].dir == 0 && q.cons[e].channel == ch && !q.cons[e].met
      (found = none → exec (.axlClear x ch n a t) s = .next v) ∧
      (∀ k, found = some k → exec (.axlClear x ch n a t) s = .next ((v.tryMeet x k).pump x))) ∧
    (∀ ch st, q.talks = true → ∃ v, exec (.axlCancel x ch st t) s = .next v ∧
      (∀ k ∈ (v.port x).clears, k.1 ≠ ch) ∧ (c.busy = true → c.channel = ch → c.ended = none → (v.port x).cons[e].ended = some (6, st)) ∧
      ((c.busy = false ∨ c.channel ≠ ch) → (v.port x).cons[e] = c) ∧ v.tiles = s.tiles ∧ v.net = s.net) ∧
    (c.busy = true → c.ended = none → c.met = false → c.firedAt + q.meetUs.toNat * 1000 ≤ u.now →
      ∃ v, exec (.consignmentMeetTimeout x e t) s = .next v ∧ (v.port x).cons[e].ended = some (3, .heldTimeout) ∧ (v.port x).timeouts = q.timeouts + 1 ∧
        (v.port x).cons[e].busy = true) ∧
    (∀ row st, c.busy = true → (c.ended = some (row, st) ∨ (c.ended = none ∧ u.sendDone x e = true ∧ row = 7 ∧ st = .done)) → c.coll = 0 →
      ∃ v, exec (.consignmentComplete x e t) s = .next v ∧ (v.port x).cons[e].busy = false ∧ (v.port x).cons[e].ended = none ∧
        (v.port x).cons[e].status.toNat = statusCode st ∧ (row = 0 → v.net = s.net) ∧
        (row ≠ 0 → ∃ a, v.net = s.net ++ [a] ∧ a.type = 7 ∧ a.arg = 1 ∧ a.addr = c.doneCh ∧ a.id = s.nextPkt)) ∧
    (∀ a n ch, q.state = .up → (q.peerRead = false ∨ q.quar = true) →
      exec (.axlFetch x a n ch) s = .next (s.modPort x fun q => q.queue (cancelFrame ch .noRights))) ∧
    (∀ a n ch, q.state = .up → q.peerRead = true → q.quar = false → (s.addrBad a = true ∨ addrClass a ≠ 1) →
      exec (.axlFetch x a n ch) s = .next (s.modPort x fun q => q.queue (cancelFrame ch .illegalDescriptor))) ∧
    (∀ a n ch, q.state = .up → q.peerRead = true → q.quar = false → s.addrBad a = false → addrClass a = 1 →
      exec (.axlFetch x a n ch) s = .next ((s.modPort x fun q => { q with fetches := q.fetches ++ [(ch, a, n.toNat, 0)] }).pump x))

/-- AXL ports: states, loop-backs, time, frames in order, consignments and peer reads. -/
def Obligations.AxlPorts : Prop :=
  Sys2Proof.Rules.AxlPortStates ∧ Sys2Proof.Rules.AxlTime ∧ Sys2Proof.Rules.AxlFrames ∧ Sys2Proof.Rules.Consignments

/-! ### Companion link (chapter 11) -/

/-- Ports of the companion link: a port that has its supply and is not OFF comes up with the lower generation and at least 4 lanes, and no record
stays kept; below 4 lanes it goes IDLE; a loop-back mode is entered only while no step is admitted and no migration runs, and modes 3 and 4
with the companion's consent; a TIME message goes to each UP port, and a port in loop-back counts pattern errors (log entry 41). -/
def Sys2Proof.Rules.KclPorts : Prop :=
  ∀ (k : KPort) (t : Nat) (s : State),
    let q := s.kport k
    let u := s.at_ t
    (∀ g n, q.en = true → q.state ≠ 0 → q.state ≠ 3 → q.state ≠ 4 → s.power.lost.contains .kcl = false → 0 < min g.val q.genMax.toNat → 4 ≤ n →
      ∃ v, exec (.kclPortUp k g n t) s = .next v ∧ (v.kport k).state = 3 ∧ (v.kport k).gen.toNat = min g.val q.genMax.toNat ∧
        (v.kport k).lanes.toNat = min n 16 ∧ v.intake.kept = [] ∧ v.tiles = s.tiles) ∧
    (∀ n, q.state = 3 → 4 ≤ n → exec (.kclLoss k n t) s = .next (u.modKport k fun q => { q with lanes := BitVec.ofNat 5 (min n q.lanes.toNat) })) ∧
    (∀ n, q.state = 3 → n < 4 → exec (.kclLoss k n t) s = .next ((u.kclLeave k 1).modKport k fun q => { q with los := true })) ∧
    (∀ v : BitVec 3, (v = 1 ∨ v = 2 ∨ v = 3 ∨ v = 4) → s.intake.steps = [] → s.chart.run = none → q.en = true →
      exec (.kclLoopWrite k v true) s = .next { ((s.kclLeave k 4).modKport k fun q => { q with loop_ := v }) with
        lkh := { ((s.kclLeave k 4).modKport k fun q => { q with loop_ := v }).lkh with refBroken := true } }) ∧
    (∀ (v : BitVec 3) ok, v ≠ 0 → (s.intake.steps ≠ [] ∨ s.chart.run ≠ none) → exec (.kclLoopWrite k v ok) s = .next s) ∧
    (∀ v : BitVec 3, (v = 3 ∨ v = 4) → s.intake.steps = [] → s.chart.run = none → q.en = true →
      exec (.kclLoopWrite k v false) s = .next (s.modKport k fun q => { q with loop_ := 0, loopRefused := true })) ∧
    (∃ v, exec (.kclTimeSend t) s = .next v ∧
      v.intake.out = s.intake.out ++ ((List.finRange 2).filter (fun k => (s.kport k).state = 3)).map (fun k => KclOut.time k u.now) ∧
      (q.state ≠ 4 → v.kport k = q) ∧ (∃ n, v.kport k = { q with pattern := n }))

/-- Coherent accesses over an UP port: a read or write, non-coherent or for a shared or owned line of an enabled window, asks for the line through
the page chart in class C2 at once, waits where the page is MIGRATING, and is refused with PAGE_NOT_PRESENT where it has no location; the line's
answer reaches the companion; a write-back needs exclusive ownership; a snoop of the companion drops the line here; a snoop that the
companion answers with data gives them back, and one that it answers without, or not in time, frees the line. With the PCIe host as runtime
they are refused with NO_RIGHTS. -/
def Sys2Proof.Rules.Coherence : Prop :=
  ∀ (k : KPort) (addr : BitVec 41) (data : BitVec 512) (t : Nat) (s : State), (s.kport k).state = 3 →
    let u := s.at_ t
    let a := addr.toNat / 64 * 64
    let pends := s.intake.cwin.toList.any fun c => c.pend.isSome && c.has (a / 65536)
    let no (c : Instr) : Prop := exec c s = .next (u.tell (.ack k .noRights))
    let asks (c : Instr) (w : Waiter) (write : Bool) : Prop :=
      (s.translate a = .wait → (write = false ∨ s.lkh.pstate ≠ .moored) → exec c s = .next (u.queueWaiter w)) ∧
      (s.translate a = .absent → (write = false ∨ s.lkh.pstate ≠ .moored) →
        exec c s = .next ((u.unqueue w).tell (.ack k .pageNotPresent))) ∧
      (∀ m b e, s.translate a = .at_ m b e → (write = false ∨ (s.lkh.pstate ≠ .moored ∧ bit e 4 = false)) →
        ∃ v q, exec c s = .next v ∧ v.net = s.net ++ [q] ∧ q.place = .canal 3 ∧ q.type = 9 ∧ q.vc = 2 ∧ q.cls = .c2 ∧ q.write = write ∧
          q.addr = put64 m.val 36 5 ||| put64 (b / 64 * 64) 0 36 ∧
          (write = true → q.payload = natBytes data.toNat 64) ∧
          ∃ r ∈ v.errands, q.tag = .errand r.id 0 ∧ r.work = .kcl w ∧ r.left = 1 ∧ r.worst = .done ∧ r.got = [])
    (s.intake.pcieRuntime = true → no (.rdShared k addr t) ∧ no (.rdOwn k addr t) ∧ no (.rdNc k addr t) ∧ no (.wrNc k addr data t) ∧ no (.wb k addr data t)) ∧
    (s.intake.pcieRuntime = false →
      (pends = true → exec (.rdShared k addr t) s = .next (u.queueWaiter (.rdShared k addr false)) ∧
        exec (.rdOwn k addr t) s = .next (u.queueWaiter (.rdShared k addr true))) ∧
      (pends = false → s.inCwin (a / 65536) = false →
        exec (.rdShared k addr t) s = .next ((u.unqueue (.rdShared k addr false)).tell (.ack k .noRights)) ∧
        exec (.rdOwn k addr t) s = .next ((u.unqueue (.rdShared k addr true)).tell (.ack k .noRights))) ∧
      (pends = false → s.inCwin (a / 65536) = true → (s.held a ≠ none ∨ s.intake.dir.length + s.granting < 1048576) →
        asks (.rdShared k addr t) (.rdShared k addr false) false ∧ asks (.rdOwn k addr t) (.rdShared k addr true) false) ∧
      asks (.rdNc k addr t) (.rdNc k addr) false ∧ asks (.wrNc k addr data t) (.wrNc k addr data) true ∧
      (s.lkh.pstate ≠ .moored → s.held addr.toNat = some true →
        (∀ v, u.giveBack (some k) addr data = some v → exec (.wb k addr data t) s = .next v) ∧
        (u.giveBack (some k) addr data = none → exec (.wb k addr data t) s = .next ((u.tell (.ack k .done)).released addr.toNat))) ∧
      (s.lkh.pstate = .moored ∨ s.held addr.toNat ≠ some true → no (.wb k addr data t))) ∧
    (∀ (id n : Nat) (q : Packet) (d : Fin 5) (r : Errand), s.packet id = some q → q.type = 0xA → q.place = .canal d → q.tag = .errand n 0 →
      q.badHeader = false → s.dieOff d = false → s.errand n = some r → r.left = 1 → r.worst = .done → r.got = [] →
      ((r.work = .kcl (.rdNc k addr) ∨ ∃ own, r.work = .kcl (.rdShared k addr own)) → ∃ v, exec (.lineData id) s = .next v ∧
        v.intake.out = s.intake.out ++ [if q.status = .done then .data k (addr.zeroExtend 64) (lineBits q.payload) else .ack k q.status]) ∧
      (r.work = .kcl (.wrNc k addr data) → ∃ v, exec (.lineData id) s = .next v ∧ v.intake.out = s.intake.out ++ [.ack k q.status])) ∧
    (∀ line : Word,
      let v : State := { s with intake := { s.intake with
        cache := s.intake.cache.filter (fun l => !(l >>> 6 == line >>> 6)), out := s.intake.out ++ [.snpRsp line] } }
      exec (.snpInv line) s = .next (if s.intake.cache.contains s.ringLine && (s.ringLine >>> 6 == line >>> 6) && !s.intake.pcieRuntime
        then v.ringRead else v)) ∧
    (s.intake.snooping.any (fun e => e.1 == lineNo addr.toNat) = true →
      let v := u.dropSnoop addr.toNat
      (∀ w, v.giveBack none addr data = some w → exec (.snpRsp addr (some data) t) s = .next w) ∧
      (v.backing_ addr.toNat = false → exec (.snpRsp addr none t) s = .next (v.released addr.toNat)) ∧
      (v.backing_ addr.toNat = true → exec (.snpRsp addr none t) s = .next v)) ∧
    (s.intake.snooping.any (fun e => e.1 == lineNo addr.toNat && decide (e.2 + s.intake.snoopUs.toNat * 1000 ≤ max s.now t)) = true →
      exec (.snoopTimeout addr t) s = .next ((((u.dropSnoop addr.toNat).modIntake fun i => { i with snoopLost := i.snoopLost + 1 }).logErr
        0x0A 0 1).released addr.toNat))

/-- Ports of the companion link, and coherent accesses over them. -/
def Obligations.CompanionLink : Prop :=
  Sys2Proof.Rules.KclPorts ∧ Sys2Proof.Rules.Coherence

/-! ### Register access and step aborts (chapters 2, 8, 9, 17) -/

/-- Reads and firmware accesses. A read request is served where it arrives: a die in reset answers TILE_RESET, an address that R25 forbids or that
is no register and no scratchpad address ILLEGAL_DESCRIPTOR, a request that Table 9.9 turns away its status; a register answers with its word, the
scratchpad with its bytes once NI has read them (a bad word: MEMORY_UNCORRECTABLE), and no scratchpad access is served while segments are zeroed.
A towpath access is served as a whole at its register, at a position that does not carry the LT with TILE_FENCED (R489), and its answer leaves the
network at the lock-house that asked (log entry 96). -/
def Sys2Proof.Rules.RegisterAccess : Prop :=
  ∀ (id cc t : Nat) (q : Packet) (a v : Word) (s : State),
    (s.packet id = some q → q.type = 1 → q.taken = false →
      (∀ d : Fin 5, q.place = .canal d → s.dieOff d = false →
        (s.houseResets d.val = true → exec (.rdReq id cc) s = .next (s.replyCanal d q .tileReset [])) ∧
        (s.houseResets d.val = false → (s.addrBad q.addr = true ∨ addrClass q.addr ≠ 2) →
          exec (.rdReq id cc) s = .next (s.replyCanal d q .illegalDescriptor [])) ∧
        (s.houseResets d.val = false → s.addrBad q.addr = false → addrClass q.addr = 2 →
          let r : RegAt := .canal (addrReg q.addr)
          exec (.rdReq id cc) s = .next ((s.latchFrac r).replyCanal d q .done (natBytes (s.regWord r).toNat 8)))) ∧
      (∀ p : Pos, q.place = .delivered p → (s.ut p).cycle ≤ cc →
        ((s.ut p).flags.lost = true → exec (.rdReq id cc) s = .next (s.dropPacket id)) ∧
        ((s.ut p).flags.lost = false → q.badHeader = false →
          let w := s.run p cc
          ((w.addrBad q.addr = true ∨ (addrClass q.addr ≠ 0 ∧ addrClass q.addr ≠ 2)) →
            exec (.rdReq id cc) s = .next (w.reply p q .illegalDescriptor [])) ∧
          (w.addrBad q.addr = false → (addrClass q.addr = 0 ∨ addrClass q.addr = 2) →
            (∀ st, w.notServed p q (addrClass q.addr == 2 && !dieReg q.addr) = some st → exec (.rdReq id cc) s = .next (w.reply p q st [])) ∧
            (addrClass q.addr = 2 → w.notServed p q (!dieReg q.addr) = none →
              let r : RegAt := .tile p (addrReg q.addr)
              exec (.rdReq id cc) s = .next ((w.latchFrac r).reply p q .done (natBytes (w.regWord r).toNat 8))) ∧
            (addrClass q.addr = 0 → w.notServed p q false = none →
              let x := w.engine p 7 cc [(addrOff q.addr, q.total)]
              let d := (x.1.core p).spd
              let y := x.1.modSpd p fun d => d.meet 7 (addrOff q.addr) q.total
              ((w.core p).spd.zeroing = true → exec (.rdReq id cc) s = .next w) ∧
              ((w.core p).spd.zeroing = false → d.badIn (addrOff q.addr) q.total = [] →
                exec (.rdReq id cc) s = .next (y.replyFrom p q x.2 .done (memRead d.mem (addrOff q.addr) q.total))) ∧
              ((w.core p).spd.zeroing = false → d.badIn (addrOff q.addr) q.total ≠ [] →
                exec (.rdReq id cc) s = .next (y.replyFrom p q x.2 .memoryUncorrectable []))))))) ∧
    (let u := s.at_ t
     let r := u.regAt a
     (∀ y d, u.towAstray a = some y → (u.ut y).flags.lost = false → exec (.tow a d t) s = .next (u.towAnswer (.tile y 0) .tileFenced [])) ∧
     (u.towAstray a = none → u.regSilent r = false →
      (∀ d st, u.regRefused a = some st → exec (.tow a d t) s = .next (u.towAnswer r st [])) ∧
      (u.regRefused a = none → exec (.tow a none t) s = .next ((u.latchFrac r).towAnswer r .done (natBytes (u.regWord r).toNat 8))) ∧
      (u.regRefused a = none → exec (.tow a (some v) t) s = .next ((u.writeReg r v .firmware .internal).towAnswer r .done [])))) ∧
    (∀ d : Fin 5, s.packet id = some q → q.place = .canal d → q.type = 0xC → exec (.towAns id) s = .next (s.dropPacket id))

/-- A register write by one of the paths of Table 17.12: performed where the register answers and the path may write, else without effect; only a
signed request (or one that needs no authority) over Ethernet or over a locked path may write; a change of a register made through a management
port is recorded with the old and the new value. -/
def Sys2Proof.Rules.RegisterWrites : Prop :=
  ∀ (a v : Word) (path : Path) (signed : Bool) (s : State),
    let r := s.regAt a
    (s.regRefused a = none → s.regSilent r = false → s.mayWrite r path signed = true →
      exec (.registerWrite a v path signed) s = .next (s.writeReg r v (originOf path) path)) ∧
    ((s.mayWrite r path signed = false ∨ s.regSilent r = true ∨ (∃ st, s.regRefused a = some st)) →
      exec (.registerWrite a v path signed) s = .next s) ∧
    (path = .ethernet → r.openWrite = false → s.mayWrite r path signed = signed) ∧
    (path ≠ .ethernet → s.pathLocked path = false → s.mayWrite r path signed = true) ∧
    (path ≠ .ethernet → s.pathLocked path = true → r.openWrite = false → s.mayWrite r path signed = signed) ∧
    (r.recorded path = true → (s.writeRaw r v (originOf path) path).regWord r ≠ s.regWord r →
      s.writeReg r v (originOf path) path = (s.writeRaw r v (originOf path) path).logReg (originOf path) path r.addr (s.regWord r).toNat
        ((s.writeRaw r v (originOf path) path).regWord r).toNat)

/-- A sealed field keeps its value until the next cold reset: a write from outside firmware replaces the stored value and is recorded (R488). -/
def Sys2Proof.Rules.SealedFields : Prop :=
  ∀ (v : Word) (org : Origin) (path : Path) (p : Pos) (s : State), s.lkh.sealed = true → pathOutside path = true →
    s.writeTile p 0x020000 v org path = ((s.logReg org path (regTile p 0x020000) (s.core p).mat.marginStored.toNat (fld v 0 3)).modMat p fun m =>
      { m with marginStored := v.extractLsb' 0 3 }) ∧
    (∃ t, s.writeCanal 0x050120 v org path = t ∧ t.intake.hwinStored.1 = v ∧ t.intake.hwinBase = s.intake.hwinBase ∧ t.intake.hwinLen = s.intake.hwinLen) ∧
    (∃ t, s.writeCanal 0x050128 v org path = t ∧ t.intake.hwinStored.2 = v.extractLsb' 0 48 ∧ t.intake.hwinBase = s.intake.hwinBase ∧
      t.intake.hwinLen = s.intake.hwinLen) ∧
    (∃ t, s.writeCanal 0x070010 v org path = t ∧ t.sec.locksStored = v.extractLsb' 0 3 ∧ t.sec.i3cLock = s.sec.i3cLock ∧
      t.sec.pcieLock = s.sec.pcieLock ∧ t.sec.jtagLock = s.sec.jtagLock)

/-- Access codes (R8), on registers of each kind: a bit written 1 clears a W1C flag and a 0 leaves it (COR_FAULT, STG_ECC_LAST, CHT_FAULT_LAST); a
value out of a field's range leaves the field (MSH_MARK, PWR_REACH); a RW field takes what is written (SPD_SCRUB). -/
def Sys2Proof.Rules.AccessCodes : Prop :=
  ∀ (v : Word) (org : Origin) (path : Path) (p : Pos) (s : State),
    (∃ t, s.writeTile p 0x010010 v org path = t ∧ (t.core p).ctl.fault = { (s.core p).ctl.fault with valid := (s.core p).ctl.fault.valid && !v.getLsbD 11 } ∧
      (t.core p).spd = (s.core p).spd ∧ t.ut p = s.ut p) ∧
    (∃ t, s.writeTile p 0x050010 v org path = t ∧ (t.ut p).stg = { (s.ut p).stg with eccValid := (s.ut p).stg.eccValid && !v.getLsbD 63 } ∧
      t.core p = s.core p) ∧
    (∃ t, s.writeTile p 0x0E0008 v org path = t ∧ (t.ut p).cht = { (s.ut p).cht with faultValid := (s.ut p).cht.faultValid && !v.getLsbD 63 } ∧
      t.core p = s.core p) ∧
    (∃ t, s.writeTile p 0x060010 v org path = t ∧ (t.ut p).mesh.thresh = (if 1 ≤ fld v 0 6 then v.extractLsb' 0 6 else (s.ut p).mesh.thresh) ∧
      t.core p = s.core p) ∧
    (∃ t, s.writeTile p 0x090000 v org path = t ∧
      (t.ut p).pwr.targetMv = (if 550 ≤ fld v 0 10 ∧ fld v 0 10 ≤ 850 then v.extractLsb' 0 10 else (s.ut p).pwr.targetMv)) ∧
    (∃ t, s.writeTile p 0x040050 v org path = t ∧ (t.core p).spd.scrubEn = v.getLsbD 0 ∧ (t.core p).spd.mem = (s.core p).spd.mem)

/-- Register reads and writes by packets, the towpath and the management ports; access codes and sealed fields. -/
def Obligations.RegisterAccess : Prop :=
  Sys2Proof.Rules.RegisterAccess ∧ Sys2Proof.Rules.RegisterWrites ∧ Sys2Proof.Rules.SealedFields ∧ Sys2Proof.Rules.AccessCodes

/-- Phases 1, 2 and 4 of an abort (Table 2.6), of a cause that LH-C has been told of a live step: LH-C takes the cause, the attempt goes up by one,
the step's entries on every port end with STEP_ABORTED, its Canal chambers return to 0 with no word to the mirrors, and each LT's tile chambers,
berths and windows are cleared; without a replay left, or where a program fault is the one that the step met last (R142), the step is to end with
STEP_ABORTED. -/
def Sys2Proof.Rules.StepAborts : Prop :=
  ∀ (q : AbortReq) (t : Nat) (r : StepRec) (s : State),
    s.aborts.find? (fun x => x.step == q.step && x.cause == q.cause && x.lt == q.lt && x.overrun == q.overrun) = some q →
    s.stepNum q.step = some r → r.live = true →
    ∃ v w, exec (.stepAbort q.step q.cause q.lt q.overrun t) s = .next v ∧ v.stepNum q.step = some w ∧ w.phase = .aborting ∧ w.cause = q.cause ∧
      w.causeLt = q.lt ∧ w.overrun = q.overrun ∧ w.attempt = r.attempt + 1 ∧ w.lost = r.lost + r.attemptPounds ∧ w.man = r.man ∧
      w.replaysRun = r.replaysRun ∧
      (r.man.replays ≤ r.replaysRun → w.ending = some .stepAborted) ∧
      (∀ f, q.cause = .fault f → faultHw f = false → q.seen.isSome = true → q.seen = r.faultSeen → w.ending = some .stepAborted) ∧
      (r.replaysRun < r.man.replays → programOf q.cause = none → w.ending = none) ∧
      (∀ a ∈ v.aborts, a.step ≠ q.step) ∧
      (∀ (x : PortN) (e : Fin 256), (s.port x).cons[e].busy = true → (s.port x).cons[e].step = q.step → (s.port x).cons[e].ended = none →
        (v.port x).cons[e].ended = some (0, .stepAborted)) ∧
      (∀ j, r.man.canalBase ≤ j → j < r.man.canalBase + r.man.canalCount → v.canalCh j = {}) ∧
      (∀ j, (j < r.man.canalBase ∨ r.man.canalBase + r.man.canalCount ≤ j) → v.canalCh j = s.canalCh j) ∧
      (∀ e ∈ r.man.ltEnts, ∀ p, s.posOf e.lt = some p → (v.ut p).chambers = [] ∧ (v.ut p).attempt = r.attempt + 1 ∧
        (∀ k : Fin 256, e.declares k.val = true → (v.ut p).windows[k].open_ = false)) ∧
      (∀ x ∈ s.intake.steps, x.num ≠ q.step → x ∈ v.intake.steps)

/-- Phase 3 and what comes before a replay: an aborting step's core stops and cancels its moves that wait; the RESTORE entries are copied, in
order; the line of an uncorrectable error is read again (R196), which ends the re-read with a record, posts a retirement, or ends the step. -/
def Sys2Proof.Rules.BeforeReplay : Prop :=
  ∀ (step : Nat) (t : Nat) (r : StepRec) (p : Pos) (cc : Nat) (s : State),
    let u := s.at_ t
    (s.stepAt p = some r → r.live = false → (s.ut p).cycle ≤ cc → exec (.coreAbort p cc) s = .next (s.coreStop p cc)) ∧
    (u.stepNum step = some r → r.live = false →
      (r.restored = false → r.ending = none → r.recheck = false → r.retiring = none → r.man.lts.any u.substRuns = false → u.k0Reaches = true →
        (∀ v, State.restoreAll r.man.restore u = .done v → exec (.replayRestore step t) s = .next (v.modStep step fun r => { r with restored := true })) ∧
        (∀ v st a, State.restoreAll r.man.restore u = .failed v st a → exec (.replayRestore step t) s = .next
          (v.modStep step fun r => { r with ending := some st, addr := BitVec.ofNat 64 a })))) ∧
    (∀ h : r.causeLt.toNat < 120, u.stepNum step = some r → r.recheck = true → u.posOf ⟨r.causeLt.toNat, h⟩ = some p →
      let a := (u.ut p).stg.eccAddr
      let e := u.entry (a.toNat / 65536)
      let after (v : State) : State := (v.modStg p fun g => { g with eccValid := false }).modStep step fun r => { r with recheck := false }
      (∀ v bs, u.modelLine a.toNat none = .ended v .done bs → exec (.hbmErrorRecheck step t) s = .next ((after v).logErr (frameUnit e) 0 1)) ∧
      (∀ v bs, u.modelLine a.toNat none = .ended v .memoryUncorrectable bs → entRo e = true → entAttr e = 1 →
        exec (.hbmErrorRecheck step t) s = .next (((after v).postMig { page := BitVec.ofNat 25 (a.toNat / 65536), kind := .retire }).modStep step
          fun r => { r with retiring := some a })) ∧
      (∀ v bs, u.modelLine a.toNat none = .ended v .memoryUncorrectable bs → (entRo e && entAttr e == 1) = false →
        exec (.hbmErrorRecheck step t) s = .next (((after v).logErr (frameUnit e) (statusCode .memoryUncorrectable) 1).modStep step fun r =>
          { r with ending := some .memoryUncorrectable, addr := a.zeroExtend 64 })))

/-- An abort resets each berth that the LT declares: generation up by one, closed and empty; the others stay (R211). -/
def Sys2Proof.Rules.AbortedBerths : Prop :=
  ∀ (e : LtEnt) (p : Pos) (a : BitVec 4) (k : Fin 64) (s : State), s.posOf e.lt = some p →
    (e.berths.getLsbD k.val = true → ((s.abortTile e a).berth p k).gen = (s.berth p k).gen + 1 ∧ ((s.abortTile e a).berth p k).open_ = false ∧
      ((s.abortTile e a).berth p k).queue = [] ∧ ((s.abortTile e a).berth p k).retired = []) ∧
    (e.berths.getLsbD k.val = false → (s.abortTile e a).berth p k = s.berth p k)

/-- Phases of a step abort, and what comes before a replay. -/
def Obligations.StepAborts : Prop :=
  Sys2Proof.Rules.StepAborts ∧ Sys2Proof.Rules.BeforeReplay ∧ Sys2Proof.Rules.AbortedBerths

/-! ### Manifests (chapter 11) -/

/-- The manifest ring: the runtime's writes land in companion memory and the intake unit reads the ring (over the companion link, or at a poll of
the PCIe host where that is the runtime). The front manifest of a KIND that cannot be read, does not parse or is refused completes at once; one that
must wait is held; one that passes every row is admitted (STEP) or taken into the queue of its kind (LOAD, CHART). A held one is checked from row 1
again, and once ADMIT_WAIT is over ends with ADMISSION_TIMEOUT. -/
def Sys2Proof.Rules.Manifests : Prop :=
  ∀ (t n : Nat) (bs : List Byte) (m : Manifest) (w : List HostCell) (s : State),
    let u := s.at_ t
    let h : State := { u with host := w.foldl (fun (m : Mem) (c : HostCell) => memPut m c.1 c.2) u.host }
    let seq : BitVec 32 := (wordOf bs 1).extractLsb' 0 32
    let kind := fld (wordOf bs 0) 48 8
    let loaded : Prop := ∀ o len, m.image = some (o, len) → u.hostBad o.toNat len = none ∧ (parseImage (u.hostRead o.toNat len)).isSome = true
    let load : State := u.ringPass.modIntake fun i => { i with loads := i.loads ++ [{ man := m, tAdmit := u.now }] }
    let chart : State := u.ringPass.modIntake fun i => { i with chartRuns := i.chartRuns ++ [{ man := m, tAdmit := u.now, next := 0, busy := false }] }
    let decided (k : Nat) (c : Instr) (taken : State) : Prop := kind = k → parseManifest u bs n = some m →
      (m.lts.any u.ltAbsent = true → exec c s = .next (u.refuseFront seq .illegalDescriptor 0)) ∧
      (m.lts.any u.ltAbsent = false →
        (∀ o len st, m.image = some (o, len) → u.hostBad o.toNat len = some st → exec c s = .next (u.refuseFront seq st 0)) ∧
        (∀ o len, m.image = some (o, len) → u.hostBad o.toNat len = none → parseImage (u.hostRead o.toNat len) = none →
          exec c s = .next (u.refuseFront seq .illegalDescriptor 0)) ∧
        (loaded →
          (∀ st reason, u.common m = .refuse st reason → exec c s = .next (u.refuseFront seq st reason)) ∧
          (u.common m = .hold → exec c s = .next (u.holdFront seq m.admitWait)) ∧
          (u.common m = .takes → exec c s = .next taken)))
    (h.kclUp = true → h.intake.pcieRuntime = false → exec (.manifestRingNotify w t) s = .next h.ringRead) ∧
    ((h.kclUp = false ∨ h.intake.pcieRuntime = true) → exec (.manifestRingNotify w t) s = .next h) ∧
    (h.intake.pcieRuntime = true → exec (.pcieRingPoll w t) s = .next h.ringRead) ∧
    (h.intake.pcieRuntime = false → exec (.pcieRingPoll w t) s = .next h) ∧
    (s.intake.heldSince = none → s.lkh.pstate ≠ .starting → s.lkh.pstate ≠ .off →
      (∀ o len r st, s.intake.waiting = (o, len) :: r → u.hostBad o.toNat len = some st →
        exec (.manifestStep t) s = .next (u.refuseFront 0 st 0)) ∧
      (u.front = some (bs, n) →
        (kind ≠ 2 → kind ≠ 3 → parseManifest u bs n = none → exec (.manifestStep t) s = .next (u.refuseFront seq .illegalDescriptor 0)) ∧
        (kind = 2 → parseManifest u bs n = none → exec (.manifestLoad t) s = .next (u.refuseFront seq .illegalDescriptor 0)) ∧
        (kind = 3 → parseManifest u bs n = none → exec (.manifestChart t) s = .next (u.refuseFront seq .illegalDescriptor 0)) ∧
        (kind = 1 → parseManifest u bs n = some m →
          (∀ st reason, u.verdict m = .refuse st reason → exec (.manifestStep t) s = .next (u.refuseFront seq st reason)) ∧
          (u.verdict m = .hold → exec (.manifestStep t) s = .next (u.holdFront seq m.admitWait)) ∧
          (u.verdict m = .takes → exec (.manifestStep t) s = .next (u.admitStep m))) ∧
        decided 2 (.manifestLoad t) load ∧ decided 3 (.manifestChart t) chart)) ∧
    (∀ a, s.intake.heldSince = some a → u.front = some (bs, n) → parseManifest u bs n = some m →
      (kind = 1 →
        (∀ st reason, u.verdict m = .refuse st reason → exec (.manifestHoldEnd t) s = .next (u.refuseFront seq st reason)) ∧
        (u.verdict m = .hold → exec (.manifestHoldEnd t) s = .next (u.holdFront seq m.admitWait)) ∧
        (u.verdict m = .takes → exec (.manifestHoldEnd t) s = .next (u.admitStep m))) ∧
      decided 2 (.manifestHoldEnd t) load ∧ decided 3 (.manifestHoldEnd t) chart ∧
      (a + m.admitWait * 1000 < u.now → exec (.admissionWaitTimeout t) s = .next (u.refuseFront m.seq .admissionTimeout 0)) ∧
      (u.now ≤ a + m.admitWait * 1000 → exec (.admissionWaitTimeout t) s = .next u))

/-- The rows of Table 11.10 in their order, for a manifest in the format: each refuses, or holds, what the rows above it let pass, and a manifest
that no row stops is admitted. An unverified map, a moored panel, what makes it wait, an LT without a die, a narrow core, timing, freeboard, HBM,
power, ports that are not UP, step numbers. -/
def Sys2Proof.Rules.AdmissionOrder : Prop :=
  ∀ (m : Manifest) (s : State),
    let noDie := m.lts.any fun l => (s.posOf l).isNone
    let narrow := m.ltEnts.any fun e => match s.posOf e.lt with
      | some p => (s.core p).desc.narrow && !(e.narrowOk && s.lkh.narrow.contains p)
      | none => false
    let slack := m.lts.any fun l => match s.posOf l with
      | some p => decide ((s.core p).img.slack.toNat < s.ltpos[l].added.toNat)
      | none => false
    let loose := (m.poundEnts.any fun p => p.timed) && m.lts.any fun l => s.bankUns (ltBank l)
    let ports := m.consign.any fun c => c.2.2.valid && s.ports[c.1].state != .up
    let nums := ∃ n, 1 ≤ n ∧ n ≤ 4095 ∧ s.numFree n = true
    (s.stepIllegal m = true → s.verdict m = .refuse .illegalDescriptor 0) ∧
    (s.stepIllegal m = false →
      (s.lkh.mapUnverified = true → s.verdict m = .refuse .mapUnverified 0) ∧
      (s.lkh.mapUnverified = false →
        (s.lkh.pstate = .moored → s.verdict m = .refuse .refusedCapacity 0x0A) ∧
        (s.lkh.pstate ≠ .moored →
          (s.mustHold m = true → s.verdict m = .hold) ∧
          (s.mustHold m = false →
            (noDie = true → s.verdict m = .refuse .refusedCapacity 7) ∧
            (noDie = false →
              (narrow = true → s.verdict m = .refuse .refusedCapacity 6) ∧
              (narrow = false →
                ((slack = true ∨ loose = true) → s.verdict m = .refuse .timingUnsafe_ 0) ∧
                (slack = false → loose = false →
                  (s.boardShort m = true → s.verdict m = .refuse .refusedCapacity 1) ∧
                  (s.boardShort m = false →
                    (∀ n, s.hbmRefused m = some n → s.verdict m = .refuse .refusedCapacity n) ∧
                    (s.hbmRefused m = none →
                      (s.powerOver m = true → s.verdict m = .refuse .refusedCapacity 2) ∧
                      (s.powerOver m = false →
                        (ports = true → s.verdict m = .refuse .refusedCapacity 8) ∧
                        (ports = false → (nums → s.verdict m = .takes) ∧ (¬nums → s.verdict m = .refuse .refusedCapacity 9))))))))))))

/-- A step is taken up under a number that is free, with T_ADMIT the time of admission and no pound run; the manifest leaves the ring, and its
RESTORE entries are kept for each of its LTs. -/
def Sys2Proof.Rules.StepTaken : Prop :=
  ∀ (m : Manifest) (s : State), (∃ n, 1 ≤ n ∧ n ≤ 4095 ∧ s.numFree n = true) →
    ∃ r, (s.admitStep m).intake.steps = s.intake.steps ++ [r] ∧ 1 ≤ r.num ∧ r.num ≤ 4095 ∧ s.numFree r.num = true ∧ s.stepNum r.num = none ∧
      r.man = m ∧ r.phase = .admitted ∧ r.tAdmit = s.now ∧ r.attempt = 0 ∧ r.poundsRun = 0 ∧
      (∀ l : Fin 120, (s.admitStep m).ltpos[l] = if m.lts.contains l then { s.ltpos[l] with restore := m.restore } else s.ltpos[l]) ∧
      (s.admitStep m).tiles = s.tiles ∧ (s.admitStep m).intake.waiting = s.intake.waiting.drop 1 ∧ (s.admitStep m).intake.heldSince = none

/-- Manifests: the ring, the rows of Table 11.10 in their order, admission of a step. -/
def Obligations.Manifests : Prop :=
  Sys2Proof.Rules.Manifests ∧ Sys2Proof.Rules.AdmissionOrder ∧ Sys2Proof.Rules.StepTaken

/-- A load ends (while K0 reaches the panel's mesh): every core of its LTs holds the image, its handler table and CR_SLACK, no scratchpad byte
changes, the image is remembered for the LT, and the manifest completes with DONE; a store outside the host window, or an image that does not parse,
completes it with the status. -/
def Sys2Proof.Rules.ImageLoads : Prop :=
  ∀ (seq : BitVec 32) (t : Nat) (r : LoadRun) (o : BitVec 48) (n : Nat) (s : State),
    let u := s.at_ t
    let v := u.modIntake fun i => { i with loads := i.loads.erase r }
    u.k0Reaches = true → (u.intake.loads.find? fun x => x.man.seq == seq) = some r → r.man.image = some (o, n) →
    (∀ st, v.hostBad o.toNat n = some st → exec (.imageLoadComplete seq t) s = .next (v.manifestDone seq r.tAdmit st 0 0)) ∧
    (v.hostBad o.toNat n = none → parseImage (v.hostRead o.toNat n) = none →
      exec (.imageLoadComplete seq t) s = .next (v.manifestDone seq r.tAdmit .illegalDescriptor 0 0)) ∧
    (∀ m, v.hostBad o.toNat n = none → parseImage (v.hostRead o.toNat n) = some m →
      ∃ w z : State, exec (.imageLoadComplete seq t) s = .next w ∧ w = z.manifestDone seq r.tAdmit .done 0 0 ∧
        (∀ p, (z.core p).img = (if p ∈ r.man.lts.filterMap s.posOf then
            { loaded := true, bundles := m.bundles, slack := m.slack, store := m.store, htab := m.htab } else (s.core p).img) ∧
          (z.core p).spd.mem = (s.core p).spd.mem ∧ (z.core p).ctl = (s.core p).ctl ∧ z.ut p = s.ut p) ∧
        (∀ l : Fin 120, z.ltpos[l] = if r.man.lts.contains l then { s.ltpos[l] with lastLoad := some (o, n) } else s.ltpos[l]) ∧
        z.intake.steps = s.intake.steps ∧ z.host = s.host)

/-- Entries of a CHART manifest, one at a time (log entry 36): SET and INVALIDATE begin an entry update once none is under way and no migration
runs, and wait else; an entry that breaks the format ends with ILLEGAL_DESCRIPTOR; the two migrations are posted. -/
def Sys2Proof.Rules.ChartManifests : Prop :=
  ∀ (t : Nat) (r : ChartRun) (rest : List ChartRun) (page : BitVec 25) (op : BitVec 4) (e : Word) (s : State),
    let u := s.at_ t
    let v := u.modIntake fun i => { i with chartRuns := { r with busy := true } :: rest }
    s.intake.chartRuns = r :: rest → r.man.chart[r.next]? = some (page, op, e) → r.busy = false →
    (op = 1 → s.chart.free = true → v.entryBad (setMig e false) = false →
      exec (.chartSet t) s = .next (v.startUpd page (s.entry page.toNat) (setMig e false) true)) ∧
    (op = 1 → s.chart.free = true → v.entryBad (setMig e false) = true → exec (.chartSet t) s = .next (v.chartEntryDone .illegalDescriptor page)) ∧
    (op = 4 → s.chart.free = true → exec (.chartInvalidate t) s = .next
      (v.startUpd page (s.entry page.toNat) (setMig (s.entry page.toNat) false &&& ~~~(1 : Word)) true)) ∧
    (s.chart.free = false → exec (.chartSet t) s = .next u ∧ exec (.chartInvalidate t) s = .next u) ∧
    (op = 2 → exec (.chartMigrateIn t) s = .next (v.postMig { page := page, kind := .in_ })) ∧
    (op = 3 → exec (.chartMigrateOut t) s = .next (v.postMig { page := page, kind := .out }))

/-- LOAD and CHART manifests. -/
def Obligations.LoadAndChartManifests : Prop :=
  Sys2Proof.Rules.ImageLoads ∧ Sys2Proof.Rules.ChartManifests

/-- The end of a step (R326): drained and with every LT at its FINAL pound end it completes with DONE; a step that is to end does so once its
drain is over (log entry 49). Its number leaves the admitted steps, its consignments leave the ports, its tiles run no step, and one record is
written. -/
def Sys2Proof.Rules.StepEnds : Prop :=
  ∀ (step : Nat) (t : Nat) (r : StepRec) (s : State),
    let u := s.at_ t
    u.stepNum step = some r →
    (u.stepDrained r = false → exec (.stepCompletion step t) s = .next u) ∧
    (u.stepDrained r = true →
      (r.ending = none → r.phase = .running → (∀ l ∈ r.man.lts, l ∈ r.finals) → exec (.stepCompletion step t) s = .next (u.endStep r .done)) ∧
      (∀ st, r.ending = some st →
        (r.phase = .admitted ∨ r.phase = .repairing ∧ r.recheck = false ∧ r.retiring = none ∨ r.noReplay = true ∧ r.phase ≠ .running) →
        exec (.stepCompletion step t) s = .next (u.endStep r st))) ∧
    (∀ st, (∃ z : State, u.endStep r st = z.record { words := r.words st u.now } ∧ z.intake.written = u.intake.written ∧
        z.intake.kept = u.intake.kept ∧ z.host = u.host) ∧
      (u.endStep r st).stepNum step = none ∧ (∀ x ∈ u.intake.steps, x.num ≠ step → x ∈ (u.endStep r st).intake.steps) ∧
      (∀ p ∈ u.stepTiles r, ((u.endStep r st).ut p).stepNo = 0 ∧ ((u.endStep r st).core p).ctl.queue = []) ∧
      (∀ (x : PortN) (e : Fin 256), (u.port x).cons[e].valid = true → (u.port x).cons[e].step = step → ((u.endStep r st).port x).cons[e] = {}) ∧
      (∀ (x : PortN) (e : Fin 256), ((u.port x).cons[e].valid = false ∨ (u.port x).cons[e].step ≠ step) →
        ((u.endStep r st).port x).cons[e] = (u.port x).cons[e]))

/-- A completion record is written while the runtime can take it (over the companion link, or as the PCIe host), and is kept else, up to 256; a
record beyond them is lost (R319). -/
def Sys2Proof.Rules.CompletionRecords : Prop :=
  ∀ (c : CompRec) (s : State),
    ((s.kclUp = true ∨ s.intake.pcieRuntime = true) → s.record c = s.putRecord c ∧ (s.putRecord c).intake.cProd = s.intake.cProd + 1 ∧
      (s.putRecord c).intake.written = s.intake.written ++ [c]) ∧
    (s.kclUp = false → s.intake.pcieRuntime = false →
      (s.intake.kept.length < 256 → (s.record c).intake.kept = s.intake.kept ++ [c] ∧ (s.record c).host = s.host) ∧
      (256 ≤ s.intake.kept.length → s.record c = s))

/-- The end of a step and its completion record. -/
def Obligations.StepEnds : Prop :=
  Sys2Proof.Rules.StepEnds ∧ Sys2Proof.Rules.CompletionRecords

/-! ### Pounds and clocks (chapters 2, 13) -/

/-- R32, R149, R35: at a gate tick (a multiple of the pound length) every synchronised under-tile opens its quiet window, clears every loop entry
and frees the berth keys retired in the pound; an armed flip takes effect everywhere at once (R261). At any other time nothing happens. -/
def Sys2Proof.Rules.GateTicks : Prop :=
  ∀ (t : Nat) (s : State),
    ((s.poundNs = 0 ∨ t % s.poundNs ≠ 0 ∨ t ≤ s.lastTick) → exec (.gateTick t) s = .next s) ∧
    (s.poundNs ≠ 0 → t % s.poundNs = 0 → s.lastTick < t →
      ∃ v, exec (.gateTick t) s = .next v ∧ v.lastTick = t ∧
        (∀ p, (s.ut p).time.unsync = false → (s.ut p).flags.lost = false →
          (v.ut p).flags.quiet = true ∧ (∀ k : Fin 64, (v.ut p).berths[k].retired = []) ∧ (v.core p).main.loops = Vector.replicate 4 {} ∧
          (v.core p).hand.loops = Vector.replicate 4 {} ∧ (v.core p).tow.loops = Vector.replicate 4 {} ∧ (v.core p).dbg.loops = Vector.replicate 4 {}) ∧
        (s.epoch.arm = true → v.epoch.cur = !s.epoch.cur ∧ v.epoch.arm = false ∧ v.epoch.free = false ∧ v.epoch.flips = s.epoch.flips + 1 ∧
          ∀ p, (v.ut p).mesh.epoch = !s.epoch.cur) ∧
        (s.epoch.arm = false → v.epoch = s.epoch))

/-- A step at a gate tick (log entry 49). It begins at the first gate tick at least 4 µs after its admission and not before NOT_BEFORE, with its
units ready (R325); a running one goes from pound to pound, and past its last pound waits for its end. An LT is behind when its core has not reached
pound end, or is halted by DBG, and it has not reached its FINAL end: then an ABORT_STEP step is asked to abort as an overrun (R39), while a core of
a CONTINUE_LATE step runs late and at the third missed gate tick aborts its step (R43). An aborting step drains for one pound and replays when its
LTs are ready, unless it is to end or can no longer run as it was admitted. -/
def Sys2Proof.Rules.PoundByPound : Prop :=
  ∀ (t n : Nat) (r : StepRec) (s : State), s.stepNum n = some r →
    let more := s.modStep n fun r => { r with poundsRun := r.poundsRun + 1 }
    let behind : List Lt := r.man.lts.filter fun l => match s.coreOf l with | some c => c.ctl.behind && !r.finals.contains l | none => false
    let overrun (l : Lt) (x : State) : State := x.report { step := r.num, cause := .status .timingUnsafe_, lt := BitVec.ofNat 7 l.val, overrun := true }
    let on (x : State) : State := if r.poundIdx + 1 < r.man.pounds then x.startPound r (r.poundIdx + 1)
      else x.modStep r.num fun r => { r with poundIdx := r.man.pounds }
    let late : State := (behind.filterMap more.posOf).foldl (fun (s : State) p => s.modCtl p Control.runLate) more
    let third : Option Lt := behind.find? fun l => match late.coreOf l with | some c => decide (3 ≤ c.ctl.missed) | none => false
    let stay (x : State) : State := x.modStep r.num fun r => { r with phase := .repairing, poundsRun := r.poundsRun + 1 }
    let told : Prop := ∃ a ∈ s.aborts, a.step = n
    (r.phase = .admitted → r.ending = none → r.tAdmit + 4000 ≤ t → r.man.notBefore ≤ t → s.stepReady r = true → ¬told →
      s.stepTick t n = s.beginStep r) ∧
    (r.phase = .admitted → (t < r.tAdmit + 4000 ∨ t < r.man.notBefore ∨ s.stepReady r = false ∨ r.ending.isSome = true ∨ told) → s.stepTick t n = s) ∧
    (r.phase = .running → told → s.stepTick t n = more) ∧
    (r.phase = .running → ¬told → r.man.late = false →
      (behind = [] → s.stepTick t n = on more) ∧ (∀ l, behind.head? = some l → s.stepTick t n = overrun l more)) ∧
    (r.phase = .running → ¬told → r.man.late = true →
      (third = none → s.stepTick t n = on late) ∧ (∀ l, third = some l → s.stepTick t n = overrun l late)) ∧
    (∀ k : Control, k.runLate.lateRun = true ∧ k.runLate.missed = k.missed + 1) ∧
    (r.phase = .aborting → s.stepTick t n = more.modStep n fun r => { r with phase := .draining }) ∧
    ((r.phase = .draining ∨ r.phase = .repairing) →
      ((r.ending.isSome = true ∨ r.recheck = true ∨ r.retiring.isSome = true ∨ s.stepReady r = false) → s.stepTick t n = stay s) ∧
      (r.ending = none → r.recheck = false → r.retiring = none → s.stepReady r = true →
        (s.unsafeNow r = true → s.stepTick t n = stay (s.modStep r.num fun r => { r with ending := some .timingUnsafe_ })) ∧
        (s.unsafeNow r = false → r.restored = false → r.man.restore ≠ [] → s.stepTick t n = stay s) ∧
        (s.unsafeNow r = false → (r.restored = true ∨ r.man.restore = []) →
          s.stepTick t n = (s.modStep r.num fun r => { r with replaysRun := r.replaysRun + 1 }).beginStep r)))

/-- The first pound of a step or replay (R114, R115, R161, R265): scalar, address, predicate and vector registers 0, VL 512, every status slot
free, no stream; MAIN resumes at the entry, halted only where DBG holds it in a DEBUG step (R123); the scratchpad and the image stay. -/
def Sys2Proof.Rules.FirstPound : Prop :=
  ∀ (k : Tile) (e : LtEnt) (num : Nat) (a : BitVec 4) (dbg : Bool),
    let v := k.stepStart e num a dbg
    v.core.main.s = Vector.replicate 32 0 ∧ v.core.main.a = Vector.replicate 16 0 ∧ v.core.main.p = Vector.replicate 8 false ∧
    v.core.hand.s = Vector.replicate 32 0 ∧ v.core.hand.a = Vector.replicate 16 0 ∧ v.core.hand.p = Vector.replicate 8 false ∧
    v.core.vMain = Vector.replicate 64 0 ∧ v.core.vHand = Vector.replicate 4 0 ∧ v.core.ctl.vl = Vector.replicate 4 512 ∧
    v.core.mov.slots = Vector.replicate 64 {} ∧ v.core.mov.streams = [] ∧ v.core.ctl.resume = e.entry ∧
    (k.core.ctl.main = .halted → dbg = true → v.core.ctl.main = .halted) ∧ ((k.core.ctl.main ≠ .halted ∨ dbg = false) → v.core.ctl.main = .idle) ∧
    v.core.spd = k.core.spd ∧ v.core.img = k.core.img ∧
    v.ut.stepNo = BitVec.ofNat 12 num ∧ v.ut.attempt = a ∧ v.ut.mesh.w = v.ut.mesh.wmax ∧
    (∀ b : Fin 64, v.ut.berths[b].declared = e.berths.getLsbD b.val)

/-- Gate ticks, and what they do to a step pound by pound. -/
def Obligations.GateTicks : Prop :=
  Sys2Proof.Rules.GateTicks ∧ Sys2Proof.Rules.PoundByPound ∧ Sys2Proof.Rules.FirstPound

/-- The quiet window: released in cycle 64; in cycle 40 every receiving crossing is recentred with the calibrated LAT of its step, a spare link's
with its own, and the pending maps of the seams toward the tile take effect. Outside the window neither happens. -/
def Sys2Proof.Rules.QuietWindows : Prop :=
  ∀ (p : Pos) (s : State),
    let at_ (k : Nat) : State := s.run p (max (s.ut p).cycle ((s.ut p).tick + k))
    ((s.ut p).flags.quiet = false → exec (.quietWindowRelease p) s = .next s ∧ exec (.crossingRecentre p) s = .next s) ∧
    ((s.ut p).flags.quiet = true →
      exec (.quietWindowRelease p) s = .next ((at_ 64).modUt p fun u => { u with flags := { u.flags with quiet := false } }) ∧
      ∃ v, exec (.crossingRecentre p) s = .next v ∧
        (∀ d : Fin 4, (v.ut p).xing[d] = ((at_ 40).ut p).xing[d].centre (latAt ((at_ 40).ut p).xlat[d] ((at_ 40).bankStep (bankOf p)))
          (canalSeam p d.val) (at_ 40).banksDiffer) ∧
        (∀ i : Fin 5, (v.ut p).spareX[i] = ((at_ 40).ut p).spareX[i].centre ((at_ 40).ut p).spareX[i].lat false false) ∧
        (∀ d q, neighbour p d = some q → (v.ut q).mesh.seam[dirNum (opposite d)] = ((at_ 40).ut q).mesh.seam[dirNum (opposite d)].take) ∧
        v.net = (at_ 40).net ∧ v.intake = (at_ 40).intake)

/-- The pound length (R33, R34): 20 to 20,000 µs, in force from the next gate tick without an accepted step; another value leaves it. -/
def Sys2Proof.Rules.PoundLength : Prop :=
  ∀ (v : BitVec 15) (t : Nat) (s : State),
    (20 ≤ v.toNat → v.toNat ≤ 20000 → exec (.poundLenWrite v) s = .next { s with pcfg := { s.pcfg with next := v, err := .done, pend := v != s.pcfg.len } }) ∧
    ((v.toNat < 20 ∨ 20000 < v.toNat) → exec (.poundLenWrite v) s = .next { s with pcfg := { s.pcfg with err := .illegalDescriptor } }) ∧
    (s.pcfg.pend = true → s.intake.steps = [] → t = s.lastTick →
      exec (.poundLengthChange t) s = .next { s with pcfg := { s.pcfg with len := s.pcfg.next, pend := false } }) ∧
    ((s.pcfg.pend = false ∨ s.intake.steps ≠ [] ∨ t ≠ s.lastTick) → exec (.poundLengthChange t) s = .next s)

/-- Beacons (R29, R30): every powered under-tile slews by at most 50 ppm of the beacon interval toward the beacon's time plus its calibrated path
delay and counts; four good ones without holdover end UNSYNC. How long a beacon flies is free (log entry 95). A miss makes the tile unsynchronised,
aborts its step (the cause is free, log entry 3) and is reported as a failure of its tile. -/
def Sys2Proof.Rules.Beacons : Prop :=
  ∀ (t : Nat) (p : Pos) (loss : Bool) (s : State),
    (let u := s.at_ t
     exec (.timeBeacon t) s = .next (u.allUts fun p x =>
      if x.pwr.vnet && !x.flags.lost then x.beacon (u.lkh.keeperHouse == 0) (Config.beaconFlight p.val (u.lkh.keeperHouse == 0)) else x)) ∧
    (∀ (u : UnderTile) (north : Bool) (flight : Nat),
      let b := u.beacon north flight
      let delay : Int := (if north then u.time.pathDelayN else u.time.pathDelay : Nat)
      b.time.err = u.time.err - max (-104857) (min 104857 (u.time.err + ((flight : Int) - delay) * 65536)) ∧
      b.time.beaconCount = u.time.beaconCount + 1 ∧
      (4 ≤ u.time.goodBeacons + 1 → u.clk.holdover = false → b.time.unsync = false) ∧
      ((u.time.goodBeacons + 1 < 4 ∨ u.clk.holdover = true) → b.time.unsync = u.time.unsync)) ∧
    (∃ v, exec (.beaconMiss p loss t) s = .next v ∧ (v.ut p).time.unsync = true ∧ (v.ut p).time.goodBeacons = 0 ∧
      (loss = false → (v.ut p).time.beaconMiss = true) ∧ (loss = true → (v.ut p).time.refLoss = true) ∧
      RepairEvent.unsynced p ∈ v.repair.reports ∧
      (∀ r, s.stepAt p = some r → s.stepNum r.num = some r → r.live = true → ∃ a ∈ v.aborts, a.step = r.num ∧ a.lt = (s.core p).desc.lt) ∧
      (∀ q, q ≠ p → v.ut q = s.ut q) ∧ v.net = s.net)

/-- R339, R37: a reading more than 20 mV below the target stretches the clock and drifts the crossings on both sides by as many quarter-periods; the
fall counts once, until the reading recovers. -/
def Sys2Proof.Rules.DroopStretch : Prop :=
  ∀ (p : Pos) (mv : Nat) (q : Fin 4) (s : State),
    let r := (s.ut p).pwr
    ∃ v, exec (.droopStretch p mv q) s = .next v ∧ (v.ut p).pwr.minMv = BitVec.ofNat 10 mv ∧
      (r.targetMv.toNat ≤ mv + 20 → (v.ut p).pwr.droop = r.droop ∧ (v.ut p).xing = (s.ut p).xing) ∧
      (mv + 20 < r.targetMv.toNat →
        ((r.minMv = 0 ∨ r.targetMv.toNat ≤ r.minMv.toNat + 20) → (v.ut p).pwr.droop = r.droop + 1) ∧
        (r.minMv ≠ 0 → r.minMv.toNat + 20 < r.targetMv.toNat → (v.ut p).pwr.droop = r.droop) ∧
        (v.ut p).pound.stretchQ = satAdd (s.ut p).pound.stretchQ (q.val + 1) ∧
        (∀ d x, neighbour p d = some x → (v.ut p).xing[dirNum d].driftQ = (s.ut p).xing[dirNum d].driftQ + (q.val + 1 : Nat) ∧
          (v.ut x).xing[dirNum (opposite d)].driftQ = (s.ut x).xing[dirNum (opposite d)].driftQ - (q.val + 1 : Nat)) ∧
        (∀ l ∈ spareLinks p, (v.ut l.1).spareX[l.2].driftQ =
          (s.ut l.1).spareX[l.2].driftQ + (if l.1 = p then ((q.val + 1 : Nat) : Int) else -((q.val + 1 : Nat) : Int)))) ∧
      v.net = s.net ∧ v.intake = s.intake

/-- Quiet windows, the pound length, beacons and stretch. -/
def Obligations.PoundEvents : Prop :=
  Sys2Proof.Rules.QuietWindows ∧ Sys2Proof.Rules.PoundLength ∧ Sys2Proof.Rules.Beacons ∧ Sys2Proof.Rules.DroopStretch

/-- Frequency steps (R360 to R363): a request is pending with the idle PLLs unlocked, the code in force cancels it, a reserved code stays in ERR;
each lock is reported, counted when it comes more than 40 µs after the request; the VCORE targets rise from 20 µs before a rise; a lock that has not
come 1 ms after the request cancels it and is reported. -/
def Sys2Proof.Rules.FrequencySteps : Prop :=
  ∀ (b : Bank) (code : BitVec 3) (p : Pos) (t : Nat) (s : State),
    let u := s.at_ t
    let rec_ (f : State → State) : State := u.chgCanal .firmware .internal regStep f
    (code.toNat ≤ 5 → code ≠ s.clocks.step.cur b → exec (.clkStepRequest b code t) s = .next (rec_ fun s =>
      ((s.modStepReg fun c => { c.setReq b code s.now with err := .done }).allUts fun p u =>
        if bankOf p == b && u.alive then { u with clk := u.clk.idleLock false } else u).fixTicks)) ∧
    (code.toNat ≤ 5 → code = s.clocks.step.cur b → exec (.clkStepRequest b code t) s = .next (rec_ fun s =>
      (s.modStepReg fun c => { c.cancel b with err := .done }).fixTicks)) ∧
    (5 < code.toNat → exec (.clkStepRequest b code t) s = .next (rec_ fun s => s.modStepReg fun c => { c with err := .illegalDescriptor })) ∧
    (s.clocks.step.pendOf (bankOf p) = true → (s.ut p).clk.locked = false → (s.ut p).alive = true →
      exec (.pllLocked p t) s = .next ((u.modClk p fun k => { k.idleLock true with
        lateLock := if s.clocks.step.reqOf (bankOf p) + 40000 < u.now then k.lateLock + 1 else k.lateLock }).fixTicks) ∧
      (s.clocks.step.reqOf (bankOf p) + 1000000 ≤ t → exec (.pllLockTimeout p t) s = .next
        ((rec_ fun s => (s.modStepReg fun c => c.cancel (bankOf p)).fixTicks).tellRepair (.lockLate p)))) ∧
    ((s.clocks.step.pendOf (bankOf p) = false ∨ (s.ut p).clk.locked = true ∨ (s.ut p).alive = false) →
      exec (.pllLocked p t) s = .next u ∧ exec (.pllLockTimeout p t) s = .next u) ∧
    (∀ k, s.clocks.step.tick b = some k → k ≤ t + 20000 → (s.clocks.step.next b).toNat < (s.clocks.step.cur b).toNat →
      exec (.vcoreTargetRaise b t) s = .next (u.allUts fun p u =>
        if bankOf p == b && u.alive then { u with pwr := { u.pwr with targetMv := coreMv p (s.clocks.step.next b).toNat } } else u))

/-- A gate tick that has come brings a bank's step into force on every tile of the bank, and no other (R361). -/
def Sys2Proof.Rules.StepInForce : Prop :=
  ∀ (b : Bank) (k t : Nat) (s : State), s.clocks.step.tick b = some k → k ≤ t →
    (s.stepChange b t).clocks.step = s.clocks.step.took b ∧
    (∀ p, bankOf p = b → (s.ut p).flags.lost = false → ((s.stepChange b t).ut p).clk.step = s.clocks.step.next b ∧
      ((s.stepChange b t).ut p).clk.sel = (if (s.ut p).clk.sel = 0 then 1 else 0)) ∧
    (∀ p, bankOf p ≠ b → (s.stepChange b t).ut p = s.ut p)

/-- Clock sources and faults (R354 to R358, R366 to R368): the oscillator serves from its 1,024th edge after its delay; a domain moves only to a
source that is ready; a bad reference input fails over, or with neither good puts the tile in holdover and unsynchronised; a lost lock takes the data
path to SAFE; the watchdog resets the tile's clock block, aborts its step, slips its crossings and is reported. -/
def Sys2Proof.Rules.ClockFaults : Prop :=
  ∀ (p : Pos) (alt : Bool) (t n : Nat) (c : Fin 4) (sel : Bool) (s : State),
    let u := s.at_ t
    let bad : State := u.modClk p fun c => c.setInput alt false
    (1024 ≤ n → s.clocks.powerGood + oscDelay s.clocks.dly ≤ t → s.lkh.pstate ≠ .off → exec (.oscReady n t) s = .next u.oscStarts) ∧
    ((n < 1024 ∨ t < s.clocks.powerGood + oscDelay s.clocks.dly) → exec (.oscReady n t) s = .next u) ∧
    (s.clocks.msw[c].ready.getLsbD (b2n sel) = true →
      exec (.clkMswSwitch c sel) s = .next (s.chgCanal .firmware .internal (regMsw c) fun s => s.mswTo c sel 1)) ∧
    (s.clocks.msw[c].ready.getLsbD (b2n sel) = false → exec (.clkMswSwitch c sel) s = .next (s.chgCanal .firmware .internal (regMsw c) fun s =>
      { s with clocks := { s.clocks with msw := vmod s.clocks.msw c fun m => { m with sel := sel, result := 2 } } })) ∧
    ((s.ut p).alive = true →
      ((s.ut p).clk.refSel = alt → (s.ut p).clk.holdover = false → (s.ut p).clk.inputOk (!alt) = true →
        exec (.refInputBad p alt t) s = .next (bad.modClk p fun c => { c with refSel := !alt, failovers := c.failovers + 1 })) ∧
      ((s.ut p).clk.refSel = alt → (s.ut p).clk.holdover = false → (s.ut p).clk.inputOk (!alt) = false →
        exec (.refInputBad p alt t) s = .next (((bad.modClk p fun c => { c with holdover := true }).slipAll p).unsynced p
          fun k => { k with refLoss := true })) ∧
      (((s.ut p).clk.refSel ≠ alt ∨ (s.ut p).clk.holdover = true) → exec (.refInputBad p alt t) s = .next bad) ∧
      ((s.ut p).clk.holdover = true → exec (.refInputGood p alt t) s = .next (u.modClk p fun c =>
        { c.setInput alt true with holdover := false, refSel := alt })) ∧
      ((s.ut p).clk.holdover = false → exec (.refInputGood p alt t) s = .next (u.modClk p fun c => c.setInput alt true)) ∧
      ((s.ut p).clk.sel.toNat < 2 → (s.ut p).clk.step = 5 → exec (.pllLockLoss p t) s = .next (u.modClk p fun c =>
        { c with sel := 2, lockLost := true, dp0 := c.dp0 && c.sel != 0, dp1 := c.dp1 && c.sel != 1 })) ∧
      ((s.ut p).clk.sel.toNat < 2 → (s.ut p).clk.step ≠ 5 → exec (.pllLockLoss p t) s = .next ((u.modClk p fun c =>
        { c with sel := 2, lockLost := true, dp0 := c.dp0 && c.sel != 0, dp1 := c.dp1 && c.sel != 1 }).slipAll p)) ∧
      (∃ v, exec (.clockWatchdog p sel t) s = .next v ∧ (v.ut p).clk.sel = 2 ∧ (v.ut p).clk.wdog = true ∧ (v.ut p).clk.running = sel ∧
        (v.ut p).clk.step = 5 ∧ (if sel then RepairEvent.watchdogExp p else .watchdogNoExp p) ∈ v.repair.reports ∧
        (∀ r, s.stepAt p = some r → s.stepNum r.num = some r → r.live = true → ∃ a ∈ v.aborts, a.step = r.num ∧ a.lt = (s.core p).desc.lt) ∧
        (∀ d q, neighbour p d = some q → ((s.ut p).xing[dirNum d].mode = 1 ∨ (s.ut p).xing[dirNum d].mode = 2) →
          (v.ut p).xing[dirNum d].slipped = true) ∧
        (∀ q, q ≠ p → (v.ut q).clk = (s.ut q).clk ∧ v.core q = s.core q))) ∧
    ((s.ut p).alive = false → exec (.refInputBad p alt t) s = .next u ∧ exec (.refInputGood p alt t) s = .next u ∧
      exec (.pllLockLoss p t) s = .next u ∧ exec (.clockWatchdog p sel t) s = .next u)

/-- Frequency steps, clock sources and clock faults. -/
def Obligations.Clocks : Prop :=
  Sys2Proof.Rules.FrequencySteps ∧ Sys2Proof.Rules.StepInForce ∧ Sys2Proof.Rules.ClockFaults

/-! ### Power (chapter 12) -/

/-- The input. A sample inside 36 to 62 V moves the measured voltage and the cap (R331); outside, or with PWR_EN low, every step ends, the change is
recorded, every rail and port is down and the panel is OFF (R332). A good input with PWR_EN and PANEL_RST_N high starts it again. -/
def Sys2Proof.Rules.InputPower : Prop :=
  ∀ (mv t : Nat) (s : State),
    let u := s.at_ t
    let f : State := { u with power := { u.power with vin := BitVec.ofNat 16 (mv / 10), low := decide (mv < 40000), high := decide (60000 < mv) } }
    let e : State := { u with pins := { u.pins with pwrEn := false } }
    ((36000 ≤ mv ∧ mv ≤ 62000 ∨ s.lkh.pstate = .off) → exec (.powerFail mv t) s = .next (f.recap false 0)) ∧
    ((mv < 36000 ∨ 62000 < mv) → s.lkh.pstate ≠ .off → exec (.powerFail mv t) s = .next ((f.abortForLoss.logState true f.lkh.pstate .off).goOff)) ∧
    (s.lkh.pstate ≠ .off → exec (.pwrEnFall t) s = .next ((e.abortForLoss.logState false e.lkh.pstate .off).goOff)) ∧
    (s.lkh.pstate = .off → exec (.pwrEnFall t) s = .next e) ∧
    (s.lkh.pstate = .off → s.pins.pwrEn = true → s.pins.panelRstN = true → exec (.inputReturn t) s = .next u.coldStart) ∧
    ((s.lkh.pstate ≠ .off ∨ s.pins.pwrEn = false ∨ s.pins.panelRstN = false) → exec (.inputReturn t) s = .next u) ∧
    (∀ v : State, v.goOff.lkh.pstate = .off ∧ v.goOff.net = [] ∧ v.goOff.power.optics = false ∧ v.goOff.pins.alertN = false ∧
      (∀ x : PortN, (v.goOff.port x).state = .off) ∧
      (∀ p, (v.goOff.ut p).pwr.vcore = false ∧ (v.goOff.ut p).pwr.vsram = false ∧ (v.goOff.ut p).pwr.vnet = false ∧ (v.goOff.ut p).pwr.state = 3) ∧
      (∀ r : ReachN, v.goOff.reaches[r].on = false ∧ v.goOff.reaches[r].pg = false))

/-- A cold start (Table 16.3), in the tiles, ports, stacks, chambers, chart, lock-houses, security state and clocks: everything at its reset value
but what MRAM, fuses and the outside hold. -/
def Sys2Proof.Rules.ColdStart : Prop :=
  ∀ (s : State) (p : Pos),
    s.coldStart.core p = { State.reset.core p with mat := { marginStored := (s.core p).mat.marginStored } } ∧ s.coldStart.ut p = {} ∧ s.coldStart.net = [] ∧
    s.coldStart.ports = State.reset.ports ∧ s.coldStart.hbm = State.reset.hbm ∧ s.coldStart.canal = [] ∧ s.coldStart.chart = State.reset.chart ∧
    s.coldStart.lkh.fdr = s.lkh.fdr ∧ s.coldStart.lkh.derated = s.lkh.derated ∧ s.coldStart.lkh.hwDone = s.lkh.hwSaved[0] ∧
    s.coldStart.sec.groups = s.sec.groups ∧ s.coldStart.sec.revoked = s.sec.revoked ∧ s.coldStart.sec.mgrKeys = s.sec.mgrKeys ∧
    s.coldStart.clocks.trim = s.clocks.trimStored ∧ s.coldStart.host = s.host ∧ s.coldStart.pending = s.pending ∧
    s.coldStart.now = 0 ∧ s.coldStart.lkh.pstate = .starting

/-- Loss and return of the input, and what a cold start leaves. -/
def Obligations.InputPowerAndColdStart : Prop :=
  Sys2Proof.Rules.InputPower ∧ Sys2Proof.Rules.ColdStart

/-- Current limits (R335, R336): at 125 A the six regulators of the reach hold, below 115 A they release unless the input hold lasts; above
390 A of input every reach holds, and at its end the reaches below 115 A release. -/
def Sys2Proof.Rules.CurrentLimits : Prop :=
  ∀ (r : ReachN) (q n : Nat) (s : State),
    (∃ v, exec (.reachCurrentLimit r q) s = .next v ∧ v.reaches[r].iout = BitVec.ofNat 10 (min q 1023) ∧
      (500 ≤ q → v.reaches[r].inLimit = true ∧ (s.reaches[r].inLimit = false → v.reaches[r].limitEvents = s.reaches[r].limitEvents + 1) ∧
        ∀ p ∈ reachTiles r, (v.ut p).pwr.hold10 = true) ∧
      (q < 500 → v.tiles = s.tiles) ∧ (∀ p, p ∉ reachTiles r → v.tile p = s.tile p) ∧ (∀ x : ReachN, x ≠ r → v.reaches[x] = s.reaches[x])) ∧
    (∃ v, exec (.reachLimitRelease r q) s = .next v ∧ v.reaches[r].iout = BitVec.ofNat 10 (min q 1023) ∧
      (q < 460 → s.power.inHold = false → v.reaches[r].inLimit = false ∧ ∀ p ∈ reachTiles r, (v.ut p).pwr.hold10 = false) ∧
      ((460 ≤ q ∨ s.power.inHold = true) → v.tiles = s.tiles ∧ v.reaches[r].inLimit = s.reaches[r].inLimit)) ∧
    (∃ v, exec (.inputCurrentHold n) s = .next v ∧ v.power.iin = BitVec.ofNat 16 (min n 65535) ∧ v.power.inHold = decide (3900 < n) ∧
      (3900 < n → ∀ p, (v.ut p).pwr.hold10 = true) ∧ (n ≤ 3900 → s.power.inHold = false → v.tiles = s.tiles) ∧
      (n ≤ 3900 → s.power.inHold = true → s.reaches[r].iout.toNat < 460 → ∀ p ∈ reachTiles r, (v.ut p).pwr.hold10 = false) ∧ v.net = s.net)

/-- Power-on (R338, R344 to R346): a request joins its reach's queue, its head is admitted once the current and the allowances fit LIMIT_A, the rail
is good after its time and the allowance is released; after 10 ms the head is refused with ADMISSION_TIMEOUT (a spare powered for a substitution then
counts as failed). A die whose VCORE is good is zeroed before it is IDLE. -/
def Sys2Proof.Rules.PowerOn : Prop :=
  ∀ (p : Pos) (rail : Rail) (r : ReachN) (t n : Nat) (s : State),
    let u := s.at_ t
    let may : Prop := match rail with
      | .vnet => s.reaches[reachOf p].pg = true ∧ (s.ut p).flags.lost = false
      | .vsram => s.dieUsable p = true
      | .vcore => s.dieUsable p = true ∧ (s.ut p).pwr.vsram = true
    (may → exec (.powerOnRequest p rail t) s = .next ((u.askRail p rail).modPwr p fun k => { k with pending := k.pending || rail != .vnet })) ∧
    (¬may → exec (.powerOnRequest p rail t) s = .next u) ∧
    (s.reaches[r].queue = [] → exec (.powerOnAdmit r n t) s = .next u ∧ exec (.powerOnTimeout r t) s = .next u) ∧
    (∀ q rest, s.reaches[r].queue = q :: rest →
      let late : State := (((u.modReach r fun x => { x with queue := rest, timeouts := x.timeouts + 1 }).modPwr q.pos fun k => { k with
        refused := true, pending := false, req := k.state, vsram := k.vsram && k.state != 3 }).logErr (dieUnit q.pos) (statusCode .admissionTimeout) 1)
      (n + 4 * (s.reaches[r].held.foldl (fun n e => n + e.2) 0) + 4 * s.reaches[r].allowance q.rail ≤ 4 * s.reaches[r].limitA.toNat →
        exec (.powerOnAdmit r n t) s = .next (u.modReach r fun x => { x with
          queue := rest, held := x.held ++ [({ q with at_ := u.now }, s.reaches[r].allowance q.rail)] })) ∧
      (4 * s.reaches[r].limitA.toNat < n + 4 * (s.reaches[r].held.foldl (fun n e => n + e.2) 0) + 4 * s.reaches[r].allowance q.rail →
        exec (.powerOnAdmit r n t) s = .next u) ∧
      (t < q.at_ + 10000000 → exec (.powerOnTimeout r t) s = .next u) ∧
      (q.at_ + 10000000 ≤ t → (∀ x ∈ s.repair.subst, x.spare ≠ q.pos) → exec (.powerOnTimeout r t) s = .next late) ∧
      (q.at_ + 10000000 ≤ t → (∃ x ∈ s.repair.subst, x.spare = q.pos) → exec (.powerOnTimeout r t) s = .next (late.spareFailedFree q.pos))) ∧
    (∀ e, (s.reaches[reachOf p].held.find? fun e => e.1.pos == p && e.1.rail == rail) = some e →
      let v := u.modReach (reachOf p) fun x => { x with held := x.held.erase e }
      (t < e.1.at_ + railNs rail → exec (.powerOnComplete p rail t) s = .next u) ∧
      (e.1.at_ + railNs rail ≤ t →
        (rail = .vnet → exec (.powerOnComplete p rail t) s = .next (v.modUt p fun u => { u with
          pwr := { u.pwr with vnet := true }, clk := { u.clk with exp := true, running := true, expRuns := true } })) ∧
        (rail = .vsram → exec (.powerOnComplete p rail t) s = .next ((v.modPwr p fun r => { r with vsram := true }).askRail p .vcore)) ∧
        (rail = .vcore → exec (.powerOnComplete p rail t) s = .next ((v.modPwr p fun r => { r with vcore := true }).modSpd p
          fun d => { d with zeroing := true }))))

/-- Power states of a die (Table 12.7): a request is ignored while one is pending, and where firmware does not place the die so (R343, log entry
58); IDLE raises the rails that the state lacks, of a die that may be powered; RETAIN keeps the resident regions; DARK clears the core. -/
def Sys2Proof.Rules.PowerStates : Prop :=
  ∀ (p : Pos) (t : Nat) (s : State),
    let u := s.at_ t
    let k := (s.ut p).pwr
    let req (v : BitVec 2) : State := u.modPwr p fun k => { k with req := v }
    ((k.pending = true ∨ s.mayPlace p 1 = false) → exec (.pwrReqIdle p t) s = .next u) ∧
    ((k.pending = true ∨ s.mayPlace p 2 = false) → exec (.pwrReqRetain p t) s = .next u) ∧
    ((k.pending = true ∨ s.mayPlace p 3 = false) → exec (.pwrReqDark p t) s = .next u) ∧
    (k.pending = false → s.mayPlace p 1 = true →
      (k.state = 2 → s.dieUsable p = true →
        exec (.pwrReqIdle p t) s = .next (((req 1).modPwr p fun k => { k with pending := true }).askRail p .vcore)) ∧
      (k.state = 3 → s.dieUsable p = true →
        exec (.pwrReqIdle p t) s = .next (((req 1).modPwr p fun k => { k with pending := true }).askRail p .vsram)) ∧
      ((s.dieUsable p = false ∨ (k.state ≠ 2 ∧ k.state ≠ 3)) → exec (.pwrReqIdle p t) s = .next (req 1))) ∧
    (k.pending = false → s.mayPlace p 2 = true →
      (k.state = 1 → exec (.pwrReqRetain p t) s = .next (((req 2).modCore p Core.retain).modPwr p fun k => { k with state := 2, vcore := false })) ∧
      (k.state ≠ 1 → exec (.pwrReqRetain p t) s = .next (req 2))) ∧
    (k.pending = false → s.mayPlace p 3 = true →
      ((k.state = 1 ∨ k.state = 2) → exec (.pwrReqDark p t) s = .next ((req 3).goDark p)) ∧
      (k.state ≠ 1 → k.state ≠ 2 → exec (.pwrReqDark p t) s = .next (req 3))) ∧
    (∀ v : State, (v.goDark p).core p = ((v.closeAll p).core p).clearAll ∧ ((v.goDark p).ut p).pwr.state = 3) ∧
    (∀ c : Core, c.clearAll.spd.mem = [] ∧ c.clearAll.img = {} ∧ c.clearAll.main = {} ∧ c.clearAll.vMain = Vector.replicate 64 0 ∧ c.clearAll.desc = c.desc ∧
      (∀ e ∈ c.retain.spd.mem, e ∈ c.spd.mem ∧ c.spd.resident e.1 = true) ∧ (∀ e ∈ c.spd.mem, c.spd.resident e.1 = true → e ∈ c.retain.spd.mem) ∧
      c.retain.img = c.img) ∧
    (k.state = 0 → (∀ r, s.stepAt p = some r → r.phase ≠ .running) → s.coreQuiet p = true →
      exec (.coreIdleEntry p t) s = .next (u.modPwr p fun k => { k with state := 1 })) ∧
    ((k.state ≠ 0 ∨ (∃ r, s.stepAt p = some r ∧ r.phase = .running) ∨ s.coreQuiet p = false) → exec (.coreIdleEntry p t) s = .next u)

/-- Current limits, power-on admission and the power states of a die. -/
def Obligations.Rails : Prop :=
  Sys2Proof.Rules.CurrentLimits ∧ Sys2Proof.Rules.PowerOn ∧ Sys2Proof.Rules.PowerStates

/-- Faults of rails and reaches (R337, R340, R341, R348): a reach without power good at start-up loses its tiles; a die over its VCORE current is
fenced and dark; a VNET trip loses its position and fences its under-tile; each is reported. A lost position drops its seams, its die and its stack. -/
def Sys2Proof.Rules.PowerFaults : Prop :=
  ∀ (p : Pos) (r : ReachN) (t : Nat) (s : State),
    let u := s.at_ t
    (s.reaches[r].pg = false → s.reaches[r].lost = false → s.lkh.pstate = .starting → exec (.reachPgTimeout r t) s = .next
      (((reachTiles r).foldl (fun (s : State) p => s.losePos p) (u.modReach r fun x => { x with on := false, lost := true, queue := [], held := [] })).tellRepair
        (.reach r))) ∧
    ((s.reaches[r].pg = true ∨ s.reaches[r].lost = true ∨ s.lkh.pstate ≠ .starting) → exec (.reachPgTimeout r t) s = .next u) ∧
    ((s.ut p).pwr.state ≠ 3 → exec (.vcoreOvercurrent p t) s = .next (((u.fenceDie p 6 0).goDark p).tellRepair (.overcurrent p))) ∧
    ((s.ut p).pwr.state = 3 → exec (.vcoreOvercurrent p t) s = .next u) ∧
    ((s.ut p).flags.lost = false → (s.ut p).pwr.vnet = true → exec (.vnetTrip p t) s = .next
      ((((((u.abortAt p (.status .tileFenced)).losePos p).modPwr p fun k => { k with vnetOcp := true }).modFlags p fun f => f.failed u.now).fenceUnit
        (utUnit p) 6 0).tellRepair (.vnetTrip p))) ∧
    (((s.ut p).flags.lost = true ∨ (s.ut p).pwr.vnet = false) → exec (.vnetTrip p t) s = .next u) ∧
    (s.reaches[r].tripped = false → s.reaches[r].on = true → exec (.reachShort r t) s = .next (u.shortReach r)) ∧
    ((s.reaches[r].tripped = true ∨ s.reaches[r].on = false) → exec (.reachShort r t) s = .next u) ∧
    ((s.ut p).flags.lost = false → ((s.losePos p).ut p).flags.lost = true ∧ ((s.losePos p).ut p).pwr.vnet = false ∧
      (∀ d q, neighbour p d = some q → ((s.losePos p).ut q).xing[dirNum (opposite d)].dropped = true) ∧
      (∀ m, stackAt p = some m → (s.losePos p).hbm[m].lost = true ∧ (s.losePos p).hbm[m].mem = []))

/-- Loss of a lock-house, an optics or the companion supply (Table 12.9): the house serves no more (with LH-C the Canal chambers, the oscillator and
the reference of every tile are gone), the ports of a side are OFF, or the intake unit stops. A second loss of the same supply does nothing. -/
def Sys2Proof.Rules.SupplyLosses : Prop :=
  ∀ (sup : Supply) (t : Nat) (s : State),
    (sup ∈ s.power.lost → exec (.supplyLoss sup t) s = .next (s.at_ t)) ∧
    (sup ∉ s.power.lost →
      ∃ v, exec (.supplyLoss sup t) s = .next v ∧ v.power.lost = s.power.lost ++ [sup] ∧
        (sup = .lhN → v.lkh.serving = s.lkh.serving &&& 6 ∧ v.tiles = s.tiles) ∧
        (sup = .lhS → v.lkh.serving = s.lkh.serving &&& 3 ∧ v.tiles = s.tiles) ∧
        (sup = .lhC → v.lkh.serving = s.lkh.serving &&& 5 ∧ v.canal = [] ∧ v.clocks.oscReady = false ∧
          ∀ p, (v.ut p).clk.holdover = true ∧ (v.ut p).time.unsync = true ∧ (v.ut p).mirror = []) ∧
        (sup = .northOptics → ∀ x : PortN, x.val < 9 → (v.port x).state = .off) ∧
        (sup = .southOptics → ∀ x : PortN, 9 ≤ x.val → (v.port x).state = .off) ∧
        (sup = .kcl → v.intake.stopped = true ∧ v.pins.alertN = false))

/-- The cap check (R353, R56; log entry 56), in ACTIVE outside an emergency: above the cap one bank, or both where a CANAL_TIMED pound is near, goes
one step lower; banks that differ before such a pound join; with room for 8 gate intervals one bank rises a step, and with none to raise the slow rise
is over. The counter of low intervals starts again above 92 percent. -/
def Sys2Proof.Rules.CapCheck : Prop :=
  ∀ (pin w e t : Nat) (s : State),
    let u := s.at_ t
    let v := ({ u with power := { u.power with pin := BitVec.ofNat 16 (min pin 65535) } } : State).recap false 0
    let cap := v.power.effW.toNat
    let z : State := if pin * 100 ≤ cap * 92 then v else { v with power := { v.power with lowTicks := 0 } }
    let waits : Prop := z.power.lowTicks < 8 ∨ z.clocks.step.pendW = true ∨ z.clocks.step.pendE = true ∨
      (z.therm.slowRise = true ∧ z.now < z.therm.raisedAt + 100000000)
    let b : Bank := if z.canRaise .west = false then .east else if z.canRaise .east = false then .west
      else if z.bankStep .east ≤ z.bankStep .west then .west else .east
    let up := z.raiseBank b z.canalTimedRuns
    ((v.therm.emerg = true ∨ v.lkh.pstate ≠ .active) → exec (.powerCapCheck pin w e t) s = .next z) ∧
    (v.therm.emerg = false → v.lkh.pstate = .active →
      (cap < pin → exec (.powerCapCheck pin w e t) s = .next (z.lowerBank (if e ≤ w then .west else .east) v.canalTimedRuns)) ∧
      (pin ≤ cap → v.mustJoin = true → exec (.powerCapCheck pin w e t) s = .next z.joinBanks) ∧
      (pin ≤ cap → v.mustJoin = false →
        (z.canRaise .west = false → z.canRaise .east = false →
          exec (.powerCapCheck pin w e t) s = .next { z with therm := { z.therm with slowRise := false } }) ∧
        ((z.canRaise .west = true ∨ z.canRaise .east = true) → waits → exec (.powerCapCheck pin w e t) s = .next z) ∧
        ((z.canRaise .west = true ∨ z.canRaise .east = true) → ¬waits →
          exec (.powerCapCheck pin w e t) s = .next { up with power := { up.power with lowTicks := 0 } }))) ∧
    (∀ x : State, (x.recap false 0).power.effW = BitVec.ofNat 16 x.capNow) ∧
    (∀ (x : State) (b : Bank), x.clocks.step.link = false → x.clocks.step.pendOf b = false → x.bankStep b < 5 →
      x.lowerBank b false = x.askStep b (BitVec.ofNat 3 (x.bankStep b + 1)))

/-- Faults of rails, reaches and supplies, and the cap check. -/
def Obligations.PowerFaults : Prop :=
  Sys2Proof.Rules.PowerFaults ∧ Sys2Proof.Rules.SupplyLosses ∧ Sys2Proof.Rules.CapCheck

/-! ### Time and heat (chapters 13, 14) -/

/-- Time sources (R369 to R371; log entry 54): edges count toward a source, one that meets its conditions qualifies, one that fails is disqualified and
gives way at once to the best that is left, and one of higher priority, qualified for 10 s, takes over. -/
def Sys2Proof.Rules.TimeSources : Prop :=
  ∀ (src : Fin 3) (t : Nat) (s : State),
    let u := s.at_ t
    let held (k : Fin 3) : Prop := s.tsrc.qual.getLsbD k.val = true ∧ s.tsrc.en.getLsbD k.val = true ∧ s.tsrc.qualSince[k] + 10000000000 ≤ u.now
    exec (.timNowRead none t) s = .next (u.latchFrac (.canal 0x010008)) ∧
    (∀ p, exec (.timNowRead (some p) t) s = .next (u.latchFrac (.tile p 0x0C0000))) ∧
    (∃ v, exec (.ppsInEdge t) s = .next v ∧ v = u.modTsrc (fun _ => v.tsrc) ∧ v.tsrc.ppsInCount = s.tsrc.ppsInCount + 1 ∧ v.tsrc.ppsLast = some t ∧
      (∀ l, s.tsrc.ppsLast = some l → v.tsrc.ppsGood = if 999999000 ≤ t - l ∧ t - l ≤ 1000001000 then s.tsrc.ppsGood + 1 else 1) ∧
      (s.tsrc.ppsLast = none → v.tsrc.ppsGood = 1)) ∧
    (s.tsrc.qual.getLsbD src.val = false → u.meetsSource src = true →
      ∃ v, exec (.timeSourceQualify src t) s = .next v ∧ v.tsrc.qual = s.tsrc.qual ||| BitVec.ofNat 3 (2 ^ src.val) ∧
        v.tsrc.qualSince = s.tsrc.qualSince.set src u.now ∧ v.tsrc.freeRun = false ∧ v.tsrc.cur = s.tsrc.cur ∧ v.tiles = s.tiles) ∧
    ((s.tsrc.qual.getLsbD src.val = true ∨ u.meetsSource src = false) → exec (.timeSourceQualify src t) s = .next u) ∧
    (s.tsrc.qual.getLsbD src.val = true → u.failsSource src = true → exec (.timeSourceDisqualify src t) s = .next (u.disqualify src) ∧
      (u.disqualify src).tsrc.qual.getLsbD src.val = false ∧
      (s.tsrc.cur.toNat = src.val → (u.disqualify src).tsrc.cur = ({ s.tsrc with qual := s.tsrc.qual &&& ~~~BitVec.ofNat 3 (2 ^ src.val) } : TimeSrc).best)) ∧
    ((s.tsrc.qual.getLsbD src.val = false ∨ u.failsSource src = false) → exec (.timeSourceDisqualify src t) s = .next u) ∧
    (held src → src.val < s.tsrc.cur.toNat → (∀ k : Fin 3, k < src → ¬held k) →
      exec (.timeSourceTakeover src t) s = .next (u.useSource (BitVec.ofNat 2 src.val))) ∧
    ((¬held src ∨ s.tsrc.cur.toNat ≤ src.val ∨ ∃ k : Fin 3, k < src ∧ held k) → exec (.timeSourceTakeover src t) s = .next u)

/-- The servo and TIM_SET (R372, R373, Table 13.6), the trim's save each hour, PPS_OUT (R374), IEEE 1588 as an ordinary clock and as a grandmaster
(R375), the companion's marks (R315), ALIVE. The servo leaves what it is told is to be slewed, and moves the trim by at most 1 ppb in 10 ms. -/
def Sys2Proof.Rules.TimeOutputs : Prop :=
  ∀ (d ppb : Int) (up : Bool) (t n : Nat) (w : Word) (k : KPort) (s : State),
    let u := s.at_ t
    (s.tsrc.cur ≠ 3 → ∃ v, exec (.timeServoUpdate d ppb t) s = .next v ∧ v.tsrc.remain = d ∧ -100000 ≤ v.clocks.trim ∧ v.clocks.trim ≤ 100000 ∧
      (-100000 ≤ s.clocks.trim → s.clocks.trim ≤ 100000 →
        v.clocks.trim - s.clocks.trim ≤ ((u.now - s.tsrc.servoAt) / 10000000 : Nat) ∧ s.clocks.trim - v.clocks.trim ≤ ((u.now - s.tsrc.servoAt) / 10000000 : Nat)) ∧
      v.now = u.now ∧ v.tiles = s.tiles) ∧
    (s.tsrc.cur = 3 → exec (.timeServoUpdate d ppb t) s = .next u) ∧
    (s.timSettable = true → exec (.timSet w) s = .next ((s.logReg .firmware .internal (regCanal 0x010028) s.now w.toNat).stepTime w.toNat)) ∧
    (s.timSettable = false → exec (.timSet w) s = .next (s.modTsrc fun c => { c with setRefused := true })) ∧
    (s.clocks.trimSaved + 3600000000000 ≤ u.now → exec (.trimSave up t) s = .next
      { u with clocks := { u.clocks with trimStored := u.trimMean up 3600000000000, trimSaved := u.now } }) ∧
    (u.now < s.clocks.trimSaved + 3600000000000 → exec (.trimSave up t) s = .next u) ∧
    (t % 1000000000 = 0 → s.now ≤ t → u.ppsHeld = false → exec (.ppsOutPulse t) s = .next
      { u with pins := { u.pins with ppsUntil := t + s.tsrc.ppsWidth.toNat * 1000000 } }) ∧
    ((t % 1000000000 ≠ 0 ∨ t < s.now ∨ u.ppsHeld = true) → exec (.ppsOutPulse t) s = .next u) ∧
    (s.tsrc.ptpMode = 1 →
      exec (.ptpMessage (.sync d) t) s = .next ((u.modTsrc fun c =>
        { c with ptpSlave := true, ptpOffsets := (d :: c.ptpOffsets).take 16, ptpLastSync := u.now }).ptpSend (.delayReq u.now)) ∧
      exec (.ptpMessage .announce t) s = .next (u.modTsrc fun c => { c with ptpSlave := true }) ∧
      exec (.ptpMessage .leaveSlave t) s = .next (u.modTsrc fun c => { c with ptpSlave := false, ptpOffsets := [] })) ∧
    (s.tsrc.ptpMode = 2 →
      exec (.ptpMessage .announce t) s = .next (u.ptpSend (.announce s.tsrc.announced.1 s.tsrc.announced.2 s.tsrc.ptpPrio1 s.tsrc.ptpPrio2
        s.tsrc.ptpDomain s.tsrc.ptpUtc)) ∧
      exec (.ptpMessage (.sync d) t) s = .next (u.ptpSend (.sync u.now))) ∧
    (s.tsrc.ptpMode ≠ 1 → s.tsrc.ptpMode ≠ 2 → ∀ m, exec (.ptpMessage m t) s = .next u) ∧
    ((s.kport k).state = 3 → (k = 0 ∨ (s.kport 0).state ≠ 3) → ∃ v, exec (.kclTime k n t) s = .next v ∧ v.intake.lastMark = t ∧
      v.intake.marks = (if 990 ≤ t - s.intake.lastMark ∧ t - s.intake.lastMark ≤ 1010 then s.intake.marks + 1 else 1) ∧
      (s.tsrc.cur = 2 → v.tsrc.remain = ((n : Int) - (u.now : Int)) * 65536) ∧ (s.tsrc.cur ≠ 2 → v.tsrc = s.tsrc)) ∧
    (((s.kport k).state ≠ 3 ∨ (k = 1 ∧ (s.kport 0).state = 3)) → exec (.kclTime k n t) s = .next u) ∧
    (t % 500000 = 0 → s.now ≤ t → s.pins.aliveAt ≠ t → s.firmwareRuns = true → exec (.aliveToggle t) s = .next
      { u with pins := { u.pins with alive := !u.pins.alive, aliveAt := t } }) ∧
    ((t % 500000 ≠ 0 ∨ t < s.now ∨ s.pins.aliveAt = t ∨ s.firmwareRuns = false) → exec (.aliveToggle t) s = .next u)

/-- The clockClass and timeSource that the panel announces for the source in use (Table 13.7). -/
def Sys2Proof.Rules.ClockClasses : Prop :=
  ∀ c : TimeSrc,
    (c.cur = 0 → c.announced = (6, c.ptpTsrc)) ∧ (c.cur = 2 → c.announced = (13, 0x90)) ∧
    (c.cur = 3 → c.freeRun = true → c.announced = (248, 0xA0)) ∧ (c.cur = 3 → c.freeRun = false → c.lastClass = 0 → c.announced = (7, 0xA0)) ∧
    (c.cur = 3 → c.freeRun = false → c.lastClass ≠ 0 → c.announced = (14, 0xA0))

/-- Sources of panel time, the servo, TIM_SET and the time outputs. -/
def Obligations.PanelTime : Prop :=
  Sys2Proof.Rules.TimeSources ∧ Sys2Proof.Rules.TimeOutputs ∧ Sys2Proof.Rules.ClockClasses

/-- A sample of a powered under-tile (R376 to R382): the sites, the hottest governing reading, THROTTLE from 95 °C on, the stack beside it with
doubled refresh from 85 °C on, an optical engine that goes OFF at 85 °C. -/
def Sys2Proof.Rules.ThermalSamples : Prop :=
  ∀ (p : Pos) (a b : Vector Int 6) (st opt : Int) (t : Nat) (s : State),
    ((s.ut p).alive = false → exec (.thermalSample p a b st opt t) s = .next (s.at_ t)) ∧
    ((s.ut p).alive = true →
      ∃ v, exec (.thermalSample p a b st opt t) s = .next v ∧
        (v.ut p).thm.sites = ((s.ut p).thm.sample a b).sites ∧ (v.ut p).thm.hot = ((s.ut p).thm.sample a b).hot ∧
        (v.ut p).thm.throttle = ((s.ut p).thm.sample a b).throttle ∧
        (∀ m, stackAt p = some m → (s.hbm[m]).present = true → (s.hbm[m]).lost = false → (v.hbm[m]).temp = st ∧ (v.hbm[m]).refresh2 = decide (340 ≤ st)) ∧
        (∀ x, portAt p = some x → 340 ≤ opt → (s.port x).state ≠ .off → (v.port x).state = .off ∧ (v.port x).hotOff = true) ∧
        (∀ q, q ≠ p → (v.ut q).thm = (s.ut q).thm)) ∧
    (∀ k : TileTherm, (k.sample a b).throttle = (match maxGov ((k.sample a b).sites.toList.map fun x => if x.govNone then none else some x.gov.toInt) with
      | some h => decide (380 ≤ h) | none => k.throttle))

/-- One site (R376 to R378): the higher of two plausible readings governs, one alone with 3 °C added, none where both fail; ten samples more than
5 °C apart set SENSOR_SPLIT, ten within 5 °C end it. -/
def Sys2Proof.Rules.SiteReadings : Prop :=
  ∀ (x : Site) (a b : Int) (o : Option Int),
    (plausible a = true → plausible b = true → (x.sample true a b o).gov = BitVec.ofInt 11 (max a b) ∧ (x.sample true a b o).govNone = false) ∧
    (plausible a = true → plausible b = false → (x.sample true a b o).gov = BitVec.ofInt 11 (a + 12) ∧ (x.sample true a b o).bBad = true) ∧
    (plausible a = false → plausible b = true → (x.sample true a b o).gov = BitVec.ofInt 11 (b + 12) ∧ (x.sample true a b o).aBad = true) ∧
    (plausible a = false → plausible b = false → (x.sample true a b o).govNone = true) ∧
    (plausible a = true → (x.sample false a b o).gov = BitVec.ofInt 11 a) ∧
    (plausible a = true → plausible b = true → (20 < a - b ∨ 20 < b - a) → 9 ≤ x.apart → (x.sample true a b o).split = true) ∧
    (plausible a = true → plausible b = true → a - b ≤ 20 → b - a ≤ 20 → 9 ≤ x.close → (x.sample true a b o).split = false) ∧
    (plausible a = true ↔ -160 ≤ a ∧ a ≤ 600)

/-- What follows the thresholds (R381, R382, R384): a bank that has been cool long enough rises a step, a port that has been cool for 10 s comes back,
three conversions in the trip range open the e-fuse of a powered reach; otherwise nothing happens. -/
def Sys2Proof.Rules.ThermalActions : Prop :=
  ∀ (b : Bank) (x : PortN) (p : Pos) (ofStack : Bool) (l : List Int) (t : Nat) (s : State),
    let u := s.at_ t
    let cool : Prop := s.therm.emerg = false ∧ 8 ≤ s.therm.coolTicks[bankIx b] ∧ s.therm.hotAt[bankIx b] + 100000000 ≤ u.now ∧
      s.clocks.step.pendOf b = false ∧ s.canRaise b = true
    let trips : Prop := (∃ r1 r2 r3 rest, l = rest ++ [r1, r2, r3] ∧ ∀ r ∈ [r1, r2, r3], (if ofStack then (420 : Int) else 460) ≤ r ∧ r ≤ 600) ∧
      (ofStack = true → stackAt p ≠ none) ∧ s.reaches[reachOf p].on = true
    (cool → exec (.thermalRecovery b t) s = .next ((u.raiseBank b u.canalTimedRuns).modTherm fun k =>
        { k with coolTicks := k.coolTicks.set (bankIx b) 0, hotAt := k.hotAt.set (bankIx b) u.now })) ∧
    (¬cool → exec (.thermalRecovery b t) s = .next u) ∧
    (∀ c, (s.port x).hotOff = true → (s.port x).coolAt = some c →
      let v := u.modPort x fun q => { q with hotOff := false }
      (c + 10000000000 ≤ u.now → exec (.opticsReenable x t) s = .next (v.portLeave x (if (s.port x).en && v.portCan x then .dark else .off) .done)) ∧
      (u.now < c + 10000000000 → exec (.opticsReenable x t) s = .next u)) ∧
    (((s.port x).hotOff = false ∨ (s.port x).coolAt = none) → exec (.opticsReenable x t) s = .next u) ∧
    (trips → exec (.hardwareTrip p ofStack l t) s = .next (({ u.modUt p (fun u => { u with thm := { u.thm with trip := true } }) with
        pins := { u.pins with thermTripN := false } } : State).shortReach (reachOf p))) ∧
    (¬trips → exec (.hardwareTrip p ofStack l t) s = .next u)

/-- Coolant (R385 to R388, Table 14.4): a sample's readings, flags, flow estimate and place in the second's history; FLOW_OK lost and back, and a low
shorter than 100 µs, which counts as a glitch. -/
def Sys2Proof.Rules.Coolant : Prop :=
  ∀ (i o : Int) (w t n : Nat) (s : State),
    let u := s.at_ t
    (∃ v, exec (.coolantSample i o w t) s = .next v ∧ v.therm.inlet = BitVec.ofInt 14 (max 0 (min 16383 i)) ∧
      v.therm.outlet = BitVec.ofInt 14 (max 0 (min 16383 o)) ∧
      (v.therm.thermBad = true ↔ (i < 0 ∨ 10000 < i ∨ o < 0 ∨ 10000 < o)) ∧ v.therm.inletHigh = decide (4000 < i) ∧ v.therm.inletLow = decide (i < 2000) ∧
      (o - i < 100 → v.therm.flowEst = s.therm.flowEst) ∧
      (100 ≤ o - i → v.therm.flowEst = BitVec.ofNat 10 (min (22000 * w / (1532 * (o - i).toNat)) 1023)) ∧
      (v.therm.thermBad = true → v.therm.rateHeld = false) ∧
      v.therm.hist.head? = some (u.now, u.hottest, (if v.therm.thermBad then 4000 else i), w) ∧ v.tiles = s.tiles ∧ v.net = s.net) ∧
    (exec (.flowOkLoss t) s = .next (({ u with
      pins := { u.pins with flowOk := false }, therm := { u.therm with flowOk := false, coolSince := none } } : State).noteGood)) ∧
    (n < 100 → exec (.flowOkGlitch n) s = .next (s.modTherm fun k => { k with glitch := k.glitch + 1 })) ∧
    (100 ≤ n → exec (.flowOkGlitch n) s = .next s) ∧
    (exec (.flowOkAssert t) s = .next (({ u with
      pins := { u.pins with flowOk := true }
      therm := { u.therm with
        flowOk := true
        coolSince := if u.therm.thermBad || u.therm.inletHigh || u.therm.hist.isEmpty then none else some (u.therm.coolSince.getD u.now) } } : State).noteGood))

/-- Thermal samples, thresholds and the coolant. -/
def Obligations.Heat : Prop :=
  Sys2Proof.Rules.ThermalSamples ∧ Sys2Proof.Rules.SiteReadings ∧ Sys2Proof.Rules.ThermalActions ∧ Sys2Proof.Rules.Coolant

/-- The thermal cap (R389 to R391): theta and its target each 100 ms from the means of the last second (theta only from 2,000 W on), a fall by at most
5 percent at once, a rise by at most 5 percent a second, within the cap's bounds; the emergency (R392 to R394) puts every powered tile on SAFE, both
banks at S5 and the cap at BASE_W, and ends after 10 s of good conditions with the banks at S4. -/
def Sys2Proof.Rules.ThermalCap : Prop :=
  ∀ (a b e : Bool) (t : Nat) (c : Fin 4) (s : State),
    let u := s.at_ t
    let m := u.modTherm fun k => k.measured a b e u.now
    let w := s.therm.thermalW.toNat
    let g := m.therm.targetW.toNat
    (m.capMoves = true → g < w → exec (.thermalCapUpdate a b e t) s = .next
      ((m.modTherm fun k => { k with thermalW := BitVec.ofNat 16 (m.clipCap (max (w * 95 / 100) g)) }).recap false 1)) ∧
    ((m.capMoves = false ∨ w ≤ g) → exec (.thermalCapUpdate a b e t) s = .next m) ∧
    (∀ (k : Thermal) (now_ : Nat), (k.means a b e now_ = none → k.measured a b e now_ = k) ∧
      (∀ hot tin pin, k.means a b e now_ = some (hot, tin, pin) →
        let d := (hot - k.tIn tin).toNat
        (2000 ≤ pin → (k.measured a b e now_).thetaN = d ∧ (k.measured a b e now_).thetaD = 100 * pin ∧
          (k.measured a b e now_).theta = BitVec.ofNat 16 (min (d * 1000000 / (100 * pin)) 65535)) ∧
        (pin < 2000 → (k.measured a b e now_).thetaN = k.thetaN ∧ (k.measured a b e now_).thetaD = k.thetaD) ∧
        (k.measured a b e now_).targetW = BitVec.ofNat 16 ((k.measured a b e now_).target (k.tIn tin)))) ∧
    (s.capMoves = true → w < s.therm.targetW.toNat → exec (.thermalCapRise t) s = .next
      ((u.modTherm fun k => { k with thermalW := BitVec.ofNat 16 (u.clipCap (min (w * 105 / 100) s.therm.targetW.toNat)) }).recap false 1)) ∧
    ((s.capMoves = false ∨ s.therm.targetW.toNat ≤ w) → exec (.thermalCapRise t) s = .next u) ∧
    (s.therm.emerg = false → s.drawsPower = true → s.mustEmergency c = true → exec (.thermalEmergency c t) s = .next (u.emergency (c.val + 1))) ∧
    ((s.therm.emerg = true ∨ s.drawsPower = false ∨ s.mustEmergency c = false) → exec (.thermalEmergency c t) s = .next u) ∧
    (∀ n, (s.emergency n).therm.emerg = true ∧ (s.emergency n).therm.thermalW = s.power.baseW ∧ (s.emergency n).clocks.step.wCur = 5 ∧
      (s.emergency n).clocks.step.eCur = 5 ∧ (s.emergency n).pins.alertN = false ∧
      (∀ p, (s.ut p).alive = true → ((s.emergency n).ut p).clk.sel = 2 ∧ ((s.emergency n).ut p).clk.step = 5)) ∧
    (∀ k, s.therm.emerg = true → s.therm.goodSince = some k → k + 10000000000 ≤ u.now → exec (.thermalEmergencyExit t) s = .next
      (((((u.modTherm fun k => { k with
        emerg := false, slowRise := true, raisedAt := u.now, thermalW := BitVec.ofNat 16 (u.clipCap k.targetW.toNat) }).recap true s.therm.lastCause.toNat).logRec
          0x51 .firmware [0, s.therm.lastCause.toNat]).askSteps 4 4).alert)) ∧
    ((s.therm.emerg = false ∨ s.therm.goodSince = none ∨ ∃ k, s.therm.goodSince = some k ∧ u.now < k + 10000000000) →
      exec (.thermalEmergencyExit t) s = .next u)

/-- The forecaster (R395 to R397; log entry 59), in ACTIVE: the plan from the next pound to the horizon of one second, and the request, for both
banks, of a change that is due, unless one is pending or the emergency lasts. -/
def Sys2Proof.Rules.Forecasts : Prop :=
  ∀ (t : Nat) (s : State),
    let u := s.at_ t
    let floor := if s.therm.emerg then 5 else min 5 (max (u.planFloor .west) (u.planFloor .east))
    let plan := u.planFrom (s.therm.tIn s.therm.inlet.toNat) floor s.pcfg.len.toNat u.horizonPounds 0 (s.power.pin.toNat * 1000)
    let v := u.modTherm fun k => { k with plan := plan, horizon := BitVec.ofNat 16 (min plan.length 65535) }
    let held : Prop := s.therm.emerg = true ∨ s.clocks.step.pendW = true ∨ s.clocks.step.pendE = true
    ((s.lkh.pstate ≠ .active ∨ s.poundNs = 0) → exec (.forecastUpdate t) s = .next u) ∧
    (s.lkh.pstate = .active → s.poundNs ≠ 0 →
      plan.length = u.horizonPounds ∧
      ((v.dueChange plan = none ∨ held) → exec (.forecastUpdate t) s = .next v) ∧
      (∀ c, v.dueChange plan = some c → ¬held → exec (.forecastUpdate t) s = .next (v.askSteps c c)))

/-- The thermal cap, the thermal emergency and the forecaster. -/
def Obligations.CapAndForecast : Prop :=
  Sys2Proof.Rules.ThermalCap ∧ Sys2Proof.Rules.Forecasts

/-! ### Start-up, repair, resets (chapters 15, 16) -/

/-- Stages (R398 to R401): the next stage does its work, reports its result (1 with failing units, or at its bound) and the next one follows; one
that Table 15.1 lets fail the start reports 2 with its cause and the panel goes no further; out of its turn a stage does nothing, and stage 0x04
waits for the coolant up to 30 s. -/
def Sys2Proof.Rules.Stages : Prop :=
  ∀ (r : StageIn) (s : State),
    let u := s.at_ r.t
    let pre (k : Fin 11) : State := { u with lkh := { u.lkh with
      coldStarts := if k = 0 then u.lkh.coldStarts + 1 else u.lkh.coldStarts
      testBad := if k = 0 then [] else u.lkh.testBad ++ r.failing } }
    let did (k : Fin 11) (res : Nat) : State := ((pre k).stageAct k.val r).stageReport k res r.durMs.toNat r.t 0 r.failing
    let turn (k : Fin 11) : Prop := u.atStage k.val = true ∧ (k = 4 → u.coolantGood = true ∨ 30000 ≤ r.durMs.toNat)
    let run (k : Fin 11) (res : Nat) (c : Instr) : Prop :=
      (turn k → (pre k).stageFails k.val r = none →
        exec c s = .next { did k res with lkh := { (did k res).lkh with stageNext := u.lkh.stageAfter k.val } }) ∧
      (∀ x, turn k → (pre k).stageFails k.val r = some x →
        exec c s = .next (((pre k).stageReport k 2 r.durMs.toNat r.t x r.failing).haltStart)) ∧
      (¬turn k → exec c s = .next u)
    let n := if r.failing = [] then 0 else 1
    run 0 n (.stage00 r) ∧ run 1 n (.stage01 r) ∧ run 2 n (.stage02 r) ∧ run 3 n (.stage03 r) ∧ run 4 n (.stage04 r) ∧ run 5 n (.stage05 r) ∧
    run 6 n (.stage06 r) ∧ run 7 n (.stage07 r) ∧ run 8 n (.stage08 r) ∧ run 9 n (.stage09 r) ∧ run 10 n (.stage0A r) ∧ run r.stage 1 (.stageTimeout r)

/-- What the stages leave (Table 15.1): the part of the majority word (1, 2 or 3; log entry 6), of part 3 one absent LT in each bank-row and of part 2
six disabled stacks, three in each bank and no two in one row; reaches on, and VNET on every under-tile that is not lost; contents of the stacks cleared
but after a warm reset; cores IDLE with a cleared scratchpad, a die with more than two bad column groups disabled whole; sealed fields with their
stored values, but not after a warm reset. -/
def Sys2Proof.Rules.StageResults : Prop :=
  ∀ (r : StageIn) (w : Word) (s : State) (p : Pos) (k : ReachN) (m : StackN),
    ((s.act03 r w).lkh.part = partOf w ∧ 1 ≤ (partOf w).toNat ∧ (partOf w).toNat ≤ 3 ∧ (s.act03 r w).lkh.mapUnverified = !r.mapOk ∧
      (partOf w = 3 → ∀ l ∈ absentLts w, l ∈ (s.act03 r w).lkh.absent) ∧
      (partOf w = 2 → ∀ n : Fin 24, n.val ∈ disabledStacks w → ((s.act03 r w).hbm[n]).present = false) ∧
      (absentLts w).length = 24 ∧ (∀ b, b < 24 → ∃ l ∈ absentLts w, rowOf (homeOf l) = b / 2 ∧ (ltBank l = .east ↔ b % 2 = 1)) ∧
      (disabledStacks w).length = 6 ∧ (∀ n ∈ (disabledStacks w).take 3, n < 12) ∧ (∀ n ∈ (disabledStacks w).drop 3, 12 ≤ n ∧ n < 24) ∧
      (disabledStacks w).Pairwise fun a b => a % 12 ≠ b % 12) ∧
    (s.reaches[k].lost = false → unitId 0x0C k.val ∉ r.failing → (s.act04 r).reaches[k].on = true ∧ (s.act04 r).reaches[k].pg = true) ∧
    (((s.act04 r).ut p).flags.lost = false → ((s.act04 r).ut p).pwr.vnet = true) ∧
    ((s.hbm[m]).present = true → (s.hbm[m]).lost = false →
      (s.act06.hbm[m]).selfRefresh = false ∧ (s.act06.hbm[m]).mem = (if s.lkh.warmRun then (s.hbm[m]).mem else [])) ∧
    (s.dieUsable p = true → dieUnit p ∉ r.failing → s.lkh.mapTrusted = false →
      ((s.badGroups r p).length ≤ 2 → ((s.act07 r).ut p).pwr.state = 1 ∧ ((s.act07 r).ut p).pwr.vcore = true ∧ ((s.act07 r).core p).spd.mem = [] ∧
        ((s.act07 r).core p).img = {}) ∧
      (2 < (s.badGroups r p).length → ((s.act07 r).core p).desc.disabled = true ∧ ((s.act07 r).ut p).flags.fencedDie = true)) ∧
    (s.sealAll.lkh.sealed = true ∧ (s.sealAll.core p).mat.margin = (s.core p).mat.marginStored ∧ s.sealAll.intake.hwinBase = s.intake.hwinStored.1 ∧
      s.sealAll.intake.hwinLen = s.intake.hwinStored.2 ∧ s.sealAll.sec.jtagLock = s.sec.locksStored.getLsbD 2) ∧
    (s.lkh.warmRun = true → (s.act0A r).intake.hwinBase = s.intake.hwinBase ∧ (s.act0A r).sec.jtagLock = s.sec.jtagLock)

/-- Placement (R410): an LT is at home while its home die serves at full width, else on the spare of its bank-row while that is free, else at
home with narrow arrays where they are kept; the placement of one LT moves no other, and its die names it. -/
def Sys2Proof.Rules.Placement : Prop :=
  ∀ (l : Lt) (s : State),
    let h := homeOf l
    let sp := spareOf (rowOf h) (bankOf h)
    let whole : Prop := s.dieServes h = true ∧ (s.core h).desc.narrow = false
    let spare : Prop := s.dieServes sp = true ∧ (s.core sp).desc.narrow = false ∧ s.spareFree sp = true
    (s.ltAbsent l = true → s.placeOne l = s) ∧
    (s.ltAbsent l = false →
      (whole → (s.placeOne l).posOf l = some h) ∧
      (¬whole → spare → (s.placeOne l).posOf l = some sp ∧
        (s.utWorks h = true → (s.placeOne l).ltpos[l].spareLink = true ∧ (s.placeOne l).ltpos[l].added = addedAt (colOf h)) ∧
        (s.utWorks h = false → (s.placeOne l).ltpos[l].detoured = true)) ∧
      (¬whole → ¬spare → s.dieServes h = true → s.lkh.narrow.contains h = true → (s.placeOne l).posOf l = some h ∧ (s.placeOne l).ltpos[l].narrow = true)) ∧
    (s.posOf l = none → ∀ p, (s.placeOne l).posOf l = some p → ((s.placeOne l).core p).desc.lt.toNat = l.val) ∧
    (∀ m, m ≠ l → (s.placeOne l).posOf m = s.posOf m)

/-- The panel's placement gives each die at most one LT. -/
def Sys2Proof.Rules.PlacementApart : Prop :=
  ∀ (l m : Lt) (p : Pos) (s : State), s.place.posOf l = some p → s.place.posOf m = some p → l = m

/-- Placement of logical tiles: home, spare or narrow home, and no die twice. -/
def Obligations.Placement : Prop :=
  Sys2Proof.Rules.Placement ∧ Sys2Proof.Rules.PlacementApart

/-- The acknowledgement of an unverified map (R404) and narrow retention (R411), over a path that is not locked, and the oscillator's bound (R355). -/
def Sys2Proof.Rules.StartRequests : Prop :=
  ∀ (o : Origin) (path : Path) (p : Pos) (en : Bool) (t : Nat) (s : State),
    (s.pathLocked path = false → s.lkh.mapUnverified = true → exec (.lkhMapAck o path) s = .next
      (({ s with lkh := { s.lkh with mapUnverified := false } } : State).logReg o path (regCanal 0x18) 0 1)) ∧
    (s.lkh.mapUnverified = false → exec (.lkhMapAck o path) s = .next s) ∧
    (s.pathLocked path = true → exec (.lkhMapAck o path) s = .next s ∧ exec (.narrowRetentionRequest p en path) s = .next s) ∧
    (s.pathLocked path = false → exec (.narrowRetentionRequest p en path) s = .next (s.narrowSet p en (originOf path) path) ∧
      ((s.narrowSet p en (originOf path) path).lkh.narrowNext.contains p = en) ∧ (s.narrowSet p en (originOf path) path).lkh.narrow = s.lkh.narrow) ∧
    ((s.at_ t).atStage 1 = true → s.clocks.oscReady = false → s.clocks.powerGood + 2 * oscDelay s.clocks.dly ≤ t →
      exec (.oscTimeout t) s = .next (((s.at_ t).stageReport 1 2 ((t - s.clocks.powerGood) / 1000000) 0 0x0C []).haltStart)) ∧
    (((s.at_ t).atStage 1 = false ∨ s.clocks.oscReady = true ∨ t < s.clocks.powerGood + 2 * oscDelay s.clocks.dly) →
      exec (.oscTimeout t) s = .next (s.at_ t))

/-- Start-up stages and their results. -/
def Obligations.StartUp : Prop :=
  Sys2Proof.Rules.Stages ∧ Sys2Proof.Rules.StageResults ∧ Sys2Proof.Rules.StartRequests

/-- Detection and soundings (R413 to R416): an event that a unit has reported is taken up while a lock-house serves; a first suspicion sounds the LT
next, a second within 65,536 pounds is a failure; the rotation names the next present LT every 4,096 pounds; a due sounding starts at a gate tick, and
its signature and its reads decide. -/
def Sys2Proof.Rules.Soundings : Prop :=
  ∀ (l : Lt) (p : Pos) (t : Nat) (same : Bool) (s : State),
    let u := s.at_ t
    (∀ ev, ev ∈ s.repair.reports → s.serves ≠ 0 → exec (.repairEventReport ev t) s = .next
      ((u.modRepair fun r => { r with reports := r.reports.filter fun x => x != ev }).repairEvent ev)) ∧
    (∀ ev, (ev ∉ s.repair.reports ∨ s.serves = 0) → exec (.repairEventReport ev t) s = .next u) ∧
    (s.posOf l = some p → (∀ x ∈ s.repair.suspicions, x.1 ≠ l) →
      (s.repairEvent (.checkMismatch l)).repair.due.head? = some l ∧ (l, s.repair.pounds) ∈ (s.repairEvent (.checkMismatch l)).repair.suspicions ∧
      (s.repairEvent (.checkMismatch l)).tiles = s.tiles) ∧
    (∀ a, s.posOf l = some p → (s.repair.suspicions.find? fun x => x.1 == l) = some a → s.repair.pounds ≤ a.2 + 65536 → unitOut s (dieUnit p) = false →
      (dieUnit p, (3 : BitVec 8)) ∈ (s.repairEvent (.checkMismatch l)).repair.failures ∧ (∀ x ∈ (s.repairEvent (.checkMismatch l)).repair.suspicions, x.1 ≠ l)) ∧
    (s.lkh.pstate = .active → s.repair.rotated + 4096 ≤ s.repair.pounds → s.nextPresent s.repair.nextLt.toNat = some l →
      exec .soundingRotation s = .next (s.modRepair fun r => { r with
        nextLt := BitVec.ofNat 7 l.val, rotated := r.pounds, due := if r.due.contains l then r.due else r.due ++ [l] })) ∧
    ((s.lkh.pstate ≠ .active ∨ s.repair.pounds < s.repair.rotated + 4096) → exec .soundingRotation s = .next s) ∧
    (t = s.lastTick → s.lkh.pstate = .active → s.repair.due = [l] → s.posOf l = some p → u.canSound l = true →
      exec (.soundingStart t) s = .next ((u.modCtl p fun k => { k with sounding := true }).modRepair fun r => { r with
        due := [], sounding := r.sounding ++ [(l, u.soundPounds p, false)] })) ∧
    ((t ≠ s.lastTick ∨ s.lkh.pstate ≠ .active) → exec (.soundingStart t) s = .next u) ∧
    (∀ n b, (s.repair.sounding.find? fun x => !x.2.2) = some (l, n, b) → s.posOf l = some p →
      (1 < n → exec (.soundingResult same t) s = .next u) ∧
      (n ≤ 1 →
        ∃ v, exec (.soundingResult same t) s = .next v ∧ (v.core p).ctl.sounding = false ∧ (v.core p).vMain = Vector.replicate 64 0 ∧
          (v.core p).spd = (s.core p).spd ∧ (v.core p).img = (s.core p).img ∧
          (same = true → (s.core p).readsClean = true → v.repair.soundDone = s.repair.soundDone + 1 ∧ v.repair.failures = s.repair.failures) ∧
          ((same = false ∨ (s.core p).readsClean = false) → v.repair.soundFailed = s.repair.soundFailed + 1 ∧
            (s.substRuns l = false → RepairEvent.soundingMismatch l ∈ v.repair.reports) ∧
            (s.substRuns l = true → (dieUnit p, (2 : BitVec 8)) ∈ v.repair.failures))))

/-- Votes (R417 to R420): the first command of a serving lock-house waits, the second of another within 1 ms fences the unit by a vote; one that
stays alone is dropped and recorded. Without two serving lock-houses none is taken. -/
def Sys2Proof.Rules.FenceVotes : Prop :=
  ∀ (h : House) (unit : BitVec 40) (cause : BitVec 8) (t : Nat) (s : State),
    let u := s.at_ t
    ((s.lkh.serving.getLsbD h.val = false ∨ s.serves < 2) → exec (.fenceCommand h unit cause t) s = .next u) ∧
    (s.lkh.serving.getLsbD h.val = true → 2 ≤ s.serves →
      (s.repair.cmds = [] → exec (.fenceCommand h unit cause t) s = .next (u.modRepair fun r => { r with
        cmds := [{ house := h, unit := unit, cause := cause, at_ := t }] })) ∧
      (∀ c, s.repair.cmds = [c] → c.house ≠ h → c.unit = unit → c.cause = cause → t ≤ c.at_ + 1000000 →
        exec (.fenceCommand h unit cause t) s = .next ((u.modRepair fun r => { r with cmds := [] }).fenceVoted unit cause (houseBit h ||| houseBit c.house)))) ∧
    (∀ c, s.repair.cmds = [c] → c.house = h → c.unit = unit → c.cause = cause →
      (c.at_ + 1000000 < t →
        exec (.fenceCommandExpiry h unit cause t) s = .next ((u.modRepair fun r => { r with cmds := [], singles := r.singles + 1 }).logErr unit cause.toNat 1)) ∧
      (t ≤ c.at_ + 1000000 → exec (.fenceCommandExpiry h unit cause t) s = .next u)) ∧
    (∀ p : Pos, (s.ut p).flags.fencedDie = false → ∃ v, s.fenceVoted (dieUnit p) cause 3 = v ∧ (v.ut p).flags.fencedDie = true ∧
      (v.ut p).flags.voted = true ∧ v.repair.fences = s.repair.fences + 1 ∧ (∀ e ∈ v.repair.failures, e.1 ≠ dieUnit p) ∧
      (∀ q, q ≠ p → (v.ut q).flags = (s.ut q).flags ∧ (v.core q).ctl = (s.core q).ctl))

/-- Substitution (R421 to R425; log entry 66): a free spare is powered for an LT whose die two lock-houses have voted out; without one the LT has no
tile; the IDLE spare takes the LT with new tables for the next flip; image and RESTORE entries are loaded after it; a good sounding ends it. A spare that
is late counts as failed. -/
def Sys2Proof.Rules.Substitutions : Prop :=
  ∀ (l : Lt) (t : Nat) (x : Subst) (s : State),
    let u := s.at_ t
    let here : Option Subst := s.repair.subst.find? fun x => x.lt == l
    (s.lkh.pstate ≠ .active → exec (.substitution l t) s = .next u) ∧
    (s.lkh.pstate = .active → here = none →
      ((s.mustReplace l = false ∨ s.rowBusy l = true) → exec (.substitution l t) s = .next u) ∧
      (s.mustReplace l = true → s.rowBusy l = false →
        (∀ sp, s.spareFor l = some sp → exec (.substitution l t) s = .next (u.substBegin l sp)) ∧
        (s.spareFor l = none → exec (.substitution l t) s = .next (u.noTile l) ∧ (u.noTile l).posOf l = none))) ∧
    (here = none → exec (.substitutionLoad l t) s = .next u ∧ exec (.substitutionReady l t) s = .next u) ∧
    (here = some x →
      (s.lkh.pstate = .active → x.phase = 3 →
        (s.spareIdle x.spare = true → t ≤ x.start + 13000000 → s.epoch.free = true → exec (.substitution l t) s = .next (u.substPlace l x.spare)) ∧
        (s.spareIdle x.spare = true → t ≤ x.start + 13000000 → s.epoch.free = false → exec (.substitution l t) s = .next u) ∧
        (s.spareIdle x.spare = false → t ≤ x.start + 12000000 → exec (.substitution l t) s = .next u) ∧
        ((x.start + 13000000 < t ∨ s.spareIdle x.spare = false ∧ x.start + 12000000 < t) →
          exec (.substitution l t) s = .next (u.spareFailedFree x.spare))) ∧
      (x.phase = 4 → x.flips ≠ s.epoch.flips → s.epoch.free = true →
        (t ≤ x.start + 1400000000 → s.ltpos[l].restore = [] → s.ltpos[l].lastLoad = none → (s.core x.spare).spd.res = Vector.replicate 8 {} →
          exec (.substitutionLoad l t) s = .next ((u.modRepair fun r => { r with subst := r.subst.map fun y =>
            if y.lt = l then { y with phase := 7, loaded := u.now } else y }).soundNext l)) ∧
        (x.start + 1400000000 < t → exec (.substitutionLoad l t) s = .next (u.spareFailedFree x.spare))) ∧
      (x.phase = 8 → t ≤ x.start + 1500000000 → exec (.substitutionReady l t) s = .next (u.modRepair fun r => { r with
        subst := r.subst.filter fun y => y.lt != l })) ∧
      (x.phase = 8 → x.start + 1500000000 < t → exec (.substitutionReady l t) s = .next (u.spareFailedFree x.spare)))

/-- Lane groups and pseudo-channels (R429 to R432): a lane group with more than 8 replays in a second goes to a free repair group, else its seam goes
out of service and its bank is TIMING_UNSAFE; a pseudo-channel retrains at a gate tick, and the third failure in a row loses its stack. The entry into
Moored (R433, Table 15.11), and what the headway save keeps and publishes (R437). -/
def Sys2Proof.Rules.LanesAndStacks : Prop :=
  ∀ (p : Pos) (d : Dir) (lane : Fin 48) (second : Bool) (n t : Nat) (m : StackN) (pc : Fin 64) (s : State),
    let u := s.at_ t
    let g := (s.ut p).mesh.seam[dirNum d]
    let mend (a b : Nat) : State := ((u.modMesh p fun k => { k with seam := vmod k.seam (dirNum d) fun x => { x with
      pend := some (BitVec.ofNat 13 (a + 64 * b)) } }).fdrAdd (laneUnit p d lane.val) 9 3 0).logRec 0x31 .firmware [(laneUnit p d lane.val).toNat, 1]
    ((s.ut p).mesh.replaysOf d lane t ≤ 8 → exec (.laneRepair p d lane second t) s = .next u) ∧
    (8 < (s.ut p).mesh.replaysOf d lane t → g.pend = none → g.out = false → g.repair0.toNat ≠ lane.val → g.repair1.toNat ≠ lane.val →
      (g.repair0 = 0x3F → (second = false ∨ g.repair1 ≠ 0x3F) → exec (.laneRepair p d lane second t) s = .next (mend lane.val g.repair1.toNat)) ∧
      (g.repair1 = 0x3F → (second = true ∨ g.repair0 ≠ 0x3F) → exec (.laneRepair p d lane second t) s = .next (mend g.repair0.toNat lane.val)) ∧
      (g.repair0 ≠ 0x3F → g.repair1 ≠ 0x3F → s.epoch.free = false → exec (.laneRepair p d lane second t) s = .next u) ∧
      (g.repair0 ≠ 0x3F → g.repair1 ≠ 0x3F → s.epoch.free = true → ∃ v, exec (.laneRepair p d lane second t) s = .next v ∧
        (∃ w : BitVec 13, (v.ut p).mesh.seam[dirNum d].pend = some w ∧ w.getLsbD 12 = true) ∧ v.bankUns (bankOf p) = true)) ∧
    (t = s.lastTick → (s.hbm[m]).lost = false → (s.hbm[m]).present = true → pc ∉ (s.hbm[m]).retraining → (s.stackReserved m = false ∨ 4096 < n) →
      exec (.hbmRetrain m pc n t) s = .next (u.modStack m fun k => { k with retraining := k.retraining ++ [pc], retrains := k.retrains + 1 })) ∧
    ((t ≠ s.lastTick ∨ (s.hbm[m]).lost = true ∨ (s.hbm[m]).present = false ∨ pc ∈ (s.hbm[m]).retraining ∨ (s.stackReserved m = true ∧ n ≤ 4096)) →
      exec (.hbmRetrain m pc n t) s = .next u) ∧
    (∀ ok, pc ∉ (s.hbm[m]).retraining → exec (.hbmRetrainDone m pc ok t) s = .next u) ∧
    (pc ∈ (s.hbm[m]).retraining →
      exec (.hbmRetrainDone m pc true t) s = .next (u.modStack m fun k => { k with
        retraining := k.retraining.filter fun x => x != pc, failedRetrains := tblPut 0 k.failedRetrains pc.val 0 }) ∧
      (tblGet 0 (s.hbm[m]).failedRetrains pc.val < 2 → exec (.hbmRetrainDone m pc false t) s = .next (u.modStack m fun k => { k with
        retraining := k.retraining.filter fun x => x != pc
        failedRetrains := tblPut 0 k.failedRetrains pc.val (tblGet 0 (s.hbm[m]).failedRetrains pc.val + 1) })) ∧
      (2 ≤ tblGet 0 (s.hbm[m]).failedRetrains pc.val → ∃ v, exec (.hbmRetrainDone m pc false t) s = .next v ∧ (v.hbm[m]).lost = true ∧ (v.hbm[m]).mem = [] ∧
        unitOut v (unitId 6 m.val) = true)) ∧
    (∀ why, u.mustMoor why = true → exec (.moor why t) s = .next
      (u.moor (if why = .temperature then .status .stepAborted else .status .tileFenced) (match why with | .ltLost l => BitVec.ofNat 7 l.val | _ => 0x7F))) ∧
    (∀ why, u.mustMoor why = false → exec (.moor why t) s = .next u) ∧
    (∀ c lt, s.lkh.pstate ≠ .moored → s.lkh.pstate ≠ .off → (s.moor c lt).lkh.pstate = .moored ∧ (∀ q, ((s.moor c lt).ut q).flags.fencedDie = true ∧
      ((s.moor c lt).ut q).pwr.state = 3) ∧ (s.moor c lt).pins.alertN = false) ∧
    (∃ v, exec (.headwaySave t) s = .next v ∧ v.lkh.hwSaved = #v[s.lkh.hwDone, s.lkh.hwLost, s.lkh.hwLostProg, s.lkh.hwSound, s.lkh.hwMoored, s.lkh.hwIdle] ∧
      v.lkh.refBroken = false ∧ (∀ x ∈ v.lkh.buckets, u.now / dayNs < x.1 + 30) ∧ v.lkh.hwDays = BitVec.ofNat 5 v.lkh.buckets.length ∧
      v.lkh.hwDone = s.lkh.hwDone ∧ v.tiles = s.tiles)

/-- Soundings, fence votes, substitution, lane groups, stacks, moor and headway. -/
def Obligations.Repairs : Prop :=
  Sys2Proof.Rules.Soundings ∧ Sys2Proof.Rules.FenceVotes ∧ Sys2Proof.Rules.Substitutions ∧ Sys2Proof.Rules.LanesAndStacks

/-- Resets (16.1, R439, R440): GO begins the reset when its precondition holds, waits else, and answers ILLEGAL_DESCRIPTOR outside Table 16.6; while a
reset is under way, or the panel is OFF, it is ignored. The wait ends with the precondition or after 100 ms with ADMISSION_TIMEOUT; a begun reset other
than a warm one ends when its units return to service. A cold reset starts the panel anew. -/
def Sys2Proof.Rules.Resets : Prop :=
  ∀ (t : Nat) (r : ReachN) (p : Pos) (c : Ctx) (h : House) (clear upd : Bool) (port : BitVec 8) (s : State),
    let u := s.at_ t
    let x := s.lkh.reset
    let asked (kind : BitVec 4) (clear upd : Bool) (ctx : BitVec 2) (target : BitVec 8) : State := { u with lkh := { u.lkh with reset :=
      { kind := kind, clear := clear, update := upd, ctx := ctx, target := target, busy := true, status := .done, waiting := true
        since := u.now, origin := .firmware, path := .internal } } }
    let go (c : Instr) (v : State) : Prop :=
      (v.resetIllegal v.lkh.reset = true → exec c s = .next (v.resetDone .illegalDescriptor)) ∧
      (v.resetIllegal v.lkh.reset = false → v.resetMay v.lkh.reset = true → exec c s = .next v.resetBegin) ∧
      (v.resetIllegal v.lkh.reset = false → v.resetMay v.lkh.reset = false → exec c s = .next v)
    let stays (c : Instr) : Prop := exec c s = .next u
    (x.busy = false → s.lkh.pstate ≠ .off →
      (s.lkh.pstate ≠ .starting → go (.warmReset t) (asked 1 false false 0 0)) ∧ (s.lkh.pstate = .starting → stays (.warmReset t)) ∧
      go (.reachReset r clear t) (asked 2 clear false 0 (BitVec.ofNat 8 r.val)) ∧ go (.tileReset p clear upd t) (asked 3 clear upd 0 (BitVec.ofNat 8 p.val)) ∧
      go (.coreReset p upd t) (asked 4 false upd 0 (BitVec.ofNat 8 p.val)) ∧
      go (.contextReset p c t) (asked 5 false false (BitVec.ofNat 2 (ctxNum c).val) (BitVec.ofNat 8 p.val)) ∧
      go (.linkReset port t) (asked 6 false false 0 port) ∧ go (.lockHouseReset h upd t) (asked 7 false upd 0 (BitVec.ofNat 8 h.val))) ∧
    ((x.busy = true ∨ s.lkh.pstate = .off) → stays (.warmReset t) ∧ stays (.reachReset r clear t) ∧ stays (.tileReset p clear upd t) ∧
      stays (.coreReset p upd t) ∧ stays (.contextReset p c t) ∧ stays (.linkReset port t) ∧ stays (.lockHouseReset h upd t)) ∧
    (s.lkh.pstate ≠ .off → exec (.coldReset t) s = .next ((u.logState false s.lkh.pstate .off).coldStart)) ∧
    (s.lkh.pstate = .off → exec (.coldReset t) s = .next u.coldStart) ∧
    (x.busy = true → x.waiting = true → u.resetMay x = true → exec (.resetPreconditionMet t) s = .next u.resetBegin) ∧
    ((x.busy = false ∨ x.waiting = false ∨ u.resetMay x = false) → stays (.resetPreconditionMet t)) ∧
    (x.busy = true → x.waiting = true → x.since + 100000000 ≤ t → exec (.resetWaitTimeout t) s = .next ((u.resetDone .admissionTimeout).updateNext)) ∧
    ((x.busy = false ∨ x.waiting = false ∨ t < x.since + 100000000) → stays (.resetWaitTimeout t)) ∧
    (x.busy = true → x.waiting = false → x.kind ≠ 1 → exec (.resetReturnToService t) s = .next u.resetReturn) ∧
    ((x.busy = false ∨ x.waiting = true ∨ x.kind = 1) → stays (.resetReturnToService t)) ∧
    (∀ st, (s.resetDone st).lkh.reset.busy = false ∧ (s.resetDone st).lkh.reset.status = st ∧ (s.resetDone st).tiles = s.tiles)

/-- What a reset keeps (Table 16.3): a core reset keeps the scratchpad, the image and COR_DESC and puts contexts, status slots and staging at
their reset values; a tile reset clears chambers and the step tag, and CLEAR the contents; a context reset touches that context's registers only; a
lost position is left. -/
def Sys2Proof.Rules.WhatResetsKeep : Prop :=
  ∀ (p : Pos) (x y : Ctx) (clear : Bool) (k : Core) (s : State),
    (k.resetRegs.spd.mem = k.spd.mem ∧ k.resetRegs.img = k.img ∧ k.resetRegs.desc = k.desc ∧ k.resetRegs.main = {} ∧ k.resetRegs.hand = {} ∧
      k.resetRegs.vMain = Vector.replicate 64 0 ∧ k.resetRegs.mov.slots = Vector.replicate 64 {} ∧ k.resetRegs.mov.staging = Vector.replicate 8 none ∧
      k.resetRegs.pend = [] ∧ k.resetRegs.mov.refused = k.mov.refused) ∧
    ((k.contextReset x).ctx x = { k.ctx x with s := Vector.replicate 32 0, a := Vector.replicate 16 0, p := Vector.replicate 8 false, loops := Vector.replicate 4 {} }) ∧
    (y ≠ x → (k.contextReset x).ctx y = k.ctx y) ∧ (k.contextReset x).spd = k.spd ∧ (k.contextReset x).vMain = k.vMain ∧
    ((s.ut p).flags.lost = true → s.tileResetAt p clear = s) ∧
    ((s.ut p).flags.lost = false → ((s.tileResetAt p clear).ut p).chambers = [] ∧ ((s.tileResetAt p clear).ut p).stepNo = 0 ∧
      ((s.tileResetAt p clear).ut p).flags.inTileReset = true ∧ (clear = true → ((s.tileResetAt p clear).core p).spd.mem = [])) ∧
    (((s.coreResetAt p).core p).spd.mem = (s.core p).spd.mem ∧ ((s.coreResetAt p).ut p).flags.inCoreReset = true ∧ (s.coreResetAt p).hbm = s.hbm)

/-- STANDBY (R443): asked for in ACTIVE, entered once no step, sounding or substitution is under way, and left for ACTIVE with the stacks out of
self-refresh. A firmware update (R459): stored in the slot that no lock-house runs, refused where the package does not pass R455 or a unit in service is
too old for it, else under way with the first lock-house's reset. -/
def Sys2Proof.Rules.PanelStates : Prop :=
  ∀ (t : Nat) (g : PackageIn) (b : Fin 2) (s : State),
    let u := s.at_ t
    let v : State := { u with lkh := { u.lkh with req := true, pending := true } }
    (s.lkh.pstate = .active → s.canStandby = true → exec (.standbyRequest t) s = .next v.enterStandby) ∧
    (s.lkh.pstate = .active → s.canStandby = false → exec (.standbyRequest t) s = .next v) ∧
    (s.lkh.pstate ≠ .active → exec (.standbyRequest t) s = .next u) ∧
    (s.lkh.pstate = .active → s.lkh.req = true → s.canStandby = true → exec (.standbyEntry t) s = .next u.enterStandby) ∧
    ((s.lkh.pstate ≠ .active ∨ s.lkh.req = false ∨ s.canStandby = false) → exec (.standbyEntry t) s = .next u) ∧
    (s.lkh.pstate = .standby → ∃ w, exec (.activeRequest t) s = .next w ∧ w.lkh.pstate = .active ∧ w.lkh.req = false ∧
      (∀ m : StackN, (s.hbm[m]).initing = false → (w.hbm[m]).selfRefresh = false)) ∧
    (s.lkh.pstate = .active → exec (.activeRequest t) s = .next { u with lkh := { u.lkh with req := false, pending := false } }) ∧
    (s.lkh.pstate ≠ .active → s.lkh.pstate ≠ .standby → exec (.activeRequest t) s = .next u) ∧
    (s.enterStandby.lkh.pstate = .standby ∧ s.enterStandby.lkh.pending = false) ∧
    ((s.sec.updating = true ∨ s.idleSlot = none) → exec (.firmwareUpdate g t) s = .next (u.logUpdate g .illegalDescriptor)) ∧
    (s.sec.updating = false → s.idleSlot = some b →
      let w := ({ u with sec := { u.sec with pkgs := u.sec.pkgs.set b (some g) } } : State).logRec 0x61 .firmware [0, g.pkgVersion.toNat, b.val]
      ((w.pkgOk g = false ∨ w.unitTooOld g = true) → exec (.firmwareUpdate g t) s = .next (w.logUpdate g .illegalDescriptor)) ∧
      (w.pkgOk g = true → w.unitTooOld g = false → exec (.firmwareUpdate g t) s = .next
        (({ w with sec := { w.sec with updating := true, updateStep := 1 }, lkh := { w.lkh with refBroken := true } } : State).updateNext)))

/-- Resets, what each keeps, standby and the firmware update. -/
def Obligations.ResetsAndStates : Prop :=
  Sys2Proof.Rules.Resets ∧ Sys2Proof.Rules.WhatResetsKeep ∧ Sys2Proof.Rules.PanelStates

/-! ### Security and the Logbook (chapter 17) -/

/-- Quotes (R461) of a serving lock-house, and signed management requests (R462): one that names no key of the set, repeats a counter, is more than 5 s
off or does not verify changes nothing; an accepted one stores its counter and writes the register, where it answers, on the Ethernet path. -/
def Sys2Proof.Rules.SignedRequests : Prop :=
  ∀ (h : House) (q : MgmtReq) (t : Nat) (s : State),
    let u := s.at_ t
    let c : State := { s with sec := { s.sec with lastCtr := tblPut 0 s.sec.lastCtr q.key.toNat (q.counter.toNat + 1) } }
    let w : State := ({ c with log := { c.log with reqKey := q.key } } : State).writeReg (c.regAt q.addr) q.value .ethPeer .ethernet
    (s.lkh.serving.getLsbD h.val = true → exec (.secQuoteRequest h t) s = .next
      { u with sec := { u.sec with quote := u.quoteBytes h ++ Config.sign "OVP-QUOTE" (u.quoteBytes h), quoteBusy := false } }) ∧
    (s.lkh.serving.getLsbD h.val = false → exec (.secQuoteRequest h t) s = .next u) ∧
    (u.mgmtOk q = true → exec (.managementRequest q t) s = .next (u.mgmtWrite q)) ∧
    (u.mgmtOk q = false → exec (.managementRequest q t) s = .next u) ∧
    ((s.sec.mgrN ≤ q.key.toNat ∨ q.counter.toNat < tblGet 0 s.sec.lastCtr q.key.toNat ∨ s.now + 5000000000 < q.signedAt ∨ q.signedAt + 5000000000 < s.now) →
      s.mgmtOk q = false) ∧
    (∀ pk, s.sec.mgrKeys[q.key.toNat]? = some pk → Config.verify pk "OVP-MGMT" q.bytes q.signature = false → s.mgmtOk q = false) ∧
    (((∃ st, c.regRefused q.addr = some st) ∨ c.regSilent (c.regAt q.addr) = true) → s.mgmtWrite q = c) ∧
    (c.regRefused q.addr = none → c.regSilent (c.regAt q.addr) = false → s.mgmtWrite q = { w with log := { w.log with reqKey := 0xFF } })

/-- Certificates (R464, R465; log entry 75): read from the host window or from model memory and checked in order; the action of an accepted one waits to
be carried out, its SEQ is stored and it is recorded. One is decided at a time. -/
def Sys2Proof.Rules.Certificates : Prop :=
  ∀ (agree : Bool) (t : Nat) (bs : List Byte) (c : Cert) (s : State),
    let u := s.at_ t
    let a := s.sec.certAddr
    let n := s.sec.certLen.toNat
    (s.sec.pendingAct.isSome = true → exec (.certificateSubmit agree t) s = .next u) ∧
    (s.sec.pendingAct = none →
      ((u.addrBad a = true ∨ 84488 < n ∨ (addrClass a ≠ 1 ∧ addrClass a ≠ 4)) → exec (.certificateSubmit agree t) s = .next (u.certEnd .illegalDescriptor)) ∧
      (u.addrBad a = false → n ≤ 84488 → addrClass a = 4 →
        (∀ st, u.hostBad (fld a 0 48) n = some st → exec (.certificateSubmit agree t) s = .next (u.certEnd .illegalDescriptor)) ∧
        (u.hostBad (fld a 0 48) n = none → exec (.certificateSubmit agree t) s = .next (u.certDecide agree (u.hostRead (fld a 0 48) n)))) ∧
      (u.addrBad a = false → n ≤ 84488 → addrClass a = 1 →
        (∀ v, u.modelBytes (addrModel a) n = .ended v .done bs → exec (.certificateSubmit agree t) s = .next (v.certDecide agree bs)) ∧
        (∀ v st, u.modelBytes (addrModel a) n = .ended v st bs → st ≠ .done → exec (.certificateSubmit agree t) s = .next (v.certEnd .illegalDescriptor)))) ∧
    (certParse bs = none → s.certDecide agree bs = s.certEnd .illegalDescriptor) ∧
    (certParse bs = some c →
      (agree = false → s.certDecide agree bs = (s.logCert c .noRights).certEnd .noRights) ∧
      (agree = true → (s.serves < 2 ∨ s.certOk c = false) → s.certDecide agree bs = s.certEnd .noRights) ∧
      (agree = true → 2 ≤ s.serves → s.certOk c = true → s.certDecide agree bs = s.certAccept c)) ∧
    ((s.certAccept c).sec.lastSeq = BitVec.ofNat 64 c.seq ∧ (s.certAccept c).sec.pendingAct = some c.act ∧ (s.certAccept c).sec.certBusy = false ∧
      (s.certAccept c).sec.certStatus = .done ∧ (s.certAccept c).log.nextIdx > s.log.nextIdx) ∧
    (c.setGen ≠ s.sec.setGen → s.certOk c = false) ∧ (c.seq ≤ s.sec.lastSeq.toNat → s.certOk c = false) ∧
    (c.notAfter ≠ 0 → c.notAfter < s.now → s.certOk c = false)

/-- Actions of certificates (Table 17.10), each carried out where an accepted certificate waits for it and not else: quarantine stops a peer's
consignments with NO_RIGHTS, release ends it, requalification is stored, a new set starts with no counter, the fuses of a class are blown in each
serving lock-house, and so is a revoke fuse. -/
def Sys2Proof.Rules.CertificateActions : Prop :=
  ∀ (d : BitVec 256) (g : BitVec 32) (k : Nat) (keys : List (List Byte)) (cls : Fin 6) (v : BitVec 8) (slot : Fin 4) (t : Nat) (s : State),
    let waits (a : CertAct) : Prop := s.sec.pendingAct = some a
    (waits (.quarantine d) → ∃ w, exec (.quarantine d t) s = .next w ∧ d ∈ w.sec.quarantine ∧ w.sec.pendingAct = none ∧
      (∀ x : PortN, (s.port x).peerId = d → (w.port x).quar = true ∧ ∀ e : Fin 256, (s.port x).cons[e].busy = true → (s.port x).cons[e].ended = none →
        (w.port x).cons[e].ended = some (2, .noRights)) ∧ (∀ x : PortN, (s.port x).peerId ≠ d → w.port x = s.port x)) ∧
    (¬waits (.quarantine d) → exec (.quarantine d t) s = .next (s.at_ t)) ∧
    (waits (.release d) → ∃ w, exec (.release d t) s = .next w ∧ d ∉ w.sec.quarantine ∧ w.sec.pendingAct = none ∧
      (∀ x : PortN, (s.port x).peerId = d → (w.port x).quar = false ∧ (w.port x).cons = (s.port x).cons)) ∧
    (¬waits (.release d) → exec (.release d t) s = .next (s.at_ t)) ∧
    (waits .requalify → exec .requalify s = .next
      { s with sec := { s.sec with pendingAct := none }, lkh := { s.lkh with requalify := true } }) ∧
    (¬waits .requalify → exec .requalify s = .next s) ∧
    (waits (.enrol g keys.length k keys) → ∃ w, exec (.enrol g k keys) s = .next w ∧ w.sec.setGen = g ∧ w.sec.mgrN = keys.length ∧
      w.sec.mgrK = k ∧ w.sec.mgrKeys = keys ∧ w.sec.lastCtr = [] ∧ w.sec.groups = s.sec.groups ∧ w.sec.pendingAct = none) ∧
    (¬waits (.enrol g keys.length k keys) → exec (.enrol g k keys) s = .next s) ∧
    (waits (.commit cls v) → ∃ w, exec (.commit cls v) s = .next w ∧ w.sec.pendingAct = none ∧ w.sec.revoked = s.sec.revoked ∧
      (∀ (h : Fin 3) (c : Fin 6), w.sec.groups[h][c] =
        if s.lkh.serving.getLsbD h.val = true ∧ c = cls then max s.sec.groups[h][c] v.toNat else s.sec.groups[h][c])) ∧
    (¬waits (.commit cls v) → exec (.commit cls v) s = .next s) ∧
    (waits (.revoke slot) → ∃ w, exec (.revokeOwner slot) s = .next w ∧ w.sec.revoked = s.sec.revoked ||| BitVec.ofNat 4 (2 ^ slot.val) ∧
      w.sec.pendingAct = none ∧ w.sec.groups = s.sec.groups) ∧
    (¬waits (.revoke slot) → exec (.revokeOwner slot) s = .next s)

/-- R467: an entry is 128 bytes long with the layout of Table 17.11; entry 0 is GENESIS with PREV 0; an appended entry has INDEX one greater than
the newest, PREV the digest of its 128 bytes, and no earlier TIME. -/
def Obligations.LogbookChain : Prop :=
  (genesis.index = 0 ∧ genesis.type = 1 ∧ genesis.prev = 0 ∧ State.reset.log.head = genesis ∧ State.reset.log.nextIdx = 1) ∧
  (∀ (l : Logbook) (now : Nat) (hs : BitVec 3) (ty : BitVec 16) (o : Origin) (p : Path) (key fl : BitVec 8) (data : List Byte),
    let x := l.append now hs ty o p key fl data
    (l.nextIdx = l.head.index + 1 → x.head.index = l.head.index + 1 ∧ x.nextIdx = x.head.index + 1) ∧ x.head.prev = digest l.head.bytes ∧ l.head.time ≤ x.head.time ∧ now ≤ x.head.time ∧
    x.head.data = data ∧ (∀ e ∈ x.entries, e = x.head ∨ e ∈ l.entries)) ∧
  (∀ (l : Logbook) (now : Nat) (hs : BitVec 3) (single holdup : Bool) (ty : BitVec 16) (o : Origin) (p : Path) (key : BitVec 8) (data : List Byte),
    data.length ≤ 72 → ∃ fl, l.record now hs single holdup ty o p key data = l.append now hs ty o p key fl data) ∧
  (∀ e : LogEntry, e.bytes.length = 128 ∧ e.bytes.take 8 = natBytes e.index 8 ∧ (e.bytes.drop 8).take 8 = natBytes e.time 8 ∧
    (e.bytes.drop 16).take 32 = digestBytes e.prev ∧ (e.bytes.drop 48).take 2 = natBytes e.type.toNat 2 ∧
    (e.bytes.drop 50).take 6 = [BitVec.ofNat 8 (originCode e.origin), BitVec.ofNat 8 (pathCode e.path), e.flags, e.key, 0, 0] ∧
    (e.data.length ≤ 72 → e.bytes.drop 56 = e.data ++ List.replicate (72 - e.data.length) 0))

/-- Records and checkpoints (R469, R471, R472): an entry is committed, a requested checkpoint written at most once a second, the oldest signature in
preparation written, and EXPORTED only rises. -/
def Sys2Proof.Rules.LogCommands : Prop :=
  ∀ (e : LogIn) (t : Nat) (v : Word) (s : State),
    let u := s.at_ t
    let ck : State := { u with log := { u.log.checkpoint u.now s.lkh.serving (decide (s.serves = 1)) s.lkh.keeperHouse true with ckptReqAt := some u.now } }
    exec (.logbookEntry e t) s = .next (u.logFull false e.type e.origin e.path e.key e.data) ∧
    (s.log.ckptReqAt = none → exec (.logCkptRequest t) s = .next ck) ∧
    (∀ a, s.log.ckptReqAt = some a → a + 1000000000 ≤ u.now → exec (.logCkptRequest t) s = .next ck) ∧
    (∀ a, s.log.ckptReqAt = some a → u.now < a + 1000000000 → exec (.logCkptRequest t) s = .next u) ∧
    (∀ i r rest x, s.log.ckptPend = (i, r) :: rest → s.log.entry i = some x → exec (.logCheckpointSigned t) s = .next
      { u with log := { u.log with ckptPend := rest, sigs := sigTrim ((i, r, Config.sign "OVP-LOG" (ckptMsg x)) :: s.log.sigs) } }) ∧
    (s.log.ckptPend = [] → exec (.logCheckpointSigned t) s = .next u) ∧
    (∃ w, exec (.logExportWrite v) s = .next w ∧ w.log.exported = max s.log.exported v.toNat ∧ w.log.entries = s.log.entries)

/-- Quotes, signed requests, certificates and their actions; records and checkpoints. -/
def Obligations.Security : Prop :=
  Sys2Proof.Rules.SignedRequests ∧ Sys2Proof.Rules.Certificates ∧ Sys2Proof.Rules.CertificateActions ∧ Sys2Proof.Rules.LogCommands

/-! ### State and memory -/

/-- What reset leaves (Tables of chapters 5 to 17): the registers whose reset value is not 0, and nothing in flight. -/
def Sys2Proof.Rules.ResetValues : Prop :=
  let s := State.reset
  (∀ p : Pos, (s.core p).main = {} ∧ (s.core p).ctl.vl = Vector.replicate 4 512 ∧ (s.core p).mov.slots = Vector.replicate 64 {} ∧ (s.core p).spd.mem = [] ∧
    (s.ut p).pwr.state = 3 ∧ (s.ut p).berths = Vector.replicate 64 {} ∧ (s.ut p).chambers = []) ∧
  s.net = [] ∧ s.pending = [] ∧ s.lkh.pstate = .starting ∧ s.intake.steps = [] ∧ s.pcfg.len = 1000 ∧ s.pcfg.next = 1000 ∧
  s.clocks.step.wCur = 5 ∧ s.clocks.step.eCur = 5 ∧ s.power.userW = 15000 ∧ s.therm.tauMs = 2000 ∧ s.log.entries = [] ∧
  (∀ p : Pos,
    let w (off : Nat) : Nat := (s.regWord (.tile p off)).toNat
    w 0x020000 = 2 ∧ w 0x020010 = 0x1100 ∧ w 0x040050 = 1 ∧ w 0x050000 = 4 ∧ w 0x060010 = 0x18 ∧ w 0x060018 = 0x101010101 ∧ w 0x060020 = 0x14 ∧
    w 0x060028 = 0x110 ∧ w 0x090000 = 0xF02EE ∧ w 0x090008 = 0xF ∧ w 0x010010 = 0 ∧ w 0x072000 = 0) ∧
  (let w (off : Nat) : Nat := (s.regWord (.canal off)).toNat
   w 0x010000 = 0x03E803E8 ∧ w 0x010030 = 0x6400 ∧ w 0x020000 = 0x0BB83A983A98 ∧ w 0x030000 = 0x55055 ∧ w 0x040010 = 0x7D0 ∧ w 0x050130 = 0xA ∧
   w 0x070018 = 0 ∧ w 0x0A0000 = 4)

/-- The state after reset: registers at their reset values, nothing in flight, and the security invariant. -/
def Obligations.ResetLeaves : Prop :=
  Sys2Proof.Rules.ResetMeetsTrust ∧ Sys2Proof.Rules.ResetValues

/-- A table answers the value last stored at a key, and every other key as before; storing the default leaves no entry. -/
def Sys2Proof.Rules.Tables : Prop :=
  ∀ (α : Type) [DecidableEq α] (d v : α) (t : Tbl α) (k j : Nat), tblWf d t = true →
    tblGet d (tblPut d t k v) k = v ∧ (j ≠ k → tblGet d (tblPut d t k v) j = tblGet d t j) ∧ (v = d → ∀ e ∈ tblPut d t k v, e.1 ≠ k)

/-- Memory: written bytes read back, every other byte reads as before, zeroed bytes read 0; two canonical memories that read alike are equal. -/
def Sys2Proof.Rules.MemoryLaws : Prop :=
  ∀ (m n : Mem) (a b : Nat) (bs : List Byte), Memory.wf m = true →
    memRead (memWrite m a bs) a bs.length = bs ∧ ((b < a ∨ a + bs.length ≤ b) → memGet (memWrite m a bs) b = memGet m b) ∧
    (∀ c, memGet (memZero m a b) c = if a ≤ c ∧ c < a + b then 0 else memGet m c) ∧
    (Memory.wf n = true → (∀ c, memGet m c = memGet n c) → m = n)

/-- Tables and memories: what is stored reads back, all else reads as before. -/
def Obligations.TablesAndMemory : Prop :=
  Sys2Proof.Rules.Tables ∧ Sys2Proof.Rules.MemoryLaws

/-! ### Rules stated whole -/

/-- R33: a NEXT_LEN_US of 0, below 20 or above 20,000 is ignored, the value kept stays, and ERR is ILLEGAL_DESCRIPTOR; nothing else changes. -/
def Obligations.PoundLengthRefused : Prop :=
  ∀ (v : BitVec 15) (w : Word) (s : State), (v.toNat < 20 ∨ 20000 < v.toNat) →
    (∃ t, exec (.poundLenWrite v) s = .next t ∧ t.pcfg.next = s.pcfg.next ∧ t.pcfg.err = .illegalDescriptor ∧ t.pcfg.len = s.pcfg.len ∧
      t.pcfg.pend = s.pcfg.pend ∧ t = { s with pcfg := t.pcfg }) ∧
    (w.extractLsb' 16 15 = v → ∀ o p, .next (s.writeCanal 0x010000 w o p) = exec (.poundLenWrite v) s)

/-- R18: LT = 10 × row + logical column, logical columns 0 to 9 being the physical columns 0, 1, 3, 4, 5, 6, 7, 8, 10, 11; no home is a spare
position, and a die that placement gives no LT carries none. -/
def Obligations.HomePositions : Prop :=
  (∀ (row : Fin 12) (k : Fin 10) (l : Lt), l.val = 10 * row.val + k.val → homeOf l = mkPos row.val ([0, 1, 3, 4, 5, 6, 7, 8, 10, 11].getD k.val 0)) ∧
  (∀ (l : Lt) (p : Pos), isSpare p = true → homeOf l ≠ p) ∧
  (∀ (p : Pos) (s : State), (∀ l, s.place.posOf l ≠ some p) → s.place.ltAt p = none)

/-- R211: at the first gate tick of a step every LT it names carries the step number and an attempt count of 0, phase 4 of an abort raises the
count modulo 16, and the end of the step clears both. -/
def Obligations.StepTags : Prop :=
  (∀ (r : StepRec) (e : LtEnt) (p : Pos) (s : State), e ∈ r.man.ltEnts → s.posOf e.lt = some p →
    ((s.beginStep r).ut p).stepNo = BitVec.ofNat 12 r.num ∧ ((s.beginStep r).ut p).attempt = r.attempt) ∧
  (∀ (t n : Nat) (r : StepRec) (s : State), s.stepNum n = some r → r.phase = .admitted → r.ending = none → r.tAdmit + 4000 ≤ t → r.man.notBefore ≤ t →
    s.stepReady r = true → (∀ a ∈ s.aborts, a.step ≠ n) → s.stepTick t n = s.beginStep r) ∧
  (∀ (m : Manifest) (s : State), ∃ r, (s.admitStep m).intake.steps = s.intake.steps ++ [r] ∧ r.attempt = 0) ∧
  (∀ (r : StepRec) (q : AbortReq) (fin : Option Status) (e : LtEnt) (p : Pos) (s : State), e ∈ r.man.ltEnts →
    s.posOf e.lt = some p → ((s.beginAbort r q fin).ut p).attempt.toNat = (r.attempt.toNat + 1) % 16) ∧
  (∀ (r : StepRec) (st : Status) (p : Pos) (s : State), p ∈ s.stepTiles r → ((s.endStep r st).ut p).stepNo = 0 ∧ ((s.endStep r st).ut p).attempt = 0)

/-- R129: an image is taken only with at most eight resident regions whose base and length are multiples of 64 KiB, at least 64 KiB long, within
the scratchpad, apart from one another, with flags bit 0 as VALID and the other flags 0, and zero declarations beyond them. -/
def Obligations.ResidentRegions : Prop :=
  ∀ (bs : List Byte) (m : ImageIn), parseImage bs = some m →
    m.res.length ≤ 8 ∧
    (∀ r ∈ m.res, r.1 % 65536 = 0 ∧ r.2.1 % 65536 = 0 ∧ 65536 ≤ r.2.1 ∧ r.1 + r.2.1 ≤ 64 * 1048576) ∧
    m.res.Pairwise (fun a b => a.1 + a.2.1 ≤ b.1 ∨ b.1 + b.2.1 ≤ a.1) ∧
    (∀ i, i < 8 →
      let a := wordOf ((bs.drop (0x810 + 16 * i)).take 16) 0
      let b := wordOf ((bs.drop (0x810 + 16 * i)).take 16) 1
      (∀ r, m.res[i]? = some r → r = (a.toNat, fld b 0 32, b.getLsbD 32) ∧ fld b 33 31 = 0) ∧ (m.res[i]? = none → a = 0 ∧ b = 0))
end

