-- ==== Sys2Proof/Laws/State.lean ====
section
/-! SUPPORT. What the updates of the state leave alone: one lemma per field per update, each true by computation, and how a tile reads
after an update of a tile. No later proof unfolds a record update. -/

set_option Elab.async false

namespace Sys2Proof.Machine

open Sys2Proof

section
variable (s : State) (p : Pos) (f : Tile → Tile)
@[simp] theorem State.modTile_pending : (s.modTile p f).pending = s.pending := rfl
@[simp] theorem State.modTile_now : (s.modTile p f).now = s.now := rfl
@[simp] theorem State.modTile_lastTick : (s.modTile p f).lastTick = s.lastTick := rfl
@[simp] theorem State.modTile_fresh : (s.modTile p f).fresh = s.fresh := rfl
@[simp] theorem State.modTile_nextPkt : (s.modTile p f).nextPkt = s.nextPkt := rfl
@[simp] theorem State.modTile_hbm : (s.modTile p f).hbm = s.hbm := rfl
@[simp] theorem State.modTile_ports : (s.modTile p f).ports = s.ports := rfl
@[simp] theorem State.modTile_kports : (s.modTile p f).kports = s.kports := rfl
@[simp] theorem State.modTile_intake : (s.modTile p f).intake = s.intake := rfl
@[simp] theorem State.modTile_host : (s.modTile p f).host = s.host := rfl
@[simp] theorem State.modTile_chart : (s.modTile p f).chart = s.chart := rfl
@[simp] theorem State.modTile_canal : (s.modTile p f).canal = s.canal := rfl
@[simp] theorem State.modTile_canalSig : (s.modTile p f).canalSig = s.canalSig := rfl
@[simp] theorem State.modTile_net : (s.modTile p f).net = s.net := rfl
@[simp] theorem State.modTile_errands : (s.modTile p f).errands = s.errands := rfl
@[simp] theorem State.modTile_aborts : (s.modTile p f).aborts = s.aborts := rfl
@[simp] theorem State.modTile_ltpos : (s.modTile p f).ltpos = s.ltpos := rfl
@[simp] theorem State.modTile_pcfg : (s.modTile p f).pcfg = s.pcfg := rfl
@[simp] theorem State.modTile_epoch : (s.modTile p f).epoch = s.epoch := rfl
@[simp] theorem State.modTile_clocks : (s.modTile p f).clocks = s.clocks := rfl
@[simp] theorem State.modTile_tsrc : (s.modTile p f).tsrc = s.tsrc := rfl
@[simp] theorem State.modTile_reaches : (s.modTile p f).reaches = s.reaches := rfl
@[simp] theorem State.modTile_power : (s.modTile p f).power = s.power := rfl
@[simp] theorem State.modTile_therm : (s.modTile p f).therm = s.therm := rfl
@[simp] theorem State.modTile_repair : (s.modTile p f).repair = s.repair := rfl
@[simp] theorem State.modTile_lkh : (s.modTile p f).lkh = s.lkh := rfl
@[simp] theorem State.modTile_log : (s.modTile p f).log = s.log := rfl
@[simp] theorem State.modTile_sec : (s.modTile p f).sec = s.sec := rfl
@[simp] theorem State.modTile_pins : (s.modTile p f).pins = s.pins := rfl
end

section
variable (s : State) (p : Pos) (f : Core → Core)
@[simp] theorem State.modCore_pending : (s.modCore p f).pending = s.pending := rfl
@[simp] theorem State.modCore_now : (s.modCore p f).now = s.now := rfl
@[simp] theorem State.modCore_lastTick : (s.modCore p f).lastTick = s.lastTick := rfl
@[simp] theorem State.modCore_fresh : (s.modCore p f).fresh = s.fresh := rfl
@[simp] theorem State.modCore_nextPkt : (s.modCore p f).nextPkt = s.nextPkt := rfl
@[simp] theorem State.modCore_hbm : (s.modCore p f).hbm = s.hbm := rfl
@[simp] theorem State.modCore_ports : (s.modCore p f).ports = s.ports := rfl
@[simp] theorem State.modCore_kports : (s.modCore p f).kports = s.kports := rfl
@[simp] theorem State.modCore_intake : (s.modCore p f).intake = s.intake := rfl
@[simp] theorem State.modCore_host : (s.modCore p f).host = s.host := rfl
@[simp] theorem State.modCore_chart : (s.modCore p f).chart = s.chart := rfl
@[simp] theorem State.modCore_canal : (s.modCore p f).canal = s.canal := rfl
@[simp] theorem State.modCore_canalSig : (s.modCore p f).canalSig = s.canalSig := rfl
@[simp] theorem State.modCore_net : (s.modCore p f).net = s.net := rfl
@[simp] theorem State.modCore_errands : (s.modCore p f).errands = s.errands := rfl
@[simp] theorem State.modCore_aborts : (s.modCore p f).aborts = s.aborts := rfl
@[simp] theorem State.modCore_ltpos : (s.modCore p f).ltpos = s.ltpos := rfl
@[simp] theorem State.modCore_pcfg : (s.modCore p f).pcfg = s.pcfg := rfl
@[simp] theorem State.modCore_epoch : (s.modCore p f).epoch = s.epoch := rfl
@[simp] theorem State.modCore_clocks : (s.modCore p f).clocks = s.clocks := rfl
@[simp] theorem State.modCore_tsrc : (s.modCore p f).tsrc = s.tsrc := rfl
@[simp] theorem State.modCore_reaches : (s.modCore p f).reaches = s.reaches := rfl
@[simp] theorem State.modCore_power : (s.modCore p f).power = s.power := rfl
@[simp] theorem State.modCore_therm : (s.modCore p f).therm = s.therm := rfl
@[simp] theorem State.modCore_repair : (s.modCore p f).repair = s.repair := rfl
@[simp] theorem State.modCore_lkh : (s.modCore p f).lkh = s.lkh := rfl
@[simp] theorem State.modCore_log : (s.modCore p f).log = s.log := rfl
@[simp] theorem State.modCore_sec : (s.modCore p f).sec = s.sec := rfl
@[simp] theorem State.modCore_pins : (s.modCore p f).pins = s.pins := rfl
end

section
variable (s : State) (p : Pos) (f : UnderTile → UnderTile)
@[simp] theorem State.modUt_pending : (s.modUt p f).pending = s.pending := rfl
@[simp] theorem State.modUt_now : (s.modUt p f).now = s.now := rfl
@[simp] theorem State.modUt_lastTick : (s.modUt p f).lastTick = s.lastTick := rfl
@[simp] theorem State.modUt_fresh : (s.modUt p f).fresh = s.fresh := rfl
@[simp] theorem State.modUt_nextPkt : (s.modUt p f).nextPkt = s.nextPkt := rfl
@[simp] theorem State.modUt_hbm : (s.modUt p f).hbm = s.hbm := rfl
@[simp] theorem State.modUt_ports : (s.modUt p f).ports = s.ports := rfl
@[simp] theorem State.modUt_kports : (s.modUt p f).kports = s.kports := rfl
@[simp] theorem State.modUt_intake : (s.modUt p f).intake = s.intake := rfl
@[simp] theorem State.modUt_host : (s.modUt p f).host = s.host := rfl
@[simp] theorem State.modUt_chart : (s.modUt p f).chart = s.chart := rfl
@[simp] theorem State.modUt_canal : (s.modUt p f).canal = s.canal := rfl
@[simp] theorem State.modUt_canalSig : (s.modUt p f).canalSig = s.canalSig := rfl
@[simp] theorem State.modUt_net : (s.modUt p f).net = s.net := rfl
@[simp] theorem State.modUt_errands : (s.modUt p f).errands = s.errands := rfl
@[simp] theorem State.modUt_aborts : (s.modUt p f).aborts = s.aborts := rfl
@[simp] theorem State.modUt_ltpos : (s.modUt p f).ltpos = s.ltpos := rfl
@[simp] theorem State.modUt_pcfg : (s.modUt p f).pcfg = s.pcfg := rfl
@[simp] theorem State.modUt_epoch : (s.modUt p f).epoch = s.epoch := rfl
@[simp] theorem State.modUt_clocks : (s.modUt p f).clocks = s.clocks := rfl
@[simp] theorem State.modUt_tsrc : (s.modUt p f).tsrc = s.tsrc := rfl
@[simp] theorem State.modUt_reaches : (s.modUt p f).reaches = s.reaches := rfl
@[simp] theorem State.modUt_power : (s.modUt p f).power = s.power := rfl
@[simp] theorem State.modUt_therm : (s.modUt p f).therm = s.therm := rfl
@[simp] theorem State.modUt_repair : (s.modUt p f).repair = s.repair := rfl
@[simp] theorem State.modUt_lkh : (s.modUt p f).lkh = s.lkh := rfl
@[simp] theorem State.modUt_log : (s.modUt p f).log = s.log := rfl
@[simp] theorem State.modUt_sec : (s.modUt p f).sec = s.sec := rfl
@[simp] theorem State.modUt_pins : (s.modUt p f).pins = s.pins := rfl
end

section
variable (s : State) (p : Pos) (f : Control → Control)
@[simp] theorem State.modCtl_pending : (s.modCtl p f).pending = s.pending := rfl
@[simp] theorem State.modCtl_now : (s.modCtl p f).now = s.now := rfl
@[simp] theorem State.modCtl_lastTick : (s.modCtl p f).lastTick = s.lastTick := rfl
@[simp] theorem State.modCtl_fresh : (s.modCtl p f).fresh = s.fresh := rfl
@[simp] theorem State.modCtl_nextPkt : (s.modCtl p f).nextPkt = s.nextPkt := rfl
@[simp] theorem State.modCtl_hbm : (s.modCtl p f).hbm = s.hbm := rfl
@[simp] theorem State.modCtl_ports : (s.modCtl p f).ports = s.ports := rfl
@[simp] theorem State.modCtl_kports : (s.modCtl p f).kports = s.kports := rfl
@[simp] theorem State.modCtl_intake : (s.modCtl p f).intake = s.intake := rfl
@[simp] theorem State.modCtl_host : (s.modCtl p f).host = s.host := rfl
@[simp] theorem State.modCtl_chart : (s.modCtl p f).chart = s.chart := rfl
@[simp] theorem State.modCtl_canal : (s.modCtl p f).canal = s.canal := rfl
@[simp] theorem State.modCtl_canalSig : (s.modCtl p f).canalSig = s.canalSig := rfl
@[simp] theorem State.modCtl_net : (s.modCtl p f).net = s.net := rfl
@[simp] theorem State.modCtl_errands : (s.modCtl p f).errands = s.errands := rfl
@[simp] theorem State.modCtl_aborts : (s.modCtl p f).aborts = s.aborts := rfl
@[simp] theorem State.modCtl_ltpos : (s.modCtl p f).ltpos = s.ltpos := rfl
@[simp] theorem State.modCtl_pcfg : (s.modCtl p f).pcfg = s.pcfg := rfl
@[simp] theorem State.modCtl_epoch : (s.modCtl p f).epoch = s.epoch := rfl
@[simp] theorem State.modCtl_clocks : (s.modCtl p f).clocks = s.clocks := rfl
@[simp] theorem State.modCtl_tsrc : (s.modCtl p f).tsrc = s.tsrc := rfl
@[simp] theorem State.modCtl_reaches : (s.modCtl p f).reaches = s.reaches := rfl
@[simp] theorem State.modCtl_power : (s.modCtl p f).power = s.power := rfl
@[simp] theorem State.modCtl_therm : (s.modCtl p f).therm = s.therm := rfl
@[simp] theorem State.modCtl_repair : (s.modCtl p f).repair = s.repair := rfl
@[simp] theorem State.modCtl_lkh : (s.modCtl p f).lkh = s.lkh := rfl
@[simp] theorem State.modCtl_log : (s.modCtl p f).log = s.log := rfl
@[simp] theorem State.modCtl_sec : (s.modCtl p f).sec = s.sec := rfl
@[simp] theorem State.modCtl_pins : (s.modCtl p f).pins = s.pins := rfl
end

section
variable (s : State) (p : Pos) (f : MoveUnit → MoveUnit)
@[simp] theorem State.modMov_pending : (s.modMov p f).pending = s.pending := rfl
@[simp] theorem State.modMov_now : (s.modMov p f).now = s.now := rfl
@[simp] theorem State.modMov_lastTick : (s.modMov p f).lastTick = s.lastTick := rfl
@[simp] theorem State.modMov_fresh : (s.modMov p f).fresh = s.fresh := rfl
@[simp] theorem State.modMov_nextPkt : (s.modMov p f).nextPkt = s.nextPkt := rfl
@[simp] theorem State.modMov_hbm : (s.modMov p f).hbm = s.hbm := rfl
@[simp] theorem State.modMov_ports : (s.modMov p f).ports = s.ports := rfl
@[simp] theorem State.modMov_kports : (s.modMov p f).kports = s.kports := rfl
@[simp] theorem State.modMov_intake : (s.modMov p f).intake = s.intake := rfl
@[simp] theorem State.modMov_host : (s.modMov p f).host = s.host := rfl
@[simp] theorem State.modMov_chart : (s.modMov p f).chart = s.chart := rfl
@[simp] theorem State.modMov_canal : (s.modMov p f).canal = s.canal := rfl
@[simp] theorem State.modMov_canalSig : (s.modMov p f).canalSig = s.canalSig := rfl
@[simp] theorem State.modMov_net : (s.modMov p f).net = s.net := rfl
@[simp] theorem State.modMov_errands : (s.modMov p f).errands = s.errands := rfl
@[simp] theorem State.modMov_aborts : (s.modMov p f).aborts = s.aborts := rfl
@[simp] theorem State.modMov_ltpos : (s.modMov p f).ltpos = s.ltpos := rfl
@[simp] theorem State.modMov_pcfg : (s.modMov p f).pcfg = s.pcfg := rfl
@[simp] theorem State.modMov_epoch : (s.modMov p f).epoch = s.epoch := rfl
@[simp] theorem State.modMov_clocks : (s.modMov p f).clocks = s.clocks := rfl
@[simp] theorem State.modMov_tsrc : (s.modMov p f).tsrc = s.tsrc := rfl
@[simp] theorem State.modMov_reaches : (s.modMov p f).reaches = s.reaches := rfl
@[simp] theorem State.modMov_power : (s.modMov p f).power = s.power := rfl
@[simp] theorem State.modMov_therm : (s.modMov p f).therm = s.therm := rfl
@[simp] theorem State.modMov_repair : (s.modMov p f).repair = s.repair := rfl
@[simp] theorem State.modMov_lkh : (s.modMov p f).lkh = s.lkh := rfl
@[simp] theorem State.modMov_log : (s.modMov p f).log = s.log := rfl
@[simp] theorem State.modMov_sec : (s.modMov p f).sec = s.sec := rfl
@[simp] theorem State.modMov_pins : (s.modMov p f).pins = s.pins := rfl
end

section
variable (s : State) (p : Pos) (f : Scratch → Scratch)
@[simp] theorem State.modSpd_pending : (s.modSpd p f).pending = s.pending := rfl
@[simp] theorem State.modSpd_now : (s.modSpd p f).now = s.now := rfl
@[simp] theorem State.modSpd_lastTick : (s.modSpd p f).lastTick = s.lastTick := rfl
@[simp] theorem State.modSpd_fresh : (s.modSpd p f).fresh = s.fresh := rfl
@[simp] theorem State.modSpd_nextPkt : (s.modSpd p f).nextPkt = s.nextPkt := rfl
@[simp] theorem State.modSpd_hbm : (s.modSpd p f).hbm = s.hbm := rfl
@[simp] theorem State.modSpd_ports : (s.modSpd p f).ports = s.ports := rfl
@[simp] theorem State.modSpd_kports : (s.modSpd p f).kports = s.kports := rfl
@[simp] theorem State.modSpd_intake : (s.modSpd p f).intake = s.intake := rfl
@[simp] theorem State.modSpd_host : (s.modSpd p f).host = s.host := rfl
@[simp] theorem State.modSpd_chart : (s.modSpd p f).chart = s.chart := rfl
@[simp] theorem State.modSpd_canal : (s.modSpd p f).canal = s.canal := rfl
@[simp] theorem State.modSpd_canalSig : (s.modSpd p f).canalSig = s.canalSig := rfl
@[simp] theorem State.modSpd_net : (s.modSpd p f).net = s.net := rfl
@[simp] theorem State.modSpd_errands : (s.modSpd p f).errands = s.errands := rfl
@[simp] theorem State.modSpd_aborts : (s.modSpd p f).aborts = s.aborts := rfl
@[simp] theorem State.modSpd_ltpos : (s.modSpd p f).ltpos = s.ltpos := rfl
@[simp] theorem State.modSpd_pcfg : (s.modSpd p f).pcfg = s.pcfg := rfl
@[simp] theorem State.modSpd_epoch : (s.modSpd p f).epoch = s.epoch := rfl
@[simp] theorem State.modSpd_clocks : (s.modSpd p f).clocks = s.clocks := rfl
@[simp] theorem State.modSpd_tsrc : (s.modSpd p f).tsrc = s.tsrc := rfl
@[simp] theorem State.modSpd_reaches : (s.modSpd p f).reaches = s.reaches := rfl
@[simp] theorem State.modSpd_power : (s.modSpd p f).power = s.power := rfl
@[simp] theorem State.modSpd_therm : (s.modSpd p f).therm = s.therm := rfl
@[simp] theorem State.modSpd_repair : (s.modSpd p f).repair = s.repair := rfl
@[simp] theorem State.modSpd_lkh : (s.modSpd p f).lkh = s.lkh := rfl
@[simp] theorem State.modSpd_log : (s.modSpd p f).log = s.log := rfl
@[simp] theorem State.modSpd_sec : (s.modSpd p f).sec = s.sec := rfl
@[simp] theorem State.modSpd_pins : (s.modSpd p f).pins = s.pins := rfl
end

section
variable (s : State) (p : Pos) (f : Matrix → Matrix)
@[simp] theorem State.modMat_pending : (s.modMat p f).pending = s.pending := rfl
@[simp] theorem State.modMat_now : (s.modMat p f).now = s.now := rfl
@[simp] theorem State.modMat_lastTick : (s.modMat p f).lastTick = s.lastTick := rfl
@[simp] theorem State.modMat_fresh : (s.modMat p f).fresh = s.fresh := rfl
@[simp] theorem State.modMat_nextPkt : (s.modMat p f).nextPkt = s.nextPkt := rfl
@[simp] theorem State.modMat_hbm : (s.modMat p f).hbm = s.hbm := rfl
@[simp] theorem State.modMat_ports : (s.modMat p f).ports = s.ports := rfl
@[simp] theorem State.modMat_kports : (s.modMat p f).kports = s.kports := rfl
@[simp] theorem State.modMat_intake : (s.modMat p f).intake = s.intake := rfl
@[simp] theorem State.modMat_host : (s.modMat p f).host = s.host := rfl
@[simp] theorem State.modMat_chart : (s.modMat p f).chart = s.chart := rfl
@[simp] theorem State.modMat_canal : (s.modMat p f).canal = s.canal := rfl
@[simp] theorem State.modMat_canalSig : (s.modMat p f).canalSig = s.canalSig := rfl
@[simp] theorem State.modMat_net : (s.modMat p f).net = s.net := rfl
@[simp] theorem State.modMat_errands : (s.modMat p f).errands = s.errands := rfl
@[simp] theorem State.modMat_aborts : (s.modMat p f).aborts = s.aborts := rfl
@[simp] theorem State.modMat_ltpos : (s.modMat p f).ltpos = s.ltpos := rfl
@[simp] theorem State.modMat_pcfg : (s.modMat p f).pcfg = s.pcfg := rfl
@[simp] theorem State.modMat_epoch : (s.modMat p f).epoch = s.epoch := rfl
@[simp] theorem State.modMat_clocks : (s.modMat p f).clocks = s.clocks := rfl
@[simp] theorem State.modMat_tsrc : (s.modMat p f).tsrc = s.tsrc := rfl
@[simp] theorem State.modMat_reaches : (s.modMat p f).reaches = s.reaches := rfl
@[simp] theorem State.modMat_power : (s.modMat p f).power = s.power := rfl
@[simp] theorem State.modMat_therm : (s.modMat p f).therm = s.therm := rfl
@[simp] theorem State.modMat_repair : (s.modMat p f).repair = s.repair := rfl
@[simp] theorem State.modMat_lkh : (s.modMat p f).lkh = s.lkh := rfl
@[simp] theorem State.modMat_log : (s.modMat p f).log = s.log := rfl
@[simp] theorem State.modMat_sec : (s.modMat p f).sec = s.sec := rfl
@[simp] theorem State.modMat_pins : (s.modMat p f).pins = s.pins := rfl
end

section
variable (s : State) (p : Pos) (f : Mesh → Mesh)
@[simp] theorem State.modMesh_pending : (s.modMesh p f).pending = s.pending := rfl
@[simp] theorem State.modMesh_now : (s.modMesh p f).now = s.now := rfl
@[simp] theorem State.modMesh_lastTick : (s.modMesh p f).lastTick = s.lastTick := rfl
@[simp] theorem State.modMesh_fresh : (s.modMesh p f).fresh = s.fresh := rfl
@[simp] theorem State.modMesh_nextPkt : (s.modMesh p f).nextPkt = s.nextPkt := rfl
@[simp] theorem State.modMesh_hbm : (s.modMesh p f).hbm = s.hbm := rfl
@[simp] theorem State.modMesh_ports : (s.modMesh p f).ports = s.ports := rfl
@[simp] theorem State.modMesh_kports : (s.modMesh p f).kports = s.kports := rfl
@[simp] theorem State.modMesh_intake : (s.modMesh p f).intake = s.intake := rfl
@[simp] theorem State.modMesh_host : (s.modMesh p f).host = s.host := rfl
@[simp] theorem State.modMesh_chart : (s.modMesh p f).chart = s.chart := rfl
@[simp] theorem State.modMesh_canal : (s.modMesh p f).canal = s.canal := rfl
@[simp] theorem State.modMesh_canalSig : (s.modMesh p f).canalSig = s.canalSig := rfl
@[simp] theorem State.modMesh_net : (s.modMesh p f).net = s.net := rfl
@[simp] theorem State.modMesh_errands : (s.modMesh p f).errands = s.errands := rfl
@[simp] theorem State.modMesh_aborts : (s.modMesh p f).aborts = s.aborts := rfl
@[simp] theorem State.modMesh_ltpos : (s.modMesh p f).ltpos = s.ltpos := rfl
@[simp] theorem State.modMesh_pcfg : (s.modMesh p f).pcfg = s.pcfg := rfl
@[simp] theorem State.modMesh_epoch : (s.modMesh p f).epoch = s.epoch := rfl
@[simp] theorem State.modMesh_clocks : (s.modMesh p f).clocks = s.clocks := rfl
@[simp] theorem State.modMesh_tsrc : (s.modMesh p f).tsrc = s.tsrc := rfl
@[simp] theorem State.modMesh_reaches : (s.modMesh p f).reaches = s.reaches := rfl
@[simp] theorem State.modMesh_power : (s.modMesh p f).power = s.power := rfl
@[simp] theorem State.modMesh_therm : (s.modMesh p f).therm = s.therm := rfl
@[simp] theorem State.modMesh_repair : (s.modMesh p f).repair = s.repair := rfl
@[simp] theorem State.modMesh_lkh : (s.modMesh p f).lkh = s.lkh := rfl
@[simp] theorem State.modMesh_log : (s.modMesh p f).log = s.log := rfl
@[simp] theorem State.modMesh_sec : (s.modMesh p f).sec = s.sec := rfl
@[simp] theorem State.modMesh_pins : (s.modMesh p f).pins = s.pins := rfl
end

section
variable (s : State) (p : Pos) (k : Fin 64) (f : Berth → Berth)
@[simp] theorem State.modBerth_pending : (s.modBerth p k f).pending = s.pending := rfl
@[simp] theorem State.modBerth_now : (s.modBerth p k f).now = s.now := rfl
@[simp] theorem State.modBerth_lastTick : (s.modBerth p k f).lastTick = s.lastTick := rfl
@[simp] theorem State.modBerth_fresh : (s.modBerth p k f).fresh = s.fresh := rfl
@[simp] theorem State.modBerth_nextPkt : (s.modBerth p k f).nextPkt = s.nextPkt := rfl
@[simp] theorem State.modBerth_hbm : (s.modBerth p k f).hbm = s.hbm := rfl
@[simp] theorem State.modBerth_ports : (s.modBerth p k f).ports = s.ports := rfl
@[simp] theorem State.modBerth_kports : (s.modBerth p k f).kports = s.kports := rfl
@[simp] theorem State.modBerth_intake : (s.modBerth p k f).intake = s.intake := rfl
@[simp] theorem State.modBerth_host : (s.modBerth p k f).host = s.host := rfl
@[simp] theorem State.modBerth_chart : (s.modBerth p k f).chart = s.chart := rfl
@[simp] theorem State.modBerth_canal : (s.modBerth p k f).canal = s.canal := rfl
@[simp] theorem State.modBerth_canalSig : (s.modBerth p k f).canalSig = s.canalSig := rfl
@[simp] theorem State.modBerth_net : (s.modBerth p k f).net = s.net := rfl
@[simp] theorem State.modBerth_errands : (s.modBerth p k f).errands = s.errands := rfl
@[simp] theorem State.modBerth_aborts : (s.modBerth p k f).aborts = s.aborts := rfl
@[simp] theorem State.modBerth_ltpos : (s.modBerth p k f).ltpos = s.ltpos := rfl
@[simp] theorem State.modBerth_pcfg : (s.modBerth p k f).pcfg = s.pcfg := rfl
@[simp] theorem State.modBerth_epoch : (s.modBerth p k f).epoch = s.epoch := rfl
@[simp] theorem State.modBerth_clocks : (s.modBerth p k f).clocks = s.clocks := rfl
@[simp] theorem State.modBerth_tsrc : (s.modBerth p k f).tsrc = s.tsrc := rfl
@[simp] theorem State.modBerth_reaches : (s.modBerth p k f).reaches = s.reaches := rfl
@[simp] theorem State.modBerth_power : (s.modBerth p k f).power = s.power := rfl
@[simp] theorem State.modBerth_therm : (s.modBerth p k f).therm = s.therm := rfl
@[simp] theorem State.modBerth_repair : (s.modBerth p k f).repair = s.repair := rfl
@[simp] theorem State.modBerth_lkh : (s.modBerth p k f).lkh = s.lkh := rfl
@[simp] theorem State.modBerth_log : (s.modBerth p k f).log = s.log := rfl
@[simp] theorem State.modBerth_sec : (s.modBerth p k f).sec = s.sec := rfl
@[simp] theorem State.modBerth_pins : (s.modBerth p k f).pins = s.pins := rfl
end

section
variable (s : State) (p : Pos) (k : Fin 64) (f : Slot → Slot)
@[simp] theorem State.modSlot_pending : (s.modSlot p k f).pending = s.pending := rfl
@[simp] theorem State.modSlot_now : (s.modSlot p k f).now = s.now := rfl
@[simp] theorem State.modSlot_lastTick : (s.modSlot p k f).lastTick = s.lastTick := rfl
@[simp] theorem State.modSlot_fresh : (s.modSlot p k f).fresh = s.fresh := rfl
@[simp] theorem State.modSlot_nextPkt : (s.modSlot p k f).nextPkt = s.nextPkt := rfl
@[simp] theorem State.modSlot_hbm : (s.modSlot p k f).hbm = s.hbm := rfl
@[simp] theorem State.modSlot_ports : (s.modSlot p k f).ports = s.ports := rfl
@[simp] theorem State.modSlot_kports : (s.modSlot p k f).kports = s.kports := rfl
@[simp] theorem State.modSlot_intake : (s.modSlot p k f).intake = s.intake := rfl
@[simp] theorem State.modSlot_host : (s.modSlot p k f).host = s.host := rfl
@[simp] theorem State.modSlot_chart : (s.modSlot p k f).chart = s.chart := rfl
@[simp] theorem State.modSlot_canal : (s.modSlot p k f).canal = s.canal := rfl
@[simp] theorem State.modSlot_canalSig : (s.modSlot p k f).canalSig = s.canalSig := rfl
@[simp] theorem State.modSlot_net : (s.modSlot p k f).net = s.net := rfl
@[simp] theorem State.modSlot_errands : (s.modSlot p k f).errands = s.errands := rfl
@[simp] theorem State.modSlot_aborts : (s.modSlot p k f).aborts = s.aborts := rfl
@[simp] theorem State.modSlot_ltpos : (s.modSlot p k f).ltpos = s.ltpos := rfl
@[simp] theorem State.modSlot_pcfg : (s.modSlot p k f).pcfg = s.pcfg := rfl
@[simp] theorem State.modSlot_epoch : (s.modSlot p k f).epoch = s.epoch := rfl
@[simp] theorem State.modSlot_clocks : (s.modSlot p k f).clocks = s.clocks := rfl
@[simp] theorem State.modSlot_tsrc : (s.modSlot p k f).tsrc = s.tsrc := rfl
@[simp] theorem State.modSlot_reaches : (s.modSlot p k f).reaches = s.reaches := rfl
@[simp] theorem State.modSlot_power : (s.modSlot p k f).power = s.power := rfl
@[simp] theorem State.modSlot_therm : (s.modSlot p k f).therm = s.therm := rfl
@[simp] theorem State.modSlot_repair : (s.modSlot p k f).repair = s.repair := rfl
@[simp] theorem State.modSlot_lkh : (s.modSlot p k f).lkh = s.lkh := rfl
@[simp] theorem State.modSlot_log : (s.modSlot p k f).log = s.log := rfl
@[simp] theorem State.modSlot_sec : (s.modSlot p k f).sec = s.sec := rfl
@[simp] theorem State.modSlot_pins : (s.modSlot p k f).pins = s.pins := rfl
end

section
variable (s : State) (f : Pos → Tile → Tile)
@[simp] theorem State.allTiles_pending : (s.allTiles f).pending = s.pending := by simp only [State.allTiles]
@[simp] theorem State.allTiles_now : (s.allTiles f).now = s.now := by simp only [State.allTiles]
@[simp] theorem State.allTiles_lastTick : (s.allTiles f).lastTick = s.lastTick := by simp only [State.allTiles]
@[simp] theorem State.allTiles_fresh : (s.allTiles f).fresh = s.fresh := by simp only [State.allTiles]
@[simp] theorem State.allTiles_nextPkt : (s.allTiles f).nextPkt = s.nextPkt := by simp only [State.allTiles]
@[simp] theorem State.allTiles_hbm : (s.allTiles f).hbm = s.hbm := by simp only [State.allTiles]
@[simp] theorem State.allTiles_ports : (s.allTiles f).ports = s.ports := by simp only [State.allTiles]
@[simp] theorem State.allTiles_kports : (s.allTiles f).kports = s.kports := by simp only [State.allTiles]
@[simp] theorem State.allTiles_intake : (s.allTiles f).intake = s.intake := by simp only [State.allTiles]
@[simp] theorem State.allTiles_host : (s.allTiles f).host = s.host := by simp only [State.allTiles]
@[simp] theorem State.allTiles_chart : (s.allTiles f).chart = s.chart := by simp only [State.allTiles]
@[simp] theorem State.allTiles_canal : (s.allTiles f).canal = s.canal := by simp only [State.allTiles]
@[simp] theorem State.allTiles_canalSig : (s.allTiles f).canalSig = s.canalSig := by simp only [State.allTiles]
@[simp] theorem State.allTiles_net : (s.allTiles f).net = s.net := by simp only [State.allTiles]
@[simp] theorem State.allTiles_errands : (s.allTiles f).errands = s.errands := by simp only [State.allTiles]
@[simp] theorem State.allTiles_aborts : (s.allTiles f).aborts = s.aborts := by simp only [State.allTiles]
@[simp] theorem State.allTiles_ltpos : (s.allTiles f).ltpos = s.ltpos := by simp only [State.allTiles]
@[simp] theorem State.allTiles_pcfg : (s.allTiles f).pcfg = s.pcfg := by simp only [State.allTiles]
@[simp] theorem State.allTiles_epoch : (s.allTiles f).epoch = s.epoch := by simp only [State.allTiles]
@[simp] theorem State.allTiles_clocks : (s.allTiles f).clocks = s.clocks := by simp only [State.allTiles]
@[simp] theorem State.allTiles_tsrc : (s.allTiles f).tsrc = s.tsrc := by simp only [State.allTiles]
@[simp] theorem State.allTiles_reaches : (s.allTiles f).reaches = s.reaches := by simp only [State.allTiles]
@[simp] theorem State.allTiles_power : (s.allTiles f).power = s.power := by simp only [State.allTiles]
@[simp] theorem State.allTiles_therm : (s.allTiles f).therm = s.therm := by simp only [State.allTiles]
@[simp] theorem State.allTiles_repair : (s.allTiles f).repair = s.repair := by simp only [State.allTiles]
@[simp] theorem State.allTiles_lkh : (s.allTiles f).lkh = s.lkh := by simp only [State.allTiles]
@[simp] theorem State.allTiles_log : (s.allTiles f).log = s.log := by simp only [State.allTiles]
@[simp] theorem State.allTiles_sec : (s.allTiles f).sec = s.sec := by simp only [State.allTiles]
@[simp] theorem State.allTiles_pins : (s.allTiles f).pins = s.pins := by simp only [State.allTiles]
end

section
variable (s : State) (f : Pos → UnderTile → UnderTile)
@[simp] theorem State.allUts_pending : (s.allUts f).pending = s.pending := by simp only [State.allUts, State.allTiles]
@[simp] theorem State.allUts_now : (s.allUts f).now = s.now := by simp only [State.allUts, State.allTiles]
@[simp] theorem State.allUts_lastTick : (s.allUts f).lastTick = s.lastTick := by simp only [State.allUts, State.allTiles]
@[simp] theorem State.allUts_fresh : (s.allUts f).fresh = s.fresh := by simp only [State.allUts, State.allTiles]
@[simp] theorem State.allUts_nextPkt : (s.allUts f).nextPkt = s.nextPkt := by simp only [State.allUts, State.allTiles]
@[simp] theorem State.allUts_hbm : (s.allUts f).hbm = s.hbm := by simp only [State.allUts, State.allTiles]
@[simp] theorem State.allUts_ports : (s.allUts f).ports = s.ports := by simp only [State.allUts, State.allTiles]
@[simp] theorem State.allUts_kports : (s.allUts f).kports = s.kports := by simp only [State.allUts, State.allTiles]
@[simp] theorem State.allUts_intake : (s.allUts f).intake = s.intake := by simp only [State.allUts, State.allTiles]
@[simp] theorem State.allUts_host : (s.allUts f).host = s.host := by simp only [State.allUts, State.allTiles]
@[simp] theorem State.allUts_chart : (s.allUts f).chart = s.chart := by simp only [State.allUts, State.allTiles]
@[simp] theorem State.allUts_canal : (s.allUts f).canal = s.canal := by simp only [State.allUts, State.allTiles]
@[simp] theorem State.allUts_canalSig : (s.allUts f).canalSig = s.canalSig := by simp only [State.allUts, State.allTiles]
@[simp] theorem State.allUts_net : (s.allUts f).net = s.net := by simp only [State.allUts, State.allTiles]
@[simp] theorem State.allUts_errands : (s.allUts f).errands = s.errands := by simp only [State.allUts, State.allTiles]
@[simp] theorem State.allUts_aborts : (s.allUts f).aborts = s.aborts := by simp only [State.allUts, State.allTiles]
@[simp] theorem State.allUts_ltpos : (s.allUts f).ltpos = s.ltpos := by simp only [State.allUts, State.allTiles]
@[simp] theorem State.allUts_pcfg : (s.allUts f).pcfg = s.pcfg := by simp only [State.allUts, State.allTiles]
@[simp] theorem State.allUts_epoch : (s.allUts f).epoch = s.epoch := by simp only [State.allUts, State.allTiles]
@[simp] theorem State.allUts_clocks : (s.allUts f).clocks = s.clocks := by simp only [State.allUts, State.allTiles]
@[simp] theorem State.allUts_tsrc : (s.allUts f).tsrc = s.tsrc := by simp only [State.allUts, State.allTiles]
@[simp] theorem State.allUts_reaches : (s.allUts f).reaches = s.reaches := by simp only [State.allUts, State.allTiles]
@[simp] theorem State.allUts_power : (s.allUts f).power = s.power := by simp only [State.allUts, State.allTiles]
@[simp] theorem State.allUts_therm : (s.allUts f).therm = s.therm := by simp only [State.allUts, State.allTiles]
@[simp] theorem State.allUts_repair : (s.allUts f).repair = s.repair := by simp only [State.allUts, State.allTiles]
@[simp] theorem State.allUts_lkh : (s.allUts f).lkh = s.lkh := by simp only [State.allUts, State.allTiles]
@[simp] theorem State.allUts_log : (s.allUts f).log = s.log := by simp only [State.allUts, State.allTiles]
@[simp] theorem State.allUts_sec : (s.allUts f).sec = s.sec := by simp only [State.allUts, State.allTiles]
@[simp] theorem State.allUts_pins : (s.allUts f).pins = s.pins := by simp only [State.allUts, State.allTiles]
end

section
variable (s : State) (n : Nat)
@[simp] theorem State.at_pending : (s.at_ n).pending = s.pending := rfl
@[simp] theorem State.at_lastTick : (s.at_ n).lastTick = s.lastTick := rfl
@[simp] theorem State.at_fresh : (s.at_ n).fresh = s.fresh := rfl
@[simp] theorem State.at_nextPkt : (s.at_ n).nextPkt = s.nextPkt := rfl
@[simp] theorem State.at_tiles : (s.at_ n).tiles = s.tiles := rfl
@[simp] theorem State.at_hbm : (s.at_ n).hbm = s.hbm := rfl
@[simp] theorem State.at_ports : (s.at_ n).ports = s.ports := rfl
@[simp] theorem State.at_kports : (s.at_ n).kports = s.kports := rfl
@[simp] theorem State.at_intake : (s.at_ n).intake = s.intake := rfl
@[simp] theorem State.at_host : (s.at_ n).host = s.host := rfl
@[simp] theorem State.at_chart : (s.at_ n).chart = s.chart := rfl
@[simp] theorem State.at_canal : (s.at_ n).canal = s.canal := rfl
@[simp] theorem State.at_canalSig : (s.at_ n).canalSig = s.canalSig := rfl
@[simp] theorem State.at_net : (s.at_ n).net = s.net := rfl
@[simp] theorem State.at_errands : (s.at_ n).errands = s.errands := rfl
@[simp] theorem State.at_aborts : (s.at_ n).aborts = s.aborts := rfl
@[simp] theorem State.at_ltpos : (s.at_ n).ltpos = s.ltpos := rfl
@[simp] theorem State.at_pcfg : (s.at_ n).pcfg = s.pcfg := rfl
@[simp] theorem State.at_epoch : (s.at_ n).epoch = s.epoch := rfl
@[simp] theorem State.at_clocks : (s.at_ n).clocks = s.clocks := rfl
@[simp] theorem State.at_tsrc : (s.at_ n).tsrc = s.tsrc := rfl
@[simp] theorem State.at_reaches : (s.at_ n).reaches = s.reaches := rfl
@[simp] theorem State.at_power : (s.at_ n).power = s.power := rfl
@[simp] theorem State.at_therm : (s.at_ n).therm = s.therm := rfl
@[simp] theorem State.at_repair : (s.at_ n).repair = s.repair := rfl
@[simp] theorem State.at_lkh : (s.at_ n).lkh = s.lkh := rfl
@[simp] theorem State.at_log : (s.at_ n).log = s.log := rfl
@[simp] theorem State.at_sec : (s.at_ n).sec = s.sec := rfl
@[simp] theorem State.at_pins : (s.at_ n).pins = s.pins := rfl
end

section
variable (s : State) (n : Nat) (f : StepRec → StepRec)
@[simp] theorem State.modStep_pending : (s.modStep n f).pending = s.pending := rfl
@[simp] theorem State.modStep_now : (s.modStep n f).now = s.now := rfl
@[simp] theorem State.modStep_lastTick : (s.modStep n f).lastTick = s.lastTick := rfl
@[simp] theorem State.modStep_fresh : (s.modStep n f).fresh = s.fresh := rfl
@[simp] theorem State.modStep_nextPkt : (s.modStep n f).nextPkt = s.nextPkt := rfl
@[simp] theorem State.modStep_tiles : (s.modStep n f).tiles = s.tiles := rfl
@[simp] theorem State.modStep_hbm : (s.modStep n f).hbm = s.hbm := rfl
@[simp] theorem State.modStep_ports : (s.modStep n f).ports = s.ports := rfl
@[simp] theorem State.modStep_kports : (s.modStep n f).kports = s.kports := rfl
@[simp] theorem State.modStep_host : (s.modStep n f).host = s.host := rfl
@[simp] theorem State.modStep_chart : (s.modStep n f).chart = s.chart := rfl
@[simp] theorem State.modStep_canal : (s.modStep n f).canal = s.canal := rfl
@[simp] theorem State.modStep_canalSig : (s.modStep n f).canalSig = s.canalSig := rfl
@[simp] theorem State.modStep_net : (s.modStep n f).net = s.net := rfl
@[simp] theorem State.modStep_errands : (s.modStep n f).errands = s.errands := rfl
@[simp] theorem State.modStep_aborts : (s.modStep n f).aborts = s.aborts := rfl
@[simp] theorem State.modStep_ltpos : (s.modStep n f).ltpos = s.ltpos := rfl
@[simp] theorem State.modStep_pcfg : (s.modStep n f).pcfg = s.pcfg := rfl
@[simp] theorem State.modStep_epoch : (s.modStep n f).epoch = s.epoch := rfl
@[simp] theorem State.modStep_clocks : (s.modStep n f).clocks = s.clocks := rfl
@[simp] theorem State.modStep_tsrc : (s.modStep n f).tsrc = s.tsrc := rfl
@[simp] theorem State.modStep_reaches : (s.modStep n f).reaches = s.reaches := rfl
@[simp] theorem State.modStep_power : (s.modStep n f).power = s.power := rfl
@[simp] theorem State.modStep_therm : (s.modStep n f).therm = s.therm := rfl
@[simp] theorem State.modStep_repair : (s.modStep n f).repair = s.repair := rfl
@[simp] theorem State.modStep_lkh : (s.modStep n f).lkh = s.lkh := rfl
@[simp] theorem State.modStep_log : (s.modStep n f).log = s.log := rfl
@[simp] theorem State.modStep_sec : (s.modStep n f).sec = s.sec := rfl
@[simp] theorem State.modStep_pins : (s.modStep n f).pins = s.pins := rfl
end

section
variable (s : State) (p : Pos) (cc : Nat)
@[simp] theorem State.advance_pending : (s.advance p cc).pending = s.pending := rfl
@[simp] theorem State.advance_now : (s.advance p cc).now = s.now := rfl
@[simp] theorem State.advance_lastTick : (s.advance p cc).lastTick = s.lastTick := rfl
@[simp] theorem State.advance_fresh : (s.advance p cc).fresh = s.fresh := rfl
@[simp] theorem State.advance_nextPkt : (s.advance p cc).nextPkt = s.nextPkt := rfl
@[simp] theorem State.advance_hbm : (s.advance p cc).hbm = s.hbm := rfl
@[simp] theorem State.advance_ports : (s.advance p cc).ports = s.ports := rfl
@[simp] theorem State.advance_kports : (s.advance p cc).kports = s.kports := rfl
@[simp] theorem State.advance_intake : (s.advance p cc).intake = s.intake := rfl
@[simp] theorem State.advance_host : (s.advance p cc).host = s.host := rfl
@[simp] theorem State.advance_chart : (s.advance p cc).chart = s.chart := rfl
@[simp] theorem State.advance_canal : (s.advance p cc).canal = s.canal := rfl
@[simp] theorem State.advance_canalSig : (s.advance p cc).canalSig = s.canalSig := rfl
@[simp] theorem State.advance_net : (s.advance p cc).net = s.net := rfl
@[simp] theorem State.advance_errands : (s.advance p cc).errands = s.errands := rfl
@[simp] theorem State.advance_aborts : (s.advance p cc).aborts = s.aborts := rfl
@[simp] theorem State.advance_ltpos : (s.advance p cc).ltpos = s.ltpos := rfl
@[simp] theorem State.advance_pcfg : (s.advance p cc).pcfg = s.pcfg := rfl
@[simp] theorem State.advance_epoch : (s.advance p cc).epoch = s.epoch := rfl
@[simp] theorem State.advance_clocks : (s.advance p cc).clocks = s.clocks := rfl
@[simp] theorem State.advance_tsrc : (s.advance p cc).tsrc = s.tsrc := rfl
@[simp] theorem State.advance_reaches : (s.advance p cc).reaches = s.reaches := rfl
@[simp] theorem State.advance_power : (s.advance p cc).power = s.power := rfl
@[simp] theorem State.advance_therm : (s.advance p cc).therm = s.therm := rfl
@[simp] theorem State.advance_repair : (s.advance p cc).repair = s.repair := rfl
@[simp] theorem State.advance_lkh : (s.advance p cc).lkh = s.lkh := rfl
@[simp] theorem State.advance_log : (s.advance p cc).log = s.log := rfl
@[simp] theorem State.advance_sec : (s.advance p cc).sec = s.sec := rfl
@[simp] theorem State.advance_pins : (s.advance p cc).pins = s.pins := rfl
end

section
variable (s : State) (p : Pos) (i n : Nat)
@[simp] theorem State.signalTile_pending : (s.signalTile p i n).pending = s.pending := rfl
@[simp] theorem State.signalTile_now : (s.signalTile p i n).now = s.now := rfl
@[simp] theorem State.signalTile_lastTick : (s.signalTile p i n).lastTick = s.lastTick := rfl
@[simp] theorem State.signalTile_fresh : (s.signalTile p i n).fresh = s.fresh := rfl
@[simp] theorem State.signalTile_nextPkt : (s.signalTile p i n).nextPkt = s.nextPkt := rfl
@[simp] theorem State.signalTile_hbm : (s.signalTile p i n).hbm = s.hbm := rfl
@[simp] theorem State.signalTile_ports : (s.signalTile p i n).ports = s.ports := rfl
@[simp] theorem State.signalTile_kports : (s.signalTile p i n).kports = s.kports := rfl
@[simp] theorem State.signalTile_intake : (s.signalTile p i n).intake = s.intake := rfl
@[simp] theorem State.signalTile_host : (s.signalTile p i n).host = s.host := rfl
@[simp] theorem State.signalTile_chart : (s.signalTile p i n).chart = s.chart := rfl
@[simp] theorem State.signalTile_canal : (s.signalTile p i n).canal = s.canal := rfl
@[simp] theorem State.signalTile_canalSig : (s.signalTile p i n).canalSig = s.canalSig := rfl
@[simp] theorem State.signalTile_net : (s.signalTile p i n).net = s.net := rfl
@[simp] theorem State.signalTile_errands : (s.signalTile p i n).errands = s.errands := rfl
@[simp] theorem State.signalTile_aborts : (s.signalTile p i n).aborts = s.aborts := rfl
@[simp] theorem State.signalTile_ltpos : (s.signalTile p i n).ltpos = s.ltpos := rfl
@[simp] theorem State.signalTile_pcfg : (s.signalTile p i n).pcfg = s.pcfg := rfl
@[simp] theorem State.signalTile_epoch : (s.signalTile p i n).epoch = s.epoch := rfl
@[simp] theorem State.signalTile_clocks : (s.signalTile p i n).clocks = s.clocks := rfl
@[simp] theorem State.signalTile_tsrc : (s.signalTile p i n).tsrc = s.tsrc := rfl
@[simp] theorem State.signalTile_reaches : (s.signalTile p i n).reaches = s.reaches := rfl
@[simp] theorem State.signalTile_power : (s.signalTile p i n).power = s.power := rfl
@[simp] theorem State.signalTile_therm : (s.signalTile p i n).therm = s.therm := rfl
@[simp] theorem State.signalTile_repair : (s.signalTile p i n).repair = s.repair := rfl
@[simp] theorem State.signalTile_lkh : (s.signalTile p i n).lkh = s.lkh := rfl
@[simp] theorem State.signalTile_log : (s.signalTile p i n).log = s.log := rfl
@[simp] theorem State.signalTile_sec : (s.signalTile p i n).sec = s.sec := rfl
@[simp] theorem State.signalTile_pins : (s.signalTile p i n).pins = s.pins := rfl
end

section
variable (s : State) (p : Pos) (k : Fin 64)
@[simp] theorem State.slotBusy_pending : (s.slotBusy p k).pending = s.pending := rfl
@[simp] theorem State.slotBusy_now : (s.slotBusy p k).now = s.now := rfl
@[simp] theorem State.slotBusy_lastTick : (s.slotBusy p k).lastTick = s.lastTick := rfl
@[simp] theorem State.slotBusy_fresh : (s.slotBusy p k).fresh = s.fresh := rfl
@[simp] theorem State.slotBusy_nextPkt : (s.slotBusy p k).nextPkt = s.nextPkt := rfl
@[simp] theorem State.slotBusy_hbm : (s.slotBusy p k).hbm = s.hbm := rfl
@[simp] theorem State.slotBusy_ports : (s.slotBusy p k).ports = s.ports := rfl
@[simp] theorem State.slotBusy_kports : (s.slotBusy p k).kports = s.kports := rfl
@[simp] theorem State.slotBusy_intake : (s.slotBusy p k).intake = s.intake := rfl
@[simp] theorem State.slotBusy_host : (s.slotBusy p k).host = s.host := rfl
@[simp] theorem State.slotBusy_chart : (s.slotBusy p k).chart = s.chart := rfl
@[simp] theorem State.slotBusy_canal : (s.slotBusy p k).canal = s.canal := rfl
@[simp] theorem State.slotBusy_canalSig : (s.slotBusy p k).canalSig = s.canalSig := rfl
@[simp] theorem State.slotBusy_net : (s.slotBusy p k).net = s.net := rfl
@[simp] theorem State.slotBusy_errands : (s.slotBusy p k).errands = s.errands := rfl
@[simp] theorem State.slotBusy_aborts : (s.slotBusy p k).aborts = s.aborts := rfl
@[simp] theorem State.slotBusy_ltpos : (s.slotBusy p k).ltpos = s.ltpos := rfl
@[simp] theorem State.slotBusy_pcfg : (s.slotBusy p k).pcfg = s.pcfg := rfl
@[simp] theorem State.slotBusy_epoch : (s.slotBusy p k).epoch = s.epoch := rfl
@[simp] theorem State.slotBusy_clocks : (s.slotBusy p k).clocks = s.clocks := rfl
@[simp] theorem State.slotBusy_tsrc : (s.slotBusy p k).tsrc = s.tsrc := rfl
@[simp] theorem State.slotBusy_reaches : (s.slotBusy p k).reaches = s.reaches := rfl
@[simp] theorem State.slotBusy_power : (s.slotBusy p k).power = s.power := rfl
@[simp] theorem State.slotBusy_therm : (s.slotBusy p k).therm = s.therm := rfl
@[simp] theorem State.slotBusy_repair : (s.slotBusy p k).repair = s.repair := rfl
@[simp] theorem State.slotBusy_lkh : (s.slotBusy p k).lkh = s.lkh := rfl
@[simp] theorem State.slotBusy_log : (s.slotBusy p k).log = s.log := rfl
@[simp] theorem State.slotBusy_sec : (s.slotBusy p k).sec = s.sec := rfl
@[simp] theorem State.slotBusy_pins : (s.slotBusy p k).pins = s.pins := rfl
end

section
variable (s : State) (p : Pos) (k : Fin 64) (op : MoveOp)
@[simp] theorem State.startOp_pending : (s.startOp p k op).pending = s.pending := rfl
@[simp] theorem State.startOp_now : (s.startOp p k op).now = s.now := rfl
@[simp] theorem State.startOp_lastTick : (s.startOp p k op).lastTick = s.lastTick := rfl
@[simp] theorem State.startOp_fresh : (s.startOp p k op).fresh = s.fresh := rfl
@[simp] theorem State.startOp_nextPkt : (s.startOp p k op).nextPkt = s.nextPkt := rfl
@[simp] theorem State.startOp_hbm : (s.startOp p k op).hbm = s.hbm := rfl
@[simp] theorem State.startOp_ports : (s.startOp p k op).ports = s.ports := rfl
@[simp] theorem State.startOp_kports : (s.startOp p k op).kports = s.kports := rfl
@[simp] theorem State.startOp_intake : (s.startOp p k op).intake = s.intake := rfl
@[simp] theorem State.startOp_host : (s.startOp p k op).host = s.host := rfl
@[simp] theorem State.startOp_chart : (s.startOp p k op).chart = s.chart := rfl
@[simp] theorem State.startOp_canal : (s.startOp p k op).canal = s.canal := rfl
@[simp] theorem State.startOp_canalSig : (s.startOp p k op).canalSig = s.canalSig := rfl
@[simp] theorem State.startOp_net : (s.startOp p k op).net = s.net := rfl
@[simp] theorem State.startOp_errands : (s.startOp p k op).errands = s.errands := rfl
@[simp] theorem State.startOp_aborts : (s.startOp p k op).aborts = s.aborts := rfl
@[simp] theorem State.startOp_ltpos : (s.startOp p k op).ltpos = s.ltpos := rfl
@[simp] theorem State.startOp_pcfg : (s.startOp p k op).pcfg = s.pcfg := rfl
@[simp] theorem State.startOp_epoch : (s.startOp p k op).epoch = s.epoch := rfl
@[simp] theorem State.startOp_clocks : (s.startOp p k op).clocks = s.clocks := rfl
@[simp] theorem State.startOp_tsrc : (s.startOp p k op).tsrc = s.tsrc := rfl
@[simp] theorem State.startOp_reaches : (s.startOp p k op).reaches = s.reaches := rfl
@[simp] theorem State.startOp_power : (s.startOp p k op).power = s.power := rfl
@[simp] theorem State.startOp_therm : (s.startOp p k op).therm = s.therm := rfl
@[simp] theorem State.startOp_repair : (s.startOp p k op).repair = s.repair := rfl
@[simp] theorem State.startOp_lkh : (s.startOp p k op).lkh = s.lkh := rfl
@[simp] theorem State.startOp_log : (s.startOp p k op).log = s.log := rfl
@[simp] theorem State.startOp_sec : (s.startOp p k op).sec = s.sec := rfl
@[simp] theorem State.startOp_pins : (s.startOp p k op).pins = s.pins := rfl
end

section
variable (s : State) (p : Pos) (k : Fin 64) (st : Status)
@[simp] theorem State.endOp_pending : (s.endOp p k st).pending = s.pending := rfl
@[simp] theorem State.endOp_now : (s.endOp p k st).now = s.now := rfl
@[simp] theorem State.endOp_lastTick : (s.endOp p k st).lastTick = s.lastTick := rfl
@[simp] theorem State.endOp_fresh : (s.endOp p k st).fresh = s.fresh := rfl
@[simp] theorem State.endOp_nextPkt : (s.endOp p k st).nextPkt = s.nextPkt := rfl
@[simp] theorem State.endOp_hbm : (s.endOp p k st).hbm = s.hbm := rfl
@[simp] theorem State.endOp_ports : (s.endOp p k st).ports = s.ports := rfl
@[simp] theorem State.endOp_kports : (s.endOp p k st).kports = s.kports := rfl
@[simp] theorem State.endOp_intake : (s.endOp p k st).intake = s.intake := rfl
@[simp] theorem State.endOp_host : (s.endOp p k st).host = s.host := rfl
@[simp] theorem State.endOp_chart : (s.endOp p k st).chart = s.chart := rfl
@[simp] theorem State.endOp_canal : (s.endOp p k st).canal = s.canal := rfl
@[simp] theorem State.endOp_canalSig : (s.endOp p k st).canalSig = s.canalSig := rfl
@[simp] theorem State.endOp_net : (s.endOp p k st).net = s.net := rfl
@[simp] theorem State.endOp_errands : (s.endOp p k st).errands = s.errands := rfl
@[simp] theorem State.endOp_aborts : (s.endOp p k st).aborts = s.aborts := rfl
@[simp] theorem State.endOp_ltpos : (s.endOp p k st).ltpos = s.ltpos := rfl
@[simp] theorem State.endOp_pcfg : (s.endOp p k st).pcfg = s.pcfg := rfl
@[simp] theorem State.endOp_epoch : (s.endOp p k st).epoch = s.epoch := rfl
@[simp] theorem State.endOp_clocks : (s.endOp p k st).clocks = s.clocks := rfl
@[simp] theorem State.endOp_tsrc : (s.endOp p k st).tsrc = s.tsrc := rfl
@[simp] theorem State.endOp_reaches : (s.endOp p k st).reaches = s.reaches := rfl
@[simp] theorem State.endOp_power : (s.endOp p k st).power = s.power := rfl
@[simp] theorem State.endOp_therm : (s.endOp p k st).therm = s.therm := rfl
@[simp] theorem State.endOp_repair : (s.endOp p k st).repair = s.repair := rfl
@[simp] theorem State.endOp_lkh : (s.endOp p k st).lkh = s.lkh := rfl
@[simp] theorem State.endOp_log : (s.endOp p k st).log = s.log := rfl
@[simp] theorem State.endOp_sec : (s.endOp p k st).sec = s.sec := rfl
@[simp] theorem State.endOp_pins : (s.endOp p k st).pins = s.pins := rfl
end

section
variable (s : State) (q : Packet)
@[simp] theorem State.emit_pending : (s.emit q).pending = s.pending := rfl
@[simp] theorem State.emit_now : (s.emit q).now = s.now := rfl
@[simp] theorem State.emit_lastTick : (s.emit q).lastTick = s.lastTick := rfl
@[simp] theorem State.emit_fresh : (s.emit q).fresh = s.fresh := rfl
@[simp] theorem State.emit_tiles : (s.emit q).tiles = s.tiles := rfl
@[simp] theorem State.emit_hbm : (s.emit q).hbm = s.hbm := rfl
@[simp] theorem State.emit_ports : (s.emit q).ports = s.ports := rfl
@[simp] theorem State.emit_kports : (s.emit q).kports = s.kports := rfl
@[simp] theorem State.emit_intake : (s.emit q).intake = s.intake := rfl
@[simp] theorem State.emit_host : (s.emit q).host = s.host := rfl
@[simp] theorem State.emit_chart : (s.emit q).chart = s.chart := rfl
@[simp] theorem State.emit_canal : (s.emit q).canal = s.canal := rfl
@[simp] theorem State.emit_canalSig : (s.emit q).canalSig = s.canalSig := rfl
@[simp] theorem State.emit_errands : (s.emit q).errands = s.errands := rfl
@[simp] theorem State.emit_aborts : (s.emit q).aborts = s.aborts := rfl
@[simp] theorem State.emit_ltpos : (s.emit q).ltpos = s.ltpos := rfl
@[simp] theorem State.emit_pcfg : (s.emit q).pcfg = s.pcfg := rfl
@[simp] theorem State.emit_epoch : (s.emit q).epoch = s.epoch := rfl
@[simp] theorem State.emit_clocks : (s.emit q).clocks = s.clocks := rfl
@[simp] theorem State.emit_tsrc : (s.emit q).tsrc = s.tsrc := rfl
@[simp] theorem State.emit_reaches : (s.emit q).reaches = s.reaches := rfl
@[simp] theorem State.emit_power : (s.emit q).power = s.power := rfl
@[simp] theorem State.emit_therm : (s.emit q).therm = s.therm := rfl
@[simp] theorem State.emit_repair : (s.emit q).repair = s.repair := rfl
@[simp] theorem State.emit_lkh : (s.emit q).lkh = s.lkh := rfl
@[simp] theorem State.emit_log : (s.emit q).log = s.log := rfl
@[simp] theorem State.emit_sec : (s.emit q).sec = s.sec := rfl
@[simp] theorem State.emit_pins : (s.emit q).pins = s.pins := rfl
end

section
variable (s : State) (id : Nat)
@[simp] theorem State.dropPacket_pending : (s.dropPacket id).pending = s.pending := rfl
@[simp] theorem State.dropPacket_now : (s.dropPacket id).now = s.now := rfl
@[simp] theorem State.dropPacket_lastTick : (s.dropPacket id).lastTick = s.lastTick := rfl
@[simp] theorem State.dropPacket_fresh : (s.dropPacket id).fresh = s.fresh := rfl
@[simp] theorem State.dropPacket_nextPkt : (s.dropPacket id).nextPkt = s.nextPkt := rfl
@[simp] theorem State.dropPacket_tiles : (s.dropPacket id).tiles = s.tiles := rfl
@[simp] theorem State.dropPacket_hbm : (s.dropPacket id).hbm = s.hbm := rfl
@[simp] theorem State.dropPacket_ports : (s.dropPacket id).ports = s.ports := rfl
@[simp] theorem State.dropPacket_kports : (s.dropPacket id).kports = s.kports := rfl
@[simp] theorem State.dropPacket_intake : (s.dropPacket id).intake = s.intake := rfl
@[simp] theorem State.dropPacket_host : (s.dropPacket id).host = s.host := rfl
@[simp] theorem State.dropPacket_chart : (s.dropPacket id).chart = s.chart := rfl
@[simp] theorem State.dropPacket_canal : (s.dropPacket id).canal = s.canal := rfl
@[simp] theorem State.dropPacket_canalSig : (s.dropPacket id).canalSig = s.canalSig := rfl
@[simp] theorem State.dropPacket_errands : (s.dropPacket id).errands = s.errands := rfl
@[simp] theorem State.dropPacket_aborts : (s.dropPacket id).aborts = s.aborts := rfl
@[simp] theorem State.dropPacket_ltpos : (s.dropPacket id).ltpos = s.ltpos := rfl
@[simp] theorem State.dropPacket_pcfg : (s.dropPacket id).pcfg = s.pcfg := rfl
@[simp] theorem State.dropPacket_epoch : (s.dropPacket id).epoch = s.epoch := rfl
@[simp] theorem State.dropPacket_clocks : (s.dropPacket id).clocks = s.clocks := rfl
@[simp] theorem State.dropPacket_tsrc : (s.dropPacket id).tsrc = s.tsrc := rfl
@[simp] theorem State.dropPacket_reaches : (s.dropPacket id).reaches = s.reaches := rfl
@[simp] theorem State.dropPacket_power : (s.dropPacket id).power = s.power := rfl
@[simp] theorem State.dropPacket_therm : (s.dropPacket id).therm = s.therm := rfl
@[simp] theorem State.dropPacket_repair : (s.dropPacket id).repair = s.repair := rfl
@[simp] theorem State.dropPacket_lkh : (s.dropPacket id).lkh = s.lkh := rfl
@[simp] theorem State.dropPacket_log : (s.dropPacket id).log = s.log := rfl
@[simp] theorem State.dropPacket_sec : (s.dropPacket id).sec = s.sec := rfl
@[simp] theorem State.dropPacket_pins : (s.dropPacket id).pins = s.pins := rfl
end

section
variable (s : State) (id : Nat) (f : Packet → Packet)
@[simp] theorem State.modPacket_pending : (s.modPacket id f).pending = s.pending := rfl
@[simp] theorem State.modPacket_now : (s.modPacket id f).now = s.now := rfl
@[simp] theorem State.modPacket_lastTick : (s.modPacket id f).lastTick = s.lastTick := rfl
@[simp] theorem State.modPacket_fresh : (s.modPacket id f).fresh = s.fresh := rfl
@[simp] theorem State.modPacket_nextPkt : (s.modPacket id f).nextPkt = s.nextPkt := rfl
@[simp] theorem State.modPacket_tiles : (s.modPacket id f).tiles = s.tiles := rfl
@[simp] theorem State.modPacket_hbm : (s.modPacket id f).hbm = s.hbm := rfl
@[simp] theorem State.modPacket_ports : (s.modPacket id f).ports = s.ports := rfl
@[simp] theorem State.modPacket_kports : (s.modPacket id f).kports = s.kports := rfl
@[simp] theorem State.modPacket_intake : (s.modPacket id f).intake = s.intake := rfl
@[simp] theorem State.modPacket_host : (s.modPacket id f).host = s.host := rfl
@[simp] theorem State.modPacket_chart : (s.modPacket id f).chart = s.chart := rfl
@[simp] theorem State.modPacket_canal : (s.modPacket id f).canal = s.canal := rfl
@[simp] theorem State.modPacket_canalSig : (s.modPacket id f).canalSig = s.canalSig := rfl
@[simp] theorem State.modPacket_errands : (s.modPacket id f).errands = s.errands := rfl
@[simp] theorem State.modPacket_aborts : (s.modPacket id f).aborts = s.aborts := rfl
@[simp] theorem State.modPacket_ltpos : (s.modPacket id f).ltpos = s.ltpos := rfl
@[simp] theorem State.modPacket_pcfg : (s.modPacket id f).pcfg = s.pcfg := rfl
@[simp] theorem State.modPacket_epoch : (s.modPacket id f).epoch = s.epoch := rfl
@[simp] theorem State.modPacket_clocks : (s.modPacket id f).clocks = s.clocks := rfl
@[simp] theorem State.modPacket_tsrc : (s.modPacket id f).tsrc = s.tsrc := rfl
@[simp] theorem State.modPacket_reaches : (s.modPacket id f).reaches = s.reaches := rfl
@[simp] theorem State.modPacket_power : (s.modPacket id f).power = s.power := rfl
@[simp] theorem State.modPacket_therm : (s.modPacket id f).therm = s.therm := rfl
@[simp] theorem State.modPacket_repair : (s.modPacket id f).repair = s.repair := rfl
@[simp] theorem State.modPacket_lkh : (s.modPacket id f).lkh = s.lkh := rfl
@[simp] theorem State.modPacket_log : (s.modPacket id f).log = s.log := rfl
@[simp] theorem State.modPacket_sec : (s.modPacket id f).sec = s.sec := rfl
@[simp] theorem State.modPacket_pins : (s.modPacket id f).pins = s.pins := rfl
end

section
variable (s : State) (i : Issue) (lat : Nat) (d : RegDst)
@[simp] theorem State.later_pending : (s.later i lat d).pending = s.pending := rfl
@[simp] theorem State.later_now : (s.later i lat d).now = s.now := rfl
@[simp] theorem State.later_lastTick : (s.later i lat d).lastTick = s.lastTick := rfl
@[simp] theorem State.later_fresh : (s.later i lat d).fresh = s.fresh := rfl
@[simp] theorem State.later_nextPkt : (s.later i lat d).nextPkt = s.nextPkt := rfl
@[simp] theorem State.later_hbm : (s.later i lat d).hbm = s.hbm := rfl
@[simp] theorem State.later_ports : (s.later i lat d).ports = s.ports := rfl
@[simp] theorem State.later_kports : (s.later i lat d).kports = s.kports := rfl
@[simp] theorem State.later_intake : (s.later i lat d).intake = s.intake := rfl
@[simp] theorem State.later_host : (s.later i lat d).host = s.host := rfl
@[simp] theorem State.later_chart : (s.later i lat d).chart = s.chart := rfl
@[simp] theorem State.later_canal : (s.later i lat d).canal = s.canal := rfl
@[simp] theorem State.later_canalSig : (s.later i lat d).canalSig = s.canalSig := rfl
@[simp] theorem State.later_net : (s.later i lat d).net = s.net := rfl
@[simp] theorem State.later_errands : (s.later i lat d).errands = s.errands := rfl
@[simp] theorem State.later_aborts : (s.later i lat d).aborts = s.aborts := rfl
@[simp] theorem State.later_ltpos : (s.later i lat d).ltpos = s.ltpos := rfl
@[simp] theorem State.later_pcfg : (s.later i lat d).pcfg = s.pcfg := rfl
@[simp] theorem State.later_epoch : (s.later i lat d).epoch = s.epoch := rfl
@[simp] theorem State.later_clocks : (s.later i lat d).clocks = s.clocks := rfl
@[simp] theorem State.later_tsrc : (s.later i lat d).tsrc = s.tsrc := rfl
@[simp] theorem State.later_reaches : (s.later i lat d).reaches = s.reaches := rfl
@[simp] theorem State.later_power : (s.later i lat d).power = s.power := rfl
@[simp] theorem State.later_therm : (s.later i lat d).therm = s.therm := rfl
@[simp] theorem State.later_repair : (s.later i lat d).repair = s.repair := rfl
@[simp] theorem State.later_lkh : (s.later i lat d).lkh = s.lkh := rfl
@[simp] theorem State.later_log : (s.later i lat d).log = s.log := rfl
@[simp] theorem State.later_sec : (s.later i lat d).sec = s.sec := rfl
@[simp] theorem State.later_pins : (s.later i lat d).pins = s.pins := rfl
end

section
variable (s : State) (i : Issue) (pt : Fin 6)
@[simp] theorem State.hold_pending : (s.hold i pt).pending = s.pending := rfl
@[simp] theorem State.hold_now : (s.hold i pt).now = s.now := rfl
@[simp] theorem State.hold_lastTick : (s.hold i pt).lastTick = s.lastTick := rfl
@[simp] theorem State.hold_fresh : (s.hold i pt).fresh = s.fresh := rfl
@[simp] theorem State.hold_nextPkt : (s.hold i pt).nextPkt = s.nextPkt := rfl
@[simp] theorem State.hold_hbm : (s.hold i pt).hbm = s.hbm := rfl
@[simp] theorem State.hold_ports : (s.hold i pt).ports = s.ports := rfl
@[simp] theorem State.hold_kports : (s.hold i pt).kports = s.kports := rfl
@[simp] theorem State.hold_intake : (s.hold i pt).intake = s.intake := rfl
@[simp] theorem State.hold_host : (s.hold i pt).host = s.host := rfl
@[simp] theorem State.hold_chart : (s.hold i pt).chart = s.chart := rfl
@[simp] theorem State.hold_canal : (s.hold i pt).canal = s.canal := rfl
@[simp] theorem State.hold_canalSig : (s.hold i pt).canalSig = s.canalSig := rfl
@[simp] theorem State.hold_net : (s.hold i pt).net = s.net := rfl
@[simp] theorem State.hold_errands : (s.hold i pt).errands = s.errands := rfl
@[simp] theorem State.hold_aborts : (s.hold i pt).aborts = s.aborts := rfl
@[simp] theorem State.hold_ltpos : (s.hold i pt).ltpos = s.ltpos := rfl
@[simp] theorem State.hold_pcfg : (s.hold i pt).pcfg = s.pcfg := rfl
@[simp] theorem State.hold_epoch : (s.hold i pt).epoch = s.epoch := rfl
@[simp] theorem State.hold_clocks : (s.hold i pt).clocks = s.clocks := rfl
@[simp] theorem State.hold_tsrc : (s.hold i pt).tsrc = s.tsrc := rfl
@[simp] theorem State.hold_reaches : (s.hold i pt).reaches = s.reaches := rfl
@[simp] theorem State.hold_power : (s.hold i pt).power = s.power := rfl
@[simp] theorem State.hold_therm : (s.hold i pt).therm = s.therm := rfl
@[simp] theorem State.hold_repair : (s.hold i pt).repair = s.repair := rfl
@[simp] theorem State.hold_lkh : (s.hold i pt).lkh = s.lkh := rfl
@[simp] theorem State.hold_log : (s.hold i pt).log = s.log := rfl
@[simp] theorem State.hold_sec : (s.hold i pt).sec = s.sec := rfl
@[simp] theorem State.hold_pins : (s.hold i pt).pins = s.pins := rfl
end

/-! ### Tiles -/

section
variable (s : State) (p q : Pos)

@[simp] theorem State.tile_modTile (f : Tile → Tile) : (s.modTile p f).tile p = f (s.tile p) := by
  simp [State.tile, State.modTile, vmod]
theorem State.tile_modTile_ne (f : Tile → Tile) (h : q ≠ p) : (s.modTile p f).tile q = s.tile q := by
  have h' : p.val ≠ q.val := fun e => h (Fin.ext e.symm)
  simp [State.tile, State.modTile, vmod, h']
theorem State.core_eq : s.core p = (s.tile p).core := rfl
theorem State.ut_eq : s.ut p = (s.tile p).ut := rfl
@[simp] theorem State.core_modTile (f : Tile → Tile) : (s.modTile p f).core p = (f (s.tile p)).core := by
  rw [State.core_eq, State.tile_modTile]
@[simp] theorem State.ut_modTile (f : Tile → Tile) : (s.modTile p f).ut p = (f (s.tile p)).ut := by
  rw [State.ut_eq, State.tile_modTile]
@[simp] theorem State.core_modCore (f : Core → Core) : (s.modCore p f).core p = f (s.core p) := by
  simp [State.modCore, State.core_eq]
@[simp] theorem State.ut_modCore (f : Core → Core) : (s.modCore p f).ut q = s.ut q := by
  by_cases h : q = p
  · subst h; simp [State.modCore, State.ut_eq]
  · rw [State.ut_eq, State.modCore, State.tile_modTile_ne _ _ _ _ h, State.ut_eq]
theorem State.core_modCore_ne (f : Core → Core) (h : q ≠ p) : (s.modCore p f).core q = s.core q := by
  rw [State.core_eq, State.modCore, State.tile_modTile_ne _ _ _ _ h, State.core_eq]
@[simp] theorem State.ut_modUt (f : UnderTile → UnderTile) : (s.modUt p f).ut p = f (s.ut p) := by
  simp [State.modUt, State.ut_eq]
@[simp] theorem State.core_modUt (f : UnderTile → UnderTile) : (s.modUt p f).core q = s.core q := by
  by_cases h : q = p
  · subst h; simp [State.modUt, State.core_eq]
  · rw [State.core_eq, State.modUt, State.tile_modTile_ne _ _ _ _ h, State.core_eq]
theorem State.ut_modUt_ne (f : UnderTile → UnderTile) (h : q ≠ p) : (s.modUt p f).ut q = s.ut q := by
  rw [State.ut_eq, State.modUt, State.tile_modTile_ne _ _ _ _ h, State.ut_eq]
@[simp] theorem State.tile_allTiles (f : Pos → Tile → Tile) : (s.allTiles f).tile p = f p (s.tile p) := by
  simp [State.tile, State.allTiles]
/-- An update of one tile leaves everything but the tiles. -/
theorem State.modTile_rest (f : Tile → Tile) : { s.modTile p f with tiles := s.tiles } = s := rfl

end

/-! ### Contexts and writes in flight -/

section
variable (c : Core) (x y : Ctx)

@[simp] theorem Core.ctx_modCtx (f : CtxState → CtxState) : (c.modCtx x f).ctx x = f (c.ctx x) := by cases x <;> rfl
theorem Core.ctx_modCtx_ne (f : CtxState → CtxState) (h : y ≠ x) : (c.modCtx x f).ctx y = c.ctx y := by
  cases x <;> cases y <;> first | rfl | exact absurd rfl h

@[simp] theorem Core.modCtx_vMain (f : CtxState → CtxState) : (c.modCtx x f).vMain = c.vMain := by cases x <;> rfl
@[simp] theorem Core.modCtx_vHand (f : CtxState → CtxState) : (c.modCtx x f).vHand = c.vHand := by cases x <;> rfl
@[simp] theorem Core.modCtx_vTow (f : CtxState → CtxState) : (c.modCtx x f).vTow = c.vTow := by cases x <;> rfl
@[simp] theorem Core.modCtx_pend (f : CtxState → CtxState) : (c.modCtx x f).pend = c.pend := by cases x <;> rfl
@[simp] theorem Core.modCtx_ctl (f : CtxState → CtxState) : (c.modCtx x f).ctl = c.ctl := by cases x <;> rfl
@[simp] theorem Core.modCtx_img (f : CtxState → CtxState) : (c.modCtx x f).img = c.img := by cases x <;> rfl
@[simp] theorem Core.modCtx_mat (f : CtxState → CtxState) : (c.modCtx x f).mat = c.mat := by cases x <;> rfl
@[simp] theorem Core.modCtx_spd (f : CtxState → CtxState) : (c.modCtx x f).spd = c.spd := by cases x <;> rfl
@[simp] theorem Core.modCtx_mov (f : CtxState → CtxState) : (c.modCtx x f).mov = c.mov := by cases x <;> rfl
@[simp] theorem Core.modCtx_desc (f : CtxState → CtxState) : (c.modCtx x f).desc = c.desc := by cases x <;> rfl

@[simp] theorem Core.later_main (due : Nat) (d : RegDst) : (c.later due d).main = c.main := rfl
@[simp] theorem Core.later_hand (due : Nat) (d : RegDst) : (c.later due d).hand = c.hand := rfl
@[simp] theorem Core.later_tow (due : Nat) (d : RegDst) : (c.later due d).tow = c.tow := rfl
@[simp] theorem Core.later_dbg (due : Nat) (d : RegDst) : (c.later due d).dbg = c.dbg := rfl
@[simp] theorem Core.later_vMain (due : Nat) (d : RegDst) : (c.later due d).vMain = c.vMain := rfl
@[simp] theorem Core.later_vHand (due : Nat) (d : RegDst) : (c.later due d).vHand = c.vHand := rfl
@[simp] theorem Core.later_vTow (due : Nat) (d : RegDst) : (c.later due d).vTow = c.vTow := rfl
@[simp] theorem Core.later_ctl (due : Nat) (d : RegDst) : (c.later due d).ctl = c.ctl := rfl
@[simp] theorem Core.later_img (due : Nat) (d : RegDst) : (c.later due d).img = c.img := rfl
@[simp] theorem Core.later_mat (due : Nat) (d : RegDst) : (c.later due d).mat = c.mat := rfl
@[simp] theorem Core.later_spd (due : Nat) (d : RegDst) : (c.later due d).spd = c.spd := rfl
@[simp] theorem Core.later_mov (due : Nat) (d : RegDst) : (c.later due d).mov = c.mov := rfl
@[simp] theorem Core.later_desc (due : Nat) (d : RegDst) : (c.later due d).desc = c.desc := rfl
@[simp] theorem Core.later_ctx (due : Nat) (d : RegDst) : (c.later due d).ctx x = c.ctx x := by cases x <;> rfl
@[simp] theorem Core.later_readS (due : Nat) (d : RegDst) (r : Nat) : (c.later due d).readS x r = c.readS x r := by cases x <;> rfl
@[simp] theorem Core.later_readA (due : Nat) (d : RegDst) (r : Nat) : (c.later due d).readA x r = c.readA x r := by cases x <;> rfl
@[simp] theorem Core.later_readP (due : Nat) (d : RegDst) (r : Nat) : (c.later due d).readP x r = c.readP x r := by cases x <;> rfl
@[simp] theorem Core.later_readV (due : Nat) (d : RegDst) (r : Nat) : (c.later due d).readV x r = c.readV x r := by cases x <;> rfl
/-- P0 reads as 1 in every context. -/
@[simp] theorem Core.readP_zero : c.readP x 0 = true := rfl

end

/-- An effect that enters a result leaves the state outside the issuing tile, and that tile's under-tile. -/
theorem State.later_frame (s : State) (i : Issue) (lat : Nat) (d : RegDst) :
    { s.later i lat d with tiles := s.tiles } = s ∧ (∀ q, q ≠ i.pos → (s.later i lat d).tile q = s.tile q) ∧
      (s.later i lat d).ut i.pos = s.ut i.pos ∧ (s.later i lat d).core i.pos = (s.core i.pos).later (i.cc + lat) d :=
  ⟨rfl, fun _ h => State.tile_modTile_ne _ _ _ _ h, by simp [State.later], by simp [State.later]⟩

end Sys2Proof.Machine
end

