-- ==== Sys2Proof/Laws/Issue.lean ====
section
/-! SUPPORT. The issue of a slot: what a slot command does when its bundle issues, when it does not, and the test `issues`. -/

set_option Elab.async false

namespace Sys2Proof.Machine

open Sys2Proof

/-- A slot command whose bundle issues with a true guard is its effect on the state the issue leaves. -/
theorem slotCmd_issues {k : SlotK} {op : Nat} {i : Issue} {s t : State} (h : Issues k op i s t) (al : Bool) (eff : Issue → State → State) :
    slotCmd k op al eff i s = eff i t := by
  obtain ⟨h1, h2, h3⟩ := h
  simp [slotCmd, h1, h2, h3]

/-- Under a false guard only an instruction that never skips has its effect (R117). -/
theorem slotCmd_guard_false {k : SlotK} {op : Nat} {i : Issue} {s t : State} (h1 : slotValid i.bundle k = true)
    (h2 : opcode (slotWord i.bundle k) = op) (h3 : openSlot s i k = .ready t false) (al : Bool) (eff : Issue → State → State) :
    slotCmd k op al eff i s = if al then eff i t else t := by
  simp [slotCmd, h1, h2, h3]

/-- A bundle that faults or stalls leaves the state that the fault or the stall leaves. -/
theorem slotCmd_ended {k : SlotK} {op : Nat} {i : Issue} {s t : State} (h1 : slotValid i.bundle k = true)
    (h2 : opcode (slotWord i.bundle k) = op) (h3 : openSlot s i k = .ended t) (al : Bool) (eff : Issue → State → State) :
    slotCmd k op al eff i s = t := by
  simp [slotCmd, h1, h2, h3]

/-- A bundle that the context does not issue now changes nothing. -/
theorem slotCmd_closed {k : SlotK} {op : Nat} {i : Issue} {s : State} (h3 : openSlot s i k = .closed) (al : Bool) (eff : Issue → State → State) :
    slotCmd k op al eff i s = s := by
  simp only [slotCmd, h3]; split <;> rfl

/-- A bundle without that instruction in the slot changes nothing. -/
theorem slotCmd_other {k : SlotK} {op : Nat} {i : Issue} {s : State} (h : slotValid i.bundle k = false ∨ opcode (slotWord i.bundle k) ≠ op) (al : Bool)
    (eff : Issue → State → State) : slotCmd k op al eff i s = s := by
  rcases h with h | h <;> simp [slotCmd, h]

/-- The test for an issue says exactly that the slot issues in some state. -/
theorem issues_iff {k : SlotK} {op : Nat} {i : Issue} {s : State} : issues k op i s = true ↔ ∃ t, Issues k op i s t := by
  simp only [issues, Issues, Bool.and_eq_true, beq_iff_eq]
  constructor
  · rintro ⟨⟨h1, h2⟩, h3⟩
    split at h3
    · next t r he => subst h3; exact ⟨t, h1, h2, he⟩
    · cases h3
  · rintro ⟨t, h1, h2, h3⟩
    refine ⟨⟨h1, h2⟩, ?_⟩
    rw [h3]

/-- An issue is one state at most. -/
theorem Issues.unique {k : SlotK} {op : Nat} {i : Issue} {s t u : State} (h : Issues k op i s t) (h' : Issues k op i s u) : t = u := by
  have := h.2.2.symm.trans h'.2.2
  simpa using this

end Sys2Proof.Machine
end

