-- ==== Sys2Proof/Laws/Keep.lean ====
section
/-! SUPPORT. What the operations behind the meanings keep: the queue of commands and the security state that fuses and MRAM hold. -/

set_option Elab.async false

namespace Sys2Proof.Machine

open Sys2Proof

/-- A fold of operations that keep the queue and the trusted state keeps them. -/
@[simp] theorem foldl_kept {α : Type} (g : State → α → State) (h : ∀ s a, (g s a).pending = s.pending ∧ (g s a).sec.trust = s.sec.trust)
    (l : List α) (s : State) : (l.foldl g s).pending = s.pending ∧ (l.foldl g s).sec.trust = s.sec.trust := by
  induction l generalizing s with
  | nil => simp
  | cons a l ih => simp [ih, h]

/-- The trusted part does not depend on the other fields. -/
@[simp] theorem Security.trust_upd (k : Security) (a : BitVec 3) (b : Bool) (d : BitVec 32) (i p j : Bool) (l : BitVec 3) (ca : Word) (cl : BitVec 32)
    (cb : Bool) (cs : Status) (q : Bool) (n : BitVec 256) (m : Vector (Vector (BitVec 256) 8) 3) (qt : List Byte) (lc : Tbl Nat)
    (pk : Vector (Option PackageIn) 2) (u : Nat) (t : Tbl (BitVec 32)) :
    ({ k with slots := a, updating := b, pkgVersion := d, i3cLock := i, pcieLock := p, jtagLock := j, locksStored := l, certAddr := ca, certLen := cl
              certBusy := cb, certStatus := cs, quoteBusy := q, nonce := n, meas := m, quote := qt, lastCtr := lc, pkgs := pk, updateStep := u
              unitPkg := t } : Security).trust = k.trust := rfl

/-- An update of the other fields keeps the queue and the trusted state. -/
theorem State.upd_kept (s : State) (now lastTick fresh nextPkt : Nat) (tiles : Vector Tile 144) (hbm : Vector Stack 24) (ports : Vector Port 18)
    (kports : Vector KclPort 2) (intake : Intake) (host : Mem) (chart : Chart) (canal : Tbl Chamber) (canalSig : Tbl Nat) (net : List Packet)
    (errands : List Errand) (aborts : List AbortReq) (ltpos : Vector LtPos 120) (pcfg : PoundCfg) (epoch : Epoch) (clocks : Clocks)
    (tsrc : TimeSrc) (reaches : Vector Reach 24) (power : PanelPower) (therm : Thermal) (repair : Repair) (lkh : Lkh) (log : Logbook) (pins : Pins) :
    (State.mk s.pending now lastTick fresh nextPkt tiles hbm ports kports intake host chart canal
      canalSig net errands aborts ltpos pcfg epoch clocks tsrc reaches power therm repair lkh log s.sec pins).pending = s.pending ∧
    (State.mk s.pending now lastTick fresh nextPkt tiles hbm ports kports intake host chart canal
      canalSig net errands aborts ltpos pcfg epoch clocks tsrc reaches power therm repair lkh log s.sec pins).sec.trust = s.sec.trust := ⟨rfl, rfl⟩
theorem pair_kept {α : Type} {s s1 : State} {x : State × α} {o : α} (h : x.1.pending = s.pending ∧ x.1.sec.trust = s.sec.trust) (e : x = (s1, o)) :
    s1.pending = s.pending ∧ s1.sec.trust = s.sec.trust := by subst e; exact h
/-- A fold whose every operation keeps the queue and the trusted state, started from a state with both as in s. -/
theorem fold_kept {α : Type} {g : State → α → State} {l : List α} {s0 s : State}
    (h : ∀ s a, (g s a).pending = s.pending ∧ (g s a).sec.trust = s.sec.trust)
    (h0 : s0.pending = s.pending ∧ s0.sec.trust = s.sec.trust) : (l.foldl g s0).pending = s.pending ∧ (l.foldl g s0).sec.trust = s.sec.trust := by
  rw [(foldl_kept g h l s0).1, (foldl_kept g h l s0).2]; exact h0
theorem kept_trans {s t u : State} (a : t.pending = s.pending ∧ t.sec.trust = s.sec.trust) (b : u.pending = t.pending ∧ u.sec.trust = t.sec.trust) :
    u.pending = s.pending ∧ u.sec.trust = s.sec.trust := ⟨b.1.trans a.1, b.2.trans a.2⟩
@[simp] theorem State.eachPos_kept (s : State) (x1 : List Pos) (x2 : Pos → State → State) (hx2 : ∀ y0 y1, (x2 y0 y1).pending = y1.pending ∧ (x2 y0 y1).sec.trust = y1.sec.trust) : (State.eachPos s x1 x2).pending = s.pending ∧ (State.eachPos s x1 x2).sec.trust = s.sec.trust := by
  simp only [State.eachPos]; repeat' split
  all_goals simp [*]
@[simp] theorem State.slewed_kept (s : State) : (State.slewed s).pending = s.pending ∧ (State.slewed s).sec.trust = s.sec.trust := by
  simp [State.slewed]
@[simp] theorem State.report_kept (s : State) (x1 : AbortReq) : (State.report s x1).pending = s.pending ∧ (State.report s x1).sec.trust = s.sec.trust := by
  unfold State.report; repeat' split
  all_goals simp
@[simp] theorem State.askAbort_kept (s : State) (x1 : Nat) (x2 : Cause) (x3 : BitVec 7) : (State.askAbort s x1 x2 x3).pending = s.pending ∧ (State.askAbort s x1 x2 x3).sec.trust = s.sec.trust := by
  simp [State.askAbort]
@[simp] theorem State.tellRepair_kept (s : State) (x1 : RepairEvent) : (State.tellRepair s x1).pending = s.pending ∧ (State.tellRepair s x1).sec.trust = s.sec.trust := by
  unfold State.tellRepair; split <;> simp
@[simp] theorem State.tellLt_kept (s : State) (x1 : Pos) (x2 : Lt → RepairEvent) : (State.tellLt s x1 x2).pending = s.pending ∧ (State.tellLt s x1 x2).sec.trust = s.sec.trust := by
  unfold State.tellLt; split <;> simp
@[simp] theorem State.faultAbort_kept (s : State) (x1 : Pos) (x2 : Ctx) (x3 : BitVec 14) (x4 : CoreFault) : (State.faultAbort s x1 x2 x3 x4).pending = s.pending ∧ (State.faultAbort s x1 x2 x3 x4).sec.trust = s.sec.trust := by
  unfold State.faultAbort; split <;> simp
@[simp] theorem State.abortAt_kept (s : State) (x1 : Pos) (x2 : Cause) : (State.abortAt s x1 x2).pending = s.pending ∧ (State.abortAt s x1 x2).sec.trust = s.sec.trust := by
  unfold State.abortAt; split <;> simp
@[simp] theorem State.slipNoted_kept (s : State) (x1 : Pos) (x2 : Pos) : (State.slipNoted s x1 x2).pending = s.pending ∧ (State.slipNoted s x1 x2).sec.trust = s.sec.trust := by
  unfold State.slipNoted; dsimp only; repeat' split
  all_goals simp
@[simp] theorem State.slip_kept (s : State) (x1 : Pos) (x2 : Fin 4) : (State.slip s x1 x2).pending = s.pending ∧ (State.slip s x1 x2).sec.trust = s.sec.trust := by
  simp [State.slip]
@[simp] theorem State.slipSpare_kept (s : State) (x1 : Pos) (x2 : Fin 5) : (State.slipSpare s x1 x2).pending = s.pending ∧ (State.slipSpare s x1 x2).sec.trust = s.sec.trust := by
  simp [State.slipSpare]
@[simp] theorem State.fault_kept (s : State) (x1 : Pos) (x2 : Ctx) (x3 : BitVec 14) (x4 : BitVec 4) (x5 : CoreFault) : (State.fault s x1 x2 x3 x4 x5).pending = s.pending ∧ (State.fault s x1 x2 x3 x4 x5).sec.trust = s.sec.trust := by
  unfold State.fault; dsimp only; repeat' split
  all_goals simp
@[simp] theorem State.publish_kept (s : State) (x1 : Nat) (x2 : Bool) : (State.publish s x1 x2).pending = s.pending ∧ (State.publish s x1 x2).sec.trust = s.sec.trust := by
  simp [State.publish]
@[simp] theorem State.signalCanal_kept (s : State) (x1 : Nat) (x2 : Nat) : (State.signalCanal s x1 x2).pending = s.pending ∧ (State.signalCanal s x1 x2).sec.trust = s.sec.trust := by
  unfold State.signalCanal; dsimp only; repeat' split
  all_goals simp
@[simp] theorem State.armCanal_kept (s : State) (x1 : Nat) (x2 : BitVec 32) : (State.armCanal s x1 x2).pending = s.pending ∧ (State.armCanal s x1 x2).sec.trust = s.sec.trust := by
  simp [State.armCanal]
@[simp] theorem State.movePacket_kept (s : State) (x1 : Nat) (x2 : Packet → Packet) : (State.movePacket s x1 x2).pending = s.pending ∧ (State.movePacket s x1 x2).sec.trust = s.sec.trust := by
  simp [State.movePacket]
@[simp] theorem State.ask_kept (s : State) (x1 : Pos) (x2 : Packet) : (State.ask s x1 x2).pending = s.pending ∧ (State.ask s x1 x2).sec.trust = s.sec.trust := by
  simp [State.ask]
@[simp] theorem State.emitAll_kept (s : State) (x1 : List Packet) : (State.emitAll s x1).pending = s.pending ∧ (State.emitAll s x1).sec.trust = s.sec.trust := by
  simp [State.emitAll]
@[simp] theorem State.reply_kept (s : State) (x1 : Pos) (x2 : Packet) (x3 : Status) (x4 : List Byte) : (State.reply s x1 x2 x3 x4).pending = s.pending ∧ (State.reply s x1 x2 x3 x4).sec.trust = s.sec.trust := by
  simp [State.reply]
@[simp] theorem State.replyFrom_kept (s : State) (x1 : Pos) (x2 : Packet) (x3 : Nat) (x4 : Status) (x5 : List Byte) : (State.replyFrom s x1 x2 x3 x4 x5).pending = s.pending ∧ (State.replyFrom s x1 x2 x3 x4 x5).sec.trust = s.sec.trust := by
  simp [State.replyFrom]
@[simp] theorem State.replyCanal_kept (s : State) (x1 : Fin 5) (x2 : Packet) (x3 : Status) (x4 : List Byte) : (State.replyCanal s x1 x2 x3 x4).pending = s.pending ∧ (State.replyCanal s x1 x2 x3 x4).sec.trust = s.sec.trust := by
  simp [State.replyCanal]
@[simp] theorem State.signalCh_kept (s : State) (x1 : Pos) (x2 : Option (Bool × BitVec 13)) : (State.signalCh s x1 x2).pending = s.pending ∧ (State.signalCh s x1 x2).sec.trust = s.sec.trust := by
  unfold State.signalCh; split <;> simp
@[simp] theorem State.endAtIssue_kept (s : State) (x1 : Pos) (x2 : Fin 64) (x3 : Option (Bool × BitVec 13)) (x4 : Status) : (State.endAtIssue s x1 x2 x3 x4).pending = s.pending ∧ (State.endAtIssue s x1 x2 x3 x4).sec.trust = s.sec.trust := by
  simp [State.endAtIssue]
@[simp] theorem State.freeWord_kept (s : State) : (State.freeWord s).2.pending = s.pending ∧ (State.freeWord s).2.sec.trust = s.sec.trust := by
  simp [State.freeWord]
@[simp] theorem State.fetch_kept (s : State) (x1 : Pos) (x2 : Nat) : (State.fetch s x1 x2).pending = s.pending ∧ (State.fetch s x1 x2).sec.trust = s.sec.trust := by
  unfold State.fetch; dsimp only; repeat' split
  all_goals simp
@[simp] theorem State.run_kept (s : State) (x1 : Pos) (x2 : Nat) : (State.run s x1 x2).pending = s.pending ∧ (State.run s x1 x2).sec.trust = s.sec.trust := by
  simp [State.run]
@[simp] theorem State.stopEdge_kept (s : State) (x1 : Pos) (x2 : Nat) : (State.stopEdge s x1 x2).pending = s.pending ∧ (State.stopEdge s x1 x2).sec.trust = s.sec.trust := by
  simp [State.stopEdge]
@[simp] theorem State.yieldHand_kept (s : State) (x1 : Pos) (x2 : Nat) : (State.yieldHand s x1 x2).pending = s.pending ∧ (State.yieldHand s x1 x2).sec.trust = s.sec.trust := by
  unfold State.yieldHand; dsimp only; repeat' split
  all_goals simp
@[simp] theorem State.arriveAt_kept (s : State) (x1 : Pos) (x2 : Ctx) (x3 : CtxState) (x4 : Nat) : (State.arriveAt s x1 x2 x3 x4).pending = s.pending ∧ (State.arriveAt s x1 x2 x3 x4).sec.trust = s.sec.trust := by
  simp [State.arriveAt]
theorem openBundle_ended {s : State} {i : Issue} {k : SlotK} {cs : CtxState} {n : Nat} {t : State} (h : openBundle s i k cs n = .ended t) :
    t.pending = s.pending ∧ t.sec.trust = s.sec.trust := by
  unfold openBundle openedSlot at h
  dsimp only at h
  repeat' split at h
  all_goals first | (cases h; simp) | (cases h)
theorem openBundle_ready {s : State} {i : Issue} {k : SlotK} {cs : CtxState} {n : Nat} {t : State} {g : Bool}
    (h : openBundle s i k cs n = .ready t g) : t.pending = s.pending ∧ t.sec.trust = s.sec.trust := by
  unfold openBundle openedSlot at h
  dsimp only at h
  repeat' split at h
  all_goals first | (cases h; simp) | (cases h)
theorem openSlot_ended {s : State} {i : Issue} {k : SlotK} {t : State} (h : openSlot s i k = .ended t) :
    t.pending = s.pending ∧ t.sec.trust = s.sec.trust := by
  unfold openSlot at h
  dsimp only at h
  repeat' split at h
  all_goals first | (cases h; simp) | (cases h) | (have := openBundle_ended h; simpa using this)
theorem openSlot_ready {s : State} {i : Issue} {k : SlotK} {t : State} {g : Bool} (h : openSlot s i k = .ready t g) :
    t.pending = s.pending ∧ t.sec.trust = s.sec.trust := by
  unfold openSlot at h
  dsimp only at h
  repeat' split at h
  all_goals first | (cases h; done) | (have := openBundle_ready h; simpa using this) | (unfold openedSlot at h; cases h; simp)
@[simp] theorem slotCmd_kept (x0 : SlotK) (x1 : Nat) (x2 : Bool) (x3 : Issue → State → State) (x4 : Issue) (s : State) (hx3 : ∀ y0 y1, (x3 y0 y1).pending = y1.pending ∧ (x3 y0 y1).sec.trust = y1.sec.trust) : (slotCmd x0 x1 x2 x3 x4 s).pending = s.pending ∧ (slotCmd x0 x1 x2 x3 x4 s).sec.trust = s.sec.trust := by
  unfold slotCmd
  repeat' split
  · simp
  · next t h => exact openSlot_ended h
  · next t g h _ => have := openSlot_ready h; simp [this, hx3]
  · next t g h _ => exact openSlot_ready h
  · simp
@[simp] theorem State.laterS_kept (s : State) (x1 : Issue) (x2 : Nat) (x3 : Nat) (x4 : Word) : (State.laterS s x1 x2 x3 x4).pending = s.pending ∧ (State.laterS s x1 x2 x3 x4).sec.trust = s.sec.trust := by
  simp [State.laterS]
@[simp] theorem State.laterA_kept (s : State) (x1 : Issue) (x2 : Nat) (x3 : Nat) (x4 : BitVec 48) : (State.laterA s x1 x2 x3 x4).pending = s.pending ∧ (State.laterA s x1 x2 x3 x4).sec.trust = s.sec.trust := by
  simp [State.laterA]
@[simp] theorem State.laterP_kept (s : State) (x1 : Issue) (x2 : Nat) (x3 : Nat) (x4 : Bool) : (State.laterP s x1 x2 x3 x4).pending = s.pending ∧ (State.laterP s x1 x2 x3 x4).sec.trust = s.sec.trust := by
  simp [State.laterP]
@[simp] theorem State.laterV_kept (s : State) (x1 : Issue) (x2 : Nat) (x3 : Nat) (x4 : VReg) (x5 : VReg) : (State.laterV s x1 x2 x3 x4 x5).pending = s.pending ∧ (State.laterV s x1 x2 x3 x4 x5).sec.trust = s.sec.trust := by
  simp [State.laterV]
@[simp] theorem State.access_kept (s : State) (x1 : Pos) (x2 : Nat) (x3 : Nat) (x4 : List (Nat × Nat)) : (State.access s x1 x2 x3 x4).1.pending = s.pending ∧ (State.access s x1 x2 x3 x4).1.sec.trust = s.sec.trust := by
  simp [State.access]
@[simp] theorem State.readRuns_kept (s : State) (x1 : Issue) (x2 : SlotK) (x3 : Nat) (x4 : Nat) (x5 : List (Nat × Nat)) : (State.readRuns s x1 x2 x3 x4 x5).1.pending = s.pending ∧ (State.readRuns s x1 x2 x3 x4 x5).1.sec.trust = s.sec.trust := by
  unfold State.readRuns; dsimp only; repeat' split
  all_goals simp
@[simp] theorem State.readSpd_kept (s : State) (x1 : Issue) (x2 : SlotK) (x3 : Nat) (x4 : Nat) (x5 : Nat) (x6 : Nat) : (State.readSpd s x1 x2 x3 x4 x5 x6).1.pending = s.pending ∧ (State.readSpd s x1 x2 x3 x4 x5 x6).1.sec.trust = s.sec.trust := by
  simp [State.readSpd]
@[simp] theorem State.mSignal_kept (s : State) (x1 : Pos) (x2 : Nat) (x3 : Option (Bool × BitVec 13)) : (State.mSignal s x1 x2 x3).pending = s.pending ∧ (State.mSignal s x1 x2 x3).sec.trust = s.sec.trust := by
  unfold State.mSignal; split <;> simp
@[simp] theorem effMconf_kept (x0 : Issue) (s : State) : (effMconf x0 s).pending = s.pending ∧ (effMconf x0 s).sec.trust = s.sec.trust := by
  unfold effMconf; split <;> simp
@[simp] theorem readTwo_kept (x0 : Issue) (x1 : Nat) (x2 : Nat) (x3 : Nat × Nat) (x4 : Nat × Nat) (s : State) : (readTwo x0 x1 x2 x3 x4 s).1.pending = s.pending ∧ (readTwo x0 x1 x2 x3 x4 s).1.sec.trust = s.sec.trust := by
  simp [readTwo]
@[simp] theorem effMload_kept (x0 : Issue) (s : State) : (effMload x0 s).pending = s.pending ∧ (effMload x0 s).sec.trust = s.sec.trust := by
  unfold effMload; dsimp only
  split
  · simp
  · split
    · next h => simpa using pair_kept (readTwo_kept _ _ _ _ _ _) h
    · next h => simpa using pair_kept (readTwo_kept _ _ _ _ _ _) h
@[simp] theorem effMstep_kept (x0 : Issue) (s : State) : (effMstep x0 s).pending = s.pending ∧ (effMstep x0 s).sec.trust = s.sec.trust := by
  unfold effMstep; dsimp only
  split
  · simp
  · split
    · next h => simpa using pair_kept (readTwo_kept _ _ _ _ _ _) h
    · next h => simpa using pair_kept (readTwo_kept _ _ _ _ _ _) h
@[simp] theorem effMdrain_kept (x0 : Issue) (s : State) : (effMdrain x0 s).pending = s.pending ∧ (effMdrain x0 s).sec.trust = s.sec.trust := by
  unfold effMdrain; dsimp only; repeat' split
  all_goals simp
@[simp] theorem effMchkv_kept (x0 : Issue) (s : State) : (effMchkv x0 s).pending = s.pending ∧ (effMchkv x0 s).sec.trust = s.sec.trust := by
  simp [effMchkv]
@[simp] theorem effMflags_kept (x0 : Issue) (s : State) : (effMflags x0 s).pending = s.pending ∧ (effMflags x0 s).sec.trust = s.sec.trust := by
  simp [effMflags]
@[simp] theorem mEffect_kept (x0 : Nat) (x1 : Issue) (s : State) : (mEffect x0 x1 s).pending = s.pending ∧ (mEffect x0 x1 s).sec.trust = s.sec.trust := by
  unfold mEffect; split <;> simp
@[simp] theorem tileEvent_kept (x0 : Pos) (x1 : Nat) (x2 : State → State) (s : State) (hx2 : ∀ y0, (x2 y0).pending = y0.pending ∧ (x2 y0).sec.trust = y0.sec.trust) : (tileEvent x0 x1 x2 s).pending = s.pending ∧ (tileEvent x0 x1 x2 s).sec.trust = s.sec.trust := by
  simp only [tileEvent]; repeat' split
  all_goals simp [*]
@[simp] theorem matComplete_kept (x0 : BitVec 8) (x1 : Pos) (x2 : Nat) (s : State) : (matComplete x0 x1 x2 s).pending = s.pending ∧ (matComplete x0 x1 x2 s).sec.trust = s.sec.trust := by
  unfold matComplete
  refine tileEvent_kept _ _ _ _ fun s => ?_
  dsimp only
  repeat' split
  all_goals simp
@[simp] theorem effPownote_kept (x0 : Issue) (s : State) : (effPownote x0 s).pending = s.pending ∧ (effPownote x0 s).sec.trust = s.sec.trust := by
  unfold effPownote; dsimp only; repeat' split
  all_goals simp
@[simp] theorem State.logFull_kept (s : State) (x1 : Bool) (x2 : BitVec 16) (x3 : Origin) (x4 : Path) (x5 : BitVec 8) (x6 : List Byte) : (State.logFull s x1 x2 x3 x4 x5 x6).pending = s.pending ∧ (State.logFull s x1 x2 x3 x4 x5 x6).sec.trust = s.sec.trust := by
  simp [State.logFull]
@[simp] theorem State.logRec_kept (s : State) (x1 : Nat) (x2 : Origin) (x3 : List Nat) : (State.logRec s x1 x2 x3).pending = s.pending ∧ (State.logRec s x1 x2 x3).sec.trust = s.sec.trust := by
  simp [State.logRec]
@[simp] theorem State.logPath_kept (s : State) (x1 : Nat) (x2 : Origin) (x3 : Path) (x4 : List Nat) : (State.logPath s x1 x2 x3 x4).pending = s.pending ∧ (State.logPath s x1 x2 x3 x4).sec.trust = s.sec.trust := by
  simp [State.logPath]
@[simp] theorem State.logReg_kept (s : State) (x1 : Origin) (x2 : Path) (x3 : Nat) (x4 : Nat) (x5 : Nat) : (State.logReg s x1 x2 x3 x4 x5).pending = s.pending ∧ (State.logReg s x1 x2 x3 x4 x5).sec.trust = s.sec.trust := by
  simp [State.logReg]
@[simp] theorem State.logErr_kept (s : State) (x1 : BitVec 40) (x2 : Nat) (x3 : Nat) : (State.logErr s x1 x2 x3).pending = s.pending ∧ (State.logErr s x1 x2 x3).sec.trust = s.sec.trust := by
  simp [State.logErr]
@[simp] theorem State.failUnit_kept (s : State) (x1 : BitVec 40) (x2 : BitVec 8) : (State.failUnit s x1 x2).pending = s.pending ∧ (State.failUnit s x1 x2).sec.trust = s.sec.trust := by
  unfold State.failUnit; dsimp only; repeat' split
  all_goals simp
@[simp] theorem State.ckptRequest_kept (s : State) (x1 : Nat) : (State.ckptRequest s x1).pending = s.pending ∧ (State.ckptRequest s x1).sec.trust = s.sec.trust := by
  unfold State.ckptRequest; dsimp only; repeat' split
  all_goals simp
@[simp] theorem State.exportWrite_kept (s : State) (x1 : BitVec 64) : (State.exportWrite s x1).pending = s.pending ∧ (State.exportWrite s x1).sec.trust = s.sec.trust := by
  simp [State.exportWrite]
@[simp] theorem State.modChart_kept (s : State) (x1 : Chart → Chart) : (State.modChart s x1).pending = s.pending ∧ (State.modChart s x1).sec.trust = s.sec.trust := by
  simp [State.modChart]
@[simp] theorem State.modStack_kept (s : State) (x1 : StackN) (x2 : Stack → Stack) : (State.modStack s x1 x2).pending = s.pending ∧ (State.modStack s x1 x2).sec.trust = s.sec.trust := by
  simp [State.modStack]
@[simp] theorem State.lineAsk_kept (s : State) (x1 : Pos) (x2 : Bool) (x3 : StackN) (x4 : Nat) (x5 : HbmClass) (x6 : Option (List Byte)) (x7 : LineTag) : (State.lineAsk s x1 x2 x3 x4 x5 x6 x7).pending = s.pending ∧ (State.lineAsk s x1 x2 x3 x4 x5 x6 x7).sec.trust = s.sec.trust := by
  simp [State.lineAsk]
@[simp] theorem State.sliceError_kept (s : State) (x1 : Pos) (x2 : Nat) : (State.sliceError s x1 x2).pending = s.pending ∧ (State.sliceError s x1 x2).sec.trust = s.sec.trust := by
  unfold State.sliceError; dsimp only; repeat' split
  all_goals simp
@[simp] theorem State.evict_kept (s : State) (x1 : StackN) (x2 : Pos) (x3 : CLine) : (State.evict s x1 x2 x3).pending = s.pending ∧ (State.evict s x1 x2 x3).sec.trust = s.sec.trust := by
  unfold State.evict; dsimp only; repeat' split
  all_goals simp
@[simp] theorem State.sliceFill_kept (s : State) (x1 : StackN) (x2 : Pos) (x3 : CLine) : (State.sliceFill s x1 x2 x3).pending = s.pending ∧ (State.sliceFill s x1 x2 x3).sec.trust = s.sec.trust := by
  unfold State.sliceFill; dsimp only; repeat' split
  all_goals simp
@[simp] theorem State.writeBack_kept (s : State) (x1 : StackN) (x2 : CLine) : (State.writeBack s x1 x2).pending = s.pending ∧ (State.writeBack s x1 x2).sec.trust = s.sec.trust := by
  unfold State.writeBack; split <;> simp
@[simp] theorem State.sliceRead_kept (s : State) (x1 : StackN) (x2 : Pos) (x3 : Nat) : (State.sliceRead s x1 x2 x3).1.pending = s.pending ∧ (State.sliceRead s x1 x2 x3).1.sec.trust = s.sec.trust := by
  unfold State.sliceRead; dsimp only; repeat' split
  all_goals simp
@[simp] theorem State.lineGet_kept (s : State) (x1 : StackN) (x2 : Nat) : (State.lineGet s x1 x2).1.pending = s.pending ∧ (State.lineGet s x1 x2).1.sec.trust = s.sec.trust := by
  unfold State.lineGet
  split
  · simp
  · split
    · next h => simpa using pair_kept (State.sliceRead_kept _ _ _ _) h
    · next h =>
      have hk := pair_kept (State.sliceRead_kept _ _ _ _) h
      dsimp only
      split <;> simp [hk]
@[simp] theorem State.linePut_kept (s : State) (x1 : StackN) (x2 : Nat) (x3 : List Byte) : (State.linePut s x1 x2 x3).pending = s.pending ∧ (State.linePut s x1 x2 x3).sec.trust = s.sec.trust := by
  unfold State.linePut; split <;> simp
@[simp] theorem State.putEntry_kept (s : State) (x1 : Nat) (x2 : Word) : (State.putEntry s x1 x2).pending = s.pending ∧ (State.putEntry s x1 x2).sec.trust = s.sec.trust := by
  unfold State.putEntry; dsimp only; repeat' split
  all_goals simp
@[simp] theorem State.sendCount_kept (s : State) (x1 : Pos) (x2 : Nat) (x3 : Nat) : (State.sendCount s x1 x2 x3).pending = s.pending ∧ (State.sendCount s x1 x2 x3).sec.trust = s.sec.trust := by
  unfold State.sendCount; dsimp only; repeat' split
  all_goals simp
@[simp] theorem State.chartDrop_kept (s : State) (x1 : Pos) (x2 : BitVec 25) : (State.chartDrop s x1 x2).pending = s.pending ∧ (State.chartDrop s x1 x2).sec.trust = s.sec.trust := by
  simp [State.chartDrop]
@[simp] theorem State.askChart_kept (s : State) (x1 : Pos) (x2 : List Nat) : (State.askChart s x1 x2).pending = s.pending ∧ (State.askChart s x1 x2).sec.trust = s.sec.trust := by
  unfold State.askChart
  refine foldl_kept _ (fun s a => ?_) _ _
  dsimp only
  repeat' split
  all_goals simp
@[simp] theorem State.chartFill_kept (s : State) (x1 : Pos) (x2 : BitVec 25) (x3 : List Byte) : (State.chartFill s x1 x2 x3).pending = s.pending ∧ (State.chartFill s x1 x2 x3).sec.trust = s.sec.trust := by
  simp [State.chartFill]
@[simp] theorem State.hostWrite_kept (s : State) (x1 : Nat) (x2 : List Byte) : (State.hostWrite s x1 x2).pending = s.pending ∧ (State.hostWrite s x1 x2).sec.trust = s.sec.trust := by
  simp [State.hostWrite]
@[simp] theorem State.takeFrame_kept (s : State) : (State.takeFrame s).pending = s.pending ∧ (State.takeFrame s).sec.trust = s.sec.trust := by
  simp [State.takeFrame]
@[simp] theorem State.snoop_kept (s : State) (x1 : Nat) : (State.snoop s x1).pending = s.pending ∧ (State.snoop s x1).sec.trust = s.sec.trust := by
  unfold State.snoop; split <;> simp
@[simp] theorem State.grant_kept (s : State) (x1 : Nat) (x2 : Bool) : (State.grant s x1 x2).pending = s.pending ∧ (State.grant s x1 x2).sec.trust = s.sec.trust := by
  simp [State.grant]
@[simp] theorem State.dropErrand_kept (s : State) (x1 : Nat) : (State.dropErrand s x1).pending = s.pending ∧ (State.dropErrand s x1).sec.trust = s.sec.trust := by
  simp [State.dropErrand]
@[simp] theorem State.grantFor_kept (s : State) (x1 : Packet) : (State.grantFor s x1).pending = s.pending ∧ (State.grantFor s x1).sec.trust = s.sec.trust := by
  unfold State.grantFor; split <;> simp
@[simp] theorem State.errandStart_kept (s : State) (x1 : Option Pos) (x2 : Work) (x3 : List (Nat × Packet)) : (State.errandStart s x1 x2 x3).pending = s.pending ∧ (State.errandStart s x1 x2 x3).sec.trust = s.sec.trust := by
  unfold State.errandStart; split <;> simp
@[simp] theorem State.modOp_kept (s : State) (x1 : Pos) (x2 : Nat) (x3 : MoveOp → MoveOp) : (State.modOp s x1 x2 x3).pending = s.pending ∧ (State.modOp s x1 x2 x3).sec.trust = s.sec.trust := by
  simp [State.modOp]
@[simp] theorem State.inject_kept (s : State) (x1 : Pos) (x2 : Packet) : (State.inject s x1 x2).pending = s.pending ∧ (State.inject s x1 x2).sec.trust = s.sec.trust := by
  unfold State.inject; dsimp only; repeat' split
  all_goals simp
@[simp] theorem State.injectAll_kept (s : State) (x1 : Pos) (x2 : List Packet) : (State.injectAll s x1 x2).pending = s.pending ∧ (State.injectAll s x1 x2).sec.trust = s.sec.trust := by
  simp [State.injectAll]
@[simp] theorem State.late_kept (s : State) (x1 : Pos) : (State.late s x1).pending = s.pending ∧ (State.late s x1).sec.trust = s.sec.trust := by
  simp [State.late]
@[simp] theorem State.settleLoose_kept (s : State) (x1 : Pos) (x2 : Nat) : (State.settleLoose s x1 x2).pending = s.pending ∧ (State.settleLoose s x1 x2).sec.trust = s.sec.trust := by
  unfold State.settleLoose; split <;> simp
@[simp] theorem withSlot_kept (x0 : Issue) (s : State) (x2 : State → State) (hx2 : ∀ y0, (x2 y0).pending = y0.pending ∧ (x2 y0).sec.trust = y0.sec.trust) : (withSlot x0 s x2).pending = s.pending ∧ (withSlot x0 s x2).sec.trust = s.sec.trust := by
  simp only [withSlot]; repeat' split
  all_goals simp [*]
@[simp] theorem State.xEnd_kept (s : State) (x1 : Issue) (x2 : Status) : (State.xEnd s x1 x2).pending = s.pending ∧ (State.xEnd s x1 x2).sec.trust = s.sec.trust := by
  simp [State.xEnd]
@[simp] theorem State.xStart_kept (s : State) (x1 : Issue) (x2 : MoveKind) (x3 : MoveOp → MoveOp) : (State.xStart s x1 x2 x3).pending = s.pending ∧ (State.xStart s x1 x2 x3).sec.trust = s.sec.trust := by
  simp [State.xStart]
@[simp] theorem State.xDesc_kept (s : State) (x1 : Issue) : (State.xDesc s x1).1.pending = s.pending ∧ (State.xDesc s x1).1.sec.trust = s.sec.trust := by
  simp [State.xDesc]
@[simp] theorem effSwait_kept (x0 : Issue) (s : State) : (effSwait x0 s).pending = s.pending ∧ (effSwait x0 s).sec.trust = s.sec.trust := by
  simp [effSwait]
@[simp] theorem effStest_kept (x0 : Issue) (s : State) : (effStest x0 s).pending = s.pending ∧ (effStest x0 s).sec.trust = s.sec.trust := by
  simp [effStest]
@[simp] theorem effStrm_kept (x0 : Issue) (s : State) : (effStrm x0 s).pending = s.pending ∧ (effStrm x0 s).sec.trust = s.sec.trust := by
  unfold effStrm
  refine withSlot_kept _ _ _ fun s => ?_
  dsimp only
  split
  · next h => exact pair_kept (State.xDesc_kept s x0) h
  · next s1 d h =>
    have hk := pair_kept (State.xDesc_kept s x0) h
    repeat' split
    all_goals simp [hk.1, hk.2]
@[simp] theorem effRwr_kept (x0 : Issue) (s : State) : (effRwr x0 s).pending = s.pending ∧ (effRwr x0 s).sec.trust = s.sec.trust := by
  unfold effRwr
  refine withSlot_kept _ _ _ fun s => ?_
  dsimp only
  repeat' split
  all_goals simp
@[simp] theorem effRrd_kept (x0 : Issue) (s : State) : (effRrd x0 s).pending = s.pending ∧ (effRrd x0 s).sec.trust = s.sec.trust := by
  unfold effRrd
  refine withSlot_kept _ _ _ fun s => ?_
  dsimp only
  repeat' split
  all_goals simp
@[simp] theorem State.setSendStat_kept (s : State) (x1 : Pos) (x2 : Ctx) (x3 : Status) : (State.setSendStat s x1 x2 x3).pending = s.pending ∧ (State.setSendStat s x1 x2 x3).sec.trust = s.sec.trust := by
  simp [State.setSendStat]
@[simp] theorem State.modStage_kept (s : State) (x1 : Pos) (x2 : Fin 8) (x3 : Option Staged → Option Staged) : (State.modStage s x1 x2 x3).pending = s.pending ∧ (State.modStage s x1 x2 x3).sec.trust = s.sec.trust := by
  simp [State.modStage]
@[simp] theorem stageBarge_kept (x0 : Issue) (x1 : Bool) (x2 : Bool) (x3 : Fin 8) (s : State) : (stageBarge x0 x1 x2 x3 s).pending = s.pending ∧ (stageBarge x0 x1 x2 x3 s).sec.trust = s.sec.trust := by
  unfold stageBarge; dsimp only
  split
  · next h => simpa using pair_kept (State.readSpd_kept _ _ _ _ _ _ _) h
  · next h =>
    have hk := pair_kept (State.readSpd_kept _ _ _ _ _ _ _) h
    split <;> simpa using hk
@[simp] theorem sendAny_kept (x0 : Issue) (x1 : Bool) (x2 : Bool) (s : State) : (sendAny x0 x1 x2 s).pending = s.pending ∧ (sendAny x0 x1 x2 s).sec.trust = s.sec.trust := by
  unfold sendAny
  refine withSlot_kept _ _ _ fun s => ?_
  dsimp only
  repeat' split
  all_goals simp
@[simp] theorem effSend_kept (x0 : Issue) (s : State) : (effSend x0 s).pending = s.pending ∧ (effSend x0 s).sec.trust = s.sec.trust := by
  simp [effSend]
@[simp] theorem effSendn_kept (x0 : Issue) (s : State) : (effSendn x0 s).pending = s.pending ∧ (effSendn x0 s).sec.trust = s.sec.trust := by
  simp [effSendn]
@[simp] theorem effSendc_kept (x0 : Issue) (s : State) : (effSendc x0 s).pending = s.pending ∧ (effSendc x0 s).sec.trust = s.sec.trust := by
  simp [effSendc]
@[simp] theorem effRecv_kept (x0 : Issue) (s : State) : (effRecv x0 s).pending = s.pending ∧ (effRecv x0 s).sec.trust = s.sec.trust := by
  unfold effRecv; dsimp only; repeat' split
  all_goals simp
@[simp] theorem effBpop_kept (x0 : Issue) (s : State) : (effBpop x0 s).pending = s.pending ∧ (effBpop x0 s).sec.trust = s.sec.trust := by
  simp [effBpop]
@[simp] theorem State.dropInvocations_kept (s : State) (x1 : Pos) (x2 : Fin 64) : (State.dropInvocations s x1 x2).pending = s.pending ∧ (State.dropInvocations s x1 x2).sec.trust = s.sec.trust := by
  simp [State.dropInvocations]
@[simp] theorem effBopen_kept (x0 : Issue) (s : State) : (effBopen x0 s).pending = s.pending ∧ (effBopen x0 s).sec.trust = s.sec.trust := by
  unfold effBopen
  refine withSlot_kept _ _ _ fun s => ?_
  dsimp only
  split
  · next h => exact pair_kept (State.xDesc_kept s x0) h
  · next s1 d h =>
    have hk := pair_kept (State.xDesc_kept s x0) h
    repeat' split
    all_goals simp [hk.1, hk.2]
@[simp] theorem effBclose_kept (x0 : Issue) (s : State) : (effBclose x0 s).pending = s.pending ∧ (effBclose x0 s).sec.trust = s.sec.trust := by
  unfold effBclose
  refine withSlot_kept _ _ _ fun s => ?_
  dsimp only
  repeat' split
  all_goals simp
@[simp] theorem State.modWindow_kept (s : State) (x1 : Pos) (x2 : Fin 256) (x3 : Window → Window) : (State.modWindow s x1 x2 x3).pending = s.pending ∧ (State.modWindow s x1 x2 x3).sec.trust = s.sec.trust := by
  simp [State.modWindow]
@[simp] theorem effWopen_kept (x0 : Issue) (s : State) : (effWopen x0 s).pending = s.pending ∧ (effWopen x0 s).sec.trust = s.sec.trust := by
  unfold effWopen
  refine withSlot_kept _ _ _ fun s => ?_
  dsimp only
  split
  · next h => exact pair_kept (State.xDesc_kept s x0) h
  · next s1 d h =>
    have hk := pair_kept (State.xDesc_kept s x0) h
    repeat' split
    all_goals simp [hk.1, hk.2]
@[simp] theorem effWclose_kept (x0 : Issue) (s : State) : (effWclose x0 s).pending = s.pending ∧ (effWclose x0 s).sec.trust = s.sec.trust := by
  unfold effWclose
  refine withSlot_kept _ _ _ fun s => ?_
  dsimp only
  repeat' split
  all_goals simp
@[simp] theorem effCarm_kept (x0 : Issue) (s : State) : (effCarm x0 s).pending = s.pending ∧ (effCarm x0 s).sec.trust = s.sec.trust := by
  unfold effCarm; dsimp only; repeat' split
  all_goals simp
@[simp] theorem effCsig_kept (x0 : Issue) (s : State) : (effCsig x0 s).pending = s.pending ∧ (effCsig x0 s).sec.trust = s.sec.trust := by
  unfold effCsig
  refine withSlot_kept _ _ _ fun s => ?_
  dsimp only
  repeat' split
  all_goals simp
@[simp] theorem effCwait_kept (x0 : Issue) (s : State) : (effCwait x0 s).pending = s.pending ∧ (effCwait x0 s).sec.trust = s.sec.trust := by
  unfold effCwait; split <;> simp
@[simp] theorem effCtest_kept (x0 : Issue) (s : State) : (effCtest x0 s).pending = s.pending ∧ (effCtest x0 s).sec.trust = s.sec.trust := by
  simp [effCtest]
@[simp] theorem xEffect_kept (x0 : Nat) (x1 : Issue) (s : State) : (xEffect x0 x1 s).pending = s.pending ∧ (xEffect x0 x1 s).sec.trust = s.sec.trust := by
  unfold xEffect; split <;> simp
@[simp] theorem State.freeSlot_kept (s : State) (x1 : Pos) (x2 : Fin 64) (x3 : MoveOp) (x4 : Status) : (State.freeSlot s x1 x2 x3 x4).pending = s.pending ∧ (State.freeSlot s x1 x2 x3 x4).sec.trust = s.sec.trust := by
  unfold State.freeSlot; dsimp only; repeat' split
  all_goals simp
@[simp] theorem State.modStream_kept (s : State) (x1 : Pos) (x2 : Nat) (x3 : Stream → Stream) : (State.modStream s x1 x2 x3).pending = s.pending ∧ (State.modStream s x1 x2 x3).sec.trust = s.sec.trust := by
  simp [State.modStream]
@[simp] theorem State.modStg_kept (s : State) (x1 : Pos) (x2 : Staging → Staging) : (State.modStg s x1 x2).pending = s.pending ∧ (State.modStg s x1 x2).sec.trust = s.sec.trust := by
  simp [State.modStg]
@[simp] theorem State.modCht_kept (s : State) (x1 : Pos) (x2 : ChartCache → ChartCache) : (State.modCht s x1 x2).pending = s.pending ∧ (State.modCht s x1 x2).sec.trust = s.sec.trust := by
  simp [State.modCht]
@[simp] theorem withStream_kept (x0 : Pos) (x1 : Fin 64) (x2 : Nat) (x3 : Stream → State → State) (s : State) (hx3 : ∀ y0 y1, (x3 y0 y1).pending = y1.pending ∧ (x3 y0 y1).sec.trust = y1.sec.trust) : (withStream x0 x1 x2 x3 s).pending = s.pending ∧ (withStream x0 x1 x2 x3 s).sec.trust = s.sec.trust := by
  simp only [withStream]; repeat' split
  all_goals simp [*]
@[simp] theorem State.demand_kept (s : State) (x1 : BitVec 25) (x2 : Word) : (State.demand s x1 x2).pending = s.pending ∧ (State.demand s x1 x2).sec.trust = s.sec.trust := by
  unfold State.demand; repeat' split
  all_goals simp
@[simp] theorem State.pageFault_kept (s : State) (x1 : Pos) (x2 : Stream) : (State.pageFault s x1 x2).pending = s.pending ∧ (State.pageFault s x1 x2).sec.trust = s.sec.trust := by
  simp [State.pageFault]
@[simp] theorem State.enterPage_kept (s : State) (x1 : Pos) (x2 : Stream) (x3 : Word) : (State.enterPage s x1 x2 x3).pending = s.pending ∧ (State.enterPage s x1 x2 x3).sec.trust = s.sec.trust := by
  unfold State.enterPage; dsimp only; repeat' split
  all_goals simp
@[simp] theorem State.translateAhead_kept (s : State) (x1 : Pos) (x2 : Stream) : (State.translateAhead s x1 x2).pending = s.pending ∧ (State.translateAhead s x1 x2).sec.trust = s.sec.trust := by
  simp [State.translateAhead]
@[simp] theorem State.askLines_kept (s : State) (x1 : Pos) (x2 : Stream) (x3 : List Nat) : (State.askLines s x1 x2 x3).pending = s.pending ∧ (State.askLines s x1 x2 x3).sec.trust = s.sec.trust := by
  unfold State.askLines; split <;> simp
@[simp] theorem State.engine_kept (s : State) (x1 : Pos) (x2 : Nat) (x3 : Nat) (x4 : List (Nat × Nat)) : (State.engine s x1 x2 x3 x4).1.pending = s.pending ∧ (State.engine s x1 x2 x3 x4).1.sec.trust = s.sec.trust := by
  simp [State.engine]
@[simp] theorem State.land_kept (s : State) (x1 : Pos) (x2 : Nat) (x3 : Nat) (x4 : List Byte) : (State.land s x1 x2 x3 x4).pending = s.pending ∧ (State.land s x1 x2 x3 x4).sec.trust = s.sec.trust := by
  unfold State.land; split <;> simp
@[simp] theorem State.landChunks_kept (s : State) (x1 : Pos) (x2 : Nat → List Byte → RegDst) (x3 : Nat) (x4 : Nat) (x5 : Nat) (x6 : List Byte) : (State.landChunks s x1 x2 x3 x4 x5 x6).pending = s.pending ∧ (State.landChunks s x1 x2 x3 x4 x5 x6).sec.trust = s.sec.trust := by
  induction x3 generalizing s x4 x5 x6 with
  | zero => simp [State.landChunks]
  | succ n ih => unfold State.landChunks; dsimp only; rw [(ih _ _ _ _).1, (ih _ _ _ _).2]; split <;> simp
@[simp] theorem State.niWrite_kept (s : State) (x1 : Pos) (x2 : Nat) (x3 : Nat) (x4 : List Byte) (x5 : Nat → List Byte → RegDst) : (State.niWrite s x1 x2 x3 x4 x5).1.pending = s.pending ∧ (State.niWrite s x1 x2 x3 x4 x5).1.sec.trust = s.sec.trust := by
  simp [State.niWrite]
@[simp] theorem State.countLate_kept (s : State) (x1 : Pos) (x2 : Stream) (x3 : Bool) : (State.countLate s x1 x2 x3).pending = s.pending ∧ (State.countLate s x1 x2 x3).sec.trust = s.sec.trust := by
  unfold State.countLate; split <;> simp
@[simp] theorem State.releaseChunk_kept (s : State) (x1 : Pos) (x2 : Stream) (x3 : Nat) : (State.releaseChunk s x1 x2 x3).pending = s.pending ∧ (State.releaseChunk s x1 x2 x3).sec.trust = s.sec.trust := by
  simp [State.releaseChunk]
@[simp] theorem State.releaseDue_kept (x0 : Pos) (x1 : Nat) (x2 : Nat) (s : State) : (State.releaseDue x0 x1 x2 s).pending = s.pending ∧ (State.releaseDue x0 x1 x2 s).sec.trust = s.sec.trust := by
  induction x2 generalizing s with
  | zero => simp [State.releaseDue]
  | succ n ih =>
    unfold State.releaseDue
    split
    · simp [ih]
    · simp
@[simp] theorem State.streamData_kept (s : State) (x1 : Pos) (x2 : Stream) (x3 : Nat) (x4 : Packet) : (State.streamData s x1 x2 x3 x4).pending = s.pending ∧ (State.streamData s x1 x2 x3 x4).sec.trust = s.sec.trust := by
  unfold State.streamData; dsimp only; repeat' split
  all_goals simp
@[simp] theorem State.discardBad_kept (s : State) (x1 : Pos) (x2 : Packet) : (State.discardBad s x1 x2).pending = s.pending ∧ (State.discardBad s x1 x2).sec.trust = s.sec.trust := by
  simp [State.discardBad]
@[simp] theorem arrive_kept (x0 : Nat) (x1 : Nat) (x2 : Nat) (x3 : Pos → Packet → State → State) (s : State) (hx3 : ∀ y0 y1 y2, (x3 y0 y1 y2).pending = y2.pending ∧ (x3 y0 y1 y2).sec.trust = y2.sec.trust) : (arrive x0 x1 x2 x3 s).pending = s.pending ∧ (arrive x0 x1 x2 x3 s).sec.trust = s.sec.trust := by
  simp only [arrive]; repeat' split
  all_goals simp [*]
@[simp] theorem arriveMem_kept (x0 : Nat) (x1 : Nat) (x2 : Nat) (x3 : Pos → Packet → State → State) (s : State) (hx3 : ∀ y0 y1 y2, (x3 y0 y1 y2).pending = y2.pending ∧ (x3 y0 y1 y2).sec.trust = y2.sec.trust) : (arriveMem x0 x1 x2 x3 s).pending = s.pending ∧ (arriveMem x0 x1 x2 x3 s).sec.trust = s.sec.trust := by
  unfold arriveMem
  refine arrive_kept _ _ _ _ _ fun p q s => ?_
  split
  · simp
  · exact hx3 _ _ _
@[simp] theorem State.echoed_kept (s : State) (x1 : Pos) (x2 : Nat) : (State.echoed s x1 x2).pending = s.pending ∧ (State.echoed s x1 x2).sec.trust = s.sec.trust := by
  unfold State.echoed; dsimp only; repeat' split
  all_goals simp
@[simp] theorem State.takeAnswer_kept (s : State) (x1 : Pos) (x2 : Packet) (x3 : Nat) (x4 : Fin 64 → MoveOp → State → State) (hx4 : ∀ y0 y1 y2, (x4 y0 y1 y2).pending = y2.pending ∧ (x4 y0 y1 y2).sec.trust = y2.sec.trust) : (State.takeAnswer s x1 x2 x3 x4).pending = s.pending ∧ (State.takeAnswer s x1 x2 x3 x4).sec.trust = s.sec.trust := by
  simp only [State.takeAnswer]; repeat' split
  all_goals simp [*]
@[simp] theorem State.opAnswered_kept (s : State) (x1 : Pos) (x2 : Nat) (x3 : Status) : (State.opAnswered s x1 x2 x3).pending = s.pending ∧ (State.opAnswered s x1 x2 x3).sec.trust = s.sec.trust := by
  simp [State.opAnswered]
@[simp] theorem State.wrAns_kept (s : State) (x1 : Pos) (x2 : Packet) (x3 : Nat) : (State.wrAns s x1 x2 x3).pending = s.pending ∧ (State.wrAns s x1 x2 x3).sec.trust = s.sec.trust := by
  simp [State.wrAns]
@[simp] theorem State.rdData_kept (s : State) (x1 : Pos) (x2 : Packet) (x3 : Nat) : (State.rdData s x1 x2 x3).pending = s.pending ∧ (State.rdData s x1 x2 x3).sec.trust = s.sec.trust := by
  unfold State.rdData; split <;> simp
@[simp] theorem State.streamLine_kept (s : State) (x1 : Pos) (x2 : Fin 64) (x3 : Nat) (x4 : Packet) : (State.streamLine s x1 x2 x3 x4).pending = s.pending ∧ (State.streamLine s x1 x2 x3 x4).sec.trust = s.sec.trust := by
  unfold State.streamLine
  refine State.takeAnswer_kept _ _ _ _ _ fun k o s => ?_
  repeat' split
  all_goals simp
@[simp] theorem State.backDone_kept (s : State) (x1 : Pos) (x2 : Nat) (x3 : Packet) : (State.backDone s x1 x2 x3).pending = s.pending ∧ (State.backDone s x1 x2 x3).sec.trust = s.sec.trust := by
  simp [State.backDone]
@[simp] theorem State.answerContrib_kept (s : State) (x1 : Pos) (x2 : Contrib) (x3 : Status) : (State.answerContrib s x1 x2 x3).pending = s.pending ∧ (State.answerContrib s x1 x2 x3).sec.trust = s.sec.trust := by
  unfold State.answerContrib; split <;> simp
@[simp] theorem State.landEntry_kept (s : State) (x1 : Pos) (x2 : Fin 64) (x3 : Nat) (x4 : Nat) (x5 : BargeHdr) (x6 : List Byte) : (State.landEntry s x1 x2 x3 x4 x5 x6).1.pending = s.pending ∧ (State.landEntry s x1 x2 x3 x4 x5 x6).1.sec.trust = s.sec.trust := by
  simp [State.landEntry]
@[simp] theorem State.writeEntry_kept (s : State) (x1 : Pos) (x2 : Fin 64) (x3 : Nat) (x4 : Nat) (x5 : BargeHdr) (x6 : Nat) (x7 : Bool) (x8 : Nat) (x9 : List Byte) : (State.writeEntry s x1 x2 x3 x4 x5 x6 x7 x8 x9).pending = s.pending ∧ (State.writeEntry s x1 x2 x3 x4 x5 x6 x7 x8 x9).sec.trust = s.sec.trust := by
  simp [State.writeEntry]
@[simp] theorem State.deliverGroup_kept (s : State) (x1 : Pos) (x2 : Fin 64) (x3 : Group) (x4 : Bool) (x5 : Nat) (x6 : Status) : (State.deliverGroup s x1 x2 x3 x4 x5 x6).pending = s.pending ∧ (State.deliverGroup s x1 x2 x3 x4 x5 x6).sec.trust = s.sec.trust := by
  simp [State.deliverGroup]
@[simp] theorem State.partialGroup_kept (s : State) (x1 : Pos) (x2 : Fin 64) (x3 : Group) (x4 : Nat) : (State.partialGroup s x1 x2 x3 x4).pending = s.pending ∧ (State.partialGroup s x1 x2 x3 x4).sec.trust = s.sec.trust := by
  simp [State.partialGroup]
@[simp] theorem State.yieldFull_kept (s : State) (x1 : Pos) (x2 : Fin 64) (x3 : Packet) (x4 : Nat) : (State.yieldFull s x1 x2 x3 x4).pending = s.pending ∧ (State.yieldFull s x1 x2 x3 x4).sec.trust = s.sec.trust := by
  unfold State.yieldFull; dsimp only; repeat' split
  all_goals simp
@[simp] theorem State.contribute_kept (s : State) (x1 : Pos) (x2 : Fin 64) (x3 : Group) (x4 : Contrib) (x5 : Nat) : (State.contribute s x1 x2 x3 x4 x5).pending = s.pending ∧ (State.contribute s x1 x2 x3 x4 x5).sec.trust = s.sec.trust := by
  unfold State.contribute; dsimp only; repeat' split
  all_goals simp
@[simp] theorem State.wholeEntry_kept (s : State) (x1 : Pos) (x2 : Fin 64) (x3 : BEntry) (x4 : Contrib) (x5 : Nat) : (State.wholeEntry s x1 x2 x3 x4 x5).pending = s.pending ∧ (State.wholeEntry s x1 x2 x3 x4 x5).sec.trust = s.sec.trust := by
  unfold State.wholeEntry; dsimp only; repeat' split
  all_goals simp
@[simp] theorem State.wholeStray_kept (s : State) (x1 : Pos) (x2 : Fin 64) (x3 : Nat × Contrib × Status) : (State.wholeStray s x1 x2 x3).pending = s.pending ∧ (State.wholeStray s x1 x2 x3).sec.trust = s.sec.trust := by
  simp [State.wholeStray]
@[simp] theorem State.wholeLeft_kept (s : State) (x1 : Pos) (x2 : Fin 64) (x3 : Nat) (x4 : Nat) : (State.wholeLeft s x1 x2 x3 x4).pending = s.pending ∧ (State.wholeLeft s x1 x2 x3 x4).sec.trust = s.sec.trust := by
  unfold State.wholeLeft; dsimp only; repeat' split
  all_goals simp
@[simp] theorem State.bargeAnswered_kept (s : State) (x1 : Pos) (x2 : Fin 8) (x3 : Staged) (x4 : Status) (x5 : Nat) : (State.bargeAnswered s x1 x2 x3 x4 x5).pending = s.pending ∧ (State.bargeAnswered s x1 x2 x3 x4 x5).sec.trust = s.sec.trust := by
  unfold State.bargeAnswered; dsimp only; repeat' split
  all_goals simp
@[simp] theorem State.modPort_kept (s : State) (x1 : PortN) (x2 : Port → Port) : (State.modPort s x1 x2).pending = s.pending ∧ (State.modPort s x1 x2).sec.trust = s.sec.trust := by
  simp [State.modPort]
@[simp] theorem State.modCons_kept (s : State) (x1 : PortN) (x2 : Fin 256) (x3 : Consign → Consign) : (State.modCons s x1 x2 x3).pending = s.pending ∧ (State.modCons s x1 x2 x3).sec.trust = s.sec.trust := by
  simp [State.modCons]
@[simp] theorem State.logPort_kept (s : State) (x1 : PortN) (x2 : Nat) : (State.logPort s x1 x2).pending = s.pending ∧ (State.logPort s x1 x2).sec.trust = s.sec.trust := by
  simp [State.logPort]
@[simp] theorem State.sweep_kept (s : State) : (State.sweep s).pending = s.pending ∧ (State.sweep s).sec.trust = s.sec.trust := by
  simp [State.sweep]
@[simp] theorem State.portLeave_kept (s : State) (x1 : PortN) (x2 : PortState) (x3 : Status) : (State.portLeave s x1 x2 x3).pending = s.pending ∧ (State.portLeave s x1 x2 x3).sec.trust = s.sec.trust := by
  simp [State.portLeave]
@[simp] theorem State.portLost_kept (s : State) (x1 : PortN) : (State.portLost s x1).pending = s.pending ∧ (State.portLost s x1).sec.trust = s.sec.trust := by
  unfold State.portLost; split <;> simp
@[simp] theorem State.laneRemove_kept (s : State) (x1 : PortN) (x2 : Fin 16) : (State.laneRemove s x1 x2).pending = s.pending ∧ (State.laneRemove s x1 x2).sec.trust = s.sec.trust := by
  unfold State.laneRemove; dsimp only; repeat' split
  all_goals simp
@[simp] theorem State.consStop_kept (s : State) (x1 : PortN) (x2 : Fin 256) (x3 : Nat) (x4 : Status) : (State.consStop s x1 x2 x3 x4).pending = s.pending ∧ (State.consStop s x1 x2 x3 x4).sec.trust = s.sec.trust := by
  simp [State.consStop]
theorem State.begin_under {s : State} {x : PortN} {w : Work} {p : Plan} {t : State} (h : s.begin x w p = .under t) :
    t.pending = s.pending ∧ t.sec.trust = s.sec.trust := by
  unfold State.begin at h
  split at h
  · cases h; simp
  · cases h
  · cases h
theorem State.store_under {s : State} {x : PortN} {e : Fin 256} {o : Nat} {bs : List Byte} {t : State} (h : s.store x e o bs = .under t) :
    t.pending = s.pending ∧ t.sec.trust = s.sec.trust := by
  unfold State.store at h
  dsimp only at h
  repeat' split at h
  · cases h
  · exact State.begin_under h
  · exact State.begin_under h
theorem State.takeData_under {s : State} {x : PortN} {e : Fin 256} {o : Nat} {bs : List Byte} {t : State} (h : s.takeData x e o bs = .under t) :
    t.pending = s.pending ∧ t.sec.trust = s.sec.trust := by
  unfold State.takeData at h
  dsimp only at h
  split at h
  · exact State.begin_under h
  · exact State.store_under h
@[simp] theorem State.takeOne_kept (s : State) (x1 : PortN) (x2 : InFrame) : (State.takeOne s x1 x2).pending = s.pending ∧ (State.takeOne s x1 x2).sec.trust = s.sec.trust := by
  unfold State.takeOne; dsimp only
  repeat' split
  all_goals first
    | (simp; done)
    | (next h => have hk := State.takeData_under h; simp [hk])
theorem State.sendOne_some {s : State} {x : PortN} {e : Fin 256} {t : State} (h : s.sendOne x e = some t) :
    t.pending = s.pending ∧ t.sec.trust = s.sec.trust := by
  unfold State.sendOne at h
  dsimp only at h
  repeat' split at h
  all_goals first
    | (cases h; done)
    | (next hb => have hk := State.begin_under hb; cases h; simp [hk.1, hk.2])
    | (cases h; simp)
theorem State.fetchOne_some {s : State} {x : PortN} {t : State} (h : s.fetchOne x = some t) :
    t.pending = s.pending ∧ t.sec.trust = s.sec.trust := by
  unfold State.fetchOne at h
  dsimp only at h
  repeat' split at h
  all_goals first
    | (cases h; done)
    | (cases h; simp; done)
    | (next hb _ => have hk := State.begin_under hb; cases h; simp [hk.1, hk.2])
@[simp] theorem State.pumpN_kept (x0 : PortN) (x1 : Nat) (s : State) : (State.pumpN x0 x1 s).pending = s.pending ∧ (State.pumpN x0 x1 s).sec.trust = s.sec.trust := by
  induction x1 generalizing s with
  | zero => simp [State.pumpN]
  | succ n ih =>
    unfold State.pumpN
    split
    · next h =>
      obtain ⟨e, _, he⟩ := List.exists_of_findSome?_eq_some h
      rw [(ih _).1, (ih _).2]; exact State.sendOne_some he
    · split
      · next h => rw [(ih _).1, (ih _).2]; exact State.fetchOne_some h
      · simp
@[simp] theorem State.pump_kept (s : State) (x1 : PortN) : (State.pump s x1).pending = s.pending ∧ (State.pump s x1).sec.trust = s.sec.trust := by
  unfold State.pump; split <;> simp
@[simp] theorem State.pumpIdle_kept (s : State) (x1 : PortN) : (State.pumpIdle s x1).pending = s.pending ∧ (State.pumpIdle s x1).sec.trust = s.sec.trust := by
  unfold State.pumpIdle; split <;> simp
@[simp] theorem State.tryMeet_kept (s : State) (x1 : PortN) (x2 : Fin 256) : (State.tryMeet s x1 x2).pending = s.pending ∧ (State.tryMeet s x1 x2).sec.trust = s.sec.trust := by
  unfold State.tryMeet; dsimp only; repeat' split
  all_goals simp
@[simp] theorem State.fire_kept (s : State) (x1 : PortN) (x2 : Fin 256) : (State.fire s x1 x2).pending = s.pending ∧ (State.fire s x1 x2).sec.trust = s.sec.trust := by
  unfold State.fire; dsimp only; repeat' split
  all_goals simp
@[simp] theorem State.trigger_kept (s : State) (x1 : Pos) (x2 : Nat) : (State.trigger s x1 x2).pending = s.pending ∧ (State.trigger s x1 x2).sec.trust = s.sec.trust := by
  unfold State.trigger
  split
  · simp
  · refine foldl_kept _ (fun s a => ?_) _ _
    dsimp only
    split <;> simp
@[simp] theorem State.frameBack_kept (s : State) (x1 : PortN) (x2 : Fin 16) (x3 : Frame) : (State.frameBack s x1 x2 x3).pending = s.pending ∧ (State.frameBack s x1 x2 x3).sec.trust = s.sec.trust := by
  unfold State.frameBack; dsimp only; repeat' split
  all_goals simp
@[simp] theorem State.axlEnable_kept (s : State) (x1 : PortN) : (State.axlEnable s x1).pending = s.pending ∧ (State.axlEnable s x1).sec.trust = s.sec.trust := by
  simp [State.axlEnable]
@[simp] theorem State.axlDisable_kept (s : State) (x1 : PortN) : (State.axlDisable s x1).pending = s.pending ∧ (State.axlDisable s x1).sec.trust = s.sec.trust := by
  simp [State.axlDisable]
@[simp] theorem State.enterLoop_kept (s : State) (x1 : PortN) (x2 : BitVec 3) : (State.enterLoop s x1 x2).pending = s.pending ∧ (State.enterLoop s x1 x2).sec.trust = s.sec.trust := by
  simp [State.enterLoop]
@[simp] theorem State.axlLoop_kept (s : State) (x1 : PortN) (x2 : BitVec 3) (x3 : Bool) : (State.axlLoop s x1 x2 x3).pending = s.pending ∧ (State.axlLoop s x1 x2 x3).sec.trust = s.sec.trust := by
  unfold State.axlLoop; dsimp only; repeat' split
  all_goals simp
@[simp] theorem State.consSignal_kept (s : State) (x1 : PortN) (x2 : Consign) : (State.consSignal s x1 x2).pending = s.pending ∧ (State.consSignal s x1 x2).sec.trust = s.sec.trust := by
  simp [State.consSignal]
@[simp] theorem State.chainOn_kept (s : State) (x1 : PortN) (x2 : Consign) : (State.chainOn s x1 x2).pending = s.pending ∧ (State.chainOn s x1 x2).sec.trust = s.sec.trust := by
  unfold State.chainOn; dsimp only; repeat' split
  all_goals simp
@[simp] theorem State.consComplete_kept (s : State) (x1 : PortN) (x2 : Fin 256) : (State.consComplete s x1 x2).pending = s.pending ∧ (State.consComplete s x1 x2).sec.trust = s.sec.trust := by
  unfold State.consComplete; dsimp only; repeat' split
  all_goals simp
@[simp] theorem State.pumpAll_kept (s : State) : (State.pumpAll s).pending = s.pending ∧ (State.pumpAll s).sec.trust = s.sec.trust := by
  simp [State.pumpAll]
@[simp] theorem State.portWork_kept (s : State) (x1 : Errand) : (State.portWork s x1).pending = s.pending ∧ (State.portWork s x1).sec.trust = s.sec.trust := by
  unfold State.portWork; dsimp only
  repeat' split
  all_goals first
    | simp
    | (next h => have hk := State.store_under h; simp [hk])
    | (next h => have hk := State.begin_under h; simp [hk])
@[simp] theorem State.modIntake_kept (s : State) (x1 : Intake → Intake) : (State.modIntake s x1).pending = s.pending ∧ (State.modIntake s x1).sec.trust = s.sec.trust := by
  simp [State.modIntake]
@[simp] theorem State.modKport_kept (s : State) (x1 : KPort) (x2 : KclPort → KclPort) : (State.modKport s x1 x2).pending = s.pending ∧ (State.modKport s x1 x2).sec.trust = s.sec.trust := by
  simp [State.modKport]
@[simp] theorem State.tell_kept (s : State) (x1 : KclOut) : (State.tell s x1).pending = s.pending ∧ (State.tell s x1).sec.trust = s.sec.trust := by
  simp [State.tell]
@[simp] theorem State.answerLine_kept (s : State) (x1 : KPort) (x2 : BitVec 41) (x3 : Status) (x4 : List Byte) : (State.answerLine s x1 x2 x3 x4).pending = s.pending ∧ (State.answerLine s x1 x2 x3 x4).sec.trust = s.sec.trust := by
  unfold State.answerLine; split <;> simp
@[simp] theorem State.queueWaiter_kept (s : State) (x1 : Waiter) : (State.queueWaiter s x1).pending = s.pending ∧ (State.queueWaiter s x1).sec.trust = s.sec.trust := by
  simp [State.queueWaiter]
@[simp] theorem State.unqueue_kept (s : State) (x1 : Waiter) : (State.unqueue s x1).pending = s.pending ∧ (State.unqueue s x1).sec.trust = s.sec.trust := by
  simp [State.unqueue]
@[simp] theorem State.companionAsk_kept (s : State) (x1 : KPort) (x2 : Waiter) (x3 : Nat) (x4 : Option (List Byte)) : (State.companionAsk s x1 x2 x3 x4).pending = s.pending ∧ (State.companionAsk s x1 x2 x3 x4).sec.trust = s.sec.trust := by
  unfold State.companionAsk; split <;> simp
@[simp] theorem State.companion_kept (s : State) (x1 : Waiter) : (State.companion s x1).pending = s.pending ∧ (State.companion s x1).sec.trust = s.sec.trust := by
  unfold State.companion; dsimp only; repeat' split
  all_goals simp
@[simp] theorem State.settleCwin_kept (s : State) : (State.settleCwin s).pending = s.pending ∧ (State.settleCwin s).sec.trust = s.sec.trust := by
  simp [State.settleCwin]
@[simp] theorem State.wake_kept (s : State) : (State.wake s).pending = s.pending ∧ (State.wake s).sec.trust = s.sec.trust := by
  simp [State.wake]
@[simp] theorem State.kclServe_kept (s : State) (x1 : KPort) (x2 : Nat) (x3 : State → State) (hx3 : ∀ y0, (x3 y0).pending = y0.pending ∧ (x3 y0).sec.trust = y0.sec.trust) : (State.kclServe s x1 x2 x3).pending = s.pending ∧ (State.kclServe s x1 x2 x3).sec.trust = s.sec.trust := by
  simp only [State.kclServe]; repeat' split
  all_goals simp [*]
@[simp] theorem State.dropDir_kept (s : State) (x1 : Nat) : (State.dropDir s x1).pending = s.pending ∧ (State.dropDir s x1).sec.trust = s.sec.trust := by
  simp [State.dropDir]
@[simp] theorem State.dropSnoop_kept (s : State) (x1 : Nat) : (State.dropSnoop s x1).pending = s.pending ∧ (State.dropSnoop s x1).sec.trust = s.sec.trust := by
  simp [State.dropSnoop]
@[simp] theorem State.released_kept (s : State) (x1 : Nat) : (State.released s x1).pending = s.pending ∧ (State.released s x1).sec.trust = s.sec.trust := by
  simp [State.released]
@[simp] theorem State.kclWork_kept (s : State) (x1 : Errand) : (State.kclWork s x1).pending = s.pending ∧ (State.kclWork s x1).sec.trust = s.sec.trust := by
  unfold State.kclWork; dsimp only; repeat' split
  all_goals simp
@[simp] theorem State.ringRead_kept (s : State) : (State.ringRead s).pending = s.pending ∧ (State.ringRead s).sec.trust = s.sec.trust := by
  unfold State.ringRead; dsimp only; repeat' split
  all_goals simp
@[simp] theorem State.ringLine1_kept (s : State) : (State.ringLine1 s).pending = s.pending ∧ (State.ringLine1 s).sec.trust = s.sec.trust := by
  unfold State.ringLine1; split <;> simp
@[simp] theorem State.ringPass_kept (s : State) : (State.ringPass s).pending = s.pending ∧ (State.ringPass s).sec.trust = s.sec.trust := by
  simp [State.ringPass]
@[simp] theorem State.putRecord_kept (s : State) (x1 : CompRec) : (State.putRecord s x1).pending = s.pending ∧ (State.putRecord s x1).sec.trust = s.sec.trust := by
  unfold State.putRecord; dsimp only; repeat' split
  all_goals simp
@[simp] theorem State.record_kept (s : State) (x1 : CompRec) : (State.record s x1).pending = s.pending ∧ (State.record s x1).sec.trust = s.sec.trust := by
  unfold State.record; split <;> simp
@[simp] theorem State.manifestDone_kept (s : State) (x1 : BitVec 32) (x2 : Nat) (x3 : Status) (x4 : Nat) (x5 : Nat) : (State.manifestDone s x1 x2 x3 x4 x5).pending = s.pending ∧ (State.manifestDone s x1 x2 x3 x4 x5).sec.trust = s.sec.trust := by
  simp [State.manifestDone]
@[simp] theorem State.intakeDrop_kept (s : State) : (State.intakeDrop s).pending = s.pending ∧ (State.intakeDrop s).sec.trust = s.sec.trust := by
  unfold State.intakeDrop; split <;> simp
@[simp] theorem State.kclLeave_kept (s : State) (x1 : KPort) (x2 : BitVec 3) : (State.kclLeave s x1 x2).pending = s.pending ∧ (State.kclLeave s x1 x2).sec.trust = s.sec.trust := by
  unfold State.kclLeave; split <;> simp
@[simp] theorem State.kclLoop_kept (s : State) (x1 : KPort) (x2 : BitVec 3) (x3 : Bool) : (State.kclLoop s x1 x2 x3).pending = s.pending ∧ (State.kclLoop s x1 x2 x3).sec.trust = s.sec.trust := by
  unfold State.kclLoop; dsimp only; repeat' split
  all_goals simp
@[simp] theorem State.patternErrors_kept (s : State) (x1 : KPort) : (State.patternErrors s x1).pending = s.pending ∧ (State.patternErrors s x1).sec.trust = s.sec.trust := by
  simp [State.patternErrors]
@[simp] theorem State.fdrRead_kept (s : State) : (State.fdrRead s).pending = s.pending ∧ (State.fdrRead s).sec.trust = s.sec.trust := by
  simp [State.fdrRead]
@[simp] theorem State.fdrAdd_kept (s : State) (x1 : BitVec 40) (x2 : BitVec 8) (x3 : BitVec 4) (x4 : BitVec 3) : (State.fdrAdd s x1 x2 x3 x4).pending = s.pending ∧ (State.fdrAdd s x1 x2 x3 x4).sec.trust = s.sec.trust := by
  unfold State.fdrAdd; split <;> simp
@[simp] theorem State.countFlush_kept (s : State) : (State.countFlush s).pending = s.pending ∧ (State.countFlush s).sec.trust = s.sec.trust := by
  simp [State.countFlush]
@[simp] theorem State.chartHome_kept (s : State) (x1 : BitVec 64) : (State.chartHome s x1).pending = s.pending ∧ (State.chartHome s x1).sec.trust = s.sec.trust := by
  simp [State.chartHome]
@[simp] theorem State.startUpd_kept (s : State) (x1 : BitVec 25) (x2 : Word) (x3 : Word) (x4 : Bool) : (State.startUpd s x1 x2 x3 x4).pending = s.pending ∧ (State.startUpd s x1 x2 x3 x4).sec.trust = s.sec.trust := by
  simp [State.startUpd]
@[simp] theorem State.chartEntryDone_kept (s : State) (x1 : Status) (x2 : BitVec 25) : (State.chartEntryDone s x1 x2).pending = s.pending ∧ (State.chartEntryDone s x1 x2).sec.trust = s.sec.trust := by
  unfold State.chartEntryDone; repeat' split
  all_goals simp
@[simp] theorem State.retired_kept (s : State) (x1 : BitVec 25) (x2 : Word) (x3 : Status) : (State.retired s x1 x2 x3).pending = s.pending ∧ (State.retired s x1 x2 x3).sec.trust = s.sec.trust := by
  unfold State.retired; split <;> simp
@[simp] theorem State.updDone_kept (s : State) (x1 : ChartUpd) : (State.updDone s x1).pending = s.pending ∧ (State.updDone s x1).sec.trust = s.sec.trust := by
  unfold State.updDone; split <;> simp
@[simp] theorem State.rewriteEntry_kept (s : State) (x1 : ChartUpd) (x2 : Word) : (State.rewriteEntry s x1 x2).pending = s.pending ∧ (State.rewriteEntry s x1 x2).sec.trust = s.sec.trust := by
  simp [State.rewriteEntry]
@[simp] theorem State.migFailed_kept (s : State) (x1 : ChartUpd) (x2 : Status) : (State.migFailed s x1 x2).pending = s.pending ∧ (State.migFailed s x1 x2).sec.trust = s.sec.trust := by
  unfold State.migFailed; dsimp only
  rw [(State.rewriteEntry_kept _ _ _).1, (State.rewriteEntry_kept _ _ _).2]
  refine fold_kept (fun s a => ?_) (by simp)
  split <;> simp
@[simp] theorem State.migMove_kept (s : State) (x1 : ChartUpd) (x2 : MigRun) : (State.migMove s x1 x2).pending = s.pending ∧ (State.migMove s x1 x2).sec.trust = s.sec.trust := by
  unfold State.migMove; split <;> simp
@[simp] theorem State.migWork_kept (s : State) (x1 : Errand) : (State.migWork s x1).pending = s.pending ∧ (State.migWork s x1).sec.trust = s.sec.trust := by
  unfold State.migWork; dsimp only; repeat' split
  all_goals simp
@[simp] theorem State.postMig_kept (s : State) (x1 : MigReq) : (State.postMig s x1).pending = s.pending ∧ (State.postMig s x1).sec.trust = s.sec.trust := by
  simp [State.postMig]
@[simp] theorem State.fetchLine_kept (s : State) (x1 : Pos) (x2 : Packet) : (State.fetchLine s x1 x2).pending = s.pending ∧ (State.fetchLine s x1 x2).sec.trust = s.sec.trust := by
  simp [State.fetchLine]
@[simp] theorem State.sliceReply_kept (s : State) (x1 : Pos) (x2 : Packet) (x3 : LineRd) : (State.sliceReply s x1 x2 x3).pending = s.pending ∧ (State.sliceReply s x1 x2 x3).sec.trust = s.sec.trust := by
  unfold State.sliceReply; split <;> simp
@[simp] theorem State.sliceServe_kept (s : State) (x1 : Pos) (x2 : Packet) : (State.sliceServe s x1 x2).pending = s.pending ∧ (State.sliceServe s x1 x2).sec.trust = s.sec.trust := by
  unfold State.sliceServe; dsimp only
  repeat' split
  · simp
  · simp
  · next h => have hk := pair_kept (State.sliceRead_kept _ _ _ _) h; simpa using hk
  · next h => have hk := pair_kept (State.sliceRead_kept _ _ _ _) h; simpa using hk
@[simp] theorem State.hbmServe_kept (s : State) (x1 : Packet) : (State.hbmServe s x1).pending = s.pending ∧ (State.hbmServe s x1).sec.trust = s.sec.trust := by
  unfold State.hbmServe; dsimp only; repeat' split
  all_goals simp
@[simp] theorem State.flushSlice_kept (s : State) (x1 : StackN) (x2 : Pos) (x3 : Bool) : (State.flushSlice s x1 x2 x3).pending = s.pending ∧ (State.flushSlice s x1 x2 x3).sec.trust = s.sec.trust := by
  unfold State.flushSlice; dsimp only
  simp
  refine fold_kept (fun s a => ?_) ⟨rfl, rfl⟩
  split <;> simp
@[simp] theorem State.flushReach_kept (s : State) (x1 : ReachN) (x2 : Bool) : (State.flushReach s x1 x2).pending = s.pending ∧ (State.flushReach s x1 x2).sec.trust = s.sec.trust := by
  simp [State.flushReach]
@[simp] theorem State.ringPart_kept (s : State) (x1 : Pos) (x2 : BitVec 4) : (State.ringPart s x1 x2).pending = s.pending ∧ (State.ringPart s x1 x2).sec.trust = s.sec.trust := by
  unfold State.ringPart; split <;> simp
@[simp] theorem State.flushStart_kept (s : State) (x1 : Pos) : (State.flushStart s x1).pending = s.pending ∧ (State.flushStart s x1).sec.trust = s.sec.trust := by
  simp [State.flushStart]
@[simp] theorem State.routeRefused_kept (s : State) (x1 : Pos) (x2 : Packet) : (State.routeRefused s x1 x2).pending = s.pending ∧ (State.routeRefused s x1 x2).sec.trust = s.sec.trust := by
  unfold State.routeRefused; split <;> simp
@[simp] theorem State.startTimer_kept (s : State) (x1 : Pos) (x2 : Packet) : (State.startTimer s x1 x2).pending = s.pending ∧ (State.startTimer s x1 x2).sec.trust = s.sec.trust := by
  unfold State.startTimer; dsimp only; repeat' split
  all_goals simp
@[simp] theorem State.leaves_kept (s : State) (x1 : Pos) (x2 : Packet) (x3 : Place) : (State.leaves s x1 x2 x3).pending = s.pending ∧ (State.leaves s x1 x2 x3).sec.trust = s.sec.trust := by
  unfold State.leaves; split <;> simp
@[simp] theorem State.routeServed_kept (s : State) (x1 : Pos) (x2 : Packet) : (State.routeServed s x1 x2).pending = s.pending ∧ (State.routeServed s x1 x2).sec.trust = s.sec.trust := by
  unfold State.routeServed; dsimp only; repeat' split
  all_goals simp
@[simp] theorem State.sendOn_kept (s : State) (x1 : Pos) (x2 : Packet) (x3 : Place) (x4 : Fin 5) : (State.sendOn s x1 x2 x3 x4).pending = s.pending ∧ (State.sendOn s x1 x2 x3 x4).sec.trust = s.sec.trust := by
  simp [State.sendOn]
@[simp] theorem State.hop_kept (s : State) (x1 : Pos) (x2 : Packet) : (State.hop s x1 x2).pending = s.pending ∧ (State.hop s x1 x2).sec.trust = s.sec.trust := by
  unfold State.hop; repeat' split
  all_goals simp
theorem State.combineAt_some {s : State} {p : Pos} {q : Packet} {t : State} (h : s.combineAt p q = some t) :
    t.pending = s.pending ∧ t.sec.trust = s.sec.trust := by
  unfold State.combineAt at h
  dsimp only at h
  repeat' split at h
  all_goals first
    | (cases h; done)
    | (cases h; simp)
@[simp] theorem State.atRouter_kept (s : State) (x1 : Pos) (x2 : Packet) : (State.atRouter s x1 x2).pending = s.pending ∧ (State.atRouter s x1 x2).sec.trust = s.sec.trust := by
  unfold State.atRouter
  repeat' split
  · simp
  · next h => exact State.combineAt_some h
  · simp
@[simp] theorem State.tableWrite_kept (s : State) (x1 : Pos) (x2 : Bool) (x3 : Bool) (x4 : Nat) (x5 : BitVec 64) : (State.tableWrite s x1 x2 x3 x4 x5).pending = s.pending ∧ (State.tableWrite s x1 x2 x3 x4 x5).sec.trust = s.sec.trust := by
  unfold State.tableWrite; dsimp only; repeat' split
  all_goals simp
@[simp] theorem State.armEpoch_kept (s : State) : (State.armEpoch s).pending = s.pending ∧ (State.armEpoch s).sec.trust = s.sec.trust := by
  unfold State.armEpoch; split <;> simp
@[simp] theorem State.refuseFront_kept (s : State) (x1 : BitVec 32) (x2 : Status) (x3 : Nat) : (State.refuseFront s x1 x2 x3).pending = s.pending ∧ (State.refuseFront s x1 x2 x3).sec.trust = s.sec.trust := by
  simp [State.refuseFront]
@[simp] theorem State.holdFront_kept (s : State) (x1 : BitVec 32) (x2 : Nat) : (State.holdFront s x1 x2).pending = s.pending ∧ (State.holdFront s x1 x2).sec.trust = s.sec.trust := by
  unfold State.holdFront; dsimp only; repeat' split
  all_goals simp
@[simp] theorem State.admitStep_kept (s : State) (x1 : Manifest) : (State.admitStep s x1).pending = s.pending ∧ (State.admitStep s x1).sec.trust = s.sec.trust := by
  simp [State.admitStep]
@[simp] theorem State.decideFront_kept (s : State) (x1 : Nat) : (State.decideFront s x1).pending = s.pending ∧ (State.decideFront s x1).sec.trust = s.sec.trust := by
  unfold State.decideFront; dsimp only; repeat' split
  all_goals simp
@[simp] theorem State.takeUp_kept (s : State) (x1 : Nat) (x2 : Nat) : (State.takeUp s x1 x2).pending = s.pending ∧ (State.takeUp s x1 x2).sec.trust = s.sec.trust := by
  unfold State.takeUp; dsimp only; repeat' split
  all_goals simp
@[simp] theorem State.chartEntry_kept (s : State) (x1 : Nat) (x2 : Nat) (x3 : BitVec 25 → Word → State → State) (hx3 : ∀ y0 y1 y2, (x3 y0 y1 y2).pending = y2.pending ∧ (x3 y0 y1 y2).sec.trust = y2.sec.trust) : (State.chartEntry s x1 x2 x3).pending = s.pending ∧ (State.chartEntry s x1 x2 x3).sec.trust = s.sec.trust := by
  simp only [State.chartEntry]; repeat' split
  all_goals simp [*]
@[simp] theorem State.chartWrite_kept (s : State) (x1 : Nat) (x2 : Nat) (x3 : BitVec 25 → Word → Word) : (State.chartWrite s x1 x2 x3).pending = s.pending ∧ (State.chartWrite s x1 x2 x3).sec.trust = s.sec.trust := by
  unfold State.chartWrite
  split
  · simp
  · refine State.chartEntry_kept _ _ _ _ fun p e s => ?_
    dsimp only
    split <;> simp
@[simp] theorem State.addLkh_kept (s : State) (x1 : Lkh → Lkh) : (State.addLkh s x1).pending = s.pending ∧ (State.addLkh s x1).sec.trust = s.sec.trust := by
  simp [State.addLkh]
@[simp] theorem State.charge_kept (s : State) (x1 : StepRec) (x2 : Status) : (State.charge s x1 x2).pending = s.pending ∧ (State.charge s x1 x2).sec.trust = s.sec.trust := by
  simp [State.charge]
@[simp] theorem State.tellUnrepeated_kept (s : State) (x1 : StepRec) : (State.tellUnrepeated s x1).pending = s.pending ∧ (State.tellUnrepeated s x1).sec.trust = s.sec.trust := by
  unfold State.tellUnrepeated; split <;> simp
@[simp] theorem State.endStep_kept (s : State) (x1 : StepRec) (x2 : Status) : (State.endStep s x1 x2).pending = s.pending ∧ (State.endStep s x1 x2).sec.trust = s.sec.trust := by
  unfold State.endStep; split <;> simp
@[simp] theorem State.berthReset_kept (s : State) (x1 : Pos) (x2 : Fin 64) : (State.berthReset s x1 x2).pending = s.pending ∧ (State.berthReset s x1 x2).sec.trust = s.sec.trust := by
  simp [State.berthReset]
@[simp] theorem State.clearChambers_kept (s : State) (x1 : Pos) : (State.clearChambers s x1).pending = s.pending ∧ (State.clearChambers s x1).sec.trust = s.sec.trust := by
  simp [State.clearChambers]
@[simp] theorem State.abortTile_kept (s : State) (x1 : LtEnt) (x2 : BitVec 4) : (State.abortTile s x1 x2).pending = s.pending ∧ (State.abortTile s x1 x2).sec.trust = s.sec.trust := by
  unfold State.abortTile; split <;> simp
@[simp] theorem State.clearCanal_kept (s : State) (x1 : Nat) (x2 : Nat) : (State.clearCanal s x1 x2).pending = s.pending ∧ (State.clearCanal s x1 x2).sec.trust = s.sec.trust := by
  simp [State.clearCanal]
@[simp] theorem State.beginAbort_kept (s : State) (x1 : StepRec) (x2 : AbortReq) (x3 : Option Status) : (State.beginAbort s x1 x2 x3).pending = s.pending ∧ (State.beginAbort s x1 x2 x3).sec.trust = s.sec.trust := by
  unfold State.beginAbort; dsimp only; repeat' split
  all_goals simp
@[simp] theorem State.abortAll_kept (s : State) (x1 : Cause) (x2 : BitVec 7) (x3 : Option Status) : (State.abortAll s x1 x2 x3).pending = s.pending ∧ (State.abortAll s x1 x2 x3).sec.trust = s.sec.trust := by
  simp [State.abortAll]
@[simp] theorem State.endAborted_kept (s : State) (x1 : Status) : (State.endAborted s x1).pending = s.pending ∧ (State.endAborted s x1).sec.trust = s.sec.trust := by
  simp [State.endAborted]
@[simp] theorem State.dropWaiting_kept (s : State) (x1 : Pos) (x2 : Nat) (x3 : List Packet) : (State.dropWaiting s x1 x2 x3).pending = s.pending ∧ (State.dropWaiting s x1 x2 x3).sec.trust = s.sec.trust := by
  simp [State.dropWaiting]
@[simp] theorem State.slotAborted_kept (s : State) (x1 : Pos) (x2 : Fin 64) (x3 : Nat) : (State.slotAborted s x1 x2 x3).pending = s.pending ∧ (State.slotAborted s x1 x2 x3).sec.trust = s.sec.trust := by
  simp [State.slotAborted]
@[simp] theorem State.cancelStream_kept (s : State) (x1 : Pos) (x2 : Fin 64) (x3 : MoveOp) (x4 : Stream) : (State.cancelStream s x1 x2 x3 x4).pending = s.pending ∧ (State.cancelStream s x1 x2 x3 x4).sec.trust = s.sec.trust := by
  unfold State.cancelStream; dsimp only; repeat' split
  all_goals simp
@[simp] theorem State.cancelSlot_kept (s : State) (x1 : Pos) (x2 : Fin 64) (x3 : Nat) : (State.cancelSlot s x1 x2 x3).pending = s.pending ∧ (State.cancelSlot s x1 x2 x3).sec.trust = s.sec.trust := by
  unfold State.cancelSlot; dsimp only; repeat' split
  all_goals simp
@[simp] theorem State.coreStop_kept (s : State) (x1 : Pos) (x2 : Nat) : (State.coreStop s x1 x2).pending = s.pending ∧ (State.coreStop s x1 x2).sec.trust = s.sec.trust := by
  simp [State.coreStop]
@[simp] theorem State.stallRecords_kept (s : State) (x1 : Pos) (x2 : Nat) : (State.stallRecords s x1 x2).pending = s.pending ∧ (State.stallRecords s x1 x2).sec.trust = s.sec.trust := by
  unfold State.stallRecords; split <;> simp
@[simp] theorem State.tileTick_kept (s : State) (x1 : Nat) (x2 : Nat) (x3 : Pos) : (State.tileTick s x1 x2 x3).pending = s.pending ∧ (State.tileTick s x1 x2 x3).sec.trust = s.sec.trust := by
  unfold State.tileTick; dsimp only; repeat' split
  all_goals simp
@[simp] theorem State.stepChange_kept (s : State) (x1 : Bank) (x2 : Nat) : (State.stepChange s x1 x2).pending = s.pending ∧ (State.stepChange s x1 x2).sec.trust = s.sec.trust := by
  unfold State.stepChange; dsimp only; repeat' split
  all_goals simp
@[simp] theorem State.flip_kept (s : State) : (State.flip s).pending = s.pending ∧ (State.flip s).sec.trust = s.sec.trust := by
  unfold State.flip; split <;> simp
@[simp] theorem State.countLt_kept (s : State) (x1 : Lt) : (State.countLt s x1).pending = s.pending ∧ (State.countLt s x1).sec.trust = s.sec.trust := by
  unfold State.countLt; repeat' split
  all_goals simp
@[simp] theorem State.countHeadway_kept (s : State) : (State.countHeadway s).pending = s.pending ∧ (State.countHeadway s).sec.trust = s.sec.trust := by
  simp [State.countHeadway]
@[simp] theorem State.soundTick_kept (s : State) : (State.soundTick s).pending = s.pending ∧ (State.soundTick s).sec.trust = s.sec.trust := by
  simp [State.soundTick]
@[simp] theorem State.corrReport_kept (s : State) (x1 : Pos) : (State.corrReport s x1).pending = s.pending ∧ (State.corrReport s x1).sec.trust = s.sec.trust := by
  unfold State.corrReport; dsimp only; repeat' split
  all_goals simp
@[simp] theorem State.newPound_kept (s : State) (x1 : Pos) : (State.newPound s x1).pending = s.pending ∧ (State.newPound s x1).sec.trust = s.sec.trust := by
  unfold State.newPound; dsimp only; repeat' split
  all_goals simp
@[simp] theorem State.startSlice_kept (s : State) (x1 : Pos) (x2 : Nat) : (State.startSlice s x1 x2).pending = s.pending ∧ (State.startSlice s x1 x2).sec.trust = s.sec.trust := by
  unfold State.startSlice; dsimp only; repeat' split
  all_goals simp
@[simp] theorem State.startPound_kept (s : State) (x1 : StepRec) (x2 : Nat) : (State.startPound s x1 x2).pending = s.pending ∧ (State.startPound s x1 x2).sec.trust = s.sec.trust := by
  unfold State.startPound; dsimp only
  simp
  refine fold_kept (fun s a => ?_) ⟨rfl, rfl⟩
  repeat' split
  all_goals simp
@[simp] theorem State.beginStep_kept (s : State) (x1 : StepRec) : (State.beginStep s x1).pending = s.pending ∧ (State.beginStep s x1).sec.trust = s.sec.trust := by
  unfold State.beginStep; dsimp only
  rw [(State.startPound_kept _ _ _).1, (State.startPound_kept _ _ _).2]
  simp
  refine fold_kept (fun s a => ?_) ⟨rfl, rfl⟩
  split <;> simp
@[simp] theorem State.runOn_kept (s : State) (x1 : StepRec) : (State.runOn s x1).pending = s.pending ∧ (State.runOn s x1).sec.trust = s.sec.trust := by
  unfold State.runOn; dsimp only; repeat' split
  all_goals simp
@[simp] theorem State.replayOn_kept (s : State) (x1 : StepRec) : (State.replayOn s x1).pending = s.pending ∧ (State.replayOn s x1).sec.trust = s.sec.trust := by
  unfold State.replayOn; dsimp only; repeat' split
  all_goals simp
@[simp] theorem State.stepTick_kept (s : State) (x1 : Nat) (x2 : Nat) : (State.stepTick s x1 x2).pending = s.pending ∧ (State.stepTick s x1 x2).sec.trust = s.sec.trust := by
  unfold State.stepTick; dsimp only; repeat' split
  all_goals simp
@[simp] theorem State.inWindow_kept (s : State) (x1 : Pos) (x2 : Nat) (x3 : State → State) (hx3 : ∀ y0, (x3 y0).pending = y0.pending ∧ (x3 y0).sec.trust = y0.sec.trust) : (State.inWindow s x1 x2 x3).pending = s.pending ∧ (State.inWindow s x1 x2 x3).sec.trust = s.sec.trust := by
  simp only [State.inWindow]; repeat' split
  all_goals simp [*]
@[simp] theorem State.poundLen_kept (s : State) (x1 : BitVec 15) : (State.poundLen s x1).pending = s.pending ∧ (State.poundLen s x1).sec.trust = s.sec.trust := by
  unfold State.poundLen; split <;> simp
@[simp] theorem State.drift_kept (s : State) (x1 : Pos) (x2 : Fin 4) (x3 : ℤ) : (State.drift s x1 x2 x3).pending = s.pending ∧ (State.drift s x1 x2 x3).sec.trust = s.sec.trust := by
  unfold State.drift; dsimp only; repeat' split
  all_goals simp
@[simp] theorem State.driftSpare_kept (s : State) (x1 : Pos) (x2 : Fin 5) (x3 : ℤ) : (State.driftSpare s x1 x2 x3).pending = s.pending ∧ (State.driftSpare s x1 x2 x3).sec.trust = s.sec.trust := by
  unfold State.driftSpare; dsimp only; repeat' split
  all_goals simp
@[simp] theorem State.unsynced_kept (s : State) (x1 : Pos) (x2 : TileTime → TileTime) : (State.unsynced s x1 x2).pending = s.pending ∧ (State.unsynced s x1 x2).sec.trust = s.sec.trust := by
  simp [State.unsynced]
@[simp] theorem State.latchFrac_kept (s : State) (x1 : RegAt) : (State.latchFrac s x1).pending = s.pending ∧ (State.latchFrac s x1).sec.trust = s.sec.trust := by
  unfold State.latchFrac; dsimp only; repeat' split
  all_goals simp
@[simp] theorem State.chgCanal_kept (s : State) (x1 : Origin) (x2 : Path) (x3 : Nat) (x4 : State → State) (hx4 : ∀ y0, (x4 y0).pending = y0.pending ∧ (x4 y0).sec.trust = y0.sec.trust) : (State.chgCanal s x1 x2 x3 x4).pending = s.pending ∧ (State.chgCanal s x1 x2 x3 x4).sec.trust = s.sec.trust := by
  simp only [State.chgCanal]; repeat' split
  all_goals simp [*]
@[simp] theorem State.mswReady_kept (s : State) (x1 : Fin 4) (x2 : Bool) (x3 : Bool) : (State.mswReady s x1 x2 x3).pending = s.pending ∧ (State.mswReady s x1 x2 x3).sec.trust = s.sec.trust := by
  simp [State.mswReady]
@[simp] theorem State.oscStarts_kept (s : State) : (State.oscStarts s).pending = s.pending ∧ (State.oscStarts s).sec.trust = s.sec.trust := by
  simp [State.oscStarts]
@[simp] theorem State.mswTo_kept (s : State) (x1 : Fin 4) (x2 : Bool) (x3 : BitVec 2) : (State.mswTo s x1 x2 x3).pending = s.pending ∧ (State.mswTo s x1 x2 x3).sec.trust = s.sec.trust := by
  simp [State.mswTo]
@[simp] theorem State.mswWrite_kept (s : State) (x1 : Fin 4) (x2 : Bool) : (State.mswWrite s x1 x2).pending = s.pending ∧ (State.mswWrite s x1 x2).sec.trust = s.sec.trust := by
  unfold State.mswWrite; split <;> simp
@[simp] theorem State.slipOne_kept (s : State) (x1 : Pos) (x2 : Fin 4) : (State.slipOne s x1 x2).pending = s.pending ∧ (State.slipOne s x1 x2).sec.trust = s.sec.trust := by
  unfold State.slipOne; dsimp only; repeat' split
  all_goals simp
@[simp] theorem State.slipAll_kept (s : State) (x1 : Pos) : (State.slipAll s x1).pending = s.pending ∧ (State.slipAll s x1).sec.trust = s.sec.trust := by
  unfold State.slipAll; dsimp only
  refine fold_kept (fun s a => ?_) (fold_kept (fun s a => ?_) ⟨rfl, rfl⟩)
  · split <;> simp
  · split <;> simp
@[simp] theorem State.modClk_kept (s : State) (x1 : Pos) (x2 : TileClock → TileClock) : (State.modClk s x1 x2).pending = s.pending ∧ (State.modClk s x1 x2).sec.trust = s.sec.trust := by
  simp [State.modClk]
@[simp] theorem State.modStepReg_kept (s : State) (x1 : ClkStep → ClkStep) : (State.modStepReg s x1).pending = s.pending ∧ (State.modStepReg s x1).sec.trust = s.sec.trust := by
  simp [State.modStepReg]
@[simp] theorem State.fixTicks_kept (s : State) : (State.fixTicks s).pending = s.pending ∧ (State.fixTicks s).sec.trust = s.sec.trust := by
  simp [State.fixTicks]; repeat' split
  all_goals simp
@[simp] theorem State.reqStep_kept (s : State) (x1 : Bank) (x2 : BitVec 3) : (State.reqStep s x1 x2).pending = s.pending ∧ (State.reqStep s x1 x2).sec.trust = s.sec.trust := by
  unfold State.reqStep; dsimp only; repeat' split
  all_goals simp
@[simp] theorem State.askStep_kept (s : State) (x1 : Bank) (x2 : BitVec 3) : (State.askStep s x1 x2).pending = s.pending ∧ (State.askStep s x1 x2).sec.trust = s.sec.trust := by
  simp [State.askStep]
@[simp] theorem State.setLinkBit_kept (s : State) (x1 : Bool) : (State.setLinkBit s x1).pending = s.pending ∧ (State.setLinkBit s x1).sec.trust = s.sec.trust := by
  simp [State.setLinkBit]
@[simp] theorem State.setLink_kept (s : State) (x1 : Bool) : (State.setLink s x1).pending = s.pending ∧ (State.setLink s x1).sec.trust = s.sec.trust := by
  simp [State.setLink]
@[simp] theorem State.abortCrossing_kept (s : State) (x1 : Pos) : (State.abortCrossing s x1).pending = s.pending ∧ (State.abortCrossing s x1).sec.trust = s.sec.trust := by
  simp [State.abortCrossing]
@[simp] theorem State.seamWrite_kept (s : State) (x1 : Pos) (x2 : Fin 4) (x3 : BitVec 13) : (State.seamWrite s x1 x2 x3).pending = s.pending ∧ (State.seamWrite s x1 x2 x3).sec.trust = s.sec.trust := by
  simp [State.seamWrite]
@[simp] theorem effSS_kept (x0 : Nat) (x1 : Word → Word → Word) (x2 : Issue) (s : State) : (effSS x0 x1 x2 s).pending = s.pending ∧ (effSS x0 x1 x2 s).sec.trust = s.sec.trust := by
  simp [effSS]
@[simp] theorem effPS_kept (x0 : Word → Word → Bool) (x1 : Issue) (s : State) : (effPS x0 x1 s).pending = s.pending ∧ (effPS x0 x1 s).sec.trust = s.sec.trust := by
  simp [effPS]
@[simp] theorem effPP_kept (x0 : Bool → Bool → Bool) (x1 : Issue) (s : State) : (effPP x0 x1 s).pending = s.pending ∧ (effPP x0 x1 s).sec.trust = s.sec.trust := by
  simp [effPP]
@[simp] theorem effAdd_kept (x0 : Issue) (s : State) : (effAdd x0 s).pending = s.pending ∧ (effAdd x0 s).sec.trust = s.sec.trust := by
  simp [effAdd]
@[simp] theorem effSub_kept (x0 : Issue) (s : State) : (effSub x0 s).pending = s.pending ∧ (effSub x0 s).sec.trust = s.sec.trust := by
  simp [effSub]
@[simp] theorem effAnd_kept (x0 : Issue) (s : State) : (effAnd x0 s).pending = s.pending ∧ (effAnd x0 s).sec.trust = s.sec.trust := by
  simp [effAnd]
@[simp] theorem effOr_kept (x0 : Issue) (s : State) : (effOr x0 s).pending = s.pending ∧ (effOr x0 s).sec.trust = s.sec.trust := by
  simp [effOr]
@[simp] theorem effXor_kept (x0 : Issue) (s : State) : (effXor x0 s).pending = s.pending ∧ (effXor x0 s).sec.trust = s.sec.trust := by
  simp [effXor]
@[simp] theorem effShl_kept (x0 : Issue) (s : State) : (effShl x0 s).pending = s.pending ∧ (effShl x0 s).sec.trust = s.sec.trust := by
  simp [effShl]
@[simp] theorem effShr_kept (x0 : Issue) (s : State) : (effShr x0 s).pending = s.pending ∧ (effShr x0 s).sec.trust = s.sec.trust := by
  simp [effShr]
@[simp] theorem effSar_kept (x0 : Issue) (s : State) : (effSar x0 s).pending = s.pending ∧ (effSar x0 s).sec.trust = s.sec.trust := by
  simp [effSar]
@[simp] theorem effMul_kept (x0 : Issue) (s : State) : (effMul x0 s).pending = s.pending ∧ (effMul x0 s).sec.trust = s.sec.trust := by
  simp [effMul]
@[simp] theorem effMin_kept (x0 : Issue) (s : State) : (effMin x0 s).pending = s.pending ∧ (effMin x0 s).sec.trust = s.sec.trust := by
  simp [effMin]
@[simp] theorem effMax_kept (x0 : Issue) (s : State) : (effMax x0 s).pending = s.pending ∧ (effMax x0 s).sec.trust = s.sec.trust := by
  simp [effMax]
@[simp] theorem effMinu_kept (x0 : Issue) (s : State) : (effMinu x0 s).pending = s.pending ∧ (effMinu x0 s).sec.trust = s.sec.trust := by
  simp [effMinu]
@[simp] theorem effMaxu_kept (x0 : Issue) (s : State) : (effMaxu x0 s).pending = s.pending ∧ (effMaxu x0 s).sec.trust = s.sec.trust := by
  simp [effMaxu]
@[simp] theorem effAddi_kept (x0 : Issue) (s : State) : (effAddi x0 s).pending = s.pending ∧ (effAddi x0 s).sec.trust = s.sec.trust := by
  simp [effAddi]
@[simp] theorem effMovi_kept (x0 : Issue) (s : State) : (effMovi x0 s).pending = s.pending ∧ (effMovi x0 s).sec.trust = s.sec.trust := by
  simp [effMovi]
@[simp] theorem effMovhi_kept (x0 : Issue) (s : State) : (effMovhi x0 s).pending = s.pending ∧ (effMovhi x0 s).sec.trust = s.sec.trust := by
  simp [effMovhi]
@[simp] theorem effCmpeq_kept (x0 : Issue) (s : State) : (effCmpeq x0 s).pending = s.pending ∧ (effCmpeq x0 s).sec.trust = s.sec.trust := by
  simp [effCmpeq]
@[simp] theorem effCmpne_kept (x0 : Issue) (s : State) : (effCmpne x0 s).pending = s.pending ∧ (effCmpne x0 s).sec.trust = s.sec.trust := by
  simp [effCmpne]
@[simp] theorem effCmplt_kept (x0 : Issue) (s : State) : (effCmplt x0 s).pending = s.pending ∧ (effCmplt x0 s).sec.trust = s.sec.trust := by
  simp [effCmplt]
@[simp] theorem effCmpltu_kept (x0 : Issue) (s : State) : (effCmpltu x0 s).pending = s.pending ∧ (effCmpltu x0 s).sec.trust = s.sec.trust := by
  simp [effCmpltu]
@[simp] theorem effCmple_kept (x0 : Issue) (s : State) : (effCmple x0 s).pending = s.pending ∧ (effCmple x0 s).sec.trust = s.sec.trust := by
  simp [effCmple]
@[simp] theorem effCmpleu_kept (x0 : Issue) (s : State) : (effCmpleu x0 s).pending = s.pending ∧ (effCmpleu x0 s).sec.trust = s.sec.trust := by
  simp [effCmpleu]
@[simp] theorem effFadd_kept (x0 : Issue) (s : State) : (effFadd x0 s).pending = s.pending ∧ (effFadd x0 s).sec.trust = s.sec.trust := by
  simp [effFadd]
@[simp] theorem effFsub_kept (x0 : Issue) (s : State) : (effFsub x0 s).pending = s.pending ∧ (effFsub x0 s).sec.trust = s.sec.trust := by
  simp [effFsub]
@[simp] theorem effFmul_kept (x0 : Issue) (s : State) : (effFmul x0 s).pending = s.pending ∧ (effFmul x0 s).sec.trust = s.sec.trust := by
  simp [effFmul]
@[simp] theorem effFfma_kept (x0 : Issue) (s : State) : (effFfma x0 s).pending = s.pending ∧ (effFfma x0 s).sec.trust = s.sec.trust := by
  simp [effFfma]
@[simp] theorem effFmin_kept (x0 : Issue) (s : State) : (effFmin x0 s).pending = s.pending ∧ (effFmin x0 s).sec.trust = s.sec.trust := by
  simp [effFmin]
@[simp] theorem effFmax_kept (x0 : Issue) (s : State) : (effFmax x0 s).pending = s.pending ∧ (effFmax x0 s).sec.trust = s.sec.trust := by
  simp [effFmax]
@[simp] theorem effFcmplt_kept (x0 : Issue) (s : State) : (effFcmplt x0 s).pending = s.pending ∧ (effFcmplt x0 s).sec.trust = s.sec.trust := by
  simp [effFcmplt]
@[simp] theorem effFcmpeq_kept (x0 : Issue) (s : State) : (effFcmpeq x0 s).pending = s.pending ∧ (effFcmpeq x0 s).sec.trust = s.sec.trust := by
  simp [effFcmpeq]
@[simp] theorem effFcmple_kept (x0 : Issue) (s : State) : (effFcmple x0 s).pending = s.pending ∧ (effFcmple x0 s).sec.trust = s.sec.trust := by
  simp [effFcmple]
@[simp] theorem effPand_kept (x0 : Issue) (s : State) : (effPand x0 s).pending = s.pending ∧ (effPand x0 s).sec.trust = s.sec.trust := by
  simp [effPand]
@[simp] theorem effPor_kept (x0 : Issue) (s : State) : (effPor x0 s).pending = s.pending ∧ (effPor x0 s).sec.trust = s.sec.trust := by
  simp [effPor]
@[simp] theorem effPxor_kept (x0 : Issue) (s : State) : (effPxor x0 s).pending = s.pending ∧ (effPxor x0 s).sec.trust = s.sec.trust := by
  simp [effPxor]
@[simp] theorem effPnot_kept (x0 : Issue) (s : State) : (effPnot x0 s).pending = s.pending ∧ (effPnot x0 s).sec.trust = s.sec.trust := by
  simp [effPnot]
@[simp] theorem effSel_kept (x0 : Issue) (s : State) : (effSel x0 s).pending = s.pending ∧ (effSel x0 s).sec.trust = s.sec.trust := by
  simp [effSel]
@[simp] theorem effAaddi_kept (x0 : Issue) (s : State) : (effAaddi x0 s).pending = s.pending ∧ (effAaddi x0 s).sec.trust = s.sec.trust := by
  simp [effAaddi]
@[simp] theorem effAtos_kept (x0 : Issue) (s : State) : (effAtos x0 s).pending = s.pending ∧ (effAtos x0 s).sec.trust = s.sec.trust := by
  simp [effAtos]
@[simp] theorem effStoa_kept (x0 : Issue) (s : State) : (effStoa x0 s).pending = s.pending ∧ (effStoa x0 s).sec.trust = s.sec.trust := by
  simp [effStoa]
@[simp] theorem effLoad_kept (x0 : Nat) (x1 : Issue) (s : State) : (effLoad x0 x1 s).pending = s.pending ∧ (effLoad x0 x1 s).sec.trust = s.sec.trust := by
  unfold effLoad
  split
  · simp
  · dsimp only
    split
    · next h => simpa using pair_kept (State.readSpd_kept _ _ _ _ _ _ _) h
    · next h => simpa using pair_kept (State.readSpd_kept _ _ _ _ _ _ _) h
@[simp] theorem effStore_kept (x0 : Nat) (x1 : Issue) (s : State) : (effStore x0 x1 s).pending = s.pending ∧ (effStore x0 x1 s).sec.trust = s.sec.trust := by
  unfold effStore; split <;> simp
@[simp] theorem effLd32_kept (x0 : Issue) (s : State) : (effLd32 x0 s).pending = s.pending ∧ (effLd32 x0 s).sec.trust = s.sec.trust := by
  simp [effLd32]
@[simp] theorem effLd64_kept (x0 : Issue) (s : State) : (effLd64 x0 s).pending = s.pending ∧ (effLd64 x0 s).sec.trust = s.sec.trust := by
  simp [effLd64]
@[simp] theorem effSt32_kept (x0 : Issue) (s : State) : (effSt32 x0 s).pending = s.pending ∧ (effSt32 x0 s).sec.trust = s.sec.trust := by
  simp [effSt32]
@[simp] theorem effSt64_kept (x0 : Issue) (s : State) : (effSt64 x0 s).pending = s.pending ∧ (effSt64 x0 s).sec.trust = s.sec.trust := by
  simp [effSt64]
@[simp] theorem effCrr_kept (x0 : Issue) (s : State) : (effCrr x0 s).pending = s.pending ∧ (effCrr x0 s).sec.trust = s.sec.trust := by
  simp [effCrr]
@[simp] theorem effCrw_kept (x0 : Issue) (s : State) : (effCrw x0 s).pending = s.pending ∧ (effCrw x0 s).sec.trust = s.sec.trust := by
  unfold effCrw; dsimp only; repeat' split
  all_goals simp
@[simp] theorem State.jump_kept (s : State) (x1 : Issue) (x2 : BitVec 14) (x3 : Nat) : (State.jump s x1 x2 x3).pending = s.pending ∧ (State.jump s x1 x2 x3).sec.trust = s.sec.trust := by
  simp [State.jump]
@[simp] theorem effBr_kept (x0 : Issue) (s : State) : (effBr x0 s).pending = s.pending ∧ (effBr x0 s).sec.trust = s.sec.trust := by
  simp [effBr]
@[simp] theorem effBri_kept (x0 : Issue) (s : State) : (effBri x0 s).pending = s.pending ∧ (effBri x0 s).sec.trust = s.sec.trust := by
  simp [effBri]
@[simp] theorem effCall_kept (x0 : Issue) (s : State) : (effCall x0 s).pending = s.pending ∧ (effCall x0 s).sec.trust = s.sec.trust := by
  simp [effCall]
@[simp] theorem effLoop_kept (x0 : Issue) (s : State) : (effLoop x0 s).pending = s.pending ∧ (effLoop x0 s).sec.trust = s.sec.trust := by
  simp [effLoop]
@[simp] theorem effHwin_kept (x0 : Issue) (s : State) : (effHwin x0 s).pending = s.pending ∧ (effHwin x0 s).sec.trust = s.sec.trust := by
  simp [effHwin]
@[simp] theorem State.pendReport_kept (s : State) (x1 : Pos) (x2 : Bool) : (State.pendReport s x1 x2).pending = s.pending ∧ (State.pendReport s x1 x2).sec.trust = s.sec.trust := by
  unfold State.pendReport; repeat' split
  all_goals simp
@[simp] theorem State.startLate_kept (s : State) (x1 : Pos) (x2 : Nat) (x3 : Nat) : (State.startLate s x1 x2 x3).pending = s.pending ∧ (State.startLate s x1 x2 x3).sec.trust = s.sec.trust := by
  unfold State.startLate; split <;> simp
@[simp] theorem pendMain_kept (x0 : Issue) (x1 : BitVec 14) (x2 : Bool) (s : State) : (pendMain x0 x1 x2 s).pending = s.pending ∧ (pendMain x0 x1 x2 s).sec.trust = s.sec.trust := by
  unfold pendMain; split <;> simp
@[simp] theorem effPend_kept (x0 : Issue) (s : State) : (effPend x0 s).pending = s.pending ∧ (effPend x0 s).sec.trust = s.sec.trust := by
  unfold effPend; split <;> simp
@[simp] theorem effHret_kept (x0 : Issue) (s : State) : (effHret x0 s).pending = s.pending ∧ (effHret x0 s).sec.trust = s.sec.trust := by
  unfold effHret; split <;> simp
@[simp] theorem cEffect_kept (x0 : Nat) (x1 : Issue) (s : State) : (cEffect x0 x1 s).pending = s.pending ∧ (cEffect x0 x1 s).sec.trust = s.sec.trust := by
  unfold cEffect; split <;> simp
@[simp] theorem State.putLanes_kept (s : State) (x1 : Issue) (x2 : Nat) (x3 : List F32) : (State.putLanes s x1 x2 x3).pending = s.pending ∧ (State.putLanes s x1 x2 x3).sec.trust = s.sec.trust := by
  unfold State.putLanes; split <;> simp
@[simp] theorem State.putAll_kept (s : State) (x1 : Issue) (x2 : Nat) (x3 : VReg) : (State.putAll s x1 x2 x3).pending = s.pending ∧ (State.putAll s x1 x2 x3).sec.trust = s.sec.trust := by
  unfold State.putAll; split <;> simp
@[simp] theorem effV1_kept (x0 : Nat) (x1 : F32 → F32) (x2 : Issue) (s : State) : (effV1 x0 x1 x2 s).pending = s.pending ∧ (effV1 x0 x1 x2 s).sec.trust = s.sec.trust := by
  simp [effV1]
@[simp] theorem effV2_kept (x0 : Nat) (x1 : F32 → F32 → F32) (x2 : Issue) (s : State) : (effV2 x0 x1 x2 s).pending = s.pending ∧ (effV2 x0 x1 x2 s).sec.trust = s.sec.trust := by
  simp [effV2]
@[simp] theorem effV3_kept (x0 : Nat) (x1 : F32 → F32 → F32 → F32) (x2 : Issue) (s : State) : (effV3 x0 x1 x2 s).pending = s.pending ∧ (effV3 x0 x1 x2 s).sec.trust = s.sec.trust := by
  simp [effV3]
@[simp] theorem effVadd_kept (x0 : Issue) (s : State) : (effVadd x0 s).pending = s.pending ∧ (effVadd x0 s).sec.trust = s.sec.trust := by
  simp [effVadd]
@[simp] theorem effVsub_kept (x0 : Issue) (s : State) : (effVsub x0 s).pending = s.pending ∧ (effVsub x0 s).sec.trust = s.sec.trust := by
  simp [effVsub]
@[simp] theorem effVmul_kept (x0 : Issue) (s : State) : (effVmul x0 s).pending = s.pending ∧ (effVmul x0 s).sec.trust = s.sec.trust := by
  simp [effVmul]
@[simp] theorem effVfma_kept (x0 : Issue) (s : State) : (effVfma x0 s).pending = s.pending ∧ (effVfma x0 s).sec.trust = s.sec.trust := by
  simp [effVfma]
@[simp] theorem effVmax_kept (x0 : Issue) (s : State) : (effVmax x0 s).pending = s.pending ∧ (effVmax x0 s).sec.trust = s.sec.trust := by
  simp [effVmax]
@[simp] theorem effVmin_kept (x0 : Issue) (s : State) : (effVmin x0 s).pending = s.pending ∧ (effVmin x0 s).sec.trust = s.sec.trust := by
  simp [effVmin]
@[simp] theorem effVabs_kept (x0 : Issue) (s : State) : (effVabs x0 s).pending = s.pending ∧ (effVabs x0 s).sec.trust = s.sec.trust := by
  simp [effVabs]
@[simp] theorem effVneg_kept (x0 : Issue) (s : State) : (effVneg x0 s).pending = s.pending ∧ (effVneg x0 s).sec.trust = s.sec.trust := by
  simp [effVneg]
@[simp] theorem effVmov_kept (x0 : Issue) (s : State) : (effVmov x0 s).pending = s.pending ∧ (effVmov x0 s).sec.trust = s.sec.trust := by
  simp [effVmov]
@[simp] theorem effVbcast_kept (x0 : Issue) (s : State) : (effVbcast x0 s).pending = s.pending ∧ (effVbcast x0 s).sec.trust = s.sec.trust := by
  simp [effVbcast]
@[simp] theorem effVcmplt_kept (x0 : Issue) (s : State) : (effVcmplt x0 s).pending = s.pending ∧ (effVcmplt x0 s).sec.trust = s.sec.trust := by
  simp [effVcmplt]
@[simp] theorem effVcmpeq_kept (x0 : Issue) (s : State) : (effVcmpeq x0 s).pending = s.pending ∧ (effVcmpeq x0 s).sec.trust = s.sec.trust := by
  simp [effVcmpeq]
@[simp] theorem effVsel_kept (x0 : Issue) (s : State) : (effVsel x0 s).pending = s.pending ∧ (effVsel x0 s).sec.trust = s.sec.trust := by
  simp [effVsel]
@[simp] theorem effReduce_kept (x0 : Nat) (x1 : F32 → F32 → F32) (x2 : F32) (x3 : Issue) (s : State) : (effReduce x0 x1 x2 x3 s).pending = s.pending ∧ (effReduce x0 x1 x2 x3 s).sec.trust = s.sec.trust := by
  unfold effReduce; dsimp only
  exact State.putAll_kept _ _ _ _
@[simp] theorem effVrsum_kept (x0 : Issue) (s : State) : (effVrsum x0 s).pending = s.pending ∧ (effVrsum x0 s).sec.trust = s.sec.trust := by
  simp [effVrsum]
@[simp] theorem effVrmax_kept (x0 : Issue) (s : State) : (effVrmax x0 s).pending = s.pending ∧ (effVrmax x0 s).sec.trust = s.sec.trust := by
  simp [effVrmax]
@[simp] theorem effVexp2_kept (x0 : Issue) (s : State) : (effVexp2 x0 s).pending = s.pending ∧ (effVexp2 x0 s).sec.trust = s.sec.trust := by
  simp [effVexp2]
@[simp] theorem effVlog2_kept (x0 : Issue) (s : State) : (effVlog2 x0 s).pending = s.pending ∧ (effVlog2 x0 s).sec.trust = s.sec.trust := by
  simp [effVlog2]
@[simp] theorem effVrcp_kept (x0 : Issue) (s : State) : (effVrcp x0 s).pending = s.pending ∧ (effVrcp x0 s).sec.trust = s.sec.trust := by
  simp [effVrcp]
@[simp] theorem effVrsqrt_kept (x0 : Issue) (s : State) : (effVrsqrt x0 s).pending = s.pending ∧ (effVrsqrt x0 s).sec.trust = s.sec.trust := by
  simp [effVrsqrt]
@[simp] theorem effVtanh_kept (x0 : Issue) (s : State) : (effVtanh x0 s).pending = s.pending ∧ (effVtanh x0 s).sec.trust = s.sec.trust := by
  simp [effVtanh]
@[simp] theorem effVcvti_kept (x0 : Issue) (s : State) : (effVcvti x0 s).pending = s.pending ∧ (effVcvti x0 s).sec.trust = s.sec.trust := by
  simp [effVcvti]
@[simp] theorem effVcvto_kept (x0 : Issue) (s : State) : (effVcvto x0 s).pending = s.pending ∧ (effVcvto x0 s).sec.trust = s.sec.trust := by
  simp [effVcvto]
@[simp] theorem effVld_kept (x0 : Issue) (s : State) : (effVld x0 s).pending = s.pending ∧ (effVld x0 s).sec.trust = s.sec.trust := by
  unfold effVld; dsimp only
  split
  · simp
  · split
    · simp
    · split
      · next h => simpa using pair_kept (State.readSpd_kept _ _ _ _ _ _ _) h
      · next h => simpa using pair_kept (State.readSpd_kept _ _ _ _ _ _ _) h
@[simp] theorem effVst_kept (x0 : Issue) (s : State) : (effVst x0 s).pending = s.pending ∧ (effVst x0 s).sec.trust = s.sec.trust := by
  unfold effVst; dsimp only; repeat' split
  all_goals simp
@[simp] theorem effVldb_kept (x0 : Issue) (s : State) : (effVldb x0 s).pending = s.pending ∧ (effVldb x0 s).sec.trust = s.sec.trust := by
  unfold effVldb; dsimp only
  split
  · simp
  · split
    · simp
    · split
      · next h => simpa using pair_kept (State.readRuns_kept _ _ _ _ _ _) h
      · next h => simpa using pair_kept (State.readRuns_kept _ _ _ _ _ _) h
@[simp] theorem effVstb_kept (x0 : Issue) (s : State) : (effVstb x0 s).pending = s.pending ∧ (effVstb x0 s).sec.trust = s.sec.trust := by
  unfold effVstb; dsimp only; repeat' split
  all_goals simp
@[simp] theorem vEffect_kept (x0 : Nat) (x1 : Issue) (s : State) : (vEffect x0 x1 s).pending = s.pending ∧ (vEffect x0 x1 s).sec.trust = s.sec.trust := by
  unfold vEffect; split <;> simp
@[simp] theorem slotEffect_kept (x0 : SlotK) (x1 : Nat) (x2 : Issue) (s : State) : (slotEffect x0 x1 x2 s).pending = s.pending ∧ (slotEffect x0 x1 x2 s).sec.trust = s.sec.trust := by
  unfold slotEffect; split <;> simp
@[simp] theorem issueSlots_kept (x0 : Issue → State → State) (x1 : Issue) (s : State) (hx0 : ∀ y0 y1, (x0 y0 y1).pending = y1.pending ∧ (x0 y0 y1).sec.trust = y1.sec.trust) : (issueSlots x0 x1 s).pending = s.pending ∧ (issueSlots x0 x1 s).sec.trust = s.sec.trust := by
  unfold issueSlots
  refine foldl_kept _ (fun s k => ?_) _ _
  dsimp only
  repeat' split
  · exact hx0 _ _
  · simp
  · simp
@[simp] theorem releaseHeld_kept (x0 : Pos) (x1 : Nat) (x2 : Issue → State → State) (x3 : Issue) (x4 : Fin 6) (s : State) (hx2 : ∀ y0 y1, (x2 y0 y1).pending = y1.pending ∧ (x2 y0 y1).sec.trust = y1.sec.trust) : (releaseHeld x0 x1 x2 x3 x4 s).pending = s.pending ∧ (releaseHeld x0 x1 x2 x3 x4 s).sec.trust = s.sec.trust := by
  simp only [releaseHeld]; repeat' split
  all_goals simp [*]
@[simp] theorem sendGivesUp_kept (x0 : Issue) (s : State) : (sendGivesUp x0 s).pending = s.pending ∧ (sendGivesUp x0 s).sec.trust = s.sec.trust := by
  simp [sendGivesUp]
@[simp] theorem freedEffect_kept (x0 : Bool) (x1 : Issue) (s : State) : (freedEffect x0 x1 s).pending = s.pending ∧ (freedEffect x0 x1 s).sec.trust = s.sec.trust := by
  unfold freedEffect; dsimp only; repeat' split
  all_goals simp
@[simp] theorem State.conclude_kept (s : State) (x1 : Errand) : (State.conclude s x1).pending = s.pending ∧ (State.conclude s x1).sec.trust = s.sec.trust := by
  unfold State.conclude; repeat' split
  all_goals simp
@[simp] theorem State.errandAnswered_kept (s : State) (x1 : Nat) (x2 : Nat) (x3 : Status) (x4 : List Byte) : (State.errandAnswered s x1 x2 x3 x4).pending = s.pending ∧ (State.errandAnswered s x1 x2 x3 x4).sec.trust = s.sec.trust := by
  unfold State.errandAnswered; dsimp only; repeat' split
  all_goals simp
@[simp] theorem State.engineAnswer_kept (s : State) (x1 : Pos) (x2 : Packet) (x3 : Nat) (x4 : Nat) : (State.engineAnswer s x1 x2 x3 x4).pending = s.pending ∧ (State.engineAnswer s x1 x2 x3 x4).sec.trust = s.sec.trust := by
  simp [State.engineAnswer]
@[simp] theorem State.countTimeout_kept (s : State) (x1 : Pos) : (State.countTimeout s x1).pending = s.pending ∧ (State.countTimeout s x1).sec.trust = s.sec.trust := by
  simp [State.countTimeout]
@[simp] theorem State.noteTimeout_kept (s : State) (x1 : Pos) (x2 : Nat) : (State.noteTimeout s x1 x2).pending = s.pending ∧ (State.noteTimeout s x1 x2).sec.trust = s.sec.trust := by
  unfold State.noteTimeout; dsimp only; repeat' split
  all_goals simp
@[simp] theorem State.looseTimeout_kept (s : State) (x1 : Pos) (x2 : Loose) : (State.looseTimeout s x1 x2).pending = s.pending ∧ (State.looseTimeout s x1 x2).sec.trust = s.sec.trust := by
  unfold State.looseTimeout; dsimp only; repeat' split
  all_goals simp
@[simp] theorem State.modTsrc_kept (s : State) (x1 : TimeSrc → TimeSrc) : (State.modTsrc s x1).pending = s.pending ∧ (State.modTsrc s x1).sec.trust = s.sec.trust := by
  simp [State.modTsrc]
@[simp] theorem State.useSource_kept (s : State) (x1 : BitVec 2) : (State.useSource s x1).pending = s.pending ∧ (State.useSource s x1).sec.trust = s.sec.trust := by
  unfold State.useSource; split <;> simp
@[simp] theorem State.nextSource_kept (s : State) : (State.nextSource s).pending = s.pending ∧ (State.nextSource s).sec.trust = s.sec.trust := by
  unfold State.nextSource; dsimp only; repeat' split
  all_goals simp
@[simp] theorem State.disqualify_kept (s : State) (x1 : Fin 3) : (State.disqualify s x1).pending = s.pending ∧ (State.disqualify s x1).sec.trust = s.sec.trust := by
  unfold State.disqualify; dsimp only; repeat' split
  all_goals simp
@[simp] theorem State.stepTime_kept (s : State) (x1 : Nat) : (State.stepTime s x1).pending = s.pending ∧ (State.stepTime s x1).sec.trust = s.sec.trust := by
  simp [State.stepTime]
@[simp] theorem State.timSetWrite_kept (s : State) (x1 : Nat) (x2 : Origin) (x3 : Path) : (State.timSetWrite s x1 x2 x3).pending = s.pending ∧ (State.timSetWrite s x1 x2 x3).sec.trust = s.sec.trust := by
  unfold State.timSetWrite; split <;> simp
@[simp] theorem State.ptpSend_kept (s : State) (x1 : PtpOut) : (State.ptpSend s x1).pending = s.pending ∧ (State.ptpSend s x1).sec.trust = s.sec.trust := by
  simp [State.ptpSend]
@[simp] theorem State.tileTables_kept (s : State) (x1 : List (Nat × Nat)) (x2 : List LtMapEnt) (x3 : Bool) (x4 : Pos) : (State.tileTables s x1 x2 x3 x4).pending = s.pending ∧ (State.tileTables s x1 x2 x3 x4).sec.trust = s.sec.trust := by
  simp [State.tileTables]
@[simp] theorem State.writeTables_kept (s : State) (x1 : Bool) : (State.writeTables s x1).pending = s.pending ∧ (State.writeTables s x1).sec.trust = s.sec.trust := by
  simp [State.writeTables]
@[simp] theorem State.newTables_kept (s : State) : (State.newTables s).pending = s.pending ∧ (State.newTables s).sec.trust = s.sec.trust := by
  unfold State.newTables; split <;> simp
@[simp] theorem State.alert_kept (s : State) : (State.alert s).pending = s.pending ∧ (State.alert s).sec.trust = s.sec.trust := by
  simp [State.alert]
@[simp] theorem State.recap_kept (s : State) (x1 : Bool) (x2 : Nat) : (State.recap s x1 x2).pending = s.pending ∧ (State.recap s x1 x2).sec.trust = s.sec.trust := by
  unfold State.recap; dsimp only; repeat' split
  all_goals simp
@[simp] theorem State.closeAll_kept (s : State) (x1 : Pos) : (State.closeAll s x1).pending = s.pending ∧ (State.closeAll s x1).sec.trust = s.sec.trust := by
  simp [State.closeAll]
@[simp] theorem State.modPwr_kept (s : State) (x1 : Pos) (x2 : Regulator → Regulator) : (State.modPwr s x1 x2).pending = s.pending ∧ (State.modPwr s x1 x2).sec.trust = s.sec.trust := by
  simp [State.modPwr]
@[simp] theorem State.goDark_kept (s : State) (x1 : Pos) : (State.goDark s x1).pending = s.pending ∧ (State.goDark s x1).sec.trust = s.sec.trust := by
  simp [State.goDark]
@[simp] theorem State.modFlags_kept (s : State) (x1 : Pos) (x2 : TileFlags → TileFlags) : (State.modFlags s x1 x2).pending = s.pending ∧ (State.modFlags s x1 x2).sec.trust = s.sec.trust := by
  simp [State.modFlags]
@[simp] theorem State.fenceUnit_kept (s : State) (x1 : BitVec 40) (x2 : BitVec 8) (x3 : BitVec 3) : (State.fenceUnit s x1 x2 x3).pending = s.pending ∧ (State.fenceUnit s x1 x2 x3).sec.trust = s.sec.trust := by
  simp [State.fenceUnit]
@[simp] theorem State.voidBarge_kept (s : State) (x1 : Pos) (x2 : Packet) (x3 : Status) : (State.voidBarge s x1 x2 x3).pending = s.pending ∧ (State.voidBarge s x1 x2 x3).sec.trust = s.sec.trust := by
  unfold State.voidBarge; dsimp only; repeat' split
  all_goals simp
@[simp] theorem State.voidSender_kept (s : State) (x1 : Pos) (x2 : Status) : (State.voidSender s x1 x2).pending = s.pending ∧ (State.voidSender s x1 x2).sec.trust = s.sec.trust := by
  unfold State.voidSender
  split
  · simp
  · refine foldl_kept _ (fun s q => ?_) _ _
    repeat' split
    all_goals simp
@[simp] theorem State.fenceDie_kept (s : State) (x1 : Pos) (x2 : BitVec 8) (x3 : BitVec 3) : (State.fenceDie s x1 x2 x3).pending = s.pending ∧ (State.fenceDie s x1 x2 x3).sec.trust = s.sec.trust := by
  unfold State.fenceDie; split <;> simp
@[simp] theorem State.loseStack_kept (s : State) (x1 : StackN) : (State.loseStack s x1).pending = s.pending ∧ (State.loseStack s x1).sec.trust = s.sec.trust := by
  simp [State.loseStack]
@[simp] theorem State.dropAt_kept (s : State) (x1 : Pos) : (State.dropAt s x1).pending = s.pending ∧ (State.dropAt s x1).sec.trust = s.sec.trust := by
  simp [State.dropAt]
@[simp] theorem State.losePos_kept (s : State) (x1 : Pos) : (State.losePos s x1).pending = s.pending ∧ (State.losePos s x1).sec.trust = s.sec.trust := by
  simp [State.losePos]; repeat' split
  all_goals simp
@[simp] theorem State.orphan_kept (s : State) (x1 : Pos) : (State.orphan s x1).pending = s.pending ∧ (State.orphan s x1).sec.trust = s.sec.trust := by
  simp [State.orphan]
@[simp] theorem State.offTile_kept (s : State) (x1 : Pos) : (State.offTile s x1).pending = s.pending ∧ (State.offTile s x1).sec.trust = s.sec.trust := by
  simp [State.offTile]
@[simp] theorem State.goOff_kept (s : State) : (State.goOff s).pending = s.pending ∧ (State.goOff s).sec.trust = s.sec.trust := by
  simp [State.goOff]
@[simp] theorem State.logState_kept (s : State) (x1 : Bool) (x2 : PanelState) (x3 : PanelState) : (State.logState s x1 x2 x3).pending = s.pending ∧ (State.logState s x1 x2 x3).sec.trust = s.sec.trust := by
  simp [State.logState]
@[simp] theorem State.abortForLoss_kept (s : State) : (State.abortForLoss s).pending = s.pending ∧ (State.abortForLoss s).sec.trust = s.sec.trust := by
  simp [State.abortForLoss]
@[simp] theorem State.coldStart_pending (s : State) : (State.coldStart s).pending = s.pending := by
  simp [State.coldStart]
@[simp] theorem State.modReach_kept (s : State) (x1 : ReachN) (x2 : Reach → Reach) : (State.modReach s x1 x2).pending = s.pending ∧ (State.modReach s x1 x2).sec.trust = s.sec.trust := by
  simp [State.modReach]
@[simp] theorem State.holdReach_kept (s : State) (x1 : ReachN) (x2 : Bool) : (State.holdReach s x1 x2).pending = s.pending ∧ (State.holdReach s x1 x2).sec.trust = s.sec.trust := by
  simp [State.holdReach]
@[simp] theorem State.sampleReach_kept (s : State) (x1 : ReachN) (x2 : Nat) : (State.sampleReach s x1 x2).pending = s.pending ∧ (State.sampleReach s x1 x2).sec.trust = s.sec.trust := by
  simp [State.sampleReach]
@[simp] theorem State.askRail_kept (s : State) (x1 : Pos) (x2 : Rail) : (State.askRail s x1 x2).pending = s.pending ∧ (State.askRail s x1 x2).sec.trust = s.sec.trust := by
  unfold State.askRail; dsimp only; repeat' split
  all_goals simp
@[simp] theorem State.spareFailed_kept (s : State) (x1 : Pos) (x2 : BitVec 8) : (State.spareFailed s x1 x2).pending = s.pending ∧ (State.spareFailed s x1 x2).sec.trust = s.sec.trust := by
  simp [State.spareFailed]
@[simp] theorem State.spareFailedFree_kept (s : State) (x1 : Pos) : (State.spareFailedFree s x1).pending = s.pending ∧ (State.spareFailedFree s x1).sec.trust = s.sec.trust := by
  simp [State.spareFailedFree]
@[simp] theorem State.powerReq_kept (s : State) (x1 : Pos) (x2 : BitVec 2) : (State.powerReq s x1 x2).pending = s.pending ∧ (State.powerReq s x1 x2).sec.trust = s.sec.trust := by
  unfold State.powerReq; dsimp only; repeat' split
  all_goals simp
@[simp] theorem State.shortReach_kept (s : State) (x1 : ReachN) : (State.shortReach s x1).pending = s.pending ∧ (State.shortReach s x1).sec.trust = s.sec.trust := by
  simp [State.shortReach]
@[simp] theorem State.loseHouse_kept (s : State) (x1 : House) : (State.loseHouse s x1).pending = s.pending ∧ (State.loseHouse s x1).sec.trust = s.sec.trust := by
  simp [State.loseHouse]
@[simp] theorem State.endAll_kept (s : State) : (State.endAll s).pending = s.pending ∧ (State.endAll s).sec.trust = s.sec.trust := by
  simp [State.endAll]
@[simp] theorem State.askSteps_kept (s : State) (x1 : BitVec 3) (x2 : BitVec 3) : (State.askSteps s x1 x2).pending = s.pending ∧ (State.askSteps s x1 x2).sec.trust = s.sec.trust := by
  unfold State.askSteps; dsimp only; repeat' split
  all_goals simp
@[simp] theorem State.joinBanks_kept (s : State) : (State.joinBanks s).pending = s.pending ∧ (State.joinBanks s).sec.trust = s.sec.trust := by
  simp [State.joinBanks]
@[simp] theorem State.lowerBank_kept (s : State) (x1 : Bank) (x2 : Bool) : (State.lowerBank s x1 x2).pending = s.pending ∧ (State.lowerBank s x1 x2).sec.trust = s.sec.trust := by
  unfold State.lowerBank; dsimp only; repeat' split
  all_goals simp
@[simp] theorem State.raiseBank_kept (s : State) (x1 : Bank) (x2 : Bool) : (State.raiseBank s x1 x2).pending = s.pending ∧ (State.raiseBank s x1 x2).sec.trust = s.sec.trust := by
  unfold State.raiseBank; dsimp only; repeat' split
  all_goals simp
@[simp] theorem State.chartLoss_kept (s : State) : (State.chartLoss s).pending = s.pending ∧ (State.chartLoss s).sec.trust = s.sec.trust := by
  simp [State.chartLoss]
@[simp] theorem State.fenceAllDies_kept (s : State) : (State.fenceAllDies s).pending = s.pending ∧ (State.fenceAllDies s).sec.trust = s.sec.trust := by
  simp [State.fenceAllDies]
@[simp] theorem State.moor_kept (s : State) (x1 : Cause) (x2 : BitVec 7) : (State.moor s x1 x2).pending = s.pending ∧ (State.moor s x1 x2).sec.trust = s.sec.trust := by
  unfold State.moor
  split
  · simp
  · split
    · simp
    · exact kept_trans (kept_trans (kept_trans (kept_trans (kept_trans (kept_trans (kept_trans (kept_trans (State.abortAll_kept _ _ _ _) (State.endAborted_kept _ _))
        (State.fenceAllDies_kept _)) (State.askSteps_kept _ _ _)) (State.upd_kept _ ..)) (State.chartLoss_kept _)) (State.logRec_kept _ _ _ _))
        (State.logState_kept _ _ _ _)) (State.alert_kept _)
@[simp] theorem State.modTherm_kept (s : State) (x1 : Thermal → Thermal) : (State.modTherm s x1).pending = s.pending ∧ (State.modTherm s x1).sec.trust = s.sec.trust := by
  simp [State.modTherm]
@[simp] theorem State.allSafe_kept (s : State) : (State.allSafe s).pending = s.pending ∧ (State.allSafe s).sec.trust = s.sec.trust := by
  simp [State.allSafe]
@[simp] theorem State.emergency_kept (s : State) (x1 : Nat) : (State.emergency s x1).pending = s.pending ∧ (State.emergency s x1).sec.trust = s.sec.trust := by
  simp [State.emergency]
@[simp] theorem State.noteGood_kept (s : State) : (State.noteGood s).pending = s.pending ∧ (State.noteGood s).sec.trust = s.sec.trust := by
  simp [State.noteGood]
@[simp] theorem State.toS4_kept (s : State) (x1 : Bank) : (State.toS4 s x1).pending = s.pending ∧ (State.toS4 s x1).sec.trust = s.sec.trust := by
  unfold State.toS4; dsimp only; repeat' split
  all_goals simp
@[simp] theorem State.throttleBank_kept (s : State) (x1 : Bank) : (State.throttleBank s x1).pending = s.pending ∧ (State.throttleBank s x1).sec.trust = s.sec.trust := by
  unfold State.throttleBank; dsimp only; repeat' split
  all_goals simp
@[simp] theorem State.warmBank_kept (s : State) (x1 : Bank) : (State.warmBank s x1).pending = s.pending ∧ (State.warmBank s x1).sec.trust = s.sec.trust := by
  simp [State.warmBank]
@[simp] theorem State.stageReport_kept (s : State) (x1 : Fin 11) (x2 : Nat) (x3 : Nat) (x4 : Nat) (x5 : Nat) (x6 : List (BitVec 40)) : (State.stageReport s x1 x2 x3 x4 x5 x6).pending = s.pending ∧ (State.stageReport s x1 x2 x3 x4 x5 x6).sec.trust = s.sec.trust := by
  simp [State.stageReport]
@[simp] theorem State.haltStart_kept (s : State) : (State.haltStart s).pending = s.pending ∧ (State.haltStart s).sec.trust = s.sec.trust := by
  simp [State.haltStart]
@[simp] theorem State.extend_kept (s : State) (x1 : House) (x2 : Fin 8) (x3 : BitVec 256) : (State.extend s x1 x2 x3).pending = s.pending ∧ (State.extend s x1 x2 x3).sec.trust = s.sec.trust := by
  unfold State.extend; dsimp only
  repeat' split
  all_goals exact ⟨rfl, rfl⟩
@[simp] theorem State.measureBoot_kept (s : State) (x1 : House) : (State.measureBoot s x1).pending = s.pending ∧ (State.measureBoot s x1).sec.trust = s.sec.trust := by
  unfold State.measureBoot; dsimp only
  refine fold_kept (fun s i => ?_) ⟨rfl, rfl⟩
  exact fold_kept (fun s d => by simp) ⟨rfl, rfl⟩
@[simp] theorem State.setUns_kept (s : State) (x1 : Bank) : (State.setUns s x1).pending = s.pending ∧ (State.setUns s x1).sec.trust = s.sec.trust := by
  simp [State.setUns]
@[simp] theorem State.carry_kept (s : State) (x1 : Lt) (x2 : Pos) : (State.carry s x1 x2).pending = s.pending ∧ (State.carry s x1 x2).sec.trust = s.sec.trust := by
  unfold State.carry; dsimp only; repeat' split
  all_goals simp
@[simp] theorem State.placeOne_kept (s : State) (x1 : Lt) : (State.placeOne s x1).pending = s.pending ∧ (State.placeOne s x1).sec.trust = s.sec.trust := by
  unfold State.placeOne; dsimp only; repeat' split
  all_goals simp
@[simp] theorem State.borrowOne_kept (s : State) (x1 : Lt) : (State.borrowOne s x1).pending = s.pending ∧ (State.borrowOne s x1).sec.trust = s.sec.trust := by
  unfold State.borrowOne; dsimp only; repeat' split
  all_goals simp
@[simp] theorem State.place_kept (s : State) : (State.place s).pending = s.pending ∧ (State.place s).sec.trust = s.sec.trust := by
  unfold State.place; dsimp only
  refine fold_kept (fun s l => by split <;> simp) ?_
  refine fold_kept (fun s l => by simp) (fold_kept (fun s l => by simp) (fold_kept (fun s l => by simp) (by simp)))
@[simp] theorem State.takeOut_kept (s : State) (x1 : BitVec 40) (x2 : Bool) : (State.takeOut s x1 x2).pending = s.pending ∧ (State.takeOut s x1 x2).sec.trust = s.sec.trust := by
  unfold State.takeOut; dsimp only; repeat' split
  all_goals simp
@[simp] theorem State.decideUnit_kept (s : State) (x1 : BitVec 40) : (State.decideUnit s x1).pending = s.pending ∧ (State.decideUnit s x1).sec.trust = s.sec.trust := by
  unfold State.decideUnit; dsimp only; repeat' split
  all_goals simp
@[simp] theorem State.decideUnits_kept (s : State) : (State.decideUnits s).pending = s.pending ∧ (State.decideUnits s).sec.trust = s.sec.trust := by
  simp [State.decideUnits]
@[simp] theorem State.describe_kept (s : State) : (State.describe s).pending = s.pending ∧ (State.describe s).sec.trust = s.sec.trust := by
  simp [State.describe]
@[simp] theorem State.requalified_kept (s : State) : (State.requalified s).pending = s.pending ∧ (State.requalified s).sec.trust = s.sec.trust := by
  unfold State.requalified; split <;> simp
@[simp] theorem State.act00_kept (s : State) (x1 : StageIn) : (State.act00 s x1).pending = s.pending ∧ (State.act00 s x1).sec.trust = s.sec.trust := by
  simp [State.act00]
@[simp] theorem State.act01_kept (s : State) : (State.act01 s).pending = s.pending ∧ (State.act01 s).sec.trust = s.sec.trust := by
  simp [State.act01]
@[simp] theorem State.act02_kept (s : State) (x1 : StageIn) : (State.act02 s x1).pending = s.pending ∧ (State.act02 s x1).sec.trust = s.sec.trust := by
  unfold State.act02; dsimp only
  rw [(State.modTsrc_kept _ _).1, (State.modTsrc_kept _ _).2, (State.stepTime_kept _ _).1, (State.stepTime_kept _ _).2]
  refine fold_kept (fun s a => by simp) ?_
  split <;> simp
@[simp] theorem State.act03_kept (s : State) (x1 : StageIn) (x2 : Word) : (State.act03 s x1 x2).pending = s.pending ∧ (State.act03 s x1 x2).sec.trust = s.sec.trust := by
  simp [State.act03]
@[simp] theorem State.act04_kept (s : State) (x1 : StageIn) : (State.act04 s x1).pending = s.pending ∧ (State.act04 s x1).sec.trust = s.sec.trust := by
  unfold State.act04; dsimp only
  refine fold_kept (fun s p => ?_) (fold_kept (fun s k => ?_) ⟨rfl, rfl⟩)
  · repeat' split
    all_goals simp
  · repeat' split
    · simp
    · simp
    · simp
@[simp] theorem State.act05_kept (s : State) (x1 : StageIn) : (State.act05 s x1).pending = s.pending ∧ (State.act05 s x1).sec.trust = s.sec.trust := by
  unfold State.act05; dsimp only
  simp only [Security.trust_upd]
  refine fold_kept (fun s p => ?_) ⟨rfl, rfl⟩
  split <;> simp
@[simp] theorem State.act06_kept (s : State) : (State.act06 s).pending = s.pending ∧ (State.act06 s).sec.trust = s.sec.trust := by
  simp [State.act06]
@[simp] theorem State.act07_kept (s : State) (x1 : StageIn) : (State.act07 s x1).pending = s.pending ∧ (State.act07 s x1).sec.trust = s.sec.trust := by
  unfold State.act07; dsimp only
  simp only [Security.trust_upd]
  refine fold_kept (fun s p => ?_) ⟨rfl, rfl⟩
  repeat' split
  all_goals simp
@[simp] theorem State.seamUns_kept (s : State) : (State.seamUns s).pending = s.pending ∧ (State.seamUns s).sec.trust = s.sec.trust := by
  simp [State.seamUns]
@[simp] theorem State.chartChosen_kept (s : State) (x1 : BitVec 5 × BitVec 5) : (State.chartChosen s x1).pending = s.pending ∧ (State.chartChosen s x1).sec.trust = s.sec.trust := by
  simp [State.chartChosen]
@[simp] theorem State.act08_kept (s : State) (x1 : StageIn) : (State.act08 s x1).pending = s.pending ∧ (State.act08 s x1).sec.trust = s.sec.trust := by
  unfold State.act08
  extract_lets s1 s2 s3 s4
  have h2 : s2.pending = s.pending ∧ s2.sec.trust = s.sec.trust := kept_trans (t := s1) (by simp [s1]) (State.requalified_kept s1)
  have h3 : s3.pending = s.pending ∧ s3.sec.trust = s.sec.trust := fold_kept (fun s p => by split <;> simp) h2
  have h4 : s4.pending = s.pending ∧ s4.sec.trust = s.sec.trust := ⟨(State.allUts_pending ..).trans h3.1, (congrArg _ (State.allUts_sec ..)).trans h3.2⟩
  split
  · exact h4
  · exact kept_trans h4 (State.newTables_kept _)
@[simp] theorem State.act09_kept (s : State) (x1 : StageIn) : (State.act09 s x1).pending = s.pending ∧ (State.act09 s x1).sec.trust = s.sec.trust := by
  unfold State.act09; dsimp only
  simp only [Security.trust_upd]
  exact fold_kept (fun s p => by simp) ⟨rfl, rfl⟩
@[simp] theorem State.sealAll_kept (s : State) : (State.sealAll s).pending = s.pending ∧ (State.sealAll s).sec.trust = s.sec.trust := by
  simp [State.sealAll]
@[simp] theorem State.resetDone_kept (s : State) (x1 : Status) : (State.resetDone s x1).pending = s.pending ∧ (State.resetDone s x1).sec.trust = s.sec.trust := by
  simp [State.resetDone]
@[simp] theorem State.act0A_kept (s : State) (x1 : StageIn) : (State.act0A s x1).pending = s.pending ∧ (State.act0A s x1).sec.trust = s.sec.trust := by
  unfold State.act0A
  extract_lets s0 s1 e1 e2 s2 e3
  have h0 : s0.pending = s.pending ∧ s0.sec.trust = s.sec.trust := by
    refine kept_trans ?_ (State.modTsrc_kept _ _)
    refine kept_trans ?_ (State.describe_kept _)
    split
    · exact ⟨rfl, rfl⟩
    · exact State.sealAll_kept s
  have h1 : s1.pending = s.pending ∧ s1.sec.trust = s.sec.trust := by
    show (if _ then _ else _ : State).pending = _ ∧ (if _ then _ else _ : State).sec.trust = _
    split
    · exact kept_trans h0 (State.resetDone_kept _ _)
    · exact h0
  have h2 : s2.pending = s.pending ∧ s2.sec.trust = s.sec.trust := kept_trans h1 (State.upd_kept s1 ..)
  split
  · exact kept_trans h2 (State.moor_kept _ _ _)
  · exact kept_trans (kept_trans (kept_trans h2 (State.upd_kept s2 ..)) (State.logState_kept _ _ _ _)) (State.alert_kept _)
@[simp] theorem State.stageAct_kept (s : State) (x1 : Nat) (x2 : StageIn) : (State.stageAct s x1 x2).pending = s.pending ∧ (State.stageAct s x1 x2).sec.trust = s.sec.trust := by
  unfold State.stageAct; repeat' split
  all_goals simp
@[simp] theorem State.runStage_kept (s : State) (x1 : Fin 11) (x2 : StageIn) (x3 : Bool) : (State.runStage s x1 x2 x3).pending = s.pending ∧ (State.runStage s x1 x2 x3).sec.trust = s.sec.trust := by
  unfold State.runStage; dsimp only; repeat' split
  all_goals simp
@[simp] theorem State.mapAck_kept (s : State) (x1 : Origin) (x2 : Path) : (State.mapAck s x1 x2).pending = s.pending ∧ (State.mapAck s x1 x2).sec.trust = s.sec.trust := by
  unfold State.mapAck; split <;> simp
@[simp] theorem State.narrowSet_kept (s : State) (x1 : Pos) (x2 : Bool) (x3 : Origin) (x4 : Path) : (State.narrowSet s x1 x2 x3 x4).pending = s.pending ∧ (State.narrowSet s x1 x2 x3 x4).sec.trust = s.sec.trust := by
  simp [State.narrowSet]
@[simp] theorem State.modRepair_kept (s : State) (x1 : Repair → Repair) : (State.modRepair s x1).pending = s.pending ∧ (State.modRepair s x1).sec.trust = s.sec.trust := by
  simp [State.modRepair]
@[simp] theorem State.soundNext_kept (s : State) (x1 : Lt) : (State.soundNext s x1).pending = s.pending ∧ (State.soundNext s x1).sec.trust = s.sec.trust := by
  simp [State.soundNext]
@[simp] theorem State.failNew_kept (s : State) (x1 : BitVec 40) (x2 : BitVec 8) : (State.failNew s x1 x2).pending = s.pending ∧ (State.failNew s x1 x2).sec.trust = s.sec.trust := by
  unfold State.failNew; split <;> simp
@[simp] theorem State.suspect_kept (s : State) (x1 : Lt) : (State.suspect s x1).pending = s.pending ∧ (State.suspect s x1).sec.trust = s.sec.trust := by
  unfold State.suspect; dsimp only; repeat' split
  all_goals simp
@[simp] theorem State.repairEvent_kept (s : State) (x1 : RepairEvent) : (State.repairEvent s x1).pending = s.pending ∧ (State.repairEvent s x1).sec.trust = s.sec.trust := by
  unfold State.repairEvent; dsimp only; repeat' split
  all_goals simp
@[simp] theorem State.startSounding_kept (s : State) (x1 : Lt) : (State.startSounding s x1).pending = s.pending ∧ (State.startSounding s x1).sec.trust = s.sec.trust := by
  unfold State.startSounding; split <;> simp
@[simp] theorem State.fenceVoted_kept (s : State) (x1 : BitVec 40) (x2 : BitVec 8) (x3 : BitVec 3) : (State.fenceVoted s x1 x2 x3).pending = s.pending ∧ (State.fenceVoted s x1 x2 x3).sec.trust = s.sec.trust := by
  unfold State.fenceVoted; dsimp only; repeat' split
  all_goals simp
@[simp] theorem State.timedEnd_kept (s : State) (x1 : Bank) : (State.timedEnd s x1).pending = s.pending ∧ (State.timedEnd s x1).sec.trust = s.sec.trust := by
  simp [State.timedEnd]
@[simp] theorem State.unsafeFrom_kept (s : State) (x1 : State) : (State.unsafeFrom s x1).pending = s.pending ∧ (State.unsafeFrom s x1).sec.trust = s.sec.trust := by
  simp [State.unsafeFrom]; repeat' split
  all_goals simp
@[simp] theorem State.noTile_kept (s : State) (x1 : Lt) : (State.noTile s x1).pending = s.pending ∧ (State.noTile s x1).sec.trust = s.sec.trust := by
  unfold State.noTile; split <;> simp
@[simp] theorem State.substBegin_kept (s : State) (x1 : Lt) (x2 : Pos) : (State.substBegin s x1 x2).pending = s.pending ∧ (State.substBegin s x1 x2).sec.trust = s.sec.trust := by
  simp [State.substBegin]
@[simp] theorem State.substPlace_kept (s : State) (x1 : Lt) (x2 : Pos) : (State.substPlace s x1 x2).pending = s.pending ∧ (State.substPlace s x1 x2).sec.trust = s.sec.trust := by
  simp [State.substPlace]
/-- The state in which an access to a model line, or a copy, leaves the panel. -/
def Acc.state : Acc → State
  | .ended s _ _ => s
  | .waits s => s
def Copied.state : Copied → State
  | .done s => s
  | .failed s _ _ => s
  | .waits s => s
theorem State.modelLine_kept (s : State) (a : Nat) (w : Option (List Byte)) :
    (s.modelLine a w).state.pending = s.pending ∧ (s.modelLine a w).state.sec.trust = s.sec.trust := by
  unfold State.modelLine
  repeat' split
  all_goals first
    | (simp [Acc.state]; done)
    | (next h => exact pair_kept (State.lineGet_kept _ _ _) h)
theorem State.modelLines_kept (s : State) (a n : Nat) (w : Option (List Byte)) (o : List Byte) :
    (s.modelLines a n w o).state.pending = s.pending ∧ (s.modelLines a n w o).state.sec.trust = s.sec.trust := by
  induction n generalizing s a w o with
  | zero => exact ⟨rfl, rfl⟩
  | succ n ih =>
    unfold State.modelLines
    have hk := State.modelLine_kept s a (w.map fun bs => bs.take 64)
    split
    · next h => rw [h] at hk; exact hk
    · next h =>
      rw [h] at hk
      split
      · exact kept_trans hk (ih _ _ _ _)
      · exact hk
theorem State.restorePut_kept (s : State) (a : Word) (bs : List Byte) :
    (s.restorePut a bs).state.pending = s.pending ∧ (s.restorePut a bs).state.sec.trust = s.sec.trust := by
  unfold State.restorePut
  have hk := State.modelLine_kept s (addrModel a) (some bs)
  dsimp only
  split
  · split
    all_goals (next h => rw [h] at hk; exact hk)
  · repeat' split
    all_goals simp [Copied.state]
theorem State.restoreLines_kept (n : Nat) (a b : Word) (s : State) :
    (State.restoreLines n a b s).state.pending = s.pending ∧ (State.restoreLines n a b s).state.sec.trust = s.sec.trust := by
  induction n generalizing s a b with
  | zero => exact ⟨rfl, rfl⟩
  | succ n ih =>
    unfold State.restoreLines
    have hm := State.modelLine_kept s (addrModel a) none
    dsimp only
    split
    · next h =>
      split at h
      · rw [h] at hm; exact hm
      · split at h <;> cases h
    · next s1 bs h =>
      have h1 : s1.pending = s.pending ∧ s1.sec.trust = s.sec.trust := by
        split at h
        · rw [h] at hm; exact hm
        · split at h <;> (cases h; exact ⟨rfl, rfl⟩)
      have hp := State.restorePut_kept s1 b bs
      split
      · next h2 => rw [h2] at hp; exact kept_trans h1 (kept_trans hp (ih _ _ _))
      · exact kept_trans h1 hp
    · next s1 st bs _ h =>
      split at h
      · rw [h] at hm; exact hm
      · split at h <;> (cases h; exact ⟨rfl, rfl⟩)
@[simp] theorem State.restoreFor_kept (x0 : Lt) (x1 : List RestoreEnt) (s : State) : (State.restoreFor x0 x1 s).2.pending = s.pending ∧ (State.restoreFor x0 x1 s).2.sec.trust = s.sec.trust := by
  induction x1 generalizing s with
  | nil => simp [State.restoreFor]
  | cons e r ih =>
    unfold State.restoreFor
    split
    · exact ih s
    · have hk := State.restoreLines_kept (e.len.toNat / 64) e.src e.dst s
      split
      · next h => rw [h] at hk; exact hk
      · next h => rw [h] at hk; exact kept_trans hk (ih _)
      · next s1 h =>
        rw [h] at hk
        have hi := ih s1
        split
        · next h2 => rw [h2] at hi; exact kept_trans hk hi
        · next h2 => rw [h2] at hi; exact kept_trans hk hi
@[simp] theorem State.dropAccepted_kept (s : State) (x1 : Pos) (x2 : Bool) : (State.dropAccepted s x1 x2).pending = s.pending ∧ (State.dropAccepted s x1 x2).sec.trust = s.sec.trust := by
  simp [State.dropAccepted]
@[simp] theorem State.dropUninjected_kept (s : State) (x1 : Pos) : (State.dropUninjected s x1).pending = s.pending ∧ (State.dropUninjected s x1).sec.trust = s.sec.trust := by
  simp [State.dropUninjected]
@[simp] theorem State.coreResetAt_kept (s : State) (x1 : Pos) : (State.coreResetAt s x1).pending = s.pending ∧ (State.coreResetAt s x1).sec.trust = s.sec.trust := by
  simp [State.coreResetAt]
@[simp] theorem State.tileResetAt_kept (s : State) (x1 : Pos) (x2 : Bool) : (State.tileResetAt s x1 x2).pending = s.pending ∧ (State.tileResetAt s x1 x2).sec.trust = s.sec.trust := by
  unfold State.tileResetAt; dsimp only; repeat' split
  all_goals simp
@[simp] theorem State.holdStack_kept (s : State) (x1 : StackN) : (State.holdStack s x1).pending = s.pending ∧ (State.holdStack s x1).sec.trust = s.sec.trust := by
  simp [State.holdStack]
@[simp] theorem State.reachResetAt_kept (s : State) (x1 : ReachN) (x2 : Bool) : (State.reachResetAt s x1 x2).pending = s.pending ∧ (State.reachResetAt s x1 x2).sec.trust = s.sec.trust := by
  simp [State.reachResetAt]
@[simp] theorem State.updateEnd_kept (s : State) : (State.updateEnd s).pending = s.pending ∧ (State.updateEnd s).sec.trust = s.sec.trust := by
  unfold State.updateEnd
  split
  · rw [(State.logRec_kept _ _ _ _).1, (State.logRec_kept _ _ _ _).2]; exact ⟨rfl, rfl⟩
  · simp
@[simp] theorem State.unitUpdated_kept (s : State) (x1 : Nat) (x2 : Nat) : (State.unitUpdated s x1 x2).pending = s.pending ∧ (State.unitUpdated s x1 x2).sec.trust = s.sec.trust := by
  unfold State.unitUpdated; dsimp only
  rw [(State.updateEnd_kept _).1, (State.updateEnd_kept _).2]
  split
  · refine fold_kept (fun s a => by simp) ?_
    simp
  · simp
@[simp] theorem State.linkResetAt_kept (s : State) (x1 : Nat) : (State.linkResetAt s x1).pending = s.pending ∧ (State.linkResetAt s x1).sec.trust = s.sec.trust := by
  unfold State.linkResetAt; split <;> simp
@[simp] theorem State.houseResetAt_kept (s : State) (x1 : House) : (State.houseResetAt s x1).pending = s.pending ∧ (State.houseResetAt s x1).sec.trust = s.sec.trust := by
  unfold State.houseResetAt; split <;> simp
@[simp] theorem State.warmCanal_kept (s : State) : (State.warmCanal s).pending = s.pending ∧ (State.warmCanal s).sec.trust = s.sec.trust := by
  exact ⟨rfl, rfl⟩
theorem State.allTiles_keeps {s t : State} {f : Pos → Tile → Tile} (h : t.pending = s.pending ∧ t.sec.trust = s.sec.trust) :
    (t.allTiles f).pending = s.pending ∧ (t.allTiles f).sec.trust = s.sec.trust := by
  rw [State.allTiles_pending, State.allTiles_sec]; exact h
@[simp] theorem State.warmReset_kept (s : State) : (State.warmReset s).pending = s.pending ∧ (State.warmReset s).sec.trust = s.sec.trust := by
  unfold State.warmReset
  exact kept_trans (kept_trans (kept_trans (kept_trans (State.allTiles_keeps (fold_kept (fun s k => by simp) (fold_kept (fun s k => by simp)
    (fold_kept (fun s k => by simp) (kept_trans (fold_kept (fun s k => by simp) (fold_kept (fun s k => by simp)
    (kept_trans (State.abortAll_kept _ _ _ _) (State.endAborted_kept _ _)))) (State.upd_kept _ ..)))))) (State.warmCanal_kept _))
    (State.recap_kept _ _ _)) (State.logState_kept _ _ _ _)) (State.alert_kept _)
@[simp] theorem State.resetBegin_kept (s : State) : (State.resetBegin s).pending = s.pending ∧ (State.resetBegin s).sec.trust = s.sec.trust := by
  unfold State.resetBegin; dsimp only; repeat' split
  all_goals simp
@[simp] theorem State.askReset_kept (s : State) (x1 : BitVec 4) (x2 : Bool) (x3 : Bool) (x4 : BitVec 2) (x5 : BitVec 8) (x6 : Origin) (x7 : Path) : (State.askReset s x1 x2 x3 x4 x5 x6 x7).pending = s.pending ∧ (State.askReset s x1 x2 x3 x4 x5 x6 x7).sec.trust = s.sec.trust := by
  unfold State.askReset; dsimp only; repeat' split
  all_goals simp
@[simp] theorem State.fwReset_kept (s : State) (x1 : BitVec 4) (x2 : Bool) (x3 : Bool) (x4 : BitVec 2) (x5 : Nat) : (State.fwReset s x1 x2 x3 x4 x5).pending = s.pending ∧ (State.fwReset s x1 x2 x3 x4 x5).sec.trust = s.sec.trust := by
  simp [State.fwReset]
@[simp] theorem State.updateNext_kept (s : State) : (State.updateNext s).pending = s.pending ∧ (State.updateNext s).sec.trust = s.sec.trust := by
  unfold State.updateNext; repeat' split
  all_goals simp
@[simp] theorem State.updateStepDone_kept (s : State) (x1 : House) : (State.updateStepDone s x1).pending = s.pending ∧ (State.updateStepDone s x1).sec.trust = s.sec.trust := by
  unfold State.updateStepDone
  split <;> exact ⟨rfl, rfl⟩
@[simp] theorem State.tileBack_kept (s : State) (x1 : Pos) : (State.tileBack s x1).pending = s.pending ∧ (State.tileBack s x1).sec.trust = s.sec.trust := by
  simp [State.tileBack]
@[simp] theorem State.stackBack_kept (s : State) (x1 : StackN) : (State.stackBack s x1).pending = s.pending ∧ (State.stackBack s x1).sec.trust = s.sec.trust := by
  simp [State.stackBack]
@[simp] theorem State.houseBack_kept (s : State) (x1 : House) (x2 : Bool) : (State.houseBack s x1 x2).pending = s.pending ∧ (State.houseBack s x1 x2).sec.trust = s.sec.trust := by
  unfold State.houseBack; dsimp only
  repeat' split
  all_goals simp
@[simp] theorem State.resetReturn_kept (s : State) : (State.resetReturn s).pending = s.pending ∧ (State.resetReturn s).sec.trust = s.sec.trust := by
  unfold State.resetReturn; dsimp only; repeat' split
  all_goals simp
@[simp] theorem State.enterStandby_kept (s : State) : (State.enterStandby s).pending = s.pending ∧ (State.enterStandby s).sec.trust = s.sec.trust := by
  simp [State.enterStandby]
@[simp] theorem State.askStandby_kept (s : State) : (State.askStandby s).pending = s.pending ∧ (State.askStandby s).sec.trust = s.sec.trust := by
  unfold State.askStandby; dsimp only; repeat' split
  all_goals simp
@[simp] theorem State.askActive_kept (s : State) : (State.askActive s).pending = s.pending ∧ (State.askActive s).sec.trust = s.sec.trust := by
  unfold State.askActive; dsimp only; repeat' split
  all_goals simp
@[simp] theorem State.writeMesh_kept (s : State) (x1 : Pos) (x2 : Nat) (x3 : Word) : (State.writeMesh s x1 x2 x3).pending = s.pending ∧ (State.writeMesh s x1 x2 x3).sec.trust = s.sec.trust := by
  unfold State.writeMesh; repeat' split
  all_goals simp
@[simp] theorem State.writePwr_kept (s : State) (x1 : Pos) (x2 : Nat) (x3 : Word) : (State.writePwr s x1 x2 x3).pending = s.pending ∧ (State.writePwr s x1 x2 x3).sec.trust = s.sec.trust := by
  unfold State.writePwr; split <;> simp
@[simp] theorem State.writeAxlCfg_kept (s : State) (x1 : PortN) (x2 : Word) : (State.writeAxlCfg s x1 x2).pending = s.pending ∧ (State.writeAxlCfg s x1 x2).sec.trust = s.sec.trust := by
  unfold State.writeAxlCfg; dsimp only; repeat' split
  all_goals simp
@[simp] theorem State.writeAxl_kept (s : State) (x1 : Pos) (x2 : Nat) (x3 : Word) : (State.writeAxl s x1 x2 x3).pending = s.pending ∧ (State.writeAxl s x1 x2 x3).sec.trust = s.sec.trust := by
  unfold State.writeAxl; repeat' split
  all_goals simp
@[simp] theorem State.writeHbm_kept (s : State) (x1 : Pos) (x2 : Nat) (x3 : Word) : (State.writeHbm s x1 x2 x3).pending = s.pending ∧ (State.writeHbm s x1 x2 x3).sec.trust = s.sec.trust := by
  unfold State.writeHbm; repeat' split
  all_goals simp
@[simp] theorem State.storeSealed_kept (s : State) (x1 : Origin) (x2 : Path) (x3 : Nat) (x4 : Nat) (x5 : Nat) (x6 : State → State) (hx6 : ∀ y0, (x6 y0).pending = y0.pending ∧ (x6 y0).sec.trust = y0.sec.trust) : (State.storeSealed s x1 x2 x3 x4 x5 x6).pending = s.pending ∧ (State.storeSealed s x1 x2 x3 x4 x5 x6).sec.trust = s.sec.trust := by
  simp only [State.storeSealed]; repeat' split
  all_goals simp [*]
@[simp] theorem State.writeTile_kept (s : State) (x1 : Pos) (x2 : Nat) (x3 : Word) (x4 : Origin) (x5 : Path) : (State.writeTile s x1 x2 x3 x4 x5).pending = s.pending ∧ (State.writeTile s x1 x2 x3 x4 x5).sec.trust = s.sec.trust := by
  unfold State.writeTile; dsimp only; repeat' split
  all_goals simp
@[simp] theorem State.writeReset_kept (s : State) (x1 : Word) (x2 : Origin) (x3 : Path) : (State.writeReset s x1 x2 x3).pending = s.pending ∧ (State.writeReset s x1 x2 x3).sec.trust = s.sec.trust := by
  unfold State.writeReset; dsimp only; repeat' split
  all_goals simp
@[simp] theorem State.writePstate_kept (s : State) (x1 : Word) : (State.writePstate s x1).pending = s.pending ∧ (State.writePstate s x1).sec.trust = s.sec.trust := by
  unfold State.writePstate; split <;> simp
@[simp] theorem State.writeLkh_kept (s : State) (x1 : Nat) (x2 : Word) (x3 : Origin) (x4 : Path) : (State.writeLkh s x1 x2 x3 x4).pending = s.pending ∧ (State.writeLkh s x1 x2 x3 x4).sec.trust = s.sec.trust := by
  unfold State.writeLkh; repeat' split
  all_goals simp
@[simp] theorem State.writePtp_kept (s : State) (x1 : Word) : (State.writePtp s x1).pending = s.pending ∧ (State.writePtp s x1).sec.trust = s.sec.trust := by
  unfold State.writePtp; dsimp only; repeat' split
  all_goals simp
@[simp] theorem State.writeTim_kept (s : State) (x1 : Nat) (x2 : Word) (x3 : Origin) (x4 : Path) : (State.writeTim s x1 x2 x3 x4).pending = s.pending ∧ (State.writeTim s x1 x2 x3 x4).sec.trust = s.sec.trust := by
  unfold State.writeTim; split <;> simp
@[simp] theorem State.writeCap_kept (s : State) (x1 : Word) (x2 : Origin) (x3 : Path) : (State.writeCap s x1 x2 x3).pending = s.pending ∧ (State.writeCap s x1 x2 x3).sec.trust = s.sec.trust := by
  unfold State.writeCap; dsimp only; repeat' split
  all_goals simp
@[simp] theorem State.writePower_kept (s : State) (x1 : Nat) (x2 : Word) (x3 : Origin) (x4 : Path) : (State.writePower s x1 x2 x3 x4).pending = s.pending ∧ (State.writePower s x1 x2 x3 x4).sec.trust = s.sec.trust := by
  unfold State.writePower; repeat' split
  all_goals simp
@[simp] theorem State.writeClk_kept (s : State) (x1 : Nat) (x2 : Word) : (State.writeClk s x1 x2).pending = s.pending ∧ (State.writeClk s x1 x2).sec.trust = s.sec.trust := by
  unfold State.writeClk; dsimp only; repeat' split
  all_goals simp
@[simp] theorem State.writeTherm_kept (s : State) (x1 : Nat) (x2 : Word) : (State.writeTherm s x1 x2).pending = s.pending ∧ (State.writeTherm s x1 x2).sec.trust = s.sec.trust := by
  unfold State.writeTherm; split <;> simp
@[simp] theorem State.writeKclCfg_kept (s : State) (x1 : KPort) (x2 : Word) : (State.writeKclCfg s x1 x2).pending = s.pending ∧ (State.writeKclCfg s x1 x2).sec.trust = s.sec.trust := by
  unfold State.writeKclCfg; dsimp only; repeat' split
  all_goals simp
@[simp] theorem State.writeCwin_kept (s : State) (x1 : Fin 8) (x2 : Word) : (State.writeCwin s x1 x2).pending = s.pending ∧ (State.writeCwin s x1 x2).sec.trust = s.sec.trust := by
  simp [State.writeCwin]
@[simp] theorem State.writeKcl_kept (s : State) (x1 : Nat) (x2 : Word) (x3 : Origin) (x4 : Path) : (State.writeKcl s x1 x2 x3 x4).pending = s.pending ∧ (State.writeKcl s x1 x2 x3 x4).sec.trust = s.sec.trust := by
  unfold State.writeKcl; dsimp only; repeat' split
  all_goals simp
@[simp] theorem State.writeSec_kept (s : State) (x1 : Nat) (x2 : Word) (x3 : Origin) (x4 : Path) : (State.writeSec s x1 x2 x3 x4).pending = s.pending ∧ (State.writeSec s x1 x2 x3 x4).sec.trust = s.sec.trust := by
  unfold State.writeSec; dsimp only
  repeat' split
  all_goals simp
@[simp] theorem State.writeLog_kept (s : State) (x1 : Nat) (x2 : Word) : (State.writeLog s x1 x2).pending = s.pending ∧ (State.writeLog s x1 x2).sec.trust = s.sec.trust := by
  unfold State.writeLog; dsimp only; repeat' split
  all_goals simp
@[simp] theorem State.writeChart_kept (s : State) (x1 : Nat) (x2 : Word) : (State.writeChart s x1 x2).pending = s.pending ∧ (State.writeChart s x1 x2).sec.trust = s.sec.trust := by
  unfold State.writeChart; repeat' split
  all_goals simp
@[simp] theorem State.writeRuntime_kept (s : State) (x1 : Word) : (State.writeRuntime s x1).pending = s.pending ∧ (State.writeRuntime s x1).sec.trust = s.sec.trust := by
  unfold State.writeRuntime; split <;> simp
@[simp] theorem State.writeCanal_kept (s : State) (x1 : Nat) (x2 : Word) (x3 : Origin) (x4 : Path) : (State.writeCanal s x1 x2 x3 x4).pending = s.pending ∧ (State.writeCanal s x1 x2 x3 x4).sec.trust = s.sec.trust := by
  unfold State.writeCanal; dsimp only; repeat' split
  all_goals simp
@[simp] theorem State.writeRaw_kept (s : State) (x1 : RegAt) (x2 : Word) (x3 : Origin) (x4 : Path) : (State.writeRaw s x1 x2 x3 x4).pending = s.pending ∧ (State.writeRaw s x1 x2 x3 x4).sec.trust = s.sec.trust := by
  unfold State.writeRaw; split <;> simp
@[simp] theorem State.writeReg_kept (s : State) (x1 : RegAt) (x2 : Word) (x3 : Origin) (x4 : Path) : (State.writeReg s x1 x2 x3 x4).pending = s.pending ∧ (State.writeReg s x1 x2 x3 x4).sec.trust = s.sec.trust := by
  unfold State.writeReg; dsimp only; repeat' split
  all_goals simp
@[simp] theorem State.niRead_kept (s : State) (x1 : Pos) (x2 : Packet) (x3 : Nat) : (State.niRead s x1 x2 x3).pending = s.pending ∧ (State.niRead s x1 x2 x3).sec.trust = s.sec.trust := by
  unfold State.niRead; dsimp only; repeat' split
  all_goals simp
@[simp] theorem State.serveRead_kept (s : State) (x1 : Pos) (x2 : Packet) (x3 : Nat) : (State.serveRead s x1 x2 x3).pending = s.pending ∧ (State.serveRead s x1 x2 x3).sec.trust = s.sec.trust := by
  unfold State.serveRead; dsimp only; repeat' split
  all_goals simp
@[simp] theorem State.serveCanalRead_kept (s : State) (x1 : Fin 5) (x2 : Packet) : (State.serveCanalRead s x1 x2).pending = s.pending ∧ (State.serveCanalRead s x1 x2).sec.trust = s.sec.trust := by
  unfold State.serveCanalRead; dsimp only; repeat' split
  all_goals simp
@[simp] theorem State.towAnswer_kept (s : State) (x1 : RegAt) (x2 : Status) (x3 : List Byte) : (State.towAnswer s x1 x2 x3).pending = s.pending ∧ (State.towAnswer s x1 x2 x3).sec.trust = s.sec.trust := by
  unfold State.towAnswer; split <;> simp
@[simp] theorem State.towServe_kept (s : State) (x1 : Word) (x2 : Option Word) : (State.towServe s x1 x2).pending = s.pending ∧ (State.towServe s x1 x2).sec.trust = s.sec.trust := by
  unfold State.towServe; dsimp only; repeat' split
  all_goals simp
@[simp] theorem State.logUpdate_kept (s : State) (x1 : PackageIn) (x2 : Status) : (State.logUpdate s x1 x2).pending = s.pending ∧ (State.logUpdate s x1 x2).sec.trust = s.sec.trust := by
  simp [State.logUpdate]
@[simp] theorem State.mgmtWrite_kept (s : State) (x1 : MgmtReq) : (State.mgmtWrite s x1).pending = s.pending ∧ (State.mgmtWrite s x1).sec.trust = s.sec.trust := by
  unfold State.mgmtWrite; dsimp only
  split <;> simp
@[simp] theorem State.logCert_kept (s : State) (x1 : Cert) (x2 : Status) : (State.logCert s x1 x2).pending = s.pending ∧ (State.logCert s x1 x2).sec.trust = s.sec.trust := by
  simp [State.logCert]
@[simp] theorem State.certEnd_kept (s : State) (x1 : Status) : (State.certEnd s x1).pending = s.pending ∧ (State.certEnd s x1).sec.trust = s.sec.trust := by
  simp [State.certEnd]
@[simp] theorem State.certAccept_pending (s : State) (x1 : Cert) : (State.certAccept s x1).pending = s.pending := by
  unfold State.certAccept; dsimp only
  rw [(State.certEnd_kept _ _).1]
  rw [(fold_kept (s := _) (fun s a => by simp) ⟨rfl, rfl⟩).1]
  simp
@[simp] theorem State.certDecide_pending (s : State) (x1 : Bool) (x2 : List Byte) : (State.certDecide s x1 x2).pending = s.pending := by
  unfold State.certDecide
  repeat' split
  all_goals simp
@[simp] theorem State.carryOut_pending (s : State) (x1 : CertAct) (x2 : State → State) (hx2 : ∀ y0, (x2 y0).pending = y0.pending ∧ (x2 y0).sec.trust = y0.sec.trust) : (State.carryOut s x1 x2).pending = s.pending := by
  simp only [State.carryOut]; repeat' split
  all_goals simp [*]
@[simp] theorem State.setQuar_kept (s : State) (x1 : BitVec 256) (x2 : Bool) : (State.setQuar s x1 x2).pending = s.pending ∧ (State.setQuar s x1 x2).sec.trust = s.sec.trust := by
  simp [State.setQuar]
@[simp] theorem State.logFuse_kept (s : State) (x1 : Nat) (x2 : Nat) (x3 : Nat) : (State.logFuse s x1 x2 x3).pending = s.pending ∧ (State.logFuse s x1 x2 x3).sec.trust = s.sec.trust := by
  simp [State.logFuse]

end Sys2Proof.Machine
end

