-- ==== Sys2Proof/Laws/Memory.lean ====
section
/-! SUPPORT. Every operation on a sparse table, and so on a memory, keeps the canonical form: keys strictly rising, no entry equal to the
default. The memories of State.reset have it. -/

set_option Elab.async false

namespace Sys2Proof.Machine

open Sys2Proof

section
variable {α : Type}

theorem tblAbove_mono {m : Tbl α} {j k : Nat} (h : tblAbove k m = true) (hj : j ≤ k) : tblAbove j m = true := by
  cases m with
  | nil => rfl
  | cons c r => simp only [tblAbove, decide_eq_true_eq] at h ⊢; omega

variable [DecidableEq α]

theorem tblAbove_put {d : α} {m : Tbl α} {j k : Nat} {v : α} (h : tblAbove j m = true) (hk : j < k) (hm : tblWf d m = true) :
    tblAbove j (tblPut d m k v) = true := by
  cases m with
  | nil => simp only [tblPut]; split <;> simp [tblAbove, hk]
  | cons c r =>
    obtain ⟨k', v'⟩ := c
    simp only [tblAbove, decide_eq_true_eq] at h
    simp only [tblWf, Bool.and_eq_true, decide_eq_true_eq] at hm
    simp only [tblPut]
    repeat' split
    all_goals first
      | (simp [tblAbove, h, hk]; done)
      | exact tblAbove_mono hm.1.2 (Nat.le_of_lt h)

/-- A store keeps the canonical form. -/
theorem tblPut_wf {d : α} {m : Tbl α} (k : Nat) (v : α) (h : tblWf d m = true) : tblWf d (tblPut d m k v) = true := by
  induction m with
  | nil => simp only [tblPut]; split <;> simp_all [tblWf, tblAbove]
  | cons c r ih =>
    obtain ⟨k', v'⟩ := c
    have hm := h
    simp only [tblWf, Bool.and_eq_true, decide_eq_true_eq] at h
    simp only [tblPut]
    split
    · split
      · exact hm
      · simp_all [tblWf, tblAbove]
    · split
      · split
        · exact h.2
        · subst k; simp_all [tblWf]
      · have hk : k' < k := by omega
        simp only [tblWf, Bool.and_eq_true, decide_eq_true_eq]
        exact ⟨⟨h.1.1, tblAbove_put h.1.2 hk h.2⟩, ih h.2⟩

/-- Entries left out of a canonical table leave a canonical table. -/
theorem tblFilter_wf {d : α} {m : Tbl α} (f : Nat × α → Bool) (h : tblWf d m = true) : tblWf d (m.filter f) = true ∧
    ∀ k, tblAbove k m = true → tblAbove k (m.filter f) = true := by
  induction m with
  | nil => simp [tblWf, tblAbove]
  | cons c r ih =>
    obtain ⟨k', v'⟩ := c
    simp only [tblWf, Bool.and_eq_true, decide_eq_true_eq] at h
    obtain ⟨h1, h2⟩ := ih h.2
    simp only [List.filter_cons]
    split
    · refine ⟨?_, fun k hk => hk⟩
      simp only [tblWf, Bool.and_eq_true, decide_eq_true_eq]
      exact ⟨⟨h.1.1, h2 k' h.1.2⟩, h1⟩
    · refine ⟨h1, fun k hk => h2 k (tblAbove_mono h.1.2 ?_)⟩
      simp only [tblAbove, decide_eq_true_eq] at hk
      omega

end

/-- Writing a byte keeps the canonical form. -/
theorem memPut_wf {m : Mem} (a : Nat) (b : Byte) (h : Memory.wf m = true) : Memory.wf (memPut m a b) = true := tblPut_wf a b h

/-- Writing bytes keeps the canonical form. -/
theorem memWrite_wf {m : Mem} (a : Nat) (bs : List Byte) (h : Memory.wf m = true) : Memory.wf (memWrite m a bs) = true := by
  induction bs generalizing m a with
  | nil => exact h
  | cons b r ih => exact ih (a + 1) (memPut_wf a b h)

/-- Writing a number keeps the canonical form. -/
theorem memPutNat_wf {m : Mem} (a n v : Nat) (h : Memory.wf m = true) : Memory.wf (memPutNat m a n v) = true := memWrite_wf a _ h

/-- Zeroing a range keeps the canonical form. -/
theorem memZero_wf {m : Mem} (a n : Nat) (h : Memory.wf m = true) : Memory.wf (memZero m a n) = true := (tblFilter_wf _ h).1

/-- Each memory of the panel is canonical: scratchpads, stacks, companion memory. -/
def State.memWf (s : State) : Prop :=
  (∀ p : Pos, Memory.wf s.tiles[p].core.spd.mem = true) ∧ (∀ m : StackN, Memory.wf s.hbm[m].mem = true) ∧ Memory.wf s.host = true

theorem reset_memWf : State.reset.memWf := by
  refine ⟨fun p => ?_, fun m => ?_, rfl⟩
  · simp [State.reset, Memory.wf, tblWf]
  · simp [State.reset, Memory.wf, tblWf]

end Sys2Proof.Machine
end

