-- ==== Sys2Proof/Laws/PerInstr.lean ====
section
/-! SUPPORT. The family Slots: every slot command's opcode is assigned in the opcode map of its slot (Tables 6.3, 6.4, 6.6,
6.8), and it is well formed exactly when its bundle holds that opcode in that slot. One lemma per constructor. -/

set_option Elab.async false

namespace Sys2Proof.Laws.Slots

open Sys2Proof Sys2Proof.Machine

/-- The opcode map of a slot assigns the opcode. -/
def assigned (k : SlotK) (op : Nat) : Bool :=
  match k with
  | .c => (cInfo op).isSome
  | .v => (vInfo op).isSome
  | .m => (mInfo op).isSome
  | .x => (xInfo op).isSome

def Statement (c : Instr) : Prop :=
  match c.slotOf with
  | none => True
  | some (k, op, i) => assigned k op = true ∧ c.wf = slotHolds k op i

theorem timeBeacon (a : Nat) : Statement (.timeBeacon a) := trivial
theorem beaconMiss (a : Pos) (b : Bool) (c : Nat) : Statement (.beaconMiss a b c) := trivial
theorem gateTick (a : Nat) : Statement (.gateTick a) := trivial
theorem quietWindowRelease (a : Pos) : Statement (.quietWindowRelease a) := trivial
theorem crossingRecentre (a : Pos) : Statement (.crossingRecentre a) := trivial
theorem poundLenWrite (a : BitVec 15) : Statement (.poundLenWrite a) := trivial
theorem poundLengthChange (a : Nat) : Statement (.poundLengthChange a) := trivial
theorem droopStretch (a : Pos) (b : Nat) (c : Fin 4) : Statement (.droopStretch a b c) := trivial
theorem stepAbort (a : Nat) (b : Cause) (c : BitVec 7) (d : Bool) (e : Nat) : Statement (.stepAbort a b c d e) := trivial
theorem coreAbort (a : Pos) (b : Nat) : Statement (.coreAbort a b) := trivial
theorem replayRestore (a : Nat) (b : Nat) : Statement (.replayRestore a b) := trivial
theorem add (a : Issue) : Statement (.add a) := ⟨by decide, rfl⟩
theorem sub (a : Issue) : Statement (.sub a) := ⟨by decide, rfl⟩
theorem and (a : Issue) : Statement (.and a) := ⟨by decide, rfl⟩
theorem or (a : Issue) : Statement (.or a) := ⟨by decide, rfl⟩
theorem xor (a : Issue) : Statement (.xor a) := ⟨by decide, rfl⟩
theorem shl (a : Issue) : Statement (.shl a) := ⟨by decide, rfl⟩
theorem shr (a : Issue) : Statement (.shr a) := ⟨by decide, rfl⟩
theorem sar (a : Issue) : Statement (.sar a) := ⟨by decide, rfl⟩
theorem mul (a : Issue) : Statement (.mul a) := ⟨by decide, rfl⟩
theorem min (a : Issue) : Statement (.min a) := ⟨by decide, rfl⟩
theorem max (a : Issue) : Statement (.max a) := ⟨by decide, rfl⟩
theorem minu (a : Issue) : Statement (.minu a) := ⟨by decide, rfl⟩
theorem maxu (a : Issue) : Statement (.maxu a) := ⟨by decide, rfl⟩
theorem addi (a : Issue) : Statement (.addi a) := ⟨by decide, rfl⟩
theorem movi (a : Issue) : Statement (.movi a) := ⟨by decide, rfl⟩
theorem movhi (a : Issue) : Statement (.movhi a) := ⟨by decide, rfl⟩
theorem cmpeq (a : Issue) : Statement (.cmpeq a) := ⟨by decide, rfl⟩
theorem cmpne (a : Issue) : Statement (.cmpne a) := ⟨by decide, rfl⟩
theorem cmplt (a : Issue) : Statement (.cmplt a) := ⟨by decide, rfl⟩
theorem cmpltu (a : Issue) : Statement (.cmpltu a) := ⟨by decide, rfl⟩
theorem cmple (a : Issue) : Statement (.cmple a) := ⟨by decide, rfl⟩
theorem cmpleu (a : Issue) : Statement (.cmpleu a) := ⟨by decide, rfl⟩
theorem fadd (a : Issue) : Statement (.fadd a) := ⟨by decide, rfl⟩
theorem fsub (a : Issue) : Statement (.fsub a) := ⟨by decide, rfl⟩
theorem fmul (a : Issue) : Statement (.fmul a) := ⟨by decide, rfl⟩
theorem ffma (a : Issue) : Statement (.ffma a) := ⟨by decide, rfl⟩
theorem fmin (a : Issue) : Statement (.fmin a) := ⟨by decide, rfl⟩
theorem fmax (a : Issue) : Statement (.fmax a) := ⟨by decide, rfl⟩
theorem fcmplt (a : Issue) : Statement (.fcmplt a) := ⟨by decide, rfl⟩
theorem fcmpeq (a : Issue) : Statement (.fcmpeq a) := ⟨by decide, rfl⟩
theorem fcmple (a : Issue) : Statement (.fcmple a) := ⟨by decide, rfl⟩
theorem pand (a : Issue) : Statement (.pand a) := ⟨by decide, rfl⟩
theorem por (a : Issue) : Statement (.por a) := ⟨by decide, rfl⟩
theorem pxor (a : Issue) : Statement (.pxor a) := ⟨by decide, rfl⟩
theorem pnot (a : Issue) : Statement (.pnot a) := ⟨by decide, rfl⟩
theorem sel (a : Issue) : Statement (.sel a) := ⟨by decide, rfl⟩
theorem aaddi (a : Issue) : Statement (.aaddi a) := ⟨by decide, rfl⟩
theorem atos (a : Issue) : Statement (.atos a) := ⟨by decide, rfl⟩
theorem stoa (a : Issue) : Statement (.stoa a) := ⟨by decide, rfl⟩
theorem ld32 (a : Issue) : Statement (.ld32 a) := ⟨by decide, rfl⟩
theorem ld64 (a : Issue) : Statement (.ld64 a) := ⟨by decide, rfl⟩
theorem st32 (a : Issue) : Statement (.st32 a) := ⟨by decide, rfl⟩
theorem st64 (a : Issue) : Statement (.st64 a) := ⟨by decide, rfl⟩
theorem crr (a : Issue) : Statement (.crr a) := ⟨by decide, rfl⟩
theorem crw (a : Issue) : Statement (.crw a) := ⟨by decide, rfl⟩
theorem br (a : Issue) : Statement (.br a) := ⟨by decide, rfl⟩
theorem bri (a : Issue) : Statement (.bri a) := ⟨by decide, rfl⟩
theorem call (a : Issue) : Statement (.call a) := ⟨by decide, rfl⟩
theorem loop (a : Issue) : Statement (.loop a) := ⟨by decide, rfl⟩
theorem hwin (a : Issue) : Statement (.hwin a) := ⟨by decide, rfl⟩
theorem hwinExpiry (a : Pos) (b : Nat) : Statement (.hwinExpiry a b) := trivial
theorem pend (a : Issue) : Statement (.pend a) := ⟨by decide, rfl⟩
theorem hret (a : Issue) : Statement (.hret a) := ⟨by decide, rfl⟩
theorem vadd (a : Issue) : Statement (.vadd a) := ⟨by decide, rfl⟩
theorem vsub (a : Issue) : Statement (.vsub a) := ⟨by decide, rfl⟩
theorem vmul (a : Issue) : Statement (.vmul a) := ⟨by decide, rfl⟩
theorem vfma (a : Issue) : Statement (.vfma a) := ⟨by decide, rfl⟩
theorem vmax (a : Issue) : Statement (.vmax a) := ⟨by decide, rfl⟩
theorem vmin (a : Issue) : Statement (.vmin a) := ⟨by decide, rfl⟩
theorem vabs (a : Issue) : Statement (.vabs a) := ⟨by decide, rfl⟩
theorem vneg (a : Issue) : Statement (.vneg a) := ⟨by decide, rfl⟩
theorem vmov (a : Issue) : Statement (.vmov a) := ⟨by decide, rfl⟩
theorem vbcast (a : Issue) : Statement (.vbcast a) := ⟨by decide, rfl⟩
theorem vcmplt (a : Issue) : Statement (.vcmplt a) := ⟨by decide, rfl⟩
theorem vcmpeq (a : Issue) : Statement (.vcmpeq a) := ⟨by decide, rfl⟩
theorem vsel (a : Issue) : Statement (.vsel a) := ⟨by decide, rfl⟩
theorem vrsum (a : Issue) : Statement (.vrsum a) := ⟨by decide, rfl⟩
theorem vrmax (a : Issue) : Statement (.vrmax a) := ⟨by decide, rfl⟩
theorem vexp2 (a : Issue) : Statement (.vexp2 a) := ⟨by decide, rfl⟩
theorem vlog2 (a : Issue) : Statement (.vlog2 a) := ⟨by decide, rfl⟩
theorem vrcp (a : Issue) : Statement (.vrcp a) := ⟨by decide, rfl⟩
theorem vrsqrt (a : Issue) : Statement (.vrsqrt a) := ⟨by decide, rfl⟩
theorem vtanh (a : Issue) : Statement (.vtanh a) := ⟨by decide, rfl⟩
theorem vcvti (a : Issue) : Statement (.vcvti a) := ⟨by decide, rfl⟩
theorem vcvto (a : Issue) : Statement (.vcvto a) := ⟨by decide, rfl⟩
theorem vld (a : Issue) : Statement (.vld a) := ⟨by decide, rfl⟩
theorem vst (a : Issue) : Statement (.vst a) := ⟨by decide, rfl⟩
theorem vldb (a : Issue) : Statement (.vldb a) := ⟨by decide, rfl⟩
theorem vstb (a : Issue) : Statement (.vstb a) := ⟨by decide, rfl⟩
theorem mconf (a : Issue) : Statement (.mconf a) := ⟨by decide, rfl⟩
theorem mload (a : Issue) : Statement (.mload a) := ⟨by decide, rfl⟩
theorem mloadComplete (a : Pos) (b : Nat) : Statement (.mloadComplete a b) := trivial
theorem mstep (a : Issue) : Statement (.mstep a) := ⟨by decide, rfl⟩
theorem mstepComplete (a : Pos) (b : Nat) : Statement (.mstepComplete a b) := trivial
theorem mdrain (a : Issue) : Statement (.mdrain a) := ⟨by decide, rfl⟩
theorem mdrainComplete (a : Pos) (b : Nat) : Statement (.mdrainComplete a b) := trivial
theorem mchkv (a : Issue) : Statement (.mchkv a) := ⟨by decide, rfl⟩
theorem mflags (a : Issue) : Statement (.mflags a) := ⟨by decide, rfl⟩
theorem keeperFill (a : Pos) (b : Nat) : Statement (.keeperFill a b) := trivial
theorem keeperGapExpiry (a : Pos) (b : Nat) : Statement (.keeperGapExpiry a b) := trivial
theorem pownote (a : Issue) : Statement (.pownote a) := ⟨by decide, rfl⟩
theorem pownoteLeadExpiry (a : Pos) (b : Nat) : Statement (.pownoteLeadExpiry a b) := trivial
theorem stallRelease (a : Pos) (b : Nat) : Statement (.stallRelease a b) := trivial
theorem sendPatienceExpiry (a : Pos) (b : Nat) : Statement (.sendPatienceExpiry a b) := trivial
theorem handlerStart (a : Pos) (b : Nat) : Statement (.handlerStart a b) := trivial
theorem dbgHalt (a : Pos) : Statement (.dbgHalt a) := trivial
theorem towService (a : Pos) (b : TowWrite) : Statement (.towService a b) := trivial
theorem strm (a : Issue) : Statement (.strm a) := ⟨by decide, rfl⟩
theorem swait (a : Issue) : Statement (.swait a) := ⟨by decide, rfl⟩
theorem stest (a : Issue) : Statement (.stest a) := ⟨by decide, rfl⟩
theorem rwr (a : Issue) : Statement (.rwr a) := ⟨by decide, rfl⟩
theorem rrd (a : Issue) : Statement (.rrd a) := ⟨by decide, rfl⟩
theorem send (a : Issue) : Statement (.send a) := ⟨by decide, rfl⟩
theorem sendn (a : Issue) : Statement (.sendn a) := ⟨by decide, rfl⟩
theorem sendc (a : Issue) : Statement (.sendc a) := ⟨by decide, rfl⟩
theorem recv (a : Issue) : Statement (.recv a) := ⟨by decide, rfl⟩
theorem bpop (a : Issue) : Statement (.bpop a) := ⟨by decide, rfl⟩
theorem bopen (a : Issue) : Statement (.bopen a) := ⟨by decide, rfl⟩
theorem bclose (a : Issue) : Statement (.bclose a) := ⟨by decide, rfl⟩
theorem bcloseComplete (a : Pos) (b : Fin 64) (c : Nat) : Statement (.bcloseComplete a b c) := trivial
theorem wopen (a : Issue) : Statement (.wopen a) := ⟨by decide, rfl⟩
theorem wclose (a : Issue) : Statement (.wclose a) := ⟨by decide, rfl⟩
theorem wcloseComplete (a : Pos) (b : Fin 256) (c : Nat) : Statement (.wcloseComplete a b c) := trivial
theorem carm (a : Issue) : Statement (.carm a) := ⟨by decide, rfl⟩
theorem csig (a : Issue) : Statement (.csig a) := ⟨by decide, rfl⟩
theorem cwait (a : Issue) : Statement (.cwait a) := ⟨by decide, rfl⟩
theorem ctest (a : Issue) : Statement (.ctest a) := ⟨by decide, rfl⟩
theorem moveCompletion (a : Pos) (b : Fin 64) (c : Nat) : Statement (.moveCompletion a b c) := trivial
theorem streamPageEntry (a : Pos) (b : Fin 64) (c : Nat) : Statement (.streamPageEntry a b c) := trivial
theorem chartCacheFill (a : Pos) (b : BitVec 25) : Statement (.chartCacheFill a b) := trivial
theorem streamRingReserve (a : Pos) (b : Fin 64) (c : Nat) : Statement (.streamRingReserve a b c) := trivial
theorem streamChunkRequest (a : Pos) (b : Fin 64) (c : Nat) : Statement (.streamChunkRequest a b c) := trivial
theorem streamChunkRelease (a : Pos) (b : Fin 64) (c : Nat) : Statement (.streamChunkRelease a b c) := trivial
theorem outChunkRead (a : Pos) (b : Fin 64) (c : Nat) : Statement (.outChunkRead a b c) := trivial
theorem streamComplete (a : Pos) (b : Fin 64) (c : Nat) : Statement (.streamComplete a b c) := trivial
theorem patrolScrub (a : Pos) (b : Nat) : Statement (.patrolScrub a b) := trivial
theorem scrubWriteback (a : Pos) (b : Nat) : Statement (.scrubWriteback a b) := trivial
theorem stgPartWrite (a : Pos) (b : BitVec 4) : Statement (.stgPartWrite a b) := trivial
theorem stgFlush (a : Pos) : Statement (.stgFlush a) := trivial
theorem stgFlushDone (a : Pos) : Statement (.stgFlushDone a) := trivial
theorem lineReq (a : Nat) : Statement (.lineReq a) := trivial
theorem sliceMissFill (a : Nat) : Statement (.sliceMissFill a) := trivial
theorem hbmLineAccess (a : Nat) : Statement (.hbmLineAccess a) := trivial
theorem lineData (a : Nat) : Statement (.lineData a) := trivial
theorem hbmWriteShareWindow (a : StackN) : Statement (.hbmWriteShareWindow a) := trivial
theorem hbmErrorRecheck (a : Nat) (b : Nat) : Statement (.hbmErrorRecheck a b) := trivial
theorem chtCountFlush : Statement .chtCountFlush := trivial
theorem chtHomeWrite (a : BitVec 64) : Statement (.chtHomeWrite a) := trivial
theorem chartEntryUpdate (a : BitVec 25) (b : BitVec 64) : Statement (.chartEntryUpdate a b) := trivial
theorem chartInvalidation (a : Pos) (b : BitVec 25) : Statement (.chartInvalidation a b) := trivial
theorem chartUpdateDrained (a : BitVec 25) : Statement (.chartUpdateDrained a) := trivial
theorem migrationQueueAdmit : Statement .migrationQueueAdmit := trivial
theorem migrationStart (a : Nat) : Statement (.migrationStart a) := trivial
theorem migrationComplete (a : Nat) : Statement (.migrationComplete a) := trivial
theorem barge (a : Nat) (b : Nat) : Statement (.barge a b) := trivial
theorem bargeWhole (a : Pos) (b : Fin 64) (c : Nat) (d : Nat) : Statement (.bargeWhole a b c d) := trivial
theorem orderedCombine (a : Pos) (b : Fin 64) (c : BitVec 16) (d : Nat) : Statement (.orderedCombine a b c d) := trivial
theorem weirTimeout (a : Pos) (b : Fin 64) (c : BitVec 16) (d : Nat) : Statement (.weirTimeout a b c d) := trivial
theorem bargeDelivery (a : Pos) (b : Fin 64) (c : Nat) : Statement (.bargeDelivery a b c) := trivial
theorem bargeAns (a : Nat) (b : Nat) : Statement (.bargeAns a b) := trivial
theorem bargeRetry (a : Pos) (b : Fin 8) (c : Nat) : Statement (.bargeRetry a b c) := trivial
theorem wr (a : Nat) (b : Nat) : Statement (.wr a b) := trivial
theorem wrAns (a : Nat) (b : Nat) : Statement (.wrAns a b) := trivial
theorem rdReq (a : Nat) (b : Nat) : Statement (.rdReq a b) := trivial
theorem rdData (a : Nat) (b : Nat) : Statement (.rdData a b) := trivial
theorem chamberSignalArrival (a : Nat) (b : Nat) : Statement (.chamberSignalArrival a b) := trivial
theorem csigAns (a : Nat) (b : Nat) : Statement (.csigAns a b) := trivial
theorem canalArmArrival (a : Nat) (b : Nat) : Statement (.canalArmArrival a b) := trivial
theorem mirrorUpdate (a : Pos) (b : Fin 8192) : Statement (.mirrorUpdate a b) := trivial
theorem tow (a : BitVec 64) (b : Option (BitVec 64)) (c : Nat) : Statement (.tow a b c) := trivial
theorem towAns (a : Nat) : Statement (.towAns a) := trivial
theorem packetRoute (a : Nat) : Statement (.packetRoute a) := trivial
theorem combineHoldExpiry (a : Pos) (b : Fin 16) (c : Nat) : Statement (.combineHoldExpiry a b c) := trivial
theorem flitReplay (a : Pos) (b : BadFlit) : Statement (.flitReplay a b) := trivial
theorem sluiceRecovery (a : Pos) (b : Nat) : Statement (.sluiceRecovery a b) := trivial
theorem sluiceInject (a : Pos) (b : Nat) : Statement (.sluiceInject a b) := trivial
theorem expressLaunch (a : Nat) (b : Nat) : Statement (.expressLaunch a b) := trivial
theorem replyTimeout (a : Pos) (b : Nat) (c : Nat) : Statement (.replyTimeout a b c) := trivial
theorem mshTableWrite (a : Pos) (b : Bool) (c : Bool) (d : Nat) (e : BitVec 64) : Statement (.mshTableWrite a b c d e) := trivial
theorem mshEpochArm : Statement .mshEpochArm := trivial
theorem drainSum (a : Nat) : Statement (.drainSum a) := trivial
theorem epochDrainTimeout (a : Nat) : Statement (.epochDrainTimeout a) := trivial
theorem mergeTableUpdate (a : Lt) (b : Fin 8) : Statement (.mergeTableUpdate a b) := trivial
theorem mshSeamMapWrite (a : Pos) (b : Dir) (c : BitVec 13) : Statement (.mshSeamMapWrite a b c) := trivial
theorem axlEnable (a : PortN) : Statement (.axlEnable a) := trivial
theorem axlFrameLock (a : PortN) (b : Nat) (c : BitVec 256) (d : Nat) : Statement (.axlFrameLock a b c d) := trivial
theorem axlTrained (a : PortN) (b : Bool) (c : BitVec 16) (d : Nat) : Statement (.axlTrained a b c d) := trivial
theorem axlTrainingTimeout (a : PortN) (b : Nat) : Statement (.axlTrainingTimeout a b) := trivial
theorem axlRetryTimer (a : PortN) (b : Nat) : Statement (.axlRetryTimer a b) := trivial
theorem axlLossOfLight (a : PortN) (b : BitVec 16) (c : Nat) : Statement (.axlLossOfLight a b c) := trivial
theorem axlDisable (a : PortN) : Statement (.axlDisable a) := trivial
theorem axlLoopWrite (a : PortN) (b : BitVec 3) (c : Bool) : Statement (.axlLoopWrite a b c) := trivial
theorem axlLoopRequest (a : PortN) (b : BitVec 3) : Statement (.axlLoopRequest a b) := trivial
theorem axlDataFrame (a : PortN) (b : Fin 16) (c : Frame) (d : Nat) : Statement (.axlDataFrame a b c d) := trivial
theorem axlNak (a : PortN) (b : Fin 16) (c : BitVec 8) (d : Nat) : Statement (.axlNak a b c d) := trivial
theorem axlTimeExchange (a : PortN) (b : Nat) : Statement (.axlTimeExchange a b) := trivial
theorem axlTimeFrame (a : PortN) (b : Int) (c : Int) (d : Int) (e : Int) (f : BitVec 2) : Statement (.axlTimeFrame a b c d e f) := trivial
theorem axlClear (a : PortN) (b : BitVec 8) (c : BitVec 32) (d : BitVec 4) (e : Nat) : Statement (.axlClear a b c d e) := trivial
theorem axlCancel (a : PortN) (b : BitVec 8) (c : Status) (d : Nat) : Statement (.axlCancel a b c d) := trivial
theorem consignmentMeetTimeout (a : PortN) (b : Fin 256) (c : Nat) : Statement (.consignmentMeetTimeout a b c) := trivial
theorem consignmentComplete (a : PortN) (b : Fin 256) (c : Nat) : Statement (.consignmentComplete a b c) := trivial
theorem axlFetch (a : PortN) (b : BitVec 64) (c : BitVec 32) (d : BitVec 8) : Statement (.axlFetch a b c d) := trivial
theorem kclPortUp (a : KPort) (b : Fin 4) (c : Nat) (d : Nat) : Statement (.kclPortUp a b c d) := trivial
theorem kclLoss (a : KPort) (b : Nat) (c : Nat) : Statement (.kclLoss a b c) := trivial
theorem kclLoopWrite (a : KPort) (b : BitVec 3) (c : Bool) : Statement (.kclLoopWrite a b c) := trivial
theorem rdShared (a : KPort) (b : BitVec 41) (c : Nat) : Statement (.rdShared a b c) := trivial
theorem rdOwn (a : KPort) (b : BitVec 41) (c : Nat) : Statement (.rdOwn a b c) := trivial
theorem rdNc (a : KPort) (b : BitVec 41) (c : Nat) : Statement (.rdNc a b c) := trivial
theorem wrNc (a : KPort) (b : BitVec 41) (c : BitVec 512) (d : Nat) : Statement (.wrNc a b c d) := trivial
theorem wb (a : KPort) (b : BitVec 41) (c : BitVec 512) (d : Nat) : Statement (.wb a b c d) := trivial
theorem snpInv (a : BitVec 64) : Statement (.snpInv a) := trivial
theorem snpRsp (a : BitVec 41) (b : Option (BitVec 512)) (c : Nat) : Statement (.snpRsp a b c) := trivial
theorem snoopTimeout (a : BitVec 41) (b : Nat) : Statement (.snoopTimeout a b) := trivial
theorem kclTime (a : KPort) (b : Nat) (c : Nat) : Statement (.kclTime a b c) := trivial
theorem kclTimeSend (a : Nat) : Statement (.kclTimeSend a) := trivial
theorem manifestRingNotify (a : List HostCell) (b : Nat) : Statement (.manifestRingNotify a b) := trivial
theorem manifestStep (a : Nat) : Statement (.manifestStep a) := trivial
theorem manifestLoad (a : Nat) : Statement (.manifestLoad a) := trivial
theorem imageLoadComplete (a : BitVec 32) (b : Nat) : Statement (.imageLoadComplete a b) := trivial
theorem manifestChart (a : Nat) : Statement (.manifestChart a) := trivial
theorem chartSet (a : Nat) : Statement (.chartSet a) := trivial
theorem chartInvalidate (a : Nat) : Statement (.chartInvalidate a) := trivial
theorem chartMigrateIn (a : Nat) : Statement (.chartMigrateIn a) := trivial
theorem chartMigrateOut (a : Nat) : Statement (.chartMigrateOut a) := trivial
theorem manifestHoldEnd (a : Nat) : Statement (.manifestHoldEnd a) := trivial
theorem admissionWaitTimeout (a : Nat) : Statement (.admissionWaitTimeout a) := trivial
theorem stepCompletion (a : Nat) (b : Nat) : Statement (.stepCompletion a b) := trivial
theorem pcieRingPoll (a : List HostCell) (b : Nat) : Statement (.pcieRingPoll a b) := trivial
theorem powerFail (a : Nat) (b : Nat) : Statement (.powerFail a b) := trivial
theorem inputReturn (a : Nat) : Statement (.inputReturn a) := trivial
theorem pwrEnFall (a : Nat) : Statement (.pwrEnFall a) := trivial
theorem reachCurrentLimit (a : ReachN) (b : Nat) : Statement (.reachCurrentLimit a b) := trivial
theorem reachLimitRelease (a : ReachN) (b : Nat) : Statement (.reachLimitRelease a b) := trivial
theorem inputCurrentHold (a : Nat) : Statement (.inputCurrentHold a) := trivial
theorem reachPgTimeout (a : ReachN) (b : Nat) : Statement (.reachPgTimeout a b) := trivial
theorem vcoreOvercurrent (a : Pos) (b : Nat) : Statement (.vcoreOvercurrent a b) := trivial
theorem vnetTrip (a : Pos) (b : Nat) : Statement (.vnetTrip a b) := trivial
theorem powerOnRequest (a : Pos) (b : Rail) (c : Nat) : Statement (.powerOnRequest a b c) := trivial
theorem powerOnAdmit (a : ReachN) (b : Nat) (c : Nat) : Statement (.powerOnAdmit a b c) := trivial
theorem powerOnComplete (a : Pos) (b : Rail) (c : Nat) : Statement (.powerOnComplete a b c) := trivial
theorem powerOnTimeout (a : ReachN) (b : Nat) : Statement (.powerOnTimeout a b) := trivial
theorem pwrReqIdle (a : Pos) (b : Nat) : Statement (.pwrReqIdle a b) := trivial
theorem pwrReqRetain (a : Pos) (b : Nat) : Statement (.pwrReqRetain a b) := trivial
theorem pwrReqDark (a : Pos) (b : Nat) : Statement (.pwrReqDark a b) := trivial
theorem coreIdleEntry (a : Pos) (b : Nat) : Statement (.coreIdleEntry a b) := trivial
theorem reachShort (a : ReachN) (b : Nat) : Statement (.reachShort a b) := trivial
theorem supplyLoss (a : Supply) (b : Nat) : Statement (.supplyLoss a b) := trivial
theorem powerCapCheck (a : Nat) (b : Nat) (c : Nat) (d : Nat) : Statement (.powerCapCheck a b c d) := trivial
theorem oscReady (a : Nat) (b : Nat) : Statement (.oscReady a b) := trivial
theorem oscTimeout (a : Nat) : Statement (.oscTimeout a) := trivial
theorem refInputBad (a : Pos) (b : Bool) (c : Nat) : Statement (.refInputBad a b c) := trivial
theorem refInputGood (a : Pos) (b : Bool) (c : Nat) : Statement (.refInputGood a b c) := trivial
theorem clkStepRequest (a : Bank) (b : BitVec 3) (c : Nat) : Statement (.clkStepRequest a b c) := trivial
theorem pllLocked (a : Pos) (b : Nat) : Statement (.pllLocked a b) := trivial
theorem vcoreTargetRaise (a : Bank) (b : Nat) : Statement (.vcoreTargetRaise a b) := trivial
theorem pllLockTimeout (a : Pos) (b : Nat) : Statement (.pllLockTimeout a b) := trivial
theorem pllLockLoss (a : Pos) (b : Nat) : Statement (.pllLockLoss a b) := trivial
theorem clockWatchdog (a : Pos) (b : Bool) (c : Nat) : Statement (.clockWatchdog a b c) := trivial
theorem clkMswSwitch (a : Fin 4) (b : Bool) : Statement (.clkMswSwitch a b) := trivial
theorem timNowRead (a : Option Pos) (b : Nat) : Statement (.timNowRead a b) := trivial
theorem ppsInEdge (a : Nat) : Statement (.ppsInEdge a) := trivial
theorem timeSourceQualify (a : Fin 3) (b : Nat) : Statement (.timeSourceQualify a b) := trivial
theorem timeSourceDisqualify (a : Fin 3) (b : Nat) : Statement (.timeSourceDisqualify a b) := trivial
theorem timeSourceTakeover (a : Fin 3) (b : Nat) : Statement (.timeSourceTakeover a b) := trivial
theorem timeServoUpdate (a : Int) (b : Int) (c : Nat) : Statement (.timeServoUpdate a b c) := trivial
theorem timSet (a : BitVec 64) : Statement (.timSet a) := trivial
theorem trimSave (a : Bool) (b : Nat) : Statement (.trimSave a b) := trivial
theorem ppsOutPulse (a : Nat) : Statement (.ppsOutPulse a) := trivial
theorem ptpMessage (a : PtpMsg) (b : Nat) : Statement (.ptpMessage a b) := trivial
theorem thermalSample (a : Pos) (b : Vector Int 6) (c : Vector Int 6) (d : Int) (e : Int) (f : Nat) : Statement (.thermalSample a b c d e f) := trivial
theorem thermalRecovery (a : Bank) (b : Nat) : Statement (.thermalRecovery a b) := trivial
theorem opticsReenable (a : PortN) (b : Nat) : Statement (.opticsReenable a b) := trivial
theorem hardwareTrip (a : Pos) (b : Bool) (c : List Int) (d : Nat) : Statement (.hardwareTrip a b c d) := trivial
theorem coolantSample (a : Int) (b : Int) (c : Nat) (d : Nat) : Statement (.coolantSample a b c d) := trivial
theorem flowOkLoss (a : Nat) : Statement (.flowOkLoss a) := trivial
theorem flowOkGlitch (a : Nat) : Statement (.flowOkGlitch a) := trivial
theorem thermalCapUpdate (a : Bool) (b : Bool) (c : Bool) (d : Nat) : Statement (.thermalCapUpdate a b c d) := trivial
theorem thermalCapRise (a : Nat) : Statement (.thermalCapRise a) := trivial
theorem thermalEmergency (a : Fin 4) (b : Nat) : Statement (.thermalEmergency a b) := trivial
theorem thermalEmergencyExit (a : Nat) : Statement (.thermalEmergencyExit a) := trivial
theorem forecastUpdate (a : Nat) : Statement (.forecastUpdate a) := trivial
theorem stage00 (a : StageIn) : Statement (.stage00 a) := trivial
theorem stage01 (a : StageIn) : Statement (.stage01 a) := trivial
theorem stage02 (a : StageIn) : Statement (.stage02 a) := trivial
theorem stage03 (a : StageIn) : Statement (.stage03 a) := trivial
theorem stage04 (a : StageIn) : Statement (.stage04 a) := trivial
theorem stage05 (a : StageIn) : Statement (.stage05 a) := trivial
theorem stage06 (a : StageIn) : Statement (.stage06 a) := trivial
theorem stage07 (a : StageIn) : Statement (.stage07 a) := trivial
theorem stage08 (a : StageIn) : Statement (.stage08 a) := trivial
theorem stage09 (a : StageIn) : Statement (.stage09 a) := trivial
theorem stage0A (a : StageIn) : Statement (.stage0A a) := trivial
theorem stageTimeout (a : StageIn) : Statement (.stageTimeout a) := trivial
theorem lkhMapAck (a : Origin) (b : Path) : Statement (.lkhMapAck a b) := trivial
theorem narrowRetentionRequest (a : Pos) (b : Bool) (c : Path) : Statement (.narrowRetentionRequest a b c) := trivial
theorem repairEventReport (a : RepairEvent) (b : Nat) : Statement (.repairEventReport a b) := trivial
theorem soundingRotation : Statement .soundingRotation := trivial
theorem soundingStart (a : Nat) : Statement (.soundingStart a) := trivial
theorem soundingResult (a : Bool) (b : Nat) : Statement (.soundingResult a b) := trivial
theorem fenceCommand (a : House) (b : BitVec 40) (c : BitVec 8) (d : Nat) : Statement (.fenceCommand a b c d) := trivial
theorem fenceCommandExpiry (a : House) (b : BitVec 40) (c : BitVec 8) (d : Nat) : Statement (.fenceCommandExpiry a b c d) := trivial
theorem substitution (a : Lt) (b : Nat) : Statement (.substitution a b) := trivial
theorem substitutionLoad (a : Lt) (b : Nat) : Statement (.substitutionLoad a b) := trivial
theorem substitutionReady (a : Lt) (b : Nat) : Statement (.substitutionReady a b) := trivial
theorem laneRepair (a : Pos) (b : Dir) (c : Fin 48) (d : Bool) (e : Nat) : Statement (.laneRepair a b c d e) := trivial
theorem hbmRetrain (a : StackN) (b : Fin 64) (c : Nat) (d : Nat) : Statement (.hbmRetrain a b c d) := trivial
theorem hbmRetrainDone (a : StackN) (b : Fin 64) (c : Bool) (d : Nat) : Statement (.hbmRetrainDone a b c d) := trivial
theorem moor (a : MoorCause) (b : Nat) : Statement (.moor a b) := trivial
theorem headwaySave (a : Nat) : Statement (.headwaySave a) := trivial
theorem coldReset (a : Nat) : Statement (.coldReset a) := trivial
theorem warmReset (a : Nat) : Statement (.warmReset a) := trivial
theorem reachReset (a : ReachN) (b : Bool) (c : Nat) : Statement (.reachReset a b c) := trivial
theorem tileReset (a : Pos) (b : Bool) (c : Bool) (d : Nat) : Statement (.tileReset a b c d) := trivial
theorem coreReset (a : Pos) (b : Bool) (c : Nat) : Statement (.coreReset a b c) := trivial
theorem contextReset (a : Pos) (b : Ctx) (c : Nat) : Statement (.contextReset a b c) := trivial
theorem linkReset (a : BitVec 8) (b : Nat) : Statement (.linkReset a b) := trivial
theorem lockHouseReset (a : House) (b : Bool) (c : Nat) : Statement (.lockHouseReset a b c) := trivial
theorem resetPreconditionMet (a : Nat) : Statement (.resetPreconditionMet a) := trivial
theorem resetWaitTimeout (a : Nat) : Statement (.resetWaitTimeout a) := trivial
theorem standbyRequest (a : Nat) : Statement (.standbyRequest a) := trivial
theorem standbyEntry (a : Nat) : Statement (.standbyEntry a) := trivial
theorem activeRequest (a : Nat) : Statement (.activeRequest a) := trivial
theorem firmwareUpdate (a : PackageIn) (b : Nat) : Statement (.firmwareUpdate a b) := trivial
theorem secQuoteRequest (a : House) (b : Nat) : Statement (.secQuoteRequest a b) := trivial
theorem managementRequest (a : MgmtReq) (b : Nat) : Statement (.managementRequest a b) := trivial
theorem certificateSubmit (a : Bool) (b : Nat) : Statement (.certificateSubmit a b) := trivial
theorem quarantine (a : BitVec 256) (b : Nat) : Statement (.quarantine a b) := trivial
theorem release (a : BitVec 256) (b : Nat) : Statement (.release a b) := trivial
theorem requalify : Statement .requalify := trivial
theorem enrol (a : BitVec 32) (b : Nat) (c : List (List (BitVec 8))) : Statement (.enrol a b c) := trivial
theorem commit (a : Fin 6) (b : BitVec 8) : Statement (.commit a b) := trivial
theorem revokeOwner (a : Fin 4) : Statement (.revokeOwner a) := trivial
theorem logbookEntry (a : LogIn) (b : Nat) : Statement (.logbookEntry a b) := trivial
theorem logCkptRequest (a : Nat) : Statement (.logCkptRequest a) := trivial
theorem logCheckpointSigned (a : Nat) : Statement (.logCheckpointSigned a) := trivial
theorem logExportWrite (a : BitVec 64) : Statement (.logExportWrite a) := trivial
theorem registerWrite (a : BitVec 64) (b : BitVec 64) (c : Path) (d : Bool) : Statement (.registerWrite a b c d) := trivial
theorem dbgResume (a : Pos) : Statement (.dbgResume a) := trivial
theorem aliveToggle (a : Nat) : Statement (.aliveToggle a) := trivial
theorem flowOkAssert (a : Nat) : Statement (.flowOkAssert a) := trivial
theorem resetReturnToService (a : Nat) : Statement (.resetReturnToService a) := trivial
theorem segmentZeroingDone (a : Pos) (b : Nat) : Statement (.segmentZeroingDone a b) := trivial
theorem axlIdleFrame (a : PortN) (b : Fin 16) (c : Frame) (d : Nat) : Statement (.axlIdleFrame a b c d) := trivial

end Sys2Proof.Laws.Slots
end

