-- ==== Sys2Proof/Tests/Help.lean ====
section
/-! SUPPORT. Small states and bundles for the tests: a core that may issue, built on State.reset, and one-slot bundles. -/

set_option Elab.async false

namespace Sys2Proof.Tests

open Sys2Proof Sys2Proof.Machine

/-- A bundle with one valid slot (Table 5.4). -/
def bundleOf (k : SlotK) (w : Nat) : Bundle :=
  match k with
  | .c => BitVec.ofNat 256 (1 + w <<< 8)
  | .v => BitVec.ofNat 256 (2 + w <<< 72)
  | .m => BitVec.ofNat 256 (4 + w <<< 136)
  | .x => BitVec.ofNat 256 (8 + w <<< 192)

/-- MAIN of position P.00.00 issues a one-slot bundle at index 0 in cycle 0. -/
def iss (k : SlotK) (w : Nat) : Issue := { pos := 0, ctx := .main, cc := 0, idx := 0, bundle := bundleOf k w }

/-- The reset state with tile P.00.00 changed. -/
def onTile (f : Tile → Tile) : State := { State.reset with tiles := vmod State.reset.tiles 0 f }
/-- LT 0 is carried by P.00.00. -/
def placed (s : State) : State := { s with ltpos := vmod s.ltpos 0 fun l => { l with die := some 0 } }
/-- Tile P.00.00 carries LT 0 in power state RUN, holds an image of eight bundles, and MAIN issues. -/
def ready (t : Tile) : Tile :=
  { core := { t.core with ctl := { t.core.ctl with main := .issuing }, img := { t.core.img with loaded := true, bundles := 8 }
                          desc := { t.core.desc with lt := 0 } }
    ut := { t.ut with pwr := { t.ut.pwr with state := 0, vcore := true, vsram := true, vnet := true } } }
def cpu (f : Tile → Tile) : State := placed (onTile fun t => f (ready t))
/-- S registers of MAIN set. -/
def withS (l : List (Fin 32 × Word)) (t : Tile) : Tile :=
  { t with core := { t.core with main := { t.core.main with s := l.foldl (fun v e => v.set e.1 e.2) t.core.main.s } } }
/-- A registers of MAIN set. -/
def withA (l : List (Fin 16 × BitVec 48)) (t : Tile) : Tile :=
  { t with core := { t.core with main := { t.core.main with a := l.foldl (fun v e => v.set e.1 e.2) t.core.main.a } } }

/-- 64-bit words written to the scratchpad. -/
def withMem (l : List (Nat × Nat)) (t : Tile) : Tile :=
  { t with core := { t.core with spd := { t.core.spd with mem := l.foldl (fun m e => memPutNat m e.1 8 e.2) t.core.spd.mem } } }
def withCtl (f : Control → Control) (t : Tile) : Tile := { t with core := { t.core with ctl := f t.core.ctl } }
def withMat (f : Matrix → Matrix) (t : Tile) : Tile := { t with core := { t.core with mat := f t.core.mat } }
def withMov (f : MoveUnit → MoveUnit) (t : Tile) : Tile := { t with core := { t.core with mov := f t.core.mov } }
def withSpd (f : Scratch → Scratch) (t : Tile) : Tile := { t with core := { t.core with spd := f t.core.spd } }
def withUt (f : UnderTile → UnderTile) (t : Tile) : Tile := { t with ut := f t.ut }
/-- A slot held by an operation that has not completed. -/
def busySlot : Slot := { busy := true, op := some (newOp .other .main 0 none) }

/-- The command answers a next state with a property. -/
def nextIs (o : Out) (p : State → Bool) : Bool :=
  match o with
  | .next t => p t
  | _ => false
/-- The slot issues, and the state the issue leaves has a property. -/
def issuesAnd (k : SlotK) (op : Nat) (i : Issue) (s : State) (p : State → Bool) : Bool :=
  slotValid i.bundle k && opcode (slotWord i.bundle k) == op &&
    match openSlot s i k with
    | .ready t true => p t
    | _ => false

theorem issuesAnd_iff {k : SlotK} {op : Nat} {i : Issue} {s : State} {p : State → Bool} :
    issuesAnd k op i s p = true ↔ ∃ t, Issues k op i s t ∧ p t = true := by
  simp only [issuesAnd, Issues, Bool.and_eq_true, beq_iff_eq]
  constructor
  · rintro ⟨⟨h1, h2⟩, h3⟩
    split at h3
    · next t he => exact ⟨t, ⟨h1, h2, he⟩, h3⟩
    · cases h3
  · rintro ⟨t, ⟨h1, h2, h3⟩, h4⟩
    refine ⟨⟨h1, h2⟩, ?_⟩
    rw [h3]
    exact h4

end Sys2Proof.Tests
end

