-- ==== Sys2Proof/Tests/WitnessCore.lean ====
section
/-! SUPPORT. Witnesses for the statements about instructions: for each clause of a statement a concrete state and operands that meet its
hypotheses. One Boolean stands for the hypotheses of one clause, in the statement's order. -/

set_option Elab.async false

namespace Sys2Proof.Tests

open Sys2Proof Sys2Proof.Machine

/-! ### The block and the issue of a bundle -/

theorem witness_QueueIsFirstInFirstOut : ([nextIs (exec (.logExportWrite 0) State.reset) fun _ => true,
    nextIs (step { State.reset with pending := [.logExportWrite 0, .logExportWrite 1] }) fun t => t.pending == [.logExportWrite 1]] : List Bool).all id = true := by
  decide +kernel

/-- ADD S3 = S1 + S2 at bundle 0. -/
def addI : Issue := iss .c (0x010 + 3 <<< 12 + 1 <<< 18 + 2 <<< 24)

/-- The hypotheses under which a bundle is the next one of a context that may issue. -/
def mayIssue (i : Issue) (s : State) : Bool :=
  let c := (s.run i.pos i.cc).core i.pos
  let q := c.ctx i.ctx
  decide ((s.ut i.pos).cycle ≤ i.cc) && s.dieUp i.pos && (s.run i.pos i.cc).ctxReady i.pos i.ctx i.cc && (!q.opened || q.curCc != i.cc) &&
    q.nextIdx == i.idx && decide (q.nextCc ≤ i.cc) && !c.img.ecc.contains i.idx.toNat

def noLoopEnds (i : Issue) (s : State) : Bool :=
  (List.finRange 4).all fun e => let l := (((s.run i.pos i.cc).core i.pos).ctx i.ctx).loops[e]; !l.active || l.last != i.idx

theorem witness_ReadyContextIssues : ([mayIssue addI (cpu id) && noLoopEnds addI (cpu id) && (bundleFaults ((cpu id).run 0 0) addI).isEmpty &&
    (stallPoint ((cpu id).run 0 0) 0 addI.bundle).isNone] : List Bool).all id = true := by decide +kernel

/-- CRW of a register that no context may write. -/
def crwBad : Issue := iss .c (0x490 + 7 <<< 24)
theorem witness_FaultStopsContext : ([mayIssue crwBad (cpu id) && !(bundleFaults ((cpu id).run 0 0) crwBad).isEmpty] : List Bool).all id = true := by
  decide +kernel

/-- CWAIT on tile chamber 0 with target 1. -/
def waiting : State := cpu (withUt fun u => u.setChamber 0 (Chamber.arm 1))
theorem witness_StallHoldsBundle : ([mayIssue (iss .x 0x1A0) waiting && (bundleFaults (waiting.run 0 0) (iss .x 0x1A0)).isEmpty &&
    stallPoint (waiting.run 0 0) 0 (iss .x 0x1A0).bundle == some 1] : List Bool).all id = true := by decide +kernel

theorem witness_IssueFrame : ([issuesAnd .c 0x01 addI (cpu id) fun _ => true] : List Bool).all id = true := by decide +kernel

theorem witness_ResultsAppearAtLatency : ([(({} : Core).pend == []) && decide (0 < 0 + 1), (({} : Core).pend == []) && decide (0 + 1 ≤ 1)] :
    List Bool).all id = true := by decide +kernel

/-- A context with an active loop entry that ends at bundle 5. -/
def looping (n : BitVec 64) : CtxState :=
  { loops := (Vector.replicate 4 {}).set 1 { active := true, start := 2, last := 5, left := n } }
def loopHyp (q : CtxState) (e : Fin 4) : Bool :=
  q.loops[e].active && q.loops[e].last == 5 && ((List.finRange 4).all fun f => f == e || !q.loops[f].active || q.loops[f].last != 5)
theorem witness_LoopBackEdge : ([loopHyp (looping 2) 1 && decide ((looping 2).loops[1].left.toNat > 1),
    loopHyp (looping 1) 1 && decide ((looping 1).loops[1].left.toNat ≤ 1)] : List Bool).all id = true := by decide +kernel

/-! ### Every opcode of Tables 6.3, 6.4, 6.6 and 6.8 issues somewhere -/

/-- One bundle per opcode of the C slot. Its witness meets the hypotheses of ScalarIntegerResults, ScalarImmediateResults, PredicateResults,
ScalarFloatResults, AddressRegisterResults, BranchesTakeThreeCycles, LoopEntry and, for HWIN, HandlerWindowAndReturn. -/
def cWord (op : Nat) : Nat := op <<< 4 + (if op = 0x49 then 6 <<< 24 else 0)
theorem witness_cSlot : (((List.range 256).filter fun op => (cInfo op).isSome && op != 0x56).map fun op =>
    issues .c op (iss .c (cWord op)) (cpu id) : List Bool).all id = true := by decide +kernel
/-- HRET issues in HAND. -/
def handRuns : State := cpu (withCtl fun k => { k with hand := .running, main := .idle, handBudget := 8 })
theorem witness_hret : ([issuesAnd .c 0x56 { iss .c 0x560 with ctx := .hand } handRuns fun t => (t.core 0).ctl.curInv == none] : List Bool).all id = true := by
  decide +kernel

/-- A block format for the conversions and the block loads. The witnesses meet the hypotheses of VectorLaneResults and
VectorReductionsAndConversions, at CR_VL 512 and 0. -/
def vWord (op : Nat) : Nat :=
  op <<< 4 + (if op = 0x20 then 7 <<< 36 + 0 <<< 40 else if op = 0x21 then 7 <<< 36 else if op = 0x2A ∨ op = 0x2B then 3 <<< 36 + 1 <<< 24 else 0)
def vState : State := cpu (withA [(1, 4096)])
theorem witness_vSlot : (((List.range 256).filter fun op => (vInfo op).isSome).map fun op =>
    issuesAnd .v op (iss .v (vWord op)) vState fun t => vlOf t (iss .v (vWord op)) == 512 : List Bool).all id = true := by decide +kernel
/-- CR_VL = 0. -/
theorem witness_vSlot_empty : (((List.range 256).filter fun op => (vInfo op).isSome).map fun op =>
    issuesAnd .v op (iss .v (vWord op)) (cpu fun t => withCtl (fun k => { k with vl := Vector.replicate 4 0 }) (withA [(1, 4096)] t)) fun t =>
      vlOf t (iss .v (vWord op)) == 0 : List Bool).all id = true := by decide +kernel

theorem witness_TranscendentalSpecialValues : ([f32Nan 0x7FC00001, f32Nan 0xFF800001, !f32Nan 0x7F800000] : List Bool).all id = true := by decide +kernel

/-- SEL under a false guard. -/
theorem witness_SelNeverSkips : ([let i := iss .c (0x341)
    slotValid i.bundle .c && opcode (slotWord i.bundle .c) == 0x34 && (match openSlot (cpu id) i .c with | .ready _ g => !g | _ => false)] :
    List Bool).all id = true := by decide +kernel

theorem witness_MinimumMaximum : ([f32Nan 0x7FC00001 || f32Nan 0, !f32Nan 0x3F800000 && !f32Nan 0x40000000,
    (dec32 0x3F800000).lt (dec32 0x40000000), (dec32 0x80800000).lt (dec32 0x00800000)] : List Bool).all id = true := by decide +kernel

/-- CRR reads registers 0 to 12 in MAIN and register 11 in TOW. -/
def towRuns : State := cpu (withCtl fun k => { k with towBusy := true, main := .idle })
/-- Debug code runs beside a halted MAIN. -/
def dbgRuns : State := cpu (withCtl fun k => { k with main := .halted, dbgAttached := true })
theorem witness_ControlRegisters : (((List.range 13).map fun n => issues .c 0x48 (iss .c (0x480 + n <<< 24)) (cpu id)) ++
    [issues .c 0x48 { iss .c (0x480 + 11 <<< 24) with ctx := .tow } towRuns, issues .c 0x48 { iss .c (0x480 + 2 <<< 24) with ctx := .tow } towRuns,
     issuesAnd .c 0x48 (iss .c (0x480 + 2 <<< 24)) (cpu id) fun t => (t.core 0).ctl.main != .halted,
     issuesAnd .c 0x48 { iss .c (0x480 + 2 <<< 24) with ctx := .dbg } dbgRuns fun t => (t.core 0).ctl.main == .halted, issues .c 0x49 (iss .c (0x490 + 6 <<< 24)) (cpu id),
     issues .c 0x49 (iss .c (0x490 + 4 <<< 24)) (cpu id)] : List Bool).all id = true := by decide +kernel

/-- Scalar accesses at the last address that fits. -/
def topA : State := cpu (withA [(0, 0x3FFFFF8)])
theorem witness_ScalarLoadsAndStores : (([(0x40, 4), (0x41, 8), (0x42, 4), (0x43, 8)] : List (Nat × Nat)).map fun x =>
    issuesAnd .c x.1 (iss .c (x.1 <<< 4)) topA fun t => effAddr ((t.core 0).readA .main 0) 0 x.2 x.2 == some 0x3FFFFF8 &&
      (((t.core 0).spdAt (t.access 0 3 0 [(0x3FFFFF8, x.2)]).2.1).badIn 0x3FFFFF8 x.2).isEmpty : List Bool).all id = true := by decide +kernel
theorem witness_LoadOfBadWordFaults : ([issuesAnd .c 0x41 (iss .c 0x410) (cpu (withSpd fun d => { d with bad := [1] })) fun t =>
    effAddr ((t.core 0).readA .main 0) 0 8 8 == some 0 && !(((t.core 0).spdAt (t.access 0 3 0 [(0, 8)]).2.1).badIn 0 8).isEmpty,
  issuesAnd .c 0x40 (iss .c 0x400) (cpu (withSpd fun d => { d with bad := [0] })) fun t =>
    effAddr ((t.core 0).readA .main 0) 0 4 4 == some 0 && !(((t.core 0).spdAt (t.access 0 3 0 [(0, 4)]).2.1).badIn 0 4).isEmpty] : List Bool).all id = true := by decide +kernel

theorem witness_BlockConversion : (((List.range' 5 6).map fun f => decide (5 ≤ f ∧ f ≤ 10)) ++ [[FV.nan].any FV.special] : List Bool).all id = true := by
  decide +kernel

def badVec : State := cpu fun t => withSpd (fun d => { d with bad := [3] }) (withA [(1, 4096)] t)
/-- Whether the words of a block load are clean at its port cycle. -/
def vbClean (t : State) : Option Bool :=
  (vbRuns (iss .v (vWord 0x2A)) t).map fun x =>
    let d := (t.core 0).spdAt (t.access 0 3 0 [x.1, x.2]).2.1
    (d.badIn x.1.1 x.1.2).isEmpty && (d.badIn x.2.1 x.2.2).isEmpty
theorem witness_VectorLoadsAndStores : ([issuesAnd .v 0x28 (iss .v 0x280) vState fun t => vlOf t (iss .v 0x280) != 0 &&
      effAddr ((t.core 0).readA .main 0) 0 2048 64 == some 0 && (((t.core 0).spdAt (t.access 0 3 0 [(0, 2048)]).2.1).badIn 0 2048).isEmpty,
    issuesAnd .v 0x28 (iss .v 0x280) badVec fun t => vlOf t (iss .v 0x280) != 0 &&
      effAddr ((t.core 0).readA .main 0) 0 2048 64 == some 0 && !(((t.core 0).spdAt (t.access 0 3 0 [(0, 2048)]).2.1).badIn 0 2048).isEmpty,
    issuesAnd .v 0x29 (iss .v 0x290) vState fun t => effAddr ((t.core 0).readA .main 0) 0 2048 64 == some 0,
    issuesAnd .v 0x2A (iss .v (vWord 0x2A)) vState fun t => vbClean t == some true,
    issuesAnd .v 0x2A (iss .v (vWord 0x2A)) badVec fun t => vbClean t == some false,
    issuesAnd .v 0x2B (iss .v (vWord 0x2B)) vState fun t => (vbRuns (iss .v (vWord 0x2B)) t).isSome] : List Bool).all id = true := by decide +kernel

/-! ### The M slot -/

/-- MCONF word: MXFP8 E4M3 in both operands, mode TILES16. -/
def confWord : Nat := 3 + 3 <<< 4 + 4 <<< 8
/-- An operand word with fields in use: k = 16, n = 1, nq = 1. -/
def loadWord : Nat := 16 + 1 <<< 10 + 1 <<< 28
def mConf0 : MConf := { mode := .tiles16, logb := 4 }
/-- A plane that holds one 16 × 1 submatrix. -/
def plane0 : Plane := { fmt := 3, mode := .tiles16, held := true, readyAt := some 0 }
def mState (f : Matrix → Matrix) (w : Nat) : State := cpu fun t => withS [(1, BitVec.ofNat 64 w)] (withA [(1, 64)] (withMat f t))
theorem witness_MatrixSmallOperations : ([
    issuesAnd .m 0x01 (iss .m (0x010 + 1 <<< 24)) (mState id confWord) fun t => (mconfOf ((t.core 0).readS .main 1)).isSome,
    issues .m 0x05 (iss .m 0x050) (cpu id), issues .m 0x06 (iss .m 0x060) (cpu id),
    issuesAnd .m 0x02 (iss .m 0x020) (cpu id) fun t => mZero 2 ((t.core 0).readS .main 0),
    issuesAnd .m 0x03 (iss .m 0x030) (cpu id) fun t => mZero 3 ((t.core 0).readS .main 0),
    issuesAnd .m 0x04 (iss .m 0x040) (cpu id) fun t => mZero 4 ((t.core 0).readS .main 0)] : List Bool).all id = true := by decide +kernel

def loadI : Issue := iss .m (0x020 + 1 <<< 18 + 1 <<< 24)
/-- What the reads of this MLOAD give, and the same state with an uncorrectable word at address 0. -/
def loadReads (t : State) : Option (List Byte × List Byte) :=
  let x := t.access 0 1 0 [(0, 16), (64, 1)]
  (readTwo loadI 1 x.2.1 (0, 16) (64, 1) x.1).2
def badAt (s : State) : State := s.modSpd 0 fun d => { d with bad := [0] }
theorem witness_MloadFillsShadow : ([issuesAnd .m 0x02 loadI (mState (fun m => { m with conf := mConf0 }) loadWord) fun t =>
    !mZero 2 ((t.core 0).readS .main 1) && (t.core 0).mat.ops.isEmpty && (loadReads t).isSome,
    issuesAnd .m 0x02 loadI (mState (fun m => { m with conf := mConf0 }) loadWord |> badAt) fun t => !mZero 2 ((t.core 0).readS .main 1) && (loadReads t).isNone] : List Bool).all id = true := by decide +kernel

def stepI (sw : Nat) : Issue := iss .m (0x030 + 1 <<< 18 + 1 <<< 24 + sw <<< 42)
def stepWord : Nat := 1 + 16 <<< 25
def stepReads (sw : Nat) (t : State) : Option (List Byte × List Byte) :=
  let x := t.access 0 0 0 [(0, 256)]
  (readTwo (stepI sw) 0 x.2.1 (0, 256) (64, 16) x.1).2
theorem witness_MstepRunsAgainstActive : ([
    issuesAnd .m 0x03 (stepI 1) (badAt (mState (fun m => { m with conf := mConf0, shadow := plane0 }) stepWord)) fun t =>
      !mZero 3 ((t.core 0).readS .main 1) && (stepReads 1 t).isNone,
    issuesAnd .m 0x03 (stepI 1) (mState (fun m => { m with conf := mConf0, shadow := plane0 }) stepWord) fun t =>
      !mZero 3 ((t.core 0).readS .main 1) && (stepReads 1 t).isSome && bit (slotWord (stepI 1).bundle .m) 42,
    issuesAnd .m 0x03 (stepI 0) (mState (fun m => { m with conf := mConf0, active := plane0 }) stepWord) fun t =>
      !mZero 3 ((t.core 0).readS .main 1) && (stepReads 0 t).isSome && !bit (slotWord (stepI 0).bundle .m) 42] :
    List Bool).all id = true := by decide +kernel

/-- A drain of the last row, as FP32 and as MXFP8. -/
def drainI (f : Nat) : Issue := iss .m (0x040 + 1 <<< 18 + 1 <<< 24 + f <<< 42)
theorem witness_MdrainEntersDrain : (([0, 3] : List Nat).map fun f => issuesAnd .m 0x04 (drainI f) (mState id (511 + 1 <<< 9)) fun t =>
    !mZero 4 ((t.core 0).readS .main 1) : List Bool).all id = true := by decide +kernel

/-! ### The X slot -/

/-- A berth entry with a whole, posted barge. -/
def entry0 : BEntry :=
  { idx := 0, hdr := {}, whole := true, voided := false, posted := true, combined := false, member := false, landing := [], payload := [] }
def berthed : State := cpu (withUt fun u => u.modBerth 0 fun b => { b with open_ := true, declared := true, entries := 4, entryBytes := 128, queue := [entry0] })
/-- HRET of an invocation whose entry is the oldest of its berth. -/
def handOf0 : State :=
  let y : Invocation := { berth := 0, gen := 0, handler := 0, entry := 0, postedCc := 0, payload := 64, length := 8, src := 1, word0 := 0, combined := false }
  (berthed.modCtl 0 fun k => { k with hand := .running, main := .idle, handBudget := 8, curInv := some y })
theorem witness_HandlerWindowAndReturn : ([issuesAnd .c 0x56 { iss .c 0x560 with ctx := .hand } handOf0 fun t =>
    ((t.core 0).ctl.curInv.any fun y => y.berth == 0 && y.gen == (t.berth 0 0).gen && y.entry == 0) &&
      ((t.berth 0 0).queue.head?.any fun e => e.idx == 0 && e.posted)] : List Bool).all id = true := by decide +kernel
theorem witness_WaitsAndTests : ([issues .x 0x02 (iss .x 0x020) (cpu id), issues .x 0x03 (iss .x 0x030) (cpu id),
    issuesAnd .x 0x0B (iss .x 0x0B0) berthed fun t => !(t.berth 0 0).queue.isEmpty, issues .x 0x1A (iss .x 0x1A0) (cpu id),
    issues .x 0x1B (iss .x 0x1B0) (cpu id)] : List Bool).all id = true := by decide +kernel

/-- SIGNAL to chamber 5 of LT n. -/
def sigTo (n : Nat) : State := cpu (withS [(0, BitVec.ofNat 64 (3 <<< 60 + n <<< 45 + 5))])
/-- A step admitted on LT 0 that declares Canal chambers 0 to 7. -/
def man0 : Manifest :=
  { kind := 1, seq := 1, length := 64, lts := [0], pounds := 2, replays := 1, late := false, debug := false, admitWait := 0, notBefore := 0, canalBase := 0,
    canalCount := 8, poundEnts := [{ d := 1000, power := 0, timed := true, canalTimed := false }], ltEnts := [], reserve := [], consign := [], colls := [],
    restore := [], image := none, chart := [] }
def step0 : StepRec :=
  { num := 1, man := man0, phase := .running, poundIdx := 0, attempt := 0, replaysRun := 0, stepW := 5, stepE := 5, tAdmit := 0, cause := .none, causeLt := 0,
    overrun := false, late := false, throttled := false, marked := false, stalls := 0, latePounds := 0, poundsRun := 0, faultSeen := none, ending := none,
    noReplay := false, addr := 0, attemptPounds := 0, lost := 0, prog := false, restored := false, finals := [], colls := [], recheck := false,
    retiring := none }
def stepped (s : State) : State := { s with intake := { s.intake with steps := [step0] } }
/-- A late core that runs pound 0 of step 1, whose pound 1 has begun. -/
def lateCore : State :=
  let s := cpu fun t => withCtl (fun k => { k with lateRun := true }) t
  { s with intake := { s.intake with steps := [{ step0 with poundIdx := 1, phase := .running }] } }
theorem witness_PendEndsThePound : ([issuesAnd .c 0x55 (iss .c 0x550) (cpu id) fun t => (t.catchUp 0 (bit (slotWord (iss .c 0x550).bundle .c) 26)).isNone,
    issuesAnd .c 0x55 (iss .c 0x550) lateCore fun t => t.catchUp 0 (bit (slotWord (iss .c 0x550).bundle .c) 26) == some 1,
    issues .c 0x55 { iss .c 0x550 with ctx := .tow } towRuns, issues .c 0x55 { iss .c 0x550 with ctx := .dbg } dbgRuns] : List Bool).all id = true := by
  decide +kernel

theorem witness_PopArmSignal : ([issuesAnd .x 0x0C (iss .x 0x0C0) berthed fun t => (t.berth 0 0).entries != 0 && (match (t.berth 0 0).queue with
      | e :: _ => e.posted && e.whole && !toHandler (t.core 0) e.hdr
      | [] => false),
    issuesAnd .x 0x18 (iss .x 0x180) (cpu id) fun _ => !xCn (slotWord (iss .x 0x180).bundle .x),
    issuesAnd .x 0x18 (iss .x (0x180 + 7 <<< 36 + 1 <<< 50)) (stepped (cpu id)) fun _ => xCn (slotWord (iss .x (0x180 + 7 <<< 36 + 1 <<< 50)).bundle .x),
    issuesAnd .x 0x19 (iss .x 0x190) (sigTo 0) fun t => !(t.slot 0 0).busy && addrClass ((t.core 0).readS .main 0) == 3 && addrLt ((t.core 0).readS .main 0) == 0,
    issuesAnd .x 0x19 (iss .x 0x190) (sigTo 119) fun t => !(t.slot 0 0).busy && addrClass ((t.core 0).readS .main 0) == 3 && addrLt ((t.core 0).readS .main 0) == 119] :
    List Bool).all id = true := by decide +kernel

theorem witness_BusySlotRefuses : ((([0x01, 0x04, 0x05, 0x08, 0x09, 0x0A, 0x0D, 0x0E, 0x0F, 0x10] : List Nat).map fun op =>
      issuesAnd .x op (iss .x (op <<< 4)) (cpu (withMov fun m => { m with slots := vmod m.slots 0 fun _ => busySlot })) fun t => (t.slot 0 0).busy) ++
    [issuesAnd .x 0x19 (iss .x 0x190) (cpu fun t => withS [(0, 3 <<< 60)] (withMov (fun m => { m with slots := vmod m.slots 0 fun _ => busySlot }) t)) fun t =>
      (t.slot 0 0).busy] : List Bool).all id = true := by decide +kernel

/-- A stream descriptor at address 0: IN, BULK, rows of 64 bytes. -/
def strmDesc (rows : Nat) (t : Tile) : Tile := withMem [(0, 1 + 4), (8, 1 <<< 60), (24, 64 + rows <<< 32)] t
def strmHyp (f : Tile → Tile) (p : Bool → Nat → Bool) : Bool :=
  issuesAnd .x 0x01 (iss .x 0x010) (cpu f) fun t => !(t.slot 0 0).busy && (match (t.xDesc (iss .x 0x010)).2 with
    | some d => p (streamBad (t.lastPound 0) (streamOf (iss .x 0x010) (t.opNo 0) (t.ut 0).tick d) d) (fld (wordOf d 3) 0 26 * fld (wordOf d 3) 32 32)
    | none => false)
theorem witness_StreamIssue : ([issuesAnd .x 0x01 (iss .x 0x010) (badAt (cpu id)) fun t => !(t.slot 0 0).busy && (t.xDesc (iss .x 0x010)).2.isNone,
    strmHyp id fun bad _ => bad, strmHyp (strmDesc 0) fun bad n => !bad && decide (n < 64),
    strmHyp (strmDesc 1) fun bad n => !bad && n == 64] : List Bool).all id = true := by decide +kernel

def rw (op sa sc : Nat) (p : State → Bool) (s : (Tile → Tile) → State := cpu) : Bool :=
  issuesAnd .x op (iss .x (op <<< 4 + 1 <<< 24)) (s (withS [(0, BitVec.ofNat 64 sa), (1, BitVec.ofNat 64 sc)])) fun t => !(t.slot 0 0).busy && p t
/-- The two banks run at different steps. -/
def twoSteps (f : Tile → Tile) : State :=
  let s := cpu f
  { s with clocks := { s.clocks with step := { s.clocks.step with wCur := 0 } } }
def unsafeTo (a : Nat) (t : State) : Bool := t.timingUnsafe 0 (t.vcOf 0 .main) (addrLt (BitVec.ofNat 64 a))
def readUnsafe (a : Nat) (t : State) : Bool := t.unsafeRead 0 (t.vcOf 0 .main) (BitVec.ofNat 64 a)
/-- How much of the source comes before a bad line. -/
def cleanOf (n : Nat) (t : State) : Nat := ((t.core 0).spdAt (t.access 0 6 0 [(0, n)]).2.1).cleanPrefix 0 n
theorem witness_RemoteAccessIssue : ([rw 0x04 (1 <<< 60) 64 fun _ => true, rw 0x04 0 (64 + 1 <<< 56) fun _ => true,
    rw 0x05 0 (64 + 1 <<< 32) fun _ => true, rw 0x05 (1 <<< 60) 8 fun _ => true,
    rw 0x04 (9 <<< 45) 64 (unsafeTo (9 <<< 45)) twoSteps, rw 0x05 (9 <<< 45) 64 (readUnsafe (9 <<< 45)) twoSteps,
    rw 0x04 (9 <<< 45 + 4095) 4097 fun t => !unsafeTo (9 <<< 45) t && cleanOf 4097 t == 4097,
    rw 0x04 (9 <<< 45 + 4095) 4097 (fun t => !unsafeTo (9 <<< 45) t && cleanOf 4097 t == 0) fun f => badAt (cpu f),
    rw 0x05 (9 <<< 45 + 4095) 4097 fun t => !readUnsafe (9 <<< 45 + 4095) t,
    rw 0x05 (2 <<< 60 + 127 <<< 45 + 0x010000) 8 fun t => !readUnsafe (2 <<< 60 + 127 <<< 45 + 0x010000) t] : List Bool).all id = true := by decide +kernel

def sendHyp (op sa sc : Nat) (f : Tile → Tile) (p : Bool → Bool → State → Bool) (s : (Tile → Tile) → State := cpu) : Bool :=
  issuesAnd .x op (iss .x (op <<< 4 + 1 <<< 24)) (s fun t => f (withS [(0, BitVec.ofNat 64 sa), (1, BitVec.ofNat 64 sc)] t)) fun t =>
    !(t.slot 0 0).busy && p (sendBad (op == 0x0A) (BitVec.ofNat 64 sa) (BitVec.ofNat 64 sc)) (t.timingUnsafe 0 (t.vcOf 0 .main) (fld (BitVec.ofNat 64 sa) 0 7)) t
def staged0 : Staged :=
  { slot := 1, ctx := .main, hdr := {}, payload := [], deadline := 0, backoff := 32, retryAt := none, inFlight := true, fullAnswers := 0, firstFull := none }
def fullStaging : Tile → Tile := withMov fun m => { m with staging := Vector.replicate 8 (some staged0) }
/-- COUNT 1 for the combining form. -/
def sendSc (op n : Nat) : Nat := n + if op = 0x0A then 1 <<< 31 else 0
theorem witness_BargeSends : (([0x08, 0x09, 0x0A] : List Nat).flatMap fun op =>
    [sendHyp op (1 <<< 53) (sendSc op 4) id fun bad _ _ => bad, sendHyp op 9 (sendSc op 4) id (fun bad u _ => !bad && u) twoSteps,
     op == 0x08 || sendHyp op 9 (sendSc op 4) fullStaging fun bad u t => !bad && !u && (t.core 0).mov.staging.all fun e => e.isSome,
     sendHyp op 9 (sendSc op 4096) id fun bad u t => !bad && !u && cleanOf 4096 t == 4096 && ((t.core 0).mov.staging[0]).isNone,
     sendHyp op 9 (sendSc op 4096) id (fun bad u t => !bad && !u && cleanOf 4096 t == 0 && ((t.core 0).mov.staging[0]).isNone) fun f => badAt (cpu f)] :
    List Bool).all id = true := by decide +kernel

def decl (b w : Bool) (t : Tile) : Tile := withUt (fun u => (u.modBerth 0 fun h => { h with declared := b }).modWindow 0 fun h => { h with declared := w }) t
def opened (t : Tile) : Tile := withUt (fun u => (u.modBerth 0 fun h => { h with open_ := true }).modWindow 0 fun h => { h with open_ := true }) t
def openHyp (op : Nat) (f : Tile → Tile) (p : State → List Byte → Bool) : Bool :=
  issuesAnd .x op (iss .x (op <<< 4)) (cpu f) fun t => !(t.slot 0 0).busy && (match (t.xDesc (iss .x (op <<< 4))).2 with
    | some d => p t d
    | none => false)
def closeHyp (op : Nat) (f : Tile → Tile) (p : State → Bool) : Bool := issuesAnd .x op (iss .x (op <<< 4)) (cpu f) fun t => !(t.slot 0 0).busy && p t
/-- One entry of 64 bytes at generation 1. -/
def berthDesc : Tile → Tile := withMem [(0, 1 <<< 32 + 1 <<< 48), (8, 64)]
/-- 64 bytes at offset 0, generation 1. -/
def winDesc : Tile → Tile := withMem [(0, 64 <<< 32), (8, 1)]
theorem witness_OpenAndClose : ([issuesAnd .x 0x0D (iss .x 0x0D0) (badAt (cpu id)) fun t => !(t.slot 0 0).busy && (t.xDesc (iss .x 0x0D0)).2.isNone,
    issuesAnd .x 0x0F (iss .x 0x0F0) (badAt (cpu id)) fun t => !(t.slot 0 0).busy && (t.xDesc (iss .x 0x0F0)).2.isNone,
    openHyp 0x0D id fun t _ => !berthOpen t 0 .main 0, openHyp 0x0D (decl true true) fun t d => berthOpen t 0 .main 0 && berthBad 0 (t.berth 0 0) d,
    openHyp 0x0D (fun t => berthDesc (decl true true t)) fun t d => berthOpen t 0 .main 0 && !berthBad 0 (t.berth 0 0) d,
    closeHyp 0x0E id fun t => !berthOpen t 0 .main 0, closeHyp 0x0E (decl true true) fun t => berthOpen t 0 .main 0 && !(t.berth 0 0).open_,
    closeHyp 0x0E (fun t => opened (decl true true t)) fun t => berthOpen t 0 .main 0 && (t.berth 0 0).open_,
    openHyp 0x0F id fun t _ => !windowOpen t 0 .main 0, openHyp 0x0F (decl true true) fun t d => windowOpen t 0 .main 0 && windowBad (t.window 0 0) d,
    openHyp 0x0F (fun t => winDesc (decl true true t)) fun t d => windowOpen t 0 .main 0 && !windowBad (t.window 0 0) d,
    closeHyp 0x10 id fun t => !windowOpen t 0 .main 0, closeHyp 0x10 (decl true true) fun t => windowOpen t 0 .main 0 && !(t.window 0 0).open_,
    closeHyp 0x10 (fun t => opened (decl true true t)) fun t => windowOpen t 0 .main 0 && (t.window 0 0).open_] : List Bool).all id = true := by decide +kernel

end Sys2Proof.Tests
end

