-- ==== Sys2Proof/Tests/WitnessFlow.lean ====
section
/-! SUPPORT. Witnesses for the statements about events of the core, streams, lines, the page chart, barges, windows, chambers and packets. One
Boolean stands for the hypotheses of one clause, in the statement's order. -/

set_option Elab.async false

namespace Sys2Proof.Tests

open Sys2Proof Sys2Proof.Machine

/-! ### Events of the core -/

/-- The tile may take an event in cycle cc. -/
def atCycle (s : State) (cc : Nat) : Bool := decide ((s.ut 0).cycle ≤ cc) && s.dieUp 0

def mop0 (kind : Nat) (d : Option Drain) : MOp :=
  { kind := kind, start := 0, finish := 4, chamber := some (false, 7), writes := [], drain := d, retired := false }
def drain0 (r : ChkRes) : Drain :=
  { fmt := 0, isInt := false, q := 0, first := 0, m := 1, clear := false, t0 := 0, w := 2, dst := 0, dstS := 0, next := 1, results := [(0, r)] }
def withOps (l : List MOp) : State := stepped (cpu (withMat fun m => { m with ops := l }))
def retires (kind cc : Nat) (s : State) (p : MOp → Bool) : Bool :=
  atCycle s cc && (match (retireOp (BitVec.ofNat 8 kind) cc ((s.run 0 cc).core 0).mat.ops).2 with | some o => p o | none => false)
theorem witness_MatrixCompletions : ([retires 2 4 (withOps [mop0 2 none]) fun o => o.drain.isNone, retires 3 5 (withOps [mop0 3 none]) fun o => decide (o.finish < 5),
    retires 4 5 (withOps [mop0 4 (some (drain0 .mismatch))]) fun o => (match o.drain with | some d => d.results.any fun r => r.2 == .mismatch | none => false),
    retires 4 5 (withOps [mop0 4 (some (drain0 .ok))]) fun o => (match o.drain with | some d => d.results.all fun r => r.2 == .ok | none => false)] :
    List Bool).all id = true := by decide +kernel

def keeps (f : Keeper → Keeper) : State := stepped (cpu (withMat fun m => { m with keeper := f m.keeper }))
def keepHyp (s : State) (cc : Nat) (p : State → Keeper → Bool) : Bool := atCycle s cc && p (s.run 0 cc) ((s.run 0 cc).core 0).mat.keeper
theorem witness_CurrentKeeper : ([
    keepHyp (keeps id) 8 fun u k => u.mainRuns 0 && !(u.core 0).mat.stepping 8 && !k.filling && !k.gapHeld && k.gapStart.isNone && k.thresh != 0,
    keepHyp (keeps fun k => { k with filling := true, gapStart := some 0, thresh := 7 }) 8 fun u k =>
      u.mainRuns 0 && !(u.core 0).mat.stepping 8 && !k.gapHeld && k.filling && k.gapStart == some 0 && decide (0 + k.thresh.toNat < 8),
    keepHyp (keeps fun k => { k with thresh := 0 }) 8 fun u k => u.mainRuns 0 && !(u.core 0).mat.stepping 8 && !k.gapHeld && k.gapStart.isNone && k.thresh == 0,
    keepHyp (keeps fun k => { k with notes := [{ down := true, level := 50, at_ := 8 }] }) 8 fun u k =>
      u.mainRuns 0 && k.notes.any fun n => n.down && decide (n.at_ ≤ 8),
    (let s := cpu (withMat fun m => { m with keeper := { m.keeper with notes := [{ down := true, level := 50, at_ := 8 }] } })
     keepHyp s 8 fun u k => !u.mainRuns 0 && k.notes.any fun n => n.down && decide (n.at_ ≤ 8)),
    keepHyp (keeps fun k => { k with notes := [{ down := false, level := 50, at_ := 8 }] }) 8 fun u k =>
      u.mainRuns 0 && k.notes.any fun n => !n.down && decide (n.at_ ≤ 8),
    issuesAnd .x 0x20 (iss .x 0x200) (cpu (withS [(0, 1999)])) fun t => (t.core 0).readS .main 0 == 1999,
    issuesAnd .x 0x20 (iss .x (0x200 + 1 <<< 51)) (cpu (withS [(0, 2000)])) fun t => (t.core 0).readS .main 0 == 2000,
    issuesAnd .x 0x20 (iss .x (0x200 + 3 <<< 52)) (stepped (cpu (withS [(0, 2000)]))) fun t => t.mainRuns 0 && !bit (slotWord (iss .x (0x200 + 3 <<< 52)).bundle .x) 51] : List Bool).all id = true := by
  decide +kernel

/-- MAIN is stalled since cycle 0 on the bundle at a stall point. -/
def stalled (w : Nat) (pt : Fin 6) (f : Tile → Tile) : State :=
  cpu fun t => withCtl (fun k => { k with main := .stalled pt, held := some (iss .x w), stallStart := 0 }) (f t)
def stallHyp (w : Nat) (pt : Fin 6) (f : Tile → Tile) (met : Bool := true) (ok : Bool := true) : Bool :=
  let s := stalled w pt f
  let u := s.run 0 3
  let z := u.run 0 4
  s.dieUp 0 && decide ((s.ut 0).cycle ≤ 3) && (u.core 0).ctl.main == .stalled pt && (u.core 0).ctl.held == some (iss .x w) &&
    (if met then (stallPoint u 0 (bundleOf .x w)).isNone else (u.core 0).ctl.freed) && decide ((u.core 0).ctl.stallStart < 4) && ((bundleFaults z { iss .x w with cc := 4 }).isEmpty == ok)
theorem witness_StallsEnd : ([stallHyp 0x1A0 1 id,
    stallHyp 0x0B0 2 (withUt fun u => u.modBerth 0 fun b => { b with open_ := true, declared := true, entries := 4, entryBytes := 128, queue := [entry0] }),
    stallHyp 0x020 4 id, stallHyp 0x1A0 1 (fun t => withUt (fun u => u.setChamber 0 (Chamber.arm 1)) (withCtl (fun k => { k with freed := true }) t)) false,
    stallHyp 0x0B0 2 (withUt fun u => u.modBerth 0 fun b => { b with open_ := true, entries := 4, entryBytes := 128, queue := [entry0] }) true false,
    (let s := stalled 0x080 3 fun t => fullStaging (withCtl (fun k => { k with patience := vmod k.patience 0 fun _ => 4 }) t)
     let u := s.run 0 4
     atCycle s 4 && (u.core 0).ctl.main == .stalled 3 && (u.core 0).ctl.held == some (iss .x 0x080) && stagingFull u 0 &&
       decide ((u.core 0).ctl.stallStart + (vat (u.core 0).ctl.patience 0).toNat ≤ 4) && (bundleFaults u { iss .x 0x080 with cc := 4 }).isEmpty && !(s.slot 0 0).busy)] : List Bool).all id = true := by decide +kernel

def inv0 : Invocation :=
  { berth := 3, gen := 1, handler := 0, entry := 0, postedCc := 0, payload := 64, length := 8, src := 1, word0 := 0, combined := false }
def posted (n : Nat) : State := cpu fun t => withCtl (fun k => { k with queue := [inv0] })
  { t with core := { t.core with img := { t.core.img with htab := [(0, BitVec.ofNat 64 (n + 16 <<< 16 + 1 <<< 28))] } } }
def startHyp (n : Nat) (p : Nat → Nat → Bool) : Bool :=
  let c := ((posted n).run 0 4).core 0
  atCycle (posted n) 4 && c.ctl.queue == [inv0] && c.ctl.hand == .idle && !vat c.ctl.stopped 1 && c.ctl.handLast == 0 &&
    p (fld (handlerEntry c 0) 0 14) c.img.bundles
theorem witness_HandlersStart : ([startHyp 7 fun a b => decide (a < b), startHyp 8 fun a b => decide (b ≤ a),
    (let s := cpu (withCtl fun k => { k with hwinOpen := true, hwinEnd := 4 })
     atCycle s 4 && ((s.run 0 4).core 0).ctl.hwinOpen && decide (((s.run 0 4).core 0).ctl.hwinEnd ≤ 4))] : List Bool).all id = true := by decide +kernel

theorem witness_DebugAndService : ([(cpu id).dieUp 0 && ((cpu id).stepAt 0).isNone && ((cpu id).core 0).ctl.main != .halted,
    (stepped (cpu id)).dieUp 0 && (match (stepped (cpu id)).stepAt 0 with | some r => !r.man.debug | none => false),
    (let s := cpu (withCtl fun k => { k with main := .halted, heldHalt := some .issuing })
     s.dieUp 0 && (s.core 0).ctl.main == .halted && (s.core 0).ctl.heldHalt == some .issuing),
    (let s := { cpu id with intake := { State.reset.intake with steps := [{ step0 with man := { man0 with debug := true } }] } }
     s.dieUp 0 && (s.core 0).ctl.main != .halted && (match s.stepAt 0 with | some r => r.man.debug | none => false)),
    (let h : Control → Control := fun k => { k with main := .halted, heldHalt := some (.stalled 5), lateRun := true }
     let s := cpu (withCtl h)
     (s.core 0).ctl.heldHalt == some (.stalled 5) && (s.core 0).ctl.lateRun && (s.catchUp 0 false).isNone),
    (let s := lateCore.modCtl 0 fun k => { k with main := .halted, heldHalt := some (.stalled 5) }
     (s.core 0).ctl.heldHalt == some (.stalled 5) && (s.core 0).ctl.lateRun && s.catchUp 0 false == some 1)] : List Bool).all id = true := by decide +kernel

/-- NI owns group 0 in cycle 1 after the gate tick. -/
theorem witness_ScrubAndZeroing : ([
    (let s := cpu (withSpd fun d => { d with single := [0] })
     atCycle s 1 && ((s.run 0 1).core 0).spd.scrubEn && (s.run 0 1).niIdle 0 1 0),
    (let s := cpu (withSpd fun d => { d with single := [0], scrubFix := [0] })
     atCycle s 1 && (((s.run 0 1).core 0).spd.scrubFix.find? fun k => (s.run 0 1).niIdle 0 1 k) == some 0),
    (let s := cpu (withSpd fun d => { d with zeroing := true })
     decide ((s.ut 0).cycle ≤ 1) && (s.core 0).spd.zeroing)] : List Bool).all id = true := by decide +kernel

/-! ### Completions and streams -/

def opWith (kind : MoveKind) (o : Option Status) : MoveOp := { newOp kind .main 0 (some (false, 7)) with id := 1, left := 1, outcome := o }
def withOp (o : MoveOp) : Tile → Tile := withMov fun m => { m with slots := vmod m.slots 0 fun _ => { busy := true, op := some o } }
def opHyp (o : MoveOp) (st : Status) : Bool :=
  let s := cpu (withOp o)
  decide ((s.ut 0).cycle ≤ 2) && (((s.run 0 2).slot 0 0).op).any fun x => x.outcome == some st && decide (x.landAt ≤ 2)
theorem witness_MoveCompletions : ([opHyp (opWith .write (some .done)) .done, opHyp (opWith .read (some .memoryUncorrectable)) .memoryUncorrectable,
    opHyp { opWith .stream (some .done) with cancelled := true } .done, opHyp { opWith .write (some .done) with ch := some (true, 7) } .done,
    opHyp { opWith .write (some .done) with ch := none } .done,
    (let s := cpu (withUt fun u => u.modBerth 0 fun b => { b with leaving := [(0, [])] })
     ((s.run 0 2).berth 0 0).leaving.find? (fun x => x.2.isEmpty) == some (0, [])),
    (let s := cpu (withUt fun u => u.modWindow 0 fun b => { b with leaving := [(0, 1)] })
     let w := (s.run 0 2).window 0 0
     w.leaving.find? (fun x => w.accs.all fun a => a.era != x.2 || !a.landing 2) == some (0, 1)),
    (let s := cpu (withUt fun u => u.modBerth 0 fun b => { b with closing := some 0, closeAt := some 2 })
     let u := s.run 0 2
     decide ((s.ut 0).cycle ≤ 2) && (u.berth 0 0).leaving.isEmpty && (u.berth 0 0).closing == some 0 && (u.berth 0 0).closeAt == some 2 && (u.berth 0 0).landed),
    (let s := cpu (withUt fun u => u.modWindow 0 fun b => { b with closing := some 0, closeAt := some 2 })
     let u := s.run 0 2
     decide ((s.ut 0).cycle ≤ 2) && (u.window 0 0).leaving.isEmpty && (u.window 0 0).closing == some 0 && (u.window 0 0).closeAt == some 2 && (u.window 0 0).accs.all fun a => !a.landing 2)] :
    List Bool).all id = true := by decide +kernel

/-- One packet in flight, number 1. -/
def sending (q : Packet) (s : State) : State := { s with net := [q], nextPkt := 10 }
def pkt (pl : Place) (ty : BitVec 4) : Packet := Packet.blank 1 pl ty
/-- A chart entry: valid, in HBM, stack 0. -/
def ent0 : Word := 1
/-- A stream of 20 lines in slot 0 in the page 0, operation 1. -/
def st0 : Stream :=
  { slot := 0, op := 1, ctx := .main, idx := 0, outDir := false, bulk := false, rate := 128, wait := none, s := 0, model := 0, loc := 0, rowBytes := 1280,
    rows := 1, mstride := 0, lstride := 0, page := some (0, ent0), cls := .c1, waitMig := false, waitRing := false, req := 0, rel := 0, outst := [],
    ring := [], landAt := 0, late := false, stop := none }
def withStreams (l : List Stream) : Tile → Tile := withMov fun m => { m with streams := l }
def cached (e : Word) : Tile → Tile := withUt fun u => { u with cht := { u.cht with ents := [{ page := 0, entry := e, count := 0 }] } }
def pageHyp (st : Stream) (f : Tile → Tile) (p : State → Bool) (g : State → State := id) : Bool :=
  let s := g (cpu fun t => f (withStreams [{ st with page := none }] t))
  let u := s.run 0 1
  decide ((s.ut 0).cycle ≤ 1) && (match u.stream 0 0 with | some x => x.before | none => false) && p u
def cachedHyp (e : Word) (st : Stream) (p : State → Bool) (g : State → State := id) : Bool :=
  pageHyp st (cached e) (fun u => ((u.ut 0).cht.ents.find? fun x => x.page == 0) == some { page := 0, entry := e, count := 0 } && p u) g
def banksApart (s : State) : State := { s with clocks := { s.clocks with step := { s.clocks.step with wCur := 0 } } }
def withChart (s : State) : State := { s with chart := { s.chart with wValid := true } }
theorem witness_StreamPageEntry : ([
    pageHyp st0 id (fun u => (u.ut 0).cht.ents.isEmpty && (u.ut 0).cht.pendFill.isEmpty && u.chart.copyFor (bankOf 0) == some .west) withChart,
    cachedHyp 33 { st0 with waitMig := true } fun _ => bit (33 : Word) 5, cachedHyp 33 st0 fun _ => bit (33 : Word) 5,
    cachedHyp 0 st0 fun _ => !bit (0 : Word) 5 && !entHere 0,
    cachedHyp 17 { st0 with outDir := true } fun _ => !bit (17 : Word) 5 && entHere 17 && bit (17 : Word) 4,
    cachedHyp (1 + 12 <<< 8) st0 (fun u => entHere (1 + 12 <<< 8) && bankOfStack (entStack (1 + 12 <<< 8)) != bankOf 0 && u.banksDiffer) banksApart,
    cachedHyp ent0 st0 fun u => !bit ent0 5 && entHere ent0 && !u.banksDiffer,
    cachedHyp ent0 { st0 with bulk := true } (fun u => u.banksDiffer) banksApart,
    (let s := cpu (withUt fun u => { u with cht := { u.cht with pendFill := [5] } })
     ([.done, .memoryUncorrectable] : List Status).all fun st =>
       let q := { pkt (.delivered 0) 0xA with tag := .fill 0 0, status := st, payload := List.replicate 64 0 }
       ({ s with net := [q] } : State).net.find? (fun q => q.place == .delivered 0 && q.type == 0xA && decide (q.tag = .fill 0 (5 / 8))) == some q)] : List Bool).all id = true := by decide +kernel

def chunkHyp (st : Stream) (cc : Nat) (p : State → Stream → Bool) (f : Tile → Tile := id) (g : State → State := id) : Bool :=
  let s := g (cpu fun t => f (withStreams [st] t))
  let u := s.run 0 cc
  decide ((s.ut 0).cycle ≤ cc) && (match u.stream 0 0 with | some x => p u x | none => false)
def noRing : Tile → Tile := withUt fun u => { u with stg := { u.stg with ringMib := 0 } }
/-- A stream of class C1 in a page of the other bank. -/
def farSt : Stream := { st0 with page := some (0, 1 + 12 <<< 8) }
theorem witness_StreamChunks : ([chunkHyp st0 1 fun u x => !x.outDir && !x.waitRing && x.ready 1 && u.ringRoom 0 (x.run1 x.req).length && !u.streamUnsafe 0 x,
    chunkHyp farSt 1 (fun u x => !x.outDir && !x.waitRing && x.ready 1 && u.ringRoom 0 (x.run1 x.req).length && u.streamUnsafe 0 x) id banksApart,
    chunkHyp { farSt with outDir := true } 1 (fun u x => x.outDir && x.ready 1 && u.streamUnsafe 0 x) id banksApart,
    chunkHyp { st0 with outDir := true } 1 (fun u x => x.outDir && x.ready 1 && !u.streamUnsafe 0 x && x.stop.isNone && x.run1 x.req == [0] ++ 1 :: List.range' 2 14 &&
      ((u.core 0).spd.badIn (x.localAt 0) 64).isEmpty && !((u.core 0).spd.badIn (x.localAt 1) 64).isEmpty) (withSpd fun d => { d with bad := [16] }),
    chunkHyp st0 1 (fun u x => x.ready 1 && !u.ringRoom 0 (x.run1 x.req).length) noRing,
    chunkHyp { st0 with waitRing := true } 1 fun u x => x.waitRing && x.ready 1 && u.ringRoom 0 (x.run1 x.req).length && !u.streamUnsafe 0 x,
    chunkHyp { st0 with req := 16, ring := (List.range 16).map fun n => (n, List.replicate 64 0) } 2048 fun u x => !(u.core 0).spd.zeroing &&
      let n := min (chunkEnd x.rel) x.limit - x.rel
      n == 16 && ((List.range' x.rel n).all fun m => x.ring.any fun e => e.1 == m) && x.wait.isNone && decide (x.s + 2048 + cdiv (x.rel / 16 * 128) x.rate ≤ 2048),
    chunkHyp { st0 with outDir := true } 1 fun u x => x.outDir && x.ready 1 && !u.streamUnsafe 0 x && (x.run1 x.req).all fun n => ((u.core 0).spd.badIn (x.localAt n) 64).isEmpty,
    chunkHyp { st0 with rel := 20, req := 20 } 1 (fun u x => x.finished 1 && (u.slot 0 0).op.any fun o => o.id == x.op && o.outcome.isNone && !o.cancelled)
      (withOp (opWith .stream none))] : List Bool).all id = true := by decide +kernel

/-! ### Staging cache and stacks -/

/-- A line request to stack 0, line a, at position P.00.00. -/
def lineQ (a : Nat) (w : Bool) : Packet :=
  { pkt (.delivered 0) 9 with addr := BitVec.ofNat 64 (4 <<< 60 + a), base := BitVec.ofNat 64 (4 <<< 60 + a), write := w, payload := if w then List.replicate 64 7 else []
                              dkind := 1, tag := .none }
def line0 : CLine := { line := 0, data := List.replicate 64 9, dirty := false, failing := false }
/-- A core whose stack, rows and slices serve. -/
def withHbm (f : Stack → Stack) (s : State) : State := { s with hbm := vmod s.hbm 0 f }
def sliceHyp (q : Packet) (f : Tile → Tile) (p : State → Bool) (g : State → State := id) : Bool :=
  let s := g (sending q (cpu f))
  s.packet 1 == some q && q.place == .delivered 0 && q.type == 9 && !q.taken && !s.forHbm q && (s.notServed 0 q true).isNone && !s.mustWait q && !q.badHeader && p s
def offChart (a : Nat) (s : State) : Bool := (s.chart.lineAt 0 a).isNone
theorem witness_HomeSliceServes : ([sliceHyp (lineQ 0 true) id (offChart 0), sliceHyp (lineQ chartBase false) id (fun s => !offChart chartBase s) withChart,
    sliceHyp (lineQ 0 false) (withUt fun u => { u with stg := { u.stg with errList := [0] } }) fun s => offChart 0 s && (s.ut 0).stg.errList.contains 0,
    sliceHyp (lineQ 0 false) (withUt fun u => { u with stg := { u.stg with lines := [line0] } }) fun s => offChart 0 s && (s.ut 0).stg.errList.isEmpty && ((s.ut 0).stg.line 0).any fun l => !l.failing,
    sliceHyp (lineQ 0 false) id fun s => offChart 0 s && (s.ut 0).stg.errList.isEmpty && ((s.ut 0).stg.line 0).isNone,
    (let r := { lineQ 0 false with id := 2 }
     let q := { pkt (.delivered 0) 0xA with tag := .slice 0 2, status := .done, payload := List.replicate 64 5 }
     let s : State := { cpu id with net := [q, r], nextPkt := 10 }
     s.packet 1 == some q && s.packet 2 == some r && !q.badHeader && offChart 0 s && (s.ut 0).stg.errList.isEmpty && ((s.ut 0).stg.line 0).isNone)] : List Bool).all id = true := by decide +kernel

def rowQ (w : Bool) : Packet := { lineQ 0 w with tag := .slice 0 5 }
def rowHyp (q : Packet) (f : Stack → Stack) (p : Stack → Bool) (g : State → State := id) (ps : State → Bool := offChart 0) : Bool :=
  let s := g (withHbm f (sending q (cpu id)))
  let k := s.hbm[lineStack q]
  s.packet 1 == some q && q.place == .delivered (rowEnd (lineStack q)) && q.type == 9 && !q.taken && s.forHbm q && !k.initing && k.present && !k.lost &&
    !k.selfRefresh && !k.retraining.contains (Fin.ofNat 64 (lineAddr q / 1024)) && s.hbmTurn (lineStack q) q && s.lineFirst (lineStack q) q &&
    (s.notServed 0 q true).isNone && !s.mustWait q && !q.badHeader && p k && ps s
theorem witness_RowEndServes : ([rowHyp (rowQ true) id fun _ => true, rowHyp (rowQ false) id fun k => !k.bad.contains 0,
    rowHyp (rowQ false) (fun k => { k with bad := [0] }) fun k => k.bad.contains 0,
    (let q := { lineQ chartBase false with tag := .slice 0 5 }
     rowHyp q id (fun k => k.bad.isEmpty) withChart fun s => !offChart chartBase s && (s.countOf q).isNone),
    (let q := { lineQ chartBase true with tag := .slice 0 5 }
     let r := { lineQ chartBase true with id := 5, taken := true, tag := .count 3 2 }
     rowHyp q id (fun _ => true) (fun s => let t := withChart s
       { t with net := t.net ++ [r] }) fun s => !offChart chartBase s && s.countOf q == some (3, 2)),
    (let a := { rowQ false with cls := .c0 }
     let b := { rowQ false with id := 2, cls := .c1, total := 5 }
     let s : State := { cpu id with net := [a, b] }
     (s.hbmWaiting 0).contains a && (s.hbmWaiting 0).contains b && s.hbmTurn 0 a && a.cls == .c0 && decide ((s.hbm[0]).c0Lines * 100 < 4096)),
    (let a := { rowQ false with cls := .c1, total := 5 }
     let b := { rowQ false with id := 2, cls := .c1, total := 5 }
     let s : State := { cpu id with net := [a, b] }
     (s.hbmWaiting 0).contains a && (s.hbmWaiting 0).contains b && s.hbmTurn 0 a && a.cls == .c1 && b.cls == .c1),
    (let a := { rowQ false with cls := .c0 }
     let b := { rowQ false with id := 2, cls := .c1 }
     let s : State := { cpu id with net := [a, b] }
     (s.hbmWaiting 0).contains a && (s.hbmWaiting 0).contains b && s.hbmTurn 0 a && b.cls == .c1)] : List Bool).all id = true := by decide +kernel

theorem witness_PartitionAndFlush : ([decide ((1 : BitVec 4).toNat < 2 ∨ 8 < (1 : BitVec 4).toNat), decide ((9 : BitVec 4).toNat < 2 ∨ 8 < (9 : BitVec 4).toNat),
    ((State.reset.ut 0).stg.ringMib == 4), decide (2 ≤ (2 : BitVec 4).toNat ∧ (2 : BitVec 4).toNat ≤ 8) && (State.reset.ut 0).stg.ringMib != 2,
    decide (2 ≤ (8 : BitVec 4).toNat ∧ (8 : BitVec 4).toNat ≤ 8) && (State.reset.ut 0).stg.ringMib != 8,
    ((cpu (withUt fun u => { u with stg := { u.stg with flush := true } })).ut 0).stg.flush] : List Bool).all id = true := by decide +kernel

def ansHyp (st : Status) (out : Bool) : Bool :=
  let q := { pkt (.delivered 0) 0xA with tag := .stream 0 0 3, opId := 1, status := st, payload := List.replicate 64 1 }
  let s := sending q (cpu fun t => withOp (opWith .stream none) (withStreams [{ st0 with outst := [(3, 0)], outDir := out }] t))
  s.packet 1 == some q && !q.badHeader && !(s.ut 0).flags.lost && q.type == 0xA && !q.taken && !q.echo && s.slotOfOp 0 1 == some 0 && ((s.slot 0 0).op.any fun o => o.id == 1) &&
    (match s.stream 0 0 with | some x => x.op == 1 && x.outDir == out && x.stop.isNone && x.outst == [(3, 0)] | none => false) && !(s.ut 0).stg.eccValid
theorem witness_LineAnswers : ([ansHyp .done false, ansHyp .done true, ansHyp .memoryUncorrectable false,
    (let q := { pkt (.delivered 0) 0xA with tag := .back 0 3 }
     let s := sending q (cpu id)
     s.packet 1 == some q && !q.badHeader && !(s.ut 0).flags.lost)] : List Bool).all id = true := by decide +kernel

/-! ### The page chart -/

def charted (f : Chart → Chart) : State := { cpu id with chart := f { State.reset.chart with wValid := true, eValid := true, eHome := 12 } }
def upd0 (second : Bool) (l : List Pos) : ChartUpd := { page := 3, new := 1, old := 0, second := second, manifest := false, waiting := l }
theorem witness_ChartChange : ([
    (let s := charted id; s.chart.upd.isNone && s.chart.run.isNone && !s.entryBad (setMig ent0 false) && s.chart.inUse),
    (charted fun c => { c with upd := some (upd0 false [0]) }).chart.upd.isSome,
    (charted fun c => { c with upd := some (upd0 false [0]) }).chart.upd == some (upd0 false [0]) && (upd0 false [0]).waiting.contains 0,
    (charted fun c => { c with upd := some (upd0 true [0, 1]) }).chart.upd == some (upd0 true [0, 1]) && (upd0 true [0, 1]).waiting.any fun q => q != 0,
    (charted fun c => { c with upd := some (upd0 true [0]) }).chart.upd == some (upd0 true [0]) && (upd0 true [0]).second && !(upd0 true [0]).manifest,
    (let s := charted fun c => { c with upd := some (upd0 false []) }
     s.chart.upd == some (upd0 false []) && !s.pageBusy 3 && s.pageHeld 3 == [] && s.chart.run.isNone),
    (charted id).chart.wValid && (charted id).chart.eValid, !State.reset.chart.wValid && !State.reset.chart.eValid] : List Bool).all id = true := by decide +kernel

def migHyp (k : MigKind) (e : Word) (p : State → Bool) (f : State → State := id) : Bool :=
  let s := f (charted fun c => { c with queue := [{ page := 3, kind := k }], west := tblPut 0 c.west 3 e })
  s.chart.queue.length == 1 && s.chart.upd.isNone && s.chart.run.isNone && s.entry 3 == e && p s
def notMoored (s : State) : Bool := s.lkh.pstate != .moored
/-- The runtime is on PCIe, and host page 0 backs page 3. -/
def windowed (s : State) : State :=
  { s with intake := { s.intake with pcieRuntime := true }, chart := { s.chart with backEn := true }, host := memPutNat [] 24 8 (1 <<< 32) }
theorem witness_MigrationEngine : ([
    (charted fun c => { c with waiting := [{ page := 3, kind := .in_ }] }).chart.queue.length == 0,
    migHyp .in_ 0 (fun s => s.lkh.pstate == .moored) fun s => { s with lkh := { s.lkh with pstate := .moored } },
    migHyp .in_ 0 fun s => notMoored s && !entValid (s.entry 3),
    migHyp .out 3 fun s => notMoored s && entValid (s.entry 3) && entHost (s.entry 3),
    migHyp .demand 1 fun s => notMoored s && entValid (s.entry 3) && !entHost (s.entry 3),
    migHyp .out 1 (fun s => notMoored s && (match ({ s with chart := { s.chart with queue := [] } } : State).migPlan { page := 3, kind := .out } (s.entry 3) with
      | .moves _ _ _ => true
      | .ends _ => false)) windowed,
    (let r : MigRun := { req := { page := 3, kind := .demand }, old := 0, new := 1, host := 0, result := some .done }
     let s := charted fun c => { c with run := some r }
     s.chart.run == some r && s.chart.upd.isNone),
    ([.retire, .in_] : List MigKind).all fun k =>
      (charted fun c => { c with run := some { req := { page := 3, kind := k }, old := 0, new := 1, host := 0, result := some .done } }).chart.run.any fun r => r.req.kind == k,
    ((cached ent0 ((cpu id).tile 0)).ut.cht.ents.map fun e => ({ e with count := 1 } : ChartEnt)).all (fun e => e.count != 0) && (withChart (cpu id)).chart.valid .west,
    (charted id).chart.wValid, !State.reset.chart.wValid && !State.reset.chart.eValid] : List Bool).all id = true := by decide +kernel

/-! ### Barges, windows, chambers -/

def bq (w0 w1 w2 : Nat) : Packet :=
  { pkt (.delivered 0) 5 with hdr := { w0 := BitVec.ofNat 64 w0, w1 := BitVec.ofNat 64 w1, w2 := BitVec.ofNat 64 w2 }, payload := List.replicate 64 3, opId := 1 }
/-- 64 bytes, COMBINE as told, to berth b. -/
def barge0 (b : Nat) (comb : Bool) : Packet := bq (b <<< 7) (64 <<< 8 + (if comb then 1 <<< 21 else 0)) (if comb then 5 + 2 <<< 16 + 1 <<< 28 else 0)
def ring0 (f : Berth → Berth) (b : Berth) : Berth := f { b with open_ := true, declared := true, entries := 2, entryBytes := 128 }
def bargeHyp (q : Packet) (b : Fin 64) (f : Berth → Berth) (p : Option Status → Berth → Bool) : Bool :=
  let s := sending q (cpu (withUt fun u => u.modBerth b (ring0 f)))
  let u := s.run 0 2
  s.packet 1 == some q && q.place == .delivered 0 && q.type == 5 && !q.taken && decide ((s.ut 0).cycle ≤ 2) && !(s.ut 0).flags.lost &&
    !q.badHeader && !(u.core 0).spd.zeroing && p (u.bargeRefused 0 q (u.berth 0 b) 2) (u.berth 0 b)
def grp0 (n : Nat) : Group := { key := 5, op := 0, count := 2, length := 64, handler := 0, entry := 0, some1 := true, merged := n, firstCc := 0, members := [] }
def gEntry : BEntry := { entry0 with whole := false, posted := false, hdr := (barge0 60 true).hdr }
theorem witness_BargeArrival : ([bargeHyp (barge0 3 false) 3 (fun b => { b with open_ := false }) fun r _ => r == some .berthClosed,
    bargeHyp (barge0 3 false) 3 (fun b => { b with queue := [entry0, { entry0 with idx := 1 }] }) fun r _ => r == some .berthFull,
    bargeHyp (barge0 3 false) 3 id fun r b => r.isNone && !b.weir,
    bargeHyp (barge0 60 true) 60 (fun b => { b with weir := true }) fun r b => r.isNone && b.weir && (b.group 5).isNone,
    bargeHyp (barge0 60 true) 60 (fun b => { b with weir := true, queue := [gEntry], groups := [grp0 1] }) fun r b =>
      r.isNone && b.weir && !b.ordered && (b.group 5).isSome,
    bargeHyp (barge0 60 true) 60 (fun b => { b with weir := true, ordered := true, queue := [gEntry], groups := [grp0 1] }) fun r b =>
      r.isNone && b.weir && b.ordered && (b.group 5).isSome] : List Bool).all id = true := by decide +kernel

def contrib0 : Contrib := { packet := 1, hdr := (barge0 3 false).hdr, payload := List.replicate 64 3, landAt := 2 }
def berthHyp (b : Fin 64) (f : Berth → Berth) (p : Berth → Bool) : Bool :=
  let s := sending { barge0 3 false with taken := true } (cpu (withUt fun u => u.modBerth b (ring0 f)))
  decide ((s.ut 0).cycle ≤ 2) && p ((s.run 0 2).berth 0 b)
theorem witness_BargeDeliveryRules : ([
    berthHyp 3 (fun b => { b with queue := [{ entry0 with whole := false, posted := false, landing := [contrib0] }] }) fun b =>
      !b.weir && (b.entry 0).any fun e => (e.landing.find? fun c => decide (c.landAt ≤ 2)) == some contrib0,
    berthHyp 60 (fun b => { b with weir := true, ordered := true, queue := [gEntry], groups := [{ grp0 2 with members := [0] }] }) fun b =>
      b.ordered && (b.group 5).any fun g => decide (g.count.toNat ≤ g.merged),
    berthHyp 60 (fun b => { b with weir := true, weirTimeout := 2, queue := [gEntry], groups := [grp0 1] }) fun b =>
      b.weirTimeout != 0 && (b.group 5).any fun g => decide (g.firstCc + b.weirTimeout.toNat ≤ 2 ∧ g.merged < g.count.toNat),
    berthHyp 3 (fun b => { b with queue := [{ entry0 with posted := false }] }) fun b =>
      (match b.pass.queue with | e :: _ => e.whole && !e.member && !e.posted | [] => false)] : List Bool).all id = true := by decide +kernel

def sendingTile (e : Staged) : Tile → Tile := fun t => withOp (opWith .send none) (withMov (fun m => { m with staging := vmod m.staging 0 fun _ => some e }) t)
def staged1 : Staged := { staged0 with slot := 0, deadline := 100 }
def ansBarge (st : Status) (cc : Nat) : Bool :=
  let q := { pkt (.delivered 0) 6 with opId := 1, status := st }
  let s := sending q (cpu (sendingTile staged1))
  let u := s.run 0 cc
  decide ((s.ut 0).cycle ≤ cc) && s.packet 1 == some q && !q.taken && !(s.ut 0).flags.lost && !q.echo && !q.badHeader && u.stagedOf 0 q == some 0 &&
    (u.core 0).mov.staging[0] == some staged1 && ((u.slot 0 0).op.any fun o => u.slotOfOp 0 o.id == some 0)
theorem witness_BargeSender : ([ansBarge .berthFull 99 && decide (99 < staged1.deadline), ansBarge .done 99, ansBarge .berthFull 100 && decide (staged1.deadline ≤ 100),
    (let s := cpu (sendingTile { staged1 with inFlight := false, retryAt := some 2 })
     decide ((s.ut 0).cycle ≤ 2) && ((s.run 0 2).core 0).mov.staging[0].any fun e => e.retryAt == some 2 && !(s.run 0 2).timingUnsafe 0 ((s.run 0 2).vcOf 0 e.ctx) (hdrLt e.hdr)),
    (let e : Staged := { staged1 with inFlight := false, retryAt := some 2, hdr := { w0 := 9 } }
     let s := twoSteps (sendingTile e)
     ((s.run 0 2).core 0).mov.staging[0] == some e && (s.run 0 2).timingUnsafe 0 ((s.run 0 2).vcOf 0 e.ctx) (hdrLt e.hdr))] : List Bool).all id = true := by decide +kernel

def win0 (w : Window) : Window := { w with open_ := true, declared := true, length := 64, rights := 1 }
def wrQ (n : Nat) : Packet := { pkt (.delivered 0) 3 with payload := List.replicate 64 1, total := n, opId := 1 }
def wrHyp (q : Packet) (p : Option Status → Bool) : Bool :=
  let s := sending q (cpu (withUt fun u => u.modWindow 0 win0))
  let u := s.run 0 2
  let w := (u.window 0 0).tidy 2
  s.packet 1 == some q && !q.taken && decide ((s.ut 0).cycle ≤ 2) && !(s.ut 0).flags.lost && !q.badHeader && !(u.core 0).spd.zeroing && q.type == 3 && !(w.accs.any fun a => a.of q) && p (u.writeRefused 0 q w 2)
def wAnsHyp (ty : BitVec 4) (kind : MoveKind) : Bool :=
  let q := { pkt (.delivered 0) ty with opId := 1, status := .done, payload := [1] }
  let s := sending q (cpu (withOp (opWith kind none)))
  let u := s.run 0 2
  s.packet 1 == some q && !q.taken && !q.echo && !q.badHeader && !(u.core 0).spd.zeroing && (u.core 0).mov.streams.isEmpty && u.slotOfOp 0 1 == some 0 && ((u.slot 0 0).op.any fun o => o.id == 1 && o.left == 1 && o.outcome.isNone)
theorem witness_RemoteWrites : ([wrHyp (wrQ 65) fun r => r == some .windowBounds, wrHyp (wrQ 64) fun r => r.isNone, wAnsHyp 4 .write, wAnsHyp 8 .signal,
    wAnsHyp 2 .read,
    ([4, 2] : List (BitVec 4)).all fun ty =>
      let q := { pkt (.delivered 0) ty with opId := 9 }
      let s := sending q (cpu id)
      s.packet 1 == some q && !q.badHeader && ((s.run 0 2).slotOfOp 0 9).isNone] : List Bool).all id = true := by decide +kernel

def sigQ (pl : Place) (n : BitVec 12) : Packet := { pkt pl 7 with addr := BitVec.ofNat 64 (3 <<< 60 + 9), arg := 1, stepNo := n }
theorem witness_ChamberSignals : ([
    (let q := sigQ (.delivered 0) 0
     let s := sending q (cpu id)
     s.packet 1 == some q && !q.taken && decide ((s.ut 0).cycle ≤ 2) && !(s.ut 0).flags.lost && !q.badHeader && ((s.run 0 2).core 0).ctl.probed != some 2 && ((s.run 0 2).notServed 0 q false).isNone && (tagBad ((s.run 0 2).ut 0) q).isNone),
    (let q := sigQ (.canal 1) 0
     let s := sending q (cpu id)
     s.packet 1 == some q && !s.houseResets 1 && !s.dieOff 1 && !q.badHeader && (s.canalRefused q).isNone && decide (0 < q.arg.toNat)),
    (let q := sigQ (.canal 1) 9
     let s := sending q (cpu id)
     s.packet 1 == some q && !s.houseResets 1 && !s.dieOff 1 && !q.badHeader && s.canalRefused q == some .noRights),
    (let q := { sigQ (.canal 1) 0 with type := 0xD }
     let s := sending q (cpu id)
     s.packet 1 == some q && q.id == 1 && !s.houseResets 1 && !s.dieOff 1 && !q.badHeader),
    (let s := { State.reset with tiles := vmod State.reset.tiles 20 fun t => { t with ut := { t.ut with mirrorDue := [(5, true)] } } }
     (portAt 20).isNone && (takeUpdate 5 (s.ut 20).mirrorDue).1 == some true),
    (let s := cpu (withUt fun u => { u with mirrorDue := [(5, false)] })
     (takeUpdate 5 (s.ut 0).mirrorDue).1 == some false)] : List Bool).all id = true := by decide +kernel

/-! ### Packets -/

def hopHyp (q : Packet) (p : Pos) (f : Tile → Tile) (h : State → Exit → Bool) : Bool :=
  let s := sending q { cpu id with tiles := vmod (cpu id).tiles p f }
  s.packet 1 == some q && q.id == 1 && q.place == .router p && s.combineAt p q == none && h s (s.exitOf p q)
def toLt (p : Pos) (n : Nat) : Packet := { pkt (.router p) 1 with dest := BitVec.ofNat 8 n }
def wayOn (s : State) (p : Pos) : Exit → Bool
  | .at_ y _ o => y != p && !s.seamDropped p (hopDir p y (ovrAt (s.ut p).mesh false o).req) && (neighbour p (hopDir p y (ovrAt (s.ut p).mesh false o).req)).isSome
  | .absent => false
def isHere (p : Pos) (sp : Bool) : Exit → Bool
  | .at_ y b _ => y == p && b == sp
  | .absent => false
/-- The neighbour's buffer for VC0 is full. -/
def jammed (s : State) : State := { sending (toLt 20 0) s with
  net := toLt 20 0 :: (List.range 8).map fun n => { pkt (.router 19) 1 with id := n + 2, inPort := dirPort .e } }
/-- LT 5 is carried by the spare beside position 20. -/
def spareHyp : Bool :=
  let s := sending (toLt 20 5) { cpu id with tiles := vmod (cpu id).tiles 20 (withUt fun u => { u with mesh := { u.mesh with
    ltmap := tblPut none u.mesh.ltmap 5 (some { pos := 20, spareLink := true, present := true }) } }) }
  s.packet 1 == some (toLt 20 5) && s.combineAt 20 (toLt 20 5) == none && isHere 20 true (s.exitOf 20 (toLt 20 5)) && !s.seamsHeld 20 && s.routeTurn 20 (toLt 20 5)
def fromHyp (d : Place) (p : State → Packet → Bool) : Bool :=
  let q := { toLt 20 0 with place := d }
  let s := sending q (cpu id)
  s.packet 1 == some q && p s q
theorem witness_PacketHops : ([hopHyp { toLt 20 0 with resv := 1 } 20 id fun _ _ => ({ toLt 20 0 with resv := 1 } : Packet).badHeader,
    hopHyp (toLt 0 0) 0 id fun s x => !(toLt 0 0).badHeader && isHere 0 false x && s.routeTurn 0 (toLt 0 0),
    hopHyp { toLt 5 0 with dkind := 2 } 5 id fun s x => !({ toLt 5 0 with dkind := 2 } : Packet).badHeader && isHere 5 false x && s.routeTurn 5 { toLt 5 0 with dkind := 2 },
    spareHyp, (let s := jammed (cpu id)
     s.combineAt 20 (toLt 20 0) == none && wayOn s 20 (s.exitOf 20 (toLt 20 0)) && !s.routeTurn 20 (toLt 20 0)),
    (let s : State := { sending (toLt 20 0) (cpu id) with tiles := vmod (cpu id).tiles 19 (withUt fun u => { u with xing := vmod u.xing (dirNum .e) fun x => { x with dropped := true } }) }
     s.packet 1 == some (toLt 20 0) && s.combineAt 20 (toLt 20 0) == none && !isHere 20 false (s.exitOf 20 (toLt 20 0)) && s.seamDropped 20 .w &&
       (match s.exitOf 20 (toLt 20 0) with | .at_ y _ o => hopDir 20 y (ovrAt (s.ut 20).mesh false o).req == .w | .absent => false)),
    fromHyp (.source 0) fun s q => !s.onExpress q && !(s.ut 0).mesh.vc2Wait.contains 1 && !s.overtakes 0 q && s.injectAt 0 == 0 && s.bufferTakes 0 4 q,
    fromHyp (.spareLink 0) fun _ _ => true,
    fromHyp (.canal 1) fun s q => !s.onExpress q && q.dkind != 2 && !s.dieOff 1 && (match nearest s (mkPos 5 5) (attachments 1) with
      | some x => s.bufferTakes x 4 q
      | none => false),
    hopHyp (toLt 20 0) 20 (withUt fun u => { u with flags := { u.flags with quiet := true } }) fun s x => !isHere 20 false x && x != .absent && (s.ut 20).flags.quiet,
    hopHyp (toLt 20 0) 20 id fun s x => wayOn s 20 x && !(s.ut 20).flags.quiet && (s.ut 20).clk.running && s.routeTurn 20 (toLt 20 0),
    hopHyp (toLt 20 120) 20 id fun _ x => x == .absent && (toLt 20 120).isRequest && !(toLt 20 120).badHeader,
    (ovrAt (State.reset.ut 20).mesh false 0).req == 0] : List Bool).all id = true := by decide +kernel

end Sys2Proof.Tests
end

