-- ==== Sys2Proof/Tests/WitnessLinks.lean ====
section
/-! SUPPORT. Witnesses for the statements about combining routers, express lanes, epochs, AXL ports, the companion link, register access, aborts
and manifests. One Boolean stands for the hypotheses of one clause, in the statement's order. -/

set_option Elab.async false

namespace Sys2Proof.Tests

open Sys2Proof Sys2Proof.Machine

/-! ### Combining, express lanes, epochs -/

def combQ (id n : Nat) : Packet := { barge0 60 true with id := id, place := .router 20, mask := BitVec.ofNat 120 n }
def combHyp (l : List Packet) (f : Tile → Tile) (p : State → Packet → Bool) : Bool :=
  let s : State := { cpu id with net := l, tiles := vmod (cpu id).tiles 20 f }
  (s.packet 1).any fun q => q.id == 1 && q.place == .router 20 && !q.badHeader && (s.ut 20).mesh.combEn && q.type == 5 && hdrCombine q.hdr && q.mask != 0 &&
    !q.passed && !marksOrdered (s.ut 20).mesh q && p s q
def holding : Tile → Tile := withUt fun u => { u with mesh := { u.mesh with comb := u.mesh.comb.set 0 (some { packet := 2, expires := 16 }) } }
theorem witness_CombiningRouters : ([combHyp [combQ 1 1] id fun s q => (s.mergeWith 20 q).isNone && ((s.ut 20).mesh.comb[0]).isNone,
    combHyp [combQ 1 1] holding fun s q => (s.mergeWith 20 q).isNone && ((s.ut 20).mesh.comb[1]).isNone && ((s.ut 20).mesh.comb[0]).isSome,
    combHyp [{ combQ 1 1 with hdr := (bq (60 <<< 7) (64 <<< 8 + 1 <<< 21) (5 + 3 <<< 16 + 1 <<< 28)).hdr },
        { combQ 2 2 with place := .combining 20, hdr := (bq (60 <<< 7) (64 <<< 8 + 1 <<< 21) (5 + 3 <<< 16 + 1 <<< 28)).hdr }] holding fun s q =>
      (s.mergeWith 20 q).any fun e => e.1 == 0 && decide (hdrMerged e.2.hdr + hdrMerged q.hdr < hdrCount e.2.hdr),
    combHyp [{ combQ 1 1 with hdr := (bq (60 <<< 7) (64 <<< 8 + 1 <<< 21) (5 + 2 <<< 16 + 1 <<< 28)).hdr },
        { combQ 2 2 with place := .combining 20, hdr := (bq (60 <<< 7) (64 <<< 8 + 1 <<< 21) (5 + 2 <<< 16 + 1 <<< 28)).hdr }] holding fun s q =>
      (s.mergeWith 20 q).any fun e => e.1 == 0 && decide (hdrCount e.2.hdr ≤ hdrMerged e.2.hdr + hdrMerged q.hdr),
    (let s := cpu holding
     ((s.ut 0).mesh.comb[0]).any fun c => decide (c.expires ≤ 16))] : List Bool).all id = true := by decide +kernel

def waitingVc2 : State := sending { pkt (.source 0) 1 with opId := 1 } (cpu fun t => withOp (opWith .read none) (withUt (fun u => { u with mesh := { u.mesh with vc2Wait := [1] } }) t))
def exp0 (ty : BitVec 4) (n : Nat) (p : State → Packet → Bool) : Bool :=
  let q := { pkt (.source 0) ty with dest := 0, length := 64, payload := List.replicate 64 0 }
  let s := sending q (cpu (withUt fun u => { u with mesh := { u.mesh with towFree := n, bargeFree := n } }))
  s.packet 1 == some q && s.onExpress q && (s.expressDest 0 q).isSome && !(s.ut 0).mesh.vc2Wait.contains 1 && !s.overtakes 0 q && p s q
theorem witness_SluiceExpressTimer : ([
    decide (((cpu id).ut 0).cycle ≤ 256 ∧ ((cpu id).ut 0).mesh.lastEcho + 256 ≤ 256 ∧ ((cpu id).ut 0).mesh.w.toNat ≤ ((cpu id).ut 0).mesh.wmax.toNat),
    decide ((waitingVc2.ut 0).cycle ≤ 2) && (waitingVc2.ut 0).mesh.vc2Wait == [1] && (waitingVc2.packet 1).any (fun q => (waitingVc2.run 0 2).fitsWindow 0 q.flits) &&
      ((waitingVc2.run 0 2).slot 0 0).op.any fun o => o.id == 1 && o.outcome.isNone,
    exp0 7 4 fun s q => q.isRequest && q.towpath && decide ((s.ut 0).mesh.towFree ≤ 4), exp0 5 4 fun s q => q.isRequest && !q.towpath && decide ((s.ut 0).mesh.bargeFree ≤ 4),
    exp0 8 4 fun _ q => !q.isRequest, exp0 7 4 fun s q => q.isRequest && decide (3 < (s.ut 0).mesh.towFree),
    (neighbour 0 .e).isSome && (cpu id).utWorks 0,
    (let o := { opWith .read none with injected := true, tInj := 0 }
     let s := cpu (withOp o)
     s.slotOfOp 0 1 == some 0 && (s.slot 0 0).op == some o && s.underWay 0 o && decide (0 < o.left) && decide (o.tInj + (s.ut 0).mesh.tmrUs.toNat * 1000 ≤ 20000)),
    (let o := opWith .stream none
     let s := cpu fun t => withOp o (withStreams [{ st0 with outst := [(3, 0)] }] t)
     s.slotOfOp 0 1 == some 0 && (s.slot 0 0).op == some o && o.kind == .stream && ((s.core 0).mov.streams.find? fun x => x.op == 1).any fun st =>
       st.stop.isNone && (st.outst.find? fun e => decide (e.2 + (s.ut 0).mesh.tmrUs.toNat * 1000 ≤ 20000) && !s.lineWaits 0 1 e.1) == some (3, 0)),
    (let s := cpu (withUt fun u => { u with mesh := { u.mesh with loose := [{ op := 5, since := 0, tag := .none }] } })
     (s.slotOfOp 0 5).isNone && ((s.ut 0).mesh.loose.find? fun l => l.op == 5 && decide (l.since + (s.ut 0).mesh.tmrUs.toNat * 1000 ≤ 20000)).isSome)] :
    List Bool).all id = true := by decide +kernel

theorem witness_RoutingEpochs : ([
    ((cpu id).ut 0).mesh.epoch == false, ((cpu id).ut 0).mesh.epoch != true && decide (4 < fld (5 : Word) 0 3 ∨ 4 < fld (5 : Word) 3 3),
    ((cpu id).ut 0).mesh.epoch != true && decide (127 < 128), ((cpu id).ut 0).mesh.epoch != true && decide (148 < 149 ∧ fld (36 : Word) 0 3 ≤ 4 ∧ fld (36 : Word) 3 3 ≤ 4),
    (cpu id).epoch.free, (cpu id).posOf 0 == some 0,
    (let s := cpu fun t => withOp (opWith .bopen none) (withUt (fun u => u.modBerth 56 fun b => { b with open_ := true, ordered := true, opening := some 0 }) t)
     s.posOf 0 == some 0 && (s.berth 0 56).open_ && (s.berth 0 56).ordered && (s.berth 0 56).opening == some 0 && (s.slot 0 0).op.isSome),
    (let s : State := { cpu id with epoch := { State.reset.epoch with free := false, flippedAt := 1 } }
     !s.epoch.free && decide (s.epoch.flippedAt + 2000000 ≤ 2000001))] : List Bool).all id = true := by decide +kernel

/-! ### AXL ports -/

def portedAt (pst : PanelState) (f : Port → Port) : State :=
  { cpu id with ports := vmod State.reset.ports 0 f, lkh := { State.reset.lkh with pstate := pst }
                tiles := vmod (cpu id).tiles (wharfPos 0) (withUt fun u => { u with pwr := { u.pwr with vnet := true } }) }
def ported (f : Port → Port) : State := portedAt .active f
def up0 (q : Port) : Port := { q with en := true, state := .up, laneMask := 0xFFFF }
theorem witness_AxlPortStates : ([((ported id).port 0).state == .off && (ported id).portCan 0, ((portedAt .off id).port 0).state == .off && !(portedAt .off id).portCan 0,
    (let s := ported fun q => { q with state := .dark }
     (s.port 0).state == .dark && (s.port 0).retryAt.isNone && s.portCan 0 && decide (8 ≤ 8)),
    (let s := ported fun q => { q with state := .dark, retryAt := some 9 }
     (s.port 0).state == .dark && (s.port 0).retryAt.isSome && s.portCan 0),
    (let s := ported fun q => { q with state := .training }
     (s.port 0).state == .training && decide (8 ≤ laneCount 0x00FF) && decide (50000000 ≤ (s.port 0).stateSince + 50000000) && s.portCan 0),
    (let q := (ported fun q => { q with state := .dark, retryAt := some 7, lock := true }).port 0; q.state == .dark && q.retryAt == some 7 && q.lock),
    (let q := (ported up0).port 0; q.state == .up && !q.loaded),
    (let q := (ported fun q => { up0 q with cons := vmod q.cons 0 fun c => { c with valid := true } }).port 0; q.state == .up && q.loaded),
    (let q := (ported fun q => { q with state := .training }).port 0; q.state == .training && decide (q.stateSince + 50000000 ≤ 50000000)),
    (let q := (ported fun q => { q with state := .dark, retryAt := some 7 }).port 0; q.state == .dark && q.retryAt == some 7 && decide (7 ≤ 7)),
    (let q := (ported up0).port 0; q.state == .up && decide (laneCount (q.laneMask &&& 0x007F) < 8) && !q.loaded),
    (let q := (ported fun q => { up0 q with cons := vmod q.cons 0 fun c => { c with valid := true, busy := true } }).port 0
     q.state == .up && q.cons[0].busy && q.cons[0].ended.isNone)] : List Bool).all id = true := by decide +kernel
/-- A digest other than the panel's own. -/
theorem witness_AxlPortStates_peer : ∃ d : BitVec 256, d ≠ identityDigest := ⟨identityDigest + 1, by
  intro h
  have := congrArg (fun x => x - identityDigest) h
  simp at this⟩

theorem witness_AxlTime : ([((ported up0).port 0).talks] : List Bool).all id = true := by decide +kernel

/-- A data frame on channel 0 with its CRC. -/
def frame0 (seq : BitVec 8) : Frame := sealFrame { mkFrame 1 0 0 0 0 [1, 2, 3, 4] with lseq := seq }
def frameHyp (f : Frame) (g : Port → Port) (p : Port → Bool) : Bool :=
  let q := (ported fun q => g (up0 q)).port 0
  q.state == .up && q.laneMask.getLsbD 15 && !q.own f && p q
theorem witness_AxlFrames : ([frameHyp (frame0 1) id fun q => (frame0 1).lseq != q.lanes[15].rxSeq + 1,
    frameHyp { frame0 0 with fecUncorr := 1 } id fun _ => frameBad { frame0 0 with fecUncorr := 1 },
    frameHyp (frame0 0) (fun q => { q with lanes := vmod q.lanes 15 fun a => { a with rxSeq := 255 } }) fun q =>
      !frameBad (frame0 0) && (frame0 0).lseq == q.lanes[15].rxSeq + 1,
    frameHyp (frame0 0) (fun q => { q with lanes := vmod q.lanes 15 fun a => { a with replay := [frame0 0, frame0 1], resends := 15 } }) fun q =>
      decide ((q.lanes[15].acked 9).resends < 16) && !(q.lanes[15].acked 9).replay.isEmpty,
    frameHyp (frame0 0) (fun q => { q with lanes := vmod q.lanes 15 fun a => { a with replay := [frame0 0, frame0 1], resends := 16 } }) fun q =>
      decide (16 ≤ (q.lanes[15].acked 9).resends) && !(q.lanes[15].acked 9).replay.isEmpty] : List Bool).all id = true := by decide +kernel

def cons0 (f : Consign → Consign) : State :=
  ported fun q => { up0 q with cons := vmod q.cons 255 fun c => f { c with valid := true, channel := 4, doneCh := 3 <<< 60 } }
def consHyp (f : Consign → Consign) (p : Port → Consign → Bool) : Bool := p ((cons0 f).port 0) ((cons0 f).port 0).cons[255]
theorem witness_Consignments : ([consHyp (fun c => { c with busy := true }) fun _ c => c.busy,
    (let q := (ported fun q => { q with state := .dark }).port 0; !q.cons[255].busy && q.state != .up),
    (let q := (ported fun q => { up0 q with clears := [(4, 64, 0)] }).port 0; q.state == .up && !q.quar && q.clears.any fun k => k.1 == 4),
    (let q := (ported fun q => { up0 q with quar := true }).port 0; q.state == .up && q.quar),
    (let q := (ported fun q => { up0 q with state := .loopback, loop_ := 1 }).port 0; q.state == .loopback && q.loop_ != 0),
    consHyp id fun q _ => q.state == .up && !q.quar && q.clears.isEmpty && ((List.finRange 256).find? fun e => q.cons[e].live).isNone,
    consHyp (fun c => { c with busy := true }) fun q _ => q.state == .up && !q.quar && q.clears.isEmpty &&
      ((List.finRange 256).find? fun e => q.cons[e].live && q.cons[e].dir == 0 && q.cons[e].channel == 4 && !q.cons[e].met) == some 255,
    consHyp (fun c => { c with busy := true }) fun q c => q.talks && c.busy && c.channel == 4 && c.ended.isNone,
    consHyp id fun q c => q.talks && !c.busy,
    consHyp (fun c => { c with busy := true }) fun q c => c.busy && c.ended.isNone && !c.met && decide (c.firedAt + q.meetUs.toNat * 1000 ≤ 2000000),
    consHyp (fun c => { c with busy := true, ended := some (0, .stepAborted) }) fun _ c => c.busy && c.ended == some (0, .stepAborted) && c.coll == 0,
    consHyp (fun c => { c with busy := true, ended := some (7, .done) }) fun _ c => c.busy && c.ended == some (7, .done) && c.coll == 0,
    (let s := cons0 fun c => { c with busy := true, met := true }
     s.sendDone 0 255),
    consHyp id fun q _ => q.state == .up && !q.peerRead,
    (let s := ported fun q => { up0 q with peerRead := true }
     (s.port 0).peerRead && !(s.port 0).quar && !s.addrBad (1 <<< 60) && addrClass (1 <<< 60) == 1),
    (let s := ported fun q => { up0 q with peerRead := true }
     (s.port 0).peerRead && !(s.port 0).quar && addrClass (0 : Word) != 1)] : List Bool).all id = true := by decide +kernel

/-! ### The companion link -/

def kport0 (f : KclPort → KclPort) : State := { cpu id with kports := vmod State.reset.kports 0 f }
def kUp (q : KclPort) : KclPort := { q with state := 3, gen := 1, lanes := 16 }
theorem witness_KclPorts : ([(let s := kport0 fun q => { q with state := 1 }
     (s.kport 0).en && (s.kport 0).state != 0 && (s.kport 0).state != 3 && (s.kport 0).state != 4 && !s.power.lost.contains .kcl && decide (0 < min 1 (s.kport 0).genMax.toNat)),
    (((kport0 kUp).kport 0).state == 3) && decide (4 ≤ 4), (((kport0 kUp).kport 0).state == 3) && decide (3 < 4),
    (let s := kport0 kUp; s.intake.steps == [] && s.chart.run.isNone && (s.kport 0).en),
    (stepped (kport0 kUp)).intake.steps != []] : List Bool).all id = true := by decide +kernel

/-- Window 0 covers model page 3, whose chart entry is valid at stack 0, frame 0. -/
def coherent (f : Intake → Intake) : State :=
  { kport0 kUp with
    intake := f { State.reset.intake with cwin := vmod State.reset.intake.cwin 0 fun c => { c with basePage := 3, pages := 1, en := true } }
    chart := { State.reset.chart with wValid := true, west := [(3, 1)] } }
def a3 : BitVec 41 := 3 <<< 16
/-- The companion reaches the panel's mesh. -/
def reaching (s : State) : State := { s with reaches := Vector.replicate 24 { on := true, pg := true } }
def noPend (s : State) : Bool := !s.intake.cwin.toList.any fun c => c.pend.isSome && c.has 3
def kErr (w : Waiter) : Errand := { id := 1, work := .kcl w, left := 1, worst := .done, got := [] }
def lineAnsHyp (w : Waiter) : Bool :=
  let q := { pkt (.canal 3) 0xA with tag := .errand 1 0, payload := List.replicate 64 1 }
  let s : State := { sending q (coherent id) with errands := [kErr w] }
  s.packet 1 == some q && !q.badHeader && !s.dieOff 3 && s.errand 1 == some (kErr w)
theorem witness_Coherence : ([((kport0 kUp).kport 0).state == 3, (coherent fun i => { i with pcieRuntime := true }).intake.pcieRuntime,
    (coherent fun i => { i with cwin := vmod i.cwin 0 fun c => { c with pend := some 0 } }).intake.cwin.toList.any fun c => c.pend.isSome && c.has 3,
    (let s := kport0 kUp; !s.intake.pcieRuntime && !s.inCwin 3 && noPend s),
    (let s := reaching (coherent id)
     !s.intake.pcieRuntime && s.inCwin 3 && noPend s && decide (s.intake.dir.length + s.granting < 1048576) && s.lkh.pstate != .moored &&
       (match s.translate a3.toNat with | .at_ _ _ e => !bit e 4 | _ => false)),
    (let s := coherent id
     (match ({ s with chart := { s.chart with west := [(3, 33)] } } : State).translate a3.toNat with | .wait => true | _ => false) &&
       (match ({ s with chart := { s.chart with west := [] } } : State).translate a3.toNat with | .absent => true | _ => false)),
    (let s := coherent fun i => { i with dir := [(lineNo a3.toNat, true)] }; s.lkh.pstate != .moored && s.held a3.toNat == some true),
    (coherent fun i => { i with dir := [(lineNo a3.toNat, false)] }).held a3.toNat != some true,
    lineAnsHyp (.rdNc 0 a3), lineAnsHyp (.rdShared 0 a3 true), lineAnsHyp (.wrNc 0 a3 7),
    (coherent fun i => { i with snooping := [(lineNo a3.toNat, 0)] }).intake.snooping.any fun e => e.1 == lineNo a3.toNat,
    (let s := coherent fun i => { i with snooping := [(lineNo a3.toNat, 0)] }
     s.intake.snooping.any fun e => e.1 == lineNo a3.toNat && decide (e.2 + s.intake.snoopUs.toNat * 1000 ≤ max s.now 10000))] : List Bool).all id = true := by
  decide +kernel

/-! ### Register access and aborts -/

def rdQ (pl : Place) (a : Nat) : Packet := { pkt pl 1 with addr := BitVec.ofNat 64 a, total := 8 }
def rdHyp (q : Packet) (p : State → Bool) (f : State → State := id) : Bool :=
  let s := sending q (f (cpu id))
  s.packet 1 == some q && q.type == 1 && !q.taken && p s
def canalA (off : Nat) : Nat := 2 <<< 60 + 127 <<< 45 + off
def inReset (s : State) : State := { s with lkh := { s.lkh with reset := { s.lkh.reset with busy := true, kind := 7, target := 1 } } }
def tileRd (a : Nat) : Packet := { rdQ (.delivered 0) a with dkind := 1 }
def lostTile (s : State) : State := s.modUt 0 fun u => { u with flags := { u.flags with lost := true } }
theorem witness_RegisterAccess : ([
    rdHyp (rdQ (.canal 1) (canalA 0x010000)) fun s => !s.dieOff 1 && !s.houseResets 1 && !s.addrBad (BitVec.ofNat 64 (canalA 0x010000)) &&
      addrClass (BitVec.ofNat 64 (canalA 0x010000)) == 2,
    rdHyp (rdQ (.canal 1) (canalA 0x010000)) (fun s => !s.dieOff 1 && s.houseResets 1) inReset,
    rdHyp (rdQ (.canal 1) 0) fun s => !s.dieOff 1 && !s.houseResets 1 && addrClass (0 : Word) != 2,
    rdHyp (tileRd 0) (fun s => (s.ut 0).flags.lost) lostTile,
    rdHyp (tileRd (2 <<< 60 + 1 <<< 56 + 0x060010)) fun s => decide ((s.ut 0).cycle ≤ 2) && !(s.ut 0).flags.lost && !(tileRd (2 <<< 60 + 1 <<< 56 + 0x060010)).badHeader &&
      !(s.run 0 2).addrBad (BitVec.ofNat 64 (2 <<< 60 + 1 <<< 56 + 0x060010)) && !dieReg (BitVec.ofNat 64 (2 <<< 60 + 1 <<< 56 + 0x060010)) &&
      ((s.run 0 2).notServed 0 (tileRd 0) true).isNone,
    rdHyp (tileRd (5 <<< 60)) fun s => (s.run 0 2).addrBad (BitVec.ofNat 64 (5 <<< 60)) && !(tileRd (5 <<< 60)).badHeader,
    rdHyp (rdQ (.delivered 0) 0) fun s => addrClass (0 : Word) == 0 && !(s.run 0 2).addrBad 0 && ((s.run 0 2).notServed 0 (rdQ (.delivered 0) 0) false).isNone &&
      !(rdQ (.delivered 0) 0).badHeader && !(s.core 0).spd.zeroing && (((s.run 0 2).core 0).spd.badIn 0 8).isEmpty,
    rdHyp (rdQ (.delivered 0) 0) (fun s => ((s.run 0 2).notServed 0 (rdQ (.delivered 0) 0) false).isNone && !(s.core 0).spd.zeroing && !((s.core 0).spd.badIn 0 8).isEmpty) badAt,
    rdHyp (rdQ (.delivered 0) 0) (fun s => ((s.run 0 2).notServed 0 (rdQ (.delivered 0) 0) false).isNone && ((s.run 0 2).core 0).spd.zeroing)
      fun s => s.modSpd 0 fun d => { d with zeroing := true },
    rdHyp { rdQ (.delivered 0) 0 with dest := 7 } fun s => ((s.run 0 2).notServed 0 { rdQ (.delivered 0) 0 with dest := 7 } false).isSome,
    (let s := cpu id
     let a := BitVec.ofNat 64 (canalA 0x010000)
     (s.towAstray a).isNone && !s.regSilent (s.regAt a) && (s.regRefused a).isNone),
    (let s := cpu id
     (s.towAstray (5 <<< 60)).isNone && !s.regSilent (s.regAt (5 <<< 60)) && (s.regRefused (5 <<< 60)).isSome),
    (let s := cpu id
     let s1 := (s.modCore 0 fun c => { c with desc := { c.desc with lt := 1 } }).modUt (mkPos 0 5) fun u => { u with pwr := { u.pwr with vnet := true }, clk := { u.clk with expRuns := true } }
     let a := BitVec.ofNat 64 (2 <<< 60 + 0x010000)
     s1.towAstray a == some 0 && !(s1.ut 0).flags.lost),
    (let q := { pkt (.canal 1) 0xC with opId := 1 }
     (sending q (cpu id)).packet 1 == some q)] : List Bool).all id = true := by decide +kernel

def lockedI2c (s : State) : State := { s with sec := { s.sec with jtagLock := true } }
theorem witness_RegisterWrites : ([
    (let s := cpu id
     let a := BitVec.ofNat 64 (canalA 0x020000)
     (s.regRefused a).isNone && !s.regSilent (s.regAt a) && s.mayWrite (s.regAt a) .i3c false),
    !(cpu id).mayWrite ((cpu id).regAt (BitVec.ofNat 64 (canalA 0x020000))) .ethernet false, !(RegAt.canal 0x020000).openWrite, !(cpu id).pathLocked .i3c,
    (lockedI2c (cpu id)).pathLocked .jtag && !(RegAt.canal 0x020000).openWrite,
    (let s := cpu id
     let r := RegAt.canal 0x010000
     r.recorded .i3c && (s.writeRaw r (500 <<< 16) (originOf .i3c) .i3c).regWord r != s.regWord r)] : List Bool).all id = true := by decide +kernel

theorem witness_SealedFields : ([({ (cpu id).lkh with sealed := true }).sealed && pathOutside .i3c] : List Bool).all id = true := by decide +kernel

def aborting (f : StepRec → StepRec) (g : State → State := id) : State :=
  let s := cpu id
  g { s with aborts := [{ step := 1, cause := .status .timingUnsafe_, lt := 0, overrun := false }]
             intake := { s.intake with steps := [f { step0 with man := { man0 with
               ltEnts := [{ lt := 0, entry := 0, narrowOk := false, keeperReq := false, thresh := 0, level := 0, berths := 1, winBase := 0, winCount := 1 }] } }] } }
/-- The request for an abort that LH-C has been told. -/
def told (f : StepRec → StepRec) (q : AbortReq) (p : StepRec → Bool) : Bool :=
  let s : State := { aborting f with aborts := [q] }
  s.aborts.find? (fun x => x.step == q.step && x.cause == q.cause && x.lt == q.lt && x.overrun == q.overrun) == some q &&
    (s.stepNum q.step).any fun r => r.live && p r
def req0 : AbortReq := { step := 1, cause := .status .timingUnsafe_, lt := 0, overrun := false }
def reqF : AbortReq := { req0 with cause := .fault .illegalBundle, seen := some (.illegalBundle, 7, .main, 0) }
theorem witness_StepAborts : ([told id req0 fun r => decide (r.replaysRun < r.man.replays) && r.man.ltEnts.any fun e => (aborting id).posOf e.lt == some 0 && e.declares 0,
    (programOf req0.cause).isNone, told (fun r => { r with replaysRun := 1 }) req0 fun r => decide (r.man.replays ≤ r.replaysRun),
    told (fun r => { r with faultSeen := reqF.seen }) reqF fun r => reqF.seen == r.faultSeen && !faultHw .illegalBundle,
    (let s := cons0 fun c => { c with busy := true, step := 1 }
     (s.port 0).cons[255].busy && (s.port 0).cons[255].step == 1 && (s.port 0).cons[255].ended.isNone)] : List Bool).all id = true := by decide +kernel

def ended (r : Acc) (st : Status) : Bool :=
  match r with
  | .ended _ x _ => x == st
  | _ => false
def stopped : State := reaching <| aborting fun r => { r with phase := .aborting }
def rechecking (e : Word) (bad : List Nat) : State :=
  let s := aborting (fun r => { r with phase := .repairing, recheck := true, causeLt := 0 }) fun s =>
    { s with chart := { s.chart with wValid := true, west := [(3, e)] }, hbm := vmod s.hbm 0 fun k => { k with bad := bad } }
  { s with tiles := vmod s.tiles 0 (withUt fun u => { u with stg := { u.stg with eccAddr := a3, eccValid := true } }) }
def recheckHyp (s : State) (st : Status) (ro : Bool) : Bool :=
  (s.stepNum 1).any (fun r => r.recheck && decide (r.causeLt.toNat < 120)) && s.posOf 0 == some 0 && ended (s.modelLine a3.toNat none) st &&
    (entRo (s.entry 3) && entAttr (s.entry 3) == 1) == ro
theorem witness_BeforeReplay : ([(stopped.stepAt 0).any fun r => !r.live && decide ((stopped.ut 0).cycle ≤ 2),
    (stopped.stepNum 1).any fun r => !r.live && !r.restored && r.ending.isNone && !r.recheck && r.retiring.isNone && !r.man.lts.any stopped.substRuns && stopped.k0Reaches &&
      (match State.restoreAll r.man.restore stopped with | .done _ => true | _ => false),
    (match State.restoreAll [{ src := 4 <<< 60, dst := 0, len := 64 }] stopped with | .failed _ _ _ => true | _ => false),
    recheckHyp (rechecking 1 []) .done false, recheckHyp (rechecking 21 [0]) .memoryUncorrectable true, recheckHyp (rechecking 1 [0]) .memoryUncorrectable false] :
    List Bool).all id = true := by decide +kernel

theorem witness_AbortedBerths : ([(aborting id).posOf 0 == some 0 && (1 : Word).getLsbD 0, !(1 : Word).getLsbD 63] : List Bool).all id = true := by decide +kernel

/-! ### Manifests -/

/-- A STEP manifest of 256 bytes for LT 0 with one pound; ENTRY bundle e. -/
def stepWords (e : Nat) : List (Nat × Nat) :=
  [(0, 0x4D4E4601 + 1 <<< 32 + 1 <<< 48), (8, 7 + 256 <<< 32), (16, 1), (32, 1 + 1 <<< 16), (56, 2), (64, 1 + 1 <<< 32), (72, 128), (80, 2 + 1 <<< 32), (88, 192),
   (128, 1000), (192, e)]
/-- A LOAD manifest for LT 0 whose image lies at 4,096; a CHART manifest with one SET. -/
def loadWords : List (Nat × Nat) := [(0, 0x4D4E4601 + 1 <<< 32 + 2 <<< 48), (8, 7 + 192 <<< 32), (16, 1), (56, 1), (64, 8 + 1 <<< 32), (72, 128), (128, 4096), (136, 2368)]
def chartWords : List (Nat × Nat) := [(0, 0x4D4E4601 + 1 <<< 32 + 3 <<< 48), (8, 7 + 192 <<< 32), (56, 1), (64, 9 + 1 <<< 32), (72, 128), (128, 3 + 1 <<< 32), (136, 1)]
def imageWords : List (Nat × Nat) := [(4096, 0x51575304 + 1 <<< 32), (4104, 2)]
def hostOf (l : List (Nat × Nat)) : Mem := l.foldl (fun m e => memPutNat m e.1 8 e.2) []
def ringed (l : List (Nat × Nat)) (n : Nat) (f : State → State := id) : State :=
  f { cpu id with host := hostOf l, lkh := { State.reset.lkh with pstate := .active }, reaches := Vector.replicate 24 { on := true, pg := true }
                  intake := { State.reset.intake with pcieRuntime := true, waiting := [(0, n)] } }
def manHyp (s : State) (p : List Byte → Nat → Option Manifest → Bool) : Bool :=
  s.lkh.pstate != .starting && s.lkh.pstate != .off && (s.front).any fun x => p x.1 x.2 (parseManifest s x.1 x.2)
def loadedImg (s : State) (m : Manifest) : Bool :=
  match m.image with
  | some (o, n) => (s.hostBad o.toNat n).isNone && (parseImage (s.hostRead o.toNat n)).isSome
  | none => false
def kindOf (bs : List Byte) : Nat := fld (wordOf bs 0) 48 8
theorem witness_Manifests : ([(kport0 kUp).kclUp && !(kport0 kUp).intake.pcieRuntime, !(kport0 id).kclUp, (ringed [] 256).intake.pcieRuntime,
    manHyp (ringed [(0, 1 <<< 48)] 256) fun bs _ m => kindOf bs == 1 && m.isNone,
    manHyp (ringed (stepWords 8) 256) fun bs _ m => kindOf bs == 1 && m.any fun m => (ringed (stepWords 8) 256).verdict m == .refuse .illegalDescriptor 0,
    (let s := ringed (stepWords 0) 256 stepped
     manHyp s fun bs _ m => kindOf bs == 1 && m.any fun m => s.verdict m == .hold)] : List Bool).all id = true := by decide +kernel
theorem witness_Manifests_load : ([
    (let s := ringed loadWords 192 fun s => { s with host := hostOf (loadWords ++ imageWords) }
     manHyp s fun bs _ m => kindOf bs == 2 && m.any fun m => !m.lts.any s.ltAbsent && loadedImg s m && s.common m == .takes)] : List Bool).all id = true := by decide +kernel
theorem witness_Manifests_held : ([
    (let s := ringed chartWords 192
     manHyp s fun bs _ m => kindOf bs == 3 && m.any fun m => !m.lts.any s.ltAbsent && m.image.isNone && s.common m == .takes),
    (let s := ringed (stepWords 0) 256 fun s => { s with intake := { s.intake with heldSince := some 0 } }
     s.intake.heldSince == some 0 && (s.front).any fun x => (parseManifest s x.1 x.2).any fun m => decide (0 + m.admitWait * 1000 < 1)),
    (let s := ringed (stepWords 0) 256 fun s => { stepped s with intake := { (stepped s).intake with heldSince := some 0 } }
     s.intake.heldSince == some 0 && (s.front).any fun x => (parseManifest s x.1 x.2).any fun m => s.verdict m == .hold)] : List Bool).all id = true := by decide +kernel

/-- The manifest that passes every row, admitted at once and after a hold. -/
theorem witness_Manifests_takes : ([
    (let s := ringed (stepWords 0) 256
     manHyp s fun bs _ m => kindOf bs == 1 && m.any fun m => s.verdict m == .takes),
    (let s := ringed (stepWords 0) 256 fun s => { s with intake := { s.intake with heldSince := some 0 } }
     s.intake.heldSince == some 0 && (s.front).any fun x => (parseManifest s x.1 x.2).any fun m => s.verdict m == .takes)] : List Bool).all id = true := by
  decide +kernel

end Sys2Proof.Tests
end

