-- ==== Sys2Proof/Tests/WitnessPanel.lean ====
section
/-! SUPPORT. Witnesses for the statements about admission, pounds, clocks, power, time, heat and the forecaster. One Boolean stands for the
hypotheses of one clause, in the statement's order. -/

set_option Elab.async false

namespace Sys2Proof.Tests

open Sys2Proof Sys2Proof.Machine

/-! ### Admission and the end of a step -/

def ltE (e : BitVec 14) : LtEnt :=
  { lt := 0, entry := e, narrowOk := false, keeperReq := false, thresh := 0, level := 0, berths := 1, winBase := 0, winCount := 1 }
def withLkh (f : Lkh → Lkh) (s : State) : State := { s with lkh := f s.lkh }
def passes (s : State) (m : Manifest) : Bool := !s.stepIllegal m && !s.lkh.mapUnverified && s.lkh.pstate != .moored && !s.mustHold m
def notNarrow (s : State) : Bool := allPos.all fun p => !(s.core p).desc.narrow
theorem witness_AdmissionOrder : ([(cpu id).stepIllegal { man0 with ltEnts := [ltE 8] },
    (let s := withLkh (fun k => { k with mapUnverified := true }) (cpu id); !s.stepIllegal { man0 with ltEnts := [ltE 7] } && s.lkh.mapUnverified),
    (let s := withLkh (fun k => { k with pstate := .moored }) (cpu id); !s.stepIllegal man0 && !s.lkh.mapUnverified && s.lkh.pstate == .moored),
    (let s := withLkh (fun k => { k with pstate := .standby }) (cpu id)
     !s.stepIllegal man0 && !s.lkh.mapUnverified && s.lkh.pstate != .moored && s.mustHold man0),
    passes State.reset man0 && (State.reset.posOf 0).isNone,
    (let s := cpu fun t => { t with core := { t.core with desc := { t.core.desc with narrow := true } } }
     passes s { man0 with ltEnts := [ltE 0] } && s.posOf 0 == some 0 && (s.core 0).desc.narrow && !(ltE 0).narrowOk),
    (let s : State := { cpu id with ltpos := vmod (cpu id).ltpos 0 fun l => { l with added := 1 } }
     passes s man0 && s.posOf 0 == some 0 && notNarrow s && decide ((s.core 0).img.slack.toNat < s.ltpos[0].added.toNat)),
    (let s := withLkh (fun k => { k with wUns := true }) (cpu id)
     passes s man0 && s.posOf 0 == some 0 && notNarrow s && (man0.poundEnts.any fun p => p.timed) && s.bankUns (ltBank 0)),
    ((cpu id).stepNum 1).isNone] : List Bool).all id = true := by decide +kernel

def loading (l : List (Nat × Nat)) (o : BitVec 48) : State :=
  ringed l 0 fun s => { s with intake := { s.intake with waiting := [], loads := [{ man := { man0 with image := some (o, 2368) }, tAdmit := 0 }] } }
def narrowHost (s : State) : State := { s with intake := { s.intake with pcieRuntime := false } }
def loadHyp (s : State) (p : State → Bool) : Bool :=
  let u := s.at_ 1
  let v := u.modIntake fun i => { i with loads := i.loads.drop 1 }
  u.k0Reaches && ((u.intake.loads.find? fun x => x.man.seq == 1).any fun r => r.man.image.isSome) && p v
theorem witness_ImageLoads : ([loadHyp (narrowHost (loading [] 4096)) fun v => (v.hostBad 4096 2368).isSome,
    loadHyp (loading [] 4096) fun v => (v.hostBad 4096 2368).isNone && (parseImage (v.hostRead 4096 2368)).isNone,
    loadHyp (loading imageWords 4096) fun v => (v.hostBad 4096 2368).isNone && (parseImage (v.hostRead 4096 2368)).isSome] : List Bool).all id = true := by
  decide +kernel

def charting (op : BitVec 4) (e : Word) : State :=
  { cpu id with intake := { State.reset.intake with chartRuns := [{ man := { man0 with chart := [(3, op, e)] }, tAdmit := 0, next := 0, busy := false }] } }
def chartHyp (op : BitVec 4) (e : Word) (p : State → Bool) : Bool :=
  let s := charting op e
  match s.intake.chartRuns with
  | r :: rest => r.man.chart[r.next]? == some (3, op, e) && !r.busy && s.chart.free &&
      p ((s.at_ 0).modIntake fun i => { i with chartRuns := { r with busy := true } :: rest })
  | [] => false
theorem witness_ChartManifests : ([chartHyp 1 1 fun v => !v.entryBad (setMig 1 false), chartHyp 1 (24 <<< 8) fun v => v.entryBad (setMig (24 <<< 8) false),
    chartHyp 4 0 fun _ => true, chartHyp 2 0 fun _ => true, chartHyp 3 0 fun _ => true] : List Bool).all id = true := by decide +kernel

def endHyp (f : StepRec → StepRec) (p : State → StepRec → Bool) : Bool :=
  let s := ({ cpu id with intake := { State.reset.intake with steps := [f step0] } } : State).at_ 1
  (s.stepNum 1).any fun r => s.stepDrained r && p s r
theorem witness_StepEnds : ([
    endHyp (fun r => { r with finals := [0] }) fun _ r => r.ending.isNone && r.phase == .running && r.man.lts.all fun l => r.finals.contains l,
    endHyp (fun r => { r with phase := .admitted, ending := some .tileFenced }) fun _ r => r.ending == some .tileFenced && r.phase == .admitted,
    endHyp (fun r => { r with phase := .repairing, ending := some .tileFenced }) fun _ r => r.ending == some .tileFenced && r.phase == .repairing &&
      !r.recheck && r.retiring.isNone,
    endHyp (fun r => { r with phase := .aborting, ending := some .tileFenced, noReplay := true }) fun _ r => r.ending == some .tileFenced && r.noReplay &&
      r.phase != .running,
    (let s : State := { cons0 (fun c => { c with step := 1, busy := true }) with intake := { State.reset.intake with steps := [step0] } }
     (s.stepNum 1).any fun r => !s.stepDrained r),
    (let s : State := { cons0 (fun c => { c with step := 1 }) with intake := { State.reset.intake with steps := [step0] } }
     (s.stepNum 1).any fun r => s.stepDrained r && (s.port 0).cons[255].valid && (s.port 0).cons[255].step == 1 && !(s.port 0).cons[0].valid)] :
    List Bool).all id = true := by decide +kernel

theorem witness_CompletionRecords : ([(kport0 kUp).kclUp, (narrowHost (cpu id)).intake.pcieRuntime == false,
    (let s := narrowHost (cpu id); !s.kclUp && !s.intake.pcieRuntime && decide (s.intake.kept.length < 256)),
    (let s := narrowHost (cpu id)
     let v : State := { s with intake := { s.intake with kept := List.replicate 256 { words := Vector.replicate 8 0 } } }
     !v.kclUp && !v.intake.pcieRuntime && decide (256 ≤ v.intake.kept.length)),
    (let s := narrowHost (cpu id); ({ s with intake := { s.intake with pcieRuntime := true } } : State).intake.pcieRuntime)] :
    List Bool).all id = true := by decide +kernel

/-! ### Pounds and clocks -/

def synced : Tile → Tile := withUt fun u => { u with time := { u.time with unsync := false } }
def tickable (s : State) (t : Nat) : Bool := s.poundNs != 0 && t % s.poundNs == 0 && decide (s.lastTick < t)
theorem witness_GateTicks : ([(cpu synced).poundNs != 0 && decide (999999 % (cpu synced).poundNs ≠ 0), tickable (cpu synced) 1000000 && !((cpu synced).ut 0).time.unsync && !((cpu synced).ut 0).flags.lost,
    (let s : State := { cpu synced with epoch := { State.reset.epoch with arm := true } }
     tickable s 1000000 && s.epoch.arm),
    tickable (cpu synced) 1000000 && !(cpu synced).epoch.arm] : List Bool).all id = true := by decide +kernel

def tickHyp (f : StepRec → StepRec) (p : State → StepRec → Bool) (g : Tile → Tile := id) : Bool :=
  let s : State := { cpu g with intake := { State.reset.intake with steps := [f step0] } }
  (s.stepNum 1).any fun r => s.aborts.all (fun a => a.step != 1) && p s r
def pended : Tile → Tile := withCtl fun k => { k with pended := true }
theorem witness_PoundByPound : ([
    tickHyp (fun r => { r with phase := .admitted }) fun s r => r.phase == .admitted && r.ending.isNone && decide (r.tAdmit + 4000 ≤ 4000) &&
      decide (r.man.notBefore ≤ 4000) && s.stepReady r,
    tickHyp (fun r => { r with phase := .admitted }) fun _ r => r.phase == .admitted && decide (3999 < r.tAdmit + 4000),
    tickHyp (fun r => { r with phase := .admitted, man := { r.man with notBefore := 5001 } }) fun _ r => r.phase == .admitted && decide (5000 < r.man.notBefore),
    tickHyp id (fun s r => r.phase == .running && !r.man.late && (r.man.lts.all fun l => (s.coreOf l).any fun c => c.ctl.pended) &&
      decide (r.poundIdx + 1 < r.man.pounds)) pended,
    tickHyp (fun r => { r with poundIdx := 1 }) (fun s r => r.phase == .running && !r.man.late && (r.man.lts.all fun l => (s.coreOf l).any fun c => c.ctl.pended) &&
      decide (r.man.pounds ≤ r.poundIdx + 1)) pended,
    tickHyp (fun r => { r with poundIdx := 1 }) fun s r => r.phase == .running && !r.man.late && r.man.lts == [0] && ((s.coreOf 0).any fun c => !c.ctl.pended) &&
      decide (r.poundIdx < r.man.pounds),
    (let s : State := { cpu id with intake := { State.reset.intake with steps := [{ step0 with phase := .admitted }] }
                                    aborts := [{ step := 1, cause := .status .timingUnsafe_, lt := 0, overrun := false }] }
     (s.stepNum 1).any fun r => r.phase == .admitted && s.aborts.any fun a => a.step == 1),
    (let s := aborting id; (s.stepNum 1).any fun r => r.phase == .running && s.aborts.any fun a => a.step == 1),
    tickHyp (fun r => { r with man := { r.man with late := true } }) (fun s r => r.phase == .running && r.man.late &&
      (r.man.lts.all fun l => match (s.modCtl 0 Control.runLate).coreOf l with | some c => decide (c.ctl.missed < 3) | none => true)),
    tickHyp (fun r => { r with man := { r.man with late := true } }) (fun s r => r.phase == .running && r.man.late &&
      (r.man.lts.any fun l => match (s.modCtl 0 Control.runLate).coreOf l with | some c => c.ctl.behind && decide (3 ≤ c.ctl.missed) | none => false))
      (withCtl fun k => { k with missed := 2 }),
    tickHyp (fun r => { r with phase := .draining, man := { r.man with poundEnts := [{ d := 1000, power := 0, timed := true, canalTimed := false }] } })
      (fun s r => let u := withLkh (fun k => { k with wUns := true }) s
        r.phase == .draining && r.ending.isNone && !r.recheck && r.retiring.isNone && u.stepReady r && u.unsafeNow r),
    tickHyp (fun r => { r with phase := .draining, man := { r.man with restore := [{ dst := 0, src := 0, len := 64 }] } }) fun s r => r.phase == .draining && r.ending.isNone &&
      !r.recheck && r.retiring.isNone && s.stepReady r && !s.unsafeNow r && !r.restored && !r.man.restore.isEmpty,
    tickHyp (fun r => { r with phase := .draining, recheck := true }) fun _ r => r.phase == .draining && r.recheck,
    tickHyp (fun r => { r with phase := .aborting }) fun _ r => r.phase == .aborting,
    tickHyp (fun r => { r with phase := .draining }) fun s r => r.phase == .draining && r.ending.isNone && !r.recheck && r.retiring.isNone && s.stepReady r &&
      !s.unsafeNow r && r.man.restore.isEmpty,
    tickHyp (fun r => { r with phase := .repairing, restored := true }) fun s r => r.phase == .repairing && r.ending.isNone && !r.recheck && r.retiring.isNone &&
      s.stepReady r && !s.unsafeNow r && r.restored] : List Bool).all id = true := by decide +kernel

def quietTile : Tile → Tile := withUt fun u => { u with flags := { u.flags with quiet := true } }
theorem witness_QuietWindows : ([((cpu quietTile).ut 0).flags.quiet && (neighbour 0 .e).isSome] : List Bool).all id = true := by decide +kernel

theorem witness_PoundLength : ([decide (20 ≤ (20 : BitVec 15).toNat ∧ (20000 : BitVec 15).toNat ≤ 20000), decide ((19 : BitVec 15).toNat < 20),
    decide (20000 < (20001 : BitVec 15).toNat),
    (let s : State := { State.reset with pcfg := { State.reset.pcfg with pend := true } }
     s.pcfg.pend && s.intake.steps == [] && s.lastTick == 0)] : List Bool).all id = true := by decide +kernel

theorem witness_Beacons : ([(let u : UnderTile := { time := { goodBeacons := 3 } }; decide (u.time.goodBeacons + 1 ≥ 4) && !u.clk.holdover),
    (let u : UnderTile := { time := { goodBeacons := 2 } }; decide (u.time.goodBeacons + 1 < 4)),
    ((stepped (cpu id)).stepAt 0).any fun r => (stepped (cpu id)).stepNum r.num == some r && r.live] : List Bool).all id = true := by decide +kernel

def railMv (mv : BitVec 10) : State := cpu (withUt fun u => { u with pwr := { u.pwr with minMv := mv } })
theorem witness_DroopStretch : ([((railMv 0).ut 0).pwr.minMv == 0, decide (((railMv 760).ut 0).pwr.targetMv.toNat ≤ 760 + 20),
    ((railMv 700).ut 0).pwr.minMv != 0 && decide (700 + 20 < ((railMv 700).ut 0).pwr.targetMv.toNat), !(spareLinks 1).isEmpty, decide (((cpu id).ut 0).pwr.targetMv.toNat ≤ 730 + 20), decide (729 + 20 < ((cpu id).ut 0).pwr.targetMv.toNat) &&
    (neighbour 0 .e).isSome] : List Bool).all id = true := by decide +kernel

def stepping (f : ClkStep → ClkStep) : State := { cpu id with clocks := { State.reset.clocks with step := f {} } }
theorem witness_FrequencySteps : ([decide ((0 : BitVec 3).toNat ≤ 5) && (0 : BitVec 3) != (cpu id).clocks.step.cur .west,
    decide ((5 : BitVec 3).toNat ≤ 5) && (5 : BitVec 3) == (cpu id).clocks.step.cur .west, decide (5 < (6 : BitVec 3).toNat),
    !(cpu id).clocks.step.pendOf (bankOf 0),
    (let s := stepping fun c => { c with wNext := 0, pendW := true }
     s.clocks.step.pendOf (bankOf 0) && !(s.ut 0).clk.locked && (s.ut 0).alive),
    (let s := stepping fun c => { c with wNext := 0, pendW := true }
     s.clocks.step.pendOf (bankOf 0) && !(s.ut 0).clk.locked && (s.ut 0).alive && decide (s.clocks.step.reqOf (bankOf 0) + 1000000 ≤ 1000000)),
    (let s := stepping fun c => { c with wNext := 0, pendW := true, wTick := some 1000000 }
     s.clocks.step.tick .west == some 1000000 && decide (1000000 ≤ 980000 + 20000) && decide ((s.clocks.step.next .west).toNat < (s.clocks.step.cur .west).toNat))] :
    List Bool).all id = true := by decide +kernel
theorem witness_StepInForce : ([
    (let s := stepping fun c => { c with wNext := 0, pendW := true, wTick := some 1000000 }
     s.clocks.step.tick .west == some 1000000 && decide (1000000 ≤ 1000000) && bankOf 0 == .west && !(s.ut 0).flags.lost && bankOf 6 != .west)] :
    List Bool).all id = true := by decide +kernel

def clkT (f : TileClock → TileClock) : State := cpu (withUt fun u => { u with clk := f u.clk })
theorem witness_ClockFaults : ([
    (let s := State.reset; decide (1024 ≤ 1024) && decide (s.clocks.powerGood + oscDelay s.clocks.dly ≤ 64000000) && s.lkh.pstate != .off),
    (let s : State := { State.reset with clocks := { State.reset.clocks with msw := vmod State.reset.clocks.msw 0 fun m => { m with ready := 1 } } }
     s.clocks.msw[0].ready.getLsbD (b2n false)),
    !State.reset.clocks.msw[0].ready.getLsbD (b2n true),
    (let s := clkT fun c => { c with priOk := true, altOk := true }
     (s.ut 0).alive && (s.ut 0).clk.refSel == false && !(s.ut 0).clk.holdover && (s.ut 0).clk.inputOk true),
    (let s := clkT fun c => { c with priOk := true }
     (s.ut 0).alive && (s.ut 0).clk.refSel == false && !(s.ut 0).clk.holdover && !(s.ut 0).clk.inputOk true),
    (let s := clkT fun c => { c with holdover := true }; (s.ut 0).alive && (s.ut 0).clk.holdover),
    (let s := clkT id; (s.ut 0).alive && !(s.ut 0).clk.holdover), !(State.reset.ut 0).alive,
    (let s : State := stepped (cpu fun t => withUt (fun u => { u with stepNo := 1, xing := vmod u.xing (dirNum .e) fun x => { x with mode := 1 } }) t)
     (s.stepAt 0).any (fun r => s.stepNum r.num == some r && r.live) && ((s.ut 0).xing[dirNum .e].mode == 1) && (neighbour 0 .e).isSome),
    (let s := clkT fun c => { c with sel := 1 }; (s.ut 0).alive && decide ((s.ut 0).clk.sel.toNat < 2) && (s.ut 0).clk.step == 5),
    (let s := clkT fun c => { c with sel := 0, step := 0 }; (s.ut 0).alive && decide ((s.ut 0).clk.sel.toNat < 2) && (s.ut 0).clk.step != 5)] :
    List Bool).all id = true := by decide +kernel

/-! ### Power -/

theorem witness_InputPower : ([decide (36000 ≤ 36000 ∧ 36000 ≤ 62000), decide (35999 < 36000) && State.reset.lkh.pstate != .off,
    decide (62000 < 62001) && State.reset.lkh.pstate != .off,
    (let s := withLkh (fun k => { k with pstate := .off }) State.reset; s.lkh.pstate == .off && s.pins.pwrEn && s.pins.panelRstN)] : List Bool).all id = true := by
  decide +kernel

def reach0 (f : Reach → Reach) (s : State) : State := { s with reaches := vmod s.reaches 0 f }
theorem witness_CurrentLimits : ([decide (500 ≤ 500) && !State.reset.reaches[0].inLimit, decide (499 < 500), decide (459 < 460) && !State.reset.power.inHold,
    decide (460 ≤ 460), (let s : State := { State.reset with power := { State.reset.power with inHold := true } }; s.power.inHold), decide (3900 < 3901)] :
    List Bool).all id = true := by decide +kernel

def asking (rail : Rail) : PowerReq := { pos := 0, rail := rail, at_ := 0 }
def queued (f : State → State := id) : State := f (reach0 (fun r => { r with queue := [asking .vcore] }) (cpu id))
def heldFor (rail : Rail) (t : Nat) : Bool :=
  let s := reach0 (fun r => { r with held := [(asking rail, 6)] }) (cpu id)
  (s.reaches[reachOf 0].held.find? fun e => e.1.pos == 0 && e.1.rail == rail) == some (asking rail, 6) && decide ((asking rail).at_ + railNs rail ≤ t)
theorem witness_PowerOn : ([
    (let s := reach0 (fun r => { r with pg := true }) (cpu id); s.reaches[reachOf 0].pg && !(s.ut 0).flags.lost),
    (cpu id).dieUsable 0, !(State.reset.dieUsable 0), !State.reset.reaches[reachOf 0].pg, State.reset.reaches[0].queue == [], (cpu id).dieUsable 0 && ((cpu id).ut 0).pwr.vsram,
    (let s := queued; decide (336 + 4 * (s.reaches[0].held.foldl (fun n e => n + e.2) 0) + 4 * s.reaches[0].allowance .vcore ≤ 4 * s.reaches[0].limitA.toNat)),
    (let s := queued; decide (4 * s.reaches[0].limitA.toNat < 337 + 4 * (s.reaches[0].held.foldl (fun n e => n + e.2) 0) + 4 * s.reaches[0].allowance .vcore)),
    (let s := queued; s.reaches[0].queue == [asking .vcore] && decide ((asking .vcore).at_ + 10000000 ≤ 10000000) && s.repair.subst.all fun x => x.spare != 0),
    (let s := queued; let v : State := { s with repair := { s.repair with subst := [{ lt := 0, spare := 0, phase := 3, start := 0, flips := 0 }] } }
     v.reaches[0].queue == [asking .vcore] && decide ((asking .vcore).at_ + 10000000 ≤ 10000000) && v.repair.subst.any fun x => x.spare == 0),
    (let s := queued; s.reaches[0].queue == [asking .vcore] && decide (9999999 < (asking .vcore).at_ + 10000000)),
    (let s := reach0 (fun r => { r with held := [(asking .vcore, 6)] }) (cpu id)
     (s.reaches[reachOf 0].held.find? fun e => e.1.pos == 0 && e.1.rail == .vcore).isSome && decide (31999 < (asking .vcore).at_ + railNs .vcore)),
    heldFor .vnet 16000, heldFor .vsram 8000, heldFor .vcore 32000] : List Bool).all id = true := by decide +kernel

def pwrT (f : Regulator → Regulator) : State := cpu (withUt fun u => { u with pwr := f u.pwr })
/-- A die that firmware may place in a state: with an LT in IDLE, without one in RETAIN or DARK. -/
def pwrFree (f : Regulator → Regulator) : State := (pwrT f).modCore 0 fun c => { c with desc := { c.desc with lt := 0x7F } }
theorem witness_PowerStates : ([((pwrT fun k => { k with pending := true }).ut 0).pwr.pending, !(pwrT id).mayPlace 0 2, !(pwrT id).mayPlace 0 3,
    !(pwrFree id).mayPlace 0 1,
    (let s := pwrT fun k => { k with state := 2 }; !(s.ut 0).pwr.pending && s.mayPlace 0 1 && (s.ut 0).pwr.state == 2 && s.dieUsable 0),
    (let s := pwrT fun k => { k with state := 3 }; !(s.ut 0).pwr.pending && s.mayPlace 0 1 && (s.ut 0).pwr.state == 3 && s.dieUsable 0),
    (let s := pwrT fun k => { k with state := 1 }; !(s.ut 0).pwr.pending && s.mayPlace 0 1 && (s.ut 0).pwr.state == 1),
    (let s := pwrFree fun k => { k with state := 1 }; !(s.ut 0).pwr.pending && s.mayPlace 0 2 && s.mayPlace 0 3 && (s.ut 0).pwr.state == 1),
    (let s := pwrFree fun k => { k with state := 2 }; !(s.ut 0).pwr.pending && s.mayPlace 0 2 && s.mayPlace 0 3 && (s.ut 0).pwr.state == 2),
    (let s := pwrFree id; !(s.ut 0).pwr.pending && s.mayPlace 0 3 && (s.ut 0).pwr.state == 0),
    (let s := pwrT id; (s.ut 0).pwr.state == 0 && (s.stepAt 0).isNone && s.coreQuiet 0),
    (let s := stepped (cpu (withUt fun u => { u with stepNo := 1 })); (s.stepAt 0).any fun r => r.phase == .running)] : List Bool).all id = true := by
  decide +kernel

def active (s : State) : State := withLkh (fun k => { k with pstate := .active }) s
theorem witness_PowerFaults : ([!State.reset.reaches[0].pg && !State.reset.reaches[0].lost && State.reset.lkh.pstate == .starting,
    (active State.reset).lkh.pstate != .starting, ((cpu id).ut 0).pwr.state != 3, (State.reset.ut 0).pwr.state == 3, !(State.reset.ut 0).pwr.vnet,
    !((cpu id).ut 0).flags.lost && ((cpu id).ut 0).pwr.vnet, !(reaching State.reset).reaches[0].tripped && (reaching State.reset).reaches[0].on,
    !State.reset.reaches[0].on,
    !((cpu id).ut 0).flags.lost && (neighbour 0 .e).isSome && (stackAt 0).isSome] : List Bool).all id = true := by decide +kernel

theorem witness_SupplyLosses : ([[Supply.lhN, .lhC, .lhS, .northOptics, .southOptics, .kcl].all fun x => !State.reset.power.lost.contains x] :
    List Bool).all id = true := by decide +kernel

def capHyp (pin : Nat) (s : State) (p : State → Bool) : Bool :=
  let u := s.at_ 1
  let v := ({ u with power := { u.power with pin := BitVec.ofNat 16 (min pin 65535) } } : State).recap false 0
  !v.therm.emerg && v.lkh.pstate == .active && p v
/-- Step 1 runs, and its pounds are CANAL_TIMED. -/
def canalSoon : State :=
  { cpu id with intake := { State.reset.intake with steps :=
      [{ step0 with man := { man0 with poundEnts := List.replicate 2 { d := 1000, power := 0, timed := true, canalTimed := true } } }] } }
theorem witness_CapCheck : ([capHyp 15001 (active (cpu id)) fun v => decide (v.power.effW.toNat < 15001),
    capHyp 13800 (active { cpu id with clocks := { State.reset.clocks with step := { wCur := 0, wNext := 0, eCur := 0, eNext := 0 } } }) fun v =>
      decide (13800 * 100 ≤ v.power.effW.toNat * 92) && !v.canRaise .west && !v.canRaise .east,
    capHyp 13800 (active { cpu id with clocks := { State.reset.clocks with step := { eCur := 0, eNext := 0 } }, power := { State.reset.power with lowTicks := 8 } })
      fun v => decide (13800 * 100 ≤ v.power.effW.toNat * 92) && v.canRaise .west && !v.canRaise .east && decide (8 ≤ v.power.lowTicks) &&
        !v.clocks.step.pendW && !v.clocks.step.pendE && !v.therm.slowRise,
    capHyp 13800 (active { cpu id with clocks := { State.reset.clocks with step := { eCur := 0, eNext := 0 } } }) fun v => v.canRaise .west &&
      decide (v.power.lowTicks < 8),
    capHyp 13800 (active { canalSoon with clocks := { State.reset.clocks with step := { eCur := 0, eNext := 0 } } }) fun v =>
      decide (13800 ≤ v.power.effW.toNat) && v.mustJoin,
    (let u := (cpu id).at_ 1
     (({ u with power := { u.power with pin := 13800 } } : State).recap false 0).lkh.pstate != .active),
    (let s := stepping fun c => { c with wCur := 0, wNext := 0 }; !s.clocks.step.link && !s.clocks.step.pendOf .west && decide (s.bankStep .west < 5))] :
    List Bool).all id = true := by decide +kernel

/-! ### Time and heat -/

def srcS (f : TimeSrc → TimeSrc) : State := { State.reset with tsrc := f State.reset.tsrc }
theorem witness_TimeSources : ([(srcS fun c => { c with ppsLast := some 7 }).tsrc.ppsLast == some 7,
    (let s := srcS fun c => { c with ppsGood := 4 }; !s.tsrc.qual.getLsbD 0 && (s.at_ 1).meetsSource 0),
    (let s := srcS fun c => { c with qual := 1, cur := 0 }; s.tsrc.qual.getLsbD 0 && (s.at_ 1).failsSource 0 && s.tsrc.cur.toNat == 0),
    (State.reset.tsrc.ppsLast).isNone, !State.reset.tsrc.qual.getLsbD 0,
    (let s := srcS fun c => { c with qual := 5 }
     s.tsrc.qual.getLsbD 0 && s.tsrc.en.getLsbD 0 && decide (s.tsrc.qualSince[0] + 10000000000 ≤ (s.at_ 10000000000).now) && decide ((0 : Fin 3) < 2)),
    (let s := srcS fun c => { c with qual := 4 }
     s.tsrc.qual.getLsbD 2 && s.tsrc.en.getLsbD 2 && decide (s.tsrc.qualSince[2] + 10000000000 ≤ (s.at_ 10000000000).now) && decide (2 < s.tsrc.cur.toNat) &&
       !s.tsrc.qual.getLsbD 0 && !s.tsrc.qual.getLsbD 1)] : List Bool).all id = true := by decide +kernel

theorem witness_TimeOutputs : ([(srcS fun c => { c with cur := 2 }).tsrc.cur != 3, State.reset.timSettable, !(active State.reset).timSettable,
    decide (State.reset.clocks.trimSaved + 3600000000000 ≤ (State.reset.at_ 3600000000000).now),
    decide ((State.reset.at_ 3599999999999).now < State.reset.clocks.trimSaved + 3600000000000), State.reset.tsrc.cur == 3,
    decide (-100000 ≤ State.reset.clocks.trim) && decide (State.reset.clocks.trim ≤ 100000), State.reset.ppsHeld, !State.reset.firmwareRuns,
    State.reset.tsrc.ptpMode != 1 && State.reset.tsrc.ptpMode != 2, (State.reset.kport 0).state != 3,
    (let s := active (srcS fun c => { c with ppsEn := true }); decide (1000000000 % 1000000000 = 0) && !(s.at_ 1000000000).ppsHeld),
    (srcS fun c => { c with ptpMode := 1 }).tsrc.ptpMode == 1, (srcS fun c => { c with ptpMode := 2 }).tsrc.ptpMode == 2, ((kport0 kUp).kport 0).state == 3,
    (let s : State := { State.reset with kports := vmod State.reset.kports 1 kUp }; (s.kport 1).state == 3 && (s.kport 0).state != 3),
    (let s := active State.reset; decide (500000 % 500000 = 0) && s.pins.aliveAt != 500000 && s.firmwareRuns)] : List Bool).all id = true := by decide +kernel

theorem witness_ClockClasses : ([(srcS fun c => { c with cur := 3, freeRun := false, lastClass := 0 }).tsrc.cur == 3, State.reset.tsrc.freeRun &&
    State.reset.tsrc.lastClass != 0] : List Bool).all id = true := by decide +kernel

theorem witness_ThermalSamples : ([((cpu id).ut 0).alive && ((stackAt 0).any fun m => ((cpu id).hbm[m]).present && !((cpu id).hbm[m]).lost),
    ((portAt 0).any fun x => ((ported up0).port x).state != .off) && ((ported up0).ut 0).alive] : List Bool).all id = true := by decide +kernel

theorem witness_SiteReadings : ([plausible (-160) && plausible 600, plausible 600 && !plausible (-161), !plausible 601 && plausible 0, !plausible 601 && !plausible (-161),
    (let x : Site := { apart := 9 }; plausible 21 && plausible 0 && decide ((20 : Int) < 21 - 0) && decide (9 ≤ x.apart)),
    (let x : Site := { close := 9 }; plausible 20 && plausible 0 && decide ((20 : Int) - 0 ≤ 20) && decide (9 ≤ x.close))] : List Bool).all id = true := by
  decide +kernel

theorem witness_ThermalActions : ([
    (let s : State := { cpu id with therm := { State.reset.therm with coolTicks := #v[8, 8] } }
     !s.therm.emerg && decide (8 ≤ s.therm.coolTicks[bankIx .west]) && decide (s.therm.hotAt[bankIx .west] + 100000000 ≤ (s.at_ 100000000).now) &&
       !s.clocks.step.pendOf .west && s.canRaise .west),
    (let s := ported fun q => { q with hotOff := true, coolAt := some 0 }
     (s.port 0).hotOff && (s.port 0).coolAt == some 0 && decide (10000000000 ≤ (s.at_ 10000000000).now)),
    (let s := ported fun q => { q with hotOff := true, coolAt := some 0 }
     (s.port 0).hotOff && (s.port 0).coolAt == some 0 && decide ((s.at_ 9999999999).now < 10000000000)), !((ported id).port 0).hotOff,
    ([460, 600, 461] : List Int).all (fun r => decide (460 ≤ r ∧ r ≤ 600)) && (reaching (cpu id)).reaches[reachOf 0].on,
    ([420, 600, 421] : List Int).all (fun r => decide (420 ≤ r ∧ r ≤ 600)) && (stackAt 0).isSome && (reaching (cpu id)).reaches[reachOf 0].on,
    !(cpu id).reaches[reachOf 0].on] : List Bool).all id = true := by decide +kernel

theorem witness_Coolant : ([decide ((2099 : Int) - 2000 < 100), decide (100 ≤ (2100 : Int) - 2000), decide ((-1 : Int) < 0), decide (99 < 100), decide (100 ≤ 100)] :
    List Bool).all id = true := by decide +kernel

def heat (f : Thermal → Thermal) (s : State) : State := { s with therm := f s.therm }
theorem witness_ThermalCap : ([decide (2000 ≤ 2000), decide (1999 < 2000),
    (let s := active (heat (fun k => { k with thermalW := 3000 }) (cpu id)); s.capMoves && decide (s.therm.thermalW.toNat < s.therm.targetW.toNat)),
    (let s := active (cpu id); !s.therm.emerg && s.drawsPower && s.mustEmergency 0),
    ((cpu id).ut 0).alive, !State.reset.capMoves, !(cpu id).therm.emerg && (cpu id).therm.goodSince.isNone,
    (let s := heat (fun k => { k with emerg := true, goodSince := some 5 }) (cpu id)
     s.therm.goodSince == some 5 && decide ((s.at_ 10000000004).now < 5 + 10000000000)),
    (let s := heat (fun k => { k with emerg := true, goodSince := some 5 }) (cpu id)
     s.therm.emerg && s.therm.goodSince == some 5 && decide (5 + 10000000000 ≤ (s.at_ 10000000005).now))] : List Bool).all id = true := by decide +kernel
/-- A panel whose last second holds one sample of the hottest tile, the inlet and the input power. -/
def sampled (hot tin : Int) (pin : Nat) : State := active (heat (fun k => { k with hist := [(0, hot, tin, pin)] }) (cpu id))
/-- The cap falls: a reading of 90 °C at 2 kW with water at 20 °C makes the target lower than the cap in force. -/
theorem witness_ThermalCap_fall : (let s := sampled 9000 2000 2000
    let m := (s.at_ 1).modTherm fun k => k.measured false false false 1
    m.capMoves && decide (m.therm.targetW.toNat < s.therm.thermalW.toNat) && (s.therm.means false false false 1 == some (9000, 2000, 2000))) = true := by decide +kernel
/-- It stays where the cap in force is not above the target; a second without a sample has no means, and below 2,000 W theta stays. -/
theorem witness_ThermalCap_stay : ([(let s := sampled 2100 2000 2000
    decide (s.therm.thermalW.toNat ≤ ((s.at_ 1).modTherm fun k => k.measured false false false 1).therm.targetW.toNat)),
    (cpu id).therm.means false false false 1 == none, (sampled 9000 2000 1999).therm.means false false false 1 == some (9000, 2000, 1999),
    (let s := active (heat (fun k => { k with thermalW := 3000, targetW := 3000 }) (cpu id)); decide (s.therm.targetW.toNat ≤ s.therm.thermalW.toNat))] :
    List Bool).all id = true := by decide +kernel

def foreHyp (s : State) (t : Nat) (p : State → Option (BitVec 3) → Bool) : Bool :=
  let u := s.at_ t
  let plan := u.planFrom (s.therm.tIn s.therm.inlet.toNat) (min 5 (max (u.planFloor .west) (u.planFloor .east))) s.pcfg.len.toNat u.horizonPounds 0
    (s.power.pin.toNat * 1000)
  let v := u.modTherm fun k => { k with plan := plan, horizon := BitVec.ofNat 16 (min plan.length 65535) }
  s.lkh.pstate == .active && s.poundNs != 0 && !s.therm.emerg && p v (v.dueChange plan)
def longPounds (s : State) : State := { s with pcfg := { s.pcfg with len := 20000 } }
theorem witness_Forecasts : ([(cpu id).lkh.pstate != .active,
    (let s := active (heat (fun k => { k with emerg := true }) (cpu id)); s.lkh.pstate == .active && s.poundNs != 0 && s.therm.emerg),
    foreHyp (longPounds (active (cpu id))) 19930000 fun _ c => c.isNone,
    foreHyp (longPounds (active (cpu id))) 19000000 fun v c => c.any fun c => v.bankStep .west == c.toNat && v.bankStep .east == c.toNat,
    foreHyp (longPounds (active { cpu id with clocks := { State.reset.clocks with step := { eCur := 0, eNext := 0 } } })) 19000000 fun v c =>
      c.any fun c => v.bankStep .west == c.toNat && v.bankStep .east != c.toNat && !v.clocks.step.pendE] : List Bool).all id = true := by decide +kernel

end Sys2Proof.Tests
end

