-- ==== Sys2Proof/Tests/WitnessRepair.lean ====
section
/-! SUPPORT. Witnesses for the statements about start-up, placement, repair, resets, security, the Logbook and the state. One Boolean stands for the
hypotheses of one clause, in the statement's order; a hypothesis on a signature, which no proof can evaluate, is met under its own theorem. -/

set_option Elab.async false

namespace Sys2Proof.Tests

open Sys2Proof Sys2Proof.Machine

/-! ### Start-up and placement -/

def r0 (k : Fin 11) : StageIn :=
  { stage := k, t := 1, durMs := 1, failing := [], housesUp := 7, dly := 3, boot := false, slots := 0, pkgVersion := 1, partCopies := #v[1, 2, 1], mapOk := true
    profile := false, lats := [], groups := [], mcode := 0, delays := [], homes := (0, 12), baseW := 3000 }
def bad0 (k : Fin 11) : StageIn := { r0 k with housesUp := 0, partCopies := #v[1, 2, 3] }
def atStage (k : Fin 11) : State :=
  { withLkh (fun x => { x with stageNext := k.val }) State.reset with
    clocks := { State.reset.clocks with oscReady := true }
    therm := { State.reset.therm with coolSince := some 0 } }
def preStage (k : Fin 11) (r : StageIn) (s : State) : State :=
  let u := s.at_ r.t
  { u with lkh := { u.lkh with
    coldStarts := if k = 0 then u.lkh.coldStarts + 1 else u.lkh.coldStarts
    testBad := if k = 0 then [] else u.lkh.testBad ++ r.failing } }
/-- A stage's report once the coolant has been good for a second. -/
def later (r : StageIn) : StageIn := { r with t := 1000000000 }
def stageOk (k : Fin 11) : Bool :=
  let r := later (r0 k)
  let u := (atStage k).at_ r.t
  u.atStage k.val && (k != 4 || u.coolantGood) && ((preStage k r (atStage k)).stageFails k.val r).isNone
/-- A stage that fails the start; stage 0x04 at its bound of 30 s. -/
def stageBad (k : Fin 11) : Bool :=
  let r := { bad0 k with durMs := 30000 }
  let u := (atStage k).at_ r.t
  u.atStage k.val && decide (30000 ≤ r.durMs.toNat) && ((preStage k r (atStage k)).stageFails k.val r).isSome
theorem witness_Stages : ([stageOk 0, stageOk 1, stageOk 2, stageOk 3, stageOk 4, stageOk 5, stageOk 6, stageOk 7, stageOk 8, stageOk 9, stageOk 10, stageBad 0,
    stageBad 1, stageBad 2, stageBad 3, stageBad 4, !(atStage 3).atStage 4,
    ((atStage 4).at_ 1).atStage 4 && !((atStage 4).at_ 1).coolantGood && decide ((r0 4).durMs.toNat < 30000)] : List Bool).all id = true := by decide +kernel

theorem witness_StageResults : ([!State.reset.reaches[23].lost && !(r0 4).failing.contains (unitId 0x0C 23), (State.reset.hbm[0]).present && !(State.reset.hbm[0]).lost,
    (let s := withLkh (fun k => { k with mapTrusted := false }) (cpu id)
     s.dieUsable 0 && !(r0 7).failing.contains (dieUnit 0) && !s.lkh.mapTrusted && decide ((s.badGroups (r0 7) 0).length ≤ 2)),
    (let s := withLkh (fun k => { k with mapTrusted := false, testBad := [unitId 2 0, unitId 2 256, unitId 2 512] }) (cpu id)
     s.dieUsable 0 && !(r0 7).failing.contains (dieUnit 0) && !s.lkh.mapTrusted && decide (2 < (s.badGroups (r0 7) 0).length)),
    !((atStage 4).act04 (r0 4)).tiles[0].ut.flags.lost, (withLkh (fun k => { k with warmRun := true }) State.reset).lkh.warmRun] : List Bool).all id = true := by
  decide +kernel
/-- Whichever code a word names, part 3 and part 2 are among the parts that it may name. -/
theorem witness_StageResults_part (w : Word) (h : (Config.partCode w).toNat = 2) : partOf w = 3 := by
  simp [partOf, h]
theorem witness_StageResults_part2 (w : Word) (h : (Config.partCode w).toNat = 1) : partOf w = 2 := by
  simp [partOf, h]

def narrowDie (p : Pos) (s : State) : State := s.modCore p fun c => { c with desc := { c.desc with narrow := true } }
def lostUt (p : Pos) (s : State) : State := s.modUt p fun u => { u with flags := { u.flags with lost := true } }
theorem witness_Placement : ([!State.reset.ltAbsent 0 && State.reset.dieServes (homeOf 0) && !(State.reset.core (homeOf 0)).desc.narrow,
    (let s := narrowDie (homeOf 119) State.reset
     let sp := spareOf (rowOf (homeOf 119)) (bankOf (homeOf 119))
     !s.ltAbsent 119 && (s.core (homeOf 119)).desc.narrow && s.dieServes sp && !(s.core sp).desc.narrow && s.spareFree sp && s.utWorks (homeOf 119)),
    (let s := lostUt (homeOf 119) State.reset
     let sp := spareOf (rowOf (homeOf 119)) (bankOf (homeOf 119))
     !s.ltAbsent 119 && !s.dieServes (homeOf 119) && s.dieServes sp && !(s.core sp).desc.narrow && s.spareFree sp && !s.utWorks (homeOf 119)),
    (let sp := spareOf (rowOf (homeOf 119)) (bankOf (homeOf 119))
     let s := lostUt sp (narrowDie (homeOf 119) (withLkh (fun k => { k with narrow := [homeOf 119] }) State.reset))
     !s.ltAbsent 119 && (s.core (homeOf 119)).desc.narrow && !s.dieServes sp && s.dieServes (homeOf 119) && s.lkh.narrow.contains (homeOf 119)),
    (withLkh (fun k => { k with absent := [119] }) State.reset).ltAbsent 119, (State.reset.posOf 119).isNone] :
    List Bool).all id = true := by decide +kernel

/-- A panel on which only LT 0 is present. -/
def onlyLt0 : State := withLkh (fun k => { k with absent := (List.finRange 120).drop 1 }) State.reset
theorem witness_PlacementApart : (onlyLt0.place.posOf 0 == some 0) = true := by decide +kernel

theorem witness_StartRequests : ([!State.reset.pathLocked .i3c && (withLkh (fun k => { k with mapUnverified := true }) State.reset).lkh.mapUnverified,
    (lockedI2c State.reset).pathLocked .jtag,
    (let s := withLkh (fun k => { k with stageNext := 1 }) State.reset
     (s.at_ 128000000).atStage 1 && !s.clocks.oscReady && decide (s.clocks.powerGood + 2 * oscDelay s.clocks.dly ≤ 128000000))] : List Bool).all id = true := by
  decide +kernel

/-! ### Repair -/

def rep (f : Repair → Repair) : State := let s := active (cpu id); { s with repair := f s.repair }
def served (s : State) : State := withLkh (fun k => { k with serving := 7 }) s
theorem witness_Soundings : ([(let s := served (rep fun r => { r with reports := [.unsynced 0] }); s.repair.reports.contains (.unsynced 0) && s.serves != 0),
    (let s := rep fun r => { r with due := [0] }; (1 : Nat) != s.lastTick), (rep id).posOf 0 == some 0 && (rep id).repair.suspicions.all fun x => x.1 != 0,
    (let s := rep fun r => { r with suspicions := [(0, 5)], pounds := 5 + 65536 }
     s.posOf 0 == some 0 && (s.repair.suspicions.find? fun x => x.1 == 0) == some (0, 5) && decide (s.repair.pounds ≤ 5 + 65536) && !unitOut s (dieUnit 0)),
    (let s := rep fun r => { r with pounds := 4096 }
     s.lkh.pstate == .active && decide (s.repair.rotated + 4096 ≤ s.repair.pounds) && (s.nextPresent s.repair.nextLt.toNat).isSome),
    (let s := rep fun r => { r with due := [0] }
     s.lastTick == 0 && s.lkh.pstate == .active && s.repair.due == [0] && s.posOf 0 == some 0 && (s.at_ 0).canSound 0),
    (let s := rep fun r => { r with sounding := [(0, 2, false)] }
     (s.repair.sounding.find? fun x => !x.2.2) == some (0, 2, false) && s.posOf 0 == some 0 && decide (1 < 2)),
    (let s := rep fun r => { r with sounding := [(0, 1, false)] }
     s.posOf 0 == some 0 && (s.core 0).readsClean && !s.substRuns 0 && (badAt s).posOf 0 == some 0 && !((badAt s).core 0).readsClean),
    (let s := rep fun r => { r with sounding := [(0, 1, false)], subst := [{ lt := 0, spare := 0, phase := 7, start := 0, flips := 0 }] }
     s.posOf 0 == some 0 && s.substRuns 0),
    (let s := rep fun r => { r with sounding := [(0, 1, false)] }
     (s.repair.sounding.find? fun x => !x.2.2) == some (0, 1, false) && s.posOf 0 == some 0 && !unitOut s (dieUnit 0))] : List Bool).all id = true := by
  decide +kernel

def cmd1 : FenceCmd := { house := 1, unit := dieUnit 0, cause := 4, at_ := 0 }
theorem witness_FenceVotes : ([(let s := served (rep id); s.lkh.serving.getLsbD 0 && decide (2 ≤ s.serves) && s.repair.cmds == []),
    (let s := served (rep fun r => { r with cmds := [cmd1] }); s.lkh.serving.getLsbD 0 && decide (2 ≤ s.serves) && s.repair.cmds == [cmd1] && cmd1.house != 0 &&
      decide (1000000 ≤ cmd1.at_ + 1000000)),
    (let s := rep fun r => { r with cmds := [cmd1] }; s.repair.cmds == [cmd1] && decide (cmd1.at_ + 1000000 < 1000001)),
    decide (1000000 ≤ cmd1.at_ + 1000000), !(rep id).lkh.serving.getLsbD 0, decide ((rep id).serves < 2),
    !((cpu id).ut 0).flags.fencedDie] : List Bool).all id = true := by decide +kernel

def voted : State := active (cpu (withUt fun u => { u with flags := { u.flags with fencedDie := true, voted := true } }))
def sub0 (n : Nat) : Subst := { lt := 0, spare := 2, phase := n, start := 0, flips := 0 }
def subst (n : Nat) : State := { rep fun r => { r with subst := [sub0 n] } with epoch := { State.reset.epoch with flips := 1 } }
def hereIs (s : State) (n : Nat) : Bool := (s.repair.subst.find? fun x => x.lt == 0) == some (sub0 n)
theorem witness_Substitutions : ([(voted.repair.subst.find? fun x => x.lt == 0).isNone && voted.mustReplace 0 && !voted.rowBusy 0 && (voted.spareFor 0).isSome,
    (let s := lostUt 2 (lostUt 9 voted); (s.repair.subst.find? fun x => x.lt == 0).isNone && s.mustReplace 0 && !s.rowBusy 0 && (s.spareFor 0).isNone),
    (let s := (subst 3).modPwr 2 fun k => { k with state := 1 }
     hereIs s 3 && s.lkh.pstate == .active && decide (13000000 ≤ (sub0 3).start + 13000000) && s.spareIdle 2 && s.epoch.free),
    (let s := (subst 3).modPwr 2 fun k => { k with state := 1 }
     let v : State := { s with epoch := { s.epoch with free := false } }
     hereIs v 3 && v.lkh.pstate == .active && v.spareIdle 2 && !v.epoch.free),
    hereIs (subst 3) 3 && !(subst 3).spareIdle 2 && decide (12000000 ≤ (sub0 3).start + 12000000), decide ((sub0 3).start + 12000000 < 12000001),
    decide ((sub0 3).start + 13000000 < 13000001), decide ((sub0 4).start + 1400000000 < 1400000001), (cpu id).lkh.pstate != .active,
    (rep id).mustReplace 0 == false, ((rep id).repair.subst.find? fun x => x.lt == 0).isNone,
    (let s := subst 4
     hereIs s 4 && (sub0 4).flips != s.epoch.flips && s.epoch.free && decide (1400000000 ≤ (sub0 4).start + 1400000000) && s.ltpos[0].restore == [] &&
       s.ltpos[0].lastLoad.isNone && (s.core 2).spd.res == Vector.replicate 8 {}),
    hereIs (subst 8) 8 && decide (1500000000 ≤ (sub0 8).start + 1500000000), hereIs (subst 8) 8 && decide ((sub0 8).start + 1500000000 < 1500000001)] :
    List Bool).all id = true := by decide +kernel

def stack0 (f : Stack → Stack) : State := { cpu id with hbm := vmod State.reset.hbm 0 f }
def reserving : State :=
  { cpu id with intake := { State.reset.intake with steps := [{ step0 with man := { man0 with reserve := [(0, 0, 64)] } }] } }
/-- A seam with n replays of one lane group within the second, and its repair groups. -/
def replayed (n : Nat) (a b : BitVec 6) : State := cpu (withUt fun u => { u with mesh := { u.mesh with
  replays := List.replicate n (dirNum .e, 47, 0), seam := vmod u.mesh.seam (dirNum .e) fun x => { x with repair0 := a, repair1 := b } } })
def laneHyp (n : Nat) (a b : BitVec 6) : Bool :=
  let s := replayed n a b
  let g := (s.ut 0).mesh.seam[dirNum .e]
  decide (8 < (s.ut 0).mesh.replaysOf .e 47 1) && g.pend.isNone && !g.out && g.repair0 == a && g.repair1 == b && a != 47 && b != 47
theorem witness_LanesAndStacks : ([decide (((replayed 8 0x3F 0x3F).ut 0).mesh.replaysOf .e 47 1 ≤ 8), laneHyp 9 0x3F 0x3F, laneHyp 9 0 0x3F,
    laneHyp 9 0 1 && (replayed 9 0 1).epoch.free,
    (let s : State := { replayed 9 0 1 with epoch := { State.reset.epoch with free := false } }; !s.epoch.free && laneHyp 9 0 1),
    (let s := stack0 fun k => { k with lost := true }; (s.hbm[0]).lost), !((cpu id).hbm[0]).retraining.contains 63,
    (let s := stack0 fun k => { k with retraining := [63], failedRetrains := [(63, 1)] }
     (s.hbm[0]).retraining.contains 63 && decide (tblGet 0 (s.hbm[0]).failedRetrains 63 < 2)), !(cpu id).mustMoor .kclSupply, (let s := cpu id; s.lastTick == 0 && !(s.hbm[0]).lost && (s.hbm[0]).present && (s.hbm[0]).retraining.isEmpty && !s.stackReserved 0),
    (let s := reserving; s.lastTick == 0 && !(s.hbm[0]).lost && (s.hbm[0]).present && (s.hbm[0]).retraining.isEmpty && s.stackReserved 0 && decide (4096 < 4097)),
    (let s := stack0 fun k => { k with retraining := [63] }; (s.hbm[0]).retraining.contains 63),
    (let s := stack0 fun k => { k with retraining := [63], failedRetrains := [(63, 2)] }
     (s.hbm[0]).retraining.contains 63 && decide (2 ≤ tblGet 0 (s.hbm[0]).failedRetrains 63)),
    (active State.reset).mustMoor (.ltLost 0), (active State.reset).mustMoor .houses,
    ({ State.reset with power := { State.reset.power with lost := [.kcl] } } : State).mustMoor .kclSupply,
    (active (stack0 fun k => { k with lost := true })).mustMoor (.stackLost 0),
    State.reset.lkh.pstate != .moored && State.reset.lkh.pstate != .off] : List Bool).all id = true := by decide +kernel

/-! ### Resets -/

/-- A reset asked for at time 1 on a state: whether its target is outside Table 16.6, and whether its precondition holds. -/
def resetOf (kind : BitVec 4) (target : BitVec 8) (s : State) (illegal may : Bool) : Bool :=
  let u := s.at_ 1
  let v : State := { u with lkh := { u.lkh with reset :=
      { kind := kind, clear := false, update := false, ctx := 0, target := target, busy := true, status := .done, waiting := true, since := u.now
        origin := .firmware, path := .internal } } }
  !s.lkh.reset.busy && s.lkh.pstate != .off && v.resetIllegal v.lkh.reset == illegal && (illegal || v.resetMay v.lkh.reset == may)
def busyReset (k : BitVec 4) (w : Bool) (s : State) : State :=
  withLkh (fun x => { x with reset := { kind := k, busy := true, waiting := w, since := 0 } }) s
theorem witness_Resets : ([resetOf 1 0 (withLkh (fun k => { k with pstate := .moored }) State.reset) true false, resetOf 1 0 (active State.reset) false true,
    resetOf 2 23 (cpu id) false true, resetOf 2 0 (stepped (cpu id)) false false, resetOf 3 143 (cpu id) false true, resetOf 3 0 (stepped (cpu id)) false false,
    resetOf 4 143 (cpu id) false true, resetOf 4 0 (stepped (cpu id)) false false, resetOf 5 143 (cpu id) false true, resetOf 5 0 (stepped (cpu id)) false false,
    resetOf 6 0x11 (cpu id) false true, resetOf 6 0x21 (cpu id) false true, resetOf 6 0x12 (cpu id) true false, resetOf 7 2 (served (cpu id)) false true,
    resetOf 7 2 (cpu id) false false, (cpu id).lkh.pstate == .starting, (active (cpu id)).lkh.pstate != .starting,
    (busyReset 4 false (cpu id)).lkh.reset.busy, (withLkh (fun k => { k with pstate := .off }) State.reset).lkh.pstate == .off,
    (let s := busyReset 4 true (stepped (cpu id)); !(s.at_ 1).resetMay s.lkh.reset && decide (1 < s.lkh.reset.since + 100000000)),
    (busyReset 1 false (cpu id)).lkh.reset.kind == 1, State.reset.lkh.pstate != .off,
    (let s := busyReset 4 true (cpu id); s.lkh.reset.busy && s.lkh.reset.waiting && (s.at_ 1).resetMay s.lkh.reset),
    (let s := busyReset 4 true (stepped (cpu id)); s.lkh.reset.busy && s.lkh.reset.waiting && decide (s.lkh.reset.since + 100000000 ≤ 100000000)),
    (let s := busyReset 4 false (cpu id); s.lkh.reset.busy && !s.lkh.reset.waiting && s.lkh.reset.kind != 1)] : List Bool).all id = true := by decide +kernel

theorem witness_WhatResetsKeep : ([Ctx.hand != Ctx.main, ((lostUt 0 State.reset).ut 0).flags.lost, !((cpu id).ut 0).flags.lost] : List Bool).all id = true := by
  decide +kernel

theorem witness_PanelStates : ([active State.reset |>.canStandby, !(stepped (active State.reset)).canStandby,
    (cpu id).lkh.pstate != .active && (cpu id).lkh.pstate != .standby,
    (let s := withLkh (fun k => { k with req := true }) (active State.reset); s.lkh.pstate == .active && s.lkh.req && s.canStandby),
    (withLkh (fun k => { k with pstate := .standby }) State.reset).lkh.pstate == .standby && !(State.reset.hbm[0]).initing,
    ({ State.reset.sec with updating := true } : Security).updating, (!State.reset.sec.updating) && State.reset.idleSlot == some 0] : List Bool).all id = true := by
  decide +kernel

def pkg0 : PackageIn :=
  { magic := 0, version := 1, components := 6, ownerSlot := 0, pkgVersion := 1, compatFrom := 5, reservedZero := true, ownerPk := [], comps := [], signed := []
    signature := [] }
/-- A package with a wrong magic number fails its checks. -/
theorem witness_PanelStates_refused : State.reset.pkgOk pkg0 = false := by
  simp [State.pkgOk, pkg0]

/-! ### Security -/

/-- Words of a certificate for the quarantine of the panel with digest 1, with one signature of zeros. -/
def certWords : List (Nat × Nat) := [(0, 0x51435201 + 1 <<< 32 + 1 <<< 40 + 1 <<< 48), (8, 1), (32, 1)]
def certHost (l : List (Nat × Nat)) (n : Nat) : State :=
  let s := served (ringed l 0)
  { s with sec := { s.sec with certAddr := 4 <<< 60, certLen := BitVec.ofNat 32 n } }
def certHyp (s : State) (p : State → List Byte → Bool) : Bool :=
  let u := s.at_ 1
  s.sec.pendingAct.isNone && !u.addrBad s.sec.certAddr && decide (s.sec.certLen.toNat ≤ 84488) && addrClass s.sec.certAddr == 4 &&
    (u.hostBad (fld s.sec.certAddr 0 48) s.sec.certLen.toNat).isNone && p u (u.hostRead (fld s.sec.certAddr 0 48) s.sec.certLen.toNat)
def mgrs (n k : Nat) (keys : List (List Byte)) (s : State) : State := { s with sec := { s.sec with mgrN := n, mgrK := k, mgrKeys := keys } }
theorem witness_Certificates : ([
    (let s : State := { State.reset with sec := { State.reset.sec with certAddr := 5 <<< 60 } }
     s.sec.pendingAct.isNone && (s.at_ 1).addrBad s.sec.certAddr),
    (let s : State := { State.reset with sec := { State.reset.sec with certLen := 84489 } }
     s.sec.pendingAct.isNone && decide (84488 < s.sec.certLen.toNat)),
    certHyp (certHost [] 128) fun _ bs => (certParse bs).isNone,
    certHyp (certHost certWords 3448) fun u bs => (certParse bs).any fun c => decide (2 ≤ u.serves) && decide (u.sec.lastSeq.toNat < c.seq),
    certHyp (withLkh (fun k => { k with serving := 1 }) (certHost certWords 3448)) fun u bs => (certParse bs).isSome && decide (u.serves < 2)] :
    List Bool).all id = true := by decide +kernel

def cert0 (d : BitVec 256) : Cert :=
  { action := 1, count := 1, seq := 1, notAfter := 0, setGen := 0, subject := d, payload := [], signed := [], signers := [(0, [])], whole := [] }
/-- An accepted certificate: its subject is another panel, and the manager set asks for no signature more than it finds. -/
theorem witness_Certificates_ok (d : BitVec 256) (h : (d == identityDigest) = false) : (mgrs 1 0 [[]] State.reset).certOk (cert0 d) = true := by
  simp [State.certOk, cert0, h, State.signersOk, mgrs, State.actionOk, State.reset]

theorem witness_Certificates_rejected (d : BitVec 256) : (mgrs 0 0 [] State.reset).certOk (cert0 d) = false := by
  simp [State.certOk, cert0, State.signersOk, mgrs, State.reset]

def mq (t : Nat) (n : BitVec 64) : MgmtReq := { key := 0, counter := n, signedAt := t, addr := 5 <<< 60, value := 0, bytes := [], signature := [] }
theorem witness_SignedRequests : ([(served State.reset).lkh.serving.getLsbD 2, !State.reset.lkh.serving.getLsbD 0,
    (let s := mgrs 1 1 [[]] State.reset; decide ((s.at_ 0).now + 5000000000 < (mq 5000000001 0).signedAt)),
    (let s : State := { mgrs 1 1 [[]] State.reset with sec := { (mgrs 1 1 [[]] State.reset).sec with lastCtr := [(0, 6)] } }
     decide ((mq 0 5).counter.toNat < tblGet 0 s.sec.lastCtr (mq 0 5).key.toNat)),
    decide ((mgrs 0 0 [] State.reset).sec.mgrN ≤ (mq 0 0).key.toNat), decide ((mq 0 0).signedAt + 5000000000 < (State.reset.at_ 5000000001).now)] :
    List Bool).all id = true := by decide +kernel
/-- A request that passes its checks, where its signature verifies. -/
theorem witness_SignedRequests_ok (g : List Byte) (hg : g.length = 3309) (h : Config.verify [] "OVP-MGMT" [] g = true) :
    (mgrs 1 1 [[]] State.reset).mgmtOk { mq 0 0 with signature := g } = true := by
  simp [State.mgmtOk, mgrs, mq, State.reset, h, hg, tblGet]
/-- An address that is refused, and one whose register answers. -/
theorem witness_SignedRequests_writes : ([((mgrs 1 1 [[]] State.reset).regRefused (mq 0 0).addr).isSome,
    (let s := cpu id
     let a := BitVec.ofNat 64 (canalA 0x020000)
     (s.regRefused a).isNone && !s.regSilent (s.regAt a))] : List Bool).all id = true := by decide +kernel

def acting (a : CertAct) : State := { ported up0 with sec := { State.reset.sec with pendingAct := some a } }
theorem witness_CertificateActions : ([(acting (.quarantine 0)).sec.pendingAct == some (.quarantine 0) && ((acting (.quarantine 0)).port 0).peerId == 0,
    ((acting (.quarantine 1)).port 0).peerId != 1, (acting (.release 0)).sec.pendingAct == some (.release 0),
    (acting .requalify).sec.pendingAct == some .requalify, (acting (.enrol 1 1 1 [[]])).sec.pendingAct == some (.enrol 1 1 1 [[]]),
    (ported up0).sec.pendingAct != some .requalify, (acting (.commit 5 64)).sec.pendingAct == some (.commit 5 64), 
    (acting (.revoke 3)).sec.pendingAct == some (.revoke 3)] : List Bool).all id = true := by decide +kernel

/-! ### The Logbook -/

theorem witness_LogbookChain : ([State.reset.log.nextIdx == State.reset.log.head.index + 1, decide ((List.replicate 72 (0 : Byte)).length ≤ 72)] :
    List Bool).all id = true := by decide +kernel

def logS (f : Logbook → Logbook) : State := { State.reset with log := f State.reset.log }
theorem witness_LogCommands : ([State.reset.log.ckptReqAt.isNone,
    (let s := logS fun l => { l with ckptReqAt := some 0 }; s.log.ckptReqAt == some 0 && decide (0 + 1000000000 ≤ (s.at_ 1000000000).now)),
    (let s := logS fun l => { l with ckptReqAt := some 0 }; s.log.ckptReqAt == some 0 && decide ((s.at_ 999999999).now < 0 + 1000000000)),
    (let s := logS fun l => { l with ckptPend := [(0, true)] }; s.log.ckptPend == [(0, true)] && (s.log.entry 0).isSome)] : List Bool).all id = true := by
  decide +kernel

/-! ### State, memory and the rules stated whole -/

theorem witness_StepRunsFrontCommand : (State.reset.pending == []) = true := by decide +kernel
theorem witness_StepTaken : ([State.reset.numFree 1, State.reset.numFree 4095] : List Bool).all id = true := by decide +kernel
theorem witness_FirstPound : ([(withCtl (fun k => { k with main := .halted }) (ready {})).core.ctl.main == .halted, (ready {}).core.ctl.main != .halted] :
    List Bool).all id = true := by decide +kernel
theorem witness_TablesAndMemory : ([tblWf (0 : Nat) [(3, 1)], Memory.wf [(3, 1)], Memory.wf []] : List Bool).all id = true := by decide +kernel

theorem witness_PoundLengthRefused : ([decide ((19 : BitVec 15).toNat < 20), (0x3E80000 : Word).extractLsb' 16 15 == 1000] : List Bool).all id = true := by
  decide +kernel

/-- A panel without an LT. -/
def noLts : State := withLkh (fun k => { k with absent := List.finRange 120 }) State.reset
theorem witness_HomePositions : ([decide ((119 : Lt).val = 10 * (11 : Fin 12).val + (9 : Fin 10).val), isSpare 2,
    (List.finRange 120).all fun l => noLts.place.posOf l != some 0] : List Bool).all id = true := by decide +kernel

theorem witness_StepTags : ([
    (let s : State := { cpu id with intake := { State.reset.intake with steps := [{ step0 with phase := .admitted }] } }
     (s.stepNum 1).any fun r => r.phase == .admitted && r.ending.isNone && decide (r.tAdmit + 4000 ≤ 4000) && decide (r.man.notBefore ≤ 4000) && s.stepReady r &&
       s.aborts.isEmpty),
    (let s := aborting id
     (s.stepNum 1).any fun r => r.man.ltEnts.any fun e => s.posOf e.lt == some 0),
    (let s := stepped (cpu id); (s.stepNum 1).any fun r => (s.stepTiles r).contains 0)] : List Bool).all id = true := by decide +kernel

/-- An image with one resident region. -/
def resImage : List Byte :=
  natBytes (0x51575304 + 1 <<< 32) 8 ++ natBytes (2 + 1 <<< 40) 8 ++ List.replicate 2048 (0 : Byte) ++ natBytes 65536 8 ++ natBytes (65536 + 1 <<< 32) 8 ++
    List.replicate (2368 - 2080) (0 : Byte)
theorem witness_ResidentRegions : ((parseImage resImage).any fun m => m.res == [(65536, 65536, true)]) = true := by decide +kernel

theorem witness_EveryStepKeepsTrust : TrustInv (acting (.commit 0 1)).sec ∧ TrustFloor (Vector.replicate 3 (Vector.replicate 6 0)) 0 0 (acting (.commit 0 1)).sec ∧
    (nextIs (step { served (acting (.commit 0 1)) with pending := [.commit 0 1] }) fun t => t.sec.groups[0][0] == 1) = true := by
  refine ⟨?_, ?_, by decide +kernel⟩
  · refine ⟨by decide +kernel, rfl, by decide +kernel, by decide +kernel, ?_⟩
    show (1 : BitVec 8).toNat ≤ 64
    decide +kernel
  · exact ⟨by decide +kernel, by decide +kernel, by decide +kernel⟩

end Sys2Proof.Tests
end

