-- ==== Sys2Proof/Tests/Slice0.lean ====
section
/-! SUPPORT. Small tests: ill-formed commands are refused by the well-formedness check, the worked examples of the spec, and single steps. Each
expected value comes from the spec's text, named beside the test, or from hand calculation. -/

set_option Elab.async false

namespace Sys2Proof.Tests

open Sys2Proof Sys2Proof.Machine

/-! ### Well-formedness: one ill-formed command for each check -/

/-- The slot holds another opcode. -/
theorem test_wf_opcode : (Instr.sub addI).wf = false := by decide +kernel
/-- The slot is not valid in the bundle. -/
theorem test_wf_slot : (Instr.add { addI with bundle := addI.bundle &&& ~~~(1 : Bundle) }).wf = false := by decide +kernel
theorem test_wf_add : (Instr.add addI).wf = true := by decide +kernel
/-- A stage report of another stage. -/
theorem test_wf_stage : (Instr.stage05 (r0 4)).wf = false := by decide +kernel
/-- A payload longer than a frame carries (Table 10.3). -/
theorem test_wf_frame : (Instr.axlDataFrame 0 0 { frame0 0 with payload := List.replicate 257 0 } 0).wf = false := by decide +kernel
/-- More lanes than a port has. -/
theorem test_wf_lanes : (Instr.axlFrameLock 0 17 0 0).wf = false := by decide +kernel
theorem test_wf_kclLanes : (Instr.kclLoss 0 17 0).wf = false ∧ (Instr.kclPortUp 0 1 17 0).wf = false := by decide +kernel
/-- A signature of another length than ML-DSA-65 has (R452). -/
theorem test_wf_signature : (Instr.managementRequest (mq 0 0) 0).wf = false := by decide +kernel

/-! ### Worked examples -/

/-- Example 1.1: byte 0x42000 of LT42, and chamber 300 of LT79. -/
theorem test_example_1_1 : (addrClass 0x0005400000042000 = 0 ∧ addrLt 0x0005400000042000 = 42 ∧ addrOff 0x0005400000042000 = 0x42000) ∧
    addrClass 0x3009E0000000012C = 3 ∧ addrLt 0x3009E0000000012C = 79 ∧ addrChamber 0x3009E0000000012C = 300 := by decide +kernel
/-- After R18: P.04.03 is LT42 and P.07.11 is LT79. -/
theorem test_example_homes : homeOf 42 = mkPos 4 3 ∧ homeOf 79 = mkPos 7 11 := by decide +kernel

/-- Example 4.1: 7.9, 2.5, −0.2, 0.75, −1.3 and 0 in MXFP4. -/
theorem test_example_4_1 : (blockEncode 7 (([0x40FCCCCD, 0x40200000, 0xBE4CCCCD, 0x3F400000, 0xBFA66666] ++ List.replicate 27 0 : List F32).map dec32)).1 = 0x7F ∧
    (blockEncode 7 (([0x40FCCCCD, 0x40200000, 0xBE4CCCCD, 0x3F400000, 0xBFA66666] ++ List.replicate 27 0 : List F32).map dec32)).2.take 6 =
      [0x7, 0x4, 0x8, 0x2, 0xB, 0] := by decide +kernel
/-- Example 4.2: two LNS8 pairs, and the first alone. -/
theorem test_example_4_2 : fastColumn 9 9 ([0x19, 0x19] ++ List.replicate 30 0x40) [0x7F] ([0xE4, 0x18] ++ List.replicate 30 0x40) [0x7F] 0x80000000 = 0x40EF3BEA ∧
    fastColumn 9 9 ([0x19] ++ List.replicate 31 0x40) [0x7F] ([0xE4] ++ List.replicate 31 0x40) [0x7F] 0x80000000 = 0xBF60CCDF := by decide +kernel
/-- Example 4.3: BF16 in fast and in strict mode. -/
theorem test_example_4_3 : fastColumn 2 2 [0x4580, 0x3F80, 0x4580] [] [0x4580, 0x3F80, 0xC580] [] 0x80000000 = 0x3F800000 ∧
    strictColumn 2 [0x4580, 0x3F80, 0x4580] [0x4580, 0x3F80, 0xC580] 0x80000000 = 0x00000000 := by decide +kernel

/-- Example 6.1: LOOP 0 with S4 = 3 and length 5 at cycle 100 from bundle 40; with S4 = 0 bundle 46 is next. -/
def loopEx (n : Word) (p : CtxState → Bool) : Bool :=
  let s := cpu fun t => withS [(4, n)] { t with core := { t.core with img := { t.core.img with bundles := 64 } } }
  nextIs (exec (.loop { iss .c (0x530 + 4 <<< 18 + 4 <<< 24) with idx := 40, cc := 100 }) s) fun t => p (t.core 0).main
theorem test_example_6_1 : (loopEx 3 fun q => q.loops[0] == { active := true, start := 41, last := 45, left := 3 } && q.nextIdx == 41 && q.nextCc == 103) = true ∧
    (loopEx 0 fun q => q.loops[0] == {} && q.nextIdx == 46 && q.nextCc == 103) = true := by decide +kernel

/-- Example 6.2: the bundle of the first MSTEP of Example 3.3. -/
def mstepEx : Bundle := BitVec.ofNat 256 (4 + 0x00060A0508103000 <<< 128)
theorem test_example_6_2 : (let w := slotWord mstepEx .m
    slotValid mstepEx .m = true ∧ slotValid mstepEx .c = false ∧ opcode w = 3 ∧ mA w = 1 ∧ mB w = 2 ∧ mC w = 5 ∧ mCh w = some (false, 40) ∧ mOpBits w = 1) := by
  decide +kernel

/-- Example 7.1: a load of 2 KiB at 0x12C40, 0x12C00 and 0x13800 by port VX at phase 3. -/
theorem test_example_7_1 : ([(0x12C40, 10), (0x12C00, 9), (0x13800, 4)].all fun e =>
    let x := portRuns 3 0 1003 [(e.1, 2048)]
    accLat 3 (x.1 - 1003 - x.2) x.2 == e.2) = true := by decide +kernel

/-- Example 14.1 at 40.0 s: theta 0.004074 K/W, a target of 13,991 W, and a thermal cap of 14,250 W. -/
theorem test_example_14_1 : nextIs (exec (.thermalCapUpdate false false false 1) (sampled 9000 3500 13500)) (fun v =>
    v.therm.theta == 4074 && v.therm.targetW == 13991 && v.therm.thermalW == 14250) = true := by decide +kernel
/-- Example 18.1: at 40.55 V the supply cap is 15,000 W. -/
theorem test_example_18_1 : ({ State.reset with power := { State.reset.power with vin := 4055 } } : State).capNow = 15000 := by decide +kernel

/-- FIPS 202: SHAKE256 of the empty message begins 46 B9 DD 2B 0B A8 8D 13. -/
theorem test_shake256_empty : (digestBytes (digest [])).take 8 = [0x46, 0xB9, 0xDD, 0x2B, 0x0B, 0xA8, 0x8D, 0x13] := by decide +kernel

/-! ### Numbers -/

/-- 1 + 2⁻²⁴ lies halfway and rounds to the even 1; the smallest subnormal is kept (R93); an invalid operation gives the canonical NaN (R91). -/
theorem test_fp32 : f32Add 0x3F800000 0x33800000 = 0x3F800000 ∧ f32Add 0x00000001 0 = 0x00000001 ∧ f32Sub 0x7F800000 0x7F800000 = 0x7FC00000 ∧
    f32Mul 0x7F7FFFFF 0x40000000 = 0x7F800000 := by decide +kernel

/-! ### Single steps -/

/-- ADD wraps: 2⁶⁴ − 1 plus 2 is 1. -/
theorem test_add_wraps : nextIs (exec (.add addI) (cpu (withS [(1, 0xFFFFFFFFFFFFFFFF), (2, 2)]))) (fun t =>
    ((t.run 0 8).core 0).readS .main 3 == 1) = true := by decide +kernel
/-- SAR keeps the sign. -/
theorem test_sar_sign : nextIs (exec (.sar (iss .c (0x080 + 3 <<< 12 + 1 <<< 18 + 2 <<< 24))) (cpu (withS [(1, 0x8000000000000000), (2, 63)]))) (fun t =>
    ((t.run 0 8).core 0).readS .main 3 == 0xFFFFFFFFFFFFFFFF) = true := by decide +kernel
/-- CMPLT compares signed, CMPLTU unsigned. -/
theorem test_compares : ([(nextIs (exec (.cmplt (iss .c (0x1A0 + 3 <<< 12 + 1 <<< 18 + 2 <<< 24))) (cpu (withS [(1, 0xFFFFFFFFFFFFFFFF), (2, 2)]))) fun t =>
      ((t.run 0 8).core 0).main.p[3] == true),
    (nextIs (exec (.cmpltu (iss .c (0x1B0 + 3 <<< 12 + 1 <<< 18 + 2 <<< 24))) (cpu (withS [(1, 0xFFFFFFFFFFFFFFFF), (2, 2)]))) fun t =>
      ((t.run 0 8).core 0).main.p[3] == false)] : List Bool).all id = true := by decide +kernel
/-- A pound length of 19 µs is refused, one of 20 µs waits for the next gate tick (R33). -/
theorem test_poundLen : nextIs (exec (.poundLenWrite 19) State.reset) (fun t => t.pcfg.next == 1000 && t.pcfg.err == .illegalDescriptor && !t.pcfg.pend) = true ∧
    nextIs (exec (.poundLenWrite 20) State.reset) (fun t => t.pcfg.next == 20 && t.pcfg.err == .done && t.pcfg.pend && t.pcfg.len == 1000) = true := by decide +kernel
/-- The front command runs first. -/
theorem test_queue : nextIs (step { State.reset with pending := [.poundLenWrite 20, .poundLenWrite 30] }) (fun t =>
    t.pcfg.next == 20 && t.pending == [.poundLenWrite 30]) = true := by decide +kernel
/-- LOG_EXPORT only rises (R472). -/
theorem test_export : nextIs (exec (.logExportWrite 5) (logS fun l => { l with exported := 7 })) (fun t => t.log.exported == 7) = true := by decide +kernel
/-- A droop of 21 mV stretches the clock, one of 20 mV does not (R339). -/
theorem test_droop : nextIs (exec (.droopStretch 0 729 0) (cpu id)) (fun t => (t.ut 0).pwr.droop == 1) = true ∧
    nextIs (exec (.droopStretch 0 730 0) (cpu id)) (fun t => (t.ut 0).pwr.droop == 0) = true := by decide +kernel

end Sys2Proof.Tests
end

section
/-! PROOFS. Register access (O35): what a read, a towpath access and a write do, by where they arrive and who asks; the state after reset (O55). -/

namespace Sys2Proof.Machine

open Sys2Proof

/-! ### Packets that reach a network interface -/

section
variable {s : State} {id cc type : Nat} {q : Packet} {p : Pos} {f : Pos → Packet → State → State}

/-- A lost tile answers nothing: the packet leaves the fabric (R272). -/
theorem arrive_of_lost (hq : s.packet id = some q) (hd : q.place = .delivered p) (ht : q.type.toNat = type) (hk : q.taken = false)
    (hc : (s.ut p).cycle ≤ cc) (hl : (s.ut p).flags.lost = true) : arrive type id cc f s = s.dropPacket id := by
  simp [arrive, hq, hd, ht, hk, Nat.not_lt.mpr hc, hl]

/-- A packet with a good header is served on the state that its tile has reached in cycle cc. -/
theorem arrive_of_served (hq : s.packet id = some q) (hd : q.place = .delivered p) (ht : q.type.toNat = type) (hk : q.taken = false)
    (hc : (s.ut p).cycle ≤ cc) (hl : (s.ut p).flags.lost = false) (hb : q.badHeader = false) :
    arrive type id cc f s = f p q (s.run p cc) := by
  simp [arrive, hq, hd, ht, hk, Nat.not_lt.mpr hc, hl, hb]

end

/-! ### Read requests (R246) -/

section
variable {s : State} {id cc : Nat} {q : Packet} {p : Pos} {d : Fin 5}

theorem exec_rdReq_of_canal (hq : s.packet id = some q) (ht : q.type = 1) (hk : q.taken = false) (hd : q.place = .canal d)
    (ho : s.dieOff d = false) : exec (.rdReq id cc) s = .next (s.serveCanalRead d q) := by
  simp [exec, execRdReq, hq, hd, ht, hk, ho]

theorem exec_rdReq_of_delivered (hq : s.packet id = some q) (hd : q.place = .delivered p) :
    exec (.rdReq id cc) s = .next (arrive 1 id cc (fun p q s => s.serveRead p q cc) s) := by
  simp only [exec, execRdReq, hq, hd]

theorem serveCanalRead_of_reset (hr : s.houseResets d.val = true) : s.serveCanalRead d q = s.replyCanal d q .tileReset [] := by
  simp [State.serveCanalRead, hr]
theorem serveCanalRead_of_illegal (hr : s.houseResets d.val = false) (ha : s.addrBad q.addr = true ∨ addrClass q.addr ≠ 2) :
    s.serveCanalRead d q = s.replyCanal d q .illegalDescriptor [] := by
  simp [State.serveCanalRead, hr, ha]
theorem serveCanalRead_of_register (hr : s.houseResets d.val = false) (ha : s.addrBad q.addr = false) (hc : addrClass q.addr = 2) :
    s.serveCanalRead d q = (s.latchFrac (.canal (addrReg q.addr))).replyCanal d q .done
      (natBytes (s.regWord (.canal (addrReg q.addr))).toNat 8) := by
  simp [State.serveCanalRead, hr, ha, hc]

theorem serveRead_of_illegal (ha : s.addrBad q.addr = true ∨ (addrClass q.addr ≠ 0 ∧ addrClass q.addr ≠ 2)) :
    s.serveRead p q cc = s.reply p q .illegalDescriptor [] := by
  rcases ha with ha | ⟨h0, h2⟩
  · simp [State.serveRead, ha]
  · simp [State.serveRead, h0, h2]

/-- A request at a register or scratchpad address that Table 9.9 turns away is answered with the table's status. -/
theorem serveRead_of_notServed {st : Status} (ha : s.addrBad q.addr = false) (hc : addrClass q.addr = 0 ∨ addrClass q.addr = 2)
    (hn : s.notServed p q (addrClass q.addr == 2 && !dieReg q.addr) = some st) : s.serveRead p q cc = s.reply p q st [] := by
  have hok : (addrClass q.addr == 0 || addrClass q.addr == 2) = true := by simpa using hc
  simp [State.serveRead, ha, hok, hn]

theorem serveRead_of_register (ha : s.addrBad q.addr = false) (hc : addrClass q.addr = 2)
    (hn : s.notServed p q (!dieReg q.addr) = none) :
    s.serveRead p q cc = (s.latchFrac (.tile p (addrReg q.addr))).reply p q .done
      (natBytes (s.regWord (.tile p (addrReg q.addr))).toNat 8) := by
  simp [State.serveRead, Packet.regRead, ha, hc, hn]

theorem serveRead_of_scratchpad (ha : s.addrBad q.addr = false) (hc : addrClass q.addr = 0) (hn : s.notServed p q false = none) :
    s.serveRead p q cc = if (s.core p).spd.zeroing then s else s.niRead p q cc := by
  simp [State.serveRead, ha, hc, hn]

end

/-! ### The towpath (R246, R489) -/

section
variable {s : State} {a v : Word} {st : Status}

theorem exec_tow_of_astray {y : Pos} {d : Option Word} {t : Nat} (hy : (s.at_ t).towAstray a = some y)
    (hl : ((s.at_ t).ut y).flags.lost = false) : exec (.tow a d t) s = .next ((s.at_ t).towAnswer (.tile y 0) .tileFenced []) := by
  simp [exec, execTow, hy, hl]
theorem exec_tow_of_home {d : Option Word} {t : Nat} (hy : (s.at_ t).towAstray a = none) :
    exec (.tow a d t) s = .next ((s.at_ t).towServe a d) := by
  simp [exec, execTow, hy]

theorem towServe_of_refused {d : Option Word} (hs : s.regSilent (s.regAt a) = false) (hr : s.regRefused a = some st) :
    s.towServe a d = s.towAnswer (s.regAt a) st [] := by
  simp [State.towServe, hs, hr]
theorem towServe_read (hs : s.regSilent (s.regAt a) = false) (hr : s.regRefused a = none) :
    s.towServe a none = (s.latchFrac (s.regAt a)).towAnswer (s.regAt a) .done (natBytes (s.regWord (s.regAt a)).toNat 8) := by
  simp [State.towServe, hs, hr]
theorem towServe_write (hs : s.regSilent (s.regAt a) = false) (hr : s.regRefused a = none) :
    s.towServe a (some v) = (s.writeReg (s.regAt a) v .firmware .internal).towAnswer (s.regAt a) .done [] := by
  simp [State.towServe, hs, hr]

theorem exec_towAns_of_canal {id : Nat} {q : Packet} {d : Fin 5} (hq : s.packet id = some q) (hd : q.place = .canal d)
    (ht : q.type = 0xC) : exec (.towAns id) s = .next (s.dropPacket id) := by
  simp [exec, execTowAns, hq, hd, ht]

end

theorem registerReads_hold : Rules.RegisterAccess := by
  intro id cc t q a v s
  refine ⟨fun hq ht hk => ⟨fun d hd ho => ?_, fun p hd hc => ⟨fun hl => ?_, fun hl hb => ?_⟩⟩, ?_,
    fun d hq hd ht => exec_towAns_of_canal hq hd ht⟩
  · rw [exec_rdReq_of_canal hq ht hk hd ho]
    exact ⟨fun hr => by rw [serveCanalRead_of_reset hr], fun hr ha => by rw [serveCanalRead_of_illegal hr ha],
      fun hr ha h2 => by rw [serveCanalRead_of_register hr ha h2]⟩
  · rw [exec_rdReq_of_delivered hq hd, arrive_of_lost hq hd (by simp [ht]) hk hc hl]
  · intro w
    have hw : exec (.rdReq id cc) s = .next (w.serveRead p q cc) := by
      rw [exec_rdReq_of_delivered hq hd, arrive_of_served hq hd (by simp [ht]) hk hc hl hb]
    rw [hw]
    refine ⟨fun ha => by rw [serveRead_of_illegal ha], fun ha hcl => ⟨fun st hn => by rw [serveRead_of_notServed ha hcl hn],
      fun h2 hn => by rw [serveRead_of_register ha h2 hn], fun h0 hn => ?_⟩⟩
    rw [serveRead_of_scratchpad ha h0 hn]
    exact ⟨fun hz => by rw [if_pos hz], fun hz hg => by simp [hz, State.niRead, hg], fun hz hg => by simp [hz, State.niRead, hg]⟩
  · intro u r
    refine ⟨fun y d hy hl => exec_tow_of_astray hy hl, fun hy hs => ⟨fun d st hr => ?_, fun hr => ?_, fun hr => ?_⟩⟩
    · rw [exec_tow_of_home hy, towServe_of_refused hs hr]
    · rw [exec_tow_of_home hy, towServe_read hs hr]
    · rw [exec_tow_of_home hy, towServe_write hs hr]

/-! ### Register writes (Tables 17.8, 17.12) -/

section
variable {s : State} {a v : Word} {r : RegAt} {path : Path} {signed : Bool}

theorem exec_registerWrite_of_may (hr : s.regRefused a = none) (hs : s.regSilent (s.regAt a) = false)
    (hm : s.mayWrite (s.regAt a) path signed = true) :
    exec (.registerWrite a v path signed) s = .next (s.writeReg (s.regAt a) v (originOf path) path) := by
  simp [exec, execRegisterWrite, hr, hs, hm]

theorem exec_registerWrite_of_not
    (h : s.mayWrite (s.regAt a) path signed = false ∨ s.regSilent (s.regAt a) = true ∨ ∃ st, s.regRefused a = some st) :
    exec (.registerWrite a v path signed) s = .next s := by
  rcases h with h | h | ⟨st, h⟩ <;> simp [exec, execRegisterWrite, h]

theorem mayWrite_ethernet (ho : r.openWrite = false) : s.mayWrite r .ethernet signed = signed := by simp [State.mayWrite, ho]

/-- On a path other than Ethernet a request needs its signature only where the path is locked. -/
theorem mayWrite_of_ne_ethernet (hp : path ≠ .ethernet) :
    s.mayWrite r path signed = (r.openWrite || (signed || !s.pathLocked path)) := by
  cases path
  case ethernet => exact absurd rfl hp
  all_goals rfl

theorem writeReg_of_recorded {org : Origin} (hr : r.recorded path = true) (hc : (s.writeRaw r v org path).regWord r ≠ s.regWord r) :
    s.writeReg r v org path = (s.writeRaw r v org path).logReg org path r.addr (s.regWord r).toNat
      ((s.writeRaw r v org path).regWord r).toNat := by
  simp [State.writeReg, hr, hc]

end

theorem registerWrites_hold : Rules.RegisterWrites := by
  intro a v path signed s
  refine ⟨exec_registerWrite_of_may, exec_registerWrite_of_not, ?_, fun hp hl => ?_, fun hp hl ho => ?_, writeReg_of_recorded⟩
  · rintro rfl ho
    exact mayWrite_ethernet ho
  · simp [mayWrite_of_ne_ethernet hp, hl]
  · simp [mayWrite_of_ne_ethernet hp, hl, ho]

/-! ### Sealed fields (R488) -/

section
variable {s : State} {org : Origin} {path : Path}

@[simp] theorem State.logReg_intake (x o n : Nat) : (s.logReg org path x o n).intake = s.intake := rfl
@[simp] theorem State.logReg_sec (x o n : Nat) : (s.logReg org path x o n).sec = s.sec := rfl

theorem storeSealed_of_outside (hp : pathOutside path = true) (x old new : Nat) (f : State → State) :
    s.storeSealed org path x old new f = f (s.logReg org path x old new) := by
  simp [State.storeSealed, hp]

end

theorem sealedFields_hold : Rules.SealedFields := by
  intro v org path p s hs hp
  refine ⟨?_, ⟨_, rfl, ?_⟩, ⟨_, rfl, ?_⟩, ⟨_, rfl, ?_⟩⟩
  · simp [State.writeTile, hs, storeSealed_of_outside hp, fbv]
  · simp [State.writeCanal, State.writeKcl, hs, storeSealed_of_outside hp, State.modIntake]
  · simp [State.writeCanal, State.writeKcl, hs, storeSealed_of_outside hp, State.modIntake, fbv]
  · simp [State.writeCanal, State.writeSec, hs, storeSealed_of_outside hp, fbv]

/-! ### Access codes (R8) -/

theorem fld_le_max {w : Nat} (v : BitVec w) (lo len : Nat) : fld v lo len ≤ 2 ^ len - 1 := Nat.le_sub_one_of_lt (BitVec.isLt _)

theorem inRange_fbv (lo hi i w : Nat) (v : Word) (old : BitVec w) :
    inRange lo hi (fbv v i w) old = if lo ≤ fld v i w ∧ fld v i w ≤ hi then v.extractLsb' i w else old := rfl

theorem accessCodes_hold : Rules.AccessCodes := by
  intro v org path p s
  refine ⟨⟨_, rfl, ?_⟩, ⟨_, rfl, ?_⟩, ⟨_, rfl, ?_⟩, ⟨_, rfl, ?_⟩, ⟨_, rfl, ?_⟩, ⟨_, rfl, ?_⟩⟩
  · simp [State.writeTile, Core.writeCor, w1c, bit]
  · simp [State.writeTile, State.modStg, w1c, bit]
  · simp [State.writeTile, State.modCht, w1c, bit]
  · simp [State.writeTile, State.writeMesh, Mesh.writeReg, State.modMesh, inRange_fbv, show fld v 0 6 ≤ 63 from fld_le_max v 0 6]
  · simp [State.writeTile, State.writePwr, State.modPwr, inRange_fbv]
  · simp [State.writeTile, State.modSpd, Scratch.writeReg, bit]

/-- Settles O35: reads where the request or the towpath access arrives, writes by path and authority, sealed fields, access codes. -/
theorem registerAccess : Obligations.RegisterAccess :=
  ⟨registerReads_hold, registerWrites_hold, sealedFields_hold, accessCodes_hold⟩

/-! ### The state after reset (R9) -/

@[simp] theorem reset_core (p : Pos) : State.reset.core p = {} := by simp [State.core, State.reset]
@[simp] theorem reset_ut (p : Pos) : State.reset.ut p = {} := by simp [State.ut, State.reset]

theorem resetMeetsTrust_holds : Rules.ResetMeetsTrust :=
  ⟨⟨by decide, rfl, le_rfl, Nat.zero_le _, trivial⟩, by decide⟩

/-- A register of a position reads as its block gives it, outside the VEC_ block, which no chapter describes. -/
theorem regWord_tile {s : State} {p : Pos} {off : Nat} (h : off / 0x10000 ≠ 3) : s.regWord (.tile p off) = s.tileReg p off := by
  simp [State.regWord, RegAt.described, h]

/-- COR_FAULT, MAT_CHK_CFG, MAT_KEEPER_CFG and SPD_SCRUB, the registers held in the compute die. -/
theorem reset_dieWords (p : Pos) :
    let w (off : Nat) : Nat := (State.reset.regWord (.tile p off)).toNat
    w 0x010010 = 0 ∧ w 0x020000 = 2 ∧ w 0x020010 = 0x1100 ∧ w 0x040050 = 1 := by
  simp +decide only [regWord_tile, State.tileReg, State.corReg, reset_core]

/-- STG_PART and the mesh registers of Table 9.7. -/
theorem reset_meshWords (p : Pos) :
    let w (off : Nat) : Nat := (State.reset.regWord (.tile p off)).toNat
    w 0x050000 = 4 ∧ w 0x060010 = 0x18 ∧ w 0x060018 = 0x101010101 ∧ w 0x060020 = 0x14 ∧ w 0x060028 = 0x110 := by
  simp +decide only [regWord_tile, State.tileReg, State.mshReg, reset_ut]

/-- PWR_VCORE and PWR_STATE do not depend on the current that the core draws. -/
theorem reset_regulator (amps : BitVec 7) : ({} : Regulator).reg amps 0 = 0xF02EE ∧ ({} : Regulator).reg amps 8 = 0xF := ⟨rfl, rfl⟩
theorem brtReg_step (s : State) (p : Pos) :
    s.brtReg p 0x2000 = pk [((s.ut p).stepNo.toNat, 0, 12), ((s.ut p).attempt.toNat, 12, 4)] := rfl

/-- PWR_VCORE, PWR_STATE and BRT_STEP. -/
theorem reset_powerAndStepWords (p : Pos) :
    let w (off : Nat) : Nat := (State.reset.regWord (.tile p off)).toNat
    w 0x090000 = 0xF02EE ∧ w 0x090008 = 0xF ∧ w 0x072000 = 0 := by
  simp +decide only [regWord_tile, State.tileReg, Nat.reduceMod, Nat.reduceDiv, Nat.reduceMul, brtReg_step, reset_ut, reset_regulator]

theorem reset_tileFields (p : Pos) :
    (State.reset.core p).main = {} ∧ (State.reset.core p).ctl.vl = Vector.replicate 4 512 ∧
      (State.reset.core p).mov.slots = Vector.replicate 64 {} ∧ (State.reset.core p).spd.mem = [] ∧
      (State.reset.ut p).pwr.state = 3 ∧ (State.reset.ut p).berths = Vector.replicate 64 {} ∧ (State.reset.ut p).chambers = [] := by
  rw [reset_core, reset_ut]
  exact ⟨rfl, rfl, rfl, rfl, rfl, rfl, rfl⟩

theorem reset_canalWords :
    let w (off : Nat) : Nat := (State.reset.regWord (.canal off)).toNat
    w 0x010000 = 0x03E803E8 ∧ w 0x010030 = 0x6400 ∧ w 0x020000 = 0x0BB83A983A98 ∧ w 0x030000 = 0x55055 ∧ w 0x040010 = 0x7D0 ∧
      w 0x050130 = 0xA ∧ w 0x070018 = 0 ∧ w 0x0A0000 = 4 := by
  decide

theorem resetValues_hold : Rules.ResetValues := by
  refine ⟨reset_tileFields, rfl, rfl, rfl, rfl, rfl, rfl, rfl, rfl, rfl, rfl, rfl, fun p => ?_, reset_canalWords⟩
  obtain ⟨fault, margin, keeper, scrub⟩ := reset_dieWords p
  obtain ⟨staging, mark, weights, timer, combine⟩ := reset_meshWords p
  obtain ⟨volts, power, tag⟩ := reset_powerAndStepWords p
  exact ⟨margin, keeper, scrub, staging, mark, weights, timer, combine, volts, power, fault, tag⟩

/-- Settles O55: the security state, the tiles, the registers of a position and the registers of Canal space at reset. -/
theorem resetLeaves : Obligations.ResetLeaves := ⟨resetMeetsTrust_holds, resetValues_hold⟩

end Sys2Proof.Machine
end

section
/-! PROOFS. Home positions (O58): the columns on which LTs are at home (R18), and that after placement a die names an LT only while it carries it. -/

namespace Sys2Proof.Machine

open Sys2Proof

/-! ### Home positions (R18) -/

/-- The physical column of a logical column. -/
def physCol (k : Nat) : Nat := [0, 1, 3, 4, 5, 6, 7, 8, 10, 11].getD k 0

theorem physCol_bounds {k : Nat} (hk : k < 10) : physCol k < 12 ∧ physCol k ≠ 2 ∧ physCol k ≠ 9 := by
  interval_cases k <;> decide

/-- The model skips the spare columns 2 and 9 by adding; the list of columns says the same. -/
theorem homePos_row_col (r : Nat) {k : Nat} (hk : k < 10) : homePos (10 * r + k) = 12 * r + physCol k := by
  have hcol : (10 * r + k) % 10 = k := by omega
  have hrow : (10 * r + k) / 10 = r := by omega
  rw [homePos, hcol, hrow]
  interval_cases k <;> rfl

theorem homeOf_row_col {l : Lt} {r k : Nat} (hk : k < 10) (hl : l.val = 10 * r + k) : homeOf l = mkPos r (physCol k) := by
  rw [homeOf, hl, homePos_row_col r hk, mkPos]

theorem colOf_mkPos (r : Nat) {c : Nat} (hc : c < 12) : colOf (mkPos r c) = c := by
  simp only [colOf, mkPos, Fin.val_ofNat]
  omega

theorem isSpare_homeOf (l : Lt) : isSpare (homeOf l) = false := by
  have hk : l.val % 10 < 10 := Nat.mod_lt _ (by decide)
  obtain ⟨hc, h2, h9⟩ := physCol_bounds hk
  rw [homeOf_row_col hk (Nat.div_add_mod l.val 10).symm, isSpare, colOf_mkPos _ hc]
  simp [h2, h9]

/-! ### The LT that a die names -/

theorem ltAt_of_core {s t : State} {p q : Pos} (h : t.core p = s.core q) : t.ltAt p = s.ltAt q := by
  simp only [State.ltAt, h]

theorem ltAt_of_desc {s : State} {p : Pos} {l : Lt} (h : (s.core p).desc.lt = BitVec.ofNat 7 l.val) : s.ltAt p = some l := by
  have hn : l.val % 128 = l.val := Nat.mod_eq_of_lt (by omega)
  simp [State.ltAt, h, hn]

theorem ltAt_of_desc_none {s : State} {p : Pos} (h : (s.core p).desc.lt = 0x7F) : s.ltAt p = none := by
  simp [State.ltAt, h]

/-- A die that names an LT is the one that carries it. -/
def NamesCarried (s : State) : Prop := ∀ p l, s.ltAt p = some l → s.posOf l = some p

theorem ltAt_eq_none_of_namesCarried {s : State} (h : NamesCarried s) {p : Pos} (hp : ∀ l, s.posOf l ≠ some p) : s.ltAt p = none :=
  Option.eq_none_iff_forall_ne_some.mpr fun l hl => hp l (h p l hl)

/-! ### Carrying one LT (R410) -/

section
variable (s : State) (l m : Lt) (p q : Pos)

theorem setUns_ltpos (b : Bank) : (s.setUns b).ltpos = s.ltpos := rfl
theorem setUns_core (b : Bank) : (s.setUns b).core q = s.core q := rfl

theorem carry_ltpos : (s.carry l p).ltpos = s.ltpos.set l (s.placeWord l p) := by
  simp only [State.carry, apply_ite State.ltpos, setUns_ltpos, State.modCore_ltpos, ite_self]

theorem carry_core : (s.carry l p).core q = (s.modCore p fun c => { c with desc := { c.desc with lt := BitVec.ofNat 7 l.val } }).core q := by
  simp only [State.carry, apply_ite (State.core · q), setUns_core, ite_self]
  rfl

theorem placeWord_die : (s.placeWord l p).die = some p := by
  simp only [State.placeWord, apply_ite LtPos.die, ite_self]

theorem carry_posOf : (s.carry l p).posOf l = some p := by
  simp [State.posOf, carry_ltpos, placeWord_die]

theorem carry_ltAt : (s.carry l p).ltAt p = some l :=
  ltAt_of_desc (by rw [carry_core, State.core_modCore])

variable {m q}

theorem carry_posOf_ne (h : m ≠ l) : (s.carry l p).posOf m = s.posOf m := by
  have hv : l.val ≠ m.val := fun e => h (Fin.ext e.symm)
  simp [State.posOf, carry_ltpos, hv]

theorem carry_ltAt_ne (h : q ≠ p) : (s.carry l p).ltAt q = s.ltAt q :=
  ltAt_of_core (by rw [carry_core, State.core_modCore_ne _ _ _ _ h])

end

/-- An LT without a die may be carried by any: no other die names it. -/
theorem carry_namesCarried {s : State} {l : Lt} (h : NamesCarried s) (hl : s.posOf l = none) (p : Pos) : NamesCarried (s.carry l p) := by
  intro q m hm
  by_cases hq : q = p
  · subst hq
    obtain rfl : l = m := Option.some.inj ((carry_ltAt s l q).symm.trans hm)
    exact carry_posOf s l q
  · rw [carry_ltAt_ne s l p hq] at hm
    have hpos := h q m hm
    have hne : m ≠ l := by rintro rfl; simp [hl] at hpos
    rw [carry_posOf_ne s l p hne, hpos]

/-! ### The passes of place() -/

theorem placeOne_cases (s : State) (l : Lt) : s.placeOne l = s ∨ ∃ p, s.placeOne l = s.carry l p := by
  simp only [State.placeOne]
  split_ifs
  · exact .inl rfl
  · exact .inr ⟨_, rfl⟩
  · exact .inr ⟨_, rfl⟩
  · exact .inr ⟨_, rfl⟩
  · exact .inl rfl

theorem borrowOne_cases (s : State) (l : Lt) : s.borrowOne l = s ∨ s.posOf l = none ∧ ∃ p, s.borrowOne l = s.carry l p := by
  simp only [State.borrowOne]
  split_ifs with hout
  · exact .inl rfl
  · obtain ⟨-, hnone⟩ : s.ltAbsent l = false ∧ s.posOf l = none := by simpa using hout
    exact .inr ⟨hnone, _, rfl⟩
  · exact .inl rfl

theorem placeOne_posOf_ne (s : State) {l m : Lt} (h : m ≠ l) : (s.placeOne l).posOf m = s.posOf m := by
  obtain hs | ⟨p, hs⟩ := placeOne_cases s l
  · rw [hs]
  · rw [hs, carry_posOf_ne s l p h]

theorem placeOne_namesCarried {s : State} {l : Lt} (h : NamesCarried s) (hl : s.posOf l = none) : NamesCarried (s.placeOne l) := by
  obtain hs | ⟨p, hs⟩ := placeOne_cases s l
  · rwa [hs]
  · rw [hs]; exact carry_namesCarried h hl p

theorem borrowOne_namesCarried {s : State} (h : NamesCarried s) (l : Lt) : NamesCarried (s.borrowOne l) := by
  obtain hs | ⟨hl, p, hs⟩ := borrowOne_cases s l
  · rwa [hs]
  · rw [hs]; exact carry_namesCarried h hl p

/-- The first pass meets each LT once, and before its turn the LT has no die. -/
theorem foldl_placeOne_namesCarried {ls : List Lt} (hd : ls.Nodup) {s : State} (h : NamesCarried s) (hn : ∀ l ∈ ls, s.posOf l = none) :
    NamesCarried (ls.foldl (fun s l => s.placeOne l) s) := by
  induction ls generalizing s with
  | nil => exact h
  | cons l ls ih =>
    obtain ⟨hl, hd⟩ := List.nodup_cons.mp hd
    refine ih hd (placeOne_namesCarried h (hn l (by simp))) fun m hm => ?_
    have hne : m ≠ l := fun e => hl (e ▸ hm)
    rw [placeOne_posOf_ne s hne, hn m (by simp [hm])]

theorem foldl_borrowOne_namesCarried (ls : List Lt) {s : State} (h : NamesCarried s) :
    NamesCarried (ls.foldl (fun s l => s.borrowOne l) s) :=
  List.foldlRecOn ls _ h fun _ ht l _ => borrowOne_namesCarried ht l

theorem foldl_modCore_ltpos (f : Core → Core) (ps : List Pos) (s : State) : (ps.foldl (fun s p => s.modCore p f) s).ltpos = s.ltpos :=
  List.foldlRecOn (motive := fun t => t.ltpos = s.ltpos) ps _ rfl fun t ht p _ => (State.modCore_ltpos t p f).trans ht

/-- What a change of a core establishes whatever the core was holds of every core of the list after it. -/
theorem foldl_modCore_core {P : Core → Prop} {f : Core → Core} (hf : ∀ c, P (f c)) {ps : List Pos} {p : Pos} (hp : p ∈ ps) (s : State) :
    P ((ps.foldl (fun s q => s.modCore q f) s).core p) := by
  induction ps using List.reverseRecOn with
  | nil => simp at hp
  | append_singleton ps q ih =>
    rw [List.foldl_append, List.foldl_cons, List.foldl_nil]
    by_cases hq : p = q
    · rw [hq, State.core_modCore]; exact hf _
    · rw [State.core_modCore_ne _ _ _ _ hq]
      exact ih (by simpa [hq] using hp)

/-- Before the first pass no LT has a die and no die names an LT. -/
def State.unplaced (s : State) : State :=
  allPos.foldl (fun (s : State) p => s.modCore p fun c => { c with desc := { c.desc with lt := 0x7F } })
    { s with ltpos := s.ltpos.map fun x => { x with die := none } }

theorem unplaced_posOf (s : State) (l : Lt) : s.unplaced.posOf l = none := by
  simp [State.posOf, State.unplaced, foldl_modCore_ltpos]

theorem unplaced_ltAt (s : State) (p : Pos) : s.unplaced.ltAt p = none := by
  have hp : p ∈ allPos := List.mem_finRange p
  refine ltAt_of_desc_none ?_
  rw [State.unplaced]
  exact foldl_modCore_core (P := fun c => c.desc.lt = 0x7F) (fun _ => rfl) hp _

theorem unplaced_namesCarried (s : State) : NamesCarried s.unplaced := fun p l h => by
  simp [unplaced_ltAt] at h

theorem logRec_namesCarried {s : State} (h : NamesCarried s) (n : Nat) (o : Origin) (d : List Nat) : NamesCarried (s.logRec n o d) := h

theorem place_namesCarried (s : State) : NamesCarried s.place := by
  have hhome : NamesCarried ((List.finRange 120).foldl (fun s l => s.placeOne l) s.unplaced) :=
    foldl_placeOne_namesCarried (List.nodup_finRange 120) (unplaced_namesCarried s) fun l _ => unplaced_posOf s l
  refine List.foldlRecOn _ _ (foldl_borrowOne_namesCarried (List.finRange 120) hhome) fun t ht l _ => ?_
  split
  · exact logRec_namesCarried ht _ _ _
  · exact ht

/-- Settles O58: homes by row and logical column, no home on a spare position, and no LT on a die to which placement gives none. -/
theorem homePositions : Obligations.HomePositions :=
  ⟨fun _ k _ hl => homeOf_row_col k.isLt hl, fun l p hp hl => by simp [← hl, isSpare_homeOf] at hp,
    fun _ s hp => ltAt_eq_none_of_namesCarried (place_namesCarried s) hp⟩

end Sys2Proof.Machine
end

section
/-! PROOFS. Pounds: the pound length (O57), quiet windows, beacons and stretch (O41). -/

namespace Sys2Proof.Machine

open Sys2Proof

/-! ### Folds over the state -/

section
variable {σ α β : Type} {f : σ → α → σ} {a : α} {l : List α}

/-- What one element's turn brings about, from what the turns before it keep, the turns after it keep. -/
theorem foldl_of_mem {P Q : σ → Prop} (ha : a ∈ l) (hit : ∀ s, P s → Q (f s a)) (hP : ∀ s, ∀ b ∈ l, P s → P (f s b))
    (hQ : ∀ s, ∀ b ∈ l, Q s → Q (f s b)) {s : σ} (h : P s) : Q (l.foldl f s) := by
  obtain ⟨l₁, l₂, rfl⟩ := List.append_of_mem ha
  rw [List.foldl_append, List.foldl_cons]
  refine List.foldlRecOn l₂ f (hit _ (List.foldlRecOn l₁ f h fun t ht b hb => hP t b (by simp [hb]) ht)) fun t ht b hb => hQ t b (by simp [hb]) ht

/-- The same where an element has one turn, and only the turns of the others keep both. -/
theorem foldl_of_mem_once {P Q : σ → Prop} (hd : l.Nodup) (ha : a ∈ l) (hit : ∀ s, P s → Q (f s a)) (hP : ∀ s b, b ≠ a → P s → P (f s b))
    (hQ : ∀ s b, b ≠ a → Q s → Q (f s b)) {s : σ} (h : P s) : Q (l.foldl f s) := by
  obtain ⟨l₁, l₂, rfl⟩ := List.append_of_mem ha
  have hne : ∀ b ∈ l₁ ++ l₂, b ≠ a := by
    rintro b hb rfl
    exact (List.nodup_middle.mp hd).notMem hb
  rw [List.foldl_append, List.foldl_cons]
  exact List.foldlRecOn l₂ f (hit _ (List.foldlRecOn l₁ f h fun t ht b hb => hP t b (hne b (by simp [hb])) ht))
    fun t ht b hb => hQ t b (hne b (by simp [hb])) ht

/-- A reading that one element's only turn changes by F, and the other turns leave. -/
theorem foldl_reads_once {g : σ → β} {F : β → β} (hd : l.Nodup) (ha : a ∈ l) (hit : ∀ s, g (f s a) = F (g s))
    (miss : ∀ s b, b ≠ a → g (f s b) = g s) (s : σ) : g (l.foldl f s) = F (g s) :=
  foldl_of_mem_once (P := fun t => g t = g s) (Q := fun t => g t = F (g s)) hd ha (fun t ht => by rw [hit, ht])
    (fun t b hb ht => by rw [miss t b hb, ht]) (fun t b hb ht => by rw [miss t b hb, ht]) rfl

/-- A reading that no turn changes. -/
theorem foldl_reads_same {g : σ → β} (h : ∀ s, ∀ b ∈ l, g (f s b) = g s) (s : σ) : g (l.foldl f s) = g s :=
  List.foldlRecOn (motive := fun t => g t = g s) l f rfl fun t ht b hb => (h t b hb).trans ht

/-- A preorder between states in which every turn stays. -/
theorem foldl_rel {R : σ → σ → Prop} (refl : ∀ s, R s s) (trans : ∀ {s t u}, R s t → R t u → R s u) (h : ∀ s a, R s (f s a)) (l : List α) (s : σ) :
    R s (l.foldl f s) :=
  List.foldlRecOn l f (refl s) fun _ ht a _ => trans ht (h _ a)

end

/-! ### Reading a tile -/

section
variable (s : State) (p q : Pos)

@[simp] theorem State.ut_allUts (f : Pos → UnderTile → UnderTile) : (s.allUts f).ut p = f p (s.ut p) := by
  simp [State.allUts, State.ut_eq]
theorem State.ut_modUt_ite (f : UnderTile → UnderTile) : (s.modUt p f).ut q = if q = p then f (s.ut q) else s.ut q := by
  split_ifs with h
  · rw [h, State.ut_modUt]
  · exact State.ut_modUt_ne s p q f h
@[simp] theorem vmod_get_same {n : Nat} {α : Type} (v : Vector α n) (i : Fin n) (f : α → α) : (vmod v i f)[i] = f v[i] := by
  simp [vmod]
theorem vmod_get_ne {n : Nat} {α : Type} (v : Vector α n) {i j : Fin n} (f : α → α) (h : j ≠ i) : (vmod v i f)[j] = v[j] := by
  have hv : i.val ≠ j.val := fun e => h (Fin.ext e.symm)
  simp [vmod, hv]

end

/-! ### The pound length (R33, R34) -/

section
variable {s : State} {v : BitVec 15}

theorem poundLen_of_inRange (lo : 20 ≤ v.toNat) (hi : v.toNat ≤ 20000) :
    s.poundLen v = { s with pcfg := { s.pcfg with next := v, err := .done, pend := v != s.pcfg.len } } := by
  simp [State.poundLen, Nat.not_lt.mpr lo, Nat.not_lt.mpr hi]

theorem poundLen_of_outOfRange (h : v.toNat < 20 ∨ 20000 < v.toNat) :
    s.poundLen v = { s with pcfg := { s.pcfg with err := .illegalDescriptor } } := by
  simp [State.poundLen, h]

/-- NEXT_LEN_US stands in bits 16 to 30 of the register. -/
theorem writeCanal_poundLen (w : Word) (o : Origin) (p : Path) : s.writeCanal 0x010000 w o p = s.poundLen (w.extractLsb' 16 15) := rfl

theorem exec_poundLenWrite : exec (.poundLenWrite v) s = .next (s.poundLen v) := rfl

end

/-- Settles O57: the write changes ERR alone, and a write of the register with that NEXT_LEN_US is the same write. -/
theorem poundLengthRefused : Obligations.PoundLengthRefused := by
  intro v w s h
  refine ⟨⟨_, exec_poundLenWrite, ?_⟩, fun hv o p => ?_⟩
  · rw [poundLen_of_outOfRange h]
    exact ⟨rfl, rfl, rfl, rfl, rfl⟩
  · rw [writeCanal_poundLen, hv, exec_poundLenWrite]

theorem poundLength_holds : Rules.PoundLength := by
  intro v t s
  refine ⟨fun lo hi => ?_, fun h => ?_, fun hp hs ht => ?_, fun h => ?_⟩
  · rw [exec_poundLenWrite, poundLen_of_inRange lo hi]
  · rw [exec_poundLenWrite, poundLen_of_outOfRange h]
  · simp [exec, execPoundLengthChange, hp, hs, ht]
  · rcases h with h | h | h <;> simp [exec, execPoundLengthChange, h]

/-! ### Quiet windows (R35, R51) -/

theorem inWindow_of_quiet {s : State} {p : Pos} (h : (s.ut p).flags.quiet = true) (k : Nat) (f : State → State) :
    s.inWindow p k f = f (s.run p (max (s.ut p).cycle ((s.ut p).tick + k))) := by
  simp [State.inWindow, h]
theorem inWindow_of_not_quiet {s : State} {p : Pos} (h : (s.ut p).flags.quiet = false) (k : Nat) (f : State → State) :
    s.inWindow p k f = s := by
  simp [State.inWindow, h]

/-- The crossings of a position recentre, its spare links with them. -/
def State.centred (s : State) (p : Pos) : State :=
  s.modUt p fun u => { u with
    xing := Vector.ofFn fun d : Fin 4 => u.xing[d].centre (latAt u.xlat[d] (s.bankStep (bankOf p))) (canalSeam p d.val) s.banksDiffer
    spareX := u.spareX.map fun x => x.centre x.lat false false }
/-- The seam in a direction of a position takes its pending map on the far side. -/
def State.takeSeam (p : Pos) (s : State) (d : Dir) : State :=
  match neighbour p d with
  | some q => s.modMesh q fun m => { m with seam := vmod m.seam (dirNum (opposite d)) SeamMap.take }
  | none => s

theorem exec_crossingRecentre (p : Pos) (s : State) :
    exec (.crossingRecentre p) s = .next (s.inWindow p 40 fun s => [Dir.n, Dir.e, Dir.s, Dir.w].foldl (State.takeSeam p) (s.centred p)) := rfl

theorem dirNum_injective : Function.Injective dirNum := by
  intro d d' h
  cases d <;> cases d' <;> simp_all [dirNum]
theorem opposite_opposite (d : Dir) : opposite (opposite d) = d := by cases d <;> rfl
theorem dirNum_ne {d d' : Dir} (h : d' ≠ d) : dirNum d ≠ dirNum d' := fun e => h (dirNum_injective e).symm
theorem opposite_ne {d d' : Dir} (h : d' ≠ d) : opposite d' ≠ opposite d := fun e => h (by
  rw [← opposite_opposite d', e, opposite_opposite])

section
variable {s : State} {p q : Pos} {d d' : Dir}

theorem takeSeam_of_some (h : neighbour p d = some q) :
    s.takeSeam p d = s.modMesh q fun m => { m with seam := vmod m.seam (dirNum (opposite d)) SeamMap.take } := by
  simp [State.takeSeam, h]
theorem takeSeam_of_none (h : neighbour p d = none) : s.takeSeam p d = s := by
  simp [State.takeSeam, h]

theorem takeSeam_seam (h : neighbour p d = some q) :
    ((s.takeSeam p d).ut q).mesh.seam[dirNum (opposite d)] = (s.ut q).mesh.seam[dirNum (opposite d)].take := by
  rw [takeSeam_of_some h, State.modMesh, State.ut_modUt]
  exact vmod_get_same _ _ _

/-- The map of another direction's seam stays, whichever tile holds it. -/
theorem takeSeam_seam_ne (h : d' ≠ d) :
    ((s.takeSeam p d').ut q).mesh.seam[dirNum (opposite d)] = (s.ut q).mesh.seam[dirNum (opposite d)] := by
  rcases hn : neighbour p d' with _ | x
  · rw [takeSeam_of_none hn]
  · rw [takeSeam_of_some hn, State.modMesh, State.ut_modUt_ite]
    split_ifs
    · exact vmod_get_ne _ _ (dirNum_ne (opposite_ne h))
    · rfl

/-- Taking a seam map leaves the crossings of every tile. -/
theorem takeSeam_crossings : ((s.takeSeam p d).ut q).xing = (s.ut q).xing ∧ ((s.takeSeam p d).ut q).spareX = (s.ut q).spareX := by
  rcases hn : neighbour p d with _ | x
  · rw [takeSeam_of_none hn]; exact ⟨rfl, rfl⟩
  · rw [takeSeam_of_some hn, State.modMesh, State.ut_modUt_ite]
    split_ifs <;> exact ⟨rfl, rfl⟩

theorem takeSeam_net : (s.takeSeam p d).net = s.net := by
  unfold State.takeSeam; split <;> rfl
theorem takeSeam_intake : (s.takeSeam p d).intake = s.intake := by
  unfold State.takeSeam; split <;> rfl

end

/-- The four directions, each once. -/
theorem dirs_nodup : [Dir.n, Dir.e, Dir.s, Dir.w].Nodup := by decide
theorem mem_dirs (d : Dir) : d ∈ [Dir.n, Dir.e, Dir.s, Dir.w] := by cases d <;> decide

theorem quietWindows_hold : Rules.QuietWindows := by
  intro p s at_
  refine ⟨fun h => ⟨?_, ?_⟩, fun h => ⟨?_, _, by rw [exec_crossingRecentre, inWindow_of_quiet h], fun d => ?_, fun i => ?_,
    fun d q hq => ?_, ?_, ?_⟩⟩
  · simp [exec, execQuietWindowRelease, inWindow_of_not_quiet h]
  · rw [exec_crossingRecentre, inWindow_of_not_quiet h]
  · simp [exec, execQuietWindowRelease, inWindow_of_quiet h, at_]
  · rw [foldl_reads_same (g := fun t : State => (t.ut p).xing) (fun t b _ => takeSeam_crossings.1)]
    simp [State.centred, at_]
  · rw [foldl_reads_same (g := fun t : State => (t.ut p).spareX) (fun t b _ => takeSeam_crossings.2)]
    simp [State.centred, at_]
  · rw [foldl_reads_once (g := fun t : State => (t.ut q).mesh.seam[dirNum (opposite d)]) (F := SeamMap.take) dirs_nodup (mem_dirs d)
      (fun t => takeSeam_seam hq) fun t b hb => takeSeam_seam_ne hb]
    rw [State.centred, State.ut_modUt_ite]
    split_ifs <;> rfl
  · rw [foldl_reads_same (g := fun t : State => t.net) (fun t b _ => takeSeam_net)]
    rfl
  · rw [foldl_reads_same (g := fun t : State => t.intake) (fun t b _ => takeSeam_intake)]
    rfl

/-! ### Beacons (R29, R30) -/

section
variable {s : State} {n : Nat} {q : AbortReq}

theorem report_of_live {r : StepRec} (h : s.stepNum q.step = some r) (hl : r.live = true) :
    s.report q = { s with aborts := s.aborts ++ [q] } := by
  simp [State.report, h, hl]

/-- A report changes the reported causes alone. -/
theorem report_eq (s : State) (q : AbortReq) : ∃ l, s.report q = { s with aborts := l } := by
  unfold State.report
  split
  · split_ifs
    · exact ⟨_, rfl⟩
    · exact ⟨s.aborts, rfl⟩
  · exact ⟨s.aborts, rfl⟩

theorem abortAt_eq (s : State) (p : Pos) (c : Cause) : ∃ l, s.abortAt p c = { s with aborts := l } := by
  unfold State.abortAt
  split
  · exact report_eq _ _
  · exact ⟨s.aborts, rfl⟩

theorem abortAt_of_live {p : Pos} {r : StepRec} (hr : s.stepAt p = some r) (hn : s.stepNum r.num = some r) (hl : r.live = true) (c : Cause) :
    s.abortAt p c = { s with aborts := s.aborts ++ [{ step := r.num, cause := c, lt := (s.core p).desc.lt, overrun := false }] } := by
  simp only [State.abortAt, hr, State.askAbort]
  exact report_of_live hn hl

theorem tellRepair_eq (s : State) (ev : RepairEvent) : ∃ k, s.tellRepair ev = { s with repair := k } := by
  unfold State.tellRepair
  split_ifs
  · exact ⟨s.repair, rfl⟩
  · exact ⟨_, rfl⟩

theorem tellRepair_reports (s : State) (ev : RepairEvent) : ev ∈ (s.tellRepair ev).repair.reports := by
  unfold State.tellRepair
  split_ifs with h
  · simpa using h
  · simp

end

theorem beacon_unsync (u : UnderTile) (north : Bool) (flight : Nat) :
    (u.beacon north flight).time.unsync = (u.time.unsync && !(decide (u.time.goodBeacons + 1 ≥ 4) && !u.clk.holdover)) := rfl

/-- The state that the loss of a beacon leaves before the step and the lock-houses are told. -/
def State.beaconLost (s : State) (p : Pos) (f : TileTime → TileTime) : State :=
  s.freeWord.2.modUt p fun u => { u with time := f { u.time with unsync := true, goodBeacons := 0 }, pound := { u.pound with unsync := true } }

section
variable (s : State) (p q : Pos) (f : TileTime → TileTime)

theorem beaconLost_stepAt : (s.beaconLost p f).stepAt q = s.stepAt q := by
  simp only [State.stepAt, State.ltAt, State.beaconLost, State.core_modUt]
  rfl

theorem unsynced_told : ∃ c, s.unsynced p f = ((s.beaconLost p f).abortAt p c).tellRepair (.unsynced p) := ⟨_, rfl⟩

/-- Telling the step and the lock-houses changes what they are told alone. -/
theorem unsynced_eq : ∃ l k, s.unsynced p f = { s.beaconLost p f with aborts := l, repair := k } := by
  obtain ⟨c, hc⟩ := unsynced_told s p f
  obtain ⟨l, hl⟩ := abortAt_eq (s.beaconLost p f) p c
  obtain ⟨k, hk⟩ := tellRepair_eq ((s.beaconLost p f).abortAt p c) (.unsynced p)
  exact ⟨l, k, by rw [hc, hk, hl]⟩

theorem unsynced_ut : (s.unsynced p f).ut q = (s.beaconLost p f).ut q := by
  obtain ⟨l, k, h⟩ := unsynced_eq s p f
  rw [h]; rfl

theorem unsynced_net : (s.unsynced p f).net = s.net := by
  obtain ⟨l, k, h⟩ := unsynced_eq s p f
  rw [h]; rfl

theorem unsynced_reports : RepairEvent.unsynced p ∈ (s.unsynced p f).repair.reports := tellRepair_reports _ _

variable {s p} in
theorem unsynced_aborts {r : StepRec} (hr : s.stepAt p = some r) (hn : s.stepNum r.num = some r) (hl : r.live = true) :
    ∃ a ∈ (s.unsynced p f).aborts, a.step = r.num ∧ a.lt = (s.core p).desc.lt := by
  obtain ⟨c, hc⟩ := unsynced_told s p f
  obtain ⟨k, hk⟩ := tellRepair_eq ((s.beaconLost p f).abortAt p c) (.unsynced p)
  have hlost : (s.beaconLost p f).stepAt p = some r := by rw [beaconLost_stepAt, hr]
  rw [hc, hk, abortAt_of_live hlost hn hl]
  refine ⟨_, List.mem_append_right _ (List.mem_singleton_self _), rfl, ?_⟩
  rw [State.beaconLost, State.core_modUt]
  rfl

end

theorem beacons_hold : Rules.Beacons := by
  intro t p loss s
  refine ⟨rfl, fun u north flight => ⟨rfl, rfl, fun hg hh => ?_, fun h => ?_⟩, _, rfl, ?_, ?_, fun hl => ?_, fun hl => ?_, unsynced_reports _ _ _,
    fun r hr hn hl => unsynced_aborts (s := s.at_ t) _ hr hn hl, fun q hq => ?_, unsynced_net _ _ _⟩
  · simp [beacon_unsync, hg, hh]
  · have hwait : (decide (u.time.goodBeacons + 1 ≥ 4) && !u.clk.holdover) = false := by
      rcases h with h | h
      · simp [Nat.not_le.mpr h]
      · simp [h]
    rw [beacon_unsync, hwait]
    simp
  · simp [unsynced_ut, State.beaconLost, apply_ite TileTime.unsync]
  · simp [unsynced_ut, State.beaconLost, apply_ite TileTime.goodBeacons]
  · simp [unsynced_ut, State.beaconLost, hl]
  · simp [unsynced_ut, State.beaconLost, hl]
  · rw [unsynced_ut, State.beaconLost, State.ut_modUt_ne _ _ _ _ hq]
    rfl

/-! ### Stretch and drift (R339, R37, R50) -/

/-- Two states agree outside the crossings and the SLIP marks of their under-tiles, on what stretch leaves alone. -/
structure OnlyCrossings (s t : State) : Prop where
  ut : ∀ x, ∃ xs ys b, t.ut x = { s.ut x with xing := xs, spareX := ys, pound := { (s.ut x).pound with slip := b } }
  net : t.net = s.net
  intake : t.intake = s.intake

section
variable {s t u : State} {p q x : Pos} {d : Fin 4} {i : Fin 5}

theorem OnlyCrossings.refl (s : State) : OnlyCrossings s s := ⟨fun _ => ⟨_, _, _, rfl⟩, rfl, rfl⟩

theorem OnlyCrossings.trans (a : OnlyCrossings s t) (b : OnlyCrossings t u) : OnlyCrossings s u := by
  refine ⟨fun x => ?_, b.net.trans a.net, b.intake.trans a.intake⟩
  obtain ⟨xs, ys, m, ha⟩ := a.ut x
  obtain ⟨xs', ys', m', hb⟩ := b.ut x
  exact ⟨xs', ys', m', by rw [hb, ha]⟩

theorem OnlyCrossings.modUt (s : State) (p : Pos) {f : UnderTile → UnderTile}
    (hf : ∀ u, ∃ xs ys b, f u = { u with xing := xs, spareX := ys, pound := { u.pound with slip := b } }) : OnlyCrossings s (s.modUt p f) := by
  refine ⟨fun x => ?_, rfl, rfl⟩
  rw [State.ut_modUt_ite]
  split_ifs
  · exact hf _
  · exact ⟨_, _, _, rfl⟩

theorem OnlyCrossings.pwr (h : OnlyCrossings s t) (x : Pos) : (t.ut x).pwr = (s.ut x).pwr := by
  obtain ⟨_, _, _, hx⟩ := h.ut x
  rw [hx]
theorem OnlyCrossings.stretchQ (h : OnlyCrossings s t) (x : Pos) : (t.ut x).pound.stretchQ = (s.ut x).pound.stretchQ := by
  obtain ⟨_, _, _, hx⟩ := h.ut x
  rw [hx]

end

section
variable (s : State) (p q x : Pos)

def UnderTile.markSlip (u : UnderTile) : UnderTile := { u with pound := { u.pound with slip := true } }
/-- A step in a TIMED pound at a SLIP is aborted (R52). -/
def State.timedSlip (s : State) (x : Pos) : State :=
  match s.stepAt x with
  | some r => if r.phase == .running && (r.man.ent r.poundIdx).timed then s.abortAt x (.status .timingUnsafe_) else s
  | none => s

theorem timedSlip_eq : ∃ l, s.timedSlip x = { s with aborts := l } := by
  unfold State.timedSlip
  split
  · split_ifs
    · exact abortAt_eq _ _ _
    · exact ⟨s.aborts, rfl⟩
  · exact ⟨s.aborts, rfl⟩

theorem slipNoted_eq : ∃ l, s.slipNoted p q = { (s.modUt p UnderTile.markSlip).modUt q UnderTile.markSlip with aborts := l } := by
  have h : s.slipNoted p q = (((s.modUt p UnderTile.markSlip).modUt q UnderTile.markSlip).timedSlip p).timedSlip q := rfl
  obtain ⟨l, hl⟩ := timedSlip_eq ((s.modUt p UnderTile.markSlip).modUt q UnderTile.markSlip) p
  obtain ⟨l', hl'⟩ := timedSlip_eq (((s.modUt p UnderTile.markSlip).modUt q UnderTile.markSlip).timedSlip p) q
  exact ⟨l', by rw [h, hl', hl]⟩

theorem slipNoted_ut : ∃ b, (s.slipNoted p q).ut x = { s.ut x with pound := { (s.ut x).pound with slip := b } } := by
  obtain ⟨l, hl⟩ := slipNoted_eq s p q
  have h : (s.slipNoted p q).ut x = ((s.modUt p UnderTile.markSlip).modUt q UnderTile.markSlip).ut x := by rw [hl]; rfl
  rw [h, State.ut_modUt_ite, State.ut_modUt_ite]
  split_ifs <;> exact ⟨_, rfl⟩

theorem slipNoted_onlyCrossings : OnlyCrossings s (s.slipNoted p q) := by
  obtain ⟨l, hl⟩ := slipNoted_eq s p q
  refine ⟨fun x => ?_, by rw [hl]; rfl, by rw [hl]; rfl⟩
  obtain ⟨b, hb⟩ := slipNoted_ut s p q x
  exact ⟨_, _, b, hb⟩

theorem slipNoted_xing : ((s.slipNoted p q).ut x).xing = (s.ut x).xing := by
  obtain ⟨b, hb⟩ := slipNoted_ut s p q x
  rw [hb]
theorem slipNoted_spareX : ((s.slipNoted p q).ut x).spareX = (s.ut x).spareX := by
  obtain ⟨b, hb⟩ := slipNoted_ut s p q x
  rw [hb]

end

/-- Drift of a crossing by k, which changes no other crossing of the vector. -/
theorem vmod_driftQ {n : Nat} (v : Vector Xing n) (i j : Fin n) {f : Xing → Xing} {k : Int} (hf : ∀ x, (f x).driftQ = x.driftQ + k) :
    (vmod v i f)[j].driftQ = v[j].driftQ + if j = i then k else 0 := by
  split_ifs with h
  · rw [h, vmod_get_same, hf]
  · rw [vmod_get_ne v f h, Int.add_zero]

/-- What a change at one position brings to the crossings there: the change of the vector by `vmod`. -/
theorem modUt_xing_driftQ (s : State) (p x : Pos) (d e : Fin 4) {f : Xing → Xing} {k : Int} (hf : ∀ y, (f y).driftQ = y.driftQ + k) :
    ((s.modUt p fun u => { u with xing := vmod u.xing d f }).ut x).xing[e].driftQ = (s.ut x).xing[e].driftQ + if x = p ∧ e = d then k else 0 := by
  rw [State.ut_modUt_ite]
  by_cases hx : x = p
  · rw [if_pos hx]
    simpa [hx] using vmod_driftQ (s.ut x).xing d e hf
  · simp [hx]
theorem modUt_spareX_driftQ (s : State) (p x : Pos) (i j : Fin 5) {f : Xing → Xing} {k : Int} (hf : ∀ y, (f y).driftQ = y.driftQ + k) :
    ((s.modUt p fun u => { u with spareX := vmod u.spareX i f }).ut x).spareX[j].driftQ =
      (s.ut x).spareX[j].driftQ + if x = p ∧ j = i then k else 0 := by
  rw [State.ut_modUt_ite]
  by_cases hx : x = p
  · rw [if_pos hx]
    simpa [hx] using vmod_driftQ (s.ut x).spareX i j hf
  · simp [hx]

section
variable (s : State) (p x : Pos) (d e : Fin 4) (i j : Fin 5) (k : Int)

theorem slip_onlyCrossings : OnlyCrossings s (s.slip p d) :=
  (OnlyCrossings.modUt s p (f := fun u => { u with xing := vmod u.xing d Xing.slip }) fun _ => ⟨_, _, _, rfl⟩).trans (slipNoted_onlyCrossings _ _ _)
theorem slip_driftQ : ((s.slip p d).ut x).xing[e].driftQ = (s.ut x).xing[e].driftQ := by
  rw [State.slip, slipNoted_xing, modUt_xing_driftQ s p x d e (f := Xing.slip) (k := 0) fun _ => (Int.add_zero _).symm]
  simp
theorem slip_spareX : ((s.slip p d).ut x).spareX = (s.ut x).spareX := by
  rw [State.slip, slipNoted_spareX, State.ut_modUt_ite]
  split_ifs <;> rfl

theorem slipSpare_onlyCrossings : OnlyCrossings s (s.slipSpare p i) :=
  (OnlyCrossings.modUt s p (f := fun u => { u with spareX := vmod u.spareX i Xing.slip }) fun _ => ⟨_, _, _, rfl⟩).trans (slipNoted_onlyCrossings _ _ _)
theorem slipSpare_driftQ : ((s.slipSpare p i).ut x).spareX[j].driftQ = (s.ut x).spareX[j].driftQ := by
  rw [State.slipSpare, slipNoted_spareX, modUt_spareX_driftQ s p x i j (f := Xing.slip) (k := 0) fun _ => (Int.add_zero _).symm]
  simp
theorem slipSpare_xing : ((s.slipSpare p i).ut x).xing = (s.ut x).xing := by
  rw [State.slipSpare, slipNoted_xing, State.ut_modUt_ite]
  split_ifs <;> rfl

/-- The crossing's drift is counted; past three periods SLIP is raised there. -/
def State.drifted (s : State) (p : Pos) (d : Fin 4) (k : Int) : State :=
  s.modUt p fun u => { u with xing := vmod u.xing d fun x => { x with driftQ := x.driftQ + k } }
def State.driftedSpare (s : State) (p : Pos) (i : Fin 5) (k : Int) : State :=
  s.modUt p fun u => { u with spareX := vmod u.spareX i fun x => { x with driftQ := x.driftQ + k } }

theorem drift_cases : s.drift p d k = s.drifted p d k ∨ s.drift p d k = (s.drifted p d k).slip p d := by
  unfold State.drift
  dsimp only
  split_ifs
  · exact .inr rfl
  · exact .inl rfl
theorem driftSpare_cases : s.driftSpare p i k = s.driftedSpare p i k ∨ s.driftSpare p i k = (s.driftedSpare p i k).slipSpare p i := by
  unfold State.driftSpare
  dsimp only
  split_ifs
  · exact .inr rfl
  · exact .inl rfl

theorem drift_onlyCrossings : OnlyCrossings s (s.drift p d k) := by
  have h : OnlyCrossings s (s.drifted p d k) := OnlyCrossings.modUt s p fun _ => ⟨_, _, _, rfl⟩
  rcases drift_cases s p d k with hd | hd <;> rw [hd]
  · exact h
  · exact h.trans (slip_onlyCrossings _ _ _)
theorem drift_driftQ : ((s.drift p d k).ut x).xing[e].driftQ = (s.ut x).xing[e].driftQ + if x = p ∧ e = d then k else 0 := by
  have h : ((s.drifted p d k).ut x).xing[e].driftQ = (s.ut x).xing[e].driftQ + if x = p ∧ e = d then k else 0 :=
    modUt_xing_driftQ s p x d e fun _ => rfl
  rcases drift_cases s p d k with hd | hd <;> rw [hd]
  · exact h
  · rw [slip_driftQ, h]
theorem drift_spareX : ((s.drift p d k).ut x).spareX = (s.ut x).spareX := by
  have h : ((s.drifted p d k).ut x).spareX = (s.ut x).spareX := by
    rw [State.drifted, State.ut_modUt_ite]
    split_ifs <;> rfl
  rcases drift_cases s p d k with hd | hd <;> rw [hd]
  · exact h
  · rw [slip_spareX, h]

theorem driftSpare_onlyCrossings : OnlyCrossings s (s.driftSpare p i k) := by
  have h : OnlyCrossings s (s.driftedSpare p i k) := OnlyCrossings.modUt s p fun _ => ⟨_, _, _, rfl⟩
  rcases driftSpare_cases s p i k with hd | hd <;> rw [hd]
  · exact h
  · exact h.trans (slipSpare_onlyCrossings _ _ _)
theorem driftSpare_driftQ : ((s.driftSpare p i k).ut x).spareX[j].driftQ = (s.ut x).spareX[j].driftQ + if x = p ∧ j = i then k else 0 := by
  have h : ((s.driftedSpare p i k).ut x).spareX[j].driftQ = (s.ut x).spareX[j].driftQ + if x = p ∧ j = i then k else 0 :=
    modUt_spareX_driftQ s p x i j fun _ => rfl
  rcases driftSpare_cases s p i k with hd | hd <;> rw [hd]
  · exact h
  · rw [slipSpare_driftQ, h]
theorem driftSpare_xing : ((s.driftSpare p i k).ut x).xing = (s.ut x).xing := by
  have h : ((s.driftedSpare p i k).ut x).xing = (s.ut x).xing := by
    rw [State.driftedSpare, State.ut_modUt_ite]
    split_ifs <;> rfl
  rcases driftSpare_cases s p i k with hd | hd <;> rw [hd]
  · exact h
  · rw [slipSpare_xing, h]

end

theorem mkPos_ne {p : Pos} {r c : Nat} (hr : r < 12) (hc : c < 12) (h : r ≠ rowOf p ∨ c ≠ colOf p) : mkPos r c ≠ p := by
  rintro rfl
  simp only [mkPos, rowOf, colOf, Fin.val_ofNat] at h
  omega

theorem neighbour_ne (p : Pos) (d : Dir) : neighbour p d ≠ some p := by
  have hr : rowOf p < 12 := by simp only [rowOf]; omega
  have hc : colOf p < 12 := by simp only [colOf]; omega
  intro h
  cases d <;> simp only [neighbour, Option.ite_none_left_eq_some, Option.some.injEq] at h <;> obtain ⟨hedge, h⟩ := h
  · exact mkPos_ne (by omega) hc (.inl (by omega)) h
  · exact mkPos_ne hr (by omega) (.inr (by omega)) h
  · exact mkPos_ne (by omega) hc (.inl (by omega)) h
  · exact mkPos_ne hr (by omega) (.inr (by omega)) h

/-- The crossings on both sides of a seam drift apart by q quarter-periods. -/
def State.driftSeam (p : Pos) (q : Nat) (s : State) (d : Dir) : State :=
  match neighbour p d with
  | some x => (s.drift p (dirNum d) q).drift x (dirNum (opposite d)) (-q)
  | none => s

section
variable {p x : Pos} {d d' : Dir} (q : Nat) (s : State)

theorem driftSeam_onlyCrossings : OnlyCrossings s (s.driftSeam p q d) := by
  unfold State.driftSeam
  split
  · exact (drift_onlyCrossings _ _ _ _).trans (drift_onlyCrossings _ _ _ _)
  · exact OnlyCrossings.refl s
theorem driftSeam_spareX : ((s.driftSeam p q d).ut x).spareX = (s.ut x).spareX := by
  unfold State.driftSeam
  split
  · rw [drift_spareX, drift_spareX]
  · rfl

theorem driftSeam_driftQ {y : Pos} {e : Fin 4} (h : neighbour p d = some y) : ((s.driftSeam p q d).ut x).xing[e].driftQ =
    (s.ut x).xing[e].driftQ + (if x = p ∧ e = dirNum d then (q : Int) else 0) + if x = y ∧ e = dirNum (opposite d) then (-q : Int) else 0 := by
  have hd : s.driftSeam p q d = (s.drift p (dirNum d) q).drift y (dirNum (opposite d)) (-q) := by simp [State.driftSeam, h]
  rw [hd, drift_driftQ, drift_driftQ]

theorem driftSeam_near (h : neighbour p d = some x) :
    ((s.driftSeam p q d).ut p).xing[dirNum d].driftQ = (s.ut p).xing[dirNum d].driftQ + q := by
  have hx : p ≠ x := fun e => neighbour_ne p d (e ▸ h)
  rw [driftSeam_driftQ q s h]
  simp [hx]
theorem driftSeam_far (h : neighbour p d = some x) :
    ((s.driftSeam p q d).ut x).xing[dirNum (opposite d)].driftQ = (s.ut x).xing[dirNum (opposite d)].driftQ - q := by
  have hx : x ≠ p := fun e => neighbour_ne p d (e ▸ h)
  rw [driftSeam_driftQ q s h]
  simp [hx, Int.sub_eq_add_neg]

theorem driftSeam_near_ne (h : d' ≠ d) : ((s.driftSeam p q d').ut p).xing[dirNum d].driftQ = (s.ut p).xing[dirNum d].driftQ := by
  rcases hn : neighbour p d' with _ | y
  · simp [State.driftSeam, hn]
  · have hy : p ≠ y := fun e => neighbour_ne p d' (e ▸ hn)
    rw [driftSeam_driftQ q s hn]
    simp [hy, dirNum_ne h]
theorem driftSeam_far_ne (hx : neighbour p d = some x) (h : d' ≠ d) :
    ((s.driftSeam p q d').ut x).xing[dirNum (opposite d)].driftQ = (s.ut x).xing[dirNum (opposite d)].driftQ := by
  rcases hn : neighbour p d' with _ | y
  · simp [State.driftSeam, hn]
  · have hp : x ≠ p := fun e => neighbour_ne p d (e ▸ hx)
    rw [driftSeam_driftQ q s hn]
    simp [hp, dirNum_ne (opposite_ne h)]

end

/-- A spare link of a position drifts with the stretch of the position, against that of the spare at its other end. -/
def State.driftLink (p : Pos) (q : Nat) (s : State) (l : Pos × Fin 5) : State := s.driftSpare l.1 l.2 (if l.1 = p then q else -q)

section
variable (p : Pos) (q : Nat) (s : State) {l m : Pos × Fin 5}

theorem driftLink_driftQ : ((s.driftLink p q l).ut l.1).spareX[l.2].driftQ =
    (s.ut l.1).spareX[l.2].driftQ + if l.1 = p then (q : Int) else -q := by
  rw [State.driftLink, driftSpare_driftQ, if_pos ⟨rfl, rfl⟩]
theorem driftLink_driftQ_ne (h : m ≠ l) : ((s.driftLink p q m).ut l.1).spareX[l.2].driftQ = (s.ut l.1).spareX[l.2].driftQ := by
  rw [State.driftLink, driftSpare_driftQ, if_neg fun e => h (Prod.ext e.1 e.2).symm, Int.add_zero]

end

theorem spareLinks_nodup (p : Pos) : (spareLinks p).Nodup := by
  unfold spareLinks
  split_ifs
  · exact (List.nodup_finRange 5).map fun i j h => (Prod.mk.inj h).2
  · exact ((List.nodup_finRange 5).filter _).map fun i j h => (Prod.mk.inj h).2

/-- The state after the crossings and the spare links have drifted with a stretch. -/
def State.stretchDrift (s : State) (p : Pos) (q : Nat) : State :=
  (spareLinks p).foldl (State.driftLink p q) ([Dir.n, Dir.e, Dir.s, Dir.w].foldl (State.driftSeam p q) s)

/-- The reading of the lowest sensor is noted. -/
def State.voltsNoted (s : State) (p : Pos) (mv : Nat) : State :=
  s.freeWord.2.modUt p fun u => { u with pwr := { u.pwr with minMv := BitVec.ofNat 10 mv, minIdx := s.freeWord.1.extractLsb' 0 4 } }
/-- A reading has fallen below the target, unless the reading before it was there already (R339). -/
def Regulator.falls (r : Regulator) : Bool := r.minMv = 0 || decide (r.targetMv.toNat ≤ r.minMv.toNat + 20)
/-- The clock is stretched by q quarter-periods. -/
def State.stretched (s : State) (p : Pos) (falls : Bool) (q : Nat) : State :=
  s.modUt p fun u => { u with
    pwr := { u.pwr with droop := if falls then u.pwr.droop + 1 else u.pwr.droop }, pound := { u.pound with stretchQ := satAdd u.pound.stretchQ q } }

section
variable {s : State} {p : Pos} {mv : Nat} {q : Fin 4}

theorem exec_droopStretch_of_reached (h : (s.ut p).pwr.targetMv.toNat ≤ mv + 20) : exec (.droopStretch p mv q) s = .next (s.voltsNoted p mv) := by
  simp only [exec, execDroopStretch, if_pos h]
  rfl
theorem exec_droopStretch_of_below (h : mv + 20 < (s.ut p).pwr.targetMv.toNat) : exec (.droopStretch p mv q) s = .next
    (((s.voltsNoted p mv).stretched p (s.ut p).pwr.falls (q.val + 1)).stretchDrift p (q.val + 1)) := by
  simp only [exec, execDroopStretch, if_neg (Nat.not_le.mpr h)]
  rfl

end

section
variable (s : State) (p x : Pos) (q : Nat)

theorem stretchDrift_onlyCrossings : OnlyCrossings s (s.stretchDrift p q) :=
  OnlyCrossings.trans (foldl_rel (R := OnlyCrossings) .refl .trans (fun _ _ => driftSeam_onlyCrossings _ _) [Dir.n, Dir.e, Dir.s, Dir.w] s)
    (foldl_rel (R := OnlyCrossings) .refl .trans (fun _ _ => driftSpare_onlyCrossings _ _ _ _) (spareLinks p) _)

/-- Spare links leave the crossings that the seams' drift has moved. -/
theorem stretchDrift_xing : ((s.stretchDrift p q).ut x).xing = (([Dir.n, Dir.e, Dir.s, Dir.w].foldl (State.driftSeam p q) s).ut x).xing :=
  foldl_reads_same (g := fun t : State => (t.ut x).xing) (fun _ _ _ => driftSpare_xing _ _ _ _ _) _

variable {p x} in
theorem stretchDrift_near {d : Dir} (h : neighbour p d = some x) :
    ((s.stretchDrift p q).ut p).xing[dirNum d].driftQ = (s.ut p).xing[dirNum d].driftQ + q := by
  rw [stretchDrift_xing]
  exact foldl_reads_once (g := fun t : State => (t.ut p).xing[dirNum d].driftQ) (F := (· + (q : Int))) dirs_nodup (mem_dirs d)
    (fun t => driftSeam_near q t h) (fun t _ hb => driftSeam_near_ne q t hb) s
variable {p x} in
theorem stretchDrift_far {d : Dir} (h : neighbour p d = some x) :
    ((s.stretchDrift p q).ut x).xing[dirNum (opposite d)].driftQ = (s.ut x).xing[dirNum (opposite d)].driftQ - q := by
  rw [stretchDrift_xing]
  exact foldl_reads_once (g := fun t : State => (t.ut x).xing[dirNum (opposite d)].driftQ) (F := (· - (q : Int))) dirs_nodup (mem_dirs d)
    (fun t => driftSeam_far q t h) (fun t _ hb => driftSeam_far_ne q t h hb) s

variable {p} in
theorem stretchDrift_spare {l : Pos × Fin 5} (h : l ∈ spareLinks p) : ((s.stretchDrift p q).ut l.1).spareX[l.2].driftQ =
    (s.ut l.1).spareX[l.2].driftQ + if l.1 = p then (q : Int) else -q := by
  rw [State.stretchDrift, foldl_reads_once (g := fun t : State => (t.ut l.1).spareX[l.2].driftQ) (F := (· + if l.1 = p then (q : Int) else -q))
    (spareLinks_nodup p) h (fun t => driftLink_driftQ p q t) fun t _ hb => driftLink_driftQ_ne p q t hb]
  rw [foldl_reads_same (g := fun t : State => (t.ut l.1).spareX) fun _ _ _ => driftSeam_spareX _ _]

end

/-- Noting a reading and stretching the clock leave the crossings of every tile. -/
theorem stretched_crossings (s : State) (p x : Pos) (mv q : Nat) (b : Bool) : (((s.voltsNoted p mv).stretched p b q).ut x).xing = (s.ut x).xing ∧
    (((s.voltsNoted p mv).stretched p b q).ut x).spareX = (s.ut x).spareX := by
  rw [State.stretched, State.ut_modUt_ite, State.voltsNoted, State.ut_modUt_ite]
  split_ifs <;> exact ⟨rfl, rfl⟩

theorem stretched_pwr (s : State) (p : Pos) (mv q : Nat) (b : Bool) : (((s.voltsNoted p mv).stretched p b q).ut p).pwr.minMv = BitVec.ofNat 10 mv ∧
    (((s.voltsNoted p mv).stretched p b q).ut p).pwr.droop = (if b then (s.ut p).pwr.droop + 1 else (s.ut p).pwr.droop) ∧
    (((s.voltsNoted p mv).stretched p b q).ut p).pound.stretchQ = satAdd (s.ut p).pound.stretchQ q := by
  rw [State.stretched, State.ut_modUt, State.voltsNoted, State.ut_modUt]
  exact ⟨rfl, rfl, rfl⟩

theorem droopStretch_holds : Rules.DroopStretch := by
  intro p mv q s r
  by_cases h : r.targetMv.toNat ≤ mv + 20
  · refine ⟨_, exec_droopStretch_of_reached h, ?_, fun _ => ?_, fun hlt => absurd h (Nat.not_le.mpr hlt), rfl, rfl⟩
    · simp [State.voltsNoted]
    · simp only [State.voltsNoted, State.ut_modUt]
      exact ⟨rfl, rfl⟩
  · obtain ⟨hmv, hdroop, hstretch⟩ := stretched_pwr s p mv (q.val + 1) r.falls
    have hcross := fun x => stretched_crossings s p x mv (q.val + 1) r.falls
    have hkept := stretchDrift_onlyCrossings ((s.voltsNoted p mv).stretched p r.falls (q.val + 1)) p (q.val + 1)
    refine ⟨_, exec_droopStretch_of_below (Nat.not_le.mp h), ?_, fun hle => absurd hle h,
      fun _ => ⟨fun hf => ?_, fun hz hlow => ?_, ?_, fun d x hx => ⟨?_, ?_⟩, fun l hl => ?_⟩, hkept.net, hkept.intake⟩
    · exact (congrArg Regulator.minMv (hkept.pwr p)).trans hmv
    · have hfalls : r.falls = true := by simpa [Regulator.falls] using hf
      exact (congrArg Regulator.droop (hkept.pwr p)).trans (by rw [hdroop, if_pos hfalls])
    · have hstays : ¬ r.falls = true := by simpa [Regulator.falls, hlow] using hz
      exact (congrArg Regulator.droop (hkept.pwr p)).trans (by rw [hdroop, if_neg hstays])
    · exact (hkept.stretchQ p).trans hstretch
    · exact (stretchDrift_near _ _ hx).trans (by rw [(hcross p).1])
    · exact (stretchDrift_far _ _ hx).trans (by rw [(hcross x).1])
    · exact (stretchDrift_spare _ _ hl).trans (by rw [(hcross l.1).2])

/-- Settles O41: quiet windows, the pound length, beacons, and stretch with the drift it brings. -/
theorem poundEvents : Obligations.PoundEvents := ⟨quietWindows_hold, poundLength_holds, beacons_hold, droopStretch_holds⟩

end Sys2Proof.Machine
end

section
/-! PROOFS. Step aborts (O36): what an abort resets at each tile, what LH-C notes of it, what the core does, and what comes before a replay. -/

namespace Sys2Proof.Machine

open Sys2Proof

/-! ### What the reset of a berth leaves alone -/

/-- The second state is the first with other packets in flight. -/
def OnlyNet (s t : State) : Prop := ∃ ns n, t = { s with net := ns, nextPkt := n }
/-- The second state is the first with other tiles and other packets in flight. -/
def OnlyTilesAndNet (s t : State) : Prop := ∃ ts ns n, t = { s with tiles := ts, net := ns, nextPkt := n }
/-- Every under-tile is as in the first state, but for its berths. -/
def OnlyBerths (s t : State) : Prop := ∀ q, ∃ bs, t.ut q = { s.ut q with berths := bs }

section
variable {s t u : State}

theorem OnlyNet.refl (s : State) : OnlyNet s s := ⟨s.net, s.nextPkt, rfl⟩
theorem OnlyNet.trans (a : OnlyNet s t) (b : OnlyNet t u) : OnlyNet s u := by
  obtain ⟨_, _, rfl⟩ := a
  obtain ⟨_, _, rfl⟩ := b
  exact ⟨_, _, rfl⟩

theorem OnlyTilesAndNet.refl (s : State) : OnlyTilesAndNet s s := ⟨s.tiles, s.net, s.nextPkt, rfl⟩
theorem OnlyTilesAndNet.trans (a : OnlyTilesAndNet s t) (b : OnlyTilesAndNet t u) : OnlyTilesAndNet s u := by
  obtain ⟨_, _, _, rfl⟩ := a
  obtain ⟨_, _, _, rfl⟩ := b
  exact ⟨_, _, _, rfl⟩
theorem OnlyTilesAndNet.modTile (s : State) (p : Pos) (f : Tile → Tile) : OnlyTilesAndNet s (s.modTile p f) := ⟨_, s.net, s.nextPkt, rfl⟩

theorem OnlyBerths.refl (s : State) : OnlyBerths s s := fun q => ⟨(s.ut q).berths, rfl⟩
theorem OnlyBerths.trans (a : OnlyBerths s t) (b : OnlyBerths t u) : OnlyBerths s u := by
  intro q
  obtain ⟨_, ha⟩ := a q
  obtain ⟨_, hb⟩ := b q
  exact ⟨_, by rw [hb, ha]⟩

end

section
variable (s : State) (p q : Pos) (k j : Fin 64)

theorem emitAll_onlyNet (l : List Packet) : OnlyNet s (s.emitAll l) := foldl_rel (R := OnlyNet) .refl .trans (fun _ _ => ⟨_, _, rfl⟩) l s

theorem answerContrib_onlyNet (c : Contrib) (st : Status) : OnlyNet s (s.answerContrib p c st) := by
  unfold State.answerContrib
  split
  · exact OnlyNet.trans ⟨_, s.nextPkt, rfl⟩ (emitAll_onlyNet (s.dropPacket _) _)
  · exact OnlyNet.refl s

/-- The barges of a berth that have not landed: in its entries, strays, and those that an overtaken close waits for. -/
def Berth.unlanded (b : Berth) : List Contrib :=
  b.queue.flatMap (fun e => e.landing) ++ (b.strays.map fun x => x.2.1) ++ b.leaving.flatMap fun l => l.2.map fun x => x.2.1
/-- A berth closed and empty, with the next generation (R216). -/
def Berth.emptied (b : Berth) : Berth :=
  { b with
    open_ := false, gen := b.gen + 1, head := 0, tail := 0, queue := [], groups := [], retired := [], strays := [], opening := none
    closing := none, closeAt := none, leaving := [] }

theorem berthReset_eq : s.berthReset p k =
    ((((s.berth p k).unlanded.foldl (fun (s : State) c => s.answerContrib p c .staleGeneration) s).modBerth p k Berth.emptied).modCore p
      fun c => c.dropRing k (s.ut p).cycle 0 (2 ^ 27)).dropInvocations p k := rfl

theorem answered_onlyNet (cs : List Contrib) : OnlyNet s (cs.foldl (fun (s : State) c => s.answerContrib p c .staleGeneration) s) :=
  foldl_rel (R := OnlyNet) .refl .trans (fun _ _ => answerContrib_onlyNet _ _ _ _) cs s

theorem berthReset_onlyTilesAndNet : OnlyTilesAndNet s (s.berthReset p k) := by
  obtain ⟨ns, n, h⟩ := answered_onlyNet s p (s.berth p k).unlanded
  rw [berthReset_eq, h]
  exact ⟨_, ns, n, rfl⟩

theorem berthReset_ut : (s.berthReset p k).ut q = if q = p then (s.ut q).modBerth k Berth.emptied else s.ut q := by
  obtain ⟨ns, n, h⟩ := answered_onlyNet s p (s.berth p k).unlanded
  rw [berthReset_eq, h, State.dropInvocations, State.modCtl, State.ut_modCore, State.ut_modCore, State.modBerth, State.ut_modUt_ite]
  rfl

theorem berthReset_berth : (s.berthReset p k).berth p k = (s.berth p k).emptied := by
  rw [State.berth, berthReset_ut, if_pos rfl]
  exact vmod_get_same _ _ _
theorem berthReset_berth_ne (h : k ≠ j) : (s.berthReset p k).berth p j = s.berth p j := by
  rw [State.berth, berthReset_ut, if_pos rfl]
  exact vmod_get_ne _ _ h.symm

theorem berthReset_onlyBerths : OnlyBerths s (s.berthReset p k) := by
  intro q
  rw [berthReset_ut]
  split_ifs
  · exact ⟨_, rfl⟩
  · exact ⟨(s.ut q).berths, rfl⟩

end

/-! ### Phase 4 at the tile of one LT -/

/-- The berths that an LT declares are reset, one after the other. -/
def State.berthsReset (s : State) (e : LtEnt) (p : Pos) : State := (declBerths e).foldl (fun (s : State) k => s.berthReset p k) s
/-- The windows that an LT declares are reset and the attempt count is entered. -/
def UnderTile.windowsReset (e : LtEnt) (a : BitVec 4) (u : UnderTile) : UnderTile :=
  { u with windows := Vector.ofFn fun k : Fin 256 => if e.declares k.val then u.windows[k].reset else u.windows[k], attempt := a }

/-- An under-tile after phase 4, its berths aside. -/
def UnderTile.aborted (e : LtEnt) (a : BitVec 4) (u : UnderTile) : UnderTile := { u.windowsReset e a with chambers := [] }

section
variable {e : LtEnt} {p q : Pos} {s : State} (a : BitVec 4)

theorem abortTile_of_die (h : s.posOf e.lt = some p) :
    s.abortTile e a = (((s.berthsReset e p).modUt p (UnderTile.windowsReset e a)).clearChambers p) := by
  simp only [State.abortTile, h]
  rfl
theorem abortTile_of_none (h : s.posOf e.lt = none) : s.abortTile e a = s := by
  simp only [State.abortTile, h]

theorem clearChambers_onlyTilesAndNet (s : State) (p : Pos) : OnlyTilesAndNet s (s.clearChambers p) := ⟨_, s.net, s.nextPkt, rfl⟩
theorem clearChambers_ut (s : State) (p q : Pos) : (s.clearChambers p).ut q = if q = p then { s.ut q with chambers := [] } else s.ut q := by
  rw [State.clearChambers, State.ut_modCore, State.modCtl, State.ut_modCore, State.ut_modUt_ite]

theorem berthsReset_onlyTilesAndNet (s : State) (e : LtEnt) (p : Pos) : OnlyTilesAndNet s (s.berthsReset e p) :=
  foldl_rel (R := OnlyTilesAndNet) .refl .trans (fun _ _ => berthReset_onlyTilesAndNet _ _ _) _ s
theorem berthsReset_onlyBerths (s : State) (e : LtEnt) (p : Pos) : OnlyBerths s (s.berthsReset e p) :=
  foldl_rel (R := OnlyBerths) .refl .trans (fun _ _ => berthReset_onlyBerths _ _ _) _ s
theorem berthsReset_ut_ne (h : q ≠ p) : (s.berthsReset e p).ut q = s.ut q :=
  foldl_reads_same (g := fun t : State => t.ut q) (fun t k _ => by rw [berthReset_ut, if_neg h]) s

theorem mem_declBerths {k : Fin 64} : k ∈ declBerths e ↔ e.berths.getLsbD k.val = true := by
  simp [declBerths, bit]
theorem berthsReset_berth {k : Fin 64} (h : e.berths.getLsbD k.val = true) : (s.berthsReset e p).berth p k = (s.berth p k).emptied :=
  foldl_reads_once (g := fun t : State => t.berth p k) ((List.nodup_finRange 64).filter _) (mem_declBerths.mpr h)
    (fun t => berthReset_berth t p k) (fun t _ hj => berthReset_berth_ne t p _ k hj) s
theorem berthsReset_berth_ne {k : Fin 64} (h : e.berths.getLsbD k.val = false) : (s.berthsReset e p).berth p k = s.berth p k :=
  foldl_reads_same (g := fun t : State => t.berth p k)
    (fun t j hj => berthReset_berth_ne t p j k (by rintro rfl; exact Bool.false_ne_true (h.symm.trans (mem_declBerths.mp hj)))) s

theorem abortTile_onlyTilesAndNet (s : State) (e : LtEnt) : OnlyTilesAndNet s (s.abortTile e a) := by
  rcases h : s.posOf e.lt with _ | p
  · rw [abortTile_of_none a h]
    exact OnlyTilesAndNet.refl s
  · rw [abortTile_of_die a h]
    exact (berthsReset_onlyTilesAndNet s e p).trans ((OnlyTilesAndNet.modTile _ _ _).trans (clearChambers_onlyTilesAndNet _ _))

theorem abortTile_ut (h : s.posOf e.lt = some p) :
    (s.abortTile e a).ut p = ((s.berthsReset e p).ut p).aborted e a := by
  rw [abortTile_of_die a h, clearChambers_ut, if_pos rfl, State.ut_modUt, UnderTile.aborted]
theorem abortTile_ut_ne (h : s.posOf e.lt ≠ some q) : (s.abortTile e a).ut q = s.ut q := by
  rcases hp : s.posOf e.lt with _ | p
  · rw [abortTile_of_none a hp]
  · have hq : q ≠ p := by rintro rfl; exact h hp
    rw [abortTile_of_die a hp, clearChambers_ut, if_neg hq, State.ut_modUt_ne _ _ _ _ hq, berthsReset_ut_ne hq]

theorem abortTile_berth (h : s.posOf e.lt = some p) (k : Fin 64) : (s.abortTile e a).berth p k = (s.berthsReset e p).berth p k := by
  rw [State.berth, abortTile_ut a h]
  rfl

end

theorem abortedBerths_hold : Rules.AbortedBerths := by
  intro e p a k s h
  refine ⟨fun hk => ?_, fun hk => ?_⟩
  · rw [abortTile_berth a h, berthsReset_berth hk]
    exact ⟨rfl, rfl, rfl, rfl⟩
  · rw [abortTile_berth a h, berthsReset_berth_ne hk]

/-! ### Phases 1, 2 and 4 in LH-C -/

theorem tblGet_filter {α : Type} (d : α) (hit : Nat → Bool) (t : Tbl α) (j : Nat) :
    tblGet d (t.filter fun e => !hit e.1) j = if hit j then d else tblGet d t j := by
  induction t with
  | nil => simp [tblGet]
  | cons e t ih =>
    by_cases hj : j = e.1
    · subst hj
      by_cases he : hit e.1 = true <;> simp [he, ih, tblGet]
    · by_cases he : hit e.1 = true <;> simp [he, hj, ih, tblGet]

/-- The first record with a number, changed under its number, is the first with that number still. -/
theorem find?_num_map {l : List StepRec} {n : Nat} {r : StepRec} {f : StepRec → StepRec} (h : l.find? (fun x => x.num == n) = some r)
    (hf : (f r).num = r.num) : (l.map fun x => if x.num = n then f x else x).find? (fun x => x.num == n) = some (f r) := by
  induction l with
  | nil => simp at h
  | cons x l ih =>
    by_cases hx : x.num = n
    · obtain rfl : x = r := by simpa [hx] using h
      simp [hx, hf]
    · simpa [hx] using ih (by simpa [hx] using h)

theorem num_of_stepNum {s : State} {n : Nat} {r : StepRec} (h : s.stepNum n = some r) : r.num = n := by
  simpa using List.find?_some h

/-- What a replay compares of a program fault (R142). -/
def AbortReq.program (q : AbortReq) : Option (CoreFault × BitVec 14 × Ctx × BitVec 32) := if (programOf q.cause).isSome then q.seen else none
/-- The program fault that a request tells of is the one that the step met last. -/
def AbortReq.again (q : AbortReq) (r : StepRec) : Bool := q.program.isSome && q.program == r.faultSeen
/-- What LH-C notes of a step whose abort it begins. -/
def State.abortRec (s : State) (r : StepRec) (q : AbortReq) (fin : Option Status) : StepRec :=
  { r with
    phase := .aborting, cause := q.cause, causeLt := q.lt, overrun := q.overrun, attempt := r.attempt + 1, lost := r.lost + r.attemptPounds
    attemptPounds := 0, faultSeen := if q.program.isSome then q.program else r.faultSeen, faultLt := if q.program.isSome then q.lt else r.faultLt
    prog := q.again r, restored := false, finals := [], recheck := s.mustRecheck q.cause q.lt
    ending := if fin.isSome then fin else if q.again r || decide (r.replaysRun ≥ r.man.replays) then some .stepAborted else none
    noReplay := fin.isSome }
/-- The lock-houses are told of a fault that was not repeated, and the LT-pounds of the attempt are counted as lost. -/
def State.abortNoted (s : State) (r : StepRec) (q : AbortReq) : State :=
  (if q.program.isSome && !q.again r then s.tellUnrepeated r else s).addLkh fun k => { k with hwLost := k.hwLost + BitVec.ofNat 64 r.attemptPounds }
/-- Phase 4 at the tiles of the LTs of a step. -/
def State.tilesAborted (s : State) (r : StepRec) : State := r.man.ltEnts.foldl (fun (s : State) e => s.abortTile e (r.attempt + 1)) s
/-- The entries of a step on every port end, and no cause of it waits any more. -/
def State.portsAborted (s : State) (n : Nat) : State :=
  { s with ports := s.ports.map fun (x : Port) => x.abortStep n, aborts := s.aborts.filter fun a => a.step != n }

section
variable {q : AbortReq} {r : StepRec}

theorem again_of_no_program (h : programOf q.cause = none) : q.again r = false := by
  simp [AbortReq.again, AbortReq.program, h]
theorem again_of_seen {f : CoreFault} (hc : q.cause = .fault f) (hp : faultHw f = false) (hs : q.seen.isSome = true) (hr : q.seen = r.faultSeen) :
    q.again r = true := by
  have hprog : q.program = q.seen := by simp [AbortReq.program, hc, programOf, hp]
  simp [AbortReq.again, hprog, hs, ← hr]

end

section
variable (s : State) (r : StepRec) (q : AbortReq) (fin : Option Status)

theorem beginAbort_eq : s.beginAbort r q fin =
    (((((s.abortNoted r q).tilesAborted r).clearCanal r.man.canalBase r.man.canalCount).portsAborted r.num).sweep).modStep r.num
      fun _ => s.abortRec r q fin := rfl

theorem tellUnrepeated_eq : ∃ k, s.tellUnrepeated r = { s with repair := k } := by
  unfold State.tellUnrepeated
  split
  · exact tellRepair_eq _ _
  · exact ⟨s.repair, rfl⟩

theorem abortNoted_eq : ∃ k l, s.abortNoted r q = { s with repair := k, lkh := l } := by
  unfold State.abortNoted
  split
  · obtain ⟨k, hk⟩ := tellUnrepeated_eq s r
    rw [hk]
    exact ⟨k, _, rfl⟩
  · exact ⟨s.repair, _, rfl⟩

/-- What an abort does to the tiles leaves everything else but the packets in flight, the repair logic and the lock-house's counts. -/
theorem tilesAborted_eq : ∃ k l ts ns n, (s.abortNoted r q).tilesAborted r = { s with repair := k, lkh := l, tiles := ts, net := ns, nextPkt := n } := by
  obtain ⟨k, l, h⟩ := abortNoted_eq s r q
  obtain ⟨ts, ns, n, ht⟩ : OnlyTilesAndNet (s.abortNoted r q) ((s.abortNoted r q).tilesAborted r) :=
    foldl_rel (R := OnlyTilesAndNet) .refl .trans (fun _ _ => abortTile_onlyTilesAndNet _ _ _) _ _
  exact ⟨k, l, ts, ns, n, by rw [ht, h]⟩

theorem beginAbort_steps : (s.beginAbort r q fin).intake.steps = s.intake.steps.map fun x => if x.num = r.num then s.abortRec r q fin else x := by
  obtain ⟨k, l, ts, ns, n, h⟩ := tilesAborted_eq s r q
  rw [beginAbort_eq, h]
  rfl
theorem beginAbort_aborts : (s.beginAbort r q fin).aborts = s.aborts.filter fun a => a.step != r.num := by
  obtain ⟨k, l, ts, ns, n, h⟩ := tilesAborted_eq s r q
  rw [beginAbort_eq, h]
  rfl
theorem beginAbort_port (x : PortN) : (s.beginAbort r q fin).port x = (s.port x).abortStep r.num := by
  obtain ⟨k, l, ts, ns, n, h⟩ := tilesAborted_eq s r q
  rw [beginAbort_eq, h]
  exact Vector.getElem_map _ _
theorem beginAbort_canalCh (j : Nat) : (s.beginAbort r q fin).canalCh j =
    if r.man.canalBase ≤ j ∧ j < r.man.canalBase + r.man.canalCount then {} else s.canalCh j := by
  obtain ⟨k, l, ts, ns, n, h⟩ := tilesAborted_eq s r q
  rw [beginAbort_eq, h]
  refine (tblGet_filter {} (fun j => decide (r.man.canalBase ≤ j) && decide (j < r.man.canalBase + r.man.canalCount)) s.canal j).trans ?_
  simp only [Bool.and_eq_true, decide_eq_true_eq]
  rfl

theorem modStep_ut (n : Nat) (f : StepRec → StepRec) (p : Pos) : (s.modStep n f).ut p = s.ut p := rfl
theorem sweep_ut (p : Pos) : s.sweep.ut p = s.ut p := rfl
theorem portsAborted_ut (n : Nat) (p : Pos) : (s.portsAborted n).ut p = s.ut p := rfl
theorem clearCanal_ut (p : Pos) (base count : Nat) : ∃ m d, (s.clearCanal base count).ut p = { s.ut p with mirror := m, mirrorDue := d } := by
  rw [State.clearCanal, State.ut_allUts]
  exact ⟨_, _, rfl⟩

/-- The Canal chambers, the ports and the record of the step have no part in the under-tiles but for the mirrors. -/
theorem beginAbort_ut (p : Pos) : ∃ m d, (s.beginAbort r q fin).ut p = { ((s.abortNoted r q).tilesAborted r).ut p with mirror := m, mirrorDue := d } := by
  obtain ⟨m, d, h⟩ := clearCanal_ut ((s.abortNoted r q).tilesAborted r) p r.man.canalBase r.man.canalCount
  exact ⟨m, d, by rw [beginAbort_eq, modStep_ut, sweep_ut, portsAborted_ut, h]⟩

theorem abortStep_ended {x : Port} {n : Nat} {e : Fin 256} (hb : x.cons[e].busy = true) (hs : x.cons[e].step = n) (he : x.cons[e].ended = none) :
    (x.abortStep n).cons[e].ended = some (0, .stepAborted) := by
  have hc : (x.abortStep n).cons[e] = x.cons[e].stop 0 .stepAborted := by
    simp only [Port.abortStep, Fin.getElem_fin, Vector.getElem_map] at *
    simp [hb, hs]
  rw [hc]
  simp only [Consign.stop, he]

end

/-- What an abort leaves of the step in the under-tile of an LT. -/
structure LtCleared (e : LtEnt) (a : BitVec 4) (u : UnderTile) : Prop where
  chambers : u.chambers = []
  attempt : u.attempt = a
  windows : ∀ k : Fin 256, e.declares k.val = true → u.windows[k].open_ = false

section
variable {s : State} {e e' : LtEnt} {p : Pos} {a : BitVec 4} {u : UnderTile}

theorem aborted_cleared (e : LtEnt) (a : BitVec 4) (u : UnderTile) : LtCleared e a (u.aborted e a) :=
  ⟨rfl, rfl, fun k hk => by simp [UnderTile.aborted, UnderTile.windowsReset, hk, Window.reset]⟩
/-- The abort of another entry, be it at the same tile, opens no window again. -/
theorem aborted_keeps_closed {k : Fin 256} (h : u.windows[k].open_ = false) : (u.aborted e a).windows[k].open_ = false := by
  simp only [UnderTile.aborted, UnderTile.windowsReset, Fin.getElem_fin, Vector.getElem_ofFn] at *
  split_ifs
  · rfl
  · exact h

theorem abortTile_cleared (h : s.posOf e.lt = some p) : LtCleared e a ((s.abortTile e a).ut p) := by
  rw [abortTile_ut a h]
  exact aborted_cleared e a _

theorem aborted_keeps_cleared (h : LtCleared e a u) : LtCleared e a (u.aborted e' a) := by
  obtain ⟨hc, ha, -⟩ := aborted_cleared e' a u
  exact ⟨hc, ha, fun k hk => aborted_keeps_closed (h.windows k hk)⟩

theorem abortTile_keeps_cleared (h : LtCleared e a (s.ut p)) : LtCleared e a ((s.abortTile e' a).ut p) := by
  by_cases hp : s.posOf e'.lt = some p
  · obtain ⟨bs, hb⟩ := berthsReset_onlyBerths s e' p p
    rw [abortTile_ut a hp, hb]
    exact aborted_keeps_cleared ⟨h.chambers, h.attempt, h.windows⟩
  · rwa [abortTile_ut_ne a hp]

theorem abortTile_posOf (l : Lt) : (s.abortTile e a).posOf l = s.posOf l := by
  obtain ⟨ts, ns, n, h⟩ := abortTile_onlyTilesAndNet a s e
  rw [h]
  rfl

theorem tilesAborted_cleared {r : StepRec} (he : e ∈ r.man.ltEnts) (h : s.posOf e.lt = some p) :
    LtCleared e (r.attempt + 1) ((s.tilesAborted r).ut p) := by
  unfold State.tilesAborted
  exact foldl_of_mem (f := fun (s : State) e => s.abortTile e (r.attempt + 1))
    (P := fun t : State => t.posOf e.lt = some p) (Q := fun t : State => LtCleared e (r.attempt + 1) (t.ut p)) he
    (fun _ ht => abortTile_cleared ht) (fun _ _ _ ht => (abortTile_posOf _).trans ht) (fun _ _ _ ht => abortTile_keeps_cleared ht) h

theorem abortNoted_posOf (r : StepRec) (q : AbortReq) (l : Lt) : (s.abortNoted r q).posOf l = s.posOf l := by
  obtain ⟨k, m, h⟩ := abortNoted_eq s r q
  rw [h]
  rfl

theorem beginAbort_cleared {r : StepRec} {q : AbortReq} {fin : Option Status} (he : e ∈ r.man.ltEnts) (h : s.posOf e.lt = some p) :
    LtCleared e (r.attempt + 1) ((s.beginAbort r q fin).ut p) := by
  obtain ⟨m, d, hu⟩ := beginAbort_ut s r q fin p
  obtain ⟨hc, ha, hw⟩ := tilesAborted_cleared (s := s.abortNoted r q) he ((abortNoted_posOf r q e.lt).trans h)
  rw [hu]
  exact ⟨hc, ha, hw⟩

end

/-- A cause that LH-C has been told leaves those that wait, and its step begins to abort. -/
theorem exec_stepAbort_of_told {q : AbortReq} {t : Nat} {r : StepRec} {s : State}
    (h : s.aborts.find? (fun x => x.step == q.step && x.cause == q.cause && x.lt == q.lt && x.overrun == q.overrun) = some q)
    (hr : s.stepNum q.step = some r) (hl : r.live = true) : exec (.stepAbort q.step q.cause q.lt q.overrun t) s =
      .next (({ s.at_ t with aborts := s.aborts.erase q } : State).beginAbort r q none) := by
  have hn : ({ s.at_ t with aborts := s.aborts.erase q } : State).stepNum q.step = some r := hr
  simp only [exec, execStepAbort, State.at_aborts, h, hn, hl, if_true]

theorem stepAbortsBegin_hold : Rules.StepAborts := by
  intro q t r s h hr hl
  have hnum := num_of_stepNum hr
  refine ⟨_, State.abortRec { s.at_ t with aborts := s.aborts.erase q } r q none, exec_stepAbort_of_told h hr hl, ?_, rfl, rfl, rfl, rfl, rfl, rfl, rfl, rfl,
    fun hle => ?_, fun f hc hp hs hf => ?_, fun hlt hp => ?_, fun a ha => ?_, fun x e hb hs he => ?_, fun j hj hj' => ?_, fun j hj => ?_,
    fun e he p hp => ?_, fun x hx hne => ?_⟩
  · rw [State.stepNum, beginAbort_steps, hnum]
    exact find?_num_map hr rfl
  · simp [State.abortRec, hle]
  · simp [State.abortRec, again_of_seen hc hp hs hf]
  · simp [State.abortRec, again_of_no_program hp, hlt]
  · rw [beginAbort_aborts, hnum] at ha
    simpa using (List.mem_filter.mp ha).2
  · rw [beginAbort_port, hnum]
    exact abortStep_ended hb hs he
  · rw [beginAbort_canalCh, if_pos ⟨hj, hj'⟩]
  · rw [beginAbort_canalCh, if_neg (by omega)]
    rfl
  · obtain ⟨hc, ha, hw⟩ := beginAbort_cleared (s := { s.at_ t with aborts := s.aborts.erase q }) (q := q) (fin := none) he hp
    exact ⟨hc, ha, hw⟩
  · rw [beginAbort_steps, hnum]
    exact List.mem_map.mpr ⟨x, hx, if_neg hne⟩

/-! ### Phase 3, and what comes before a replay -/

theorem exec_coreAbort {p : Pos} {cc : Nat} {r : StepRec} {s : State} (hr : s.stepAt p = some r) (hl : r.live = false) (hc : (s.ut p).cycle ≤ cc) :
    exec (.coreAbort p cc) s = .next (s.coreStop p cc) := by
  simp [exec, execCoreAbort, hr, hl, Nat.not_lt.mpr hc]

/-- Nothing else is under way for the step, and its RESTORE entries can be copied (R493). -/
def State.mayRestore (s : State) (r : StepRec) : Prop :=
  (r.restored || r.ending.isSome || r.recheck || r.retiring.isSome || r.man.lts.any s.substRuns || !s.k0Reaches) = false

section
variable {step t : Nat} {r : StepRec} {s v : State} (hr : (s.at_ t).stepNum step = some r) (hl : r.live = false) (h : (s.at_ t).mayRestore r)
include hr hl h

theorem exec_replayRestore_of_done (hv : State.restoreAll r.man.restore (s.at_ t) = .done v) :
    exec (.replayRestore step t) s = .next (v.modStep step fun r => { r with restored := true }) := by
  unfold State.mayRestore at h
  simp [exec, execReplayRestore, hr, hl, h, hv]
theorem exec_replayRestore_of_failed {st : Status} {a : Nat} (hv : State.restoreAll r.man.restore (s.at_ t) = .failed v st a) :
    exec (.replayRestore step t) s = .next (v.modStep step fun r => { r with ending := some st, addr := BitVec.ofNat 64 a }) := by
  unfold State.mayRestore at h
  simp [exec, execReplayRestore, hr, hl, h, hv]

end

/-- The line that has been read again is named no more. -/
def State.rechecked (s : State) (p : Pos) (step : Nat) : State :=
  (s.modStg p fun g => { g with eccValid := false }).modStep step fun r => { r with recheck := false }

theorem exec_hbmErrorRecheck {step t : Nat} {r : StepRec} {p : Pos} {s v : State} {st : Status} {bs : List Byte} (h : r.causeLt.toNat < 120)
    (hr : (s.at_ t).stepNum step = some r) (hc : r.recheck = true) (hp : (s.at_ t).posOf ⟨r.causeLt.toNat, h⟩ = some p)
    (hv : (s.at_ t).modelLine ((s.at_ t).ut p).stg.eccAddr.toNat none = .ended v st bs) :
    let a := ((s.at_ t).ut p).stg.eccAddr
    let e := (s.at_ t).entry (a.toNat / 65536)
    exec (.hbmErrorRecheck step t) s = .next (
      if st = .done then (v.rechecked p step).logErr (frameUnit e) 0 1
      else if st = .memoryUncorrectable && entRo e && entAttr e == 1 then
        ((v.rechecked p step).postMig { page := BitVec.ofNat 25 (a.toNat / 65536), kind := .retire }).modStep step fun r => { r with retiring := some a }
      else ((v.rechecked p step).logErr (frameUnit e) (statusCode .memoryUncorrectable) 1).modStep step fun r =>
        { r with ending := some .memoryUncorrectable, addr := a.zeroExtend 64 }) := by
  simp only [exec, execHbmErrorRecheck, hr, hc, dif_pos h, hp, hv]
  rfl

theorem beforeReplay_hold : Rules.BeforeReplay := by
  intro step t r p cc s
  dsimp only
  refine ⟨exec_coreAbort, fun hr hl hd he hc ht hs hk => ?_, fun h hr hc hp => ⟨fun v bs hv => ?_, fun v bs hv hro hat => ?_,
    fun v bs hv hro => ?_⟩⟩
  · have hidle : (s.at_ t).mayRestore r := by simp [State.mayRestore, hd, he, hc, ht, hs, hk]
    exact ⟨fun v hv => exec_replayRestore_of_done hr hl hidle hv, fun v st a hv => exec_replayRestore_of_failed hr hl hidle hv⟩
  · rw [exec_hbmErrorRecheck h hr hc hp hv]
    rfl
  · rw [exec_hbmErrorRecheck h hr hc hp hv]
    rw [if_neg (by decide), if_pos (by simp [hro, hat])]
    rfl
  · rw [exec_hbmErrorRecheck h hr hc hp hv]
    rw [if_neg (by decide), if_neg (by simpa using hro)]
    rfl

/-- Settles O36: what LH-C begins, what comes before a replay, and the berths that an abort resets. -/
theorem stepAborts : Obligations.StepAborts := ⟨stepAbortsBegin_hold, beforeReplay_hold, abortedBerths_hold⟩

end Sys2Proof.Machine
end

section
/-! PROOFS. Gate ticks (O40): what every tile and the routing version take from a gate tick, a step from pound to pound, and its first pound. -/

namespace Sys2Proof.Machine

open Sys2Proof

/-! ### A step at a gate tick (R39, R43, R325) -/

/-- The LTs that are behind at a gate tick (R39). -/
def State.overrunLts (s : State) (r : StepRec) : List Lt :=
  r.man.lts.filter fun l => match s.coreOf l with | some c => c.ctl.behind && !r.finals.contains l | none => false
/-- A running step goes on to its next pound, or past its last one. -/
def State.nextPound (s : State) (r : StepRec) : State :=
  if r.poundIdx + 1 < r.man.pounds then s.startPound r (r.poundIdx + 1) else s.modStep r.num fun r => { r with poundIdx := r.man.pounds }
/-- The overrun of an LT is reported to LH-C. -/
def State.reportOverrun (s : State) (r : StepRec) (l : Lt) : State :=
  s.report { step := r.num, cause := .status .timingUnsafe_, lt := BitVec.ofNat 7 l.val, overrun := true }
/-- The cores that are behind run late. -/
def State.ranLate (s : State) (r : StepRec) : State :=
  ((s.overrunLts r).filterMap s.posOf).foldl (fun (s : State) p => s.modCtl p Control.runLate) s
/-- The first LT that has missed a third gate tick. -/
def State.thirdMiss (s : State) (r : StepRec) : Option Lt :=
  (s.overrunLts r).find? fun l => match (s.ranLate r).coreOf l with | some c => decide (c.ctl.missed ≥ 3) | none => false
/-- A step waits for what its replay needs. -/
def State.stayed (s : State) (n : Nat) : State := s.modStep n fun r => { r with phase := .repairing, poundsRun := r.poundsRun + 1 }
/-- A pound of a step has run. -/
def State.poundCounted (s : State) (n : Nat) : State := s.modStep n fun r => { r with poundsRun := r.poundsRun + 1 }

section
variable {s : State} {r : StepRec} {t n : Nat} {l : Lt}

theorem runOn_eq (s : State) (r : StepRec) : s.runOn r =
    if s.aborts.any fun a => a.step == r.num then s
    else if r.man.late then (match s.thirdMiss r with | some l => (s.ranLate r).reportOverrun r l | none => (s.ranLate r).nextPound r)
    else match s.overrunLts r with | l :: _ => s.reportOverrun r l | [] => s.nextPound r := rfl

theorem runOn_of_told (h : ∃ a ∈ s.aborts, a.step = r.num) : s.runOn r = s := by
  rw [runOn_eq, if_pos (by simpa using h)]

section
variable (h : ¬ ∃ a ∈ s.aborts, a.step = r.num)
include h

theorem runOn_of_inTime (hl : r.man.late = false) (hb : s.overrunLts r = []) : s.runOn r = s.nextPound r := by
  rw [runOn_eq, if_neg (by simpa using h), hl, hb]
  rfl
theorem runOn_of_overrun (hl : r.man.late = false) (hb : (s.overrunLts r).head? = some l) : s.runOn r = s.reportOverrun r l := by
  obtain ⟨ls, hb⟩ := List.head?_eq_some_iff.mp hb
  rw [runOn_eq, if_neg (by simpa using h), hl, hb]
  rfl
theorem runOn_of_late (hl : r.man.late = true) (ht : s.thirdMiss r = none) : s.runOn r = (s.ranLate r).nextPound r := by
  rw [runOn_eq, if_neg (by simpa using h), hl, ht]
  rfl
theorem runOn_of_thirdMiss (hl : r.man.late = true) (ht : s.thirdMiss r = some l) : s.runOn r = (s.ranLate r).reportOverrun r l := by
  rw [runOn_eq, if_neg (by simpa using h), hl, ht]
  rfl

end

theorem replayOn_of_held (h : r.ending.isSome = true ∨ r.recheck = true ∨ r.retiring.isSome = true ∨ s.stepReady r = false) :
    s.replayOn r = s.stayed r.num := by
  unfold State.replayOn
  rw [if_pos (by simpa [or_assoc] using h)]
  rfl

section
variable (he : r.ending = none) (hc : r.recheck = false) (ht : r.retiring = none) (hs : s.stepReady r = true)
include he hc ht hs

theorem replayOn_of_ready : s.replayOn r =
    if s.unsafeNow r then (s.modStep r.num fun r => { r with ending := some .timingUnsafe_ }).stayed r.num
    else if !r.restored && !r.man.restore.isEmpty then s.stayed r.num
    else (s.modStep r.num fun r => { r with replaysRun := r.replaysRun + 1 }).beginStep r := by
  unfold State.replayOn
  rw [if_neg (by simp [he, hc, ht, hs])]
  rfl
theorem replayOn_of_unsafe (hu : s.unsafeNow r = true) :
    s.replayOn r = (s.modStep r.num fun r => { r with ending := some .timingUnsafe_ }).stayed r.num := by
  rw [replayOn_of_ready he hc ht hs, if_pos hu]
theorem replayOn_of_unrestored (hu : s.unsafeNow r = false) (hr : r.restored = false) (hm : r.man.restore ≠ []) : s.replayOn r = s.stayed r.num := by
  rw [replayOn_of_ready he hc ht hs, if_neg (by simp [hu]), if_pos (by simp [hr, hm])]
theorem replayOn_of_restored (hu : s.unsafeNow r = false) (hr : r.restored = true ∨ r.man.restore = []) :
    s.replayOn r = (s.modStep r.num fun r => { r with replaysRun := r.replaysRun + 1 }).beginStep r := by
  rw [replayOn_of_ready he hc ht hs, if_neg (by simp [hu]), if_neg]
  rcases hr with hr | hr <;> simp [hr]

end

section
variable (hr : s.stepNum n = some r)
include hr

theorem stepTick_of_admitted (h : r.phase = .admitted) : s.stepTick t n =
    if r.ending.isNone && decide (r.tAdmit + 4000 ≤ t) && decide (r.man.notBefore ≤ t) && s.stepReady r && !(s.aborts.any fun a => a.step == n) then
      s.beginStep r
    else s := by
  simp only [State.stepTick, hr, h]
theorem stepTick_of_running (h : r.phase = .running) : s.stepTick t n = (s.poundCounted n).runOn r := by
  simp only [State.stepTick, hr, h]
  rfl
theorem stepTick_of_aborting (h : r.phase = .aborting) : s.stepTick t n = (s.poundCounted n).modStep n fun r => { r with phase := .draining } := by
  simp only [State.stepTick, hr, h]
  rfl
theorem stepTick_of_drained (h : r.phase = .draining ∨ r.phase = .repairing) : s.stepTick t n = s.replayOn r := by
  rcases h with h | h <;> simp only [State.stepTick, hr, h]

end

end

theorem poundByPound_holds : Rules.PoundByPound := by
  intro t n r s hr
  dsimp only
  obtain rfl := num_of_stepNum hr
  refine ⟨fun hp he ha hb hs hq => ?_, fun hp h => ?_, fun hp hq => ?_, fun hp hq hl => ⟨fun hb => ?_, fun l hb => ?_⟩,
    fun hp hq hl => ⟨fun ht => ?_, fun l ht => ?_⟩, fun _ => ⟨rfl, rfl⟩, fun hp => ?_, fun hp => ⟨fun h => ?_,
    fun he hc ht hs => ⟨fun hu => ?_, fun hu hd hm => ?_, fun hu hd => ?_⟩⟩⟩
  · rw [stepTick_of_admitted hr hp, if_pos]
    simpa [he, ha, hb, hs] using hq
  · rw [stepTick_of_admitted hr hp, if_neg]
    intro hall
    simp only [Bool.and_eq_true, decide_eq_true_eq, Bool.not_eq_true'] at hall
    obtain ⟨⟨⟨⟨he, ha⟩, hb⟩, hs⟩, hq⟩ := hall
    rcases h with h | h | h | h | h
    · exact absurd ha (Nat.not_le.mpr h)
    · exact absurd hb (Nat.not_le.mpr h)
    · simp [h] at hs
    · simp [Option.isNone_iff_eq_none.mp he] at h
    · exact Bool.false_ne_true (hq.symm.trans (by simpa using h))
  · rw [stepTick_of_running hr hp]
    exact runOn_of_told hq
  · rw [stepTick_of_running hr hp]
    exact runOn_of_inTime hq hl hb
  · rw [stepTick_of_running hr hp]
    exact runOn_of_overrun hq hl hb
  · rw [stepTick_of_running hr hp]
    exact runOn_of_late hq hl ht
  · rw [stepTick_of_running hr hp]
    exact runOn_of_thirdMiss hq hl ht
  · exact stepTick_of_aborting hr hp
  · rw [stepTick_of_drained hr hp]
    exact replayOn_of_held h
  · rw [stepTick_of_drained hr hp]
    exact replayOn_of_unsafe he hc ht hs hu
  · rw [stepTick_of_drained hr hp]
    exact replayOn_of_unrestored he hc ht hs hu hd hm
  · rw [stepTick_of_drained hr hp]
    exact replayOn_of_restored he hc ht hs hu hd

/-! ### The first pound of a step (R114, R115, R161, R265) -/

theorem firstPound_holds : Rules.FirstPound := by
  intro k e num a dbg
  refine ⟨rfl, rfl, rfl, rfl, rfl, rfl, rfl, rfl, rfl, rfl, rfl, rfl, fun hm hd => ?_, fun h => ?_, rfl, rfl, rfl, rfl, rfl, fun b => ?_⟩
  · simp [Tile.stepStart, hm, hd]
  · simp only [Tile.stepStart]
    rcases h with h | h <;> simp [h]
  · simp [Tile.stepStart, bit]

/-! ### What a gate tick does to one tile (R32, R35, R149) -/

/-- What the first cycle of a pound finds in a tile: a quiet window, no retired berth key, no loop. -/
structure Ticked (k : Tile) : Prop where
  quiet : k.ut.flags.quiet = true
  retired : ∀ b : Fin 64, k.ut.berths[b].retired = []
  loops : ∀ c, (k.core.ctx c).loops = Vector.replicate 4 {}

/-- Two states that differ in the tile of p, and not in the routing version. -/
structure OnlyTile (p : Pos) (s t : State) : Prop where
  tile : ∀ q, q ≠ p → t.tile q = s.tile q
  epoch : t.epoch = s.epoch

section
variable {s t u : State} {p q : Pos}

theorem OnlyTile.of_eq (ht : t.tiles = s.tiles) (he : t.epoch = s.epoch) : OnlyTile p s t :=
  ⟨fun q _ => by rw [State.tile, State.tile, ht], he⟩
theorem OnlyTile.refl (s : State) : OnlyTile p s s := .of_eq rfl rfl
theorem OnlyTile.trans (a : OnlyTile p s t) (b : OnlyTile p t u) : OnlyTile p s u :=
  ⟨fun q hq => (b.tile q hq).trans (a.tile q hq), b.epoch.trans a.epoch⟩
theorem OnlyTile.modTile (s : State) (p : Pos) (f : Tile → Tile) : OnlyTile p s (s.modTile p f) :=
  ⟨fun q hq => State.tile_modTile_ne s p q f hq, rfl⟩

theorem OnlyTile.modMov (s : State) (p : Pos) (f : MoveUnit → MoveUnit) : OnlyTile p s (s.modMov p f) := OnlyTile.modTile s p _

theorem tellLt_eq (s : State) (p : Pos) (ev : Lt → RepairEvent) : ∃ k, s.tellLt p ev = { s with repair := k } := by
  unfold State.tellLt
  split
  · exact tellRepair_eq _ _
  · exact ⟨s.repair, rfl⟩
theorem faultAbort_eq (s : State) (p : Pos) (x : Ctx) (i : BitVec 14) (f : CoreFault) : ∃ l, s.faultAbort p x i f = { s with aborts := l } := by
  unfold State.faultAbort
  split
  · exact report_eq _ _
  · exact ⟨s.aborts, rfl⟩

/-- A fault changes the control unit of its core, what the lock-houses are told and the reported causes. -/
theorem fault_eq (s : State) (p : Pos) (x : Ctx) (i : BitVec 14) (m : BitVec 4) (f : CoreFault) :
    ∃ g k l, s.fault p x i m f = { s.modCtl p g with repair := k, aborts := l } := by
  unfold State.fault
  extract_lets s1 s2
  obtain ⟨k, hk⟩ : ∃ k, s2 = { s1 with repair := k } := by
    by_cases h : (faultHw f && (x == .main || x == .hand)) = true
    · simpa only [s2, if_pos h] using tellLt_eq s1 p .coreFault
    · exact ⟨s1.repair, if_neg h⟩
  split
  · obtain ⟨l, hl⟩ := faultAbort_eq s2 p x i f
    exact ⟨_, k, l, by rw [hl, hk]⟩
  · exact ⟨_, k, s.aborts, hk⟩

theorem fault_onlyTile (s : State) (p : Pos) (x : Ctx) (i : BitVec 14) (m : BitVec 4) (f : CoreFault) : OnlyTile p s (s.fault p x i m f) := by
  obtain ⟨g, k, l, h⟩ := fault_eq s p x i m f
  rw [h]
  exact OnlyTile.trans (t := s.modCtl p g) (OnlyTile.modTile s p _) (.of_eq rfl rfl)

/-- The fetches of a context raise the fault that they find. -/
def State.fetchTo (s : State) (p : Pos) (x : Ctx) (to_ : Nat) : State :=
  let q := (s.core p).ctx x
  match q.toFault (s.core p).img to_ (to_ + 1 - q.nextCc) with
  | some (c, f) => (s.modCore p fun k => k.modCtx x fun _ => c).fault p x c.nextIdx f.2 f.1
  | none => s

theorem fetchTo_onlyTile (s : State) (p : Pos) (x : Ctx) (n : Nat) : OnlyTile p s (s.fetchTo p x n) := by
  unfold State.fetchTo
  dsimp only
  split
  · exact (OnlyTile.modTile s p _).trans (fault_onlyTile _ _ _ _ _ _)
  · exact OnlyTile.refl s

theorem fetch_eq (s : State) (p : Pos) (cc : Nat) : s.fetch p cc =
    if !(s.core p).img.faulty || !s.dieUp p then s
    else
      let s1 := if (s.core p).ctl.main = .issuing then s.fetchTo p .main cc else s
      if (s1.core p).ctl.hand ≠ .idle && decide (0 < cc) then s1.fetchTo p .hand (cc - 1) else s1 := rfl

theorem fetch_onlyTile (s : State) (p : Pos) (cc : Nat) : OnlyTile p s (s.fetch p cc) := by
  rw [fetch_eq]
  split
  · exact OnlyTile.refl s
  · extract_lets s1
    have h1 : OnlyTile p s s1 := by
      by_cases h : (s.core p).ctl.main = .issuing
      · simpa only [s1, if_pos h] using fetchTo_onlyTile s p .main cc
      · simpa only [s1, if_neg h] using OnlyTile.refl s
    split
    · exact h1.trans (fetchTo_onlyTile _ _ _ _)
    · exact h1

theorem run_onlyTile (s : State) (p : Pos) (cc : Nat) : OnlyTile p s (s.run p cc) :=
  (OnlyTile.modTile s p _).trans ((OnlyTile.modTile _ p _).trans (fetch_onlyTile _ _ _))

theorem stallRecords_onlyTile (s : State) (p : Pos) (cc : Nat) : OnlyTile p s (s.stallRecords p cc) := by
  unfold State.stallRecords
  split
  · exact OnlyTile.modMov s p _
  · refine OnlyTile.trans ?_ (OnlyTile.modMov _ p _)
    exact .of_eq rfl rfl

/-- The tile's cycle at a gate tick at panel time t. -/
def State.tickCycle (s : State) (n t : Nat) (p : Pos) : Nat :=
  let u := s.ut p
  max u.cycle (u.tick + (min (t - s.lastTick) n * tileMhz u.clk / 1000 - u.pound.stretchQ.toNat / 4))
/-- The tile at its gate tick: the pound that ends, with its overrun, gives way to the next (log entry 47). -/
def Tile.tick (k : Tile) (cc : Nat) (o : Bool) : Tile :=
  let clr (q : CtxState) : CtxState := { q with loops := Vector.replicate 4 {} }
  let go (x : Stream) : Stream := match x.wait with
    | some d => { x with wait := none, s := cc + d.toNat }
    | none => x
  { core := { k.core with main := clr k.core.main, hand := clr k.core.hand, tow := clr k.core.tow, dbg := clr k.core.dbg
                          ctl := { k.core.ctl with haltLost := 0 }
                          mov := { k.core.mov with streams := k.core.mov.streams.map go } }
    ut := { k.ut with
      poundLast := { k.ut.pound with overrun := o }, pound := { unsync := k.ut.time.unsync }, tick := cc
      flags := { k.ut.flags with quiet := true }, berths := k.ut.berths.map fun b => { b with retired := [] } } }

theorem Tile.tick_ticked (k : Tile) (cc : Nat) (o : Bool) : Ticked (k.tick cc o) :=
  ⟨rfl, fun b => by simp [Tile.tick], fun c => by cases c <;> rfl⟩

theorem tileTick_of_silent {n t : Nat} (h : ((s.ut p).time.unsync || (s.ut p).flags.lost) = true) : s.tileTick n t p = s := by
  unfold State.tileTick
  exact if_pos h
theorem tileTick_of_fires {n t : Nat} (h : ((s.ut p).time.unsync || (s.ut p).flags.lost) = false) : ∃ o, s.tileTick n t p =
    ((s.run p (s.tickCycle n t p)).stallRecords p (s.tickCycle n t p)).modTile p fun k => k.tick (s.tickCycle n t p) o := by
  unfold State.tileTick
  refine ⟨_, (if_neg (by simp [h])).trans rfl⟩

theorem tileTick_onlyTile (s : State) (n t : Nat) (p : Pos) : OnlyTile p s (s.tileTick n t p) := by
  by_cases h : ((s.ut p).time.unsync || (s.ut p).flags.lost) = true
  · rw [tileTick_of_silent h]
    exact OnlyTile.refl s
  · obtain ⟨o, ho⟩ := tileTick_of_fires (n := n) (t := t) (Bool.eq_false_iff.mpr h)
    rw [ho]
    exact (run_onlyTile s p _).trans ((stallRecords_onlyTile _ p _).trans (OnlyTile.modTile _ p _))

theorem tileTick_ticked {n t : Nat} (hu : (s.ut p).time.unsync = false) (hl : (s.ut p).flags.lost = false) : Ticked ((s.tileTick n t p).tile p) := by
  obtain ⟨o, ho⟩ := tileTick_of_fires (n := n) (t := t) (s := s) (p := p) (by rw [hu, hl]; rfl)
  rw [ho, State.tile_modTile]
  exact Tile.tick_ticked _ _ _

end

/-- Every tile at a gate tick, in the order of the positions. -/
def State.tilesTicked (s : State) (t : Nat) : State := allPos.foldl (fun (x : State) p => x.tileTick s.poundNs t p) (s.at_ t)

theorem tilesTicked_ticked {s : State} {t : Nat} {p : Pos} (hu : (s.ut p).time.unsync = false) (hl : (s.ut p).flags.lost = false) :
    Ticked ((s.tilesTicked t).tile p) := by
  unfold State.tilesTicked
  refine foldl_of_mem_once (f := fun (x : State) p => x.tileTick s.poundNs t p) (P := fun x : State => x.tile p = s.tile p)
    (Q := fun x : State => Ticked (x.tile p)) (List.nodup_finRange 144) (List.mem_finRange p) (fun x hx => ?_)
    (fun x q hq hx => ?_) (fun x q hq hx => ?_) rfl
  · exact tileTick_ticked (by rw [State.ut_eq, hx]; exact hu) (by rw [State.ut_eq, hx]; exact hl)
  · exact ((tileTick_onlyTile x _ t q).tile p hq.symm).trans hx
  · rwa [(tileTick_onlyTile x _ t q).tile p hq.symm]

theorem tilesTicked_epoch (s : State) (t : Nat) : (s.tilesTicked t).epoch = s.epoch := by
  unfold State.tilesTicked
  exact foldl_reads_same (f := fun (x : State) p => x.tileTick s.poundNs t p) (g := State.epoch) (fun x q _ => (tileTick_onlyTile x _ t q).epoch) _

/-! ### What the rest of a gate tick leaves of it -/

/-- What the tick of a tile has set stays as it is. -/
structure TickKept (k k' : Tile) : Prop where
  quiet : k'.ut.flags.quiet = k.ut.flags.quiet
  retired : ∀ b : Fin 64, k'.ut.berths[b].retired = k.ut.berths[b].retired
  loops : ∀ c, (k'.core.ctx c).loops = (k.core.ctx c).loops

theorem Ticked.of_kept {k k' : Tile} (h : Ticked k) (hk : TickKept k k') : Ticked k' :=
  ⟨hk.quiet.trans h.quiet, fun b => (hk.retired b).trans (h.retired b), fun c => (hk.loops c).trans (h.loops c)⟩
/-- The same of the contexts one by one, where the state reads them. -/
theorem Ticked.reads {s : State} {p : Pos} (h : Ticked (s.tile p)) : (s.ut p).flags.quiet = true ∧ (∀ b : Fin 64, (s.ut p).berths[b].retired = []) ∧
    (s.core p).main.loops = Vector.replicate 4 {} ∧ (s.core p).hand.loops = Vector.replicate 4 {} ∧ (s.core p).tow.loops = Vector.replicate 4 {} ∧
    (s.core p).dbg.loops = Vector.replicate 4 {} := ⟨h.quiet, h.retired, h.loops .main, h.loops .hand, h.loops .tow, h.loops .dbg⟩
theorem TickKept.refl (k : Tile) : TickKept k k := ⟨rfl, fun _ => rfl, fun _ => rfl⟩
theorem TickKept.trans {k k' k'' : Tile} (a : TickKept k k') (b : TickKept k' k'') : TickKept k k'' :=
  ⟨b.quiet.trans a.quiet, fun x => (b.retired x).trans (a.retired x), fun c => (b.loops c).trans (a.loops c)⟩

/-- What the ticks of the tiles have set stays, and so do the routing version and what every tile has of it. -/
structure PoundKept (s t : State) : Prop where
  tile : ∀ p, TickKept (s.tile p) (t.tile p)
  version : ∀ p, (t.ut p).mesh.epoch = (s.ut p).mesh.epoch
  epoch : t.epoch = s.epoch

section
variable {s t u : State}

theorem PoundKept.of_eq (ht : t.tiles = s.tiles) (he : t.epoch = s.epoch) : PoundKept s t := by
  have htile : ∀ p, t.tile p = s.tile p := fun p => by rw [State.tile, State.tile, ht]
  exact ⟨fun p => htile p ▸ TickKept.refl _, fun p => by rw [State.ut_eq, State.ut_eq, htile], he⟩
theorem PoundKept.refl (s : State) : PoundKept s s := .of_eq rfl rfl
theorem PoundKept.trans (a : PoundKept s t) (b : PoundKept t u) : PoundKept s u :=
  ⟨fun p => (a.tile p).trans (b.tile p), fun p => (b.version p).trans (a.version p), b.epoch.trans a.epoch⟩
theorem PoundKept.foldl {α : Type} {f : State → α → State} (h : ∀ s a, PoundKept s (f s a)) (l : List α) (s : State) : PoundKept s (l.foldl f s) :=
  foldl_rel (R := PoundKept) .refl .trans h l s

theorem PoundKept.modTile (s : State) (p : Pos) {f : Tile → Tile} (hf : ∀ k, TickKept k (f k)) (hv : ∀ k, (f k).ut.mesh.epoch = k.ut.mesh.epoch) :
    PoundKept s (s.modTile p f) := by
  have htile : ∀ q, (s.modTile p f).tile q = if q = p then f (s.tile q) else s.tile q := by
    intro q
    split_ifs with h
    · rw [h, State.tile_modTile]
    · exact State.tile_modTile_ne s p q f h
  refine ⟨fun q => ?_, fun q => ?_, rfl⟩
  · rw [htile]
    split_ifs
    · exact hf _
    · exact TickKept.refl _
  · rw [State.ut_eq, htile]
    split_ifs
    · exact hv _
    · rfl
theorem PoundKept.allUts (s : State) {f : Pos → UnderTile → UnderTile} (hq : ∀ p u, (f p u).flags.quiet = u.flags.quiet)
    (hb : ∀ p u, (f p u).berths = u.berths) (hv : ∀ p u, (f p u).mesh.epoch = u.mesh.epoch) : PoundKept s (s.allUts f) := by
  refine ⟨fun p => ?_, fun p => by rw [State.ut_allUts, hv], State.allUts_epoch s f⟩
  rw [State.allUts, State.tile_allTiles]
  exact ⟨hq _ _, fun _ => by rw [hb], fun _ => rfl⟩

theorem PoundKept.modCtl (s : State) (p : Pos) (f : Control → Control) : PoundKept s (s.modCtl p f) :=
  .modTile s p (fun _ => ⟨rfl, fun _ => rfl, fun _ => rfl⟩) fun _ => rfl
theorem PoundKept.modSpd (s : State) (p : Pos) (f : Scratch → Scratch) : PoundKept s (s.modSpd p f) :=
  .modTile s p (fun _ => ⟨rfl, fun _ => rfl, fun _ => rfl⟩) fun _ => rfl
theorem PoundKept.modPound (s : State) (p : Pos) (f : UnderTile → PoundStat) : PoundKept s (s.modUt p fun u => { u with pound := f u }) :=
  .modTile s p (fun _ => ⟨rfl, fun _ => rfl, fun _ => rfl⟩) fun _ => rfl
theorem PoundKept.modStep (s : State) (n : Nat) (f : StepRec → StepRec) : PoundKept s (s.modStep n f) := .of_eq rfl rfl
theorem PoundKept.addLkh (s : State) (f : Lkh → Lkh) : PoundKept s (s.addLkh f) := .of_eq rfl rfl

theorem report_poundKept (s : State) (q : AbortReq) : PoundKept s (s.report q) := by
  obtain ⟨l, h⟩ := report_eq s q
  rw [h]
  exact .of_eq rfl rfl
theorem tellLt_poundKept (s : State) (p : Pos) (ev : Lt → RepairEvent) : PoundKept s (s.tellLt p ev) := by
  obtain ⟨k, h⟩ := tellLt_eq s p ev
  rw [h]
  exact .of_eq rfl rfl
theorem fault_poundKept (s : State) (p : Pos) (x : Ctx) (i : BitVec 14) (m : BitVec 4) (f : CoreFault) : PoundKept s (s.fault p x i m f) := by
  obtain ⟨g, k, l, h⟩ := fault_eq s p x i m f
  rw [h]
  exact PoundKept.trans (PoundKept.modCtl s p g) (.of_eq rfl rfl)

/-- The tiles of a bank switch to the bank's next step. -/
def State.switched (s : State) (b : Bank) : State :=
  let c := s.clocks.step
  let falls := decide ((c.cur b).toNat < (c.next b).toNat)
  { s with clocks := { s.clocks with step := c.took b } }.allUts fun p u =>
    if bankOf p = b && !u.flags.lost then u.switchClock p (c.next b) falls else u

theorem switched_poundKept (s : State) (b : Bank) : PoundKept s (s.switched b) := by
  unfold State.switched
  refine PoundKept.trans ?_ (PoundKept.allUts _ (fun p u => ?_) (fun p u => ?_) fun p u => ?_)
  · exact .of_eq rfl rfl
  all_goals split_ifs <;> rfl

theorem stepChange_poundKept (s : State) (b : Bank) (t : Nat) : PoundKept s (s.stepChange b t) := by
  unfold State.stepChange
  dsimp only
  split
  · exact .refl s
  · split_ifs
    · exact .refl s
    · exact (switched_poundKept s b).trans (.foldl (fun _ _ => report_poundKept _ _) _ _)
    · exact switched_poundKept s b

theorem countLt_poundKept (s : State) (l : Lt) : PoundKept s (s.countLt l) := by
  unfold State.countLt
  split_ifs
  · exact .refl s
  · exact .addLkh s _
  · exact .addLkh s _
  · split
    · exact .addLkh s _
    · split_ifs
      · exact .addLkh s _
      · exact .modStep s _ _
      · exact (PoundKept.addLkh s _).trans (.modStep _ _ _)

theorem countHeadway_poundKept (s : State) : PoundKept s s.countHeadway :=
  (PoundKept.foldl countLt_poundKept _ s).trans (.addLkh _ _)

/-- The tile whose MAIN is at its bundle of resumption, the regulator told of it. -/
theorem resumed_kept (k : Tile) (f : CtxState → CtxState) (hf : ∀ q, (f q).loops = q.loops) (w : Regulator) :
    TickKept k { core := k.core.modCtx .main f, ut := { k.ut with pwr := w } } :=
  ⟨rfl, fun _ => rfl, fun c => by cases c; exacts [hf _, rfl, rfl, rfl]⟩

theorem startSlice_poundKept (s : State) (p : Pos) (j : Nat) : PoundKept s (s.startSlice p j) := by
  unfold State.startSlice
  extract_lets cc k0 s1
  have h1 : PoundKept s s1 := by
    refine PoundKept.trans (.modCtl s p _) (.modTile _ p (fun k => ?_) fun k => ?_)
    · exact resumed_kept k (fun q => { q with nextIdx := k0.resume, nextCc := cc, opened := false }) (fun _ => rfl) _
    · rfl
  split_ifs
  · exact h1.trans (fault_poundKept _ _ _ _ _ _)
  · exact h1

theorem startPound_poundKept (s : State) (r : StepRec) (j : Nat) : PoundKept s (s.startPound r j) := by
  unfold State.startPound
  dsimp only
  refine PoundKept.trans (PoundKept.foldl (fun s p => ?_) (s.stepTiles r) s) (.modStep _ _ _)
  split_ifs
  · exact .refl s
  · exact startSlice_poundKept s p j
  · exact .modCtl s p _

theorem stepStart_kept (k : Tile) (e : LtEnt) (n : Nat) (a : BitVec 4) (d : Bool) : TickKept k (k.stepStart e n a d) :=
  ⟨rfl, fun b => by simp [Tile.stepStart], fun c => by cases c <;> rfl⟩

theorem beginStep_poundKept (s : State) (r : StepRec) : PoundKept s (s.beginStep r) := by
  unfold State.beginStep
  extract_lets s1 load s2
  have h1 : PoundKept s s1 := by
    refine PoundKept.foldl (fun s e => ?_) r.man.ltEnts s
    split
    · exact .modTile s _ (fun k => stepStart_kept k e _ _ _) fun _ => rfl
    · exact .refl s
  have h2 : PoundKept s1 s2 := .of_eq rfl rfl
  exact h1.trans (h2.trans (startPound_poundKept _ _ _))

theorem nextPound_poundKept (s : State) (r : StepRec) : PoundKept s (s.nextPound r) := by
  unfold State.nextPound
  split_ifs
  · exact startPound_poundKept _ _ _
  · exact .modStep _ _ _
theorem ranLate_poundKept (s : State) (r : StepRec) : PoundKept s (s.ranLate r) := PoundKept.foldl (fun _ _ => .modCtl _ _ _) _ s

theorem runOn_poundKept (s : State) (r : StepRec) : PoundKept s (s.runOn r) := by
  rw [runOn_eq]
  split_ifs
  · exact .refl s
  · split
    · exact (ranLate_poundKept s r).trans (report_poundKept _ _)
    · exact (ranLate_poundKept s r).trans (nextPound_poundKept _ _)
  · split
    · exact report_poundKept _ _
    · exact nextPound_poundKept _ _

theorem replayOn_poundKept (s : State) (r : StepRec) : PoundKept s (s.replayOn r) := by
  unfold State.replayOn
  dsimp only
  split_ifs
  · exact .modStep _ _ _
  · exact (PoundKept.modStep _ _ _).trans (.modStep _ _ _)
  · exact .modStep _ _ _
  · exact (PoundKept.modStep _ _ _).trans (beginStep_poundKept _ _)

theorem stepTick_poundKept (s : State) (t n : Nat) : PoundKept s (s.stepTick t n) := by
  unfold State.stepTick
  split
  · exact .refl s
  · dsimp only
    split
    · split_ifs
      · exact beginStep_poundKept _ _
      · exact .refl s
    · exact (PoundKept.modStep _ _ _).trans (runOn_poundKept _ _)
    · exact (PoundKept.modStep _ _ _).trans (.modStep _ _ _)
    · exact replayOn_poundKept _ _
    · exact replayOn_poundKept _ _

theorem newPound_poundKept (s : State) (p : Pos) : PoundKept s (s.newPound p) := by
  unfold State.newPound
  dsimp only
  split_ifs
  · exact .refl s
  · exact .modPound s p _
  · exact (PoundKept.modPound s p _).trans (.modCtl _ p _)

theorem corrReport_poundKept (s : State) (p : Pos) : PoundKept s (s.corrReport p) := by
  unfold State.corrReport
  dsimp only
  split_ifs
  · exact .refl s
  · exact (PoundKept.modSpd s p _).trans (tellLt_poundKept _ _ _)
  · exact .modSpd s p _

end

/-! ### The routing flip (R261) and the whole tick -/

/-- The routing version changes in the register and at every tile. -/
def State.flipped (s : State) : State :=
  { s with epoch := { s.epoch with cur := !s.epoch.cur, arm := false, free := false, flips := s.epoch.flips + 1, flippedAt := s.now } }.allUts
    fun _ u => { u with mesh := { u.mesh with epoch := !s.epoch.cur } }

section
variable {s : State}

theorem flip_of_unarmed (h : s.epoch.arm = false) : s.flip = s := by
  unfold State.flip
  exact if_pos (by simp [h])
theorem flip_of_armed (h : s.epoch.arm = true) : ∃ l, s.flip = { s.flipped with log := l } := by
  unfold State.flip
  exact ⟨_, if_neg (by simp [h])⟩

theorem flipped_kept (p : Pos) : TickKept (s.tile p) (s.flipped.tile p) := by
  rw [State.flipped, State.allUts, State.tile_allTiles]
  exact ⟨rfl, fun _ => rfl, fun _ => rfl⟩
theorem flip_version (h : s.epoch.arm = true) (p : Pos) : (s.flip.ut p).mesh.epoch = !s.epoch.cur := by
  obtain ⟨l, hl⟩ := flip_of_armed h
  have hut : s.flip.ut p = s.flipped.ut p := by rw [hl]; rfl
  rw [hut, State.flipped, State.ut_allUts]
theorem flip_epoch (h : s.epoch.arm = true) :
    s.flip.epoch = { s.epoch with cur := !s.epoch.cur, arm := false, free := false, flips := s.epoch.flips + 1, flippedAt := s.now } := by
  obtain ⟨l, hl⟩ := flip_of_armed h
  have hep : s.flip.epoch = s.flipped.epoch := by rw [hl]
  rw [hep, State.flipped, State.allUts_epoch]

theorem flip_kept (s : State) (p : Pos) : TickKept (s.tile p) (s.flip.tile p) := by
  by_cases h : s.epoch.arm = true
  · obtain ⟨l, hl⟩ := flip_of_armed h
    rw [hl]
    exact flipped_kept p
  · rw [flip_of_unarmed (Bool.eq_false_iff.mpr h)]
    exact .refl _

end

/-- The pound that ends: every tile at its gate tick, and the frequency steps that come into force. -/
def State.poundEnded (s : State) (t : Nat) : State := ((s.tilesTicked t).stepChange .west t).stepChange .east t
/-- The pound that begins: headway and soundings are counted, the steps go on, every core has its freeboard and its error counts. -/
def State.poundPrepared (s : State) (t : Nat) : State :=
  let s2 := s.countHeadway.soundTick
  let s3 := (s2.intake.steps.map fun r => r.num).foldl (fun (s : State) k => s.stepTick t k) s2
  allPos.foldl (fun (s : State) p => s.newPound p) s3
def State.poundBegun (s : State) (t : Nat) : State :=
  let s4 := s.poundPrepared t
  let s5 := (allPos.foldl (fun (s : State) p => s.corrReport p) s4).slewed
  { s5 with
    tsrc := { s5.tsrc with gateSlew := s5.tsrc.slewTick, slewTick := 0 }
    lastTick := t, repair := { s5.repair with pounds := s5.repair.pounds + 1, timeouts := [] }
    power := { s4.power with lowTicks := s4.power.lowTicks + 1 }, therm := { s4.therm with coolTicks := s4.therm.coolTicks.map fun k => k + 1 } }

section
variable {s : State} {t : Nat}

theorem exec_gateTick_of_not (h : s.poundNs = 0 ∨ t % s.poundNs ≠ 0 ∨ t ≤ s.lastTick) : exec (.gateTick t) s = .next s := by
  simp only [exec, execGateTick]
  rw [if_pos (by simpa [or_assoc] using h)]
theorem exec_gateTick (h0 : s.poundNs ≠ 0) (hm : t % s.poundNs = 0) (hl : s.lastTick < t) :
    exec (.gateTick t) s = .next ((s.poundEnded t).flip.poundBegun t) := by
  simp only [exec, execGateTick]
  rw [if_neg (by simp [h0, hm, hl])]
  simp only [State.poundBegun, State.poundPrepared, State.poundEnded, State.tilesTicked]

theorem soundTick_kept (s : State) : PoundKept s s.soundTick := .of_eq rfl rfl
theorem slewed_kept (s : State) : PoundKept s s.slewed := .of_eq rfl rfl
theorem counted_kept (s : State) (c : TimeSrc) (n : Nat) (k : Repair) (w : PanelPower) (m : Thermal) :
    PoundKept s { s with tsrc := c, lastTick := n, repair := k, power := w, therm := m } := .of_eq rfl rfl

theorem poundEnded_kept (s : State) (t : Nat) : PoundKept (s.tilesTicked t) (s.poundEnded t) :=
  (stepChange_poundKept _ .west t).trans (stepChange_poundKept _ .east t)

theorem poundPrepared_kept (s : State) (t : Nat) : PoundKept s (s.poundPrepared t) := by
  unfold State.poundPrepared
  extract_lets s2 s3
  have h2 : PoundKept s s2 := (countHeadway_poundKept s).trans (soundTick_kept _)
  have h3 : PoundKept s2 s3 := .foldl (fun _ _ => stepTick_poundKept _ _ _) _ _
  exact h2.trans (h3.trans (.foldl newPound_poundKept _ _))

theorem poundBegun_kept (s : State) (t : Nat) : PoundKept s (s.poundBegun t) := by
  unfold State.poundBegun
  extract_lets s4 s5
  have h5 : PoundKept s4 s5 := (PoundKept.foldl corrReport_poundKept allPos s4).trans (slewed_kept _)
  exact (poundPrepared_kept s t).trans (h5.trans (counted_kept _ _ _ _ _ _))

theorem poundBegun_lastTick (s : State) (t : Nat) : (s.poundBegun t).lastTick = t := by
  unfold State.poundBegun
  extract_lets
  rfl

theorem gateTick_ticked {p : Pos} (hu : (s.ut p).time.unsync = false) (hl : (s.ut p).flags.lost = false) :
    Ticked (((s.poundEnded t).flip.poundBegun t).tile p) :=
  (((tilesTicked_ticked hu hl).of_kept ((poundEnded_kept s t).tile p)).of_kept (flip_kept _ p)).of_kept ((poundBegun_kept _ t).tile p)

theorem poundEnded_epoch (s : State) (t : Nat) : (s.poundEnded t).epoch = s.epoch := (poundEnded_kept s t).epoch.trans (tilesTicked_epoch s t)

end

theorem gateTicks_hold : Rules.GateTicks := by
  intro t s
  refine ⟨exec_gateTick_of_not, fun h0 hm hl => ⟨_, exec_gateTick h0 hm hl, poundBegun_lastTick _ t, fun p hu hf => ?_, fun ha => ?_, fun ha => ?_⟩⟩
  · exact (gateTick_ticked hu hf).reads
  · have hep := poundEnded_epoch s t
    have harm : (s.poundEnded t).epoch.arm = true := by rw [hep, ha]
    obtain ⟨-, hv, he⟩ := poundBegun_kept (s.poundEnded t).flip t
    rw [he, flip_epoch harm, hep]
    exact ⟨rfl, rfl, rfl, rfl, fun p => (hv p).trans (by rw [flip_version harm, hep])⟩
  · rw [(poundBegun_kept _ t).epoch, flip_of_unarmed (by rw [poundEnded_epoch, ha]), poundEnded_epoch]

/-- Settles O40: the tick of the tiles and of the routing version, a step from pound to pound, its first pound. -/
theorem gateTicks : Obligations.GateTicks := ⟨gateTicks_hold, poundByPound_holds, firstPound_holds⟩

end Sys2Proof.Machine
end

section
/-! PROOFS. The current keeper (O22): filling, the end of a gap, ramp notes and POWNOTE. -/

namespace Sys2Proof.Machine

open Sys2Proof

/-! ### The current keeper and its notes (R82 to R86) -/

/-- An event on a tile that serves and has not passed the cycle takes place after the tile has run to it. -/
theorem tileEvent_taken {p : Pos} {cc : Nat} {s : State} (hc : (s.ut p).cycle ≤ cc) (hd : s.dieUp p = true) (f : State → State) :
    tileEvent p cc f s = f (s.run p cc) := by
  simp [tileEvent, hc, hd]

section
variable (s : State) (p : Pos) {f g : Matrix → Matrix}
@[simp] theorem State.mat_modMat : ((s.modMat p f).core p).mat = f (s.core p).mat := by simp [State.modMat]
@[simp] theorem State.ut_modMat (q : Pos) : (s.modMat p f).ut q = s.ut q := by simp [State.modMat]
/-- An update of the matrix unit counts by what it makes of the unit as it is. -/
theorem State.modMat_congr (h : f (s.core p).mat = g (s.core p).mat) : s.modMat p f = s.modMat p g := by
  unfold State.core at h
  simp only [State.modMat, State.modCore, State.modTile, vmod]
  rw [h]
end

/-- A note moves the clamp window or the boost window, and leaves the other. -/
theorem note_windows (r : Regulator) (down : Bool) (c : Nat) :
    (down = true → (r.note down c).clamp = some (c, c + 1024) ∧ (r.note down c).boost = r.boost) ∧
      (down = false → (r.note down c).boost = some (c - 1024, c + 1024) ∧ (r.note down c).clamp = r.clamp) := by
  cases down <;> simp [Regulator.note]

/-- The keeper after a due note: carried out where MAIN runs a step (R86), and taken off the list. -/
def Keeper.noted (k : Keeper) (n : PowNote) (runs stepping : Bool) (cc : Nat) : Keeper :=
  if runs then k.carry n stepping cc else { k with notes := k.notes.erase n }

section
variable {k : Keeper} {n : PowNote} {r : List PowNote} (runs stepping : Bool) (cc : Nat)

theorem noted_notes (h : k.notes = n :: r) : (k.noted n runs stepping cc).notes = r := by
  cases runs <;> cases hd : n.down <;> simp [Keeper.noted, Keeper.carry, hd, h]
theorem noted_of_down (h : n.down = true) : (k.noted n true stepping cc).gapHeld = true ∧ (k.noted n true stepping cc).filling = false := by
  simp [Keeper.noted, Keeper.carry, h]
theorem noted_of_up (h : n.down = false) : (k.noted n true stepping cc).upCover = true := by
  simp [Keeper.noted, Keeper.carry, h]
theorem noted_outside (h : k.notes = n :: r) : k.noted n false stepping cc = { k with notes := r } := by
  simp [Keeper.noted, h]
end

section
variable {p : Pos} {cc : Nat} {s : State} (hc : (s.ut p).cycle ≤ cc) (hd : s.dieUp p = true)
include hc hd

theorem exec_pownoteLeadExpiry {n : PowNote} {r : List PowNote} (hk : ((s.run p cc).core p).mat.keeper.notes = n :: r) (hn : n.at_ ≤ cc) :
    let u := s.run p cc
    exec (.pownoteLeadExpiry p cc) s =
      .next ((u.modMat p fun m => { m with keeper := m.keeper.noted n (u.mainRuns p) (m.stepping cc) cc }).modUt p
        fun u => { u with pwr := u.pwr.note n.down n.at_ }) := by
  simp only [exec, execPownoteLeadExpiry, tileEvent_taken hc hd, hk]
  rw [List.find?_cons_of_pos (by simpa using hn)]
  exact congrArg (fun x => Host.Outcome.next (State.modUt x p _)) (State.modMat_congr _ _ (by simp only [Keeper.noted, hk]))

theorem exec_keeperFill (h : let u := s.run p cc; let m := (u.core p).mat; let k := m.keeper
    u.mainRuns p = true ∧ m.stepping cc = false ∧ k.filling = false ∧ k.gapHeld = false ∧ k.gapStart = none ∧ k.thresh ≠ 0) :
    exec (.keeperFill p cc) s = .next ((s.run p cc).modMat p fun m => { m with keeper := { m.keeper with
      filling := true, gapStart := some cc, filled := m.keeper.filled + 1, ramp := (keeperPct m.keeper.level, keeperPct m.keeper.level, cc) } }) := by
  obtain ⟨hr, hs, hf, hg, hn, ht⟩ := h
  simp only [exec, execKeeperFill, tileEvent_taken hc hd]
  rw [if_pos (by simpa [hr, hs, hf, hg, hn] using ht)]

theorem exec_keeperGapExpiry (h : let u := s.run p cc; let m := (u.core p).mat; let k := m.keeper
    u.mainRuns p = true ∧ m.stepping cc = false ∧ k.gapHeld = false ∧
      ((∃ g, k.filling = true ∧ k.gapStart = some g ∧ g + k.thresh.toNat < cc) ∨ (k.gapStart = none ∧ k.thresh = 0))) :
    exec (.keeperGapExpiry p cc) s = .next ((s.run p cc).modMat p fun m => { m with keeper := { m.keeper with
      filling := false, gapStart := some cc, unDown := m.keeper.unDown + 1, ramp := (m.keeper.at_ cc, 0, cc) } }) := by
  obtain ⟨hr, hs, hg, hp⟩ := h
  simp only [exec, execKeeperGapExpiry, tileEvent_taken hc hd]
  rcases hp with ⟨g, hf, hg', hlt⟩ | ⟨hn, ht⟩
  · rw [if_pos (by simp [hr, hs, hg, hf, hg', hlt])]
  · rw [if_pos (by simp [hr, hs, hg, hn, ht])]
end

theorem exec_pownote {i : Issue} {s t : State} (h : Issues .x 0x20 i s t) : exec (.pownote i) s = .next (effPownote i t) := by
  simp only [exec, execPownote, slotCmd_issues h]

/-- What POWNOTE leaves in the matrix unit: the note is entered and a short lead is counted (R83, R85). -/
def State.pownoted (t : State) (i : Issue) : State :=
  let w := slotWord i.bundle .x
  let l := fld (t.rS i (xA w)) 0 32
  t.modMat i.pos fun m => { m with keeper := { m.keeper with
    shortLead := if l < 2000 then m.keeper.shortLead + 1 else m.keeper.shortLead
    notes := if !(bit w 51) && noteLevel (fld w 52 2) == 0 || !t.mainRuns i.pos then m.keeper.notes
      else m.keeper.notes ++ [{ down := bit w 51, level := noteLevel (fld w 52 2), at_ := i.cc + max l 2000 }] } }

section
variable {i : Issue} {t : State}

theorem effPownote_of_idle (h : bit (slotWord i.bundle .x) 51 = false ∧ noteLevel (fld (slotWord i.bundle .x) 52 2) = 0) :
    effPownote i t = t.pownoted i :=
  if_pos (by simpa using h)
theorem effPownote_of_ramp (h : ¬ (bit (slotWord i.bundle .x) 51 = false ∧ noteLevel (fld (slotWord i.bundle .x) 52 2) = 0)) :
    effPownote i t = (t.pownoted i).modUt i.pos fun u =>
      { u with pwr := u.pwr.note (bit (slotWord i.bundle .x) 51) (i.cc + max (fld (t.rS i (xA (slotWord i.bundle .x))) 0 32) 2000) } :=
  if_neg (by simpa using h)
theorem effPownote_core : (effPownote i t).core i.pos = (t.pownoted i).core i.pos := by
  by_cases h : bit (slotWord i.bundle .x) 51 = false ∧ noteLevel (fld (slotWord i.bundle .x) 52 2) = 0
  · rw [effPownote_of_idle h]
  · rw [effPownote_of_ramp h, State.core_modUt]
theorem pownoted_pend : ((t.pownoted i).core i.pos).pend = (t.core i.pos).pend := by
  simp [State.pownoted, State.modMat]
end

theorem currentKeeper_holds : Rules.CurrentKeeper := by
  refine ⟨fun p cc s => ?_, fun i s t h => ?_⟩
  · intro u m k upd hc hd
    refine ⟨fun hr hs hf hg hn ht => ?_, fun hr hs hg hp => ?_, fun n r hk hn => ⟨_, exec_pownoteLeadExpiry hc hd hk hn, ?_⟩⟩
    · rw [exec_keeperFill hc hd ⟨hr, hs, hf, hg, hn, ht⟩]
      exact congrArg Host.Outcome.next (State.modMat_congr _ _ rfl)
    · rw [exec_keeperGapExpiry hc hd ⟨hr, hs, hg, hp⟩]
      exact congrArg Host.Outcome.next (State.modMat_congr _ _ rfl)
    · have hw := note_windows (u.ut p).pwr n.down n.at_
      simp only [State.core_modUt, State.mat_modMat, State.ut_modUt, State.ut_modMat]
      refine ⟨noted_notes _ _ _ hk, hw.1, hw.2, fun hr hn => ?_, fun hr hn => ?_, fun hr => ?_, rfl, rfl⟩
      · rw [hr]
        exact noted_of_down _ _ hn
      · rw [hr]
        exact noted_of_up _ _ hn
      · rw [hr]
        exact noted_outside _ _ hk
  · intro w l lv k due
    refine ⟨_, exec_pownote h, ?_⟩
    rw [effPownote_core, pownoted_pend]
    have hw := note_windows (t.ut i.pos).pwr (bit w 51) due
    have hz : (bit w 51 = false ∧ lv = 0) → ((effPownote i t).ut i.pos).pwr = (t.ut i.pos).pwr := fun hz => by
      rw [effPownote_of_idle hz, State.pownoted, State.ut_modMat]
    have hn : ¬ (bit w 51 = false ∧ lv = 0) → ((effPownote i t).ut i.pos).pwr = (t.ut i.pos).pwr.note (bit w 51) due := fun hn => by
      rw [effPownote_of_ramp hn, State.ut_modUt, State.pownoted, State.ut_modMat]
      rfl
    refine ⟨rfl, ?_, ?_, fun hd => ?_, fun hd hl => ?_, fun hd hl => hz ⟨hd, hl⟩⟩
    · rw [State.pownoted, State.mat_modMat]
      rfl
    · rw [State.pownoted, State.mat_modMat]
      simp only [Bool.or_eq_true, Bool.and_eq_true, Bool.not_eq_true', beq_iff_eq]
      rfl
    · rw [hn (by simp [hd])]
      exact hw.1 hd
    · rw [hn (by simp [hl])]
      exact hw.2 hd

end Sys2Proof.Machine
end

section
/-! PROOFS. Completion of matrix operations (O22): a second run of the tile in the cycle of a completion, what the completion leaves, and an operation
for which the rule fails. -/

namespace Sys2Proof.Machine

open Sys2Proof

/-! ### The matrix unit that has run to a cycle -/

/-- The accumulator writes of cycles before c have left the operation. -/
def MOp.landed (c : Nat) (o : MOp) : MOp := { o with writes := o.writes.filter fun w => !decide (w.cc < c) }

theorem setRow_eq (m : Matrix) (isInt : Bool) (r : Nat) (a : AccRow) : ∃ l, m.setRow isInt r a = { m with rows := l } := ⟨_, rfl⟩
theorem write_apply_eq (w : MWrite) (narrow : Bool) (m : Matrix) : ∃ l, w.apply narrow m = { m with rows := l } := by
  unfold MWrite.apply
  extract_lets
  split
  · exact setRow_eq _ _ _ _
  · exact setRow_eq _ _ _ _
theorem writes_apply_eq (narrow : Bool) (l : List MWrite) (m : Matrix) : ∃ x, l.foldl (fun m w => w.apply narrow m) m = { m with rows := x } := by
  induction l generalizing m with
  | nil => exact ⟨m.rows, rfl⟩
  | cons w l ih =>
    obtain ⟨y, hy⟩ := write_apply_eq w narrow m
    obtain ⟨x, hx⟩ := ih (w.apply narrow m)
    exact ⟨x, by rw [List.foldl_cons, hx, hy]⟩

theorem landOp_eq (o : MOp) (narrow : Bool) (c : Nat) (m : Matrix) : ∃ x, o.land narrow c m = (o.landed c, { m with rows := x }) := by
  obtain ⟨x, hx⟩ := writes_apply_eq narrow (o.writes.filter fun w => decide (w.cc < c)) m
  exact ⟨x, by rw [MOp.land, hx, MOp.landed]⟩

theorem land_fold (narrow : Bool) (c : Nat) (l : List MOp) (acc : List MOp × Matrix) : ∃ x,
    l.foldl (fun (acc : List MOp × Matrix) o => let y := o.land narrow c acc.2; (acc.1 ++ [y.1], y.2)) acc =
      (acc.1 ++ l.map (MOp.landed c), { acc.2 with rows := x }) := by
  induction l generalizing acc with
  | nil => exact ⟨acc.2.rows, by simp⟩
  | cons o l ih =>
    obtain ⟨y, hy⟩ := landOp_eq o narrow c acc.2
    obtain ⟨x, hx⟩ := ih (acc.1 ++ [o.landed c], { acc.2 with rows := y })
    refine ⟨x, ?_⟩
    rw [List.foldl_cons, hy, hx]
    simp

theorem land_eq (m : Matrix) (narrow : Bool) (c : Nat) : ∃ x, m.land narrow c = { m with rows := x, ops := m.ops.map (MOp.landed c) } := by
  obtain ⟨x, hx⟩ := land_fold narrow c m.ops ([], m)
  exact ⟨x, by rw [Matrix.land, hx]; simp⟩

/-- No drain of the list has a row to read by cycle cc. -/
def NoneDue (cc : Nat) (l : List MOp) : Prop := ∀ o ∈ l, ∀ t, o.drain.bind Drain.due = some t → cc < t

theorem nextDrain_none {cc : Nat} {l : List MOp} {k : Nat} : nextDrain cc l k = none ↔ NoneDue cc l := by
  induction l generalizing k with
  | nil => simp [nextDrain, NoneDue]
  | cons o r ih =>
    have hcons : NoneDue cc (o :: r) ↔ (∀ t, o.drain.bind Drain.due = some t → cc < t) ∧ NoneDue cc r := List.forall_mem_cons
    rw [hcons, ← ih (k := k + 1)]
    simp only [nextDrain]
    split
    next hd => simp [hd]
    next t hd =>
      split
      next hlt => simp [hd, hlt]
      next hlt =>
        rw [hd]
        cases nextDrain cc r (k + 1) with
        | none => simp [hlt]
        | some x => simp; split <;> simp

theorem nextDrain_some {cc : Nat} {l : List MOp} {k t j : Nat} (h : nextDrain cc l k = some (t, j)) :
    ∃ i o, j = k + i ∧ l[i]? = some o ∧ o.drain.bind Drain.due = some t := by
  induction l generalizing k with
  | nil => simp [nextDrain] at h
  | cons o r ih =>
    have later : nextDrain cc r (k + 1) = some (t, j) →
        ∃ i o', j = k + i ∧ (o :: r)[i]? = some o' ∧ o'.drain.bind Drain.due = some t := fun h => by
      obtain ⟨i, o', hj, ho, hd⟩ := ih h
      exact ⟨i + 1, o', by omega, by simpa using ho, hd⟩
    simp only [nextDrain] at h
    split at h
    next => exact later h
    next t' hd =>
      have here : (t', k) = (t, j) → ∃ i o', j = k + i ∧ (o :: r)[i]? = some o' ∧ o'.drain.bind Drain.due = some t := fun h => by
        cases h
        exact ⟨0, o, rfl, rfl, hd⟩
      split at h
      next => exact later h
      next =>
        split at h
        next hr =>
          split at h
          next => exact here (Option.some.inj h)
          next => exact later (hr.trans h)
        next => exact here (Option.some.inj h)

/-- Rows that an operation has still to read. -/
def MOp.rowsLeft (o : MOp) : Nat := match o.drain with | some d => d.m - d.next | none => 0

theorem rowsLeft_eq (m : Matrix) : m.rowsLeft = (m.ops.map MOp.rowsLeft).sum := by
  rw [List.sum_eq_foldl, List.foldl_map]
  rfl

theorem sum_set_pred {l : List Nat} {k x : Nat} (h : l[k]? = some (x + 1)) : (l.set k x).sum + 1 = l.sum := by
  induction l generalizing k with
  | nil => simp at h
  | cons a l ih =>
    cases k with
    | zero => simp at h; simp [h]; omega
    | succ k => simp at h; simp [← ih h]; omega

theorem setRow_ops (m : Matrix) (isInt : Bool) (r : Nat) (a : AccRow) : (m.setRow isInt r a).ops = m.ops := rfl

/-- The reading of a row moves its drain on by one row, and lands accumulator writes. -/
theorem drainRow_ops {c : Core} {k t : Nat} {o : MOp} {d : Drain} (ho : c.mat.ops[k]? = some o) (hd : o.drain = some d) :
    ∃ x, (c.drainRow k t).mat.ops = (c.mat.ops.map (MOp.landed t)).set k
      { o.landed t with drain := some { d with next := d.next + 1, results := x } } := by
  obtain ⟨y, hy⟩ := land_eq c.mat c.desc.narrow t
  have hk : (c.mat.land c.desc.narrow t).ops[k]? = some (o.landed t) := by rw [hy]; simp [ho]
  have hd' : (o.landed t).drain = some d := hd
  unfold Core.drainRow
  extract_lets nar m
  simp only [m, nar, hk, hd']
  rw [apply_ite (fun c : Core => c.mat.ops), Core.later_mat, Core.later_mat, Core.later_mat, ite_self, apply_ite Matrix.ops, setRow_ops, ite_self, hy]
  exact ⟨_, rfl⟩

theorem due_some {d : Drain} {t : Nat} (h : d.due = some t) : d.next < d.m := by
  by_contra hn
  simp [Drain.due, hn] at h

theorem drainRow_rowsLeft {c : Core} {t k : Nat} {cc : Nat} (h : nextDrain cc c.mat.ops 0 = some (t, k)) :
    (c.drainRow k t).mat.rowsLeft + 1 = c.mat.rowsLeft := by
  obtain ⟨i, o, hi, ho, hd⟩ := nextDrain_some h
  obtain rfl : k = i := by omega
  obtain ⟨d, hd, ht⟩ := Option.bind_eq_some_iff.mp hd
  obtain ⟨x, hx⟩ := drainRow_ops (t := t) ho hd
  have hlt := due_some ht
  have hleft : o.rowsLeft = (d.m - (d.next + 1)) + 1 := by simp only [MOp.rowsLeft, hd]; omega
  rw [rowsLeft_eq, rowsLeft_eq, hx, List.map_set, List.map_map]
  exact sum_set_pred (l := c.mat.ops.map MOp.rowsLeft) (by simp only [List.getElem?_map, ho, Option.map_some, hleft]; rfl)

theorem drains_noneDue (cc n : Nat) (c : Core) (h : c.mat.rowsLeft ≤ n) : NoneDue cc (c.drains cc n).mat.ops := by
  induction n generalizing c with
  | zero =>
    refine nextDrain_none (k := 0).mp ?_
    change nextDrain cc c.mat.ops 0 = none
    by_contra hn
    obtain ⟨⟨t, k⟩, hk⟩ := Option.ne_none_iff_exists'.mp hn
    have := drainRow_rowsLeft hk
    omega
  | succ n ih =>
    rw [Core.drains]
    split
    next hk => exact nextDrain_none.mp hk
    next t k hk =>
      have := drainRow_rowsLeft hk
      exact ih _ (by omega)

theorem drains_of_noneDue {cc n : Nat} {c : Core} (h : NoneDue cc c.mat.ops) : c.drains cc n = c := by
  cases n with
  | zero => rfl
  | succ n => rw [Core.drains, nextDrain_none.mpr h]

/-- What a run leaves of the operations: writes of earlier cycles have landed, and a retired operation without writes is gone. -/
def opsRun (cc : Nat) (l : List MOp) : List MOp := (l.map (MOp.landed cc)).filter fun o => !(o.retired && o.writes.isEmpty)

theorem NoneDue.opsRun {cc : Nat} {l : List MOp} (h : NoneDue cc l) : NoneDue cc (opsRun cc l) := by
  intro o ho t ht
  obtain ⟨o', ho', rfl⟩ := List.mem_map.mp (List.mem_filter.mp ho).1
  exact h o' ho' t ht

/-- The run of a matrix unit once its drains have read their rows. -/
theorem matRun_eq (c : Core) (cc : Nat) : ∃ x k e, c.matRun cc = { c.drains cc c.mat.rowsLeft with
    mat := { (c.drains cc c.mat.rowsLeft).mat with rows := x, ops := opsRun cc (c.drains cc c.mat.rowsLeft).mat.ops, conf := k, confDue := e } } := by
  unfold Core.matRun
  extract_lets c1 m0 m m1
  obtain ⟨x, hx⟩ := land_eq c1.mat c1.desc.narrow cc
  have hm : m = { c1.mat with rows := x, ops := opsRun cc c1.mat.ops } := by simp only [m, m0, hx, opsRun]
  clear_value m
  subst hm
  simp only [m1]
  split
  · split_ifs
    · exact ⟨x, _, _, rfl⟩
    · exact ⟨x, _, _, rfl⟩
  · exact ⟨x, _, _, rfl⟩

theorem matRun_noneDue (c : Core) (cc : Nat) : NoneDue cc (c.matRun cc).mat.ops := by
  obtain ⟨x, k, e, h⟩ := matRun_eq c cc
  rw [h]
  exact (drains_noneDue cc _ c le_rfl).opsRun

theorem matRun_of_noneDue {c : Core} {cc : Nat} (h : NoneDue cc c.mat.ops) :
    ∃ x k e, c.matRun cc = { c with mat := { c.mat with rows := x, ops := opsRun cc c.mat.ops, conf := k, confDue := e } } := by
  have hr := matRun_eq c cc
  rwa [drains_of_noneDue h] at hr

/-! ### Writes in flight that have landed -/

/-- No write in flight is due by cycle cc; the list is in the order of the due cycles, so its head speaks for it. -/
def Landed (cc : Nat) (l : List PendW) : Prop := ∀ w ∈ l.head?, cc < w.due

theorem commitList_landed (cc : Nat) (l : List PendW) (c : Core) : Landed cc (commitList cc l c).pend := by
  induction l generalizing c with
  | nil => simp [commitList, Landed]
  | cons w r ih =>
    rw [commitList]
    split_ifs with h
    · exact ih _
    · simpa [Landed] using h

theorem commitList_of_landed {cc : Nat} {l : List PendW} (h : Landed cc l) (c : Core) : commitList cc l c = { c with pend := l } := by
  cases l with
  | nil => rfl
  | cons w r => rw [commitList, if_neg (Nat.not_le.mpr (h w rfl))]

theorem takeWhile_of_landed {cc : Nat} {l : List PendW} (h : Landed cc l) : l.takeWhile (fun w => decide (w.due ≤ cc)) = [] := by
  cases l with
  | nil => rfl
  | cons w r => exact List.takeWhile_cons_of_neg (by simpa using h w rfl)

section
variable {cc due : Nat} {l : List PendW} (h : Landed cc l) (ch : Fin 2048) (n : Nat)
include h

theorem pendInsert_sig_due (hd : due ≤ cc) : pendInsert ⟨due, .sig ch n⟩ l = ⟨due, .sig ch n⟩ :: l := by
  cases l with
  | nil => rfl
  | cons w r =>
    have hw := h w rfl
    rw [pendInsert, if_neg]
    dsimp only
    omega
theorem pendInsert_sig_landed (hd : cc < due) : Landed cc (pendInsert ⟨due, .sig ch n⟩ l) := by
  cases l with
  | nil => simpa [pendInsert, Landed] using hd
  | cons w r =>
    rw [pendInsert]
    split_ifs
    · simpa [Landed] using h w rfl
    · simpa [Landed] using hd

/-- A signal in flight lands on its chamber, and on nothing of the core. -/
theorem commit_sig {c : Core} (hc : c.pend = pendInsert ⟨due, .sig ch n⟩ l) : ∃ r, c.commit cc = { c with pend := r } := by
  rw [Core.commit, hc]
  rcases Nat.lt_or_ge cc due with hd | hd
  · exact ⟨_, commitList_of_landed (pendInsert_sig_landed h ch n hd) c⟩
  · rw [pendInsert_sig_due h ch n hd, commitList, if_pos hd]
    exact ⟨_, commitList_of_landed h _⟩
end

/-! ### Fetches that have raised their faults -/

/-- The context comes to no bundle that faults by cycle n. -/
def Core.fetchesClear (c : Core) (x : Ctx) (n : Nat) : Prop := (c.ctx x).toFault c.img n (n + 1 - (c.ctx x).nextCc) = none

/-- The fetches of the tile up to cycle cc find no fault any more. -/
def FetchDone (s : State) (p : Pos) (cc : Nat) : Prop :=
  (s.core p).img.faulty = true → s.dieUp p = true →
    ((s.core p).ctl.main = .issuing → (s.core p).fetchesClear .main cc) ∧
    ((s.core p).ctl.hand ≠ .idle → 0 < cc → (s.core p).fetchesClear .hand (cc - 1))

theorem fetchTo_of_clear {s : State} {p : Pos} {x : Ctx} {n : Nat} (h : (s.core p).fetchesClear x n) : s.fetchTo p x n = s := by
  unfold State.fetchTo
  dsimp only
  rw [h]

theorem tellLt_tiles (s : State) (p : Pos) (ev : Lt → RepairEvent) : (s.tellLt p ev).tiles = s.tiles := by
  obtain ⟨k, hk⟩ := tellLt_eq s p ev
  rw [hk]
theorem faultAbort_tiles (s : State) (p : Pos) (x : Ctx) (i : BitVec 14) (f : CoreFault) : (s.faultAbort p x i f).tiles = s.tiles := by
  obtain ⟨l, hl⟩ := faultAbort_eq s p x i f
  rw [hl]

/-- A fault stops its own context and leaves the other issuing as it was. -/
theorem fault_core (s : State) (p : Pos) (x : Ctx) (i : BitVec 14) (m : BitVec 4) (f : CoreFault) :
    ∃ g : Control → Control, (s.fault p x i m f).core p = { s.core p with ctl := g (s.core p).ctl } ∧
      (∀ k, (g k).main = if x = .main then .idle else k.main) ∧ ∀ k, (g k).hand = if x = .hand then .idle else k.hand := by
  unfold State.fault
  extract_lets s1 s2
  have h2 : s2.tiles = s1.tiles := by
    by_cases h : (faultHw f && (x == .main || x == .hand)) = true
    · simpa only [s2, if_pos h] using tellLt_tiles s1 p .coreFault
    · simp only [s2, if_neg h]
  have h3 : (if (decide (x = .main) || decide (x = .hand)) = true then s2.faultAbort p x i f else s2).core p = s1.core p := by
    rw [apply_ite (fun s : State => s.core p), State.core, State.core, State.core, faultAbort_tiles, ite_self, h2]
  have h1 : ∃ g : Control → Control, s1 = s.modCtl p g ∧ (∀ k, (g k).main = if x = .main then .idle else k.main) ∧
      ∀ k, (g k).hand = if x = .hand then .idle else k.hand := ⟨_, rfl, fun _ => rfl, fun _ => rfl⟩
  obtain ⟨g, hg, hmain, hhand⟩ := h1
  exact ⟨g, by rw [h3, hg, State.modCtl, State.core_modCore], hmain, hhand⟩

/-- The fetches of a context find no fault and change nothing, or the fault that they find stops the context. -/
theorem fetchTo_core (s : State) (p : Pos) (x : Ctx) (n : Nat) :
    ((s.core p).fetchesClear x n ∧ s.fetchTo p x n = s) ∨
    ∃ q k, (s.fetchTo p x n).core p = { (s.core p).modCtx x (fun _ => q) with ctl := k } ∧
      k.main = (if x = .main then .idle else (s.core p).ctl.main) ∧ k.hand = (if x = .hand then .idle else (s.core p).ctl.hand) := by
  by_cases h : (s.core p).fetchesClear x n
  · exact .inl ⟨h, fetchTo_of_clear h⟩
  · obtain ⟨⟨q, f⟩, hq⟩ := Option.ne_none_iff_exists'.mp h
    refine .inr ?_
    unfold State.fetchTo
    simp only [hq]
    obtain ⟨g, hg, hm, hh⟩ := fault_core (s.modCore p fun k => k.modCtx x fun _ => q) p x q.nextIdx f.2 f.1
    rw [State.core_modCore, Core.modCtx_ctl] at hg
    exact ⟨q, _, hg, hm _, hh _⟩

/-- MAIN's fetches, which a tile that issues has made first. -/
def State.fetchMain (s : State) (p : Pos) (cc : Nat) : State := if (s.core p).ctl.main = .issuing then s.fetchTo p .main cc else s

theorem fetchMain_clear (s : State) (p : Pos) (cc : Nat) :
    ((s.fetchMain p cc).core p).ctl.main = .issuing → ((s.fetchMain p cc).core p).fetchesClear .main cc := by
  unfold State.fetchMain
  split_ifs with hi
  · rcases fetchTo_core s p .main cc with ⟨hc, he⟩ | ⟨q, k, he, hm, -⟩
    · exact fun _ => he.symm ▸ hc
    · rw [he]
      exact fun h => absurd (h.symm.trans hm) (by simp)
  · exact fun h => absurd h hi

theorem fetch_of_unfit {s : State} {p : Pos} (h : ¬ ((s.core p).img.faulty = true ∧ s.dieUp p = true)) (cc : Nat) : s.fetch p cc = s := by
  rw [fetch_eq, if_pos]
  simpa [imp_iff_or_not, or_comm] using h
theorem fetch_of_fit {s : State} {p : Pos} (h : (s.core p).img.faulty = true ∧ s.dieUp p = true) (cc : Nat) : s.fetch p cc =
    if (((s.fetchMain p cc).core p).ctl.hand ≠ .idle && decide (0 < cc)) = true then (s.fetchMain p cc).fetchTo p .hand (cc - 1)
    else s.fetchMain p cc := by
  rw [fetch_eq, if_neg (by simp [h.1, h.2])]
  rfl

/-- Fetches that find no fault any more change nothing. -/
theorem fetch_of_done {s : State} {p : Pos} {cc : Nat} (h : FetchDone s p cc) : s.fetch p cc = s := by
  by_cases hd : (s.core p).img.faulty = true ∧ s.dieUp p = true
  · obtain ⟨hm, hh⟩ := h hd.1 hd.2
    have h1 : s.fetchMain p cc = s := ite_eq_right_iff.mpr fun hi => fetchTo_of_clear (hm hi)
    rw [fetch_of_fit hd, h1]
    refine ite_eq_right_iff.mpr fun hi => fetchTo_of_clear ?_
    simp only [Bool.and_eq_true, decide_eq_true_eq] at hi
    exact hh hi.1 hi.2
  · exact fetch_of_unfit hd cc

theorem fetch_done (s : State) (p : Pos) (cc : Nat) : FetchDone (s.fetch p cc) p cc := by
  by_cases hd : (s.core p).img.faulty = true ∧ s.dieUp p = true
  · rw [fetch_of_fit hd]
    split_ifs with hh
    · rcases fetchTo_core (s.fetchMain p cc) p .hand (cc - 1) with ⟨hc, he⟩ | ⟨q, k, he, hm, hk⟩
      · rw [he]
        exact fun _ _ => ⟨fetchMain_clear s p cc, fun _ _ => hc⟩
      · intro _ _
        rw [he]
        exact ⟨fun hi => fetchMain_clear s p cc (hm.symm.trans hi), fun hi => absurd hk hi⟩
    · refine fun _ _ => ⟨fetchMain_clear s p cc, fun hi h0 => absurd ?_ hh⟩
      simp [hi, h0]
  · rw [fetch_of_unfit hd]
    exact fun hf hu => absurd ⟨hf, hu⟩ hd

/-- Fetches leave the matrix unit and the writes in flight. -/
theorem fetchTo_kept (s : State) (p : Pos) (x : Ctx) (n : Nat) :
    ((s.fetchTo p x n).core p).mat = (s.core p).mat ∧ ((s.fetchTo p x n).core p).pend = (s.core p).pend := by
  rcases fetchTo_core s p x n with ⟨-, he⟩ | ⟨q, k, he, -⟩
  · rw [he]
    exact ⟨rfl, rfl⟩
  · rw [he]
    exact ⟨Core.modCtx_mat _ _ _, Core.modCtx_pend _ _ _⟩
theorem fetch_keptUnit (s : State) (p : Pos) (cc : Nat) :
    ((s.fetch p cc).core p).mat = (s.core p).mat ∧ ((s.fetch p cc).core p).pend = (s.core p).pend := by
  have hm : ((s.fetchMain p cc).core p).mat = (s.core p).mat ∧ ((s.fetchMain p cc).core p).pend = (s.core p).pend := by
    unfold State.fetchMain
    split_ifs
    · exact fetchTo_kept s p .main cc
    · exact ⟨rfl, rfl⟩
  by_cases hd : (s.core p).img.faulty = true ∧ s.dieUp p = true
  · rw [fetch_of_fit hd]
    split_ifs
    · obtain ⟨ha, hp⟩ := fetchTo_kept (s.fetchMain p cc) p .hand (cc - 1)
      exact ⟨ha.trans hm.1, hp.trans hm.2⟩
    · exact hm
  · rw [fetch_of_unfit hd]
    exact ⟨rfl, rfl⟩

/-! ### A second run in the same cycle -/

/-- The tile has run to cycle cc: no drain has a row to read by then, no write in flight is due, no fetch finds a fault. -/
structure RanTo (s : State) (p : Pos) (cc : Nat) : Prop where
  drained : NoneDue cc (s.core p).mat.ops
  landed : Landed cc (s.core p).pend
  fetched : FetchDone s p cc

theorem State.core_advance (s : State) (p : Pos) (cc : Nat) : (s.advance p cc).core p = (s.core p).commit cc := by
  rw [State.advance, State.core_modTile]
  rfl
theorem apply_mat (c : Core) (d : RegDst) : (c.apply d).mat = c.mat := by
  unfold Core.apply
  split
  case h_3 => split_ifs <;> simp
  case h_4 => split <;> rfl
  all_goals simp
theorem commitList_mat (cc : Nat) (l : List PendW) (c : Core) : (commitList cc l c).mat = c.mat := by
  induction l generalizing c with
  | nil => rfl
  | cons w r ih =>
    rw [commitList]
    split_ifs
    · rw [ih, apply_mat]
    · rfl

theorem run_ranTo (s : State) (p : Pos) (cc : Nat) : RanTo (s.run p cc) p cc := by
  obtain ⟨hm, hp⟩ := fetch_keptUnit ((s.modCore p fun c => c.matRun cc).advance p cc) p cc
  rw [State.core_advance, State.core_modCore] at hm hp
  refine ⟨?_, ?_, fetch_done _ p cc⟩
  · rw [State.run, hm, Core.commit, commitList_mat]
    exact matRun_noneDue _ cc
  · rw [State.run, hp]
    exact commitList_landed cc _ _

theorem FetchDone.of_core {s t : State} {p : Pos} {cc : Nat} (h : FetchDone s p cc) {m : Matrix} {l : List PendW}
    (hc : t.core p = { s.core p with mat := m, pend := l }) (hp : (t.ut p).pwr = (s.ut p).pwr) (hf : (t.ut p).flags = (s.ut p).flags) :
    FetchDone t p cc := by
  have hd : t.dieUp p = s.dieUp p := by simp only [State.dieUp, hc, hp, hf]
  intro hi hu
  rw [hd] at hu
  rw [hc] at hi ⊢
  exact h hi hu

theorem chDsts_other (l : List PendW) (u : UnderTile) :
    (l.foldl (fun u w => u.chDst w.dst) u).pwr = u.pwr ∧ (l.foldl (fun u w => u.chDst w.dst) u).flags = u.flags := by
  induction l generalizing u with
  | nil => exact ⟨rfl, rfl⟩
  | cons w r ih =>
    obtain ⟨hp, hf⟩ := ih (u.chDst w.dst)
    have hw : (u.chDst w.dst).pwr = u.pwr ∧ (u.chDst w.dst).flags = u.flags := by
      unfold UnderTile.chDst
      split <;> exact ⟨rfl, rfl⟩
    exact ⟨hp.trans hw.1, hf.trans hw.2⟩

theorem State.ut_advance (s : State) (p : Pos) (cc : Nat) : (s.advance p cc).ut p =
    ((s.core p).pend.takeWhile fun w => decide (w.due ≤ cc)).foldl (fun u w => u.chDst w.dst) { s.ut p with cycle := max (s.ut p).cycle cc } := by
  rw [State.advance, State.ut_modTile]
  rfl

/-- A tile that has run to cycle cc and has at most a signal in flight by then: a further run to that cycle only lands the signal
and accumulator writes. -/
theorem rerun_eq {s t : State} {p : Pos} {cc : Nat} (h : FetchDone s p cc) {m : Matrix} {l : List PendW}
    (hc : t.core p = { s.core p with mat := m, pend := l }) (hu : t.ut p = s.ut p) (hm : NoneDue cc m.ops)
    (hl : ∀ c : Core, c.pend = l → ∃ r, c.commit cc = { c with pend := r }) :
    t.run p cc = (t.modCore p fun c => c.matRun cc).advance p cc ∧ ((t.modCore p fun c => c.matRun cc).core p).pend = l ∧
    ∃ x k e r, (t.run p cc).core p = { s.core p with mat := { m with rows := x, ops := opsRun cc m.ops, conf := k, confDue := e }, pend := r } := by
  obtain ⟨x, k, e, hr⟩ := matRun_of_noneDue (c := t.core p) (cc := cc) (by rw [hc]; exact hm)
  obtain ⟨r, hcom⟩ := hl ((t.core p).matRun cc) (by rw [hr, hc])
  have hcore : ((t.modCore p fun c => c.matRun cc).advance p cc).core p =
      { s.core p with mat := { m with rows := x, ops := opsRun cc m.ops, conf := k, confDue := e }, pend := r } := by
    rw [State.core_advance, State.core_modCore, hcom, hr, hc]
  have hut := State.ut_advance (t.modCore p fun c => c.matRun cc) p cc
  rw [State.ut_modCore, hu] at hut
  obtain ⟨hp, hf⟩ := chDsts_other (((t.modCore p fun c => c.matRun cc).core p).pend.takeWhile fun w => decide (w.due ≤ cc))
    { s.ut p with cycle := max (s.ut p).cycle cc }
  have hrun : t.run p cc = (t.modCore p fun c => c.matRun cc).advance p cc :=
    fetch_of_done (h.of_core hcore (by rw [hut, hp]) (by rw [hut, hf]))
  exact ⟨hrun, by rw [State.core_modCore, hr, hc], x, k, e, r, by rw [hrun, hcore]⟩

/-! ### The completion signal (R160, R236) -/

theorem tblGet_tblPut {α : Type} [DecidableEq α] {d v : α} (h : v ≠ d) (m : Tbl α) (k : Nat) : tblGet d (tblPut d m k v) k = v := by
  induction m with
  | nil => simp [tblPut, tblGet, h]
  | cons e r ih =>
    obtain ⟨k', v'⟩ := e
    simp only [tblPut, if_neg h]
    split_ifs with hlt heq
    · simp [tblGet]
    · simp [tblGet]
    · rw [tblGet, if_neg heq, ih]

/-- A chamber that has had a signal has counted it. -/
theorem signal_ne_empty (c : Chamber) : c.signal 1 ≠ {} := by
  intro h
  have hc : (satAdd c.count 1).toNat = 0 := congrArg (fun c => c.count.toNat) h
  have hlt := c.count.isLt
  rw [satAdd, BitVec.toNat_ofNat, Nat.mod_eq_of_lt (by omega)] at hc
  omega

theorem chamber_signalled (u : UnderTile) (c : Fin 2048) : (u.chDst (.sig c 1)).chamber c.val = (u.chamber c.val).signal 1 :=
  tblGet_tblPut (signal_ne_empty _) _ _

/-- The writes in flight once the signal of a completion is among them. -/
def pendSignal (due : Nat) (ch : Option (Bool × BitVec 13)) (l : List PendW) : List PendW :=
  match ch with
  | none => l
  | some (_, n) => pendInsert ⟨due, .sig (Fin.ofNat 2048 n.toNat) 1⟩ l

theorem mSignal_core (s : State) (p : Pos) (due : Nat) (ch : Option (Bool × BitVec 13)) :
    (s.mSignal p due ch).core p = { s.core p with pend := pendSignal due ch (s.core p).pend } := by
  unfold State.mSignal
  split
  · rfl
  · rw [State.core_modCore]
    rfl
theorem mSignal_ut (s : State) (p : Pos) (due : Nat) (ch : Option (Bool × BitVec 13)) : (s.mSignal p due ch).ut p = s.ut p := by
  unfold State.mSignal
  split
  · rfl
  · rw [State.ut_modCore]
theorem mSignal_rest (s : State) (p : Pos) (due : Nat) (ch : Option (Bool × BitVec 13)) : { s.mSignal p due ch with tiles := s.tiles } = s := by
  unfold State.mSignal
  split <;> rfl

theorem commit_pendSignal {cc : Nat} {l : List PendW} (h : Landed cc l) (due : Nat) (ch : Option (Bool × BitVec 13)) {c : Core}
    (hc : c.pend = pendSignal due ch l) : ∃ r, c.commit cc = { c with pend := r } := by
  unfold pendSignal at hc
  split at hc
  · exact ⟨l, by rw [Core.commit, hc, commitList_of_landed h]⟩
  · exact commit_sig h _ _ hc

/-- The signal of a completion, due by the cycle of a second run, has reached its chamber after it. -/
theorem advance_signalled {s : State} {p : Pos} {cc due : Nat} {l : List PendW} (h : Landed cc l) {b : Bool} {n : BitVec 13} (hd : due ≤ cc)
    (hp : (s.core p).pend = pendSignal due (some (b, n)) l) :
    ((s.advance p cc).ut p).chamber (n.toNat % 2048) = ((s.ut p).chamber (n.toNat % 2048)).signal 1 := by
  rw [State.ut_advance, hp, pendSignal, pendInsert_sig_due h _ _ hd, List.takeWhile_cons_of_pos (by simpa using hd), takeWhile_of_landed h]
  exact chamber_signalled _ (Fin.ofNat 2048 n.toNat)

/-! ### The operation that retires -/

theorem retireOp_some {kind : BitVec 8} {cc : Nat} {ops l : List MOp} {o : MOp} (h : retireOp kind cc ops = (l, some o)) :
    ((o.kind : BitVec 8) = kind ∧ o.retired = false ∧ o.finish ≤ cc) ∧
      ∃ a b, ops = a ++ o :: b ∧ l = a ++ { o with retired := true } :: b := by
  induction ops generalizing l with
  | nil => simp [retireOp] at h
  | cons x r ih =>
    rw [retireOp] at h
    split_ifs at h with hx
    · obtain ⟨rfl, ho⟩ := Prod.mk.inj h
      obtain rfl := Option.some.inj ho
      exact ⟨⟨hx.1, by simpa using hx.2.1, hx.2.2⟩, [], r, rfl, rfl⟩
    · obtain ⟨rfl, ho⟩ := Prod.mk.inj h
      obtain ⟨hk, a, b, hr, hl⟩ := ih (Prod.ext rfl ho)
      exact ⟨hk, x :: a, b, congrArg (x :: ·) hr, congrArg (x :: ·) hl⟩

/-- The operations of a kind that have not retired. -/
def liveOps (kind : Nat) (l : List MOp) : Nat := (l.filter fun o => o.kind == kind && !o.retired).length

theorem liveOps_opsRun (kind cc : Nat) (l : List MOp) : liveOps kind (opsRun cc l) = liveOps kind l := by
  have hkeep : ∀ o : MOp, ((o.kind == kind && !o.retired) && !(o.retired && o.writes.isEmpty)) = (o.kind == kind && !o.retired) := fun o => by
    cases o.retired <;> simp
  simp only [liveOps, opsRun, List.filter_filter, hkeep]
  rw [List.filter_map, List.length_map]
  rfl

theorem liveOps_retired {kind cc : Nat} {ops l : List MOp} {o : MOp} (h : retireOp (kind : BitVec 8) cc ops = (l, some o)) (hk : o.kind = kind) :
    liveOps kind l + 1 = liveOps kind ops := by
  obtain ⟨⟨-, hr, -⟩, a, b, rfl, rfl⟩ := retireOp_some h
  simp [liveOps, List.filter_append, hk, hr]
  omega

theorem noneDue_retired {kind : BitVec 8} {cc : Nat} {ops l : List MOp} {o : MOp} (h : retireOp kind cc ops = (l, some o)) (hn : NoneDue cc ops) :
    NoneDue cc l := by
  obtain ⟨-, a, b, rfl, rfl⟩ := retireOp_some h
  intro x hx t ht
  simp only [List.mem_append, List.mem_cons] at hx
  rcases hx with hx | rfl | hx
  · exact hn x (by simp [hx]) t ht
  · exact hn o (by simp) t ht
  · exact hn x (by simp [hx]) t ht

/-! ### The comparisons of a drain (R78, R80, R81) -/

/-- The comparisons of an operation: those of its drain. -/
def MOp.results (o : MOp) : List (Nat × ChkRes) := match o.drain with | some d => d.results | none => []
/-- How many comparisons found a result. -/
def countRes (x : ChkRes) (l : List (Nat × ChkRes)) : Nat := (l.filter fun r => r.2 == x).length

theorem checked_fold (l : List (Nat × ChkRes)) (m : Matrix) :
    (l.foldl Matrix.checked m).mismatch = m.mismatch + BitVec.ofNat 16 (countRes .mismatch l) ∧
    (l.foldl Matrix.checked m).skipped = m.skipped + BitVec.ofNat 16 (countRes .skipped l + countRes .ovf l) ∧
    (l.foldl Matrix.checked m).ops = m.ops := by
  induction l generalizing m with
  | nil => simp [countRes]
  | cons r l ih =>
    obtain ⟨hm, hs, ho⟩ := ih (m.checked r)
    rw [List.foldl_cons, hm, hs, ho]
    obtain ⟨n, x⟩ := r
    cases x <;> simp [Matrix.checked, countRes, BitVec.ofNat_add] <;> ac_rfl

theorem any_mismatch_iff (l : List (Nat × ChkRes)) : (l.any fun r => r.2 == .mismatch) = true ↔ countRes .mismatch l ≠ 0 := by
  rw [countRes, ← List.countP_eq_length_filter, ← Nat.pos_iff_ne_zero, List.countP_pos_iff, List.any_eq_true]

/-! ### The completion -/

/-- What the retirement leaves in the matrix unit before the second run. -/
def Matrix.completed (m : Matrix) (l : List MOp) (o : MOp) : Matrix := o.results.foldl Matrix.checked { m with ops := l }
/-- The tile whose operation has retired, run again to the cycle. -/
def State.completed (u : State) (p : Pos) (cc : Nat) (l : List MOp) (o : MOp) : State :=
  ((u.modMat p fun m => m.completed l o).mSignal p (o.finish + 1) o.chamber).run p cc
/-- A mismatch is told to the step and to the repair logic (R80). -/
def State.mismatchTold (t : State) (p : Pos) : State := (t.abortAt p (.status .checkMismatch)).tellLt p .checkMismatch
/-- The tile whose operation has retired, with what a mismatch adds. -/
def State.opRetired (u : State) (p : Pos) (cc : Nat) (l : List MOp) (o : MOp) : State :=
  if countRes .mismatch o.results = 0 then u.completed p cc l o else (u.completed p cc l o).mismatchTold p

theorem mSignal_modMat (s : State) (p : Pos) (due : Nat) (ch : Option (Bool × BitVec 13)) (f : Matrix → Matrix) :
    (s.mSignal p due ch).modMat p f = (s.modMat p f).mSignal p due ch := by
  unfold State.mSignal
  split
  · rfl
  · simp [State.modMat, State.modCore, State.modTile, vmod, Core.later]

theorem modMat_modMat (s : State) (p : Pos) (f g : Matrix → Matrix) : (s.modMat p f).modMat p g = s.modMat p fun m => g (f m) := by
  simp [State.modMat, State.modCore, State.modTile, vmod]

theorem matComplete_eq {kind : BitVec 8} {p : Pos} {cc : Nat} {s : State} {l : List MOp} {o : MOp} (hc : (s.ut p).cycle ≤ cc)
    (hd : s.dieUp p = true) (hr : retireOp kind cc ((s.run p cc).core p).mat.ops = (l, some o)) :
    matComplete kind p cc s = (s.run p cc).opRetired p cc l o := by
  rw [matComplete, tileEvent_taken hc hd]
  dsimp only
  rw [hr]
  dsimp only
  split
  next hn =>
    have hres : o.results = [] := by rw [MOp.results, hn]
    rw [State.opRetired, if_pos (by rw [hres]; rfl)]
    simp only [State.completed, Matrix.completed, hres, List.foldl_nil]
  next d hs =>
    have hres : o.results = d.results := by rw [MOp.results, hs]
    have hany := any_mismatch_iff d.results
    rw [mSignal_modMat, modMat_modMat, State.opRetired, hres]
    simp only [State.completed, Matrix.completed, hres, State.mismatchTold]
    by_cases h0 : countRes .mismatch d.results = 0
    · rw [if_neg (fun h => hany.mp h h0), if_pos h0]
    · rw [if_pos (hany.mpr h0), if_neg h0]

section
variable {u : State} {p : Pos} {cc : Nat} {kind : BitVec 8} {l : List MOp} {o : MOp} (hu : RanTo u p cc)
  (hr : retireOp kind cc (u.core p).mat.ops = (l, some o))
include hu hr

theorem completed_eq :
    (∃ x k e r, (u.completed p cc l o).core p = { u.core p with
      mat := { (u.core p).mat.completed l o with rows := x, ops := opsRun cc l, conf := k, confDue := e }, pend := r }) ∧
    { u.completed p cc l o with tiles := u.tiles } = u ∧
    ∀ b n, o.chamber = some (b, n) → o.finish < cc →
      ((u.completed p cc l o).ut p).chamber (n.toNat % 2048) = ((u.ut p).chamber (n.toNat % 2048)).signal 1 := by
  set t := (u.modMat p fun m => m.completed l o).mSignal p (o.finish + 1) o.chamber with ht
  have hops : ((u.core p).mat.completed l o).ops = l := (checked_fold o.results _).2.2
  have hcore : t.core p = { u.core p with mat := (u.core p).mat.completed l o, pend := pendSignal (o.finish + 1) o.chamber (u.core p).pend } := by
    rw [ht, mSignal_core, State.modMat, State.core_modCore]
  have hut : t.ut p = u.ut p := by rw [ht, mSignal_ut, State.ut_modMat]
  obtain ⟨hrun, hpend, x, k, e, r, h⟩ := rerun_eq hu.fetched hcore hut (by rw [hops]; exact noneDue_retired hr hu.drained)
    (fun c hc => commit_pendSignal hu.landed _ _ hc)
  refine ⟨⟨x, k, e, r, ?_⟩, ?_, fun b n hb hlt => ?_⟩
  · rw [State.completed, h, hops]
  · rw [State.completed, hrun]
    exact congrArg (fun s : State => { s with tiles := u.tiles }) (mSignal_rest (u.modMat p fun m => m.completed l o) p (o.finish + 1) o.chamber)
  · rw [hb] at hpend
    rw [State.completed, hrun, advance_signalled hu.landed (Nat.succ_le_of_lt hlt) hpend, State.ut_modCore, hut]
end

theorem abortAt_aborts {s t : State} {p : Pos} (hi : t.intake = s.intake) (ha : t.aborts = s.aborts) (hd : (t.core p).desc = (s.core p).desc)
    (c : Cause) : (t.abortAt p c).aborts = (s.abortAt p c).aborts := by
  have hs : t.stepOf = s.stepOf := funext fun l => by simp only [State.stepOf, hi]
  have hl : t.stepAt p = s.stepAt p := by simp only [State.stepAt, State.ltAt, hs, hd]
  simp only [State.abortAt, hl, State.askAbort, State.report, State.stepNum, hi, hd]
  split
  · split
    · split_ifs
      · simp only [ha]
      · exact ha
    · exact ha
  · exact ha

/-- What a mismatch adds: causes for LH-C, as the step stands, and the report of the die's LT. -/
theorem mismatchTold_eq (t : State) (p : Pos) : (t.mismatchTold p).tiles = t.tiles ∧
    (t.mismatchTold p).aborts = (t.abortAt p (.status .checkMismatch)).aborts ∧
    ∀ y, t.ltAt p = some y → .checkMismatch y ∈ (t.mismatchTold p).repair.reports := by
  obtain ⟨k, hk⟩ := tellLt_eq (t.abortAt p (.status .checkMismatch)) p .checkMismatch
  obtain ⟨l, hl⟩ := abortAt_eq t p (.status .checkMismatch)
  refine ⟨by rw [State.mismatchTold, hk, hl], by rw [State.mismatchTold, hk], fun y hy => ?_⟩
  have hlt : (t.abortAt p (.status .checkMismatch)).ltAt p = some y := by rw [hl]; exact hy
  rw [State.mismatchTold, State.tellLt, hlt]
  exact tellRepair_reports _ _

/-- A completion as the rule has it, from the tile u that has run to the cycle to the state v: the operation is of the kind that
completes, its comparisons are counted and its chamber is signalled, a mismatch is told, and no S or V register changes. -/
structure Completion (p : Pos) (cc kind : Nat) (o : MOp) (u v : State) : Prop where
  live : liveOps kind (v.core p).mat.ops + 1 = liveOps kind (u.core p).mat.ops
  kind_eq : o.kind = kind
  finish_le : o.finish ≤ cc
  mismatch : (v.core p).mat.mismatch = (u.core p).mat.mismatch + BitVec.ofNat 16 (countRes .mismatch o.results)
  skipped : (v.core p).mat.skipped = (u.core p).mat.skipped + BitVec.ofNat 16 (countRes .skipped o.results + countRes .ovf o.results)
  signalled : ∀ b n, o.chamber = some (b, n) → o.finish < cc →
    (v.ut p).chamber (n.toNat % 2048) = ((u.ut p).chamber (n.toNat % 2048)).signal 1
  aborts : v.aborts = (if countRes .mismatch o.results = 0 then u else u.abortAt p (.status .checkMismatch)).aborts
  reported : ∀ y, countRes .mismatch o.results ≠ 0 → u.ltAt p = some y → .checkMismatch y ∈ v.repair.reports
  registers : ∀ x r, (v.core p).readS x r = (u.core p).readS x r ∧ (v.core p).readV x r = (u.core p).readV x r

theorem completion_of_kind {u : State} {p : Pos} {cc kind : Nat} {l : List MOp} {o : MOp} (hu : RanTo u p cc)
    (hr : retireOp (kind : BitVec 8) cc (u.core p).mat.ops = (l, some o)) (hk : o.kind = kind) :
    Completion p cc kind o u (u.opRetired p cc l o) := by
  obtain ⟨⟨x, k, e, q, hcore⟩, hrest, hsig⟩ := completed_eq hu hr
  obtain ⟨htiles, haborts, hreports⟩ := mismatchTold_eq (u.completed p cc l o) p
  obtain ⟨hmis, hskip, hops⟩ := checked_fold o.results { (u.core p).mat with ops := l }
  obtain ⟨⟨-, -, hfin⟩, -⟩ := retireOp_some hr
  have hv : (u.opRetired p cc l o).tiles = (u.completed p cc l o).tiles := by rw [State.opRetired, apply_ite State.tiles, htiles, ite_self]
  have hvc : (u.opRetired p cc l o).core p = (u.completed p cc l o).core p := by rw [State.core, State.core, hv]
  have hvu : (u.opRetired p cc l o).ut p = (u.completed p cc l o).ut p := by rw [State.ut, State.ut, hv]
  rw [hcore] at hvc
  have hintake : (u.completed p cc l o).intake = u.intake := by
    have h := congrArg State.intake hrest
    exact h
  have hab : (u.completed p cc l o).aborts = u.aborts := by
    have h := congrArg State.aborts hrest
    exact h
  refine ⟨?_, hk, hfin, ?_, ?_, ?_, ?_, ?_, ?_⟩
  · rw [hvc, liveOps_opsRun, liveOps_retired hr hk]
  · rw [hvc]
    exact hmis
  · rw [hvc]
    exact hskip
  · rw [hvu]
    exact hsig
  · rw [State.opRetired]
    split_ifs
    · exact hab
    · rw [haborts]
      exact abortAt_aborts hintake hab (by rw [hcore]) _
  · intro y h0 hy
    rw [State.opRetired, if_neg h0]
    exact hreports y (by rw [State.ltAt, hcore]; exact hy)
  · rw [hvc]
    intro x r
    cases x <;> exact ⟨rfl, rfl⟩

/-- The rule for completions, for an operation whose kind has eight bits, as every kind of Table 6.6 has. -/
theorem matrixCompletion_of_kind_lt {p : Pos} {cc kind : Nat} {c : Instr} {s : State} {o : MOp} {l : List MOp}
    (hm : (kind, c) ∈ [(2, Instr.mloadComplete p cc), (3, Instr.mstepComplete p cc), (4, Instr.mdrainComplete p cc)])
    (hc : (s.ut p).cycle ≤ cc) (hd : s.dieUp p = true) (hr : retireOp (kind : BitVec 8) cc ((s.run p cc).core p).mat.ops = (l, some o))
    (hk : o.kind < 256) : ∃ v, exec c s = .next v ∧ Completion p cc kind o (s.run p cc) v := by
  obtain ⟨hx, hlt⟩ : exec c s = .next (matComplete (kind : BitVec 8) p cc s) ∧ kind < 256 := by
    simp only [List.mem_cons, Prod.mk.injEq, List.not_mem_nil, or_false] at hm
    rcases hm with ⟨rfl, rfl⟩ | ⟨rfl, rfl⟩ | ⟨rfl, rfl⟩ <;> exact ⟨rfl, by omega⟩
  have hkind : o.kind = kind := by
    have h8 := congrArg BitVec.toNat (retireOp_some hr).1.1
    simpa [Nat.mod_eq_of_lt hk, Nat.mod_eq_of_lt hlt] using h8
  exact ⟨_, hx.trans (congrArg Host.Outcome.next (matComplete_eq hc hd hr)), completion_of_kind (run_ranTo s p cc) hr hkind⟩

/-! ### A kind that is compared as eight bits -/

/-- A finished operation whose kind is 2 (MLOAD) only in its low eight bits. -/
def wideKindOp : MOp := { kind := 258, start := 0, finish := 0, chamber := none, writes := [], drain := none, retired := false }
/-- The reset state with the die of P.00.00 in power state RUN and that operation in flight there. -/
def wideKindState : State :=
  (State.reset.modUt 0 fun u => { u with pwr := { u.pwr with state := 0 } }).modMat 0 fun m => { m with ops := [wideKindOp] }

theorem wideKindState_retires : (wideKindState.ut 0).cycle ≤ 0 ∧ wideKindState.dieUp 0 = true ∧
    retireOp ((2 : Nat) : BitVec 8) 0 ((wideKindState.run 0 0).core 0).mat.ops = ([{ wideKindOp with retired := true }], some wideKindOp) := by
  decide +kernel

theorem not_matrixCompletions : ¬ Rules.MatrixCompletions := by
  intro h
  obtain ⟨hc, hd, hr⟩ := wideKindState_retires
  obtain ⟨v, -, -, hk, -⟩ := h 0 0 2 (.mloadComplete 0 0) wideKindState wideKindOp _ (by simp) hc hd hr
  exact absurd hk (by decide)

/-- Refutes O22: `retireOp` compares the kind of an operation as eight bits, so the completion of an MLOAD (kind 2) retires an operation
of kind 258, and the retired operation is not of the kind that completes. The M slot enters no such operation: for kinds below 256 the
completions are as stated (`matrixCompletion_of_kind_lt`), and the rule of the keeper holds (`currentKeeper_holds`). -/
theorem not_matrixCompletionsAndKeeper : ¬ Obligations.MatrixCompletionsAndKeeper := fun h => not_matrixCompletions h.1

end Sys2Proof.Machine
end

section
/-! PROOFS. Results and their latency (O7): a write in flight that stands alone, before and from the cycle in which it is due. -/

namespace Sys2Proof.Machine

open Sys2Proof

/-! ### A write in flight that stands alone (R118) -/

section
variable (c : Core) (x y : Ctx) (due : Nat) (d : RegDst) (l : List PendW)

theorem later_of_idle (h : c.pend = []) : c.later due d = { c with pend := [⟨due, d⟩] } := by
  rw [Core.later, h]
  rfl

theorem commit_later_before {cc : Nat} (h : c.pend = []) (hd : cc < due) : (c.later due d).commit cc = c.later due d := by
  have hl : Landed cc (c.later due d).pend := by simpa [Landed, later_of_idle c due d h] using hd
  exact commitList_of_landed hl _

theorem commit_later_due {cc : Nat} (h : c.pend = []) (hd : due ≤ cc) :
    (c.later due d).commit cc = { ({ c with pend := [⟨due, d⟩] } : Core).apply d with pend := [] } := by
  simp [later_of_idle c due d h, Core.commit, commitList, hd]

theorem readS_pend (r : Nat) : ({ c with pend := l } : Core).readS x r = c.readS x r := by cases x <;> rfl

theorem readS_apply_s (r : Fin 32) (v : Word) : (c.apply (.s x r v)).readS x r.val = v := by
  simp [Core.apply, Core.readS, vat]

theorem readS_apply_s_other (r : Fin 32) (v : Word) {n : Nat} (h : regCtx y ≠ regCtx x ∨ n % 32 ≠ r.val) :
    (c.apply (.s x r v)).readS y n = c.readS y n := by
  by_cases hy : regCtx y = regCtx x
  · have hn : r.val ≠ n % 32 := fun e => h.elim (absurd hy) (absurd e.symm)
    simp [Core.apply, Core.readS, hy, vat, Vector.getElem_set_ne, hn]
  · simp only [Core.apply, Core.readS, Core.ctx_modCtx_ne _ _ _ _ hy]

end

/-- Settles O7: the write stands alone in the list, where a commit before its cycle leaves it and one from then on applies it. -/
theorem resultsAppearAtLatency : Obligations.ResultsAppearAtLatency := by
  intro c x r v t l cc hp
  refine ⟨fun h => ?_, fun h => ⟨?_, fun y n hn => ?_⟩⟩
  · rw [commit_later_before c _ _ hp h, Core.later_readS]
  · rw [commit_later_due c _ _ hp h, readS_pend, readS_apply_s]
  · rw [commit_later_due c _ _ hp h, readS_pend, readS_apply_s_other _ _ _ _ _ hn, readS_pend]

end Sys2Proof.Machine
end

section
/-! PROOFS. Program images (O60): the rules of R129 that the resident regions of an image meet. -/

namespace Sys2Proof.Machine

open Sys2Proof

/-! ### Fields of a word -/

theorem fld_eq {w : Nat} (v : BitVec w) (lo len : Nat) : fld v lo len = v.toNat / 2 ^ lo % 2 ^ len := by
  simp [fld, Nat.shiftRight_eq_div_pow]

theorem eq_zero_of_halves {b : Word} (hl : fld b 0 32 = 0) (hh : fld b 32 32 = 0) : b = 0 := by
  rw [fld_eq] at hl hh
  have := b.isLt
  exact BitVec.eq_of_toNat_eq (by simp; omega)

/-- A high half of at most 1 is bit 32, and the bits above are 0. -/
theorem bit32_of_high {b : Word} (h : fld b 32 32 ≤ 1) : (fld b 32 32 == 1) = b.getLsbD 32 ∧ fld b 33 31 = 0 := by
  have hb := b.isLt
  rw [fld_eq] at h
  rw [fld_eq, fld_eq]
  refine ⟨?_, by omega⟩
  rw [BitVec.getLsbD, Nat.testBit_eq_decide_div_mod_eq, Bool.eq_iff_iff, beq_iff_eq, decide_eq_true_eq]
  omega

/-! ### The declarations of an image (R129, Table 5.7) -/

/-- The two words of declaration i, as the image's bytes hold them. -/
def declWord (bs : List Byte) (i k : Nat) : Word := wordOf ((bs.drop (0x810 + 16 * i)).take 16) k
/-- Base, length and flags of declaration i. -/
def declOf (bs : List Byte) (i : Nat) : Nat × Nat × Nat := ((declWord bs i 0).toNat, fld (declWord bs i 1) 0 32, fld (declWord bs i 1) 32 32)
/-- A declaration within the rules of R129. -/
def DeclOk (r : Nat × Nat × Nat) : Prop := r.1 % 65536 = 0 ∧ r.2.1 % 65536 = 0 ∧ 65536 ≤ r.2.1 ∧ r.1 + r.2.1 ≤ 2 ^ 26 ∧ r.2.2 ≤ 1
/-- Two regions, whatever they carry beside base and length, that do not overlap. -/
def RegionsApart {α : Type} (a b : Nat × Nat × α) : Prop := a.1 + a.2.1 ≤ b.1 ∨ b.1 + b.2.1 ≤ a.1

theorem clear_iff (l : List (Nat × Nat × Nat)) : parseImage.clear l = true ↔ l.Pairwise RegionsApart := by
  induction l with
  | nil => simp [parseImage.clear]
  | cons x r ih => simp [parseImage.clear, ih, RegionsApart]

/-- What the check of an image establishes of its declarations: n are in use, within the rules and apart, the others are zero. -/
theorem parseImage_decls {bs : List Byte} {m : ImageIn} (h : parseImage bs = some m) : ∃ n ≤ 8,
    m.res = (((List.range 8).map (declOf bs)).take n).map (fun r => (r.1, r.2.1, r.2.2 == 1)) ∧
    (∀ r ∈ ((List.range 8).map (declOf bs)).take n, DeclOk r) ∧ (((List.range 8).map (declOf bs)).take n).Pairwise RegionsApart ∧
    ∀ r ∈ ((List.range 8).map (declOf bs)).drop n, r = (0, 0, 0) := by
  unfold parseImage at h
  extract_lets w0 w1 n regions decl res used regOk htab at h
  split at h
  · cases h
  · next hc =>
    simp only [Bool.or_eq_true, not_or, Bool.not_eq_true'] at hc
    obtain ⟨⟨⟨⟨⟨⟨-, hn⟩, -⟩, hok⟩, hap⟩, hz⟩, -⟩ := hc.1.1
    cases h
    refine ⟨regions, by simpa using hn, rfl, fun r hr => ?_, ?_, fun r hr => ?_⟩
    · have hr := List.all_eq_true.mp (Bool.not_eq_false _ |>.mp hok) r hr
      simp only [regOk, Bool.and_eq_true, beq_iff_eq, decide_eq_true_eq] at hr
      obtain ⟨⟨⟨⟨hb, hl⟩, hm⟩, he⟩, hf⟩ := hr
      exact ⟨hb, hl, hm, he, hf⟩
    · exact (clear_iff _).mp (Bool.not_eq_false _ |>.mp hap)
    · have hr := List.all_eq_true.mp (Bool.not_eq_false _ |>.mp hz) r hr
      simp only [Bool.and_eq_true, beq_iff_eq] at hr
      obtain ⟨⟨hb, hl⟩, hf⟩ := hr
      exact Prod.ext hb (Prod.ext hl hf)

/-- Settles O60: the regions are the declarations in use, which the check of the image admits; the others are zero. -/
theorem residentRegions : Obligations.ResidentRegions := by
  intro bs m h
  obtain ⟨n, hn, hm, hok, hap, hz⟩ := parseImage_decls h
  refine ⟨?_, fun r hr => ?_, ?_, fun i hi => ?_⟩
  · rw [hm, List.length_map]
    exact (List.length_take_le _ _).trans hn
  · rw [hm] at hr
    obtain ⟨d, hd, rfl⟩ := List.mem_map.mp hr
    obtain ⟨hb, hl, hs, he, -⟩ := hok d hd
    exact ⟨hb, hl, hs, he⟩
  · rw [hm, List.pairwise_map]
    exact hap
  · have hd : m.res[i]? = if i < n then some (((declOf bs i).1, (declOf bs i).2.1, (declOf bs i).2.2 == 1)) else none := by
      rw [hm, List.getElem?_map, List.getElem?_take, List.getElem?_map, List.getElem?_range hi]
      split_ifs <;> rfl
    by_cases hin : i < n
    · rw [hd, if_pos hin]
      refine ⟨fun r hr => ?_, nofun⟩
      have hu : declOf bs i ∈ ((List.range 8).map (declOf bs)).take n := List.mem_take_iff_getElem.mpr ⟨i, by simp; omega, by simp⟩
      obtain ⟨-, -, -, -, hf⟩ := hok _ hu
      obtain ⟨h1, h2⟩ := bit32_of_high hf
      cases hr
      exact ⟨Prod.ext rfl (Prod.ext rfl h1), h2⟩
    · rw [hd, if_neg hin]
      refine ⟨nofun, fun _ => ?_⟩
      have hu : declOf bs i ∈ ((List.range 8).map (declOf bs)).drop n :=
        List.mem_drop_iff_getElem.mpr ⟨i - n, by simp; omega, by simp [Nat.add_sub_cancel' (Nat.le_of_not_lt hin)]⟩
      have hzero := hz _ hu
      simp only [declOf, Prod.mk.injEq] at hzero
      obtain ⟨h1, h2, h3⟩ := hzero
      exact ⟨BitVec.eq_of_toNat_eq h1, eq_zero_of_halves h2 h3⟩

end Sys2Proof.Machine
end

section
/-! PROOFS. The issue of a bundle (O5, O6): what a fault leaves, which parts of the control unit the faults at issue do not see, a context
that stands before its bundle, and what the issue leaves. -/

namespace Sys2Proof.Machine

open Sys2Proof

/-! ### Updates of a core -/

section
variable (s : State) (p q : Pos)

@[simp] theorem State.core_modCtl (f : Control → Control) : (s.modCtl p f).core p = { s.core p with ctl := f (s.core p).ctl } := by
  simp [State.modCtl]
@[simp] theorem State.ut_modCtl (f : Control → Control) : (s.modCtl p f).ut q = s.ut q := by simp [State.modCtl]

@[simp] theorem State.core_modSpd (f : Scratch → Scratch) : (s.modSpd p f).core p = { s.core p with spd := f (s.core p).spd } := by
  simp [State.modSpd]
@[simp] theorem State.ut_modSpd (f : Scratch → Scratch) : (s.modSpd p f).ut q = s.ut q := by simp [State.modSpd]
/-- An update of the scratchpad counts by what it makes of it as it is. -/
theorem State.modSpd_congr {f g : Scratch → Scratch} (h : f (s.core p).spd = g (s.core p).spd) : s.modSpd p f = s.modSpd p g := by
  unfold State.core at h
  simp only [State.modSpd, State.modCore, State.modTile, vmod]
  rw [h]

/-- An update that leaves the core as it is leaves the state. -/
theorem State.modCore_self {f : Core → Core} (h : f (s.core p) = s.core p) : s.modCore p f = s := by
  have ht : ({ core := f (s.core p), ut := (s.tile p).ut } : Tile) = s.tile p := by rw [h]; rfl
  change { s with tiles := s.tiles.set p { core := f (s.core p), ut := (s.tile p).ut } } = s
  rw [ht]
  exact congrArg (fun v => { s with tiles := v }) (Vector.set_getElem_self _)
/-- The step on a tile is found by the core's descriptor and the intake unit. -/
theorem stepAt_congr {s t : State} {p : Pos} (hd : (t.core p).desc = (s.core p).desc) (hi : t.intake = s.intake) : t.stepAt p = s.stepAt p := by
  have hs : t.stepOf = s.stepOf := funext fun l => by simp only [State.stepOf, hi]
  simp only [State.stepAt, State.ltAt, hs, hd]

end

theorem Core.modCtx_self (c : Core) (x : Ctx) : c.modCtx x (fun _ => c.ctx x) = c := by cases x <;> rfl

section
variable (c : Core) (x : Ctx) (k : Control) (r : Nat)
@[simp] theorem Core.readS_ctl : ({ c with ctl := k } : Core).readS x r = c.readS x r := by cases x <;> rfl
@[simp] theorem Core.readA_ctl : ({ c with ctl := k } : Core).readA x r = c.readA x r := by cases x <;> rfl
@[simp] theorem Core.readP_ctl : ({ c with ctl := k } : Core).readP x r = c.readP x r := by cases x <;> rfl
@[simp] theorem Core.readV_ctl : ({ c with ctl := k } : Core).readV x r = c.readV x r := by cases x <;> rfl
@[simp] theorem guardTrue_ctl (w : BitVec 64) : guardTrue { c with ctl := k } x w = guardTrue c x w := by simp only [guardTrue, Core.readP_ctl]
@[simp] theorem Core.ctx_ctl : ({ c with ctl := k } : Core).ctx x = c.ctx x := by cases x <;> rfl
end

/-! ### What a fault leaves (R141) -/

/-- The control unit after a fault. -/
def Control.faulted (k : Control) (x : Ctx) (idx : BitVec 14) (slots : BitVec 4) (f : CoreFault) : Control :=
  { k with
    fault := { code := BitVec.ofNat 8 (faultCode f), context := BitVec.ofNat 2 (ctxNum x).val, hw := faultHw f, valid := true,
               slots := slots, index := idx, pound := k.pound }
    stopped := k.stopped.set (ctxNum x) true
    mainFault := if x = .main || x = .hand then BitVec.ofNat 8 (faultCode f) else k.mainFault
    main := if x = .main then .idle else k.main
    hand := if x = .hand then .idle else k.hand
    towBusy := if x = .tow then false else k.towBusy }

section
variable (s : State) (p : Pos) (x : Ctx) (idx : BitVec 14) (m : BitVec 4) (f : CoreFault)

/-- A fault leaves its record in the control unit; beyond it the lock-houses and the causes of aborts may hear of it. -/
theorem fault_faulted : ∃ r l, s.fault p x idx m f = { s.modCtl p (fun k => k.faulted x idx m f) with repair := r, aborts := l } ∧
    (faultHw f = false → r = s.repair) := by
  unfold State.fault
  extract_lets s1 s2
  obtain ⟨r, hr, hp⟩ : ∃ r, s2 = { s1 with repair := r } ∧ (faultHw f = false → r = s.repair) := by
    by_cases h : (faultHw f && (x == .main || x == .hand)) = true
    · obtain ⟨r, hr⟩ := tellLt_eq s1 p .coreFault
      refine ⟨r, by simpa only [s2, if_pos h] using hr, fun hf => ?_⟩
      simp [hf] at h
    · exact ⟨s1.repair, if_neg h, fun _ => rfl⟩
  split
  · obtain ⟨l, hl⟩ := faultAbort_eq s2 p x idx f
    exact ⟨r, l, by rw [hl, hr]; rfl, hp⟩
  · exact ⟨r, s.aborts, hr, hp⟩

theorem core_fault : (s.fault p x idx m f).core p = { s.core p with ctl := (s.core p).ctl.faulted x idx m f } := by
  obtain ⟨r, l, h, -⟩ := fault_faulted s p x idx m f
  rw [h]
  exact State.core_modCtl s p (fun k => k.faulted x idx m f)

end

/-! ### What the faults at issue see of the control unit -/

/-- An update of the control unit that the faults at issue do not see. -/
structure FaultBlind (g : Control → Control) : Prop where
  issued : ∀ k, (g k).handIssued = k.handIssued
  budget : ∀ k, (g k).handBudget = k.handBudget
  pound : ∀ k, (g k).pound = k.pound
  vl : ∀ k, (g k).vl = k.vl

section
variable {g : Control → Control} (hg : FaultBlind g) (s : State) (p : Pos) (x : Ctx) (w : BitVec 64)

theorem stepAt_modCtl (g : Control → Control) : (s.modCtl p g).stepAt p = s.stepAt p := stepAt_congr (by simp) rfl

include hg in
theorem cFaults_modCtl (idx : BitVec 14) : cFaults (s.modCtl p g) p x idx w = cFaults s p x idx w := by
  simp only [cFaults, State.core_modCtl, stepAt_modCtl, Core.readA_ctl, Core.readS_ctl, istoreBad, hg.pound] <;> rfl
include hg in
theorem vFaults_modCtl : vFaults (s.modCtl p g) p x w = vFaults s p x w := by
  simp only [vFaults, State.vl, State.core_modCtl, Core.readA_ctl, hg.vl] <;> rfl
theorem mFaults_modCtl (g : Control → Control) (cc : Nat) : mFaults (s.modCtl p g) p x cc w = mFaults s p x cc w := by
  simp only [mFaults, arrBad, State.core_modCtl, Core.readA_ctl, Core.readS_ctl] <;> rfl
theorem xFaults_modCtl (g : Control → Control) : xFaults (s.modCtl p g) p x w = xFaults s p x w := by
  have ha : (s.modCtl p g).addrBad = s.addrBad := rfl
  have hb : (s.modCtl p g).badLt = s.badLt := rfl
  simp only [xFaults, stagingFull, berthOpen, canalOk, stepAt_modCtl, State.core_modCtl, State.ut_modCtl, Core.readA_ctl, Core.readS_ctl, ha, hb] <;> rfl

include hg in
theorem slotFaults_modCtl (cc : Nat) (idx : BitVec 14) (k : SlotK) : slotFaults (s.modCtl p g) p x cc idx k w = slotFaults s p x cc idx k w := by
  unfold slotFaults
  rw [State.core_modCtl, guardTrue_ctl]
  cases k with
  | c => rw [cFaults_modCtl hg]
  | v => rw [vFaults_modCtl hg]
  | m => rw [mFaults_modCtl]
  | x => rw [xFaults_modCtl]

include hg in
theorem bundleFaults_modCtl (i : Issue) : bundleFaults (s.modCtl i.pos g) i = bundleFaults s i := by
  simp only [bundleFaults, State.core_modCtl, hg.issued, hg.budget, slotFaults_modCtl hg]

theorem stallPoint_modCtl (g : Control → Control) (b : Bundle) : stallPoint (s.modCtl p g) p b = stallPoint s p b := by
  simp only [stallPoint, stagingFull, State.slot, toHandler, handlerEntry, State.core_modCtl, State.ut_modCtl, guardTrue_ctl] <;> rfl

end

/-! ### A context that stands before its bundle -/

/-- The context may issue in the bundle's cycle, it has issued nothing in it, and its next bundle is this one, which the instruction store
holds without error. -/
structure Standing (i : Issue) (s : State) : Prop where
  cycle : (s.ut i.pos).cycle ≤ i.cc
  up : s.dieUp i.pos = true
  ready : (s.run i.pos i.cc).ctxReady i.pos i.ctx i.cc = true
  fresh : (((s.run i.pos i.cc).core i.pos).ctx i.ctx).opened = true → (((s.run i.pos i.cc).core i.pos).ctx i.ctx).curCc ≠ i.cc
  next : (((s.run i.pos i.cc).core i.pos).ctx i.ctx).nextIdx = i.idx
  due : (((s.run i.pos i.cc).core i.pos).ctx i.ctx).nextCc ≤ i.cc
  clean : ((s.run i.pos i.cc).core i.pos).img.ecc.contains i.idx.toNat = false

/-- What the arrival of a context at its bundle does to the control unit. -/
def Control.arrived (x : Ctx) (k : Control) : Control :=
  { k with hand := if x = .hand then .running else k.hand, hwinOpen := if x = .main then false else k.hwinOpen }

theorem arrived_faultBlind (x : Ctx) : FaultBlind (Control.arrived x) := ⟨fun _ => rfl, fun _ => rfl, fun _ => rfl, fun _ => rfl⟩

theorem skip_of_next {c : CtxState} {idx : BitVec 14} {cc : Nat} (hn : c.nextIdx = idx) (hd : c.nextCc ≤ cc) (store : Tbl Bundle) (room f n : Nat) :
    CtxState.skip store idx cc room f c n = .reached c n := by
  cases f <;> simp [CtxState.skip, hn, hd]

theorem arriveAt_self (s : State) (p : Pos) (x : Ctx) : s.arriveAt p x ((s.core p).ctx x) 0 = s :=
  State.modCore_self s p (by simp [Core.modCtx_self])

/-- The first slot of a bundle that its context stands before opens the bundle. -/
theorem openSlot_of_standing {i : Issue} {s : State} (h : Standing i s) (k : SlotK) :
    openSlot s i k = openBundle (s.run i.pos i.cc) i k (((s.run i.pos i.cc).core i.pos).ctx i.ctx) 0 := by
  obtain ⟨hc, hu, hr, hf, hn, hd, he⟩ := h
  have h1 : (i.cc < (s.ut i.pos).cycle || !s.dieUp i.pos) = false := by simp [hc, hu]
  have h2 (q : CtxState) (hq : q.opened = true → q.curCc ≠ i.cc) : (q.opened && q.curCc == i.cc && q.curIdx == i.idx) = false := by
    cases ho : q.opened
    · rfl
    · simp [hq ho]
  simp only [openSlot, h1, h2 _ hf, hr, skip_of_next hn hd, he]
  rfl

/-- What the issue of a bundle leaves before its slots take effect: a running handler has yielded to MAIN, and the context goes on. -/
def State.issued (s : State) (i : Issue) : State :=
  (if i.ctx = .main then s.yieldHand i.pos i.cc else s).modCore i.pos fun c =>
    { c.modCtx i.ctx (fun q => { q.seq i.idx i.cc with slotsDone := 0 }) with
      ctl := { c.ctl with issueCc := some i.cc, handIssued := if i.ctx = .hand then c.ctl.handIssued + 1 else c.ctl.handIssued } }

/-- The context has arrived at its bundle. -/
def State.arrived (s : State) (i : Issue) (cs : CtxState) (n : Nat) : State := (s.arriveAt i.pos i.ctx cs n).modCtl i.pos (Control.arrived i.ctx)

/-- The opening of a bundle: faults, then the stall of MAIN, then the issue. -/
theorem openBundle_eq (s : State) (i : Issue) (k : SlotK) (cs : CtxState) (n : Nat) : openBundle s i k cs n =
    match bundleFaults (s.arrived i cs n) i with
    | f :: _ => .ended ((s.arrived i cs n).fault i.pos i.ctx i.idx (slotMask (bundleFaults (s.arrived i cs n) i)) f.2)
    | [] =>
      match (if i.ctx = .main then stallPoint (s.arrived i cs n) i.pos i.bundle else none) with
      | some pt => .ended ((s.arrived i cs n).hold i pt)
      | none =>
        if (i.ctx == .tow || i.ctx == .dbg) && (stallPoint (s.arrived i cs n) i.pos i.bundle).isSome then .closed
        else openedSlot ((s.arrived i cs n).issued i) i k := rfl

section
variable {u : State} {i : Issue} (k : SlotK)

theorem arrived_self : u.arrived i ((u.core i.pos).ctx i.ctx) 0 = u.modCtl i.pos (Control.arrived i.ctx) := by rw [State.arrived, arriveAt_self]
theorem bundleFaults_arrived : bundleFaults (u.arrived i ((u.core i.pos).ctx i.ctx) 0) i = bundleFaults u i := by
  rw [arrived_self, bundleFaults_modCtl (arrived_faultBlind i.ctx)]
theorem stallPoint_arrived : stallPoint (u.arrived i ((u.core i.pos).ctx i.ctx) 0) i.pos i.bundle = stallPoint u i.pos i.bundle := by
  rw [arrived_self, stallPoint_modCtl]

theorem openBundle_of_fault {f : SlotK × CoreFault} {r : List (SlotK × CoreFault)} (h : bundleFaults u i = f :: r) :
    openBundle u i k ((u.core i.pos).ctx i.ctx) 0 =
      .ended ((u.modCtl i.pos (Control.arrived i.ctx)).fault i.pos i.ctx i.idx (slotMask (f :: r)) f.2) := by
  rw [openBundle_eq, bundleFaults_arrived, h, arrived_self]

theorem openBundle_of_stall {pt : Fin 6} (h : bundleFaults u i = []) (hx : i.ctx = .main) (hp : stallPoint u i.pos i.bundle = some pt) :
    openBundle u i k ((u.core i.pos).ctx i.ctx) 0 = .ended ((u.modCtl i.pos (Control.arrived i.ctx)).hold i pt) := by
  rw [openBundle_eq, bundleFaults_arrived, stallPoint_arrived, h, arrived_self, if_pos hx, hp]

theorem openBundle_of_clear (h : bundleFaults u i = []) (hp : i.ctx = .hand ∨ stallPoint u i.pos i.bundle = none) :
    openBundle u i k ((u.core i.pos).ctx i.ctx) 0 = openedSlot ((u.modCtl i.pos (Control.arrived i.ctx)).issued i) i k := by
  have hm : (if i.ctx = .main then stallPoint u i.pos i.bundle else none) = none := by
    rcases hp with hx | hn
    · rw [hx, if_neg (by decide)]
    · rw [hn, ite_self]
  have hc : ((i.ctx == .tow || i.ctx == .dbg) && (stallPoint u i.pos i.bundle).isSome) = false := by
    rcases hp with hx | hn
    · rw [hx]; rfl
    · rw [hn]; exact Bool.and_false _
  rw [openBundle_eq, bundleFaults_arrived, stallPoint_arrived, h, arrived_self, hm]
  simp [hc]

end

end Sys2Proof.Machine
end

section
/-! PROOFS. LOAD and CHART manifests (O38): the end of a load by what the store of the image holds, and the entries of a CHART manifest. -/

namespace Sys2Proof.Machine

open Sys2Proof

/-! ### A change of each core of a list -/

section
variable {f : Core → Core} (ps : List Pos) (s : State) (p : Pos)

/-- What the change keeps of every core stays of every core. -/
theorem foldl_modCore_keeps {β : Type} {g : Core → β} (hf : ∀ c, g (f c) = g c) :
    g ((ps.foldl (fun s q => s.modCore q f) s).core p) = g (s.core p) :=
  foldl_reads_same (g := fun s : State => g (s.core p)) (fun s q _ => by
    by_cases h : p = q
    · rw [h, State.core_modCore, hf]
    · rw [State.core_modCore_ne _ _ _ _ h]) s

theorem foldl_modCore_core_of_not_mem (h : p ∉ ps) : (ps.foldl (fun s q => s.modCore q f) s).core p = s.core p :=
  foldl_reads_same (g := fun s : State => s.core p) (fun s q hq => State.core_modCore_ne s q p f fun e => h (e ▸ hq)) s

theorem foldl_modCore_ut : (ps.foldl (fun s q => s.modCore q f) s).ut p = s.ut p :=
  foldl_reads_same (g := fun s : State => s.ut p) (fun s q _ => State.ut_modCore s q p f) s
theorem foldl_modCore_intake : (ps.foldl (fun s q => s.modCore q f) s).intake = s.intake := 
  foldl_reads_same (g := State.intake) (fun s q _ => State.modCore_intake s q f) s
theorem foldl_modCore_host : (ps.foldl (fun s q => s.modCore q f) s).host = s.host := 
  foldl_reads_same (g := State.host) (fun s q _ => State.modCore_host s q f) s

end

/-! ### A change of what is kept for the LTs -/

section
variable (s : State) (l : Vector LtPos 120) (p : Pos)
theorem State.withLtpos_core : ({ s with ltpos := l } : State).core p = s.core p := rfl
theorem State.withLtpos_ut : ({ s with ltpos := l } : State).ut p = s.ut p := rfl
theorem State.withLtpos_intake : ({ s with ltpos := l } : State).intake = s.intake := rfl
theorem State.withLtpos_host : ({ s with ltpos := l } : State).host = s.host := rfl
end

/-! ### The end of a load (R127 to R130) -/

/-- The image is on every core of the positions. -/
def State.coresLoaded (v : State) (ps : List Pos) (m : ImageIn) : State := ps.foldl (fun s p => s.modCore p fun c => c.loadImage m) v
/-- The image is on every core of the LTs, and remembered for each LT. -/
def State.imageLoaded (v : State) (lts : List Lt) (o : BitVec 48) (n : Nat) (m : ImageIn) : State :=
  let z := v.coresLoaded (lts.filterMap v.posOf) m
  { z with ltpos := Vector.ofFn fun l : Fin 120 => if lts.contains l then { z.ltpos[l] with lastLoad := some (o, n) } else z.ltpos[l] }

section
variable (v : State) (ps : List Pos) (m : ImageIn) (p : Pos)

theorem coresLoaded_img : ((v.coresLoaded ps m).core p).img =
    if p ∈ ps then { loaded := true, bundles := m.bundles, slack := m.slack, store := m.store, htab := m.htab } else (v.core p).img := by
  unfold State.coresLoaded
  split_ifs with h
  · exact foldl_modCore_core (P := fun c => c.img = ⟨true, m.bundles, m.slack, m.store, m.htab, []⟩) (fun _ => rfl) h v
  · rw [foldl_modCore_core_of_not_mem ps v p h]
theorem coresLoaded_mem : ((v.coresLoaded ps m).core p).spd.mem = (v.core p).spd.mem :=
  foldl_modCore_keeps (g := fun c => c.spd.mem) ps v p fun _ => rfl
theorem coresLoaded_ctl : ((v.coresLoaded ps m).core p).ctl = (v.core p).ctl := foldl_modCore_keeps (g := Core.ctl) ps v p fun _ => rfl
theorem coresLoaded_ut : (v.coresLoaded ps m).ut p = v.ut p := foldl_modCore_ut ps v p
theorem coresLoaded_ltpos : (v.coresLoaded ps m).ltpos = v.ltpos := foldl_modCore_ltpos _ ps v
theorem coresLoaded_intake : (v.coresLoaded ps m).intake = v.intake := foldl_modCore_intake ps v
theorem coresLoaded_host : (v.coresLoaded ps m).host = v.host := foldl_modCore_host ps v

end

section
variable (v : State) (lts : List Lt) (o : BitVec 48) (n : Nat) (m : ImageIn)

theorem imageLoaded_core (p : Pos) : (v.imageLoaded lts o n m).core p = (v.coresLoaded (lts.filterMap v.posOf) m).core p :=
  State.withLtpos_core _ _ p
theorem imageLoaded_ut (p : Pos) : (v.imageLoaded lts o n m).ut p = v.ut p :=
  (State.withLtpos_ut _ _ p).trans (coresLoaded_ut v (lts.filterMap v.posOf) m p)
theorem imageLoaded_ltpos (l : Fin 120) :
    (v.imageLoaded lts o n m).ltpos[l] = if lts.contains l then { v.ltpos[l] with lastLoad := some (o, n) } else v.ltpos[l] := by
  simp [State.imageLoaded, coresLoaded_ltpos]
theorem imageLoaded_intake : (v.imageLoaded lts o n m).intake = v.intake :=
  (State.withLtpos_intake _ _).trans (coresLoaded_intake v (lts.filterMap v.posOf) m)
theorem imageLoaded_host : (v.imageLoaded lts o n m).host = v.host :=
  (State.withLtpos_host _ _).trans (coresLoaded_host v (lts.filterMap v.posOf) m)

end

/-- The end of a load by what the manifest's store holds. -/
def State.loadDone (v : State) (seq : BitVec 32) (r : LoadRun) (o : BitVec 48) (n : Nat) : State :=
  match v.hostBad o.toNat n, parseImage (v.hostRead o.toNat n) with
  | some st, _ => v.manifestDone seq r.tAdmit st 0 0
  | none, none => v.manifestDone seq r.tAdmit .illegalDescriptor 0 0
  | none, some m => (v.imageLoaded r.man.lts o n m).manifestDone seq r.tAdmit .done 0 0

/-- The load leaves the list of loads and ends as its store has it. -/
theorem exec_imageLoadComplete {seq : BitVec 32} {t : Nat} {r : LoadRun} {o : BitVec 48} {n : Nat} {s : State} (hk : (s.at_ t).k0Reaches = true)
    (hf : ((s.at_ t).intake.loads.find? fun x => x.man.seq == seq) = some r) (hi : r.man.image = some (o, n)) :
    exec (.imageLoadComplete seq t) s = .next (((s.at_ t).modIntake fun i => { i with loads := i.loads.erase r }).loadDone seq r o n) := by
  change execImageLoadComplete seq t s = _
  simp only [execImageLoadComplete, hk, Bool.and_true, hf, hi, State.loadDone]
  cases ((s.at_ t).modIntake fun i => { i with loads := i.loads.erase r }).hostBad o.toNat n with
  | some st => rfl
  | none => cases parseImage (((s.at_ t).modIntake fun i => { i with loads := i.loads.erase r }).hostRead o.toNat n) <;> rfl

theorem imageLoads_hold : Rules.ImageLoads := by
  intro seq t r o n s u v hk hf hi
  have hx : exec (.imageLoadComplete seq t) s = .next (v.loadDone seq r o n) := exec_imageLoadComplete hk hf hi
  have hcore : ∀ p, v.core p = s.core p := fun _ => rfl
  have hut : ∀ p, v.ut p = s.ut p := fun _ => rfl
  have hpos : v.posOf = s.posOf := rfl
  have hlt : v.ltpos = s.ltpos := rfl
  have hsteps : v.intake.steps = s.intake.steps := rfl
  have hhost : v.host = s.host := rfl
  clear_value v
  refine ⟨fun st hb => ?_, fun hb hp => ?_, fun m hb hp => ⟨_, v.imageLoaded r.man.lts o n m, hx, ?_, fun p => ?_, fun l => ?_, ?_, ?_⟩⟩
  · rw [hx, State.loadDone, hb]
  · rw [hx, State.loadDone, hb, hp]
  · rw [State.loadDone, hb, hp]
  · rw [imageLoaded_core, coresLoaded_img, coresLoaded_mem, coresLoaded_ctl, imageLoaded_ut, hpos, hcore, hut]
    exact ⟨rfl, rfl, rfl, rfl⟩
  · rw [imageLoaded_ltpos, hlt]
  · rw [imageLoaded_intake, hsteps]
  · rw [imageLoaded_host, hhost]

/-! ### The entries of a CHART manifest (R494) -/

section
variable {t : Nat} {r : ChartRun} {rest : List ChartRun} {page : BitVec 25} {op : BitVec 4} {e : Word} {s : State}

/-- The next entry of the oldest manifest, with nothing of it under way, is carried out by the command of its operation. -/
theorem chartEntry_of_next (hc : s.intake.chartRuns = r :: rest) (hn : r.man.chart[r.next]? = some (page, op, e)) (hb : r.busy = false)
    {k : Nat} (hk : op.toNat = k) (f : BitVec 25 → Word → State → State) :
    s.chartEntry k t f = f page e ((s.at_ t).modIntake fun i => { i with chartRuns := { r with busy := true } :: rest }) := by
  have hu : (s.at_ t).intake.chartRuns = r :: rest := hc
  simp only [State.chartEntry, hu, hn, hb, hk]
  simp

theorem chartWrite_of_busy (h : s.chart.free = false) (k : Nat) (new : BitVec 25 → Word → Word) : s.chartWrite k t new = s.at_ t := by
  simp [State.chartWrite, h]

theorem chartWrite_of_free (h : s.chart.free = true) (hc : s.intake.chartRuns = r :: rest) (hn : r.man.chart[r.next]? = some (page, op, e))
    (hb : r.busy = false) {k : Nat} (hk : op.toNat = k) (new : BitVec 25 → Word → Word) :
    s.chartWrite k t new =
      let v := (s.at_ t).modIntake fun i => { i with chartRuns := { r with busy := true } :: rest }
      if k = 1 && v.entryBad (new page e) then v.chartEntryDone .illegalDescriptor page
      else v.startUpd page (s.entry page.toNat) (new page e) true := by
  simp only [State.chartWrite, h, Bool.not_true, Bool.false_eq_true, if_false, chartEntry_of_next hc hn hb hk]
  rfl

end

theorem chartManifests_hold : Rules.ChartManifests := by
  intro t r rest page op e s u v hc hn hb
  refine ⟨fun ho hf he => ?_, fun ho hf he => ?_, fun ho hf => ?_, fun hf => ⟨?_, ?_⟩, fun ho => ?_, fun ho => ?_⟩
  · change Host.Outcome.next (s.chartWrite 1 t _) = _
    rw [chartWrite_of_free hf hc hn hb (by rw [ho]; rfl)]
    simp only [u, v] at he
    simp [he, u, v]
  · change Host.Outcome.next (s.chartWrite 1 t _) = _
    rw [chartWrite_of_free hf hc hn hb (by rw [ho]; rfl)]
    simp only [u, v] at he
    simp [he, u, v]
  · change Host.Outcome.next (s.chartWrite 4 t _) = _
    rw [chartWrite_of_free hf hc hn hb (by rw [ho]; rfl)]
    rfl
  · exact congrArg Host.Outcome.next (chartWrite_of_busy hf _ _)
  · exact congrArg Host.Outcome.next (chartWrite_of_busy hf _ _)
  · exact congrArg Host.Outcome.next (chartEntry_of_next hc hn hb (by rw [ho]; rfl) _)
  · exact congrArg Host.Outcome.next (chartEntry_of_next hc hn hb (by rw [ho]; rfl) _)

/-- Settles O38: the end of a load by what the image's store holds, and the entries of a CHART manifest. -/
theorem loadAndChartManifests : Obligations.LoadAndChartManifests := ⟨imageLoads_hold, chartManifests_hold⟩

end Sys2Proof.Machine
end

section
/-! PROOFS. HWIN, HRET and PEND (O14): what the effects leave of the tile. -/

namespace Sys2Proof.Machine

open Sys2Proof

/-! ### The commands -/

section
variable {i : Issue} {s t : State}

theorem exec_hwin (h : Issues .c 0x54 i s t) : exec (.hwin i) s = .next (effHwin i t) := congrArg Host.Outcome.next (slotCmd_issues h _ _)
theorem exec_pend (h : Issues .c 0x55 i s t) : exec (.pend i) s = .next (effPend i t) := congrArg Host.Outcome.next (slotCmd_issues h _ _)
theorem exec_hret (h : Issues .c 0x56 i s t) : exec (.hret i) s = .next (effHret i t) := congrArg Host.Outcome.next (slotCmd_issues h _ _)

end

/-! ### HWIN (R139) -/

theorem effHwin_core (i : Issue) (t : State) : (effHwin i t).core i.pos = { t.core i.pos with
    main := { (t.core i.pos).main with nextCc := i.cc + 1 + hwinN (cw i) }
    ctl := { (t.core i.pos).ctl with hwinOpen := decide (hwinN (cw i) > 0), hwinEnd := i.cc + 1 + hwinN (cw i) } } := by
  simp [effHwin, Core.modCtx]

/-! ### HRET (R138) -/

theorem dropVoided_eq (l : List BEntry) : dropVoided l = l.dropWhile BEntry.voided := by
  induction l with
  | nil => rfl
  | cons e r ih => by_cases h : e.voided = true <;> simp [dropVoided, h, ih]

/-- The berth after the end of the handler of an invocation: the invocation's barge leaves the head. -/
def Berth.handled (v : Invocation) (b : Berth) : Berth :=
  match b.queue with
  | e :: _ => if e.idx = v.entry && e.posted && b.gen == v.gen then b.consume else b
  | [] => b

theorem handled_queue {v : Invocation} {b : Berth} {e : BEntry} {r : List BEntry} (hq : b.queue = e :: r) (hi : e.idx = v.entry)
    (hp : e.posted = true) (hg : b.gen = v.gen) : (b.handled v).queue = r.dropWhile BEntry.voided := by
  simp [Berth.handled, hq, hi, hp, hg, Berth.consume, dropVoided_eq]

/-- The state in which the handler's barge has been consumed. -/
def State.handled (t : State) (p : Pos) : State :=
  match (t.core p).ctl.curInv with
  | none => t
  | some v => t.modBerth p v.berth (Berth.handled v)

section
variable (i : Issue) (t : State) (p : Pos)

theorem handled_core : (t.handled p).core p = t.core p := by
  unfold State.handled
  split
  · rfl
  · exact State.core_modUt _ _ _ _
theorem handled_berth {v : Invocation} (h : (t.core p).ctl.curInv = some v) : (t.handled p).berth p v.berth = (t.berth p v.berth).handled v := by
  simp only [State.handled, h, State.modBerth, State.berth, UnderTile.modBerth, State.ut_modUt]
  exact vmod_get_same _ _ _
theorem handled_berths_other {b : Fin 64} (h : ∀ v, (t.core p).ctl.curInv = some v → v.berth ≠ b) :
    ((t.handled p).ut p).berths[b] = (t.ut p).berths[b] := by
  unfold State.handled
  split
  · rfl
  · next v hv =>
    simp only [State.modBerth, State.ut_modUt, UnderTile.modBerth]
    exact vmod_get_ne _ _ (h v hv).symm

theorem effHret_eq : effHret i t = ((t.handled i.pos).modCtl i.pos fun k =>
    { k with hand := .idle, curInv := none, handIssued := 0, handBudget := 0, handLast := i.cc }).modCore i.pos fun c =>
      c.modCtx .hand fun q => { q with loops := Vector.replicate 4 {} } := rfl
theorem effHret_core : (effHret i t).core i.pos = { t.core i.pos with
    hand := { (t.core i.pos).hand with loops := Vector.replicate 4 {} }
    ctl := { (t.core i.pos).ctl with hand := .idle, curInv := none, handIssued := 0, handBudget := 0, handLast := i.cc } } := by
  simp [effHret_eq, handled_core, Core.modCtx]
theorem effHret_ut : (effHret i t).ut i.pos = (t.handled i.pos).ut i.pos := by simp [effHret_eq]

end

theorem handlerWindowAndReturn_holds : Rules.HandlerWindowAndReturn := by
  intro i s t w
  refine ⟨fun h => ⟨_, exec_hwin h, ?_⟩, fun h => ⟨_, exec_hret h, ?_⟩⟩
  · rw [effHwin_core]
    exact ⟨rfl, rfl, decide_eq_true_iff, rfl⟩
  · rw [effHret_core, effHret_ut]
    refine ⟨rfl, rfl, rfl, rfl, fun b hb => handled_berths_other t i.pos hb, fun y e r hy hq hi hp hg => ?_⟩
    rw [State.berth, effHret_ut]
    exact (congrArg Berth.queue (handled_berth t i.pos hy)).trans (handled_queue hq hi hp hg)

/-! ### PEND (R131, R132, R41) -/

section
variable (s : State) (p : Pos)

theorem pendReport_eq (final : Bool) : ∃ k, s.pendReport p final = { s with intake := k } := by
  unfold State.pendReport
  split
  · exact ⟨s.intake, rfl⟩
  · split
    · exact ⟨s.intake, rfl⟩
    · exact ⟨_, rfl⟩
@[simp] theorem pendReport_core (final : Bool) (q : Pos) : (s.pendReport p final).core q = s.core q := by
  obtain ⟨k, h⟩ := pendReport_eq s p final
  rw [h]
  rfl
theorem stopEdge_core (cc : Nat) : (s.stopEdge p cc).core p =
    { s.core p with mat := { (s.core p).mat with keeper := (s.core p).mat.keeper.stop } } := by
  simp [State.stopEdge, State.modMat]

/-- A late core that starts the slice of pound j issues the resume bundle next. -/
theorem startLate_core (cc j : Nat) : (s.startLate p cc j).core p = { s.core p with
    main := { (s.core p).main with nextIdx := (s.core p).ctl.resume, nextCc := cc }
    ctl := { (s.core p).ctl with pound := BitVec.ofNat 32 j, missed := 0, main := .issuing, pended := false } } := by
  have hm (u : State) (n : Nat) (f : StepRec → StepRec) : (u.modStep n f).core p = u.core p := rfl
  unfold State.startLate
  split <;> simp [hm, Core.modCtx]

end

/-- The core as PEND leaves it, beyond what becomes of MAIN: the resume bundle is noted and the keeper has stopped. -/
def Core.ended (c : Core) (resume : BitVec 14) : Core :=
  { c with mat := { c.mat with keeper := c.mat.keeper.stop }, ctl := { c.ctl with resume := resume } }

section
variable {i : Issue} {t : State} {resume : BitVec 14} {final : Bool}

theorem effPend_of_main (h : i.ctx = .main) : effPend i t = pendMain i (cwIndex (cw i)) (bit (cw i) 26) t := by simp only [effPend, h, cwFinal]
theorem effPend_of_tow (h : i.ctx = .tow) : effPend i t = t.modCtl i.pos fun k => { k with towBusy := false } := by simp only [effPend, h]
theorem effPend_of_dbg (h : i.ctx = .dbg) : effPend i t = t := by simp only [effPend, h]

theorem pendMain_core_of_wait (h : t.catchUp i.pos final = none) : (pendMain i resume final t).core i.pos =
    let c := (t.core i.pos).ended resume
    { c with ctl := { c.ctl with pended := true, main := .stalled 5, stallStart := i.cc, missed := 0, lateRun := false } } := by
  simp [pendMain, h, stopEdge_core, Core.ended]
theorem pendMain_core_of_late {j : Nat} (h : t.catchUp i.pos final = some j) : (pendMain i resume final t).core i.pos =
    let c := (t.core i.pos).ended resume
    { c with
      main := { c.main with nextIdx := resume, nextCc := i.cc + 1 }
      ctl := { c.ctl with pound := BitVec.ofNat 32 j, missed := 0, main := .issuing, pended := false } } := by
  simp [pendMain, h, startLate_core, stopEdge_core, Core.ended]

end

theorem pendEndsThePound_holds : Rules.PendEndsThePound := by
  intro i s t h w
  refine ⟨fun hx => ?_, fun hx => ?_, fun hx => ?_⟩
  · refine ⟨_, (exec_pend h).trans (congrArg Host.Outcome.next (effPend_of_main hx)), ?_⟩
    cases hc : t.catchUp i.pos (bit w 26) with
    | none =>
      rw [pendMain_core_of_wait (final := bit (cw i) 26) hc]
      exact ⟨rfl, rfl, rfl, rfl, rfl, rfl, fun _ => ⟨rfl, rfl, rfl, rfl⟩, nofun⟩
    | some j =>
      rw [pendMain_core_of_late (final := bit (cw i) 26) hc]
      refine ⟨rfl, rfl, rfl, rfl, rfl, rfl, nofun, fun k hk => ?_⟩
      cases hk
      exact ⟨rfl, rfl, rfl, rfl, rfl⟩
  · rw [exec_pend h, effPend_of_tow hx]
  · rw [exec_pend h, effPend_of_dbg hx]

/-- Settles O14: the effects of HWIN, HRET and PEND on the core and the berths of their tile. -/
theorem poundEndAndHandlerReturn : Obligations.PoundEndAndHandlerReturn := ⟨handlerWindowAndReturn_holds, pendEndsThePound_holds⟩

end Sys2Proof.Machine
end

section
/-! PROOFS. What the issue of a bundle changes (O5, O6): the sequence of bundles and a handler that yields keep every register, and the three
outcomes of the opening of a bundle. -/

namespace Sys2Proof.Machine

open Sys2Proof

/-! ### Contexts with the same registers -/

/-- Two contexts hold the same S, A and P registers. -/
structure CtxState.SameRegs (c d : CtxState) : Prop where
  s : d.s = c.s
  a : d.a = c.a
  p : d.p = c.p

theorem CtxState.SameRegs.refl (c : CtxState) : c.SameRegs c := ⟨rfl, rfl, rfl⟩
theorem CtxState.SameRegs.trans {c d e : CtxState} (h : c.SameRegs d) (k : d.SameRegs e) : c.SameRegs e :=
  ⟨k.s.trans h.s, k.a.trans h.a, k.p.trans h.p⟩
theorem seq_sameRegs (c : CtxState) (idx : BitVec 14) (cc : Nat) : c.SameRegs (c.seq idx cc) := ⟨rfl, rfl, rfl⟩

/-- Passing over empty bundles keeps the registers. -/
theorem skip_sameRegs {store : Tbl Bundle} {idx : BitVec 14} {cc room f n m : Nat} {c d : CtxState}
    (h : CtxState.skip store idx cc room f c n = .reached d m) : c.SameRegs d := by
  induction f generalizing c n with
  | zero =>
    simp only [CtxState.skip] at h
    split at h <;> cases h
    exact .refl _
  | succ f ih =>
    simp only [CtxState.skip] at h
    split at h
    · split at h <;> cases h
      exact .refl _
    · split at h
      · split at h
        · exact (seq_sameRegs _ _ _).trans (ih h)
        · cases h
      · cases h
theorem settle_sameRegs (store : Tbl Bundle) (cc room f n : Nat) (c : CtxState) : c.SameRegs (CtxState.settle store cc room f c n).1 := by
  induction f generalizing c n with
  | zero => exact .refl c
  | succ f ih =>
    unfold CtxState.settle
    split_ifs
    · exact (seq_sameRegs _ _ _).trans (ih _ _)
    · exact .refl c
    · exact .refl c

/-! ### A handler that yields to MAIN (R121, R140) -/

/-- The handler's context goes on and the control unit counts what it issued, the start of MAIN's stall stays,
and nothing else of the core changes. -/
theorem yieldHand_core (s : State) (p : Pos) (cc : Nat) : ∃ q k, (s.yieldHand p cc).core p = { s.core p with hand := q, ctl := k } ∧
    (s.core p).hand.SameRegs q ∧ k.stallStart = (s.core p).ctl.stallStart := by
  unfold State.yieldHand
  extract_lets c k room x y s1
  have h1 : ∃ k', s1.core p = { s.core p with hand := { x.1 with nextCc := max x.1.nextCc (cc + 1) }, ctl := k' } ∧
      k'.stallStart = (s.core p).ctl.stallStart := ⟨_, State.core_modCore _ _ _, rfl⟩
  have hx : c.hand.SameRegs { x.1 with nextCc := max x.1.nextCc (cc + 1) } := by
    obtain ⟨ha, hb, hc⟩ := settle_sameRegs c.img.store cc room (min (cc - c.hand.nextCc) (room + 1)) 0 c.hand
    exact ⟨ha, hb, hc⟩
  obtain ⟨k', hk, hy⟩ := h1
  split_ifs
  · exact ⟨_, _, rfl, .refl _, rfl⟩
  · exact ⟨_, k'.faulted .hand x.1.nextIdx 0 .handlerBudget, by rw [core_fault, hk], hx, hy⟩
  · exact ⟨_, _, hk, hx, hy⟩

theorem yieldHand_of_idle {s : State} {p : Pos} (h : (s.core p).ctl.hand = .idle) (cc : Nat) : s.yieldHand p cc = s := if_pos h

/-! ### What a slot's opening keeps -/

/-- The core keeps what an issue does not touch: the registers, the scratchpad, the matrix and the move unit, the image, the writes in flight. -/
structure Core.IssueKept (c d : Core) : Prop where
  regs : ∀ x, (c.ctx x).SameRegs (d.ctx x)
  vMain : d.vMain = c.vMain
  vHand : d.vHand = c.vHand
  vTow : d.vTow = c.vTow
  pend : d.pend = c.pend
  img : d.img = c.img
  mat : d.mat = c.mat
  spd : d.spd = c.spd
  mov : d.mov = c.mov

/-- The state keeps everything outside the tile but the causes of aborts, and in the tile what an issue does not touch. -/
structure IssueKept (p : Pos) (s t : State) : Prop where
  core : (s.core p).IssueKept (t.core p)
  ut : t.ut p = s.ut p
  tile : ∀ q, q ≠ p → t.tile q = s.tile q
  rest : { t with tiles := s.tiles, aborts := s.aborts } = s

/-- COR_FAULT and the causes of aborts are as they were. -/
structure FaultKept (p : Pos) (s t : State) : Prop where
  fault : (t.core p).ctl.fault = (s.core p).ctl.fault
  aborts : t.aborts = s.aborts

section
variable {s t u : State} {p : Pos}

theorem Core.IssueKept.refl (c : Core) : c.IssueKept c := ⟨fun _ => .refl _, rfl, rfl, rfl, rfl, rfl, rfl, rfl, rfl⟩
theorem Core.IssueKept.trans {c d e : Core} (h : c.IssueKept d) (k : d.IssueKept e) : c.IssueKept e :=
  ⟨fun x => (h.regs x).trans (k.regs x), k.vMain.trans h.vMain, k.vHand.trans h.vHand, k.vTow.trans h.vTow, k.pend.trans h.pend,
    k.img.trans h.img, k.mat.trans h.mat, k.spd.trans h.spd, k.mov.trans h.mov⟩
theorem Core.IssueKept.ctl (c : Core) (k : Control) : c.IssueKept { c with ctl := k } :=
  ⟨fun x => by rw [Core.ctx_ctl]; exact .refl _, rfl, rfl, rfl, rfl, rfl, rfl, rfl, rfl⟩
theorem Core.IssueKept.modCtx (c : Core) {x : Ctx} {f : CtxState → CtxState} (h : (c.ctx x).SameRegs (f (c.ctx x))) :
    c.IssueKept (c.modCtx x f) := by
  refine ⟨fun y => ?_, by simp, by simp, by simp, by simp, by simp, by simp, by simp, by simp⟩
  by_cases hy : y = x
  · rw [hy, Core.ctx_modCtx]; exact h
  · rw [Core.ctx_modCtx_ne _ _ _ _ hy]; exact .refl _
theorem Core.IssueKept.hand (c : Core) {q : CtxState} (h : c.hand.SameRegs q) : c.IssueKept { c with hand := q } :=
  .modCtx c (x := .hand) (f := fun _ => q) h

/-- Every register reads as it did. -/
theorem Core.IssueKept.reads {c d : Core} (h : c.IssueKept d) (x : Ctx) (n : Nat) :
    d.readS x n = c.readS x n ∧ d.readA x n = c.readA x n ∧ d.readP x n = c.readP x n ∧ d.readV x n = c.readV x n := by
  obtain ⟨hs, ha, hp⟩ := h.regs (regCtx x)
  refine ⟨by rw [Core.readS, Core.readS, hs], by rw [Core.readA, Core.readA, ha], by rw [Core.readP, Core.readP, hp], ?_⟩
  cases x <;> simp only [Core.readV, h.vMain, h.vHand, h.vTow]

theorem IssueKept.refl (p : Pos) (s : State) : IssueKept p s s := ⟨.refl _, rfl, fun _ _ => rfl, rfl⟩
theorem IssueKept.trans (h : IssueKept p s t) (k : IssueKept p t u) : IssueKept p s u :=
  ⟨h.core.trans k.core, k.ut.trans h.ut, fun q hq => (k.tile q hq).trans (h.tile q hq),
    (congrArg (fun v : State => { v with tiles := s.tiles, aborts := s.aborts }) k.rest).trans h.rest⟩
theorem IssueKept.modCore {f : Core → Core} (h : (s.core p).IssueKept (f (s.core p))) : IssueKept p s (s.modCore p f) :=
  ⟨by rw [State.core_modCore]; exact h, State.ut_modCore _ _ _ _, fun _ hq => State.tile_modTile_ne _ _ _ _ hq, rfl⟩
theorem IssueKept.modCtl (g : Control → Control) : IssueKept p s (s.modCtl p g) := .modCore (.ctl _ _)
theorem IssueKept.fault (x : Ctx) (idx : BitVec 14) (m : BitVec 4) {f : CoreFault} (h : faultHw f = false) : IssueKept p s (s.fault p x idx m f) := by
  obtain ⟨r, l, he, hr⟩ := fault_faulted s p x idx m f
  have hc : IssueKept p s (s.modCtl p fun k => k.faulted x idx m f) := .modCtl _
  rw [he, hr h]
  exact ⟨hc.core, hc.ut, hc.tile, hc.rest⟩

theorem FaultKept.refl (p : Pos) (s : State) : FaultKept p s s := ⟨rfl, rfl⟩
theorem FaultKept.trans (h : FaultKept p s t) (k : FaultKept p t u) : FaultKept p s u := ⟨k.fault.trans h.fault, k.aborts.trans h.aborts⟩
theorem FaultKept.modCore {f : Core → Core} (h : (f (s.core p)).ctl.fault = (s.core p).ctl.fault) : FaultKept p s (s.modCore p f) :=
  ⟨by rw [State.core_modCore]; exact h, rfl⟩
theorem FaultKept.modCtl {g : Control → Control} (h : (g (s.core p).ctl).fault = (s.core p).ctl.fault) : FaultKept p s (s.modCtl p g) := .modCore h

end

section
variable (s : State) (p : Pos) (i : Issue) (k : SlotK)

theorem yieldHand_kept (cc : Nat) : IssueKept p s (s.yieldHand p cc) := by
  unfold State.yieldHand
  extract_lets c l room x y s1
  have h1 : IssueKept p s s1 := .modCore (.trans (.hand _ (q := { x.1 with nextCc := max x.1.nextCc (cc + 1) })
    (.trans (settle_sameRegs _ _ _ _ _ _) ⟨rfl, rfl, rfl⟩)) (.ctl _ _))
  split_ifs
  · exact .refl p s
  · exact h1.trans (.fault _ _ _ rfl)
  · exact h1

theorem arrived_kept {cs : CtxState} (n : Nat) (h : ((s.core i.pos).ctx i.ctx).SameRegs cs) : IssueKept i.pos s (s.arrived i cs n) :=
  .trans (t := s.arriveAt i.pos i.ctx cs n) (.modCore (.trans (.modCtx _ h) (.ctl _ _))) (.modCtl _)
theorem arrived_faultKept (cs : CtxState) (n : Nat) : FaultKept i.pos s (s.arrived i cs n) :=
  .trans (t := s.arriveAt i.pos i.ctx cs n) (.modCore (by simp)) (.modCtl rfl)
/-- A handler is idle when the context has arrived if it was idle and the context is not the handler's. -/
theorem arrived_hand (cs : CtxState) (n : Nat) (hx : i.ctx ≠ .hand) : ((s.arrived i cs n).core i.pos).ctl.hand = (s.core i.pos).ctl.hand := by
  simp [State.arrived, State.arriveAt, Control.arrived, hx]

theorem issued_kept : IssueKept i.pos s (s.issued i) := by
  unfold State.issued
  refine .trans (t := if i.ctx = .main then s.yieldHand i.pos i.cc else s) ?_ (.modCore (.trans (.modCtx _ ⟨rfl, rfl, rfl⟩) (.ctl _ _)))
  split_ifs
  · exact yieldHand_kept s i.pos i.cc
  · exact .refl _ _
theorem issued_faultKept (h : i.ctx ≠ .main ∨ (s.core i.pos).ctl.hand = .idle) : FaultKept i.pos s (s.issued i) := by
  have hy : (if i.ctx = .main then s.yieldHand i.pos i.cc else s) = s := by
    split_ifs with hm
    · exact yieldHand_of_idle (h.resolve_left (not_not_intro hm)) _
    · rfl
  rw [State.issued, hy]
  exact .modCore (by simp)

/-- The state in which a slot of an open bundle takes effect. -/
def State.slotOpened (s : State) (i : Issue) (k : SlotK) : State :=
  s.modCore i.pos fun c => c.modCtx i.ctx fun x => { x with slotsDone := x.slotsDone ||| BitVec.ofNat 4 (2 ^ slotNum k) }
theorem openedSlot_eq : openedSlot s i k = .ready (s.slotOpened i k) (guardTrue ((s.slotOpened i k).core i.pos) i.ctx (slotWord i.bundle k)) := rfl
theorem slotOpened_kept : IssueKept i.pos s (s.slotOpened i k) := .modCore (.modCtx _ ⟨rfl, rfl, rfl⟩)
theorem slotOpened_faultKept : FaultKept i.pos s (s.slotOpened i k) := .modCore (by simp)

end

section
variable {s t : State} {i : Issue} {k : SlotK} {g : Bool}

/-- A bundle whose slot takes effect has issued. -/
theorem openBundle_ready_eq {cs : CtxState} {n : Nat} (h : openBundle s i k cs n = .ready t g) :
    t = ((s.arrived i cs n).issued i).slotOpened i k := by
  rw [openBundle_eq] at h
  split at h
  · cases h
  · split at h
    · cases h
    · split at h
      · cases h
      · rw [openedSlot_eq] at h
        cases h
        rfl

/-- A slot that takes effect is the next one of the open bundle, or the first one of a bundle that its context has come to. -/
theorem openSlot_ready_cases (h : openSlot s i k = .ready t g) : t = (s.run i.pos i.cc).slotOpened i k ∨
    ∃ cs n, (((s.run i.pos i.cc).core i.pos).ctx i.ctx).SameRegs cs ∧ t = (((s.run i.pos i.cc).arrived i cs n).issued i).slotOpened i k := by
  unfold openSlot at h
  dsimp only at h
  split at h
  · cases h
  · split at h
    · split at h
      · rw [openedSlot_eq] at h
        cases h
        exact .inl rfl
      · cases h
    · split at h
      · cases h
      · split at h
        · cases h
        · cases h
        · next cs n hs =>
          split at h
          · cases h
          · exact .inr ⟨cs, n, skip_sameRegs hs, openBundle_ready_eq h⟩

theorem openSlot_ready_kept (h : openSlot s i k = .ready t g) : IssueKept i.pos (s.run i.pos i.cc) t := by
  rcases openSlot_ready_cases h with rfl | ⟨cs, n, hr, rfl⟩
  · exact slotOpened_kept _ i k
  · exact ((arrived_kept _ i n hr).trans (issued_kept _ i)).trans (slotOpened_kept _ i k)

theorem openSlot_ready_faultKept (h : openSlot s i k = .ready t g)
    (hx : i.ctx ≠ .main ∨ ((s.run i.pos i.cc).core i.pos).ctl.hand = .idle) : FaultKept i.pos (s.run i.pos i.cc) t := by
  rcases openSlot_ready_cases h with rfl | ⟨cs, n, -, rfl⟩
  · exact slotOpened_faultKept _ i k
  · refine ((arrived_faultKept _ i cs n).trans (issued_faultKept _ i ?_)).trans (slotOpened_faultKept _ i k)
    by_cases hm : i.ctx = .main
    · exact .inr ((arrived_hand _ i cs n (by rw [hm]; decide)).trans (hx.resolve_left (not_not_intro hm)))
    · exact .inl hm

end

/-- Settles O6: the opening of a slot is the issue of the bundle, which keeps what the rule names. -/
theorem issueFrame : Obligations.IssueFrame := by
  intro i k s t g h u
  have hk := openSlot_ready_kept h
  exact ⟨hk.rest, hk.tile, hk.ut, fun x n => hk.core.reads x n, fun a => by rw [hk.core.spd], hk.core.mat, hk.core.mov, hk.core.pend, hk.core.img,
    fun hx => ⟨(openSlot_ready_faultKept h hx).fault, (openSlot_ready_faultKept h hx).aborts⟩⟩

/-! ### The three outcomes (R116, R124, R141) -/

theorem vat_set_same {α : Type} {n : Nat} [NeZero n] (v : Vector α n) (k : Fin n) (a : α) : vat (v.set k a) k.val = a := by
  simp [vat]

theorem loopBack_of_no_end {idx : BitVec 14} {l : Vector LoopEnt 4} (h : ∀ e : Fin 4, l[e].active = false ∨ l[e].last ≠ idx) (n : Nat) :
    loopBack idx n l = (l, none) := by
  induction n with
  | zero => rfl
  | succ n ih =>
    have he : (l[Fin.ofNat 4 (3 - n)].active && l[Fin.ofNat 4 (3 - n)].last == idx) = false := by
      rcases h (Fin.ofNat 4 (3 - n)) with ha | hl
      · rw [ha]; rfl
      · rw [beq_false_of_ne hl, Bool.and_false]
    rw [loopBack]
    simp only [he, ih]
    rfl

/-- A context none of whose loops ends at the bundle issues the next bundle in sequence. -/
theorem seq_nextIdx {q : CtxState} {idx : BitVec 14} (h : ∀ e : Fin 4, q.loops[e].active = false ∨ q.loops[e].last ≠ idx) (cc : Nat) :
    (q.seq idx cc).nextIdx = idx + 1 := by
  simp only [CtxState.seq, loopBack_of_no_end h]

/-- The issue moves the context that issues on in sequence, whatever a handler that yields does. -/
theorem issued_ctx (s : State) (i : Issue) :
    ((s.issued i).core i.pos).ctx i.ctx = { ((s.core i.pos).ctx i.ctx).seq i.idx i.cc with slotsDone := 0 } := by
  have hy : ((if i.ctx = .main then s.yieldHand i.pos i.cc else s).core i.pos).ctx i.ctx = (s.core i.pos).ctx i.ctx := by
    split_ifs with hm
    · obtain ⟨q, k, hc, -⟩ := yieldHand_core s i.pos i.cc
      rw [hc, hm]
      rfl
    · rfl
  rw [State.issued, State.core_modCore, Core.ctx_ctl, Core.ctx_modCtx, hy]

theorem slotOpened_ctx (s : State) (i : Issue) (k : SlotK) : ((s.slotOpened i k).core i.pos).ctx i.ctx =
    { (s.core i.pos).ctx i.ctx with slotsDone := ((s.core i.pos).ctx i.ctx).slotsDone ||| BitVec.ofNat 4 (2 ^ slotNum k) } := by
  rw [State.slotOpened, State.core_modCore, Core.ctx_modCtx]

theorem readyContextIssues_holds : Rules.ReadyContextIssues := by
  intro i k s u q hc hu hr hf hn hd he hl hb hp
  have ho := openSlot_of_standing ⟨hc, hu, hr, hf, hn, hd, he⟩ k
  rw [openBundle_of_clear k hb hp, openedSlot_eq] at ho
  refine ⟨_, ho, ?_, ?_⟩
  · rw [slotOpened_ctx, issued_ctx, State.core_modCtl, Core.ctx_ctl]
    exact seq_nextIdx hl i.cc
  · rw [slotOpened_ctx, issued_ctx]
    rfl

theorem faultStopsContext_holds : Rules.FaultStopsContext := by
  intro i k s f r u q hc hu hr hf hn hd he hb
  have ho := openSlot_of_standing ⟨hc, hu, hr, hf, hn, hd, he⟩ k
  rw [openBundle_of_fault k hb] at ho
  refine ⟨_, ho, ?_⟩
  rw [core_fault, State.core_modCtl]
  exact ⟨rfl, rfl, rfl, rfl, rfl, rfl, vat_set_same _ _ _, fun x n => by simp, rfl, rfl⟩

theorem hold_core (s : State) (i : Issue) (pt : Fin 6) : ((s.hold i pt).core i.pos) = { s.core i.pos with ctl :=
    { (s.core i.pos).ctl with
      main := .stalled pt, held := some i, stallStart := i.cc, freed := false
      probed := if pt = 1 && !xCn (slotWord i.bundle .x) then some i.cc else (s.core i.pos).ctl.probed } } := State.core_modCtl _ _ _

theorem stallHoldsBundle_holds : Rules.StallHoldsBundle := by
  intro i k s pt u q hx hc hu hr hf hn hd he hb hp
  have hs : Standing i s := by
    simp only [q, ← hx] at hr hf hn hd
    exact ⟨hc, hu, hr, hf, hn, hd, he⟩
  have ho := openSlot_of_standing hs k
  rw [openBundle_of_stall k hb hx hp] at ho
  refine ⟨_, ho, ?_⟩
  rw [hold_core, State.core_modCtl]
  exact ⟨rfl, rfl, rfl, rfl, rfl, fun x n => by simp⟩

/-- Settles O5: a context that stands before its bundle opens it, stops with a fault, or is held. -/
theorem issueRules : Obligations.IssueRules := ⟨readyContextIssues_holds, faultStopsContext_holds, stallHoldsBundle_holds⟩

end Sys2Proof.Machine
end

section
/-! PROOFS. Ends of stalls (O23): what the release of the held bundle leaves before its slots take effect, and a SEND that gives up. -/

namespace Sys2Proof.Machine

open Sys2Proof

/-! ### The release of a held bundle (R124) -/

theorem heldAt_eq {k : Control} {i : Issue} {pt : Fin 6} (hm : k.main = .stalled pt) (hh : k.held = some i) : k.heldAt = some (i, pt) := by
  simp only [Control.heldAt, hm, hh]

/-- The stall has ended: a handler has yielded, MAIN issues in this cycle, and CR_STALL holds point and length. -/
def State.stallEnded (s : State) (p : Pos) (cc : Nat) (pt : Fin 6) : State :=
  (s.yieldHand p cc).modCtl p fun k =>
    { k with main := .issuing, held := none, freed := false, issueCc := some cc, lastStall := stallReg pt.val (cc - k.stallStart) }
/-- The held bundle has issued, and its slots are to take effect. -/
def State.heldIssued (s : State) (p : Pos) (cc : Nat) (pt : Fin 6) (i : Issue) : State :=
  (s.stallEnded p cc pt).modCore p fun c => c.modCtx .main fun q => { q.seq i.idx cc with slotsDone := 15 }

section
variable {p : Pos} {cc : Nat} {x : Issue → State → State} {i : Issue} {pt : Fin 6} {s : State}

theorem releaseHeld_of_clear (h : bundleFaults s { i with cc := cc } = []) :
    releaseHeld p cc x i pt s = issueSlots x { i with cc := cc } (s.heldIssued p cc pt i) := by
  simp only [releaseHeld, h]
  rfl
theorem releaseHeld_of_fault {f : SlotK × CoreFault} {r : List (SlotK × CoreFault)} (h : bundleFaults s { i with cc := cc } = f :: r) :
    releaseHeld p cc x i pt s = (s.stallEnded p cc pt).fault p .main i.idx (slotMask (f :: r)) f.2 := by
  simp only [releaseHeld, h]
  rfl

theorem heldIssued_released : Released s (s.heldIssued p cc pt i) p cc pt := by
  obtain ⟨q, k, hc, -, hs⟩ := yieldHand_core s p cc
  unfold Released
  rw [State.heldIssued, State.core_modCore, State.stallEnded, State.core_modCtl, hc]
  exact ⟨rfl, rfl, rfl, by rw [← hs]; rfl, rfl, rfl, rfl⟩

end

/-- A fault of MAIN stands in COR_FAULT, and MAIN is stopped. -/
theorem fault_main_core (s : State) (p : Pos) (idx : BitVec 14) (m : BitVec 4) (f : CoreFault) : let v := s.fault p .main idx m f
    (v.core p).ctl.fault.code = BitVec.ofNat 8 (faultCode f) ∧ (v.core p).ctl.fault.slots = m ∧
      vat (v.core p).ctl.stopped 0 = true ∧ (v.core p).ctl.main = .idle := by
  dsimp only
  rw [core_fault]
  exact ⟨rfl, rfl, vat_set_same _ (ctxNum .main) _, rfl⟩

/-- A held bundle that may go on is released after the cycle in which its condition held. -/
theorem exec_stallRelease {p : Pos} {cc : Nat} {s : State} {i : Issue} {pt : Fin 6} (h0 : 0 < cc) (hc : (s.ut p).cycle ≤ cc - 1)
    (hd : s.dieUp p = true) (hh : ((s.run p (cc - 1)).core p).ctl.heldAt = some (i, pt)) (hs : ((s.run p (cc - 1)).core p).ctl.stallStart < cc)
    (ho : ((stallPoint (s.run p (cc - 1)) p i.bundle).isNone = true ∧
        (pt ≠ 3 ∨ cc ≤ ((s.run p (cc - 1)).core p).ctl.stallStart + (vat ((s.run p (cc - 1)).core p).ctl.patience 0).toNat)) ∨
      ((s.run p (cc - 1)).core p).ctl.freed = true) :
    exec (.stallRelease p cc) s = .next (releaseHeld p cc (freedEffect (stallPoint (s.run p (cc - 1)) p i.bundle).isNone) i pt
      ((s.run p (cc - 1)).run p cc)) := by
  change execStallRelease p cc s = _
  have hg : ¬(cc = 0 ∨ cc - 1 < (s.ut p).cycle ∨ (!s.dieUp p) = true) := by simp [hd]; omega
  unfold execStallRelease
  rw [if_neg hg]
  simp only [hh]
  rw [if_pos]
  simpa [hs] using ho

theorem exec_sendPatienceExpiry {p : Pos} {cc : Nat} {s : State} {i : Issue} (hc : (s.ut p).cycle ≤ cc) (hd : s.dieUp p = true)
    (hh : ((s.run p cc).core p).ctl.heldAt = some (i, 3))
    (hp : ((s.run p cc).core p).ctl.stallStart + (vat ((s.run p cc).core p).ctl.patience 0).toNat ≤ cc) (hf : stagingFull (s.run p cc) p = true) :
    exec (.sendPatienceExpiry p cc) s = .next (releaseHeld p cc sendGivesUp i 3 (s.run p cc)) := by
  change execSendPatienceExpiry p cc s = _
  unfold execSendPatienceExpiry
  rw [tileEvent_taken hc hd]
  simp [hh, hp, hf]

/-! ### A SEND that gives up (R166) -/

section
variable (s : State) (p : Pos) (k : Fin 64) (ch : Option (Bool × BitVec 13)) (st : Status)

/-- The signal of a completion enters a write in flight or takes the number of a request. -/
theorem signalCh_core : ∃ l n, (s.signalCh p ch).core p = { s.core p with pend := l, mov := { (s.core p).mov with nextOp := n } } := by
  match ch with
  | none => exact ⟨_, _, rfl⟩
  | some (false, c) => exact ⟨_, _, State.core_modCore _ _ _⟩
  | some (true, c) => exact ⟨_, _, by rw [State.signalCh, State.ask, State.modMov, State.core_modCore]; rfl⟩

theorem endAtIssue_core : ∃ l n, (s.endAtIssue p k ch st).core p = { s.core p with
    pend := l, mov := { (s.core p).mov with
      nextOp := n, slots := vmod (s.core p).mov.slots k fun _ => { busy := false, status := st, op := none } } } := by
  obtain ⟨l, n, h⟩ := signalCh_core (s.modSlot p k fun _ => { busy := false, status := st, op := none }) p ch
  exact ⟨l, n, by rw [State.endAtIssue, h, State.modSlot, State.modMov, State.core_modCore]⟩

end

theorem withSlot_of_free {i : Issue} {s : State} (h : (s.slot i.pos (xSlot (xw i))).busy = false) (f : State → State) : withSlot i s f = f s := by
  simp [withSlot, h]

/-- What the list of stalls keeps of a SEND that has given up. -/
def sendStallOf (i : Issue) (s : State) : SendStall :=
  { dest := (s.rS i (xA (xw i))).extractLsb' 0 7, berth := (s.rS i (xA (xw i))).extractLsb' 7 6, barge := false, answers := 0
    waited := i.cc - (s.core i.pos).ctl.stallStart }

theorem sendGivesUp_core {i : Issue} {s : State} (h : (s.slot i.pos (xSlot (xw i))).busy = false) : ∃ l n,
    (sendGivesUp i s).core i.pos = { (s.core i.pos).modCtx i.ctx (fun q => { q with sendStat := .berthFull }) with
      pend := l
      mov := { (s.core i.pos).mov with
        nextOp := n, stalls := (s.core i.pos).mov.stalls ++ [sendStallOf i s]
        slots := vmod (s.core i.pos).mov.slots (xSlot (xw i)) fun _ => { busy := false, status := .berthFull, op := none } } } := by
  have he : sendGivesUp i s = ((s.setSendStat i.pos i.ctx .berthFull).modMov i.pos fun m =>
      { m with stalls := m.stalls ++ [sendStallOf i s] }).endAtIssue i.pos (xSlot (xw i)) (xChOpt (xw i)) .berthFull := withSlot_of_free h _
  obtain ⟨l, n, hc⟩ := endAtIssue_core ((s.setSendStat i.pos i.ctx .berthFull).modMov i.pos fun m =>
    { m with stalls := m.stalls ++ [sendStallOf i s] }) i.pos (xSlot (xw i)) (xChOpt (xw i)) .berthFull
  refine ⟨l, n, ?_⟩
  rw [he, hc, State.modMov, State.core_modCore, State.setSendStat, State.core_modCore, Core.modCtx_mov]

theorem Core.ctx_pend_mov (c : Core) (l : List PendW) (m : MoveUnit) (x : Ctx) : ({ c with pend := l, mov := m } : Core).ctx x = c.ctx x := by
  cases x <;> rfl

theorem stallsEnd_holds : Rules.StallsEnd := by
  refine ⟨?_, ?_, ?_⟩
  · intro p cc s i pt u z k met h0 hc hd hm hh hs ho
    have hx := exec_stallRelease h0 hc hd (heldAt_eq hm hh) hs ho
    exact ⟨fun hb => ⟨_, heldIssued_released, hx.trans (congrArg Host.Outcome.next (releaseHeld_of_clear hb))⟩,
      fun f r hb => ⟨_, hx.trans (congrArg Host.Outcome.next (releaseHeld_of_fault hb)), fault_main_core _ p i.idx _ f.2⟩⟩
  · intro p cc s i u k hc hd hm hh hp hf hb
    exact ⟨_, heldIssued_released, (exec_sendPatienceExpiry hc hd (heldAt_eq hm hh) hp hf).trans
      (congrArg Host.Outcome.next (releaseHeld_of_clear hb))⟩
  · intro i s k hb
    obtain ⟨l, n, hc⟩ := sendGivesUp_core hb
    have hslot : (sendGivesUp i s).slot i.pos k = { busy := false, status := .berthFull, op := none } := by
      rw [State.slot, hc]
      exact vmod_get_same _ _ _
    rw [hslot, hc, Core.ctx_pend_mov, Core.ctx_modCtx]
    exact ⟨rfl, rfl, rfl, rfl, by simp⟩

end Sys2Proof.Machine
end

section
/-! PROOFS. Starts of handlers, DBG, service code, scrub and zeroing (O23): the core and the under-tile that each event leaves. -/

namespace Sys2Proof.Machine

open Sys2Proof

/-! ### Starts of handlers (R136, R137) and the end of a window (R139) -/

/-- The oldest invocation may start in cycle cc. -/
structure StartsHandler (k : Control) (v : Invocation) (r : List Invocation) (cc : Nat) : Prop where
  queue : k.queue = v :: r
  hand : k.hand = .idle
  runs : vat k.stopped 1 = false
  posted : v.postedCc + 4 ≤ cc
  last : k.handLast = 0 ∨ k.handLast + 4 ≤ cc

/-- HAND has taken the invocation up at an entry bundle. -/
def State.handlerTaken (u : State) (p : Pos) (cc : Nat) (v : Invocation) (r : List Invocation) : State :=
  let e := handlerEntry (u.core p) v.handler.toNat
  ((u.modCtl p fun k => { k with queue := r }).modCtl p fun k => { k with
    hand := if u.mainIssues p cc then .suspended else .running, curInv := some v, handIssued := 0, handBudget := fld e 16 12 }).modCore p
      fun c => c.modCtx .hand fun q => q.entered v (e.extractLsb' 0 14) cc

/-- The invocation starts at its entry, or HAND stops where the entry lies beyond the image. -/
theorem exec_handlerStart {p : Pos} {cc : Nat} {s : State} {v : Invocation} {r : List Invocation} (hc : (s.ut p).cycle ≤ cc) (hd : s.dieUp p = true)
    (h : StartsHandler ((s.run p cc).core p).ctl v r cc) : exec (.handlerStart p cc) s = .next (
      let u := s.run p cc
      let e := handlerEntry (u.core p) v.handler.toNat
      if istoreBad (u.core p) (fld e 0 14) then (u.modCtl p fun k => { k with queue := r }).fault p .hand (e.extractLsb' 0 14) 0 .istoreBounds
      else u.handlerTaken p cc v r) := by
  obtain ⟨hq, hh, hr, hp, hl⟩ := h
  change execHandlerStart p cc s = _
  unfold execHandlerStart
  rw [tileEvent_taken hc hd]
  simp only [hq, hh, hr, hp]
  rw [if_pos (by simpa using hl)]
  rfl

/-- The registers of Table 5.10. -/
theorem entered_reads (q : CtxState) (v : Invocation) (e : BitVec 14) (cc : Nat) :
    vat (q.entered v e cc).a 0 = v.payload.zeroExtend 48 ∧ vat (q.entered v e cc).s 0 = v.length.zeroExtend 64 ∧
    vat (q.entered v e cc).s 1 = v.src.zeroExtend 64 ∧ vat (q.entered v e cc).s 2 = BitVec.ofNat 64 (v.berth.val + 65536 * v.gen.toNat) ∧
    vat (q.entered v e cc).s 3 = v.word0 ∧ vat (q.entered v e cc).p 1 = v.combined := by
  simp [CtxState.entered, vat]

theorem handlerTaken_core (u : State) (p : Pos) (cc : Nat) (v : Invocation) (r : List Invocation) :
    (u.handlerTaken p cc v r).core p = { u.core p with
      hand := (u.core p).hand.entered v ((handlerEntry (u.core p) v.handler.toNat).extractLsb' 0 14) cc
      ctl := { (u.core p).ctl with
        queue := r, hand := if u.mainIssues p cc then .suspended else .running, curInv := some v, handIssued := 0
        handBudget := fld (handlerEntry (u.core p) v.handler.toNat) 16 12 } } := by
  rw [State.handlerTaken, State.core_modCore, State.core_modCtl, State.core_modCtl]
  rfl

theorem exec_hwinExpiry {p : Pos} {cc : Nat} {s : State} (hc : (s.ut p).cycle ≤ cc) (hd : s.dieUp p = true)
    (ho : ((s.run p cc).core p).ctl.hwinOpen = true) (he : ((s.run p cc).core p).ctl.hwinEnd ≤ cc) :
    exec (.hwinExpiry p cc) s = .next ((s.run p cc).modCtl p fun k =>
      { k with hwinOpen := false, hand := if k.hand = .running then .suspended else k.hand }) := by
  change execHwinExpiry p cc s = _
  unfold execHwinExpiry
  rw [tileEvent_taken hc hd]
  simp [ho, he]

theorem handlersStart_holds : Rules.HandlersStart := by
  intro p cc s u c hc hd
  refine ⟨fun v r hq hh hr hp hl => ?_, fun v r hq hh hr hp hl he => ?_, fun ho he => exec_hwinExpiry hc hd ho he⟩
  · intro e he
    have hx := exec_handlerStart hc hd ⟨hq, hh, hr, hp, hl⟩
    dsimp only at hx
    rw [if_neg (by simpa [istoreBad] using he)] at hx
    obtain ⟨ha, h0, h1, h2, h3, h4⟩ := entered_reads c.hand v (e.extractLsb' 0 14) cc
    refine ⟨_, hx, ?_⟩
    rw [handlerTaken_core]
    refine ⟨rfl, rfl, rfl, rfl, ?_, ha, h0, h1, h2, h3, h4, rfl, rfl, rfl, rfl⟩
    dsimp only
    split_ifs <;> decide
  · have hx := exec_handlerStart hc hd ⟨hq, hh, hr, hp, hl⟩
    dsimp only at hx
    rw [if_pos (by simpa [istoreBad] using he)] at hx
    refine ⟨_, hx, ?_⟩
    rw [core_fault]
    exact ⟨rfl, rfl, vat_set_same _ (ctxNum .hand) _⟩

/-! ### Halt and resume by DBG (R123) -/

section
variable {p : Pos} {s : State}

theorem exec_dbgHalt_at_once (hd : s.dieUp p = true) (hm : (s.core p).ctl.main ≠ .halted) (h : ∀ r, s.stepAt p = some r → r.man.debug = true) :
    exec (.dbgHalt p) s = .next (s.modCtl p (Control.halt (s.ut p).cycle)) := by
  change execDbgHalt p s = _
  unfold execDbgHalt
  rw [if_neg (by simp [hd, hm])]
  cases hs : s.stepAt p with
  | none => rfl
  | some r => simp only [h r hs, if_true]

theorem exec_dbgHalt_noted (hd : s.dieUp p = true) (hm : (s.core p).ctl.main ≠ .halted) {r : StepRec} (hs : s.stepAt p = some r)
    (hr : r.man.debug = false) : exec (.dbgHalt p) s = .next (s.modCtl p fun k => { k with haltWanted := true }) := by
  change execDbgHalt p s = _
  unfold execDbgHalt
  rw [if_neg (by simp [hd, hm])]
  simp only [hs, hr, Bool.false_eq_true, if_false]

end

/-- MAIN is back in the state m, and issues after as many cycles as it had left at the halt. -/
def State.mainResumed (s : State) (p : Pos) (m : MainSt) : State :=
  let k := (s.core p).ctl
  let now := (s.ut p).cycle
  (s.modCtl p fun k => k.resumed m now (s.ut p).tick).modCore p fun c =>
    c.modCtx .main fun q => { q with nextCc := max q.nextCc k.haltAt + (now - k.haltAt) }

/-- A resumed core that a gate tick had found halted at pound end: it starts its next slice, or is back in step. -/
def State.lateResumed (s : State) (p : Pos) (now : Nat) : State :=
  match s.catchUp p false with
  | some j => s.startLate p now j
  | none => (s.pendReport p (s.lastEmpty p)).modCtl p fun k => { k with lateRun := false, missed := 0 }

section
variable {p : Pos} {s : State} {m : MainSt}

theorem exec_dbgResume (hh : (s.core p).ctl.main = .halted) (hm : (s.core p).ctl.heldHalt = some m) : exec (.dbgResume p) s = .next (
    if m = .stalled 5 && (s.core p).ctl.lateRun then (s.mainResumed p m).lateResumed p (s.ut p).cycle else s.mainResumed p m) := by
  change execDbgResume p s = _
  simp only [execDbgResume, hh, hm]
  rfl

theorem mainResumed_core : (s.mainResumed p m).core p = { s.core p with
    main := { (s.core p).main with
      nextCc := max (s.core p).main.nextCc (s.core p).ctl.haltAt + ((s.ut p).cycle - (s.core p).ctl.haltAt) }
    ctl := (s.core p).ctl.resumed m (s.ut p).cycle (s.ut p).tick } := by
  rw [State.mainResumed, State.core_modCore, State.core_modCtl]
  rfl

/-- What a core has to catch up is told by the step on its tile, whether it runs late, and the pound of its slice. -/
theorem catchUp_congr {t : State} (hd : (t.core p).desc = (s.core p).desc) (hi : t.intake = s.intake)
    (hl : (t.core p).ctl.lateRun = (s.core p).ctl.lateRun) (hp : (t.core p).ctl.pound = (s.core p).ctl.pound) (b : Bool) :
    t.catchUp p b = s.catchUp p b := by
  simp only [State.catchUp, stepAt_congr hd hi, hl, hp]

theorem mainResumed_catchUp (b : Bool) : (s.mainResumed p m).catchUp p b = s.catchUp p b :=
  catchUp_congr (s := s) (t := s.mainResumed p m) (by rw [mainResumed_core]) rfl (by rw [mainResumed_core]; rfl) (by rw [mainResumed_core]; rfl) b

theorem lateResumed_core_of_none {now : Nat} (h : s.catchUp p false = none) :
    (s.lateResumed p now).core p = { s.core p with ctl := { (s.core p).ctl with lateRun := false, missed := 0 } } := by
  simp only [State.lateResumed, h, State.core_modCtl, pendReport_core]

theorem lateResumed_of_some {now j : Nat} (h : s.catchUp p false = some j) : s.lateResumed p now = s.startLate p now j := by
  simp only [State.lateResumed, h]

end

/-! ### Service code of TOW (R122) -/

/-- TOW serves: its bundle stands no earlier than the tile's cycle. -/
def State.towServes (s : State) (p : Pos) : State :=
  (s.modCtl p fun k => { k with towBusy := true, stopped := k.stopped.set 2 false }).modCore p fun c =>
    c.modCtx .tow fun q => { q with nextCc := max q.nextCc (s.ut p).cycle }

section
variable {p : Pos} {s : State} {w : TowWrite}

theorem towServes_core : (s.towServes p).core p = { s.core p with
    tow := { (s.core p).tow with nextCc := max (s.core p).tow.nextCc (s.ut p).cycle }
    ctl := { (s.core p).ctl with towBusy := true, stopped := (s.core p).ctl.stopped.set 2 false } } := by
  rw [State.towServes, State.core_modCore, State.core_modCtl]
  rfl

theorem exec_towService_alone (hd : s.dieUp p = true) (hs : s.stepAt p = none) :
    exec (.towService p w) s = .next ((s.towServes p).modCore p fun c => c.towWrite w) := by
  change execTowService p w s = _
  simp [execTowService, hd, hs, State.towServes]

theorem exec_towService_in_step (hd : s.dieUp p = true) {r : StepRec} (hs : s.stepAt p = some r) :
    exec (.towService p w) s = .next ((s.towServes p).fault p .tow ((s.towServes p).core p).tow.nextIdx 0 .contextIllegal) := by
  change execTowService p w s = _
  simp [execTowService, hd, hs, State.towServes]

end

/-- What a write of service code is to a reader of the item. -/
def TowWritten (c d : Core) : TowWrite → Prop
  | .sReg h r v => d.readS (if h then .hand else .main) r.val = v
  | .aReg h r v => d.readA (if h then .hand else .main) r.val = v
  | .pReg h r v => d.readP (if h then .hand else .main) r.val = (v || decide (r = 0))
  | .vReg r v => vat d.vMain r.val = v
  | .vHand r v => vat d.vHand r.val = v
  | .store k b => d.img.store = tblPut 0 c.img.store k.toNat b
  | .handler k e => d.img.htab = tblPut 0 c.img.htab k.toNat e

theorem towWrite_written (c : Core) (w : TowWrite) : TowWritten c (c.towWrite w) w := by
  cases w with
  | sReg h r v => cases h <;> exact vat_set_same _ _ _
  | aReg h r v => cases h <;> exact vat_set_same _ _ _
  | pReg h r v =>
    by_cases hr : r = 0
    · simp [TowWritten, hr]
    · have h8 : r.val % 8 ≠ 0 := by omega
      simp only [TowWritten, Core.towWrite, if_neg hr, Core.readP, if_neg h8, decide_eq_false hr, Bool.or_false]
      cases h <;> exact vat_set_same _ _ _
  | vReg r v => exact vat_set_same _ _ _
  | vHand r v => exact vat_set_same _ _ _
  | store k b => rfl
  | handler k e => rfl

theorem towWrite_ctl (c : Core) (w : TowWrite) : (c.towWrite w).ctl = c.ctl := by
  cases w with
  | pReg h r v => by_cases hr : r = 0 <;> simp [Core.towWrite, hr]
  | sReg h r v | aReg h r v => exact Core.modCtx_ctl _ _ _
  | vReg r v | vHand r v | store k b | handler k e => rfl

theorem debugAndService_holds : Rules.DebugAndService := by
  intro p s
  refine ⟨fun hd hm => ⟨fun h => ⟨_, exec_dbgHalt_at_once hd hm h, ?_⟩, fun r hs hr => exec_dbgHalt_noted hd hm hs hr⟩,
    fun m hh hm => ⟨fun hn => ?_, fun hm5 hl => ?_⟩, fun w hd hs => ⟨_, exec_towService_alone hd hs, ?_⟩,
    fun w r hd hs => ⟨_, exec_towService_in_step hd hs, ?_⟩⟩
  · rw [State.core_modCtl]
    exact ⟨rfl, rfl, rfl, rfl, rfl⟩
  · refine ⟨s.mainResumed p m, ?_, ?_⟩
    · rw [exec_dbgResume hh hm, if_neg (by simpa using hn)]
    · rw [mainResumed_core]
      exact ⟨rfl, rfl, rfl, rfl, rfl⟩
  · refine ⟨(s.mainResumed p m).lateResumed p (s.ut p).cycle, ?_, ?_⟩
    · rw [exec_dbgResume hh hm, if_pos (by simp [hm5, hl])]
    · cases hc : s.catchUp p false with
      | none =>
        rw [lateResumed_core_of_none ((mainResumed_catchUp false).trans hc), mainResumed_core]
        exact ⟨rfl, rfl, fun _ => ⟨hm5, rfl⟩, nofun⟩
      | some j =>
        rw [lateResumed_of_some ((mainResumed_catchUp false).trans hc), startLate_core, mainResumed_core]
        refine ⟨rfl, rfl, nofun, fun k hk => ?_⟩
        cases hk
        exact ⟨rfl, rfl, rfl, rfl⟩
  · rw [State.core_modCore]
    refine ⟨by rw [towWrite_ctl, towServes_core], ?_⟩
    have hw := towWrite_written ((s.towServes p).core p) w
    have hi : ((s.towServes p).core p).img = (s.core p).img := by rw [towServes_core]
    cases w with
    | store k b => exact hw.trans (by rw [hi])
    | handler k e => exact hw.trans (by rw [hi])
    | sReg h r v | aReg h r v | pReg h r v | vReg r v | vHand r v => exact hw
  · rw [core_fault, towServes_core]
    exact ⟨rfl, rfl, vat_set_same _ (ctxNum .tow) _, rfl, rfl, rfl⟩

/-! ### Patrol scrub (R180) and the end of zeroing (R177) -/

/-- The words with a single-bit error in a chunk. -/
def Scratch.chunkErrors (d : Scratch) (k : Nat) : List Nat := d.single.filter fun w => wordHit (1024 * k) 1024 w

/-- Reading a chunk counts its corrected words and notes what is uncorrectable. -/
theorem meet_chunk (d : Scratch) (port k : Nat) : ∃ u lv lp la, d.meet port (1024 * k) 1024 = { d with
    corrected := d.corrected + BitVec.ofNat 32 (d.chunkErrors k).length, uncorr := u, lastValid := lv, lastPort := lp, lastAddr := la } := by
  have hs (f : Nat × Nat → List Nat) : [((1024 * k, 1024) : Nat × Nat)].flatMap f = f (1024 * k, 1024) := by simp
  simp only [Scratch.meet, Scratch.meetRuns, hs]
  split
  · exact ⟨_, _, _, _, rfl⟩
  · exact ⟨_, _, _, _, rfl⟩

/-- The scratchpad after the patrol scrub has read its next chunk in cycle cc. -/
def Scratch.patrolled (d : Scratch) (cc : Nat) : Scratch :=
  let k := d.scrubPos
  let e := d.meet 7 (1024 * k) 1024
  { e with
    scrubNext := cc + 1, scrubPos := (k + 1) % 65536, passes := if k + 1 = 65536 then e.passes + 1 else e.passes
    scrubFix := if d.single.any (fun w => wordHit (1024 * k) 1024 w) && !e.scrubFix.contains k then e.scrubFix ++ [k] else e.scrubFix }

/-- The scrub moves on by a chunk, counts corrected words and full passes, and changes no byte. -/
theorem patrolled_counts (d : Scratch) (cc : Nat) : (d.patrolled cc).scrubPos = (d.scrubPos + 1) % 65536 ∧
    (d.patrolled cc).passes = (if d.scrubPos = 65535 then d.passes + 1 else d.passes) ∧ (d.patrolled cc).mem = d.mem ∧
    (d.patrolled cc).corrected = d.corrected + BitVec.ofNat 32 (d.chunkErrors d.scrubPos).length := by
  obtain ⟨_, _, _, _, hm⟩ := meet_chunk d 7 d.scrubPos
  simp [Scratch.patrolled, hm]

/-- A chunk with corrected words is noted for the writeback. -/
theorem patrolled_noted {d : Scratch} {cc : Nat} (h : d.chunkErrors d.scrubPos ≠ []) : d.scrubPos ∈ (d.patrolled cc).scrubFix := by
  have ha : d.single.any (fun w => wordHit (1024 * d.scrubPos) 1024 w) = true := by
    obtain ⟨w, hw⟩ := List.exists_mem_of_ne_nil _ h
    exact List.any_eq_true.mpr ⟨w, List.mem_filter.mp hw⟩
  simp only [Scratch.patrolled, ha, Bool.true_and]
  split_ifs with hc
  · simp
  · simpa using hc

/-- The scratchpad after the writeback of a chunk in cycle cc. -/
def Scratch.writtenBack (d : Scratch) (cc k : Nat) : Scratch :=
  { d with scrubNext := cc + 1, scrubFix := d.scrubFix.erase k, single := d.single.filter fun w => !wordHit (1024 * k) 1024 w }

section
variable {p : Pos} {cc : Nat} {s : State}

theorem exec_patrolScrub (hc : (s.ut p).cycle ≤ cc) (hd : s.dieUp p = true) (he : ((s.run p cc).core p).spd.scrubEn = true)
    (hi : (s.run p cc).niIdle p cc ((s.run p cc).core p).spd.scrubPos = true) :
    exec (.patrolScrub p cc) s = .next ((s.run p cc).modSpd p fun d => d.patrolled cc) := by
  change execPatrolScrub p cc s = _
  unfold execPatrolScrub
  rw [tileEvent_taken hc hd, if_pos (by simp [he, hi])]
  exact congrArg Host.Outcome.next (State.modSpd_congr _ _ rfl)

theorem exec_scrubWriteback (hc : (s.ut p).cycle ≤ cc) (hd : s.dieUp p = true) {k : Nat}
    (hk : (((s.run p cc).core p).spd.scrubFix.find? fun k => (s.run p cc).niIdle p cc k) = some k) :
    exec (.scrubWriteback p cc) s = .next ((s.run p cc).modSpd p fun d => d.writtenBack cc k) := by
  change execScrubWriteback p cc s = _
  unfold execScrubWriteback
  rw [tileEvent_taken hc hd, hk]
  rfl

theorem exec_segmentZeroingDone (hc : (s.ut p).cycle ≤ cc) (hz : (s.core p).spd.zeroing = true) :
    exec (.segmentZeroingDone p cc) s = .next (((s.run p cc).modSpd p fun d =>
      { d with zeroing := false, free := d.free.map fun f => max f cc }).modUt p fun u => { u with pwr := u.pwr.awake }) := by
  change execSegmentZeroingDone p cc s = _
  unfold execSegmentZeroingDone
  rw [if_neg (by simp [hc, hz])]

end

/-- A die whose VCORE is on is in RUN or IDLE once it is awake. -/
theorem awake_state {r : Regulator} (h : r.vcore = true) : r.awake.state = 0 ∨ r.awake.state = 1 := by
  unfold Regulator.awake
  split_ifs with hs
  · exact .inr rfl
  · simp only [h, Bool.true_and, Bool.or_eq_true, beq_iff_eq, not_or] at hs
    obtain ⟨h2, h3⟩ := hs
    generalize r.state = x at h2 h3
    revert h2 h3
    revert x
    decide

theorem scrubAndZeroing_holds : Rules.ScrubAndZeroing := by
  intro p cc s u d hc
  refine ⟨fun hd he hi => ⟨_, exec_patrolScrub hc hd he hi, ?_⟩, fun k hd hk => ?_, fun hz => ?_⟩
  · rw [State.core_modSpd]
    obtain ⟨hpos, hpass, hmem, hcorr⟩ := patrolled_counts d cc
    exact ⟨hpos, hpass, hmem, hcorr, patrolled_noted, rfl, State.modTile_rest _ _ _⟩
  · refine ⟨_, exec_scrubWriteback hc hd hk, ?_⟩
    rw [State.core_modSpd]
    refine ⟨rfl, rfl, fun w hw => ?_, rfl⟩
    obtain ⟨hw, hn⟩ := List.mem_filter.mp hw
    exact ⟨hw, by simpa using hn⟩
  · refine ⟨_, exec_segmentZeroingDone hc hz, ?_⟩
    rw [State.core_modUt, State.core_modSpd, State.ut_modUt, State.ut_modSpd]
    exact ⟨rfl, rfl, fun x => by simp, awake_state⟩

/-- Settles O23: ends of stalls, starts of handlers, debug and service requests, scrub and the end of zeroing. -/
theorem coreEvents : Obligations.CoreEvents := ⟨stallsEnd_holds, handlersStart_holds, debugAndService_holds, scrubAndZeroing_holds⟩

end Sys2Proof.Machine
end

section
/-! PROOFS. The C slot (O8 to O11, O13): one lemma for each shape of result row, the values of the comparisons, minima and maxima, and where a
context issues next. -/

namespace Sys2Proof.Machine

open Sys2Proof

/-! ### Rows of Table 6.3 -/

/-- A command that is a slot command takes the effect of its row when the slot issues. -/
theorem exec_of_issues {k : SlotK} {op : Nat} {al : Bool} {c : Issue → Instr} {eff : Issue → State → State}
    (hc : ∀ i s, exec (c i) s = .next (slotCmd k op al eff i s)) {i : Issue} {s t : State} (h : Issues k op i s t) :
    exec (c i) s = .next (eff i t) := by
  rw [hc, slotCmd_issues h]

section
variable {op : Nat} {al : Bool} {c : Issue → Instr}

theorem rowSS_of {lat : Nat} {f g : Word → Word → Word} (hc : ∀ i s, exec (c i) s = .next (slotCmd .c op al (effSS lat g) i s))
    (h : ∀ a b, g a b = f a b) : RowSS op c lat f := by
  intro i s t hi
  rw [exec_of_issues hc hi, show g = f from funext₂ h]
  rfl
theorem rowPS_of {f g : Word → Word → Bool} (hc : ∀ i s, exec (c i) s = .next (slotCmd .c op al (effPS g) i s))
    (h : ∀ a b, g a b = f a b) : RowPS op c f := by
  intro i s t hi
  rw [exec_of_issues hc hi, show g = f from funext₂ h]
  rfl
theorem rowPP_of {f g : Bool → Bool → Bool} (hc : ∀ i s, exec (c i) s = .next (slotCmd .c op al (effPP g) i s))
    (h : ∀ a b, g a b = f a b) : RowPP op c f := by
  intro i s t hi
  rw [exec_of_issues hc hi, show g = f from funext₂ h]
  rfl

end

/-! ### Integers, immediates and predicates (O8, O9) -/

/-- The guard of a slot that takes effect is judged on the state in which it does. -/
theorem openSlot_opened {s t : State} {i : Issue} {k : SlotK} {g : Bool} (h : openSlot s i k = .ready t g) : ∃ u, openedSlot u i k = .ready t g := by
  unfold openSlot at h
  dsimp only at h
  split at h
  · cases h
  · split at h
    · split at h
      · exact ⟨_, h⟩
      · cases h
    · split at h
      · cases h
      · split at h
        · cases h
        · cases h
        · split at h
          · cases h
          · rw [openBundle_eq] at h
            split at h
            · cases h
            · split at h
              · cases h
              · split at h
                · cases h
                · exact ⟨_, h⟩
theorem openSlot_guard {s t : State} {i : Issue} {k : SlotK} {g : Bool} (h : openSlot s i k = .ready t g) :
    guardTrue (t.core i.pos) i.ctx (slotWord i.bundle k) = g := by
  obtain ⟨u, hu⟩ := openSlot_opened h
  rw [openedSlot_eq] at hu
  cases hu
  rfl

/-- The rows ADD to MAXU, one for each line of Table 6.3: their functions are the model's, and the minima and maxima compare as numbers. -/
theorem scalarIntegerResults_hold : Rules.ScalarIntegerResults := by
  have hs (a b : Word) {x y : Word} : (if a.sle b then x else y) = if a.toInt ≤ b.toInt then x else y := by
    simp only [BitVec.sle_iff_toInt_le]
  have hu (a b : Word) {x y : Word} : (if a.ule b then x else y) = if a.toNat ≤ b.toNat then x else y := by
    simp only [BitVec.ule_iff_toNat_le]
  exact ⟨rowSS_of (fun _ _ => rfl) fun _ _ => rfl, rowSS_of (fun _ _ => rfl) fun _ _ => rfl, rowSS_of (fun _ _ => rfl) fun _ _ => rfl,
    rowSS_of (fun _ _ => rfl) fun _ _ => rfl, rowSS_of (fun _ _ => rfl) fun _ _ => rfl, rowSS_of (fun _ _ => rfl) fun _ _ => rfl,
    rowSS_of (fun _ _ => rfl) fun _ _ => rfl, rowSS_of (fun _ _ => rfl) fun _ _ => rfl, rowSS_of (fun _ _ => rfl) fun _ _ => rfl,
    rowSS_of (fun _ _ => rfl) fun a b => hs a b, rowSS_of (fun _ _ => rfl) fun a b => hs a b,
    rowSS_of (fun _ _ => rfl) fun a b => hu a b, rowSS_of (fun _ _ => rfl) fun a b => hu a b⟩

theorem scalarImmediateResults_hold : Rules.ScalarImmediateResults := by
  intro i s t w d imm S
  refine ⟨exec_of_issues (eff := effAddi) fun _ _ => rfl, exec_of_issues (eff := effMovi) fun _ _ => rfl,
    exec_of_issues (eff := effMovhi) fun _ _ => rfl, fun h => ?_⟩
  have hg : guardTrue (t.core i.pos) i.ctx (cw i) = true := openSlot_guard h.2.2
  rw [exec_of_issues (eff := effSel) (al := true) (fun _ _ => rfl) h, effSel, if_pos hg]
  rfl

/-- Settles O8: the result rows of the integers, and the immediates and moves. -/
theorem scalarIntegerResults : Obligations.ScalarIntegerResults := ⟨scalarIntegerResults_hold, scalarImmediateResults_hold⟩

theorem selNeverSkips_holds : Rules.SelNeverSkips := by
  intro i s t hv ho h w
  have hg : guardTrue (t.core i.pos) i.ctx (cw i) = false := openSlot_guard h
  have he : exec (.sel i) s = .next (effSel i t) := congrArg Host.Outcome.next (slotCmd_guard_false hv ho h true effSel)
  rw [he, effSel, if_neg (by simp [hg])]
  rfl

theorem predicateResults_hold : Rules.PredicateResults := by
  exact ⟨rowPS_of (fun _ _ => rfl) fun _ _ => rfl, rowPS_of (fun _ _ => rfl) fun a b => by simp [cmpNe, bne, beq_eq_decide], rowPS_of (fun _ _ => rfl) fun _ _ => rfl,
    rowPS_of (fun _ _ => rfl) fun _ _ => rfl, rowPS_of (fun _ _ => rfl) fun _ _ => rfl,
    rowPS_of (fun _ _ => rfl) fun _ _ => rfl, rowPS_of (fun _ _ => rfl) fun _ _ => rfl,
    rowPS_of (fun _ _ => rfl) fun _ _ => rfl, rowPS_of (fun _ _ => rfl) fun _ _ => rfl,
    rowPP_of (fun _ _ => rfl) fun _ _ => rfl, rowPP_of (fun _ _ => rfl) fun _ _ => rfl, rowPP_of (fun _ _ => rfl) fun _ _ => rfl,
    fun i s t => exec_of_issues (eff := effPnot) fun _ _ => rfl⟩

/-- Settles O9: SEL under a false guard, and the rows that write predicates. -/
theorem predicateResults : Obligations.PredicateResults := ⟨selNeverSkips_holds, predicateResults_hold⟩

/-! ### FP32 numbers in the order of their codes -/

/-- The magnitude bits of a code. -/
def f32Mag (x : F32) : Nat := x.toNat % 2 ^ 31
/-- The value of magnitude bits below those of infinity, in units of the smallest subnormal. -/
def f32Units (k : Nat) : Nat := if k < 2 ^ 23 then k else (k % 2 ^ 23 + 2 ^ 23) * 2 ^ (k / 2 ^ 23 - 1)

theorem f32Units_mono {k l : Nat} (h : k ≤ l) : f32Units k ≤ f32Units l := by
  unfold f32Units
  have hdiv : k / 2 ^ 23 ≤ l / 2 ^ 23 := Nat.div_le_div_right h
  have hpos : 1 ≤ 2 ^ (l / 2 ^ 23 - 1) := Nat.one_le_two_pow
  split_ifs with hk hl hl
  · exact h
  · exact (show k ≤ l % 2 ^ 23 + 2 ^ 23 by omega).trans (Nat.le_mul_of_pos_right _ hpos)
  · omega
  · rcases Nat.eq_or_lt_of_le hdiv with he | hlt
    · rw [he]
      exact Nat.mul_le_mul_right _ (by omega)
    · have hp : 2 * 2 ^ (k / 2 ^ 23 - 1) ≤ 2 ^ (l / 2 ^ 23 - 1) := by
        rw [← pow_succ']
        exact Nat.pow_le_pow_right (by decide) (by omega)
      calc (k % 2 ^ 23 + 2 ^ 23) * 2 ^ (k / 2 ^ 23 - 1)
        _ ≤ 2 ^ 23 * 2 * 2 ^ (k / 2 ^ 23 - 1) := Nat.mul_le_mul_right _ (by omega)
        _ = 2 ^ 23 * (2 * 2 ^ (k / 2 ^ 23 - 1)) := by ring
        _ ≤ (l % 2 ^ 23 + 2 ^ 23) * 2 ^ (l / 2 ^ 23 - 1) := Nat.mul_le_mul (by omega) hp

theorem sign_bit (x : F32) : x.getLsbD 31 = decide ((x.toNat >>> 31) % 2 = 1) := by
  simp [BitVec.getLsbD, Nat.testBit, Nat.one_and_eq_mod_two]

theorem f32Key_eq (x : F32) : f32Key x = if x.getLsbD 31 then -(f32Mag x : Int) - 1 else (f32Mag x : Int) := by
  unfold f32Key f32Mag
  rw [sign_bit]
  have := x.isLt
  split_ifs with h
  · rfl
  · simp only [Nat.shiftRight_eq_div_pow, decide_eq_true_eq] at h
    omega

/-- A code by its fields (R90). -/
theorem dec32_eq (x : F32) : dec32 x = if x.toNat / 2 ^ 23 % 2 ^ 8 = 2 ^ 8 - 1 then (if x.toNat % 2 ^ 23 = 0 then .inf (x.getLsbD 31) else .nan)
    else if x.toNat / 2 ^ 23 % 2 ^ 8 = 0 then .fin (x.getLsbD 31) (x.toNat % 2 ^ 23) (-149)
    else .fin (x.getLsbD 31) (x.toNat % 2 ^ 23 + 2 ^ 23) (-149 + (x.toNat / 2 ^ 23 % 2 ^ 8 - 1 : Nat)) := by
  rw [sign_bit, ← Nat.shiftRight_eq_div_pow]
  rfl

/-- A code is a NaN, an infinity, or a finite value of its sign and magnitude. -/
theorem dec32_cases (x : F32) : dec32 x = .nan ∨ (dec32 x = .inf (x.getLsbD 31) ∧ f32Mag x = 0x7F800000) ∨
    ∃ (m : Nat) (e : Int), dec32 x = .fin (x.getLsbD 31) m e ∧ -149 ≤ e ∧ m * 2 ^ (e + 149).toNat = f32Units (f32Mag x) ∧ f32Mag x < 0x7F800000 := by
  rw [dec32_eq]
  unfold f32Mag f32Units
  split
  · split
    · exact .inr (.inl ⟨rfl, by omega⟩)
    · exact .inl rfl
  · split
    · refine .inr (.inr ⟨_, _, rfl, le_refl _, ?_, by omega⟩)
      rw [if_pos (by omega)]
      simp only [Int.reduceNeg, Int.reduceAdd, Int.toNat_zero, pow_zero, mul_one]
      omega
    · have he : (-149 + ((x.toNat / 2 ^ 23 % 2 ^ 8 - 1 : Nat) : Int) + 149).toNat = x.toNat % 2 ^ 31 / 2 ^ 23 - 1 := by omega
      refine .inr (.inr ⟨_, _, rfl, by omega, ?_, by omega⟩)
      rw [if_neg (by omega), he]
      congr 2
      omega

/-- Finite values compare as their numbers of units. -/
theorem fin_lt_units {a b : Bool} {m n : Nat} {e f : Int} (he : -149 ≤ e) (hf : -149 ≤ f) (h : FV.lt (.fin a m e) (.fin b n f) = true) :
    sgn a (m * 2 ^ (e + 149).toNat) < sgn b (n * 2 ^ (f + 149).toNat) := by
  simp only [FV.lt, decide_eq_true_eq] at h
  have hs (c : Bool) (k : Nat) (g : Int) (hg : -149 ≤ g) (hq : min e f ≤ g) :
      sgn c (k * 2 ^ (g + 149).toNat) = sgn c k * 2 ^ (g - min e f).toNat * 2 ^ (min e f + 149).toNat := by
    have hx : (g + 149).toNat = (g - min e f).toNat + (min e f + 149).toNat := by omega
    cases c <;> simp [sgn, hx, pow_add, mul_assoc]
  rw [hs a m e he (min_le_left ..), hs b n f hf (min_le_right ..)]
  exact mul_lt_mul_of_pos_right h (by positivity)

/-- A number below another has the lower key. -/
theorem f32Key_lt_of_lt {a b : F32} (h : (dec32 a).lt (dec32 b) = true) : f32Key a < f32Key b := by
  rw [f32Key_eq, f32Key_eq]
  rcases dec32_cases a with ha | ⟨ha, hm⟩ | ⟨m, e, ha, he, hu, hm⟩ <;> rcases dec32_cases b with hb | ⟨hb, hk⟩ | ⟨n, f, hb, hf, hv, hk⟩ <;>
    rw [ha, hb] at h
  · cases h
  · cases h
  · cases h
  · cases h
  · simp only [FV.lt, Bool.and_eq_true, Bool.not_eq_true'] at h
    obtain ⟨h1, h2⟩ := h
    simp only [h1, h2, if_true, Bool.false_eq_true, if_false]
    omega
  · rw [show a.getLsbD 31 = true from h, if_pos rfl]
    split_ifs <;> omega
  · cases h
  · simp only [FV.lt, Bool.not_eq_true'] at h
    rw [h, if_neg Bool.false_ne_true]
    split_ifs <;> omega
  · have hlt := fin_lt_units he hf h
    rw [hu, hv] at hlt
    have hab : f32Mag b ≤ f32Mag a → f32Units (f32Mag b) ≤ f32Units (f32Mag a) := f32Units_mono
    have hba : f32Mag a ≤ f32Mag b → f32Units (f32Mag a) ≤ f32Units (f32Mag b) := f32Units_mono
    unfold sgn at hlt
    split_ifs at hlt ⊢ <;> omega

/-! ### FMIN and FMAX (R91) -/

theorem f32Min_of_nan {a b : F32} (h : f32Nan a = true ∨ f32Nan b = true) : f32Min a b = 0x7FC00000 := if_pos (by simpa using h)
theorem f32Max_of_nan {a b : F32} (h : f32Nan a = true ∨ f32Nan b = true) : f32Max a b = 0x7FC00000 := if_pos (by simpa using h)

section
variable {a b : F32} (ha : f32Nan a = false) (hb : f32Nan b = false)
include ha hb

theorem f32Min_of_numbers : f32Min a b = if f32Key a ≤ f32Key b then a else b := if_neg (by simp [ha, hb])
theorem f32Max_of_numbers : f32Max a b = if f32Key a ≤ f32Key b then b else a := if_neg (by simp [ha, hb])

end

theorem minimumMaximum_holds : Rules.MinimumMaximum := by
  intro a b
  refine ⟨fun h => ⟨f32Min_of_nan h, f32Max_of_nan h⟩, fun ha hb => ?_, by decide, by decide, by decide, by decide⟩
  rw [f32Min_of_numbers ha hb, f32Max_of_numbers ha hb]
  refine ⟨(ite_eq_or_eq ..), (ite_eq_or_eq ..).symm, fun h => ?_, fun h => ?_⟩
  · have hk := (f32Key_lt_of_lt h).le
    exact ⟨if_pos hk, if_pos hk⟩
  · have hk := (f32Key_lt_of_lt h).not_ge
    exact ⟨if_neg hk, if_neg hk⟩

theorem scalarFloatResults_hold : Rules.ScalarFloatResults :=
  ⟨rowSS_of (fun _ _ => rfl) fun _ _ => rfl, rowSS_of (fun _ _ => rfl) fun _ _ => rfl, rowSS_of (fun _ _ => rfl) fun _ _ => rfl,
    rowSS_of (fun _ _ => rfl) fun _ _ => rfl, rowSS_of (fun _ _ => rfl) fun _ _ => rfl,
    fun _ _ _ => exec_of_issues (eff := effFfma) fun _ _ => rfl⟩

/-- Settles O10: the FP32 rows round the exact result once; the order of the codes is the order of the numbers, with −0 below +0. -/
theorem scalarFloatResults : Obligations.ScalarFloatResults := ⟨scalarFloatResults_hold, minimumMaximum_holds⟩

/-! ### Address and control registers (O11) -/

theorem addressRegisterResults_hold : Rules.AddressRegisterResults := fun _ _ _ =>
  ⟨exec_of_issues (eff := effAaddi) fun _ _ => rfl, exec_of_issues (eff := effAtos) fun _ _ => rfl, exec_of_issues (eff := effStoa) fun _ _ => rfl⟩

section
variable {s : State} {p : Pos} {x : Ctx} {cc : Nat}

/-- A service context counts every cycle since the gate tick (Table 5.3). -/
theorem crCycle_of_service (h : x = .hand ∨ x = .tow) : s.crCycle p x cc = min (cc - (s.ut p).tick) (2 ^ 32 - 1) := by
  rcases h with rfl | rfl <;> rfl
/-- MAIN's count leaves out the cycles of past halts. -/
theorem crCycle_of_main (hx : x = .main) (h : (s.core p).ctl.main ≠ .halted) :
    s.crCycle p x cc = min (cc - (s.ut p).tick - (s.core p).ctl.haltLost) (2 ^ 32 - 1) := by
  subst hx
  simp [State.crCycle, regCtx, h]
/-- Debug code reads MAIN's count, which a halt has stopped. -/
theorem crCycle_of_debug (hx : x = .dbg) (h : (s.core p).ctl.main = .halted) : s.crCycle p x cc =
    min (cc - (s.ut p).tick - ((s.core p).ctl.haltLost + (cc - max (s.core p).ctl.haltAt (s.ut p).tick))) (2 ^ 32 - 1) := by
  subst hx
  simp [State.crCycle, regCtx, h]

end

theorem controlRegisters_hold : Rules.ControlRegisters := by
  intro i s t w n v c rd
  refine ⟨fun h => ?_, fun h => ?_⟩
  · -- CRR reads control register n as `crRead` gives it.
    have hr {x : Nat} (hx : crRead t i.pos i.ctx i.cc n = x) : rd x := by
      subst hx
      exact exec_of_issues (eff := effCrr) (fun _ _ => rfl) h
    refine ⟨fun hn => hr ?_, fun hn => hr ?_, fun hn hx => hr ?_, fun hn hx hm => hr ?_, fun hn hx hm => hr ?_, fun hn => hr ?_, fun hn => hr ?_,
      fun hn => hr ?_, fun hn => hr ?_, fun hn => hr ?_, fun hn => hr ?_, fun hn => hr ?_, fun hn => hr ?_, fun hn hx => hr ?_, fun hn hx => hr ?_,
      fun hn => hr ?_⟩ <;> rw [hn]
    case refine_3 => exact crCycle_of_service hx
    case refine_4 => exact crCycle_of_main hx hm
    case refine_5 => exact crCycle_of_debug hx hm
    case refine_14 => exact if_pos hx
    case refine_15 => rcases hx with hx | hx <;> rw [hx] <;> rfl
    all_goals rfl
  · have hw : exec (.crw i) s = .next (effCrw i t) := exec_of_issues (fun _ _ => rfl) h
    refine ⟨fun (hn : (imm32 (cw i)).toNat = 6) => ?_, fun (hn : (imm32 (cw i)).toNat = 4) => ?_⟩
    · rw [hw, effCrw, if_pos hn]
      rfl
    · rw [hw, effCrw, if_neg (by omega), if_pos hn]
      rfl

/-- Settles O11: AADDI, ATOS, STOA, and what CRR and CRW find at each index. -/
theorem addressAndControlRegisters : Obligations.AddressAndControlRegisters := ⟨addressRegisterResults_hold, controlRegisters_hold⟩

/-! ### Loops and branches (O13) -/

section
variable {idx : BitVec 14} {l : Vector LoopEnt 4} {e : Fin 4}

/-- The entry that `loopBack` looks at with n + 1 entries left. -/
theorem loopBack_succ {n : Nat} (he : e.val + n = 3) : loopBack idx (n + 1) l =
    if l[e].active = true ∧ l[e].last = idx then
      if l[e].left.toNat > 1 then (l.set e { l[e] with left := l[e].left - 1 }, some l[e].start) else loopBack idx n (l.set e {})
    else loopBack idx n l := by
  obtain rfl : e = Fin.ofNat 4 (3 - n) := Fin.ext (by simp; omega)
  simp only [loopBack, Bool.and_eq_true, beq_iff_eq]

/-- Entries that do not end here are passed. -/
theorem loopBack_from (h : ∀ f : Fin 4, f < e → l[f].active = false ∨ l[f].last ≠ idx) {j : Nat} (hj : j ≤ e.val) :
    loopBack idx 4 l = loopBack idx (4 - j) l := by
  induction j with
  | zero => rfl
  | succ j ih =>
    have hf : ¬(l[(⟨j, by omega⟩ : Fin 4)].active = true ∧ l[(⟨j, by omega⟩ : Fin 4)].last = idx) := by
      rcases h ⟨j, by omega⟩ (Fin.lt_def.mpr (by simp; omega)) with ha | hl
      · exact fun hx => Bool.false_ne_true (ha.symm.trans hx.1)
      · exact fun hx => hl hx.2
    rw [ih (by omega), show 4 - j = (3 - j) + 1 by omega, loopBack_succ (e := ⟨j, by omega⟩) (by simp; omega), if_neg hf]
    congr 1
    omega

variable (ha : l[e].active = true) (hl : l[e].last = idx) (h : ∀ f : Fin 4, f < e → l[f].active = false ∨ l[f].last ≠ idx)
include ha hl h

/-- The lowest entry that ends here counts down and leads back to its start. -/
theorem loopBack_of_more (hn : l[e].left.toNat > 1) : loopBack idx 4 l = (l.set e { l[e] with left := l[e].left - 1 }, some l[e].start) := by
  rw [loopBack_from h le_rfl, show 4 - e.val = (3 - e.val) + 1 by omega, loopBack_succ (e := e) (by omega), if_pos ⟨ha, hl⟩, if_pos hn]

/-- In its last pass it is cleared, and the sequence goes on where no higher entry ends here. -/
theorem loopBack_of_last (hn : l[e].left.toNat ≤ 1) (hh : ∀ f : Fin 4, e < f → l[f].active = false ∨ l[f].last ≠ idx) :
    loopBack idx 4 l = (l.set e {}, none) := by
  rw [loopBack_from h le_rfl, show 4 - e.val = (3 - e.val) + 1 by omega, loopBack_succ (e := e) (by omega), if_pos ⟨ha, hl⟩, if_neg (by omega)]
  refine loopBack_of_no_end (fun f => ?_) _
  rcases lt_trichotomy f e with hf | rfl | hf
  · simpa [Fin.val_ne_of_ne hf.ne'] using h f hf
  · exact .inl (by simp)
  · simpa [Fin.val_ne_of_ne hf.ne] using hh f hf

end

theorem loopBackEdge_holds : Rules.LoopBackEdge := by
  intro q idx cc e ha hl h
  refine ⟨fun hn => ?_, fun hn hh => ?_, rfl⟩
  · simp [CtxState.seq, loopBack_of_more ha hl h hn]
  · simp [CtxState.seq, loopBack_of_last ha hl h hn hh]

theorem State.modCore_modCore (s : State) (p : Pos) (f g : Core → Core) : (s.modCore p f).modCore p g = s.modCore p fun c => g (f c) := by
  simp [State.modCore, State.modTile, vmod]
/-- Two changes of a context are one after the other. -/
theorem State.modCtx_modCtx (s : State) (p : Pos) (x : Ctx) (f g : CtxState → CtxState) :
    (s.modCore p fun c => c.modCtx x f).modCore p (fun c => c.modCtx x g) = s.modCore p fun c => c.modCtx x fun q => g (f q) := by
  rw [State.modCore_modCore]
  congr 1
  cases x <;> rfl

theorem loopEntry_holds : Rules.LoopEntry := by
  intro i s t h w n start last k
  rw [exec_of_issues (eff := effLoop) (fun _ _ => rfl) h]
  exact congrArg Host.Outcome.next (State.modCtx_modCtx ..)

theorem branchesTakeThreeCycles_hold : Rules.BranchesTakeThreeCycles := fun _ _ _ =>
  ⟨exec_of_issues (eff := effBr) fun _ _ => rfl, exec_of_issues (eff := effBri) fun _ _ => rfl, exec_of_issues (eff := effCall) fun _ _ => rfl⟩

/-- Settles O13: the entry that ends a bundle's loop, LOOP, and the three branches. -/
theorem loopsAndBranches : Obligations.LoopsAndBranches := ⟨loopBackEdge_holds, loopEntry_holds, branchesTakeThreeCycles_hold⟩

end Sys2Proof.Machine
end

section
/-! PROOFS. Accesses of the scratchpad by instructions (O12, O17): what an access leaves for the read behind it, a clean read and one that meets an
uncorrectable word, and the rows that load and store. -/

namespace Sys2Proof.Machine

open Sys2Proof

/-! ### The scratchpad at a cycle (R165) -/

/-- A write in flight over the scratchpad, if it lands by a cycle. -/
def Scratch.landedBy (cc : Nat) (d : Scratch) (w : PendW) : Scratch :=
  if w.due ≤ cc then (match w.dst with
    | .mem a bs => d.write a bs
    | .ring _ a bs => d.write a bs
    | _ => d) else d
theorem spdAt_eq (c : Core) (cc : Nat) : c.spdAt cc = c.pend.foldl (Scratch.landedBy cc) c.spd := rfl

/-- The core with its ports taken until other cycles. -/
def Core.portsTaken (c : Core) (f : Vector Nat 8) : Core := { c with spd := { c.spd with free := f } }

section
variable (c : Core) (f : Vector Nat 8)

theorem spdAt_portsTaken (cc : Nat) : (c.portsTaken f).spdAt cc = { c.spdAt cc with free := f } := by
  have hw (d : Scratch) (w : PendW) : Scratch.landedBy cc { d with free := f } w = { Scratch.landedBy cc d w with free := f } := by
    unfold Scratch.landedBy
    split
    · split <;> rfl
    · rfl
  rw [spdAt_eq, spdAt_eq]
  exact List.foldl_hom (fun d : Scratch => { d with free := f }) (g₁ := Scratch.landedBy cc) hw
theorem portRead_portsTaken (t a n : Nat) : (c.portsTaken f).portRead t a n = c.portRead t a n := by
  simp only [Core.portRead, spdAt_portsTaken]
theorem portReads_portsTaken (t : Nat) (runs : List (Nat × Nat)) : (c.portsTaken f).portReads t runs = c.portReads t runs := by
  induction runs generalizing t with
  | nil => rfl
  | cons r rs ih => simp only [Core.portReads, portRead_portsTaken, ih]
theorem badIn_portsTaken (t a n : Nat) : ((c.portsTaken f).spdAt t).badIn a n = (c.spdAt t).badIn a n := by rw [spdAt_portsTaken]; rfl

end

/-! ### Reads of an instruction (R146, R179) -/

theorem access_core (s : State) (p : Pos) (port t : Nat) (runs : List (Nat × Nat)) :
    ∃ f, (s.access p port t runs).1.core p = (s.core p).portsTaken f := ⟨_, State.core_modSpd s p _⟩

/-- A context stopped by an uncorrectable word that slot k of its bundle met, on a core whose results in flight and matrix unit stay. -/
structure EccStopped (i : Issue) (k : SlotK) (c : Core) (v : State) : Prop where
  code : (v.core i.pos).ctl.fault.code = 0x10
  slots : (v.core i.pos).ctl.fault.slots = BitVec.ofNat 4 (2 ^ slotNum k)
  index : (v.core i.pos).ctl.fault.index = i.idx
  stopped : vat (v.core i.pos).ctl.stopped (ctxNum i.ctx) = true
  pend : (v.core i.pos).pend = c.pend
  mat : (v.core i.pos).mat = c.mat

section
variable {i : Issue} {k : SlotK} {u : State} {c : Core} {f : Vector Nat 8} {port t a n : Nat} {runs : List (Nat × Nat)}
  (hu : u.core i.pos = c.portsTaken f)
include hu

theorem readRuns_of_clean (h : ∀ r ∈ runs, (c.spdAt t).badIn r.1 r.2 = []) :
    u.readRuns i k port t runs = (u.modSpd i.pos fun d => d.meetRuns port runs, some (c.portReads t runs)) := by
  have hb : (runs.flatMap fun r => ((u.core i.pos).spdAt t).badIn r.1 r.2).isEmpty = true := by
    rw [List.isEmpty_iff, List.flatMap_eq_nil_iff]
    intro r hr
    rw [hu, badIn_portsTaken, h r hr]
  rw [State.readRuns, if_pos hb, hu, portReads_portsTaken]

theorem readRuns_of_bad {r : Nat × Nat} (hr : r ∈ runs) (h : (c.spdAt t).badIn r.1 r.2 ≠ []) :
    ∃ v, u.readRuns i k port t runs = (v, none) ∧ EccStopped i k c v := by
  have hb : ¬(runs.flatMap fun r => ((u.core i.pos).spdAt t).badIn r.1 r.2).isEmpty = true := by
    rw [List.isEmpty_iff, List.flatMap_eq_nil_iff]
    intro hx
    rw [← badIn_portsTaken c f, ← hu] at h
    exact h (hx r hr)
  refine ⟨_, if_neg hb, ?_⟩
  constructor <;> rw [core_fault, State.core_modSpd, hu]
  case stopped => exact vat_set_same _ _ _
  all_goals rfl

theorem readSpd_of_clean (h : (c.spdAt t).badIn a n = []) :
    u.readSpd i k port t a n = (u.modSpd i.pos fun d => d.meet port a n, some (c.portRead t a n)) := by
  rw [State.readSpd, readRuns_of_clean hu (by simpa using h)]
  rfl
theorem readSpd_of_bad (h : (c.spdAt t).badIn a n ≠ []) : ∃ v, u.readSpd i k port t a n = (v, none) ∧ EccStopped i k c v := by
  obtain ⟨v, hv, he⟩ := readRuns_of_bad (k := k) (port := port) hu (List.mem_singleton.mpr rfl : (a, n) ∈ [(a, n)]) h
  exact ⟨v, by rw [State.readSpd, hv]; rfl, he⟩

end

/-! ### Scalar loads and stores (O12) -/

/-- A run within one chunk moves in one cycle. -/
theorem portRead_of_oneChunk (c : Core) (t : Nat) {a n : Nat} (hn : 0 < n) (h : (a + n - 1) / 1024 = a / 1024) :
    c.portRead t a n = memRead (c.spdAt t).mem a n := by
  have hk : chunksOf a n = 1 := by rw [chunksOf, if_neg (by omega), h]; omega
  have hlo : max a (1024 * (a / 1024)) = a := by omega
  have hhi : min (a + n) (1024 * (a / 1024 + 1)) - a = n := by omega
  simp only [Core.portRead, hk, List.range_one, List.flatMap_cons, List.flatMap_nil, List.append_nil, add_zero, hlo, hhi]

/-- An aligned run of a length that divides the chunk lies within one chunk. -/
theorem sameChunk_of_aligned {a n : Nat} (hp : 0 < n) (hn : n ∣ 1024) (ha : n ∣ a) : (a + n - 1) / 1024 = a / 1024 := by
  obtain ⟨q, rfl⟩ := ha
  obtain ⟨m, hm⟩ := hn
  rw [hm, ← Nat.div_div_eq_div_mul, ← Nat.div_div_eq_div_mul, Nat.mul_div_cancel_left _ hp, Nat.add_sub_assoc hp, Nat.mul_add_div hp,
    Nat.div_eq_of_lt (Nat.sub_lt hp Nat.one_pos), add_zero]

theorem effAddr_aligned {x : BitVec 48} {d : Int} {n al a : Nat} (h : effAddr x d n al = some a) : a % al = 0 := by
  unfold effAddr at h
  dsimp only at h
  split at h
  · next hc => cases h; exact hc.2.2.2
  · cases h

section
variable {i : Issue} {t : State} {a n : Nat} (ha : effAddr ((t.core i.pos).readA i.ctx (fA (cw i))) (imm32 (cw i)).toInt n n = some a)
include ha

theorem effLoad_of_clean (hn : n ∣ 1024) (h : ((t.core i.pos).spdAt (i.cc + (t.access i.pos 3 i.cc [(a, n)]).2.1)).badIn a n = []) :
    let x := t.access i.pos 3 i.cc [(a, n)]
    effLoad n i t = (x.1.modSpd i.pos fun d => d.meet 3 a n).laterS i (accLat 3 x.2.1 x.2.2) (fD (cw i))
      (BitVec.ofNat 64 (memNat ((t.core i.pos).spdAt (i.cc + x.2.1)).mem a n)) := by
  intro x
  obtain ⟨f, hf⟩ := access_core t i.pos 3 i.cc [(a, n)]
  have hp : 0 < n := Nat.pos_of_dvd_of_pos hn (by decide)
  have hk := sameChunk_of_aligned hp hn (Nat.dvd_of_mod_eq_zero (effAddr_aligned ha))
  simp only [effLoad, State.rA, ha]
  rw [readSpd_of_clean hf h, portRead_of_oneChunk _ _ hp hk]
  rfl

theorem effLoad_of_bad (h : ((t.core i.pos).spdAt (i.cc + (t.access i.pos 3 i.cc [(a, n)]).2.1)).badIn a n ≠ []) :
    EccStopped i .c (t.core i.pos) (effLoad n i t) := by
  obtain ⟨f, hf⟩ := access_core t i.pos 3 i.cc [(a, n)]
  obtain ⟨v, hv, he⟩ := readSpd_of_bad (k := .c) (port := 3) hf h
  simp only [effLoad, State.rA, ha]
  rw [hv]
  exact he

theorem effStore_eq : let x := t.access i.pos 4 i.cc [(a, n)]
    effStore n i t = x.1.later i (accLat 2 x.2.1 x.2.2) (.mem a (natBytes (t.rS i (fD (cw i))).toNat n)) := by
  simp only [effStore, State.rA, ha]

end

theorem scalarLoadsAndStores_hold : Rules.ScalarLoadsAndStores := by
  intro i s t a n op w ha h ld st r d ldTo stTo
  refine ⟨fun hb => ⟨fun ho hn => ?_, fun ho hn => ?_⟩, fun ho hn => ?_, fun ho hn => ?_⟩ <;> subst ho hn
  · exact (exec_of_issues (eff := effLd32) (fun _ _ => rfl) h).trans (congrArg _ (effLoad_of_clean ha (by decide) hb))
  · exact (exec_of_issues (eff := effLd64) (fun _ _ => rfl) h).trans (congrArg _ (effLoad_of_clean ha (by decide) hb))
  · exact (exec_of_issues (eff := effSt32) (fun _ _ => rfl) h).trans (congrArg _ (effStore_eq ha))
  · exact (exec_of_issues (eff := effSt64) (fun _ _ => rfl) h).trans (congrArg _ (effStore_eq ha))

theorem loadOfBadWordFaults_holds : Rules.LoadOfBadWordFaults := by
  intro i s t op n a c w hc ha h hb
  have he : EccStopped i .c (t.core i.pos) (effLoad n i t) := effLoad_of_bad ha hb
  suffices hx : exec (c i) s = .next (effLoad n i t) from ⟨_, hx, he.code, he.slots, he.index, he.stopped, he.pend⟩
  simp only [List.mem_cons, Prod.mk.injEq, List.not_mem_nil, or_false] at hc
  rcases hc with ⟨rfl, rfl, rfl⟩ | ⟨rfl, rfl, rfl⟩
  · exact exec_of_issues (eff := effLd32) (fun _ _ => rfl) h
  · exact exec_of_issues (eff := effLd64) (fun _ _ => rfl) h

/-- Settles O12: the four rows of clean words, and the fault of a load. -/
theorem scalarLoadsAndStores : Obligations.ScalarLoadsAndStores := ⟨scalarLoadsAndStores_hold, loadOfBadWordFaults_holds⟩

end Sys2Proof.Machine
end

section
/-! PROOFS. The V slot (O15 to O17): rows that write lanes and rows that write a register, the special values of the transcendental rows and of
block conversion, and the rows that load and store. -/

namespace Sys2Proof.Machine

open Sys2Proof

/-! ### Lane-wise rows (O15) -/

section
variable {op : Nat} {al : Bool} {c : Issue → Instr} {lat : Nat} {eff : Issue → State → State}
  (hc : ∀ i s, exec (c i) s = .next (slotCmd .v op al eff i s))
include hc

/-- A row whose effect writes lanes 0 to CR_VL − 1. -/
theorem lanesResult_of {l : BitVec 64 → State → Issue → List F32} (he : ∀ i t, eff i t = t.putLanes i lat (l (vw i) t i)) :
    LanesResult op c lat l := by
  intro i s t h w
  rw [exec_of_issues hc h, he]
  exact ⟨fun h0 => congrArg _ (if_pos h0), fun h0 => congrArg _ (if_neg h0)⟩
/-- A row whose effect writes every lane. -/
theorem regResult_of {v : BitVec 64 → State → Issue → VReg} (he : ∀ i t, eff i t = t.putAll i lat (v (vw i) t i)) :
    RegResult op c lat v := by
  intro i s t h w
  rw [exec_of_issues hc h, he]
  exact ⟨fun h0 => congrArg _ (if_pos h0), fun h0 => congrArg _ (if_neg h0)⟩

end

/-- VSEL selects by a lane that is a zero of either sign. -/
theorem vsel_eq (x y z : F32) : (if f32Zero z then y else x) = if z.toNat % 2 ^ 31 = 0 then y else x := by
  simp only [f32Zero, decide_eq_true_eq]

/-- Settles O15: each row's effect writes its function of the operands' lanes. -/
theorem vectorLaneResults : Obligations.VectorLaneResults :=
  ⟨lanesResult_of (fun _ _ => rfl) fun _ _ => rfl, lanesResult_of (fun _ _ => rfl) fun _ _ => rfl, lanesResult_of (fun _ _ => rfl) fun _ _ => rfl,
    lanesResult_of (fun _ _ => rfl) fun _ _ => rfl, lanesResult_of (fun _ _ => rfl) fun _ _ => rfl, lanesResult_of (fun _ _ => rfl) fun _ _ => rfl,
    lanesResult_of (fun _ _ => rfl) fun _ _ => rfl, lanesResult_of (fun _ _ => rfl) fun _ _ => rfl, lanesResult_of (fun _ _ => rfl) fun _ _ => rfl,
    lanesResult_of (fun _ _ => rfl) fun _ _ => rfl, lanesResult_of (fun _ _ => rfl) fun _ _ => rfl, lanesResult_of (fun _ _ => rfl) fun _ _ => rfl,
    lanesResult_of (fun _ _ => rfl) fun _ _ => rfl, lanesResult_of (fun _ _ => rfl) fun _ _ => rfl, lanesResult_of (fun _ _ => rfl) fun _ _ => rfl,
    lanesResult_of (fun _ _ => rfl) fun _ _ => rfl, lanesResult_of (fun _ _ => rfl) fun _ _ => rfl,
    lanesResult_of (fun _ _ => rfl) fun i t => by simp only [← vsel_eq]; rfl⟩

/-! ### Reductions, conversions and special values (O16) -/

theorem transcendental_nan {x : F32} (h : f32Nan x = true) : f32Exp2 x = 0x7FC00000 ∧ f32Log2 x = 0x7FC00000 ∧ f32Rcp x = 0x7FC00000 ∧
    f32Rsqrt x = 0x7FC00000 ∧ f32Tanh x = 0x7FC00000 := by
  have hx : dec32 x = .nan := by
    unfold f32Nan FV.isNan at h
    split at h
    · assumption
    · cases h
  simp only [f32Exp2, f32Log2, f32Rcp, f32Rsqrt, f32Tanh, hx]
  decide

theorem transcendentalSpecialValues_hold : Rules.TranscendentalSpecialValues := by
  refine ⟨fun x => transcendental_nan, ?_⟩
  decide

/-- The levels of the tree of R151. -/
theorem treeReduce_nine (op : F32 → F32 → F32) (l : List F32) : treeReduce op 9 l =
    [256, 128, 64, 32, 16, 8, 4, 2, 1].foldl (fun l h => List.zipWith op (l.take h) (l.drop h)) l := by
  simp only [treeReduce, List.foldl_cons, List.foldl_nil, Nat.reducePow]

theorem vectorReductionsAndConversions_hold : Rules.VectorReductionsAndConversions := by
  unfold Rules.VectorReductionsAndConversions
  intro pad half tree every
  have hr (op : F32 → F32 → F32) (fill : F32) (lat : Nat) (i : Issue) (t : State) :
      effReduce lat op fill i t = t.putAll i lat (every (tree op (pad fill (vw i) t i)) fill) := by
    rw [effReduce, treeReduce_nine]
    rfl
  exact ⟨regResult_of (eff := effVrsum) (fun _ _ => rfl) (hr _ _ _), regResult_of (eff := effVrmax) (fun _ _ => rfl) (hr _ _ _),
    regResult_of (eff := effVcvti) (fun _ _ => rfl) fun _ _ => rfl, regResult_of (eff := effVcvto) (fun _ _ => rfl) fun _ _ => rfl⟩

theorem blockConversion_holds : Rules.BlockConversion := by
  intro f vs h5 h10 hs
  rw [blockEncode, if_pos ⟨by omega, by omega, hs⟩]
  exact ⟨rfl, rfl⟩

/-- Settles O16: the special values, the tree and the conversions, and blocks with a special value. -/
theorem vectorSpecials : Obligations.VectorSpecials :=
  ⟨transcendentalSpecialValues_hold, vectorReductionsAndConversions_hold, blockConversion_holds⟩

/-! ### Vector loads and stores (O17) -/

section
variable {i : Issue} {t : State}

/-- With CR_VL 0 a load or store changes nothing (Table 5.14). -/
theorem vectorAccess_of_empty (h0 : t.vl i.pos i.ctx = 0) : effVld i t = t ∧ effVst i t = t ∧ effVldb i t = t ∧ effVstb i t = t := by
  refine ⟨?_, ?_, ?_, ?_⟩
  · unfold effVld
    dsimp only
    split
    · rfl
    · exact if_pos h0
  · unfold effVst
    dsimp only
    split
    · rfl
    · exact if_pos h0
  · unfold effVldb
    split
    · rfl
    · exact if_pos h0
  · unfold effVstb
    split
    · rfl
    · exact if_pos h0

section
variable {a : Nat} (hn : t.vl i.pos i.ctx ≠ 0) (ha : vmAddr i t (4 * t.vl i.pos i.ctx) = some a)
include hn ha

theorem effVld_of_clean (h : ((t.core i.pos).spdAt (i.cc + (t.access i.pos 3 i.cc [(a, 4 * t.vl i.pos i.ctx)]).2.1)).badIn a (4 * t.vl i.pos i.ctx) = []) :
    let n := t.vl i.pos i.ctx
    let x := t.access i.pos 3 i.cc [(a, 4 * n)]
    effVld i t = (x.1.modSpd i.pos fun m => m.meet 3 a (4 * n)).laterV i (accLat 3 x.2.1 x.2.2) (fD (vw i)) (laneMask n)
      (BitVec.ofNat 16384 (bytesNat ((t.core i.pos).portRead (i.cc + x.2.1) a (4 * n)))) := by
  obtain ⟨f, hf⟩ := access_core t i.pos 3 i.cc [(a, 4 * t.vl i.pos i.ctx)]
  simp only [effVld, ha, if_neg hn]
  rw [readSpd_of_clean hf h]

theorem effVld_of_bad (h : ((t.core i.pos).spdAt (i.cc + (t.access i.pos 3 i.cc [(a, 4 * t.vl i.pos i.ctx)]).2.1)).badIn a (4 * t.vl i.pos i.ctx) ≠ []) :
    EccStopped i .v (t.core i.pos) (effVld i t) := by
  obtain ⟨f, hf⟩ := access_core t i.pos 3 i.cc [(a, 4 * t.vl i.pos i.ctx)]
  obtain ⟨v, hv, he⟩ := readSpd_of_bad (k := .v) (port := 3) hf h
  simp only [effVld, ha, if_neg hn]
  rw [hv]
  exact he

theorem effVst_eq : let n := t.vl i.pos i.ctx
    let x := t.access i.pos 4 i.cc [(a, 4 * n)]
    effVst i t = x.1.later i (accLat 2 x.2.1 x.2.2) (.mem a (natBytes (t.rV i (fD (vw i))).toNat (4 * n))) := by
  simp only [effVst, ha, if_neg hn]

end

section
variable {e k : Nat × Nat} (hn : t.vl i.pos i.ctx ≠ 0) (hr : vbRuns i t = some (e, k))
include hn hr

theorem effVldb_of_clean (he : ((t.core i.pos).spdAt (i.cc + (t.access i.pos 3 i.cc [e, k]).2.1)).badIn e.1 e.2 = [])
    (hk : ((t.core i.pos).spdAt (i.cc + (t.access i.pos 3 i.cc [e, k]).2.1)).badIn k.1 k.2 = []) :
    let x := t.access i.pos 3 i.cc [e, k]
    let at_ := i.cc + x.2.1
    let c := t.core i.pos
    effVldb i t = (x.1.modSpd i.pos fun m => m.meetRuns 3 [e, k]).laterV i (accLat 3 x.2.1 x.2.2) (fD (vw i)) fullMask
      (BitVec.ofNat 16384 (bytesNat (c.portRead at_ e.1 e.2) + 2 ^ (8 * 1536) * bytesNat (c.portRead (at_ + chunksOf e.1 e.2) k.1 k.2))) := by
  obtain ⟨f, hf⟩ := access_core t i.pos 3 i.cc [e, k]
  simp only [effVldb, hr, if_neg hn]
  rw [readRuns_of_clean hf (by simp [he, hk])]
  rfl

theorem effVldb_of_bad (h : ((t.core i.pos).spdAt (i.cc + (t.access i.pos 3 i.cc [e, k]).2.1)).badIn e.1 e.2 ≠ [] ∨
    ((t.core i.pos).spdAt (i.cc + (t.access i.pos 3 i.cc [e, k]).2.1)).badIn k.1 k.2 ≠ []) :
    EccStopped i .v (t.core i.pos) (effVldb i t) := by
  obtain ⟨f, hf⟩ := access_core t i.pos 3 i.cc [e, k]
  obtain ⟨r, hm, hb⟩ : ∃ r ∈ [e, k], ((t.core i.pos).spdAt (i.cc + (t.access i.pos 3 i.cc [e, k]).2.1)).badIn r.1 r.2 ≠ [] := by
    simpa using h
  obtain ⟨v, hv, hs⟩ := readRuns_of_bad (k := .v) (port := 3) hf hm hb
  simp only [effVldb, hr, if_neg hn]
  rw [hv]
  exact hs

theorem effVstb_eq : let x := t.access i.pos 4 i.cc [e, k]
    let l := accLat 2 x.2.1 x.2.2
    let v := (t.rV i (fD (vw i))).toNat
    effVstb i t = (x.1.later i l (.mem e.1 (natBytes v e.2))).later i l (.mem k.1 (natBytes (v >>> (8 * 1536)) k.2)) := by
  simp only [effVstb, hr, if_neg hn]

end

end

/-- Settles O17: nothing with CR_VL 0; else one access of the port, and for a load its words clean or not. -/
theorem vectorLoadsAndStores : Obligations.VectorLoadsAndStores := by
  intro i s t w n d c
  refine ⟨fun op x hx h h0 => ?_, fun a hn ha => ⟨fun h => ⟨fun hb => ?_, fun hb => ?_⟩, fun h => ?_⟩,
    fun e k hn hr => ⟨fun h => ⟨fun he hk => ?_, fun hb => ?_⟩, fun h => ?_⟩⟩
  · obtain ⟨hld, hst, hldb, hstb⟩ := vectorAccess_of_empty h0
    simp only [List.mem_cons, Prod.mk.injEq, List.not_mem_nil, or_false] at hx
    rcases hx with ⟨rfl, rfl⟩ | ⟨rfl, rfl⟩ | ⟨rfl, rfl⟩ | ⟨rfl, rfl⟩
    · exact (exec_of_issues (eff := effVld) (fun _ _ => rfl) h).trans (congrArg _ hld)
    · exact (exec_of_issues (eff := effVst) (fun _ _ => rfl) h).trans (congrArg _ hst)
    · exact (exec_of_issues (eff := effVldb) (fun _ _ => rfl) h).trans (congrArg _ hldb)
    · exact (exec_of_issues (eff := effVstb) (fun _ _ => rfl) h).trans (congrArg _ hstb)
  · exact (exec_of_issues (eff := effVld) (fun _ _ => rfl) h).trans (congrArg _ (effVld_of_clean hn ha hb))
  · have hs := effVld_of_bad hn ha hb
    exact ⟨_, exec_of_issues (eff := effVld) (fun _ _ => rfl) h, hs.code, hs.slots, hs.stopped, hs.pend⟩
  · exact (exec_of_issues (eff := effVst) (fun _ _ => rfl) h).trans (congrArg _ (effVst_eq hn ha))
  · exact (exec_of_issues (eff := effVldb) (fun _ _ => rfl) h).trans (congrArg _ (effVldb_of_clean hn hr he hk))
  · have hs := effVldb_of_bad hn hr hb
    exact ⟨_, exec_of_issues (eff := effVldb) (fun _ _ => rfl) h, hs.code, hs.slots, hs.stopped, hs.pend⟩
  · exact (exec_of_issues (eff := effVstb) (fun _ _ => rfl) h).trans (congrArg _ (effVstb_eq hn hr))

end Sys2Proof.Machine
end

section
/-! PROOFS. The M slot (O18): what MCONF, MLOAD, MSTEP, MDRAIN, MCHKV and MFLAGS leave of the matrix unit. -/

namespace Sys2Proof.Machine

open Sys2Proof

/-! ### MCONF, MCHKV, MFLAGS and no-ops (R71, R155, R159) -/

/-- The word of MFLAGS by its fields. -/
theorem rowFlags_eq (x o : Bool) (n : Nat) : rowFlags x o n =
    put64 (if x then 1 else 0) 0 1 ||| put64 (if o then 1 else 0) 1 1 ||| put64 (min n 4095) 2 12 := by
  have hn : min n 4095 < 2 ^ 12 := by omega
  have hlow : ∀ x o : Bool, put64 (if x then 1 else 0) 0 1 ||| put64 (if o then 1 else 0) 1 1 = BitVec.ofNat 64 (b2n x + 2 * b2n o) := by decide
  have hb (x : Bool) : b2n x < 2 := by cases x <;> decide
  have hx := hb x
  have ho := hb o
  rw [hlow, rowFlags]
  generalize min n 4095 = m at hn
  apply BitVec.eq_of_toNat_eq
  have hor := Nat.two_pow_add_eq_or_of_lt (show b2n x + 2 * b2n o < 2 ^ 2 by omega) m
  simp only [put64, BitVec.toNat_or, BitVec.toNat_ofNat, Nat.mod_eq_of_lt hn, Nat.shiftLeft_eq]
  rw [Nat.mod_eq_of_lt (by omega), Nat.mod_eq_of_lt (by omega), Nat.mod_eq_of_lt (by omega), Nat.or_comm, Nat.mul_comm m, ← hor]
  omega

theorem matrixSmallOperations_hold : Rules.MatrixSmallOperations := by
  intro i s t w sw m cf signal
  have hzero {op : Nat} (hz : mZero op sw = true) : mZero op (mWord i t) = true := hz
  refine ⟨fun c h hc => ?_, exec_of_issues (eff := effMchkv) fun _ _ => rfl, fun h => ?_, fun h hz => ?_, fun h hz => ?_, fun h hz => ?_⟩
  · have hw : mconfOf (mWord i t) = some c := hc
    rw [exec_of_issues (eff := effMconf) (fun _ _ => rfl) h, effMconf, hw]
    rfl
  · rw [exec_of_issues (eff := effMflags) (fun _ _ => rfl) h]
    simp only [effMflags, rowFlags_eq]
    rfl
  · exact (exec_of_issues (eff := effMload) (fun _ _ => rfl) h).trans (congrArg _ (if_pos (hzero hz)))
  · exact (exec_of_issues (eff := effMstep) (fun _ _ => rfl) h).trans (congrArg _ (if_pos (hzero hz)))
  · exact (exec_of_issues (eff := effMdrain) (fun _ _ => rfl) h).trans (congrArg _ (if_pos (hzero hz)))

/-! ### The reads of MLOAD and MSTEP -/

theorem access_mat (s : State) (p : Pos) (port t : Nat) (runs : List (Nat × Nat)) : ((s.access p port t runs).1.core p).mat = (s.core p).mat := by
  obtain ⟨f, hf⟩ := access_core s p port t runs
  rw [hf]
  rfl
/-- A read of the M slot leaves the matrix unit, clean or not. -/
theorem readTwo_mat (i : Issue) (port t : Nat) (e c : Nat × Nat) (s : State) : ((readTwo i port t e c s).1.core i.pos).mat = (s.core i.pos).mat := by
  simp only [readTwo, State.readRuns]
  split
  · rw [State.core_modSpd]
  · rw [core_fault, State.core_modSpd]

/-! ### MLOAD (R72, R157) -/

section
variable {i : Issue} {t u : State} {es cs : List Byte}

/-- The run of elements of an MLOAD and its run of scales. -/
def mloadRuns (i : Issue) (t : State) : (Nat × Nat) × (Nat × Nat) :=
  let sw := mWord i t
  let f := (t.mconf i).wf.toNat
  (((t.rA i (mA (mw i))).toNat, cdiv (mlNq sw * mlN sw * mlK sw * fmtBits f) 8), ((t.rA i (mB (mw i))).toNat, mlNq sw * mlN sw * blocksOf f (mlK sw)))
/-- The access that moves them. -/
def mloadAccess (i : Issue) (t : State) : State × Nat × Nat :=
  t.access i.pos 1 i.cc (if fmtBlock (t.mconf i).wf.toNat then [(mloadRuns i t).1, (mloadRuns i t).2] else [(mloadRuns i t).1])
/-- What an MLOAD reads. -/
def mloadRead (i : Issue) (t : State) : State × Option (List Byte × List Byte) :=
  readTwo i 1 (i.cc + (mloadAccess i t).2.1) (mloadRuns i t).1 (mloadRuns i t).2 (mloadAccess i t).1

theorem mloadRead_mat : ((mloadRead i t).1.core i.pos).mat = (t.core i.pos).mat := by rw [mloadRead, readTwo_mat, mloadAccess, access_mat]

/-- The matrix unit with what an MLOAD that moves its last chunk before cycle fin − 8 has read. -/
def Matrix.loaded (m : Matrix) (i : Issue) (c : MConf) (sw : Word) (fin : Nat) (es cs : List Byte) : Matrix :=
  let old := if m.shadow.held && m.shadow.fmt == c.wf && m.shadow.mode == c.mode then m.shadow.subs else []
  let busy := m.ops.filter fun o => o.kind == 2 && !o.retired
  { m with
    shadow := { fmt := c.wf, mode := c.mode, held := true, readyAt := some (busy.foldl (fun t o => max t o.finish) fin)
                subs := loadSubs c.wf.toNat (mlK sw) (mlN sw) (mlQ0 sw) (mlNq sw) es cs old }
    ops := m.ops ++ [{ kind := 2, start := i.cc, finish := fin, chamber := mCh (mw i), writes := [], drain := none, retired := false }] }

variable (hz : mZero 2 (mWord i t) = false)
include hz

theorem effMload_eq : effMload i t = match mloadRead i t with
    | (s1, none) => s1
    | (s1, some (es, cs)) =>
      s1.modMat i.pos fun m => m.loaded i (t.mconf i) (mWord i t) (i.cc + (mloadAccess i t).2.1 + (mloadAccess i t).2.2 + 8) es cs := by
  unfold effMload
  dsimp only
  rw [if_neg (by simp [hz])]
  rfl
theorem effMload_of_none (h : mloadRead i t = (u, none)) : effMload i t = u := by rw [effMload_eq hz, h]
theorem effMload_of_some (h : mloadRead i t = (u, some (es, cs))) : effMload i t =
    u.modMat i.pos fun m => m.loaded i (t.mconf i) (mWord i t) (i.cc + (mloadAccess i t).2.1 + (mloadAccess i t).2.2 + 8) es cs := by
  rw [effMload_eq hz, h]

end

theorem le_foldl_max_finish (l : List MOp) (n : Nat) : n ≤ l.foldl (fun t o => max t o.finish) n := by
  induction l generalizing n with
  | nil => exact le_rfl
  | cons o r ih => exact (le_max_left n o.finish).trans (ih _)

theorem mloadFillsShadow_holds : Rules.MloadFillsShadow := by
  intro i s t u h w sw c f e b x sh hz
  have he : exec (.mload i) s = .next (effMload i t) := exec_of_issues (fun _ _ => rfl) h
  have hm : ∀ o, readTwo i 1 (i.cc + x.2.1) e b x.1 = (u, o) → (u.core i.pos).mat = (t.core i.pos).mat := fun o hr =>
    (congrArg (fun y => (y.1.core i.pos).mat) (show (u, o) = mloadRead i t from hr.symm)).trans mloadRead_mat
  refine ⟨fun hr => ⟨he.trans (congrArg _ (effMload_of_none hz hr)), hm _ hr⟩, fun es cs hr => ?_⟩
  refine ⟨_, he.trans (congrArg _ (effMload_of_some hz hr)), ?_⟩
  rw [State.mat_modMat, hm _ hr]
  refine ⟨rfl, rfl, rfl, ?_, ⟨_, rfl, le_foldl_max_finish _ _⟩, fun ho => ?_, rfl, rfl⟩
  · simp only [Matrix.loaded, Bool.and_eq_true, beq_iff_eq, and_assoc]
    rfl
  · simp only [Matrix.loaded, ho]
    rfl

/-! ### MSTEP (R73 to R75, R156, R158) -/

section
variable (i : Issue) (t : State)

/-- The bits of the activations that one step takes. -/
def mstepBits : Nat := (t.mconf i).vecs * msK (mWord i t) * fmtBits (t.mconf i).af.toNat
/-- The run of activations of an MSTEP and its run of scales. -/
def mstepRuns : (Nat × Nat) × (Nat × Nat) :=
  (((t.rA i (mA (mw i))).toNat, cdiv (msC (mWord i t) * mstepBits i t) 8),
    ((t.rA i (mB (mw i))).toNat, msC (mWord i t) * (t.mconf i).vecs * blocksOf (t.mconf i).af.toNat (msK (mWord i t))))
/-- The access that moves the activations. -/
def mstepAccess : State × Nat × Nat := t.access i.pos 0 i.cc [(mstepRuns i t).1]
/-- What an MSTEP reads. -/
def mstepRead : State × Option (List Byte × List Byte) :=
  readTwo i 0 (i.cc + (mstepAccess i t).2.1) (mstepRuns i t).1 (mstepRuns i t).2 (mstepAccess i t).1
/-- The cycles in which its steps are fed. -/
def mstepFed : List Nat :=
  feedTimes (t.rA i (mA (mw i))).toNat (mstepBits i t) (t.mconf i).step (i.cc + (mstepAccess i t).2.1) (msC (mWord i t)) 0 i.cc
/-- The submatrices that it uses out of a plane's, with free weights where no load has written all of them. -/
def mstepSubs (subs : Tbl (Option SubMat)) : Tbl (Option SubMat) :=
  let c := t.mconf i
  if unfilled c.mode subs then fillSubs t.fresh c.wf.toNat c.mode c.depth (modeCols (t.core i.pos).desc.narrow c.mode) subs else subs
/-- The accumulator writes of its steps. -/
def mstepWrites (es cs : List Byte) (subs : Tbl (Option SubMat)) : List MWrite :=
  let c := t.mconf i
  let k := msK (mWord i t)
  let els := (unpackList (fmtBits c.af.toNat) (msC (mWord i t) * c.vecs * k) (bytesNat es)).map (BitVec.ofNat 32)
  ((mstepFed i t).mapIdx fun j f => (List.range (modeRps c.mode)).map fun ro =>
    { cc := f + c.lstep, row := msBase (mWord i t) + j * modeRps c.mode + ro, add := bit (mw i) 43, conf := c, kEff := k, subs := subs
      acts := stepActs c.vecs k (blocksOf c.af.toNat k) els cs j, rowInStep := ro }).flatten

end

/-- The plane that an MSTEP runs against. -/
def Matrix.planeOf (m : Matrix) (swap : Bool) : Plane := if swap then m.shadow else m.active
/-- The planes at the issue of an MSTEP: with SWAP they change places; the active one holds the submatrices in use. -/
def Matrix.swapped (m : Matrix) (swap : Bool) (cc : Nat) (subs : Tbl (Option SubMat)) : Matrix :=
  if swap then { m with active := { m.shadow with subs := subs }, shadow := { m.active with readyAt := none }, lastSwap := some cc }
  else { m with active := { m.active with subs := subs } }
/-- The rows that a SET writes carry its configuration. -/
def Matrix.rowsTagged (m : Matrix) (c : MConf) (rows : List Nat) : Matrix := rows.foldl (fun m r => m.tagRow c r) m
/-- The operation that an MSTEP enters: it finishes one pipeline length after its last step is fed. -/
def mstepOp (i : Issue) (t : State) (es cs : List Byte) (subs : Tbl (Option SubMat)) : MOp :=
  { kind := 3, start := i.cc, finish := (mstepFed i t).getLastD i.cc + (t.mconf i).lstep, chamber := mCh (mw i), writes := mstepWrites i t es cs subs
    drain := none, retired := false }
/-- The matrix unit with the operation of an MSTEP. -/
def Matrix.stepped (m : Matrix) (i : Issue) (t : State) (es cs : List Byte) (subs : Tbl (Option SubMat)) : Matrix :=
  let c := t.mconf i
  let m1 := m.swapped (bit (mw i) 42) i.cc subs
  let m2 := if bit (mw i) 43 then m1 else m1.rowsTagged c (List.range' (msBase (mWord i t)) (msC (mWord i t) * modeRps c.mode))
  { m2 with
    feedEnd := (mstepFed i t).getLastD i.cc + c.step
    keeper := m2.keeper.yields (m2.stepping i.cc) (t.stepAt i.pos).isSome i.cc
    ops := m2.ops ++ [mstepOp i t es cs subs] }
/-- The free weights that an MSTEP takes are used up. -/
def State.weightsTaken (s : State) (taken : Bool) : State := { s with fresh := if taken then s.fresh + 1 else s.fresh }

section
variable {i : Issue} {t u : State} {es cs : List Byte}

theorem mstepRead_mat : ((mstepRead i t).1.core i.pos).mat = (t.core i.pos).mat := by rw [mstepRead, readTwo_mat, mstepAccess, access_mat]

variable (hz : mZero 3 (mWord i t) = false)
include hz

theorem effMstep_eq : effMstep i t = match mstepRead i t with
    | (s1, none) => s1
    | (s1, some (es, cs)) =>
      let subs := ((s1.core i.pos).mat.planeOf (bit (mw i) 42)).subs
      (s1.weightsTaken (unfilled (t.mconf i).mode subs)).modMat i.pos fun m => m.stepped i t es cs (mstepSubs i t subs) := by
  unfold effMstep
  dsimp only
  rw [if_neg (by simp [hz])]
  have hp (m : Matrix) : (m.planeOf (bit (mw i) 42)).subs = if bit (mw i) 42 then m.shadow.subs else m.active.subs := by
    unfold Matrix.planeOf
    split <;> rfl
  simp only [hp]
  rfl

end

theorem feedTimes_length (aa bits step base n i t : Nat) : (feedTimes aa bits step base n i t).length = n := by
  induction n generalizing i t with
  | zero => rfl
  | succ n ih => simp [feedTimes, ih]

/-- Blocks of m rows, one behind the other, are n × m rows. -/
theorem rowBlocks_eq (base m n : Nat) : (List.range n).flatMap (fun j => (List.range m).map fun r => base + j * m + r) = List.range' base (n * m) := by
  induction n with
  | zero => simp
  | succ n ih =>
    rw [List.range_succ, List.flatMap_append, ih, add_mul, one_mul, ← List.range'_append_1, List.flatMap_singleton]
    exact congrArg _ List.range'_eq_map_range.symm

/-- An MSTEP writes one accumulator row after another from the base row on. -/
theorem mstepWrites_rows (i : Issue) (t : State) (es cs : List Byte) (subs : Tbl (Option SubMat)) :
    (mstepWrites i t es cs subs).map MWrite.row = List.range' (msBase (mWord i t)) (msC (mWord i t) * modeRps (t.mconf i).mode) := by
  have hl : (mstepFed i t).length = msC (mWord i t) := feedTimes_length ..
  rw [← rowBlocks_eq, ← hl, mstepWrites, List.map_flatten, List.flatMap_def]
  congr 1
  apply List.ext_getElem <;> simp

/-- Tagging changes the rows alone. -/
theorem rowsTagged_eq (m : Matrix) (c : MConf) (l : List Nat) : ∃ r, m.rowsTagged c l = { m with rows := r } := by
  have htag (ks : List Nat) (m : Matrix) : ∃ r, ks.foldl (fun (m : Matrix) k =>
      { m with rows := tblPut {} m.rows k { tblGet {} m.rows k with conf := some c } }) m = { m with rows := r } := by
    induction ks generalizing m with
    | nil => exact ⟨m.rows, rfl⟩
    | cons k ks ih =>
      obtain ⟨r, hr⟩ := ih { m with rows := tblPut {} m.rows k { tblGet {} m.rows k with conf := some c } }
      exact ⟨r, hr⟩
  unfold Matrix.rowsTagged
  induction l generalizing m with
  | nil => exact ⟨m.rows, rfl⟩
  | cons k l ih =>
    obtain ⟨r, hr⟩ := htag (rowKeys c.isInt k) m
    obtain ⟨r', hr'⟩ := ih (m.tagRow c k)
    exact ⟨r', hr'.trans (by rw [Matrix.tagRow, hr])⟩

section
variable (m : Matrix) (swap : Bool) (cc : Nat) (subs : Tbl (Option SubMat))

theorem swapped_active : (m.swapped swap cc subs).active = { m.planeOf swap with subs := subs } := by cases swap <;> rfl
theorem swapped_ops : (m.swapped swap cc subs).ops = m.ops := by cases swap <;> rfl

end

/-- What an MSTEP leaves of the planes is the exchange; its operation stands last. -/
theorem stepped_eq (m : Matrix) (i : Issue) (t : State) (es cs : List Byte) (subs : Tbl (Option SubMat)) :
    let x := m.swapped (bit (mw i) 42) i.cc subs
    let y := m.stepped i t es cs subs
    y.active = x.active ∧ y.shadow = x.shadow ∧ y.lastSwap = x.lastSwap ∧ y.feedEnd = (mstepFed i t).getLastD i.cc + (t.mconf i).step ∧
      y.ops = m.ops ++ [mstepOp i t es cs subs] := by
  intro x y
  obtain ⟨r, hr⟩ : ∃ r, (if bit (mw i) 43 then x else
      x.rowsTagged (t.mconf i) (List.range' (msBase (mWord i t)) (msC (mWord i t) * modeRps (t.mconf i).mode))) = { x with rows := r } := by
    split
    · exact ⟨x.rows, rfl⟩
    · exact rowsTagged_eq _ _ _
  simp only [y, Matrix.stepped]
  rw [hr]
  simp [x, swapped_ops]

theorem mstepRunsAgainstActive_holds : Rules.MstepRunsAgainstActive := by
  intro i s t u h w sw c af e b x m from_ hz
  have he : exec (.mstep i) s = .next (effMstep i t) := exec_of_issues (fun _ _ => rfl) h
  have hm : ∀ o, readTwo i 0 (i.cc + x.2.1) e b x.1 = (u, o) → (u.core i.pos).mat = m := fun o hr =>
    (congrArg (fun y => (y.1.core i.pos).mat) (show (u, o) = mstepRead i t from hr.symm)).trans mstepRead_mat
  refine ⟨fun hr => ⟨?_, hm _ hr⟩, fun es cs hr => ?_⟩
  · rw [he, effMstep_eq hz, show mstepRead i t = (u, none) from hr]
  · have hr' : mstepRead i t = (u, some (es, cs)) := hr
    rw [effMstep_eq hz, hr'] at he
    have hp : (u.core i.pos).mat.planeOf (bit (mw i) 42) = from_ := by rw [hm _ hr]; rfl
    simp only [hp] at he
    obtain ⟨ha, hs, hl, hf, ho⟩ := stepped_eq (u.core i.pos).mat i t es cs (mstepSubs i t from_.subs)
    rw [hm _ hr] at ha hs hl hf ho
    refine ⟨_, mstepOp i t es cs (mstepSubs i t from_.subs), mstepSubs i t from_.subs, he, ?_⟩
    rw [State.mat_modMat, show ((u.weightsTaken _).core i.pos).mat = m from hm _ hr, ha, hs, hl, hf]
    have hu : unfilled c.mode from_.subs = false → mstepSubs i t from_.subs = from_.subs := fun hu => if_neg (ne_true_of_eq_false hu)
    refine ⟨ho, rfl, rfl, rfl, Nat.add_right_comm .., mstepWrites_rows .., hu, swapped_active .., fun hb => ?_, fun hb => ?_⟩
    · rw [show bit (mw i) 42 = true from hb]
      exact ⟨rfl, rfl⟩
    · rw [show bit (mw i) 42 = false from hb]
      rfl

/-! ### MDRAIN (R76, R159) -/

section
variable (i : Issue) (t : State)

/-- The access that an MDRAIN makes: its elements, and its scales in the format that has them. -/
def mdrainAccess : State × Nat × Nat :=
  let sw := mWord i t
  let f := mOpBits (mw i)
  let n := presented (t.core i.pos).desc.narrow
  let e := ((t.rA i (mA (mw i))).toNat, mdM sw * n * fmtBits f / 8)
  t.access i.pos 2 i.cc (if f = 3 then [e, ((t.rA i (mB (mw i))).toNat, mdM sw * n / 32)] else [e])
/-- The drain that it enters. -/
def mdrainOf : Drain :=
  let sw := mWord i t
  let f := mOpBits (mw i)
  { fmt := f, isInt := (t.mconf i).isInt, q := (t.mconf i).q, first := mdFirst sw, m := mdM sw, clear := mdClear sw
    t0 := i.cc + (mdrainAccess i t).2.1, w := if fmtBits f = 32 then 2 else 1, dst := (t.rA i (mA (mw i))).toNat
    dstS := (t.rA i (mB (mw i))).toNat, next := 0, results := [] }
/-- Its operation. -/
def mdrainOp : MOp :=
  let d := mdrainOf i t
  { kind := 4, start := i.cc, finish := d.t0 + 8 + d.w * d.m + 6, chamber := mCh (mw i), writes := [], drain := some d, retired := false }

theorem effMdrain_eq (hz : mZero 4 (mWord i t) = false) :
    effMdrain i t = (mdrainAccess i t).1.modMat i.pos fun m => { m with ops := m.ops ++ [mdrainOp i t] } := by
  unfold effMdrain
  exact if_neg (ne_true_of_eq_false hz)

end

theorem mdrainEntersDrain_holds : Rules.MdrainEntersDrain := by
  intro i s t h w sw f n e b x wd hz
  refine ⟨_, mdrainOp i t, mdrainOf i t, (exec_of_issues (eff := effMdrain) (fun _ _ => rfl) h).trans (congrArg _ (effMdrain_eq i t hz)), ?_⟩
  rw [State.mat_modMat, mdrainAccess, access_mat]
  exact ⟨rfl, rfl, rfl, rfl, rfl, rfl, rfl, rfl, rfl⟩

/-- Settles O18: the small operations and no-ops, MLOAD, MSTEP and MDRAIN. -/
theorem matrixInstructions : Obligations.MatrixInstructions :=
  ⟨matrixSmallOperations_hold, mloadFillsShadow_holds, mstepRunsAgainstActive_holds, mdrainEntersDrain_holds⟩

end Sys2Proof.Machine
end

section
/-! PROOFS. The X slot at issue (O19): waits and tests, BPOP, CARM and CSIG, and the refusal of a busy slot. -/

namespace Sys2Proof.Machine

open Sys2Proof

/-! ### Waits and tests (R161, R219, R236) -/

/-- The bit of CTEST that says whether the chamber has reached its target. -/
theorem reachedBit_eq (c : Chamber) : put64 (b2n c.reached) 32 1 = if c.target.toNat ≤ c.count.toNat then 0x100000000 else 0 := by
  unfold Chamber.reached
  by_cases h : c.target.toNat ≤ c.count.toNat
  · simp only [h, decide_true, if_true]
    decide
  · simp only [h, decide_false, if_false]
    decide

theorem effRecv_of_head {i : Issue} {t : State} {e : BEntry} {r : List BEntry} (h : (t.berth i.pos (xBerth (xw i))).queue = e :: r) :
    effRecv i t = (t.laterA i 2 (xA (xw i)) (BitVec.ofNat 48 ((t.berth i.pos (xBerth (xw i))).payloadAt e.idx))).laterS i 2 (xB (xw i))
      (put64 (hdrLen e.hdr) 0 13 ||| put64 (hdrSrc e.hdr) 13 7 ||| put64 (hdrTag e.hdr) 20 32) := by
  simp only [effRecv, h]

theorem waitsAndTests_hold : Rules.WaitsAndTests := by
  intro i s t w q S c
  refine ⟨exec_of_issues (eff := effSwait) fun _ _ => rfl, fun h => ?_, fun e r h hq => ?_, exec_of_issues (eff := effCwait) fun _ _ => rfl,
    fun h => ?_⟩
  · rw [exec_of_issues (eff := effStest) (fun _ _ => rfl) h, effStest, b2n]
    rw [mul_ite, mul_one, mul_zero]
    rfl
  · exact (exec_of_issues (eff := effRecv) (fun _ _ => rfl) h).trans (congrArg _ (effRecv_of_head hq))
  · rw [exec_of_issues (eff := effCtest) (fun _ _ => rfl) h, effCtest]
    rw [reachedBit_eq]
    rfl

/-! ### BPOP (R219) -/

theorem State.modUt_congr {s : State} {p : Pos} {f g : UnderTile → UnderTile} (h : f (s.ut p) = g (s.ut p)) : s.modUt p f = s.modUt p g := by
  unfold State.ut at h
  simp only [State.modUt, State.modTile, vmod]
  rw [h]
/-- An update of a berth counts by what it makes of it as it is. -/
theorem State.modBerth_congr {s : State} {p : Pos} {k : Fin 64} {f g : Berth → Berth} (h : f (s.berth p k) = g (s.berth p k)) :
    s.modBerth p k f = s.modBerth p k g := by
  have hb : f (s.ut p).berths[k] = g (s.ut p).berths[k] := h
  exact State.modUt_congr (by simp only [UnderTile.modBerth, vmod, hb])
@[simp] theorem State.berth_modBerth (s : State) (p : Pos) (k : Fin 64) (f : Berth → Berth) : (s.modBerth p k f).berth p k = f (s.berth p k) := by
  simp only [State.berth, State.modBerth, State.ut_modUt, UnderTile.modBerth]
  exact vmod_get_same _ _ _

/-- The berth after a BPOP of a core. -/
def Berth.popped (c : Core) (b : Berth) : Berth :=
  match b.queue with
  | e :: _ => if e.posted && e.whole && !toHandler c e.hdr then b.consume else b
  | [] => b

theorem effBpop_eq (i : Issue) (t : State) : effBpop i t = t.modBerth i.pos (xBerth (xw i)) (Berth.popped (t.core i.pos)) := rfl

section
variable {c : Core} {b : Berth}

theorem popped_of_head {e : BEntry} {r : List BEntry} (hq : b.queue = e :: r) (hp : e.posted = true) (hw : e.whole = true)
    (hh : toHandler c e.hdr = false) : b.popped c = b.consume := by simp [Berth.popped, hq, hp, hw, hh]
theorem popped_of_none (h : ∀ e r, b.queue = e :: r → e.posted = false ∨ e.whole = false ∨ toHandler c e.hdr = true) : b.popped c = b := by
  unfold Berth.popped
  split
  · next e r hq => exact if_neg (by rcases h e r hq with hp | hw | hh <;> simp [*])
  · rfl
theorem consume_queue {e : BEntry} {r : List BEntry} (hq : b.queue = e :: r) : b.consume.queue = r.dropWhile BEntry.voided := by
  simp [Berth.consume, hq, dropVoided_eq]
theorem consume_head {e : BEntry} {r : List BEntry} (hq : b.queue = e :: r) (hn : b.entries ≠ 0) :
    b.consume.head = (b.head + (b.queue.length - (r.dropWhile BEntry.voided).length)) % b.entries := by
  simp [Berth.consume, hq, dropVoided_eq, hn]

end

/-! ### Operations that start in a free slot (R161 to R163) -/

theorem withSlot_of_busy {i : Issue} {s : State} (h : (s.slot i.pos (xSlot (xw i))).busy = true) (f : State → State) :
    withSlot i s f = s.slotBusy i.pos (xSlot (xw i)) := by rw [withSlot, if_pos h]

/-- The operation that a move instruction starts, under the core's next number. -/
def MoveOp.numbered (o : MoveOp) (s : State) (p : Pos) : MoveOp := { o with id := (s.core p).mov.nextOp }

section
variable (s : State) (p : Pos) (k : Fin 64) (o : MoveOp)

theorem startOp_core : (s.startOp p k o).core p = { s.core p with mov := { (s.core p).mov with
    slots := vmod (s.core p).mov.slots k fun c => { c with busy := true, op := some (o.numbered s p) }
    nextOp := (s.core p).mov.nextOp + 1 } } := by
  simp [State.startOp, State.modSlot, State.modMov, MoveOp.numbered]
theorem startOp_slot : (s.startOp p k o).slot p k = { s.slot p k with busy := true, op := some (o.numbered s p) } := by
  rw [State.slot, startOp_core]
  exact vmod_get_same _ _ _

end

/-- A packet that is not on VC2 enters the fabric at once. -/
theorem inject_of_vc {s : State} {p : Pos} {q : Packet} (h : q.vc ≠ 2) : s.inject p q = s.emit q := if_pos h

theorem State.core_emit (s : State) (q : Packet) (p : Pos) : (s.emit q).core p = s.core p := rfl
theorem fromCtx_header (s : State) (p : Pos) (x : Ctx) (type : BitVec 4) (vc : BitVec 2) :
    (s.fromCtx p x type vc).type = type ∧ (s.fromCtx p x type vc).vc = vc := by
  unfold State.fromCtx
  dsimp only
  split <;> exact ⟨rfl, rfl⟩

/-! ### CSIG (R236, R243) -/

/-- The address that a CSIG names, and its count. -/
def csigAddr (i : Issue) (t : State) : Word := t.rS i (xA (xw i))
def csigCount (i : Issue) (t : State) : BitVec 32 := (t.rS i (xB (xw i))).extractLsb' 0 32
/-- The chamber is one of the own LT. -/
def csigOwn (i : Issue) (t : State) : Prop := addrLt (csigAddr i t) < 120 ∧ (t.core i.pos).desc.lt.toNat = addrLt (csigAddr i t)
/-- The state of a CSIG to the own LT once its SIGNAL is entered for the next cycle. -/
def csigLater (i : Issue) (t : State) : State := t.later i 1 (.sig (Fin.ofNat 2048 (addrChamber (csigAddr i t))) (csigCount i t).toNat)
/-- The operation of a CSIG to the own LT, which is done at issue. -/
def ownSignal (i : Issue) : MoveOp := { newOp .signal i.ctx i.idx (xChOpt (xw i)) with outcome := some .done }
/-- The operation of a CSIG that waits for an answer from afar. -/
def farSignal (i : Issue) (t : State) : MoveOp := { newOp .signal i.ctx i.idx (xChOpt (xw i)) with
  left := 1, toLt := if addrLt (csigAddr i t) == 127 then 0xFF else BitVec.ofNat 8 (addrLt (csigAddr i t)) }
/-- The SIGNAL that a CSIG sends to another LT or to LH-C. -/
def csigPacket (i : Issue) (t : State) : Packet :=
  let canal := addrLt (csigAddr i t) == 127
  { t.fromCtx i.pos i.ctx 7 0 with
    dkind := if canal then 2 else 0, dest := if canal then 1 else BitVec.ofNat 8 (addrLt (csigAddr i t)), arg := csigCount i t, addr := csigAddr i t
    slot := BitVec.ofNat 6 (xSlot (xw i)).val, opId := t.opNo i.pos }

section
variable {i : Issue} {t : State} (hf : (t.slot i.pos (xSlot (xw i))).busy = false)
include hf

theorem effCsig_of_other (h : addrClass (csigAddr i t) ≠ 3) : effCsig i t = t.xEnd i .illegalDescriptor := by
  rw [effCsig, withSlot_of_free hf]
  exact if_pos h
theorem effCsig_of_own (hc : addrClass (csigAddr i t) = 3) (h : csigOwn i t) : effCsig i t =
    (csigLater i t).startOp i.pos (xSlot (xw i)) (ownSignal i) := by
  rw [effCsig, withSlot_of_free hf]
  exact (if_neg (not_not_intro hc)).trans (if_pos (by simpa [csigOwn, csigAddr] using h))
theorem effCsig_of_far (hc : addrClass (csigAddr i t) = 3) (h : ¬csigOwn i t) : effCsig i t =
    (t.startOp i.pos (xSlot (xw i)) (farSignal i t)).inject i.pos (csigPacket i t) := by
  rw [effCsig, withSlot_of_free hf]
  exact (if_neg (not_not_intro hc)).trans (if_neg (by simpa [csigOwn, csigAddr] using h))

end

theorem popArmSignal_holds : Rules.PopArmSignal := by
  intro i s t w b a n
  refine ⟨fun e r h hq hp hw hh => ?_, fun hn h => ?_, fun h hc => ?_, fun h hc => ?_, fun h hf hc => ?_, fun h hf hc hl hd => ?_,
    fun h hf hc hl => ?_⟩
  · have hv : (effBpop i t).berth i.pos (xBerth w) = b.consume :=
      (State.berth_modBerth ..).trans (popped_of_head hq hp hw hh)
    refine ⟨_, exec_of_issues (eff := effBpop) (fun _ _ => rfl) h, ?_, ?_, fun h0 => ?_⟩
    · rw [hv, effBpop_eq]
      exact State.modBerth_congr (popped_of_head hq hp hw hh)
    · rw [hv, consume_queue hq]
    · rw [hv, consume_head hq h0]
  · rw [exec_of_issues (eff := effBpop) (fun _ _ => rfl) h, effBpop_eq]
    exact congrArg _ (State.modBerth_congr (popped_of_none hn))
  · have hx : xCn (xw i) = false := hc
    rw [exec_of_issues (eff := effCarm) (fun _ _ => rfl) h, effCarm, hx]
    rfl
  · have hx : xCn (xw i) = true := hc
    rw [exec_of_issues (eff := effCarm) (fun _ _ => rfl) h, effCarm, hx]
    rfl
  · exact (exec_of_issues (eff := effCsig) (fun _ _ => rfl) h).trans (congrArg _ (effCsig_of_other hf hc))
  · have hk := startOp_slot (csigLater i t) i.pos (xSlot (xw i)) (ownSignal i)
    have hp := startOp_core (csigLater i t) i.pos (xSlot (xw i)) (ownSignal i)
    have he := exec_of_issues (eff := effCsig) (c := Instr.csig) (fun _ _ => rfl) h
    refine ⟨_, (ownSignal i).numbered (csigLater i t) i.pos, he.trans (congrArg _ (effCsig_of_own hf hc ⟨hl, hd⟩)),
      congrArg Slot.busy hk, congrArg Slot.op hk, rfl, (congrArg Core.pend hp).trans ?_, rfl⟩
    rw [csigLater, State.later, State.core_modCore]
    rfl
  · have hk := startOp_slot t i.pos (xSlot (xw i)) (farSignal i t)
    have hp := startOp_core t i.pos (xSlot (xw i)) (farSignal i t)
    have hv : (csigPacket i t).vc ≠ 2 := by
      rw [show (csigPacket i t).vc = (t.fromCtx i.pos i.ctx 7 0).vc from rfl, (fromCtx_header ..).2]
      decide
    have he := exec_of_issues (eff := effCsig) (c := Instr.csig) (fun _ _ => rfl) h
    rw [effCsig_of_far hf hc hl, inject_of_vc hv] at he
    exact ⟨_, (farSignal i t).numbered t i.pos, { csigPacket i t with id := t.nextPkt }, he, congrArg Slot.busy hk, congrArg Slot.op hk,
      rfl, rfl, rfl, (fromCtx_header ..).1, rfl, rfl, rfl, (congrArg Core.pend hp).trans rfl⟩

/-! ### A busy slot (R162) -/

theorem busySlotRefuses_holds : Rules.BusySlotRefuses := by
  intro i s t op c k hc h hb
  have hr {eff : Issue → State → State} {f : State → State} (hx : ∀ i s, exec (c i) s = .next (slotCmd .x op false eff i s))
      (he : eff i t = withSlot i t f) : exec (c i) s = .next (t.slotBusy i.pos k) :=
    (exec_of_issues hx h).trans (congrArg _ (he.trans (withSlot_of_busy hb f)))
  simp only [List.mem_cons, Prod.mk.injEq, List.not_mem_nil, or_false] at hc
  rcases hc with ⟨rfl, rfl⟩ | ⟨rfl, rfl⟩ | ⟨rfl, rfl⟩ | ⟨rfl, rfl⟩ | ⟨rfl, rfl⟩ | ⟨rfl, rfl⟩ | ⟨rfl, rfl⟩ | ⟨rfl, rfl⟩ | ⟨rfl, rfl⟩ | ⟨rfl, rfl⟩ | ⟨rfl, rfl⟩
  · exact hr (eff := effStrm) (fun _ _ => rfl) rfl
  · exact hr (eff := effRwr) (fun _ _ => rfl) rfl
  · exact hr (eff := effRrd) (fun _ _ => rfl) rfl
  · exact hr (eff := effSend) (fun _ _ => rfl) (by rw [effSend, sendAny])
  · exact hr (eff := effSendn) (fun _ _ => rfl) (by rw [effSendn, sendAny])
  · exact hr (eff := effSendc) (fun _ _ => rfl) (by rw [effSendc, sendAny])
  · exact hr (eff := effBopen) (fun _ _ => rfl) rfl
  · exact hr (eff := effBclose) (fun _ _ => rfl) rfl
  · exact hr (eff := effWopen) (fun _ _ => rfl) rfl
  · exact hr (eff := effWclose) (fun _ _ => rfl) rfl
  · exact hr (eff := effCsig) (fun _ _ => rfl) rfl

/-- Settles O19: waits and tests, BPOP, CARM and CSIG, and a busy slot. -/
theorem waitsTestsAndBusySlots : Obligations.WaitsTestsAndBusySlots := ⟨waitsAndTests_hold, popArmSignal_holds, busySlotRefuses_holds⟩

end Sys2Proof.Machine
end

section
/-! PROOFS. Completions of moves and the stream engine (O24): how slots are freed, pages entered and chunks moved. -/

namespace Sys2Proof.Machine

open Sys2Proof

/-! ### The tile's cycle after a run -/

section
variable (s : State) (p : Pos) (cc : Nat)

theorem fault_ut (x : Ctx) (idx : BitVec 14) (m : BitVec 4) (f : CoreFault) : (s.fault p x idx m f).ut p = s.ut p := by
  obtain ⟨r, l, h, -⟩ := fault_faulted s p x idx m f
  rw [h]
  exact State.ut_modCtl s p p fun k => k.faulted x idx m f
theorem fault_net (x : Ctx) (idx : BitVec 14) (m : BitVec 4) (f : CoreFault) : (s.fault p x idx m f).net = s.net := by
  obtain ⟨r, l, h, -⟩ := fault_faulted s p x idx m f
  rw [h]
  rfl
theorem fetchTo_ut (x : Ctx) (n : Nat) : (s.fetchTo p x n).ut p = s.ut p := by
  unfold State.fetchTo
  dsimp only
  split
  · rw [fault_ut, State.ut_modCore]
  · rfl
theorem fetch_ut : (s.fetch p cc).ut p = s.ut p := by
  rw [fetch_eq]
  split
  · rfl
  · dsimp only
    split_ifs <;> simp only [fetchTo_ut]
theorem chDsts_cycle (l : List PendW) (u : UnderTile) : (l.foldl (fun u w => u.chDst w.dst) u).cycle = u.cycle := by
  induction l generalizing u with
  | nil => rfl
  | cons w r ih =>
    rw [List.foldl_cons, ih]
    unfold UnderTile.chDst
    split <;> rfl
/-- A tile that runs to a cycle it has not passed stands there. -/
theorem run_cycle (h : (s.ut p).cycle ≤ cc) : ((s.run p cc).ut p).cycle = cc := by
  rw [State.run, fetch_ut, State.ut_advance, chDsts_cycle, State.ut_modCore]
  exact max_eq_right h

end

/-! ### Requests that no slot holds -/

section
variable (s : State) (p : Pos) (q : Packet)

theorem ask_core : (s.ask p q).core p = { s.core p with mov := { (s.core p).mov with nextOp := (s.core p).mov.nextOp + 1 } } := by
  rw [State.ask, State.modMov, State.core_modCore, State.core_emit]
theorem ask_ut (r : Pos) : (s.ask p q).ut r = s.ut r := State.ut_modCore ..
theorem ask_net : (s.ask p q).net = s.net ++ [{ q with opId := (s.core p).mov.nextOp, id := s.nextPkt }] := rfl

end

/-! ### Move completions (R161, R168) -/

/-- The state of a completion once its slot is free and its stream gone. -/
def State.slotFreed (s : State) (p : Pos) (k : Fin 64) (o : MoveOp) (st : Status) : State :=
  (s.modSlot p k fun _ => { busy := false, status := if o.cancelled then .stepAborted else st, op := none }).modMov p
    fun m => { m with streams := m.streams.filter fun x => x.op != o.id }
/-- The same with its chamber signalled, unless an abort cancelled the operation. -/
def State.slotSignalled (s : State) (p : Pos) (k : Fin 64) (o : MoveOp) (st : Status) : State :=
  if o.cancelled then s.slotFreed p k o st else (s.slotFreed p k o st).signalCh p o.ch
/-- The completion raises MEM_UNCORRECTABLE. -/
def MoveOp.memFaults (o : MoveOp) (st : Status) : Bool :=
  (o.kind == .stream || o.kind == .write || o.kind == .read) && st == .memoryUncorrectable && !o.cancelled

section
variable (s : State) (p : Pos) (k : Fin 64) (o : MoveOp) (st : Status)

theorem freeSlot_eq : s.freeSlot p k o st =
    if o.memFaults st then (s.slotSignalled p k o st).fault p o.ctx o.idx 8 .memUncorrectable else s.slotSignalled p k o st := rfl

theorem slotFreed_core : (s.slotFreed p k o st).core p = { s.core p with mov := { (s.core p).mov with
    slots := vmod (s.core p).mov.slots k fun _ => { busy := false, status := if o.cancelled then .stepAborted else st, op := none }
    streams := (s.core p).mov.streams.filter fun x => x.op != o.id } } := by
  simp [State.slotFreed, State.modSlot, State.modMov]
theorem slotFreed_ut : (s.slotFreed p k o st).ut p = s.ut p := by simp [State.slotFreed, State.modSlot, State.modMov]

theorem slotSignalled_core : ∃ l n, (s.slotSignalled p k o st).core p = { (s.slotFreed p k o st).core p with
    pend := l, mov := { ((s.slotFreed p k o st).core p).mov with nextOp := n } } := by
  unfold State.slotSignalled
  split
  · exact ⟨_, _, rfl⟩
  · exact signalCh_core ..

theorem freeSlot_core : ∃ c, (s.freeSlot p k o st).core p = { (s.slotSignalled p k o st).core p with ctl := c } := by
  rw [freeSlot_eq]
  split
  · exact ⟨_, core_fault ..⟩
  · exact ⟨_, rfl⟩
theorem freeSlot_net : (s.freeSlot p k o st).net = (s.slotSignalled p k o st).net := by
  rw [freeSlot_eq]
  split
  · exact fault_net ..
  · rfl

/-- What a completion leaves in the slot, and of the streams. -/
theorem freeSlot_mov : ((s.freeSlot p k o st).slot p k = { busy := false, status := if o.cancelled then .stepAborted else st, op := none }) ∧
    ((s.freeSlot p k o st).core p).mov.streams = (s.core p).mov.streams.filter fun x => x.op ≠ o.id := by
  obtain ⟨c, hc⟩ := freeSlot_core s p k o st
  obtain ⟨l, n, hs⟩ := slotSignalled_core s p k o st
  rw [State.slot, hc, hs, slotFreed_core]
  refine ⟨vmod_get_same _ _ _, List.filter_congr fun x _ => ?_⟩
  simp only [bne, decide_not, beq_eq_decide]

theorem freeSlot_pend : ((s.freeSlot p k o st).core p).pend = ((s.slotSignalled p k o st).core p).pend := by
  obtain ⟨c, hc⟩ := freeSlot_core s p k o st
  rw [hc]

theorem freeSlot_ctl_of_fault (h : o.memFaults st = true) :
    ((s.freeSlot p k o st).core p).ctl.fault.code = 0x12 ∧ ((s.freeSlot p k o st).core p).ctl.fault.slots = 8 ∧
      ((s.freeSlot p k o st).core p).ctl.fault.index = o.idx := by
  rw [freeSlot_eq, if_pos h, core_fault]
  exact ⟨rfl, rfl, rfl⟩
theorem freeSlot_ctl_of_none (h : o.memFaults st = false) : ((s.freeSlot p k o st).core p).ctl = (s.core p).ctl := by
  obtain ⟨l, n, hs⟩ := slotSignalled_core s p k o st
  rw [freeSlot_eq, if_neg (by simp [h]), hs, slotFreed_core]

/-- The packet that signals a Canal chamber. -/
def State.canalSignal (s : State) (p : Pos) (n : BitVec 13) : Packet :=
  { s.fromTile p 7 0 with dkind := 2, dest := 1, arg := 1, addr := canalAddr n, opId := (s.core p).mov.nextOp, id := s.nextPkt }

theorem slotSignalled_of_silent (h : o.ch = none ∨ o.cancelled = true) : s.slotSignalled p k o st = s.slotFreed p k o st := by
  unfold State.slotSignalled
  rcases h with h | h
  · rw [h, State.signalCh, ite_self]
  · rw [if_pos h]
theorem slotSignalled_of_tile {n : BitVec 13} (h : o.ch = some (false, n)) (hc : o.cancelled = false) : s.slotSignalled p k o st =
    (s.slotFreed p k o st).modCore p fun c => c.later ((s.ut p).cycle + 1) (.sig (Fin.ofNat 2048 n.toNat) 1) := by
  rw [State.slotSignalled, if_neg (by simp [hc]), h, State.signalCh, slotFreed_ut]
theorem slotSignalled_of_canal {n : BitVec 13} (h : o.ch = some (true, n)) (hc : o.cancelled = false) :
    ((s.slotSignalled p k o st).core p).pend = (s.core p).pend ∧
    (s.slotSignalled p k o st).net = s.net ++ [(s.slotFreed p k o st).canalSignal p n] := by
  rw [State.slotSignalled, if_neg (by simp [hc]), h, State.signalCh, ask_net, ask_core]
  exact ⟨by rw [slotFreed_core], rfl⟩

end

/-- The address of a Canal chamber names it. -/
theorem addrChamber_canalAddr (n : BitVec 13) : addrChamber (canalAddr n) = n.toNat := by
  have h : (canalAddr n).extractLsb' 0 13 = n := by
    rw [canalAddr, BitVec.extractLsb'_or, BitVec.extractLsb'_or, show (put64 3 60 4).extractLsb' 0 13 = 0 by decide,
      show (put64 0x7F 45 7).extractLsb' 0 13 = 0 by decide]
    ext j hj
    simp [hj, Nat.lt_trans hj]
  rw [addrChamber, fld, h]

theorem execMoveCompletion_of_ended {p : Pos} {k : Fin 64} {cc : Nat} {s : State} {o : MoveOp} {st : Status} (h : (s.ut p).cycle ≤ cc)
    (ho : ((s.run p cc).slot p k).op = some o) (hs : o.outcome = some st) (hl : o.landAt ≤ cc) :
    exec (.moveCompletion p k cc) s = .next ((s.run p cc).freeSlot p k o st) := by
  show execMoveCompletion p k cc s = _
  simp only [execMoveCompletion, if_neg (Nat.not_lt.mpr h), ho, hs, if_pos hl]

theorem moveCompletions_hold : Rules.MoveCompletions := by
  intro p k cc s u hc
  refine ⟨fun o st ho hs hl => ⟨u.freeSlot p k o st, execMoveCompletion_of_ended hc ho hs hl, (freeSlot_mov ..).1, (freeSlot_mov ..).2,
    fun n hn hf => ?_, fun n hn hf => ?_, fun hn => ?_, fun hf hm hk => ?_, fun hk => ?_⟩, fun b x hx => ?_, fun b c hx hk hd hle hla => ?_,
    fun w x hx => ?_, fun w c hx hk hd hle hla => ?_⟩
  · rw [freeSlot_pend, freeSlot_net, slotSignalled_of_tile _ _ _ _ _ hn hf, State.core_modCore, slotFreed_core, run_cycle s p cc hc]
    exact ⟨rfl, rfl⟩
  · obtain ⟨hp, hx⟩ := slotSignalled_of_canal u p k o st hn hf
    rw [freeSlot_pend, freeSlot_net]
    exact ⟨hp, _, hx, rfl, rfl, rfl, rfl, addrChamber_canalAddr n⟩
  · rw [freeSlot_pend, freeSlot_net, slotSignalled_of_silent _ _ _ _ _ hn, slotFreed_core]
    exact ⟨rfl, rfl⟩
  · exact freeSlot_ctl_of_fault _ _ _ _ _ (by rcases hk with hk | hk | hk <;> simp [MoveOp.memFaults, hf, hm, hk])
  · refine freeSlot_ctl_of_none _ _ _ _ _ ?_
    rcases hk with hk | hk | ⟨hs, hw, hr⟩
    · simp [MoveOp.memFaults, hk]
    · simp [MoveOp.memFaults, hk]
    · simp [MoveOp.memFaults, hs, hw, hr]
  · show execBcloseComplete p b cc s = _
    rw [execBcloseComplete, if_neg (Nat.not_lt.mpr hc)]
    simp only [u] at hx
    simp only [hx, u]
  · show execBcloseComplete p b cc s = _
    rw [execBcloseComplete, if_neg (Nat.not_lt.mpr hc)]
    simp only [u] at hx hk hd hla
    simp only [hx, hk, hd, hle, hla, u, decide_true, Bool.and_self, if_true]
  · show execWcloseComplete p w cc s = _
    rw [execWcloseComplete, if_neg (Nat.not_lt.mpr hc)]
    simp only [u] at hx
    simp only [hx, u]
  · show execWcloseComplete p w cc s = _
    rw [execWcloseComplete, if_neg (Nat.not_lt.mpr hc)]
    simp only [u] at hx hk hd hla
    simp only [hx, hk, hd, hle, hla, u, decide_true, Bool.and_self, if_true]

end Sys2Proof.Machine
end

section
/-! PROOFS. The stream engine (O24): how a stream enters pages and how its chunks are asked for, released and read. -/

namespace Sys2Proof.Machine

open Sys2Proof

/-! ### Streams of a move unit -/

theorem ut_modMov (s : State) (p q : Pos) (f : MoveUnit → MoveUnit) : (s.modMov p f).ut q = s.ut q := State.ut_modCore ..
theorem core_modMov (s : State) (p : Pos) (f : MoveUnit → MoveUnit) : (s.modMov p f).core p = { s.core p with mov := f (s.core p).mov } :=
  State.core_modCore ..

/-- The streams of a position's move unit. -/
def State.streams (s : State) (p : Pos) : List Stream := (s.core p).mov.streams

theorem stream_eq (s : State) (p : Pos) (k : Fin 64) : s.stream p k = (s.streams p).find? fun x => x.slot == k := rfl
theorem stream_congr {s t : State} {p : Pos} (h : t.streams p = s.streams p) (k : Fin 64) : t.stream p k = s.stream p k := by
  rw [stream_eq, stream_eq, h]

section
variable (s : State) (p : Pos)

theorem streams_modStream (op : Nat) (f : Stream → Stream) : (s.modStream p op f).streams p = (s.streams p).map fun x => if x.op = op then f x else x := by
  rw [State.streams, State.modStream, core_modMov]
  rfl
theorem ut_modStream (op : Nat) (f : Stream → Stream) (q : Pos) : (s.modStream p op f).ut q = s.ut q := ut_modMov ..
theorem streams_modUt (f : UnderTile → UnderTile) : (s.modUt p f).streams p = s.streams p := by rw [State.streams, State.core_modUt]; rfl

variable {s p}

/-- An update of the stream in a slot that keeps the slots. -/
theorem stream_modStream {k : Fin 64} {st : Stream} {f : Stream → Stream} (h : s.stream p k = some st) (hf : ∀ x, (f x).slot = x.slot) :
    (s.modStream p st.op f).stream p k = some (f st) := by
  have hs (x : Stream) : (if x.op = st.op then f x else x).slot = x.slot := by
    split
    · exact hf x
    · rfl
  rw [stream_eq, streams_modStream, List.find?_map]
  simp only [Function.comp_def, hs]
  rw [← stream_eq, h, Option.map_some, if_pos rfl]

theorem stopAt_slot (x : Stream) (n : Nat) (st : Status) : (x.stopAt n st).slot = x.slot := by
  unfold Stream.stopAt
  split <;> rfl

/-- What a command on a stream does once the tile has reached its cycle. -/
theorem withStream_of {k : Fin 64} {cc : Nat} {st : Stream} (hc : (s.ut p).cycle ≤ cc) (h : (s.run p cc).stream p k = some st)
    (f : Stream → State → State) : withStream p k cc f s = f st (s.run p cc) := by
  simp only [withStream, if_neg (Nat.not_lt.mpr hc), h]

end

/-! ### The chart cache's requests (R202) -/

theorem lineAsk_net (s : State) (p : Pos) (direct : Bool) (m : StackN) (a : Nat) (cls : HbmClass) (data : Option (List Byte)) (tag : LineTag) :
    ∃ x, (s.lineAsk p direct m a cls data tag).net = s.net ++ [x] ∧ x.type = 9 ∧ x.write = data.isSome ∧ x.cls = cls ∧ x.tag = tag :=
  ⟨_, ask_net .., rfl, rfl, rfl, rfl⟩

/-- A request for a chart line is a read in class C0. -/
def Packet.chartRead (q : Packet) : Prop := q.type = 9 ∧ q.write = false ∧ q.cls = .c0

/-- The chart cache of p has asked for lines: requests have entered the fabric, nothing else that a stream sees has changed. -/
structure ChartAsked (p : Pos) (s t : State) : Prop where
  streams : t.streams p = s.streams p
  chart : t.chart = s.chart
  ents : (t.ut p).cht.ents = (s.ut p).cht.ents
  pend : (s.ut p).cht.pendFill ⊆ (t.ut p).cht.pendFill
  net : ∃ qs, t.net = s.net ++ qs ∧ ∀ q ∈ qs, q.chartRead

theorem ChartAsked.refl {p : Pos} (s : State) : ChartAsked p s s := ⟨rfl, rfl, rfl, List.Subset.refl _, [], by simp⟩
theorem ChartAsked.trans {p : Pos} {s t v : State} (h : ChartAsked p s t) (h' : ChartAsked p t v) : ChartAsked p s v := by
  obtain ⟨qs, hn, hq⟩ := h.net
  obtain ⟨qs', hn', hq'⟩ := h'.net
  refine ⟨h'.streams.trans h.streams, h'.chart.trans h.chart, h'.ents.trans h.ents, List.Subset.trans h.pend h'.pend, qs ++ qs', ?_, ?_⟩
  · rw [hn', hn, List.append_assoc]
  · exact fun q hx => (List.mem_append.mp hx).elim (hq q) (hq' q)

/-- The chart cache holds the page, or has asked for its line. -/
def ChartCache.knows (c : ChartCache) (n : Nat) : Bool := (c.ents.any fun e => e.page.toNat == n) || (c.pendFill.any fun q => q.toNat / 8 == n / 8)
/-- The chart cache of p asks bank b's copy for the line of a page. -/
def State.lineAsked (s : State) (p : Pos) (b : Bank) (n : Nat) : State :=
  (s.lineAsk p false (s.chart.home b) (chartBase + 8 * n) .c0 none (.fill p (n / 8))).modUt p fun u =>
    { u with cht := { u.cht with pendFill := u.cht.pendFill ++ [BitVec.ofNat 25 n] } }
/-- The chart cache of p asks for the line of a page that it does not know. -/
def State.askPage (s : State) (p : Pos) (n : Nat) : State :=
  if (s.ut p).cht.knows n then s else match s.chart.copyFor (bankOf p) with | none => s | some b => s.lineAsked p b n

theorem askChart_eq (s : State) (p : Pos) (l : List Nat) : s.askChart p l = l.foldl (fun s n => s.askPage p n) s := rfl

section
variable (s : State) (p : Pos) (b : Bank) (n : Nat)

theorem lineAsked_cht : ((s.lineAsked p b n).ut p).cht = { (s.ut p).cht with pendFill := (s.ut p).cht.pendFill ++ [BitVec.ofNat 25 n] } := by
  rw [State.lineAsked, State.ut_modUt, State.lineAsk, ask_ut]
theorem lineAsked_net : ∃ x, (s.lineAsked p b n).net = s.net ++ [x] ∧ x.chartRead ∧ x.tag = .fill p (n / 8) := by
  obtain ⟨x, hn, ht, hw, hc, hg⟩ := lineAsk_net s p false (s.chart.home b) (chartBase + 8 * n) .c0 none (.fill p (n / 8))
  exact ⟨x, hn, ⟨ht, hw, hc⟩, hg⟩
theorem lineAsked_asked : ChartAsked p s (s.lineAsked p b n) := by
  obtain ⟨x, hn, hx, -⟩ := lineAsked_net s p b n
  refine ⟨?_, rfl, by rw [lineAsked_cht], by rw [lineAsked_cht]; exact List.subset_append_left .., [x], hn, by simpa using hx⟩
  rw [State.lineAsked, streams_modUt, State.streams, State.lineAsk, ask_core]
  rfl
theorem askPage_asked : ChartAsked p s (s.askPage p n) := by
  unfold State.askPage
  split
  · exact .refl s
  · split
    · exact .refl s
    · exact lineAsked_asked ..
theorem askChart_asked (l : List Nat) : ChartAsked p s (s.askChart p l) :=
  foldl_rel (R := ChartAsked p) .refl .trans (fun s n => askPage_asked s p n) l s

/-- The pages ahead begin with the stream's own. -/
theorem ahead_of_before {st : Stream} (h : st.before = true) : ∃ r, st.ahead 64 st.req = st.pageAt st.req :: r := by
  have hl : ¬ st.req ≥ st.lines := by
    simp only [Stream.before, Bool.and_eq_true, decide_eq_true_eq] at h
    omega
  exact ⟨_, by rw [Stream.ahead, if_neg hl]; rfl⟩

end

/-- A page that the cache does not hold, of a line it has not asked for. -/
theorem not_knows {c : ChartCache} {n : Nat} (he : (c.ents.find? fun e => e.page == BitVec.ofNat 25 n) = none)
    (hp : ∀ q ∈ c.pendFill, q.toNat / 8 ≠ n / 8) : c.knows n = false := by
  simp only [ChartCache.knows, Bool.or_eq_false_iff, List.any_eq_false, beq_iff_eq]
  refine ⟨fun e hm hn => ?_, hp⟩
  have := List.find?_eq_none.mp he e hm
  exact this (by rw [← hn, BitVec.ofNat_toNat, BitVec.setWidth_eq]; exact beq_self_eq_true _)

/-- The line of the page before which a stream stands is asked for. -/
theorem translateAhead_asks {s : State} {p : Pos} {st : Stream} {b : Bank} (h : st.before = true)
    (hk : (s.ut p).cht.knows (st.pageAt st.req) = false) (hb : s.chart.copyFor (bankOf p) = some b) :
    BitVec.ofNat 25 (st.pageAt st.req) ∈ ((s.translateAhead p st).ut p).cht.pendFill ∧
      ∃ x ∈ (s.translateAhead p st).net, x.type = 9 ∧ x.write = false ∧ x.cls = .c0 ∧ x.tag = .fill p (st.pageAt st.req / 8) := by
  obtain ⟨r, hr⟩ := ahead_of_before h
  have he : s.translateAhead p st = (s.lineAsked p b (st.pageAt st.req)).askChart p r := by
    rw [State.translateAhead, hr, askChart_eq, List.foldl_cons, State.askPage, if_neg (by simp [hk]), hb]
    rfl
  have ha := askChart_asked (s.lineAsked p b (st.pageAt st.req)) p r
  obtain ⟨x, hn, ⟨ht, hw, hc⟩, hg⟩ := lineAsked_net s p b (st.pageAt st.req)
  obtain ⟨qs, hn', -⟩ := ha.net
  rw [he]
  refine ⟨ha.pend ?_, x, ?_, ht, hw, hc, hg⟩
  · rw [lineAsked_cht]
    exact List.mem_append_right _ (List.mem_singleton_self _)
  · rw [hn', hn]
    simp

/-! ### The page that a stream enters (R183, R187, R205) -/

section
variable (s : State) (p : Pos) (st : Stream) (e : Word)

/-- The number of the page before which a stream stands. -/
def Stream.nextPage (st : Stream) : BitVec 25 := BitVec.ofNat 25 (st.pageAt st.req)
/-- The class in which the stream carries its next page, whose entry is e. -/
def State.nextClass (s : State) (p : Pos) (st : Stream) (e : Word) : HbmClass := s.pageClass p st st.nextPage.toNat (entStack e).val
/-- The stream once it has entered its next page. -/
def Stream.entered (st : Stream) (e : Word) (c : HbmClass) (x : Stream) : Stream := { x with page := some (st.nextPage, e), cls := c, waitMig := false }
/-- The chart cache once a page has been used: its entry counts one access more and stands first. -/
def ChartCache.used (c : ChartCache) (page : BitVec 25) : ChartCache := { c with
  ents := (c.ents.filter fun x => x.page == page).map (fun x => { x with count := satAdd x.count 1 }) ++ c.ents.filter fun x => x.page != page }
/-- The state in which the stream has entered its next page. -/
def State.pageEntered (s : State) (p : Pos) (st : Stream) (e : Word) : State :=
  let c := s.nextClass p st e
  let s1 := s.modStream p st.op (st.entered e c)
  (if !st.bulk && c == .c3 then s1.modStg p fun g => { g with demoted := g.demoted + 1 } else s1).modCht p fun h => h.used st.nextPage

theorem enterPage_of_wait (hm : entMig e = true) (hw : st.waitMig = true) : s.enterPage p st e = s := by
  rw [State.enterPage, if_pos hm, if_pos hw]
theorem enterPage_of_migrating (hm : entMig e = true) (hw : st.waitMig = false) : s.enterPage p st e =
    (s.modStream p st.op fun x => { x with waitMig := true }).modStg p fun g => { g with migWait := g.migWait + 1 } := by
  rw [State.enterPage, if_pos hm, if_neg (by simp [hw])]
theorem enterPage_of_absent (hm : entMig e = false) (hh : entHere e = false) : s.enterPage p st e = (s.pageFault p st).demand st.nextPage e := by
  rw [State.enterPage, if_neg (by simp [hm]), if_pos (by simp [hh])]
  rfl
theorem enterPage_of_readOnly (hm : entMig e = false) (hh : entHere e = true) (ho : st.outDir = true) (hr : entRo e = true) :
    s.enterPage p st e = s.modStream p st.op fun x => x.stopAt st.req .noRights := by
  rw [State.enterPage, if_neg (by simp [hm]), if_neg (by simp [hh]), if_pos (by simp [ho, hr])]

section
variable {e st} (hm : entMig e = false) (hh : entHere e = true) (hr : st.outDir = false ∨ entRo e = false)
include hm hh hr

theorem enterPage_of_rights : s.enterPage p st e =
    if !st.bulk && bankOfStack (entStack e) != bankOf p && s.banksDiffer then s.modStream p st.op fun x => x.stopAt st.req .timingUnsafe_
    else s.pageEntered p st e := by
  rw [State.enterPage, if_neg (by simp [hm]), if_neg (by simp [hh]), if_neg (by rcases hr with h | h <;> simp [h])]
  rfl
theorem enterPage_of_unsafe (hb : st.bulk = false) (hs : bankOfStack (entStack e) ≠ bankOf p) (hd : s.banksDiffer = true) :
    s.enterPage p st e = s.modStream p st.op fun x => x.stopAt st.req .timingUnsafe_ := by
  rw [enterPage_of_rights s p hm hh hr, if_pos (by simp [hb, hs, hd])]
theorem enterPage_of_safe (hs : st.bulk = true ∨ bankOfStack (entStack e) = bankOf p ∨ s.banksDiffer = false) :
    s.enterPage p st e = s.pageEntered p st e := by
  rw [enterPage_of_rights s p hm hh hr, if_neg (by rcases hs with h | h | h <;> simp [h])]

end

theorem pageClass_eq_c3_iff (page m : Nat) : s.pageClass p st page m = .c3 ↔
    st.bulk = true ∨ s.inCwin page = true ∨ s.c1Rate p st.op m + st.rate > s.reservation p m := by
  unfold State.pageClass
  split <;> next h => simpa [or_assoc] using h
theorem pageClass_c3_or_c1 (page m : Nat) : s.pageClass p st page m = .c3 ∨ s.pageClass p st page m = .c1 := by
  unfold State.pageClass
  split
  · exact .inl rfl
  · exact .inr rfl

theorem modCht_cht (f : ChartCache → ChartCache) : ((s.modCht p f).ut p).cht = f (s.ut p).cht := by rw [State.modCht, State.ut_modUt]

theorem pageEntered_ents : ((s.pageEntered p st e).ut p).cht = (s.ut p).cht.used st.nextPage := by
  rw [State.pageEntered, modCht_cht]
  congr 1
  split
  · rw [State.modStg, State.ut_modUt, ut_modStream]
  · rw [ut_modStream]
theorem pageEntered_streams : (s.pageEntered p st e).streams p = (s.modStream p st.op (st.entered e (s.nextClass p st e))).streams p := by
  rw [State.pageEntered, State.modCht, streams_modUt]
  split
  · exact streams_modUt ..
  · rfl
theorem pageEntered_rest : (s.pageEntered p st e).chart = s.chart ∧ (s.pageEntered p st e).net = s.net := by
  unfold State.pageEntered
  dsimp only
  split <;> exact ⟨rfl, rfl⟩

/-- The entry that a cache holds for a page stands first once the page has been used. -/
theorem used_head {c : ChartCache} {page : BitVec 25} {x : ChartEnt} (h : (c.ents.find? fun e => e.page == page) = some x) :
    (c.used page).ents.head? = some { x with count := satAdd x.count 1 } := by
  rw [← List.head?_filter] at h
  rw [ChartCache.used, List.head?_append, List.head?_map, h]
  rfl

end

section
variable {p : Pos} {k : Fin 64} {cc : Nat} {s : State} {st : Stream} (hc : (s.ut p).cycle ≤ cc) (hs : (s.run p cc).stream p k = some st)
  (hb : st.before = true)
include hc hs hb

theorem streamPageEntry_of_unheld (h : (((s.run p cc).ut p).cht.ents.find? fun e => e.page == st.nextPage) = none) :
    exec (.streamPageEntry p k cc) s = .next ((s.run p cc).translateAhead p st) := by
  show execStreamPageEntry p k cc s = _
  rw [execStreamPageEntry, withStream_of hc hs, if_neg (by simp [hb])]
  simp only [Stream.nextPage] at h
  simp only [h]
theorem streamPageEntry_of_held {e : ChartEnt} (h : (((s.run p cc).ut p).cht.ents.find? fun e => e.page == st.nextPage) = some e) :
    exec (.streamPageEntry p k cc) s = .next (((s.run p cc).enterPage p st e.entry).translateAhead p st) := by
  show execStreamPageEntry p k cc s = _
  rw [execStreamPageEntry, withStream_of hc hs, if_neg (by simp [hb])]
  simp only [Stream.nextPage] at h
  simp only [h]

end

/-- A stream that enters a page carries it in its class; the cache's entry has been used, and only chart lines have been asked for. -/
theorem pageEntered_runs {p : Pos} {k : Fin 64} {s : State} {st : Stream} {e : ChartEnt} (hs : s.stream p k = some st)
    (he : ((s.ut p).cht.ents.find? fun e => e.page == st.nextPage) = some e) : let v := (s.pageEntered p st e.entry).translateAhead p st
    v.stream p k = some (st.entered e.entry (s.nextClass p st e.entry) st) ∧
      (v.ut p).cht.ents.head? = some { e with count := satAdd e.count 1 } ∧ v.chart = s.chart ∧
      ∃ qs, v.net = s.net ++ qs ∧ ∀ q ∈ qs, q.chartRead := by
  have ha : ChartAsked p (s.pageEntered p st e.entry) ((s.pageEntered p st e.entry).translateAhead p st) := askChart_asked ..
  obtain ⟨hc, hn⟩ := pageEntered_rest s p st e.entry
  refine ⟨?_, ?_, ha.chart.trans hc, hn ▸ ha.net⟩
  · rw [stream_congr (ha.streams.trans (pageEntered_streams ..)), stream_modStream (f := st.entered e.entry _) hs fun _ => rfl]
  · rw [ha.ents, pageEntered_ents, used_head he]

/-! ### A chart line arrives (R202, R203) -/

/-- Counts of evicted pages have been sent; the chart cache of p is as it was. -/
structure CountsSent (p : Pos) (s t : State) : Prop where
  cht : (t.ut p).cht = (s.ut p).cht
  net : ∃ qs, t.net = s.net ++ qs ∧ ∀ q ∈ qs, ∃ a b, q.tag = .count a b

theorem CountsSent.refl {p : Pos} (s : State) : CountsSent p s s := ⟨rfl, [], by simp⟩
theorem CountsSent.trans {p : Pos} {s t v : State} (h : CountsSent p s t) (h' : CountsSent p t v) : CountsSent p s v := by
  obtain ⟨qs, hn, hq⟩ := h.net
  obtain ⟨qs', hn', hq'⟩ := h'.net
  refine ⟨h'.cht.trans h.cht, qs ++ qs', by rw [hn', hn, List.append_assoc], ?_⟩
  exact fun q hx => (List.mem_append.mp hx).elim (hq q) (hq' q)

/-- The count of a page is sent to one copy of the chart, where it is in use. -/
def State.sendCountTo (s : State) (p : Pos) (page n : Nat) (b : Bank) : State :=
  if s.chart.valid b then s.lineAsk p false (s.chart.home b) (chartBase + 8 * page) .c0 (some []) (.count page n) else s
theorem sendCount_eq (s : State) (p : Pos) (page n : Nat) :
    s.sendCount p page n = if n = 0 then s else (s.sendCountTo p page n .west).sendCountTo p page n .east := rfl

theorem sendCountTo_sent (s : State) (p : Pos) (page n : Nat) (b : Bank) : CountsSent p s (s.sendCountTo p page n b) := by
  unfold State.sendCountTo
  split
  · obtain ⟨x, hn, -, -, -, ht⟩ := lineAsk_net s p false (s.chart.home b) (chartBase + 8 * page) .c0 (some []) (.count page n)
    exact ⟨by rw [State.lineAsk, ask_ut], [x], hn, by simp [ht]⟩
  · exact .refl s
theorem sendCount_sent (s : State) (p : Pos) (page n : Nat) : CountsSent p s (s.sendCount p page n) := by
  rw [sendCount_eq]
  split
  · exact .refl s
  · exact (sendCountTo_sent ..).trans (sendCountTo_sent ..)

/-- The first entry of a set is kept. -/
theorem keepWays_head (e : ChartEnt) (r : List ChartEnt) : e ∈ (keepWays 4 [] (e :: r)).1 := by
  rw [keepWays, if_pos (by simp)]
  exact List.mem_cons_self

/-- The chart cache once it has no request for a page's line under way. -/
def ChartCache.answered (c : ChartCache) (n : BitVec 25) : ChartCache := { c with pendFill := c.pendFill.filter fun x => x.toNat / 8 != n.toNat / 8 }

theorem answered_pendFill {c : ChartCache} {n x : BitVec 25} (h : x ∈ (c.answered n).pendFill) : x.toNat / 8 ≠ n.toNat / 8 := by
  simpa using (List.mem_filter.mp h).2

theorem chartFill_runs (s : State) (p : Pos) (n : BitVec 25) (bs : List Byte) : ∃ l e,
    ((s.chartFill p n bs).ut p).cht = { (s.ut p).cht.answered n with ents := l } ∧ e ∈ l ∧ e.page = n ∧ e.entry = wordOf bs (n.toNat % 8) ∧
      ∃ qs, (s.chartFill p n bs).net = s.net ++ qs ∧ ∀ q ∈ qs, ∃ a b, q.tag = .count a b := by
  unfold State.chartFill
  extract_lets base old pages fresh x
  have hs := foldl_rel (R := CountsSent p) (f := fun (s : State) (e : ChartEnt) => s.sendCount p e.page.toNat e.count.toNat) .refl .trans
    (fun s e => sendCount_sent s p _ _) x.2
    (s.modUt p fun u => { u with cht := { u.cht with ents := x.1, pendFill := u.cht.pendFill.filter fun q => q.toNat / 8 != n.toNat / 8 } })
  refine ⟨x.1, _, hs.cht.trans (by rw [State.ut_modUt]; rfl), keepWays_head .., ?_, rfl, hs.net⟩
  exact (BitVec.ofNat_toNat ..).trans (BitVec.setWidth_eq n)

theorem settleLoose_kept_net (s : State) (p : Pos) (op : Nat) : (s.settleLoose p op).net = s.net ∧ ((s.settleLoose p op).ut p).cht = (s.ut p).cht := by
  unfold State.settleLoose
  split
  · exact ⟨rfl, by rw [State.modMesh, State.ut_modUt]⟩
  · exact ⟨rfl, by rw [State.late, State.modMesh, State.ut_modUt]⟩

theorem not_mem_dropPacket (s : State) (q : Packet) : q ∉ (s.dropPacket q.id).net := by
  simp [State.dropPacket]

theorem chartCacheFill_runs {p : Pos} {s : State} {n : BitVec 25} {q : Packet}
    (hq : (s.net.find? fun q => q.place == .delivered p && q.type == 0xA && decide (q.tag = .fill p (n.toNat / 8))) = some q) :
    ∃ v, exec (.chartCacheFill p n) s = .next v ∧ q ∉ v.net ∧ (∀ x ∈ (v.ut p).cht.pendFill, x.toNat / 8 ≠ n.toNat / 8) ∧
      (q.status = .done → ∃ e ∈ (v.ut p).cht.ents, e.page = n ∧ e.entry = wordOf q.payload (n.toNat % 8)) ∧
      (q.status ≠ .done → (v.ut p).cht.ents = (s.ut p).cht.ents) := by
  have ht : q.tag = .fill p (n.toNat / 8) := by
    have := List.find?_some hq
    simp only [Bool.and_eq_true, decide_eq_true_eq] at this
    exact this.2
  obtain ⟨hn, hu⟩ := settleLoose_kept_net (s.dropPacket q.id) p q.opId
  have hd : q ∉ ((s.dropPacket q.id).settleLoose p q.opId).net := by
    rw [hn]
    exact not_mem_dropPacket s q
  have hx : exec (.chartCacheFill p n) s = execChartCacheFill p n s := rfl
  simp only [execChartCacheFill, hq] at hx
  by_cases hst : q.status = .done
  · rw [if_pos hst] at hx
    obtain ⟨l, e, hc, he, hp, hw, qs, hqn, hqt⟩ := chartFill_runs ((s.dropPacket q.id).settleLoose p q.opId) p n q.payload
    refine ⟨_, hx, ?_, ?_, fun _ => ⟨e, by rw [hc]; exact he, hp, hw⟩, fun h => absurd hst h⟩
    · rw [hqn, List.mem_append]
      rintro (h | h)
      · exact hd h
      · obtain ⟨a, b, hab⟩ := hqt q h
        rw [ht] at hab
        cases hab
    · rw [hc]
      exact fun x hm => answered_pendFill hm
  · rw [if_neg hst] at hx
    refine ⟨_, hx, hd, ?_, fun h => absurd h hst, fun _ => ?_⟩
    · rw [modCht_cht]
      exact fun x hm => answered_pendFill hm
    · rw [modCht_cht, hu]
      rfl

theorem streamPageEntry_holds : Rules.StreamPageEntry := by
  intro p k cc s st u page goes ends
  refine ⟨fun hc hs hb => ⟨fun hn => ⟨streamPageEntry_of_unheld hc hs hb hn, fun b hp hcb => translateAhead_asks hb (not_knows hn hp) hcb⟩,
    fun e he => ?_⟩, fun n q hq => chartCacheFill_runs hq⟩
  have hg {v : State} (h : u.enterPage p st e.entry = v) : goes v := h ▸ streamPageEntry_of_held hc hs hb he
  refine ⟨fun hm hw => hg (enterPage_of_wait _ _ _ _ hm hw), fun hm hw => hg (enterPage_of_migrating _ _ _ _ hm hw),
    fun hm hh => hg (enterPage_of_absent _ _ _ _ hm hh), fun hm hh ho hr => hg (enterPage_of_readOnly _ _ _ _ hm hh ho hr),
    fun hm hh hr hbk hst hd => hg (enterPage_of_unsafe u p hm hh hr hbk hst hd), fun hm hh hr hd => ?_⟩
  obtain ⟨hv, hy, hch, hn⟩ := pageEntered_runs hs he
  have hp : e.page = page := beq_iff_eq.mp (List.find?_some (p := fun e : ChartEnt => e.page == page) he)
  exact ⟨_, _, _, hg (enterPage_of_safe u p hm hh hr hd), hv, rfl, rfl, rfl, pageClass_eq_c3_iff .., pageClass_c3_or_c1 .., hy,
    hp, rfl, rfl, hch, hn⟩

end Sys2Proof.Machine
end

section
/-! PROOFS. The chunks of a stream (O24): requests, releases, reads and the end of a stream. -/

namespace Sys2Proof.Machine

open Sys2Proof

/-! ### Requests that enter the fabric -/

/-- A packet without its number, which the fabric gives it. -/
def Packet.unnumbered (q : Packet) : Packet := { q with id := 0 }

/-- Requests have entered the fabric under new numbers; streams and stacks are as they were. -/
structure Injected (p : Pos) (qs : List Packet) (s t : State) : Prop where
  streams : t.streams p = s.streams p
  hbm : t.hbm = s.hbm
  net : ∃ xs, t.net = s.net ++ xs ∧ xs.map Packet.unnumbered = qs.map Packet.unnumbered

theorem inject_injected (s : State) (p : Pos) (q : Packet) : Injected p [q] s (s.inject p q) := by
  unfold State.inject
  extract_lets s1
  split_ifs
  · exact ⟨rfl, rfl, _, rfl, rfl⟩
  · exact ⟨by rw [State.modOp, State.streams, core_modMov]; rfl, rfl, _, rfl, rfl⟩
  · exact ⟨streams_modUt .., rfl, _, rfl, rfl⟩

theorem injectAll_injected (qs : List Packet) (s : State) (p : Pos) : Injected p qs s (s.injectAll p qs) := by
  induction qs generalizing s with
  | nil => exact ⟨rfl, rfl, [], (List.append_nil _).symm, rfl⟩
  | cons q r ih =>
    obtain ⟨hs, hh, xs, hn, hx⟩ := inject_injected s p q
    obtain ⟨hs', hh', xs', hn', hx'⟩ := ih (s.inject p q)
    refine ⟨hs'.trans hs, hh'.trans hh, xs ++ xs', ?_, ?_⟩
    · rw [← List.append_assoc, ← hn]
      exact hn'
    · rw [List.map_append, hx, hx']
      rfl

theorem Injected.net_length {p : Pos} {qs : List Packet} {s t : State} (h : Injected p qs s t) : t.net.length = s.net.length + qs.length := by
  obtain ⟨xs, hn, hx⟩ := h.net
  have hl := congrArg List.length hx
  rw [List.length_map, List.length_map] at hl
  rw [hn, List.length_append, hl]

/-! ### What a stream asks for (R185, R188) -/

/-- A stream that has asked for lines, at a panel time. -/
def Stream.asked (st : Stream) (ls : List Nat) (now : Nat) (x : Stream) : Stream :=
  { x with req := st.req + ls.length, outst := x.outst ++ ls.map fun n => (n, now), waitRing := false }

section
variable {s : State} {p : Pos} {k : Fin 64} {st : Stream}

theorem askLines_of_unsafe (h : s.streamUnsafe p st = true) (ls : List Nat) :
    s.askLines p st ls = s.modStream p st.op fun x => x.stopAt st.req .timingUnsafe_ := by rw [State.askLines, if_pos h]

theorem askLines_runs (hs : s.stream p k = some st) (h : s.streamUnsafe p st = false) (ls : List Nat) :
    (s.askLines p st ls).stream p k = some (st.asked ls s.now st) ∧ (s.askLines p st ls).net.length = s.net.length + ls.length ∧
      (s.askLines p st ls).hbm = s.hbm := by
  have hi := injectAll_injected (ls.map fun n => s.linePacket p st n none) s p
  rw [State.askLines, if_neg (by simp [h])]
  refine ⟨stream_modStream (f := st.asked ls s.now) ((stream_congr hi.streams k).trans hs) fun _ => rfl, ?_, hi.hbm⟩
  exact hi.net_length.trans (by rw [List.length_map])

variable {cc : Nat} (hc : (s.ut p).cycle ≤ cc) (hs : (s.run p cc).stream p k = some st)
include hc hs

theorem streamChunkRequest_eq (ho : st.outDir = false) (hw : st.waitRing = false) (hr : st.ready cc = true) :
    exec (.streamChunkRequest p k cc) s = .next (
      if (s.run p cc).ringRoom p (st.run1 st.req).length then (s.run p cc).askLines p st (st.run1 st.req)
      else (s.run p cc).modStream p st.op fun x => { x with waitRing := true }) := by
  show execStreamChunkRequest p k cc s = _
  rw [execStreamChunkRequest, withStream_of hc hs, if_neg (by simp [ho, hw, hr])]

theorem streamRingReserve_of_room (hw : st.waitRing = true) (hr : st.ready cc = true)
    (hm : (s.run p cc).ringRoom p (st.run1 st.req).length = true) :
    exec (.streamRingReserve p k cc) s = .next ((s.run p cc).askLines p st (st.run1 st.req)) := by
  show execStreamRingReserve p k cc s = _
  rw [execStreamRingReserve, withStream_of hc hs, if_pos (by simp [hw, hr, hm])]

end

/-! ### The time of an engine's access (R170, R172, R175) -/

theorem le_portRuns (p tick c : Nat) (l : List (Nat × Nat)) : c ≤ (portRuns p tick c l).1 := by
  induction l generalizing c with
  | nil => exact le_rfl
  | cons e r ih =>
    obtain ⟨a, n⟩ := e
    rw [portRuns]
    split
    · exact ih c
    · have := ih (wheelAt p tick c ((a / 1024) % 8) + chunksOf a n)
      have hw : c ≤ wheelAt p tick c ((a / 1024) % 8) := Nat.le_add_right _ _
      dsimp only
      omega
/-- An access that moves a byte takes time. -/
theorem lt_portRuns (p tick c a n : Nat) (r : List (Nat × Nat)) (h : n ≠ 0) : c < (portRuns p tick c ((a, n) :: r)).1 := by
  have := le_portRuns p tick (wheelAt p tick c ((a / 1024) % 8) + chunksOf a n) r
  have hw : c ≤ wheelAt p tick c ((a / 1024) % 8) := Nat.le_add_right _ _
  have hk : 0 < chunksOf a n := by
    rw [chunksOf, if_neg h]
    exact Nat.succ_pos _
  rw [portRuns, if_neg h]
  dsimp only
  omega
/-- Joined runs begin where the first begins, and move no less. -/
theorem joinRuns_cons (a n : Nat) (r : List (Nat × Nat)) : ∃ m q, joinRuns ((a, n) :: r) = (a, m) :: q ∧ n ≤ m := by
  rw [joinRuns]
  split
  · split
    · exact ⟨_, _, rfl, Nat.le_add_right _ _⟩
    · exact ⟨_, _, rfl, le_rfl⟩
  · exact ⟨_, _, rfl, le_rfl⟩

section
variable (s : State) (p : Pos) (port cc : Nat)

theorem engine_lt (a n : Nat) (r : List (Nat × Nat)) (h : n ≠ 0) : cc < (s.engine p port cc ((a, n) :: r)).2 := by
  obtain ⟨m, q, hj, hm⟩ := joinRuns_cons a n r
  rw [State.engine, hj]
  exact lt_of_le_of_lt (le_max_left ..) (lt_portRuns _ _ _ _ _ _ (by omega))
theorem engine_streams (l : List (Nat × Nat)) : (s.engine p port cc l).1.streams p = s.streams p := by
  rw [State.engine, State.streams, State.core_modSpd]
  rfl

end

/-! ### Release (R185, R186) -/

/-- Streams and fabric are as they were. -/
def StreamsKept (p : Pos) (s t : State) : Prop := t.streams p = s.streams p ∧ t.net = s.net
theorem StreamsKept.refl {p : Pos} (s : State) : StreamsKept p s s := ⟨rfl, rfl⟩
theorem StreamsKept.trans {p : Pos} {s t v : State} (h : StreamsKept p s t) (h' : StreamsKept p t v) : StreamsKept p s v :=
  ⟨h'.1.trans h.1, h'.2.trans h.2⟩

theorem land_streamsKept (s : State) (p : Pos) (due a : Nat) (bs : List Byte) : StreamsKept p s (s.land p due a bs) := by
  unfold State.land
  split
  · exact .refl s
  · exact ⟨by rw [State.streams, State.core_modCore]; rfl, rfl⟩

theorem countLate_net (s : State) (p : Pos) (st : Stream) (late : Bool) : (s.countLate p st late).net = s.net := by
  unfold State.countLate
  split <;> rfl
/-- A late chunk leaves a mark in its stream and nothing else. -/
theorem countLate_stream {s : State} {p : Pos} {k : Fin 64} {st x : Stream} (hs : s.stream p k = some x) (ho : x.op = st.op) (late : Bool) :
    ∃ b, (s.countLate p st late).stream p k = some { x with late := b } := by
  unfold State.countLate
  split
  · refine ⟨true, (stream_congr (streams_modUt ..) k).trans ?_⟩
    rw [← ho]
    exact stream_modStream (f := fun x => { x with late := true }) hs fun _ => rfl
  · exact ⟨x.late, hs⟩

/-- A stream whose next lines have been released, landing in a cycle. -/
def Stream.released (st : Stream) (n c : Nat) (y : Stream) : Stream :=
  { y with rel := st.rel + n, ring := y.ring.filter fun e => decide (e.1 ≥ st.rel + n), landAt := max y.landAt c }

theorem releaseChunk_runs {s : State} {p : Pos} {k : Fin 64} {st : Stream} (hs : s.stream p k = some st) (cc : Nat) (hn : st.nextOut ≠ []) :
    ∃ c b, cc < c ∧ (s.releaseChunk p st cc).stream p k = some { st.released st.nextOut.length c st with late := b } ∧
      (s.releaseChunk p st cc).net = s.net := by
  unfold State.releaseChunk
  extract_lets ls x s1 s2
  have hx : cc < x.2 := by
    obtain ⟨a, r, hl⟩ := List.exists_cons_of_ne_nil hn
    simp only [x, ls, hl, List.map_cons]
    exact engine_lt _ _ _ _ _ _ _ (by decide)
  have h1 : StreamsKept p s s1 := by
    refine StreamsKept.trans (t := x.1) ⟨engine_streams .., rfl⟩ ?_
    exact foldl_rel (R := StreamsKept p) .refl .trans (fun s n => land_streamsKept s p _ _ _) ls x.1
  have h2 : s2.stream p k = some (st.released ls.length x.2 st) :=
    stream_modStream (f := st.released ls.length x.2) ((stream_congr h1.1 k).trans hs) fun _ => rfl
  obtain ⟨b, hb⟩ := countLate_stream (st := st) h2 rfl (decide (x.2 > st.s + 2048 + cdiv ((st.rel / 16 + 1) * 128) (max st.rate 1) + 8))
  exact ⟨x.2, b, hx, hb, (countLate_net ..).trans h1.2⟩

/-! ### Reading (R179, R186) -/

section
variable {d : Scratch} {st : Stream}

/-- The lines that are read of a list whose first uncorrectable line is n. -/
theorem outLines_of_bad {a b : List Nat} {n : Nat} (ha : ∀ m ∈ a, d.badIn (st.localAt m) 64 = []) (hn : d.badIn (st.localAt n) 64 ≠ []) :
    outLines d st (a ++ n :: b) = (a.map fun m => (m, memRead d.mem (st.localAt m) 64), some n) := by
  induction a with
  | nil => rw [List.nil_append, outLines, if_neg (by simpa using hn)]; rfl
  | cons m r ih =>
    rw [List.cons_append, outLines, if_pos (by simp [ha m]), ih fun x hx => ha x (List.mem_cons_of_mem _ hx)]
    rfl
theorem outLines_of_clean {a : List Nat} (ha : ∀ m ∈ a, d.badIn (st.localAt m) 64 = []) :
    outLines d st a = (a.map fun m => (m, memRead d.mem (st.localAt m) 64), none) := by
  induction a with
  | nil => rfl
  | cons m r ih =>
    rw [outLines, if_pos (by simp [ha m]), ih fun x hx => ha x (List.mem_cons_of_mem _ hx)]
    rfl

end

/-- What an OUT stream becomes once lines have been read: it has asked for their writes, and ends at an uncorrectable line. -/
def Stream.wrote (st : Stream) (r : List (Nat × List Byte) × Option Nat) (now : Nat) (y : Stream) : Stream :=
  let y1 := { y with req := st.req + r.1.length, outst := y.outst ++ r.1.map fun e => (e.1, now) }
  match r.2 with
  | some n => y1.stopAt n .memoryUncorrectable
  | none => y1

theorem wrote_slot (st : Stream) (r : List (Nat × List Byte) × Option Nat) (now : Nat) (y : Stream) : (st.wrote r now y).slot = y.slot := by
  unfold Stream.wrote
  dsimp only
  split
  · exact stopAt_slot ..
  · rfl
theorem wrote_op (st : Stream) (r : List (Nat × List Byte) × Option Nat) (now : Nat) (y : Stream) : (st.wrote r now y).op = y.op := by
  unfold Stream.wrote Stream.stopAt
  dsimp only
  split
  · split <;> rfl
  · rfl
theorem wrote_req (st : Stream) (r : List (Nat × List Byte) × Option Nat) (now : Nat) (y : Stream) : (st.wrote r now y).req = st.req + r.1.length := by
  unfold Stream.wrote Stream.stopAt
  dsimp only
  split
  · split <;> rfl
  · rfl
theorem wrote_stop (st : Stream) {r : List (Nat × List Byte) × Option Nat} {n : Nat} (h : r.2 = some n) (now : Nat) {y : Stream}
    (hy : y.stop = none) : (st.wrote r now y).stop = some (n, .memoryUncorrectable) := by
  simp [Stream.wrote, h, Stream.stopAt, hy]

/-- The write of a line that a stream sends. -/
theorem linePacket_write (s : State) (p : Pos) (st : Stream) (n : Nat) (bs : List Byte) :
    (s.linePacket p st n (some bs)).type = 9 ∧ (s.linePacket p st n (some bs)).write = true ∧ (s.linePacket p st n (some bs)).payload = bs :=
  ⟨(fromCtx_header ..).1, rfl, rfl⟩

section
variable {s : State} {p : Pos} {k : Fin 64} {st : Stream} {cc : Nat} (hc : (s.ut p).cycle ≤ cc) (hs : (s.run p cc).stream p k = some st)
  (ho : st.outDir = true) (hr : st.ready cc = true)
include hc hs ho hr

theorem outChunkRead_of_unsafe (hu : (s.run p cc).streamUnsafe p st = true) :
    exec (.outChunkRead p k cc) s = .next ((s.run p cc).modStream p st.op fun x => x.stopAt st.req .timingUnsafe_) := by
  show execOutChunkRead p k cc s = _
  rw [execOutChunkRead, withStream_of hc hs]
  dsimp only
  rw [if_neg (by simp [ho, hr]), if_pos hu]

/-- An OUT chunk is read up to its first uncorrectable line, and each line read is written. -/
theorem outChunkRead_runs (hu : (s.run p cc).streamUnsafe p st = false) :
    let u := s.run p cc
    let r := outLines (u.core p).spd st (st.run1 st.req)
    ∃ v b qs t, exec (.outChunkRead p k cc) s = .next v ∧ v.stream p k = some { st.wrote r u.now st with late := b } ∧ v.net = u.net ++ qs ∧
      qs.map Packet.unnumbered = (r.1.map fun e => State.linePacket t p st e.1 (some e.2)).map Packet.unnumbered := by
  intro u r
  have hx : exec (.outChunkRead p k cc) s = execOutChunkRead p k cc s := rfl
  rw [execOutChunkRead, withStream_of hc hs] at hx
  dsimp only at hx
  rw [if_neg (by simp [ho, hr]), if_neg (by simp [hu])] at hx
  let ls := st.run1 st.req
  let x := u.engine p 6 cc (ls.map fun k => (st.localAt k, 64))
  let s1 := x.1.modSpd p fun d => d.meetRuns 6 (ls.map fun k => (st.localAt k, 64))
  let s2 := s1.injectAll p (r.1.map fun e => s1.linePacket p st e.1 (some e.2))
  let s3 := s2.modStream p st.op (st.wrote r u.now)
  have h1 : StreamsKept p u s1 := by
    refine ⟨?_, rfl⟩
    rw [State.streams, State.core_modSpd]
    exact engine_streams ..
  have hi : Injected p _ s1 s2 := injectAll_injected ..
  have h3 : s3.stream p k = some (st.wrote r u.now st) :=
    stream_modStream ((stream_congr (hi.streams.trans h1.1) k).trans hs) (wrote_slot st r u.now)
  obtain ⟨b, hb⟩ := countLate_stream (st := st) h3 (wrote_op ..) (decide (x.2 > st.s + cdiv ((st.req / 16 + 1) * 128) (max st.rate 1) + 8))
  obtain ⟨qs, hn, hq⟩ := hi.net
  exact ⟨_, b, qs, s1, hx, hb, (countLate_net ..).trans (hn.trans (by rw [h1.2])), hq⟩

end

/-- Packets that are the same but for their numbers agree in what does not depend on the number. -/
theorem map_eq_of_unnumbered {α : Type} {qs l : List Packet} (h : qs.map Packet.unnumbered = l.map Packet.unnumbered) (f : Packet → α)
    (hf : ∀ q, f q.unnumbered = f q) : qs.map f = l.map f := by
  have hl (l : List Packet) : (l.map Packet.unnumbered).map f = l.map f := by
    rw [List.map_map]
    exact List.map_congr_left fun q _ => hf q
  rw [← hl, h, hl]

/-- The packets that write the lines read. -/
theorem linePackets_write {qs : List Packet} {r : List (Nat × List Byte)} {t : State} {p : Pos} {st : Stream}
    (h : qs.map Packet.unnumbered = (r.map fun e => State.linePacket t p st e.1 (some e.2)).map Packet.unnumbered) :
    qs.length = r.length ∧ (∀ q ∈ qs, q.type = 9 ∧ q.write = true) ∧ qs.map Packet.payload = r.map Prod.snd := by
  have hk := map_eq_of_unnumbered h (fun q => (q.type, q.write)) fun _ => rfl
  have hp := map_eq_of_unnumbered h Packet.payload fun _ => rfl
  rw [List.map_map] at hk hp
  refine ⟨?_, fun q hq => ?_, hp.trans (List.map_congr_left fun e _ => (linePacket_write ..).2.2)⟩
  · simpa using congrArg List.length hk
  · have hm : (q.type, q.write) ∈ qs.map fun q => (q.type, q.write) := List.mem_map_of_mem hq
    rw [hk, List.mem_map] at hm
    obtain ⟨e, -, he⟩ := hm
    obtain ⟨ht, hw, -⟩ := linePacket_write t p st e.1 e.2
    obtain ⟨h1, h2⟩ := Prod.mk.inj he
    exact ⟨h1.symm.trans ht, h2.symm.trans hw⟩

/-! ### Releases whose cycle has come, and the end -/

/-- The next chunk is due: it has lines, all of them have come, and its release cycle is there. -/
theorem dueIn_of {st : Stream} {cc : Nat} (ho : st.outDir = false) (hn : min (chunkEnd st.rel) st.limit - st.rel ≠ 0)
    (hr : ∀ m ∈ List.range' st.rel (min (chunkEnd st.rel) st.limit - st.rel), ∃ e ∈ st.ring, e.1 = m) (hw : st.wait = none)
    (hd : (if st.bulk then st.s else st.s + 2048 + cdiv (st.rel / 16 * 128) st.rate) ≤ cc) : st.dueIn cc = true := by
  have hne : st.nextOut.isEmpty = false := by simpa [Stream.nextOut] using hn
  have hall : (st.nextOut.all fun k => st.ring.any fun e => e.1 == k) = true := by
    simpa [Stream.nextOut] using hr
  rw [Stream.dueIn]
  simp only [ho, hne, hw, hall, hd, decide_true]
  decide

theorem streamChunkRelease_of_due {s : State} {p : Pos} {k : Fin 64} {st : Stream} {cc : Nat} (hc : (s.ut p).cycle ≤ cc)
    (hs : (s.run p cc).stream p k = some st) (hd : st.dueIn cc = true) (hz : ((s.run p cc).core p).spd.zeroing = false) :
    exec (.streamChunkRelease p k cc) s = .next ((s.run p cc).releaseChunk p st cc) := by
  show execStreamChunkRelease p k cc s = _
  rw [execStreamChunkRelease, withStream_of hc hs, if_pos (by simp [hd, hz])]

/-- The status with which a stream ends that has moved its lines. -/
def Stream.endStatus (st : Stream) : Status := match st.stop with | some x => x.2 | none => .done

theorem streamComplete_of_finished {s : State} {p : Pos} {k : Fin 64} {st : Stream} {cc : Nat} {o : MoveOp} (hc : (s.ut p).cycle ≤ cc)
    (hs : (s.run p cc).stream p k = some st) (ho : ((s.run p cc).slot p k).op = some o) (hi : o.id = st.op) (hn : o.outcome = none)
    (hf : st.finished cc = true) (ha : o.cancelled = false ∨ st.outst = []) :
    exec (.streamComplete p k cc) s = .next ((s.run p cc).endOp p k st.endStatus) := by
  have hg : (o.id == st.op && o.outcome.isNone && st.finished cc && (!o.cancelled || st.outst.isEmpty)) = true := by
    rcases ha with ha | ha <;> simp [hi, hn, hf, ha]
  show execStreamComplete p k cc s = _
  rw [execStreamComplete, withStream_of hc hs]
  simp only [ho, hg, if_true]
  rfl

theorem streamChunks_hold : Rules.StreamChunks := by
  intro p k cc s st u ls hc hs
  refine ⟨fun ho hw hr => ⟨fun hm hu => ?_, fun hm hu => ?_, fun hm => ?_⟩, fun hw hr hm hu => ?_, fun ho hn hring hw hz hd => ?_,
    fun ho hr hu => outChunkRead_of_unsafe hc hs ho hr hu, fun ho hr hu hcl => ?_, fun a n b ho hr hu hst hls ha hn => ?_,
    fun o ho hi hn hf ha => streamComplete_of_finished hc hs ho hi hn hf ha⟩
  · obtain ⟨hv, hl, hh⟩ := askLines_runs hs hu ls
    exact ⟨_, _, (streamChunkRequest_eq hc hs ho hw hr).trans (congrArg _ (if_pos hm)), hv, rfl, rfl, hl, hh⟩
  · rw [streamChunkRequest_eq hc hs ho hw hr, if_pos hm, askLines_of_unsafe hu]
  · exact (streamChunkRequest_eq hc hs ho hw hr).trans (congrArg _ (if_neg (ne_true_of_eq_false hm)))
  · obtain ⟨hv, hl, -⟩ := askLines_runs hs hu ls
    exact ⟨_, _, streamRingReserve_of_room hc hs hw hr hm, hv, rfl, rfl, hl⟩
  · have hne : st.nextOut ≠ [] := by simpa [Stream.nextOut] using hn
    obtain ⟨c, b, hlt, hv, hnet⟩ := releaseChunk_runs hs cc hne
    refine ⟨_, _, streamChunkRelease_of_due hc hs (dueIn_of ho hn hring hw hd) hz, hv, ?_, fun e he => ?_, lt_of_lt_of_le hlt (le_max_right ..), hnet⟩
    · simp [Stream.released, Stream.nextOut]
    · simpa [Stream.nextOut] using (List.mem_filter.mp he).2
  · obtain ⟨v, b, qs, t, hx, hv, hq, hm⟩ := outChunkRead_runs hc hs ho hr hu
    rw [outLines_of_clean hcl] at hv hm
    obtain ⟨hl, ht, hp⟩ := linePackets_write hm
    refine ⟨v, _, qs, hx, hv, (wrote_req ..).trans (by rw [List.length_map]), hq, hl.trans (List.length_map _), ht, hp.trans ?_⟩
    rw [List.map_map]
    rfl
  · obtain ⟨v, c, qs, t, hx, hv, hq, hm⟩ := outChunkRead_runs hc hs ho hr hu
    rw [show st.run1 st.req = a ++ n :: b from hls, outLines_of_bad ha hn] at hv hm
    obtain ⟨hl, -⟩ := linePackets_write hm
    refine ⟨v, _, hx, hv, (wrote_req ..).trans (by rw [List.length_map]), wrote_stop st rfl _ hst, ?_⟩
    rw [hq, List.length_append, hl, List.length_map]

/-- Settles O24: the ends of moves, the pages that streams enter, and their chunks. -/
theorem streamsRun : Obligations.StreamsRun := ⟨moveCompletions_hold, streamPageEntry_holds, streamChunks_hold⟩

end Sys2Proof.Machine
end

section
/-! PROOFS. Tables and memories (O56): reading after a store at its key and beside it, what a store of the default leaves, equality of canonical
tables, and the same of the bytes of a memory. -/

namespace Sys2Proof.Machine

open Sys2Proof

/-! ### Tables -/

section
variable {α : Type} {d : α}

theorem tblGet_of_unlisted {t : Tbl α} {k : Nat} (h : ∀ e ∈ t, e.1 ≠ k) : tblGet d t k = d := by
  induction t with
  | nil => rfl
  | cons e r ih =>
    rw [tblGet, if_neg (h e (by simp)).symm, ih fun x hx => h x (by simp [hx])]

variable [DecidableEq α]

theorem tblWf_cons {k : Nat} {v : α} {r : Tbl α} : tblWf d ((k, v) :: r) = true ↔ v ≠ d ∧ tblAbove k r = true ∧ tblWf d r = true := by
  simp [tblWf, and_assoc]

theorem lt_of_tblAbove {t : Tbl α} {k : Nat} (hw : tblWf d t = true) (ha : tblAbove k t = true) : ∀ e ∈ t, k < e.1 := by
  induction t generalizing k with
  | nil => simp
  | cons c r ih =>
    obtain ⟨-, hr, hwr⟩ := tblWf_cons.mp hw
    have hk : k < c.1 := by simpa [tblAbove] using ha
    simpa [hk] using fun a b h => lt_trans hk (ih hwr hr (a, b) h)

theorem tblGet_tblPut_of_ne (v : α) (t : Tbl α) {k j : Nat} (h : j ≠ k) : tblGet d (tblPut d t k v) j = tblGet d t j := by
  induction t with
  | nil => by_cases hv : v = d <;> simp [tblPut, tblGet, hv, h]
  | cons c r ih =>
    rw [tblPut]
    split_ifs with hlt hv heq hv
    · rfl
    · rw [tblGet, if_neg h]
    · rw [tblGet, if_neg (heq ▸ h)]
    · rw [tblGet, tblGet, if_neg h, if_neg (heq ▸ h)]
    · rw [tblGet, tblGet, ih]

theorem tblPut_default_unlisted {t : Tbl α} {k : Nat} (h : tblWf d t = true) : ∀ e ∈ tblPut d t k d, e.1 ≠ k := by
  induction t with
  | nil => simp [tblPut]
  | cons c r ih =>
    obtain ⟨-, ha, hr⟩ := tblWf_cons.mp h
    have above := lt_of_tblAbove hr ha
    rw [tblPut, if_pos rfl, if_pos rfl]
    split_ifs with hlt heq
    · intro e he
      rcases List.mem_cons.mp he with rfl | he
      · exact hlt.ne'
      · exact (lt_trans hlt (above e he)).ne'
    · exact fun e he => (heq ▸ above e he).ne'
    · intro e he
      rcases List.mem_cons.mp he with rfl | he
      · exact Ne.symm heq
      · exact ih hr e he

theorem tblGet_tblPut_same {t : Tbl α} (h : tblWf d t = true) (k : Nat) (v : α) : tblGet d (tblPut d t k v) k = v := by
  by_cases hv : v = d
  · subst hv
    exact tblGet_of_unlisted (tblPut_default_unlisted h)
  · exact tblGet_tblPut hv t k

/-- The first key of a canonical table is the least at which it differs from the default. -/
theorem tblGet_head {k : Nat} {v : α} {r : Tbl α} (h : tblWf d ((k, v) :: r) = true) : tblGet d ((k, v) :: r) k ≠ d ∧
    ∀ j < k, tblGet d ((k, v) :: r) j = d := by
  obtain ⟨hv, ha, hr⟩ := tblWf_cons.mp h
  refine ⟨by simpa [tblGet] using hv, fun j hj => tblGet_of_unlisted fun e he => ?_⟩
  rcases List.mem_cons.mp he with rfl | he
  · exact hj.ne'
  · exact (lt_trans hj (lt_of_tblAbove hr ha e he)).ne'

theorem tbl_ext {t u : Tbl α} (ht : tblWf d t = true) (hu : tblWf d u = true) (h : ∀ k, tblGet d t k = tblGet d u k) : t = u := by
  induction t generalizing u with
  | nil =>
    cases u with
    | nil => rfl
    | cons e r => exact absurd (h e.1).symm (tblGet_head hu).1
  | cons c r ih =>
    cases u with
    | nil => exact absurd (h c.1) (tblGet_head ht).1
    | cons e q =>
      obtain ⟨k, v⟩ := c
      obtain ⟨j, w⟩ := e
      obtain ⟨htk, htl⟩ := tblGet_head ht
      obtain ⟨huj, hul⟩ := tblGet_head hu
      have hkj : k = j := le_antisymm (not_lt.mp fun hl => huj (h j ▸ htl j hl)) (not_lt.mp fun hl => htk (h k ▸ hul k hl))
      subst hkj
      obtain ⟨-, har, hr⟩ := tblWf_cons.mp ht
      obtain ⟨-, haq, hq⟩ := tblWf_cons.mp hu
      have hv : v = w := by simpa [tblGet] using h k
      have hrq : r = q := ih hr hq fun i => by
        by_cases hi : i = k
        · subst hi
          rw [tblGet_of_unlisted fun e he => (lt_of_tblAbove hr har e he).ne', tblGet_of_unlisted fun e he => (lt_of_tblAbove hq haq e he).ne']
        · simpa [tblGet, hi] using h i
      rw [hv, hrq]

end

theorem tables_hold : Rules.Tables := by
  intro α _ d v t k j h
  refine ⟨tblGet_tblPut_same h k v, tblGet_tblPut_of_ne v t, ?_⟩
  rintro rfl
  exact tblPut_default_unlisted h

/-! ### Memories -/

theorem memGet_memWrite_outside (m : Mem) {a b : Nat} {bs : List Byte} (h : b < a ∨ a + bs.length ≤ b) :
    memGet (memWrite m a bs) b = memGet m b := by
  induction bs generalizing m a with
  | nil => rfl
  | cons x r ih =>
    simp only [List.length_cons] at h
    rw [memWrite, ih _ (by omega)]
    exact tblGet_tblPut_of_ne x m (by omega)

theorem memRead_memWrite {m : Mem} (h : Memory.wf m = true) (a : Nat) (bs : List Byte) : memRead (memWrite m a bs) a bs.length = bs := by
  induction bs generalizing m a with
  | nil => rfl
  | cons x r ih =>
    rw [memWrite, List.length_cons, memRead, ih (memPut_wf a x h), memGet_memWrite_outside _ (Or.inl (Nat.lt_succ_self a))]
    exact congrArg (· :: r) (tblGet_tblPut_same h a x)

theorem memZero_eq (m : Mem) (a n : Nat) : memZero m a n = m.filter fun e => !decide (a ≤ e.1 ∧ e.1 < a + n) :=
  List.filter_congr fun e _ => by
    rw [Bool.eq_iff_iff]
    simp only [Bool.or_eq_true, Bool.not_eq_true', decide_eq_true_eq, decide_eq_false_iff_not]
    omega

theorem memGet_memZero (m : Mem) (a n c : Nat) : memGet (memZero m a n) c = if a ≤ c ∧ c < a + n then 0 else memGet m c := by
  rw [memZero_eq, memGet, tblGet_filter 0 fun k => decide (a ≤ k ∧ k < a + n)]
  simp only [decide_eq_true_eq]
  rfl

theorem memoryLaws_hold : Rules.MemoryLaws := fun m _ a b bs h =>
  ⟨memRead_memWrite h a bs, memGet_memWrite_outside m, memGet_memZero m a b, fun hn => tbl_ext h hn⟩

/-- Settles O56: reads after stores, and tables determined by what they answer. -/
theorem tablesAndMemory : Obligations.TablesAndMemory := ⟨tables_hold, memoryLaws_hold⟩

end Sys2Proof.Machine
end

section
/-! PROOFS. STRM at issue (O20): the descriptor that it reads, and the stream that joins the move unit. -/

namespace Sys2Proof.Machine

open Sys2Proof

/-! ### The descriptor (R163, R179) -/

section
variable {i : Issue} {t u : State}

/-- A read of clean words leaves the move unit, the results in flight and the fabric as they are. -/
theorem readSpd_kept {k : SlotK} {c : Core} {f : Vector Nat 8} {port cc a n : Nat} {bs : List Byte} (hu : t.core i.pos = c.portsTaken f)
    (h : t.readSpd i k port cc a n = (u, some bs)) : (u.core i.pos).mov = c.mov ∧ (u.core i.pos).pend = c.pend ∧ u.net = t.net := by
  by_cases hb : (c.spdAt cc).badIn a n = []
  · rw [readSpd_of_clean hu hb] at h
    obtain ⟨rfl, -⟩ := Prod.mk.inj h
    rw [State.core_modSpd, hu]
    exact ⟨rfl, rfl, rfl⟩
  · obtain ⟨v, hv, -⟩ := readSpd_of_bad (k := k) (port := port) hu hb
    rw [hv] at h
    cases h

theorem xDesc_kept {d : List Byte} (h : t.xDesc i = (u, some d)) :
    (u.core i.pos).mov = (t.core i.pos).mov ∧ (u.core i.pos).pend = (t.core i.pos).pend ∧ u.net = t.net := by
  obtain ⟨f, hf⟩ := access_core t i.pos 6 i.cc [((t.rA i (xA (xw i))).toNat, 64)]
  exact readSpd_kept (t := (t.access i.pos 6 i.cc [((t.rA i (xA (xw i))).toNat, 64)]).1) hf h

theorem xDesc_fault (h : t.xDesc i = (u, none)) : (u.core i.pos).ctl.fault.code = 0x10 ∧ (u.core i.pos).ctl.fault.slots = 8 := by
  let a := (t.rA i (xA (xw i))).toNat
  let x := t.access i.pos 6 i.cc [(a, 64)]
  obtain ⟨f, hf⟩ := access_core t i.pos 6 i.cc [(a, 64)]
  by_cases hb : ((t.core i.pos).spdAt (i.cc + x.2.1)).badIn a 64 = []
  · rw [State.xDesc, readSpd_of_clean hf hb] at h
    cases h
  · obtain ⟨v, hv, he⟩ := readSpd_of_bad (k := .x) (port := 6) hf hb
    rw [State.xDesc, hv] at h
    obtain ⟨rfl, -⟩ := Prod.mk.inj h
    exact ⟨he.code, he.slots⟩

end

/-! ### Requests for the chart (R202) -/

/-- Requests that no slot holds leave of the core all but its next operation number. -/
theorem askChart_core (s : State) (p : Pos) (l : List Nat) : ∃ n, (s.askChart p l).core p =
    { s.core p with mov := { (s.core p).mov with nextOp := n } } := by
  refine foldl_rel (R := fun s t : State => ∃ n, t.core p = { s.core p with mov := { (s.core p).mov with nextOp := n } })
    (f := fun s n => s.askPage p n) (fun _ => ⟨_, rfl⟩) ?_ ?_ l s
  · rintro s t u ⟨m, hm⟩ ⟨n, hn⟩
    exact ⟨n, by rw [hn, hm]⟩
  · intro s n
    unfold State.askPage
    split
    · exact ⟨_, rfl⟩
    · split
      · exact ⟨_, rfl⟩
      · exact ⟨_, by rw [State.lineAsked, State.core_modUt, State.lineAsk, ask_core]⟩

/-! ### The stream that starts (R181, R182) -/

/-- The operation that a move instruction starts under the next number. -/
def xOp (i : Issue) (k : MoveKind) : MoveOp := newOp k i.ctx i.idx (xChOpt (xw i))

/-- A STRM whose stream joins those of the move unit. -/
def State.streamStarted (u : State) (i : Issue) (st : Stream) : State :=
  ((u.startOp i.pos (xSlot (xw i)) (xOp i .stream)).modMov i.pos fun m => { m with streams := m.streams ++ [st] }).askChart i.pos (st.ahead 64 0)

section
variable {i : Issue} {t u : State} (hf : (t.slot i.pos (xSlot (xw i))).busy = false)

theorem streamStarted_core (u : State) (i : Issue) (st : Stream) : ∃ n, (u.streamStarted i st).core i.pos =
    { u.core i.pos with mov := { (u.core i.pos).mov with
      slots := vmod (u.core i.pos).mov.slots (xSlot (xw i)) fun c => { c with busy := true, op := some ((xOp i .stream).numbered u i.pos) }
      streams := (u.core i.pos).mov.streams ++ [st], nextOp := n } } := by
  obtain ⟨n, hn⟩ := askChart_core ((u.startOp i.pos (xSlot (xw i)) (xOp i .stream)).modMov i.pos fun m => { m with streams := m.streams ++ [st] })
    i.pos (st.ahead 64 0)
  exact ⟨n, by rw [State.streamStarted, hn, core_modMov, startOp_core]⟩

theorem streamStarted_slot (u : State) (i : Issue) (st : Stream) : (u.streamStarted i st).slot i.pos (xSlot (xw i)) =
    { u.slot i.pos (xSlot (xw i)) with busy := true, op := some ((xOp i .stream).numbered u i.pos) } := by
  obtain ⟨n, hn⟩ := streamStarted_core u i st
  rw [State.slot, hn]
  exact vmod_get_same _ _ _

theorem streamStarted_net (u : State) (i : Issue) (st : Stream) :
    ∃ qs, (u.streamStarted i st).net = u.net ++ qs ∧ ∀ q ∈ qs, q.chartRead := (askChart_asked _ i.pos (st.ahead 64 0)).net

include hf

theorem effStrm_of_fault (h : t.xDesc i = (u, none)) : effStrm i t = u := by
  rw [effStrm, withSlot_of_free hf]
  simp only [h]

theorem effStrm_of_desc {d : List Byte} (h : t.xDesc i = (u, some d)) : effStrm i t =
    let st := streamOf i (t.opNo i.pos) (t.ut i.pos).tick d
    if streamBad (t.lastPound i.pos) st d then u.xEnd i .illegalDescriptor
    else if st.lines = 0 then u.xEnd i .done else u.streamStarted i st := by
  have hn : u.opNo i.pos = t.opNo i.pos := congrArg MoveUnit.nextOp (xDesc_kept h).1
  rw [effStrm, withSlot_of_free hf]
  simp only [h, hn]
  rfl

end

theorem lines_eq_zero_iff (st : Stream) : st.lines = 0 ↔ st.rowBytes * st.rows < 64 := by
  rw [Stream.lines, Nat.div_eq_zero_iff, Nat.mul_comm]
  simp

theorem streamIssue_holds : Rules.StreamIssue := by
  intro i s t u hi k hf
  have he : exec (.strm i) s = .next (effStrm i t) := exec_of_issues (fun _ _ => rfl) hi
  refine ⟨fun h => ⟨by rw [he, effStrm_of_fault hf h], xDesc_fault h⟩, fun d h => ?_⟩
  intro st bad
  rw [effStrm_of_desc hf h] at he
  refine ⟨fun hb => he.trans (congrArg _ (if_pos hb)), fun hb hl => ?_, fun hb hl => ?_⟩
  · have h0 : st.lines = 0 := (lines_eq_zero_iff st).mpr hl
    exact he.trans (congrArg _ ((if_neg (ne_true_of_eq_false hb)).trans (if_pos h0)))
  · have h0 : st.lines ≠ 0 := mt (lines_eq_zero_iff st).mp (not_lt.mpr hl)
    obtain ⟨hm, hp, hn⟩ := xDesc_kept h
    obtain ⟨n, hc⟩ := streamStarted_core u i st
    have hk := streamStarted_slot u i st
    obtain ⟨qs, hnet, hq⟩ := streamStarted_net u i st
    refine ⟨_, (xOp i .stream).numbered u i.pos, he.trans (congrArg _ ((if_neg (ne_true_of_eq_false hb)).trans (if_neg h0))),
      congrArg Slot.busy hk, congrArg Slot.op hk, rfl, rfl, congrArg MoveUnit.nextOp hm, by rw [hc], rfl, rfl,
      lt_of_lt_of_le (Nat.lt_succ_self i.cc) (le_max_right ..), ⟨qs, hnet.trans (by rw [hn]), fun q hx => ?_⟩, by rw [hc, hp]⟩
    obtain ⟨h9, hw, -⟩ := hq q hx
    exact ⟨h9, hw⟩

end Sys2Proof.Machine
end

section
/-! PROOFS. RWR and RRD at issue (O20): how a transfer is cut, how many bytes a port reads, the slot of an operation whose requests enter the
fabric, and the requests themselves. -/

namespace Sys2Proof.Machine

open Sys2Proof

/-! ### Pieces of a transfer (R253) -/

theorem pieces_succ {a n o : Nat} (h : o ≤ n) (f : Nat) : pieces a n (f + 1) o =
    if n - o ≤ 4096 - (a + o) % 4096 then [(o, n - o)] else (o, 4096 - (a + o) % 4096) :: pieces a n f (o + (4096 - (a + o) % 4096)) := by
  rw [pieces]
  by_cases hm : n - o ≤ 4096 - (a + o) % 4096
  · simp only [min_eq_right hm, if_pos hm]
    exact if_pos (by omega)
  · simp only [min_eq_left (not_le.mp hm).le, if_neg hm]
    exact if_neg (by omega)

/-- The pieces from an offset on: a piece that reaches the end is the last one, any other ends at a 4 KiB boundary of the address. -/
theorem pieces_induction {a n : Nat} {motive : Nat → List (Nat × Nat) → Prop}
    (last : ∀ o ≤ n, (a + o) % 4096 + (n - o) ≤ 4096 → motive o [(o, n - o)])
    (more : ∀ o r, o + (4096 - (a + o) % 4096) < n → motive (o + (4096 - (a + o) % 4096)) r → motive o ((o, 4096 - (a + o) % 4096) :: r)) :
    motive 0 (piecesOf a n) := by
  have run (f : Nat) : ∀ o ≤ n, (a + o) % 4096 + (n - o) ≤ 4096 * (f + 1) → motive o (pieces a n (f + 1) o) := by
    induction f with
    | zero =>
      intro o ho hf
      rw [pieces_succ ho, if_pos (by omega)]
      exact last o ho (by omega)
    | succ f ih =>
      intro o ho hf
      rw [pieces_succ ho]
      split_ifs with h
      · exact last o ho (by omega)
      · exact more o _ (by omega) (ih _ (by omega) (by omega))
  exact run (n / 4096 + 1) 0 (Nat.zero_le n) (by omega)

theorem piecesOf_length (a n : Nat) : (piecesOf a n).length = (a % 4096 + max n 1 + 4095) / 4096 := by
  refine pieces_induction (a := a) (motive := fun o l => l.length = ((a + o) % 4096 + max (n - o) 1 + 4095) / 4096) ?_ ?_
  · intro o ho h
    simp only [List.length_singleton]
    omega
  · intro o r h ih
    simp only [List.length_cons, ih]
    omega

theorem piecesOf_le {a n : Nat} : ∀ e ∈ piecesOf a n, e.2 ≤ 4096 :=
  pieces_induction (motive := fun _ l => ∀ e ∈ l, e.2 ≤ 4096) (fun _ _ h => by simpa using by omega) fun _ _ _ ih =>
    List.forall_mem_cons.mpr ⟨Nat.sub_le .., ih⟩

theorem piecesOf_sum (a n : Nat) : ((piecesOf a n).map Prod.snd).sum = n := by
  refine pieces_induction (motive := fun o l => (l.map Prod.snd).sum = n - o) (fun _ _ _ => by simp) fun o r h ih => ?_
  rw [List.map_cons, List.sum_cons, ih]
  omega

/-- The pieces of a byte string are the string. -/
theorem piecesOf_flatMap {α : Type} (a : Nat) (bs : List α) : ((piecesOf a bs.length).flatMap fun e => (bs.drop e.1).take e.2) = bs := by
  refine pieces_induction (motive := fun o l => (l.flatMap fun e => (bs.drop e.1).take e.2) = bs.drop o) (fun o _ _ => ?_) fun o r h ih => ?_
  · simp
  · rw [List.flatMap_cons, ih, ← List.drop_drop, List.take_append_drop]

/-! ### The bytes that a port reads (R146) -/

theorem memRead_length (m : Mem) (a n : Nat) : (memRead m a n).length = n := by
  induction n generalizing a with
  | zero => rfl
  | succ n ih => rw [memRead, List.length_cons, ih]

theorem portRead_length (c : Core) (t a n : Nat) : (c.portRead t a n).length = n := by
  have run : ∀ k, ((List.range k).flatMap fun j => memRead (c.spdAt (t + j)).mem (max a (1024 * (a / 1024 + j)))
      (min (a + n) (1024 * (a / 1024 + j + 1)) - max a (1024 * (a / 1024 + j)))).length = min (a + n) (1024 * (a / 1024 + k)) - a := by
    intro k
    induction k with
    | zero => simp; omega
    | succ k ih =>
      rw [List.range_succ, List.flatMap_append, List.length_append, ih, List.flatMap_singleton, memRead_length]
      omega
  rw [Core.portRead, run, chunksOf]
  split <;> omega

/-! ### The slot of an operation whose requests enter the fabric (R265) -/

/-- A slot after the operation with a number has changed, which it may hold. -/
theorem modOp_slot (s : State) (p : Pos) (k : Fin 64) (n : Nat) (f : MoveOp → MoveOp) : (s.modOp p n f).slot p k =
    { s.slot p k with op := (s.slot p k).op.map fun o => if o.id = n && o.outcome.isNone then f o else o } := by
  rw [State.slot, State.modOp, core_modMov]
  simp [State.slot]
/-- A change that touches at most what an operation counts against the window. -/
theorem modOp_slot_vc2 {s : State} {p : Pos} {k : Fin 64} {o : MoveOp} (h : (s.slot p k).op = some o) (n : Nat) {f : MoveOp → MoveOp} {m : Nat}
    (hf : f o = { o with vc2 := m }) : ∃ m, (s.modOp p n f).slot p k = { s.slot p k with op := some { o with vc2 := m } } := by
  rw [modOp_slot, h, Option.map_some]
  split
  · exact ⟨m, by rw [hf]⟩
  · exact ⟨o.vc2, rfl⟩

/-- A request on VC2 is counted in the operation that sends it; the slot is otherwise as it was. -/
theorem inject_slot {s : State} {p : Pos} {k : Fin 64} {o : MoveOp} (h : (s.slot p k).op = some o) (q : Packet) :
    ∃ n, (s.inject p q).slot p k = { s.slot p k with op := some { o with vc2 := n } } := by
  have same : s.slot p k = { s.slot p k with op := some { o with vc2 := o.vc2 } } := by rw [← h]
  unfold State.inject
  extract_lets s1
  split_ifs
  · exact ⟨o.vc2, same⟩
  · exact modOp_slot_vc2 (s := s1) h q.opId rfl
  · exact ⟨o.vc2, by rw [State.slot, State.modMesh, State.core_modUt]; exact same⟩

theorem injectAll_slot {p : Pos} {k : Fin 64} (qs : List Packet) {s : State} {o : MoveOp} (h : (s.slot p k).op = some o) :
    ∃ n, (s.injectAll p qs).slot p k = { s.slot p k with op := some { o with vc2 := n } } := by
  induction qs generalizing s o with
  | nil => exact ⟨o.vc2, by rw [← h]; rfl⟩
  | cons q r ih =>
    obtain ⟨m, hm⟩ := inject_slot h q
    obtain ⟨n, hn⟩ := ih (s := s.inject p q) (congrArg Slot.op hm)
    exact ⟨n, hn.trans (by rw [hm])⟩

end Sys2Proof.Machine
end

section
/-! PROOFS. The requests of RWR and RRD (O20), and what the instructions do in a free slot. -/

namespace Sys2Proof.Machine

open Sys2Proof

/-! ### Operations that send requests (R161, R233) -/

theorem startOp_net (s : State) (p : Pos) (k : Fin 64) (o : MoveOp) : (s.startOp p k o).net = s.net := rfl

/-- An operation that starts in a slot and sends its requests. -/
theorem startedRequests (s : State) (p : Pos) (k : Fin 64) (o : MoveOp) (qs : List Packet) :
    ∃ n xs, ((s.startOp p k o).injectAll p qs).slot p k = { s.slot p k with busy := true, op := some { o.numbered s p with vc2 := n } } ∧
      ((s.startOp p k o).injectAll p qs).net = s.net ++ xs ∧ xs.map Packet.unnumbered = qs.map Packet.unnumbered := by
  have hk := startOp_slot s p k o
  obtain ⟨n, hn⟩ := injectAll_slot qs (congrArg Slot.op hk)
  obtain ⟨xs, hx, hq⟩ := (injectAll_injected qs (s.startOp p k o) p).net
  exact ⟨n, xs, hn.trans (by rw [hk]), hx, hq⟩

/-- What holds of packets whatever their numbers holds of the same packets under other numbers. -/
theorem forall_of_unnumbered {P : Packet → Prop} {qs l : List Packet} (h : qs.map Packet.unnumbered = l.map Packet.unnumbered)
    (hP : ∀ q, P q.unnumbered = P q) (hl : ∀ q ∈ l, P q) : ∀ q ∈ qs, P q := by
  intro q hq
  have hm : P q ∈ l.map P := map_eq_of_unnumbered h P hP ▸ List.mem_map_of_mem hq
  obtain ⟨x, hx, he⟩ := List.mem_map.mp hm
  exact he ▸ hl x hx

theorem map_mapIdx_eq {α β γ : Type} {f : Nat → α → β} {g : β → γ} {h : α → γ} (hf : ∀ j e, g (f j e) = h e) (l : List α) :
    (l.mapIdx f).map g = l.map h := by
  refine List.ext_getElem? fun j => ?_
  rw [List.getElem?_map, List.getElem?_mapIdx, List.getElem?_map, Option.map_map]
  exact congrFun (congrArg _ (funext (hf j))) _

/-! ### The operands -/

/-- The panel address that a remote access names, its length and its local address. -/
def xFar (i : Issue) (t : State) : Word := t.rS i (xA (xw i))
def xLen (i : Issue) (t : State) : Nat := fld (t.rS i (xC (xw i))) 0 32
def xNear (i : Issue) (t : State) : Nat := (t.rA i (xB (xw i))).toNat

theorem addrLt_ofNat (a : Word) : (BitVec.ofNat 8 (addrLt a)).toNat = addrLt a := by
  have h : addrLt a < 2 ^ 7 := BitVec.isLt _
  rw [BitVec.toNat_ofNat, Nat.mod_eq_of_lt (by omega)]

/-! ### RWR (R164, R179, R233) -/

/-- The access that reads the source of a RWR. -/
def rwrAccess (i : Issue) (t : State) : State × Nat × Nat := t.access i.pos 6 i.cc [(xNear i t, xLen i t)]
/-- The state once the source has been read. -/
def rwrRead (i : Issue) (t : State) : State := (rwrAccess i t).1.modSpd i.pos fun d => d.meet 6 (xNear i t) (xLen i t)
/-- How many bytes are sent, and which. -/
def rwrClean (i : Issue) (t : State) : Nat := ((t.core i.pos).spdAt (i.cc + (rwrAccess i t).2.1)).cleanPrefix (xNear i t) (xLen i t)
def rwrBytes (i : Issue) (t : State) : List Byte := (t.core i.pos).portRead (i.cc + (rwrAccess i t).2.1) (xNear i t) (rwrClean i t)
/-- The status of a RWR that sends what it has read. -/
def rwrStatus (i : Issue) (t : State) : Status := if rwrClean i t < xLen i t then .memoryUncorrectable else .done
/-- What every request of a RWR holds. -/
def rwrBase (i : Issue) (t : State) : Packet := { (rwrRead i t).fromCtx i.pos i.ctx 3 (t.vcOf i.pos i.ctx) with
  dest := BitVec.ofNat 8 (addrLt (xFar i t)), slot := BitVec.ofNat 6 (xSlot (xw i)).val, win := (t.rS i (xC (xw i))).extractLsb' 32 8
  gen := (t.rS i (xC (xw i))).extractLsb' 40 16, opId := (rwrRead i t).opNo i.pos }
def rwrRequests (i : Issue) (t : State) : List Packet := rwrPackets (rwrBase i t) (xFar i t) (xLen i t) (rwrClean i t) (rwrBytes i t)
/-- The operation of a RWR that waits for its answers. -/
def rwrOp (i : Issue) (t : State) : MoveOp :=
  { xOp i .write with left := (rwrRequests i t).length, worst := rwrStatus i t, toLt := BitVec.ofNat 8 (addrLt (xFar i t)) }

theorem rwrPackets_payload (b : Packet) (dest : Word) (n : Nat) (bytes : List Byte) :
    (rwrPackets b dest n bytes.length bytes).flatMap Packet.payload = bytes := by
  rw [rwrPackets, List.flatMap_def, map_mapIdx_eq (h := fun e => (bytes.drop e.1).take e.2) fun _ _ => rfl, ← List.flatMap_def]
  exact piecesOf_flatMap (addrOff dest) bytes

theorem rwrPackets_header {b : Packet} {dest : Word} {n m : Nat} {bytes : List Byte} {q : Packet} (h : q ∈ rwrPackets b dest n m bytes) :
    q.type = b.type ∧ q.vc = b.vc ∧ q.dest = b.dest ∧ q.win = b.win ∧ q.gen = b.gen ∧ q.total = n ∧ q.payload.length ≤ 4096 := by
  obtain ⟨j, hj, rfl⟩ := List.mem_mapIdx.mp h
  exact ⟨rfl, rfl, rfl, rfl, rfl, rfl, (List.length_take_le ..).trans (piecesOf_le _ (List.getElem_mem hj))⟩

theorem rwrRequests_length (i : Issue) (t : State) :
    (rwrRequests i t).length = (addrOff (xFar i t) % 4096 + max (rwrClean i t) 1 + 4095) / 4096 :=
  (List.length_mapIdx ..).trans (piecesOf_length ..)

theorem rwrRequests_payload (i : Issue) (t : State) : (rwrRequests i t).flatMap Packet.payload = rwrBytes i t := by
  have hl : (rwrBytes i t).length = rwrClean i t := portRead_length ..
  rw [rwrRequests, ← hl]
  exact rwrPackets_payload ..

section
variable {i : Issue} {t : State} (hf : (t.slot i.pos (xSlot (xw i))).busy = false)
include hf

theorem effRwr_of_bad (h : addrClass (xFar i t) ≠ 0 ∨ fld (t.rS i (xC (xw i))) 56 8 ≠ 0) : effRwr i t = t.xEnd i .illegalDescriptor := by
  rw [effRwr, withSlot_of_free hf]
  exact if_pos (by simpa [xFar] using h)

variable (hc : addrClass (xFar i t) = 0) (hr : fld (t.rS i (xC (xw i))) 56 8 = 0)
include hc hr

theorem effRwr_of_unsafe (h : t.timingUnsafe i.pos (t.vcOf i.pos i.ctx) (addrLt (xFar i t)) = true) : effRwr i t = t.xEnd i .timingUnsafe_ := by
  rw [effRwr, withSlot_of_free hf]
  exact (if_neg (by simpa [xFar] using ⟨hc, hr⟩)).trans (if_pos h)

variable (hu : t.timingUnsafe i.pos (t.vcOf i.pos i.ctx) (addrLt (xFar i t)) = false)
include hu

theorem effRwr_of_nothing (h : rwrClean i t = 0 ∧ 0 < xLen i t) : effRwr i t =
    (rwrRead i t).startOp i.pos (xSlot (xw i)) { xOp i .write with outcome := some (rwrStatus i t) } := by
  rw [effRwr, withSlot_of_free hf]
  exact (if_neg (by simpa [xFar] using ⟨hc, hr⟩)).trans ((if_neg (ne_true_of_eq_false hu)).trans (if_pos h))

theorem effRwr_of_some (h : ¬(rwrClean i t = 0 ∧ 0 < xLen i t)) : effRwr i t =
    ((rwrRead i t).startOp i.pos (xSlot (xw i)) (rwrOp i t)).injectAll i.pos (rwrRequests i t) := by
  rw [effRwr, withSlot_of_free hf]
  exact (if_neg (by simpa [xFar] using ⟨hc, hr⟩)).trans ((if_neg (ne_true_of_eq_false hu)).trans (if_neg h))

end

/-! ### RRD (R164, R233) -/

/-- What every request of a RRD holds. -/
def rrdBase (i : Issue) (t : State) : Packet :=
  let src := xFar i t
  let isReg := addrClass src == 2
  { t.fromCtx i.pos i.ctx 1 (t.vcOf i.pos i.ctx) with
    dkind := if isReg && addrPosn src then 1 else if isReg && addrLt src == 127 then 2 else 0
    dest := BitVec.ofNat 8 (if isReg && addrPosn src then addrPos src else if isReg && addrLt src == 127 then 1 else addrLt src)
    slot := BitVec.ofNat 6 (xSlot (xw i)).val, opId := t.opNo i.pos }
/-- The pieces that a RRD asks for: a register as a whole. -/
def rrdPieces (i : Issue) (t : State) : List (Nat × Nat) :=
  if addrClass (xFar i t) == 2 then [(0, 8)] else piecesOf (addrOff (xFar i t)) (xLen i t)
def rrdRequests (i : Issue) (t : State) : List Packet :=
  (rrdPieces i t).mapIdx fun j e => { rrdBase i t with
    addr := xFar i t + BitVec.ofNat 64 e.1, seq := BitVec.ofNat 16 j, last := decide (j + 1 = (rrdPieces i t).length), total := e.2
    base := BitVec.ofNat 64 (xNear i t + e.1) }
/-- The operation of a RRD that waits for its answers. -/
def rrdOp (i : Issue) (t : State) : MoveOp :=
  { xOp i .read with left := (rrdRequests i t).length, dst := BitVec.ofNat 26 (xNear i t)
                     toLt := if (rrdBase i t).dkind == 0 then (rrdBase i t).dest else 0xFF }

theorem rrdRequests_length (i : Issue) (t : State) : (rrdRequests i t).length = (rrdPieces i t).length := List.length_mapIdx ..
theorem rrdRequests_total (i : Issue) (t : State) : (rrdRequests i t).map Packet.total = (rrdPieces i t).map Prod.snd := by
  rw [rrdRequests]
  exact map_mapIdx_eq (by intros; rfl) _
theorem fromCtx_payload (s : State) (p : Pos) (x : Ctx) (type : BitVec 4) (vc : BitVec 2) : (s.fromCtx p x type vc).payload = [] := by
  unfold State.fromCtx
  dsimp only
  split <;> rfl
theorem rrdRequests_header {i : Issue} {t : State} {q : Packet} (h : q ∈ rrdRequests i t) :
    q.type = 1 ∧ q.vc = t.vcOf i.pos i.ctx ∧ q.dest = (rrdBase i t).dest ∧ q.payload = [] := by
  obtain ⟨ht, hv⟩ := fromCtx_header t i.pos i.ctx 1 (t.vcOf i.pos i.ctx)
  obtain ⟨j, hj, rfl⟩ := List.mem_mapIdx.mp h
  exact ⟨ht, hv, rfl, fromCtx_payload ..⟩

section
variable {i : Issue} {t : State} (hf : (t.slot i.pos (xSlot (xw i))).busy = false)
include hf

theorem effRrd_of_bad (h : fld (t.rS i (xC (xw i))) 32 32 ≠ 0 ∨ (addrClass (xFar i t) ≠ 0 ∧ ¬(addrClass (xFar i t) = 2 ∧ xLen i t = 8))) :
    effRrd i t = t.xEnd i .illegalDescriptor := by
  rw [effRrd, withSlot_of_free hf]
  exact if_pos (by simpa [xFar, xLen, ← imp_iff_not_or] using h)

variable (hr : fld (t.rS i (xC (xw i))) 32 32 = 0) (hc : addrClass (xFar i t) = 0 ∨ (addrClass (xFar i t) = 2 ∧ xLen i t = 8))
include hr hc

theorem effRrd_of_good : effRrd i t = if t.unsafeRead i.pos (t.vcOf i.pos i.ctx) (xFar i t) then t.xEnd i .timingUnsafe_
    else (t.startOp i.pos (xSlot (xw i)) (rrdOp i t)).injectAll i.pos (rrdRequests i t) := by
  have hg : ¬(decide (fld (t.rS i (xC (xw i))) 32 32 ≠ 0) ||
      !(addrClass (t.rS i (xA (xw i))) == 0 || (addrClass (t.rS i (xA (xw i))) == 2 && fld (t.rS i (xC (xw i))) 0 32 == 8))) = true := by
    simpa [hr, xFar, xLen, or_iff_not_imp_left] using hc
  rw [effRrd, withSlot_of_free hf]
  exact if_neg hg

end

theorem remoteAccessIssue_holds : Rules.RemoteAccessIssue := by
  intro i s t w k c sa sc a n vc x m ends hf
  have rwr (h : Issues .x 0x04 i s t) : exec (.rwr i) s = .next (effRwr i t) := exec_of_issues (fun _ _ => rfl) h
  have rrd (h : Issues .x 0x05 i s t) : exec (.rrd i) s = .next (effRrd i t) := exec_of_issues (fun _ _ => rfl) h
  refine ⟨fun h hb => (rwr h).trans (congrArg _ (effRwr_of_bad hf hb)), fun h hb => (rrd h).trans (congrArg _ (effRrd_of_bad hf hb)),
    fun h hc hr hu => (rwr h).trans (congrArg _ (effRwr_of_unsafe hf hc hr hu)),
    fun h hc hr hu => (rrd h).trans (congrArg _ ((effRrd_of_good hf hr hc).trans (if_pos hu))), fun h hc hr hu => ?_, fun h hc hr hu => ?_,
    fun h hc hn hr hu => ?_⟩
  · by_cases hm : m = 0 ∧ 0 < n
    · have hk := startOp_slot (rwrRead i t) i.pos k { xOp i .write with outcome := some (rwrStatus i t) }
      refine ⟨_, _, [], (rwr h).trans (congrArg _ (effRwr_of_nothing hf hc hr hu hm)), congrArg Slot.busy hk, congrArg Slot.op hk, rfl,
        (List.append_nil _).symm, fun h0 h1 => ⟨rfl, ?_⟩, fun h0 => absurd hm (by omega)⟩
      exact congrArg some (if_pos (show m < n by omega))
    · obtain ⟨v2, qs, hk, hn, hq⟩ := startedRequests (rwrRead i t) i.pos k (rwrOp i t) (rwrRequests i t)
      obtain ⟨hty, hvc⟩ := fromCtx_header (rwrRead i t) i.pos i.ctx 3 (t.vcOf i.pos i.ctx)
      have hl : qs.length = (rwrRequests i t).length := by simpa using congrArg List.length hq
      refine ⟨_, _, qs, (rwr h).trans (congrArg _ (effRwr_of_some hf hc hr hu hm)), congrArg Slot.busy hk, congrArg Slot.op hk, rfl, hn,
        fun h0 h1 => absurd ⟨h0, h1⟩ hm, fun _ => ⟨rfl, hl.symm, rfl, hl.trans (rwrRequests_length i t), ?_, ?_⟩⟩
      · rw [List.flatMap_def, map_eq_of_unnumbered hq Packet.payload fun _ => rfl, ← List.flatMap_def]
        exact rwrRequests_payload i t
      · refine forall_of_unnumbered hq (fun _ => rfl) fun q hx => ?_
        obtain ⟨h1, h2, h3, h4, h5, h6, h7⟩ := rwrPackets_header hx
        exact ⟨h1.trans hty, h2.trans hvc, by rw [h3]; exact addrLt_ofNat sa, h4, h5, h6, h7⟩
  · obtain ⟨v2, qs, hk, hn, hq⟩ := startedRequests t i.pos k (rrdOp i t) (rrdRequests i t)
    have hl : qs.length = (rrdRequests i t).length := by simpa using congrArg List.length hq
    have hreg : (addrClass (xFar i t) == 2) = false := by rw [show addrClass (xFar i t) = 0 from hc]; rfl
    have hp : rrdPieces i t = piecesOf (addrOff sa) n := if_neg (ne_true_of_eq_false hreg)
    refine ⟨_, _, qs, (rrd h).trans (congrArg _ ((effRrd_of_good hf hr (Or.inl hc)).trans (if_neg (ne_true_of_eq_false hu)))),
      congrArg Slot.busy hk, congrArg Slot.op hk, rfl, hl.symm, rfl, hn, ?_, ?_, ?_⟩
    · rw [hl, rrdRequests_length, hp, piecesOf_length]
    · rw [map_eq_of_unnumbered hq Packet.total fun _ => rfl, rrdRequests_total, hp, piecesOf_sum]
    · refine forall_of_unnumbered hq (fun _ => rfl) fun q hx => ?_
      obtain ⟨h1, h2, h3, h4⟩ := rrdRequests_header hx
      refine ⟨h1, h2, ?_, h4⟩
      rw [h3, rrdBase, hreg]
      exact addrLt_ofNat sa
  · obtain ⟨v2, qs, hk, hq0, hq⟩ := startedRequests t i.pos k (rrdOp i t) (rrdRequests i t)
    have hp : rrdPieces i t = [(0, 8)] := if_pos (beq_iff_eq.mpr hc)
    have hl : (rrdRequests i t).length = 1 := by rw [rrdRequests_length, hp]; rfl
    obtain ⟨q, rfl⟩ := List.length_eq_one_iff.mp ((by simpa using congrArg List.length hq : qs.length = _).trans hl)
    have hone : rrdRequests i t = [{ rrdBase i t with
        addr := xFar i t + BitVec.ofNat 64 0, seq := BitVec.ofNat 16 0, last := true, total := 8, base := BitVec.ofNat 64 (xNear i t + 0) }] := by
      rw [rrdRequests, hp]
      rfl
    rw [hone] at hq
    have hs (f : Packet → Word × Nat × BitVec 4 × BitVec 2) (hf : ∀ q, f q.unnumbered = f q) :=
      List.singleton_inj.mp (map_eq_of_unnumbered hq f hf)
    obtain ⟨ht, hv⟩ := fromCtx_header t i.pos i.ctx 1 (t.vcOf i.pos i.ctx)
    obtain ⟨ha, hto, hty, hvc⟩ : q.addr = sa + BitVec.ofNat 64 0 ∧ q.total = 8 ∧ q.type = 1 ∧ q.vc = vc := by
      have := hs (fun q => (q.addr, q.total, q.type, q.vc)) fun _ => rfl
      simp only [Prod.mk.injEq] at this
      obtain ⟨h1, h2, h3, h4⟩ := this
      exact ⟨h1, h2, h3.trans ht, h4.trans hv⟩
    exact ⟨_, _, q, (rrd h).trans (congrArg _ ((effRrd_of_good hf hr (Or.inr ⟨hc, hn⟩)).trans (if_neg (ne_true_of_eq_false hu)))),
      congrArg Slot.busy hk, congrArg Slot.op hk, rfl, hl, rfl, hq0, hty, hvc, ha.trans (BitVec.add_zero sa), hto⟩

/-- Settles O20: the descriptor and the stream of STRM, the pieces and requests of RWR and RRD. -/
theorem streamAndRemoteIssue : Obligations.StreamAndRemoteIssue := ⟨streamIssue_holds, remoteAccessIssue_holds⟩

end Sys2Proof.Machine
end

section
/-! PROOFS. Page chart entry changes (O26): what an entry written into the copies leaves, how a change begins and is acknowledged, and when the
new entry is written. -/

namespace Sys2Proof.Machine

open Sys2Proof

/-! ### Entries in the copies (R208) -/

section
variable (s : State) (page : Nat) (e : Word)

theorem put_eq (c : Chart) : c.put page e = { c with
    west := if c.wValid then tblPut 0 c.west page e else c.west, east := if c.eValid then tblPut 0 c.east page e else c.east } := by
  unfold Chart.put
  split_ifs <;> rfl

/-- An entry that is written is a service in class C0 of each stack that holds a copy, and nothing else but the copies changes. -/
theorem putEntry_eq : ∃ h, s.putEntry page e = { s with hbm := h, chart := s.chart.put page e } := by
  unfold State.putEntry
  extract_lets count
  have hc (t : State) (b : Bank) : ∃ h, count t b = { t with hbm := h } := by
    unfold count
    split
    · exact ⟨_, rfl⟩
    · exact ⟨_, rfl⟩
  obtain ⟨h1, e1⟩ := hc s .west
  obtain ⟨h2, e2⟩ := hc (count s .west) .east
  exact ⟨h2, by rw [e2, e1]; rfl⟩
theorem putEntry_chart : (s.putEntry page e).chart = s.chart.put page e := by
  obtain ⟨h, hp⟩ := putEntry_eq s page e
  rw [hp]

theorem putEntry_copies :
    (s.chart.wValid = true → (s.putEntry page e).chart.west = tblPut 0 s.chart.west page e) ∧
    (s.chart.wValid = false → (s.putEntry page e).chart.west = s.chart.west) ∧
    (s.chart.eValid = true → (s.putEntry page e).chart.east = tblPut 0 s.chart.east page e) ∧
    (s.chart.eValid = false → (s.putEntry page e).chart.east = s.chart.east) := by
  rw [putEntry_chart, put_eq]
  exact ⟨fun h => if_pos h, fun h => if_neg (ne_true_of_eq_false h), fun h => if_pos h, fun h => if_neg (ne_true_of_eq_false h)⟩

end

theorem setMig_bit (e : Word) : bit (setMig e true) 5 = true := by
  simp [setMig, bit]
theorem bit_tblPut_setMig (t : Tbl Word) (page : Nat) (e : Word) : bit (tblGet 0 (tblPut 0 t page (setMig e true)) page) 5 = true := by
  have h0 : setMig e true ≠ 0 := fun h => absurd (setMig_bit e) (by rw [h]; decide)
  rw [tblGet_tblPut h0]
  exact setMig_bit e

/-! ### A change begins (R204) -/

theorem mem_chartTiles {s : State} {p : Pos} : p ∈ s.chartTiles ↔ ((s.ut p).flags.fencedUt = false ∧ (s.ut p).flags.lost = false) := by
  simp [State.chartTiles, allPos]

theorem startUpd_eq (s : State) (page : BitVec 25) (old new : Word) (b : Bool) : ∃ h, s.startUpd page old new b = { s with
    hbm := h, chart := { s.chart.put page.toNat (setMig old true) with
      upd := some { page := page, new := new, old := old, second := false, manifest := b, waiting := s.chartTiles } } } := by
  obtain ⟨h, hp⟩ := putEntry_eq s page.toNat (setMig old true)
  exact ⟨h, by rw [State.startUpd, hp]; rfl⟩

theorem startUpd_copies (s : State) (page : BitVec 25) (old new : Word) (b : Bool) :
    (s.chart.wValid = true → bit (tblGet 0 (s.startUpd page old new b).chart.west page.toNat) 5 = true) ∧
    (s.chart.eValid = true → bit (tblGet 0 (s.startUpd page old new b).chart.east page.toNat) 5 = true) := by
  obtain ⟨h, hu⟩ := startUpd_eq s page old new b
  rw [hu]
  refine ⟨fun hw => ?_, fun he => ?_⟩
  · simp only [put_eq, if_pos hw]
    exact bit_tblPut_setMig ..
  · simp only [put_eq, if_pos he]
    exact bit_tblPut_setMig ..

theorem startUpd_chart (s : State) (page : BitVec 25) (old new : Word) (b : Bool) : (s.startUpd page old new b).chart.queue = s.chart.queue ∧
    (s.startUpd page old new b).chart.run = s.chart.run ∧ (s.startUpd page old new b).chart.upd =
      some { page := page, new := new, old := old, second := false, manifest := b, waiting := s.chartTiles } := by
  obtain ⟨h, hu⟩ := startUpd_eq s page old new b
  rw [hu, put_eq]
  exact ⟨rfl, rfl, rfl⟩

theorem chartFree_iff (c : Chart) : c.free = true ↔ c.upd = none ∧ c.run = none := by simp [Chart.free]

theorem chartEntryUpdate_of_taken {s : State} {page : BitVec 25} {new : Word} (hu : s.chart.upd = none) (hr : s.chart.run = none)
    (hb : s.entryBad (setMig new false) = false) (hi : s.chart.inUse = true) :
    exec (.chartEntryUpdate page new) s = .next (s.startUpd page (s.entry page.toNat) (setMig new false) false) := by
  have hf := (chartFree_iff s.chart).mpr ⟨hu, hr⟩
  exact congrArg _ (if_neg (by simp [hf, hb, hi]))
theorem chartEntryUpdate_of_refused {s : State} {page : BitVec 25} {new : Word} (h : s.chart.upd ≠ none ∨ s.chart.run ≠ none ∨
    s.entryBad (setMig new false) = true ∨ s.chart.inUse = false) : exec (.chartEntryUpdate page new) s = .next s := by
  have hf : (!s.chart.free || s.entryBad (setMig new false) || !s.chart.inUse) = true := by
    rcases h with h | h | h | h
    · simp [mt (chartFree_iff s.chart).mp fun x => h x.1]
    · simp [mt (chartFree_iff s.chart).mp fun x => h x.2]
    · simp [h]
    · simp [h]
  exact congrArg _ (if_pos hf)

/-! ### Requests that a position sends for itself -/

/-- Position p has sent requests that no slot holds: nothing has changed but the fabric and its own core. -/
structure Asked (p : Pos) (s t : State) : Prop where
  ut : ∀ r, t.ut r = s.ut r
  tile : ∀ r, r ≠ p → t.tile r = s.tile r
  chart : t.chart = s.chart
  hbm : t.hbm = s.hbm
  net : s.net ⊆ t.net

theorem Asked.refl {p : Pos} (s : State) : Asked p s s := ⟨fun _ => rfl, fun _ _ => rfl, rfl, rfl, List.Subset.refl _⟩
theorem Asked.trans {p : Pos} {s t v : State} (h : Asked p s t) (h' : Asked p t v) : Asked p s v :=
  ⟨fun r => (h'.ut r).trans (h.ut r), fun r hr => (h'.tile r hr).trans (h.tile r hr), h'.chart.trans h.chart, h'.hbm.trans h.hbm,
    List.Subset.trans h.net h'.net⟩

theorem ask_asked (s : State) (p : Pos) (q : Packet) : Asked p s (s.ask p q) :=
  ⟨ask_ut s p q, fun _ hr => State.tile_modTile_ne _ _ _ _ hr, rfl, rfl, List.subset_append_left ..⟩

section
variable (s : State) (p : Pos) (page n : Nat)

theorem sendCountTo_asked (b : Bank) : Asked p s (s.sendCountTo p page n b) := by
  unfold State.sendCountTo
  split
  · exact ask_asked ..
  · exact .refl s
theorem sendCount_asked : Asked p s (s.sendCount p page n) := by
  rw [sendCount_eq]
  split
  · exact .refl s
  · exact (sendCountTo_asked ..).trans (sendCountTo_asked ..)

end

/-! ### A tile acknowledges (R204) -/

/-- A stream enters a page that has been invalidated again. -/
def Stream.pageLeft (page : BitVec 25) (st : Stream) : Stream :=
  match st.page with
  | some e => if e.1 = page then { st with page := none } else st
  | none => st
/-- A tile has acknowledged that it has dropped a page. -/
def State.acknowledged (s : State) (p : Pos) (page : BitVec 25) (u : ChartUpd) : State :=
  ((s.chartDrop p page).modMov p fun m => { m with streams := m.streams.map (Stream.pageLeft page) }).modChart fun c =>
    { c with upd := some { u with waiting := u.waiting.filter fun q => q != p } }

theorem chartInvalidation_eq {s : State} {p : Pos} {page : BitVec 25} {u : ChartUpd} (hu : s.chart.upd = some u) (hp : u.page = page)
    (hw : p ∈ u.waiting) : exec (.chartInvalidation p page) s = .next (
      if (u.waiting.filter fun q => q != p).isEmpty && u.second then (s.acknowledged p page u).updDone u else s.acknowledged p page u) := by
  show execChartInvalidation p page s = _
  simp only [execChartInvalidation, hu]
  exact congrArg _ (if_neg (by simp [hp, hw]))

section
variable (s : State) (p : Pos) (page : BitVec 25) (u : ChartUpd)

theorem chartDrop_ents : ((s.chartDrop p page).ut p).cht.ents = (s.ut p).cht.ents.filter fun e => e.page != page := by
  rw [State.chartDrop, (sendCount_asked ..).ut, State.ut_modUt]
  rfl
theorem chartDrop_kept : (s.chartDrop p page).chart = s.chart ∧ (s.chartDrop p page).hbm = s.hbm ∧
    ∀ q, q ≠ p → (s.chartDrop p page).tile q = s.tile q := by
  unfold State.chartDrop
  extract_lets es n l off s1
  have ha := sendCount_asked (s1.modUt p fun u => { u with cht := { u.cht with
    ents := u.cht.ents.filter fun e => e.page != page
    pendFill := u.cht.pendFill.filter fun q => q.toNat / 8 != l } }) p page.toNat n
  exact ⟨ha.chart, ha.hbm, fun q hq => (ha.tile q hq).trans (State.tile_modTile_ne _ _ _ _ hq)⟩

theorem acknowledged_ut : (s.acknowledged p page u).ut p = (s.chartDrop p page).ut p :=
  ut_modMov (s.chartDrop p page) p p fun m => { m with streams := m.streams.map (Stream.pageLeft page) }
theorem acknowledged_ents : ∀ e ∈ ((s.acknowledged p page u).ut p).cht.ents, e.page ≠ page := by
  rw [acknowledged_ut, chartDrop_ents]
  exact fun e he => by simpa using (List.mem_filter.mp he).2
theorem acknowledged_tile {q : Pos} (h : q ≠ p) : (s.acknowledged p page u).tile q = s.tile q :=
  (State.tile_modTile_ne _ _ _ _ h).trans ((chartDrop_kept s p page).2.2 q h)

end

/-- An acknowledgement that is not the last of a second invalidation. -/
theorem chartInvalidation_of_more {s : State} {p : Pos} {page : BitVec 25} {u : ChartUpd} (hu : s.chart.upd = some u) (hp : u.page = page)
    (hw : p ∈ u.waiting) (h : u.second = false ∨ ∃ q ∈ u.waiting, q ≠ p) :
    exec (.chartInvalidation p page) s = .next (s.acknowledged p page u) := by
  rw [chartInvalidation_eq hu hp hw, if_neg]
  rw [Bool.and_eq_true, List.isEmpty_iff]
  rintro ⟨he, hs⟩
  rcases h with h | ⟨q, hq, hn⟩
  · exact absurd hs (by simp [h])
  · exact absurd (List.filter_eq_nil_iff.mp he q hq) (by simp [hn])
/-- The last acknowledgement of a second invalidation. -/
theorem chartInvalidation_of_last {s : State} {p : Pos} {page : BitVec 25} {u : ChartUpd} (hu : s.chart.upd = some u) (hp : u.page = page)
    (hw : u.waiting = [p]) (h : u.second = true) : exec (.chartInvalidation p page) s = .next ((s.acknowledged p page u).updDone u) := by
  rw [chartInvalidation_eq hu hp (by simp [hw]), if_pos (by simp [hw, h])]

theorem updDone_of_single {s : State} {u : ChartUpd} (h : u.manifest = false) :
    (s.updDone u).chart.upd = none ∧ ∀ p, (s.updDone u).ut p = s.ut p := by
  rw [State.updDone, if_neg (by simp [h])]
  exact ⟨rfl, fun _ => rfl⟩

theorem chartUpdateDrained_of_idle {s : State} {page : BitVec 25} {u : ChartUpd} (hu : s.chart.upd = some u) (hp : u.page = page)
    (hs : u.second = false) (hw : u.waiting = []) (hb : s.pageBusy page.toNat = false) (hh : s.pageHeld page.toNat = [])
    (hr : s.chart.run = none) : exec (.chartUpdateDrained page) s = .next (s.rewriteEntry u u.new) := by
  show execChartUpdateDrained page s = _
  simp [execChartUpdateDrained, hu, hp, hs, hw, hb, hh, hr]

theorem chartChange_holds : Rules.ChartChange := by
  intro s page new
  refine ⟨fun hu hr hb hi => ?_, chartEntryUpdate_of_refused, fun u p hu hp hw h => ?_, fun u p hu hp hw hs hm => ?_,
    fun u hu hp hs hw hb hh hr => ?_, putEntry_copies s page.toNat⟩
  · obtain ⟨h, he⟩ := startUpd_eq s page (s.entry page.toNat) (setMig new false) false
    obtain ⟨hw, hea⟩ := startUpd_copies s page (s.entry page.toNat) (setMig new false) false
    refine ⟨_, chartEntryUpdate_of_taken hu hr hb hi, ⟨_, by rw [he], rfl, rfl, rfl, rfl, fun _ => mem_chartTiles⟩, hw, hea, by rw [he]⟩
  · refine ⟨_, chartInvalidation_of_more hu hp hw h, ?_, acknowledged_ents s p page u, (chartDrop_kept s p page).2.1,
      fun q hq => acknowledged_tile s p page u hq⟩
    have hl : (u.waiting.filter fun q => q != p) = u.waiting.filter fun q => q ≠ p := List.filter_congr fun q _ => by simp [bne, beq_eq_decide]
    exact congrArg (fun l => some { u with waiting := l }) hl
  · obtain ⟨hn, hut⟩ := updDone_of_single (s := s.acknowledged p page u) hm
    refine ⟨_, chartInvalidation_of_last hu hp hw hs, hn, ?_⟩
    rw [hut]
    exact acknowledged_ents s p page u
  · rw [chartUpdateDrained_of_idle hu hp hs hw hb hh hr, State.rewriteEntry, hp]

end Sys2Proof.Machine
end

section
/-! PROOFS. The migration engine, CHT_HOME and the count flush (O26). -/

namespace Sys2Proof.Machine

open Sys2Proof

/-! ### The migration engine (R206, R207) -/

/-- The state in which a migration is planned: its request has left the queue. -/
def State.migTaken (s : State) (t : Nat) (l : List MigReq) : State := { s.at_ t with chart := { s.chart with queue := l } }

section
variable {s : State} {r : MigReq} {l : List MigReq} (hq : s.chart.queue = r :: l) (hu : s.chart.upd = none) (hr : s.chart.run = none) (t : Nat)
include hq hu hr

theorem migrationStart_eq : exec (.migrationStart t) s = .next (
    match (s.migTaken t l).migPlan r (s.entry r.page.toNat) with
    | .ends st => { s.at_ t with chart := { s.chart with
        queue := l, run := some { req := r, old := s.entry r.page.toNat, new := s.entry r.page.toNat, host := 0, result := some st } } }
    | .moves u new h => (u.modChart fun c => { c with
        run := some { req := r, old := s.entry r.page.toNat, new := new, host := h, result := none } }).startUpd r.page
          (s.entry r.page.toNat) new false) := by
  have hf : (s.at_ t).chart.free = true := (chartFree_iff s.chart).mpr ⟨hu, hr⟩
  have hq' : (s.at_ t).chart.queue = r :: l := hq
  show execMigrationStart t s = _
  simp only [execMigrationStart, hq', hf, Bool.not_true]
  rfl

theorem migrationStart_of_ends {st : Status} (h : (s.migTaken t l).migPlan r (s.entry r.page.toNat) = .ends st) :
    exec (.migrationStart t) s = .next { s.at_ t with chart := { s.chart with
      queue := l, run := some { req := r, old := s.entry r.page.toNat, new := s.entry r.page.toNat, host := 0, result := some st } } } := by
  rw [migrationStart_eq hq hu hr, h]
theorem migrationStart_of_moves {u : State} {new : Word} {h : Nat} (hm : (s.migTaken t l).migPlan r (s.entry r.page.toNat) = .moves u new h) :
    exec (.migrationStart t) s = .next ((u.modChart fun c => { c with
      run := some { req := r, old := s.entry r.page.toNat, new := new, host := h, result := none } }).startUpd r.page
        (s.entry r.page.toNat) new false) := by
  rw [migrationStart_eq hq hu hr, hm]

end

section
variable {s : State} {r : MigReq} {e : Word}

theorem migPlan_of_moored (h : s.lkh.pstate = .moored) : s.migPlan r e = .ends .refusedCapacity := if_pos h
variable (hm : s.lkh.pstate ≠ .moored)
include hm
theorem migPlan_of_absent (hk : r.kind ≠ .retire) (he : entValid e = false) : s.migPlan r e = .ends .pageNotPresent := by
  rw [State.migPlan, if_neg hm]
  cases hr : r.kind
  case retire => exact absurd hr hk
  all_goals simp [he]
theorem migPlan_of_out (hk : r.kind = .out) (he : entValid e = true) (hh : entHost e = true) : s.migPlan r e = .ends .done := by
  rw [State.migPlan, if_neg hm]
  simp [hk, he, hh]
theorem migPlan_of_in (hk : r.kind = .in_ ∨ r.kind = .demand) (he : entValid e = true) (hh : entHost e = false) : s.migPlan r e = .ends .done := by
  rw [State.migPlan, if_neg hm]
  rcases hk with hk | hk
  · simp [hk, he, hh]
  · simp [hk, he, hh]

end

theorem migrationQueueAdmit_of_room {s : State} {r : MigReq} {l : List MigReq} (hw : s.chart.waiting = r :: l) (hq : s.chart.queue.length < 256) :
    exec .migrationQueueAdmit s = .next { s with chart := { s.chart with queue := s.chart.queue ++ [r], waiting := l } } := by
  show execMigrationQueueAdmit s = _
  simp only [execMigrationQueueAdmit, hw, if_pos hq]
  rfl

theorem migrationComplete_of_ended {s : State} {r : MigRun} {st : Status} (t : Nat) (hr : s.chart.run = some r) (hs : r.result = some st)
    (hu : s.chart.upd = none) : let u : State := { s.at_ t with chart := { s.chart with run := none } }
    exec (.migrationComplete t) s = .next (match r.req.kind with
      | .demand => u
      | .retire => u.retired r.req.page r.old st
      | _ => u.chartEntryDone st r.req.page) := by
  have hr' : (s.at_ t).chart.run = some r := hr
  have hu' : (s.at_ t).chart.upd.isSome = false := by rw [show (s.at_ t).chart.upd = none from hu]; rfl
  show execMigrationComplete t s = _
  simp only [execMigrationComplete, hr', hs, hu']
  rfl

/-! ### CHT_COUNT_FLUSH (R203) -/

/-- The chart cache whose counts have been sent. -/
def ChartCache.uncounted (c : ChartCache) : ChartCache := { c with ents := c.ents.map fun e => { e with count := 0 } }
/-- The chart cache of p sends its counts. -/
def State.countsOut (s : State) (p : Pos) : State := (s.ut p).cht.ents.foldl (fun (s : State) e => s.sendCount p e.page.toNat e.count.toNat) s

/-- The turn of p in a count flush. -/
def State.countTurn (s : State) (p : Pos) : State := (s.countsOut p).modCht p ChartCache.uncounted

theorem countFlush_eq (s : State) : s.countFlush = allPos.foldl State.countTurn s := rfl

/-- A request that adds a count to a page. -/
def Packet.counts (q : Packet) (page n : Nat) : Prop := q.type = 9 ∧ q.cls = .c0 ∧ q.tag = .count page n

section
variable (s : State) (p : Pos)

theorem countsOut_asked : Asked p s (s.countsOut p) := foldl_rel .refl .trans (fun s _ => sendCount_asked s p _ _) _ s

theorem sendCountTo_counts {b : Bank} (h : s.chart.valid b = true) (page n : Nat) : ∃ q ∈ (s.sendCountTo p page n b).net, q.counts page n := by
  obtain ⟨x, hn, ht, -, hc, hg⟩ := lineAsk_net s p false (s.chart.home b) (chartBase + 8 * page) .c0 (some []) (.count page n)
  rw [State.sendCountTo, if_pos h, hn]
  exact ⟨x, by simp, ht, hc, hg⟩
theorem sendCount_counts {b : Bank} (h : s.chart.valid b = true) (page : Nat) {n : Nat} (hn : n ≠ 0) :
    ∃ q ∈ (s.sendCount p page n).net, q.counts page n := by
  rw [sendCount_eq, if_neg hn]
  cases b with
  | west =>
    obtain ⟨q, hq, hc⟩ := sendCountTo_counts s p h page n
    exact ⟨q, (sendCountTo_asked ..).net hq, hc⟩
  | east => exact sendCountTo_counts _ p (by rw [(sendCountTo_asked ..).chart]; exact h) page n

theorem countsOut_counts {b : Bank} (h : s.chart.valid b = true) {e : ChartEnt} (he : e ∈ (s.ut p).cht.ents) (hn : e.count ≠ 0) :
    ∃ q ∈ (s.countsOut p).net, q.counts e.page.toNat e.count.toNat := by
  have h0 : e.count.toNat ≠ 0 := fun h => hn (BitVec.eq_of_toNat_eq h)
  refine foldl_of_mem (P := fun t : State => t.chart = s.chart) (Q := fun t : State => ∃ q ∈ t.net, q.counts e.page.toNat e.count.toNat) he
    (fun t ht => sendCount_counts t p (by rw [ht]; exact h) _ h0) (fun t x _ ht => (sendCount_asked ..).chart.trans ht) ?_ rfl
  rintro t x - ⟨q, hq, hc⟩
  exact ⟨q, (sendCount_asked ..).net hq, hc⟩

theorem allPos_nodup : allPos.Nodup := List.nodup_finRange 144
theorem mem_allPos (p : Pos) : p ∈ allPos := List.mem_finRange p

theorem countTurn_cht (q : Pos) : ((s.countTurn p).ut q).cht = if q = p then (s.ut q).cht.uncounted else (s.ut q).cht := by
  rw [State.countTurn, State.modCht, State.ut_modUt_ite, (countsOut_asked s p).ut]
  split_ifs <;> rfl
theorem countTurn_net : (s.countTurn p).net = (s.countsOut p).net := rfl
theorem countTurn_kept : (s.countTurn p).hbm = s.hbm ∧ (s.countTurn p).chart = s.chart ∧ s.net ⊆ (s.countTurn p).net :=
  ⟨(countsOut_asked s p).hbm, (countsOut_asked s p).chart, (countsOut_asked s p).net⟩

theorem countFlush_cht : (s.countFlush.ut p).cht = (s.ut p).cht.uncounted := by
  rw [countFlush_eq]
  exact foldl_reads_once (g := fun t : State => (t.ut p).cht) allPos_nodup (mem_allPos p)
    (fun t => (countTurn_cht t p p).trans (if_pos rfl)) (fun t b hb => (countTurn_cht t b p).trans (if_neg hb.symm)) s

theorem countFlush_kept : s.countFlush.hbm = s.hbm ∧ s.countFlush.chart = s.chart := by
  rw [countFlush_eq]
  exact ⟨foldl_reads_same (g := State.hbm) (fun t b _ => (countTurn_kept t b).1) s,
    foldl_reads_same (g := State.chart) (fun t b _ => (countTurn_kept t b).2.1) s⟩

theorem countFlush_counts {b : Bank} (h : s.chart.valid b = true) {e : ChartEnt} (he : e ∈ (s.ut p).cht.ents) (hn : e.count ≠ 0) :
    ∃ q ∈ s.countFlush.net, q.counts e.page.toNat e.count.toNat := by
  rw [countFlush_eq]
  refine foldl_of_mem_once (P := fun t : State => t.chart = s.chart ∧ (t.ut p).cht = (s.ut p).cht)
    (Q := fun t : State => ∃ q ∈ t.net, q.counts e.page.toNat e.count.toNat) allPos_nodup (mem_allPos p)
    ?_ ?_ ?_ ⟨rfl, rfl⟩
  · rintro t ⟨hc, hu⟩
    rw [countTurn_net]
    exact countsOut_counts t p (hc ▸ h) (hu ▸ he) hn
  · rintro t b hb ⟨hc, hu⟩
    exact ⟨(countTurn_kept t b).2.1.trans hc, ((countTurn_cht t b p).trans (if_neg hb.symm)).trans hu⟩
  · rintro t b - ⟨q, hq, hc⟩
    exact ⟨q, (countTurn_kept t b).2.2 hq, hc⟩

end

theorem chtHome_copies (v : Word) (s : State) :
    (bit v 16 = true → s.chart.wValid = true → (s.chartHome v).chart.west = s.chart.west) ∧
    (bit v 16 = true → s.chart.wValid = false → s.chart.eValid = false → (s.chartHome v).chart.west = []) := by
  refine ⟨fun hb hw => ?_, fun hb hw he => ?_⟩
  · simp [State.chartHome, State.modChart, hb, hw]
  · simp [State.chartHome, State.modChart, hb, hw, he]

theorem migrationEngine_holds : Rules.MigrationEngine := by
  refine ⟨fun s r l => migrationQueueAdmit_of_room, ?_, ?_, fun v s => ?_, fun s => ?_⟩
  · intro t s r l hq hu hr e ends
    refine ⟨fun hm => migrationStart_of_ends hq hu hr t (migPlan_of_moored hm),
      fun hm hk he => migrationStart_of_ends hq hu hr t (migPlan_of_absent hm hk he),
      fun hm hk he hh => migrationStart_of_ends hq hu hr t (migPlan_of_out hm hk he hh),
      fun hm hk he hh => migrationStart_of_ends hq hu hr t (migPlan_of_in hm hk he hh), fun u new h _ hp => ?_⟩
    obtain ⟨hl, hx, hw⟩ := startUpd_chart
      (u.modChart fun c => { c with run := some { req := r, old := e, new := new, host := h, result := none } }) r.page e new false
    exact ⟨_, _, migrationStart_of_moves hq hu hr t hp, hl, hx, hw, rfl, rfl⟩
  · intro t s r st hr hs hu u
    have he := migrationComplete_of_ended t hr hs hu
    refine ⟨fun hk => ?_, fun hk => ?_, ?_⟩
    · rwa [hk] at he
    · rwa [hk] at he
    · rintro (hk | hk)
      · rwa [hk] at he
      · rwa [hk] at he
  · exact ⟨s.chartHome v, rfl, rfl, rfl, rfl, rfl, (chtHome_copies v s).1, (chtHome_copies v s).2, rfl⟩
  · obtain ⟨hh, hc⟩ := countFlush_kept s
    refine ⟨s.countFlush, rfl, fun p => ?_, fun p => ?_, hh, hc, fun p e he hn b hb => countFlush_counts s p hb he hn⟩
    · rw [countFlush_cht]
      simp [ChartCache.uncounted]
    · rw [countFlush_cht]
      simp [ChartCache.uncounted]

/-- Settles O26: a change of an entry from its start to its last acknowledgement, and the engine, CHT_HOME and the count flush. -/
theorem pageChart : Obligations.PageChart := ⟨chartChange_holds, migrationEngine_holds⟩

end Sys2Proof.Machine
end

section
/-! PROOFS. Answers to packets, and home slices (O25): the line that is put in front of a slice, hits, misses and fills. -/

namespace Sys2Proof.Machine

open Sys2Proof

/-! ### Answers that enter the fabric (R268) -/

theorem packet_id {s : State} {id : Nat} {q : Packet} (h : s.packet id = some q) : q.id = id :=
  beq_iff_eq.mp (List.find?_some (p := fun p : Packet => p.id == id) h)

/-- Another packet's leaving does not touch the one found under a number. -/
theorem packet_dropPacket_ne {s : State} {id n : Nat} (h : n ≠ id) : (s.dropPacket id).packet n = s.packet n := by
  rw [State.packet, State.dropPacket, List.find?_filter]
  refine congrArg (fun f => s.net.find? f) (funext fun x => ?_)
  by_cases hx : x.id = n <;> simp [hx, h]
theorem packet_dropPacket (s : State) (id : Nat) : (s.dropPacket id).packet id = none := by
  simp [State.packet, State.dropPacket]

theorem emitAll_net (l : List Packet) (s : State) :
    ∃ xs, (s.emitAll l).net = s.net ++ xs ∧ xs.map Packet.unnumbered = l.map Packet.unnumbered := by
  induction l generalizing s with
  | nil => exact ⟨[], (List.append_nil _).symm, rfl⟩
  | cons q r ih =>
    obtain ⟨xs, hn, hx⟩ := ih (s.emit q)
    refine ⟨{ q with id := s.nextPkt } :: xs, hn.trans (List.append_assoc ..), ?_⟩
    rw [List.map_cons, List.map_cons, hx]
    rfl

/-- What each answer to a packet has of it. -/
def Packet.isAnswer (x q : Packet) (st : Status) (data : List Byte) : Prop :=
  x.type = BitVec.ofNat 4 (q.type.toNat + 1) ∧ x.status = st ∧ x.payload = data ∧ x.opId = q.opId

theorem answers_are (q : Packet) (pl : Place) (e : Bool) (st : Status) (data : List Byte) :
    ∀ x ∈ q.answers pl e st data, x.isAnswer q st data := by
  intro x hx
  unfold Packet.answers at hx
  dsimp only at hx
  split at hx
  · rw [List.mem_singleton.mp hx]
    exact ⟨rfl, rfl, rfl, rfl⟩
  · obtain ⟨n, -, rfl⟩ := List.mem_map.mp hx
    exact ⟨rfl, rfl, rfl, rfl⟩

theorem answers_ne_nil (q : Packet) (pl : Place) (e : Bool) (st : Status) (data : List Byte) : q.answers pl e st data ≠ [] := by
  unfold Packet.answers
  dsimp only
  split
  · exact List.cons_ne_nil _ _
  · next hm =>
    obtain ⟨n, hn⟩ : ∃ n, q.mask.getLsbD n = true := by
      by_contra hx
      exact hm (BitVec.eq_of_getLsbD_eq fun n _ => by simpa using not_exists.mp hx n)
    have h120 : n < 120 := BitVec.lt_of_getLsbD hn
    exact List.ne_nil_of_mem (List.mem_map_of_mem (List.mem_filter.mpr ⟨List.mem_range.mpr h120, hn⟩))

section
variable (s : State) (p : Pos) (q : Packet) (st : Status) (data : List Byte)

theorem reply_onlyNet : OnlyNet s (s.reply p q st data) := OnlyNet.trans ⟨_, s.nextPkt, rfl⟩ (emitAll_onlyNet (s.dropPacket q.id) _)
theorem reply_kept : (s.reply p q st data).hbm = s.hbm ∧ (s.reply p q st data).chart = s.chart ∧ ∀ r, (s.reply p q st data).ut r = s.ut r := by
  obtain ⟨n, k, h⟩ := reply_onlyNet s p q st data
  rw [h]
  exact ⟨rfl, rfl, fun _ => rfl⟩
theorem reply_net : ∃ xs, (s.reply p q st data).net = (s.dropPacket q.id).net ++ xs ∧ xs ≠ [] ∧ ∀ x ∈ xs, x.isAnswer q st data := by
  have ha := answers_are q (.source p) (s.ut p).mesh.epoch st data
  obtain ⟨xs, hn, hx⟩ := emitAll_net (q.answers (.source p) (s.ut p).mesh.epoch st data) (s.dropPacket q.id)
  refine ⟨xs, hn, fun h0 => answers_ne_nil q (.source p) (s.ut p).mesh.epoch st data ?_, forall_of_unnumbered hx (fun _ => rfl) ha⟩
  rw [h0] at hx
  exact List.map_eq_nil_iff.mp hx.symm
/-- The packet that is answered has left, and an answer is under way. -/
theorem reply_answered : (q.type ≠ BitVec.ofNat 4 (q.type.toNat + 1) → q ∉ (s.reply p q st data).net) ∧
    ∃ x ∈ (s.reply p q st data).net, x.isAnswer q st data := by
  obtain ⟨xs, hn, h0, ha⟩ := reply_net s p q st data
  rw [hn]
  refine ⟨fun ht hm => ?_, ?_⟩
  · rcases List.mem_append.mp hm with hm | hm
    · exact not_mem_dropPacket s q hm
    · exact ht (ha q hm).1
  · obtain ⟨x, hx⟩ := List.exists_mem_of_ne_nil xs h0
    exact ⟨x, List.mem_append_right _ hx, ha x hx⟩

end

/-! ### Lines in front of a slice (R191, R192) -/

theorem logErr_ut (s : State) (unit : BitVec 40) (st n : Nat) (r : Pos) : (s.logErr unit st n).ut r = s.ut r := rfl
theorem tellRepair_ut (s : State) (ev : RepairEvent) (r : Pos) : (s.tellRepair ev).ut r = s.ut r := by
  obtain ⟨k, h⟩ := tellRepair_eq s ev
  rw [h]
  rfl

theorem sliceError_stg (s : State) (p : Pos) (n : Nat) (r : Pos) : ∃ e, ((s.sliceError p n).ut r).stg = { (s.ut r).stg with errList := e } := by
  unfold State.sliceError
  dsimp only
  split_ifs
  · exact ⟨_, rfl⟩
  · rw [logErr_ut, State.ut_modUt_ite]
    split_ifs
    · exact ⟨_, rfl⟩
    · exact ⟨_, rfl⟩
  · rw [tellRepair_ut]
    exact ⟨_, rfl⟩

/-- An eviction leaves another line in front. -/
theorem evict_front {s : State} {p : Pos} {v x : CLine} {r : List CLine} (m : StackN) (h : (s.ut p).stg.lines = x :: r) (hv : x.line ≠ v.line) :
    ∃ r', ((s.evict m p v).ut p).stg.lines = x :: r' := by
  have hd : ((s.modUt p fun u => { u with stg := { u.stg with lines := u.stg.lines.filter fun x => x.line != v.line } }).ut p).stg.lines =
      x :: r.filter fun x => x.line != v.line := by
    rw [State.ut_modUt, h]
    simp [hv]
  unfold State.evict
  extract_lets drop
  split_ifs
  · exact ⟨_, hd⟩
  · obtain ⟨e, he⟩ := sliceError_stg (drop s) p v.line p
    rw [he]
    exact ⟨_, hd⟩
  · unfold State.lineAsk
    simp only [ask_ut, State.ut_modUt, h, List.map_cons, if_neg hv]
    exact ⟨_, rfl⟩

theorem sliceFill_front (s : State) (m : StackN) (p : Pos) (l : CLine) :
    ∃ r, ((s.sliceFill m p l).ut p).stg.lines = { l with leaving := false } :: r := by
  unfold State.sliceFill
  extract_lets g rest same s1
  have h1 : (s1.ut p).stg.lines = { l with leaving := false } :: rest := by
    rw [State.ut_modUt]
  split
  · exact ⟨_, h1⟩
  · split
    · exact ⟨_, h1⟩
    · next v hv =>
      have hm : v ∈ rest := (List.mem_filter.mp (List.mem_of_getLast? hv)).1
      have hn : v.line ≠ l.line := by simpa using (List.mem_filter.mp hm).2
      exact evict_front m h1 hn.symm

theorem sliceFill_line (s : State) (m : StackN) (p : Pos) {l : CLine} {a : Nat} (h : l.line = a / 64) :
    ((s.sliceFill m p l).ut p).stg.line a = some { l with leaving := false } := by
  obtain ⟨r, hr⟩ := sliceFill_front s m p l
  rw [Staging.line, hr, List.find?_cons_of_pos (by simpa using h)]

section
variable {s : State} {m : StackN} {p : Pos} {a : Nat}

theorem sliceRead_of_error (h : a / 64 ∈ (s.ut p).stg.errList) : s.sliceRead m p a = (s, some .uncorrectable) := by
  rw [State.sliceRead, if_pos (by simpa using h)]
variable (h : a / 64 ∉ (s.ut p).stg.errList)
include h
theorem sliceRead_of_miss (hl : (s.ut p).stg.line a = none) : s.sliceRead m p a = (s, none) := by
  rw [State.sliceRead, if_neg (by simpa using h), hl]
theorem sliceRead_of_hit {l : CLine} (hl : (s.ut p).stg.line a = some l) (hf : l.failing = false) :
    s.sliceRead m p a = (s.sliceFill m p l, some (.data l.data)) := by
  rw [State.sliceRead, if_neg (by simpa using h), hl]
  simp [hf]

end

/-! ### Requests at their home slice (R190 to R192) -/

/-- A line that a slice fetches from the row end. -/
def Packet.fetches (x : Packet) (p : Pos) (q : Packet) : Prop :=
  x.type = 9 ∧ x.tag = .slice p q.id ∧ x.addr = q.addr ∧ x.dest.toNat = (rowEnd (lineStack q)).val

theorem fetchLine_asks (s : State) (p : Pos) (q : Packet) :
    (∃ x ∈ (s.fetchLine p q).net, x.id = s.nextPkt ∧ x.fetches p q) ∧ ((s.fetchLine p q).ut p).stg = (s.ut p).stg := by
  unfold State.fetchLine
  rw [ask_net, ask_ut]
  refine ⟨⟨_, List.mem_append_right _ (List.mem_singleton.mpr rfl), rfl, rfl, rfl, rfl, ?_⟩, rfl⟩
  have h144 : (rowEnd (lineStack q)).val < 144 := (rowEnd (lineStack q)).isLt
  exact Nat.mod_eq_of_lt (by omega)

theorem sliceReply_data (s : State) (p : Pos) (q : Packet) (bs : List Byte) :
    (q.type ≠ BitVec.ofNat 4 (q.type.toNat + 1) → q ∉ (s.sliceReply p q (.data bs)).net) ∧
      (∃ x ∈ (s.sliceReply p q (.data bs)).net, x.isAnswer q .done bs) ∧ ∀ r, (s.sliceReply p q (.data bs)).ut r = s.ut r := by
  obtain ⟨hd, ha⟩ := reply_answered (s.grantFor q) p q .done bs
  refine ⟨hd, ha, fun r => ((reply_kept (s.grantFor q) p q .done bs).2.2 r).trans ?_⟩
  unfold State.grantFor
  split <;> rfl

section
variable {id : Nat} {s : State} {q : Packet} {p : Pos}

theorem lineAt_of_waiting (hp : q.place = .delivered p) (ht : q.type = 9) (hk : q.taken = false) : q.lineAt = some p := by
  simp [Packet.lineAt, hp, ht, hk]

theorem lineReq_of_served (hq : s.packet id = some q) (hp : q.place = .delivered p) (hb : q.badHeader = false) (ht : q.type = 9)
    (hk : q.taken = false) (hh : s.forHbm q = false) (hs : s.notServed p q true = none) (hw : s.mustWait q = false) :
    exec (.lineReq id) s = .next (s.sliceServe p q) := by
  show execLineReq id s = _
  simp only [execLineReq, hq, lineAt_of_waiting hp ht hk, hb, hh, hs, hw]
  rfl

/-- The state in which a slice serves a request: its class has been counted. -/
def State.sliceCounted (s : State) (q : Packet) : State := s.modStack (lineStack q) fun k => k.countC1 q

theorem sliceServe_of_chart (p : Pos) (h : s.chart.lineAt (lineStack q) (lineAddr q) ≠ none) :
    s.sliceServe p q = (s.sliceCounted q).fetchLine p q := if_pos (Option.isSome_iff_ne_none.mpr h)

variable (hc : s.chart.lineAt (lineStack q) (lineAddr q) = none)
include hc

theorem sliceServe_of_write (p : Pos) (hw : q.write = true) : s.sliceServe p q = ((s.sliceCounted q).sliceFill (lineStack q) p
    { line := lineAddr q / 64, data := q.payload, dirty := true, failing := false }).reply p q .done [] := by
  unfold State.sliceServe
  exact (if_neg (by simp [hc])).trans (if_pos hw)

theorem sliceServe_of_read (p : Pos) (hw : q.write = false) : s.sliceServe p q =
    match (s.sliceCounted q).sliceRead (lineStack q) p (lineAddr q) with
    | (s1, some r) => s1.sliceReply p q r
    | (s1, none) => s1.fetchLine p q := by
  unfold State.sliceServe
  exact (if_neg (by simp [hc])).trans (if_neg (by simp [hw]))
theorem sliceServe_of_error (hw : q.write = false) (he : lineAddr q / 64 ∈ (s.ut p).stg.errList) :
    s.sliceServe p q = (s.sliceCounted q).reply p q .memoryUncorrectable [] := by
  rw [sliceServe_of_read hc p hw, sliceRead_of_error (s := s.sliceCounted q) he]
  rfl

variable (hw : q.write = false) (he : lineAddr q / 64 ∉ (s.ut p).stg.errList)
include hw he
theorem sliceServe_of_hit {l : CLine} (hl : (s.ut p).stg.line (lineAddr q) = some l) (hf : l.failing = false) :
    s.sliceServe p q = ((s.sliceCounted q).sliceFill (lineStack q) p l).sliceReply p q (.data l.data) := by
  rw [sliceServe_of_read hc p hw, sliceRead_of_hit (s := s.sliceCounted q) he hl hf]
theorem sliceServe_of_miss (hl : (s.ut p).stg.line (lineAddr q) = none) : s.sliceServe p q = (s.sliceCounted q).fetchLine p q := by
  rw [sliceServe_of_read hc p hw, sliceRead_of_miss (s := s.sliceCounted q) he hl]

end

theorem settleLoose_stg (s : State) (p : Pos) (op : Nat) : ((s.settleLoose p op).ut p).stg = (s.ut p).stg := by
  unfold State.settleLoose
  split
  · rw [State.modMesh, State.ut_modUt]
  · rw [State.late, State.modMesh, State.ut_modUt]

/-- A fetched line that the slice does not hold yet fills it and answers the requester. -/
theorem sliceMissFill_of_wanted {id : Nat} {s : State} {q r : Packet} {p : Pos} (hq : s.packet id = some q) (hp : q.place = .delivered p)
    (ht : q.type = 0xA) (hg : q.tag = .slice p r.id) (hr : s.packet r.id = some r) (hd : q.status = .done) (hne : r.id ≠ id) (hw : r.write = false)
    (hc : s.chart.lineAt (lineStack r) (lineAddr r) = none) (he : lineAddr r / 64 ∉ (s.ut p).stg.errList)
    (hl : (s.ut p).stg.line (lineAddr r) = none) : exec (.sliceMissFill id) s = .next
      ((((s.dropPacket id).settleLoose p q.opId).sliceFill (lineStack r) p
        { line := lineAddr r / 64, data := q.payload, dirty := false, failing := false }).sliceReply p r (.data q.payload)) := by
  have hn := (settleLoose_kept_net (s.dropPacket id) p q.opId).1
  have hst : (((s.dropPacket id).settleLoose p q.opId).ut p).stg = (s.ut p).stg := settleLoose_stg ..
  have hr1 : ((s.dropPacket id).settleLoose p q.opId).packet r.id = some r := by
    rw [State.packet, hn]
    exact (packet_dropPacket_ne hne).trans hr
  have hmiss := sliceRead_of_miss (s := (s.dropPacket id).settleLoose p q.opId) (m := lineStack r) (by rwa [hst]) (by rwa [hst])
  show execSliceMissFill id s = _
  simp only [execSliceMissFill, hq, hp, hg, ht, hr1, hd, hw, hc, hmiss]
  rfl

theorem homeSliceServes_holds : Rules.HomeSliceServes := by
  intro id s q p m a hq hp hb
  refine ⟨?_, fun r ht hg hr hd hne hw => ?_⟩
  · intro ht hk hh hs hw fetches
    have hx : exec (.lineReq id) s = .next (s.sliceServe p q) := lineReq_of_served hq hp hb ht hk hh hs hw
    have hid : q.id = id := packet_id hq
    have h10 : BitVec.ofNat 4 (q.type.toNat + 1) = 0xA := by rw [ht]; rfl
    have h9 : q.type ≠ BitVec.ofNat 4 (q.type.toNat + 1) := by rw [h10, ht]; decide
    have fetch {v : State} (hv : v = (s.sliceCounted q).fetchLine p q) : fetches v := by
      obtain ⟨⟨x, hx, hi, hty, htg, ha, hdst⟩, hst⟩ := fetchLine_asks (s.sliceCounted q) p q
      rw [hv]
      exact ⟨x, hx, hi, hty, hid ▸ htg, ha, hdst, hst⟩
    refine ⟨fun hc hwr => ?_, fun l hc hwr he hl hf => ?_, fun hc hwr he => ?_, fun hc hwr he hl => ?_, fun hc => ?_⟩
    · rw [sliceServe_of_write hc p hwr] at hx
      let l : CLine := { line := lineAddr q / 64, data := q.payload, dirty := true, failing := false }
      obtain ⟨hdrop, x, hx1, hty, hst, -, hop⟩ := reply_answered ((s.sliceCounted q).sliceFill (lineStack q) p l) p q .done []
      have hl := sliceFill_line (s.sliceCounted q) (lineStack q) p (l := l) rfl
      rw [← (reply_kept _ p q .done []).2.2] at hl
      exact ⟨_, hx, ⟨_, hl, rfl, rfl, rfl⟩, hdrop h9, x, hx1, hty.trans h10, hst, hop⟩
    · rw [sliceServe_of_hit hc hwr he hl hf] at hx
      obtain ⟨hdrop, ⟨x, hx1, hty, hst, hpl, -⟩, -⟩ := sliceReply_data ((s.sliceCounted q).sliceFill (lineStack q) p l) p q l.data
      exact ⟨_, hx, hdrop h9, x, hx1, hty.trans h10, hst, hpl⟩
    · rw [sliceServe_of_error hc hwr he] at hx
      obtain ⟨hdrop, x, hx1, hty, hst, -⟩ := reply_answered (s.sliceCounted q) p q .memoryUncorrectable []
      exact ⟨_, hx, hdrop h9, x, hx1, hty.trans h10, hst⟩
    · exact ⟨_, hx, fetch (sliceServe_of_miss hc hwr he hl)⟩
    · exact ⟨_, hx, fetch (sliceServe_of_chart p hc)⟩
  · intro b hc he hl
    let l : CLine := { line := lineAddr r / 64, data := q.payload, dirty := false, failing := false }
    obtain ⟨-, ⟨x, hx, hty, hst, hpl, -⟩, hut⟩ := sliceReply_data
      (((s.dropPacket id).settleLoose p q.opId).sliceFill (lineStack r) p l) p r q.payload
    have hf := sliceFill_line ((s.dropPacket id).settleLoose p q.opId) (lineStack r) p (l := l) rfl
    rw [← hut] at hf
    exact ⟨_, sliceMissFill_of_wanted hq hp ht hg hr hd hne hw hc he hl, ⟨_, hf, rfl, rfl, rfl⟩, x, hx, hty, hst, hpl⟩

end Sys2Proof.Machine
end

section
/-! PROOFS. The row-end controller (O25): what a turn leaves of the stack, what the stack serves, and whose turn it is. -/

namespace Sys2Proof.Machine

open Sys2Proof

/-! ### A turn of the controller (R195, R197) -/

/-- A request that no slice sent: the controller checks and counts it as a slice does. -/
def Packet.direct (q : Packet) : Bool := match q.tag with | .slice _ _ => false | .back _ _ => false | _ => true
/-- The stack once the turn has been counted. -/
def Stack.turned (k : Stack) (q : Packet) : Stack := (if q.direct then k.countC1 q else k).served q.cls
def State.turned (s : State) (q : Packet) : State := s.modStack (lineStack q) fun k => k.turned q

theorem modStack_hbm (s : State) (m : StackN) (f : Stack → Stack) : (s.modStack m f).hbm[m] = f s.hbm[m] := vmod_get_same s.hbm m f

theorem served_eq (k : Stack) (c : HbmClass) : ∃ a b d, k.served c = { k with c0Lines := a, turnC2 := b, turnC3 := d } := by
  unfold Stack.served
  cases c
  case c0 => exact ⟨_, _, _, rfl⟩
  case c1 => exact ⟨_, _, _, rfl⟩
  all_goals
    dsimp only
    split
    · exact ⟨_, _, _, rfl⟩
    · exact ⟨_, _, _, rfl⟩
/-- A turn touches what arbitration counts only. -/
theorem turned_eq (k : Stack) (q : Packet) : ∃ a b c d e,
    k.turned q = { k with c1Bytes := a, outBytes := b, c0Lines := c, turnC2 := d, turnC3 := e } := by
  have hc : ∃ a b, (if q.direct then k.countC1 q else k) = { k with c1Bytes := a, outBytes := b } := by
    unfold Stack.countC1
    split
    · split
      · exact ⟨_, _, rfl⟩
      · exact ⟨_, _, rfl⟩
    · exact ⟨_, _, rfl⟩
  obtain ⟨a, b, hab⟩ := hc
  obtain ⟨c, d, e, hs⟩ := served_eq (if q.direct then k.countC1 q else k) q.cls
  exact ⟨a, b, c, d, e, by rw [Stack.turned, hs, hab]⟩

theorem turned_read (k : Stack) (q : Packet) (a : Nat) : ((k.turned q).read a).2 = (k.read a).2 ∧
    ((k.turned q).read a).1.mem = k.mem ∧ ((k.turned q).read a).1.uncorr = (k.read a).1.uncorr ∧
      ((k.turned q).read a).1.corrected = (k.read a).1.corrected := by
  obtain ⟨x1, x2, x3, x4, x5, hk⟩ := turned_eq k q
  rw [hk]
  unfold Stack.read
  dsimp only
  split_ifs <;> exact ⟨rfl, rfl, rfl, rfl⟩

section
variable {k : Stack} {a : Nat}

theorem read_of_bad (h : a / 64 ∈ k.bad) : k.read a = ({ k with uncorr := k.uncorr + 1 }, .uncorrectable) := if_pos (by simpa using h)
theorem read_of_good (h : a / 64 ∉ k.bad) : k.read a =
    ((if k.single.contains (a / 64) then { k with corrected := k.corrected + 1 } else k), .data (memRead k.mem (64 * (a / 64)) 64)) :=
  if_neg (by simpa using h)

theorem serves_of_working (hp : k.present = true) (hl : k.lost = false) (hs : k.selfRefresh = false) (hr : Fin.ofNat 64 (a / 1024) ∉ k.retraining) :
    k.serves a = true := by
  rw [Stack.serves, hp, hl, hs, List.contains_eq_mem, decide_eq_false hr]
  rfl

end

section
variable {id : Nat} {s : State} {q : Packet}

/-- A controller that serves takes the request whose turn it is. -/
theorem hbmLineAccess_of_turn (hq : s.packet id = some q) (hp : q.place = .delivered (rowEnd (lineStack q))) (ht : q.type = 9)
    (hk : q.taken = false) (hh : s.forHbm q = true) (hb : q.badHeader = false) (hi : s.hbm[lineStack q].initing = false)
    (hpr : s.hbm[lineStack q].present = true) (hl : s.hbm[lineStack q].lost = false) (hs : s.hbm[lineStack q].selfRefresh = false)
    (hr : Fin.ofNat 64 (lineAddr q / 1024) ∉ s.hbm[lineStack q].retraining) (htn : s.hbmTurn (lineStack q) q = true)
    (hf : s.lineFirst (lineStack q) q = true) (hn : s.notServed (rowEnd (lineStack q)) q true = none) (hw : s.mustWait q = false) :
    exec (.hbmLineAccess id) s = .next ((s.turned q).hbmServe q) := by
  show execHbmLineAccess id s = _
  simp only [execHbmLineAccess, hq, lineAt_of_waiting hp ht hk, hh, hb, hi, hpr, hl, serves_of_working hpr hl hs hr, htn, hf, hn, hw,
    bne_self_eq_false, Bool.and_false, Bool.not_true, Bool.or_self, Bool.false_eq_true, if_false]
  rfl

/-! ### What the stack serves (R194, R195, R203) -/

variable (hcnt : s.countOf q = none)
include hcnt

theorem hbmServe_of_write (hc : s.chart.lineAt (lineStack q) (lineAddr q) = none) (hw : q.write = true) : (s.turned q).hbmServe q =
    ((s.turned q).modStack (lineStack q) fun k => k.write (lineAddr q) q.payload).reply (rowEnd (lineStack q)) q .done [] := by
  have hc' : (s.turned q).chart.lineAt (lineStack q) (lineAddr q) = none := hc
  have hn' : (s.turned q).countOf q = none := hcnt
  simp only [State.hbmServe, hc', hn', hw, if_true]

/-- The state in which a read is answered. -/
def State.lineRead (s : State) (q : Packet) : State :=
  (s.turned q).modStack (lineStack q) fun _ => ((s.turned q).hbm[lineStack q].read (lineAddr q)).1

theorem hbmServe_of_read (hw : q.write = false) : (s.turned q).hbmServe q =
    match ((s.turned q).hbm[lineStack q].read (lineAddr q)).2, s.chart.lineAt (lineStack q) (lineAddr q) with
    | .uncorrectable, _ => (s.lineRead q).reply (rowEnd (lineStack q)) q .memoryUncorrectable []
    | .data _, some (b, l) => (s.lineRead q).reply (rowEnd (lineStack q)) q .done (s.chart.lineBytes b l)
    | .data bs, none => ((s.lineRead q).grantFor q).reply (rowEnd (lineStack q)) q .done bs := by
  have hn' : (s.turned q).countOf q = none := hcnt
  have hc' : (s.turned q).chart = s.chart := rfl
  unfold State.hbmServe
  simp only [hn', hc', hw]
  rfl

end

section
variable {s : State} {q : Packet}

theorem turned_hbm (s : State) (q : Packet) : (s.turned q).hbm[lineStack q] = s.hbm[lineStack q].turned q := modStack_hbm ..

/-- What a read of a line leaves of its stack. -/
theorem lineRead_stack (s : State) (q : Packet) : ((s.lineRead q).hbm[lineStack q]).mem = s.hbm[lineStack q].mem ∧
    ((s.lineRead q).hbm[lineStack q]).uncorr = (s.hbm[lineStack q].read (lineAddr q)).1.uncorr ∧
      ((s.lineRead q).hbm[lineStack q]).corrected = (s.hbm[lineStack q].read (lineAddr q)).1.corrected := by
  rw [State.lineRead, modStack_hbm, turned_hbm]
  exact (turned_read ..).2

/-- What a write of a line leaves of its stack. -/
theorem lineWrite_stack (s : State) (q : Packet) (data : List Byte) :
    let v := (s.turned q).modStack (lineStack q) fun k => k.write (lineAddr q) data
    v.hbm[lineStack q].mem = memWrite s.hbm[lineStack q].mem (64 * (lineAddr q / 64)) data ∧ lineAddr q / 64 ∉ v.hbm[lineStack q].bad := by
  obtain ⟨x1, x2, x3, x4, x5, hk⟩ := turned_eq s.hbm[lineStack q] q
  intro v
  rw [modStack_hbm, turned_hbm, hk]
  exact ⟨rfl, by simp [Stack.write]⟩

theorem turned_read_line (s : State) (q : Packet) :
    ((s.turned q).hbm[lineStack q].read (lineAddr q)).2 = (s.hbm[lineStack q].read (lineAddr q)).2 := by
  rw [turned_hbm]
  exact (turned_read ..).1

theorem hbmServe_of_bad (hcnt : s.countOf q = none) (hw : q.write = false) (h : lineAddr q / 64 ∈ s.hbm[lineStack q].bad) :
    (s.turned q).hbmServe q = (s.lineRead q).reply (rowEnd (lineStack q)) q .memoryUncorrectable [] := by
  rw [hbmServe_of_read hcnt hw, turned_read_line, read_of_bad h]
theorem hbmServe_of_line (hcnt : s.countOf q = none) (hw : q.write = false) (h : lineAddr q / 64 ∉ s.hbm[lineStack q].bad)
    (hc : s.chart.lineAt (lineStack q) (lineAddr q) = none) : (s.turned q).hbmServe q =
      ((s.lineRead q).grantFor q).reply (rowEnd (lineStack q)) q .done (memRead s.hbm[lineStack q].mem (64 * (lineAddr q / 64)) 64) := by
  rw [hbmServe_of_read hcnt hw, turned_read_line, read_of_good h, hc]
theorem hbmServe_of_chart (hcnt : s.countOf q = none) (hw : q.write = false) (h : lineAddr q / 64 ∉ s.hbm[lineStack q].bad) {b : Bank} {l : Nat}
    (hc : s.chart.lineAt (lineStack q) (lineAddr q) = some (b, l)) : (s.turned q).hbmServe q =
      (s.lineRead q).reply (rowEnd (lineStack q)) q .done (s.chart.lineBytes b l) := by
  rw [hbmServe_of_read hcnt hw, turned_read_line, read_of_good h, hc]
theorem hbmServe_of_count {b : Bank} {l page n : Nat} (hc : s.chart.lineAt (lineStack q) (lineAddr q) = some (b, l))
    (hcnt : s.countOf q = some (page, n)) : (s.turned q).hbmServe q =
      ((s.turned q).modChart fun c => c.addOne b page n).reply (rowEnd (lineStack q)) q .done [] := by
  have hc' : (s.turned q).chart.lineAt (lineStack q) (lineAddr q) = some (b, l) := hc
  have hn' : (s.turned q).countOf q = some (page, n) := hcnt
  simp only [State.hbmServe, hc', hn']

theorem grantFor_hbm (s : State) (q : Packet) : (s.grantFor q).hbm = s.hbm := by
  unfold State.grantFor
  split <;> rfl

end

theorem writeShareWindow_counts (m : StackN) (s : State) :
    let k := s.hbm[m]
    exec (.hbmWriteShareWindow m) s = .next { s with hbm := s.hbm.set m { k with
      writeShare := if k.c1Bytes < 8 * k.outBytes then k.writeShare + 1 else k.writeShare
      c0Capped := if 4096 ≤ k.c0Lines * 100 then k.c0Capped + 1 else k.c0Capped
      c1Bytes := 0, outBytes := 0, c0Lines := 0 } } := by
  intro k
  have hc : k.c0Spent = decide (4096 ≤ k.c0Lines * 100) := rfl
  show execHbmWriteShareWindow m s = _
  rw [execHbmWriteShareWindow, State.modStack, vmod]
  simp only [Stack.c0Spent, ge_iff_le, decide_eq_true_eq]
  rfl

/-! ### Whose turn it is (R197, R199) -/

section
variable {s : State} {m : StackN} {q r : Packet}

theorem hbmTurn_c0_first (hr : r ∈ s.hbmWaiting m) (ht : s.hbmTurn m q = true) (hc : r.cls = .c0) (hk : s.hbm[m].c0Lines * 100 < 4096) :
    q.cls = .c0 := by
  have hany : ((s.hbmWaiting m).any fun x => x.cls == .c0) = true := List.any_eq_true.mpr ⟨r, hr, by rw [hc]; rfl⟩
  have hsp : s.hbm[m].c0Spent = false := decide_eq_false (not_le.mpr hk)
  unfold State.hbmTurn at ht
  simp only [hany, hsp] at ht
  cases hq : q.cls
  case c0 => rfl
  all_goals simp [hq] at ht

theorem hbmTurn_c1_order (hr : r ∈ s.hbmWaiting m) (ht : s.hbmTurn m q = true) (hq : q.cls = .c1) (hc : r.cls = .c1) : q.total ≤ r.total := by
  unfold State.hbmTurn at ht
  simp only [hq, Bool.and_eq_true, List.all_eq_true] at ht
  simpa [hc] using ht.2 r hr

theorem hbmTurn_c1_before (hr : r ∈ s.hbmWaiting m) (ht : s.hbmTurn m q = true) (hc : r.cls = .c1) : q.cls ≠ .c2 ∧ q.cls ≠ .c3 := by
  have hany : ((s.hbmWaiting m).any fun x => x.cls == .c1) = true := List.any_eq_true.mpr ⟨r, hr, by rw [hc]; rfl⟩
  unfold State.hbmTurn at ht
  constructor <;> rintro hq
  all_goals simp [hq, hany] at ht

end

theorem rowEndServes_holds : Rules.RowEndServes := by
  refine ⟨?_, fun s m q r _ hr ht => ⟨hbmTurn_c0_first hr ht, hbmTurn_c1_order hr ht, hbmTurn_c1_before hr ht⟩, writeShareWindow_counts⟩
  intro id s q m a k hq hp ht hk hh hb hi hpr hl hs hre htn hf hn hw
  have hx : exec (.hbmLineAccess id) s = .next ((s.turned q).hbmServe q) :=
    hbmLineAccess_of_turn hq hp ht hk hh hb hi hpr hl hs hre htn hf hn hw
  have h10 : BitVec.ofNat 4 (q.type.toNat + 1) = 0xA := by rw [ht]; rfl
  have h9 : q.type ≠ BitVec.ofNat 4 (q.type.toNat + 1) := by rw [h10, ht]; decide
  have answered (t : State) (st : Status) (bs : List Byte) :
      ∃ x ∈ (t.reply (rowEnd m) q st bs).net, x.type = 0xA ∧ x.status = st ∧ x.payload = bs := by
    obtain ⟨-, x, hm, hty, hst, hpl, -⟩ := reply_answered t (rowEnd m) q st bs
    exact ⟨x, hm, hty.trans h10, hst, hpl⟩
  obtain ⟨hmem, hun, hco⟩ := lineRead_stack s q
  refine ⟨fun hc hcnt hwr => ?_, fun hc hcnt hwr hbad => ?_, fun hcnt hwr hbad => ?_, fun b l hc hcnt hwr hbad => ?_,
    fun b l page n hc hcnt => ?_⟩
  · rw [hbmServe_of_write hcnt hc hwr] at hx
    let v := (s.turned q).modStack (lineStack q) fun k => k.write (lineAddr q) q.payload
    obtain ⟨hm, hg⟩ := lineWrite_stack s q q.payload
    obtain ⟨x, h1, h2, h3, -⟩ := answered v .done []
    have hv := (reply_kept v (rowEnd m) q .done []).1
    refine ⟨_, hx, ?_, ?_, ⟨x, h1, h2, h3⟩, (reply_answered v (rowEnd m) q .done []).1 h9⟩
    · rw [hv]
      exact hm
    · rw [hv]
      exact hg
  · rw [hbmServe_of_line hcnt hwr hbad hc] at hx
    have hv := ((reply_kept ((s.lineRead q).grantFor q) (rowEnd m) q .done (memRead k.mem (64 * (a / 64)) 64)).1).trans (grantFor_hbm ..)
    rw [read_of_good hbad] at hun hco
    refine ⟨_, hx, ?_, ?_, answered .., ?_⟩
    · rw [hv]
      exact hmem
    · rw [hv]
      refine hun.trans ?_
      split <;> rfl
    · rw [hv]
      refine hco.trans ?_
      by_cases h : a / 64 ∈ k.single
      · rw [if_pos h, if_pos (List.contains_iff_mem.mpr h)]
      · rw [if_neg h, if_neg (mt List.contains_iff_mem.mp h)]
  · rw [hbmServe_of_bad hcnt hwr hbad] at hx
    obtain ⟨x, h1, h2, h3, -⟩ := answered (s.lineRead q) .memoryUncorrectable []
    refine ⟨_, hx, ?_, x, h1, h2, h3⟩
    rw [(reply_kept ..).1]
    exact hun.trans (by rw [read_of_bad hbad])
  · exact ⟨_, hx.trans (congrArg _ (hbmServe_of_chart hcnt hwr hbad hc)), answered ..⟩
  · exact ⟨_, hx.trans (congrArg _ (hbmServe_of_count hc hcnt)), (reply_kept ..).2.1⟩

end Sys2Proof.Machine
end

section
/-! PROOFS. Partition writes, flushes and the answers to line requests (O25). -/

namespace Sys2Proof.Machine

open Sys2Proof

/-! ### A flush of a slice (R189) -/

/-- The slice of p has written lines back or has reported them: nothing has changed but the stacks and what p reports. -/
structure WrittenBack (p : Pos) (s t : State) : Prop where
  tile : ∀ r, r ≠ p → t.tile r = s.tile r
  stg : ∃ e, (t.ut p).stg = { (s.ut p).stg with errList := e }
  net : t.net = s.net
  chart : t.chart = s.chart

theorem WrittenBack.refl {p : Pos} (s : State) : WrittenBack p s s := ⟨fun _ _ => rfl, ⟨_, rfl⟩, rfl, rfl⟩
theorem WrittenBack.trans {p : Pos} {s t v : State} (h : WrittenBack p s t) (h' : WrittenBack p t v) : WrittenBack p s v := by
  obtain ⟨e, he⟩ := h.stg
  obtain ⟨e', he'⟩ := h'.stg
  exact ⟨fun r hr => (h'.tile r hr).trans (h.tile r hr), ⟨e', by rw [he', he]⟩, h'.net.trans h.net, h'.chart.trans h.chart⟩

theorem sliceError_writtenBack (s : State) (p : Pos) (n : Nat) : WrittenBack p s (s.sliceError p n) := by
  have hstg := sliceError_stg s p n p
  unfold State.sliceError at hstg ⊢
  dsimp only at hstg ⊢
  split_ifs at hstg ⊢
  · exact .refl s
  · exact ⟨fun _ hr => State.tile_modTile_ne _ _ _ _ hr, hstg, rfl, rfl⟩
  · obtain ⟨k, hk⟩ := tellRepair_eq s (.sliceLines p)
    rw [hk]
    exact ⟨fun _ _ => rfl, ⟨_, rfl⟩, rfl, rfl⟩
theorem writeBack_writtenBack (s : State) (m : StackN) (p : Pos) (l : CLine) : WrittenBack p s (s.writeBack m l) := by
  unfold State.writeBack
  split
  · exact ⟨fun _ _ => rfl, ⟨_, rfl⟩, rfl, rfl⟩
  · exact .refl s

/-- Every line of the slice written back, or reported where it fails. -/
def State.linesBack (s : State) (m : StackN) (p : Pos) : State :=
  (s.ut p).stg.lines.foldl (fun s l => if l.failing && l.dirty then s.sliceError p l.line else s.writeBack m l) s
/-- The slice after a flush that drops its lines, and after one that does not. -/
def Staging.flushed (g : Staging) (drop : Bool) : Staging :=
  if drop then { g with lines := [], errList := [] }
  else { g with lines := (g.lines.filter fun l => !l.leaving).map fun l => if l.failing then l else { l with dirty := false } }

section
variable (s : State) (m : StackN) (p : Pos) (drop : Bool)

theorem linesBack_writtenBack : WrittenBack p s (s.linesBack m p) :=
  foldl_rel .refl .trans (fun s l => by
    split
    · exact sliceError_writtenBack s p l.line
    · exact writeBack_writtenBack s m p l) _ s
theorem flushSlice_eq : s.flushSlice m p drop = (s.linesBack m p).modStg p fun g => g.flushed drop := rfl
theorem modStg_kept (f : Staging → Staging) : (s.modStg p f).net = s.net ∧ (s.modStg p f).chart = s.chart := ⟨rfl, rfl⟩
theorem flushSlice_kept : (s.flushSlice m p drop).net = s.net ∧ (s.flushSlice m p drop).chart = s.chart := by
  have h := linesBack_writtenBack s m p
  rw [flushSlice_eq, (modStg_kept ..).1, (modStg_kept ..).2]
  exact ⟨h.net, h.chart⟩
theorem modStg_stg (f : Staging → Staging) : ((s.modStg p f).ut p).stg = f (s.ut p).stg := by rw [State.modStg, State.ut_modUt]

theorem modStg_tile (f : Staging → Staging) {r : Pos} (h : r ≠ p) : (s.modStg p f).tile r = s.tile r := State.tile_modTile_ne _ _ _ _ h
theorem modStg_ut (f : Staging → Staging) {r : Pos} (h : r ≠ p) : (s.modStg p f).ut r = s.ut r := State.ut_modUt_ne _ _ _ _ h
theorem ringMib_lines (v : BitVec 4) (r : Pos) : ((s.modStg p fun g => { g with ringMib := v }).ut r).stg.lines = (s.ut r).stg.lines := by
  by_cases h : r = p
  · rw [h, modStg_stg]
  · rw [modStg_ut s p _ h]

theorem flushed_ringMib (g : Staging) : (g.flushed drop).ringMib = g.ringMib := by
  unfold Staging.flushed
  split <;> rfl
theorem flushSlice_stg : ∃ e, ((s.flushSlice m p drop).ut p).stg = ({ (s.ut p).stg with errList := e } : Staging).flushed drop := by
  obtain ⟨e, he⟩ := (linesBack_writtenBack s m p).stg
  exact ⟨e, by rw [flushSlice_eq, modStg_stg, he]⟩
theorem flushSlice_tile {r : Pos} (h : r ≠ p) : (s.flushSlice m p drop).tile r = s.tile r :=
  (State.tile_modTile_ne _ _ _ _ h).trans ((linesBack_writtenBack s m p).tile r h)
theorem flushSlice_ringMib (r : Pos) : ((s.flushSlice m p drop).ut r).stg.ringMib = (s.ut r).stg.ringMib := by
  by_cases h : r = p
  · obtain ⟨e, he⟩ := flushSlice_stg s m p drop
    rw [h, he, flushed_ringMib]
  · rw [State.ut_eq, flushSlice_tile s m p drop h, State.ut_eq]
theorem flushSlice_dropped : ((s.flushSlice m p true).ut p).stg.lines = [] := by
  obtain ⟨e, he⟩ := flushSlice_stg s m p true
  rw [he]
  rfl

/-- A flush of every slice of a reach. -/
theorem flushReach_eq (r : ReachN) : s.flushReach r drop = (reachTiles r).foldl (fun s p => s.flushSlice r p drop) s := rfl
theorem flushReach_ringMib (r : ReachN) (q : Pos) : ((s.flushReach r drop).ut q).stg.ringMib = (s.ut q).stg.ringMib := by
  rw [flushReach_eq]
  exact foldl_reads_same (g := fun t : State => (t.ut q).stg.ringMib) (fun t b _ => flushSlice_ringMib t r b drop q) s
theorem flushReach_tile (r : ReachN) {q : Pos} (h : q ∉ reachTiles r) : (s.flushReach r drop).tile q = s.tile q := by
  rw [flushReach_eq]
  exact foldl_reads_same (g := fun t : State => t.tile q) (fun t b hb => flushSlice_tile t r b drop fun e => h (e ▸ hb)) s
theorem flushReach_kept (r : ReachN) : (s.flushReach r drop).net = s.net ∧ (s.flushReach r drop).chart = s.chart := by
  rw [flushReach_eq]
  exact ⟨foldl_reads_same (g := State.net) (fun t b _ => (flushSlice_kept t r b drop).1) s,
    foldl_reads_same (g := State.chart) (fun t b _ => (flushSlice_kept t r b drop).2) s⟩
theorem flushReach_dropped {r : ReachN} {q : Pos} (h : q ∈ reachTiles r) : ((s.flushReach r true).ut q).stg.lines = [] := by
  rw [flushReach_eq]
  refine foldl_of_mem (P := fun _ : State => True) (Q := fun t : State => (t.ut q).stg.lines = []) h (fun t _ => flushSlice_dropped t r q)
    (fun _ _ _ h => h) (fun t b _ ht => ?_) trivial
  by_cases hb : q = b
  · rw [hb]
    exact flushSlice_dropped t r b
  · rwa [State.ut_eq, flushSlice_tile t r b true hb]

end

theorem mem_reachTiles_reachOf : ∀ p : Pos, p ∈ reachTiles (reachOf p) := by decide

theorem stgPartWrite_of_ignored {p : Pos} {v : BitVec 4} {s : State} (h : v.toNat < 2 ∨ 8 < v.toNat ∨ v = (s.ut p).stg.ringMib) :
    exec (.stgPartWrite p v) s = .next s := congrArg _ (if_pos h)
theorem stgPartWrite_of_change {p : Pos} {v : BitVec 4} {s : State} (h2 : 2 ≤ v.toNat) (h8 : v.toNat ≤ 8) (hv : v ≠ (s.ut p).stg.ringMib) :
    exec (.stgPartWrite p v) s = .next ((s.flushReach (reachOf p) true).modStg p fun g => { g with ringMib := v }) := by
  have hn : ¬(v.toNat < 2 ∨ 8 < v.toNat ∨ v = (s.ut p).stg.ringMib) := by
    rintro (h | h | h)
    · omega
    · omega
    · exact hv h
  show execStgPartWrite p v s = _
  rw [execStgPartWrite, State.ringPart, if_neg hn]
theorem stgFlushDone_of_running {p : Pos} {s : State} (h : (s.ut p).stg.flush = true) :
    exec (.stgFlushDone p) s = .next ((s.flushSlice (reachOf p) p false).modStg p fun g => { g with flush := false }) := by
  show execStgFlushDone p s = _
  rw [execStgFlushDone, if_pos h]

theorem partitionAndFlush_holds : Rules.PartitionAndFlush := by
  refine ⟨fun p v s => ⟨stgPartWrite_of_ignored, fun h2 h8 hv => ?_⟩, fun p s => ⟨⟨s.flushStart p, rfl, ?_, ?_, rfl⟩, fun hf => ?_⟩⟩
  · obtain ⟨hn, hc⟩ := flushReach_kept s true (reachOf p)
    refine ⟨_, stgPartWrite_of_change h2 h8 hv, by rw [modStg_stg], fun q hq => ?_, fun q hq => ?_, fun q hq => ?_, (modStg_kept ..).1.trans hn,
      (modStg_kept ..).2.trans hc⟩
    · exact (ringMib_lines ..).trans (flushReach_dropped s hq)
    · rw [modStg_ut _ p _ hq]
      exact flushReach_ringMib s true (reachOf p) q
    · have h : q ≠ p := fun h => hq (h ▸ mem_reachTiles_reachOf p)
      exact (modStg_tile _ p _ h).trans (flushReach_tile s true _ hq)
  · rw [State.flushStart, modStg_stg]
  · rw [State.flushStart, modStg_stg]
  · obtain ⟨e, he⟩ := flushSlice_stg s (reachOf p) p false
    have hl : (((s.flushSlice (reachOf p) p false).modStg p fun g => { g with flush := false }).ut p).stg.lines =
        ((s.ut p).stg.lines.filter fun l => !l.leaving).map fun l => if l.failing then l else { l with dirty := false } := by
      rw [modStg_stg, he]
      rfl
    refine ⟨_, stgFlushDone_of_running hf, by rw [modStg_stg], fun l hm hd => ?_, ?_⟩
    · rw [hl] at hm
      obtain ⟨x, -, rfl⟩ := List.mem_map.mp hm
      by_cases hx : x.failing = true
      · rw [if_pos hx]
        exact hx
      · rw [if_neg hx] at hd
        cases hd
    · rw [hl, List.map_map]
      exact List.map_congr_left fun l _ => by
        simp only [Function.comp_apply]
        split <;> rfl

/-! ### Answers to line requests (R183, R196) -/

section
variable {id n : Nat} {s : State} {q : Packet} {p : Pos}

theorem lineData_of_tag (hq : s.packet id = some q) (hp : q.place = .delivered p) (ht : q.type = 0xA) (hl : (s.ut p).flags.lost = false)
    (hb : q.badHeader = false) :
    (∀ r k, q.tag = .stream r k n → exec (.lineData id) s = .next (s.streamLine p k n q)) ∧
    (∀ r, q.tag = .back r n → exec (.lineData id) s = .next (s.backDone p n q)) := by
  have hx : exec (.lineData id) s = execLineData id s := rfl
  refine ⟨fun r k hg => ?_, fun r hg => ?_⟩
  · rw [hx]
    simp only [execLineData, hq, ht, hp, hl, hb, hg]
    rfl
  · rw [hx]
    simp only [execLineData, hq, ht, hp, hl, hb, hg]
    rfl

theorem backDone_runs (s : State) (p : Pos) (n : Nat) (q : Packet) : (s.backDone p n q).packet q.id = none ∧
    ((s.backDone p n q).ut p).stg.lines = (s.ut p).stg.lines.filter fun l => !(l.line == n && l.leaving) := by
  refine ⟨?_, ?_⟩
  · have hn : (s.backDone p n q).net = (s.dropPacket q.id).net := (settleLoose_kept_net (s.dropPacket q.id) p q.opId).1
    rw [State.packet, hn]
    exact packet_dropPacket s q.id
  · rw [State.backDone, modStg_stg, settleLoose_stg]
    rfl

/-- The state in which a stream takes an answer: the packet has left the fabric, and its flits no longer count against the window. -/
def State.answerTaken (s : State) (p : Pos) (q : Packet) : State :=
  if q.vc = 2 then (s.dropPacket q.id).modOp p q.opId fun o => { o with vc2 := o.vc2 - q.rflits } else s.dropPacket q.id

theorem answerTaken_kept (s : State) (p : Pos) (q : Packet) : (s.answerTaken p q).streams p = s.streams p ∧
    (s.answerTaken p q).ut p = s.ut p ∧ (s.answerTaken p q).net = (s.dropPacket q.id).net := by
  unfold State.answerTaken
  split
  · refine ⟨?_, ut_modMov (s.dropPacket q.id) p p _, rfl⟩
    rw [State.modOp, State.streams, core_modMov]
    rfl
  · exact ⟨rfl, rfl, rfl⟩

theorem answerTaken_op {k : Fin 64} {o : MoveOp} (ho : (s.slot p k).op = some o) :
    ∃ x, ((s.answerTaken p q).slot p k).op = some x ∧ x.id = o.id := by
  unfold State.answerTaken
  split
  · obtain ⟨m, hm⟩ := modOp_slot_vc2 (s := s.dropPacket q.id) (f := fun o => { o with vc2 := o.vc2 - q.rflits }) ho q.opId rfl
    exact ⟨_, congrArg Slot.op hm, rfl⟩
  · exact ⟨o, ho, rfl⟩

/-- An answer without ECHO to an operation that a slot holds. -/
theorem takeAnswer_of_slot {k : Fin 64} {o : MoveOp} (he : q.echo = false) (hk : s.slotOfOp p q.opId = some k)
    (ho : ((s.answerTaken p q).slot p k).op = some o) (cc : Nat) (f : Fin 64 → MoveOp → State → State) :
    s.takeAnswer p q cc f = f k o (s.answerTaken p q) := by
  have hk' : (s.dropPacket q.id).slotOfOp p q.opId = some k := hk
  unfold State.takeAnswer
  simp only [he, hk', Bool.false_eq_true, if_false]
  change (match ((s.answerTaken p q).slot p k).op with | some o => f k o (s.answerTaken p q) | none => s.answerTaken p q) = _
  rw [ho]

theorem streamLine_of_outstanding {k : Fin 64} {o : MoveOp} {st : Stream} (he : q.echo = false) (hk : s.slotOfOp p q.opId = some k)
    (ho : (s.slot p k).op = some o) (hs : s.stream p k = some st) (hop : st.op = o.id) (hn : ∃ e ∈ st.outst, e.1 = n) :
    s.streamLine p k n q = (s.answerTaken p q).streamData p st n q := by
  obtain ⟨x, hx, hid⟩ := answerTaken_op (q := q) ho
  have hst : (s.answerTaken p q).stream p k = some st := (stream_congr (answerTaken_kept s p q).1 k).trans hs
  have hany : (st.outst.any fun e => e.1 == n) = true := by simpa using hn
  rw [State.streamLine, takeAnswer_of_slot he hk hx]
  simp only [hst, hop, hid, hany, decide_true, Bool.and_self, if_true]

/-! ### What a stream makes of an answer -/

/-- A stream one of whose lines has been answered. -/
def Stream.lineAnswered (st : Stream) (n : Nat) : Stream := { st with outst := st.outst.filter fun e => e.1 != n }

theorem streamData_net (t : State) (p : Pos) (st : Stream) (n : Nat) (q : Packet) : (t.streamData p st n q).net = t.net := by
  unfold State.streamData
  dsimp only
  split_ifs <;> rfl

variable {t : State} {k : Fin 64} {st : Stream} (hs : t.stream p k = some st)
include hs

theorem streamData_of_done (hd : q.status = .done) : (t.streamData p st n q).stream p k =
    some (if st.outDir then { st.lineAnswered n with rel := st.rel + 1 } else { st.lineAnswered n with ring := st.ring ++ [(n, q.payload)] }) := by
  have h1 : (t.modStream p st.op fun x => x.lineAnswered n).stream p k = some (st.lineAnswered n) := stream_modStream hs fun _ => rfl
  unfold State.streamData
  rw [if_pos hd]
  exact stream_modStream (st := st.lineAnswered n) h1 fun x => by split <;> rfl

/-- An answer with another status than DONE. -/
theorem streamData_of_failed (hd : q.status ≠ .done) (hst : st.stop = none) :
    (t.streamData p st n q).stream p k = some { st.lineAnswered n with stop := some (n, q.status) } ∧
      (q.status = .memoryUncorrectable → (t.ut p).stg.eccValid = false → ((t.streamData p st n q).ut p).stg.eccValid = true ∧
        ((t.streamData p st n q).ut p).stg.eccAddr = BitVec.ofNat 41 (st.modelAt n / 64 * 64)) := by
  let u := (t.modStream p st.op fun x => x.lineAnswered n).modStream p st.op fun x => x.stopAt n q.status
  have h1 : (t.modStream p st.op fun x => x.lineAnswered n).stream p k = some (st.lineAnswered n) := stream_modStream hs fun _ => rfl
  have h2 : u.stream p k = some { st.lineAnswered n with stop := some (n, q.status) } :=
    (stream_modStream (st := st.lineAnswered n) h1 fun x => stopAt_slot x n q.status).trans
      (by simp [Stream.stopAt, Stream.lineAnswered, hst])
  have he : t.streamData p st n q = if q.status = .memoryUncorrectable && !(t.ut p).stg.eccValid then
      u.modStg p fun g => { g with eccAddr := BitVec.ofNat 41 (st.modelAt n / 64 * 64), eccValid := true } else u := if_neg hd
  rw [he]
  refine ⟨?_, fun hm hv => ?_⟩
  · split
    · exact (stream_congr (streams_modUt ..) k).trans h2
    · exact h2
  · rw [if_pos (by simp [hm, hv]), modStg_stg]
    exact ⟨rfl, rfl⟩

end

theorem lineAnswers_hold : Rules.LineAnswers := by
  intro id n s q p hq hid hp ht hl hb
  obtain ⟨hstream, hback⟩ := lineData_of_tag (n := n) hq hp ht hl hb
  refine ⟨fun r k o st hg he hk ho hi hs hop hn => ?_, fun r hg => ?_⟩
  · have hx := hstream r k hg
    rw [streamLine_of_outstanding he hk ho hs hop hn] at hx
    obtain ⟨hstr, hut, hnet⟩ := answerTaken_kept s p q
    have hs' : (s.answerTaken p q).stream p k = some st := (stream_congr hstr k).trans hs
    have hf : (st.outst.filter fun e => e.1 != n) = st.outst.filter fun e => e.1 ≠ n := List.filter_congr fun e _ => by simp [bne, beq_eq_decide]
    refine ⟨fun hd ho => ?_, fun hd ho => ?_, fun hd hst => ?_⟩
    · have hv := streamData_of_done (q := q) (n := n) hs' hd
      rw [if_neg (ne_true_of_eq_false ho)] at hv
      refine ⟨_, _, hx, hv, hf, rfl, rfl, rfl, ?_⟩
      rw [State.packet, streamData_net, hnet, hid]
      exact packet_dropPacket s id
    · have hv := streamData_of_done (q := q) (n := n) hs' hd
      rw [if_pos ho] at hv
      exact ⟨_, _, hx, hv, hf, rfl, rfl⟩
    · obtain ⟨hv, hecc⟩ := streamData_of_failed (q := q) (n := n) hs' hd hst
      exact ⟨_, _, hx, hv, rfl, rfl, fun hm hv => hecc hm (by rw [hut]; exact hv)⟩
  · obtain ⟨hn, hlines⟩ := backDone_runs s p n q
    exact ⟨_, hback r hg, hid ▸ hn, hlines⟩

/-- Settles O25: home slices, the row end and its turns, partition writes and flushes, and the answers to line requests. -/
theorem lineTransactions : Obligations.LineTransactions :=
  ⟨homeSliceServes_holds, rowEndServes_holds, partitionAndFlush_holds, lineAnswers_hold⟩

end Sys2Proof.Machine
end

section
/-! PROOFS. Step tags (O59): BRT_STEP at the first gate tick of a step, at its abort and at its end. -/

namespace Sys2Proof.Machine

open Sys2Proof

/-! ### BRT_STEP (R211) -/

/-- BRT_STEP holds a step number and an attempt count. -/
def UnderTile.Tagged (n : BitVec 12) (a : BitVec 4) (u : UnderTile) : Prop := u.stepNo = n ∧ u.attempt = a
/-- Every BRT_STEP is as in the first state. -/
def TagsKept (s t : State) : Prop := ∀ q, (t.ut q).Tagged (s.ut q).stepNo (s.ut q).attempt

section
variable {s t u : State} {p : Pos} {n : BitVec 12} {a : BitVec 4}

theorem TagsKept.refl (s : State) : TagsKept s s := fun _ => ⟨rfl, rfl⟩
theorem TagsKept.trans (h : TagsKept s t) (k : TagsKept t u) : TagsKept s u := fun q => ⟨(k q).1.trans (h q).1, (k q).2.trans (h q).2⟩
theorem TagsKept.of_tiles (h : t.tiles = s.tiles) : TagsKept s t := fun q => by rw [State.ut_eq, State.ut_eq, State.tile, State.tile, h]; exact ⟨rfl, rfl⟩
theorem TagsKept.tagged (h : TagsKept s t) (hs : (s.ut p).Tagged n a) : (t.ut p).Tagged n a := ⟨(h p).1.trans hs.1, (h p).2.trans hs.2⟩
theorem TagsKept.modTile (s : State) (p : Pos) {f : Tile → Tile} (hf : ∀ k, (f k).ut.Tagged k.ut.stepNo k.ut.attempt) : TagsKept s (s.modTile p f) := by
  intro q
  by_cases hq : q = p
  · rw [hq, State.ut_modTile]
    exact hf _
  · rw [State.ut_eq (s.modTile p f), State.tile_modTile_ne _ _ _ _ hq]
    exact ⟨rfl, rfl⟩
theorem TagsKept.modCtl (s : State) (p : Pos) (f : Control → Control) : TagsKept s (s.modCtl p f) := .modTile s p fun _ => ⟨rfl, rfl⟩

theorem fault_tagsKept (s : State) (p : Pos) (x : Ctx) (i : BitVec 14) (m : BitVec 4) (f : CoreFault) : TagsKept s (s.fault p x i m f) := by
  obtain ⟨g, k, l, h⟩ := fault_eq s p x i m f
  rw [h]
  exact TagsKept.trans (TagsKept.modCtl s p g) (.of_tiles rfl)

theorem startSlice_tagsKept (s : State) (p : Pos) (j : Nat) : TagsKept s (s.startSlice p j) := by
  unfold State.startSlice
  extract_lets cc k0 s1
  have h1 : TagsKept s s1 := TagsKept.trans (.modCtl s p _) (.modTile _ p fun _ => ⟨rfl, rfl⟩)
  split_ifs
  · exact h1.trans (fault_tagsKept _ _ _ _ _ _)
  · exact h1

/-- The pound that begins for a step leaves its tags. -/
theorem startPound_tagsKept (s : State) (r : StepRec) (j : Nat) : TagsKept s (s.startPound r j) := by
  unfold State.startPound
  extract_lets slice s1
  refine TagsKept.trans (t := s1) (foldl_rel (R := TagsKept) .refl .trans (fun s p => ?_) _ s) (.of_tiles rfl)
  split_ifs
  · exact .refl s
  · exact startSlice_tagsKept s p j
  · exact .modCtl s p _

end

/-! ### The first gate tick of a step (R211, R325) -/

/-- An LT of a step at the step's first gate tick. -/
def State.ltStarted (s : State) (r : StepRec) (e : LtEnt) : State :=
  match s.posOf e.lt with
  | some p => s.modTile p fun t => t.stepStart e r.num r.attempt r.man.debug
  | none => s
/-- The same of every LT that a step names, one after the other. -/
def State.ltsStarted (s : State) (r : StepRec) : State := r.man.ltEnts.foldl (fun (s : State) e => s.ltStarted r e) s

section
variable {s : State} {r : StepRec} {e : LtEnt} {p : Pos}

theorem ltStarted_of_die (h : s.posOf e.lt = some p) : s.ltStarted r e = s.modTile p fun t => t.stepStart e r.num r.attempt r.man.debug := by
  simp only [State.ltStarted, h]
theorem ltStarted_of_none (h : s.posOf e.lt = none) : s.ltStarted r e = s := by
  simp only [State.ltStarted, h]
theorem ltStarted_posOf (l : Lt) : (s.ltStarted r e).posOf l = s.posOf l := by
  unfold State.ltStarted
  split <;> rfl
theorem ltStarted_tagged (h : s.posOf e.lt = some p) : ((s.ltStarted r e).ut p).Tagged (BitVec.ofNat 12 r.num) r.attempt := by
  rw [ltStarted_of_die h, State.ut_modTile]
  exact ⟨rfl, rfl⟩
/-- The start of another LT, be it on the same die, enters the same tag. -/
theorem ltStarted_keeps_tagged (h : (s.ut p).Tagged (BitVec.ofNat 12 r.num) r.attempt) :
    ((s.ltStarted r e).ut p).Tagged (BitVec.ofNat 12 r.num) r.attempt := by
  rcases hp : s.posOf e.lt with _ | p'
  · rwa [ltStarted_of_none hp]
  · by_cases he : p = p'
    · exact ltStarted_tagged (he ▸ hp)
    · rwa [ltStarted_of_die hp, State.ut_eq, State.tile_modTile_ne _ _ _ _ he]

theorem ltsStarted_tagged (he : e ∈ r.man.ltEnts) (h : s.posOf e.lt = some p) :
    ((s.ltsStarted r).ut p).Tagged (BitVec.ofNat 12 r.num) r.attempt :=
  foldl_of_mem (f := fun (s : State) e => s.ltStarted r e) (P := fun t : State => t.posOf e.lt = some p)
    (Q := fun t : State => (t.ut p).Tagged (BitVec.ofNat 12 r.num) r.attempt) he
    (fun _ ht => ltStarted_tagged ht) (fun _ _ _ ht => (ltStarted_posOf _).trans ht) (fun _ _ _ ht => ltStarted_keeps_tagged ht) h

theorem beginStep_tagsKept (s : State) (r : StepRec) : TagsKept (s.ltsStarted r) (s.beginStep r) := by
  unfold State.beginStep
  extract_lets s1 load s2
  exact TagsKept.trans (t := s2) (.of_tiles rfl) (startPound_tagsKept _ _ _)

end

/-! ### The end of a step (R326) -/

theorem record_tiles (s : State) (c : CompRec) : (s.record c).tiles = s.tiles := by
  unfold State.record State.putRecord
  dsimp only
  split_ifs <;> rfl
/-- What is done for a step that ends before its tiles let it go. -/
def State.stepCharged (s : State) (r : StepRec) (st : Status) : State := (if st = .done then s.tellUnrepeated r else s).charge r st

theorem endStep_tiles (s : State) (r : StepRec) (st : Status) : (s.endStep r st).tiles =
    ((s.stepTiles r).foldl (fun (s : State) p => s.modTile p Tile.stepGone) (s.stepCharged r st)).tiles := by
  have hp : (if st = .done then s.tellUnrepeated r else s).stepTiles r = s.stepTiles r := by
    split
    · obtain ⟨k, hk⟩ := tellUnrepeated_eq s r
      rw [hk]
      rfl
    · rfl
  unfold State.endStep
  dsimp only
  rw [record_tiles, hp]
  rfl

theorem stepGone_tagged (k : Tile) : k.stepGone.ut.Tagged 0 0 := ⟨rfl, rfl⟩

theorem endStep_tagged {s : State} {r : StepRec} {p : Pos} (st : Status) (h : p ∈ s.stepTiles r) : ((s.endStep r st).ut p).Tagged 0 0 := by
  refine (TagsKept.of_tiles (endStep_tiles s r st)).tagged ?_
  refine foldl_of_mem (f := fun (s : State) p => s.modTile p Tile.stepGone) (P := fun _ => True) (Q := fun t : State => (t.ut p).Tagged 0 0) h
    (fun t _ => ?_) (fun _ _ _ _ => trivial) (fun t q _ ht => ?_) trivial
  · rw [State.ut_modTile]
    exact stepGone_tagged _
  · by_cases hq : p = q
    · rw [hq, State.ut_modTile]
      exact stepGone_tagged _
    · rwa [State.ut_eq, State.tile_modTile_ne _ _ _ _ hq]

/-! ### Admission (R325) -/

theorem ringPass_steps (s : State) : s.ringPass.intake.steps = s.intake.steps := by
  unfold State.ringPass State.ringLine1
  split <;> rfl

/-- Settles O59: BRT_STEP when a step begins, when it is aborted and when it ends. -/
theorem stepTags : Obligations.StepTags := by
  refine ⟨fun r e p s he hp => ?_, fun t n r s hr hp he ha hb hs hq => ?_, fun m s => ⟨_, congrArg (· ++ _) (ringPass_steps s), rfl⟩,
    fun r q fin e p s he hp => ?_,
    fun r st p s hp => endStep_tagged st hp⟩
  · exact (beginStep_tagsKept s r).tagged (ltsStarted_tagged he hp)
  · rw [stepTick_of_admitted hr hp, if_pos]
    simpa [he, ha, hb, hs] using hq
  · rw [(beginAbort_cleared he hp).attempt]
    exact BitVec.toNat_add ..

end Sys2Proof.Machine
end

section
/-! PROOFS. SEND, SENDN and SENDC at issue (O21): the payload that they read, and the barge that is staged and goes to the interface. -/

namespace Sys2Proof.Machine

open Sys2Proof

/-! ### What a read of the scratchpad and an injection leave -/

/-- A read of the scratchpad, be it of clean words or not, leaves the move unit and the fabric as they are. -/
theorem readSpd_mov_net (s : State) (i : Issue) (k : SlotK) (port cc a n : Nat) :
    ((s.readSpd i k port cc a n).1.core i.pos).mov = (s.core i.pos).mov ∧ (s.readSpd i k port cc a n).1.net = s.net := by
  unfold State.readSpd State.readRuns
  dsimp only
  split
  · rw [State.core_modSpd]
    exact ⟨rfl, rfl⟩
  · rw [core_fault, State.core_modSpd, fault_net]
    exact ⟨rfl, rfl⟩

/-- A request that enters the fabric changes at most what the operations of its core count against the window. -/
theorem inject_core (s : State) (p : Pos) (q : Packet) : ∃ l, (s.inject p q).core p = { s.core p with mov := { (s.core p).mov with slots := l } } := by
  unfold State.inject
  extract_lets s1
  split_ifs
  · exact ⟨_, rfl⟩
  · exact ⟨_, by rw [State.modOp, core_modMov, State.core_emit]⟩
  · exact ⟨_, by rw [State.modMesh, State.core_modUt, State.core_emit]⟩

theorem Core.ctx_mov (c : Core) (m : MoveUnit) (x : Ctx) : ({ c with mov := m } : Core).ctx x = c.ctx x := Core.ctx_pend_mov c c.pend m x

section
variable (s : State) (p : Pos) (x : Ctx) (st : Status) (k : Fin 64)

theorem setSendStat_core : (s.setSendStat p x st).core p = (s.core p).modCtx x fun q => { q with sendStat := st } := State.core_modCore ..
theorem setSendStat_slot : (s.setSendStat p x st).slot p k = s.slot p k := by rw [State.slot, setSendStat_core, Core.modCtx_mov]; rfl

end

/-! ### Staging (R227) -/

theorem freeStage_of_lowest {m : MoveUnit} {g : Fin 8} (hg : m.staging[g] = none) (h : ∀ h < g, m.staging[h].isSome = true) : m.freeStage = some g := by
  refine List.find?_eq_some_iff_getElem.mpr ⟨by simp [hg], g.val, by simp, by simp, fun j hj => ?_⟩
  have hs := h ⟨j, by omega⟩ hj
  simpa [Option.isSome_iff_ne_none] using hs
theorem freeStage_of_full {m : MoveUnit} (h : ∀ g : Fin 8, m.staging[g].isSome = true) : m.freeStage = none :=
  List.find?_eq_none.mpr fun g _ => by simpa [Option.isSome_iff_ne_none] using h g

/-! ### The operands of a send (Table 8.1) -/

/-- The bytes of the payload, and the access that reads them. -/
def sendLen (i : Issue) (t : State) : Nat := fld (t.rS i (xC (xw i))) 0 13
def sendAccess (i : Issue) (t : State) : State × Nat × Nat := t.access i.pos 6 i.cc [(xNear i t, sendLen i t)]
/-- The port cycle of the read. -/
def sendAt (i : Issue) (t : State) : Nat := i.cc + (sendAccess i t).2.1
/-- The state once the payload has been read, and the payload. -/
def sendRead (i : Issue) (t : State) : State := (sendAccess i t).1.modSpd i.pos fun d => d.meet 6 (xNear i t) (sendLen i t)
def sendPayload (i : Issue) (t : State) : List Byte := (t.core i.pos).portRead (sendAt i t) (xNear i t) (sendLen i t)
/-- The staging entry of the barge. -/
def sendStaged (i : Issue) (comb : Bool) (t : State) : Staged :=
  { slot := xSlot (xw i), ctx := i.ctx
    hdr := bargeHdr comb (xFar i t) (t.rS i (xC (xw i))) (t.core i.pos).desc.lt (stepTagOf (t.ut i.pos) i.ctx)
    payload := sendPayload i t, deadline := i.cc + (vat (t.core i.pos).ctl.patience (ctxNum i.ctx)).toNat
    backoff := 32, retryAt := none, inFlight := true, fullAnswers := 0, firstFull := none }
/-- The barge as it goes to the interface. -/
def sendPacket (i : Issue) (comb : Bool) (t : State) : Packet :=
  (sendRead i t).bargePacket i.pos (t.vcOf i.pos i.ctx) (sendStaged i comb t) (t.opNo i.pos)
/-- The operation that waits for its answer. -/
def sendOp (i : Issue) (comb : Bool) (t : State) : MoveOp :=
  { newOp .send i.ctx i.idx (xChOpt (xw i)) with
    left := 1, toLt := if (sendPacket i comb t).dkind = 0 then (sendPacket i comb t).dest else 0xFF }
/-- The state once the barge is staged in entry g, and once it has gone to the interface. -/
def sendStage (i : Issue) (comb : Bool) (g : Fin 8) (t : State) : State := (sendRead i t).modStage i.pos g fun _ => some (sendStaged i comb t)
def sendSent (i : Issue) (comb : Bool) (g : Fin 8) (t : State) : State :=
  ((sendStage i comb g t).startOp i.pos (xSlot (xw i)) (sendOp i comb t)).inject i.pos (sendPacket i comb t)

section
variable (i : Issue) (comb : Bool) (g : Fin 8) (t : State)

theorem sendRead_core : ∃ d, (sendRead i t).core i.pos = { t.core i.pos with spd := d } := by
  obtain ⟨f, hf⟩ := access_core t i.pos 6 i.cc [(xNear i t, sendLen i t)]
  exact ⟨_, by rw [sendRead, State.core_modSpd, sendAccess, hf]; rfl⟩
theorem sendRead_ut : (sendRead i t).ut i.pos = t.ut i.pos := by
  rw [sendRead, State.ut_modSpd, sendAccess, State.access, State.ut_modSpd]

theorem vcOf_congr {s t : State} {p : Pos} (h : (s.core p).ctl = (t.core p).ctl) (x : Ctx) : s.vcOf p x = t.vcOf p x := by
  cases x <;> simp [State.vcOf, h]

/-- A packet is the barge that the instruction sends. -/
def Packet.bargeOf (i : Issue) (comb : Bool) (t : State) (q : Packet) : Prop :=
  q.type = 5 ∧ q.vc = t.vcOf i.pos i.ctx ∧ q.dest.toNat = fld (xFar i t) 0 7 ∧ q.hdr = (sendStaged i comb t).hdr ∧ q.payload = sendPayload i t ∧
    q.opId = t.opNo i.pos
theorem sendPacket_bargeOf : (sendPacket i comb t).bargeOf i comb t := by
  obtain ⟨ht, hv⟩ := fromCtx_header (sendRead i t) i.pos i.ctx 5 (t.vcOf i.pos i.ctx)
  have hd : fld (xFar i t) 0 7 < 2 ^ 7 := BitVec.isLt _
  exact ⟨ht, hv, (BitVec.toNat_ofNat ..).trans (Nat.mod_eq_of_lt (by change fld (xFar i t) 0 7 < _; omega)), rfl, rfl, rfl⟩

theorem sendStage_mov : ((sendStage i comb g t).core i.pos).mov =
    { (t.core i.pos).mov with staging := vmod (t.core i.pos).mov.staging g fun _ => some (sendStaged i comb t) } := by
  obtain ⟨d, hd⟩ := sendRead_core i t
  rw [sendStage, State.modStage, core_modMov, hd]
theorem sendStage_ctx : ((sendStage i comb g t).core i.pos).ctx i.ctx = (t.core i.pos).ctx i.ctx := by
  obtain ⟨d, hd⟩ := sendRead_core i t
  rw [sendStage, State.modStage, core_modMov, Core.ctx_mov, hd]
  cases i.ctx <;> rfl

/-- The slot is busy with the send, and the barge stands last in the fabric. -/
theorem sendSent_slot_net : ∃ n x, (sendSent i comb g t).slot i.pos (xSlot (xw i)) =
      { t.slot i.pos (xSlot (xw i)) with busy := true, op := some { (sendOp i comb t).numbered t i.pos with vc2 := n } } ∧
    (sendSent i comb g t).net = t.net ++ [x] ∧ x.bargeOf i comb t := by
  obtain ⟨n, xs, hk, hn, hx⟩ := startedRequests (sendStage i comb g t) i.pos (xSlot (xw i)) (sendOp i comb t) [sendPacket i comb t]
  obtain ⟨x, rfl⟩ := List.length_eq_one_iff.mp (by simpa using congrArg List.length hx)
  refine ⟨n, x, hk.trans ?_, hn, ?_⟩
  · rw [State.slot, MoveOp.numbered, sendStage_mov]
    rfl
  · exact forall_of_unnumbered hx (fun _ => rfl) (by simpa using sendPacket_bargeOf i comb t) x (List.mem_singleton.mpr rfl)
theorem sendSent_core : ((sendSent i comb g t).core i.pos).mov.staging = (t.core i.pos).mov.staging.set g (some (sendStaged i comb t)) ∧
    ((sendSent i comb g t).core i.pos).ctx i.ctx = (t.core i.pos).ctx i.ctx := by
  obtain ⟨l, hl⟩ := inject_core ((sendStage i comb g t).startOp i.pos (xSlot (xw i)) (sendOp i comb t)) i.pos (sendPacket i comb t)
  rw [sendSent, hl, Core.ctx_mov, startOp_core, Core.ctx_mov, sendStage_ctx]
  exact ⟨congrArg MoveUnit.staging (sendStage_mov i comb g t), rfl⟩

/-- The state that a send leaves: a blocking one tells CR_SENDSTAT too. -/
def sendDone (i : Issue) (comb block : Bool) (g : Fin 8) (t : State) : State :=
  if block then (sendSent i comb g t).setSendStat i.pos i.ctx .done else sendSent i comb g t

variable (block : Bool)

theorem sendDone_slot : (sendDone i comb block g t).slot i.pos (xSlot (xw i)) = (sendSent i comb g t).slot i.pos (xSlot (xw i)) := by
  cases block
  · rfl
  · exact setSendStat_slot ..
theorem sendDone_net : (sendDone i comb block g t).net = (sendSent i comb g t).net := by cases block <;> rfl
theorem sendDone_staging : ((sendDone i comb block g t).core i.pos).mov.staging =
    (t.core i.pos).mov.staging.set g (some (sendStaged i comb t)) := by
  cases block
  · exact (sendSent_core i comb g t).1
  · rw [sendDone, if_pos rfl, setSendStat_core, Core.modCtx_mov]
    exact (sendSent_core i comb g t).1
theorem sendDone_sendStat : (((sendDone i comb block g t).core i.pos).ctx i.ctx).sendStat =
    if block then .done else ((t.core i.pos).ctx i.ctx).sendStat := by
  cases block
  · exact congrArg CtxState.sendStat (sendSent_core i comb g t).2
  · rw [sendDone, if_pos rfl, setSendStat_core, Core.ctx_modCtx]
    rfl

end

/-! ### SEND, SENDN and SENDC (R166, R209, R210, R227) -/

section
variable {i : Issue} {comb block : Bool} {g : Fin 8} {t : State}

theorem stageBarge_of_clean (h : ((t.core i.pos).spdAt (sendAt i t)).badIn (xNear i t) (sendLen i t) = []) :
    stageBarge i comb block g t = sendDone i comb block g t := by
  obtain ⟨f, hf⟩ := access_core t i.pos 6 i.cc [(xNear i t, sendLen i t)]
  obtain ⟨d, hd⟩ := sendRead_core i t
  have hv : (sendRead i t).vcOf i.pos i.ctx = t.vcOf i.pos i.ctx := vcOf_congr (by rw [hd]) _
  have ho : (sendRead i t).opNo i.pos = t.opNo i.pos := by rw [State.opNo, hd]; rfl
  have hr : (t.access i.pos 6 i.cc [(xNear i t, sendLen i t)]).1.readSpd i .x 6 (sendAt i t) (xNear i t) (sendLen i t) =
      (sendRead i t, some (sendPayload i t)) := readSpd_of_clean hf h
  unfold stageBarge
  dsimp only [sendDone, sendSent, sendStage, sendOp, sendPacket, sendStaged]
  simp only [sendAt, sendAccess, xNear, sendLen] at hr
  rw [hr]
  dsimp only
  rw [hv, ho, hd, sendRead_ut]
  rfl

/-- A payload with an uncorrectable word is not staged, and its context stops. -/
theorem stageBarge_of_bad (h : ((t.core i.pos).spdAt (sendAt i t)).badIn (xNear i t) (sendLen i t) ≠ []) :
    EccStopped i .x (t.core i.pos) (stageBarge i comb block g t) ∧
      ((stageBarge i comb block g t).core i.pos).mov = (t.core i.pos).mov ∧ (stageBarge i comb block g t).net = t.net := by
  obtain ⟨f, hf⟩ := access_core t i.pos 6 i.cc [(xNear i t, sendLen i t)]
  obtain ⟨v, hv, he⟩ := readSpd_of_bad (k := .x) (port := 6) hf h
  obtain ⟨hm, hn⟩ := readSpd_mov_net (sendAccess i t).1 i .x 6 (sendAt i t) (xNear i t) (sendLen i t)
  have hs : stageBarge i comb block g t = v := by
    simp only [sendAt, sendAccess, xNear, sendLen] at hv
    unfold stageBarge
    dsimp only
    rw [hv]
  have hv' : ((sendAccess i t).1.readSpd i .x 6 (sendAt i t) (xNear i t) (sendLen i t)).1 = v := congrArg Prod.fst hv
  rw [hv'] at hm hn
  rw [hs]
  exact ⟨he, hm.trans (by rw [sendAccess, hf]; rfl), hn⟩

/-- The end of a send that is refused at issue; a blocking SEND tells CR_SENDSTAT. -/
def sendRefused (i : Issue) (block : Bool) (st : Status) (t : State) : State :=
  (if block then t.setSendStat i.pos i.ctx st else t).xEnd i st

variable (hf : (t.slot i.pos (xSlot (xw i))).busy = false)
include hf

theorem sendAny_of_bad (h : sendBad comb (xFar i t) (t.rS i (xC (xw i))) = true) : sendAny i comb block t = sendRefused i block .illegalDescriptor t := by
  rw [sendAny, withSlot_of_free hf]
  exact if_pos h

variable (hb : sendBad comb (xFar i t) (t.rS i (xC (xw i))) = false)
include hb

theorem sendAny_of_unsafe (h : t.timingUnsafe i.pos (t.vcOf i.pos i.ctx) (fld (xFar i t) 0 7) = true) :
    sendAny i comb block t = sendRefused i block .timingUnsafe_ t := by
  rw [sendAny, withSlot_of_free hf]
  exact (if_neg (ne_true_of_eq_false hb)).trans (if_pos h)

variable (hu : t.timingUnsafe i.pos (t.vcOf i.pos i.ctx) (fld (xFar i t) 0 7) = false)
include hu

theorem sendAny_of_good : sendAny i comb block t =
    match (t.core i.pos).mov.freeStage with
    | none => sendRefused i block .berthFull t
    | some g => stageBarge i comb block g t := by
  rw [sendAny, withSlot_of_free hf]
  exact (if_neg (ne_true_of_eq_false hb)).trans (if_neg (ne_true_of_eq_false hu))
theorem sendAny_of_full (h : (t.core i.pos).mov.freeStage = none) : sendAny i comb block t = sendRefused i block .berthFull t := by
  rw [sendAny_of_good hf hb hu, h]
theorem sendAny_of_room (h : (t.core i.pos).mov.freeStage = some g) : sendAny i comb block t = stageBarge i comb block g t := by
  rw [sendAny_of_good hf hb hu, h]

end

theorem exec_of_sends {i : Issue} {s t : State} {op : Nat} {cmd : Issue → Instr} {comb block : Bool}
    (hc : (op, cmd, comb, block) ∈ [(0x08, Instr.send, false, true), (0x09, Instr.sendn, false, false), (0x0A, Instr.sendc, true, false)])
    (h : Issues .x op i s t) : exec (cmd i) s = .next (sendAny i comb block t) := by
  simp only [List.mem_cons, Prod.mk.injEq, List.not_mem_nil, or_false] at hc
  rcases hc with ⟨rfl, rfl, rfl, rfl⟩ | ⟨rfl, rfl, rfl, rfl⟩ | ⟨rfl, rfl, rfl, rfl⟩
  · exact exec_of_issues (eff := effSend) (fun _ _ => rfl) h
  · exact exec_of_issues (eff := effSendn) (fun _ _ => rfl) h
  · exact exec_of_issues (eff := effSendc) (fun _ _ => rfl) h

theorem bargeSends_hold : Rules.BargeSends := by
  intro i s t op cmd comb block hc h w k c sa sc n a vc at_ fin hf
  have hx := exec_of_sends hc h
  refine ⟨fun hb => hx.trans (congrArg _ (sendAny_of_bad hf hb)), fun hb hu => hx.trans (congrArg _ (sendAny_of_unsafe hf hb hu)),
    fun hb hu hg => hx.trans (congrArg _ (sendAny_of_full hf hb hu (freeStage_of_full hg))), fun hb hu g hg hl => ?_⟩
  have hs := sendAny_of_room (block := block) hf hb hu (freeStage_of_lowest hg hl)
  refine ⟨fun hw => ?_, fun hw => ?_⟩
  · obtain ⟨he, hm, hn⟩ := stageBarge_of_bad (comb := comb) (block := block) (g := g) hw
    refine ⟨_, hx.trans (congrArg _ hs), he.code, he.slots, ?_, congrArg MoveUnit.staging hm, hn⟩
    rw [State.slot, hm]
    exact hf
  · obtain ⟨m, x, hk, hn, hq⟩ := sendSent_slot_net i comb g t
    have hk' := (sendDone_slot i comb g t block).trans hk
    obtain ⟨hty, hvc, hd, hh, hp, ho⟩ := hq
    exact ⟨_, _, sendStaged i comb t, x, hx.trans (congrArg _ (hs.trans (stageBarge_of_clean hw))), congrArg Slot.busy hk', congrArg Slot.op hk', rfl, rfl,
      sendDone_staging i comb g t block, rfl, rfl, rfl, rfl, (sendDone_net i comb g t block).trans hn, hty, hvc, hd, hh, hp, ho,
      sendDone_sendStat i comb g t block⟩

end Sys2Proof.Machine
end

section
/-! PROOFS. BOPEN, BCLOSE, WOPEN and WCLOSE at issue (O21): what they leave of the berth or the window, and of their slot. -/

namespace Sys2Proof.Machine

open Sys2Proof

/-! ### What the end of an operation at issue leaves -/

section
variable (s : State) (p r : Pos) (k : Fin 64) (ch : Option (Bool × BitVec 13)) (st : Status) (o : MoveOp) (n : Fin 256)

theorem signalCh_ut : (s.signalCh p ch).ut r = s.ut r := by
  match ch with
  | none => rfl
  | some (false, c) => exact State.ut_modCore ..
  | some (true, c) => exact ask_ut ..
theorem endAtIssue_ut : (s.endAtIssue p k ch st).ut r = s.ut r := (signalCh_ut ..).trans (ut_modMov ..)
theorem endAtIssue_slot : (s.endAtIssue p k ch st).slot p k = { busy := false, status := st, op := none } := by
  obtain ⟨l, m, h⟩ := endAtIssue_core s p k ch st
  rw [State.slot, h]
  exact vmod_get_same _ _ _
theorem startOp_ut : (s.startOp p k o).ut r = s.ut r := (ut_modMov ..).trans (ut_modMov ..)

theorem modBerth_slot (b : Fin 64) (f : Berth → Berth) : (s.modBerth r b f).slot p k = s.slot p k := by
  rw [State.slot, State.modBerth, State.core_modUt]
  rfl
@[simp] theorem State.window_modWindow (f : Window → Window) : (s.modWindow p n f).window p n = f (s.window p n) := by
  simp only [State.window, State.modWindow, State.ut_modUt, UnderTile.modWindow]
  exact vmod_get_same _ _ _
theorem modWindow_slot (f : Window → Window) : (s.modWindow r n f).slot p k = s.slot p k := by
  rw [State.slot, State.modWindow, State.core_modUt]
  rfl

end

/-! ### Berths (R213 to R215) -/

/-- A berth from which no barge is taken any more from the next cycle on; the close waits for what was accepted. -/
def Berth.closed (k : Fin 64) (cc : Nat) (b : Berth) : Berth := { b with open_ := false, closing := some k, closeAt := some (cc + 1) }
/-- The berth of a BOPEN is open; one that is ORDERED keeps the slot. -/
def State.berthOpens (u : State) (i : Issue) (d : List Byte) : State :=
  if bit (wordOf d 1) 14 then
    ((u.dropInvocations i.pos (xBerth (xw i))).startOp i.pos (xSlot (xw i)) (xOp i .bopen)).modBerth i.pos (xBerth (xw i))
      fun b => berthOpened b d (some (xSlot (xw i)))
  else ((u.dropInvocations i.pos (xBerth (xw i))).modBerth i.pos (xBerth (xw i)) fun b => berthOpened b d none).xEnd i .done
/-- The berth of a BCLOSE closes. -/
def State.berthCloses (t : State) (i : Issue) : State :=
  (t.startOp i.pos (xSlot (xw i)) (xOp i .bclose)).modBerth i.pos (xBerth (xw i)) (Berth.closed (xSlot (xw i)) i.cc)

section
variable (u : State) (i : Issue) (d : List Byte)

theorem berthOpens_berth : ∃ b o, (u.berthOpens i d).berth i.pos (xBerth (xw i)) = berthOpened b d o := by
  unfold State.berthOpens
  split
  · exact ⟨_, _, State.berth_modBerth ..⟩
  · refine ⟨(u.dropInvocations i.pos (xBerth (xw i))).berth i.pos (xBerth (xw i)), none, ?_⟩
    rw [State.berth, State.xEnd, endAtIssue_ut]
    exact State.berth_modBerth ..
theorem berthOpens_slot : ((u.berthOpens i d).slot i.pos (xSlot (xw i))).busy = bit (wordOf d 1) 14 ∧
    (bit (wordOf d 1) 14 = false → ((u.berthOpens i d).slot i.pos (xSlot (xw i))).status = .done) := by
  unfold State.berthOpens
  by_cases h : bit (wordOf d 1) 14 = true
  · rw [if_pos h, modBerth_slot, startOp_slot]
    exact ⟨h.symm, fun hn => absurd h (ne_true_of_eq_false hn)⟩
  · rw [if_neg h, State.xEnd, endAtIssue_slot]
    exact ⟨(Bool.eq_false_iff.mpr h).symm, fun _ => rfl⟩
theorem berthCloses_berth : (u.berthCloses i).berth i.pos (xBerth (xw i)) = (u.berth i.pos (xBerth (xw i))).closed (xSlot (xw i)) i.cc := by
  rw [State.berthCloses, State.berth_modBerth, State.berth, startOp_ut]
  rfl
theorem berthCloses_busy : ((u.berthCloses i).slot i.pos (xSlot (xw i))).busy = true := by
  rw [State.berthCloses, modBerth_slot, startOp_slot]

end

section
variable {i : Issue} {t u : State} {d : List Byte} (hf : (t.slot i.pos (xSlot (xw i))).busy = false)
include hf

theorem effBopen_of_fault (h : t.xDesc i = (u, none)) : effBopen i t = u := by
  rw [effBopen, withSlot_of_free hf]
  dsimp only
  rw [h]
theorem effBopen_of_desc (h : t.xDesc i = (u, some d)) : effBopen i t =
    if !berthOpen t i.pos i.ctx (xBerth (xw i)) then u.xEnd i .noRights
    else if berthBad (xBerth (xw i)).val (t.berth i.pos (xBerth (xw i))) d then u.xEnd i .illegalDescriptor
    else u.berthOpens i d := by
  rw [effBopen, withSlot_of_free hf]
  dsimp only
  rw [h]
  rfl
theorem effBopen_of_undeclared (h : t.xDesc i = (u, some d)) (hb : berthOpen t i.pos i.ctx (xBerth (xw i)) = false) :
    effBopen i t = u.xEnd i .noRights := by
  rw [effBopen_of_desc hf h, if_pos (by rw [hb]; rfl)]
theorem effBopen_of_declared (h : t.xDesc i = (u, some d)) (hb : berthOpen t i.pos i.ctx (xBerth (xw i)) = true) : effBopen i t =
    if berthBad (xBerth (xw i)).val (t.berth i.pos (xBerth (xw i))) d then u.xEnd i .illegalDescriptor else u.berthOpens i d := by
  rw [effBopen_of_desc hf h, if_neg (by rw [hb]; decide)]
theorem effBclose_eq : effBclose i t =
    if !berthOpen t i.pos i.ctx (xBerth (xw i)) then t.xEnd i .noRights
    else if !(t.berth i.pos (xBerth (xw i))).open_ then t.xEnd i .done
    else t.berthCloses i := by
  rw [effBclose, withSlot_of_free hf]
  rfl
theorem effBclose_of_undeclared (hb : berthOpen t i.pos i.ctx (xBerth (xw i)) = false) : effBclose i t = t.xEnd i .noRights := by
  rw [effBclose_eq hf, if_pos (by rw [hb]; rfl)]
theorem effBclose_of_declared (hb : berthOpen t i.pos i.ctx (xBerth (xw i)) = true) : effBclose i t =
    if !(t.berth i.pos (xBerth (xw i))).open_ then t.xEnd i .done else t.berthCloses i := by
  rw [effBclose_eq hf, if_neg (by rw [hb]; decide)]

end

/-! ### Windows (R232, R234) -/

/-- A window that takes no write any more from the next cycle on. -/
def Window.closed (k : Fin 64) (cc : Nat) (b : Window) : Window := { b with open_ := false, closing := some k, closeAt := some (cc + 1) }
/-- The window of a WOPEN is open. -/
def State.windowOpens (u : State) (i : Issue) (d : List Byte) : State :=
  (u.modWindow i.pos (xWindow (xw i)) fun b => windowOpened b d).xEnd i .done
/-- The window of a WCLOSE closes. -/
def State.windowCloses (t : State) (i : Issue) : State :=
  (t.startOp i.pos (xSlot (xw i)) (xOp i .wclose)).modWindow i.pos (xWindow (xw i)) (Window.closed (xSlot (xw i)) i.cc)

section
variable (u : State) (i : Issue) (d : List Byte)

theorem windowOpens_window : (u.windowOpens i d).window i.pos (xWindow (xw i)) = windowOpened (u.window i.pos (xWindow (xw i))) d := by
  rw [State.windowOpens, State.window, State.xEnd, endAtIssue_ut]
  exact State.window_modWindow ..
theorem windowOpens_slot : (u.windowOpens i d).slot i.pos (xSlot (xw i)) = { busy := false, status := .done, op := none } := endAtIssue_slot ..
theorem windowCloses_window : (u.windowCloses i).window i.pos (xWindow (xw i)) = (u.window i.pos (xWindow (xw i))).closed (xSlot (xw i)) i.cc := by
  rw [State.windowCloses, State.window_modWindow, State.window, startOp_ut]
  rfl
theorem windowCloses_busy : ((u.windowCloses i).slot i.pos (xSlot (xw i))).busy = true := by
  rw [State.windowCloses, modWindow_slot, startOp_slot]

end

section
variable {i : Issue} {t u : State} {d : List Byte} (hf : (t.slot i.pos (xSlot (xw i))).busy = false)
include hf

theorem effWopen_of_fault (h : t.xDesc i = (u, none)) : effWopen i t = u := by
  rw [effWopen, withSlot_of_free hf]
  dsimp only
  rw [h]
theorem effWopen_of_desc (h : t.xDesc i = (u, some d)) : effWopen i t =
    if !windowOpen t i.pos i.ctx (xWindow (xw i)) then u.xEnd i .noRights
    else if windowBad (t.window i.pos (xWindow (xw i))) d then u.xEnd i .illegalDescriptor
    else u.windowOpens i d := by
  rw [effWopen, withSlot_of_free hf]
  dsimp only
  rw [h]
  rfl
theorem effWopen_of_undeclared (h : t.xDesc i = (u, some d)) (hb : windowOpen t i.pos i.ctx (xWindow (xw i)) = false) :
    effWopen i t = u.xEnd i .noRights := by
  rw [effWopen_of_desc hf h, if_pos (by rw [hb]; rfl)]
theorem effWopen_of_declared (h : t.xDesc i = (u, some d)) (hb : windowOpen t i.pos i.ctx (xWindow (xw i)) = true) : effWopen i t =
    if windowBad (t.window i.pos (xWindow (xw i))) d then u.xEnd i .illegalDescriptor else u.windowOpens i d := by
  rw [effWopen_of_desc hf h, if_neg (by rw [hb]; decide)]
theorem effWclose_eq : effWclose i t =
    if !windowOpen t i.pos i.ctx (xWindow (xw i)) then t.xEnd i .noRights
    else if !(t.window i.pos (xWindow (xw i))).open_ then t.xEnd i .done
    else t.windowCloses i := by
  rw [effWclose, withSlot_of_free hf]
  rfl
theorem effWclose_of_undeclared (hb : windowOpen t i.pos i.ctx (xWindow (xw i)) = false) : effWclose i t = t.xEnd i .noRights := by
  rw [effWclose_eq hf, if_pos (by rw [hb]; rfl)]
theorem effWclose_of_declared (hb : windowOpen t i.pos i.ctx (xWindow (xw i)) = true) : effWclose i t =
    if !(t.window i.pos (xWindow (xw i))).open_ then t.xEnd i .done else t.windowCloses i := by
  rw [effWclose_eq hf, if_neg (by rw [hb]; decide)]

end

theorem openAndClose_hold : Rules.OpenAndClose := by
  intro i s t w k b n ends hf
  have bopen (h : Issues .x 0x0D i s t) : exec (.bopen i) s = .next (effBopen i t) := exec_of_issues (fun _ _ => rfl) h
  have bclose (h : Issues .x 0x0E i s t) : exec (.bclose i) s = .next (effBclose i t) := exec_of_issues (fun _ _ => rfl) h
  have wopen (h : Issues .x 0x0F i s t) : exec (.wopen i) s = .next (effWopen i t) := exec_of_issues (fun _ _ => rfl) h
  have wclose (h : Issues .x 0x10 i s t) : exec (.wclose i) s = .next (effWclose i t) := exec_of_issues (fun _ _ => rfl) h
  refine ⟨fun u hd => ?_, fun u d h hd hb => (bopen h).trans (congrArg _ (effBopen_of_undeclared hf hd hb)),
    fun u d h hd hb hx => (bopen h).trans (congrArg _ ((effBopen_of_declared hf hd hb).trans (if_pos hx))), fun u d h hd hb hx => ?_,
    fun h hb => (bclose h).trans (congrArg _ (effBclose_of_undeclared hf hb)),
    fun h hb ho => (bclose h).trans (congrArg _ ((effBclose_of_declared hf hb).trans (if_pos (congrArg not ho)))), fun h hb ho => ?_,
    fun u d h hd hb => (wopen h).trans (congrArg _ (effWopen_of_undeclared hf hd hb)),
    fun u d h hd hb hx => (wopen h).trans (congrArg _ ((effWopen_of_declared hf hd hb).trans (if_pos hx))), fun u d h hd hb hx => ?_,
    fun h hb => (wclose h).trans (congrArg _ (effWclose_of_undeclared hf hb)),
    fun h hb ho => (wclose h).trans (congrArg _ ((effWclose_of_declared hf hb).trans (if_pos (congrArg not ho)))), fun h hb ho => ?_⟩
  · obtain ⟨hc, hs⟩ := xDesc_fault hd
    exact ⟨hc, hs, fun h => (bopen h).trans (congrArg _ (effBopen_of_fault hf hd)), fun h => (wopen h).trans (congrArg _ (effWopen_of_fault hf hd))⟩
  · have he : effBopen i t = u.berthOpens i d := (effBopen_of_declared hf hd hb).trans (if_neg (ne_true_of_eq_false hx))
    obtain ⟨b0, o, hv⟩ := berthOpens_berth u i d
    obtain ⟨hs, hdone⟩ := berthOpens_slot u i d
    exact ⟨_, (bopen h).trans (congrArg _ he), congrArg Berth.open_ hv, congrArg Berth.gen hv, congrArg Berth.queue hv, congrArg Berth.head hv,
      congrArg Berth.tail hv, congrArg Berth.entries hv, congrArg Berth.weir hv, congrArg Berth.ordered hv, hs, hdone⟩
  · have he : effBclose i t = t.berthCloses i := (effBclose_of_declared hf hb).trans (if_neg (ne_true_of_eq_false (congrArg not ho)))
    have hv := berthCloses_berth t i
    exact ⟨_, (bclose h).trans (congrArg _ he), congrArg Berth.open_ hv, congrArg Berth.closeAt hv, (congrArg Berth.queue hv).trans rfl,
      (congrArg Berth.gen hv).trans rfl, berthCloses_busy t i⟩
  · have he : effWopen i t = u.windowOpens i d := (effWopen_of_declared hf hd hb).trans (if_neg (ne_true_of_eq_false hx))
    have hv := windowOpens_window u i d
    have hk := windowOpens_slot u i d
    exact ⟨_, (wopen h).trans (congrArg _ he), congrArg Window.open_ hv, congrArg Window.gen hv, congrArg Window.base hv, congrArg Window.length hv,
      congrArg Slot.busy hk, congrArg Slot.status hk⟩
  · have he : effWclose i t = t.windowCloses i := (effWclose_of_declared hf hb).trans (if_neg (ne_true_of_eq_false (congrArg not ho)))
    have hv := windowCloses_window t i
    exact ⟨_, (wclose h).trans (congrArg _ he), congrArg Window.open_ hv, congrArg Window.closeAt hv, (congrArg Window.accs hv).trans rfl, windowCloses_busy t i⟩

/-- Settles O21: what SEND, SENDN and SENDC do with a free slot, and what opens and closes a berth or a window. -/
theorem sendsAndOpens : Obligations.SendsAndOpens := ⟨bargeSends_hold, openAndClose_hold⟩

end Sys2Proof.Machine
end

section
/-! PROOFS. Chambers (O29): SIGNAL and ARM at their chambers, at a tile and in LH-C, and the mirrors. -/

namespace Sys2Proof.Machine

open Sys2Proof

/-! ### A chamber (R236) -/

theorem satAdd_toNat {w : Nat} (x : BitVec w) (n : Nat) : (satAdd x n).toNat = min (x.toNat + n) (2 ^ w - 1) := by
  rw [satAdd, BitVec.toNat_ofNat, Nat.mod_eq_of_lt]
  have := Nat.two_pow_pos w
  omega
theorem signal_sat (c : Chamber) (n : Nat) : (c.signal n).sat = true ↔ (c.sat = true ∨ 2 ^ 32 ≤ c.count.toNat + n) := by
  simp only [Chamber.signal, Bool.or_eq_true, decide_eq_true_eq]
  exact or_congr_right (by omega)
theorem reached_iff (c : Chamber) : c.reached = true ↔ c.target.toNat ≤ c.count.toNat := decide_eq_true_iff

/-! ### SIGNALs that arrive (R237, R242) -/

/-- LH-C applies a SIGNAL, and notes its cycle. -/
def State.canalSignalled (s : State) (q : Packet) (cc : Nat) : State :=
  { s.signalCanal (addrChamber q.addr) q.arg.toNat with canalSig := tblPut 0 s.canalSig (addrChamber q.addr) (cc + 1) }

section
variable {id cc : Nat} {s : State} {q : Packet} {p : Pos} (hq : s.packet id = some q) (ht : q.type = 7) (hb : q.badHeader = false)
include hq ht hb

theorem chamberSignalArrival_of_tile (hp : q.place = .delivered p) (hk : q.taken = false) (hc : (s.ut p).cycle ≤ cc)
    (hl : (s.ut p).flags.lost = false) (hr : ((s.run p cc).core p).ctl.probed ≠ some cc) (hn : (s.run p cc).notServed p q false = none)
    (hg : tagBad ((s.run p cc).ut p) q = none) : exec (.chamberSignalArrival id cc) s =
      .next (((s.run p cc).signalTile p (addrChamber q.addr % 2048) q.arg.toNat).reply p q .done []) := by
  have hx : exec (.chamberSignalArrival id cc) s = execChamberSignalArrival id cc s := rfl
  rw [hx]
  simp only [execChamberSignalArrival, hq, hp]
  rw [arrive_of_served hq hp (by rw [ht]; rfl) hk hc hl hb]
  simp only [if_neg hr, hn, hg]

variable (hp : q.place = .canal 1) (hd : s.dieOff 1 = false) (hh : s.houseResets 1 = false)
include hp hd hh

theorem chamberSignalArrival_of_canal (hr : s.canalRefused q = none) :
    exec (.chamberSignalArrival id cc) s = .next ((s.canalSignalled q cc).replyCanal 1 q .done []) := by
  have hx : exec (.chamberSignalArrival id cc) s = execChamberSignalArrival id cc s := rfl
  rw [hx]
  simp [execChamberSignalArrival, hq, hp, hd, ht, hb, hh, hr, State.canalSignalled]
theorem chamberSignalArrival_of_refused {st : Status} (hr : s.canalRefused q = some st) :
    exec (.chamberSignalArrival id cc) s = .next (s.replyCanal 1 q st []) := by
  have hx : exec (.chamberSignalArrival id cc) s = execChamberSignalArrival id cc s := rfl
  rw [hx]
  simp [execChamberSignalArrival, hq, hp, hd, ht, hb, hh, hr]

end

/-! ### Answers of a Canal die -/

/-- A packet that leaves for its answers is gone where it is no answer itself, and an answer is under way. -/
theorem emitAll_answered {P : Packet → Prop} {l : List Packet} (s : State) (q : Packet) (hP : ∀ x, P x.unnumbered = P x) (h0 : l ≠ [])
    (hl : ∀ x ∈ l, P x) : (¬ P q → q ∉ ((s.dropPacket q.id).emitAll l).net) ∧ ∃ x ∈ ((s.dropPacket q.id).emitAll l).net, P x := by
  obtain ⟨xs, hn, hx⟩ := emitAll_net l (s.dropPacket q.id)
  have ha : ∀ x ∈ xs, P x := forall_of_unnumbered hx hP hl
  have hxs : xs ≠ [] := by
    rintro rfl
    exact h0 (List.map_eq_nil_iff.mp hx.symm)
  rw [hn]
  refine ⟨fun hq hm => ?_, ?_⟩
  · rcases List.mem_append.mp hm with hm | hm
    · exact not_mem_dropPacket s q hm
    · exact hq (ha q hm)
  · obtain ⟨x, hx⟩ := List.exists_mem_of_ne_nil xs hxs
    exact ⟨x, List.mem_append_right _ hx, ha x hx⟩

section
variable (s : State) (d : Fin 5) (q : Packet) (st : Status) (data : List Byte)

theorem replyCanal_onlyNet : OnlyNet s (s.replyCanal d q st data) := OnlyNet.trans ⟨_, s.nextPkt, rfl⟩ (emitAll_onlyNet (s.dropPacket q.id) _)
theorem replyCanal_kept : (s.replyCanal d q st data).canal = s.canal ∧ ∀ r, (s.replyCanal d q st data).ut r = s.ut r := by
  obtain ⟨n, k, h⟩ := replyCanal_onlyNet s d q st data
  rw [h]
  exact ⟨rfl, fun _ => rfl⟩
theorem replyCanal_answered : (¬ q.isAnswer q st data → q ∉ (s.replyCanal d q st data).net) ∧
    ∃ x ∈ (s.replyCanal d q st data).net, x.isAnswer q st data :=
  emitAll_answered (P := fun x => x.isAnswer q st data) s q (fun _ => rfl) (answers_ne_nil q _ _ st data) (answers_are q _ _ st data)

end

/-! ### Chambers of LH-C (R236, R240) -/

section
variable (s : State) (j n : Nat)

theorem publish_mirrorDue (r : Bool) (p : Pos) : ((s.publish j r).ut p).mirrorDue = (s.ut p).mirrorDue ++ [(Fin.ofNat 8192 j, r)] := by
  rw [State.publish, State.allUts, State.ut_eq, State.tile_allTiles]
  rfl
theorem signalCanal_canal : (s.signalCanal j n).canal = tblPut {} s.canal j ((s.canalCh j).signal n) := by
  unfold State.signalCanal
  dsimp only
  split <;> rfl
/-- The mirrors are sent a chamber that a SIGNAL brings to its target. -/
theorem signalCanal_mirrorDue (p : Pos) : ((s.signalCanal j n).ut p).mirrorDue =
    if (s.canalCh j).reached = false ∧ ((s.canalCh j).signal n).reached = true then (s.ut p).mirrorDue ++ [(Fin.ofNat 8192 j, true)]
    else (s.ut p).mirrorDue := by
  unfold State.signalCanal
  dsimp only
  by_cases h : (s.canalCh j).reached = false ∧ ((s.canalCh j).signal n).reached = true
  · rw [if_pos h, if_pos (by simp [h]), publish_mirrorDue]
    rfl
  · rw [if_neg h, if_neg (by simpa using h)]
    rfl

end

theorem canalArmArrival_of_served {id cc : Nat} {s : State} {q : Packet} (hq : s.packet id = some q) (ht : q.type = 0xD) (hp : q.place = .canal 1)
    (hh : s.houseResets 1 = false) (hd : s.dieOff 1 = false) (hc : tblGet 0 s.canalSig (addrChamber q.addr) ≤ cc) :
    exec (.canalArmArrival id cc) s = .next ((s.dropPacket id).armCanal (addrChamber q.addr) (BitVec.ofNat 32 (bytesNat q.payload))) := by
  have hx : exec (.canalArmArrival id cc) s = execCanalArmArrival id cc s := rfl
  rw [hx]
  simp [execCanalArmArrival, hq, ht, hp, hc, hh, hd]

/-! ### Mirrors (R240) -/

/-- An update of chamber j shows in the mirror. -/
def mirrorShows (j : Fin 8192) (r : Bool) (l : List (Fin 8192)) : List (Fin 8192) :=
  if r then (if l.contains j then l else j :: l) else l.filter fun c => c != j

theorem mirrorShows_contains (j : Fin 8192) (r : Bool) (l : List (Fin 8192)) : r = true ↔ (mirrorShows j r l).contains j = true := by
  unfold mirrorShows
  cases r
  · simp
  · by_cases h : l.contains j = true
    · simp only [if_true, h]
    · rw [if_pos rfl, if_neg h]
      simp

theorem mirrorUpdate_of_due {p : Pos} {j : Fin 8192} {s : State} {r : Bool} (h : (takeUpdate j (s.ut p).mirrorDue).1 = some r) :
    exec (.mirrorUpdate p j) s = .next (
      let u := s.modUt p fun u => { u with mirrorDue := (takeUpdate j (s.ut p).mirrorDue).2, mirror := mirrorShows j r u.mirror }
      if r then u.trigger p j.val else u) := by
  have hx : exec (.mirrorUpdate p j) s = execMirrorUpdate p j s := rfl
  rw [hx]
  simp only [execMirrorUpdate, h]
  rfl

/-- Settles O29: the operations of a chamber, SIGNALs and ARMs that arrive, and the mirrors. -/
theorem chamberSignals : Obligations.ChamberSignals := by
  refine ⟨fun c n m => ⟨satAdd_toNat .., rfl, signal_sat c n, reached_iff c, rfl⟩, fun id cc s q hq ht hb => ⟨fun p hp hk hc hl hr hn hg => ?_,
    fun hp hd hh hr => ?_, fun st hp hd hh hr => chamberSignalArrival_of_refused hq ht hb hp hd hh hr⟩,
    fun id cc s q hq _ ht hp hh hd hc => ⟨canalArmArrival_of_served hq ht hp hh hd hc, rfl⟩, fun p j s r h => ⟨mirrorUpdate_of_due h, ?_⟩⟩
  · exact chamberSignalArrival_of_tile hq ht hb hp hk hc hl hr hn hg
  · obtain ⟨hcan, hut⟩ := replyCanal_kept (s.canalSignalled q cc) 1 q .done []
    obtain ⟨hgone, x, hx, hty, hst, -⟩ := replyCanal_answered (s.canalSignalled q cc) 1 q .done []
    refine ⟨_, chamberSignalArrival_of_canal hq ht hb hp hd hh hr, hcan.trans (signalCanal_canal s _ _), ⟨x, hx, hty.trans (by rw [ht]; rfl), hst⟩,
      hgone (fun h => absurd (ht.symm.trans h.1) (by rw [ht]; decide)), fun p => ?_⟩
    rw [hut]
    exact signalCanal_mirrorDue s _ _ p
  · rw [State.ut_modUt]
    exact mirrorShows_contains j r _

end Sys2Proof.Machine
end

section
/-! PROOFS. Barges at their berth (O27): what a run and an access of an engine leave, the refusal of a barge, and the entry that an accepted one
gets. -/

namespace Sys2Proof.Machine

open Sys2Proof

/-! ### The fabric after a run -/

section
variable (s : State) (p : Pos) (cc : Nat)

theorem fetchTo_net (x : Ctx) (n : Nat) : (s.fetchTo p x n).net = s.net := by
  unfold State.fetchTo
  dsimp only
  split
  · exact fault_net ..
  · rfl
theorem fetch_net : (s.fetch p cc).net = s.net := by
  rw [fetch_eq]
  split
  · rfl
  · dsimp only
    split_ifs <;> simp only [fetchTo_net]
theorem run_net : (s.run p cc).net = s.net := fetch_net ..
theorem run_packet (id : Nat) : (s.run p cc).packet id = s.packet id := by rw [State.packet, run_net]; rfl

end

/-! ### What an engine's access leaves (R175, R218) -/

/-- The second state is the first with another core at p. -/
def OnlyCore (p : Pos) (s t : State) : Prop := ∃ f, t = s.modCore p f

section
variable {s t u : State} {p : Pos}

theorem OnlyCore.refl (p : Pos) (s : State) : OnlyCore p s s := ⟨fun _ => s.core p, (State.modCore_self s p rfl).symm⟩
theorem OnlyCore.trans (h : OnlyCore p s t) (k : OnlyCore p t u) : OnlyCore p s u := by
  obtain ⟨f, rfl⟩ := h
  obtain ⟨g, rfl⟩ := k
  exact ⟨_, State.modCore_modCore ..⟩
theorem OnlyCore.ut (h : OnlyCore p s t) (q : Pos) : t.ut q = s.ut q := by
  obtain ⟨f, rfl⟩ := h
  exact State.ut_modCore ..
theorem OnlyCore.net (h : OnlyCore p s t) : t.net = s.net := by
  obtain ⟨f, rfl⟩ := h
  rfl
theorem OnlyCore.packet (h : OnlyCore p s t) (id : Nat) : t.packet id = s.packet id := by rw [State.packet, h.net]; rfl
theorem OnlyCore.berth (h : OnlyCore p s t) (q : Pos) (k : Fin 64) : t.berth q k = s.berth q k := by rw [State.berth, h.ut]; rfl

end

section
variable (s : State) (p : Pos)

theorem engine_onlyCore (port cc : Nat) (l : List (Nat × Nat)) : OnlyCore p s (s.engine p port cc l).1 := by
  unfold State.engine State.modSpd
  dsimp only
  exact ⟨_, rfl⟩
theorem land_onlyCore (due a : Nat) (bs : List Byte) : OnlyCore p s (s.land p due a bs) := by
  unfold State.land
  split
  · exact .refl p s
  · exact ⟨_, rfl⟩
theorem landChunks_onlyCore (f : Nat → List Byte → RegDst) (n c a : Nat) (bs : List Byte) : OnlyCore p s (s.landChunks p f n c a bs) := by
  induction n generalizing s c a bs with
  | zero => exact .refl p s
  | succ n ih =>
    rw [State.landChunks]
    refine OnlyCore.trans ?_ (ih ..)
    split
    · exact .refl p s
    · exact ⟨_, rfl⟩
theorem niWrite_onlyCore (cc a : Nat) (bs : List Byte) (f : Nat → List Byte → RegDst) : OnlyCore p s (s.niWrite p cc a bs f).1 :=
  (engine_onlyCore s p 7 cc _).trans (landChunks_onlyCore ..)
/-- NI takes time for what it writes. -/
theorem lt_niWrite (cc a : Nat) {bs : List Byte} (h : bs ≠ []) (f : Nat → List Byte → RegDst) : cc < (s.niWrite p cc a bs f).2 :=
  engine_lt s p 7 cc a bs.length [] (mt List.length_eq_zero_iff.mp h)

theorem landingHdr_ne_nil (b : Berth) (h : BargeHdr) (m : Nat) (c : Bool) (cyc : Nat) (bs : List Byte) : landingHdr b h m c cyc ++ bs ≠ [] := by
  simp [landingHdr]

end

/-! ### Acceptance (R217, R221, R223) -/

theorem packet_modPacket {s : State} {id : Nat} {q : Packet} {f : Packet → Packet} (h : s.packet id = some q) (hf : ∀ x, (f x).id = x.id) :
    (s.modPacket id f).packet id = some (f q) := by
  have hg : ((fun x : Packet => x.id == id) ∘ fun x => if x.id = id then f x else x) = fun x => x.id == id := by
    funext x
    by_cases hx : x.id = id <;> simp [hx, hf]
  rw [State.packet, State.modPacket, List.find?_map, hg]
  change (s.packet id).map _ = _
  rw [h, Option.map_some, if_pos (packet_id h)]

/-- The berth that a barge is for. -/
def Packet.berthNo (q : Packet) : Fin 64 := Fin.ofNat 64 (hdrBerth q.hdr)
/-- The state that a refused barge is answered in: its berth counts BERTH_FULL; a group that holds every entry yields (R226). -/
def State.bargeTurned (s : State) (p : Pos) (q : Packet) (cc : Nat) (st : Status) : State :=
  let s1 := if st = .heldTimeout then s.yieldFull p q.berthNo q cc else s
  if st = .berthFull then s1.modBerth p q.berthNo fun b => { b with fullAnswers := b.fullAnswers + 1 } else s1
/-- NI takes an accepted barge: into an entry of its own, or aside for an open group of a berth that is not ORDERED. -/
def State.bargeLanding (s : State) (p : Pos) (q : Packet) (cc : Nat) : State × Nat :=
  let b := s.berth p q.berthNo
  match b.group (hdrKey16 q.hdr), b.weir && !b.ordered with
  | some g, true => s.engine p 7 cc [(b.entryAt g.entry, 64 + q.payload.length)]
  | _, _ => s.landEntry p q.berthNo b.freeIdx cc q.hdr q.payload
/-- The landing of a barge that is whole in cycle n. -/
def Packet.contrib (q : Packet) (n : Nat) : Contrib := { packet := q.id, hdr := q.hdr, payload := q.payload, landAt := n }
/-- The berth has accepted the barge, which waits in the fabric for its answer. -/
def State.bargeTaken (s : State) (p : Pos) (q : Packet) (cc : Nat) : State :=
  ((s.bargeLanding p q cc).1.modPacket q.id fun q => { q with taken := true }).modBerth p q.berthNo fun b =>
    b.accept q.hdr (q.contrib (s.bargeLanding p q cc).2) cc

section
variable (s : State) (p : Pos) (q : Packet) (cc : Nat)

theorem bargeLanding_onlyCore : OnlyCore p s (s.bargeLanding p q cc).1 := by
  unfold State.bargeLanding
  dsimp only
  split
  · exact engine_onlyCore ..
  · exact niWrite_onlyCore ..
theorem lt_bargeLanding : cc < (s.bargeLanding p q cc).2 := by
  unfold State.bargeLanding
  dsimp only
  split
  · exact engine_lt s p 7 cc _ _ [] (by omega)
  · exact lt_niWrite s p cc _ (landingHdr_ne_nil _ _ _ _ _ _) _

theorem bargeTaken_berth : (s.bargeTaken p q cc).berth p q.berthNo =
    (s.berth p q.berthNo).accept q.hdr (q.contrib (s.bargeLanding p q cc).2) cc := by
  rw [State.bargeTaken, State.berth_modBerth]
  exact congrArg (fun b : Berth => b.accept q.hdr _ cc) ((bargeLanding_onlyCore s p q cc).berth p q.berthNo)
theorem bargeTaken_net_length : (s.bargeTaken p q cc).net.length = s.net.length := by
  have hn : (s.bargeTaken p q cc).net = ((s.bargeLanding p q cc).1.modPacket q.id fun q => { q with taken := true }).net := rfl
  rw [hn, State.modPacket, List.length_map, (bargeLanding_onlyCore s p q cc).net]
theorem bargeTaken_packet (h : s.packet q.id = some q) : (s.bargeTaken p q cc).packet q.id = some { q with taken := true } :=
  packet_modPacket (((bargeLanding_onlyCore s p q cc).packet q.id).trans h) fun _ => rfl

end

section
variable (b : Berth) (h : BargeHdr) (c : Contrib) (cc : Nat)

theorem accept_of_plain (hw : b.weir = false) : b.accept h c cc = b.alloc (newEntry h false c) := by simp [Berth.accept, hw]
theorem accept_of_first (hw : b.weir = true) (hg : b.group (hdrKey16 h) = none) :
    b.accept h c cc = { b.alloc (newEntry h true c) with groups := b.groups ++ [newGroup h b.freeIdx cc] } := by simp [Berth.accept, hw, hg]
theorem accept_of_joined {g : Group} (hw : b.weir = true) (ho : b.ordered = false) (hg : b.group (hdrKey16 h) = some g) :
    b.accept h c cc = b.modEntry g.entry fun e => { e with landing := e.landing ++ [c] } := by simp [Berth.accept, hw, ho, hg]
theorem accept_of_member {g : Group} (hw : b.weir = true) (ho : b.ordered = true) (hg : b.group (hdrKey16 h) = some g) :
    b.accept h c cc = { b.alloc (newEntry h true c) with
      groups := b.groups.map fun x => if x.key = g.key then { x with members := x.members ++ [b.freeIdx] } else x } := by
  simp [Berth.accept, hw, ho, hg]

theorem modEntry_queue_length (i : Nat) (f : BEntry → BEntry) : (b.modEntry i f).queue.length = b.queue.length := List.length_map ..

theorem newGroup_key (n : Nat) : (newGroup h n cc).key.toNat = hdrKey h := by
  have hk : hdrKey h < 2 ^ 16 := BitVec.isLt _
  exact (BitVec.toNat_ofNat ..).trans (Nat.mod_eq_of_lt hk)
theorem newGroup_count (n : Nat) : (newGroup h n cc).count.toNat = hdrCount h := by
  have hk : hdrCount h < 2 ^ 12 := BitVec.isLt _
  exact (BitVec.toNat_ofNat ..).trans (Nat.mod_eq_of_lt hk)

end

section
variable {id cc : Nat} {s : State} {q : Packet} {p : Pos} (hq : s.packet id = some q) (hp : q.place = .delivered p) (ht : q.type = 5)
  (hk : q.taken = false) (hc : (s.ut p).cycle ≤ cc) (hl : (s.ut p).flags.lost = false) (hb : q.badHeader = false)
  (hz : ((s.run p cc).core p).spd.zeroing = false)
include hq hp ht hk hc hl hb hz

theorem barge_of_refused {st : Status} (hr : (s.run p cc).bargeRefused p q ((s.run p cc).berth p q.berthNo) cc = some st) :
    exec (.barge id cc) s = .next (((s.run p cc).bargeTurned p q cc st).reply p q st []) := by
  have hx : exec (.barge id cc) s = execBarge id cc s := rfl
  unfold Packet.berthNo at hr
  rw [hx, execBarge, arriveMem, arrive_of_served hq hp (by rw [ht]; rfl) hk hc hl hb]
  simp only [hz, hr]
  rfl
theorem barge_of_accepted (hr : (s.run p cc).bargeRefused p q ((s.run p cc).berth p q.berthNo) cc = none) :
    exec (.barge id cc) s = .next ((s.run p cc).bargeTaken p q cc) := by
  have hx : exec (.barge id cc) s = execBarge id cc s := rfl
  unfold Packet.berthNo at hr
  obtain rfl := packet_id hq
  rw [hx, execBarge, arriveMem, arrive_of_served hq hp (by rw [ht]; rfl) hk hc hl hb]
  simp only [hz, hr]
  rfl

end

theorem bargeArrival_holds : Rules.BargeArrival := by
  intro id cc s q p u k b hq hp ht hk hc hl hb hz
  have refused {st : Status} := barge_of_refused (st := st) hq hp ht hk hc hl hb hz
  have accepted := barge_of_accepted hq hp ht hk hc hl hb hz
  have hv := bargeTaken_berth u p q cc
  refine ⟨fun st hr hn => ?_, fun hr => ?_, fun hr hw => ?_, fun hr hw hg => ?_, fun g hr hw ho hg => ?_, fun g hr hw ho hg => ?_⟩
  · rw [refused hr, State.bargeTurned, if_neg hn]
    rfl
  · rw [refused hr]
    rfl
  · obtain rfl := packet_id hq
    have hv := hv.trans (accept_of_plain b q.hdr _ cc hw)
    exact ⟨_, _, accepted hr, congrArg Berth.queue hv, rfl, rfl, rfl, rfl, ⟨_, rfl, rfl, rfl, lt_bargeLanding u p q cc⟩, bargeTaken_net_length u p q cc,
      _, bargeTaken_packet u p q cc ((run_packet s p cc q.id).trans hq), rfl⟩
  · have hv := hv.trans (accept_of_first b q.hdr _ cc hw hg)
    refine ⟨_, newGroup q.hdr b.freeIdx cc, accepted hr, congrArg Berth.groups hv, newGroup_key .., rfl, rfl, newGroup_count .., rfl, ?_⟩
    exact (congrArg (fun b => b.queue.length) hv).trans List.length_append
  · have hv := hv.trans (accept_of_joined b q.hdr _ cc hw ho hg)
    exact ⟨_, accepted hr, (congrArg Berth.groups hv).trans rfl, (congrArg (fun b => b.queue.length) hv).trans (modEntry_queue_length ..)⟩
  · have hv := hv.trans (accept_of_member b q.hdr _ cc hw ho hg)
    exact ⟨_, accepted hr, (congrArg (fun b => b.queue.length) hv).trans List.length_append, congrArg Berth.groups hv⟩

end Sys2Proof.Machine
end

section
/-! PROOFS. Landing, weirs and delivery (O27): an entry that becomes whole, a group that is delivered, and the barge at the head. -/

namespace Sys2Proof.Machine

open Sys2Proof

/-! ### Entries -/

section
variable (b : Berth)

theorem entry_idx {i : Nat} {e : BEntry} (h : b.entry i = some e) : e.idx = i := by simpa using List.find?_some h
/-- A change of one entry that keeps its number. -/
theorem entry_modEntry {i : Nat} {e : BEntry} {f : BEntry → BEntry} (h : b.entry i = some e) (hf : ∀ x, (f x).idx = x.idx) :
    (b.modEntry i f).entry i = some (f e) := by
  have hg : ((fun x : BEntry => x.idx == i) ∘ fun x => if x.idx = i then f x else x) = fun x => x.idx == i := by
    funext x
    by_cases hx : x.idx = i <;> simp [hx, hf]
  rw [Berth.entry, Berth.modEntry, List.find?_map, hg]
  change (b.entry i).map _ = _
  rw [h, Option.map_some, if_pos (entry_idx b h)]
theorem of_mem_modEntry {i : Nat} {f : BEntry → BEntry} {P : BEntry → Prop} (hP : ∀ x, P (f x)) :
    ∀ x ∈ (b.modEntry i f).queue, x.idx = i → P x := by
  intro x hx hi
  obtain ⟨y, -, rfl⟩ := List.mem_map.mp hx
  split at hi
  · next h => simpa only [h, if_true] using hP y
  · next h => exact absurd hi h

/-- What is left of a group that has been delivered: its first entry, whole, with the result. -/
theorem deliver_queue (g : Group) (pay : List Byte) (st : Status) : ∀ x ∈ (b.deliver g pay st).queue,
    (x.idx = g.entry → x.whole = true ∧ x.combined = true ∧ x.payload = pay) ∧ (x.idx ∈ g.members → x.idx = g.entry) := by
  intro x hx
  obtain ⟨y, hy, rfl⟩ := List.mem_map.mp hx
  have hm : y.idx = g.entry ∨ y.idx ∉ g.members := by simpa using (List.mem_filter.mp hy).2
  split
  · next h => exact ⟨fun _ => ⟨rfl, rfl, rfl⟩, fun _ => h⟩
  · next h => exact ⟨fun he => absurd he h, fun hi => absurd hi (hm.resolve_left h)⟩
theorem deliver_groups (g : Group) (pay : List Byte) (st : Status) :
    (b.deliver g pay st).groups = b.groups.filter fun x => x.key ≠ g.key := List.filter_congr fun x _ => by simp [bne, beq_eq_decide]

end

/-- The contribution no longer lands in the entry. -/
def BEntry.landed (c : Contrib) (e : BEntry) : BEntry := { e with landing := e.landing.erase c }
/-- The entry holds the barge whole. -/
def BEntry.filled (c : Contrib) (e : BEntry) : BEntry := { e with whole := true, payload := c.payload }

/-! ### The steps of a berth -/

section
variable (s : State) (p : Pos) (k : Fin 64)

theorem land_of_ne_nil (due a : Nat) {bs : List Byte} (h : bs ≠ []) : s.land p due a bs = s.modCore p fun c => c.later due (.mem a bs) :=
  if_neg (by simpa using h)
theorem writeEntry_onlyCore (i cc : Nat) (h : BargeHdr) (m : Nat) (c : Bool) (cyc : Nat) (pay : List Byte) :
    OnlyCore p s (s.writeEntry p k i cc h m c cyc pay) := (land_onlyCore ..).trans (land_onlyCore ..)
theorem deliverGroup_berth (g : Group) (c : Bool) (cc : Nat) (st : Status) :
    (s.deliverGroup p k g c cc st).berth p k = (s.berth p k).deliver g ((s.berth p k).groupPayload g) st :=
  ((writeEntry_onlyCore ..).berth p k).trans (State.berth_modBerth ..)
theorem partialGroup_berth (g : Group) (cc : Nat) : (s.partialGroup p k g cc).berth p k =
    { (s.berth p k).deliver g ((s.berth p k).groupPayload g) .heldTimeout with retired := (s.berth p k).retired ++ [g.key] } := by
  rw [State.partialGroup, State.berth_modBerth, deliverGroup_berth]
  rfl
theorem core_modBerth (f : Berth → Berth) (r : Pos) : (s.modBerth p k f).core r = s.core r := State.core_modUt ..

/-- The contribution's packet has its answer. -/
theorem answerContrib_answered {c : Contrib} {q : Packet} (h : s.packet c.packet = some q) (st : Status) :
    ∃ x ∈ (s.answerContrib p c st).net, x.isAnswer q st [] := by
  rw [State.answerContrib, h]
  exact (reply_answered s p q st []).2

/-- A plain barge that has landed: the entry whole, its arrival cycle on the way to the landing header (Table 8.7). -/
def State.plainWhole (s : State) (p : Pos) (k : Fin 64) (i : Nat) (c : Contrib) (cc : Nat) : State :=
  ((s.modBerth p k fun b => b.modEntry i (BEntry.landed c)).modBerth p k fun b =>
    b.modEntry i (BEntry.filled c)).land p cc ((s.berth p k).entryAt i + 24) (natBytes (s.sinceTick p c.landAt) 4)

theorem plainWhole_berth (i : Nat) (c : Contrib) (cc : Nat) : (s.plainWhole p k i c cc).berth p k =
    ((s.berth p k).modEntry i (BEntry.landed c)).modEntry i (BEntry.filled c) := by
  rw [State.plainWhole, (land_onlyCore ..).berth, State.berth_modBerth, State.berth_modBerth]
theorem plainWhole_core (i : Nat) (c : Contrib) (cc : Nat) : (s.plainWhole p k i c cc).core p =
    (s.core p).later cc (.mem ((s.berth p k).entryAt i + 24) (natBytes (s.sinceTick p c.landAt) 4)) := by
  rw [State.plainWhole, land_of_ne_nil _ _ _ _ (bs := natBytes _ 4) (List.cons_ne_nil _ _), State.core_modCore, core_modBerth, core_modBerth]
theorem plainWhole_packet (i : Nat) (c : Contrib) (cc id : Nat) : (s.plainWhole p k i c cc).packet id = s.packet id :=
  (land_onlyCore ..).packet id

/-- The head barge has been delivered: its entry is posted, and its handler's invocation queued. -/
def State.bargePosted (s : State) (p : Pos) (k : Fin 64) (e : BEntry) (cc : Nat) : State :=
  let t := (s.modBerth p k Berth.pass).modBerth p k fun b => b.modEntry e.idx fun x => { x with posted := true }
  if toHandler (s.core p) e.hdr then t.modCtl p fun c => { c with queue := c.queue ++ [invocationOf (s.berth p k).pass k e cc] } else t

theorem bargePosted_berth (e : BEntry) (cc : Nat) :
    (s.bargePosted p k e cc).berth p k = (s.berth p k).pass.modEntry e.idx fun x => { x with posted := true } := by
  have ht : ((s.modBerth p k Berth.pass).modBerth p k fun b => b.modEntry e.idx fun x => { x with posted := true }).berth p k =
      (s.berth p k).pass.modEntry e.idx fun x => { x with posted := true } := by rw [State.berth_modBerth, State.berth_modBerth]
  unfold State.bargePosted
  dsimp only
  split
  · rw [State.berth, State.ut_modCtl]
    exact ht
  · exact ht
theorem bargePosted_queue (e : BEntry) (cc : Nat) : ((s.bargePosted p k e cc).core p).ctl.queue =
    if toHandler (s.core p) e.hdr then (s.core p).ctl.queue ++ [invocationOf (s.berth p k).pass k e cc] else (s.core p).ctl.queue := by
  unfold State.bargePosted
  dsimp only
  split
  · rw [State.core_modCtl, core_modBerth, core_modBerth]
  · rw [core_modBerth, core_modBerth]

end

section
variable {p : Pos} {k : Fin 64} {cc : Nat} {s : State} (hc : (s.ut p).cycle ≤ cc)
include hc

theorem exec_bargeWhole {e : BEntry} {c : Contrib} {n : Nat} (hw : ((s.run p cc).berth p k).weir = false)
    (he : ((s.run p cc).berth p k).entry n = some e) (hl : (e.landing.find? fun c => decide (c.landAt ≤ cc)) = some c) :
    exec (.bargeWhole p k n cc) s = .next (((s.run p cc).plainWhole p k n c cc).answerContrib p c .done) := by
  have hx : exec (.bargeWhole p k n cc) s = execBargeWhole p k n cc s := rfl
  obtain rfl := entry_idx _ he
  rw [hx, execBargeWhole, if_neg (Nat.not_lt.mpr hc)]
  simp only [he, hl, Option.bind_some, Option.map_some, State.wholeEntry, hw]
  rfl
theorem exec_orderedCombine {g : Group} {key : BitVec 16} (hg : ((s.run p cc).berth p k).group key = some g)
    (ho : ((s.run p cc).berth p k).ordered = true) (hm : g.count.toNat ≤ g.merged) :
    exec (.orderedCombine p k key cc) s = .next ((((s.run p cc).modBerth p k fun b =>
      { b with excess := b.excess + BitVec.ofNat 12 (g.merged - g.count.toNat) }).deliverGroup p k g true cc .done)) := by
  have hx : exec (.orderedCombine p k key cc) s = execOrderedCombine p k key cc s := rfl
  rw [hx, execOrderedCombine, if_neg (Nat.not_lt.mpr hc)]
  simp [hg, ho, hm]
theorem exec_weirTimeout {g : Group} {key : BitVec 16} (hg : ((s.run p cc).berth p k).group key = some g)
    (h0 : ((s.run p cc).berth p k).weirTimeout ≠ 0) (ht : g.firstCc + ((s.run p cc).berth p k).weirTimeout.toNat ≤ cc) (hm : g.merged < g.count.toNat) :
    exec (.weirTimeout p k key cc) s = .next ((s.run p cc).partialGroup p k g cc) := by
  have hx : exec (.weirTimeout p k key cc) s = execWeirTimeout p k key cc s := rfl
  rw [hx, execWeirTimeout, if_neg (Nat.not_lt.mpr hc)]
  simp only [hg, if_pos (show _ ∧ _ ∧ _ from ⟨h0, ht, hm⟩)]
theorem exec_bargeDelivery {e : BEntry} {r : List BEntry} (hq : ((s.run p cc).berth p k).pass.queue = e :: r) (hw : e.whole = true)
    (hm : e.member = false) (hp : e.posted = false) : exec (.bargeDelivery p k cc) s = .next ((s.run p cc).bargePosted p k e cc) := by
  have hx : exec (.bargeDelivery p k cc) s = execBargeDelivery p k cc s := rfl
  rw [hx, execBargeDelivery, if_neg (Nat.not_lt.mpr hc)]
  simp only [State.berth_modBerth, hq, hw, hm, hp, core_modBerth]
  rfl

end

theorem bargeDeliveryRules_hold : Rules.BargeDeliveryRules := by
  intro p k cc s u b hc
  refine ⟨fun e c n hw he hl => ?_, fun g key hg ho hm => ?_, fun g key hg h0 ht hm => ?_, fun e r hq hw hm hp => ?_⟩
  · obtain ⟨ns, i, hn⟩ := answerContrib_onlyNet (u.plainWhole p k n c cc) p c .done
    have hb : ((u.plainWhole p k n c cc).answerContrib p c .done).berth p k = (u.plainWhole p k n c cc).berth p k := by rw [hn]; rfl
    have hcore : ((u.plainWhole p k n c cc).answerContrib p c .done).core p = (u.plainWhole p k n c cc).core p := by rw [hn]; rfl
    rw [plainWhole_berth] at hb
    refine ⟨_, { e with landing := e.landing.erase c, whole := true, payload := c.payload }, exec_bargeWhole hc hw he hl, ?_, rfl, rfl, rfl, ?_, ?_, ?_⟩
    · rw [hb]
      exact entry_modEntry (f := BEntry.filled c) _ (entry_modEntry (f := BEntry.landed c) b he fun _ => rfl) fun _ => rfl
    · rw [hb, modEntry_queue_length, modEntry_queue_length]
    · rw [hcore, plainWhole_core]
    · intro q hq
      obtain ⟨x, hx, ht, hst, -, hop⟩ := answerContrib_answered (u.plainWhole p k n c cc) p ((plainWhole_packet u p k n c cc c.packet).trans hq) .done
      exact ⟨x, hx, hst, hop, ht⟩
  · have hv := deliverGroup_berth (u.modBerth p k fun b => { b with excess := b.excess + BitVec.ofNat 12 (g.merged - g.count.toNat) }) p k g true cc .done
    rw [State.berth_modBerth] at hv
    refine ⟨_, exec_orderedCombine hc hg ho hm, ?_⟩
    rw [hv]
    refine ⟨deliver_groups .., rfl, fun x hx => (deliver_queue _ g _ _ x hx).1, fun x hx => (deliver_queue _ g _ _ x hx).2⟩
  · have hv := partialGroup_berth u p k g cc
    refine ⟨_, exec_weirTimeout hc hg h0 ht hm, ?_⟩
    rw [hv]
    refine ⟨deliver_groups b g (b.groupPayload g) .heldTimeout, rfl, fun x hx he => ?_⟩
    obtain ⟨hwhole, hcomb, -⟩ := (deliver_queue b g (b.groupPayload g) .heldTimeout x hx).1 he
    exact ⟨hwhole, hcomb⟩
  · refine ⟨_, exec_bargeDelivery hc hq hw hm hp, ?_, fun ht => ?_, fun ht => ?_⟩
    · rw [bargePosted_berth]
      exact of_mem_modEntry _ fun _ => rfl
    · exact (bargePosted_queue u p k e cc).trans (if_pos ht)
    · exact (bargePosted_queue u p k e cc).trans (if_neg (Bool.eq_false_iff.mp ht))

/-- Settles O27: what the arrival of a barge does (Table 8.8), and what its landing, the weirs and its delivery do. -/
theorem bargesArrive : Obligations.BargesArrive := ⟨bargeArrival_holds, bargeDeliveryRules_hold⟩

end Sys2Proof.Machine
end

section
/-! PROOFS. Answers at the sender (O28): the staging entry and the slot of a barge that is answered, and of one that goes out again. -/

namespace Sys2Proof.Machine

open Sys2Proof

/-! ### What an answer leaves (R274) -/

section
variable (s : State) (p : Pos) (q : Packet)

/-- An answer changes at most what the operations of its core count against the window. -/
theorem answerTaken_core : ∃ l, (s.answerTaken p q).core p = { s.core p with mov := { (s.core p).mov with slots := l } } := by
  unfold State.answerTaken
  split
  · exact ⟨_, by rw [State.modOp, core_modMov]; rfl⟩
  · exact ⟨_, rfl⟩
theorem answerTaken_slot {k : Fin 64} {o : MoveOp} (ho : (s.slot p k).op = some o) :
    ∃ m, ((s.answerTaken p q).slot p k).op = some { o with vc2 := m } := by
  unfold State.answerTaken
  split
  · obtain ⟨m, hm⟩ := modOp_slot_vc2 (s := s.dropPacket q.id) (f := fun o => { o with vc2 := o.vc2 - q.rflits }) ho q.opId rfl
    exact ⟨m, congrArg Slot.op hm⟩
  · exact ⟨o.vc2, ho⟩
theorem takeAnswer_of_late (he : q.echo = false) (hk : s.slotOfOp p q.opId = none) (cc : Nat) (f : Fin 64 → MoveOp → State → State) :
    s.takeAnswer p q cc f = (s.dropPacket q.id).late p := by
  have hk' : (s.dropPacket q.id).slotOfOp p q.opId = none := hk
  unfold State.takeAnswer
  simp only [he, hk', Bool.false_eq_true, if_false]

end

/-! ### Staging entries and slots -/

section
variable (s : State) (p : Pos) (g : Fin 8) (k : Fin 64) (st : Status)

theorem modStage_staging (f : Option Staged → Option Staged) : ((s.modStage p g f).core p).mov.staging[g] = f (s.core p).mov.staging[g] := by
  rw [State.modStage, core_modMov]
  exact vmod_get_same _ _ _
theorem modStage_stalls (f : Option Staged → Option Staged) : ((s.modStage p g f).core p).mov.stalls = (s.core p).mov.stalls := by
  rw [State.modStage, core_modMov]
theorem modStage_slot (f : Option Staged → Option Staged) : (s.modStage p g f).slot p k = s.slot p k := by
  rw [State.slot, State.modStage, core_modMov]
  rfl

theorem endOp_staging : ((s.endOp p k st).core p).mov.staging = (s.core p).mov.staging := by rw [State.endOp, State.modSlot, core_modMov]
theorem endOp_stalls : ((s.endOp p k st).core p).mov.stalls = (s.core p).mov.stalls := by rw [State.endOp, State.modSlot, core_modMov]
theorem endOp_slot : (s.endOp p k st).slot p k = { s.slot p k with op := (s.slot p k).op.map fun o => { o with outcome := some st } } := by
  rw [State.slot, State.endOp, State.modSlot, core_modMov]
  exact vmod_get_same _ _ _

end

/-! ### The barge's answer (R227, R228) -/

/-- The barge has left staging, and its operation has ended. -/
def State.bargeEnded (s : State) (p : Pos) (g : Fin 8) (k : Fin 64) (st : Status) : State := (s.modStage p g fun _ => none).endOp p k st

/-- A stalled send has been noted (R228). -/
def State.stalled (s : State) (p : Pos) (x : SendStall) : State := s.modMov p fun m => { m with stalls := m.stalls ++ [x] }

section
variable (s : State) (p : Pos) (g : Fin 8) (k : Fin 64) (st : Status)

theorem stalled_staging (x : SendStall) : ((s.stalled p x).core p).mov.staging = (s.core p).mov.staging := by rw [State.stalled, core_modMov]
theorem stalled_stalls (x : SendStall) : ((s.stalled p x).core p).mov.stalls = (s.core p).mov.stalls ++ [x] := by rw [State.stalled, core_modMov]
theorem stalled_slot (x : SendStall) : (s.stalled p x).slot p k = s.slot p k := by
  rw [State.slot, State.stalled, core_modMov]
  rfl

theorem bargeEnded_staging : ((s.bargeEnded p g k st).core p).mov.staging[g] = none := by rw [State.bargeEnded, endOp_staging, modStage_staging]
theorem bargeEnded_stalls : ((s.bargeEnded p g k st).core p).mov.stalls = (s.core p).mov.stalls := by
  rw [State.bargeEnded, endOp_stalls, modStage_stalls]
theorem bargeEnded_slot {o : MoveOp} (h : (s.slot p k).op = some o) :
    ((s.bargeEnded p g k st).slot p k).op = some { o with outcome := some st } := by
  rw [State.bargeEnded, endOp_slot, modStage_slot, h]
  rfl

theorem bargeAnswered_of_backoff {e : Staged} {cc : Nat} (h : cc < e.deadline) :
    s.bargeAnswered p g e .berthFull cc = s.modStage p g fun _ => some (e.full cc) := if_pos ⟨rfl, h⟩
theorem bargeAnswered_of_end {e : Staged} {st : Status} (h : st ≠ .berthFull) (cc : Nat) :
    s.bargeAnswered p g e st cc = s.bargeEnded p g e.slot st := by
  rw [State.bargeAnswered, if_neg (fun hx => h hx.1)]
  exact if_neg h
theorem bargeAnswered_of_deadline {e : Staged} {cc : Nat} (h : e.deadline ≤ cc) : s.bargeAnswered p g e .berthFull cc =
    (s.bargeEnded p g e.slot .berthFull).stalled p (stalledBarge (e.full cc) cc) := by
  rw [State.bargeAnswered, if_neg (fun hx => Nat.not_lt.mpr h hx.2)]
  exact if_pos rfl

end

section
variable {p : Pos} {g : Fin 8} {cc : Nat} {s : State} {e : Staged} (hc : (s.ut p).cycle ≤ cc)
include hc

theorem exec_bargeAns {id : Nat} {q : Packet} {o : MoveOp} (hq : s.packet id = some q) (hd : q.place = .delivered p) (ht : q.type = 6)
    (hk : q.taken = false) (hl : (s.ut p).flags.lost = false) (hb : q.badHeader = false) (he : q.echo = false)
    (hg : (s.run p cc).stagedOf p q = some g) (hs : ((s.run p cc).core p).mov.staging[g] = some e)
    (ho : ((s.run p cc).slot p e.slot).op = some o) (hn : (s.run p cc).slotOfOp p o.id = some e.slot) :
    exec (.bargeAns id cc) s = .next (((s.run p cc).answerTaken p { q with opId := o.id }).bargeAnswered p g e q.status cc) := by
  have hx : exec (.bargeAns id cc) s = execBargeAns id cc s := rfl
  obtain ⟨m, hm⟩ := answerTaken_slot (s.run p cc) p { q with opId := o.id } ho
  rw [hx, execBargeAns, arrive_of_served hq hd (by rw [ht]; rfl) hk hc hl hb]
  simp only [hg, hs, ho]
  rw [takeAnswer_of_slot (q := { q with opId := o.id }) he hn hm]

/-- The barge is on its way again. -/
def Staged.resent (e : Staged) : Staged := { e with retryAt := none, inFlight := true }
/-- The number of the operation that a slot holds. -/
def State.slotOp (s : State) (p : Pos) (k : Fin 64) : Nat := match (s.slot p k).op with | some o => o.id | none => 0

variable {c : Nat} (hs : ((s.run p cc).core p).mov.staging[g] = some e) (hr : e.retryAt = some c) (hcc : c ≤ cc)
include hs hr hcc

theorem bargeRetry_of_unsafe (hu : (s.run p cc).timingUnsafe p ((s.run p cc).vcOf p e.ctx) (hdrLt e.hdr) = true) :
    exec (.bargeRetry p g cc) s = .next ((s.run p cc).bargeEnded p g e.slot .timingUnsafe_) := by
  have hx : exec (.bargeRetry p g cc) s = execBargeRetry p g cc s := rfl
  rw [hx, execBargeRetry, if_neg (Nat.not_lt.mpr hc)]
  simp only [hs, hr, hcc, hu, if_true]
  rfl
theorem bargeRetry_of_safe (hu : (s.run p cc).timingUnsafe p ((s.run p cc).vcOf p e.ctx) (hdrLt e.hdr) = false) :
    exec (.bargeRetry p g cc) s = .next (((s.run p cc).modStage p g fun _ => some e.resent).inject p
      ((s.run p cc).bargePacket p ((s.run p cc).vcOf p e.ctx) e ((s.run p cc).slotOp p e.slot))) := by
  have hx : exec (.bargeRetry p g cc) s = execBargeRetry p g cc s := rfl
  rw [hx, execBargeRetry, if_neg (Nat.not_lt.mpr hc)]
  simp only [hs, hr, hcc, hu, if_true]
  rfl

end

/-- The packet that enters the fabric, but for its number. -/
theorem inject_net (s : State) (p : Pos) (q : Packet) : ∃ y, (s.inject p q).net = s.net ++ [y] ∧ y.unnumbered = q.unnumbered := by
  obtain ⟨xs, hn, hx⟩ := (inject_injected s p q).net
  obtain ⟨y, rfl, hy⟩ := List.map_eq_singleton_iff.mp hx
  exact ⟨y, hn, hy⟩

theorem bargeSender_holds : Rules.BargeSender := by
  intro p g cc s e u hc
  refine ⟨fun id q o hq hd ht hk hl hb he hg hs ho hn => ?_, fun c hs hr hcc => ⟨fun hu => ?_, fun hu => bargeRetry_of_unsafe hc hs hr hcc hu⟩⟩
  · have hx := exec_bargeAns hc hq hd ht hk hl hb he hg hs ho hn
    obtain ⟨m, hm⟩ := answerTaken_slot u p { q with opId := o.id } ho
    obtain ⟨l, hcore⟩ := answerTaken_core u p { q with opId := o.id }
    have hst := congrArg (fun c : Core => c.mov.stalls) hcore
    refine ⟨fun hf hlt => ?_, fun hf => ?_, fun hf hle => ?_⟩
    · rw [hf, bargeAnswered_of_backoff _ _ _ hlt] at hx
      exact ⟨_, _, hx, modStage_staging .., rfl, rfl, rfl, rfl, rfl⟩
    · rw [bargeAnswered_of_end _ _ _ hf] at hx
      exact ⟨_, _, hx, bargeEnded_staging .., bargeEnded_slot _ _ _ _ _ hm, rfl, (bargeEnded_stalls ..).trans hst⟩
    · rw [hf, bargeAnswered_of_deadline _ _ _ hle] at hx
      refine ⟨_, { o with vc2 := m, outcome := some .berthFull }, hx, ?_, ?_, rfl, ?_⟩
      · rw [stalled_staging]
        exact bargeEnded_staging ..
      · rw [stalled_slot]
        exact bargeEnded_slot _ _ _ _ _ hm
      · rw [stalled_stalls, bargeEnded_stalls, List.length_append]
        exact congrArg (fun l => List.length l + 1) hst
  · obtain ⟨y, hn, hy⟩ := inject_net (u.modStage p g fun _ => some e.resent) p (u.bargePacket p (u.vcOf p e.ctx) e (u.slotOp p e.slot))
    obtain ⟨l, hcore⟩ := inject_core (u.modStage p g fun _ => some e.resent) p (u.bargePacket p (u.vcOf p e.ctx) e (u.slotOp p e.slot))
    have ht := congrArg Packet.type hy
    have hp := congrArg Packet.payload hy
    have hh := congrArg Packet.hdr hy
    refine ⟨_, e.resent, y, bargeRetry_of_safe hc hs hr hcc hu, ?_, rfl, rfl, hn, ht.trans (fromCtx_header ..).1, hp, hh⟩
    rw [hcore]
    exact modStage_staging u p g _

end Sys2Proof.Machine
end

section
/-! PROOFS. Remote writes at their window and the answers to writes, signals and reads (O28). -/

namespace Sys2Proof.Machine

open Sys2Proof

/-! ### A write at its window (R233, Table 8.11) -/

/-- The record of a write that begins, with what Table 8.11 says of it. -/
def Window.begins (w : Window) (q : Packet) (r : Option Status) : WAcc :=
  { skind := q.skind, src := q.src, op := q.opId, refused := r, got := 0, last := none, landAt := 0, era := w.era }
/-- The window once a write has begun there; a refused one is counted. -/
def Window.begun (w : Window) (q : Packet) (r : Option Status) : Window :=
  { w with refused := if r.isSome then w.refused + 1 else w.refused, accs := w.accs ++ [w.begins q r] }

theorem begun_find {w : Window} {q : Packet} (h : w.accs.any (fun a => a.of q) = false) (r : Option Status) :
    (w.begun q r).accs.find? (fun a => a.of q) = some (w.begins q r) := by
  have hn : w.accs.find? (fun a => a.of q) = none := List.find?_eq_none.mpr (List.any_eq_false.mp h)
  have ho : (w.begins q r).of q = true := by simp [Window.begins, WAcc.of]
  rw [Window.begun, List.find?_append, hn, Option.none_or, List.find?_cons_of_pos ho]

/-- Answers that leave no earlier than a cycle. -/
theorem replyFrom_answered (s : State) (p : Pos) (q : Packet) (c : Nat) (st : Status) (data : List Byte) :
    (¬ (q.isAnswer q st data ∧ q.readyAt = c) → q ∉ (s.replyFrom p q c st data).net) ∧
      ∃ x ∈ (s.replyFrom p q c st data).net, x.isAnswer q st data ∧ x.readyAt = c := by
  refine emitAll_answered (P := fun x => x.isAnswer q st data ∧ x.readyAt = c) s q (fun _ => rfl)
    (fun h => answers_ne_nil q _ _ st data (List.map_eq_nil_iff.mp h)) fun x hx => ?_
  obtain ⟨a, ha, rfl⟩ := List.mem_map.mp hx
  exact ⟨answers_are q _ _ st data a ha, rfl⟩
theorem replyFrom_onlyNet (s : State) (p : Pos) (q : Packet) (c : Nat) (st : Status) (data : List Byte) :
    OnlyNet s (s.replyFrom p q c st data) := OnlyNet.trans ⟨_, s.nextPkt, rfl⟩ (emitAll_onlyNet (s.dropPacket q.id) _)

section
variable {s t : State} (h : OnlyNet s t) (p : Pos)
include h

theorem OnlyNet.core : t.core p = s.core p := by
  obtain ⟨ns, n, rfl⟩ := h
  rfl
theorem OnlyNet.window (k : Fin 256) : t.window p k = s.window p k := by
  obtain ⟨ns, n, rfl⟩ := h
  rfl

end

theorem core_modWindow (s : State) (p r : Pos) (k : Fin 256) (f : Window → Window) : (s.modWindow p k f).core r = s.core r := State.core_modUt ..

section
variable {id cc : Nat} {s : State} {q : Packet} {p : Pos} (hq : s.packet id = some q) (hd : q.place = .delivered p) (hk : q.taken = false)
  (hc : (s.ut p).cycle ≤ cc) (hl : (s.ut p).flags.lost = false) (hb : q.badHeader = false)
include hq hd hk hc hl hb

section
variable {k : Fin 256} {w : Window} (hkw : k = Fin.ofNat 256 q.win.toNat) (hw : w = ((s.run p cc).window p k).tidy cc) (ht : q.type = 3)
  (hz : ((s.run p cc).core p).spd.zeroing = false) (hn : w.accs.any (fun a => a.of q) = false)
include hkw hw ht hz hn

theorem wr_of_refused {st : Status} (hr : (s.run p cc).writeRefused p q w cc = some st) : exec (.wr id cc) s =
    .next (((s.run p cc).modWindow p k fun _ => ((w.begun q (some st)).saw q 0).tidy cc).reply p q st []) := by
  have hx : exec (.wr id cc) s = execWr id cc s := rfl
  have hf := begun_find hn (some st)
  unfold Window.begun Window.begins at hf ⊢
  subst hkw hw
  rw [hx, execWr, arriveMem, arrive_of_served hq hd (by rw [ht]; rfl) hk hc hl hb]
  simp only [hz, hn, hr, hf, Bool.false_eq_true, if_false, Option.bind_some]
theorem wr_of_accepted (hr : (s.run p cc).writeRefused p q w cc = none) : exec (.wr id cc) s =
    .next ((((s.run p cc).niWrite p cc (addrOff q.addr) q.payload .mem).1.modWindow p k fun _ =>
      (w.begun q none).saw q ((s.run p cc).niWrite p cc (addrOff q.addr) q.payload .mem).2).replyFrom p q
      ((s.run p cc).niWrite p cc (addrOff q.addr) q.payload .mem).2 .done []) := by
  have hx : exec (.wr id cc) s = execWr id cc s := rfl
  have hf := begun_find hn none
  unfold Window.begun Window.begins at hf ⊢
  subst hkw hw
  rw [hx, execWr, arriveMem, arrive_of_served hq hd (by rw [ht]; rfl) hk hc hl hb]
  simp only [hz, hn, hr, hf, Bool.false_eq_true, if_false, Option.bind_some]

end

/-! ### Answers at the interface (R274, R246) -/

theorem exec_wrAns (ht : q.type = 4) (hg : ∀ e off, q.tag ≠ .errand e off) : exec (.wrAns id cc) s = .next ((s.run p cc).wrAns p q cc) := by
  have hx : exec (.wrAns id cc) s = execWrAns id cc s := rfl
  rw [hx, execWrAns, arrive_of_served hq hd (by rw [ht]; rfl) hk hc hl hb]
  split
  · next e off h => exact absurd h (hg e off)
  · rfl
theorem exec_rdData (ht : q.type = 2) (hz : ((s.run p cc).core p).spd.zeroing = false) (hg : ∀ e off, q.tag ≠ .errand e off) :
    exec (.rdData id cc) s = .next ((s.run p cc).rdData p q cc) := by
  have hx : exec (.rdData id cc) s = execRdData id cc s := rfl
  rw [hx, execRdData, arrive_of_served hq hd (by rw [ht]; rfl) hk hc hl hb]
  split
  · next e off h => exact absurd h (hg e off)
  · rw [if_neg (by simp [hz])]
theorem exec_csigAns {n : Fin 64} (ht : q.type = 8) (hn : (s.run p cc).slotOfOp p q.opId = some n) :
    exec (.csigAns id cc) s = .next ((s.run p cc).wrAns p q cc) := by
  have hx : exec (.csigAns id cc) s = execCsigAns id cc s := rfl
  rw [hx, execCsigAns, arrive_of_served hq hd (by rw [ht]; rfl) hk hc hl hb]
  simp only [hn]
  rfl

end

/-! ### The last answer of an operation -/

/-- The state in which an operation has taken an answer. -/
def State.opTaken (s : State) (p : Pos) (q : Packet) : State := (s.answerTaken p q).opAnswered p q.opId q.status

theorem answered_outcome {o : MoveOp} (h : o.left = 1) (st : Status) :
    (o.answered st).outcome = some (if o.worst = .done then st else o.worst) := by
  simp [MoveOp.answered, h]

section
variable (s : State) (p : Pos) (q : Packet)

theorem opTaken_net : (s.opTaken p q).net = s.net.filter fun x => x.id ≠ q.id := by
  have hn : (s.opTaken p q).net = (s.dropPacket q.id).net := (answerTaken_kept s p q).2.2
  rw [hn]
  exact List.filter_congr fun x _ => by simp [bne, beq_eq_decide]
theorem opTaken_streams : (s.opTaken p q).streams p = s.streams p := by
  refine Eq.trans ?_ (answerTaken_kept s p q).1
  rw [State.streams, State.opTaken, State.opAnswered, State.modOp, core_modMov]
  rfl
theorem opTaken_pend : ((s.opTaken p q).core p).pend = (s.core p).pend := by
  obtain ⟨l, h⟩ := answerTaken_core s p q
  rw [State.opTaken, State.opAnswered, State.modOp, core_modMov, h]

variable {s p q} {n : Fin 64} {o : MoveOp} (ho : (s.slot p n).op = some o) (hi : o.id = q.opId)
include ho hi

/-- An operation that waits for one answer more ends with it. -/
theorem opTaken_slot (hl : o.left = 1) (hn : o.outcome = none) : ∃ y, ((s.opTaken p q).slot p n).op = some y ∧ y.id = o.id ∧
    y.outcome = some (if o.worst = .done then q.status else o.worst) := by
  obtain ⟨m, hm⟩ := answerTaken_slot s p q ho
  refine ⟨({ o with vc2 := m } : MoveOp).answered q.status, ?_, rfl, answered_outcome hl q.status⟩
  rw [State.opTaken, State.opAnswered, modOp_slot, hm, Option.map_some, if_pos (by simp [hi, hn])]

variable (he : q.echo = false) (hk : s.slotOfOp p q.opId = some n) (cc : Nat)
include he hk

theorem wrAns_of_slot : s.wrAns p q cc = s.opTaken p q := by
  obtain ⟨m, hm⟩ := answerTaken_slot s p q ho
  rw [State.wrAns, takeAnswer_of_slot he hk hm]
  exact congrArg (fun i => (s.answerTaken p q).opAnswered p i q.status) hi

end

/-! ### Read data (R175, R246) -/

/-- Without a stream chunk that is due, DI serves none. -/
theorem releaseDue_of_none {s : State} {p : Pos} {cc : Nat} (h : ∀ x ∈ s.streams p, x.dueIn cc = false) (n : Nat) : State.releaseDue p cc n s = s := by
  cases n with
  | zero => rfl
  | succ n =>
    have hn : (s.core p).mov.streams.find? (fun st => st.dueIn cc) = none := List.find?_eq_none.mpr fun x hx => by simp [h x hx]
    rw [State.releaseDue, hn]

/-- The operation with a number has data that land in a cycle. -/
def State.opLands (s : State) (p : Pos) (n c : Nat) : State := s.modMov p fun m =>
  { m with slots := m.slots.map fun x => { x with op := x.op.map fun y => if y.id = n then { y with landAt := max y.landAt c } else y } }

section
variable (s : State) (p : Pos)

theorem opLands_pend (n c : Nat) : ((s.opLands p n c).core p).pend = (s.core p).pend := by rw [State.opLands, core_modMov]
theorem opLands_slot {k : Fin 64} {y : MoveOp} (h : (s.slot p k).op = some y) (c : Nat) :
    ((s.opLands p y.id c).slot p k).op = some { y with landAt := max y.landAt c } := by
  have hs : (s.core p).mov.slots[k.val].op = some y := h
  rw [State.slot, State.opLands, core_modMov]
  simp [hs]

theorem engine_pend (port cc : Nat) (l : List (Nat × Nat)) : ((s.engine p port cc l).1.core p).pend = (s.core p).pend := by
  unfold State.engine
  dsimp only
  rw [State.core_modSpd]
theorem engine_slot (port cc : Nat) (l : List (Nat × Nat)) (k : Fin 64) : (s.engine p port cc l).1.slot p k = s.slot p k := by
  unfold State.engine
  dsimp only
  rw [State.slot, State.core_modSpd]
  rfl
theorem land_pend (due a : Nat) {bs : List Byte} (h : bs ≠ []) : ((s.land p due a bs).core p).pend = pendInsert ⟨due, .mem a bs⟩ (s.core p).pend := by
  rw [land_of_ne_nil _ _ _ _ h, State.core_modCore]
  rfl
theorem land_slot (due a : Nat) {bs : List Byte} (h : bs ≠ []) (k : Fin 64) : (s.land p due a bs).slot p k = s.slot p k := by
  rw [land_of_ne_nil _ _ _ _ h, State.slot, State.core_modCore]
  rfl

/-- DI moves the data of an answer; the cycle from which they count. -/
def State.dataMoved (s : State) (p : Pos) (q : Packet) (cc : Nat) : State × Nat := s.engine p 5 cc [(q.base.toNat, q.payload.length)]

end

section
variable {s : State} {p : Pos} {q : Packet} {n : Fin 64} {o : MoveOp} (ho : (s.slot p n).op = some o) (hi : o.id = q.opId) (he : q.echo = false)
  (hk : s.slotOfOp p q.opId = some n) {cc : Nat}
include ho hi he hk

theorem rdData_of_slot (hs : ∀ x ∈ s.streams p, x.dueIn cc = false) (hd : q.status = .done) : s.rdData p q cc =
    ((((s.opTaken p q).dataMoved p q cc).1.land p ((s.opTaken p q).dataMoved p q cc).2 q.base.toNat q.payload).opLands p q.opId
      ((s.opTaken p q).dataMoved p q cc).2) := by
  obtain ⟨m, hm⟩ := answerTaken_slot s p q ho
  have hr := releaseDue_of_none (s := s.opTaken p q) (by rwa [opTaken_streams]) ((s.opTaken p q).ringLines p)
  unfold State.opTaken at hr ⊢
  rw [State.rdData, takeAnswer_of_slot he hk hm]
  simp only [hi, if_pos hd, hr]
  rfl

end

theorem remoteWrites_hold : Rules.RemoteWrites := by
  intro id cc s q p u k w hq hid hd hk hc hl hb
  refine ⟨fun st ht hz hn hr => ?_, fun ht hz hn hr hp => ?_, fun n o hg he hs ho hi hleft hout => ⟨fun ht => ?_, fun ht => ?_, fun ht hz hdue hdone hp => ?_⟩,
    fun hg he hs => ⟨fun ht => ?_, fun ht hz => ?_⟩⟩
  · have ho := reply_onlyNet (u.modWindow p k fun _ => ((w.begun q (some st)).saw q 0).tidy cc) p q st []
    obtain ⟨hgone, a, ha, hat, hast, -, haop⟩ := reply_answered (u.modWindow p k fun _ => ((w.begun q (some st)).saw q 0).tidy cc) p q st []
    rw [ht] at hgone hat
    have hcore := (ho.core p).trans (core_modWindow ..)
    refine ⟨_, wr_of_refused hq hd hk hc hl hb rfl rfl ht hz hn hr, ?_, ⟨a, ha, hat, hast, haop⟩, hgone (by decide), congrArg Core.spd hcore,
      congrArg Core.pend hcore⟩
    rw [ho.window, State.window_modWindow]
    rfl
  · intro x
    have ho := replyFrom_onlyNet (x.1.modWindow p k fun _ => (w.begun q none).saw q x.2) p q x.2 .done []
    obtain ⟨hgone, a, ha, ⟨hat, hast, -, haop⟩, hready⟩ := replyFrom_answered (x.1.modWindow p k fun _ => (w.begun q none).saw q x.2) p q x.2 .done []
    have hno : ¬ (q.isAnswer q .done [] ∧ q.readyAt = x.2) := fun h => absurd h.1.1 (by rw [ht]; decide)
    rw [ht] at hat
    refine ⟨lt_niWrite _ _ _ _ hp _, _, wr_of_accepted hq hd hk hc hl hb rfl rfl ht hz hn hr, ?_, (ho.core p).trans (core_modWindow ..),
      ⟨a, ha, hat, hast, haop, hready⟩, hgone hno⟩
    rw [ho.window, State.window_modWindow]
    rfl
  · obtain ⟨y, hy, -, hyo⟩ := opTaken_slot ho hi hleft hout
    refine ⟨_, y, exec_wrAns hq hd hk hc hl hb ht hg, ?_⟩
    rw [wrAns_of_slot ho hi he hs]
    exact ⟨hy, hyo, opTaken_net ..⟩
  · obtain ⟨y, hy, -, hyo⟩ := opTaken_slot ho hi hleft hout
    refine ⟨_, y, exec_csigAns hq hd hk hc hl hb ht hs, ?_⟩
    rw [wrAns_of_slot ho hi he hs]
    exact ⟨hy, hyo⟩
  · obtain ⟨y, hy, hyi, hyo⟩ := opTaken_slot ho hi hleft hout
    have hx := exec_rdData hq hd hk hc hl hb ht hz hg
    rw [rdData_of_slot ho hi he hs hdue hdone] at hx
    have hslot : (((u.opTaken p q).dataMoved p q cc).1.land p ((u.opTaken p q).dataMoved p q cc).2 q.base.toNat q.payload).slot p n =
      (u.opTaken p q).slot p n := (land_slot _ _ _ _ hp n).trans (engine_slot ..)
    have hlands := opLands_slot _ p ((congrArg Slot.op hslot).trans hy) ((u.opTaken p q).dataMoved p q cc).2
    rw [hyi, hi] at hlands
    refine ⟨_, _, ((u.opTaken p q).dataMoved p q cc).2, hx, hlands, engine_lt _ p 5 cc _ _ [] (mt List.length_eq_zero_iff.mp hp), le_max_right .., ?_, ?_⟩
    · rw [hdone] at hyo
      exact hyo.trans (congrArg some (ite_eq_right_iff.mpr Eq.symm))
    · rw [opLands_pend, land_pend _ _ _ _ hp]
      exact congrArg (pendInsert _) ((engine_pend ..).trans (opTaken_pend ..))
  · rw [exec_wrAns hq hd hk hc hl hb ht hg, State.wrAns, takeAnswer_of_late _ _ _ he hs, hid]
  · rw [exec_rdData hq hd hk hc hl hb ht hz hg, State.rdData, takeAnswer_of_late _ _ _ he hs, hid]

/-- Settles O28: what a sender does with the answer to a barge, and what a remote write does at its window and its answer at the sender. -/
theorem sendersAndWindows : Obligations.SendersAndWindows := ⟨bargeSender_holds, remoteWrites_hold⟩

end Sys2Proof.Machine
end

section
/-! PROOFS. Packets that move (O30): where a moved packet is found, what an injection leaves, and one hop at a router, by its exit. -/

namespace Sys2Proof.Machine

open Sys2Proof

/-! ### A packet that moves on -/

theorem packet_movePacket {s : State} {id : Nat} {q : Packet} {f : Packet → Packet} (h : s.packet id = some q) (hf : (f q).id = id) :
    (s.movePacket id f).packet id = some (f q) := by
  obtain ⟨r, hr⟩ := List.head?_eq_some_iff.mp ((List.head?_filter ..).trans h)
  have hgone : (s.net.filter fun x => x.id != id).find? (fun x => x.id == id) = none := packet_dropPacket s id
  rw [State.packet, State.movePacket, List.find?_append, hgone, Option.none_or, hr, List.map_cons, List.find?_cons_of_pos (by simp [hf])]

/-! ### Injection (R260, R274) -/

section
variable (s : State) (p : Pos) (q : Packet)

theorem mesh_modMesh (f : Mesh → Mesh) : ((s.modMesh p f).ut p).mesh = f (s.ut p).mesh := by rw [State.modMesh, State.ut_modUt]

theorem chDsts_mesh (l : List PendW) (u : UnderTile) : (l.foldl (fun u w => u.chDst w.dst) u).mesh = u.mesh :=
  foldl_reads_same (g := UnderTile.mesh) (fun u w _ => by unfold UnderTile.chDst; split <;> rfl) u
theorem run_mesh (cc : Nat) : ((s.run p cc).ut p).mesh = (s.ut p).mesh := by
  rw [State.run, fetch_ut, State.ut_advance, chDsts_mesh, State.ut_modCore]

theorem startTimer_net : (s.startTimer p q).net = s.net := by
  unfold State.startTimer
  split
  · rfl
  · split
    · dsimp only
      split <;> rfl
    · rfl

/-- An interface sends a packet with the routing version in force. -/
theorem leaves_packet (d : Place) (h : s.packet q.id = some q) :
    (s.leaves p q d).packet q.id = some { q with place := d, epoch := (s.ut p).mesh.epoch, inPort := 4 } := by
  unfold State.leaves
  extract_lets s1
  have h1 : s1.packet q.id = some q ∧ (s1.ut p).mesh = (s.ut p).mesh := by
    unfold s1
    split
    · exact ⟨(run_packet ..).trans h, run_mesh s p _⟩
    · exact ⟨h, rfl⟩
  rw [State.packet, startTimer_net, ← h1.2]
  exact packet_movePacket h1.1 rfl

end

/-! ### What a router's output takes (R254, R262, R264) -/

section
variable (s : State) (p : Pos) (q : Packet)

/-- An output that has sent a packet is noted in its own router alone. -/
theorem routeServed_kept : (s.routeServed p q).net = s.net ∧ ∀ r, r ≠ p → (s.routeServed p q).tile r = s.tile r := by
  unfold State.routeServed
  dsimp only
  split
  · exact ⟨rfl, fun r hr => State.tile_modTile_ne s p r _ hr⟩
  · split
    · exact ⟨rfl, fun r hr => State.tile_modTile_ne s p r _ hr⟩
    · exact ⟨rfl, fun _ _ => rfl⟩

/-- The packet has left the router at p towards a place, marked where its VC2 queue is long; other tiles are as they were. -/
def SentOn (s : State) (p : Pos) (q : Packet) (d : Place) (v : State) (z : Packet) : Prop :=
  v.packet q.id = some z ∧ z.place = d ∧ z.payload = q.payload ∧ z.hdr = q.hdr ∧
    (z.mark = true ↔ (q.mark = true ∨ (q.vc = 2 ∧ (s.ut p).mesh.thresh.toNat ≤ s.outputQueue p q))) ∧ ∀ r, r ≠ p → v.tile r = s.tile r

theorem sendOn_sentOn (h : s.packet q.id = some q) (d : Place) (port : Fin 5) : ∃ z, SentOn s p q d (s.sendOn p q d port) z := by
  obtain ⟨hn, ht⟩ := routeServed_kept s p q
  have hp : (s.routeServed p q).packet q.id = some q := by rw [State.packet, hn]; exact h
  exact ⟨_, packet_movePacket hp rfl, rfl, rfl, rfl, by simp, ht⟩

/-- A request that a router refuses is answered there, and counted (R255, R258). -/
theorem routeRefused_answered (hr : q.isRequest = true) (ht : q.type ≠ 0xD) : ((s.routeRefused p q).ut p).mesh.dropped = (s.ut p).mesh.dropped + 1 ∧
    q ∉ (s.routeRefused p q).net ∧ ∃ a ∈ (s.routeRefused p q).net, a.status = .tileFenced ∧ a.opId = q.opId := by
  have hty : ∀ t : BitVec 4, t ≠ BitVec.ofNat 4 (t.toNat + 1) := by decide
  rw [State.routeRefused, if_pos (by simpa [hr] using ht)]
  obtain ⟨hgone, a, ha, -, hst, -, hop⟩ := reply_answered (s.modMesh p fun m => { m with dropped := m.dropped + 1 }) p q .tileFenced []
  refine ⟨?_, hgone (hty q.type), a, ha, hst, hop⟩
  rw [(reply_kept ..).2.2, mesh_modMesh]

end

section
variable {s : State} {p x : Pos} {q : Packet} {sp : Bool} {o : Nat}

theorem outputOf_here (h : s.exitOf p q = .at_ p sp o) :
    s.outputOf p q = if q.dkind = 2 then .canal (Fin.ofNat 5 q.dest.toNat) else if sp then .spare else .local := by
  rw [State.outputOf, h]
  exact if_pos rfl
theorem outputOf_on (h : s.exitOf p q = .at_ x sp o) (hx : x ≠ p) : s.outputOf p q =
    .seam (hopDir p x (if q.isRequest then (ovrAt (s.ut p).mesh q.epoch o).req else (ovrAt (s.ut p).mesh q.epoch o).rpl)) := by
  rw [State.outputOf, h]
  exact if_neg hx
theorem outputOf_absent (h : s.exitOf p q = .absent) : s.outputOf p q = .absent := by rw [State.outputOf, h]

/-! ### One hop (R254, R255, R258) -/

theorem hop_here (h : s.exitOf p q = .at_ p false o) (hk : q.dkind ≠ 2) (ht : s.routeTurn p q = true) :
    s.hop p q = s.sendOn p q (.delivered p) 4 := by
  rw [State.hop, outputOf_here h, if_neg hk]
  exact if_pos ht
theorem hop_canal (h : s.exitOf p q = .at_ p sp o) (hk : q.dkind = 2) (ht : s.routeTurn p q = true) :
    s.hop p q = s.sendOn p q (.canal (Fin.ofNat 5 q.dest.toNat)) 4 := by
  rw [State.hop, outputOf_here h, if_pos hk]
  exact if_pos ht
theorem hop_spare (h : s.exitOf p q = .at_ p true o) (hk : q.dkind ≠ 2) (hs : s.seamsHeld p = false) (ht : s.routeTurn p q = true) :
    s.hop p q = s.sendOn p q (.spareLink p) 4 := by
  rw [State.hop, outputOf_here h, if_neg hk]
  exact if_neg (by simp [hs, ht])
theorem hop_waits (h : s.exitOf p q = .at_ p sp o) (ht : s.routeTurn p q = false) : s.hop p q = s := by
  rw [State.hop, outputOf_here h]
  by_cases hk : q.dkind = 2
  · simp [hk, ht]
  · rw [if_neg hk]
    cases sp <;> simp [ht]
theorem hop_held (h : s.exitOf p q = .at_ x sp o) (hx : x ≠ p) (hs : s.seamsHeld p = true) : s.hop p q = s := by
  rw [State.hop, outputOf_on h hx]
  exact if_pos hs
theorem hop_absent (h : s.exitOf p q = .absent) : s.hop p q = s.routeRefused p q := by rw [State.hop, outputOf_absent h]
theorem hop_dropped {d : Dir} (h : s.outputOf p q = .seam d) (hs : s.seamsHeld p = false) (hd : s.seamDropped p d = true) :
    s.hop p q = s.routeRefused p q := by
  rw [State.hop, h]
  simp [hs, hd]
theorem hop_on {d : Dir} {y : Pos} (h : s.outputOf p q = .seam d) (hs : s.seamsHeld p = false) (hd : s.seamDropped p d = false)
    (hy : neighbour p d = some y) :
    s.hop p q = if s.routeTurn p q then s.sendOn p q (.router y) (dirPort (opposite d)) else s := by
  rw [State.hop, h]
  simp [hs, hd, hy]

end

/-- Dimension order, row first, where no override stands. -/
theorem hopDir_zero (p x : Pos) :
    hopDir p x 0 = if colOf p < colOf x then .e else if colOf x < colOf p then .w else if rowOf p < rowOf x then .s else .n := rfl

/-- A packet whose turn it is goes before no VC0 packet whose share lasts, nor from VC2 before a VC1 packet (R262). -/
theorem routeTurn_order {s : State} {p : Pos} {q x : Packet} (h : s.routeTurn p q = true) (hx : x ∈ s.rivals p q) (hc : s.credit p x = true) :
    (x.vc = 0 → q.vc ≠ 0 → s.vc0Spent p q = true) ∧ (x.vc = 1 → q.vc ≠ 2 ∧ q.vc ≠ 3) := by
  have hm : x ∈ (s.rivals p q).filter fun x => s.credit p x := List.mem_filter.mpr ⟨hx, hc⟩
  simp only [State.routeTurn, Bool.and_eq_true] at h
  obtain ⟨-, h⟩ := h
  by_cases h0 : q.vc = 0
  · exact ⟨fun _ hne => absurd h0 hne, fun _ => by rw [h0]; decide⟩
  rw [if_neg h0] at h
  split at h
  · cases h
  next hs =>
  have first : x.vc = 0 → q.vc ≠ 0 → s.vc0Spent p q = true := fun hv _ => by
    by_contra hn
    exact hs (by simpa [hn] using ⟨x, hx, hc, hv⟩)
  by_cases h1 : q.vc = 1
  · exact ⟨first, fun _ => by rw [h1]; decide⟩
  · rw [if_neg h1] at h
    simp only [Bool.and_eq_true, Bool.not_eq_true'] at h
    obtain ⟨⟨hnone, -⟩, -⟩ := h
    exact ⟨first, fun hv => absurd (beq_iff_eq.mpr hv) (List.any_eq_false.mp hnone x hm)⟩

/-! ### The command -/

section
variable {s : State} {q : Packet} {p : Pos} (hq : s.packet q.id = some q)
include hq

theorem packetRoute_of_router (hp : q.place = .router p) : exec (.packetRoute q.id) s = .next (s.atRouter p q) := by
  have hx : exec (.packetRoute q.id) s = execPacketRoute q.id s := rfl
  rw [hx]
  simp [execPacketRoute, hq, hp, State.onExpress]
theorem packetRoute_of_bad (hp : q.place = .router p) (hb : q.badHeader = true) : exec (.packetRoute q.id) s = .next (s.discardBad p q) := by
  rw [packetRoute_of_router hq hp, State.atRouter, if_pos hb]
theorem packetRoute_of_combined {t : State} (hp : q.place = .router p) (hb : q.badHeader = false) (hc : s.combineAt p q = some t) :
    exec (.packetRoute q.id) s = .next t := by
  rw [packetRoute_of_router hq hp, State.atRouter, if_neg (by simp [hb]), hc]
theorem packetRoute_of_hop (hp : q.place = .router p) (hc : s.combineAt p q = none) (hb : q.badHeader = false) :
    exec (.packetRoute q.id) s = .next (s.hop p q) := by
  rw [packetRoute_of_router hq hp, State.atRouter, if_neg (by simp [hb]), hc]

/-- A hop that sends the packet on. -/
theorem packetRoute_sends {d : Place} {port : Fin 5} (hp : q.place = .router p) (hc : s.combineAt p q = none) (hb : q.badHeader = false)
    (h : s.hop p q = s.sendOn p q d port) : ∃ v z, exec (.packetRoute q.id) s = .next v ∧ SentOn s p q d v z := by
  obtain ⟨z, hz⟩ := sendOn_sentOn s p q hq d port
  exact ⟨_, z, by rw [packetRoute_of_hop hq hp hc hb, h], hz⟩
theorem packetRoute_refuses (hp : q.place = .router p) (hc : s.combineAt p q = none) (hb : q.badHeader = false) (h : s.hop p q = s.routeRefused p q)
    (hr : q.isRequest = true) (ht : q.type ≠ 0xD) : ∃ v, exec (.packetRoute q.id) s = .next v ∧
      (v.ut p).mesh.dropped = (s.ut p).mesh.dropped + 1 ∧ q ∉ v.net ∧ ∃ a ∈ v.net, a.status = .tileFenced ∧ a.opId = q.opId :=
  ⟨_, by rw [packetRoute_of_hop hq hp hc hb, h], routeRefused_answered s p q hr ht⟩

theorem packetRoute_of_source (hp : q.place = .source p) (he : s.onExpress q = false) (hw : q.id ∉ (s.ut p).mesh.vc2Wait)
    (ho : s.overtakes p q = false) (hb : s.bufferTakes (s.injectAt p) 4 q = true) (hs : s.injectAt p = p ∨ s.seamsHeld p = false) :
    exec (.packetRoute q.id) s = .next (s.leaves p q (.router (s.injectAt p))) := by
  have hx : exec (.packetRoute q.id) s = execPacketRoute q.id s := rfl
  have hh : ¬ (s.injectAt p ≠ p ∧ s.seamsHeld p = true) := fun h => hs.elim h.1 fun hn => absurd h.2 (by simp [hn])
  rw [hx]
  simp [execPacketRoute, hq, hp, he, hw, ho, hb, hh]
theorem packetRoute_of_overtaking (hp : q.place = .source p) (he : s.onExpress q = false) (ho : s.overtakes p q = true) :
    exec (.packetRoute q.id) s = .next s := by
  have hx : exec (.packetRoute q.id) s = execPacketRoute q.id s := rfl
  rw [hx]
  simp [execPacketRoute, hq, hp, he, ho]
theorem packetRoute_of_spareLink (hp : q.place = .spareLink p) :
    exec (.packetRoute q.id) s = .next (s.movePacket q.id fun y => { y with place := .delivered (spareBeside p) }) := by
  have hx : exec (.packetRoute q.id) s = execPacketRoute q.id s := rfl
  rw [hx]
  simp [execPacketRoute, hq, hp, State.onExpress]
theorem packetRoute_of_canal {d : Fin 5} {x : Pos} (hp : q.place = .canal d) (he : s.onExpress q = false) (hk : q.dkind ≠ 2)
    (hd : s.dieOff d = false) (hn : nearest s (mkPos 5 5) (attachments d) = some x) (hb : s.bufferTakes x 4 q = true) :
    exec (.packetRoute q.id) s = .next (s.movePacket q.id fun y => { y with place := .router x, epoch := (s.ut x).mesh.epoch, inPort := 4 }) := by
  have hx : exec (.packetRoute q.id) s = execPacketRoute q.id s := rfl
  rw [hx]
  simp only [execPacketRoute, hq, hp, he, hk, hd, hn, hb, false_and, decide_false, Bool.or_self, Bool.false_eq_true, if_false, if_true]

end

theorem seamsHeld_eq_false {s : State} {p : Pos} (hf : (s.ut p).flags.quiet = false) (hc : (s.ut p).clk.running = true) : s.seamsHeld p = false := by
  simp [State.seamsHeld, hf, hc]

theorem packetHops_hold : Rules.PacketHops := by
  intro id s q p u n dir stays goesTo hq hid
  subst hid
  refine ⟨packetRoute_of_bad hq, fun hp hc => ?_, fun hp he hw ho hb hs => ?_, fun hp he ho => packetRoute_of_overtaking hq hp he ho,
    packetRoute_of_spareLink hq, fun d x hp he hk hd hn hb => packetRoute_of_canal hq hp he hk hd hn hb⟩
  · refine ⟨fun o hb hx hk ht => packetRoute_sends hq hp hc hb (hop_here hx hk ht),
      fun sp o hb hx hk ht => packetRoute_sends hq hp hc hb (hop_canal hx hk ht),
      fun o hb hx hk hs ht => packetRoute_sends hq hp hc hb (hop_spare hx hk hs ht), fun sp o hb hx ht => ?_, fun x sp o hb hx hne hs => ?_,
      fun x sp o y hb hx hne hf hck hd hy => ⟨fun ht => ?_, fun ht => ?_⟩, fun h hb hr hty => ?_, fun x _ h0 => ?_,
      fun ht x hx hcr => routeTurn_order ht hx hcr⟩
    · exact (packetRoute_of_hop hq hp hc hb).trans (congrArg _ (hop_waits hx ht))
    · exact (packetRoute_of_hop hq hp hc hb).trans (congrArg _ (hop_held hx hne (by simpa [State.seamsHeld] using hs)))
    · exact packetRoute_sends hq hp hc hb ((hop_on (outputOf_on hx hne) (seamsHeld_eq_false hf hck) hd hy).trans (if_pos ht))
    · refine (packetRoute_of_hop hq hp hc hb).trans (congrArg _ ((hop_on (outputOf_on hx hne) (seamsHeld_eq_false hf hck) hd hy).trans (if_neg ?_)))
      simp [ht]
    · refine packetRoute_refuses hq hp hc hb ?_ hr hty
      rcases h with ha | ⟨x, sp, o, hx, hne, hf, hck, hd⟩
      · exact hop_absent ha
      · exact hop_dropped (outputOf_on hx hne) (seamsHeld_eq_false hf hck) hd
    · rw [h0, hopDir_zero]
  · exact ⟨_, _, packetRoute_of_source hq hp he hw ho hb hs, leaves_packet s p q _ hq, rfl, rfl, rfl⟩

end Sys2Proof.Machine
end

section
/-! PROOFS. Combining routers (O30): the header of a merged barge, and a combining barge that is held, merged or sent on. -/

namespace Sys2Proof.Machine

open Sys2Proof

/-! ### Merged barges (R266) -/

/-- The field MERGED of a header word holds a number that fits, and COUNT stays. -/
theorem merged_field (w : Word) {n : Nat} (hn : n < 4096) :
    fld ((w &&& ~~~put64 0xFFF 28 12) ||| put64 n 28 12) 28 12 = n ∧
      fld ((w &&& ~~~put64 0xFFF 28 12) ||| put64 n 28 12) 16 12 = fld w 16 12 := by
  have hm : (~~~put64 0xFFF 28 12).extractLsb' 28 12 = 0#12 := by decide
  have hc : (~~~put64 0xFFF 28 12).extractLsb' 16 12 = BitVec.allOnes 12 := by decide
  have hv : (put64 n 28 12).toNat = n * 2 ^ 28 := by
    rw [put64, BitVec.toNat_ofNat, Nat.shiftLeft_eq]
    omega
  have hvm : (put64 n 28 12).extractLsb' 28 12 = BitVec.ofNat 12 n := by
    apply BitVec.eq_of_toNat_eq
    rw [BitVec.extractLsb'_toNat, hv, BitVec.toNat_ofNat, Nat.shiftRight_eq_div_pow, Nat.mul_div_cancel _ (by decide)]
  have hvc : (put64 n 28 12).extractLsb' 16 12 = 0#12 := by
    apply BitVec.eq_of_toNat_eq
    rw [BitVec.extractLsb'_toNat, hv, BitVec.toNat_ofNat, Nat.shiftRight_eq_div_pow]
    omega
  constructor
  · rw [fld, BitVec.extractLsb'_or, BitVec.extractLsb'_and, hm, hvm]
    simpa using hn
  · rw [fld, fld, BitVec.extractLsb'_or, BitVec.extractLsb'_and, hc, hvc, BitVec.and_allOnes, BitVec.or_zero]

section
variable {a b : Packet} (h : hdrMerged a.hdr + hdrMerged b.hdr < 4096)
include h

theorem mergePackets_merged : hdrMerged (mergePackets a b).hdr = hdrMerged a.hdr + hdrMerged b.hdr := (merged_field a.hdr.w2 h).1
theorem mergePackets_count : hdrCount (mergePackets a b).hdr = hdrCount a.hdr := (merged_field a.hdr.w2 h).2

end

/-! ### A barge that is held, merged or sent on (R266) -/

/-- What stands under a number once the packets of one number have changed and kept it. -/
theorem find_modPacket (s : State) (n : Nat) {id : Nat} {f : Packet → Packet} (hf : ∀ x, x.id = id → (f x).id = id) :
    (s.modPacket id f).packet n = (s.packet n).map fun x => if x.id = id then f x else x := by
  rw [State.packet, State.modPacket, List.find?_map]
  refine congrArg (fun g => (s.net.find? g).map _) (funext fun x => ?_)
  by_cases hx : x.id = id
  · simp [hx, hf]
  · simp [hx]

/-- The barge that a router holds, after another has merged with it. -/
def State.mergedInto (s : State) (q h : Packet) : State := (s.dropPacket q.id).modPacket h.id fun _ => mergePackets h q

/-- A barge that a combining entry held goes on. -/
def State.combineEnded (s : State) (p : Pos) (e : Fin 16) (id : Nat) : State :=
  (s.modPacket id fun x => { x with place := .router p, passed := true }).modMesh p fun m => { m with comb := m.comb.set e none }

section
variable {s : State} {p : Pos} {q h : Packet} {e : Fin 16}

/-- A barge merges with another one, which the entry holds. -/
theorem held_of_mergeWith (hw : s.mergeWith p q = some (e, h)) (hm : q.mask ≠ 0) (hq : s.packet q.id = some q) :
    s.packet h.id = some h ∧ h.id ≠ q.id := by
  obtain ⟨f, -, hf⟩ := List.exists_of_findSome?_eq_some hw
  split at hf
  · cases hf
  next c _ =>
  split at hf
  next g hg =>
    split at hf
    next hs =>
      obtain ⟨rfl, rfl⟩ := Prod.mk.inj (Option.some.inj hf)
      have hid : s.packet g.id = some g := (congrArg s.packet (packet_id hg)).trans hg
      refine ⟨hid, fun hsame => hm ?_⟩
      have hgq : g = q := Option.some.inj ((hid.symm.trans (congrArg s.packet hsame)).trans hq)
      rw [hgq, BitVec.and_self, Bool.and_eq_true] at hs
      exact beq_iff_eq.mp hs.2
    · cases hf
  · cases hf

theorem mergedInto_packet (hq : s.packet h.id = some h) (hne : h.id ≠ q.id) :
    (s.mergedInto q h).packet h.id = some (mergePackets h q) ∧ (s.mergedInto q h).packet q.id = none := by
  have hp (n : Nat) : (s.mergedInto q h).packet n = _ := find_modPacket (s.dropPacket q.id) n (fun _ _ => rfl)
  rw [hp, hp, packet_dropPacket_ne hne, packet_dropPacket, hq, Option.map_some, if_pos rfl]
  exact ⟨rfl, rfl⟩

theorem combineEnded_packet (id n : Nat) : (s.combineEnded p e id).packet n =
    (s.packet n).map fun x => if x.id = id then { x with place := .router p, passed := true } else x :=
  find_modPacket s n fun _ h => h
theorem combineEnded_comb (id : Nat) : ((s.combineEnded p e id).ut p).mesh.comb[e] = none := by
  rw [State.combineEnded, mesh_modMesh]
  simp

/-- The first free entry of a router. -/
theorem find_free (v : Vector (Option CombEnt) 16) (hf : v[e] = none) (hl : ∀ f < e, v[f] ≠ none) :
    (List.finRange 16).find? (fun e => v[e].isNone) = some e := by
  rw [List.find?_eq_some_iff_getElem]
  refine ⟨by simp [hf], e.val, by simp, by simp, fun j hj => ?_⟩
  simpa [Option.isSome_iff_ne_none] using hl ⟨j, by omega⟩ hj

variable (he : (s.ut p).mesh.combEn = true) (ht : q.type = 5) (hc : hdrCombine q.hdr = true) (hm : q.mask ≠ 0) (hp : q.passed = false)
  (ho : marksOrdered (s.ut p).mesh q = false)
include he ht hc hm hp ho

theorem combineAt_held (hw : s.mergeWith p q = none) (hf : (s.ut p).mesh.comb[e] = none) (hl : ∀ f < e, (s.ut p).mesh.comb[f] ≠ none) :
    s.combineAt p q = some ((s.modPacket q.id fun x => { x with place := .combining p }).modMesh p fun m =>
      { m with comb := m.comb.set e (some { packet := q.id, expires := (s.ut p).cycle + m.hold.toNat }) }) := by
  have hfree := find_free (s.ut p).mesh.comb hf hl
  unfold State.combineAt
  simp only [he, ht, hc, hp, ho, hw, hfree, beq_eq_false_iff_ne.mpr hm, bne_self_eq_false, Bool.not_true, Bool.or_self, Bool.false_eq_true, if_false]
theorem combineAt_merged (hw : s.mergeWith p q = some (e, h)) : s.combineAt p q = some (
    if hdrCount (mergePackets h q).hdr ≤ hdrMerged (mergePackets h q).hdr then (s.mergedInto q h).combineEnded p e h.id else s.mergedInto q h) := by
  unfold State.combineAt
  simp only [he, ht, hc, hp, ho, hw, beq_eq_false_iff_ne.mpr hm, bne_self_eq_false, Bool.not_true, Bool.or_self, Bool.false_eq_true, if_false]
  split <;> rfl

end

theorem combineHoldExpiry_of_expired {s : State} {p : Pos} {e : Fin 16} {cc : Nat} {c : CombEnt} (hc : (s.ut p).mesh.comb[e] = some c)
    (he : c.expires ≤ cc) : exec (.combineHoldExpiry p e cc) s = .next (s.combineEnded p e c.packet) := by
  have hx : exec (.combineHoldExpiry p e cc) s = execCombineHoldExpiry p e cc s := rfl
  rw [hx]
  simp only [execCombineHoldExpiry, hc, if_pos he]
  rfl

theorem combiningRouters_hold : Rules.CombiningRouters := by
  refine ⟨fun id s q p hq hid hp hb he ht hc hm hpas ho => ?_, fun p e cc s c hc he => combineHoldExpiry_of_expired hc he⟩
  subst hid
  refine ⟨fun e hw hf hl => packetRoute_of_combined hq hp hb (combineAt_held he ht hc hm hpas ho hw hf hl), fun e h hw hlt => ?_⟩
  obtain ⟨hh, hne⟩ := held_of_mergeWith hw hm hq
  obtain ⟨hmerged, hgone⟩ := mergedInto_packet hh hne
  have hx := packetRoute_of_combined hq hp hb (combineAt_merged he ht hc hm hpas ho hw)
  rw [mergePackets_count hlt, mergePackets_merged hlt] at hx
  by_cases hcount : hdrCount h.hdr ≤ hdrMerged h.hdr + hdrMerged q.hdr
  · rw [if_pos hcount] at hx
    refine ⟨_, { mergePackets h q with place := .router p, passed := true }, hx, ?_, ?_, rfl, mergePackets_merged hlt, rfl,
      fun hn => absurd hn (not_lt.mpr hcount), fun _ => ⟨rfl, rfl, combineEnded_comb h.id⟩⟩
    · rw [combineEnded_packet, hgone]
      rfl
    · rw [combineEnded_packet, hmerged, Option.map_some]
      exact congrArg some (if_pos rfl)
  · rw [if_neg hcount] at hx
    exact ⟨_, mergePackets h q, hx, hgone, hmerged, rfl, mergePackets_merged hlt, rfl, fun _ => ⟨rfl, rfl⟩, fun hn => absurd hn hcount⟩

/-- Settles O30: a packet moves by one hop, and combining barges are held, merged and sent on. -/
theorem packetHops : Obligations.PacketHops := ⟨packetHops_hold, combiningRouters_hold⟩

end Sys2Proof.Machine
end

section
/-! PROOFS. The sluice, the express lanes, flit replay and the reply timer (O31). -/

namespace Sys2Proof.Machine

open Sys2Proof

/-! ### The sluice (R265) -/

section
variable {s : State} {p : Pos} {cc : Nat} (hc : (s.ut p).cycle ≤ cc)
include hc

theorem sluiceRecovery_of_quiet (he : (s.ut p).mesh.lastEcho + 256 ≤ cc) : exec (.sluiceRecovery p cc) s = .next ((s.run p cc).modMesh p fun m =>
    { m with w := BitVec.ofNat 11 (min (m.w.toNat + m.stepF.toNat) (max m.wmax.toNat m.w.toNat)), lastEcho := cc }) := by
  have hx : exec (.sluiceRecovery p cc) s = execSluiceRecovery p cc s := rfl
  rw [hx, execSluiceRecovery, if_neg (by omega)]
theorem sluiceInject_of_fits {id : Nat} {r : List Nat} {q : Packet} (hw : (s.ut p).mesh.vc2Wait = id :: r) (hq : s.packet id = some q)
    (hf : (s.run p cc).fitsWindow p q.flits = true) : exec (.sluiceInject p cc) s =
      .next (((s.run p cc).modMesh p fun m => { m with vc2Wait := r }).modOp p q.opId fun o => o.counted q.flits) := by
  have hx : exec (.sluiceInject p cc) s = execSluiceInject p cc s := rfl
  rw [hx, execSluiceInject, if_neg (Nat.not_lt.mpr hc)]
  simp only [run_mesh, hw, run_packet, hq, hf, if_true]

theorem sluiceRecovery_window (he : (s.ut p).mesh.lastEcho + 256 ≤ cc) (hw : (s.ut p).mesh.w.toNat ≤ (s.ut p).mesh.wmax.toNat) :
    ∃ v, exec (.sluiceRecovery p cc) s = .next v ∧
      (v.ut p).mesh.w.toNat = min ((s.ut p).mesh.w.toNat + (s.ut p).mesh.stepF.toNat) (s.ut p).mesh.wmax.toNat ∧ (v.ut p).mesh.lastEcho = cc := by
  refine ⟨_, sluiceRecovery_of_quiet hc he, ?_, ?_⟩
  · rw [mesh_modMesh, run_mesh, max_eq_left hw]
    exact (BitVec.toNat_ofNat ..).trans (Nat.mod_eq_of_lt (lt_of_le_of_lt (min_le_right ..) (s.ut p).mesh.wmax.isLt))
  · rw [mesh_modMesh]

theorem sluiceInject_leaves {id : Nat} {r : List Nat} {q : Packet} (hw : (s.ut p).mesh.vc2Wait = id :: r) (hq : s.packet id = some q)
    (hf : (s.run p cc).fitsWindow p q.flits = true) : ∃ v, exec (.sluiceInject p cc) s = .next v ∧ (v.ut p).mesh.vc2Wait = r ∧ v.net = s.net ∧
      ∀ k o, ((s.run p cc).slot p k).op = some o → o.id = q.opId → o.outcome = none → ∃ y, (v.slot p k).op = some y ∧ y.vc2 = o.vc2 + q.flits := by
  refine ⟨_, sluiceInject_of_fits hc hw hq hf, ?_, ?_, fun k o ho hid hout => ⟨o.counted q.flits, ?_, rfl⟩⟩
  · rw [State.modOp, ut_modMov, mesh_modMesh]
  · rw [State.modOp, State.modMov_net, State.modMesh, State.modUt_net, run_net]
  · have hs : ((s.run p cc).modMesh p fun m => { m with vc2Wait := r }).slot p k = (s.run p cc).slot p k := by
      rw [State.slot, State.modMesh, State.core_modUt]
      rfl
    rw [modOp_slot, hs, ho, Option.map_some, if_pos (by simp [hid, hout])]

end

/-! ### The express lanes (R269, R270) -/

/-- The express cycle from which the emitter may launch a frame of the packet's kind. -/
def Mesh.expressFree (m : Mesh) (q : Packet) : Nat := if q.towpath then m.towFree else m.bargeFree
/-- A request has been launched: the next of its kind waits for its allowance. -/
def Mesh.launched (m : Mesh) (q : Packet) (xc : Nat) : Mesh := if q.towpath then { m with towFree := xc + 8 } else { m with bargeFree := xc + 16 }
/-- The interface has launched the frame. -/
def State.launched (s : State) (p : Pos) (q : Packet) (d : Place) (xc : Nat) : State :=
  if !q.limited then s.leaves p q d else (s.leaves p q d).modMesh p fun m => m.launched q xc

theorem launched_packet {s : State} {p : Pos} {q : Packet} (h : s.packet q.id = some q) (d : Place) (xc : Nat) :
    (s.launched p q d xc).packet q.id = some { q with place := d, epoch := (s.ut p).mesh.epoch, inPort := 4 } := by
  unfold State.launched
  split <;> exact leaves_packet s p q d h
theorem launched_mesh {q : Packet} (h : q.isRequest = true) (s : State) (p : Pos) (d : Place) (xc : Nat) :
    ((s.launched p q d xc).ut p).mesh = ((s.leaves p q d).ut p).mesh.launched q xc := by
  rw [State.launched, if_neg (by simp [Packet.limited, h]), mesh_modMesh]

section
variable {s : State} {q : Packet} {p : Pos} {d : Place} {xc : Nat} (hq : s.packet q.id = some q) (hp : q.place = .source p)
  (he : s.onExpress q = true) (hd : s.expressDest p q = some d) (hw : q.id ∉ (s.ut p).mesh.vc2Wait) (ho : s.overtakes p q = false)
include hq hp he hd hw ho

theorem expressLaunch_of_allowance (hf : q.isRequest = false ∨ (s.ut p).mesh.expressFree q ≤ xc) :
    exec (.expressLaunch q.id xc) s = .next (s.launched p q d xc) := by
  have hx : exec (.expressLaunch q.id xc) s = execExpressLaunch q.id xc s := rfl
  have hlim : (q.limited && decide (xc < (s.ut p).mesh.expressFree q)) = false := by
    rcases hf with hf | hf
    · simp [Packet.limited, hf]
    · simp [Nat.not_lt.mpr hf]
  unfold Mesh.expressFree at hlim
  rw [hx]
  simp only [execExpressLaunch, hq, hp, he, hd, ho, hlim, List.contains_eq_mem, decide_eq_false hw, Bool.not_true, Bool.or_self,
    Bool.false_eq_true, if_false]
  rfl
theorem expressLaunch_of_spent (hr : q.isRequest = true) (hf : xc < (s.ut p).mesh.expressFree q) :
    exec (.expressLaunch q.id xc) s = .next (if q.expHeld then s
      else (s.modPacket q.id fun q => { q with expHeld := true }).modMesh p fun m => { m with expWait := m.expWait + 1 }) := by
  have hx : exec (.expressLaunch q.id xc) s = execExpressLaunch q.id xc s := rfl
  have hlim : q.limited = true := hr
  unfold Mesh.expressFree at hf
  rw [hx]
  simp only [execExpressLaunch, hq, hp, he, hd, ho, hlim, List.contains_eq_mem, decide_eq_false hw, decide_eq_true hf, Bool.not_true,
    Bool.or_self, Bool.and_self, Bool.false_eq_true, if_false, if_true]

end

/-! ### Flit replay (R251) -/

theorem flitReplay_of_neighbour {p q : Pos} {d : Dir} {l : Fin 48} {t : Nat} {s : State} (hn : neighbour p d = some q) (hw : s.utWorks p = true) :
    exec (.flitReplay p ⟨d, l, t⟩) s = .next (((s.at_ t).slip p (dirNum d)).modMesh q fun m =>
      { m with replays := (dirNum (opposite d), l.val, max s.now t) :: m.replays.filter fun e => decide (max s.now t < e.2.2 + 1000000000) }) := by
  have hx : exec (.flitReplay p ⟨d, l, t⟩) s = execFlitReplay p ⟨d, l, t⟩ s := rfl
  have hw' : (s.at_ t).utWorks p = true := hw
  rw [hx]
  simp only [execFlitReplay, hn, hw', if_true]
  rfl

theorem modMesh_xing (s : State) (p q : Pos) (f : Mesh → Mesh) : ((s.modMesh p f).ut q).xing = (s.ut q).xing := by
  rw [State.modMesh, State.ut_modUt_ite]
  split <;> rfl
theorem slip_now (s : State) (p : Pos) (d : Fin 4) : (s.slip p d).now = s.now := by
  unfold State.slip
  extract_lets q
  obtain ⟨l, hl⟩ := slipNoted_eq (s.modUt p fun u => { u with xing := vmod u.xing d Xing.slip }) p q
  rw [hl]
  rfl
theorem slip_slipped (s : State) (p : Pos) (d : Fin 4) : ((s.slip p d).ut p).xing[d].slipped = true := by
  rw [State.slip, slipNoted_xing, State.ut_modUt, vmod_get_same]
  rfl

theorem flitReplay_slips {p q : Pos} {d : Dir} (l : Fin 48) (t : Nat) {s : State} (hn : neighbour p d = some q) (hw : s.utWorks p = true) :
    ∃ v, exec (.flitReplay p ⟨d, l, t⟩) s = .next v ∧ (v.ut p).xing[dirNum d].slipped = true ∧ v.net = s.net ∧ v.now = max s.now t ∧
      (v.ut q).mesh.replays.head? = some (dirNum (opposite d), l.val, max s.now t) := by
  have hnet := (slip_onlyCrossings (s.at_ t) p (dirNum d)).net
  have hnow := slip_now (s.at_ t) p (dirNum d)
  refine ⟨_, flitReplay_of_neighbour hn hw, ?_, ?_, ?_, ?_⟩
  · have hs := slip_slipped (s.at_ t) p (dirNum d)
    rwa [modMesh_xing]
  · rw [State.modMesh, State.modUt_net, hnet]
    rfl
  · rw [State.modMesh, State.modUt_now, hnow]
    rfl
  · rw [mesh_modMesh]
    rfl

/-! ### The reply timer (R274) -/

/-- The operation that has met the timer has ended, with the status that was to come or with REPLY_TIMEOUT. -/
def State.opTimedOut (s : State) (p : Pos) (k : Fin 64) (o : MoveOp) (t : Nat) : State :=
  (((s.at_ t).countTimeout p).noteTimeout p o.toLt.toNat).endOp p k (if o.worst = .done then .replyTimeout else o.worst)
/-- The stream ends at the line whose answer is missing, which it no longer waits for. -/
def Stream.missed (x : Stream) (n : Nat) : Stream := { x.stopAt n .replyTimeout with outst := (x.stopAt n .replyTimeout).outst.filter fun z => z.1 != n }

theorem noteTimeout_eq (s : State) (p : Pos) (lt : Nat) : ∃ r, s.noteTimeout p lt = { s with repair := r } := by
  unfold State.noteTimeout
  split
  · extract_lets l r s1
    split
    · exact (tellRepair_eq s1 _).imp fun _ h => h
    · exact ⟨_, rfl⟩
  · exact ⟨s.repair, rfl⟩

section
variable {s : State} {p : Pos} {k : Fin 64} {o : MoveOp}

theorem opTimedOut_leaves (ho : (s.slot p k).op = some o) (t : Nat) :
    (∃ y, ((s.opTimedOut p k o t).slot p k).op = some y ∧ y.outcome = some (if o.worst = .done then .replyTimeout else o.worst)) ∧
      ((s.opTimedOut p k o t).ut p).mesh.timeouts = (s.ut p).mesh.timeouts + 1 ∧ (s.opTimedOut p k o t).now = max s.now t := by
  obtain ⟨r, hr⟩ := noteTimeout_eq ((s.at_ t).countTimeout p) p o.toLt.toNat
  have hslot : (((s.at_ t).countTimeout p).noteTimeout p o.toLt.toNat).slot p k = s.slot p k := by
    rw [hr]
    change (((s.at_ t).countTimeout p).core p).mov.slots[k] = _
    rw [State.countTimeout, State.modMesh, State.core_modUt]
    rfl
  refine ⟨⟨{ o with outcome := some (if o.worst = .done then .replyTimeout else o.worst) }, ?_, rfl⟩, ?_, ?_⟩
  · rw [State.opTimedOut, endOp_slot, hslot, ho, Option.map_some]
  · have hut : (s.opTimedOut p k o t).ut p = ((s.at_ t).countTimeout p).ut p := by
      rw [State.opTimedOut, State.endOp, State.modSlot, ut_modMov, hr]
      rfl
    rw [hut, State.countTimeout, mesh_modMesh]
    rfl
  · rw [State.opTimedOut, hr]
    rfl

/-- The first stream of an operation, after a change of its streams that keeps their operations. -/
theorem find_modStream {id : Nat} {st : Stream} {f : Stream → Stream} (h : (s.streams p).find? (fun x => x.op == id) = some st)
    (hf : ∀ x, (f x).op = x.op) : ((s.modStream p id f).streams p).find? (fun x => x.op == id) = some (f st) := by
  have hs (x : Stream) : (if x.op = id then f x else x).op = x.op := by
    split
    · exact hf x
    · rfl
  have hid : st.op = id := beq_iff_eq.mp (List.find?_some (p := fun x : Stream => x.op == id) h)
  rw [streams_modStream, List.find?_map]
  simp only [Function.comp_def, hs]
  rw [h, Option.map_some, if_pos hid]

theorem missed_op (x : Stream) (n : Nat) : (x.missed n).op = x.op := by
  unfold Stream.missed Stream.stopAt
  split <;> rfl
theorem missed_stop {x : Stream} (h : x.stop = none) (n : Nat) : (x.missed n).stop = some (n, .replyTimeout) := by
  rw [Stream.missed, Stream.stopAt, if_pos (by simp [h])]

variable {id t : Nat} (hk : s.slotOfOp p id = some k) (ho : (s.slot p k).op = some o)
include hk ho

/-- An operation that has met the timer ends; the staging entry of a SEND becomes free. -/
theorem replyTimeout_of_op (hs : o.kind ≠ .stream) (hu : s.underWay p o = true) (hl : 0 < o.left)
    (hd : o.tInj + (s.ut p).mesh.tmrUs.toNat * 1000 ≤ t) : ∃ v, exec (.replyTimeout p id t) s = .next v ∧
      v.slot p k = (s.opTimedOut p k o t).slot p k ∧ v.ut p = (s.opTimedOut p k o t).ut p ∧ v.now = (s.opTimedOut p k o t).now ∧
      ∀ g, o.kind = .send → s.stageOfSlot p k = some g → (v.core p).mov.staging[g] = none := by
  have hx : exec (.replyTimeout p id t) s = execReplyTimeout p id t s := rfl
  have hc : (s.underWay p o && decide (0 < o.left) && decide (o.tInj + (s.ut p).mesh.tmrUs.toNat * 1000 ≤ t)) = true := by simp [hu, hl, hd]
  rw [hx]
  simp only [execReplyTimeout, hk, ho, if_neg hs, if_pos hc]
  cases hg : s.stageOfSlot p k with
  | none => exact ⟨_, rfl, rfl, rfl, rfl, fun g _ h => nomatch h⟩
  | some g =>
    by_cases hsend : o.kind = .send
    · refine ⟨_, congrArg _ (if_pos hsend), modStage_slot .., ut_modMov .., rfl, fun g' _ h => ?_⟩
      obtain rfl := Option.some.inj h
      exact modStage_staging ..
    · exact ⟨_, congrArg _ (if_neg hsend), rfl, rfl, rfl, fun g' h => absurd h hsend⟩

theorem replyTimeout_of_stream (hs : o.kind = .stream) {st : Stream} (hst : ((s.core p).mov.streams.find? fun x => x.op == id) = some st)
    {e : Nat × Nat} (he : (st.outst.find? fun e => decide (e.2 + (s.ut p).mesh.tmrUs.toNat * 1000 ≤ t) && !s.lineWaits p id e.1) = some e) :
    exec (.replyTimeout p id t) s = .next (((s.at_ t).countTimeout p).modStream p id fun x => x.missed e.1) := by
  have hx : exec (.replyTimeout p id t) s = execReplyTimeout p id t s := rfl
  rw [hx]
  simp only [execReplyTimeout, hk, ho, if_pos hs, hst, he]
  rfl

end

theorem replyTimeout_of_loose {s : State} {p : Pos} {id t : Nat} {l : Loose} (hk : s.slotOfOp p id = none)
    (hl : ((s.ut p).mesh.loose.find? fun l => l.op == id && decide (l.since + (s.ut p).mesh.tmrUs.toNat * 1000 ≤ t)) = some l) :
    exec (.replyTimeout p id t) s = .next ((s.at_ t).looseTimeout p l) := by
  have hx : exec (.replyTimeout p id t) s = execReplyTimeout p id t s := rfl
  rw [hx]
  simp only [execReplyTimeout, hk, hl]

/-- Settles O31: the window and its waiting requests, express frames, replayed flits, and requests that the timer ends. -/
theorem sluiceExpressTimer : Obligations.SluiceExpressTimer := by
  refine ⟨fun p cc s hc he hw => sluiceRecovery_window hc he hw, fun p cc id s q r hc hw hq hf => sluiceInject_leaves hc hw hq hf,
    fun id xc s q p d hq hid hp he hd hw ho => ?_, fun p q d l t s hn hw => flitReplay_slips l t hn hw, fun p id t s => ?_⟩
  · subst hid
    refine ⟨fun hf => ⟨_, _, expressLaunch_of_allowance hq hp he hd hw ho hf, launched_packet hq d xc, rfl, rfl, rfl, fun hr ht => ?_, fun hr ht => ?_⟩,
      fun hr hf => ⟨fun hh => ?_, fun hh => ?_⟩⟩
    · rw [launched_mesh hr, Mesh.launched, if_pos ht]
    · rw [launched_mesh hr, Mesh.launched, if_neg (by simp [ht])]
    · exact (expressLaunch_of_spent hq hp he hd hw ho hr hf).trans (congrArg _ (if_pos hh))
    · exact (expressLaunch_of_spent hq hp he hd hw ho hr hf).trans (congrArg _ (if_neg (by simp [hh])))
  · refine ⟨fun k o hk ho hs hu hl hd => ?_, fun k o st e hk ho hs hst hstop he => ?_, fun l hk hl => replyTimeout_of_loose hk hl⟩
    · obtain ⟨v, hx, hslot, hut, hnow, hstage⟩ := replyTimeout_of_op hk ho hs hu hl hd
      obtain ⟨⟨y, hy, hyo⟩, htimeouts, hmax⟩ := opTimedOut_leaves ho t
      exact ⟨v, y, hx, by rw [hslot, hy], hyo, by rw [hut, htimeouts], hnow.trans hmax, hstage⟩
    · have hst' : (((s.at_ t).countTimeout p).streams p).find? (fun x => x.op == id) = some st :=
        (congrArg (List.find? _) (streams_modUt ..)).trans hst
      refine ⟨_, st.missed e.1, replyTimeout_of_stream hk ho hs hst he, find_modStream hst' fun x => missed_op x e.1, missed_stop hstop e.1, ?_⟩
      rw [ut_modStream, State.countTimeout, mesh_modMesh]
      rfl

end Sys2Proof.Machine
end

section
/-! PROOFS. Routing tables, their versions and their drain, merge tables and seam maps (O32). -/

namespace Sys2Proof.Machine

open Sys2Proof

/-! ### Writes to the tables (R256) -/

section
variable {s : State} {p : Pos} {ovr ver : Bool} {k : Nat} {v : Word}

/-- A write is ignored for its version, or for a reserved direction. -/
theorem tableWrite_of_bad (h : ver = (s.ut p).mesh.epoch ∨ ovr = true ∧ (4 < fld v 0 3 ∨ 4 < fld v 3 3)) :
    s.tableWrite p ovr ver k v = s.modMesh p fun m => { m with badWrite := true } := by
  have hb : (ver == (s.ut p).mesh.epoch || (ovr && (decide (fld v 0 3 > 4) || decide (fld v 3 3 > 4)))) = true := by
    simpa using h
  rw [State.tableWrite]
  exact if_pos hb
theorem tableWrite_ltMap (h : ver ≠ (s.ut p).mesh.epoch) (hk : k < 128) : s.tableWrite p false ver k v = s.modMesh p fun m =>
    { m with ltmap := tblPut none m.ltmap (128 * b2n ver + k) (some { pos := v.extractLsb' 0 8, spareLink := bit v 8, present := bit v 9 }) } := by
  rw [State.tableWrite]
  simp [h, hk]
theorem tableWrite_override (h : ver ≠ (s.ut p).mesh.epoch) (hk : k < 149) (hq : fld v 0 3 ≤ 4) (hr : fld v 3 3 ≤ 4) :
    s.tableWrite p true ver k v = s.modMesh p fun m =>
      { m with ovr := tblPut {} m.ovr (149 * b2n ver + k) { req := v.extractLsb' 0 3, rpl := v.extractLsb' 3 3 } } := by
  rw [State.tableWrite]
  simp [h, hk, hq, hr]

end

/-- The map of an LT after a write of one entry: that entry, and the others. -/
theorem ltMapAt_put (m : Mesh) (ver : Bool) (k : Nat) (e : LtMapEnt) :
    ltMapAt { m with ltmap := tblPut none m.ltmap (128 * b2n ver + k) (some e) } ver k = e := by
  rw [ltMapAt, tblGet_tblPut (Option.some_ne_none e)]
theorem ltMapAt_put_ne (m : Mesh) {ver w : Bool} {k n : Nat} (e : LtMapEnt) (hk : k < 128) (hn : n < 128) (h : w ≠ ver ∨ n ≠ k) :
    ltMapAt { m with ltmap := tblPut none m.ltmap (128 * b2n ver + k) (some e) } w n = ltMapAt m w n := by
  have hkey : 128 * b2n w + n ≠ 128 * b2n ver + k := by
    cases w <;> cases ver <;> simp [b2n] at h ⊢ <;> omega
  rw [ltMapAt, ltMapAt, tblGet_tblPut_of_ne _ _ hkey]

/-! ### The drain of an old version (R261) -/

theorem oldFlits_eq_sum (s : State) : s.oldFlits = (allPos.map s.routerOld).sum := by
  rw [List.sum_eq_foldl, List.foldl_map, State.oldFlits]

theorem epochDrainTimeout_of_undrained {t : Nat} {s : State} (hf : s.epoch.free = false) (ht : s.epoch.flippedAt + 2000000 ≤ t) :
    exec (.epochDrainTimeout t) s = .next (((allPos.filter fun p => decide (0 < s.routerOld p)).foldl
      (fun (v : State) p => v.logErr (utUnit p) 0 (s.routerOld p)) { s.at_ t with epoch := { s.epoch with
        left := (allPos.filter fun p => decide (0 < s.routerOld p)).map fun p => (p, s.routerOld p) } }).logRec
      0x30 .firmware [s.epoch.flips.toNat, b2n s.epoch.cur, s.oldFlits]) := by
  have hx : exec (.epochDrainTimeout t) s = execEpochDrainTimeout t s := rfl
  have hc : ¬ ((s.at_ t).epoch.free || t < (s.at_ t).epoch.flippedAt + 2000000) = true := by
    simp only [Bool.or_eq_true, decide_eq_true_eq, not_or]
    exact ⟨Bool.eq_false_iff.mp hf, Nat.not_lt.mpr ht⟩
  rw [hx, execEpochDrainTimeout, if_neg hc]
  rfl

/-! ### Merge tables (R267) -/

/-- A list of ORDERED berths in which one berth has a given bit. -/
def orderedIn (on : Bool) (e : Lt × Fin 8) (l : List (Lt × Fin 8)) : List (Lt × Fin 8) :=
  if on then (if l.contains e then l else e :: l) else l.filter fun x => x != e

theorem mem_orderedIn (on : Bool) (e : Lt × Fin 8) (l : List (Lt × Fin 8)) : e ∈ orderedIn on e l ↔ on = true := by
  cases on
  · simp [orderedIn]
  · by_cases h : e ∈ l <;> simp [orderedIn, h]
theorem mem_orderedIn_ne (on : Bool) {e x : Lt × Fin 8} (l : List (Lt × Fin 8)) (h : x ≠ e) : x ∈ orderedIn on e l ↔ x ∈ l := by
  cases on
  · simp [orderedIn, h]
  · by_cases hl : e ∈ l <;> simp [orderedIn, h, hl]

/-- Every router has been sent the ORDERED bit of a weir berth. -/
def State.orderedSent (s : State) (on : Bool) (e : Lt × Fin 8) : State :=
  s.allUts fun _ u => { u with mesh := { u.mesh with merge := orderedIn on e u.mesh.merge } }

/-- The ORDERED BOPEN of a berth that waited has ended. -/
def State.bopenDone (s : State) (p : Pos) (k : Fin 64) (b : Fin 64) : State := (s.endOp p k .done).modBerth p b fun h => { h with opening := none }

section
variable (s : State) (p : Pos)

theorem orderedSent_merge (on : Bool) (e : Lt × Fin 8) (q : Pos) : ((s.orderedSent on e).ut q).mesh.merge = orderedIn on e (s.ut q).mesh.merge := by
  rw [State.orderedSent, State.ut_allUts]
theorem orderedSent_slot (on : Bool) (e : Lt × Fin 8) (k : Fin 64) : (s.orderedSent on e).slot p k = s.slot p k := by
  rw [State.slot, State.core_eq, State.orderedSent, State.allUts, State.tile_allTiles]
  rfl
theorem bopenDone_mesh (k b : Fin 64) (q : Pos) : ((s.bopenDone p k b).ut q).mesh = (s.ut q).mesh := by
  have he : (s.endOp p k .done).ut q = s.ut q := ut_modMov ..
  rw [State.bopenDone, State.modBerth, State.ut_modUt_ite, he]
  split <;> rfl
theorem bopenDone_slot (k b : Fin 64) {o : MoveOp} (h : (s.slot p k).op = some o) :
    ((s.bopenDone p k b).slot p k).op = some { o with outcome := some .done } := by
  rw [State.bopenDone, modBerth_slot, endOp_slot, h, Option.map_some]

end

section
variable {lt : Lt} {b : Fin 8} {s : State} {p : Pos} {h : Berth} (hp : s.posOf lt = some p) (hh : h = s.berth p (Fin.ofNat 64 (56 + b.val)))
include hp hh

theorem mergeTableUpdate_of_opening {k : Fin 64} (hon : (h.open_ && h.ordered) = true) (hk : h.opening = some k) : exec (.mergeTableUpdate lt b) s =
    .next ((s.orderedSent true (lt, b)).bopenDone p k (Fin.ofNat 64 (56 + b.val))) := by
  have hx : exec (.mergeTableUpdate lt b) s = execMergeTableUpdate lt b s := rfl
  subst hh
  rw [hx]
  simp only [execMergeTableUpdate, hp, hon, hk, if_true]
  rfl
theorem mergeTableUpdate_of_none (hn : (h.open_ && h.ordered) = false ∨ h.opening = none) :
    exec (.mergeTableUpdate lt b) s = .next (s.orderedSent (h.open_ && h.ordered) (lt, b)) := by
  have hx : exec (.mergeTableUpdate lt b) s = execMergeTableUpdate lt b s := rfl
  subst hh
  rw [hx]
  simp only [execMergeTableUpdate, hp]
  split
  next k hk =>
    have hoff := hn.resolve_right (by rw [hk]; exact Option.some_ne_none k)
    exact congrArg _ (if_neg (Bool.eq_false_iff.mp hoff))
  · rfl

/-- A merge table update sends the present bit, and ends the BOPEN that waited for it. -/
theorem mergeTableUpdate_sends : ∃ t, exec (.mergeTableUpdate lt b) s = .next t ∧
    (∀ q, (t.ut q).mesh.merge = orderedIn (h.open_ && h.ordered) (lt, b) (s.ut q).mesh.merge) ∧
    ∀ k o, (h.open_ && h.ordered) = true → h.opening = some k → (s.slot p k).op = some o → ∃ y, (t.slot p k).op = some y ∧ y.outcome = some .done := by
  by_cases hw : (h.open_ && h.ordered) = true ∧ ∃ k, h.opening = some k
  · obtain ⟨hon, k, hk⟩ := hw
    refine ⟨_, mergeTableUpdate_of_opening hp hh hon hk, fun q => ?_, fun k' o _ hk' ho => ⟨{ o with outcome := some .done }, ?_, rfl⟩⟩
    · rw [bopenDone_mesh, orderedSent_merge, hon]
    · obtain rfl := Option.some.inj (hk.symm.trans hk')
      exact bopenDone_slot _ p k _ ((congrArg Slot.op (orderedSent_slot s p true (lt, b) k)).trans ho)
  · refine ⟨_, mergeTableUpdate_of_none hp hh ?_, fun q => orderedSent_merge s _ _ q, fun k o hon hk _ => absurd ⟨hon, k, hk⟩ hw⟩
    rw [Option.eq_none_iff_forall_ne_some]
    by_cases hon : (h.open_ && h.ordered) = true
    · exact .inr fun k hk => hw ⟨hon, k, hk⟩
    · exact .inl (Bool.eq_false_iff.mpr hon)

end

/-- Settles O32: writes to the tables, ARM and the drain of a version, merge tables, seam maps, and a drain that takes too long. -/
theorem routingEpochs : Obligations.RoutingEpochs := by
  refine ⟨fun p ver k v s => ?_, fun s => rfl, fun t s => ?_, fun lt b s p hp => ?_, fun p d v s => rfl,
    fun t s hf ht => epochDrainTimeout_of_undrained hf ht⟩
  · refine ⟨fun h ovr => congrArg Host.Outcome.next (tableWrite_of_bad (.inl h)),
      fun _ hb => congrArg Host.Outcome.next (tableWrite_of_bad (.inr ⟨rfl, hb⟩)), fun h hk => ?_, fun h hk hq hr => ?_⟩
    · refine ⟨_, congrArg Host.Outcome.next (tableWrite_ltMap h hk), ?_⟩
      rw [mesh_modMesh]
      exact ⟨ltMapAt_put .., fun w n hn hne => ltMapAt_put_ne _ _ hk hn hne, rfl, rfl⟩
    · have hkey : 149 * b2n ver + k = if ver then 149 + k else k := by cases ver <;> simp [b2n]
      refine ⟨_, congrArg Host.Outcome.next (tableWrite_override h hk hq hr), ?_⟩
      rw [mesh_modMesh, hkey]
      exact ⟨rfl, rfl, rfl⟩
  · intro n
    have hn : n = s.oldFlits := (oldFlits_eq_sum s).symm
    rw [hn]
    rfl
  · intro h
    obtain ⟨t, hx, hm, hend⟩ := mergeTableUpdate_sends (h := h) hp rfl
    refine ⟨t, hx, fun q => ?_, fun q e he => ?_, fun k o ho hor hk hop => hend k o (by simp [ho, hor]) hk hop⟩
    · rw [hm, mem_orderedIn, Bool.and_eq_true]
    · rw [hm, mem_orderedIn_ne _ _ he]

end Sys2Proof.Machine
end

section
/-! PROOFS. AXL ports (O33): what the launch of frames leaves of a port, the ends of what runs on it, its states and its loop-backs. -/

namespace Sys2Proof.Machine

open Sys2Proof

/-! ### Reading a port -/

section
variable {s : State} {x z : PortN} {f g : Port → Port}

@[simp] theorem port_modPort (s : State) (x : PortN) (f : Port → Port) : (s.modPort x f).port x = f (s.port x) := vmod_get_same ..
theorem port_modPort_ne (h : z ≠ x) : (s.modPort x f).port z = s.port z := vmod_get_ne _ _ h
theorem modPort_congr (h : f (s.port x) = g (s.port x)) : s.modPort x f = s.modPort x g :=
  congrArg (fun q => { s with ports := s.ports.set x q }) h
theorem modPort_of_same (h : f (s.port x) = s.port x) : s.modPort x f = s := by
  have hp : vmod s.ports x f = s.ports := (congrArg (s.ports.set x.val · x.isLt) h).trans (Vector.set_getElem_self _)
  rw [State.modPort, hp]
/-- An update that depends on a condition is made where the condition holds. -/
theorem modPort_ite (c : Prop) [Decidable c] : (s.modPort x fun q => if c then q else f q) = if c then s else s.modPort x f := by
  by_cases h : c
  · simp only [if_pos h]
    exact modPort_of_same rfl
  · simp only [if_neg h]
theorem cons_modCons (s : State) (x : PortN) (e : Fin 256) (f : Consign → Consign) :
    ((s.modCons x e f).port x).cons[e] = f ((s.port x).cons[e]) := by
  rw [State.modCons, port_modPort]
  exact vmod_get_same ..

theorem port_at (s : State) (t : Nat) (x : PortN) : (s.at_ t).port x = s.port x := rfl
theorem port_sweep (s : State) (x : PortN) : s.sweep.port x = s.port x := rfl
theorem port_logErr (s : State) (unit : BitVec 40) (st n : Nat) (x : PortN) : (s.logErr unit st n).port x = s.port x := rfl
theorem port_logPort (s : State) (x z : PortN) (n : Nat) : (s.logPort x n).port z = s.port z := rfl

end

/-! ### Launching frames (R278 to R283) -/

/-- The second port is the first but for what launching frames changes. -/
def OnlySends (x y : Port) : Prop := y = { x with
  credits := y.credits, owed := y.owed, sent := y.sent, lanes := y.lanes, txPseq := y.txPseq, waitTx := y.waitTx, relay := y.relay, tx1 := y.tx1
  lastTx := y.lastTx, prbs := y.prbs }

section
variable {x y z : Port}

theorem OnlySends.refl (x : Port) : OnlySends x x := rfl
theorem OnlySends.trans (a : OnlySends x y) (b : OnlySends y z) : OnlySends x z := by
  rw [OnlySends, b, a]
theorem OnlySends.cons (h : OnlySends x y) : y.cons = x.cons := by rw [h]
theorem OnlySends.laneMask (h : OnlySends x y) : y.laneMask = x.laneMask := by rw [h]
theorem OnlySends.state (h : OnlySends x y) : y.state = x.state := by rw [h]
theorem OnlySends.loop_ (h : OnlySends x y) : y.loop_ = x.loop_ := by rw [h]
theorem OnlySends.timeouts (h : OnlySends x y) : y.timeouts = x.timeouts := by rw [h]

theorem seeded_onlySends (x : Port) (g : BitVec 31) : OnlySends x { x with prbs := g } := rfl
theorem waiting_onlySends (x : Port) (l : List Frame) : OnlySends x { x with waitTx := l } := rfl
theorem relaying_onlySends (x : Port) (l : List Frame) : OnlySends x { x with relay := l } := rfl
theorem onLane_onlySends (x : Port) (l : Fin 16) (f : Frame) : OnlySends x (x.onLane l f) := rfl

theorem launch_onlySends {f : Frame} (h : x.launch f = some y) : OnlySends x y := by
  simp only [Port.launch] at h
  split at h
  · cases h
  · split at h
    · cases h
    · obtain rfl := Option.some.inj h
      rfl

theorem relayAll_onlySends (n : Nat) (x : Port) : OnlySends x (x.relayAll n) := by
  induction n generalizing x with
  | zero => exact .refl x
  | succ n ih =>
    rw [Port.relayAll]
    split
    · exact ((relaying_onlySends x _).trans (onLane_onlySends ..)).trans (ih _)
    · exact .refl x

theorem launchAll_onlySends (l : List Frame) (x : Port) : OnlySends x (x.launchAll l) := by
  induction l generalizing x with
  | nil => exact .refl x
  | cons f r ih =>
    rw [Port.launchAll]
    split
    case h_1 y hy => exact (launch_onlySends hy).trans (ih y)
    case h_2 => exact (waiting_onlySends x _).trans (ih _)

theorem flushTx_onlySends (x : Port) : OnlySends x x.flushTx := by
  have hr := relayAll_onlySends x.relay.length x
  simp only [Port.flushTx]
  split
  · exact hr.trans ((waiting_onlySends _ []).trans (launchAll_onlySends _ _))
  · exact hr

theorem queue_onlySends (x : Port) (f : Frame) : OnlySends x (x.queue f) := (waiting_onlySends x _).trans (flushTx_onlySends _)

theorem pattern_onlySends (x : Port) : OnlySends x x.pattern_ := by
  simp only [Port.pattern_]
  split
  case h_1 y hy => exact (seeded_onlySends x _).trans (launch_onlySends hy)
  case h_2 => exact .refl x

end

/-! ### Ends of what runs (R285, R298) -/

section
variable {q : Port} {e : Fin 256} {st : Status}

theorem stop_of_none {c : Consign} (h : c.ended = none) (row : Nat) (st : Status) : c.stop row st = { c with ended := some (row, st) } := by
  rw [Consign.stop, h]

theorem stopAll_ended (hb : q.cons[e].busy = true) (he : q.cons[e].ended = none) (row : Nat) (st : Status) :
    (q.stopAll row st).cons[e].ended = some (row, st) := by
  have hc : (q.stopAll row st).cons[e] = if q.cons[e].busy then q.cons[e].stop row st else q.cons[e] := Vector.getElem_map ..
  rw [hc, if_pos hb, stop_of_none he]

end

/-- A port that has left its state for another. -/
def Port.left (q : Port) (nx : PortState) (st : Status) (now_ : Nat) : Port :=
  { (if q.state = .up then { q.ends st with downCount := q.downCount + 1 } else q).hush with
    state := nx, stateSince := now_, retryAt := none, fibreLoop := if nx = .loopback then q.fibreLoop else false, lock := q.lock && nx == .dark }

theorem portLeave_eq (s : State) (x : PortN) (nx : PortState) (st : Status) :
    s.portLeave x nx st = (s.modPort x fun q => q.left nx st s.now).sweep := rfl

theorem port_portLeave (s : State) (x : PortN) (nx : PortState) (st : Status) : (s.portLeave x nx st).port x = (s.port x).left nx st s.now := by
  rw [portLeave_eq, port_sweep, port_modPort]

theorem left_of_up {q : Port} (h : q.state = .up) (nx : PortState) (st : Status) (n : Nat) : q.left nx st n =
    { ({ q.ends st with downCount := q.downCount + 1 } : Port).hush with
      state := nx, stateSince := n, retryAt := none, fibreLoop := if nx = .loopback then q.fibreLoop else false, lock := q.lock && nx == .dark } := by
  rw [Port.left, if_pos h]

theorem portLost_of_up {s : State} {x : PortN} (h : (s.port x).state = .up) : s.portLost x =
    ((s.portLeave x .dark .partnerLost).modPort x fun q => { q with los := true, lock := false }).logErr (portUnit x) (statusCode .partnerLost) 1 :=
  if_pos h

/-! ### States of a port (Table 10.4) -/

section
variable {s : State} {x : PortN}

theorem axlEnable_of_off (h : (s.port x).state = .off) (hc : s.portCan x = true) :
    exec (.axlEnable x) s = .next (s.modPort x fun q => { q with en := true, state := .dark, stateSince := s.now }) :=
  congrArg Host.Outcome.next (modPort_congr (by simp [h, hc]))
theorem axlEnable_of_not (h : (s.port x).state ≠ .off ∨ s.portCan x = false) :
    exec (.axlEnable x) s = .next (s.modPort x fun q => { q with en := true }) :=
  congrArg Host.Outcome.next (modPort_congr (by rcases h with h | h <;> simp [h]))

section
variable {q : Port} {n : Nat}

theorem locked_of_peer (h : q.state = .dark) (hl : q.lock = true) (hr : q.retryAt = none) (hd : q.peerId ≠ identityDigest) :
    q.locked n = { q with state := .training, stateSince := n } := by
  rw [Port.locked, if_neg (by simp [h, hl, hr]), if_neg hd]
theorem locked_of_own (h : q.state = .dark) (hl : q.lock = true) (hr : q.retryAt = none) (hd : q.peerId = identityDigest) :
    q.locked n = { q with
      state := .loopback, fibreLoop := true, stateSince := n, laneMask := 0xFFFF, rxNext := q.txPseq, lock := false
      lanes := q.lanes.map fun a => { a with rxSeq := a.txSeq - 1 } } := by
  rw [Port.locked, if_neg (by simp [h, hl, hr]), if_pos hd]
theorem locked_of_waiting (h : q.lock = false ∨ q.retryAt.isSome = true) : q.locked n = q := by
  rw [Port.locked, if_pos (.inr h)]

end

theorem axlFrameLock_of_dark {n : Nat} (h : (s.port x).state = .dark) (hn : 8 ≤ n) (hc : s.portCan x = true) (d : BitVec 256) (t : Nat) :
    exec (.axlFrameLock x n d t) s =
      .next ((s.at_ t).modPort x fun _ => ({ s.port x with lock := true, peerId := d } : Port).locked (max s.now t)) := by
  have hx : exec (.axlFrameLock x n d t) s = execAxlFrameLock x n d t s := rfl
  have hg : ¬ (((s.at_ t).port x).state ≠ .dark || n < 8 || !(s.at_ t).portCan x) = true := by
    have hc' : (s.at_ t).portCan x = true := hc
    simp [port_at, h, hc', hn]
  rw [hx]
  exact congrArg Host.Outcome.next ((if_neg hg).trans (modPort_congr rfl))

theorem axlTrained_of_training {m : BitVec 16} {t : Nat} (h : (s.port x).state = .training) (hm : 8 ≤ laneCount m)
    (ht : max s.now t ≤ (s.port x).stateSince + 50000000) (hc : s.portCan x = true) (g : Bool) :
    exec (.axlTrained x g m t) s = .next (((s.at_ t).modPort x fun q => { q with
      state := .up, stateSince := max s.now t, gen2 := q.genMax && g, laneMask := m
      quar := s.sec.quarantine.contains q.peerId, credits := #v[32, 1024, 1024], owed := Vector.replicate 3 0
      lanes := Vector.replicate 16 {}, txPseq := 0, rxNext := 0, held := [], waitTx := [], relay := [], inbox := [], tx1 := 0, back1 := 0
      lastTx := [], fetches := [], exchanges := 0, timeValid := false, farLoop := 0 }).logPort x 1) := by
  have hx : exec (.axlTrained x g m t) s = execAxlTrained x g m t s := rfl
  have hg : ¬ (((s.at_ t).port x).state ≠ .training || laneCount m < 8 || (s.at_ t).now > ((s.at_ t).port x).stateSince + 50000000 ||
      !(s.at_ t).portCan x) = true := by
    have hc' : (s.at_ t).portCan x = true := hc
    have ht' : (s.at_ t).now ≤ (s.port x).stateSince + 50000000 := ht
    simp [port_at, h, hc', hm, ht']
  rw [hx]
  exact congrArg Host.Outcome.next (if_neg hg)

theorem axlTrainingTimeout_of_due {t : Nat} (h : (s.port x).state = .training) (ht : (s.port x).stateSince + 50000000 ≤ max s.now t) :
    exec (.axlTrainingTimeout x t) s = .next ((s.at_ t).modPort x fun _ =>
      { s.port x with state := .dark, stateSince := max s.now t, retryAt := some (max s.now t + 100000000) }) := by
  have hx : exec (.axlTrainingTimeout x t) s = execAxlTrainingTimeout x t s := rfl
  have hg : (((s.at_ t).port x).state = .training && decide (((s.at_ t).port x).stateSince + 50000000 ≤ (s.at_ t).now)) = true := by
    have ht' : (s.port x).stateSince + 50000000 ≤ (s.at_ t).now := ht
    simp [port_at, h, ht']
  rw [hx]
  exact congrArg Host.Outcome.next ((if_pos hg).trans (modPort_congr rfl))

theorem axlRetryTimer_of_due {a t : Nat} (hr : (s.port x).retryAt = some a) (h : (s.port x).state = .dark) (ht : a ≤ max s.now t) :
    exec (.axlRetryTimer x t) s =
      .next ((s.at_ t).modPort x fun _ => ({ s.port x with retryAt := none } : Port).locked (max s.now t)) := by
  have hx : exec (.axlRetryTimer x t) s = execAxlRetryTimer x t s := rfl
  have hg : (((s.at_ t).port x).state = .dark && decide (a ≤ (s.at_ t).now)) = true := by
    have ht' : a ≤ (s.at_ t).now := ht
    simp [port_at, h, ht']
  rw [hx, execAxlRetryTimer]
  simp only [port_at, hr]
  exact congrArg Host.Outcome.next ((if_pos hg).trans (modPort_congr rfl))

theorem axlLossOfLight_of_few {m : BitVec 16} (h : (s.port x).state = .up) (hm : laneCount ((s.port x).laneMask &&& m) < 8) (t : Nat) :
    exec (.axlLossOfLight x m t) s = .next ((s.at_ t).portLost x) := by
  have hx : exec (.axlLossOfLight x m t) s = execAxlLossOfLight x m t s := rfl
  rw [hx, execAxlLossOfLight]
  simp only [port_at, h]
  exact congrArg Host.Outcome.next (if_pos hm)

/-- The loss of an UP port ends what runs, and sends no packet. -/
theorem port_portLost (h : (s.port x).state = .up) : (s.portLost x).port x =
    { (s.port x).left .dark .partnerLost s.now with los := true, lock := false } := by
  rw [portLost_of_up h, port_logErr, port_modPort, port_portLeave]
theorem portLost_net (s : State) (x : PortN) : (s.portLost x).net = s.net := by
  unfold State.portLost
  split_ifs <;> rfl

end

/-! ### Loop-backs (R287, R288) -/

section
variable {s : State} {x : PortN} {v : BitVec 3}

/-- A port in mode v keeps the lanes that it had. -/
theorem enterLoop_port (s : State) (x : PortN) (v : BitVec 3) : ((s.enterLoop x v).port x).state = .loopback ∧
    ((s.enterLoop x v).port x).loop_ = v ∧ ((s.enterLoop x v).port x).laneMask = (s.port x).laneMask := by
  rw [State.enterLoop, port_sweep, port_modPort]
  have hp := pattern_onlySends
  split_ifs
  · exact ⟨(hp _).state, (hp _).loop_, (hp _).laneMask⟩
  · exact ⟨(hp _).state, (hp _).loop_, (hp _).laneMask⟩

/-- The peer has been asked for the modes that it takes part in. -/
def State.loopAsked (s : State) (x : PortN) (v : BitVec 3) : State :=
  if v.toNat ≥ 3 then s.modPort x fun q => q.queue (loopFrame 0x10 v) else s

theorem loopAsked_laneMask (s : State) (x : PortN) (v : BitVec 3) : ((s.loopAsked x v).port x).laneMask = (s.port x).laneMask := by
  unfold State.loopAsked
  split_ifs
  · rw [port_modPort]
    exact (queue_onlySends _ _).laneMask
  · rfl

theorem axlLoop_of_up (hv : v.toNat ≤ 4) (h0 : v ≠ 0) (hl : (s.port x).loaded = false) (h : (s.port x).state = .up) (ok : Bool) :
    s.axlLoop x v ok = if v.toNat ≥ 3 && !ok then (s.loopAsked x v).modPort x fun q => { q with loop_ := 0, loopRefused := true }
      else { (s.loopAsked x v).enterLoop x v with lkh := { ((s.loopAsked x v).enterLoop x v).lkh with refBroken := true } } := by
  rw [State.axlLoop, if_neg (Nat.not_lt.mpr hv), if_neg h0, if_neg (by simp [hl, h])]
  rfl

theorem axlLoopWrite_enters (hv : v.toNat ≤ 4) (h0 : v ≠ 0) (hl : (s.port x).loaded = false) (h : (s.port x).state = .up) :
    ∃ w y, exec (.axlLoopWrite x v true) s = .next w ∧ w.port x = y ∧ y.state = .loopback ∧ y.loop_ = v ∧ y.laneMask = (s.port x).laneMask := by
  obtain ⟨hs, hm, hk⟩ := enterLoop_port (s.loopAsked x v) x v
  refine ⟨_, _, congrArg Host.Outcome.next ((axlLoop_of_up hv h0 hl h true).trans (if_neg (by simp))), rfl, hs, hm, ?_⟩
  exact hk.trans (loopAsked_laneMask s x v)
theorem axlLoopWrite_refused (hv : v = 3 ∨ v = 4) (hl : (s.port x).loaded = false) (h : (s.port x).state = .up) :
    exec (.axlLoopWrite x v false) s =
      .next ((s.modPort x fun q => q.queue (loopFrame 0x10 v)).modPort x fun q => { q with loop_ := 0, loopRefused := true }) := by
  rcases hv with rfl | rfl <;> exact congrArg Host.Outcome.next (axlLoop_of_up (by decide) (by decide) hl h false)

theorem axlLoopRequest_granted (hv : v = 3 ∨ v = 4) (hl : (s.port x).loaded = false) (h : (s.port x).state = .up) :
    exec (.axlLoopRequest x v) s = .next (s.modPort x fun q => { q with farLoop := v }.queue (loopFrame 0x11 v)) := by
  have hx : exec (.axlLoopRequest x v) s = execAxlLoopRequest x v s := rfl
  have h0 : v ≠ 0 := by rcases hv with rfl | rfl <;> decide
  rw [hx, execAxlLoopRequest, if_neg (by simp [h]), if_neg h0, if_pos (by simpa [hl] using hv)]
theorem axlLoopRequest_refused (h0 : v ≠ 0) (hv : (v ≠ 3 ∧ v ≠ 4) ∨ (s.port x).loaded = true) (h : (s.port x).state = .up) :
    exec (.axlLoopRequest x v) s = .next (s.modPort x fun q => q.queue (loopFrame 0x12 v)) := by
  have hx : exec (.axlLoopRequest x v) s = execAxlLoopRequest x v s := rfl
  have hg : ¬ ((v = 3 || v = 4) && !(s.port x).loaded) = true := by
    intro hc
    obtain ⟨hm, hl⟩ : (v = 3 ∨ v = 4) ∧ (s.port x).loaded = false := by simpa using hc
    rcases hv with ⟨h3, h4⟩ | hl'
    · exact hm.elim h3 h4
    · exact Bool.false_ne_true (hl.symm.trans hl')
  rw [hx, execAxlLoopRequest, if_neg (by simp [h]), if_neg h0, if_neg hg]

end

theorem axlPortStates_hold : Rules.AxlPortStates := by
  intro x t s q now upd
  refine ⟨axlEnable_of_off, axlEnable_of_not, fun n d h hn hc hr hd => ?_, fun n h hn hc hr => ?_, fun n d h hn hc hr => ?_,
    fun g m h hm ht hc => ?_, axlTrainingTimeout_of_due, fun a hr h ha => ⟨fun hl => ?_, fun hl hd => ?_⟩, fun m h hm => ?_, ?_,
    fun v hv hl h => ?_, fun v => axlLoopWrite_refused, fun v => axlLoopRequest_granted, fun v => axlLoopRequest_refused⟩
  · rw [axlFrameLock_of_dark h hn hc, locked_of_peer (q := { s.port x with lock := true, peerId := d }) h rfl hr hd]
  · refine ⟨_, axlFrameLock_of_dark h hn hc identityDigest t, ?_⟩
    rw [locked_of_own (q := { s.port x with lock := true, peerId := identityDigest }) h rfl hr rfl]
    exact ⟨rfl, rfl, rfl, rfl, rfl, rfl⟩
  · rw [axlFrameLock_of_dark h hn hc, locked_of_waiting (q := { s.port x with lock := true, peerId := d }) (.inr hr)]
  · refine ⟨_, _, axlTrained_of_training h hm ht hc g, (port_logPort ..).trans (port_modPort ..), rfl, rfl, rfl, rfl, rfl, rfl, rfl,
      fun l => Vector.getElem_replicate .., rfl, fun z hz => (port_logPort ..).trans (port_modPort_ne hz)⟩
  · rw [axlRetryTimer_of_due hr h ha, locked_of_waiting (q := { s.port x with retryAt := none }) (.inl hl)]
  · rw [axlRetryTimer_of_due hr h ha, locked_of_peer (q := { s.port x with retryAt := none }) h hl rfl hd]
  · refine ⟨_, _, axlLossOfLight_of_few h hm t, port_portLost h, ?_⟩
    rw [port_at, left_of_up h]
    exact ⟨rfl, rfl, rfl, fun e hb he => stopAll_ended hb he 1 .partnerLost, rfl, rfl, rfl, portLost_net _ _⟩
  · refine ⟨_, _, rfl, (port_modPort ..).trans (congrArg (fun q : Port => { q with en := false }) (port_portLeave ..)), rfl, rfl, rfl,
      fun h e hb he => ?_⟩
    rw [left_of_up h]
    exact stopAll_ended hb he 1 .tileReset
  · obtain ⟨h4, h0⟩ : v.toNat ≤ 4 ∧ v ≠ 0 := by rcases hv with rfl | rfl | rfl | rfl <;> decide
    exact axlLoopWrite_enters h4 h0 hl h

end Sys2Proof.Machine
end

section
/-! PROOFS. Time over an AXL port, and frames on a lane in service (O33). -/

namespace Sys2Proof.Machine

open Sys2Proof

/-! ### Time (R290) -/

theorem length_natBytes (v n : Nat) : (natBytes v n).length = n := by
  induction n generalizing v with
  | zero => rfl
  | succ n ih => rw [natBytes, List.length_cons, ih]
theorem bytesNat_natBytes (v n : Nat) : bytesNat (natBytes v n) = v % 256 ^ n := by
  induction n generalizing v with
  | zero => rw [natBytes, bytesNat, pow_zero, Nat.mod_one]
  | succ n ih =>
    rw [natBytes, bytesNat, ih, BitVec.toNat_ofNat, pow_succ' 256 n, Nat.mod_mul]

/-- The payload of a TIME frame: the time of its launch, the two times of the last one that arrived, and the time source. -/
def State.timePayload (s : State) (x : PortN) (t : Nat) : List Byte :=
  natBytes (max s.now t * 65536) 8 ++ natBytes (BitVec.ofInt 64 (s.port x).timeIn.1).toNat 8 ++
    natBytes (BitVec.ofInt 64 (s.port x).timeIn.2).toNat 8 ++ [s.tsrc.cur.zeroExtend 8]

section
variable {s : State} {x : PortN} (h : (s.port x).talks = true)
include h

theorem axlTimeExchange_of_talks (t : Nat) :
    exec (.axlTimeExchange x t) s = .next ((s.at_ t).modPort x fun q => q.queue (mkFrame 0 1 0 3 0 (s.timePayload x t))) := by
  have hx : exec (.axlTimeExchange x t) s = execAxlTimeExchange x t s := rfl
  have hg : ¬ (!((s.at_ t).port x).talks) = true := by simp [port_at, h]
  rw [hx]
  exact congrArg Host.Outcome.next ((if_neg hg).trans (modPort_congr rfl))

theorem axlTimeFrame_of_talks (t1 t2 t3 t4 : Int) (src : BitVec 2) :
    exec (.axlTimeFrame x t1 t2 t3 t4 src) s = .next (s.modPort x fun q => { q with
      offset := BitVec.ofInt 48 (((t1 - t2) + (t4 - t3)) / 2)
      delay := BitVec.ofNat 14 (min ((((t2 - t1) + (t4 - t3)) / 2) / 65536).toNat 16383), peerSrc := src, timeIn := (t1, t2)
      exchanges := q.exchanges + 1, timeValid := q.timeValid || decide (q.exchanges + 1 ≥ 4) }) := by
  have hx : exec (.axlTimeFrame x t1 t2 t3 t4 src) s = execAxlTimeFrame x t1 t2 t3 t4 src s := rfl
  have hg : ¬ (!(s.port x).talks) = true := by simp [h]
  rw [hx]
  exact congrArg Host.Outcome.next (if_neg hg)

end

theorem timePayload_length (s : State) (x : PortN) (t : Nat) : (s.timePayload x t).length = 25 := by
  simp [State.timePayload, length_natBytes]
theorem timePayload_launchTime (s : State) (x : PortN) (t : Nat) : bytesNat ((s.timePayload x t).take 8) = max s.now t * 65536 % 2 ^ 64 := by
  have hk : (s.timePayload x t).take 8 = natBytes (max s.now t * 65536) 8 := by
    rw [State.timePayload, List.append_assoc, List.append_assoc]
    exact List.take_left' (length_natBytes _ 8)
  rw [hk, bytesNat_natBytes]
  norm_num

theorem axlTime_holds : Rules.AxlTime := by
  intro x t t1 t2 t3 t4 src s h
  refine ⟨⟨_, _, axlTimeExchange_of_talks h t, rfl, timePayload_length s x t, timePayload_launchTime s x t⟩,
    _, _, axlTimeFrame_of_talks h t1 t2 t3 t4 src, port_modPort .., rfl, rfl, ?_, ?_, rfl, fun z hz => port_modPort_ne hz⟩
  · exact (BitVec.toNat_ofNat ..).trans (Nat.mod_eq_of_lt (by omega))
  · simp only [Bool.or_eq_true, decide_eq_true_eq]
    exact or_congr_right (by omega)

/-! ### Frames on a lane in service (R279 to R283) -/

/-- A frame in LSEQ order has advanced its lane, and given its ACK and credits. -/
def State.laneAdvanced (s : State) (x : PortN) (l : Fin 16) (f : Frame) : State :=
  ((s.modPort x fun q => q.fec f).modPort x fun q => { q with
    lanes := vmod q.lanes l fun a => { a with rxSeq := f.lseq } }).frameBack x l f
/-- A frame's PSEQ is behind the next to be delivered, or among those that wait. -/
def Port.pseqSeen (q : Port) (f : Frame) : Bool := (f.pseq - q.rxNext).toNat ≥ 32768 || q.held.any fun g => g.pseq == f.pseq
/-- A new frame has joined those that wait for PSEQ order, and those that are next have been delivered. -/
def State.frameTaken (s : State) (x : PortN) (f : Frame) : State :=
  (if (s.port x).pseqSeen f then s else s.modPort x fun q => { q with held := q.held ++ [f] }.deliverN (q.held.length + 1)).pump x

section
variable {s : State} {x : PortN} {l : Fin 16} {f : Frame} (h : (s.port x).state = .up ∨ (s.port x).state = .loopback)
  (hl : (s.port x).laneMask.getLsbD l.val = true)
include h hl

/-- A port that is UP or in loop-back hears its lanes in service. -/
theorem hears_lane (t : Nat) : ¬ (!((s.at_ t).port x).listening || !((s.at_ t).port x).laneMask.getLsbD l.val) = true := by
  have hq : (s.port x).listening = true := by rcases h with h | h <;> simp [Port.listening, h]
  simp [port_at, hq, hl]

theorem axlDataFrame_of_bad (ho : (s.port x).own f = false) (hb : frameBad f = true ∨ f.lseq ≠ (s.port x).lanes[l].rxSeq + 1) (t : Nat) :
    exec (.axlDataFrame x l f t) s = .next (((s.at_ t).modPort x fun q => q.fec f).modPort x fun q => q.idle l true 0) := by
  have hx : exec (.axlDataFrame x l f t) s = execAxlDataFrame x l f t s := rfl
  have ho' : ¬ ((s.at_ t).port x).own f = true := Bool.eq_false_iff.mp ho
  have hbad : (frameBad f || f.lseq != ((s.at_ t).port x).lanes[l].rxSeq + 1) = true := by
    rw [Bool.or_eq_true, bne_iff_ne]
    exact hb
  rw [hx, execAxlDataFrame, if_neg (hears_lane h hl t), if_neg ho', if_pos hbad]

theorem axlDataFrame_of_next (ho : (s.port x).own f = false) (hb : frameBad f = false) (hn : f.lseq = (s.port x).lanes[l].rxSeq + 1) (t : Nat) :
    exec (.axlDataFrame x l f t) s = .next ((((s.at_ t).laneAdvanced x l f).frameTaken x f).modPort x fun y =>
      if y.listening then y.idles l (y.sent.length == (((s.at_ t).laneAdvanced x l f).port x).sent.length) else y) := by
  have hx : exec (.axlDataFrame x l f t) s = execAxlDataFrame x l f t s := rfl
  have ho' : ¬ ((s.at_ t).port x).own f = true := Bool.eq_false_iff.mp ho
  have hgood : ¬ (frameBad f || f.lseq != ((s.at_ t).port x).lanes[l].rxSeq + 1) = true := by
    rw [Bool.or_eq_true, bne_iff_ne, not_or, not_not]
    exact ⟨Bool.eq_false_iff.mp hb, hn⟩
  rw [hx, execAxlDataFrame, if_neg (hears_lane h hl t), if_neg ho', if_neg hgood]
  simp only [modPort_ite]
  rfl

theorem axlIdleFrame_of_good (hb : frameBad f = false) (t : Nat) :
    exec (.axlIdleFrame x l f t) s = .next ((((s.at_ t).modPort x fun q => q.fec f).frameBack x l f).pump x) := by
  have hx : exec (.axlIdleFrame x l f t) s = execAxlIdleFrame x l f t s := rfl
  rw [hx, execAxlIdleFrame, if_neg (hears_lane h hl t), if_neg (Bool.eq_false_iff.mp hb)]
theorem axlIdleFrame_of_bad (hb : frameBad f = true) (t : Nat) :
    exec (.axlIdleFrame x l f t) s = .next (((s.at_ t).modPort x fun q => q.fec f).modPort x fun q => q.idle l true 0) := by
  have hx : exec (.axlIdleFrame x l f t) s = execAxlIdleFrame x l f t s := rfl
  rw [hx, execAxlIdleFrame, if_neg (hears_lane h hl t), if_pos hb]

theorem axlNak_resends {ack : BitVec 8} {y : Port} (hn : (s.port x).nakked l ack = some y) (t : Nat) :
    exec (.axlNak x l ack t) s = .next (((s.at_ t).modPort x fun _ => y).pump x) := by
  have hx : exec (.axlNak x l ack t) s = execAxlNak x l ack t s := rfl
  rw [hx, execAxlNak, if_neg (hears_lane h hl t)]
  simp only [port_at, hn]
theorem axlNak_removes {ack : BitVec 8} (hn : (s.port x).nakked l ack = none) (t : Nat) :
    exec (.axlNak x l ack t) s = .next ((s.at_ t).laneRemove x l) := by
  have hx : exec (.axlNak x l ack t) s = execAxlNak x l ack t s := rfl
  rw [hx, execAxlNak, if_neg (hears_lane h hl t)]
  simp only [port_at, hn]

end

section
variable {q : Port} {l : Fin 16} {ack : BitVec 8} (hr : (q.lanes[l].acked ack).replay ≠ [])
include hr

theorem nakked_of_left (hn : (q.lanes[l].acked ack).resends < 16) : q.nakked l ack = some { q with
    lanes := q.lanes.set l { q.lanes[l].acked ack with resends := (q.lanes[l].acked ack).resends + 1 }
    replays := q.replays + 1, sent := q.sent ++ (q.lanes[l].acked ack).replay } := by
  rw [Port.nakked, if_neg (by simpa using hr), if_neg (Nat.not_le.mpr hn)]
theorem nakked_of_spent (hn : 16 ≤ (q.lanes[l].acked ack).resends) : q.nakked l ack = none := by
  rw [Port.nakked, if_neg (by simpa using hr), if_pos hn]

end

theorem axlFrames_hold : Rules.AxlFrames := by
  intro x l f t s q u h hl
  refine ⟨fun ho hb => ?_, fun ho hb hn => axlDataFrame_of_next h hl ho hb hn t, fun hb => axlIdleFrame_of_good h hl hb t,
    fun hb => axlIdleFrame_of_bad h hl hb t, fun ack hn hr => ?_, fun ack hn hr => axlNak_removes h hl (nakked_of_spent hr hn) t⟩
  · refine ⟨_, _, axlDataFrame_of_bad h hl ho hb t, port_modPort .., ?_⟩
    rw [port_modPort]
    exact ⟨rfl, rfl, rfl, rfl, ⟨_, rfl, rfl, rfl, rfl⟩, fun p => rfl, rfl⟩
  · refine (axlNak_resends h hl (nakked_of_left hr hn) t).trans ?_
    exact congrArg (fun v : State => Host.Outcome.next (v.pump x)) (modPort_congr rfl)

end Sys2Proof.Machine
end

section
/-! PROOFS. Consignments and peer reads (O33): firing, CLEAR and CANCEL frames, entries that go unmet or complete, and FETCH. -/

namespace Sys2Proof.Machine

open Sys2Proof

/-! ### Firing (R293) -/

section
variable {s : State} {x : PortN} {e : Fin 256}

theorem fire_of_busy (h : (s.port x).cons[e].busy = true) : s.fire x e = s.modPort x fun q => { q with refused := q.refused + 1 } := if_pos h

theorem fire_of_down (hb : (s.port x).cons[e].busy = false) (h : (s.port x).state ≠ .up) :
    s.fire x e = (s.modCons x e fun c => { c with busy := true, met := false, moved := 0, firedAt := s.now, ended := none }).modCons x e
      fun c => c.stop 1 .partnerLost := by
  rw [State.fire, if_neg (Bool.eq_false_iff.mp hb), if_pos h]

theorem fire_of_down_cons (hb : (s.port x).cons[e].busy = false) (h : (s.port x).state ≠ .up) : ((s.fire x e).port x).cons[e] =
    { (s.port x).cons[e] with busy := true, met := false, moved := 0, firedAt := s.now, ended := some (1, .partnerLost) } := by
  rw [fire_of_down hb h, cons_modCons, cons_modCons, stop_of_none rfl]

end

/-! ### Control frames (R294 to R298) -/

section
variable {s : State} {x : PortN}

theorem talks_of_up (h : (s.port x).state = .up) : (s.port x).talks = true := by
  simp [Port.talks, h]
theorem talks_of_loop (h : (s.port x).state = .loopback) (hl : (s.port x).loop_ ≠ 0) : (s.port x).talks = true := by
  simpa [Port.talks, h] using hl

section
variable (ch : BitVec 8) (n : BitVec 32) (a : BitVec 4) (t : Nat)

theorem axlClear_in_loop (h : (s.port x).state = .loopback) (hl : (s.port x).loop_ ≠ 0) :
    exec (.axlClear x ch n a t) s = .next ((s.at_ t).modPort x fun q => q.queue (cancelFrame ch .partnerLost)) := by
  have hx : exec (.axlClear x ch n a t) s = execAxlClear x ch n a t s := rfl
  rw [hx, execAxlClear, if_neg (by simp [port_at, talks_of_loop h hl]), if_pos (by simp [port_at, h])]
theorem axlClear_of_quarantined (h : (s.port x).state = .up) (hq : (s.port x).quar = true) :
    exec (.axlClear x ch n a t) s = .next ((s.at_ t).modPort x fun q => q.queue (cancelFrame ch .noRights)) := by
  have hx : exec (.axlClear x ch n a t) s = execAxlClear x ch n a t s := rfl
  rw [hx, execAxlClear, if_neg (by simp [port_at, talks_of_up h]), if_neg (by simp [port_at, h]), if_pos (by simp [port_at, hq])]

end

section
variable {ch : BitVec 8} (n : BitVec 32) (a : BitVec 4) (t : Nat) (h : (s.port x).state = .up) (hq : (s.port x).quar = false)
include h hq

theorem axlClear_of_held (hk : ∃ k ∈ (s.port x).clears, k.1 = ch) :
    exec (.axlClear x ch n a t) s = .next ((s.at_ t).modPort x fun q => q.queue (cancelFrame ch .illegalDescriptor)) := by
  have hx : exec (.axlClear x ch n a t) s = execAxlClear x ch n a t s := rfl
  have hheld : (((s.at_ t).port x).clears.any fun k => k.1 == ch) = true := by
    obtain ⟨k, hk, hc⟩ := hk
    exact List.any_eq_true.mpr ⟨k, hk, beq_iff_eq.mpr hc⟩
  rw [hx, execAxlClear, if_neg (by simp [port_at, talks_of_up h]), if_neg (by simp [port_at, h]), if_neg (by simp [port_at, hq]), if_pos hheld]

/-- A CLEAR that is held meets the first running SEND of its channel. -/
theorem axlClear_of_new (hk : ∀ k ∈ (s.port x).clears, k.1 ≠ ch) :
    let v := (s.at_ t).modPort x fun q => { q with clears := q.clears ++ [(ch, n, a)] }
    let found := (List.finRange 256).find? fun e =>
      (s.port x).cons[e].live && (s.port x).cons[e].dir == 0 && (s.port x).cons[e].channel == ch && !(s.port x).cons[e].met
    (found = none → exec (.axlClear x ch n a t) s = .next v) ∧
    (∀ k, found = some k → exec (.axlClear x ch n a t) s = .next ((v.tryMeet x k).pump x)) := by
  intro v found
  have hx : exec (.axlClear x ch n a t) s = execAxlClear x ch n a t s := rfl
  have hheld : ¬ (((s.at_ t).port x).clears.any fun k => k.1 == ch) = true := by
    rw [List.any_eq_true]
    rintro ⟨k, hm, hc⟩
    exact hk k hm (beq_iff_eq.mp hc)
  rw [hx, execAxlClear, if_neg (by simp [port_at, talks_of_up h]), if_neg (by simp [port_at, h]), if_neg (by simp [port_at, hq]), if_neg hheld]
  refine ⟨fun hf => ?_, fun k hf => ?_⟩
  · split
    case h_1 e he => exact absurd (hf.symm.trans he) (Option.some_ne_none e).symm
    case h_2 => rfl
  · split
    case h_1 e he => rw [Option.some.inj (he.symm.trans hf)]
    case h_2 he => exact absurd (he.symm.trans hf) (Option.some_ne_none k).symm

end

/-- The running entries of a channel have ended with a CANCEL's status, and its CLEAR is withdrawn. -/
def State.cancelled (s : State) (x : PortN) (ch : BitVec 8) (st : Status) : State :=
  (s.modPort x fun q => { q with
    clears := q.clears.filter fun k => k.1 != ch
    cons := q.cons.map fun c => if c.busy && c.channel == ch then c.stop 6 st else c }).sweep

theorem cancelled_clears (s : State) (x : PortN) (ch : BitVec 8) (st : Status) : ∀ k ∈ ((s.cancelled x ch st).port x).clears, k.1 ≠ ch := by
  rw [State.cancelled, port_sweep, port_modPort]
  intro k hk
  exact bne_iff_ne.mp (List.mem_filter.mp hk).2
theorem cancelled_cons (s : State) (x : PortN) (ch : BitVec 8) (st : Status) (e : Fin 256) : ((s.cancelled x ch st).port x).cons[e] =
    if (s.port x).cons[e].busy && (s.port x).cons[e].channel == ch then (s.port x).cons[e].stop 6 st else (s.port x).cons[e] := by
  rw [State.cancelled, port_sweep, port_modPort]
  exact Vector.getElem_map ..

/-- What the steps of entries are asked for changes the reported causes alone. -/
theorem askAborts_eq (l : List Consign) (k : Cause) (s : State) :
    ∃ a, l.foldl (fun (s : State) c => s.askAbort c.step k 0x7F) s = { s with aborts := a } :=
  foldl_rel (R := fun u v : State => ∃ a, v = { u with aborts := a }) (fun u => ⟨u.aborts, rfl⟩)
    (by rintro _ _ _ ⟨_, rfl⟩ ⟨a, rfl⟩; exact ⟨a, rfl⟩) (fun u _ => report_eq u _) l s

theorem axlCancel_of_talks (h : (s.port x).talks = true) (ch : BitVec 8) (st : Status) (t : Nat) :
    ∃ a, exec (.axlCancel x ch st t) s = .next { (s.at_ t).cancelled x ch st with aborts := a } := by
  have hx : exec (.axlCancel x ch st t) s = execAxlCancel x ch st t s := rfl
  obtain ⟨a, ha⟩ := askAborts_eq (((s.at_ t).port x).cons.toList.filter fun c => (c.busy && c.channel == ch && c.ended.isNone) && c.linkAbort)
    (.status st) ((s.at_ t).cancelled x ch st)
  rw [hx, execAxlCancel, if_neg (by simp [port_at, h])]
  exact ⟨a, congrArg Host.Outcome.next ha⟩

/-! ### Entries that go unmet (R296) -/

section
variable {e : Fin 256} {t : Nat} (hb : (s.port x).cons[e].busy = true) (he : (s.port x).cons[e].ended = none)
  (hm : (s.port x).cons[e].met = false) (ht : (s.port x).cons[e].firedAt + (s.port x).meetUs.toNat * 1000 ≤ (s.at_ t).now)
include hb he hm ht

theorem consignmentMeetTimeout_of_due :
    exec (.consignmentMeetTimeout x e t) s = .next ((((s.at_ t).modCons x e fun c => c.stop 3 .heldTimeout).modPort x fun q =>
      { q with timeouts := q.timeouts + 1 }.queue (cancelFrame (s.port x).cons[e].channel .heldTimeout)).logErr (portUnit x)
        (statusCode .heldTimeout) 1) := by
  have hx : exec (.consignmentMeetTimeout x e t) s = execConsignmentMeetTimeout x e t s := rfl
  have hlive : (s.port x).cons[e].live = true := by simp only [Consign.live, hb, he]; rfl
  have hdue : (((s.at_ t).port x).cons[e].live && !((s.at_ t).port x).cons[e].met &&
      decide (((s.at_ t).port x).cons[e].firedAt + ((s.at_ t).port x).meetUs.toNat * 1000 ≤ (s.at_ t).now)) = true := by
    rw [port_at, hlive, hm, decide_eq_true ht]
    rfl
  rw [hx, execConsignmentMeetTimeout, if_pos hdue]
  rfl

theorem consignmentMeetTimeout_ends :
    ∃ v, exec (.consignmentMeetTimeout x e t) s = .next v ∧ (v.port x).cons[e].ended = some (3, .heldTimeout) ∧
      (v.port x).timeouts = (s.port x).timeouts + 1 ∧ (v.port x).cons[e].busy = true := by
  refine ⟨_, consignmentMeetTimeout_of_due hb he hm ht, ?_⟩
  rw [port_logErr, port_modPort, (queue_onlySends _ _).cons, (queue_onlySends _ _).timeouts]
  have hc := cons_modCons (s.at_ t) x e fun c => c.stop 3 .heldTimeout
  rw [port_at, stop_of_none he] at hc
  refine ⟨congrArg Consign.ended hc, ?_, (congrArg Consign.busy hc).trans hb⟩
  rw [State.modCons, port_modPort, port_at]

end

end

/-! ### Completion (R298, Table 10.7) -/

theorem statusCode_lt (st : Status) : statusCode st < 256 := by
  cases st <;> decide

/-- An entry is idle again with its status, and its chamber is signalled, but not where its own step is aborted. -/
def State.consTold (s : State) (x : PortN) (e : Fin 256) (row : Nat) (st : Status) : State :=
  let s1 := s.modCons x e fun c => { c with busy := false, ended := none, status := BitVec.ofNat 8 (statusCode st) }
  if row = 0 then s1 else s1.consSignal x (s.port x).cons[e]

section
variable {s : State} {x : PortN} {e : Fin 256} {row : Nat} {st : Status}

theorem consTold_cons (s : State) (x : PortN) (e : Fin 256) (row : Nat) (st : Status) : ((s.consTold x e row st).port x).cons[e] =
    { (s.port x).cons[e] with busy := false, ended := none, status := BitVec.ofNat 8 (statusCode st) } := by
  simp only [State.consTold]
  split_ifs <;> exact cons_modCons s x e _
theorem consTold_net_of_aborted (h : row = 0) : (s.consTold x e row st).net = s.net := by
  rw [State.consTold, if_pos h]
  rfl
theorem consTold_net (h : row ≠ 0) : ∃ a, (s.consTold x e row st).net = s.net ++ [a] ∧ a.type = 7 ∧ a.arg = 1 ∧
    a.addr = (s.port x).cons[e].doneCh ∧ a.id = s.nextPkt := by
  rw [State.consTold, if_neg h]
  exact ⟨_, rfl, rfl, rfl, rfl, rfl⟩

/-- After its completion a port has at most told its peer. -/
theorem consComplete_of_ended (hb : (s.port x).cons[e].busy = true) (hc : (s.port x).cons[e].coll = 0)
    (he : (s.port x).cons[e].ended = some (row, st) ∨ ((s.port x).cons[e].ended = none ∧ s.sendDone x e = true ∧ row = 7 ∧ st = .done)) :
    s.consComplete x e = s.consTold x e row st ∨
      ∃ f, s.consComplete x e = (s.consTold x e row st).modPort x fun q => q.queue f := by
  have hend : (if (s.port x).cons[e].ended.isSome then (s.port x).cons[e].ended else if s.sendDone x e then some (7, .done) else none) =
      some (row, st) := by
    rcases he with he | ⟨he, hd, rfl, rfl⟩
    · rw [he]
      rfl
    · rw [he, hd]
      rfl
  have hb' : ¬ (!(s.port x).cons[e].busy) = true := by
    rw [hb]
    decide
  have heq : s.consComplete x e =
      if st ≠ .done && (s.port x).cons[e].met && row != 6 && (s.port x).state == .up then
        (s.consTold x e row st).modPort x fun q => q.queue (cancelFrame (s.port x).cons[e].channel st)
      else s.consTold x e row st := by
    simp only [State.consComplete, hend]
    rw [if_neg hb', if_pos hc]
    rfl
  rw [heq]
  split_ifs
  · exact .inr ⟨_, rfl⟩
  · exact .inl rfl

theorem consignmentComplete_ends {t : Nat} (hb : (s.port x).cons[e].busy = true) (hc : (s.port x).cons[e].coll = 0)
    (he : (s.port x).cons[e].ended = some (row, st) ∨
      ((s.port x).cons[e].ended = none ∧ (s.at_ t).sendDone x e = true ∧ row = 7 ∧ st = .done)) :
    ∃ v, exec (.consignmentComplete x e t) s = .next v ∧ (v.port x).cons[e] =
        { (s.port x).cons[e] with busy := false, ended := none, status := BitVec.ofNat 8 (statusCode st) } ∧
      v.net = ((s.at_ t).consTold x e row st).net := by
  refine ⟨_, rfl, ?_⟩
  rcases consComplete_of_ended (s := s.at_ t) hb hc he with h | ⟨f, h⟩
  · rw [h]
    exact ⟨consTold_cons .., rfl⟩
  · rw [h, port_modPort, (queue_onlySends _ f).cons]
    exact ⟨consTold_cons .., rfl⟩

end

/-! ### Peer reads (10.6.3) -/

section
variable {s : State} {x : PortN} (a : Word) (n : BitVec 32) (ch : BitVec 8) (h : (s.port x).state = .up)
include h

theorem axlFetch_of_noRights (hr : (s.port x).peerRead = false ∨ (s.port x).quar = true) :
    exec (.axlFetch x a n ch) s = .next (s.modPort x fun q => q.queue (cancelFrame ch .noRights)) := by
  have hx : exec (.axlFetch x a n ch) s = execAxlFetch x a n ch s := rfl
  rw [hx, execAxlFetch, if_neg (by simp [talks_of_up h]), if_neg (by simp [h]), if_pos (by simpa using hr)]

section
variable (hp : (s.port x).peerRead = true) (hq : (s.port x).quar = false)
include hp hq

theorem axlFetch_of_illegal (ha : s.addrBad a = true ∨ addrClass a ≠ 1) :
    exec (.axlFetch x a n ch) s = .next (s.modPort x fun q => q.queue (cancelFrame ch .illegalDescriptor)) := by
  have hx : exec (.axlFetch x a n ch) s = execAxlFetch x a n ch s := rfl
  rw [hx, execAxlFetch, if_neg (by simp [talks_of_up h]), if_neg (by simp [h]), if_neg (by simp [hp, hq]), if_pos (by simpa using ha)]
theorem axlFetch_of_legal (ha : s.addrBad a = false) (hc : addrClass a = 1) :
    exec (.axlFetch x a n ch) s = .next ((s.modPort x fun q => { q with fetches := q.fetches ++ [(ch, a, n.toNat, 0)] }).pump x) := by
  have hx : exec (.axlFetch x a n ch) s = execAxlFetch x a n ch s := rfl
  rw [hx, execAxlFetch, if_neg (by simp [talks_of_up h]), if_neg (by simp [h]), if_neg (by simp [hp, hq]), if_neg (by simp [ha, hc])]

end

end

theorem consignments_hold : Rules.Consignments := by
  intro x e t s q c u
  refine ⟨fire_of_busy, fun hb h => ?_, fun ch n a h hq hk => axlClear_of_held n a t h hq hk, fun ch n a => axlClear_of_quarantined ch n a t,
    fun ch n a => axlClear_in_loop ch n a t, fun ch n a h hq hk => axlClear_of_new n a t h hq hk, fun ch st h => ?_,
    consignmentMeetTimeout_ends, fun row st hb he hc => ?_, fun a n ch => axlFetch_of_noRights a n ch, fun a n ch => axlFetch_of_illegal a n ch,
    fun a n ch => axlFetch_of_legal a n ch⟩
  · rw [fire_of_down_cons hb h]
    exact ⟨rfl, rfl, rfl⟩
  · obtain ⟨l, hx⟩ := axlCancel_of_talks h ch st t
    have hcons : (((s.at_ t).cancelled x ch st).port x).cons[e] = if c.busy && c.channel == ch then c.stop 6 st else c := cancelled_cons ..
    refine ⟨_, hx, cancelled_clears _ x ch st, fun hb hch he => ?_, fun hn => ?_, rfl, rfl⟩
    · refine congrArg Consign.ended (hcons.trans (if_pos ?_)) |>.trans (congrArg Consign.ended (stop_of_none he 6 st))
      rw [hb, hch, beq_self_eq_true]
      rfl
    · refine hcons.trans (if_neg ?_)
      rw [Bool.and_eq_true, beq_iff_eq, not_and_or, Bool.not_eq_true]
      exact hn
  · obtain ⟨v, hx, hcons, hnet⟩ := consignmentComplete_ends hb hc he
    refine ⟨v, hx, congrArg Consign.busy hcons, congrArg Consign.ended hcons, ?_, fun h0 => ?_, fun h0 => ?_⟩
    · exact (congrArg (fun c : Consign => c.status.toNat) hcons).trans ((BitVec.toNat_ofNat ..).trans (Nat.mod_eq_of_lt (statusCode_lt st)))
    · exact hnet.trans (consTold_net_of_aborted h0)
    · rw [hnet]
      exact consTold_net (s := s.at_ t) h0

/-- Settles O33: the states of a port and its loop-backs, time, frames on a lane in service, consignments and peer reads. -/
theorem axlPorts : Obligations.AxlPorts := ⟨axlPortStates_hold, axlTime_holds, axlFrames_hold, consignments_hold⟩

end Sys2Proof.Machine
end

section
/-! PROOFS. Completion records (R319) and the end of a step (R326) (O39): what a record and the manifest ring's line 1 leave alone, and the state in
which a step's record is written. -/

namespace Sys2Proof.Machine

open Sys2Proof

/-! ### Records and line 1 of the manifest ring (R318, R319) -/

section
variable (s : State) (c : CompRec)

theorem ringLine1_eq : ∃ h, s.ringLine1 = { s with host := h } := by
  unfold State.ringLine1
  split_ifs
  · exact ⟨s.host, rfl⟩
  · exact ⟨_, rfl⟩

/-- The manifest leaves the ring; else only companion memory changes. -/
theorem ringPass_eq : ∃ h, s.ringPass = { s with
    host := h, intake := { s.intake with waiting := s.intake.waiting.drop 1, mTaken := s.intake.mTaken + 1, heldSince := none, seenAt := s.now } } :=
  ringLine1_eq _

/-- A record that is written is counted; else only companion memory and the messages to the runtime change. -/
theorem putRecord_eq : ∃ h o, s.putRecord c = { s with
    host := h, intake := { s.intake with written := s.intake.written ++ [c], cProd := s.intake.cProd + 1, out := o } } := by
  unfold State.putRecord
  extract_lets r s1 s2
  have hs2 : ∃ h, s2 = { s1 with host := h } := by
    unfold s2
    split_ifs
    · exact ⟨_, rfl⟩
    · exact ⟨s1.host, rfl⟩
  obtain ⟨h, hs2⟩ := hs2
  rw [hs2]
  split_ifs
  · exact ⟨h, _, rfl⟩
  · exact ⟨h, s.intake.out, rfl⟩

theorem record_of_runtime (h : s.kclUp = true ∨ s.intake.pcieRuntime = true) : s.record c = s.putRecord c := by
  simp [State.record, h]
theorem record_of_down (hk : s.kclUp = false) (hp : s.intake.pcieRuntime = false) :
    s.record c = s.modIntake fun i => { i with kept := if i.kept.length < 256 then i.kept ++ [c] else i.kept } := by
  simp [State.record, hk, hp]

/-- Whether it is written or kept, a record changes nothing else. -/
theorem record_eq : ∃ h w n k o, s.record c = { s with host := h, intake := { s.intake with written := w, cProd := n, kept := k, out := o } } := by
  unfold State.record
  split_ifs
  · obtain ⟨h, o, hp⟩ := putRecord_eq s c
    exact ⟨h, _, _, s.intake.kept, o, hp⟩
  · exact ⟨s.host, s.intake.written, s.intake.cProd, _, s.intake.out, rfl⟩
theorem record_steps : (s.record c).intake.steps = s.intake.steps := by
  obtain ⟨h, w, n, k, o, e⟩ := record_eq s c
  rw [e]
theorem record_port (x : PortN) : (s.record c).port x = s.port x := by
  obtain ⟨h, w, n, k, o, e⟩ := record_eq s c
  rw [e]
  rfl

end

theorem completionRecords_hold : Rules.CompletionRecords := by
  refine fun c s => ⟨fun h => ?_, fun hk hp => ⟨fun hl => ?_, fun hl => ?_⟩⟩
  · obtain ⟨m, o, e⟩ := putRecord_eq s c
    exact ⟨record_of_runtime s c h, by rw [e], by rw [e]⟩
  · rw [record_of_down s c hk hp]
    exact ⟨if_pos hl, rfl⟩
  · simp only [record_of_down s c hk hp, State.modIntake, if_neg (Nat.not_lt.mpr hl)]

/-! ### The end of a step (R326) -/

/-- The entries of a step leave the port. -/
def Port.stepGone (n : Nat) (q : Port) : Port := { q with cons := q.cons.map fun c => if c.valid && c.step == n then {} else c }
/-- What is left of a step where its record is written: the tiles have let it go, no port and no cause of an abort is its any more, and its
number is free. -/
def State.stepLeft (s : State) (r : StepRec) (st : Status) : State :=
  let z := (s.stepTiles r).foldl (fun (s : State) p => s.modTile p Tile.stepGone) (s.stepCharged r st)
  { z with
    ports := z.ports.map (Port.stepGone r.num), aborts := z.aborts.filter fun a => a.step != r.num
    intake := { z.intake with steps := z.intake.steps.filter fun x => x.num != r.num } }

section
variable (s : State) (r : StepRec) (st : Status)

theorem stepCharged_eq : ∃ k l, s.stepCharged r st = { s with repair := k, lkh := l } := by
  unfold State.stepCharged
  split
  · obtain ⟨k, hk⟩ := tellUnrepeated_eq s r
    rw [hk]
    exact ⟨k, _, rfl⟩
  · exact ⟨s.repair, _, rfl⟩
theorem foldl_modTile_eq (f : Tile → Tile) (ps : List Pos) : ∃ k, ps.foldl (fun (s : State) p => s.modTile p f) s = { s with tiles := k } :=
  foldl_rel (R := fun s t : State => ∃ k, t = { s with tiles := k }) (fun s => ⟨s.tiles, rfl⟩)
    (fun {s t u} ⟨_, ht⟩ ⟨k, hu⟩ => ⟨k, by rw [hu, ht]⟩) (fun s p => ⟨_, rfl⟩) ps s
theorem stepLeft_eq : ∃ t k l, s.stepLeft r st = { s with
    tiles := t, repair := k, lkh := l, ports := s.ports.map (Port.stepGone r.num), aborts := s.aborts.filter fun a => a.step != r.num
    intake := { s.intake with steps := s.intake.steps.filter fun x => x.num != r.num } } := by
  obtain ⟨k, l, hc⟩ := stepCharged_eq s r st
  obtain ⟨t, ht⟩ := foldl_modTile_eq (s.stepCharged r st) Tile.stepGone (s.stepTiles r)
  refine ⟨t, k, l, ?_⟩
  unfold State.stepLeft
  rw [ht, hc]

theorem endStep_eq : s.endStep r st = (s.stepLeft r st).record { words := r.words st s.now } := by
  have hp : (if st = .done then s.tellUnrepeated r else s).stepTiles r = s.stepTiles r := by
    split
    · obtain ⟨k, hk⟩ := tellUnrepeated_eq s r
      rw [hk]
      rfl
    · rfl
  have hn : (s.stepLeft r st).now = s.now := by
    obtain ⟨t, k, l, h⟩ := stepLeft_eq s r st
    rw [h]
  rw [← hn]
  unfold State.endStep
  dsimp only
  rw [hp]
  rfl

theorem endStep_steps : (s.endStep r st).intake.steps = s.intake.steps.filter fun x => x.num != r.num := by
  obtain ⟨t, k, l, h⟩ := stepLeft_eq s r st
  rw [endStep_eq, record_steps, h]
theorem endStep_cons (x : PortN) (e : Fin 256) : ((s.endStep r st).port x).cons[e] =
    if (s.port x).cons[e].valid && (s.port x).cons[e].step == r.num then {} else (s.port x).cons[e] := by
  obtain ⟨t, k, l, h⟩ := stepLeft_eq s r st
  rw [endStep_eq, record_port, h]
  simp [State.port, Port.stepGone]
/-- The number of the step is free among the steps. -/
theorem endStep_stepNum : (s.endStep r st).stepNum r.num = none := by
  rw [State.stepNum, endStep_steps, List.find?_eq_none]
  intro x hx
  simpa using (List.mem_filter.mp hx).2
theorem endStep_queue {p : Pos} (h : p ∈ s.stepTiles r) : ((s.endStep r st).core p).ctl.queue = [] := by
  rw [State.core_eq, State.tile, endStep_tiles]
  refine foldl_of_mem (f := fun (s : State) p => s.modTile p Tile.stepGone) (P := fun _ => True) (Q := fun t : State => (t.core p).ctl.queue = []) h
    (fun t _ => ?_) (fun _ _ _ _ => trivial) (fun t q _ ht => ?_) trivial
  · rw [State.core_modTile]
    rfl
  · by_cases hq : p = q
    · rw [hq, State.core_modTile]
      rfl
    · rwa [State.core_eq, State.tile_modTile_ne _ _ _ _ hq]

end

section
variable {s : State} {n t : Nat} {r : StepRec} (hr : (s.at_ t).stepNum n = some r)
include hr

theorem exec_stepCompletion_of_moving (hd : (s.at_ t).stepDrained r = false) : exec (.stepCompletion n t) s = .next (s.at_ t) := by
  change execStepCompletion n t s = _
  simp [execStepCompletion, hr, hd]
theorem exec_stepCompletion_of_final (hd : (s.at_ t).stepDrained r = true) (he : r.ending = none) (hp : r.phase = .running)
    (hf : ∀ l ∈ r.man.lts, l ∈ r.finals) : exec (.stepCompletion n t) s = .next ((s.at_ t).endStep r .done) := by
  change execStepCompletion n t s = _
  have hall : r.man.lts.all (fun l => r.finals.contains l) = true := by simpa using hf
  simp only [execStepCompletion, hr, hd, he, hp, hall]
  rfl
theorem exec_stepCompletion_of_ending {st : Status} (hd : (s.at_ t).stepDrained r = true) (he : r.ending = some st)
    (h : r.phase = .admitted ∨ r.phase = .repairing ∧ r.recheck = false ∧ r.retiring = none ∨ r.noReplay = true ∧ r.phase ≠ .running) :
    exec (.stepCompletion n t) s = .next ((s.at_ t).endStep r st) := by
  change execStepCompletion n t s = _
  simp only [execStepCompletion, hr, hd, he]
  simp only [Bool.not_true, Bool.false_eq_true, if_false]
  refine congrArg _ (if_pos ?_)
  simpa [or_assoc, and_assoc] using h

end

theorem stepEnds_hold : Rules.StepEnds := by
  intro n t r s u hr
  have hn : r.num = n := num_of_stepNum hr
  refine ⟨exec_stepCompletion_of_moving hr, fun hd => ⟨exec_stepCompletion_of_final hr hd, fun st => exec_stepCompletion_of_ending hr hd⟩,
    fun st => ⟨⟨u.stepLeft r st, endStep_eq u r st, ?_⟩, ?_, fun x hx hxn => ?_,
      fun p hp => ⟨(endStep_tagged st hp).1, endStep_queue u r st hp⟩,
      fun x e hv he => ?_, fun x e h => ?_⟩⟩
  · obtain ⟨k, l, m, h⟩ := stepLeft_eq u r st
    rw [h]
    exact ⟨rfl, rfl, rfl⟩
  · rw [← hn, endStep_stepNum]
  · rw [endStep_steps, List.mem_filter]
    exact ⟨hx, by simpa [hn] using hxn⟩
  · rw [endStep_cons, if_pos (by rw [hv, he, hn, Bool.true_and, beq_self_eq_true])]
  · rw [endStep_cons, if_neg (by simpa [hn, ← Bool.not_eq_true, imp_iff_not_or] using h)]

/-- Settles O39: the end of a step, with its record, and where a record goes. -/
theorem stepEnds : Obligations.StepEnds := ⟨stepEnds_hold, completionRecords_hold⟩

end Sys2Proof.Machine
end

section
/-! PROOFS. Manifests (O37): what the decision on the front manifest leaves by its KIND, the rows of Table 11.10 as one chain, and the step that is
taken up. -/

namespace Sys2Proof.Machine

open Sys2Proof

/-! ### The decision on the front manifest (R318, R321 to R323) -/

/-- What the front manifest comes to by a verdict on it. -/
def State.answerFront (s : State) (seq : BitVec 32) (m : Manifest) (taken : State) : Verdict → State
  | .refuse st reason => s.refuseFront seq st reason
  | .hold => s.holdFront seq m.admitWait
  | .takes => taken
/-- The verdict on a LOAD or CHART manifest: row 1, its image, rows 2 to 4. -/
def State.fileVerdict (s : State) (m : Manifest) : Verdict :=
  if m.lts.any s.ltAbsent then .refuse .illegalDescriptor 0
  else match m.image with
    | some (o, len) => (match s.hostBad o.toNat len with
      | some st => .refuse st 0
      | none => if (parseImage (s.hostRead o.toNat len)).isNone then .refuse .illegalDescriptor 0 else s.common m)
    | none => s.common m
/-- A LOAD or CHART manifest enters the queue of its KIND. -/
def State.filed (s : State) (k : Nat) (m : Manifest) : State :=
  if k = 2 then s.ringPass.modIntake fun i => { i with loads := i.loads ++ [{ man := m, tAdmit := s.now }] }
  else s.ringPass.modIntake fun i => { i with chartRuns := i.chartRuns ++ [{ man := m, tAdmit := s.now, next := 0, busy := false }] }

/-- The sequence number of a manifest. -/
def manifestSeq (bs : List Byte) : BitVec 32 := (wordOf bs 1).extractLsb' 0 32
/-- The KIND of a manifest. -/
def manifestKind (bs : List Byte) : Nat := fld (wordOf bs 0) 48 8

section
variable {s : State} {bs : List Byte} {n k : Nat} {m : Manifest}

/-- A manifest that cannot be read is completed by the command of KIND 1. -/
theorem decideFront_of_unread {o : BitVec 48} {len : Nat} {r : List (BitVec 48 × Nat)} {st : Status} (hw : s.intake.waiting = (o, len) :: r)
    (hb : s.hostBad o.toNat len = some st) : s.decideFront 1 = s.refuseFront 0 st 0 := by
  simp [State.decideFront, State.front, hw, hb]
theorem decideFront_of_unparsed (hf : s.front = some (bs, n)) (hk : manifestKind bs = k ∨ k = 1 ∧ manifestKind bs ≠ 2 ∧ manifestKind bs ≠ 3)
    (hp : parseManifest s bs n = none) : s.decideFront k = s.refuseFront (manifestSeq bs) .illegalDescriptor 0 := by
  have hc : (!(manifestKind bs == k || k == 1 && manifestKind bs != 2 && manifestKind bs != 3)) = false := by
    rcases hk with h | ⟨h, h2, h3⟩
    · simp [h]
    · simp [h, h2, h3]
  simp only [manifestKind] at hc
  simp only [State.decideFront, hf, hc, hp]
  rfl
theorem decideFront_of_step (hf : s.front = some (bs, n)) (hk : manifestKind bs = 1) (hp : parseManifest s bs n = some m) :
    s.decideFront 1 = s.answerFront (manifestSeq bs) m (s.admitStep m) (s.verdict m) := by
  simp only [manifestKind] at hk
  simp only [State.decideFront, hf, hk, hp, manifestSeq]
  cases s.verdict m <;> rfl
theorem decideFront_of_file (hf : s.front = some (bs, n)) (hk : manifestKind bs = k) (h1 : k ≠ 1) (hp : parseManifest s bs n = some m) :
    s.decideFront k = s.answerFront (manifestSeq bs) m (s.filed k m) (s.fileVerdict m) := by
  simp only [manifestKind] at hk
  simp only [State.decideFront, hf, hk, hp, beq_self_eq_true, Bool.true_or, Bool.not_true, Bool.false_eq_true, if_false, if_neg h1]
  rfl


theorem fileVerdict_of_absent (h : m.lts.any s.ltAbsent = true) : s.fileVerdict m = .refuse .illegalDescriptor 0 := if_pos h
theorem fileVerdict_of_unread {o : BitVec 48} {len : Nat} {st : Status} (h : m.lts.any s.ltAbsent = false) (hi : m.image = some (o, len))
    (hb : s.hostBad o.toNat len = some st) : s.fileVerdict m = .refuse st 0 := by
  simp [State.fileVerdict, h, hi, hb]
theorem fileVerdict_of_unparsed {o : BitVec 48} {len : Nat} (h : m.lts.any s.ltAbsent = false) (hi : m.image = some (o, len))
    (hb : s.hostBad o.toNat len = none) (hp : parseImage (s.hostRead o.toNat len) = none) : s.fileVerdict m = .refuse .illegalDescriptor 0 := by
  simp [State.fileVerdict, h, hi, hb, hp]
theorem fileVerdict_of_loaded (h : m.lts.any s.ltAbsent = false)
    (hl : ∀ o len, m.image = some (o, len) → s.hostBad o.toNat len = none ∧ (parseImage (s.hostRead o.toNat len)).isSome = true) :
    s.fileVerdict m = s.common m := by
  rcases hi : m.image with _ | ⟨o, len⟩
  · simp [State.fileVerdict, h, hi]
  · obtain ⟨hb, hp⟩ := hl o len hi
    simp [State.fileVerdict, h, hi, hb, Option.isSome_iff_ne_none.mp hp]

/-- A command that decides a front manifest of KIND 2 or 3 completes it, holds it or takes it into the queue of its KIND. -/
theorem file_decided {c : Instr} {v : State} (hx : exec c v = .next (s.decideFront k)) (h1 : k ≠ 1) (hf : s.front = some (bs, n))
    (hk : manifestKind bs = k) (hp : parseManifest s bs n = some m) :
    (m.lts.any s.ltAbsent = true → exec c v = .next (s.refuseFront (manifestSeq bs) .illegalDescriptor 0)) ∧
    (m.lts.any s.ltAbsent = false →
      (∀ o len st, m.image = some (o, len) → s.hostBad o.toNat len = some st → exec c v = .next (s.refuseFront (manifestSeq bs) st 0)) ∧
      (∀ o len, m.image = some (o, len) → s.hostBad o.toNat len = none → parseImage (s.hostRead o.toNat len) = none →
        exec c v = .next (s.refuseFront (manifestSeq bs) .illegalDescriptor 0)) ∧
      ((∀ o len, m.image = some (o, len) → s.hostBad o.toNat len = none ∧ (parseImage (s.hostRead o.toNat len)).isSome = true) →
        (∀ st reason, s.common m = .refuse st reason → exec c v = .next (s.refuseFront (manifestSeq bs) st reason)) ∧
        (s.common m = .hold → exec c v = .next (s.holdFront (manifestSeq bs) m.admitWait)) ∧
        (s.common m = .takes → exec c v = .next (s.filed k m)))) := by
  rw [hx, decideFront_of_file hf hk h1 hp]
  refine ⟨fun h => by rw [fileVerdict_of_absent h]; rfl, fun h => ⟨fun o len st hi hb => by rw [fileVerdict_of_unread h hi hb]; rfl,
    fun o len hi hb hn => by rw [fileVerdict_of_unparsed h hi hb hn]; rfl, fun hl => ?_⟩⟩
  rw [fileVerdict_of_loaded h hl]
  exact ⟨fun st reason hc => by rw [hc]; rfl, fun hc => by rw [hc]; rfl, fun hc => by rw [hc]; rfl⟩
/-- A command that decides a front manifest of KIND 1 completes it, holds it or admits its step. -/
theorem step_decided {c : Instr} {v : State} (hx : exec c v = .next (s.decideFront 1)) (hf : s.front = some (bs, n)) (hk : manifestKind bs = 1)
    (hp : parseManifest s bs n = some m) :
    (∀ st reason, s.verdict m = .refuse st reason → exec c v = .next (s.refuseFront (manifestSeq bs) st reason)) ∧
    (s.verdict m = .hold → exec c v = .next (s.holdFront (manifestSeq bs) m.admitWait)) ∧
    (s.verdict m = .takes → exec c v = .next (s.admitStep m)) := by
  rw [hx, decideFront_of_step hf hk hp]
  exact ⟨fun st reason h => by rw [h]; rfl, fun h => by rw [h]; rfl, fun h => by rw [h]; rfl⟩

end

/-! ### The commands (R317, R318, R323, R328) -/

section
variable {s : State} {t : Nat}

theorem takeUp_of_ready (hh : s.intake.heldSince = none) (hs : s.lkh.pstate ≠ .starting) (ho : s.lkh.pstate ≠ .off) (k : Nat) :
    s.takeUp k t = (s.at_ t).decideFront k := by
  simp [State.takeUp, hh, hs, ho]

/-- The held manifest is decided by the command of its KIND. -/
theorem exec_manifestHoldEnd {a n k : Nat} {bs : List Byte} (ha : s.intake.heldSince = some a) (hf : (s.at_ t).front = some (bs, n))
    (hk : manifestKind bs = k) (h : k = 1 ∨ k = 2 ∨ k = 3) : exec (.manifestHoldEnd t) s = .next ((s.at_ t).decideFront k) := by
  change execManifestHoldEnd t s = _
  have ha' : (s.at_ t).intake.heldSince = some a := ha
  simp only [manifestKind] at hk
  simp only [execManifestHoldEnd, ha', hf, hk]
  rcases h with rfl | rfl | rfl <;> rfl

theorem exec_admissionWaitTimeout {a n : Nat} {bs : List Byte} {m : Manifest} (ha : s.intake.heldSince = some a) (hf : (s.at_ t).front = some (bs, n))
    (hp : parseManifest (s.at_ t) bs n = some m) : exec (.admissionWaitTimeout t) s = .next (
      if a + m.admitWait * 1000 < (s.at_ t).now then (s.at_ t).refuseFront m.seq .admissionTimeout 0 else s.at_ t) := by
  change execAdmissionWaitTimeout t s = _
  have ha' : (s.at_ t).intake.heldSince = some a := ha
  simp only [execAdmissionWaitTimeout, ha', hf, hp]

end

theorem manifests_hold : Rules.Manifests := by
  intro t n bs m w s u h seq kind loaded load chart decided
  refine ⟨fun hk hp => ?_, fun hk => ?_, fun hp => ?_, fun hp => ?_, fun hh hs ho => ?_, fun a ha hf hp => ?_⟩
  · exact congrArg Host.Outcome.next (if_pos (by simpa [h, u] using ⟨hk, hp⟩))
  · exact congrArg Host.Outcome.next (if_neg (by simpa [h, u, imp_iff_not_or] using hk))
  · exact congrArg Host.Outcome.next (if_pos hp)
  · exact congrArg Host.Outcome.next (if_neg (Bool.eq_false_iff.mp hp))
  · have hx : ∀ k, s.takeUp k t = u.decideFront k := takeUp_of_ready hh hs ho
    have hstep : exec (.manifestStep t) s = .next (u.decideFront 1) := congrArg Host.Outcome.next (hx 1)
    have hload : exec (.manifestLoad t) s = .next (u.decideFront 2) := congrArg Host.Outcome.next (hx 2)
    have hchart : exec (.manifestChart t) s = .next (u.decideFront 3) := congrArg Host.Outcome.next (hx 3)
    refine ⟨fun o len r st hw hb => hstep.trans (congrArg _ (decideFront_of_unread hw hb)),
      fun hf => ⟨fun h2 h3 hp => ?_, fun hk hp => ?_, fun hk hp => ?_,
        fun hk hp => step_decided hstep hf hk hp, fun hk hp => file_decided hload (by decide) hf hk hp,
        fun hk hp => file_decided hchart (by decide) hf hk hp⟩⟩
    · rw [hstep, decideFront_of_unparsed hf (.inr ⟨rfl, h2, h3⟩) hp]
      rfl
    · rw [hload, decideFront_of_unparsed hf (.inl hk) hp]
      rfl
    · rw [hchart, decideFront_of_unparsed hf (.inl hk) hp]
      rfl
  · have hx := fun k (hk : kind = k) (h : k = 1 ∨ k = 2 ∨ k = 3) => exec_manifestHoldEnd ha hf hk h
    have ht := exec_admissionWaitTimeout ha hf hp
    exact ⟨fun hk => step_decided (hx 1 hk (by decide)) hf hk hp, fun hk hp => file_decided (hx 2 hk (by decide)) (by decide) hf hk hp,
      fun hk hp => file_decided (hx 3 hk (by decide)) (by decide) hf hk hp, fun hlt => ht.trans (congrArg _ (if_pos hlt)),
      fun hle => ht.trans (congrArg _ (if_neg (Nat.not_lt.mpr hle)))⟩

/-! ### The rows of Table 11.10 -/

section
variable (s : State) (m : Manifest)

/-- An LT has no die. -/
def State.lacksDie : Bool := m.lts.any fun l => (s.posOf l).isNone
/-- A narrow core that the manifest or the panel does not admit. -/
def State.narrowCore : Bool := m.ltEnts.any fun e => match s.posOf e.lt with
  | some p => (s.core p).desc.narrow && !(e.narrowOk && s.lkh.narrow.contains p)
  | none => false
/-- A die adds more cycles to its paths than its image has slack for. -/
def State.slackShort : Bool := m.lts.any fun l => match s.posOf l with
  | some p => decide ((s.core p).img.slack.toNat < s.ltpos[l].added.toNat)
  | none => false
/-- A TIMED pound, and an LT in a bank that is TIMING_UNSAFE. -/
def State.timedLoose : Bool := (m.poundEnts.any fun p => p.timed) && m.lts.any fun l => s.bankUns (ltBank l)
/-- A consignment of the manifest names a port that is not UP. -/
def State.portDown : Bool := m.consign.any fun c => c.2.2.valid && s.ports[c.1].state != .up
/-- No step number is free. -/
def State.numsUsed : Bool := (List.range' 1 4095).all fun n => !s.numFree n

/-- Rows 10 to 13: power, ports and step numbers. -/
def State.powerRows : Verdict :=
  if s.powerOver m then .refuse .refusedCapacity 2
  else if s.portDown m then .refuse .refusedCapacity 8
  else if s.numsUsed then .refuse .refusedCapacity 9
  else .takes
/-- Rows 5 to 13, behind the ones that every KIND shares. -/
def State.capacityRows : Verdict :=
  if s.lacksDie m then .refuse .refusedCapacity 7
  else if s.narrowCore m then .refuse .refusedCapacity 6
  else if s.slackShort m || s.timedLoose m then .refuse .timingUnsafe_ 0
  else if s.boardShort m then .refuse .refusedCapacity 1
  else (s.hbmRefused m).elim (s.powerRows m) (.refuse .refusedCapacity)

theorem slackShort_eq : s.slackShort m = m.lts.any fun l => match s.coreOf l with
    | some c => decide (s.ltpos[l].added.toNat > c.img.slack.toNat)
    | none => false := by
  unfold State.slackShort State.coreOf
  congr 1
  funext l
  cases s.posOf l <;> rfl

/-- The verdict of the rows behind, where the rows before let the manifest pass. -/
def Verdict.andThen : Verdict → Verdict → Verdict
  | .takes, v => v
  | v, _ => v

theorem verdict_of_legal (hi : s.stepIllegal m = false) : s.verdict m = (s.common m).andThen (s.capacityRows m) := by
  rcases hc : s.common m with ⟨st, reason⟩ | _ | _
  · simp [State.verdict, hi, hc, Verdict.andThen]
  · simp [State.verdict, hi, hc, Verdict.andThen]
  · simp only [State.verdict, hi, hc, Verdict.andThen, State.capacityRows, slackShort_eq]
    cases s.hbmRefused m <;> rfl

theorem verdict_rows : s.verdict m =
    if s.stepIllegal m then .refuse .illegalDescriptor 0
    else if s.lkh.mapUnverified then .refuse .mapUnverified 0
    else if s.lkh.pstate = .moored then .refuse .refusedCapacity 0x0A
    else if s.mustHold m then .hold
    else s.capacityRows m := by
  by_cases hi : s.stepIllegal m = true
  · simp [State.verdict, hi]
  · rw [if_neg hi, verdict_of_legal s m (Bool.eq_false_iff.mpr hi), State.common]
    split_ifs <;> rfl

theorem numsUsed_iff : s.numsUsed = false ↔ ∃ n, 1 ≤ n ∧ n ≤ 4095 ∧ s.numFree n = true := by
  simp [State.numsUsed, List.mem_range'_1, Nat.lt_succ_iff, and_assoc]

end

theorem admissionOrder_holds : Rules.AdmissionOrder := by
  intro m s noDie narrow slack loose ports nums
  rw [verdict_rows]
  refine ⟨fun h => if_pos h, fun h => ?_⟩
  rw [if_neg (Bool.eq_false_iff.mp h)]
  refine ⟨fun h => if_pos h, fun h => ?_⟩
  rw [if_neg (Bool.eq_false_iff.mp h)]
  refine ⟨fun h => if_pos h, fun h => ?_⟩
  rw [if_neg h]
  refine ⟨fun h => if_pos h, fun h => ?_⟩
  rw [if_neg (Bool.eq_false_iff.mp h), State.capacityRows]
  refine ⟨fun h => if_pos h, fun (h : s.lacksDie m = false) => ?_⟩
  rw [if_neg (Bool.eq_false_iff.mp h)]
  refine ⟨fun h => if_pos h, fun (h : s.narrowCore m = false) => ?_⟩
  rw [if_neg (Bool.eq_false_iff.mp h)]
  refine ⟨fun h => if_pos ((Bool.or_eq_true _ _).mpr h), fun (h : s.slackShort m = false) (h' : s.timedLoose m = false) => ?_⟩
  rw [if_neg (Bool.eq_false_iff.mp (Bool.or_eq_false_iff.mpr ⟨h, h'⟩))]
  refine ⟨fun h => if_pos h, fun h => ?_⟩
  rw [if_neg (Bool.eq_false_iff.mp h)]
  refine ⟨fun n h => by rw [h]; rfl, fun h => ?_⟩
  rw [h, Option.elim_none, State.powerRows]
  refine ⟨fun h => if_pos h, fun h => ?_⟩
  rw [if_neg (Bool.eq_false_iff.mp h)]
  refine ⟨fun h => if_pos h, fun (h : s.portDown m = false) => ?_⟩
  rw [if_neg (Bool.eq_false_iff.mp h)]
  exact ⟨fun h => if_neg (Bool.eq_false_iff.mp ((numsUsed_iff s).mpr h)), fun h => if_pos (Bool.of_not_eq_false (mt (numsUsed_iff s).mp h))⟩

/-! ### The step that is taken up (R325, R326, R423) -/

/-- The number of the next step is free, where some number is. -/
theorem newNum_free {s : State} (h : ∃ n, 1 ≤ n ∧ n ≤ 4095 ∧ s.numFree n = true) :
    1 ≤ ((List.range' 1 4095).find? s.numFree).getD 1 ∧ ((List.range' 1 4095).find? s.numFree).getD 1 ≤ 4095 ∧
      s.numFree (((List.range' 1 4095).find? s.numFree).getD 1) = true := by
  obtain ⟨n, h1, h2, hn⟩ := h
  have hsome : ((List.range' 1 4095).find? s.numFree).isSome = true := List.find?_isSome.mpr ⟨n, by simp; omega, hn⟩
  obtain ⟨k, hk⟩ := Option.isSome_iff_exists.mp hsome
  have hmem := List.mem_range'_1.mp (List.mem_of_find?_eq_some hk)
  rw [hk, Option.getD_some]
  exact ⟨hmem.1, by omega, List.find?_some hk⟩

theorem stepTaken_holds : Rules.StepTaken := by
  intro m s hfree
  obtain ⟨h1, h2, hnum⟩ := newNum_free hfree
  obtain ⟨mem, hpass⟩ := ringPass_eq s
  have hnone : s.stepNum (((List.range' 1 4095).find? s.numFree).getD 1) = none := by
    simp only [State.numFree, Bool.and_eq_true, Option.isNone_iff_eq_none] at hnum
    exact hnum.1
  unfold State.admitStep
  rw [hpass]
  refine ⟨_, rfl, h1, h2, hnum, hnone, rfl, rfl, rfl, rfl, rfl, fun l => ?_, rfl, rfl, rfl⟩
  simp [State.modIntake]

/-- Settles O37: the ring and what its manifests come to, the rows of Table 11.10 in their order, and the step that is taken up. -/
theorem manifests : Obligations.Manifests := ⟨manifests_hold, admissionOrder_holds, stepTaken_holds⟩

end Sys2Proof.Machine
end

section
/-! PROOFS. Ports of the companion link (O34): a port that comes up or loses its partner, loop-backs, and the TIME message. -/

namespace Sys2Proof.Machine

open Sys2Proof

/-! ### Reading a port and the rings (R316, R319) -/

section
variable (s : State) (k j : KPort)

@[simp] theorem kport_modKport (f : KclPort → KclPort) : (s.modKport k f).kport k = f (s.kport k) := vmod_get_same ..
theorem kport_modKport_ne (f : KclPort → KclPort) (h : j ≠ k) : (s.modKport k f).kport j = s.kport j := vmod_get_ne _ _ h
theorem kport_at (t : Nat) : (s.at_ t).kport k = s.kport k := rfl

theorem ringRead_eq : ∃ w n a c, s.ringRead = { s with intake := { s.intake with waiting := w, mSeen := n, seenAt := a, cache := c } } := by
  unfold State.ringRead
  dsimp only
  split_ifs
  · exact ⟨_, _, _, _, rfl⟩
  all_goals exact ⟨_, _, _, _, rfl⟩
/-- Records written one after the other change companion memory, their counts and the messages to the runtime alone. -/
theorem foldl_putRecord_eq (l : List CompRec) : ∃ h w n o, l.foldl (fun s c => s.putRecord c) s = { s with
    host := h, intake := { s.intake with written := w, cProd := n, out := o } } :=
  foldl_rel (R := fun s t : State => ∃ h w n o, t = { s with host := h, intake := { s.intake with written := w, cProd := n, out := o } })
    (fun s => ⟨s.host, s.intake.written, s.intake.cProd, s.intake.out, rfl⟩)
    (fun {s t u} ⟨_, _, _, _, ht⟩ ⟨h, w, n, o, hu⟩ => ⟨h, w, n, o, by rw [hu, ht]⟩)
    (fun s c => by
      obtain ⟨h, o, e⟩ := putRecord_eq s c
      exact ⟨h, _, _, o, e⟩) l s

end

/-! ### States of a port (R306, R308, R319) -/

/-- A port that comes up with n lanes at generation g. -/
def KclPort.raised (g n : Nat) (q : KclPort) : KclPort := { q with state := 3, gen := BitVec.ofNat 2 g, lanes := BitVec.ofNat 5 (min n 16) }
/-- The port is UP, and the records kept for the runtime have been written. -/
def State.kclRaised (s : State) (k : KPort) (g n : Nat) : State :=
  let v := s.modKport k (KclPort.raised g n)
  v.intake.kept.foldl (fun s c => s.putRecord c) (v.modIntake fun i => { i with kept := [] })
/-- The runtime on the companion link learns how far the manifest ring is read, and the ring is read on. -/
def State.ringCaughtUp (s : State) : State := if s.intake.pcieRuntime then s else s.ringLine1.ringRead

section
variable (s : State) (k : KPort) (g n : Nat)

theorem ringCaughtUp_eq : ∃ h w n a c, s.ringCaughtUp = { s with
    host := h, intake := { s.intake with waiting := w, mSeen := n, seenAt := a, cache := c } } := by
  unfold State.ringCaughtUp
  split_ifs
  · exact ⟨s.host, s.intake.waiting, s.intake.mSeen, s.intake.seenAt, s.intake.cache, rfl⟩
  · obtain ⟨h, hl⟩ := ringLine1_eq s
    obtain ⟨w, n, a, c, hr⟩ := ringRead_eq s.ringLine1
    exact ⟨h, w, n, a, c, by rw [hr, hl]⟩
theorem kclRaised_eq : ∃ h w m o, s.kclRaised k g n = { s with
    kports := vmod s.kports k (KclPort.raised g n), host := h, intake := { s.intake with kept := [], written := w, cProd := m, out := o } } :=
  foldl_putRecord_eq ((s.modKport k (KclPort.raised g n)).modIntake fun i => { i with kept := [] }) s.intake.kept
/-- What the port that has come up, its records and the ring's catching up leave. -/
theorem kclRaised_ringCaughtUp : (s.kclRaised k g n).ringCaughtUp.kport k = (s.kport k).raised g n ∧
    (s.kclRaised k g n).ringCaughtUp.intake.kept = [] ∧ (s.kclRaised k g n).ringCaughtUp.tiles = s.tiles := by
  obtain ⟨h, w, m, o, e⟩ := kclRaised_eq s k g n
  obtain ⟨h', w', m', a, c, e'⟩ := ringCaughtUp_eq (s.kclRaised k g n)
  rw [e', e]
  exact ⟨vmod_get_same .., rfl, rfl⟩

end

section
variable {s : State} {k : KPort} {t : Nat}

theorem exec_kclPortUp {g : Fin 4} {n : Nat} (he : (s.kport k).en = true) (h0 : (s.kport k).state ≠ 0) (h3 : (s.kport k).state ≠ 3)
    (h4 : (s.kport k).state ≠ 4) (hl : s.power.lost.contains .kcl = false) (hg : 0 < min g.val (s.kport k).genMax.toNat) (hn : 4 ≤ n) :
    exec (.kclPortUp k g n t) s = .next ((s.at_ t).kclRaised k (min g.val (s.kport k).genMax.toNat) n).ringCaughtUp := by
  change execKclPortUp k g n t s = _
  simp only [execKclPortUp, kport_at, State.at_power, he, h0, h3, h4, hl, hg.ne', Nat.not_lt.mpr hn]
  rfl

theorem exec_kclLoss_kept {n : Nat} (h3 : (s.kport k).state = 3) (hn : 4 ≤ n) :
    exec (.kclLoss k n t) s = .next ((s.at_ t).modKport k fun q => { q with lanes := BitVec.ofNat 5 (min n q.lanes.toNat) }) := by
  change execKclLoss k n t s = _
  simp [execKclLoss, kport_at, h3, Nat.not_lt.mpr hn]
theorem exec_kclLoss_idle {n : Nat} (h3 : (s.kport k).state = 3) (hn : n < 4) :
    exec (.kclLoss k n t) s = .next (((s.at_ t).kclLeave k 1).modKport k fun q => { q with los := true }) := by
  change execKclLoss k n t s = _
  simp [execKclLoss, kport_at, h3, hn]

/-! ### Loop-backs (R307) -/

theorem kclLoop_of_used {v : BitVec 3} {ok : Bool} (hv : v ≠ 0) (h : s.intake.steps ≠ [] ∨ s.chart.run ≠ none) : s.kclLoop k v ok = s := by
  have hc : (!s.intake.steps.isEmpty || s.chart.run.isSome || !(s.kport k).en) = true := by
    rcases h with h | h
    · simp [h]
    · simp [Option.isSome_iff_ne_none.mpr h]
  unfold State.kclLoop
  dsimp only
  rw [if_neg hv, if_pos hc, ite_self]
theorem kclLoop_of_free {v : BitVec 3} {ok : Bool} (hv : v.toNat ≤ 4) (h0 : v ≠ 0) (hs : s.intake.steps = []) (hr : s.chart.run = none)
    (he : (s.kport k).en = true) : s.kclLoop k v ok =
      if v.toNat ≥ 3 && !ok then s.modKport k fun q => { q with loop_ := 0, loopRefused := true }
      else { ((s.kclLeave k 4).modKport k fun q => { q with loop_ := v }) with
        lkh := { ((s.kclLeave k 4).modKport k fun q => { q with loop_ := v }).lkh with refBroken := true } } := by
  simp only [State.kclLoop, Nat.not_lt.mpr hv, h0, hs, hr, he]
  rfl

end

/-! ### TIME (11.3.2) and the pattern of a loop-back -/

/-- What TIME does at one port. -/
def State.timeTurn (s : State) (k : KPort) : State :=
  if (s.kport k).state = 3 then s.tell (.time k s.now) else if (s.kport k).state = 4 then s.patternErrors k else s

section
variable (s : State) (k j : KPort)

theorem exec_kclTimeSend (t : Nat) : exec (.kclTimeSend t) s = .next ((List.finRange 2).foldl State.timeTurn (s.at_ t)) := rfl

theorem timeTurn_now : (s.timeTurn k).now = s.now := by
  unfold State.timeTurn
  split_ifs <;> rfl
theorem timeTurn_out : (s.timeTurn k).intake.out = s.intake.out ++ if (s.kport k).state = 3 then [.time k s.now] else [] := by
  unfold State.timeTurn
  split_ifs
  · rfl
  · exact (List.append_nil _).symm
  · exact (List.append_nil _).symm
/-- A port changes in its own turn alone, where it is in loop-back, and then in its count of pattern errors. -/
theorem timeTurn_kport : ∃ n, (s.timeTurn k).kport j = { s.kport j with pattern := n } ∧
    ((s.kport j).state ≠ 4 → n = (s.kport j).pattern) := by
  unfold State.timeTurn
  split_ifs with h3 h4
  · exact ⟨_, rfl, fun _ => rfl⟩
  · by_cases h : j = k
    · subst h
      exact ⟨_, kport_modKport .., fun hj => absurd h4 hj⟩
    · exact ⟨_, kport_modKport_ne _ _ _ _ h, fun _ => rfl⟩
  · exact ⟨_, rfl, fun _ => rfl⟩

theorem foldl_timeTurn_out (l : List KPort) : ∀ s : State, (l.foldl State.timeTurn s).intake.out =
    s.intake.out ++ (l.filter fun k => (s.kport k).state = 3).map fun k => KclOut.time k s.now := by
  induction l with
  | nil => exact fun s => (List.append_nil _).symm
  | cons k l ih =>
    intro s
    have hst : ∀ j, ((s.timeTurn k).kport j).state = (s.kport j).state := fun j => by
      obtain ⟨n, h, -⟩ := timeTurn_kport s k j
      rw [h]
    rw [List.foldl_cons, ih, timeTurn_out, timeTurn_now]
    simp only [hst]
    rw [List.filter_cons]
    by_cases h : (s.kport k).state = 3
    · rw [if_pos h, if_pos (decide_eq_true h), List.append_assoc]
      rfl
    · rw [if_neg h, if_neg (mt of_decide_eq_true h), List.append_nil]
theorem foldl_timeTurn_kport (l : List KPort) : ∃ n, (l.foldl State.timeTurn s).kport k = { s.kport k with pattern := n } ∧
    ((s.kport k).state ≠ 4 → n = (s.kport k).pattern) := by
  refine List.foldlRecOn (motive := fun t : State => ∃ n, t.kport k = { s.kport k with pattern := n } ∧
    ((s.kport k).state ≠ 4 → n = (s.kport k).pattern)) l _ ⟨_, rfl, fun _ => rfl⟩ fun t ⟨n, ht, hn⟩ j _ => ?_
  obtain ⟨m, h, hm⟩ := timeTurn_kport t j k
  refine ⟨m, by rw [h, ht], fun h4 => (hm (by rwa [ht])).trans ?_⟩
  rw [ht]
  exact hn h4

end

theorem kclPorts_hold : Rules.KclPorts := by
  intro k t s q u
  refine ⟨fun g n he h0 h3 h4 hl hg hn => ⟨_, exec_kclPortUp he h0 h3 h4 hl hg hn, ?_⟩, fun n => exec_kclLoss_kept, fun n => exec_kclLoss_idle,
    fun v hv hs hr he => ?_, fun v ok hv h => congrArg Host.Outcome.next (kclLoop_of_used hv h), fun v hv hs hr he => ?_,
    ⟨_, exec_kclTimeSend s t, foldl_timeTurn_out _ _, ?_, ?_⟩⟩
  · obtain ⟨hport, hkept, htiles⟩ := kclRaised_ringCaughtUp u k (min g.val q.genMax.toNat) n
    have hg4 : min g.val q.genMax.toNat < 2 ^ 2 := by omega
    have hn16 : min n 16 < 2 ^ 5 := by omega
    rw [hport]
    exact ⟨rfl, Nat.mod_eq_of_lt hg4, Nat.mod_eq_of_lt hn16, hkept, htiles⟩
  · have h4 : v.toNat ≤ 4 ∧ v ≠ 0 := by rcases hv with rfl | rfl | rfl | rfl <;> decide
    refine congrArg Host.Outcome.next ((kclLoop_of_free h4.1 h4.2 hs hr he).trans ?_)
    simp
  · have h4 : v.toNat ≤ 4 ∧ v ≠ 0 ∧ 3 ≤ v.toNat := by rcases hv with rfl | rfl <;> decide
    refine congrArg Host.Outcome.next ((kclLoop_of_free h4.1 h4.2.1 hs hr he).trans (if_pos ?_))
    simpa using h4.2.2
  · obtain ⟨n, h, hn⟩ := foldl_timeTurn_kport u k (List.finRange 2)
    intro h4
    rw [h, hn h4]
    rfl
  · obtain ⟨n, h, -⟩ := foldl_timeTurn_kport u k (List.finRange 2)
    exact ⟨n, h⟩

end Sys2Proof.Machine
end

section
/-! PROOFS. Coherent accesses over the companion link (O34): what an access asks for, the answers, write-backs and snoops. -/

namespace Sys2Proof.Machine

open Sys2Proof

/-! ### An access of one line (R310, R311, R297) -/

/-- The request of an engine's access for the line at model address a, which stands at address x of a stack. -/
def lineRequest (s : State) (b : Packet) (a : Nat) (m : StackN) (x : Nat) (w : Option (List Byte)) : Packet :=
  { b with
    type := 9, vc := 2, dkind := 1, dest := BitVec.ofNat 8 (match s.homeSlice m x with | some q => q | none => rowEnd m).val
    addr := put64 m.val 36 5 ||| put64 (x / 64 * 64) 0 36, cls := .c2, base := BitVec.ofNat 64 a, write := w.isSome
    length := if w.isSome then 64 else 0, payload := w.getD [] }

section
variable {s : State} {b : Packet} {a : Nat} {w : Option (List Byte)}

/-- A read may go on, and a write unless the panel is Moored. -/
theorem not_mooredWrite (hw : w.isSome = false ∨ s.lkh.pstate ≠ .moored) : (w.isSome && s.lkh.pstate == .moored) = false := by
  rcases hw with h | h
  · simp [h]
  · simp [h]
theorem linePlan_of_wait (ht : s.translate a = .wait) (hw : w.isSome = false ∨ s.lkh.pstate ≠ .moored) : s.linePlan b a [(0, w)] = .waits := by
  simp [State.linePlan, not_mooredWrite hw, ht]
theorem linePlan_of_absent (ht : s.translate a = .absent) (hw : w.isSome = false ∨ s.lkh.pstate ≠ .moored) :
    s.linePlan b a [(0, w)] = .ends .pageNotPresent := by
  simp [State.linePlan, not_mooredWrite hw, ht]
theorem linePlan_of_at {m : StackN} {x : Nat} {e : Word} (ht : s.translate a = .at_ m x e)
    (hw : w.isSome = false ∨ s.lkh.pstate ≠ .moored ∧ bit e 4 = false) : s.linePlan b a [(0, w)] = .go [(0, lineRequest s b a m x w)] := by
  have hro : (w.isSome && entRo e) = false := by
    rcases hw with h | h
    · simp [h]
    · simp [entRo, h.2]
  simp only [State.linePlan, Nat.add_zero, not_mooredWrite (hw.imp_right And.left), ht, hro]
  rfl

end

section
variable {s : State} {k : KPort} {w : Waiter} {a : Nat} {d : Option (List Byte)}

theorem companionAsk_of_wait (ht : s.translate a = .wait) (hw : d.isSome = false ∨ s.lkh.pstate ≠ .moored) :
    s.companionAsk k w a d = s.queueWaiter w := by
  rw [State.companionAsk, linePlan_of_wait ht hw]
theorem companionAsk_of_absent (ht : s.translate a = .absent) (hw : d.isSome = false ∨ s.lkh.pstate ≠ .moored) :
    s.companionAsk k w a d = (s.unqueue w).tell (.ack k .pageNotPresent) := by
  rw [State.companionAsk, linePlan_of_absent ht hw]
theorem companionAsk_of_at {m : StackN} {x : Nat} {e : Word} (ht : s.translate a = .at_ m x e)
    (hw : d.isSome = false ∨ s.lkh.pstate ≠ .moored ∧ bit e 4 = false) :
    s.companionAsk k w a d = (s.unqueue w).errandStart none (.kcl w) [(0, lineRequest s k0Packet a m x d)] := by
  rw [State.companionAsk, linePlan_of_at ht hw]

end

/-- The data of an access of the companion: a line for a write, none for a read. -/
def askData (write : Bool) (data : BitVec 512) : Option (List Byte) := bif write then some (lineBytes data) else none
theorem askData_isSome (write : Bool) (data : BitVec 512) : (askData write data).isSome = write := by cases write <;> rfl

/-- A command whose access asks for a line: it waits, is refused, or sends one request. -/
theorem asks_of_ask {c : Instr} {s u : State} {k : KPort} {w : Waiter} {a : Nat} {write : Bool} {data : BitVec 512}
    (hx : exec c s = .next (u.companionAsk k w a (askData write data))) :
    (u.translate a = .wait → (write = false ∨ u.lkh.pstate ≠ .moored) → exec c s = .next (u.queueWaiter w)) ∧
    (u.translate a = .absent → (write = false ∨ u.lkh.pstate ≠ .moored) → exec c s = .next ((u.unqueue w).tell (.ack k .pageNotPresent))) ∧
    (∀ m b e, u.translate a = .at_ m b e → (write = false ∨ (u.lkh.pstate ≠ .moored ∧ bit e 4 = false)) →
      ∃ v q, exec c s = .next v ∧ v.net = u.net ++ [q] ∧ q.place = .canal 3 ∧ q.type = 9 ∧ q.vc = 2 ∧ q.cls = .c2 ∧ q.write = write ∧
        q.addr = put64 m.val 36 5 ||| put64 (b / 64 * 64) 0 36 ∧ (write = true → q.payload = natBytes data.toNat 64) ∧
        ∃ r ∈ v.errands, q.tag = .errand r.id 0 ∧ r.work = .kcl w ∧ r.left = 1 ∧ r.worst = .done ∧ r.got = []) := by
  have hd := askData_isSome write data
  refine ⟨fun ht hw => by rw [hx, companionAsk_of_wait ht (by rwa [hd])], fun ht hw => by rw [hx, companionAsk_of_absent ht (by rwa [hd])],
    fun m b e ht hw => ?_⟩
  have hv := companionAsk_of_at (k := k) (w := w) ht (by rwa [hd])
  let q : Packet := { lineRequest u k0Packet a m b (askData write data) with tag := .errand u.nextPkt 0, id := u.nextPkt }
  let r : Errand := { id := u.nextPkt, work := .kcl w, left := 1, worst := .done, got := [] }
  refine ⟨_, q, hx, ?_, rfl, rfl, rfl, rfl, hd, rfl, ?_, r, ?_, rfl, rfl, rfl, rfl, rfl⟩
  · rw [hv]
    rfl
  · rintro rfl
    rfl
  · rw [hv]
    exact List.mem_append_right _ (List.mem_singleton_self r)

/-! ### The port that serves an access (R310, R328) -/

section
variable {s : State} {k : KPort} {t : Nat} (h3 : (s.kport k).state = 3)
include h3

theorem kclServe_of_pcie (hp : s.intake.pcieRuntime = true) (f : State → State) : s.kclServe k t f = (s.at_ t).tell (.ack k .noRights) := by
  simp [State.kclServe, kport_at, h3, hp]
theorem kclServe_of_companion (hp : s.intake.pcieRuntime = false) (f : State → State) : s.kclServe k t f = f (s.at_ t) := by
  simp [State.kclServe, kport_at, h3, hp]

theorem exec_rdShared (hp : s.intake.pcieRuntime = false) (addr : BitVec 41) :
    exec (.rdShared k addr t) s = .next ((s.at_ t).companion (.rdShared k addr false)) :=
  congrArg Host.Outcome.next (kclServe_of_companion h3 hp _)
theorem exec_rdOwn (hp : s.intake.pcieRuntime = false) (addr : BitVec 41) :
    exec (.rdOwn k addr t) s = .next ((s.at_ t).companion (.rdShared k addr true)) :=
  congrArg Host.Outcome.next (kclServe_of_companion h3 hp _)
theorem exec_rdNc (hp : s.intake.pcieRuntime = false) (addr : BitVec 41) : exec (.rdNc k addr t) s =
    .next ((s.at_ t).companionAsk k (.rdNc k addr) (addr.toNat / 64 * 64) none) :=
  congrArg Host.Outcome.next (kclServe_of_companion h3 hp _)
theorem exec_wrNc (hp : s.intake.pcieRuntime = false) (addr : BitVec 41) (data : BitVec 512) : exec (.wrNc k addr data t) s =
    .next ((s.at_ t).companionAsk k (.wrNc k addr data) (addr.toNat / 64 * 64) (some (lineBytes data))) :=
  congrArg Host.Outcome.next (kclServe_of_companion h3 hp _)

end

section
variable {s : State} {k : KPort} {addr : BitVec 41} {own : Bool}

/-- A window is written for the page of the address, and its lines are still recalled. -/
def State.cwinPends (s : State) (page : Nat) : Bool := s.intake.cwin.toList.any fun c => c.pend.isSome && c.has page

theorem companion_of_pending (h : s.cwinPends (addr.toNat / 64 * 64 / 65536) = true) :
    s.companion (.rdShared k addr own) = s.queueWaiter (.rdShared k addr own) := if_pos h
theorem companion_of_outside (h : s.cwinPends (addr.toNat / 64 * 64 / 65536) = false) (hc : s.inCwin (addr.toNat / 64 * 64 / 65536) = false) :
    s.companion (.rdShared k addr own) = (s.unqueue (.rdShared k addr own)).tell (.ack k .noRights) := by
  rw [State.cwinPends] at h
  simp only [State.companion, h, hc]
  rfl
theorem companion_of_inside (h : s.cwinPends (addr.toNat / 64 * 64 / 65536) = false) (hc : s.inCwin (addr.toNat / 64 * 64 / 65536) = true)
    (hd : s.held (addr.toNat / 64 * 64) ≠ none ∨ s.intake.dir.length + s.granting < 1048576) :
    s.companion (.rdShared k addr own) = s.companionAsk k (.rdShared k addr own) (addr.toNat / 64 * 64) none := by
  have hfull : ((s.held (addr.toNat / 64 * 64)).isNone && decide (s.intake.dir.length + s.granting ≥ 1048576)) = false := by
    rcases hd with hd | hd
    · simp [hd]
    · simp [hd]
  rw [State.cwinPends] at h
  simp only [State.companion, h, hc, hfull]
  rfl

end

/-! ### Answers (R310) -/

/-- The last answer of an access gives its one line to whoever asked. -/
theorem exec_lineData_of_last {s : State} {id n : Nat} {q : Packet} {d : Fin 5} {r : Errand} (hq : s.packet id = some q) (ht : q.type = 0xA)
    (hp : q.place = .canal d) (hg : q.tag = .errand n 0) (hb : q.badHeader = false) (hd : s.dieOff d = false) (hr : s.errand n = some r)
    (hl : r.left = 1) :
    exec (.lineData id) s = .next (((s.dropPacket id).dropErrand n).conclude (r.answer 0 q.status q.payload)) := by
  have hr' : (s.dropPacket id).errand n = some r := hr
  have he : (s.dropPacket id).errandAnswered n 0 q.status q.payload =
      ((s.dropPacket id).dropErrand n).conclude (r.answer 0 q.status q.payload) := by
    simp [State.errandAnswered, hr', Errand.answer, hl]
  change execLineData id s = _
  simp [execLineData, hq, ht, hp, hg, hb, hd, he]

section
variable {r : Errand} {st : Status} {bs : List Byte}

theorem answer_worst (hw : r.worst = .done) : (r.answer 0 st bs).worst = st := by simp [Errand.answer, hw]
theorem answer_piece (hg : r.got = []) : (r.answer 0 st bs).piece 0 = bs := by simp [Errand.answer, Errand.piece, hg]

/-- A read is answered with its line, or with the status that it met. -/
theorem conclude_of_read (s : State) {k : KPort} {addr : BitVec 41}
    (h : r.work = .kcl (.rdNc k addr) ∨ ∃ own, r.work = .kcl (.rdShared k addr own))
    (hw : r.worst = .done) (hg : r.got = []) : s.conclude (r.answer 0 st bs) = s.answerLine k addr st bs := by
  have hwork : (r.answer 0 st bs).work = r.work := rfl
  have hc : s.conclude (r.answer 0 st bs) = s.answerLine k addr (r.answer 0 st bs).worst ((r.answer 0 st bs).piece 0) := by
    rcases h with h | ⟨own, h⟩ <;> simp [State.conclude, State.kclWork, hwork, h]
  rw [hc, answer_worst hw, answer_piece hg]
theorem conclude_of_write (s : State) {k : KPort} {addr : BitVec 41} {data : BitVec 512} (h : r.work = .kcl (.wrNc k addr data))
    (hw : r.worst = .done) : s.conclude (r.answer 0 st bs) = s.tell (.ack k st) := by
  have hwork : (r.answer 0 st bs).work = r.work := rfl
  have hc : s.conclude (r.answer 0 st bs) = s.tell (.ack k (r.answer 0 st bs).worst) := by
    simp [State.conclude, State.kclWork, hwork, h]
  rw [hc, answer_worst hw]
theorem answerLine_out (s : State) (k : KPort) (addr : BitVec 41) :
    (s.answerLine k addr st bs).intake.out = s.intake.out ++ [if st = .done then .data k (addr.zeroExtend 64) (lineBits bs) else .ack k st] := by
  unfold State.answerLine
  split_ifs <;> rfl

end

/-! ### Write-backs and snoops (R310, R311, R313) -/

section
variable {s : State} {k : KPort} {addr : BitVec 41} {t : Nat}

/-- A write-back over a port that serves it, by whether the companion holds the line exclusively. -/
theorem exec_wb_refused (h3 : (s.kport k).state = 3) (hp : s.intake.pcieRuntime = false) (data : BitVec 512)
    (h : s.lkh.pstate = .moored ∨ s.held addr.toNat ≠ some true) :
    exec (.wb k addr data t) s = .next ((s.at_ t).tell (.ack k .noRights)) := by
  refine congrArg Host.Outcome.next ((kclServe_of_companion h3 hp _).trans (if_pos ?_))
  exact (Bool.or_eq_true _ _).mpr (h.imp decide_eq_true bne_iff_ne.mpr)
theorem exec_wb_held (h3 : (s.kport k).state = 3) (hp : s.intake.pcieRuntime = false) (data : BitVec 512) (hm : s.lkh.pstate ≠ .moored)
    (hh : s.held addr.toNat = some true) : exec (.wb k addr data t) s = .next (match (s.at_ t).giveBack (some k) addr data with
      | some v => v
      | none => ((s.at_ t).tell (.ack k .done)).released addr.toNat) := by
  refine congrArg Host.Outcome.next ((kclServe_of_companion h3 hp _).trans (if_neg ?_))
  have hh' : (s.at_ t).held addr.toNat = some true := hh
  simp [hm, hh']

theorem exec_snpRsp_data {data : BitVec 512} {w : State} (h : (s.intake.snooping.any fun e => e.1 == lineNo addr.toNat) = true)
    (hg : ((s.at_ t).dropSnoop addr.toNat).giveBack none addr data = some w) : exec (.snpRsp addr (some data) t) s = .next w := by
  refine congrArg Host.Outcome.next ((if_pos h).trans ?_)
  simp only [Option.bind_some, hg]
theorem exec_snpRsp_none (h : (s.intake.snooping.any fun e => e.1 == lineNo addr.toNat) = true) : exec (.snpRsp addr none t) s = .next (
    if ((s.at_ t).dropSnoop addr.toNat).backing_ addr.toNat then (s.at_ t).dropSnoop addr.toNat
    else ((s.at_ t).dropSnoop addr.toNat).released addr.toNat) :=
  congrArg Host.Outcome.next (if_pos h)

end

theorem coherence_holds : Rules.Coherence := by
  intro k addr data t s h3 u a pends no asks
  refine ⟨fun hp => ?_, fun hp => ⟨fun hpe => ⟨?_, ?_⟩, fun hpe hc => ⟨?_, ?_⟩, fun hpe hc hd => ⟨?_, ?_⟩, ?_, ?_,
    fun hm hh => ⟨?_, ?_⟩, ?_⟩,
    fun id n q d r hq ht hpl hg hb hd hr hl hw hgot => ⟨fun h => ?_, fun h => ?_⟩, fun line => ?_,
    fun hs => ⟨fun w hw => ?_, fun hb => ?_, fun hb => ?_⟩,
    fun hs => ?_⟩
  · have hno : ∀ f : State → State, s.kclServe k t f = u.tell (.ack k .noRights) := kclServe_of_pcie h3 hp
    exact ⟨congrArg _ (hno _), congrArg _ (hno _), congrArg _ (hno _), congrArg _ (hno _), congrArg _ (hno _)⟩
  · exact (exec_rdShared h3 hp addr).trans (congrArg _ (companion_of_pending (s := u) hpe))
  · exact (exec_rdOwn h3 hp addr).trans (congrArg _ (companion_of_pending (s := u) hpe))
  · exact (exec_rdShared h3 hp addr).trans (congrArg _ (companion_of_outside (s := u) hpe hc))
  · exact (exec_rdOwn h3 hp addr).trans (congrArg _ (companion_of_outside (s := u) hpe hc))
  · exact asks_of_ask (write := false) ((exec_rdShared h3 hp addr).trans (congrArg _ (companion_of_inside (s := u) hpe hc hd)))
  · exact asks_of_ask (write := false) ((exec_rdOwn h3 hp addr).trans (congrArg _ (companion_of_inside (s := u) hpe hc hd)))
  · exact asks_of_ask (write := false) (exec_rdNc h3 hp addr)
  · exact asks_of_ask (write := true) (exec_wrNc h3 hp addr data)
  · intro v hv
    rw [exec_wb_held h3 hp data hm hh, hv]
  · intro hv
    rw [exec_wb_held h3 hp data hm hh, hv]
  · exact exec_wb_refused h3 hp data
  · refine ⟨_, (exec_lineData_of_last hq ht hpl hg hb hd hr hl).trans (congrArg _ (conclude_of_read _ h hw hgot)), ?_⟩
    exact answerLine_out _ k addr
  · exact ⟨_, (exec_lineData_of_last hq ht hpl hg hb hd hr hl).trans (congrArg _ (conclude_of_write _ h hw)), rfl⟩
  · rfl
  · exact exec_snpRsp_data hs hw
  · exact (exec_snpRsp_none hs).trans (congrArg _ (if_neg (Bool.eq_false_iff.mp hb)))
  · exact (exec_snpRsp_none hs).trans (congrArg _ (if_pos hb))
  · exact congrArg Host.Outcome.next (if_pos hs)

/-- Settles O34: the ports of the companion link, and coherent accesses over them. -/
theorem companionLink : Obligations.CompanionLink := ⟨kclPorts_hold, coherence_holds⟩

end Sys2Proof.Machine
end

section
/-! PROOFS. Every command answers, keeps the queue and lets the trusted part of the security state only grow (O4, O3, O2, O1). -/

namespace Sys2Proof.Machine

open Sys2Proof

/-- The command answers a state with the queue and the trusted part of the security state as before. -/
def Keeps (s : State) (o : Out) : Prop := ∃ t, o = .next t ∧ t.pending = s.pending ∧ t.sec.trust = s.sec.trust

theorem ite_kept {c : Prop} [Decidable c] {a b s : State} (ha : a.pending = s.pending ∧ a.sec.trust = s.sec.trust)
    (hb : b.pending = s.pending ∧ b.sec.trust = s.sec.trust) :
    (if c then a else b).pending = s.pending ∧ (if c then a else b).sec.trust = s.sec.trust := by
  split
  · exact ha
  · exact hb

theorem gateTick_keeps (t : Nat) (s : State) : Keeps s (execGateTick t s) := by
  refine ⟨_, rfl, ?_⟩
  extract_lets n s1 s2 s3 s4 s5
  have h1 : s1.pending = s.pending ∧ s1.sec.trust = s.sec.trust := fold_kept (fun s p => State.tileTick_kept s _ t p) ⟨rfl, rfl⟩
  have h2 : s2.pending = s1.pending ∧ s2.sec.trust = s1.sec.trust := by simp [s2]
  have h3 : s3.pending = s2.pending ∧ s3.sec.trust = s2.sec.trust := fold_kept (fun s k => State.stepTick_kept s t k) ⟨rfl, rfl⟩
  have h4 : s4.pending = s3.pending ∧ s4.sec.trust = s3.sec.trust := fold_kept (fun s p => State.newPound_kept s p) ⟨rfl, rfl⟩
  have h5 : s5.pending = s4.pending ∧ s5.sec.trust = s4.sec.trust :=
    kept_trans (fold_kept (fun s p => State.corrReport_kept s p) ⟨rfl, rfl⟩) (State.slewed_kept _)
  have hall := kept_trans h1 (kept_trans h2 (kept_trans h3 (kept_trans h4 h5)))
  clear_value s5
  split
  · exact ⟨rfl, rfl⟩
  · exact hall

theorem crossingRecentre_keeps (p : Pos) (s : State) : Keeps s (execCrossingRecentre p s) :=
  ⟨_, rfl, State.inWindow_kept _ _ _ _ fun s => fold_kept (fun s d => by split <;> simp) (by simp)⟩

theorem droopStretch_keeps (p : Pos) (mv : Nat) (q : Fin 4) (s : State) : Keeps s (execDroopStretch p mv q s) := by
  refine ⟨_, rfl, ?_⟩
  dsimp only
  split
  · simp
  · refine fold_kept (fun s d => by simp) (fold_kept (fun s d => by split <;> simp) (by simp))

theorem restoreAll_kept (l : List RestoreEnt) (s : State) :
    (State.restoreAll l s).state.pending = s.pending ∧ (State.restoreAll l s).state.sec.trust = s.sec.trust := by
  induction l generalizing s with
  | nil => exact ⟨rfl, rfl⟩
  | cons e r ih =>
    unfold State.restoreAll
    have hk := State.restoreLines_kept (e.len.toNat / 64) e.src e.dst s
    split
    · next h => rw [h] at hk; exact kept_trans hk (ih _)
    · exact hk

theorem replayRestore_keeps (n t : Nat) (s : State) : Keeps s (execReplayRestore n t s) := by
  refine ⟨_, rfl, ?_⟩
  dsimp only
  split
  · simp
  next r _ =>
    split
    · simp
    · have hk := restoreAll_kept r.man.restore (s.at_ t)
      split
      all_goals (next h => rw [h] at hk; simpa [Copied.state] using hk)

theorem sliceMissFill_keeps (id : Nat) (s : State) : Keeps s (execSliceMissFill id s) := by
  refine ⟨_, rfl, ?_⟩
  dsimp only
  repeat' split
  all_goals first
    | (simp; done)
    | (next h => have := pair_kept (State.sliceRead_kept _ _ _ _) h; simpa using this)

theorem hbmErrorRecheck_keeps (n t : Nat) (s : State) : Keeps s (execHbmErrorRecheck n t s) := by
  refine ⟨_, rfl, ?_⟩
  dsimp only
  split
  · simp
  next r _ =>
    split
    · next p _ _ =>
      have hk := State.modelLine_kept (s.at_ t) ((s.at_ t).ut p).stg.eccAddr.toNat none
      split
      · next h => rw [h] at hk; simpa [Acc.state] using hk
      · next h =>
        rw [h] at hk
        have hk' := by simpa [Acc.state] using hk
        repeat' split
        all_goals simpa using hk'
    · simp
    · simp

theorem migPlan_kept {s s1 : State} {r : MigReq} {e w : Word} {n : Nat} (h : s.migPlan r e = .moves s1 w n) :
    s1.pending = s.pending ∧ s1.sec.trust = s.sec.trust := by
  unfold State.migPlan at h
  dsimp only at h
  repeat' split at h
  all_goals cases h
  all_goals simp

theorem migrationStart_keeps (t : Nat) (s : State) : Keeps s (execMigrationStart t s) := by
  refine ⟨_, rfl, ?_⟩
  dsimp only
  split
  · simp
  · split
    · simp
    · split
      · simp
      · next h => have := migPlan_kept h; simpa using this

theorem giveBack_kept {s s1 : State} {k : Option KPort} {a : BitVec 41} {d : BitVec 512} (h : s.giveBack k a d = some s1) :
    s1.pending = s.pending ∧ s1.sec.trust = s.sec.trust := by
  unfold State.giveBack at h
  dsimp only at h
  split at h
  · cases h
  · cases h; simp

theorem wb_keeps (k : KPort) (a : BitVec 41) (d : BitVec 512) (t : Nat) (s : State) : Keeps s (execWb k a d t s) := by
  refine ⟨_, rfl, State.kclServe_kept _ _ _ _ fun s => ?_⟩
  split
  · simp
  · split
    · next h => exact giveBack_kept h
    · simp

theorem snpRsp_keeps (a : BitVec 41) (d : Option (BitVec 512)) (t : Nat) (s : State) : Keeps s (execSnpRsp a d t s) := by
  refine ⟨_, rfl, ?_⟩
  dsimp only
  split
  · split
    · next h =>
      obtain ⟨x, -, hx⟩ := Option.bind_eq_some_iff.mp h
      simpa using giveBack_kept hx
    · split <;> simp
  · simp

theorem axlLossOfLight_keeps (x : PortN) (m : BitVec 16) (t : Nat) (s : State) : Keeps s (execAxlLossOfLight x m t s) := by
  refine ⟨_, rfl, ?_⟩
  dsimp only
  split
  · split
    · simp
    · exact kept_trans (fold_kept (fun s l => by split <;> simp) (s := s) (by simp)) (State.pump_kept _ _)
  · split <;> simp
  · simp
  · simp

theorem kclTimeSend_keeps (t : Nat) (s : State) : Keeps s (execKclTimeSend t s) :=
  ⟨_, rfl, fold_kept (fun s k => by repeat' split; all_goals simp) (by simp)⟩

theorem inputCurrentHold_keeps (n : Nat) (s : State) : Keeps s (execInputCurrentHold n s) := by
  refine ⟨_, rfl, ?_⟩
  dsimp only
  split
  · exact fold_kept (fun s r => by simp) ⟨rfl, rfl⟩
  · split
    · exact fold_kept (fun s r => by split <;> simp) ⟨rfl, rfl⟩
    · exact ⟨rfl, rfl⟩

/-- The decision of the cap check (R353): v the state with the cap in force, z the same with the low intervals counted. -/
def State.capDecide (v z : State) (pin w e : Nat) : State :=
  if v.therm.emerg || v.lkh.pstate != .active then z
  else if v.power.effW.toNat < pin then z.lowerBank (if e ≤ w then .west else .east) v.canalTimedRuns
  else if v.mustJoin then z.joinBanks
  else if !(z.canRaise .west || z.canRaise .east) then { z with therm := { z.therm with slowRise := false } }
  else if z.power.lowTicks < 8 || z.clocks.step.pendW || z.clocks.step.pendE || (z.therm.slowRise && decide (z.now < z.therm.raisedAt + 100000000)) then z
  else
    let b : Bank := if !z.canRaise .west then .east else if !z.canRaise .east then .west
      else if z.bankStep .west ≥ z.bankStep .east then .west else .east
    let s3 := z.raiseBank b z.canalTimedRuns
    { s3 with power := { s3.power with lowTicks := 0 } }
/-- The state with the input power sampled and the cap in force. -/
def State.capSampled (s : State) (pin : Nat) : State :=
  ({ s with power := { s.power with pin := BitVec.ofNat 16 (min pin 65535) } } : State).recap false 0
/-- The counter of low intervals starts again above 92 percent of the cap. -/
def State.lowCounted (v : State) (pin : Nat) : State :=
  if pin * 100 ≤ v.power.effW.toNat * 92 then v else { v with power := { v.power with lowTicks := 0 } }

theorem powerCapCheck_eq (pin w e t : Nat) (s : State) : execPowerCapCheck pin w e t s =
    .next (((s.at_ t).capSampled pin).capDecide (((s.at_ t).capSampled pin).lowCounted pin) pin w e) := by
  unfold execPowerCapCheck
  extract_lets s0 k s1 cap high z
  show _ = Host.Outcome.next (s1.capDecide z pin w e)
  have hz : high s1 = z := rfl
  rw [hz]
  clear_value z s1
  rfl

theorem capSampled_kept (s : State) (pin : Nat) : (s.capSampled pin).pending = s.pending ∧ (s.capSampled pin).sec.trust = s.sec.trust :=
  State.recap_kept _ _ _
theorem lowCounted_kept (s : State) (pin : Nat) : (s.lowCounted pin).pending = s.pending ∧ (s.lowCounted pin).sec.trust = s.sec.trust := by
  unfold State.lowCounted; split <;> exact ⟨rfl, rfl⟩
theorem capDecide_kept (v z : State) (pin w e : Nat) :
    (v.capDecide z pin w e).pending = z.pending ∧ (v.capDecide z pin w e).sec.trust = z.sec.trust := by
  unfold State.capDecide
  extract_lets k b s3
  have h3 : s3.pending = z.pending ∧ s3.sec.trust = z.sec.trust := State.raiseBank_kept _ _ _
  split
  · exact ⟨rfl, rfl⟩
  split
  · exact State.lowerBank_kept _ _ _
  split
  · exact State.joinBanks_kept _
  split
  · exact ⟨rfl, rfl⟩
  split
  · exact ⟨rfl, rfl⟩
  · exact h3

theorem powerCapCheck_keeps (pin w e t : Nat) (s : State) : Keeps s (execPowerCapCheck pin w e t s) := by
  have hv := capSampled_kept (s.at_ t) pin
  have hz := lowCounted_kept ((s.at_ t).capSampled pin) pin
  exact ⟨_, powerCapCheck_eq pin w e t s, kept_trans (kept_trans hv hz) (capDecide_kept _ _ _ _ _)⟩

theorem trimSave_keeps (up : Bool) (t : Nat) (s : State) : Keeps s (execTrimSave up t s) := by
  simp only [Keeps, execTrimSave, Host.Outcome.next.injEq, exists_eq_left']
  split
  · exact ⟨rfl, rfl⟩
  · exact ⟨rfl, rfl⟩

theorem thermalSample_keeps (p : Pos) (a b : Vector Int 6) (k o : Int) (t : Nat) (s : State) : Keeps s (execThermalSample p a b k o t s) := by
  refine ⟨_, rfl, ?_⟩
  extract_lets s0 bk k0 k1 dark held s1 s2 s3 s4 onStack s5 s6 worst s7 s8 s9 cause
  have h1 : s1.pending = s.pending ∧ s1.sec.trust = s.sec.trust := ⟨rfl, rfl⟩
  have h2 : s2.pending = s1.pending ∧ s2.sec.trust = s1.sec.trust := ite_kept (by simp) ⟨rfl, rfl⟩
  have h3 : s3.pending = s2.pending ∧ s3.sec.trust = s2.sec.trust := ite_kept (by simp) ⟨rfl, rfl⟩
  have h4 : s4.pending = s3.pending ∧ s4.sec.trust = s3.sec.trust := ite_kept (by simp) ⟨rfl, rfl⟩
  have h5 : s5.pending = s4.pending ∧ s5.sec.trust = s4.sec.trust := by
    unfold s5
    cases onStack with
    | none => exact ⟨rfl, rfl⟩
    | some m => simp
  have h6 : s6.pending = s5.pending ∧ s6.sec.trust = s5.sec.trust := by
    unfold s6
    split
    · dsimp only; split <;> simp
    · simp
  have h7 : s7.pending = s6.pending ∧ s7.sec.trust = s6.sec.trust := ite_kept (by simp) ⟨rfl, rfl⟩
  have h8 : s8.pending = s7.pending ∧ s8.sec.trust = s7.sec.trust := ite_kept (by simp) ⟨rfl, rfl⟩
  have h9 : s9.pending = s8.pending ∧ s9.sec.trust = s8.sec.trust := by unfold s9; simp
  have hall := kept_trans h1 <| kept_trans h2 <| kept_trans h3 <| kept_trans h4 <| kept_trans h5 <| kept_trans h6 <| kept_trans h7 <|
    kept_trans h8 h9
  clear_value s9
  split
  · exact ⟨rfl, rfl⟩
  split
  · split
    · exact kept_trans hall (State.moor_kept _ _ _)
    · exact kept_trans (kept_trans hall (State.emergency_kept _ _)) (State.moor_kept _ _ _)
  · exact hall

theorem substitutionLoad_keeps (lt : Lt) (t : Nat) (s : State) : Keeps s (execSubstitutionLoad lt t s) := by
  refine ⟨_, rfl, ?_⟩
  extract_lets s0
  have h0 : s0.pending = s.pending ∧ s0.sec.trust = s.sec.trust := ⟨rfl, rfl⟩
  clear_value s0
  split
  · exact h0
  extract_lets flipped s1
  have h1 : s1.pending = s0.pending ∧ s1.sec.trust = s0.sec.trust := by unfold s1; split <;> simp
  clear_value s1
  split
  · exact h0
  split
  · split
    · exact kept_trans h0 (State.spareFailedFree_kept _ _)
    · exact h0
  split
  · exact kept_trans h0 (State.spareFailedFree_kept _ _)
  have h2 := kept_trans (kept_trans h0 h1) (State.restoreFor_kept lt s1.ltpos[lt].restore s1)
  split
  all_goals (next h => rw [h] at h2; refine kept_trans h2 ?_; simp)

theorem managementRequest_keeps (q : MgmtReq) (t : Nat) (s : State) : Keeps s (execManagementRequest q t s) := by
  unfold execManagementRequest
  extract_lets s0
  split
  · exact ⟨_, rfl, rfl, rfl⟩
  · exact ⟨_, rfl, State.mgmtWrite_kept s0 q⟩

theorem registerWrite_keeps (a v : BitVec 64) (path : Path) (signed : Bool) (s : State) : Keeps s (execRegisterWrite a v path signed s) := by
  unfold execRegisterWrite
  extract_lets r
  split
  · exact ⟨_, rfl, rfl, rfl⟩
  · exact ⟨_, rfl, by simp⟩

/-! ### A core's events, its streams and its packets -/

theorem tileEvent_keeps {p : Pos} {cc : Nat} {f : State → State} {s : State}
    (h : ∀ s, (f s).pending = s.pending ∧ (f s).sec.trust = s.sec.trust) : Keeps s (.next (tileEvent p cc f s)) :=
  ⟨_, rfl, tileEvent_kept _ _ _ _ h⟩
theorem withStream_keeps {p : Pos} {k : Fin 64} {cc : Nat} {f : Stream → State → State} {s : State}
    (h : ∀ st s, (f st s).pending = s.pending ∧ (f st s).sec.trust = s.sec.trust) : Keeps s (.next (withStream p k cc f s)) :=
  ⟨_, rfl, withStream_kept _ _ _ _ _ h⟩
theorem arrive_keeps {a id cc : Nat} {f : Pos → Packet → State → State} {s : State}
    (h : ∀ p q s, (f p q s).pending = s.pending ∧ (f p q s).sec.trust = s.sec.trust) : Keeps s (.next (arrive a id cc f s)) :=
  ⟨_, rfl, arrive_kept _ _ _ _ _ h⟩
theorem arriveMem_keeps {a id cc : Nat} {f : Pos → Packet → State → State} {s : State}
    (h : ∀ p q s, (f p q s).pending = s.pending ∧ (f p q s).sec.trust = s.sec.trust) : Keeps s (.next (arriveMem a id cc f s)) :=
  ⟨_, rfl, arriveMem_kept _ _ _ _ _ h⟩

theorem hwinExpiry_keeps (p : Pos) (cc : Nat) (s : State) : Keeps s (execHwinExpiry p cc s) :=
  tileEvent_keeps fun s => by dsimp only; split <;> simp
theorem keeperFill_keeps (p : Pos) (cc : Nat) (s : State) : Keeps s (execKeeperFill p cc s) :=
  tileEvent_keeps fun s => by dsimp only; split <;> simp
theorem keeperGapExpiry_keeps (p : Pos) (cc : Nat) (s : State) : Keeps s (execKeeperGapExpiry p cc s) :=
  tileEvent_keeps fun s => by extract_lets m k past; split <;> simp
theorem pownoteLeadExpiry_keeps (p : Pos) (cc : Nat) (s : State) : Keeps s (execPownoteLeadExpiry p cc s) :=
  tileEvent_keeps fun s => by dsimp only; split <;> simp
theorem sendPatienceExpiry_keeps (p : Pos) (cc : Nat) (s : State) : Keeps s (execSendPatienceExpiry p cc s) :=
  tileEvent_keeps fun s => by
    dsimp only
    split
    · split <;> simp
    · simp
theorem handlerStart_keeps (p : Pos) (cc : Nat) (s : State) : Keeps s (execHandlerStart p cc s) :=
  tileEvent_keeps fun s => by
    dsimp only
    split
    · simp
    · split
      · split <;> simp
      · simp
theorem patrolScrub_keeps (p : Pos) (cc : Nat) (s : State) : Keeps s (execPatrolScrub p cc s) :=
  tileEvent_keeps fun s => by dsimp only; split <;> simp
theorem scrubWriteback_keeps (p : Pos) (cc : Nat) (s : State) : Keeps s (execScrubWriteback p cc s) :=
  tileEvent_keeps fun s => by split <;> simp

theorem streamPageEntry_keeps (p : Pos) (k : Fin 64) (cc : Nat) (s : State) : Keeps s (execStreamPageEntry p k cc s) :=
  withStream_keeps fun st s => by
    dsimp only
    split
    · simp
    · split <;> simp
theorem streamRingReserve_keeps (p : Pos) (k : Fin 64) (cc : Nat) (s : State) : Keeps s (execStreamRingReserve p k cc s) :=
  withStream_keeps fun st s => by dsimp only; split <;> simp
theorem streamChunkRequest_keeps (p : Pos) (k : Fin 64) (cc : Nat) (s : State) : Keeps s (execStreamChunkRequest p k cc s) :=
  withStream_keeps fun st s => by
    dsimp only
    split
    · simp
    · split <;> simp
theorem streamChunkRelease_keeps (p : Pos) (k : Fin 64) (cc : Nat) (s : State) : Keeps s (execStreamChunkRelease p k cc s) :=
  withStream_keeps fun st s => by split <;> simp
theorem outChunkRead_keeps (p : Pos) (k : Fin 64) (cc : Nat) (s : State) : Keeps s (execOutChunkRead p k cc s) :=
  withStream_keeps fun st s => by
    dsimp only
    split
    · simp
    · split <;> simp
theorem streamComplete_keeps (p : Pos) (k : Fin 64) (cc : Nat) (s : State) : Keeps s (execStreamComplete p k cc s) :=
  withStream_keeps fun st s => by
    split
    · split <;> simp
    · simp

theorem barge_keeps (id cc : Nat) (s : State) : Keeps s (execBarge id cc s) :=
  arriveMem_keeps fun p q s => by
    dsimp only
    split
    · repeat' split
      all_goals simp
    · split <;> simp
theorem bargeAns_keeps (id cc : Nat) (s : State) : Keeps s (execBargeAns id cc s) :=
  arrive_keeps fun p q s => by
    split
    · exact State.takeAnswer_kept _ _ _ _ _ fun _ _ s => ⟨rfl, rfl⟩
    · split
      · exact ⟨rfl, rfl⟩
      · exact State.takeAnswer_kept _ _ _ _ _ fun _ _ s => by simp
theorem wr_keeps (id cc : Nat) (s : State) : Keeps s (execWr id cc s) :=
  arriveMem_keeps fun p q s => by
    dsimp only
    split <;> simp
theorem wrAns_keeps (id cc : Nat) (s : State) : Keeps s (execWrAns id cc s) :=
  arrive_keeps fun p q s => by split <;> simp
theorem rdData_keeps (id cc : Nat) (s : State) : Keeps s (execRdData id cc s) :=
  arrive_keeps fun p q s => by
    split
    · simp
    · split <;> simp
theorem csigAns_keeps (id cc : Nat) (s : State) : Keeps s (execCsigAns id cc s) :=
  arrive_keeps fun p q s => by
    split
    · exact State.takeAnswer_kept _ _ _ _ _ fun _ _ s => by simp
    · simp
theorem chamberSignalArrival_keeps (id cc : Nat) (s : State) : Keeps s (execChamberSignalArrival id cc s) := by
  refine ⟨_, rfl, ?_⟩
  split
  · simp
  · split
    · repeat' split
      all_goals simp
    · refine arrive_kept _ _ _ _ _ fun p q s => ?_
      repeat' split
      all_goals simp

/-! ### Every other command -/

/-- The commands whose certificate or cold start changes the trusted part of the security state. -/
def ChangesTrust : Instr → Prop
  | .inputReturn .. => True
  | .coldReset .. => True
  | .certificateSubmit .. => True
  | .quarantine .. => True
  | .release .. => True
  | .requalify => True
  | .enrol .. => True
  | .commit .. => True
  | .revokeOwner .. => True
  | _ => False

theorem exec_keeps (c : Instr) (s : State) (h : ¬ ChangesTrust c) : Keeps s (exec c s) := by
  cases c
  case timeBeacon | beaconMiss | quietWindowRelease | poundLenWrite | add | sub | and | or | xor | shl | shr | sar | mul | min | max | minu
      | maxu | addi | movi | movhi | cmpeq | cmpne | cmplt | cmpltu | cmple | cmpleu | fadd | fsub | fmul | ffma | fmin | fmax | fcmplt | fcmpeq
      | fcmple | pand | por | pxor | pnot | sel | aaddi | atos | stoa | ld32 | ld64 | st32 | st64 | crr | crw | br | bri | call | loop | hwin
      | pend | hret | vadd | vsub | vmul | vfma | vmax | vmin | vabs | vneg | vmov | vbcast | vcmplt | vcmpeq | vsel | vrsum | vrmax | vexp2
      | vlog2 | vrcp | vrsqrt | vtanh | vcvti | vcvto | vld | vst | vldb | vstb | mconf | mload | mloadComplete | mstep | mstepComplete | mdrain
      | mdrainComplete | mchkv | mflags | pownote | strm | swait | stest | rwr | rrd | send | sendn | sendc | recv | bpop | bopen | bclose
      | wopen | wclose | carm | csig | cwait | ctest | stgPartWrite | stgFlush | hbmWriteShareWindow | chtCountFlush | chtHomeWrite
      | mshTableWrite | mshEpochArm | drainSum | mshSeamMapWrite | axlEnable | axlDisable | axlLoopWrite | consignmentComplete | kclLoopWrite
      | rdShared | rdOwn | rdNc | wrNc | manifestStep | manifestLoad | manifestChart | chartSet | chartInvalidate | chartMigrateIn
      | chartMigrateOut | pwrReqIdle | pwrReqRetain | pwrReqDark | clkStepRequest | clkMswSwitch | timNowRead | ppsInEdge | timSet
      | coolantSample | flowOkLoss | stage00 | stage01 | stage02 | stage03 | stage04 | stage05 | stage06 | stage07 | stage08 | stage09 | stage0A
      | stageTimeout | headwaySave | warmReset | reachReset | tileReset | coreReset | contextReset | linkReset | lockHouseReset | standbyRequest
      | activeRequest | logbookEntry | logCkptRequest | logExportWrite | flowOkAssert =>
    exact ⟨_, rfl, by simp⟩
  case poundLengthChange | stepAbort | stallRelease | towService | bcloseComplete | wcloseComplete | moveCompletion | chartCacheFill
      | hbmLineAccess | chartEntryUpdate | chartInvalidation | chartUpdateDrained | migrationComplete | bargeWhole | orderedCombine | weirTimeout
      | bargeDelivery | bargeRetry | canalArmArrival | mirrorUpdate | tow | packetRoute | flitReplay | sluiceRecovery | sluiceInject
      | expressLaunch | replyTimeout | epochDrainTimeout | mergeTableUpdate | axlFrameLock | axlTrained | axlTrainingTimeout | axlRetryTimer
      | axlLoopRequest | axlDataFrame | axlNak | axlTimeExchange | axlTimeFrame | axlClear | axlCancel | consignmentMeetTimeout | axlFetch
      | kclPortUp | kclLoss | snpInv | snoopTimeout | kclTime | manifestRingNotify | imageLoadComplete | manifestHoldEnd | admissionWaitTimeout
      | stepCompletion | pcieRingPoll | powerFail | pwrEnFall | reachCurrentLimit | reachLimitRelease | reachPgTimeout | vcoreOvercurrent
      | vnetTrip | powerOnRequest | powerOnAdmit | powerOnComplete | powerOnTimeout | coreIdleEntry | reachShort | supplyLoss | oscReady
      | oscTimeout | refInputBad | refInputGood | pllLocked | vcoreTargetRaise | pllLockTimeout | pllLockLoss | clockWatchdog | timeSourceQualify
      | timeSourceDisqualify | timeSourceTakeover | timeServoUpdate | ppsOutPulse | ptpMessage | thermalRecovery | opticsReenable | hardwareTrip
      | thermalCapUpdate | thermalCapRise | thermalEmergency | thermalEmergencyExit | forecastUpdate | repairEventReport | soundingStart
      | soundingResult | fenceCommand | fenceCommandExpiry | substitution | substitutionReady | laneRepair | hbmRetrain | hbmRetrainDone | moor
      | resetPreconditionMet | resetWaitTimeout | standbyEntry | firmwareUpdate | secQuoteRequest | logCheckpointSigned | dbgResume | aliveToggle
      | resetReturnToService | axlIdleFrame =>
    refine ⟨_, rfl, ?_⟩
    dsimp only
    repeat' split
    all_goals simp
  case coreAbort | dbgHalt | stgFlushDone | lineReq | lineData | migrationQueueAdmit | rdReq | towAns | combineHoldExpiry | flowOkGlitch
      | lkhMapAck | narrowRetentionRequest | soundingRotation | segmentZeroingDone =>
    refine ⟨_, rfl, ?_⟩
    repeat' split
    all_goals simp
  case gateTick => exact gateTick_keeps _ _
  case crossingRecentre => exact crossingRecentre_keeps _ _
  case droopStretch => exact droopStretch_keeps _ _ _ _
  case replayRestore => exact replayRestore_keeps _ _ _
  case hwinExpiry => exact hwinExpiry_keeps _ _ _
  case keeperFill => exact keeperFill_keeps _ _ _
  case keeperGapExpiry => exact keeperGapExpiry_keeps _ _ _
  case pownoteLeadExpiry => exact pownoteLeadExpiry_keeps _ _ _
  case sendPatienceExpiry => exact sendPatienceExpiry_keeps _ _ _
  case handlerStart => exact handlerStart_keeps _ _ _
  case streamPageEntry => exact streamPageEntry_keeps _ _ _ _
  case streamRingReserve => exact streamRingReserve_keeps _ _ _ _
  case streamChunkRequest => exact streamChunkRequest_keeps _ _ _ _
  case streamChunkRelease => exact streamChunkRelease_keeps _ _ _ _
  case outChunkRead => exact outChunkRead_keeps _ _ _ _
  case streamComplete => exact streamComplete_keeps _ _ _ _
  case patrolScrub => exact patrolScrub_keeps _ _ _
  case scrubWriteback => exact scrubWriteback_keeps _ _ _
  case sliceMissFill => exact sliceMissFill_keeps _ _
  case hbmErrorRecheck => exact hbmErrorRecheck_keeps _ _ _
  case migrationStart => exact migrationStart_keeps _ _
  case barge => exact barge_keeps _ _ _
  case bargeAns => exact bargeAns_keeps _ _ _
  case wr => exact wr_keeps _ _ _
  case wrAns => exact wrAns_keeps _ _ _
  case rdData => exact rdData_keeps _ _ _
  case chamberSignalArrival => exact chamberSignalArrival_keeps _ _ _
  case csigAns => exact csigAns_keeps _ _ _
  case axlLossOfLight => exact axlLossOfLight_keeps _ _ _ _
  case wb => exact wb_keeps _ _ _ _ _
  case snpRsp => exact snpRsp_keeps _ _ _ _
  case kclTimeSend => exact kclTimeSend_keeps _ _
  case inputCurrentHold => exact inputCurrentHold_keeps _ _
  case powerCapCheck => exact powerCapCheck_keeps _ _ _ _ _
  case trimSave => exact trimSave_keeps _ _ _
  case thermalSample => exact thermalSample_keeps _ _ _ _ _ _ _
  case substitutionLoad => exact substitutionLoad_keeps _ _ _
  case managementRequest => exact managementRequest_keeps _ _ _
  case registerWrite => exact registerWrite_keeps _ _ _ _ _
  case inputReturn | coldReset | certificateSubmit | quarantine | release | requalify | enrol | commit | revokeOwner =>
    exact absurd trivial h

/-! ### The trusted part of the security state only grows -/

/-- From a well-formed security state to a well-formed one, with no fuse, no SEQ and no revoke fuse taken back. -/
def TrustGrows (k l : Security) : Prop :=
  TrustInv k → TrustInv l ∧ (∀ (h : Fin 3) (cls : Fin 6), k.groups[h][cls] ≤ l.groups[h][cls]) ∧ k.lastSeq.toNat ≤ l.lastSeq.toNat ∧
    k.revoked &&& l.revoked = k.revoked

theorem and_trans {a b c : BitVec 4} (hab : a &&& b = a) (hbc : b &&& c = b) : a &&& c = a := by
  rw [← hab, BitVec.and_assoc, hbc]

theorem and_or_self (a b : BitVec 4) : a &&& (a ||| b) = a := by
  ext i
  simp +contextual

theorem trustFloor_of_grows {k l : Security} {lo : Vector (Vector Nat 6) 3} {q : BitVec 64} {r : BitVec 4} (h : TrustGrows k l)
    (hi : TrustInv k) (hf : TrustFloor lo q r k) : TrustInv l ∧ TrustFloor lo q r l := by
  obtain ⟨hl, hg, hs, hr⟩ := h hi
  obtain ⟨fg, fs, fr⟩ := hf
  exact ⟨hl, fun h cls => (fg h cls).trans (hg h cls), fs.trans hs, and_trans fr hr⟩

/-- The statement speaks of the trusted part only. -/
theorem trustGrows_congr {k l l' : Security} (e : l'.trust = l.trust) (h : TrustGrows k l) : TrustGrows k l' := by
  simp only [Security.trust, Prod.mk.injEq] at e
  obtain ⟨hg, hr, hs, -, hn, hk, hkeys, -, hact⟩ := e
  simpa only [TrustGrows, TrustInv, hg, hr, hs, hn, hk, hkeys, hact] using h

theorem TrustGrows.refl (k : Security) : TrustGrows k k := fun h => ⟨h, fun _ _ => le_rfl, le_rfl, BitVec.and_self⟩

theorem trustGrows_of_eq {k l : Security} (e : l.trust = k.trust) : TrustGrows k l := trustGrows_congr e (.refl k)

/-- The command answers a state with the queue as before and with a security state that grows. -/
def Grows (s : State) (o : Out) : Prop := ∃ t, o = .next t ∧ t.pending = s.pending ∧ TrustGrows s.sec t.sec

theorem Keeps.grows {s : State} {o : Out} (h : Keeps s o) : Grows s o := by
  obtain ⟨t, ho, hp, ht⟩ := h
  exact ⟨t, ho, hp, trustGrows_of_eq ht⟩

/-! ### A cold start -/

/-- Without an action that waits the other conditions remain. -/
theorem trustGrows_noAct (k : Security) : TrustGrows k { k with pendingAct := none } := by
  rintro ⟨hg, hlen, hk, hn, -⟩
  exact ⟨⟨hg, hlen, hk, hn, trivial⟩, fun _ _ => le_rfl, le_rfl, BitVec.and_self⟩

theorem trustGrows_coldStart (s : State) : TrustGrows s.sec s.coldStart.sec := by
  refine trustGrows_congr (l := { s.sec with pendingAct := none }) ?_ (trustGrows_noAct s.sec)
  unfold State.coldStart
  exact (State.logRec_kept _ _ _ _).2

theorem inputReturn_grows (t : Nat) (s : State) : Grows s (execInputReturn t s) := by
  refine ⟨_, rfl, ?_⟩
  extract_lets s0
  split
  · exact ⟨by simp [s0], trustGrows_coldStart s0⟩
  · exact ⟨rfl, .refl _⟩

theorem coldReset_grows (t : Nat) (s : State) : Grows s (execColdReset t s) := by
  refine ⟨_, rfl, ?_⟩
  extract_lets s0
  have hk : (if s0.lkh.pstate = .off then s0 else s0.logState false s0.lkh.pstate .off).pending = s.pending ∧
      (if s0.lkh.pstate = .off then s0 else s0.logState false s0.lkh.pstate .off).sec = s.sec := by
    split
    · exact ⟨rfl, rfl⟩
    · exact ⟨rfl, rfl⟩
  refine ⟨(State.coldStart_pending _).trans hk.1, ?_⟩
  rw [← hk.2]
  exact trustGrows_coldStart _

/-! ### The decision on a certificate (R464, R465) -/

/-- The act that waits, once certified, meets what the security state asks of it. -/
def ActOk (a : CertAct) : Prop :=
  match a with
  | .commit _ v => v.toNat ≤ 64
  | .enrol _ n m keys => keys.length = n ∧ 1 ≤ m ∧ m ≤ n ∧ n ≤ 16
  | _ => True

theorem trustInv_act {k : Security} {a : CertAct} (h : TrustInv k) (ha : ActOk a) (n : BitVec 64) :
    TrustInv { k with lastSeq := n, pendingAct := some a } := by
  obtain ⟨hg, hlen, hk, hn, -⟩ := h
  refine ⟨hg, hlen, hk, hn, ?_⟩
  cases a <;> exact ha

theorem certParse_facts {bs : List Byte} {c : Cert} (h : certParse bs = some c) :
    payloadOk c.action c.setGen c.payload = true ∧ c.seq < 2 ^ 64 := by
  unfold certParse at h
  dsimp only at h
  split at h
  · cases h
  · next hn =>
    obtain ⟨l, -, rfl⟩ := Option.map_eq_some_iff.mp h
    simp only [Bool.or_eq_true, not_or, Bool.not_eq_true, Bool.not_eq_false'] at hn
    exact ⟨hn.2, (wordOf bs 1).isLt⟩

theorem certOk_facts {s : State} {c : Cert} (h : s.certOk c = true) : s.sec.lastSeq.toNat < c.seq ∧ s.actionOk c = true := by
  simp only [State.certOk, Bool.and_eq_true, decide_eq_true_eq] at h
  exact ⟨h.1.1.1.1.2, h.2⟩

theorem actOk_of_certOk {s : State} {c : Cert} (hp : payloadOk c.action c.setGen c.payload = true) (ha : s.actionOk c = true) : ActOk c.act := by
  unfold Cert.act
  dsimp only
  split
  · trivial
  · trivial
  · trivial
  · next h4 =>
    simp only [h4, payloadOk, Bool.and_eq_true, decide_eq_true_eq] at hp
    obtain ⟨⟨⟨⟨⟨-, hn⟩, hk⟩, -⟩, -⟩, -⟩ := hp
    exact ⟨by simp [enrolKeys], hk.1, hk.2, hn.2⟩
  · next h5 =>
    simp only [h5, State.actionOk, Bool.and_eq_true, decide_eq_true_eq] at ha
    obtain ⟨⟨⟨hv, -⟩, -⟩, -⟩ := ha
    simpa [ActOk, fbv, fld] using hv
  · trivial

theorem certAccept_trust (s : State) (c : Cert) :
    (s.certAccept c).sec.trust = ({ s.sec with lastSeq := BitVec.ofNat 64 c.seq, pendingAct := some c.act } : Security).trust := by
  unfold State.certAccept
  extract_lets k s1
  have h1 : s1.sec.trust = ({ s.sec with lastSeq := BitVec.ofNat 64 c.seq, pendingAct := some c.act } : Security).trust := (State.logCert_kept _ _ _).2
  rw [(State.certEnd_kept _ _).2, (fold_kept (fun s h => State.extend_kept s h _ _) ⟨rfl, rfl⟩).2, h1]

theorem trustGrows_certAccept {s : State} {c : Cert} {bs : List Byte} (h : certParse bs = some c) (hc : s.certOk c = true) :
    TrustGrows s.sec (s.certAccept c).sec := by
  obtain ⟨hp, hlt⟩ := certParse_facts h
  obtain ⟨hseq, ha⟩ := certOk_facts hc
  refine trustGrows_congr (certAccept_trust s c) fun hi => ⟨trustInv_act hi (actOk_of_certOk hp ha) _, fun _ _ => le_rfl, ?_, BitVec.and_self⟩
  show s.sec.lastSeq.toNat ≤ (BitVec.ofNat 64 c.seq).toNat
  rw [BitVec.toNat_ofNat, Nat.mod_eq_of_lt hlt]
  exact hseq.le

theorem trustGrows_certDecide (s : State) (agree : Bool) (bs : List Byte) : TrustGrows s.sec (s.certDecide agree bs).sec := by
  unfold State.certDecide
  split
  · exact trustGrows_of_eq (State.certEnd_kept _ _).2
  next c hc =>
    split
    · exact trustGrows_of_eq (by simp)
    · split
      · exact trustGrows_of_eq (State.certEnd_kept _ _).2
      · next hok =>
        simp only [Bool.or_eq_true, Bool.not_eq_true', not_or, Bool.not_eq_false] at hok
        exact trustGrows_certAccept hc hok.2

theorem modelBytes_kept (s : State) (a n : Nat) : (s.modelBytes a n).state.pending = s.pending ∧ (s.modelBytes a n).state.sec.trust = s.sec.trust := by
  unfold State.modelBytes
  have hk := State.modelLines_kept s (a / 64 * 64) ((a % 64 + n + 63) / 64) none []
  split
  all_goals (next h => rw [h] at hk; exact hk)

/-- What keeps the trusted part may come before what lets it grow. -/
theorem trustGrows_after {k l m : Security} (e : l.trust = k.trust) (h : TrustGrows l m) : TrustGrows k m := by
  simp only [Security.trust, Prod.mk.injEq] at e
  obtain ⟨hg, hr, hs, -, hn, hk, hkeys, -, hact⟩ := e
  simpa only [TrustGrows, TrustInv, hg, hr, hs, hn, hk, hkeys, hact] using h

theorem certificateSubmit_grows (agree : Bool) (t : Nat) (s : State) : Grows s (execCertificateSubmit agree t s) := by
  refine ⟨_, rfl, ?_⟩
  extract_lets s0 a n
  have hend (st : Status) : (s0.certEnd st).pending = s.pending ∧ TrustGrows s.sec (s0.certEnd st).sec :=
    ⟨(State.certEnd_kept s0 st).1, trustGrows_of_eq (State.certEnd_kept s0 st).2⟩
  split
  · exact ⟨rfl, .refl _⟩
  split
  · exact hend _
  split
  · have hk := modelBytes_kept s0 (addrModel a) n
    split
    · next h =>
      rw [h] at hk
      exact ⟨(State.certDecide_pending _ _ _).trans hk.1, trustGrows_after hk.2 (trustGrows_certDecide _ _ _)⟩
    · next h =>
      rw [h] at hk
      exact ⟨(State.certEnd_kept _ _).1.trans hk.1, trustGrows_of_eq ((State.certEnd_kept _ _).2.trans hk.2)⟩
    · next h =>
      rw [h] at hk
      exact ⟨hk.1, trustGrows_of_eq hk.2⟩
  · split
    · exact hend _
    · exact ⟨State.certDecide_pending _ _ _, trustGrows_certDecide s0 _ _⟩
  · exact hend _

/-! ### The actions of certificates (Table 17.10) -/

theorem carryOut_grows {s : State} {a : CertAct} {f : State → State}
    (hp : ∀ s, (f s).pending = s.pending)
    (h : ActOk a → TrustGrows { s.sec with pendingAct := none } (f { s with sec := { s.sec with pendingAct := none } }).sec) :
    Grows s (.next (s.carryOut a f)) := by
  refine ⟨_, rfl, ?_⟩
  unfold State.carryOut
  split
  · next ha =>
    refine ⟨hp _, fun hi => ?_⟩
    have hok : ActOk a := by
      obtain ⟨-, -, -, -, hact⟩ := hi
      rw [ha] at hact
      cases a <;> exact hact
    exact h hok (trustGrows_noAct _ hi).1
  · exact ⟨rfl, .refl _⟩

theorem quarantine_grows (d : BitVec 256) (t : Nat) (s : State) : Grows s (execQuarantine d t s) :=
  carryOut_grows (s := s.at_ t) (fun _ => (State.setQuar_kept _ _ _).1) fun _ hi => (trustGrows_of_eq (State.setQuar_kept _ _ _).2) hi
theorem release_grows (d : BitVec 256) (t : Nat) (s : State) : Grows s (execRelease d t s) :=
  carryOut_grows (s := s.at_ t) (fun _ => (State.setQuar_kept _ _ _).1) fun _ hi => (trustGrows_of_eq (State.setQuar_kept _ _ _).2) hi
theorem requalify_grows (s : State) : Grows s (execRequalify s) :=
  carryOut_grows (fun _ => rfl) fun _ => .refl _

theorem enrol_grows (gen : BitVec 32) (k : Nat) (keys : List (List (BitVec 8))) (s : State) : Grows s (execEnrol gen k keys s) := by
  refine carryOut_grows (fun _ => (State.logFull_kept _ _ _ _ _ _ _).1) fun ⟨_, _, hkn, hn⟩ => ?_
  refine trustGrows_congr (State.logFull_kept _ _ _ _ _ _ _).2 ?_
  rintro ⟨hg, -, -, -, -⟩
  exact ⟨⟨hg, rfl, hkn, hn, trivial⟩, fun _ _ => le_rfl, le_rfl, BitVec.and_self⟩

theorem revokeOwner_grows (slot : Fin 4) (s : State) : Grows s (execRevokeOwner slot s) := by
  refine carryOut_grows (fun _ => (State.logFuse_kept _ _ _ _).1) fun _ => ?_
  refine trustGrows_congr (State.logFuse_kept _ _ _ _).2 ?_
  rintro ⟨hg, hlen, hk, hn, -⟩
  exact ⟨⟨hg, hlen, hk, hn, trivial⟩, fun _ _ => le_rfl, le_rfl, and_or_self _ _⟩

/-- The fuses of one class in each serving lock-house, blown up to a value. -/
def blown (s : State) (cls : Fin 6) (v : Nat) (h : Fin 3) : Vector Nat 6 :=
  if s.lkh.serving.getLsbD h.val then vmod s.sec.groups[h] cls fun n => max n v else s.sec.groups[h]

theorem le_blown (s : State) (cls d : Fin 6) (v : Nat) (h : Fin 3) : s.sec.groups[h][d] ≤ (blown s cls v h)[d] := by
  unfold blown
  split
  · by_cases hd : d = cls
    · subst hd; rw [vmod_get_same]; exact le_max_left _ _
    · rw [vmod_get_ne _ _ hd]
  · exact le_rfl

theorem blown_le (s : State) (cls d : Fin 6) (v : Nat) (h : Fin 3) (hv : v ≤ 64) (hg : s.sec.groups[h][d] ≤ 64) : (blown s cls v h)[d] ≤ 64 := by
  unfold blown
  split
  · by_cases hd : d = cls
    · subst hd; rw [vmod_get_same]; exact max_le hg hv
    · rw [vmod_get_ne _ _ hd]; exact hg
  · exact hg

theorem commit_grows (cls : Fin 6) (v : BitVec 8) (s : State) : Grows s (execCommit cls v s) := by
  refine carryOut_grows (fun s => ?_) fun hv => ?_
  · exact (fold_kept (fun s h => State.logErr_kept _ _ _ _) (State.logFuse_kept _ _ _ _)).1
  · refine trustGrows_congr (fold_kept (fun s h => State.logErr_kept _ _ _ _) (State.logFuse_kept _ _ _ _)).2 ?_
    rintro ⟨hg, hlen, hk, hn, -⟩
    have hget (h : Fin 3) : (Vector.ofFn (blown s cls v.toNat))[h] = blown s cls v.toNat h := by simp
    refine ⟨⟨fun h d => ?_, hlen, hk, hn, trivial⟩, fun h d => ?_, le_rfl, BitVec.and_self⟩
    · show (Vector.ofFn (blown s cls v.toNat))[h][d] ≤ 64
      rw [hget]
      exact blown_le s cls d _ h hv (hg h d)
    · show s.sec.groups[h][d] ≤ (Vector.ofFn (blown s cls v.toNat))[h][d]
      rw [hget]
      exact le_blown s cls d _ h

/-! ### What every command answers -/

theorem exec_grows (c : Instr) (s : State) : Grows s (exec c s) := by
  by_cases h : ChangesTrust c
  · cases c
    case inputReturn t => exact inputReturn_grows t s
    case coldReset t => exact coldReset_grows t s
    case certificateSubmit agree t => exact certificateSubmit_grows agree t s
    case quarantine d t => exact quarantine_grows d t s
    case release d t => exact release_grows d t s
    case requalify => exact requalify_grows s
    case enrol gen k keys => exact enrol_grows gen k keys s
    case commit cls v => exact commit_grows cls v s
    case revokeOwner slot => exact revokeOwner_grows slot s
    all_goals exact h.elim
  · exact (exec_keeps c s h).grows

theorem step_nil {s : State} (h : s.pending = []) : step s = .next s := by
  simp [step, h]
theorem step_cons {s : State} {c : Instr} {r : List Instr} (h : s.pending = c :: r) : step s = exec c { s with pending := r } := by
  simp [step, h]

theorem exec_pending {c : Instr} {s t : State} (h : exec c s = .next t) : t.pending = s.pending := by
  obtain ⟨u, hu, hp, -⟩ := exec_grows c s
  obtain rfl : u = t := Host.Outcome.next.inj (hu.symm.trans h)
  exact hp

theorem step_grows {s t : State} (h : step s = .next t) : TrustGrows s.sec t.sec := by
  cases hs : s.pending with
  | nil =>
    obtain rfl : s = t := Host.Outcome.next.inj ((step_nil hs).symm.trans h)
    exact .refl _
  | cons c r =>
    obtain ⟨u, hu, -, hg⟩ := exec_grows c { s with pending := r }
    obtain rfl : u = t := Host.Outcome.next.inj (hu.symm.trans ((step_cons hs).symm.trans h))
    exact hg

/-- Settles O4: every command either keeps the trusted part of the security state or is one of nine that let it grow. -/
theorem everyStepKeepsTrust : Obligations.EveryStepKeepsTrust :=
  fun _ _ _ _ _ hi hf h => trustFloor_of_grows (step_grows h) hi hf

/-- Settles O3: no command touches the queue, and a step hands its command the queue's rest. -/
theorem queueIsFirstInFirstOut : Obligations.QueueIsFirstInFirstOut :=
  ⟨fun _ _ _ h => exec_pending h, fun _ _ _ _ hs h => exec_pending ((step_cons hs).symm.trans h)⟩

/-- Settles O2: every command answers a next state. -/
theorem everyCommandAnswers : Obligations.EveryCommandAnswers := fun c s => by
  obtain ⟨t, ht, -⟩ := exec_grows c s
  rw [ht]
  exact ⟨⟨t, rfl⟩, nofun, nofun⟩

/-- Settles O1: the two cases of the queue. -/
theorem stepRunsFrontCommand : Obligations.StepRunsFrontCommand :=
  ⟨fun _ _ _ => step_cons rfl, fun _ hs => step_nil hs⟩

end Sys2Proof.Machine
end

section
/-! PROOFS. Loss and return of the input, and what a cold start leaves (O43). -/

namespace Sys2Proof.Machine

open Sys2Proof

/-! ### What the engines of the ports and of the companion link leave (10.7, 11.2) -/

/-- The engines change no under-tile, of a core the operation numbers only, no port state, and nothing of power, clocks, tables, repair and the lock-houses. -/
def OnlyEngines (s t : State) : Prop :=
  (∃ ts ps ks ns n es i c l, t = { s with
    tiles := ts, ports := ps, kports := ks, net := ns, nextPkt := n, errands := es, intake := i, chart := c, log := l }) ∧
  (∀ p, t.ut p = s.ut p) ∧ (∀ x, (t.port x).state = (s.port x).state) ∧ ∀ p, ∃ m, t.core p = { s.core p with mov := m }

section
variable {s t u : State} {x : PortN}

theorem OnlyEngines.refl (s : State) : OnlyEngines s s := ⟨⟨_, _, _, _, _, _, _, _, _, rfl⟩, fun _ => rfl, fun _ => rfl, fun _ => ⟨_, rfl⟩⟩
theorem OnlyEngines.trans (a : OnlyEngines s t) (b : OnlyEngines t u) : OnlyEngines s u := by
  obtain ⟨⟨_, _, _, _, _, _, _, _, _, rfl⟩, ha, pa, ca⟩ := a
  obtain ⟨⟨_, _, _, _, _, _, _, _, _, rfl⟩, hb, pb, cb⟩ := b
  refine ⟨⟨_, _, _, _, _, _, _, _, _, rfl⟩, fun p => (hb p).trans (ha p), fun y => (pb y).trans (pa y), fun p => ?_⟩
  obtain ⟨m, hm⟩ := ca p
  obtain ⟨n, hn⟩ := cb p
  exact ⟨n, by rw [hn, hm]⟩

/-- Nothing but the net, the errands, the intake unit, the companion's ports, the chart and the logbook changes. -/
theorem OnlyEngines.of_eq (h : ∃ ks ns n es i c l, t = { s with
    kports := ks, net := ns, nextPkt := n, errands := es, intake := i, chart := c, log := l }) : OnlyEngines s t := by
  obtain ⟨_, _, _, _, _, _, _, rfl⟩ := h
  exact ⟨⟨_, _, _, _, _, _, _, _, _, rfl⟩, fun _ => rfl, fun _ => rfl, fun _ => ⟨_, rfl⟩⟩

theorem OnlyEngines.modPort {f : Port → Port} (s : State) (x : PortN) (hf : ∀ q, (f q).state = q.state := by exact fun _ => rfl) :
    OnlyEngines s (s.modPort x f) := by
  refine ⟨⟨_, _, _, _, _, _, _, _, _, rfl⟩, fun _ => rfl, fun y => ?_, fun _ => ⟨_, rfl⟩⟩
  by_cases h : y = x
  · subst h; rw [port_modPort, hf]
  · rw [port_modPort_ne h]

theorem OnlyEngines.foldl {α : Type} {f : State → α → State} (h : ∀ s a, OnlyEngines s (f s a)) (l : List α) (s : State) : OnlyEngines s (l.foldl f s) :=
  foldl_rel (R := OnlyEngines) .refl .trans h l s

theorem queue_state (q : Port) (f : Frame) : (q.queue f).state = q.state := (queue_onlySends q f).state

theorem consStop_onlyEngines (s : State) (x : PortN) (e : Fin 256) (n : Nat) (st : Status) : OnlyEngines s (s.consStop x e n st) := by
  have h1 : OnlyEngines s (s.modCons x e fun c => c.stop n st) := .modPort s x
  exact (h1.trans (.modPort _ x)).trans (.of_eq ⟨_, _, _, _, _, _, _, rfl⟩)

theorem ask_onlyEngines (s : State) (p : Pos) (q : Packet) : OnlyEngines s (s.ask p q) := by
  refine ⟨⟨_, _, _, _, _, _, _, _, _, rfl⟩, fun _ => State.ut_modCore .., fun _ => rfl, fun r => ?_⟩
  by_cases h : r = p
  · subst h
    exact ⟨_, State.core_modCore ..⟩
  · exact ⟨_, State.core_modCore_ne _ _ _ _ h⟩

theorem errandStart_onlyEngines (s : State) (p : Option Pos) (w : Work) (qs : List (Nat × Packet)) : OnlyEngines s (s.errandStart p w qs) := by
  have h0 : OnlyEngines s { s with errands := s.errands ++ [{ id := s.nextPkt, work := w, left := qs.length, worst := .done, got := [] }] } :=
    .of_eq ⟨_, _, _, _, _, _, _, rfl⟩
  refine h0.trans (.foldl (fun s e => ?_) qs _)
  cases p with
  | none => exact .of_eq ⟨_, _, _, _, _, _, _, rfl⟩
  | some p => exact ask_onlyEngines s p _

theorem begin_onlyEngines {w : Work} {p : Plan} (h : s.begin x w p = .under t) : OnlyEngines s t := by
  unfold State.begin at h
  split at h
  · obtain rfl := Begun.under.inj h
    exact errandStart_onlyEngines ..
  · cases h
  · cases h

theorem takeData_onlyEngines {e : Fin 256} {n : Nat} {bs : List Byte} (h : s.takeData x e n bs = .under t) : OnlyEngines s t := by
  unfold State.takeData State.store at h
  dsimp only at h
  repeat' split at h
  · exact begin_onlyEngines h
  · cases h
  · exact begin_onlyEngines h
  · exact begin_onlyEngines h

theorem takeOne_onlyEngines (s : State) (x : PortN) (i : InFrame) : OnlyEngines s (s.takeOne x i) := by
  have hdone (s : State) (n : BitVec 16) : OnlyEngines s (s.modPort x fun q => q.doneIn n) := .modPort s x
  have hmet (s : State) (e : Fin 256) : OnlyEngines s (s.modCons x e fun c => { c with met := true }) := .modPort s x
  unfold State.takeOne
  extract_lets f q done
  split
  · exact .refl s
  split
  · split
    · exact .refl s
    · exact hdone s _
  split
  · exact (OnlyEngines.modPort s x (fun q => queue_state q _)).trans (hdone _ _)
  split
  · exact (OnlyEngines.modPort s x).trans (hdone _ _)
  · split
    · exact .refl s
    split
    · exact ((hmet s _).trans (consStop_onlyEngines ..)).trans (hdone _ _)
    split
    · exact .refl s
    · next h => exact ((takeData_onlyEngines h).trans (hmet _ _)).trans (.modPort _ x)
    · exact ((hmet s _).trans (consStop_onlyEngines ..)).trans (hdone _ _)

theorem sendOne_onlyEngines {e : Fin 256} (h : s.sendOne x e = some t) : OnlyEngines s t := by
  unfold State.sendOne at h
  dsimp only at h
  split at h
  · cases h
  split at h
  · cases h
  split at h
  · cases h
  · next hb =>
    obtain rfl := Option.some.inj h
    exact (begin_onlyEngines hb).trans (.modPort _ x)
  · obtain rfl := Option.some.inj h
    exact consStop_onlyEngines ..

theorem fetchOne_onlyEngines (h : s.fetchOne x = some t) : OnlyEngines s t := by
  have hdrop (s : State) (l : List (BitVec 8 × Word × Nat × Nat)) : OnlyEngines s (s.modPort x fun q => { q with fetches := l }) :=
    .modPort s x
  have hsay (s : State) (f : Frame) : OnlyEngines s (s.modPort x fun q => q.queue f) := .modPort s x (fun q => queue_state q f)
  unfold State.fetchOne at h
  split at h
  · cases h
  dsimp only at h
  split at h
  · cases h
  split at h
  · obtain rfl := Option.some.inj h
    exact (hdrop _ _).trans (hsay _ _)
  split at h
  · cases h
  · next hb =>
    obtain rfl := Option.some.inj h
    refine (begin_onlyEngines hb).trans ?_
    split
    · exact hdrop _ _
    · exact hdrop _ _
  · obtain rfl := Option.some.inj h
    exact (hdrop _ _).trans (hsay _ _)

theorem pumpN_onlyEngines (x : PortN) (n : Nat) (s : State) : OnlyEngines s (State.pumpN x n s) := by
  induction n generalizing s with
  | zero => exact .refl s
  | succ n ih =>
    unfold State.pumpN
    split
    · next h =>
      obtain ⟨e, -, he⟩ := List.exists_of_findSome?_eq_some h
      exact (sendOne_onlyEngines he).trans (ih _)
    · split
      · next h => exact (fetchOne_onlyEngines h).trans (ih _)
      · exact .refl s

theorem pump_onlyEngines (s : State) (x : PortN) : OnlyEngines s (s.pump x) := by
  unfold State.pump
  split
  · have h1 : OnlyEngines s (s.modPort x Port.flushTx) := .modPort s x (fun q => (flushTx_onlySends q).state)
    exact ((h1.trans (.foldl (fun s i => takeOne_onlyEngines s x i) _ _)).trans (.modPort _ x)).trans (pumpN_onlyEngines ..)
  · exact .refl s

theorem idles_state (q : Port) (l : Fin 16) (b : Bool) : (q.idles l b).state = q.state := by
  unfold Port.idles
  split
  · split
    · rfl
    · rfl
  · exact foldl_reads_same (g := Port.state) (f := fun (y : Port) v => y.idle l false v) (fun _ _ _ => rfl) q

theorem pumpIdle_onlyEngines (s : State) (x : PortN) : OnlyEngines s (s.pumpIdle x) := by
  unfold State.pumpIdle
  dsimp only
  split
  · exact (pump_onlyEngines s x).trans (.modPort _ x (fun q => idles_state q _ _))
  · exact pump_onlyEngines s x

theorem pumpAll_onlyEngines (s : State) : OnlyEngines s s.pumpAll := .foldl pumpIdle_onlyEngines _ s

theorem companionAsk_onlyEngines (s : State) (k : KPort) (w : Waiter) (a : Nat) (d : Option (List Byte)) : OnlyEngines s (s.companionAsk k w a d) := by
  unfold State.companionAsk
  split
  · exact .of_eq ⟨_, _, _, _, _, _, _, rfl⟩
  · exact .of_eq ⟨_, _, _, _, _, _, _, rfl⟩
  · exact (OnlyEngines.of_eq ⟨_, _, _, _, _, _, _, rfl⟩).trans (errandStart_onlyEngines ..)

theorem companion_onlyEngines (s : State) (w : Waiter) : OnlyEngines s (s.companion w) := by
  unfold State.companion
  split
  · exact companionAsk_onlyEngines ..
  · exact companionAsk_onlyEngines ..
  dsimp only
  split
  · exact .of_eq ⟨_, _, _, _, _, _, _, rfl⟩
  split
  · exact .of_eq ⟨_, _, _, _, _, _, _, rfl⟩
  split
  · split
    · refine .trans (t := s.snoop _) ?_ (.of_eq ⟨_, _, _, _, _, _, _, rfl⟩)
      unfold State.snoop
      split
      · exact .refl s
      · exact .of_eq ⟨_, _, _, _, _, _, _, rfl⟩
    · exact companionAsk_onlyEngines ..
  · exact companionAsk_onlyEngines ..

theorem wake_onlyEngines (s : State) : OnlyEngines s s.wake :=
  ((OnlyEngines.of_eq ⟨_, _, _, _, _, _, _, rfl⟩).trans (.foldl companion_onlyEngines _ _)).trans (pumpAll_onlyEngines _)

theorem intakeDrop_onlyEngines (s : State) : OnlyEngines s s.intakeDrop := by
  unfold State.intakeDrop
  split
  · exact .refl s
  · exact (OnlyEngines.of_eq ⟨_, _, _, _, _, _, _, rfl⟩).trans (wake_onlyEngines _)

theorem kclLeave_onlyEngines (s : State) (k : KPort) (st : BitVec 3) : OnlyEngines s (s.kclLeave k st) := by
  unfold State.kclLeave
  dsimp only
  split
  · exact (OnlyEngines.of_eq ⟨_, _, _, _, _, _, _, rfl⟩).trans (intakeDrop_onlyEngines _)
  · exact .of_eq ⟨_, _, _, _, _, _, _, rfl⟩

end

/-! ### Converters off (R332) -/

/-- No rail of the die and of its under-tile is on. -/
def Regulator.off (r : Regulator) : Regulator :=
  { r with req := 3, state := 3, pending := false, vnet := false, vsram := false, vcore := false, hold10 := false }
/-- Every converter and both optics supplies off. -/
def State.suppliesOff (s : State) : State :=
  ({ s with
    reaches := s.reaches.map fun (r : Reach) => { r with on := false, pg := false, inLimit := false, iout := 0, queue := [], held := [] }
    power := { s.power with optics := false, inHold := false }, net := []
    lkh := { s.lkh with pstate := .off, pending := false } } : State).alert

section
variable (s : State)

theorem offTile_ut (p : Pos) : (s.offTile p).ut p = { s.ut p with pwr := (s.ut p).pwr.off } := by
  simp [State.offTile, State.modPwr, Regulator.off]
theorem offTile_ut_ne {p q : Pos} (h : q ≠ p) : (s.offTile p).ut q = s.ut q := by
  simp [State.offTile, State.modPwr, State.ut_modUt_ne _ _ _ _ h]

/-- With the converters of every tile off. -/
def State.tilesOff : State := allPos.foldl (fun (s : State) p => s.offTile p) s
/-- With every port off as well. -/
def State.portsOff : State := (List.finRange 18).foldl (fun (s : State) x => s.portLeave x .off .partnerLost) s.tilesOff
/-- With the companion's ports off as well. -/
def State.linksOff : State := (List.finRange 2).foldl (fun (s : State) k => s.kclLeave k 0) s.portsOff

theorem goOff_eq : s.goOff = s.linksOff.suppliesOff := by
  unfold State.goOff
  extract_lets s1 s2 s3
  show State.alert _ = State.suppliesOff s3
  clear_value s3
  rfl

theorem tilesOff_pwr (p : Pos) : (s.tilesOff.ut p).pwr = (s.ut p).pwr.off :=
  foldl_reads_once (g := fun t : State => (t.ut p).pwr) (F := Regulator.off) allPos_nodup (mem_allPos p) (fun t => by rw [offTile_ut])
    (fun t q h => by rw [offTile_ut_ne t h.symm]) s

theorem portLeave_ut (x : PortN) (nx : PortState) (st : Status) (p : Pos) : (s.portLeave x nx st).ut p = s.ut p := rfl

theorem portLeave_state (x : PortN) (nx : PortState) (st : Status) : ((s.portLeave x nx st).port x).state = nx := by
  rw [port_portLeave]; rfl
theorem portLeave_port_ne {x y : PortN} (h : y ≠ x) (nx : PortState) (st : Status) : (s.portLeave x nx st).port y = s.port y := by
  rw [portLeave_eq, port_sweep, port_modPort_ne h]

theorem portsOff_ut (p : Pos) : s.portsOff.ut p = s.tilesOff.ut p :=
  foldl_reads_same (g := fun t : State => t.ut p) (fun t x _ => portLeave_ut t x _ _ p) s.tilesOff
theorem portsOff_state (x : PortN) : (s.portsOff.port x).state = .off :=
  foldl_of_mem_once (P := fun _ => True) (Q := fun t : State => (t.port x).state = .off) (List.nodup_finRange 18) (List.mem_finRange x)
    (fun t _ => portLeave_state t x _ _) (fun _ _ _ _ => trivial) (fun t y h ht => by rw [portLeave_port_ne t h.symm]; exact ht) trivial

theorem linksOff_onlyEngines : OnlyEngines s.portsOff s.linksOff := .foldl (fun s k => kclLeave_onlyEngines s k 0) _ _

theorem suppliesOff_port (x : PortN) : s.suppliesOff.port x = s.port x := rfl
theorem suppliesOff_ut (p : Pos) : s.suppliesOff.ut p = s.ut p := rfl

theorem goOff_port (x : PortN) : (s.goOff.port x).state = .off := by
  obtain ⟨-, -, hp, -⟩ := linksOff_onlyEngines s
  rw [goOff_eq, suppliesOff_port, hp, portsOff_state]
theorem goOff_ut (p : Pos) : s.goOff.ut p = s.tilesOff.ut p := by
  obtain ⟨-, hu, -⟩ := linksOff_onlyEngines s
  rw [goOff_eq, suppliesOff_ut, hu, portsOff_ut]
theorem suppliesOff_reach (r : ReachN) : s.suppliesOff.reaches[r] =
    { s.reaches[r] with on := false, pg := false, inLimit := false, iout := 0, queue := [], held := [] } := Vector.getElem_map ..

theorem goOff_leaves : s.goOff.lkh.pstate = .off ∧ s.goOff.net = [] ∧ s.goOff.power.optics = false ∧ s.goOff.pins.alertN = false ∧
    (∀ x : PortN, (s.goOff.port x).state = .off) ∧
    (∀ p, (s.goOff.ut p).pwr.vcore = false ∧ (s.goOff.ut p).pwr.vsram = false ∧ (s.goOff.ut p).pwr.vnet = false ∧ (s.goOff.ut p).pwr.state = 3) ∧
    (∀ r : ReachN, s.goOff.reaches[r].on = false ∧ s.goOff.reaches[r].pg = false) := by
  have hs : s.goOff.lkh.pstate = .off ∧ s.goOff.net = [] ∧ s.goOff.power.optics = false ∧ s.goOff.pins.alertN = false := by
    rw [goOff_eq]
    exact ⟨rfl, rfl, rfl, rfl⟩
  obtain ⟨hl, hn, ho, ha⟩ := hs
  refine ⟨hl, hn, ho, ha, goOff_port s, fun p => ?_, fun r => ?_⟩
  · rw [goOff_ut, tilesOff_pwr]
    exact ⟨rfl, rfl, rfl, rfl⟩
  · rw [goOff_eq, suppliesOff_reach]
    exact ⟨rfl, rfl⟩

end

theorem inputPower_holds : Rules.InputPower := by
  intro mv t s
  dsimp only
  refine ⟨fun h => ?_, fun h ho => ?_, fun ho => ?_, fun ho => ?_, fun ho he hr => ?_, fun h => ?_, goOff_leaves⟩
  · exact congrArg Host.Outcome.next (if_pos (by simpa using h))
  · refine congrArg Host.Outcome.next (if_neg ?_)
    have hr : ¬(36000 ≤ mv ∧ mv ≤ 62000) := by omega
    simpa [ho] using hr
  · exact congrArg Host.Outcome.next (if_neg ho)
  · exact congrArg Host.Outcome.next (if_pos ho)
  · exact congrArg Host.Outcome.next (if_pos (by simp [ho, he, hr]))
  · refine congrArg Host.Outcome.next (if_neg ?_)
    rcases h with h | h | h
    · simp [h]
    · simp [h]
    · simp [h]

/-! ### The cold start (Table 16.3) -/

theorem coldStart_core (s : State) (p : Pos) :
    s.coldStart.core p = { State.reset.core p with mat := { marginStored := (s.core p).mat.marginStored } } := by
  have hc : s.coldStart.tiles[p] = { core := { mat := { marginStored := (s.core p).mat.marginStored } } } := Vector.getElem_ofFn ..
  have hr : State.reset.tiles[p] = {} := Vector.getElem_replicate ..
  rw [State.core, State.core, hc, hr]

theorem coldStart_ut (s : State) (p : Pos) : s.coldStart.ut p = {} := by
  have hc : s.coldStart.tiles[p] = { core := { mat := { marginStored := (s.core p).mat.marginStored } } } := Vector.getElem_ofFn ..
  rw [State.ut, hc]

theorem coldStart_holds : Rules.ColdStart := fun s p =>
  ⟨coldStart_core s p, coldStart_ut s p, rfl, rfl, rfl, rfl, rfl, rfl, rfl, rfl, rfl, rfl, rfl, rfl, rfl, rfl, rfl, rfl⟩

/-- Settles O43: each event by the case it stands in, and what the panel that is off and the cold start hold. -/
theorem inputPowerAndColdStart : Obligations.InputPowerAndColdStart := ⟨inputPower_holds, coldStart_holds⟩

end Sys2Proof.Machine
end

section
/-! PROOFS. The Logbook's chain (O53). -/

namespace Sys2Proof.Machine

open Sys2Proof

/-! ### The bytes of an entry (Table 17.11) -/

theorem length_digestBytes (d : BitVec 256) : (digestBytes d).length = 32 := length_natBytes ..

theorem length_padTo {n : Nat} {bs : List Byte} (h : bs.length ≤ n) : (padTo n bs).length = n := by
  simp [padTo, h]

section
variable (e : LogEntry)

/-- Everything before DATA. -/
def LogEntry.headBytes : List Byte :=
  natBytes e.index 8 ++ (natBytes e.time 8 ++ (digestBytes e.prev ++ (natBytes e.type.toNat 2 ++
    [BitVec.ofNat 8 (originCode e.origin), BitVec.ofNat 8 (pathCode e.path), e.flags, e.key, 0, 0])))

theorem bytes_eq : e.bytes = e.headBytes ++ padTo 72 (e.data.take 72) := by
  simp [LogEntry.bytes, LogEntry.headBytes]
theorem length_headBytes : e.headBytes.length = 56 := by
  simp [LogEntry.headBytes, length_natBytes, length_digestBytes]
theorem length_bytes : e.bytes.length = 128 := by
  rw [bytes_eq, List.length_append, length_headBytes, length_padTo (List.length_take_le _ _)]

theorem bytes_index : e.bytes.take 8 = natBytes e.index 8 := by
  simp [bytes_eq, LogEntry.headBytes, length_natBytes]
theorem bytes_time : (e.bytes.drop 8).take 8 = natBytes e.time 8 := by
  simp [bytes_eq, LogEntry.headBytes, length_natBytes]
theorem bytes_prev : (e.bytes.drop 16).take 32 = digestBytes e.prev := by
  simp [bytes_eq, LogEntry.headBytes, List.drop_append, length_natBytes, length_digestBytes, List.drop_of_length_le]
theorem bytes_type : (e.bytes.drop 48).take 2 = natBytes e.type.toNat 2 := by
  simp [bytes_eq, LogEntry.headBytes, List.drop_append, length_natBytes, length_digestBytes, List.drop_of_length_le]
theorem bytes_codes : (e.bytes.drop 50).take 6 = [BitVec.ofNat 8 (originCode e.origin), BitVec.ofNat 8 (pathCode e.path), e.flags, e.key, 0, 0] := by
  simp [bytes_eq, LogEntry.headBytes, List.drop_append, length_natBytes, length_digestBytes, List.drop_of_length_le]
theorem bytes_data (h : e.data.length ≤ 72) : e.bytes.drop 56 = e.data ++ List.replicate (72 - e.data.length) 0 := by
  rw [bytes_eq, List.drop_left' (length_headBytes e), padTo, List.take_of_length_le h]

end

/-! ### Appending (R467, R469) -/

section
variable (l : Logbook) (now : Nat) (hs : BitVec 3) (ty : BitVec 16) (o : Origin) (p : Path) (key fl : BitVec 8) (data : List Byte)

/-- The entry that an append writes. -/
def Logbook.next : LogEntry :=
  { index := l.nextIdx, time := max l.head.time now, prev := digest l.head.bytes, type := ty, origin := o,
    path := p, flags := fl, key := key, data := data }

/-- The newest entry is never in the segment that is dropped. -/
theorem trim_entries {l : Logbook} {e : LogEntry} {r : List LogEntry} (he : l.entries = e :: r) (hi : l.nextIdx = e.index + 1) :
    ∃ r', l.trim.entries = e :: r' ∧ ∀ x ∈ r', x ∈ r := by
  unfold Logbook.trim
  split
  · exact ⟨r, he, fun _ h => h⟩
  · have hk : (l.oldest / 4096 + 1) * 4096 ≤ e.index := by omega
    refine ⟨r.filter fun e => decide ((l.oldest / 4096 + 1) * 4096 ≤ e.index), ?_, fun _ h => List.mem_of_mem_filter h⟩
    simp [he, hk]

theorem trim_nextIdx (l : Logbook) : l.trim.nextIdx = l.nextIdx := by
  unfold Logbook.trim
  split
  · rfl
  · rfl

theorem append_entries : ∃ r, (l.append now hs ty o p key fl data).entries = l.next now ty o p key fl data :: r ∧ ∀ x ∈ r, x ∈ l.entries :=
  trim_entries (l := { l with entries := l.next now ty o p key fl data :: l.entries, nextIdx := l.nextIdx + 1, holders := hs }) rfl rfl

theorem append_nextIdx : (l.append now hs ty o p key fl data).nextIdx = l.nextIdx + 1 := trim_nextIdx _

theorem append_head : (l.append now hs ty o p key fl data).head = l.next now ty o p key fl data := by
  obtain ⟨r, hr, -⟩ := append_entries l now hs ty o p key fl data
  rw [Logbook.head, hr, List.headD_cons]

theorem record_of_short (single holdup : Bool) (h : data.length ≤ 72) :
    l.record now hs single holdup ty o p key data =
      l.append now hs ty o p key (BitVec.ofNat 8 (b2n false + 2 * b2n single + 4 * b2n holdup)) data := by
  have hn : max 1 (cdiv data.length 72) = 1 := by
    have : cdiv data.length 72 ≤ 1 := by unfold cdiv; omega
    omega
  simp [Logbook.record, hn, logParts, List.take_of_length_le h]

end

/-- Settles O53: an append writes its entry in front of entries that were there, and an entry's bytes lie as Table 17.11 has them. -/
theorem logbookChain : Obligations.LogbookChain := by
  refine ⟨⟨rfl, rfl, rfl, rfl, rfl⟩, ?_, ?_, ?_⟩
  · intro l now hs ty o p key fl data
    obtain ⟨r, hr, hmem⟩ := append_entries l now hs ty o p key fl data
    dsimp only
    rw [append_head, append_nextIdx, hr]
    refine ⟨fun h => ⟨h, rfl⟩, rfl, le_max_left _ _, le_max_right _ _, rfl, fun e he => ?_⟩
    exact (List.mem_cons.mp he).imp_right (hmem e)
  · intro l now hs single holdup ty o p key data h
    exact ⟨_, record_of_short l now hs ty o p key data single holdup h⟩
  · intro e
    exact ⟨length_bytes e, bytes_index e, bytes_time e, bytes_prev e, bytes_type e, bytes_codes e, bytes_data e⟩

end Sys2Proof.Machine
end

section
/-! PROOFS. Placement of logical tiles (O49). -/

namespace Sys2Proof.Machine

open Sys2Proof

/-! ### Where the first pass puts one LT (R410) -/

theorem spareOf_isSpare (r : Nat) (b : Bank) : isSpare (spareOf r b) = true := by
  cases b <;> simp [isSpare, spareOf, colOf_mkPos]

theorem homeOf_ne_of_isSpare {l : Lt} {p : Pos} (h : isSpare p = true) : homeOf l ≠ p := fun e => by
  rw [← e, isSpare_homeOf] at h
  cases h

theorem homeOf_injective {l m : Lt} (h : homeOf l = homeOf m) : l = m := by
  have hk (l : Lt) : l.val % 10 < 10 := Nat.mod_lt _ (by decide)
  obtain ⟨hl, -⟩ := physCol_bounds (hk l)
  obtain ⟨hm, -⟩ := physCol_bounds (hk m)
  rw [homeOf_row_col (hk l) (Nat.div_add_mod l.val 10).symm, homeOf_row_col (hk m) (Nat.div_add_mod m.val 10).symm] at h
  have hv : 12 * (l.val / 10) + physCol (l.val % 10) = 12 * (m.val / 10) + physCol (m.val % 10) := by
    have := congrArg Fin.val h
    simp only [mkPos, Fin.val_ofNat] at this
    omega
  have hrow : l.val / 10 = m.val / 10 := by omega
  have hcol : physCol (l.val % 10) = physCol (m.val % 10) := by omega
  have hphys : ∀ a < 10, ∀ b < 10, physCol a = physCol b → a = b := by decide
  have := hphys _ (hk l) _ (hk m) hcol
  exact Fin.ext (by omega)

/-- The spare of an LT's bank-row. -/
def rowSpare (l : Lt) : Pos := spareOf (rowOf (homeOf l)) (bankOf (homeOf l))

section
variable (s : State) (l : Lt)

/-- The home die serves at full width. -/
def State.servesWhole : Prop := s.dieServes (homeOf l) = true ∧ (s.core (homeOf l)).desc.narrow = false
/-- The spare of the bank-row serves at full width and is free. -/
def State.spareServes : Prop :=
  s.dieServes (rowSpare l) = true ∧ (s.core (rowSpare l)).desc.narrow = false ∧ s.spareFree (rowSpare l) = true

variable {s l}

theorem placeOne_of_absent (ha : s.ltAbsent l = true) : s.placeOne l = s := if_pos ha
theorem placeOne_of_whole (ha : s.ltAbsent l = false) (h : s.servesWhole l) : s.placeOne l = s.carry l (homeOf l) := by
  obtain ⟨hd, hn⟩ := h
  simp [State.placeOne, ha, hd, hn]
theorem placeOne_of_spare (ha : s.ltAbsent l = false) (h : ¬s.servesWhole l) (hsp : s.spareServes l) : s.placeOne l = s.carry l (rowSpare l) := by
  obtain ⟨hd, hn, hf⟩ := hsp
  have hw : (s.dieServes (homeOf l) && !(s.core (homeOf l)).desc.narrow) = false := by simpa [State.servesWhole] using h
  simp only [rowSpare] at hd hn hf
  simp [State.placeOne, ha, hw, hd, hn, hf, rowSpare]
theorem placeOne_of_narrow (ha : s.ltAbsent l = false) (h : ¬s.servesWhole l) (hsp : ¬s.spareServes l) (hd : s.dieServes (homeOf l) = true)
    (hn : s.lkh.narrow.contains (homeOf l) = true) : s.placeOne l = s.carry l (homeOf l) := by
  have hw : (s.dieServes (homeOf l) && !(s.core (homeOf l)).desc.narrow) = false := by simpa [State.servesWhole] using h
  have hs : (s.dieServes (rowSpare l) && !(s.core (rowSpare l)).desc.narrow && s.spareFree (rowSpare l)) = false := by
    simpa [State.spareServes, and_assoc] using hsp
  simp only [rowSpare] at hs
  have hk : (s.core (homeOf l)).desc.narrow = true := by simpa [hd] using hw
  simp only [State.placeOne, ha, hs, hd, hn, hk]
  rfl

theorem carry_word (p : Pos) : (s.carry l p).ltpos[l] = s.placeWord l p := by
  rw [carry_ltpos]
  exact Vector.getElem_set_self ..

theorem placeWord_home : (s.placeWord l (homeOf l)).narrow = (s.core (homeOf l)).desc.narrow := by
  simp [State.placeWord]
theorem placeWord_spare_of_works (h : s.utWorks (homeOf l) = true) :
    (s.placeWord l (rowSpare l)).spareLink = true ∧ (s.placeWord l (rowSpare l)).added = addedAt (colOf (homeOf l)) := by
  have hne : rowSpare l ≠ homeOf l := (homeOf_ne_of_isSpare (spareOf_isSpare _ _)).symm
  simp only [rowSpare] at hne
  simp [State.placeWord, rowSpare, hne, h]
theorem placeWord_spare_of_lost (h : s.utWorks (homeOf l) = false) : (s.placeWord l (rowSpare l)).detoured = true := by
  have hne : rowSpare l ≠ homeOf l := (homeOf_ne_of_isSpare (spareOf_isSpare _ _)).symm
  simp only [rowSpare] at hne
  simp [State.placeWord, rowSpare, hne, h]

theorem carry_desc (p : Pos) : ((s.carry l p).core p).desc.lt.toNat = l.val := by
  rw [carry_core, State.core_modCore]
  show (BitVec.ofNat 7 l.val).toNat = l.val
  rw [BitVec.toNat_ofNat]
  omega

end

theorem placement_holds : Rules.Placement := by
  intro l s
  refine ⟨placeOne_of_absent, fun ha => ⟨fun hw => ?_, fun hw hs => ⟨?_, fun hu => ?_, fun hu => ?_⟩, fun hw hs hd hn => ⟨?_, ?_⟩⟩, fun hl p hp => ?_,
    fun m hm => placeOne_posOf_ne s hm⟩
  · rw [placeOne_of_whole ha hw, carry_posOf]
  · rw [placeOne_of_spare ha hw hs, carry_posOf]
    rfl
  · rw [placeOne_of_spare ha hw hs, carry_word]
    exact placeWord_spare_of_works hu
  · rw [placeOne_of_spare ha hw hs, carry_word]
    exact placeWord_spare_of_lost hu
  · rw [placeOne_of_narrow ha hw hs hd hn, carry_posOf]
  · rw [placeOne_of_narrow ha hw hs hd hn, carry_word, placeWord_home]
    simpa [hd] using hw
  · obtain he | ⟨q, he⟩ := placeOne_cases s l
    · rw [he, hl] at hp
      cases hp
    · rw [he, carry_posOf] at hp
      obtain rfl := Option.some.inj hp
      rw [he, carry_desc]

/-! ### No die twice -/

/-- No two LTs on one die, and none on another's home. -/
def Apart (s : State) : Prop :=
  (∀ l m p, s.posOf l = some p → s.posOf m = some p → l = m) ∧ ∀ m p, s.posOf m = some p → p = homeOf m ∨ isSpare p = true

section
variable {s : State} {l : Lt} {p : Pos}

theorem posOf_ne_of_spareFree (h : s.spareFree p = true) (m : Lt) : s.posOf m ≠ some p := by
  intro hm
  simp only [State.spareFree, Bool.not_eq_true', List.any_eq_false, beq_iff_eq] at h
  exact h s.ltpos[m] (by simp) hm

theorem carry_apart (h : Apart s) (hn : ∀ m, m ≠ l → s.posOf m ≠ some p) (hp : p = homeOf l ∨ isSpare p = true) : Apart (s.carry l p) := by
  obtain ⟨hone, hin⟩ := h
  have hat (m : Lt) (q : Pos) (hm : (s.carry l p).posOf m = some q) : (m = l ∧ q = p) ∨ (m ≠ l ∧ s.posOf m = some q) := by
    by_cases e : m = l
    · subst e
      rw [carry_posOf] at hm
      exact .inl ⟨rfl, (Option.some.inj hm).symm⟩
    · rw [carry_posOf_ne s l p e] at hm
      exact .inr ⟨e, hm⟩
  refine ⟨fun a b q ha hb => ?_, fun m q hm => ?_⟩
  · obtain ⟨rfl, rfl⟩ | ⟨ea, sa⟩ := hat a q ha
    · obtain ⟨rfl, -⟩ | ⟨eb, sb⟩ := hat b q hb
      · rfl
      · exact absurd sb (hn b eb)
    · obtain ⟨rfl, rfl⟩ | ⟨-, sb⟩ := hat b q hb
      · exact absurd sa (hn a ea)
      · exact hone a b q sa sb
  · obtain ⟨rfl, rfl⟩ | ⟨-, hm⟩ := hat m q hm
    · exact hp
    · exact hin m q hm

theorem carry_home_apart (h : Apart s) : Apart (s.carry l (homeOf l)) := by
  refine carry_apart h (fun m hne hm => ?_) (.inl rfl)
  obtain he | hs := h.2 m _ hm
  · exact hne (homeOf_injective he).symm
  · exact homeOf_ne_of_isSpare hs rfl

theorem carry_free_apart (h : Apart s) (hf : s.spareFree p = true) (hs : isSpare p = true) : Apart (s.carry l p) :=
  carry_apart h (fun m _ => posOf_ne_of_spareFree hf m) (.inr hs)

theorem placeOne_apart (h : Apart s) (l : Lt) : Apart (s.placeOne l) := by
  simp only [State.placeOne]
  split
  · exact h
  split
  · exact carry_home_apart h
  split
  · next hs =>
    simp only [Bool.and_eq_true] at hs
    exact carry_free_apart h hs.2 (spareOf_isSpare _ _)
  split
  · exact carry_home_apart h
  · exact h

theorem borrowOne_apart (h : Apart s) (l : Lt) : Apart (s.borrowOne l) := by
  simp only [State.borrowOne]
  split
  · exact h
  split
  · next hs =>
    simp only [Bool.and_eq_true] at hs
    exact carry_free_apart h hs.2 (spareOf_isSpare _ _)
  · exact h

theorem unplaced_apart (s : State) : Apart s.unplaced := by
  refine ⟨fun l _ _ hl => ?_, fun m _ hm => ?_⟩
  · simp [unplaced_posOf] at hl
  · simp [unplaced_posOf] at hm

theorem logRec_apart (h : Apart s) (n : Nat) (o : Origin) (d : List Nat) : Apart (s.logRec n o d) := h

theorem place_apart (s : State) : Apart s.place := by
  have h1 : Apart ((List.finRange 120).foldl (fun s l => s.placeOne l) s.unplaced) :=
    List.foldlRecOn _ _ (unplaced_apart s) fun _ ht l _ => placeOne_apart ht l
  have h2 : Apart ((List.finRange 120).foldl (fun s l => s.borrowOne l) ((List.finRange 120).foldl (fun s l => s.placeOne l) s.unplaced)) :=
    List.foldlRecOn _ _ h1 fun _ ht l _ => borrowOne_apart ht l
  refine List.foldlRecOn _ _ h2 fun t ht l _ => ?_
  split
  · exact logRec_apart ht _ _ _
  · exact ht

end

theorem placementApart_holds : Rules.PlacementApart := fun l m p s hl hm => (place_apart s).1 l m p hl hm

/-- Settles O49: the three places of an LT, and the invariant of both passes that no two LTs stand on one die. -/
theorem placement : Obligations.Placement := ⟨placement_holds, placementApart_holds⟩

end Sys2Proof.Machine
end

section
/-! PROOFS. Thermal samples, thresholds and the coolant (O47). -/

namespace Sys2Proof.Machine

open Sys2Proof

/-! ### What an abort leaves (Table 2.6, phases 1, 2 and 4) -/

/-- Phase 4 changes an under-tile's berths, windows, attempt count, chambers and mirrors only; a tile without mirrors gains none. -/
def AbortKeeps (u v : UnderTile) : Prop :=
  (∃ b w a c m d, v = { u with berths := b, windows := w, attempt := a, chambers := c, mirror := m, mirrorDue := d }) ∧ (u.mirror = [] → v.mirror = [])

/-- The abort of steps changes tiles as phase 4 does, entries of ports, steps, Canal chambers, packets, what waits, repair events and one count. -/
def OnlyAborts (s t : State) : Prop :=
  (∃ ts ps st es ns n a k l c, t = { s with
    tiles := ts, ports := ps, intake := { s.intake with steps := st }, errands := es, net := ns, nextPkt := n, aborts := a, repair := k
    lkh := { s.lkh with hwLost := l }, canal := c }) ∧
  (∀ p, AbortKeeps (s.ut p) (t.ut p)) ∧ (∀ x, ∃ c, t.port x = { s.port x with cons := c }) ∧ (s.canal = [] → t.canal = [])

section
variable {s t u : State}

theorem AbortKeeps.refl (u : UnderTile) : AbortKeeps u u := ⟨⟨_, _, _, _, _, _, rfl⟩, id⟩
theorem AbortKeeps.trans {u v w : UnderTile} (a : AbortKeeps u v) (b : AbortKeeps v w) : AbortKeeps u w := by
  obtain ⟨⟨_, _, _, _, _, _, rfl⟩, ha⟩ := a
  obtain ⟨⟨_, _, _, _, _, _, rfl⟩, hb⟩ := b
  exact ⟨⟨_, _, _, _, _, _, rfl⟩, fun h => hb (ha h)⟩

theorem OnlyAborts.refl (s : State) : OnlyAborts s s :=
  ⟨⟨_, _, _, _, _, _, _, _, _, _, rfl⟩, fun _ => .refl _, fun _ => ⟨_, rfl⟩, id⟩
theorem OnlyAborts.trans (a : OnlyAborts s t) (b : OnlyAborts t u) : OnlyAborts s u := by
  obtain ⟨⟨_, _, _, _, _, _, _, _, _, _, rfl⟩, ua, pa, ca⟩ := a
  obtain ⟨⟨_, _, _, _, _, _, _, _, _, _, rfl⟩, ub, pb, cb⟩ := b
  refine ⟨⟨_, _, _, _, _, _, _, _, _, _, rfl⟩, fun p => (ua p).trans (ub p), fun x => ?_, fun h => cb (ca h)⟩
  obtain ⟨c, hc⟩ := pa x
  obtain ⟨d, hd⟩ := pb x
  exact ⟨d, by rw [hd, hc]⟩

theorem aborted_abortKeeps {e : LtEnt} {a : BitVec 4} {u v : UnderTile} (h : ∃ b, v = { u with berths := b }) : AbortKeeps u (v.aborted e a) := by
  obtain ⟨b, rfl⟩ := h
  exact ⟨⟨_, _, _, _, _, _, rfl⟩, id⟩

theorem abortTile_abortKeeps (s : State) (e : LtEnt) (a : BitVec 4) (p : Pos) : AbortKeeps (s.ut p) ((s.abortTile e a).ut p) := by
  by_cases h : s.posOf e.lt = some p
  · rw [abortTile_ut a h]
    exact aborted_abortKeeps (berthsReset_onlyBerths s e p p)
  · rw [abortTile_ut_ne a h]
    exact .refl _

theorem tilesAborted_abortKeeps (s : State) (r : StepRec) (p : Pos) : AbortKeeps (s.ut p) ((s.tilesAborted r).ut p) :=
  foldl_rel (R := fun s t : State => AbortKeeps (s.ut p) (t.ut p)) (fun _ => .refl _) .trans (fun s e => abortTile_abortKeeps s e _ p) _ s

theorem clearCanal_abortKeeps (s : State) (base count : Nat) (p : Pos) : AbortKeeps (s.ut p) ((s.clearCanal base count).ut p) := by
  rw [State.clearCanal, State.ut_allUts]
  refine ⟨⟨_, _, _, _, _, _, rfl⟩, fun h => ?_⟩
  have hm : (s.ut p).mirror = [] := h
  show (s.ut p).mirror.filter _ = []
  rw [hm, List.filter_nil]

theorem abortNoted_only (s : State) (r : StepRec) (q : AbortReq) : ∃ k l, s.abortNoted r q = { s with repair := k, lkh := { s.lkh with hwLost := l } } := by
  unfold State.abortNoted
  split
  · obtain ⟨k, hk⟩ := tellUnrepeated_eq s r
    rw [hk]
    exact ⟨k, _, rfl⟩
  · exact ⟨s.repair, _, rfl⟩

theorem beginAbort_onlyAborts (s : State) (r : StepRec) (q : AbortReq) (fin : Option Status) : OnlyAborts s (s.beginAbort r q fin) := by
  obtain ⟨k, l, hn⟩ := abortNoted_only s r q
  obtain ⟨ts, ns, n, ht⟩ : OnlyTilesAndNet (s.abortNoted r q) ((s.abortNoted r q).tilesAborted r) :=
    foldl_rel (R := OnlyTilesAndNet) .refl .trans (fun _ _ => abortTile_onlyTilesAndNet _ _ _) _ _
  refine ⟨?_, fun p => ?_, fun x => ?_, fun h => ?_⟩
  · rw [beginAbort_eq, ht, hn]
    exact ⟨_, _, _, _, _, _, _, _, _, _, rfl⟩
  · have hu : (s.abortNoted r q).ut p = s.ut p := by rw [hn]; rfl
    rw [beginAbort_eq, modStep_ut, sweep_ut, portsAborted_ut, ← hu]
    exact (tilesAborted_abortKeeps _ r p).trans (clearCanal_abortKeeps _ _ _ p)
  · rw [beginAbort_port]
    exact ⟨_, rfl⟩
  · rw [beginAbort_eq, ht, hn]
    show s.canal.filter _ = []
    rw [h, List.filter_nil]

theorem endAborted_onlyAborts (s : State) (st : Status) : OnlyAborts s (s.endAborted st) :=
  ⟨⟨_, _, _, _, _, _, _, _, _, _, rfl⟩, fun _ => .refl _, fun _ => ⟨_, rfl⟩, id⟩

theorem abortAll_onlyAborts (s : State) (c : Cause) (lt : BitVec 7) (fin : Option Status) : OnlyAborts s (s.abortAll c lt fin) :=
  foldl_rel (R := OnlyAborts) .refl .trans (fun s r => beginAbort_onlyAborts s r _ fin) _ s

/-- All steps are aborted and end. -/
theorem abortEnd_onlyAborts (s : State) (c : Cause) (lt : BitVec 7) (fin : Option Status) (st : Status) :
    OnlyAborts s ((s.abortAll c lt fin).endAborted st) := (abortAll_onlyAborts s c lt fin).trans (endAborted_onlyAborts _ st)

end

/-! ### What a request of a frequency step leaves (R360 to R362) -/

/-- A request changes CLK_STEP, the clock blocks of tiles and the Logbook. -/
def ClockAsked (s t : State) : Prop :=
  (∃ ts c l, t = { s with tiles := ts, clocks := { s.clocks with step := c }, log := l }) ∧ (∀ p, ∃ k, t.ut p = { s.ut p with clk := k }) ∧
  ∀ p, t.core p = s.core p

section
variable {s t u : State}

theorem ClockAsked.refl (s : State) : ClockAsked s s := ⟨⟨_, _, _, rfl⟩, fun _ => ⟨_, rfl⟩, fun _ => rfl⟩
theorem ClockAsked.trans (a : ClockAsked s t) (b : ClockAsked t u) : ClockAsked s u := by
  obtain ⟨⟨_, _, _, rfl⟩, ua, ka⟩ := a
  obtain ⟨⟨_, _, _, rfl⟩, ub, kb⟩ := b
  refine ⟨⟨_, _, _, rfl⟩, fun p => ?_, fun p => (kb p).trans (ka p)⟩
  obtain ⟨c, hc⟩ := ua p
  obtain ⟨d, hd⟩ := ub p
  exact ⟨d, by rw [hd, hc]⟩

theorem modStepReg_asked (s : State) (f : ClkStep → ClkStep) : ClockAsked s (s.modStepReg f) := ⟨⟨_, _, _, rfl⟩, fun _ => ⟨_, rfl⟩, fun _ => rfl⟩

theorem fixTicks_asked (s : State) : ClockAsked s s.fixTicks := by
  unfold State.fixTicks
  dsimp only
  split
  · split
    · exact modStepReg_asked _ _
    · exact .refl s
  · refine foldl_rel (R := ClockAsked) .refl .trans (fun s b => ?_) _ s
    split
    · exact modStepReg_asked _ _
    · exact .refl s

theorem allUts_clk_asked (s : State) {f : Pos → UnderTile → UnderTile} (h : ∀ p u, ∃ k, f p u = { u with clk := k }) : ClockAsked s (s.allUts f) := by
  refine ⟨⟨_, _, _, rfl⟩, fun p => ?_, fun p => ?_⟩
  · rw [State.ut_allUts]
    exact h p _
  · simp [State.allUts, State.core_eq]

theorem reqStep_asked (s : State) (b : Bank) (code : BitVec 3) : ClockAsked s (s.reqStep b code) := by
  unfold State.reqStep
  dsimp only
  split
  · exact modStepReg_asked _ _
  split
  · exact (modStepReg_asked _ _).trans (fixTicks_asked _)
  · refine ((modStepReg_asked _ _).trans (allUts_clk_asked _ fun p u => ?_)).trans (fixTicks_asked _)
    split
    · exact ⟨_, rfl⟩
    · exact ⟨_, rfl⟩

theorem chgCanal_asked {f : State → State} (h : ClockAsked s (f s)) (o : Origin) (p : Path) (off : Nat) : ClockAsked s (s.chgCanal o p off f) := by
  unfold State.chgCanal
  dsimp only
  split
  · exact h
  · exact h.trans ⟨⟨_, _, _, rfl⟩, fun _ => ⟨_, rfl⟩, fun _ => rfl⟩

theorem askStep_asked (s : State) (b : Bank) (code : BitVec 3) : ClockAsked s (s.askStep b code) := chgCanal_asked (reqStep_asked s b code) _ _ _
theorem setLinkBit_asked (s : State) (on : Bool) : ClockAsked s (s.setLinkBit on) := (modStepReg_asked s _).trans (fixTicks_asked _)
theorem setLink_asked (s : State) (on : Bool) : ClockAsked s (s.setLink on) :=
  chgCanal_asked (f := fun s => s.setLinkBit on) (setLinkBit_asked s on) _ _ _

theorem ClockAsked.ite {c : Prop} [Decidable c] (a : ClockAsked s t) (b : ClockAsked s u) : ClockAsked s (if c then t else u) := by
  split
  · exact a
  · exact b

theorem askSteps_asked (s : State) (w e : BitVec 3) : ClockAsked s (s.askSteps w e) := by
  have hone (s : State) (b : Bank) (k : BitVec 3) : ClockAsked s (if s.clocks.step.cur b = k && !s.clocks.step.pendOf b then s else s.askStep b k) :=
    .ite (.refl s) (askStep_asked s b k)
  unfold State.askSteps
  extract_lets c both one
  have hl : ClockAsked s (if c.link = both then s else s.setLink both) := .ite (.refl s) (setLink_asked s both)
  exact (hl.trans (hone _ .west w)).trans (hone _ .east e)

theorem lowerBank_asked (s : State) (b : Bank) (both : Bool) : ClockAsked s (s.lowerBank b both) := by
  unfold State.lowerBank
  extract_lets c down k
  split
  · exact .ite (.refl s) (askSteps_asked s _ _)
  split
  · exact .refl s
  · have hl : ClockAsked s (if c.link && !c.pendW && !c.pendE then s.setLink false else s) := .ite (setLink_asked s _) (.refl s)
    exact hl.trans (.ite (askStep_asked _ _ _) (.refl _))

theorem toS4_asked (s : State) (b : Bank) : ClockAsked s (s.toS4 b) := by
  unfold State.toS4
  extract_lets one k
  split
  · exact .ite (.refl s) (askSteps_asked s _ _)
  · have hl : ClockAsked s (if s.clocks.step.link && !s.clocks.step.pendW && !s.clocks.step.pendE then s.setLink false else s) :=
      .ite (setLink_asked s _) (.refl s)
    exact hl.trans (.ite (askStep_asked _ _ _) (.refl _))

end

/-! ### Dark dies (R445) and the moor (R433) -/

section
variable (s : State) (p q : Pos)

theorem closeAll_onlyTilesAndNet : OnlyTilesAndNet s (s.closeAll p) :=
  (foldl_rel (R := OnlyTilesAndNet) .refl .trans (fun _ _ => berthReset_onlyTilesAndNet _ _ _) (List.finRange 64) s).trans (.modTile _ _ _)
theorem goDark_onlyTilesAndNet : OnlyTilesAndNet s (s.goDark p) :=
  ((closeAll_onlyTilesAndNet s p).trans (.modTile _ _ _)).trans (.modTile _ _ _)

/-- The regulator of a die that is DARK. -/
def Regulator.dark (r : Regulator) : Regulator :=
  { r with req := 3, state := 3, pending := false, vsram := false, vcore := false, hold10 := false, boost := none, clamp := none }

theorem closeAll_ut : ∃ b w, (s.closeAll p).ut q = { s.ut q with berths := b, windows := w } := by
  have hall : OnlyBerths s ((List.finRange 64).foldl (fun (s : State) k => s.berthReset p k) s) :=
    foldl_rel (R := OnlyBerths) .refl .trans (fun _ _ => berthReset_onlyBerths _ _ _) _ _
  obtain ⟨b, hb⟩ := hall q
  rw [State.closeAll, State.ut_modUt_ite]
  split
  · exact ⟨b, _, by rw [hb]⟩
  · exact ⟨b, _, hb⟩

theorem goDark_ut_same : ∃ b w, (s.goDark p).ut p = { s.ut p with berths := b, windows := w, pwr := (s.ut p).pwr.dark } := by
  obtain ⟨b, w, h⟩ := closeAll_ut s p p
  refine ⟨b, w, ?_⟩
  rw [State.goDark, State.modPwr, State.ut_modUt, State.ut_modCore, h]
  rfl
theorem goDark_ut_ne (h : q ≠ p) : ∃ b w, (s.goDark p).ut q = { s.ut q with berths := b, windows := w } := by
  obtain ⟨b, w, hu⟩ := closeAll_ut s p q
  exact ⟨b, w, by rw [State.goDark, State.modPwr, State.ut_modUt_ne _ _ _ _ h, State.ut_modCore, hu]⟩

end

/-! ### What thermal actions leave of the readings -/

/-- The temperatures of tiles and stacks, and the states of the ports, are as before. -/
def HeatKept (s t : State) : Prop :=
  (∀ p, (t.ut p).thm = (s.ut p).thm) ∧ t.hbm = s.hbm ∧ ∀ x, (t.port x).state = (s.port x).state ∧ (t.port x).hotOff = (s.port x).hotOff

section
variable {s t u : State}

theorem HeatKept.refl (s : State) : HeatKept s s := ⟨fun _ => rfl, rfl, fun _ => ⟨rfl, rfl⟩⟩
theorem HeatKept.trans (a : HeatKept s t) (b : HeatKept t u) : HeatKept s u := by
  obtain ⟨ua, ha, pa⟩ := a
  obtain ⟨ub, hb, pb⟩ := b
  exact ⟨fun p => (ub p).trans (ua p), hb.trans ha, fun x => ⟨(pb x).1.trans (pa x).1, (pb x).2.trans (pa x).2⟩⟩
theorem HeatKept.ite {c : Prop} [Decidable c] (a : HeatKept s t) (b : HeatKept s u) : HeatKept s (if c then t else u) := by
  split
  · exact a
  · exact b

theorem OnlyAborts.heatKept (h : OnlyAborts s t) : HeatKept s t := by
  obtain ⟨⟨_, _, _, _, _, _, _, _, _, _, rfl⟩, hu, hp, -⟩ := h
  refine ⟨fun p => ?_, rfl, fun x => ?_⟩
  · obtain ⟨⟨_, _, _, _, _, _, h⟩, -⟩ := hu p
    rw [h]
  · obtain ⟨_, h⟩ := hp x
    rw [h]
    exact ⟨rfl, rfl⟩

theorem ClockAsked.heatKept (h : ClockAsked s t) : HeatKept s t := by
  obtain ⟨⟨_, _, _, rfl⟩, hu, -⟩ := h
  refine ⟨fun p => ?_, rfl, fun x => ⟨rfl, rfl⟩⟩
  obtain ⟨_, h⟩ := hu p
  rw [h]

/-- Thermal state, the lock-houses, the Logbook, repair, power, pins, the intake unit and the chart hold no readings. -/
theorem HeatKept.of_eq (h : ∃ a b c d e f g i j, t = { s with
    therm := a, lkh := b, log := c, repair := d, power := e, pins := f, intake := g, chart := i, clocks := j }) : HeatKept s t := by
  obtain ⟨_, _, _, _, _, _, _, _, _, rfl⟩ := h
  exact .refl s

theorem HeatKept.allUts {f : Pos → UnderTile → UnderTile} (h : ∀ p u, (f p u).thm = u.thm) (s : State) : HeatKept s (s.allUts f) :=
  ⟨fun p => by rw [State.ut_allUts, h], State.allUts_hbm s f, fun x => by simp [State.port]⟩

theorem fenceAllDies_heatKept (s : State) : HeatKept s s.fenceAllDies := by
  refine foldl_rel (R := HeatKept) .refl .trans (fun s p => ?_) _ s
  have hf : HeatKept s (s.modFlags p fun f => { f with fencedDie := true }) := by
    refine ⟨fun q => ?_, rfl, fun _ => ⟨rfl, rfl⟩⟩
    rw [State.modFlags, State.ut_modUt_ite]
    split
    · rfl
    · rfl
  refine hf.trans ⟨fun q => ?_, ?_, fun x => ?_⟩
  · by_cases h : q = p
    · subst h
      obtain ⟨b, w, h⟩ := goDark_ut_same (s.modFlags q fun f => { f with fencedDie := true }) q
      rw [h]
    · obtain ⟨b, w, h⟩ := goDark_ut_ne (s.modFlags p fun f => { f with fencedDie := true }) p q h
      rw [h]
  all_goals
    obtain ⟨ts, ns, n, h⟩ := goDark_onlyTilesAndNet (s.modFlags p fun f => { f with fencedDie := true }) p
    rw [h]
  · exact ⟨rfl, rfl⟩

theorem modChart_heatKept (s : State) (f : Chart → Chart) : HeatKept s (s.modChart f) := .of_eq ⟨_, _, _, _, _, _, _, _, _, rfl⟩
theorem chartLoss_heatKept (s : State) : HeatKept s s.chartLoss := by
  unfold State.chartLoss
  extract_lets clr gone s1 keep
  refine (modChart_heatKept s _).trans (HeatKept.allUts ?_ s1)
  exact fun _ _ => rfl

/-- With the ports that serve open to peers' reads, and the panel Moored. -/
def State.mooredNow (s : State) : State := { s with
  ports := s.ports.map fun (x : Port) => if x.state = .up then { x with peerRead := true } else x
  lkh := { s.lkh with pstate := .moored, pending := false }, therm := { s.therm with emerg := false } }
/-- Steps aborted, dies dark, both banks at S5. -/
def State.stopped (s : State) (c : Cause) (lt : BitVec 7) : State :=
  ((s.abortAll c lt (some .stepAborted)).endAborted .stepAborted).fenceAllDies.askSteps 5 5
/-- With the two records of the moor. -/
def State.moorLogged (s : State) (data : List Nat) (old : PanelState) : State :=
  ((s.chartLoss.logRec 0x24 .firmware data).logState false old .moored).alert
theorem moor_of_serving {c : Cause} {lt : BitVec 7} (ho : s.lkh.pstate ≠ .off) (hm : s.lkh.pstate ≠ .moored) :
    ∃ data old, s.moor c lt = (s.stopped c lt).mooredNow.moorLogged data old := by
  unfold State.moor State.stopped
  rw [if_neg ho, if_neg hm]
  exact ⟨_, _, rfl⟩

theorem stopped_heatKept (s : State) (c : Cause) (lt : BitVec 7) : HeatKept s (s.stopped c lt) :=
  ((abortEnd_onlyAborts s c lt _ _).heatKept.trans (fenceAllDies_heatKept _)).trans (askSteps_asked _ _ _).heatKept

theorem mooredNow_ut (s : State) (p : Pos) : s.mooredNow.ut p = s.ut p := rfl
theorem mooredNow_heatKept (s : State) : HeatKept s s.mooredNow := by
  refine ⟨fun p => by rw [mooredNow_ut], by simp only [State.mooredNow], fun x => ?_⟩
  have h : s.mooredNow.port x = if (s.port x).state = .up then { s.port x with peerRead := true } else s.port x := Vector.getElem_map ..
  rw [h]
  split
  · exact ⟨rfl, rfl⟩
  · exact ⟨rfl, rfl⟩

theorem logRec_heatKept (s : State) (n : Nat) (o : Origin) (d : List Nat) : HeatKept s (s.logRec n o d) := .of_eq ⟨_, _, _, _, _, _, _, _, _, rfl⟩
theorem logState_heatKept (s : State) (b : Bool) (x y : PanelState) : HeatKept s (s.logState b x y) := .of_eq ⟨_, _, _, _, _, _, _, _, _, rfl⟩
theorem alert_heatKept (s : State) : HeatKept s s.alert := .of_eq ⟨_, _, _, _, _, _, _, _, _, rfl⟩
theorem modTherm_heatKept (s : State) (f : Thermal → Thermal) : HeatKept s (s.modTherm f) := .of_eq ⟨_, _, _, _, _, _, _, _, _, rfl⟩

theorem moor_heatKept (s : State) (c : Cause) (lt : BitVec 7) : HeatKept s (s.moor c lt) := by
  by_cases ho : s.lkh.pstate = .off
  · rw [State.moor, if_pos ho]
    exact .refl s
  by_cases hm : s.lkh.pstate = .moored
  · rw [State.moor, if_neg ho, if_pos hm]
    exact chartLoss_heatKept s
  · obtain ⟨data, old, h⟩ := moor_of_serving (c := c) (lt := lt) ho hm
    rw [h]
    exact ((((stopped_heatKept s c lt).trans (mooredNow_heatKept _)).trans (chartLoss_heatKept _)).trans (logRec_heatKept _ _ _ _)).trans
      ((logState_heatKept _ _ _ _).trans (alert_heatKept _))

theorem recap_heatKept (s : State) (force : Bool) (n : Nat) : HeatKept s (s.recap force n) := by
  unfold State.recap
  dsimp only
  split
  · exact .of_eq ⟨_, _, _, _, _, _, _, _, _, rfl⟩
  · exact .of_eq ⟨_, _, _, _, _, _, _, _, _, rfl⟩

theorem allSafe_heatKept (s : State) : HeatKept s s.allSafe :=
  .trans (.allUts (fun p u => by split <;> rfl) s) (.of_eq ⟨_, _, _, _, _, _, _, _, _, rfl⟩)

/-- The emergency declared and every tile on SAFE. -/
def State.emergencyOn (s : State) (cause : Nat) : State :=
  (s.modTherm fun k => { k with emerg := true, emergencies := k.emergencies + 1, lastCause := BitVec.ofNat 4 cause, goodSince := none }).allSafe.alert
/-- Every step is marked throttled, aborted and ended. -/
def State.stepsThrottled (s : State) : State :=
  ((s.modIntake fun i => { i with steps := i.steps.map fun r => { r with throttled := true } }).abortAll (.status .stepAborted) 0x7F
    (some .stepAborted)).endAborted .stepAborted
theorem emergency_eq (s : State) (cause : Nat) : s.emergency cause =
    ((((s.emergencyOn cause).stepsThrottled.modTherm fun k => { k with thermalW := (s.emergencyOn cause).power.baseW }).recap true cause).logRec
      0x51 .firmware [1, cause]) := rfl

theorem stepsThrottled_heatKept (s : State) : HeatKept s s.stepsThrottled :=
  .trans (.of_eq ⟨_, _, _, _, _, _, _, _, _, rfl⟩) (abortEnd_onlyAborts _ _ _ _ _).heatKept
theorem emergency_heatKept (s : State) (n : Nat) : HeatKept s (s.emergency n) := by
  rw [emergency_eq]
  have h1 : HeatKept s (s.emergencyOn n) := ((modTherm_heatKept s _).trans (allSafe_heatKept _)).trans (alert_heatKept _)
  exact (((h1.trans (stepsThrottled_heatKept _)).trans (modTherm_heatKept _ _)).trans (recap_heatKept _ _ _)).trans (logRec_heatKept _ _ _ _)

theorem throttleBank_heatKept (s : State) (b : Bank) : HeatKept s (s.throttleBank b) := by
  unfold State.throttleBank
  dsimp only
  exact .ite (.refl s) ((lowerBank_asked s _ _).heatKept.trans (modTherm_heatKept _ _))

theorem tellRepair_heatKept (s : State) (ev : RepairEvent) : HeatKept s (s.tellRepair ev) := by
  obtain ⟨k, h⟩ := tellRepair_eq s ev
  exact .of_eq ⟨_, _, _, _, _, _, _, _, _, h⟩

end

/-! ### A thermal sample (R376 to R382) -/

/-- The stack beside an under-tile, where there is one in service. -/
def State.stackBeside (s : State) (p : Pos) : Option StackN :=
  (stackAt p).bind fun m => if s.hbm[m].present && !s.hbm[m].lost then some m else none
/-- With the reading of the stack beside it. -/
def State.stackSampled (s : State) (p : Pos) (st : Int) : State :=
  match s.stackBeside p with
  | some m => s.modStack m fun k => { k with temp := st, refresh2 := decide (340 ≤ st) }
  | none => s
/-- With the reading of the optical engine beside it, and since when that has been cool. -/
def Port.warmed (q : Port) (opt : Int) (now : Nat) : Port :=
  { q with temp := opt, coolAt := if opt < 300 then some (q.coolAt.getD now) else none }
def State.portSampled (s : State) (p : Pos) (opt : Int) : State :=
  match portAt p with
  | some x =>
    let y := s.modPort x fun q => q.warmed opt s.now
    if 340 ≤ opt && (s.port x).state != .off then (y.portLeave x .off .tileReset).modPort x fun q => { q with hotOff := true } else y
  | none => s
/-- With the readings of the sites. -/
def State.sitesSampled (s : State) (p : Pos) (k : TileTherm) (held : Bool) : State := s.modUt p fun u => { u with thm := { k with heldS4 := held } }

section
variable (s : State) (p : Pos) (st opt : Int)

theorem warmBank_heatKept (b : Bank) : HeatKept s (s.warmBank b) := modTherm_heatKept s _
theorem noteGood_heatKept : HeatKept s s.noteGood := modTherm_heatKept s _

theorem thermalSample_alive {a b : Vector Int 6} {t : Nat} (h : (s.ut p).alive = true) :
    ∃ held v4 v, HeatKept ((s.at_ t).sitesSampled p ((s.ut p).thm.sample a b) held) v4 ∧ HeatKept ((v4.stackSampled p st).portSampled p opt) v ∧
      execThermalSample p a b st opt t s = .next v := by
  have ha : ¬(!((s.at_ t).ut p).alive) = true := by
    rw [show (s.at_ t).ut p = s.ut p from rfl, h]
    decide
  unfold execThermalSample
  extract_lets s0 bk k0 k1 dark held s1 s2 s3 s4 onStack s5 s6 worst s7 s8 s9 cause
  rw [if_neg ha]
  have h4 : HeatKept s1 s4 :=
    .trans (.trans (.ite (logRec_heatKept _ _ _ _) (.refl _)) (.ite (tellRepair_heatKept _ _) (.refl _))) (.ite (toS4_asked _ _).heatKept (.refl _))
  have h9 : HeatKept s6 s9 :=
    .trans (.trans (.ite (warmBank_heatKept _ _) (.refl _)) (.ite (throttleBank_heatKept _ _) (.refl _))) (noteGood_heatKept _)
  have hm : HeatKept s9 (if s9.moorHeat && s9.drawsPower then (if s9.therm.emerg then s9 else s9.emergency cause).moor (.status .stepAborted) 0x7F else s9) :=
    .ite (.trans (.ite (.refl _) (emergency_heatKept _ _)) (moor_heatKept _ _ _)) (.refl _)
  exact ⟨held, s4, _, h4, h9.trans hm, rfl⟩

theorem stackSampled_ut (q : Pos) : (s.stackSampled p st).ut q = s.ut q := by
  unfold State.stackSampled
  split
  · rfl
  · rfl
theorem stackSampled_port (x : PortN) : (s.stackSampled p st).port x = s.port x := by
  unfold State.stackSampled
  split
  · rfl
  · rfl
theorem stackSampled_hbm {m : StackN} (hm : stackAt p = some m) (hp : s.hbm[m].present = true) (hl : s.hbm[m].lost = false) :
    ((s.stackSampled p st).hbm[m]).temp = st ∧ ((s.stackSampled p st).hbm[m]).refresh2 = decide (340 ≤ st) := by
  have h : s.stackBeside p = some m := by
    simp [State.stackBeside, hm]
    exact ⟨hp, hl⟩
  have hs : (s.stackSampled p st).hbm[m] = { s.hbm[m] with temp := st, refresh2 := decide (340 ≤ st) } := by
    unfold State.stackSampled
    rw [h]
    exact vmod_get_same ..
  rw [hs]
  exact ⟨rfl, rfl⟩

theorem portSampled_ut (q : Pos) : (s.portSampled p opt).ut q = s.ut q := by
  unfold State.portSampled
  split
  · dsimp only
    split
    · rfl
    · rfl
  · rfl
theorem portSampled_hbm : (s.portSampled p opt).hbm = s.hbm := by
  unfold State.portSampled
  split
  · dsimp only
    split
    · rfl
    · rfl
  · rfl
theorem portSampled_port {x : PortN} (hx : portAt p = some x) (h : 340 ≤ opt) (ho : (s.port x).state ≠ .off) :
    ((s.portSampled p opt).port x).state = .off ∧ ((s.portSampled p opt).port x).hotOff = true := by
  unfold State.portSampled
  rw [hx]
  dsimp only
  rw [if_pos (by simpa [h] using ho), port_modPort]
  exact ⟨portLeave_state _ x _ _, rfl⟩

theorem sitesSampled_ut (k : TileTherm) (held : Bool) : ((s.sitesSampled p k held).ut p).thm = { k with heldS4 := held } := by
  rw [State.sitesSampled, State.ut_modUt]
theorem sitesSampled_ut_ne (k : TileTherm) (held : Bool) {q : Pos} (h : q ≠ p) : (s.sitesSampled p k held).ut q = s.ut q := State.ut_modUt_ne _ _ _ _ h

end

theorem thermalSamples_hold : Sys2Proof.Rules.ThermalSamples := by
  intro p a b st opt t s
  refine ⟨fun h => ?_, fun h => ?_, fun k => ?_⟩
  · have ha : (!((s.at_ t).ut p).alive) = true := by
      rw [show (s.at_ t).ut p = s.ut p from rfl, h]
      rfl
    exact congrArg Host.Outcome.next (if_pos ha)
  · obtain ⟨held, v4, v, ⟨hu4, hh4, hp4⟩, ⟨huv, hhv, hpv⟩, hv⟩ := thermalSample_alive s p st opt (a := a) (b := b) (t := t) h
    have hthm (q : Pos) : (v.ut q).thm = (((s.at_ t).sitesSampled p ((s.ut p).thm.sample a b) held).ut q).thm := by
      rw [huv, portSampled_ut, stackSampled_ut, hu4]
    have hp := (hthm p).trans (sitesSampled_ut _ _ _ _)
    have hport (x : PortN) : (v4.port x).state = (s.port x).state := (hp4 x).1
    refine ⟨v, hv, by rw [hp], by rw [hp], by rw [hp], fun m hm hpr hl => ?_, fun x hx h340 hoff => ?_, fun q hq => ?_⟩
    · have hs : v4.hbm = s.hbm := hh4
      rw [hhv, portSampled_hbm]
      exact stackSampled_hbm v4 p st hm (by rw [hs, hpr]) (by rw [hs, hl])
    · rw [(hpv x).1, (hpv x).2]
      exact portSampled_port _ p opt hx h340 (by rw [stackSampled_port, hport]; exact hoff)
    · rw [hthm, sitesSampled_ut_ne _ _ _ _ hq]
      rfl
  · unfold TileTherm.sample
    extract_lets g sites hot new
    exact rfl

/-! ### One site (R376 to R378) -/

theorem siteReadings_hold : Sys2Proof.Rules.SiteReadings := by
  intro x a b o
  have hp : plausible a = true ↔ -160 ≤ a ∧ a ≤ 600 := by simp [plausible]
  refine ⟨fun ha hb => ?_, fun ha hb => ?_, fun ha hb => ?_, fun ha hb => ?_, fun ha => ?_, fun ha hb hd hn => ?_, fun ha hb h1 h2 hn => ?_, hp⟩
  · simp [Site.sample, ha, hb]
  · simp [Site.sample, ha, hb]
  · simp [Site.sample, ha, hb]
  · simp [Site.sample, ha, hb]
  · simp [Site.sample, ha]
  · simp [Site.sample, ha, hb, hd, hn]
  · have hn' : 10 ≤ x.close + 1 := by omega
    simp [Site.sample, ha, hb, Int.not_lt.mpr h1, Int.not_lt.mpr h2, hn']

/-! ### What follows the thresholds (R381, R382, R384) -/

/-- The last three conversions lie in the trip range. -/
theorem lastThree_iff (l : List Int) (lo : Int) :
    (¬(l.reverse.take 3).length < 3 ∧ (l.reverse.take 3).any (fun x => decide (x < lo) || decide (600 < x)) = false) ↔
      ∃ r1 r2 r3 rest, l = rest ++ [r1, r2, r3] ∧ ∀ r ∈ [r1, r2, r3], lo ≤ r ∧ r ≤ 600 := by
  constructor
  · rintro ⟨hl, ha⟩
    obtain ⟨r3, r2, r1, rest, hr⟩ : ∃ r3 r2 r1 rest, l.reverse = r3 :: r2 :: r1 :: rest := by
      match h : l.reverse with
      | [] | [_] | [_, _] => simp [h] at hl
      | r3 :: r2 :: r1 :: rest => exact ⟨_, _, _, _, rfl⟩
    rw [hr] at ha
    refine ⟨r1, r2, r3, rest.reverse, by simpa using congrArg List.reverse hr, ?_⟩
    simp at ha ⊢
    omega
  · rintro ⟨r1, r2, r3, rest, rfl, hr⟩
    simp at hr ⊢
    omega

theorem opticsReenable_of_not {x : PortN} {t : Nat} {s : State} (h : (s.port x).hotOff = false ∨ (s.port x).coolAt = none) :
    execOpticsReenable x t s = .next (s.at_ t) := by
  have hs : (s.at_ t).port x = s.port x := rfl
  unfold execOpticsReenable
  dsimp only
  rw [hs]
  split
  · next c h1 h2 =>
    rcases h with h | h
    · rw [h] at h1; cases h1
    · rw [h] at h2; cases h2
  · rfl

theorem thermalActions_hold : Sys2Proof.Rules.ThermalActions := by
  intro b x p ofStack l t s u cool trips
  have hc : cool ↔ ¬(u.therm.emerg || u.therm.coolTicks[bankIx b] < 8 || u.now < u.therm.hotAt[bankIx b] + 100000000 || u.clocks.step.pendOf b ||
      !u.canRaise b) = true := by
    show (s.therm.emerg = false ∧ 8 ≤ s.therm.coolTicks[bankIx b] ∧ s.therm.hotAt[bankIx b] + 100000000 ≤ u.now ∧ s.clocks.step.pendOf b = false ∧
      s.canRaise b = true) ↔ ¬(s.therm.emerg || s.therm.coolTicks[bankIx b] < 8 || u.now < s.therm.hotAt[bankIx b] + 100000000 || s.clocks.step.pendOf b ||
      !s.canRaise b) = true
    simp [and_assoc]
  have ht : trips ↔ ¬((l.reverse.take 3).length < 3 || !u.reaches[reachOf p].on ||
      (l.reverse.take 3).any (fun x => decide (x < (if ofStack then (420 : Int) else 460)) || decide (600 < x)) || (ofStack && (stackAt p).isNone)) = true := by
    show ((∃ r1 r2 r3 rest, _) ∧ _) ↔ ¬(_ || !s.reaches[reachOf p].on || _ || _) = true
    rw [← lastThree_iff]
    generalize (l.reverse.take 3).any (fun x => decide (x < (if ofStack then (420 : Int) else 460)) || decide (600 < x)) = far
    cases ofStack
    · simp [and_assoc, and_comm]
    · simp [and_assoc, and_left_comm, and_comm]
  refine ⟨fun h => ?_, fun h => ?_, fun c hot hcool => ⟨fun hn => ?_, fun hn => ?_⟩, fun h => opticsReenable_of_not h, fun h => ?_, fun h => ?_⟩
  · exact congrArg Host.Outcome.next (if_neg (hc.1 h))
  · exact congrArg Host.Outcome.next (if_pos (by_contra fun hh => h (hc.2 hh)))
  · show execOpticsReenable x t s = _
    unfold execOpticsReenable
    dsimp only
    rw [show (s.at_ t).port x = s.port x from rfl, hot, hcool]
    exact congrArg Host.Outcome.next (if_neg (Nat.not_lt.mpr hn))
  · show execOpticsReenable x t s = _
    unfold execOpticsReenable
    dsimp only
    rw [show (s.at_ t).port x = s.port x from rfl, hot, hcool]
    exact congrArg Host.Outcome.next (if_pos hn)
  · exact congrArg Host.Outcome.next (if_neg (ht.1 h))
  · exact congrArg Host.Outcome.next (if_pos (by_contra fun hh => h (ht.2 hh)))

/-! ### Coolant (R385 to R387, R392) -/

theorem coolant_holds : Sys2Proof.Rules.Coolant := by
  intro i o w t n s u
  refine ⟨⟨_, rfl, rfl, rfl, ?_, rfl, rfl, fun h => ?_, fun h => ?_, fun h => ?_, rfl, rfl, rfl⟩, rfl, fun h => ?_, fun h => ?_, rfl⟩
  · show (decide (i < 0) || decide (10000 < i) || (decide (o < 0) || decide (10000 < o))) = true ↔ _
    simp [or_assoc]
  · exact if_pos h
  · exact if_neg (Int.not_lt.mpr h)
  · have hb : (decide (i < 0) || decide (10000 < i) || (decide (o < 0) || decide (10000 < o))) = true := h
    show (!(decide (i < 0) || decide (10000 < i) || (decide (o < 0) || decide (10000 < o))) && _) = false
    rw [hb]
    rfl
  · exact congrArg Host.Outcome.next (if_pos h)
  · exact congrArg Host.Outcome.next (if_neg (Nat.not_lt.mpr h))

/-- Settles O47: a sample's site readings are what its later actions leave, the stack and the engine beside it get theirs, and the thresholds
and the coolant are decided clause by clause. -/
theorem heat : Obligations.Heat := ⟨thermalSamples_hold, siteReadings_hold, thermalActions_hold, coolant_holds⟩

end Sys2Proof.Machine
end

section
/-! PROOFS. Current limits, power-on admission and the power states of a die (O44). -/

namespace Sys2Proof.Machine

open Sys2Proof

/-! ### Rails: what a write to a regulator or to a reach leaves -/

section
variable (s : State) (p q : Pos) (r x : ReachN)

theorem modPwr_pwr (f : Regulator → Regulator) : ((s.modPwr p f).ut p).pwr = f (s.ut p).pwr := by rw [State.modPwr, State.ut_modUt]
theorem modPwr_pwr_ne (f : Regulator → Regulator) (h : q ≠ p) : (s.modPwr p f).ut q = s.ut q := State.ut_modUt_ne _ _ _ _ h
theorem modPwr_tile_ne (f : Regulator → Regulator) (h : q ≠ p) : (s.modPwr p f).tile q = s.tile q := vmod_get_ne _ _ h
theorem modReach_same (f : Reach → Reach) : (s.modReach r f).reaches[r] = f s.reaches[r] := vmod_get_same ..
theorem modReach_ne (f : Reach → Reach) (h : x ≠ r) : (s.modReach r f).reaches[x] = s.reaches[x] := vmod_get_ne _ _ h

/-! ### Current limits (R335, R336) -/

/-- A reach under its current limit, or released from it. -/
def Reach.limited (x : Reach) (on : Bool) : Reach :=
  { x with inLimit := on, limitEvents := if on && !x.inLimit then x.limitEvents + 1 else x.limitEvents }
/-- The regulators of these positions hold VCORE current, or hold it no more. -/
def State.holdTiles (s : State) (on : Bool) (l : List Pos) : State := l.foldl (fun (s : State) p => s.modPwr p fun k => { k with hold10 := on }) s

theorem holdReach_eq (on : Bool) : s.holdReach r on = (s.modReach r fun x => x.limited on).holdTiles on (reachTiles r) := rfl

variable (on : Bool) (l : List Pos)

theorem holdTiles_only : ∃ ts, s.holdTiles on l = { s with tiles := ts } :=
  foldl_rel (R := fun s t => ∃ ts, t = { s with tiles := ts }) (fun _ => ⟨_, rfl⟩)
    (fun ⟨_, a⟩ ⟨_, b⟩ => ⟨_, b.trans (by rw [a])⟩) (fun _ _ => ⟨_, rfl⟩) l s
theorem holdTiles_reaches : (s.holdTiles on l).reaches = s.reaches := by
  obtain ⟨ts, h⟩ := holdTiles_only s on l
  rw [h]
theorem holdTiles_tile (h : p ∉ l) : (s.holdTiles on l).tile p = s.tile p :=
  foldl_reads_same (g := fun t : State => t.tile p) (fun t q hq => modPwr_tile_ne t q p _ (fun e => h (e ▸ hq))) s
/-- What is held so stays so. -/
theorem holdOne_keeps (t : State) (hp : (t.ut p).pwr.hold10 = on) : ((t.modPwr q fun k => { k with hold10 := on }).ut p).pwr.hold10 = on := by
  by_cases h : p = q
  · rw [h, modPwr_pwr]
  · rw [modPwr_pwr_ne t q p _ h, hp]
theorem holdTiles_keeps (hp : (s.ut p).pwr.hold10 = on) : ((s.holdTiles on l).ut p).pwr.hold10 = on :=
  List.foldlRecOn (motive := fun t : State => (t.ut p).pwr.hold10 = on) l _ hp fun t ht q _ => holdOne_keeps p q on t ht
theorem holdTiles_held (h : p ∈ l) : ((s.holdTiles on l).ut p).pwr.hold10 = on :=
  foldl_of_mem (P := fun _ => True) (Q := fun t : State => (t.ut p).pwr.hold10 = on) h (fun t _ => by rw [modPwr_pwr])
    (fun _ _ _ _ => trivial) (fun t q _ ht => holdOne_keeps p q on t ht) trivial

theorem holdReach_same : (s.holdReach r on).reaches[r] = s.reaches[r].limited on := by
  rw [holdReach_eq, holdTiles_reaches]
  exact modReach_same s r _
theorem holdReach_ne (h : x ≠ r) : (s.holdReach r on).reaches[x] = s.reaches[x] := by
  rw [holdReach_eq, holdTiles_reaches, modReach_ne s r x _ h]
theorem holdReach_iout : (s.holdReach r on).reaches[x].iout = s.reaches[x].iout := by
  by_cases h : x = r
  · rw [h, holdReach_same]
    rfl
  · rw [holdReach_ne s r x on h]
theorem holdReach_held (h : p ∈ reachTiles r) : ((s.holdReach r on).ut p).pwr.hold10 = on := holdTiles_held _ p on _ h
theorem holdReach_keeps (hp : (s.ut p).pwr.hold10 = on) : ((s.holdReach r on).ut p).pwr.hold10 = on := holdTiles_keeps _ p on _ hp
theorem holdReach_only : ∃ rs ts, s.holdReach r on = { s with reaches := rs, tiles := ts } := by
  obtain ⟨ts, h⟩ := holdTiles_only (s.modReach r fun x => x.limited on) on (reachTiles r)
  exact ⟨_, ts, h⟩

/-- The input hold's end: a reach below 115 A is released. -/
def State.releaseCool (s : State) (l : List ReachN) : State :=
  l.foldl (fun (s : State) r => if (s.reaches[r].iout.toNat) < 460 then s.holdReach r false else s) s
/-- The input hold. -/
def State.holdAll (s : State) (l : List ReachN) : State := l.foldl (fun (s : State) r => s.holdReach r true) s

variable (rs : List ReachN)

theorem holdAll_only : ∃ xs ts, s.holdAll rs = { s with reaches := xs, tiles := ts } :=
  foldl_rel (R := fun s t => ∃ xs ts, t = { s with reaches := xs, tiles := ts }) (fun _ => ⟨_, _, rfl⟩)
    (fun ⟨_, _, a⟩ ⟨_, _, b⟩ => ⟨_, _, b.trans (by rw [a])⟩) (fun s r => holdReach_only s r true) rs s
theorem releaseCool_only : ∃ xs ts, s.releaseCool rs = { s with reaches := xs, tiles := ts } :=
  foldl_rel (R := fun s t => ∃ xs ts, t = { s with reaches := xs, tiles := ts }) (fun _ => ⟨_, _, rfl⟩)
    (fun ⟨_, _, a⟩ ⟨_, _, b⟩ => ⟨_, _, b.trans (by rw [a])⟩)
    (fun s r => by split; exacts [holdReach_only s r false, ⟨_, _, rfl⟩]) rs s
theorem holdAll_held (h : reachOf p ∈ rs) : ((s.holdAll rs).ut p).pwr.hold10 = true :=
  foldl_of_mem (f := fun (t : State) r => t.holdReach r true) (P := fun _ => True) (Q := fun t : State => (t.ut p).pwr.hold10 = true) h
    (fun t _ => holdReach_held t p (reachOf p) true (mem_reachTiles_reachOf p)) (fun _ _ _ _ => trivial) (fun t y _ ht => holdReach_keeps t p y true ht) trivial
theorem releaseCool_held (hr : r ∈ rs) (h : s.reaches[r].iout.toNat < 460) (hp : p ∈ reachTiles r) : ((s.releaseCool rs).ut p).pwr.hold10 = false := by
  refine foldl_of_mem (P := fun t : State => t.reaches[r].iout.toNat < 460) (Q := fun t : State => (t.ut p).pwr.hold10 = false) hr
    (fun t ht => ?_) (fun t y _ ht => ?_) (fun t y _ ht => ?_) h
  · rw [if_pos ht]
    exact holdReach_held t p r false hp
  · split
    · rw [holdReach_iout]
      exact ht
    · exact ht
  · split
    · exact holdReach_keeps t p y false ht
    · exact ht

end

theorem currentLimits_hold : Sys2Proof.Rules.CurrentLimits := by
  intro r q n s
  have hsame : (s.sampleReach r q).reaches[r] = { s.reaches[r] with iout := BitVec.ofNat 10 (min q 1023) } := modReach_same s r _
  refine ⟨?_, ?_, ?_⟩
  · by_cases hq : 500 ≤ q
    · have he : exec (.reachCurrentLimit r q) s = .next ((s.sampleReach r q).holdReach r true) := congrArg Host.Outcome.next (if_pos hq)
      have hr := (holdReach_same (s.sampleReach r q) r true).trans (by rw [hsame])
      refine ⟨_, he, by rw [hr]; rfl, fun _ => ⟨by rw [hr]; rfl, fun hl => ?_, fun p hp => holdReach_held _ p r true hp⟩,
        fun h => absurd hq (Nat.not_le.mpr h), fun p hp => holdTiles_tile _ p true _ hp, fun x hx => ?_⟩
      · rw [hr]
        simp only [Reach.limited, hl]
        rfl
      · rw [holdReach_ne _ r x true hx]
        exact modReach_ne s r x _ hx
    · have he : exec (.reachCurrentLimit r q) s = .next (s.sampleReach r q) := congrArg Host.Outcome.next (if_neg hq)
      exact ⟨_, he, by rw [hsame], fun h => absurd h hq, fun _ => rfl, fun _ _ => rfl, fun x hx => modReach_ne s r x _ hx⟩
  · by_cases hq : q < 460 ∧ s.power.inHold = false
    · have he : exec (.reachLimitRelease r q) s = .next ((s.sampleReach r q).holdReach r false) :=
        congrArg Host.Outcome.next (if_pos (by simp [hq]))
      have hr := (holdReach_same (s.sampleReach r q) r false).trans (by rw [hsame])
      exact ⟨_, he, by rw [hr]; rfl, fun _ _ => ⟨by rw [hr]; rfl, fun p hp => holdReach_held _ p r false hp⟩, fun h => by simp [hq] at h; omega⟩
    · have he : exec (.reachLimitRelease r q) s = .next (s.sampleReach r q) :=
        congrArg Host.Outcome.next (if_neg (by simpa using hq))
      exact ⟨_, he, by rw [hsame], fun h1 h2 => absurd ⟨h1, h2⟩ hq, fun _ => ⟨rfl, by rw [hsame]⟩⟩
  · generalize hu : ({ s with power := { s.power with iin := BitVec.ofNat 16 (min n 65535), inHold := decide (3900 < n) } } : State) = u
    have he : exec (.inputCurrentHold n) s = .next (if decide (3900 < n) then u.holdAll (List.finRange 24) else
        if s.power.inHold then u.releaseCool (List.finRange 24) else u) := by
      subst hu
      rfl
    have hp : u.power = { s.power with iin := BitVec.ofNat 16 (min n 65535), inHold := decide (3900 < n) } := by rw [← hu]
    have hn : u.net = s.net := by rw [← hu]
    have ht : u.tiles = s.tiles := by rw [← hu]
    have hr : u.reaches = s.reaches := by rw [← hu]
    refine ⟨_, he, ?_⟩
    by_cases h : 3900 < n
    · obtain ⟨rs, ts, ho⟩ := holdAll_only u (List.finRange 24)
      rw [if_pos (decide_eq_true h)]
      exact ⟨by rw [ho, hp], by rw [ho, hp], fun _ p => holdAll_held u p _ (List.mem_finRange _), fun h' => absurd h (Nat.not_lt.mpr h'), fun h' => absurd h (Nat.not_lt.mpr h'),
        by rw [ho, hn]⟩
    rw [if_neg (by simpa using h)]
    by_cases hh : s.power.inHold = true
    · obtain ⟨rs, ts, ho⟩ := releaseCool_only u (List.finRange 24)
      rw [if_pos hh]
      exact ⟨by rw [ho, hp], by rw [ho, hp], fun h' => absurd h' h, fun _ h' => absurd (hh.symm.trans h') (by decide),
        fun _ _ hi p hm => releaseCool_held u p r _ (List.mem_finRange r) (by rw [hr]; exact hi) hm, by rw [ho, hn]⟩
    · rw [if_neg hh]
      exact ⟨by rw [hp], by rw [hp], fun h' => absurd h' h, fun _ _ => ht, fun _ h' => absurd h' hh, hn⟩

/-! ### Power-on (R338, R344 to R346) -/

/-- What a rail that is good leaves (R338, R347). -/
def State.railGood (v : State) (p : Pos) : Rail → State
  | .vnet => v.modUt p fun u => { u with pwr := { u.pwr with vnet := true }, clk := { u.clk with exp := true, running := true, expRuns := true } }
  | .vsram => (v.modPwr p fun r => { r with vsram := true }).askRail p .vcore
  | .vcore => (v.modPwr p fun r => { r with vcore := true }).modSpd p fun d => { d with zeroing := true }

theorem powerOn_holds : Sys2Proof.Rules.PowerOn := by
  intro p rail r t n s u may
  have hmay : may ↔ (match rail with
      | .vnet => u.reaches[reachOf p].pg && !(u.ut p).flags.lost
      | .vsram => u.dieUsable p
      | .vcore => u.dieUsable p && (u.ut p).pwr.vsram) = true := by
    cases rail
    · show (s.reaches[reachOf p].pg = true ∧ (s.ut p).flags.lost = false) ↔ (s.reaches[reachOf p].pg && !(s.ut p).flags.lost) = true
      simp
    · exact Iff.rfl
    · show (s.dieUsable p = true ∧ (s.ut p).pwr.vsram = true) ↔ (s.dieUsable p && (s.ut p).pwr.vsram) = true
      simp
  refine ⟨fun h => congrArg Host.Outcome.next (if_pos (hmay.1 h)), fun h => congrArg Host.Outcome.next (if_neg fun hh => h (hmay.2 hh)),
    fun h => ⟨?_, ?_⟩, fun q rest hq => ?_, fun e he => ?_⟩
  · show execPowerOnAdmit r n t s = _
    unfold execPowerOnAdmit
    dsimp only
    rw [show (s.at_ t).reaches[r].queue = [] from h]
  · show execPowerOnTimeout r t s = _
    unfold execPowerOnTimeout
    dsimp only
    rw [show (s.at_ t).reaches[r].queue = [] from h]
  · have hadm : exec (.powerOnAdmit r n t) s = .next (if n + 4 * (s.reaches[r].held.foldl (fun n e => n + e.2) 0) + 4 * s.reaches[r].allowance q.rail ≤
        4 * s.reaches[r].limitA.toNat then u.modReach r fun x => { x with
          queue := rest, held := x.held ++ [({ q with at_ := u.now }, s.reaches[r].allowance q.rail)] } else u) := by
      show execPowerOnAdmit r n t s = _
      unfold execPowerOnAdmit
      dsimp only
      rw [show (s.at_ t).reaches[r].queue = q :: rest from hq]
      rfl
    intro late
    have htime : exec (.powerOnTimeout r t) s = .next (if t < q.at_ + 10000000 then u else
        if late.repair.subst.any fun x => x.spare == q.pos then late.spareFailedFree q.pos else late) := by
      show execPowerOnTimeout r t s = _
      unfold execPowerOnTimeout
      dsimp only
      rw [show (s.at_ t).reaches[r].queue = q :: rest from hq]
    have hany : (late.repair.subst.any fun x => x.spare == q.pos) = true ↔ ∃ x ∈ s.repair.subst, x.spare = q.pos := by
      show (s.repair.subst.any fun x => x.spare == q.pos) = true ↔ _
      simp
    clear_value late
    rw [hadm, htime]
    refine ⟨fun h => by rw [if_pos h], fun h => by rw [if_neg (by omega)], fun h => by rw [if_pos h], fun h hs => ?_, fun h hs => ?_⟩
    · rw [if_neg (by omega), if_neg fun ha => ?_]
      obtain ⟨x, hx, hxs⟩ := hany.1 ha
      exact hs x hx hxs
    · rw [if_neg (by omega), if_pos (hany.2 hs)]
  · intro v
    have hdone : exec (.powerOnComplete p rail t) s = .next (if t < e.1.at_ + railNs rail then u else v.railGood p rail) := by
      show execPowerOnComplete p rail t s = _
      unfold execPowerOnComplete
      dsimp only
      rw [show (s.at_ t).reaches[reachOf p].held.find? (fun e => e.1.pos == p && e.1.rail == rail) = some e from he]
      cases rail <;> rfl
    clear_value v
    rw [hdone]
    refine ⟨fun h => by rw [if_pos h], fun h => ?_⟩
    rw [if_neg (by omega)]
    exact ⟨fun hr => hr ▸ rfl, fun hr => hr ▸ rfl, fun hr => hr ▸ rfl⟩

/-! ### The power states of a die (Table 12.7) -/

section
variable {s : State} {p : Pos}

theorem powerReq_ignored {v : BitVec 2} (h : (s.ut p).pwr.pending = true ∨ s.mayPlace p v = false) : s.powerReq p v = s := by
  unfold State.powerReq
  refine if_pos ?_
  rcases h with h | h <;> simp [h]

/-- A request for a state that firmware may place the die in. -/
def State.powerAsked (s : State) (p : Pos) (v : BitVec 2) : State := s.modPwr p fun k => { k with req := v }

theorem powerReq_idle (hp : (s.ut p).pwr.pending = false) (hm : s.mayPlace p 1 = true) : s.powerReq p 1 =
    if s.dieUsable p = false then s.powerAsked p 1
    else if (s.ut p).pwr.state = 2 then ((s.powerAsked p 1).modPwr p fun k => { k with pending := true }).askRail p .vcore
    else if (s.ut p).pwr.state = 3 then ((s.powerAsked p 1).modPwr p fun k => { k with pending := true }).askRail p .vsram
    else s.powerAsked p 1 := by
  unfold State.powerReq
  dsimp only
  rw [if_neg (by rw [hp, hm]; decide), if_pos rfl]
  cases s.dieUsable p
  · rfl
  · rfl
theorem powerReq_retain (hp : (s.ut p).pwr.pending = false) (hm : s.mayPlace p 2 = true) : s.powerReq p 2 =
    if (s.ut p).pwr.state = 1 then ((s.powerAsked p 2).modCore p Core.retain).modPwr p fun k => { k with state := 2, vcore := false }
    else s.powerAsked p 2 := by
  unfold State.powerReq
  dsimp only
  rw [if_neg (by rw [hp, hm]; decide), if_neg (by decide), if_pos rfl]
  rfl
theorem powerReq_dark (hp : (s.ut p).pwr.pending = false) (hm : s.mayPlace p 3 = true) : s.powerReq p 3 =
    if (s.ut p).pwr.state = 1 ∨ (s.ut p).pwr.state = 2 then (s.powerAsked p 3).goDark p else s.powerAsked p 3 := by
  unfold State.powerReq
  dsimp only
  rw [if_neg (by rw [hp, hm]; decide), if_neg (by decide), if_neg (by decide)]
  simp only [Bool.or_eq_true, decide_eq_true_eq]
  rfl

theorem goDark_core (s : State) (p : Pos) : (s.goDark p).core p = ((s.closeAll p).core p).clearAll := by
  rw [State.goDark, State.modPwr, State.core_modUt, State.core_modCore]
theorem goDark_state (s : State) (p : Pos) : ((s.goDark p).ut p).pwr.state = 3 := by
  obtain ⟨_, _, h⟩ := goDark_ut_same s p
  rw [h]
  rfl

theorem mem_retain (c : Core) (e) : e ∈ c.retain.spd.mem ↔ e ∈ c.spd.mem ∧ c.spd.resident e.1 = true := List.mem_filter
theorem clearAll_leaves (c : Core) : c.clearAll.spd.mem = [] ∧ c.clearAll.img = {} ∧ c.clearAll.main = {} ∧ c.clearAll.vMain = Vector.replicate 64 0 ∧
    c.clearAll.desc = c.desc := ⟨rfl, rfl, rfl, rfl, rfl⟩

end

theorem powerStates_hold : Sys2Proof.Rules.PowerStates := by
  intro p t s u k req
  refine ⟨fun h => congrArg Host.Outcome.next (powerReq_ignored (s := u) h), fun h => congrArg Host.Outcome.next (powerReq_ignored (s := u) h),
    fun h => congrArg Host.Outcome.next (powerReq_ignored (s := u) h), fun hp hm => ?_, fun hp hm => ?_, fun hp hm => ?_,
    fun v => ⟨goDark_core v p, goDark_state v p⟩, fun c => ?_, ?_⟩
  · have he : exec (.pwrReqIdle p t) s = .next _ := congrArg Host.Outcome.next (powerReq_idle (s := u) hp hm)
    rw [he]
    refine ⟨fun h2 hu => ?_, fun h3 hu => ?_, fun h => ?_⟩
    · rw [if_neg (by rw [show u.dieUsable p = true from hu]; decide), if_pos (c := (u.ut p).pwr.state = 2) h2]
      rfl
    · rw [if_neg (by rw [show u.dieUsable p = true from hu]; decide), if_neg (by rw [show (u.ut p).pwr.state = 3 from h3]; decide), if_pos (c := (u.ut p).pwr.state = 3) h3]
      rfl
    · rcases h with h | ⟨h2, h3⟩
      · rw [if_pos (c := u.dieUsable p = false) h]
        rfl
      · rw [if_neg (c := (u.ut p).pwr.state = 2) h2, if_neg (c := (u.ut p).pwr.state = 3) h3, ite_self]
        rfl
  · have he : exec (.pwrReqRetain p t) s = .next _ := congrArg Host.Outcome.next (powerReq_retain (s := u) hp hm)
    rw [he]
    exact ⟨fun h => congrArg Host.Outcome.next (if_pos h), fun h => congrArg Host.Outcome.next (if_neg h)⟩
  · have he : exec (.pwrReqDark p t) s = .next _ := congrArg Host.Outcome.next (powerReq_dark (s := u) hp hm)
    rw [he]
    exact ⟨fun h => congrArg Host.Outcome.next (if_pos h), fun h1 h2 => congrArg Host.Outcome.next (if_neg fun h => h.elim h1 h2)⟩
  · obtain ⟨h1, h2, h3, h4, h5⟩ := clearAll_leaves c
    exact ⟨h1, h2, h3, h4, h5, fun e h => (mem_retain c e).1 h, fun e h hr => (mem_retain c e).2 ⟨h, hr⟩, rfl⟩
  · have he : exec (.coreIdleEntry p t) s = .next (if (decide ((s.ut p).pwr.state = 0) && (match s.stepAt p with | some r => r.phase != .running | none => true) &&
        s.coreQuiet p) = true then u.modPwr p fun k => { k with state := 1 } else u) := by
      rfl
    have hended : (match s.stepAt p with | some r => r.phase != .running | none => true) = true ↔ ∀ r, s.stepAt p = some r → r.phase ≠ .running := by
      cases s.stepAt p <;> simp
    rw [he]
    refine ⟨fun h0 hr hc => by rw [if_pos (by rw [hended.2 hr, hc]; simpa using h0)], fun h => ?_⟩
    rw [if_neg fun hh => ?_]
    rw [Bool.and_eq_true, Bool.and_eq_true, hended, decide_eq_true_eq] at hh
    obtain ⟨⟨h0, hr⟩, hc⟩ := hh
    rcases h with h | ⟨r, hs, hrun⟩ | h
    · exact h h0
    · exact hr r hs hrun
    · rw [hc] at h
      cases h

/-- Settles O44: the regulators of a reach follow its limit tile by tile, and the admission of rails and the power states are decided case by
case. -/
theorem rails : Obligations.Rails := ⟨currentLimits_hold, powerOn_holds, powerStates_hold⟩

end Sys2Proof.Machine
end

section
/-! PROOFS. Faults of rails, reaches and supplies, and the cap check (O45). -/

namespace Sys2Proof.Machine

open Sys2Proof

/-! ### A lost position (R341) -/

/-- Phase by phase: the tile of the position, its seams, its stack and its port. -/
def State.positionGone (s : State) (p : Pos) : State :=
  ((s.voidSender p .tileFenced).dropAt p).modTile p fun t => { t with
    core := t.core.clearAll
    ut := { t.ut with
      stg := { t.ut.stg with lines := [], errList := [] }, cht := { t.ut.cht with ents := [], pendFill := [] }
      pwr := { t.ut.pwr with req := 3, state := 3, pending := false, vnet := false, vsram := false, vcore := false, hold10 := false }
      clk := { t.ut.clk with running := false, expRuns := false, dp0 := false, dp1 := false, exp := false, locked := false }
      flags := { t.ut.flags with lost := true, fencedDie := true } } }
/-- The seam over which p sends in a direction. -/
def State.dropSeam (p : Pos) (s : State) (d : Dir) : State := match neighbour p d with
  | none => s
  | some q => s.modUt q fun u => { u with xing := vmod u.xing (dirNum (opposite d)) fun x => { x with mode := 0, dropped := true } }
def State.dropSeams (s : State) (p : Pos) : State := [Dir.n, Dir.e, Dir.s, Dir.w].foldl (State.dropSeam p) s
def State.stackGone (s : State) (p : Pos) : State := match stackAt p with | some m => s.loseStack m | none => s
def State.portGone (s : State) (p : Pos) : State := match portAt p with
  | some x => s.portLeave x .off .partnerLost
  | none => s

section
variable (s : State) (p q : Pos)

theorem losePos_eq (h : (s.ut p).flags.lost = false) : s.losePos p = (((s.positionGone p).dropSeams p).stackGone p).portGone p := by
  unfold State.losePos
  rw [if_neg (by rw [h]; decide)]
  rfl

theorem positionGone_ut : ((s.positionGone p).ut p).flags.lost = true ∧ ((s.positionGone p).ut p).pwr.vnet = false := by
  have h (t : State) (f : Tile → Tile) : (t.modTile p f).ut p = (f (t.tile p)).ut := congrArg Tile.ut (vmod_get_same ..)
  rw [State.positionGone, h]
  exact ⟨rfl, rfl⟩

/-- A seam's drop changes crossings only, and none that was dropped comes back. -/
theorem dropSeam_ut (d : Dir) : ∃ x, (State.dropSeam p s d).ut q = { s.ut q with xing := x } ∧
    ∀ i : Fin 4, (s.ut q).xing[i].dropped = true → x[i].dropped = true := by
  unfold State.dropSeam
  split
  · exact ⟨_, rfl, fun _ => id⟩
  · next y _ =>
    rw [State.ut_modUt_ite]
    split
    · refine ⟨_, rfl, fun i hi => ?_⟩
      by_cases h : i = dirNum (opposite d)
      · subst h
        exact congrArg Xing.dropped (vmod_get_same ..)
      · exact (congrArg Xing.dropped (vmod_get_ne _ _ h)).trans hi
    · exact ⟨_, rfl, fun _ => id⟩
theorem dropSeam_dropped {d : Dir} (h : neighbour p d = some q) : ((State.dropSeam p s d).ut q).xing[dirNum (opposite d)].dropped = true := by
  unfold State.dropSeam
  rw [h]
  dsimp only
  rw [State.ut_modUt]
  exact congrArg Xing.dropped (vmod_get_same ..)

theorem dropSeams_ut : ∃ x, (s.dropSeams p).ut q = { s.ut q with xing := x } :=
  foldl_rel (R := fun s t : State => ∃ x, t.ut q = { s.ut q with xing := x }) (fun _ => ⟨_, rfl⟩)
    (fun ⟨_, a⟩ ⟨_, b⟩ => ⟨_, b.trans (by rw [a])⟩) (fun s d => let ⟨x, h, _⟩ := dropSeam_ut s p q d; ⟨x, h⟩) _ s
theorem dropSeams_dropped {d : Dir} (h : neighbour p d = some q) : ((s.dropSeams p).ut q).xing[dirNum (opposite d)].dropped = true := by
  have hd : d ∈ [Dir.n, Dir.e, Dir.s, Dir.w] := by cases d <;> decide
  refine foldl_of_mem (f := State.dropSeam p) (P := fun _ => True) (Q := fun t : State => (t.ut q).xing[dirNum (opposite d)].dropped = true) hd
    (fun t _ => dropSeam_dropped t p q h) (fun _ _ _ _ => trivial) (fun t c _ ht => ?_) trivial
  obtain ⟨x, hx, hk⟩ := dropSeam_ut t p q c
  rw [hx]
  exact hk _ ht

theorem stackGone_ut : (s.stackGone p).ut q = s.ut q := by
  unfold State.stackGone
  split
  · rfl
  · rfl
theorem stackGone_hbm {m : StackN} (h : stackAt p = some m) : (s.stackGone p).hbm[m].lost = true ∧ (s.stackGone p).hbm[m].mem = [] := by
  unfold State.stackGone
  rw [h]
  have hm : (s.loseStack m).hbm[m] = { s.hbm[m] with mem := [], single := [], bad := [], lost := true, selfRefresh := false, retraining := [] } :=
    vmod_get_same ..
  rw [hm]
  exact ⟨rfl, rfl⟩
theorem portGone_ut : (s.portGone p).ut q = s.ut q := by
  unfold State.portGone
  split
  · rfl
  · rfl
theorem portGone_hbm : (s.portGone p).hbm = s.hbm := by
  unfold State.portGone
  split
  · rfl
  · rfl

theorem losePos_leaves (h : (s.ut p).flags.lost = false) : ((s.losePos p).ut p).flags.lost = true ∧ ((s.losePos p).ut p).pwr.vnet = false ∧
    (∀ d q, neighbour p d = some q → ((s.losePos p).ut q).xing[dirNum (opposite d)].dropped = true) ∧
    (∀ m, stackAt p = some m → (s.losePos p).hbm[m].lost = true ∧ (s.losePos p).hbm[m].mem = []) := by
  have hu (q : Pos) : (s.losePos p).ut q = ((s.positionGone p).dropSeams p).ut q := by rw [losePos_eq s p h, portGone_ut, stackGone_ut]
  have hh : (s.losePos p).hbm = (((s.positionGone p).dropSeams p).stackGone p).hbm := by rw [losePos_eq s p h, portGone_hbm]
  obtain ⟨hl, hv⟩ := positionGone_ut s p
  obtain ⟨x, hx⟩ := dropSeams_ut (s.positionGone p) p p
  refine ⟨by rw [hu, hx]; exact hl, by rw [hu, hx]; exact hv, fun d q hq => by rw [hu]; exact dropSeams_dropped _ p q hq, fun m hm => ?_⟩
  rw [hh]
  exact stackGone_hbm _ p hm

end

theorem powerFaults_hold : Sys2Proof.Rules.PowerFaults := by
  intro p r t s u
  refine ⟨fun hg hl hs => ?_, fun h => ?_, fun h => ?_, fun h => ?_, fun hl hv => ?_, fun h => ?_, fun ht ho => ?_, fun h => ?_, losePos_leaves s p⟩
  · exact congrArg Host.Outcome.next (if_neg (c := (s.reaches[r].pg || s.reaches[r].lost || s.lkh.pstate != .starting) = true) (by rw [hg, hl, hs]; decide))
  · refine congrArg Host.Outcome.next (if_pos (c := (s.reaches[r].pg || s.reaches[r].lost || s.lkh.pstate != .starting) = true) ?_)
    simpa [or_assoc] using h
  · exact congrArg Host.Outcome.next (if_neg h)
  · exact congrArg Host.Outcome.next (if_pos h)
  · exact congrArg Host.Outcome.next (if_neg (c := ((s.ut p).flags.lost || !(s.ut p).pwr.vnet) = true) (by rw [hl, hv]; decide))
  · exact congrArg Host.Outcome.next (if_pos (c := ((s.ut p).flags.lost || !(s.ut p).pwr.vnet) = true) (by simpa using h))
  · exact congrArg Host.Outcome.next (if_neg (c := (s.reaches[r].tripped || !s.reaches[r].on) = true) (by rw [ht, ho]; decide))
  · exact congrArg Host.Outcome.next (if_pos (c := (s.reaches[r].tripped || !s.reaches[r].on) = true) (by simpa using h))

/-! ### Other supplies (Table 12.9) -/

/-- With a supply noted as lost. -/
def State.supplyLost (s : State) (sup : Supply) : State := { s with power := { s.power with lost := s.power.lost ++ [sup] } }
/-- The clock block and the panel time of a tile without the reference. -/
def UnderTile.unreferenced (u : UnderTile) : UnderTile :=
  { u with
    clk := { u.clk with holdover := true, priOk := false, altOk := false }, mirror := [], mirrorDue := []
    time := { u.time with unsync := true, refLoss := true, goodBeacons := 0 }, pound := { u.pound with unsync := true } }
/-- Without lock-house C: no Canal chambers, no oscillator, no reference. -/
def State.canalGone (s : State) : State := { s with canal := [], clocks := { s.clocks with oscReady := false } }
def State.unreferenced (s : State) (l : List Pos) : State := l.foldl (fun (s : State) p => s.modUt p UnderTile.unreferenced) s
/-- The ports of a side are OFF. -/
def State.sideOff (s : State) (base : Nat) (l : List (Fin 9)) : State :=
  l.foldl (fun (s : State) k => s.portLeave (Fin.ofNat 18 (base + k.val)) .off .partnerLost) s
/-- The companion's ports are down and the intake unit stopped. -/
def State.linksDown (s : State) : State := (List.finRange 2).foldl (fun (s : State) k => s.kclLeave k 0) s
def State.intakeStopped (s : State) : State := ({ s with intake := { s.intake with stopped := true } } : State).alert

section
variable (s : State) (p : Pos)

theorem endAll_onlyAborts : OnlyAborts s s.endAll := abortEnd_onlyAborts s _ _ _ _

theorem unreferenced_only (l : List Pos) : ∃ ts, s.unreferenced l = { s with tiles := ts } :=
  foldl_rel (R := fun s t => ∃ ts, t = { s with tiles := ts }) (fun _ => ⟨_, rfl⟩)
    (fun ⟨_, a⟩ ⟨_, b⟩ => ⟨_, b.trans (by rw [a])⟩) (fun _ _ => ⟨_, rfl⟩) l s
theorem unreferenced_ut : (s.unreferenced allPos).ut p = (s.ut p).unreferenced :=
  foldl_reads_once (g := fun t : State => t.ut p) (F := UnderTile.unreferenced) allPos_nodup (mem_allPos p)
    (fun _ => State.ut_modUt ..) (fun _ _ h => State.ut_modUt_ne _ _ _ _ h.symm) s

theorem sideOff_power (base : Nat) (l : List (Fin 9)) : (s.sideOff base l).power = s.power :=
  foldl_reads_same (f := fun (s : State) (k : Fin 9) => s.portLeave (Fin.ofNat 18 (base + k.val)) .off .partnerLost) (g := fun t : State => t.power)
    (fun _ _ _ => rfl) s
/-- A port that is OFF stays so as others go OFF. -/
theorem portLeave_off {x y : PortN} (h : (s.port x).state = .off) : ((s.portLeave y .off .partnerLost).port x).state = .off := by
  by_cases e : x = y
  · subst e
    exact portLeave_state s x _ _
  · rw [portLeave_port_ne s e, h]
theorem sideOff_state {base : Nat} {l : List (Fin 9)} {k : Fin 9} (hk : k ∈ l) :
    ((s.sideOff base l).port (Fin.ofNat 18 (base + k.val))).state = .off :=
  foldl_of_mem (f := fun (s : State) (k : Fin 9) => s.portLeave (Fin.ofNat 18 (base + k.val)) .off .partnerLost) (P := fun _ => True)
    (Q := fun t : State => (t.port (Fin.ofNat 18 (base + k.val))).state = .off) hk (fun t _ => portLeave_state t _ _ _) (fun _ _ _ _ => trivial)
    (fun t _ _ ht => portLeave_off t ht) trivial

theorem linksDown_onlyEngines : OnlyEngines s s.linksDown := .foldl (fun s k => kclLeave_onlyEngines s k 0) _ s

theorem supplyLoss_first {sup : Supply} {t : Nat} (h : sup ∉ s.power.lost) : exec (.supplyLoss sup t) s = .next (
    match sup with
    | .lhN => (((s.at_ t).supplyLost sup).loseHouse 0).logErr (unitId 0x0B 0) 0 1
    | .lhS => (((s.at_ t).supplyLost sup).loseHouse 2).logErr (unitId 0x0B 2) 0 1
    | .lhC => ((((((s.at_ t).supplyLost sup).loseHouse 1).logErr (unitId 0x0B 1) 0 1).canalGone).unreferenced allPos).endAll
    | .northOptics => ((s.at_ t).supplyLost sup).sideOff 0 (List.finRange 9)
    | .southOptics => ((s.at_ t).supplyLost sup).sideOff 9 (List.finRange 9)
    | .kcl => ((s.at_ t).supplyLost sup).linksDown.intakeStopped.endAll) := by
  have hc : ¬((s.at_ t).power.lost.contains sup) = true := by
    rw [List.contains_iff_mem]
    exact h
  show execSupplyLoss sup t s = _
  unfold execSupplyLoss
  dsimp only
  rw [if_neg hc]
  cases sup
  case northOptics => simp only [State.sideOff, Nat.zero_add]; rfl
  all_goals rfl

end

theorem supplyLosses_hold : Sys2Proof.Rules.SupplyLosses := by
  intro sup t s
  have hc : (s.at_ t).power.lost.contains sup = true ↔ sup ∈ s.power.lost := List.contains_iff_mem
  refine ⟨fun h => congrArg Host.Outcome.next (if_pos (hc.2 h)), fun h => ⟨_, supplyLoss_first s h, ?_⟩⟩
  have hl : ((s.at_ t).supplyLost sup).power.lost = s.power.lost ++ [sup] := rfl
  have hs : ((s.at_ t).supplyLost sup).lkh.serving = s.lkh.serving := rfl
  have ht : ((s.at_ t).supplyLost sup).tiles = s.tiles := rfl
  generalize (s.at_ t).supplyLost sup = u at hl hs ht
  cases sup <;> dsimp only <;> simp only [reduceCtorEq, false_implies, forall_const, true_and, and_true]
  case lhN => exact ⟨hl, congrArg (· &&& 6) hs, ht⟩
  case lhS => exact ⟨hl, congrArg (· &&& 3) hs, ht⟩
  case lhC =>
    obtain ⟨ts, hts⟩ := unreferenced_only ((u.loseHouse 1).logErr (unitId 0x0B 1) 0 1).canalGone allPos
    have hu := unreferenced_ut ((u.loseHouse 1).logErr (unitId 0x0B 1) 0 1).canalGone
    obtain ⟨hw, huw⟩ : ∃ w, w = ((u.loseHouse 1).logErr (unitId 0x0B 1) 0 1).canalGone.unreferenced allPos := ⟨_, rfl⟩
    rw [← huw] at hts hu ⊢
    obtain ⟨⟨_, _, _, _, _, _, _, _, _, _, he⟩, hk, -, hcan⟩ := endAll_onlyAborts hw
    refine ⟨by rw [he, hts]; exact hl, by rw [he, hts]; exact congrArg (· &&& 5) hs, hcan (by rw [hts]; rfl), by rw [he, hts]; rfl, fun p => ?_⟩
    obtain ⟨⟨_, _, _, _, _, _, hp⟩, hm⟩ := hk p
    refine ⟨by rw [hp, hu]; rfl, by rw [hp, hu]; rfl, hm (by rw [hu]; rfl)⟩
  case northOptics =>
    refine ⟨by rw [sideOff_power]; exact hl, fun x hx => ?_⟩
    have h := sideOff_state u (base := 0) (List.mem_finRange (⟨x.val, hx⟩ : Fin 9))
    rwa [show Fin.ofNat 18 (0 + x.val) = x from Fin.ext (by simp)] at h
  case southOptics =>
    refine ⟨by rw [sideOff_power]; exact hl, fun x hx => ?_⟩
    have h := sideOff_state u (base := 9) (List.mem_finRange (⟨x.val - 9, by omega⟩ : Fin 9))
    rwa [show Fin.ofNat 18 (9 + (x.val - 9)) = x from Fin.ext (by simp; omega)] at h
  case kcl =>
    obtain ⟨⟨_, _, _, _, _, _, _, _, _, hd⟩, -⟩ := linksDown_onlyEngines u
    have hw : u.linksDown.intakeStopped.power.lost = u.power.lost ∧ u.linksDown.intakeStopped.intake.stopped = true ∧
        u.linksDown.intakeStopped.pins.alertN = false := by
      refine ⟨by rw [hd]; rfl, rfl, ?_⟩
      simp [State.intakeStopped, State.alert]
    obtain ⟨hw1, hw2, hw3⟩ := hw
    obtain ⟨⟨_, _, _, _, _, _, _, _, _, _, he⟩, -⟩ := endAll_onlyAborts u.linksDown.intakeStopped
    exact ⟨by rw [he]; exact hw1.trans hl, by rw [he]; exact hw2, by rw [he]; exact hw3⟩

/-! ### The cap check (R353) -/

section
variable {v z : State} {pin w e : Nat}

theorem capDecide_emerg (h : v.therm.emerg = true ∨ v.lkh.pstate ≠ .active) : v.capDecide z pin w e = z := if_pos (by simpa using h)

variable (hg : v.therm.emerg = false) (ha : v.lkh.pstate = .active)
include hg ha

theorem capDecide_over (h : v.power.effW.toNat < pin) :
    v.capDecide z pin w e = z.lowerBank (if e ≤ w then .west else .east) v.canalTimedRuns := by
  rw [State.capDecide, if_neg (by rw [hg, ha]; decide), if_pos h]

variable (hp : pin ≤ v.power.effW.toNat)
include hp

theorem capDecide_joins (h : v.mustJoin = true) : v.capDecide z pin w e = z.joinBanks := by
  rw [State.capDecide, if_neg (by rw [hg, ha]; decide), if_neg (Nat.not_lt.mpr hp), if_pos h]

variable (hj : v.mustJoin = false)
include hj

theorem capDecide_top (hw : z.canRaise .west = false) (he : z.canRaise .east = false) :
    v.capDecide z pin w e = { z with therm := { z.therm with slowRise := false } } := by
  rw [State.capDecide, if_neg (by rw [hg, ha]; decide), if_neg (Nat.not_lt.mpr hp), if_neg (by rw [hj]; decide), if_pos (by rw [hw, he]; decide)]

variable (hr : z.canRaise .west = true ∨ z.canRaise .east = true)
include hr

theorem capDecide_waits (h : z.power.lowTicks < 8 ∨ z.clocks.step.pendW = true ∨ z.clocks.step.pendE = true ∨
    (z.therm.slowRise = true ∧ z.now < z.therm.raisedAt + 100000000)) : v.capDecide z pin w e = z := by
  rw [State.capDecide, if_neg (by rw [hg, ha]; decide), if_neg (Nat.not_lt.mpr hp), if_neg (by rw [hj]; decide), if_neg (by rcases hr with hr | hr <;> simp [hr]),
    if_pos (by simpa [or_assoc] using h)]

/-- The bank that rises: the one that can, of two the slower, of equals the west one. -/
def State.risingBank (z : State) : Bank :=
  if z.canRaise .west = false then .east else if z.canRaise .east = false then .west
  else if z.bankStep .east ≤ z.bankStep .west then .west else .east

theorem capDecide_rises (h : ¬(z.power.lowTicks < 8 ∨ z.clocks.step.pendW = true ∨ z.clocks.step.pendE = true ∨
    (z.therm.slowRise = true ∧ z.now < z.therm.raisedAt + 100000000))) : v.capDecide z pin w e =
    { z.raiseBank z.risingBank z.canalTimedRuns with power := { (z.raiseBank z.risingBank z.canalTimedRuns).power with lowTicks := 0 } } := by
  have hb : (if !z.canRaise .west then Bank.east else if !z.canRaise .east then .west
      else if z.bankStep .west ≥ z.bankStep .east then .west else .east) = z.risingBank := by
    unfold State.risingBank
    cases z.canRaise .west <;> cases z.canRaise .east <;> rfl
  rw [State.capDecide, if_neg (by rw [hg, ha]; decide), if_neg (Nat.not_lt.mpr hp), if_neg (by rw [hj]; decide), if_neg (by rcases hr with hr | hr <;> simp [hr]),
    if_neg (by simpa [or_assoc] using h), hb]

end

theorem recap_effW (x : State) : (x.recap false 0).power.effW = BitVec.ofNat 16 x.capNow := by
  unfold State.recap
  dsimp only
  split
  · rfl
  · rfl
theorem lowerBank_single {x : State} {b : Bank} (hl : x.clocks.step.link = false) (hp : x.clocks.step.pendOf b = false) (h5 : x.bankStep b < 5) :
    x.lowerBank b false = x.askStep b (BitVec.ofNat 3 (x.bankStep b + 1)) := by
  have hk : ¬(x.clocks.step.link && !x.clocks.step.pendW && !x.clocks.step.pendE) = true := by rw [hl]; exact Bool.false_ne_true
  unfold State.lowerBank
  dsimp only
  rw [if_neg Bool.false_ne_true, if_neg (by rw [hp]; decide), if_neg hk, if_pos h5]

theorem capCheck_holds : Sys2Proof.Rules.CapCheck := by
  intro pin w e t s u v cap z waits b up
  have hx : exec (.powerCapCheck pin w e t) s = .next (v.capDecide z pin w e) := powerCapCheck_eq pin w e t s
  rw [hx]
  refine ⟨fun h => ?_, fun hg ha => ⟨fun h => ?_, fun hp hj => ?_, fun hp hj => ⟨fun hw he => ?_, fun hr h => ?_, fun hr h => ?_⟩⟩, recap_effW,
    fun x b => lowerBank_single⟩
  · exact congrArg Host.Outcome.next (capDecide_emerg h)
  · exact congrArg Host.Outcome.next (capDecide_over hg ha h)
  · exact congrArg Host.Outcome.next (capDecide_joins hg ha hp hj)
  · exact congrArg Host.Outcome.next (capDecide_top hg ha hp hj hw he)
  · exact congrArg Host.Outcome.next (capDecide_waits hg ha hp hj hr h)
  · exact congrArg Host.Outcome.next (capDecide_rises hg ha hp hj hr h)

/-- Settles O45: a lost position keeps what its phases set, a lost supply what its row of Table 12.9 sets, and the cap check decides by cases. -/
theorem powerFaults : Obligations.PowerFaults := ⟨powerFaults_hold, supplyLosses_hold, capCheck_holds⟩

end Sys2Proof.Machine
end

section
/-! PROOFS. Frequency steps, clock sources and clock faults (O42). -/

namespace Sys2Proof.Machine

open Sys2Proof

/-! ### Frequency steps (R360 to R363) -/

section
variable (s : State)

theorem chgCanal_congr {o : Origin} {path : Path} {off : Nat} {f g : State → State} (h : f s = g s) : s.chgCanal o path off f = s.chgCanal o path off g := by
  unfold State.chgCanal
  rw [h]
theorem modClk_congr {p : Pos} {f g : TileClock → TileClock} (h : f (s.ut p).clk = g (s.ut p).clk) : s.modClk p f = s.modClk p g :=
  State.modUt_congr (by rw [h])

variable {s} {b : Bank} {code : BitVec 3}

theorem reqStep_illegal (h : 5 < code.toNat) : s.reqStep b code = s.modStepReg fun c => { c with err := .illegalDescriptor } := if_pos h
theorem reqStep_cancels (h : code.toNat ≤ 5) (hc : code = s.clocks.step.cur b) :
    s.reqStep b code = (s.modStepReg fun c => { c.cancel b with err := .done }).fixTicks := by
  unfold State.reqStep
  dsimp only
  rw [if_neg (Nat.not_lt.mpr h), if_pos hc]
theorem reqStep_asks (h : code.toNat ≤ 5) (hc : code ≠ s.clocks.step.cur b) :
    s.reqStep b code = ((s.modStepReg fun c => { c.setReq b code s.now with err := .done }).allUts fun p u =>
      if bankOf p == b && u.alive then { u with clk := u.clk.idleLock false } else u).fixTicks := by
  unfold State.reqStep
  dsimp only
  rw [if_neg (Nat.not_lt.mpr h), if_neg hc]

end

theorem frequencySteps_hold : Sys2Proof.Rules.FrequencySteps := by
  intro b code p t s u rec_
  refine ⟨fun h hc => ?_, fun h hc => ?_, fun h => ?_, fun hp hl ha => ⟨?_, fun ht => ?_⟩, fun h => ⟨?_, ?_⟩, fun k hk ht hr => ?_⟩
  · exact congrArg Host.Outcome.next (chgCanal_congr u (reqStep_asks h hc))
  · exact congrArg Host.Outcome.next (chgCanal_congr u (reqStep_cancels h hc))
  · exact congrArg Host.Outcome.next (chgCanal_congr u (reqStep_illegal h))
  · refine congrArg Host.Outcome.next (if_neg (c := (!s.clocks.step.pendOf (bankOf p) || (s.ut p).clk.locked || !(s.ut p).alive) = true) ?_)
    rw [hp, hl, ha]
    decide
  · refine congrArg Host.Outcome.next (if_pos (c := (s.clocks.step.pendOf (bankOf p) && !(s.ut p).clk.locked && (s.ut p).alive &&
      decide (s.clocks.step.reqOf (bankOf p) + 1000000 ≤ t)) = true) ?_)
    rw [hp, hl, ha, decide_eq_true ht]
    rfl
  · refine congrArg Host.Outcome.next (if_pos (c := (!s.clocks.step.pendOf (bankOf p) || (s.ut p).clk.locked || !(s.ut p).alive) = true) ?_)
    simpa [or_assoc] using h
  · refine congrArg Host.Outcome.next (if_neg (c := (s.clocks.step.pendOf (bankOf p) && !(s.ut p).clk.locked && (s.ut p).alive &&
      decide (s.clocks.step.reqOf (bankOf p) + 1000000 ≤ t)) = true) ?_)
    rcases h with h | h | h <;> simp [h]
  · show execVcoreTargetRaise b t s = _
    unfold execVcoreTargetRaise
    dsimp only
    rw [show (s.at_ t).clocks.step.tick b = some k from hk]
    dsimp only
    exact congrArg Host.Outcome.next (if_pos (by rw [Bool.and_eq_true, decide_eq_true_eq, decide_eq_true_eq]; exact ⟨ht, hr⟩))

/-! ### A step comes into force (R361, R40) -/

/-- The bank's step in force in CLK_STEP and at its tiles. -/
def State.stepTaken (s : State) (b : Bank) : State :=
  { s with clocks := { s.clocks with step := s.clocks.step.took b } }.allUts fun p u =>
    if bankOf p = b && !u.flags.lost then
      u.switchClock p (s.clocks.step.next b) (decide ((s.clocks.step.cur b).toNat < (s.clocks.step.next b).toNat)) else u

theorem stepTaken_clocks (s : State) (b : Bank) : (s.stepTaken b).clocks.step = s.clocks.step.took b := by
  unfold State.stepTaken
  generalize hv : ({ s with clocks := { s.clocks with step := s.clocks.step.took b } } : State) = v
  show v.clocks.step = _
  rw [← hv]

theorem stepTaken_ut (s : State) (b : Bank) (p : Pos) : (s.stepTaken b).ut p = if bankOf p = b && !(s.ut p).flags.lost then
    (s.ut p).switchClock p (s.clocks.step.next b) (decide ((s.clocks.step.cur b).toNat < (s.clocks.step.next b).toNat)) else s.ut p := by
  rw [State.stepTaken, State.ut_allUts]
  rfl

theorem reports_only {α : Type} (f : α → AbortReq) (l : List α) (s : State) : ∃ x, l.foldl (fun (s : State) r => s.report (f r)) s = { s with aborts := x } :=
  foldl_rel (R := fun s t => ∃ x, t = { s with aborts := x }) (fun _ => ⟨_, rfl⟩)
    (fun ⟨_, a⟩ ⟨_, b⟩ => ⟨_, b.trans (by rw [a])⟩) (fun s r => report_eq s (f r)) l s

theorem stepChange_taken {s : State} {b : Bank} {k t : Nat} (hk : s.clocks.step.tick b = some k) (ht : k ≤ t) :
    ∃ x, s.stepChange b t = { s.stepTaken b with aborts := x } := by
  unfold State.stepChange
  dsimp only
  rw [hk]
  dsimp only
  rw [if_neg (Nat.not_lt.mpr ht)]
  split
  · exact reports_only _ _ _
  · exact ⟨_, rfl⟩

theorem stepInForce_holds : Sys2Proof.Rules.StepInForce := by
  intro b k t s hk ht
  obtain ⟨x, hx⟩ := stepChange_taken hk ht
  have hu (p : Pos) : (s.stepChange b t).ut p = (s.stepTaken b).ut p := by rw [hx]; rfl
  refine ⟨by rw [hx]; exact stepTaken_clocks s b, fun p hp hl => ?_, fun p hp => ?_⟩
  · rw [hu, stepTaken_ut, if_pos (by rw [hp, hl]; simp)]
    exact ⟨rfl, rfl⟩
  · rw [hu, stepTaken_ut, if_neg (by simp [hp])]

/-! ### What the SLIP of a tile's crossings leaves (R50, R357) -/

/-- Abort causes and SLIP marks are added; cores, clock blocks, the modes of crossings and everything outside the tiles stay. -/
def OnlySlips (s t : State) : Prop :=
  (∃ ts l, t = { s with tiles := ts, aborts := l }) ∧ (∀ a ∈ s.aborts, a ∈ t.aborts) ∧ (∀ x, t.core x = s.core x) ∧
    (∀ x, (t.ut x).clk = (s.ut x).clk) ∧
    ∀ x (e : Fin 4), (t.ut x).xing[e].mode = (s.ut x).xing[e].mode ∧ ((s.ut x).xing[e].slipped = true → (t.ut x).xing[e].slipped = true)

section
variable {s t u : State}

theorem OnlySlips.refl (s : State) : OnlySlips s s := ⟨⟨_, _, rfl⟩, fun _ => id, fun _ => rfl, fun _ => rfl, fun _ _ => ⟨rfl, id⟩⟩
theorem OnlySlips.trans (a : OnlySlips s t) (b : OnlySlips t u) : OnlySlips s u := by
  obtain ⟨⟨_, _, ha⟩, aa, ca, ka, xa⟩ := a
  obtain ⟨⟨_, _, hb⟩, ab, cb, kb, xb⟩ := b
  exact ⟨⟨_, _, hb.trans (by rw [ha])⟩, fun y h => ab y (aa y h), fun y => (cb y).trans (ca y), fun y => (kb y).trans (ka y),
    fun y e => ⟨((xb y e).1).trans (xa y e).1, fun h => (xb y e).2 ((xa y e).2 h)⟩⟩
theorem OnlySlips.ite {c : Prop} [Decidable c] (a : OnlySlips s t) (b : OnlySlips s u) : OnlySlips s (if c then t else u) := by
  split
  · exact a
  · exact b

variable (s : State) (p q : Pos)

theorem report_onlySlips (a : AbortReq) : OnlySlips s (s.report a) := by
  unfold State.report
  split
  · exact .ite ⟨⟨_, _, rfl⟩, fun _ h => List.mem_append_left _ h, fun _ => rfl, fun _ => rfl, fun _ _ => ⟨rfl, id⟩⟩ (.refl s)
  · exact .refl s
theorem abortAt_onlySlips (c : Cause) : OnlySlips s (s.abortAt p c) := by
  unfold State.abortAt
  split
  · exact report_onlySlips s _
  · exact .refl s
theorem timedSlip_onlySlips : OnlySlips s (s.timedSlip p) := by
  unfold State.timedSlip
  split
  · exact .ite (abortAt_onlySlips s p _) (.refl s)
  · exact .refl s

/-- A change of an under-tile that leaves its clock block, the modes of its crossings and the SLIP that stands. -/
theorem OnlySlips.modUt {f : UnderTile → UnderTile} (hk : ∀ u, (f u).clk = u.clk)
    (hx : ∀ u (e : Fin 4), (f u).xing[e].mode = u.xing[e].mode ∧ (u.xing[e].slipped = true → (f u).xing[e].slipped = true)) :
    OnlySlips s (s.modUt p f) := by
  refine ⟨⟨_, _, rfl⟩, fun _ => id, fun x => State.core_modUt .., fun x => ?_, fun x e => ?_⟩
  · rw [State.ut_modUt_ite]
    split
    · exact hk _
    · rfl
  · rw [State.ut_modUt_ite]
    split
    · exact hx _ e
    · exact ⟨rfl, id⟩

theorem markSlip_onlySlips : OnlySlips s (s.modUt p UnderTile.markSlip) := .modUt s p (fun _ => rfl) fun _ _ => ⟨rfl, id⟩
theorem slipNoted_onlySlips : OnlySlips s (s.slipNoted p q) :=
  ((markSlip_onlySlips s p).trans (markSlip_onlySlips _ q)).trans ((timedSlip_onlySlips _ p).trans (timedSlip_onlySlips _ q))
theorem slip_onlySlips (d : Fin 4) : OnlySlips s (s.slip p d) := by
  refine OnlySlips.trans (.modUt s p (f := fun u => { u with xing := vmod u.xing d Xing.slip }) (fun _ => rfl) fun u e => ?_) (slipNoted_onlySlips _ _ _)
  by_cases h : e = d
  · rw [h, vmod_get_same]
    exact ⟨rfl, fun _ => rfl⟩
  · rw [vmod_get_ne _ _ h]
    exact ⟨rfl, id⟩
theorem slipSpare_onlySlips (i : Fin 5) : OnlySlips s (s.slipSpare p i) :=
  OnlySlips.trans (.modUt s p (f := fun u => { u with spareX := vmod u.spareX i Xing.slip }) (fun _ => rfl) fun _ _ => ⟨rfl, id⟩)
    (slipNoted_onlySlips _ _ _)
theorem slipOne_onlySlips (d : Fin 4) : OnlySlips s (s.slipOne p d) := .ite (slip_onlySlips s p d) (.refl s)

/-- A crossing that is not under flow control has SLIP. -/
theorem slipOne_slipped {d : Fin 4} (h : (s.ut p).xing[d].mode = 1 ∨ (s.ut p).xing[d].mode = 2) : ((s.slipOne p d).ut p).xing[d].slipped = true := by
  by_cases hs : (s.ut p).xing[d].slipped = true
  · exact ((slipOne_onlySlips s p d).2.2.2.2 p d).2 hs
  · have hc : ((decide ((s.ut p).xing[d].mode = 1) || decide ((s.ut p).xing[d].mode = 2)) && !(s.ut p).xing[d].slipped) = true := by
      rw [Bool.not_eq_true] at hs
      rw [hs]
      simpa using h
    unfold State.slipOne
    rw [if_pos hc]
    exact slip_slipped s p d

/-- The crossings of one seam. -/
def State.slipSeam (p : Pos) (s : State) (d : Dir) : State := match neighbour p d with
  | none => s
  | some q => (s.slipOne p (dirNum d)).slipOne q (dirNum (opposite d))
/-- The spare links, where they are not under flow control. -/
def State.slipLink (s : State) (l : Pos × Fin 5) : State :=
  let x := (s.ut l.1).spareX[l.2]
  if x.mode = 1 && !x.slipped then s.slipSpare l.1 l.2 else s
def State.slipSpares (s : State) (l : List (Pos × Fin 5)) : State := l.foldl State.slipLink s
theorem slipAll_eq : s.slipAll p = ([Dir.n, Dir.e, Dir.s, Dir.w].foldl (State.slipSeam p) s).slipSpares (spareLinks p) := rfl

theorem slipSeam_onlySlips (d : Dir) : OnlySlips s (State.slipSeam p s d) := by
  unfold State.slipSeam
  split
  · exact .refl s
  · exact (slipOne_onlySlips s p _).trans (slipOne_onlySlips _ _ _)
theorem slipSeams_onlySlips (l : List Dir) : OnlySlips s (l.foldl (State.slipSeam p) s) :=
  foldl_rel (R := OnlySlips) .refl .trans (fun s d => slipSeam_onlySlips s p d) l s
theorem slipLink_onlySlips (l : Pos × Fin 5) : OnlySlips s (s.slipLink l) := by
  unfold State.slipLink
  exact .ite (slipSpare_onlySlips s l.1 l.2) (.refl s)
theorem slipSpares_onlySlips (l : List (Pos × Fin 5)) : OnlySlips s (s.slipSpares l) :=
  foldl_rel (R := OnlySlips) .refl .trans slipLink_onlySlips l s
theorem slipAll_onlySlips : OnlySlips s (s.slipAll p) := by
  rw [slipAll_eq]
  exact (slipSeams_onlySlips s p _).trans (slipSpares_onlySlips _ _)

theorem slipAll_slipped {d : Dir} (hn : neighbour p d = some q) (h : (s.ut p).xing[dirNum d].mode = 1 ∨ (s.ut p).xing[dirNum d].mode = 2) :
    ((s.slipAll p).ut p).xing[dirNum d].slipped = true := by
  have hd : d ∈ [Dir.n, Dir.e, Dir.s, Dir.w] := by cases d <;> decide
  rw [slipAll_eq]
  refine ((slipSpares_onlySlips _ _).2.2.2.2 p _).2 ?_
  refine foldl_of_mem (f := State.slipSeam p) (P := fun t : State => (t.ut p).xing[dirNum d].mode = 1 ∨ (t.ut p).xing[dirNum d].mode = 2)
    (Q := fun t : State => (t.ut p).xing[dirNum d].slipped = true) hd (fun t ht => ?_) (fun t c _ ht => ?_) (fun t c _ ht => ?_) h
  · unfold State.slipSeam
    rw [hn]
    exact ((slipOne_onlySlips _ q _).2.2.2.2 p _).2 (slipOne_slipped t p ht)
  · rw [((slipSeam_onlySlips t p c).2.2.2.2 p _).1]
    exact ht
  · exact ((slipSeam_onlySlips t p c).2.2.2.2 p _).2 ht

theorem abortCrossing_onlySlips : OnlySlips s (s.abortCrossing p) :=
  foldl_rel (R := OnlySlips) .refl .trans (fun s _ => report_onlySlips s _) _ s

/-! ### The watchdog (R367) -/

/-- The clock block after the watchdog. -/
def TileClock.watched (c : TileClock) (run : Bool) : TileClock :=
  { c with sel := 2, wdog := true, dp0 := false, dp1 := false, locked := false, step := 5, exp := c.exp && run, running := run, expRuns := c.expRuns && run }

theorem clockWatchdog_eq (run : Bool) (t : Nat) (h : (s.ut p).alive = true) : exec (.clockWatchdog p run t) s = .next
    ((((((s.at_ t).modClk p fun c => c.watched run).abortAt p (.status .tileFenced)).abortCrossing p).slipAll p).tellRepair
      (if run then .watchdogExp p else .watchdogNoExp p)) :=
  congrArg Host.Outcome.next (if_neg (c := (!(s.ut p).alive) = true) (by rw [h]; decide))

theorem watchdog_leaves (run : Bool) (t : Nat) (h : (s.ut p).alive = true) :
    ∃ v, exec (.clockWatchdog p run t) s = .next v ∧ (v.ut p).clk.sel = 2 ∧ (v.ut p).clk.wdog = true ∧ (v.ut p).clk.running = run ∧
      (v.ut p).clk.step = 5 ∧ (if run then RepairEvent.watchdogExp p else .watchdogNoExp p) ∈ v.repair.reports ∧
      (∀ r, s.stepAt p = some r → s.stepNum r.num = some r → r.live = true → ∃ a ∈ v.aborts, a.step = r.num ∧ a.lt = (s.core p).desc.lt) ∧
      (∀ d q, neighbour p d = some q → ((s.ut p).xing[dirNum d].mode = 1 ∨ (s.ut p).xing[dirNum d].mode = 2) →
        (v.ut p).xing[dirNum d].slipped = true) ∧
      (∀ q, q ≠ p → (v.ut q).clk = (s.ut q).clk ∧ v.core q = s.core q) := by
  refine ⟨_, clockWatchdog_eq s p run t h, ?_⟩
  obtain ⟨u, hu⟩ : ∃ u, u = (s.at_ t).modClk p fun c => c.watched run := ⟨_, rfl⟩
  have hclk : (u.ut p).clk = (s.ut p).clk.watched run := by
    rw [hu, State.modClk, State.ut_modUt]
    rfl
  have hx : (u.ut p).xing = (s.ut p).xing := by
    rw [hu, State.modClk, State.ut_modUt]
    rfl
  have hne (q : Pos) (hq : q ≠ p) : u.ut q = s.ut q := by
    rw [hu, State.modClk, State.ut_modUt_ne _ _ _ _ hq]
    rfl
  have hcore (q : Pos) : u.core q = s.core q := by
    rw [hu, State.modClk, State.core_modUt]
    rfl
  have hstep : u.stepAt p = s.stepAt p := by
    rw [State.stepAt, State.ltAt, hcore, hu]
    rfl
  have hnum (n : Nat) : u.stepNum n = s.stepNum n := by
    rw [hu]
    rfl
  rw [← hu]
  have h1 := abortAt_onlySlips u p (.status .tileFenced)
  have h2 := h1.trans (abortCrossing_onlySlips _ p)
  obtain ⟨-, -, hc3, hk3, -⟩ := h2.trans (slipAll_onlySlips _ p)
  obtain ⟨-, ha, -, -, -⟩ := (abortCrossing_onlySlips (u.abortAt p (.status .tileFenced)) p).trans (slipAll_onlySlips _ p)
  obtain ⟨-, -, -, -, hmode⟩ := h2
  have hslip {d : Dir} {q : Pos} (hn : neighbour p d = some q) :=
    slipAll_slipped ((u.abortAt p (.status .tileFenced)).abortCrossing p) p q hn
  obtain ⟨w, hw⟩ : ∃ w, w = ((u.abortAt p (.status .tileFenced)).abortCrossing p).slipAll p := ⟨_, rfl⟩
  rw [← hw] at hc3 hk3 ha hslip ⊢
  obtain ⟨k, hr⟩ := tellRepair_eq w (if run then .watchdogExp p else .watchdogNoExp p)
  have hab : (w.tellRepair (if run then .watchdogExp p else .watchdogNoExp p)).aborts = w.aborts := by rw [hr]
  have hco (q : Pos) : (w.tellRepair (if run then .watchdogExp p else .watchdogNoExp p)).core q = w.core q := by rw [hr]; rfl
  have hfin : (w.ut p).clk = (s.ut p).clk.watched run := (hk3 p).trans hclk
  simp only [tellRepair_ut, hab, hco]
  refine ⟨by rw [hfin]; rfl, by rw [hfin]; rfl, by rw [hfin]; rfl, by rw [hfin]; rfl, tellRepair_reports w _, fun r hr hn hl => ?_, fun d q hn hm => ?_,
    fun q hq => ⟨by rw [hk3, hne q hq], by rw [hc3, hcore]⟩⟩
  · have hlive := abortAt_of_live (s := u) (hstep.trans hr) ((hnum r.num).trans hn) hl (.status .tileFenced)
    refine ⟨_, ha _ (by rw [hlive]; exact List.mem_append_right _ (List.mem_singleton_self _)), rfl, ?_⟩
    rw [← hcore]
  · refine hslip hn ?_
    rw [(hmode p _).1, hx]
    exact hm

end

/-! ### Sources and faults (R354 to R358, R366 to R368) -/

theorem clockFaults_hold : Sys2Proof.Rules.ClockFaults := by
  intro p alt t n c sel s u bad
  have hosc : exec (.oscReady n t) s = .next (if (decide (n < 1024) || decide (t < s.clocks.powerGood + oscDelay s.clocks.dly) ||
    s.lkh.pstate == .off) = true then u else u.oscStarts) := rfl
  have hbad : exec (.refInputBad p alt t) s = .next (if (!(s.ut p).alive) = true then u
      else if ((s.ut p).clk.refSel != alt || (s.ut p).clk.holdover) = true then bad
      else if (s.ut p).clk.inputOk (!alt) = true then bad.modClk p fun c => { c with refSel := !alt, failovers := c.failovers + 1 }
      else ((bad.modClk p fun c => { c with holdover := true }).slipAll p).unsynced p fun k => { k with refLoss := true }) := rfl
  have hgood : exec (.refInputGood p alt t) s = .next (if (!(s.ut p).alive) = true then u
      else u.modClk p fun c => if c.holdover then { c.setInput alt true with holdover := false, refSel := alt } else c.setInput alt true) := rfl
  have hloss : exec (.pllLockLoss p t) s = .next (if (decide ((s.ut p).clk.sel.toNat ≥ 2) || !(s.ut p).alive) = true then u
      else if (s.ut p).clk.step = 5 then
        u.modClk p fun c => { c with sel := 2, lockLost := true, dp0 := c.dp0 && c.sel != 0, dp1 := c.dp1 && c.sel != 1 }
      else (u.modClk p fun c => { c with sel := 2, lockLost := true, dp0 := c.dp0 && c.sel != 0, dp1 := c.dp1 && c.sel != 1 }).slipAll p) := rfl
  clear_value bad
  have halive (h : (s.ut p).alive = true) : ¬(!(s.ut p).alive) = true := by
    rw [h]
    decide
  refine ⟨fun hn ht ho => ?_, fun h => ?_, fun h => ?_, fun h => ?_, fun ha => ⟨fun hr hh hi => ?_, fun hr hh hi => ?_, fun h => ?_, fun h => ?_,
    fun h => ?_, fun h2 h5 => ?_, fun h2 h5 => ?_, watchdog_leaves s p sel t ha⟩, fun h => ?_⟩
  · rw [hosc, if_neg (by simp [ho]; omega)]
  · rw [hosc, if_pos (by rcases h with h | h <;> simp [h])]
  · exact congrArg Host.Outcome.next (chgCanal_congr s (if_pos h))
  · exact congrArg Host.Outcome.next (chgCanal_congr s (if_neg (by rw [h]; exact Bool.false_ne_true)))
  · rw [hbad, if_neg (halive ha), if_neg (by simp [hr, hh]), if_pos hi]
  · rw [hbad, if_neg (halive ha), if_neg (by simp [hr, hh]), if_neg (by simp [hi])]
  · rw [hbad, if_neg (halive ha), if_pos (by simpa using h)]
  · rw [hgood, if_neg (halive ha)]
    exact congrArg Host.Outcome.next (modClk_congr u (if_pos h))
  · rw [hgood, if_neg (halive ha)]
    exact congrArg Host.Outcome.next (modClk_congr u (if_neg (by rw [show (u.ut p).clk.holdover = false from h]; exact Bool.false_ne_true)))
  · rw [hloss, if_neg (by simpa [ha] using h2), if_pos h5]
  · rw [hloss, if_neg (by simpa [ha] using h2), if_neg h5]
  · have hdead : (!(s.ut p).alive) = true := by rw [h]; rfl
    refine ⟨by rw [hbad, if_pos hdead], by rw [hgood, if_pos hdead], by rw [hloss, if_pos (by simp [h])], ?_⟩
    exact congrArg Host.Outcome.next (if_pos hdead)

/-- Settles O42: requests, locks and sources case by case, and the SLIP of a stopped tile's crossings seam by seam. -/
theorem clocks : Obligations.Clocks := ⟨frequencySteps_hold, stepInForce_holds, clockFaults_hold⟩

end Sys2Proof.Machine
end

section
/-! PROOFS. Sources of panel time, the servo, TIM_SET and the time outputs (O46). -/

namespace Sys2Proof.Machine

open Sys2Proof

/-! ### Sources of panel time (R369 to R371) -/

section
variable (s : State)

/-- The source that comes into use is in use, and the qualified ones are as they were. -/
theorem useSource_tsrc (new : BitVec 2) : (s.useSource new).tsrc.cur = new ∧ (s.useSource new).tsrc.qual = s.tsrc.qual := by
  by_cases h : new = 3
  · unfold State.useSource
    rw [h]
    exact ⟨rfl, rfl⟩
  · have hs : (s.useSource new).tsrc = { s.tsrc with cur := new, servoAt := s.now } := by
      unfold State.useSource
      dsimp only
      rw [if_neg h]
      rfl
    rw [hs]
    exact ⟨rfl, rfl⟩

theorem nextSource_qual : s.nextSource.tsrc.qual = s.tsrc.qual := by
  unfold State.nextSource
  dsimp only
  split
  · rfl
  · exact (useSource_tsrc s _).2
theorem nextSource_cur (h3 : s.tsrc.cur ≠ 3) (hq : s.tsrc.qual.getLsbD s.tsrc.cur.toNat = false) : s.nextSource.tsrc.cur = s.tsrc.best := by
  unfold State.nextSource
  dsimp only
  rw [if_neg (by rw [hq, decide_eq_false h3]; simp)]
  exact (useSource_tsrc s _).1

/-- What the failure of each source takes with it. -/
def State.sourceGone (s : State) (src : Fin 3) : State :=
  let s1 := s.modTsrc fun c => { c with qual := c.qual &&& ~~~BitVec.ofNat 3 (2 ^ src.val) }
  match src.val with
  | 0 =>
    let k := s1.modTsrc fun c => { c with ppsGood := 0 }
    if s.ppsMissing then k
    else
      let k1 := k.mswReady 1 true false
      if k1.clocks.msw[1].cur then k1.mswTo 1 false 3 else k1
  | 1 => s1.modTsrc fun c => { c with ptpOffsets := [] }
  | _ => { s1 with intake := { s1.intake with marks := 0 } }
theorem disqualify_eq (src : Fin 3) : s.disqualify src = (s.sourceGone src).nextSource := rfl

theorem sourceGone_tsrc (src : Fin 3) : ∃ n l, (s.sourceGone src).tsrc =
    { s.tsrc with qual := s.tsrc.qual &&& ~~~BitVec.ofNat 3 (2 ^ src.val), ppsGood := n, ptpOffsets := l } := by
  unfold State.sourceGone
  split
  · dsimp only
    split
    · exact ⟨_, _, rfl⟩
    split
    · exact ⟨_, _, rfl⟩
    · exact ⟨_, _, rfl⟩
  · exact ⟨_, _, rfl⟩
  · exact ⟨_, _, rfl⟩

theorem cleared_bit (q : BitVec 3) (k : Fin 3) : (q &&& ~~~BitVec.ofNat 3 (2 ^ k.val)).getLsbD k.val = false := by
  rw [BitVec.getLsbD_and, BitVec.getLsbD_not, BitVec.getLsbD_ofNat, Nat.testBit_two_pow_self]
  simp [k.isLt]

theorem disqualify_leaves (src : Fin 3) : (s.disqualify src).tsrc.qual.getLsbD src.val = false ∧ (s.tsrc.cur.toNat = src.val →
    (s.disqualify src).tsrc.cur = ({ s.tsrc with qual := s.tsrc.qual &&& ~~~BitVec.ofNat 3 (2 ^ src.val) } : TimeSrc).best) := by
  obtain ⟨n, l, h⟩ := sourceGone_tsrc s src
  rw [disqualify_eq]
  refine ⟨by rw [nextSource_qual, h]; exact cleared_bit _ src, fun hc => ?_⟩
  have h3 : s.tsrc.cur ≠ 3 := fun e => by
    rw [e] at hc
    exact absurd hc.symm (Nat.ne_of_lt src.isLt)
  rw [nextSource_cur _ (by rw [h]; exact h3) (by rw [h]; dsimp only; rw [hc]; exact cleared_bit _ src), h]
  rfl

theorem qualified_leaves (u : State) (src : Fin 3) :
    ∃ v, (let s1 := u.modTsrc fun c => { c with
        qual := c.qual ||| BitVec.ofNat 3 (2 ^ src.val), qualSince := c.qualSince.set src u.now, freeRun := false }
      if src = 0 then s1.mswReady 1 true true else s1) = v ∧ v.tsrc.qual = u.tsrc.qual ||| BitVec.ofNat 3 (2 ^ src.val) ∧
        v.tsrc.qualSince = u.tsrc.qualSince.set src u.now ∧ v.tsrc.freeRun = false ∧ v.tsrc.cur = u.tsrc.cur ∧ v.tiles = u.tiles := by
  refine ⟨_, rfl, ?_⟩
  dsimp only
  split
  · exact ⟨rfl, rfl, rfl, rfl, rfl⟩
  · exact ⟨rfl, rfl, rfl, rfl, rfl⟩

end

theorem timeSources_hold : Sys2Proof.Rules.TimeSources := by
  intro src t s u held
  have hq : exec (.timeSourceQualify src t) s = .next (if (s.tsrc.qual.getLsbD src.val || !u.meetsSource src) = true then u else
      let s1 := u.modTsrc fun c => { c with
        qual := c.qual ||| BitVec.ofNat 3 (2 ^ src.val), qualSince := c.qualSince.set src u.now, freeRun := false }
      if src = 0 then s1.mswReady 1 true true else s1) := rfl
  have hd : exec (.timeSourceDisqualify src t) s =
      .next (if (s.tsrc.qual.getLsbD src.val && u.failsSource src) = true then u.disqualify src else u) := rfl
  have hheld (k : Fin 3) : (s.tsrc.qual.getLsbD k.val && s.tsrc.en.getLsbD k.val && decide (s.tsrc.qualSince[k] + 10000000000 ≤ u.now)) = true ↔ held k := by
    rw [Bool.and_eq_true, Bool.and_eq_true, decide_eq_true_eq, and_assoc]
  have hover : exec (.timeSourceTakeover src t) s = .next (if ((s.tsrc.qual.getLsbD src.val && s.tsrc.en.getLsbD src.val &&
      decide (s.tsrc.qualSince[src] + 10000000000 ≤ u.now)) && decide (src.val < s.tsrc.cur.toNat) && !((List.finRange 3).any fun k => decide (k < src) &&
      (s.tsrc.qual.getLsbD k.val && s.tsrc.en.getLsbD k.val && decide (s.tsrc.qualSince[k] + 10000000000 ≤ u.now)))) = true then
      u.useSource (BitVec.ofNat 2 src.val) else u) := rfl
  have hmay : ((s.tsrc.qual.getLsbD src.val && s.tsrc.en.getLsbD src.val &&
      decide (s.tsrc.qualSince[src] + 10000000000 ≤ u.now)) && decide (src.val < s.tsrc.cur.toNat) && !((List.finRange 3).any fun k => decide (k < src) &&
      (s.tsrc.qual.getLsbD k.val && s.tsrc.en.getLsbD k.val && decide (s.tsrc.qualSince[k] + 10000000000 ≤ u.now)))) = true ↔
      held src ∧ src.val < s.tsrc.cur.toNat ∧ ∀ k : Fin 3, k < src → ¬held k := by
    rw [Bool.and_eq_true, Bool.and_eq_true, hheld, decide_eq_true_eq, Bool.not_eq_true', ← Bool.not_eq_true, List.any_eq_true, and_assoc]
    refine and_congr_right fun _ => and_congr_right fun _ => ⟨fun h k hk hh => h ⟨k, List.mem_finRange k, ?_⟩, fun h ⟨k, _, hk⟩ => ?_⟩
    · rw [Bool.and_eq_true, decide_eq_true_eq, hheld]
      exact ⟨hk, hh⟩
    · rw [Bool.and_eq_true, decide_eq_true_eq, hheld] at hk
      exact h k hk.1 hk.2
  refine ⟨rfl, fun p => rfl, ⟨_, rfl, rfl, rfl, rfl, fun l hl => ?_, fun hl => ?_⟩, fun hn hm => ?_, fun h => ?_, fun hy hf => ⟨?_, ?_⟩, fun h => ?_,
    fun h1 h2 h3 => ?_, fun h => ?_⟩
  · show (match s.tsrc.ppsLast with
      | some l => if (decide (999999000 ≤ t - l) && decide (t - l ≤ 1000001000)) = true then s.tsrc.ppsGood + 1 else 1 | none => 1) = _
    rw [hl]
    simp only [Bool.and_eq_true, decide_eq_true_eq]
  · show (match s.tsrc.ppsLast with
      | some l => if (decide (999999000 ≤ t - l) && decide (t - l ≤ 1000001000)) = true then s.tsrc.ppsGood + 1 else 1 | none => 1) = _
    rw [hl]
  · rw [hq, if_neg (by rw [hn, hm]; decide)]
    obtain ⟨v, hv, h⟩ := qualified_leaves u src
    exact ⟨v, congrArg Host.Outcome.next hv, h⟩
  · rw [hq, if_pos (by simpa using h)]
  · rw [hd, if_pos (by rw [hy, hf]; rfl)]
  · exact disqualify_leaves u src
  · rw [hd, if_neg (by rcases h with h | h <;> rw [h] <;> simp)]
  · rw [hover, if_pos (hmay.2 ⟨h1, h2, h3⟩)]
  · rw [hover, if_neg (fun hh => ?_)]
    obtain ⟨h1, h2, h3⟩ := hmay.1 hh
    rcases h with h | h | ⟨k, hk, hh⟩
    · exact h h1
    · exact absurd h2 (Nat.not_lt.mpr h)
    · exact h3 k hk hh

/-! ### The servo and the outputs (R372 to R375) -/

/-- The trim moves by no more than the time since its last step allows, and stays in its range. -/
theorem trim_bounds (n trim ppb : Int) (hn : 0 ≤ n) :
    let new := clampInt (-100000) 100000 (trim + clampInt (-n) n (ppb - trim));
    -100000 ≤ new ∧ new ≤ 100000 ∧ (-100000 ≤ trim → trim ≤ 100000 → new - trim ≤ n ∧ trim - new ≤ n) := by
  simp only [clampInt]
  omega

theorem kclTime_of_used {k : KPort} {n t : Nat} {s : State} (h3 : (s.kport k).state = 3) (hk : k = 0 ∨ (s.kport 0).state ≠ 3) :
    exec (.kclTime k n t) s = .next (
      let s1 : State := { s.at_ t with intake := { s.intake with lastMark := t, marks :=
        if 990 ≤ t - s.intake.lastMark && t - s.intake.lastMark ≤ 1010 then s.intake.marks + 1 else 1 } }
      if s.tsrc.cur = 2 then s1.slewed.modTsrc fun c => { c with remain := ((n : Int) - (s1.now : Int)) * 65536 } else s1) := by
  refine congrArg Host.Outcome.next (if_neg (c := (decide ((s.kport k).state ≠ 3) || (decide (k = 1) && decide ((s.kport 0).state = 3))) = true) ?_)
  rcases hk with hk | hk
  · subst hk
    simp [h3]
  · rw [decide_eq_false hk, h3]
    simp

theorem timeOutputs_hold : Sys2Proof.Rules.TimeOutputs := by
  intro d ppb up t n w k s u
  refine ⟨fun h => ?_, fun h => ?_, fun h => ?_, fun h => ?_, fun h => ?_, fun h => ?_, fun h0 h1 h2 => ?_, fun h => ?_, fun h => ⟨?_, ?_, ?_⟩,
    fun h => ⟨?_, ?_⟩, fun h1 h2 m => ?_, fun h3 hk => ?_, fun h => ?_, fun h0 h1 h2 h3 => ?_, fun h => ?_⟩
  · have hv : exec (.timeServoUpdate d ppb t) s = .next _ := congrArg Host.Outcome.next (if_neg h)
    obtain ⟨hlo, hhi, hmove⟩ := trim_bounds ((u.now - s.tsrc.servoAt) / 10000000 : Nat) s.clocks.trim ppb (Int.natCast_nonneg _)
    exact ⟨_, hv, rfl, hlo, hhi, hmove, rfl, rfl⟩
  · exact congrArg Host.Outcome.next (if_pos h)
  · exact congrArg Host.Outcome.next (if_pos h)
  · exact congrArg Host.Outcome.next (if_neg (by rw [h]; exact Bool.false_ne_true))
  · exact congrArg Host.Outcome.next (if_pos h)
  · exact congrArg Host.Outcome.next (if_neg (Nat.not_le.mpr h))
  · refine congrArg Host.Outcome.next (if_neg (c := (decide (t % 1000000000 ≠ 0) || decide (t < s.now) || u.ppsHeld) = true) ?_)
    simpa [h2] using ⟨h0, h1⟩
  · refine congrArg Host.Outcome.next (if_pos (c := (decide (t % 1000000000 ≠ 0) || decide (t < s.now) || u.ppsHeld) = true) ?_)
    simpa [or_assoc] using h
  · exact congrArg Host.Outcome.next (if_pos h)
  · exact congrArg Host.Outcome.next (if_pos h)
  · exact congrArg Host.Outcome.next (if_pos h)
  · exact congrArg Host.Outcome.next ((if_neg (by rw [show u.tsrc.ptpMode = 2 from h]; decide)).trans (if_pos h))
  · exact congrArg Host.Outcome.next ((if_neg (by rw [show u.tsrc.ptpMode = 2 from h]; decide)).trans (if_pos h))
  · exact congrArg Host.Outcome.next ((if_neg h1).trans (if_neg h2))
  · rw [kclTime_of_used h3 hk]
    refine ⟨_, rfl, ?_⟩
    dsimp only
    by_cases hc : s.tsrc.cur = 2
    · rw [if_pos hc]
      exact ⟨rfl, by simp only [Bool.and_eq_true, decide_eq_true_eq]; rfl, fun _ => rfl, fun h => absurd hc h⟩
    · rw [if_neg hc]
      exact ⟨rfl, by simp only [Bool.and_eq_true, decide_eq_true_eq], fun h => absurd h hc, fun _ => rfl⟩
  · refine congrArg Host.Outcome.next (if_pos (c := (decide ((s.kport k).state ≠ 3) || (decide (k = 1) && decide ((s.kport 0).state = 3))) = true) ?_)
    simpa using h
  · refine congrArg Host.Outcome.next
      (if_neg (c := (decide (t % 500000 ≠ 0) || decide (t < s.now) || decide (s.pins.aliveAt = t) || !s.firmwareRuns) = true) ?_)
    simpa [h2, h3] using ⟨h0, h1⟩
  · refine congrArg Host.Outcome.next
      (if_pos (c := (decide (t % 500000 ≠ 0) || decide (t < s.now) || decide (s.pins.aliveAt = t) || !s.firmwareRuns) = true) ?_)
    simpa [or_assoc] using h

theorem clockClasses_hold : Sys2Proof.Rules.ClockClasses := by
  intro c
  refine ⟨fun h => ?_, fun h => ?_, fun h hf => ?_, fun h hf hl => ?_, fun h hf hl => ?_⟩
  · simp [TimeSrc.announced, h]
  · simp [TimeSrc.announced, h]
  · simp [TimeSrc.announced, h, hf]
  · simp [TimeSrc.announced, h, hf, hl]
  · rw [TimeSrc.announced, h, hf, decide_eq_false hl]
    rfl

/-- Settles O46: sources by their bits and times, the servo by the bounds of its two clamps, outputs case by case. -/
theorem panelTime : Obligations.PanelTime := ⟨timeSources_hold, timeOutputs_hold, clockClasses_hold⟩

end Sys2Proof.Machine
end

section
/-! PROOFS. The thermal cap, the thermal emergency and the forecaster (O48). -/

namespace Sys2Proof.Machine

open Sys2Proof

/-! ### Theta and the cap (R389 to R391) -/

section
variable (k : Thermal) (a b e : Bool) (now_ : Nat)

/-- Theta by the means: the temperature above the inlet and the input power. -/
def Thermal.withTheta (k : Thermal) (hot tin : Int) (pin : Nat) : Thermal :=
  if pin < 2000 then k else { k with
    thetaN := (hot - tin).toNat, thetaD := 100 * pin, theta := BitVec.ofNat 16 (min ((hot - tin).toNat * 1000000 / (100 * pin)) 65535) }

theorem measured_none (h : k.means a b e now_ = none) : k.measured a b e now_ = k := by
  unfold Thermal.measured
  rw [h]
theorem measured_some {hot tin : Int} {pin : Nat} (h : k.means a b e now_ = some (hot, tin, pin)) : k.measured a b e now_ =
    { k.withTheta hot (k.tIn tin) pin with targetW := BitVec.ofNat 16 ((k.withTheta hot (k.tIn tin) pin).target (k.tIn tin)) } := by
  unfold Thermal.measured
  rw [h]
  rfl

end

/-! ### The emergency (R392 to R394) -/

section
variable (s : State) (n : Nat)

theorem recap_only (force : Bool) : ∃ p l, s.recap force n = { s with power := p, log := l } := by
  unfold State.recap
  dsimp only
  split
  · exact ⟨_, _, rfl⟩
  · exact ⟨_, _, rfl⟩

theorem State.ut_alert (p : Pos) : s.alert.ut p = s.ut p := rfl

/-- The emergency with the cap at BASE_W, before its records. -/
def State.emergencyHeld (s : State) (n : Nat) : State :=
  (s.emergencyOn n).stepsThrottled.modTherm fun k => { k with thermalW := (s.emergencyOn n).power.baseW }
theorem emergency_only : ∃ p l, s.emergency n = { s.emergencyHeld n with power := p, log := l } := by
  obtain ⟨p, l, h⟩ := recap_only (s.emergencyHeld n) n true
  have he : s.emergency n = ((s.emergencyHeld n).recap true n).logRec 0x51 .firmware [1, n] := emergency_eq s n
  rw [he, h]
  exact ⟨_, _, rfl⟩

theorem stepsThrottled_keeps (x : State) : x.stepsThrottled.therm = x.therm ∧ x.stepsThrottled.clocks = x.clocks ∧ x.stepsThrottled.pins = x.pins ∧
    ∀ p, (x.stepsThrottled.ut p).clk = (x.ut p).clk := by
  obtain ⟨⟨_, _, _, _, _, _, _, _, _, _, h⟩, hu, -⟩ := abortEnd_onlyAborts
    (x.modIntake fun i => { i with steps := i.steps.map fun r => { r with throttled := true } }) (.status .stepAborted) 0x7F (some .stepAborted) .stepAborted
  have hs : x.stepsThrottled = _ := h
  refine ⟨by rw [hs]; rfl, by rw [hs]; rfl, by rw [hs]; rfl, fun p => ?_⟩
  obtain ⟨⟨_, _, _, _, _, _, hp⟩, -⟩ := hu p
  have hx : x.stepsThrottled.ut p = _ := hp
  rw [hx]
  rfl

/-- The steps and the sources of the tiles as R393 leaves them. -/
theorem allSafe_ut (x : State) (p : Pos) (h : (x.ut p).alive = true) : (x.allSafe.ut p).clk.sel = 2 ∧ (x.allSafe.ut p).clk.step = 5 := by
  have hu (y : State) (f : ClkStep → ClkStep) : (y.modStepReg f).ut p = y.ut p := rfl
  rw [State.allSafe, hu, State.ut_allUts, if_pos h]
  exact ⟨rfl, rfl⟩
theorem allSafe_clocks (x : State) : x.allSafe.clocks.step.wCur = 5 ∧ x.allSafe.clocks.step.eCur = 5 := ⟨rfl, rfl⟩

/-- The emergency is declared. -/
def State.declared (s : State) (n : Nat) : State :=
  s.modTherm fun k => { k with emerg := true, emergencies := k.emergencies + 1, lastCause := BitVec.ofNat 4 n, goodSince := none }
theorem emergencyOn_ut (p : Pos) : (s.emergencyOn n).ut p = (s.declared n).allSafe.ut p := by
  unfold State.emergencyOn State.declared
  exact State.ut_alert _ _

theorem emergency_leaves : (s.emergency n).therm.emerg = true ∧ (s.emergency n).therm.thermalW = s.power.baseW ∧ (s.emergency n).clocks.step.wCur = 5 ∧
    (s.emergency n).clocks.step.eCur = 5 ∧ (s.emergency n).pins.alertN = false ∧
    (∀ p, (s.ut p).alive = true → ((s.emergency n).ut p).clk.sel = 2 ∧ ((s.emergency n).ut p).clk.step = 5) := by
  obtain ⟨p, l, h⟩ := emergency_only s n
  obtain ⟨hth, hcl, hpi, hu⟩ := stepsThrottled_keeps (s.emergencyOn n)
  have hut (q : Pos) : ((s.emergency n).ut q).clk = ((s.emergencyOn n).ut q).clk := by
    rw [← hu, h]
    rfl
  have hth' : (s.emergency n).therm = { (s.emergencyOn n).therm with thermalW := (s.emergencyOn n).power.baseW } := by rw [h, ← hth]; rfl
  have hcl' : (s.emergency n).clocks = (s.emergencyOn n).clocks := by rw [h, ← hcl]; rfl
  have hpi' : (s.emergency n).pins = (s.emergencyOn n).pins := by rw [h, ← hpi]; rfl
  rw [hth', hcl', hpi']
  refine ⟨rfl, rfl, rfl, rfl, ?_, fun q ha => ?_⟩
  · show ((s.lkh.pstate == .active || s.lkh.pstate == .standby) && !true && !s.therm.thermBad && !s.intake.stopped && s.pins.thermTripN) = false
    simp
  · rw [hut, emergencyOn_ut]
    exact allSafe_ut (s.declared n) q ha

theorem emergencyExit_waits {t : Nat}
    (h : s.therm.emerg = false ∨ s.therm.goodSince = none ∨ ∃ k, s.therm.goodSince = some k ∧ (s.at_ t).now < k + 10000000000) :
    execThermalEmergencyExit t s = .next (s.at_ t) := by
  have hs : (s.at_ t).therm = s.therm := rfl
  unfold execThermalEmergencyExit
  dsimp only
  rw [hs]
  split
  · next g he hg =>
    rcases h with h | h | ⟨k, hk, hn⟩
    · rw [h] at he
      cases he
    · rw [h] at hg
      cases hg
    · rw [hk] at hg
      cases hg
      rw [if_pos hn]
  · rfl

end

theorem thermalCap_holds : Sys2Proof.Rules.ThermalCap := by
  intro a b e t c s u m w g
  have hup : exec (.thermalCapUpdate a b e t) s = .next (if (m.capMoves && decide (g < w)) = true then
      (m.modTherm fun k => { k with thermalW := BitVec.ofNat 16 (m.clipCap (max (w * 95 / 100) g)) }).recap false 1 else m) := by
    have hw : m.therm.thermalW = s.therm.thermalW := by
      show (s.therm.measured a b e u.now).thermalW = s.therm.thermalW
      cases hm : s.therm.means a b e u.now with
      | none => rw [measured_none s.therm a b e u.now hm]
      | some x =>
        obtain ⟨hot, tin, pin⟩ := x
        rw [measured_some s.therm a b e u.now hm]
        unfold Thermal.withTheta
        split
        · rfl
        · rfl
    have hw' : w = m.therm.thermalW.toNat := congrArg BitVec.toNat hw.symm
    clear_value w
    subst hw'
    rfl
  have hrise : exec (.thermalCapRise t) s = .next (if (s.capMoves && decide (w < s.therm.targetW.toNat)) = true then
      (u.modTherm fun k => { k with thermalW := BitVec.ofNat 16 (u.clipCap (min (w * 105 / 100) s.therm.targetW.toNat)) }).recap false 1 else u) := rfl
  have hem : exec (.thermalEmergency c t) s = .next (if (s.therm.emerg || !s.drawsPower || !s.mustEmergency c) = true then u else u.emergency (c.val + 1)) := rfl
  refine ⟨fun h1 h2 => ?_, fun h => ?_, fun k n => ⟨measured_none k a b e n, fun hot tin pin hm => ?_⟩, fun h1 h2 => ?_, fun h => ?_,
    fun h1 h2 h3 => ?_, fun h => ?_, emergency_leaves s, fun k he hk ht => ?_, emergencyExit_waits s⟩
  · rw [hup, if_pos (by rw [h1, decide_eq_true h2]; rfl)]
  · rw [hup, if_neg (by rcases h with h | h <;> simp [h])]
  · dsimp only
    rw [measured_some k a b e n hm]
    refine ⟨fun h => ?_, fun h => ?_, rfl⟩
    · rw [Thermal.withTheta, if_neg (Nat.not_lt.mpr h)]
      exact ⟨rfl, rfl, rfl⟩
    · rw [Thermal.withTheta, if_pos h]
      exact ⟨rfl, rfl⟩
  · rw [hrise, if_pos (by rw [h1, decide_eq_true h2]; rfl)]
  · rw [hrise, if_neg (by rcases h with h | h <;> simp [h])]
  · rw [hem, if_neg (by rw [h1, h2, h3]; decide)]
  · rw [hem, if_pos (by rcases h with h | h | h <;> simp [h])]
  · show execThermalEmergencyExit t s = _
    unfold execThermalEmergencyExit
    dsimp only
    rw [show (s.at_ t).therm = s.therm from rfl, he, hk]
    exact congrArg Host.Outcome.next (if_neg (Nat.not_lt.mpr ht))

/-! ### The forecaster (R395 to R397) -/

theorem length_planFrom (s : State) (tin : Int) (floor len n i pf : Nat) : (s.planFrom tin floor len n i pf).length = n := by
  induction n generalizing i pf with
  | zero => rfl
  | succ n ih => exact congrArg (· + 1) (ih _ _)

/-- The state with the plan that is made now. -/
def State.planFloorNow (s : State) : Nat := if s.therm.emerg then 5 else min 5 (max (s.planFloor .west) (s.planFloor .east))
def State.planNow (s : State) : List (Nat × BitVec 3 × BitVec 3) :=
  s.planFrom (s.therm.tIn s.therm.inlet.toNat) s.planFloorNow s.pcfg.len.toNat s.horizonPounds 0 (s.power.pin.toNat * 1000)
def State.withPlan (s : State) (l : List (Nat × BitVec 3 × BitVec 3)) : State :=
  s.modTherm fun k => { k with plan := l, horizon := BitVec.ofNat 16 (min l.length 65535) }
def State.planned (s : State) : State := s.withPlan s.planNow
theorem withPlan_held (s : State) (l : List (Nat × BitVec 3 × BitVec 3)) : (s.withPlan l).therm.emerg = s.therm.emerg ∧
    (s.withPlan l).clocks = s.clocks := ⟨rfl, rfl⟩
/-- The change that is due is asked for, where none is under way. -/
def State.forecastAsks (v : State) (d : Option (BitVec 3)) : State :=
  match d with
  | some st => if v.therm.emerg || v.clocks.step.pendW || v.clocks.step.pendE then v else v.askSteps st st
  | none => v

theorem forecastUpdate_eq (t : Nat) (s : State) : ∃ u, u = s.at_ t ∧ execForecastUpdate t s = .next (
    if u.lkh.pstate != .active || u.poundNs = 0 then u else u.planned.forecastAsks (u.planned.dueChange u.planNow)) := by
  unfold execForecastUpdate
  extract_lets s0 floor plan s1
  refine ⟨s0, rfl, ?_⟩
  have h1 : s1 = s0.planned := rfl
  have hp : plan = s0.planNow := rfl
  rw [h1, hp]
  clear_value s1 plan s0
  cases s0.planned.dueChange s0.planNow with
  | none => rfl
  | some c => rfl

theorem forecastAsks_held {v : State} {d : Option (BitVec 3)}
    (h : d = none ∨ v.therm.emerg = true ∨ v.clocks.step.pendW = true ∨ v.clocks.step.pendE = true) : v.forecastAsks d = v := by
  cases d with
  | none => rfl
  | some c => exact if_pos (by simpa [or_assoc] using h)
theorem forecastAsks_some {v : State} {c : BitVec 3} (h : ¬(v.therm.emerg = true ∨ v.clocks.step.pendW = true ∨ v.clocks.step.pendE = true)) :
    v.forecastAsks (some c) = v.askSteps c c := if_neg (by simpa [or_assoc] using h)

theorem forecasts_hold : Sys2Proof.Rules.Forecasts := by
  intro t s u floor plan v held
  obtain ⟨x, hxu, hx⟩ := forecastUpdate_eq t s
  have hth : u.therm = s.therm := rfl
  have hcl : u.clocks = s.clocks := rfl
  have hl : u.lkh = s.lkh := rfl
  have hn : u.poundNs = s.poundNs := rfl
  have hpc : u.pcfg = s.pcfg := rfl
  have hpw : u.power = s.power := rfl
  have hu : x = u := hxu
  have he : exec (.forecastUpdate t) s = execForecastUpdate t s := rfl
  clear_value u
  subst hu
  have hfloor : x.planFloorNow = floor := by rw [State.planFloorNow, hth]
  have hplan : x.planNow = plan := by rw [State.planNow, hth, hpc, hpw, hfloor]
  have hv : x.planned = v := by
    rw [State.planned, hplan]
    rfl
  have hlen : plan.length = x.horizonPounds := length_planFrom ..
  have hheld : (v.therm.emerg = true ∨ v.clocks.step.pendW = true ∨ v.clocks.step.pendE = true) ↔ held := by
    obtain ⟨he, hc⟩ := withPlan_held x plan
    rw [← hv, State.planned, hplan, he, hc, hth, hcl]
  rw [hplan, hv] at hx
  clear_value v plan held
  rw [he, hx, hl, hn]
  refine ⟨fun h => ?_, fun hact hp => ⟨hlen, fun h => ?_, fun c hc hh => ?_⟩⟩
  · rw [if_pos (by simpa using h)]
  · rw [if_neg (by rw [hact, decide_eq_false hp]; decide), forecastAsks_held (h.imp_right hheld.2)]
  · rw [if_neg (by rw [hact, decide_eq_false hp]; decide), hc, forecastAsks_some fun h => hh (hheld.1 h)]

/-- Settles O48: the cap by its two moves, the emergency by what its steps set and the aborts leave, the plan by its length. -/
theorem capAndForecast : Obligations.CapAndForecast := ⟨thermalCap_holds, forecasts_hold⟩

end Sys2Proof.Machine
end

section
/-! PROOFS. Start-up stages and their results (O50). -/

namespace Sys2Proof.Machine

open Sys2Proof

/-! ### A start-up stage in its turn (R398 to R401) -/

section
variable (s : State) (k : Fin 11) (r : StageIn) (timeout : Bool)

/-- The stage's turn has come; stage 0x04 waits for the coolant up to 30 s. -/
def State.stageTurn : Prop := s.atStage k.val = true ∧ (k = 4 → s.coolantGood = true ∨ 30000 ≤ r.durMs.toNat)
/-- With what the stage counts and the units that failed its tests. -/
def State.stageBegun : State := { s with lkh := { s.lkh with
  coldStarts := if k = 0 then s.lkh.coldStarts + 1 else s.lkh.coldStarts, testBad := if k = 0 then [] else s.lkh.testBad ++ r.failing } }
/-- With its work done and reported, and the next stage named. -/
def State.stageDone (next : Nat) : State :=
  let v := (s.stageAct k.val r).stageReport k (if timeout || !r.failing.isEmpty then 1 else 0) r.durMs.toNat r.t 0 r.failing
  { v with lkh := { v.lkh with stageNext := next } }

theorem stageTurn_iff : s.stageTurn k r ↔ ¬(!s.atStage k.val || (k = 4 && !s.coolantGood && decide (r.durMs.toNat < 30000))) = true := by
  unfold State.stageTurn
  cases s.atStage k.val
  · simp
  · cases s.coolantGood <;> simp

variable {s k r timeout}

theorem runStage_waits (h : ¬(s.at_ r.t).stageTurn k r) : s.runStage k r timeout = s.at_ r.t := by
  rw [stageTurn_iff, not_not] at h
  exact if_pos h
theorem runStage_done (h : (s.at_ r.t).stageTurn k r) (hf : ((s.at_ r.t).stageBegun k r).stageFails k.val r = none) :
    s.runStage k r timeout = ((s.at_ r.t).stageBegun k r).stageDone k r timeout ((s.at_ r.t).lkh.stageAfter k.val) := by
  rw [stageTurn_iff] at h
  unfold State.stageBegun at *
  unfold State.runStage State.stageDone
  dsimp only at h hf ⊢
  rw [if_neg h, hf]
  rfl
theorem runStage_fails {x : Nat} (h : (s.at_ r.t).stageTurn k r) (hf : ((s.at_ r.t).stageBegun k r).stageFails k.val r = some x) :
    s.runStage k r timeout = (((s.at_ r.t).stageBegun k r).stageReport k 2 r.durMs.toNat r.t x r.failing).haltStart := by
  rw [stageTurn_iff] at h
  unfold State.stageBegun at *
  unfold State.runStage
  dsimp only at h hf ⊢
  rw [if_neg h, hf]

end

theorem exec_stage00 (r : StageIn) (s : State) : exec (.stage00 r) s = .next (s.runStage 0 r false) := show exec (.stage00 r) s = execStage00 r s from rfl
theorem exec_stage01 (r : StageIn) (s : State) : exec (.stage01 r) s = .next (s.runStage 1 r false) := show exec (.stage01 r) s = execStage01 r s from rfl
theorem exec_stage02 (r : StageIn) (s : State) : exec (.stage02 r) s = .next (s.runStage 2 r false) := show exec (.stage02 r) s = execStage02 r s from rfl
theorem exec_stage03 (r : StageIn) (s : State) : exec (.stage03 r) s = .next (s.runStage 3 r false) := show exec (.stage03 r) s = execStage03 r s from rfl
theorem exec_stage04 (r : StageIn) (s : State) : exec (.stage04 r) s = .next (s.runStage 4 r false) := show exec (.stage04 r) s = execStage04 r s from rfl
theorem exec_stage05 (r : StageIn) (s : State) : exec (.stage05 r) s = .next (s.runStage 5 r false) := show exec (.stage05 r) s = execStage05 r s from rfl
theorem exec_stage06 (r : StageIn) (s : State) : exec (.stage06 r) s = .next (s.runStage 6 r false) := show exec (.stage06 r) s = execStage06 r s from rfl
theorem exec_stage07 (r : StageIn) (s : State) : exec (.stage07 r) s = .next (s.runStage 7 r false) := show exec (.stage07 r) s = execStage07 r s from rfl
theorem exec_stage08 (r : StageIn) (s : State) : exec (.stage08 r) s = .next (s.runStage 8 r false) := show exec (.stage08 r) s = execStage08 r s from rfl
theorem exec_stage09 (r : StageIn) (s : State) : exec (.stage09 r) s = .next (s.runStage 9 r false) := show exec (.stage09 r) s = execStage09 r s from rfl
theorem exec_stage0A (r : StageIn) (s : State) : exec (.stage0A r) s = .next (s.runStage 10 r false) := show exec (.stage0A r) s = execStage0A r s from rfl

theorem stages_hold : Sys2Proof.Rules.Stages := by
  intro r s u pre did turn run n
  have hres : n = if false || !r.failing.isEmpty then 1 else 0 := by
    show (if r.failing = [] then 0 else 1) = _
    cases r.failing <;> rfl
  have hrun (k : Fin 11) (b : Bool) (res : Nat) (c : Instr) (hc : exec c s = .next (s.runStage k r b))
      (hb : res = if b || !r.failing.isEmpty then 1 else 0) : run k res c := by
    subst hb
    exact ⟨fun ht hf => hc.trans (congrArg Host.Outcome.next (runStage_done ht hf)),
      fun x ht hf => hc.trans (congrArg Host.Outcome.next (runStage_fails ht hf)),
      fun ht => hc.trans (congrArg Host.Outcome.next (runStage_waits ht))⟩
  refine ⟨?_, ?_, ?_, ?_, ?_, ?_, ?_, ?_, ?_, ?_, ?_, ?_⟩
  · exact hrun _ false n _ (exec_stage00 r s) hres
  · exact hrun _ false n _ (exec_stage01 r s) hres
  · exact hrun _ false n _ (exec_stage02 r s) hres
  · exact hrun _ false n _ (exec_stage03 r s) hres
  · exact hrun _ false n _ (exec_stage04 r s) hres
  · exact hrun _ false n _ (exec_stage05 r s) hres
  · exact hrun _ false n _ (exec_stage06 r s) hres
  · exact hrun _ false n _ (exec_stage07 r s) hres
  · exact hrun _ false n _ (exec_stage08 r s) hres
  · exact hrun _ false n _ (exec_stage09 r s) hres
  · exact hrun _ false n _ (exec_stage0A r s) hres
  · exact hrun r.stage true 1 (.stageTimeout r) (show exec (.stageTimeout r) s = execStageTimeout r s from rfl) rfl

/-! ### Stage 0x03: the part (R403, R408, R409) -/

theorem partOf_toNat (w : Word) : (partOf w).toNat = 1 + (Config.partCode w).toNat % 3 := by
  rw [partOf, BitVec.toNat_ofNat]
  omega

/-- The LTs of a bank-row. -/
def rowLts (b : Nat) : List Lt := (List.finRange 120).filter fun x => rowOf (homeOf x) == b / 2 && (ltBank x == .east) == (b % 2 == 1)

theorem rowLts_length : ∀ b : Fin 24, (rowLts b.val).length = 5 := by decide
theorem mem_rowLts {b : Nat} {l : Lt} (h : l ∈ rowLts b) : rowOf (homeOf l) = b / 2 ∧ (ltBank l = .east ↔ b % 2 = 1) := by
  obtain ⟨-, h⟩ := List.mem_filter.mp h
  rw [Bool.and_eq_true, beq_iff_eq, beq_iff_eq, Bool.eq_iff_iff, beq_iff_eq, beq_iff_eq] at h
  exact h

section
variable (w : Word)

theorem absent_of_row {b : Nat} (h : b < 24) : ∃ l, (rowLts b)[Config.partAbsent w b % 5]? = some l ∧ l ∈ rowLts b := by
  have hl : Config.partAbsent w b % 5 < (rowLts b).length := by
    rw [rowLts_length ⟨b, h⟩]
    exact Nat.mod_lt _ (by decide)
  exact ⟨_, List.getElem?_eq_getElem hl, List.getElem_mem hl⟩

theorem absentLts_length : (absentLts w).length = 24 := by
  have h : (absentLts w).length = (List.range 24).countP fun b => ((rowLts b)[Config.partAbsent w b % 5]?).isSome := List.length_filterMap_eq_countP
  rw [h, List.countP_eq_length.mpr, List.length_range]
  intro b hb
  obtain ⟨l, hl, -⟩ := absent_of_row w (List.mem_range.mp hb)
  rw [hl]
  rfl
theorem absentLts_row {b : Nat} (h : b < 24) : ∃ l ∈ absentLts w, rowOf (homeOf l) = b / 2 ∧ (ltBank l = .east ↔ b % 2 = 1) := by
  obtain ⟨l, hl, hm⟩ := absent_of_row w h
  exact ⟨l, List.mem_filterMap.mpr ⟨b, List.mem_range.mpr h, hl⟩, mem_rowLts hm⟩

/-- Picks are as many as asked for, different, and of the list. -/
theorem picks_spec (f : Nat → Nat) (n : Nat) (l : List Nat) (hn : n ≤ l.length) (hd : l.Nodup) :
    (picks f n l).length = n ∧ (picks f n l).Nodup ∧ picks f n l ⊆ l := by
  induction n generalizing l with
  | zero => exact ⟨rfl, .nil, List.nil_subset l⟩
  | succ n ih =>
    have hk : f n % l.length < l.length := Nat.mod_lt _ (by omega)
    have hm : l[f n % l.length] ∈ l := List.getElem_mem hk
    have hp : picks f (n + 1) l = l[f n % l.length] :: picks f n (l.erase l[f n % l.length]) := by
      rw [picks, List.getElem?_eq_getElem hk]
    obtain ⟨h1, h2, h3⟩ := ih (l.erase l[f n % l.length]) (by rw [List.length_erase_of_mem hm]; omega) (hd.erase _)
    rw [hp]
    exact ⟨by rw [List.length_cons, h1], List.nodup_cons.mpr ⟨fun h => hd.not_mem_erase (h3 h), h2⟩,
      List.cons_subset.mpr ⟨hm, fun x hx => List.mem_of_mem_erase (h3 hx)⟩⟩

/-- The rows of the disabled stacks. -/
def disabledRows : List Nat := picks (Config.partDisabled w) 6 (List.range 12)
theorem disabledRows_spec : (disabledRows w).length = 6 ∧ (disabledRows w).Nodup ∧ ∀ r ∈ disabledRows w, r < 12 := by
  obtain ⟨h1, h2, h3⟩ := picks_spec (Config.partDisabled w) 6 (List.range 12) (by decide) List.nodup_range
  exact ⟨h1, h2, fun r hr => List.mem_range.mp (h3 hr)⟩
theorem disabledStacks_eq : disabledStacks w = (disabledRows w).take 3 ++ ((disabledRows w).drop 3).map fun r => 12 + r := rfl
theorem disabledRows_take_length : ((disabledRows w).take 3).length = 3 := by rw [List.length_take, (disabledRows_spec w).1]; rfl

theorem disabledStacks_length : (disabledStacks w).length = 6 := by
  rw [disabledStacks_eq, List.length_append, disabledRows_take_length, List.length_map, List.length_drop, (disabledRows_spec w).1]
theorem disabledStacks_west : ∀ n ∈ (disabledStacks w).take 3, n < 12 := by
  rw [disabledStacks_eq, List.take_left' (disabledRows_take_length w)]
  exact fun n hn => (disabledRows_spec w).2.2 n (List.mem_of_mem_take hn)
theorem disabledStacks_east : ∀ n ∈ (disabledStacks w).drop 3, 12 ≤ n ∧ n < 24 := by
  rw [disabledStacks_eq, List.drop_left' (disabledRows_take_length w)]
  intro n hn
  obtain ⟨r, hr, rfl⟩ := List.mem_map.mp hn
  have := (disabledRows_spec w).2.2 r (List.mem_of_mem_drop hr)
  omega
theorem disabledStacks_rows : (disabledStacks w).Pairwise fun a b => a % 12 ≠ b % 12 := by
  obtain ⟨-, hd, hlt⟩ := disabledRows_spec w
  have hm : (disabledStacks w).map (· % 12) = disabledRows w := by
    rw [disabledStacks_eq, List.map_append, List.map_map]
    have h1 : ((disabledRows w).take 3).map (· % 12) = (disabledRows w).take 3 :=
      (List.map_congr_left (g := id) fun r hr => Nat.mod_eq_of_lt (hlt r (List.mem_of_mem_take hr))).trans (List.map_id _)
    have h2 : ((disabledRows w).drop 3).map ((· % 12) ∘ fun r => 12 + r) = (disabledRows w).drop 3 := by
      refine (List.map_congr_left (g := id) fun r hr => ?_).trans (List.map_id _)
      have := hlt r (List.mem_of_mem_drop hr)
      simp only [Function.comp, id]
      omega
    rw [h1, h2, List.take_append_drop]
  rw [← hm] at hd
  exact List.pairwise_map.mp hd

end

theorem act03_leaves (s0 : State) (r : StageIn) (w : Word) : (s0.act03 r w).lkh.part = partOf w ∧ (s0.act03 r w).lkh.mapUnverified = !r.mapOk ∧
    (partOf w = 3 → ∀ l ∈ absentLts w, l ∈ (s0.act03 r w).lkh.absent) ∧
    (partOf w = 2 → ∀ n : Fin 24, n.val ∈ disabledStacks w → ((s0.act03 r w).hbm[n]).present = false) := by
  refine ⟨rfl, rfl, fun h l hl => ?_, fun h n hn => ?_⟩
  · refine List.mem_append_left _ ?_
    show l ∈ if partOf w = 3 then absentLts w else []
    rw [if_pos h]
    exact hl
  · have hv : (s0.act03 r w).hbm[n] = if ((partOf w == 2 && (disabledStacks w).contains n.val) || s0.fdrRead.lkh.absentStacks.getLsbD n.val) = true then
        { s0.fdrRead.hbm[n] with present := false } else s0.fdrRead.hbm[n] := Vector.getElem_ofFn ..
    rw [hv, if_pos (by simp [h, hn])]

/-! ### Stage 0x04: reaches and VNET -/

section
variable (s : State) (p q : Pos) (x : ReachN)

theorem modBerth_ut (k : Fin 64) (f : Berth → Berth) : ∃ b, (s.modBerth p k f).ut q = { s.ut q with berths := b } := by
  rw [State.modBerth, State.ut_modUt_ite]
  split
  · exact ⟨_, rfl⟩
  · exact ⟨_, rfl⟩
theorem voidBarge_ut (pk : Packet) (st : Status) : ∃ b, (s.voidBarge p pk st).ut q = { s.ut q with berths := b } := by
  unfold State.voidBarge
  dsimp only
  split
  · exact ⟨_, rfl⟩
  · rw [(reply_kept ..).2.2, State.ut_modCore]
    exact modBerth_ut ..
theorem voidBarge_only (pk : Packet) (st : Status) : OnlyTilesAndNet s (s.voidBarge p pk st) := by
  unfold State.voidBarge
  dsimp only
  split
  · exact .refl s
  · generalize hv : (s.modBerth _ _ _).modCore _ _ = v
    obtain ⟨ns, n, h⟩ := reply_onlyNet (s := v) (p := p) (q := pk) (st := st) (data := [])
    rw [h, ← hv]
    exact ⟨_, _, _, rfl⟩

/-- A sender's barges void berths' entries and answer packets. -/
def VoidsOnly (s t : State) : Prop := OnlyTilesAndNet s t ∧ ∀ q, ∃ b, t.ut q = { s.ut q with berths := b }
theorem VoidsOnly.refl : VoidsOnly s s := ⟨.refl s, fun _ => ⟨_, rfl⟩⟩
theorem VoidsOnly.trans {s t u : State} (a : VoidsOnly s t) (b : VoidsOnly t u) : VoidsOnly s u := by
  refine ⟨a.1.trans b.1, fun q => ?_⟩
  obtain ⟨x, hx⟩ := a.2 q
  obtain ⟨y, hy⟩ := b.2 q
  exact ⟨y, by rw [hy, hx]⟩
theorem voidSender_voidsOnly (st : Status) : VoidsOnly s (s.voidSender p st) := by
  unfold State.voidSender
  split
  · exact .refl s
  · refine foldl_rel (R := VoidsOnly) .refl .trans (fun s a => ?_) _ s
    split
    · split
      · exact ⟨voidBarge_only .., fun q => voidBarge_ut ..⟩
      · exact .refl s
    · exact .refl s

/-- The loss of a position changes tiles, packets, stacks, ports and errands. -/
theorem losePos_only : ∃ ts ns n h ps es, s.losePos p = { s with tiles := ts, net := ns, nextPkt := n, hbm := h, ports := ps, errands := es } := by
  by_cases hl : (s.ut p).flags.lost = true
  · rw [State.losePos, if_pos hl]
    exact ⟨_, _, _, _, _, _, rfl⟩
  · rw [losePos_eq s p (by simpa using hl)]
    obtain ⟨⟨ts, ns, n, hv⟩, -⟩ := voidSender_voidsOnly s p .tileFenced
    have h1 : ∃ ts ns n, s.positionGone p = { s with tiles := ts, net := ns, nextPkt := n } := by
      rw [State.positionGone, hv]
      exact ⟨_, _, _, rfl⟩
    have h2 (t : State) : ∃ ts, t.dropSeams p = { t with tiles := ts } := by
      refine foldl_rel (R := fun s t => ∃ ts, t = { s with tiles := ts }) (fun _ => ⟨_, rfl⟩) (fun ⟨_, a⟩ ⟨_, b⟩ => ⟨_, b.trans (by rw [a])⟩)
        (fun t d => ?_) _ t
      unfold State.dropSeam
      split
      · exact ⟨_, rfl⟩
      · exact ⟨_, rfl⟩
    have h3 (t : State) : ∃ h, t.stackGone p = { t with hbm := h } := by
      unfold State.stackGone
      split
      · exact ⟨_, rfl⟩
      · exact ⟨_, rfl⟩
    have h4 (t : State) : ∃ ps es, t.portGone p = { t with ports := ps, errands := es } := by
      unfold State.portGone
      split
      · exact ⟨_, _, rfl⟩
      · exact ⟨_, _, rfl⟩
    obtain ⟨_, _, _, e1⟩ := h1
    obtain ⟨_, e2⟩ := h2 (s.positionGone p)
    obtain ⟨_, e3⟩ := h3 ((s.positionGone p).dropSeams p)
    obtain ⟨_, _, e4⟩ := h4 (((s.positionGone p).dropSeams p).stackGone p)
    exact ⟨_, _, _, _, _, _, by rw [e4, e3, e2, e1]⟩
/-- Other under-tiles lose crossings and entries of berths. -/
theorem losePos_ut_ne (h : q ≠ p) : ∃ b y, (s.losePos p).ut q = { s.ut q with berths := b, xing := y } := by
  by_cases hl : (s.ut p).flags.lost = true
  · rw [State.losePos, if_pos hl]
    exact ⟨_, _, rfl⟩
  · rw [losePos_eq s p (by simpa using hl), portGone_ut, stackGone_ut]
    obtain ⟨y, hy⟩ := dropSeams_ut (s.positionGone p) p q
    obtain ⟨b, hb⟩ := (voidSender_voidsOnly s p .tileFenced).2 q
    have hg : (s.positionGone p).ut q = (s.voidSender p .tileFenced).ut q := by
      rw [State.positionGone, State.ut_eq, State.tile_modTile_ne _ _ _ _ h]
      rfl
    exact ⟨b, y, by rw [hy, hg, hb]⟩

theorem losePos_reaches : (s.losePos p).reaches = s.reaches := by
  obtain ⟨_, _, _, _, _, _, h⟩ := losePos_only s p
  rw [h]
theorem losePos_lost : ((s.losePos p).ut p).flags.lost = true := by
  by_cases hl : (s.ut p).flags.lost = true
  · rw [State.losePos, if_pos hl]
    exact hl
  · exact (losePos_leaves s p (by simpa using hl)).1
theorem failUnit_reaches (unit : BitVec 40) (c : BitVec 8) : (s.failUnit unit c).reaches = s.reaches := by
  unfold State.failUnit
  split
  · rfl
  · dsimp only
    split
    · rfl
    · rfl

variable (r : StageIn)

/-- The positions of a failed reach. -/
def State.loseTiles (s : State) (l : List Pos) : State := l.foldl (fun (s : State) p => s.losePos p) s
theorem loseTiles_reaches (l : List Pos) : (s.loseTiles l).reaches = s.reaches :=
  foldl_reads_same (f := fun (s : State) p => s.losePos p) (g := fun t : State => t.reaches) (fun t q _ => losePos_reaches t q) s
/-- A reach's turn in stage 0x04. -/
def State.startReach (r : StageIn) (s : State) (k : ReachN) : State :=
  if s.reaches[k].lost then s
  else if r.failing.contains (unitId 0x0C k.val) then
    ((s.modReach k fun x => { x with lost := true }).loseTiles (reachTiles k)).failUnit (unitId 0x0C k.val) 0x0B
  else s.modReach k fun x => { x with on := true, pg := true }
/-- An under-tile's turn in stage 0x04; no unit of `banned` may have power. -/
def State.startVnet (banned : BitVec 40 → Bool) (s : State) (p : Pos) : State :=
  if (s.ut p).flags.lost then s
  else if banned (utUnit p) then s.losePos p
  else s.modUt p fun u => { u with pwr := { u.pwr with vnet := true }, clk := { u.clk with exp := true, running := true, expRuns := true } }
theorem act04_eq : s.act04 r = allPos.foldl (State.startVnet fun u => s.lkh.mapTrusted && s.lkh.noPower.contains u)
    ((List.finRange 24).foldl (State.startReach r) s) := rfl

theorem startVnet_reaches (banned : BitVec 40 → Bool) : (State.startVnet banned s p).reaches = s.reaches := by
  unfold State.startVnet
  split
  · rfl
  split
  · exact losePos_reaches s p
  · rfl
theorem startReach_ne {k : ReachN} (h : x ≠ k) : (State.startReach r s k).reaches[x] = s.reaches[x] := by
  unfold State.startReach
  split
  · rfl
  split
  · have hr := (failUnit_reaches ((s.modReach k fun x => { x with lost := true }).loseTiles (reachTiles k)) (unitId 0x0C k.val) 0x0B).trans
      (loseTiles_reaches (s.modReach k fun x => { x with lost := true }) (reachTiles k))
    exact (congrArg (fun v : Vector Reach 24 => v[x]) hr).trans (modReach_ne s k x _ h)
  · exact modReach_ne s k x _ h

theorem act04_reach (hl : s.reaches[x].lost = false) (hf : unitId 0x0C x.val ∉ r.failing) : (s.act04 r).reaches[x].on = true ∧ (s.act04 r).reaches[x].pg = true := by
  have hv : (s.act04 r).reaches = ((List.finRange 24).foldl (State.startReach r) s).reaches := by
    rw [act04_eq]
    exact foldl_reads_same (g := fun t : State => t.reaches) (fun t q _ => startVnet_reaches t q _) _
  rw [hv]
  refine foldl_of_mem_once (f := State.startReach r) (P := fun t : State => t.reaches[x].lost = false)
    (Q := fun t : State => t.reaches[x].on = true ∧ t.reaches[x].pg = true) (List.nodup_finRange 24) (List.mem_finRange x) (fun t ht => ?_)
    (fun t b hb ht => ?_) (fun t b hb ht => ?_) hl
  · have hs : ¬r.failing.contains (unitId 0x0C x.val) = true := fun h => hf (List.contains_iff_mem.mp h)
    unfold State.startReach
    rw [if_neg (by rw [ht]; exact Bool.false_ne_true), if_neg hs, modReach_same]
    exact ⟨rfl, rfl⟩
  · rw [startReach_ne t x r hb.symm, ht]
  · rw [startReach_ne t x r hb.symm]
    exact ht

theorem startVnet_ne (banned : BitVec 40 → Bool) (h : q ≠ p) :
    ((State.startVnet banned s p).ut q).flags = (s.ut q).flags ∧ ((State.startVnet banned s p).ut q).pwr = (s.ut q).pwr := by
  unfold State.startVnet
  split
  · exact ⟨rfl, rfl⟩
  split
  · obtain ⟨_, _, hu⟩ := losePos_ut_ne s p q h
    rw [hu]
    exact ⟨rfl, rfl⟩
  · rw [State.ut_modUt_ne _ _ _ _ h]
    exact ⟨rfl, rfl⟩
theorem act04_vnet (hl : ((s.act04 r).ut p).flags.lost = false) : ((s.act04 r).ut p).pwr.vnet = true := by
  rw [act04_eq] at hl ⊢
  revert hl
  generalize (List.finRange 24).foldl (State.startReach r) s = v
  refine foldl_of_mem_once (f := State.startVnet fun u => s.lkh.mapTrusted && s.lkh.noPower.contains u) (P := fun _ => True)
    (Q := fun t : State => (t.ut p).flags.lost = false → (t.ut p).pwr.vnet = true) allPos_nodup (mem_allPos p) (fun t _ => ?_) (fun _ _ _ _ => trivial)
    (fun t b hb ht => ?_) trivial
  · unfold State.startVnet
    split
    · next h => exact fun h' => absurd (h.symm.trans h') (by decide)
    split
    · exact fun h' => absurd ((losePos_lost t p).symm.trans h') (by decide)
    · rw [State.ut_modUt]
      exact fun _ => rfl
  · obtain ⟨hf, hp⟩ := startVnet_ne t b p (fun u => s.lkh.mapTrusted && s.lkh.noPower.contains u) hb.symm
    rw [hf, hp]
    exact ht

end

/-! ### Stages 0x06 and 0x07: stacks and cores -/

theorem act06_stack (s : State) (m : StackN) (hp : (s.hbm[m]).present = true) (hl : (s.hbm[m]).lost = false) :
    (s.act06.hbm[m]).selfRefresh = false ∧ (s.act06.hbm[m]).mem = (if s.lkh.warmRun then (s.hbm[m]).mem else []) := by
  have h : s.act06.hbm[m] = if (!(s.hbm[m]).present || (s.hbm[m]).lost) = true then s.hbm[m]
      else if s.lkh.warmRun then { s.hbm[m] with selfRefresh := false, retraining := [] }
      else { s.hbm[m] with mem := [], single := [], bad := [], selfRefresh := false, retraining := [] } := Vector.getElem_map ..
  rw [h, if_neg (by rw [hp, hl]; decide)]
  split
  · exact ⟨rfl, rfl⟩
  · exact ⟨rfl, rfl⟩

section
variable (s : State) (r : StageIn) (p q : Pos)

/-- A die with more than two bad column groups is disabled whole. -/
def State.dieDisabled (s : State) (p : Pos) : State :=
  (s.modCore p fun c => { c with desc := { c.desc with disabled := true } }).modFlags p fun f => { f with fencedDie := true }
/-- A die that starts, with the column groups that are left. -/
def State.dieStarted (s : State) (r : StageIn) (p : Pos) (g : List (BitVec 5)) : State :=
  (s.modCore p fun c => { c.clearAll with desc := { c.desc.groups (g.getD 0 0x1F) (g.getD 1 0x1F) with mcode := r.mcode } }).modPwr p fun k => { k with
    req := 1, state := 1, pending := false, refused := false, vsram := true, vcore := true, targetMv := coreMv p (s.bankStep (bankOf p)) }
/-- A die's turn in stage 0x07. -/
def State.startDie (r : StageIn) (banned : BitVec 40 → Bool) (s : State) (p : Pos) : State :=
  if !s.dieUsable p || r.failing.contains (dieUnit p) || banned (dieUnit p) then s
  else match s.badGroups r p with
  | _ :: _ :: _ :: _ => s.dieDisabled p
  | g => s.dieStarted r p g
theorem act07_tiles : (s.act07 r).tiles = (allPos.foldl (State.startDie r fun u => s.lkh.mapTrusted && s.lkh.noPower.contains u) s).tiles := by
  unfold State.act07
  extract_lets banned die s1
  have hd : die = State.startDie r banned := rfl
  have h1 : s1 = allPos.foldl (State.startDie r banned) s := by rw [← hd]
  rw [← h1]

theorem startDie_cases (banned : BitVec 40 → Bool) : State.startDie r banned s p = s ∨ State.startDie r banned s p = s.dieDisabled p ∨
    ∃ g, State.startDie r banned s p = s.dieStarted r p g := by
  unfold State.startDie
  split
  · exact .inl rfl
  split
  · exact .inr (.inl rfl)
  · exact .inr (.inr ⟨_, rfl⟩)
theorem startDie_lkh (banned : BitVec 40 → Bool) : (State.startDie r banned s p).lkh = s.lkh := by
  rcases startDie_cases s r p banned with h | h | ⟨g, h⟩
  · rw [h]
  · rw [h]; rfl
  · rw [h]; rfl
theorem startDie_tile_ne (banned : BitVec 40 → Bool) (hq : q ≠ p) : (State.startDie r banned s p).tile q = s.tile q := by
  rcases startDie_cases s r p banned with h | h | ⟨g, h⟩
  · rw [h]
  · rw [h]
    exact (State.tile_modTile_ne _ _ _ _ hq).trans (State.tile_modTile_ne _ _ _ _ hq)
  · rw [h]
    exact (State.tile_modTile_ne _ _ _ _ hq).trans (State.tile_modTile_ne _ _ _ _ hq)

theorem startDie_runs {banned : BitVec 40 → Bool} (hu : s.dieUsable p = true) (hf : dieUnit p ∉ r.failing) (hb : banned (dieUnit p) = false) :
    ((s.badGroups r p).length ≤ 2 → State.startDie r banned s p = s.dieStarted r p (s.badGroups r p)) ∧
    (2 < (s.badGroups r p).length → State.startDie r banned s p = s.dieDisabled p) := by
  have hs : r.failing.contains (dieUnit p) = false := Bool.eq_false_iff.mpr fun h => hf (List.contains_iff_mem.mp h)
  unfold State.startDie
  rw [if_neg (by rw [hu, hs, hb]; decide)]
  generalize s.badGroups r p = g
  match g with
  | [] | [_] | [_, _] => exact ⟨fun _ => rfl, fun h => absurd h (by simp)⟩
  | _ :: _ :: _ :: _ => exact ⟨fun h => absurd h (by simp), fun _ => rfl⟩

/-- What stage 0x07 leaves of a die, by its tile alone. -/
def Tile.startedAs (k : Tile) (bad : Nat) : Prop :=
  (bad ≤ 2 → k.ut.pwr.state = 1 ∧ k.ut.pwr.vcore = true ∧ k.core.spd.mem = [] ∧ k.core.img = {}) ∧
  (2 < bad → k.core.desc.disabled = true ∧ k.ut.flags.fencedDie = true)

theorem dieStarted_tile (g : List (BitVec 5)) : ((s.dieStarted r p g).ut p).pwr.state = 1 ∧ ((s.dieStarted r p g).ut p).pwr.vcore = true ∧
    ((s.dieStarted r p g).core p).spd.mem = [] ∧ ((s.dieStarted r p g).core p).img = {} := by
  rw [State.dieStarted, modPwr_pwr, State.modPwr, State.core_modUt, State.core_modCore]
  exact ⟨rfl, rfl, rfl, rfl⟩
theorem dieDisabled_tile : ((s.dieDisabled p).core p).desc.disabled = true ∧ ((s.dieDisabled p).ut p).flags.fencedDie = true := by
  rw [State.dieDisabled, State.modFlags, State.ut_modUt, State.core_modUt, State.core_modCore]
  exact ⟨rfl, rfl⟩

theorem badGroups_of_lkh {t : State} (h : t.lkh = s.lkh) : t.badGroups r p = s.badGroups r p := by
  unfold State.badGroups
  rw [h]
theorem dieUsable_of_tile {t : State} (h : t.tile p = s.tile p) : t.dieUsable p = s.dieUsable p := by
  have hu : t.ut p = s.ut p := by rw [State.ut_eq, h, ← State.ut_eq]
  have hc : t.core p = s.core p := by rw [State.core_eq, h, ← State.core_eq]
  unfold State.dieUsable
  rw [hu, hc]

theorem act07_die (hu : s.dieUsable p = true) (hf : dieUnit p ∉ r.failing) (hm : s.lkh.mapTrusted = false) :
    ((s.act07 r).tile p).startedAs (s.badGroups r p).length := by
  have ht : (s.act07 r).tile p = (allPos.foldl (State.startDie r fun u => s.lkh.mapTrusted && s.lkh.noPower.contains u) s).tile p := by
    rw [State.tile, State.tile, act07_tiles]
  rw [ht]
  refine foldl_of_mem_once (f := State.startDie r fun u => s.lkh.mapTrusted && s.lkh.noPower.contains u)
    (P := fun t : State => t.lkh = s.lkh ∧ t.tile p = s.tile p) (Q := fun t : State => (t.tile p).startedAs (s.badGroups r p).length)
    allPos_nodup (mem_allPos p) (fun t ⟨hl, hp⟩ => ?_) (fun t b hb ⟨hl, hp⟩ => ?_) (fun t b hb h => ?_) ⟨rfl, rfl⟩
  · obtain ⟨h1, h2⟩ := startDie_runs t r p (banned := fun u => s.lkh.mapTrusted && s.lkh.noPower.contains u)
      ((dieUsable_of_tile s p hp).trans hu) hf (by rw [hm]; rfl)
    rw [badGroups_of_lkh s r p hl] at h1 h2
    refine ⟨fun h => ?_, fun h => ?_⟩
    · rw [h1 h, ← State.ut_eq, ← State.core_eq]
      exact dieStarted_tile t r p _
    · rw [h2 h, ← State.ut_eq, ← State.core_eq]
      exact dieDisabled_tile t p
  · exact ⟨(startDie_lkh t r b _).trans hl, (startDie_tile_ne t r b p _ hb.symm).trans hp⟩
  · rw [startDie_tile_ne t r b p _ hb.symm]
    exact h

end

/-! ### Stage 0x0A: the seal (R488), and the moor of a start with a loss (R435) -/

/-- The sealed fields of the host window and of the security state stand. -/
def SealKept (s t : State) : Prop := t.intake.hwinBase = s.intake.hwinBase ∧ t.sec = s.sec

section
variable {s t u : State}

theorem SealKept.refl (s : State) : SealKept s s := ⟨rfl, rfl⟩
theorem SealKept.trans (a : SealKept s t) (b : SealKept t u) : SealKept s u := ⟨b.1.trans a.1, b.2.trans a.2⟩
theorem OnlyAborts.sealKept (h : OnlyAborts s t) : SealKept s t := by
  obtain ⟨⟨_, _, _, _, _, _, _, _, _, _, rfl⟩, -⟩ := h
  exact ⟨rfl, rfl⟩
theorem ClockAsked.sealKept (h : ClockAsked s t) : SealKept s t := by
  obtain ⟨⟨_, _, _, rfl⟩, -⟩ := h
  exact ⟨rfl, rfl⟩
theorem OnlyTilesAndNet.sealKept (h : OnlyTilesAndNet s t) : SealKept s t := by
  obtain ⟨_, _, _, rfl⟩ := h
  exact ⟨rfl, rfl⟩

theorem fenceAllDies_sealKept (s : State) : SealKept s s.fenceAllDies :=
  foldl_rel (R := SealKept) .refl .trans (fun s p => .trans (OnlyTilesAndNet.modTile s p _).sealKept (goDark_onlyTilesAndNet _ _).sealKept) _ s
theorem allUts_sealKept (s : State) (f : Pos → UnderTile → UnderTile) : SealKept s (s.allUts f) := by
  unfold State.allUts State.allTiles
  exact ⟨rfl, rfl⟩
theorem chartLoss_sealKept (s : State) : SealKept s s.chartLoss := by
  unfold State.chartLoss
  extract_lets clr gone s1 keep
  have h1 : SealKept s s1 := ⟨rfl, rfl⟩
  exact h1.trans (allUts_sealKept s1 _)
theorem mooredNow_sealKept (s : State) : SealKept s s.mooredNow := ⟨rfl, rfl⟩
theorem moorRecords_sealKept (s : State) (data : List Nat) (old : PanelState) :
    SealKept s ((s.logRec 0x24 .firmware data).logState false old .moored).alert := ⟨rfl, rfl⟩

theorem moor_sealKept (s : State) (c : Cause) (lt : BitVec 7) : SealKept s (s.moor c lt) := by
  by_cases ho : s.lkh.pstate = .off
  · rw [State.moor, if_pos ho]
    exact .refl s
  by_cases hm : s.lkh.pstate = .moored
  · rw [State.moor, if_neg ho, if_pos hm]
    exact chartLoss_sealKept s
  · obtain ⟨data, old, h⟩ := moor_of_serving (c := c) (lt := lt) ho hm
    have hs : SealKept s (s.stopped c lt) :=
      .trans (.trans (abortEnd_onlyAborts s c lt _ _).sealKept (fenceAllDies_sealKept _)) (askSteps_asked _ _ _).sealKept
    rw [h]
    exact (hs.trans (mooredNow_sealKept _)).trans ((chartLoss_sealKept _).trans (moorRecords_sealKept _ data old))

theorem act0A_warm (s : State) (r : StageIn) (h : s.lkh.warmRun = true) : SealKept s (s.act0A r) := by
  unfold State.act0A
  extract_lets s0 s1 pw l s2
  have h0 : SealKept s s0 := by
    show SealKept s (((if s.lkh.warmRun then s else s.sealAll).describe).modTsrc fun c => { c with ppsEn := true })
    rw [if_pos h]
    exact ⟨rfl, rfl⟩
  have h1 : SealKept s0 s1 := by
    show SealKept s0 (if s0.lkh.warmRun && s0.lkh.reset.busy then s0.resetDone .done else s0)
    split
    · exact ⟨rfl, rfl⟩
    · exact .refl s0
  have h2 : SealKept s1 s2 := ⟨rfl, rfl⟩
  refine (h0.trans (h1.trans h2)).trans ?_
  clear_value s2
  split
  · exact moor_sealKept _ _ _
  · exact ⟨rfl, rfl⟩

/-- The margins take their values of MRAM. -/
def State.marginsSealed (s : State) : State :=
  s.allTiles fun _ t => { t with core := { t.core with mat := { t.core.mat with margin := t.core.mat.marginStored } } }
theorem marginsSealed_margin (s : State) (p : Pos) : (s.marginsSealed.core p).mat.margin = (s.core p).mat.marginStored := by
  have h : s.marginsSealed.tile p = { s.tile p with core := { (s.tile p).core with
    mat := { (s.tile p).core.mat with margin := (s.tile p).core.mat.marginStored } } } := State.tile_allTiles ..
  rw [State.core_eq, h, State.core_eq]

theorem sealAll_leaves (s : State) (p : Pos) : s.sealAll.lkh.sealed = true ∧ (s.sealAll.core p).mat.margin = (s.core p).mat.marginStored ∧
    s.sealAll.intake.hwinBase = s.intake.hwinStored.1 ∧ s.sealAll.intake.hwinLen = s.intake.hwinStored.2 ∧
    s.sealAll.sec.jtagLock = s.sec.locksStored.getLsbD 2 := by
  unfold State.sealAll
  extract_lets s1 k
  have hs : s1 = s.marginsSealed := rfl
  have hk : k = s1.sec.locksStored := rfl
  have hi : s1.intake = s.intake := by rw [hs]; exact State.allTiles_intake ..
  have hsec : s1.sec = s.sec := by rw [hs]; exact State.allTiles_sec ..
  clear_value k s1
  refine ⟨rfl, ?_, by rw [hi], by rw [hi], by rw [hk, hsec]⟩
  show (s1.core p).mat.margin = _
  rw [hs]
  exact marginsSealed_margin s p

end

theorem stageResults_hold : Sys2Proof.Rules.StageResults := by
  intro r w s p k m
  obtain ⟨h1, h2, h3, h4⟩ := act03_leaves s r w
  have hpart := partOf_toNat w
  refine ⟨⟨h1, by omega, by omega, h2, h3, h4, absentLts_length w, fun b => absentLts_row w, disabledStacks_length w, disabledStacks_west w,
    disabledStacks_east w, disabledStacks_rows w⟩, act04_reach s k r, act04_vnet s p r, act06_stack s m, fun hu hf hm => ?_,
    sealAll_leaves s p, fun hw => ?_⟩
  · obtain ⟨h1, h2⟩ := act07_die s r p hu hf hm
    rw [State.ut_eq, State.core_eq]
    exact ⟨h1, h2⟩
  · obtain ⟨hi, hs⟩ := act0A_warm s r hw
    exact ⟨hi, by rw [hs]⟩

/-! ### Requests of the start (R404, R411, R355) -/

theorem chgCanal_lkh (s : State) (o : Origin) (path : Path) (off : Nat) (f : State → State) : (s.chgCanal o path off f).lkh = (f s).lkh := by
  unfold State.chgCanal
  dsimp only
  split
  · rfl
  · rfl
theorem narrowSet_leaves (s : State) (p : Pos) (en : Bool) (o : Origin) (path : Path) :
    ((s.narrowSet p en o path).lkh.narrowNext.contains p = en) ∧ (s.narrowSet p en o path).lkh.narrow = s.lkh.narrow := by
  rw [State.narrowSet, chgCanal_lkh]
  refine ⟨?_, rfl⟩
  cases en
  · simp
  · dsimp only
    rw [if_pos rfl]
    split
    · assumption
    · simp

theorem startRequests_hold : Sys2Proof.Rules.StartRequests := by
  intro o path p en t s
  have hack (h : s.pathLocked path = false) : exec (.lkhMapAck o path) s = .next (s.mapAck o path) :=
    congrArg Host.Outcome.next (if_neg (by rw [h]; exact Bool.false_ne_true))
  have hosc : exec (.oscTimeout t) s = .next (if (!(s.at_ t).atStage 1 || s.clocks.oscReady ||
      decide (t < s.clocks.powerGood + 2 * oscDelay s.clocks.dly)) = true then s.at_ t
      else ((s.at_ t).stageReport 1 2 ((t - s.clocks.powerGood) / 1000000) 0 0x0C []).haltStart) := rfl
  refine ⟨fun h hm => ?_, fun hm => ?_, fun h => ⟨?_, ?_⟩, fun h => ⟨?_, narrowSet_leaves s p en _ path⟩, fun h1 h2 h3 => ?_, fun h => ?_⟩
  · rw [hack h, State.mapAck, if_pos hm]
  · cases h : s.pathLocked path
    · rw [hack h, State.mapAck, if_neg (by rw [hm]; exact Bool.false_ne_true)]
    · exact congrArg Host.Outcome.next (if_pos h)
  · exact congrArg Host.Outcome.next (if_pos h)
  · exact congrArg Host.Outcome.next (if_pos h)
  · exact congrArg Host.Outcome.next (if_neg (by rw [h]; exact Bool.false_ne_true))
  · rw [hosc, if_neg (by rw [h1, h2, decide_eq_false (Nat.not_lt.mpr h3)]; decide)]
  · rw [hosc, if_pos (by rcases h with h | h | h <;> simp [h])]

/-- Settles O50: one lemma for a stage in its turn, and what each stage leaves by the turn of the unit in question. -/
theorem startUp : Obligations.StartUp := ⟨stages_hold, stageResults_hold, startRequests_hold⟩

end Sys2Proof.Machine
end

section
/-! PROOFS. Repair in service and headway (O51). -/

namespace Sys2Proof.Machine

open Sys2Proof

/-! ### Detection (R413, R414) -/

theorem modRepair_congr (s : State) {f g : Repair → Repair} (h : f s.repair = g s.repair) : s.modRepair f = s.modRepair g := by
  unfold State.modRepair
  rw [h]
theorem modRepair_same (s : State) {f : Repair → Repair} (h : f s.repair = s.repair) : s.modRepair f = s := by
  unfold State.modRepair
  rw [h]

section
variable {s : State} {l : Lt} {p : Pos}

theorem failUnit_failures (s : State) (u : BitVec 40) (c : BitVec 8) : (u, c) ∈ (s.failUnit u c).repair.failures := by
  unfold State.failUnit
  split
  · next h => exact List.contains_iff_mem.mp h
  · dsimp only
    split
    · exact List.mem_append_right _ (List.mem_singleton_self _)
    · exact List.mem_append_right _ (List.mem_singleton_self _)
/-- A failure that is noted changes the list of failures and the time of the die's. -/
theorem failUnit_only (s : State) (u : BitVec 40) (c : BitVec 8) :
    ∃ ts fs, s.failUnit u c = { s with tiles := ts, repair := { s.repair with failures := fs } } ∧ ∀ q, (s.failUnit u c).core q = s.core q := by
  unfold State.failUnit
  split
  · exact ⟨_, _, rfl, fun _ => rfl⟩
  · dsimp only
    split
    · exact ⟨_, _, rfl, fun q => State.core_modUt ..⟩
    · exact ⟨_, _, rfl, fun _ => rfl⟩

theorem suspect_first (hp : s.posOf l = some p) (hn : ∀ x ∈ s.repair.suspicions, x.1 ≠ l) : s.suspect l =
    (s.modRepair fun r => { r with suspicions := (s.repair.suspicions.filter fun x => x.1 != l) ++ [(l, s.repair.pounds)] }).soundNext l := by
  have hf : (s.repair.suspicions.find? fun x => x.1 == l) = none := List.find?_eq_none.mpr fun x hx => by simpa using hn x hx
  unfold State.suspect
  rw [hp]
  dsimp only
  rw [hf]
theorem suspect_second {a : Lt × Nat} (hp : s.posOf l = some p) (hf : (s.repair.suspicions.find? fun x => x.1 == l) = some a)
    (ht : s.repair.pounds ≤ a.2 + 65536) (ho : unitOut s (dieUnit p) = false) : s.suspect l =
    (s.modRepair fun r => { r with suspicions := s.repair.suspicions.filter fun x => x.1 != l }).failUnit (dieUnit p) 3 := by
  unfold State.suspect
  rw [hp]
  dsimp only
  rw [hf]
  dsimp only
  rw [if_pos ht]
  exact if_neg (by rw [show unitOut (s.modRepair _) (dieUnit p) = unitOut s (dieUnit p) from rfl, ho]; exact Bool.false_ne_true)

/-! ### Soundings (R415, R416) -/

/-- The LTs that are due and have a die. -/
theorem due_of_one (hp : s.posOf l = some p) (hd : s.repair.due = [l]) :
    (s.modRepair fun r => { r with due := r.due.filter fun l => (s.posOf l).isSome }) = s := by
  have hf : (s.repair.due.filter fun l => (s.posOf l).isSome) = s.repair.due := by
    rw [hd, List.filter_cons_of_pos (by rw [hp]; rfl), List.filter_nil]
  exact modRepair_same s (by rw [hf])
theorem startSounding_one (hp : s.posOf l = some p) (hd : s.repair.due = [l]) : s.startSounding l =
    (s.modCtl p fun k => { k with sounding := true }).modRepair fun r => { r with due := [], sounding := r.sounding ++ [(l, s.soundPounds p, false)] } := by
  have hf : ((s.modCtl p fun k => { k with sounding := true }).repair.due.filter fun x => x != l) = [] := by
    show (s.repair.due.filter fun x => x != l) = []
    rw [hd]
    simp
  unfold State.startSounding
  rw [hp]
  exact modRepair_congr _ (by rw [hf])
theorem soundingStart_one {t : Nat} (ht : t = s.lastTick) (ha : s.lkh.pstate = .active) (hd : s.repair.due = [l]) (hp : s.posOf l = some p)
    (hc : s.canSound l = true) : (if t ≠ s.lastTick || s.lkh.pstate != .active then s
      else
        let s1 := s.modRepair fun r => { r with due := r.due.filter fun l => (s.posOf l).isSome }
        (s1.repair.due.filter s1.canSound).foldl (fun (s : State) l => s.startSounding l) s1) =
    (s.modCtl p fun k => { k with sounding := true }).modRepair fun r => { r with due := [], sounding := r.sounding ++ [(l, s.soundPounds p, false)] } := by
  rw [if_neg (by rw [ha, decide_eq_false (not_not.mpr ht)]; decide)]
  dsimp only
  rw [due_of_one hp hd, hd, List.filter_cons_of_pos hc, List.filter_nil, List.foldl_cons, List.foldl_nil]
  exact startSounding_one hp hd

/-- The sounding's counts: a good one, or a failed one. -/
def State.soundCounted (s : State) (l : Lt) (n : Nat) (ok : Bool) : State := s.modRepair fun r => { r with
  sounding := if n = 0 then r.sounding.filter fun x => x.1 != l else r.sounding.map fun x => if x.1 = l then (l, n, true) else x
  soundDone := if ok then r.soundDone + 1 else r.soundDone, soundFailed := if ok then r.soundFailed else r.soundFailed + 1 }
/-- What follows a sounding: its end for a substitution, the failure of a spare, or a report. -/
def State.soundSettled (s : State) (l : Lt) (p : Pos) (ok : Bool) : State :=
  if ok then s.modRepair fun r => { r with subst := r.subst.map fun x => if x.lt = l && x.phase = 7 then { x with phase := 8 } else x }
  else if s.substRuns l then s.spareFailed p 2
  else s.tellRepair (.soundingMismatch l)

theorem soundingResult_eq {same b : Bool} {n t : Nat} (hf : (s.repair.sounding.find? fun x => !x.2.2) = some (l, n, b)) (hp : s.posOf l = some p) :
    execSoundingResult same t s = .next (if 1 < n then s.at_ t else
      (((s.at_ t).soundCounted l n (same && (s.core p).readsClean)).modCore p Core.sounded).soundSettled l p (same && (s.core p).readsClean)) := by
  have hf' : ((s.at_ t).repair.sounding.find? fun x => !x.2.2) = some (l, n, b) := hf
  have hp' : (s.at_ t).posOf l = some p := hp
  unfold execSoundingResult
  dsimp only
  rw [hf']
  dsimp only
  by_cases hn : 1 < n
  · rw [if_pos hn, if_pos hn]
  · rw [if_neg hn, if_neg hn, hp']
    dsimp only
    rw [show ∀ f, ((s.at_ t).modRepair f).posOf l = some p from fun _ => hp']
    rfl

theorem spareFailed_leaves (s : State) (p : Pos) (c : BitVec 8) : (dieUnit p, c) ∈ (s.spareFailed p c).repair.failures ∧
    (s.spareFailed p c).repair.soundFailed = s.repair.soundFailed ∧ ∀ q, (s.spareFailed p c).core q = s.core q := by
  obtain ⟨ts, fs, hu, hc⟩ := failUnit_only s (dieUnit p) c
  have hm := failUnit_failures s (dieUnit p) c
  unfold State.spareFailed
  generalize s.failUnit (dieUnit p) c = v at hu hc hm
  refine ⟨hm, by rw [hu], fun q => hc q⟩

theorem soundSettled_core (s : State) (l : Lt) (p q : Pos) (ok : Bool) : (s.soundSettled l p ok).core q = s.core q := by
  unfold State.soundSettled
  split
  · rfl
  split
  · exact (spareFailed_leaves s p 2).2.2 q
  · obtain ⟨k, h⟩ := tellRepair_eq s (.soundingMismatch l)
    rw [h]
    rfl
theorem soundSettled_failed (s : State) (l : Lt) (p : Pos) : (s.soundSettled l p false).repair.soundFailed = s.repair.soundFailed ∧
    (s.substRuns l = false → RepairEvent.soundingMismatch l ∈ (s.soundSettled l p false).repair.reports) ∧
    (s.substRuns l = true → (dieUnit p, (2 : BitVec 8)) ∈ (s.soundSettled l p false).repair.failures) := by
  unfold State.soundSettled
  rw [if_neg Bool.false_ne_true]
  cases h : s.substRuns l
  · rw [if_neg Bool.false_ne_true]
    refine ⟨?_, fun _ => tellRepair_reports s _, fun h' => absurd h' Bool.false_ne_true⟩
    unfold State.tellRepair
    split
    · rfl
    · rfl
  · rw [if_pos rfl]
    obtain ⟨h1, h2, -⟩ := spareFailed_leaves s p 2
    exact ⟨h2, fun h' => absurd h' (by decide), fun _ => h1⟩

theorem soundingSettles (u : State) (l : Lt) (p : Pos) (n : Nat) (ok : Bool) :
    let v := ((u.soundCounted l n ok).modCore p Core.sounded).soundSettled l p ok
    (v.core p).ctl.sounding = false ∧ (v.core p).vMain = Vector.replicate 64 0 ∧ (v.core p).spd = (u.core p).spd ∧ (v.core p).img = (u.core p).img ∧
      (ok = true → v.repair.soundDone = u.repair.soundDone + 1 ∧ v.repair.failures = u.repair.failures) ∧
      (ok = false → v.repair.soundFailed = u.repair.soundFailed + 1 ∧
        (u.substRuns l = false → RepairEvent.soundingMismatch l ∈ v.repair.reports) ∧
        (u.substRuns l = true → (dieUnit p, (2 : BitVec 8)) ∈ v.repair.failures)) := by
  intro v
  have hc : v.core p = (u.core p).sounded := by rw [soundSettled_core, State.core_modCore]; rfl
  rw [hc]
  refine ⟨rfl, rfl, rfl, rfl, fun h => ?_, fun h => ?_⟩
  · subst h
    exact ⟨rfl, rfl⟩
  · subst h
    obtain ⟨h1, h2, h3⟩ := soundSettled_failed ((u.soundCounted l n false).modCore p Core.sounded) l p
    exact ⟨h1, h2, h3⟩

end

theorem soundings_hold : Sys2Proof.Rules.Soundings := by
  intro l p t same s u
  refine ⟨fun ev he hn => ?_, fun ev h => ?_, fun hp hn => ?_, fun a hp hf ht ho => ?_, fun ha hr hl => ?_, fun h => ?_, fun ht ha hd hp hc => ?_,
    fun h => ?_, fun n b hf hp => ⟨fun hn => ?_, fun hn => ?_⟩⟩
  · refine congrArg Host.Outcome.next (if_neg (c := (!s.repair.reports.contains ev || decide (s.serves = 0)) = true) ?_)
    rw [List.contains_iff_mem.mpr he, decide_eq_false hn]
    decide
  · refine congrArg Host.Outcome.next (if_pos (c := (!s.repair.reports.contains ev || decide (s.serves = 0)) = true) ?_)
    simpa using h
  · have he : s.repairEvent (.checkMismatch l) = _ := suspect_first hp hn
    rw [he]
    exact ⟨rfl, List.mem_append_right _ (List.mem_singleton_self _), rfl⟩
  · have he : s.repairEvent (.checkMismatch l) = _ := suspect_second hp hf ht ho
    obtain ⟨ts, fs, hu, -⟩ := failUnit_only (s.modRepair fun r => { r with suspicions := s.repair.suspicions.filter fun x => x.1 != l }) (dieUnit p) 3
    rw [he]
    refine ⟨failUnit_failures _ _ _, ?_⟩
    rw [hu]
    exact fun x hx => by simpa using (List.mem_filter.mp hx).2
  · have hc : ¬(s.lkh.pstate != .active || decide (s.repair.pounds < s.repair.rotated + 4096)) = true := by
      rw [ha, decide_eq_false (Nat.not_lt.mpr hr)]
      decide
    show execSoundingRotation s = _
    unfold execSoundingRotation
    rw [if_neg hc, hl]
  · refine congrArg Host.Outcome.next (if_pos (c := (s.lkh.pstate != .active || decide (s.repair.pounds < s.repair.rotated + 4096)) = true) ?_)
    simpa using h
  · exact congrArg Host.Outcome.next (soundingStart_one (s := u) ht ha hd hp hc)
  · refine congrArg Host.Outcome.next (if_pos (c := (decide (t ≠ s.lastTick) || s.lkh.pstate != .active) = true) ?_)
    simpa using h
  · have he : exec (.soundingResult same t) s = _ := soundingResult_eq hf hp
    rw [he, if_pos hn]
  · have he : exec (.soundingResult same t) s = _ := soundingResult_eq hf hp
    rw [he, if_neg (Nat.not_lt.mpr hn)]
    obtain ⟨h1, h2, h3, h4, h5, h6⟩ := soundingSettles u l p n (same && (s.core p).readsClean)
    refine ⟨_, rfl, h1, h2, h3, h4, fun hs hr => h5 (by rw [hs, hr]; rfl), fun h => h6 ?_⟩
    rcases h with h | h
    · rw [h]
      rfl
    · rw [h, Bool.and_false]

/-! ### Votes (R417 to R420) -/

theorem dieUnit_toNat (p : Pos) : (dieUnit p).toNat = 1 + 256 * p.val := by
  rw [dieUnit, unitId, BitVec.toNat_ofNat]
  omega
theorem unitKind_dieUnit (p : Pos) : unitKind (dieUnit p) = 1 := by
  rw [unitKind, dieUnit_toNat]
  omega
theorem unitIndex_dieUnit (p : Pos) : (Fin.ofNat 144 (unitIndex (dieUnit p)) : Pos) = p := by
  have h : unitIndex (dieUnit p) = p.val := by
    rw [unitIndex, dieUnit_toNat]
    omega
  rw [h]
  exact Fin.ext (Nat.mod_eq_of_lt p.isLt)

section
variable (s : State) (p q : Pos)

/-- Void barges take from the core the writes in flight to their ring. -/
theorem voidBarge_core (pk : Packet) (st : Status) : ∃ l, (s.voidBarge p pk st).core q = { s.core q with pend := l } := by
  unfold State.voidBarge
  dsimp only
  split
  · exact ⟨_, rfl⟩
  · generalize hv : (s.modBerth _ _ _).modCore _ _ = v
    obtain ⟨ns, n, h⟩ := reply_onlyNet (s := v) (p := p) (q := pk) (st := st) (data := [])
    have hc : (v.reply p pk st []).core q = v.core q := by
      rw [h]
      rfl
    rw [hc, ← hv]
    by_cases hq : q = p
    · subst hq
      rw [State.core_modCore, State.modBerth, State.core_modUt]
      exact ⟨_, rfl⟩
    · rw [State.core_modCore_ne _ _ _ _ hq, State.modBerth, State.core_modUt]
      exact ⟨_, rfl⟩
theorem voidSender_core (st : Status) : ∃ l, (s.voidSender p st).core q = { s.core q with pend := l } := by
  unfold State.voidSender
  split
  · exact ⟨_, rfl⟩
  · refine foldl_rel (R := fun s t : State => ∃ l, t.core q = { s.core q with pend := l }) (fun _ => ⟨_, rfl⟩) ?_ (fun t a => ?_) _ s
    · rintro _ _ _ ⟨_, ha⟩ ⟨l, hb⟩
      exact ⟨l, by rw [hb, ha]⟩
    · split
      · split
        · exact voidBarge_core ..
        · exact ⟨_, rfl⟩
      · exact ⟨_, rfl⟩

theorem fenceUnit_only (unit : BitVec 40) (c : BitVec 8) (v : BitVec 3) :
    ∃ l k us, s.fenceUnit unit c v = { s with log := l, lkh := k, repair := { s.repair with units := us, failures := s.repair.failures.filter fun e => e.1 != unit } } := by
  unfold State.fenceUnit State.fdrAdd
  dsimp only
  split
  · exact ⟨_, _, _, rfl⟩
  · exact ⟨_, _, _, rfl⟩

/-- A die that is fenced by a vote takes part in no sounding. -/
def State.unsounded (s : State) (p : Pos) : State := s.modRepair fun r => { r with
  fences := r.fences + 1, sounding := r.sounding.filter fun x => s.posOf x.1 != some p }
/-- Its own core takes part in nothing more. -/
def State.coreHeld (s : State) (p : Pos) : State := s.modCore p fun c => { c with mat := c.mat.discard, ctl := { c.ctl with sounding := false } }
theorem fenceVoted_die (c : BitVec 8) (v : BitVec 3) (h : (s.ut p).flags.fencedDie = false) : s.fenceVoted (dieUnit p) c v =
    (((s.modRepair fun r => { r with failures := r.failures.filter fun e => e.1 != dieUnit p }).unsounded p).fenceDie p c v).coreHeld p := by
  unfold State.fenceVoted
  rw [unitKind_dieUnit, unitIndex_dieUnit]
  dsimp only
  rw [if_neg (by rw [h]; exact Bool.false_ne_true)]
  rfl

/-- The flags of a fenced die. -/
def TileFlags.fenced (f : TileFlags) (now_ : Nat) (v : BitVec 3) : TileFlags := { f.failed now_ with fencedDie := true, voted := v != 0 }
theorem fenceDie_of_not (c : BitVec 8) (v : BitVec 3) (h : (s.ut p).flags.fencedDie = false) : s.fenceDie p c v =
    (((s.voidSender p .tileFenced).modFlags p fun f => f.fenced s.now v).fenceUnit (dieUnit p) c v).abortAt p (.status .tileFenced) := by
  unfold State.fenceDie
  rw [if_neg (by rw [h]; exact Bool.false_ne_true)]
  rfl

theorem fenceDie_leaves (c : BitVec 8) (v : BitVec 3) (h : (s.ut p).flags.fencedDie = false) :
    (∃ n, ((s.fenceDie p c v).ut p).flags = (s.ut p).flags.fenced n v) ∧ (∀ q, q ≠ p → ((s.fenceDie p c v).ut q).flags = (s.ut q).flags) ∧
    (∀ q, ((s.fenceDie p c v).core q).ctl = (s.core q).ctl) ∧ (s.fenceDie p c v).repair.fences = s.repair.fences ∧
    ∀ e ∈ (s.fenceDie p c v).repair.failures, e.1 ≠ dieUnit p := by
  obtain ⟨⟨ts, ns, n, hv⟩, hb⟩ := voidSender_voidsOnly s p .tileFenced
  have hctl (q : Pos) : ((s.voidSender p .tileFenced).core q).ctl = (s.core q).ctl := by
    obtain ⟨l, hl⟩ := voidSender_core s p q .tileFenced
    rw [hl]
  have hrep : (s.voidSender p .tileFenced).repair = s.repair := by rw [hv]
  rw [fenceDie_of_not s p c v h]
  generalize s.voidSender p .tileFenced = w at hb hctl hrep
  obtain ⟨l, k, us, hf⟩ := fenceUnit_only (w.modFlags p fun f => f.fenced s.now v) (dieUnit p) c v
  obtain ⟨as, ha⟩ := abortAt_eq ((w.modFlags p fun f => f.fenced s.now v).fenceUnit (dieUnit p) c v) p (.status .tileFenced)
  have hw (q : Pos) : (w.ut q).flags = (s.ut q).flags := by
    obtain ⟨b, hq⟩ := hb q
    rw [hq]
  have hut (q : Pos) : ((((w.modFlags p fun f => f.fenced s.now v).fenceUnit (dieUnit p) c v).abortAt p (.status .tileFenced)).ut q) =
      (w.modFlags p fun f => f.fenced s.now v).ut q := by
    rw [ha, hf]
    rfl
  have hcore (q : Pos) : ((((w.modFlags p fun f => f.fenced s.now v).fenceUnit (dieUnit p) c v).abortAt p (.status .tileFenced)).core q) = w.core q := by
    refine Eq.trans ?_ (State.core_modUt w p q fun u => { u with flags := u.flags.fenced s.now v })
    rw [ha, hf]
    rfl
  refine ⟨⟨s.now, ?_⟩, fun q hq => ?_, fun q => by rw [hcore, hctl], ?_, ?_⟩
  · rw [hut, State.modFlags, State.ut_modUt, ← hw]
  · rw [hut, State.modFlags, State.ut_modUt_ne _ _ _ _ hq, hw]
  · rw [ha, hf]
    show w.repair.fences = _
    rw [hrep]
  · rw [ha, hf]
    exact fun e he => by simpa using (List.mem_filter.mp he).2

theorem fenceVoted_leaves (c : BitVec 8) (h : (s.ut p).flags.fencedDie = false) :
    ∃ v, s.fenceVoted (dieUnit p) c 3 = v ∧ (v.ut p).flags.fencedDie = true ∧
      (v.ut p).flags.voted = true ∧ v.repair.fences = s.repair.fences + 1 ∧ (∀ e ∈ v.repair.failures, e.1 ≠ dieUnit p) ∧
      (∀ q, q ≠ p → (v.ut q).flags = (s.ut q).flags ∧ (v.core q).ctl = (s.core q).ctl) := by
  refine ⟨_, fenceVoted_die s p c 3 h, ?_⟩
  have hfe : ((s.modRepair fun r => { r with failures := r.failures.filter fun e => e.1 != dieUnit p }).unsounded p).repair.fences = s.repair.fences + 1 := rfl
  have hut (q : Pos) : (((s.modRepair fun r => { r with failures := r.failures.filter fun e => e.1 != dieUnit p }).unsounded p).ut q) = s.ut q := rfl
  have hco (q : Pos) : (((s.modRepair fun r => { r with failures := r.failures.filter fun e => e.1 != dieUnit p }).unsounded p).core q) = s.core q := rfl
  generalize (s.modRepair fun r => { r with failures := r.failures.filter fun e => e.1 != dieUnit p }).unsounded p = u at hfe hut hco
  obtain ⟨⟨n, h1⟩, h2, h3, h4, h5⟩ := fenceDie_leaves u p c 3 (by rw [hut]; exact h)
  generalize u.fenceDie p c 3 = w at h1 h2 h3 h4 h5
  have hw (q : Pos) : (w.coreHeld p).ut q = w.ut q := State.ut_modCore ..
  refine ⟨by rw [hw, h1]; rfl, by rw [hw, h1]; rfl, h4.trans hfe, h5, fun q hq => ⟨by rw [hw, h2 q hq, hut], ?_⟩⟩
  rw [State.coreHeld, State.core_modCore_ne _ _ _ _ hq, h3, hco]

end

theorem fenceVotes_hold : Sys2Proof.Rules.FenceVotes := by
  intro h unit cause t s u
  have hcmd (hs : s.lkh.serving.getLsbD h.val = true) (h2 : 2 ≤ s.serves) : exec (.fenceCommand h unit cause t) s = .next (
      match s.repair.cmds.find? fun c => (c.unit == unit && c.cause == cause) && c.house != h && decide (t ≤ c.at_ + 1000000) with
      | some c => (u.modRepair fun r => { r with cmds := r.cmds.filter fun x => !(x.unit == unit && x.cause == cause) }).fenceVoted unit cause
          (houseBit h ||| houseBit c.house)
      | none => u.modRepair fun r => { r with
          cmds := (r.cmds.filter fun x => !((x.unit == unit && x.cause == cause) && x.house == h)) ++
            [{ house := h, unit := unit, cause := cause, at_ := t }] }) :=
    congrArg Host.Outcome.next (if_neg (c := (!s.lkh.serving.getLsbD h.val || decide (s.serves < 2)) = true)
      (by rw [hs, decide_eq_false (Nat.not_lt.mpr h2)]; decide))
  refine ⟨fun hn => ?_, fun hs h2 => ⟨fun hc => ?_, fun c hc hh hu hk ht => ?_⟩, fun c hc hh hu hk => ?_, fun p hp => fenceVoted_leaves s p cause hp⟩
  · refine congrArg Host.Outcome.next (if_pos (c := (!s.lkh.serving.getLsbD h.val || decide (s.serves < 2)) = true) ?_)
    simpa using hn
  · rw [hcmd hs h2, hc, List.find?_nil]
    exact congrArg Host.Outcome.next (modRepair_congr u (by rw [show u.repair.cmds = [] from hc]; rfl))
  · have hf : (s.repair.cmds.find? fun c => (c.unit == unit && c.cause == cause) && c.house != h && decide (t ≤ c.at_ + 1000000)) = some c := by
      rw [hc]
      exact List.find?_cons_of_pos (by simp [hh, hu, hk, ht])
    have hr : u.modRepair (fun r => { r with cmds := r.cmds.filter fun x => !(x.unit == unit && x.cause == cause) }) =
        u.modRepair fun r => { r with cmds := [] } := by
      refine modRepair_congr u ?_
      rw [show u.repair.cmds = [c] from hc, List.filter_cons_of_neg (by simp [hu, hk]), List.filter_nil]
    rw [hcmd hs h2, hf]
    dsimp only
    rw [hr]
  · have hf : (u.repair.cmds.find? fun c => c.house == h && c.unit == unit && c.cause == cause) = some c := by
      rw [show u.repair.cmds = [c] from hc, List.find?_cons_of_pos (by simp [hh, hu, hk])]
    have he : exec (.fenceCommandExpiry h unit cause t) s = .next (if t ≤ c.at_ + 1000000 then u
        else (u.modRepair fun r => { r with cmds := r.cmds.erase c, singles := r.singles + 1 }).logErr unit cause.toNat 1) := by
      show execFenceCommandExpiry h unit cause t s = _
      unfold execFenceCommandExpiry
      dsimp only
      rw [hf]
    have hr : u.modRepair (fun r => { r with cmds := r.cmds.erase c, singles := r.singles + 1 }) =
        u.modRepair fun r => { r with cmds := [], singles := r.singles + 1 } := by
      refine modRepair_congr u ?_
      rw [show u.repair.cmds = [c] from hc, List.erase_cons_head]
    rw [he, hr]
    exact ⟨fun ht => by rw [if_neg (Nat.not_le.mpr ht)], fun ht => by rw [if_pos ht]⟩

/-! ### Substitution (R421 to R428) -/

section
variable {l : Lt} {t : Nat} {x : Subst} {s : State}

theorem noTile_posOf (s : State) (l : Lt) : (s.noTile l).posOf l = none := by
  have h : ((s.noTile l).ltpos[l]).die = none := by
    unfold State.noTile
    dsimp only
    rw [vmod_get_same]
  unfold State.posOf
  rw [h]

/-- An LT without a substitution: nothing, the power-on of a spare, or no tile. -/
theorem substitution_new (ha : s.lkh.pstate = .active) (hn : (s.repair.subst.find? fun x => x.lt == l) = none) :
    execSubstitution l t s = .next (if !s.mustReplace l || s.rowBusy l then s.at_ t else
      match s.spareFor l with
      | some sp => (s.at_ t).substBegin l sp
      | none => (s.at_ t).noTile l) := by
  unfold execSubstitution
  dsimp only
  rw [if_neg (by rw [show (s.at_ t).lkh.pstate = .active from ha]; decide), show ((s.at_ t).repair.subst.find? fun x => x.lt == l) = none from hn]
  rfl
/-- A spare that is powering. -/
theorem substitution_powering (ha : s.lkh.pstate = .active) (hx : (s.repair.subst.find? fun x => x.lt == l) = some x) (h3 : x.phase = 3) :
    execSubstitution l t s = .next (
      if x.start + (if s.spareIdle x.spare then 13000000 else 12000000) < t then (s.at_ t).spareFailedFree x.spare
      else if s.spareIdle x.spare && s.epoch.free then (s.at_ t).substPlace l x.spare else s.at_ t) := by
  unfold execSubstitution
  dsimp only
  rw [if_neg (by rw [show (s.at_ t).lkh.pstate = .active from ha]; decide), show ((s.at_ t).repair.subst.find? fun x => x.lt == l) = some x from hx]
  dsimp only
  rw [if_neg (not_not.mpr h3)]
  rfl

/-- An LT with nothing to load: no range of the spare's scratchpad is lost. -/
theorem restoreFor_nil : State.restoreFor l [] s = (some (s, []), s) := by
  unfold State.restoreFor
  rfl
theorem noResident (h : (s.core x.spare).spd.res = Vector.replicate 8 {}) (f : SpdRes → Bool) :
    ((s.core x.spare).spd.res.toList.any fun r => r.valid && f r) = false := by
  rw [h, List.any_eq_false]
  intro r hr
  have he : r = {} := by
    rw [Vector.toList_replicate] at hr
    exact List.eq_of_mem_replicate hr
  rw [he]
  simp

theorem residentLost_same (s : State) (l : Lt) : vmod s.ltpos l (fun y => { y with residentLost := y.residentLost || false }) = s.ltpos := by
  refine Vector.ext fun i hi => ?_
  by_cases he : i = l.val
  · subst he
    exact (vmod_get_same ..).trans (by rw [Bool.or_false]; rfl)
  · exact vmod_get_ne (v := s.ltpos) (i := l) (j := ⟨i, hi⟩) _ fun h => he (congrArg Fin.val h)

/-- A substitution whose spare has been sounded well. -/
theorem substitutionReady_sounded (hx : (s.repair.subst.find? fun x => x.lt == l) = some x) (h8 : x.phase = 8) : execSubstitutionReady l t s =
    .next (if x.start + 1500000000 < t then (s.at_ t).spareFailedFree x.spare
      else (s.at_ t).modRepair fun r => { r with subst := r.subst.filter fun y => y.lt != l }) := by
  unfold execSubstitutionReady
  dsimp only
  rw [show ((s.at_ t).repair.subst.find? fun x => x.lt == l) = some x from hx]
  dsimp only
  rw [if_neg (by rw [h8]; simp), if_neg (not_not.mpr h8)]

theorem tablesFlipped (hf : x.flips ≠ s.epoch.flips) (hq : s.epoch.free = true) (b : Bool) :
    ¬(!(x.flips != s.epoch.flips && (s.epoch.free || b))) = true := by
  rw [hq, bne_iff_ne.mpr hf]
  simp
/-- A substitution whose tables are in force loads its spare. -/
theorem substitutionLoad_flipped (hx : (s.repair.subst.find? fun x => x.lt == l) = some x) (h4 : x.phase = 4) (hf : x.flips ≠ s.epoch.flips)
    (hq : s.epoch.free = true) (ht : ¬x.start + 1400000000 < t) (hr : s.ltpos[l].restore = []) (hl : s.ltpos[l].lastLoad = none)
    (hn : (s.core x.spare).spd.res = Vector.replicate 8 {}) :
    execSubstitutionLoad l t s = .next (((s.at_ t).modRepair fun r => { r with
      subst := r.subst.map fun y => if y.lt = l then { y with phase := 7, loaded := (s.at_ t).now } else y }).soundNext l) := by
  have hi : (s.at_ t).lastImage l = none := by
    unfold State.lastImage
    rw [show (s.at_ t).ltpos[l].lastLoad = none from hl]
  unfold execSubstitutionLoad
  dsimp only
  rw [show ((s.at_ t).repair.subst.find? fun x => x.lt == l) = some x from hx]
  dsimp only
  rw [if_neg (not_not.mpr h4), if_neg (tablesFlipped (s := s.at_ t) hf hq _), if_neg ht, hi]
  dsimp only
  rw [show (s.at_ t).ltpos[l].restore = [] from hr, restoreFor_nil]
  dsimp only
  rw [noResident (s := s.at_ t) hn, residentLost_same]

end

theorem substitutions_hold : Sys2Proof.Rules.Substitutions := by
  intro l t x s u here
  refine ⟨fun h => ?_, fun ha hn => ⟨fun h => ?_, fun hm hb => ⟨fun sp hs => ?_, fun hs => ⟨?_, noTile_posOf u l⟩⟩⟩, fun hn => ⟨?_, ?_⟩,
    fun hx => ⟨fun ha h3 => ⟨fun hi ht hf => ?_, fun hi ht hf => ?_, fun hi ht => ?_, fun h => ?_⟩,
      fun h4 hf hq => ⟨fun ht hr hl hn => ?_, fun ht => ?_⟩, fun h8 ht => ?_, fun h8 ht => ?_⟩⟩
  · exact congrArg Host.Outcome.next (if_pos (c := (s.lkh.pstate != .active) = true) (by simpa using h))
  · refine (substitution_new ha hn).trans (congrArg Host.Outcome.next (if_pos ?_))
    simpa using h
  · refine (substitution_new ha hn).trans ?_
    rw [hm, hb, hs]
    rfl
  · refine (substitution_new ha hn).trans ?_
    rw [hm, hb, hs]
    rfl
  · show execSubstitutionLoad l t s = _
    unfold execSubstitutionLoad
    dsimp only
    rw [show ((s.at_ t).repair.subst.find? fun x => x.lt == l) = none from hn]
  · show execSubstitutionReady l t s = _
    unfold execSubstitutionReady
    dsimp only
    rw [show ((s.at_ t).repair.subst.find? fun x => x.lt == l) = none from hn]
  · refine (substitution_powering ha hx h3).trans ?_
    rw [hi, hf, if_neg (by simpa using ht)]
    rfl
  · refine (substitution_powering ha hx h3).trans ?_
    rw [hi, hf, if_neg (by simpa using ht)]
    rfl
  · refine (substitution_powering ha hx h3).trans ?_
    rw [hi, if_neg (by simpa using ht)]
    rfl
  · refine (substitution_powering ha hx h3).trans (congrArg Host.Outcome.next (if_pos ?_))
    split
    · next hi => exact h.resolve_right fun h => absurd (hi.symm.trans h.1) (by decide)
    · exact h.elim (fun h => by omega) (·.2)
  · exact substitutionLoad_flipped hx h4 hf hq (Nat.not_lt.mpr ht) hr hl hn
  · show execSubstitutionLoad l t s = _
    unfold execSubstitutionLoad
    dsimp only
    rw [show ((s.at_ t).repair.subst.find? fun x => x.lt == l) = some x from hx]
    dsimp only
    rw [if_neg (not_not.mpr h4), if_neg (tablesFlipped (s := s.at_ t) hf hq _), if_pos ht]
  · refine (substitutionReady_sounded hx h8).trans ?_
    rw [if_neg (Nat.not_lt.mpr ht)]
  · refine (substitutionReady_sounded hx h8).trans ?_
    rw [if_pos ht]

/-! ### Lane groups (R429, R430) -/

theorem laneWord_fields (x y : BitVec 6) : fld (BitVec.ofNat 13 (x.toNat + 64 * y.toNat)) 0 6 = x.toNat ∧
    fld (BitVec.ofNat 13 (x.toNat + 64 * y.toNat)) 6 6 = y.toNat ∧ bit (BitVec.ofNat 13 (x.toNat + 64 * y.toNat)) 12 = false := by
  have hx := x.isLt
  have hy := y.isLt
  refine ⟨?_, ?_, ?_⟩
  · rw [fld_eq, BitVec.toNat_ofNat]
    omega
  · rw [fld_eq, BitVec.toNat_ofNat]
    omega
  · rw [bit, BitVec.getLsbD_ofNat, Nat.testBit_eq_decide_div_mod_eq]
    simp
    omega

theorem group_free (x : BitVec 6) : x.toNat = 0x3F ↔ x = 0x3F := ⟨fun h => BitVec.eq_of_toNat_eq h, fun h => by rw [h]; rfl⟩
/-- The first repair group is the one that takes the charge. -/
theorem takesFirst_iff (x y : BitVec 6) (second : Bool) :
    (decide (x.toNat = 0x3F) && !(second && y.toNat == 0x3F)) = true ↔ x = 0x3F ∧ (second = false ∨ y ≠ 0x3F) := by
  rw [Bool.and_eq_true, decide_eq_true_iff, group_free, Bool.not_eq_true', Bool.and_eq_false_iff, beq_eq_false_iff_ne, ne_eq, group_free]

/-- A repair group takes the lane group's charge: the seam's next word, its defect and its record. -/
def State.laneMended (s : State) (p : Pos) (d : Dir) (lane : Fin 48) (v : Nat) : State :=
  ((s.modMesh p fun k => { k with seam := vmod k.seam (dirNum d) fun x => { x with pend := some (BitVec.ofNat 13 v) } }).fdrAdd
    (laneUnit p d lane.val) 9 3 0).logRec 0x31 .firmware [(laneUnit p d lane.val).toNat, 1]
def State.setSeam (s : State) (p : Pos) (d : Dir) (v : SeamMap) : State := s.modMesh p fun k => { k with seam := k.seam.set (dirNum d) v }
/-- The seam goes out of service. -/
def State.seamOut (s : State) (p : Pos) (d : Dir) (lane : Fin 48) (w : BitVec 13) : State :=
  let m := (s.ut p).mesh.seam[dirNum d]
  ((((((s.setSeam p d { m with out := true }).newTables).logRec 0x31 .firmware [(laneUnit p d lane.val).toNat, 2]).setSeam p d
    { m with pend := some (w ||| 0x1000) }).setUns (bankOf p)).unsafeFrom s)

section
variable {p : Pos} {d : Dir} {lane : Fin 48} {second : Bool} {t : Nat} {s : State}

theorem laneRepair_charged (h8 : 8 < (s.ut p).mesh.replaysOf d lane t) (hp : (s.ut p).mesh.seam[dirNum d].pend = none)
    (ho : (s.ut p).mesh.seam[dirNum d].out = false) (h0 : (s.ut p).mesh.seam[dirNum d].repair0.toNat ≠ lane.val)
    (h1 : (s.ut p).mesh.seam[dirNum d].repair1.toNat ≠ lane.val) :
    let x := (s.ut p).mesh.seam[dirNum d].repair0.toNat
    let y := (s.ut p).mesh.seam[dirNum d].repair1.toNat
    execLaneRepair p d lane second t s = .next (
      if x = 0x3F && !(second && y == 0x3F) then (s.at_ t).laneMended p d lane (lane.val + 64 * y)
      else if y = 0x3F then (s.at_ t).laneMended p d lane (x + 64 * lane.val)
      else if !s.epoch.free then s.at_ t
      else (s.at_ t).seamOut p d lane (BitVec.ofNat 13 (x + 64 * y))) := by
  intro x y
  obtain ⟨hx, hy, hb⟩ := laneWord_fields (s.ut p).mesh.seam[dirNum d].repair0 (s.ut p).mesh.seam[dirNum d].repair1
  have hw : ((s.at_ t).ut p).mesh.seam[dirNum d].pend.getD (BitVec.ofNat 13 (((s.at_ t).ut p).mesh.seam[dirNum d].repair0.toNat +
      64 * ((s.at_ t).ut p).mesh.seam[dirNum d].repair1.toNat + 4096 * b2n ((s.at_ t).ut p).mesh.seam[dirNum d].out)) = BitVec.ofNat 13 (x + 64 * y) := by
    rw [show ((s.at_ t).ut p).mesh.seam[dirNum d].pend = none from hp, show ((s.at_ t).ut p).mesh.seam[dirNum d].out = false from ho]
    rfl
  unfold execLaneRepair
  dsimp only
  rw [hw, hx, hy, hb, if_neg]
  · rfl
  · rw [show decide (((s.at_ t).ut p).mesh.replaysOf d lane t ≤ 8) = false from decide_eq_false (Nat.not_le.mpr h8), decide_eq_false h0, decide_eq_false h1]
    decide

theorem timedEnd_onlyAborts (s : State) (b : Bank) : OnlyAborts s (s.timedEnd b) :=
  (foldl_rel (R := OnlyAborts) .refl .trans (fun s r => beginAbort_onlyAborts s r _ _) _ s).trans
    ⟨⟨_, _, _, _, _, _, _, _, _, _, rfl⟩, fun _ => .refl _, fun _ => ⟨_, rfl⟩, id⟩
theorem unsafeFrom_onlyAborts (s old : State) : OnlyAborts s (s.unsafeFrom old) :=
  foldl_rel (R := OnlyAborts) .refl .trans (fun s b => by
    split
    · exact timedEnd_onlyAborts s b
    · exact .refl s) _ s

theorem setUns_set (s : State) (b : Bank) : (s.setUns b).bankUns b = true := by
  cases b <;> rfl
theorem setSeam_seam (s : State) (v : SeamMap) : ((s.setSeam p d v).ut p).mesh.seam[dirNum d] = v := by
  rw [State.setSeam, State.modMesh, State.ut_modUt]
  exact Vector.getElem_set_self ..
theorem OnlyAborts.bankUns {u : State} (h : OnlyAborts s u) (b : Bank) : u.bankUns b = s.bankUns b := by
  obtain ⟨⟨_, _, _, _, _, _, _, _, _, _, rfl⟩, -⟩ := h
  rfl
theorem OnlyAborts.mesh {u : State} (h : OnlyAborts s u) : (u.ut p).mesh = (s.ut p).mesh := by
  obtain ⟨⟨_, _, _, _, _, _, h⟩, -⟩ := h.2.1 p
  rw [h]
theorem seamOut_leaves (s : State) (w : BitVec 13) : ((s.seamOut p d lane w).ut p).mesh.seam[dirNum d].pend = some (w ||| 0x1000) ∧
    (s.seamOut p d lane w).bankUns (bankOf p) = true := by
  have h := unsafeFrom_onlyAborts ((((((s.setSeam p d { (s.ut p).mesh.seam[dirNum d] with out := true }).newTables).logRec 0x31 .firmware
    [(laneUnit p d lane.val).toNat, 2]).setSeam p d { (s.ut p).mesh.seam[dirNum d] with pend := some (w ||| 0x1000) }).setUns (bankOf p))) s
  refine ⟨?_, (h.bankUns _).trans (setUns_set _ _)⟩
  show ((State.unsafeFrom _ s).ut p).mesh.seam[dirNum d].pend = _
  rw [h.mesh]
  exact congrArg SeamMap.pend (setSeam_seam ..)

end

/-! ### The entry into Moored (R433) -/

/-- A die's turn at the moor. -/
def State.darkTurn (s : State) (p : Pos) : State := (s.modFlags p fun f => { f with fencedDie := true }).goDark p
/-- A fenced die that is DARK. -/
def UnderTile.fencedDark (u : UnderTile) : Prop := u.flags.fencedDie = true ∧ u.pwr.state = 3

section
variable (s : State) (p q : Pos)

theorem darkTurn_self : ((s.darkTurn p).ut p).fencedDark := by
  obtain ⟨b, w, h⟩ := goDark_ut_same (s.modFlags p fun f => { f with fencedDie := true }) p
  rw [State.darkTurn, h, State.modFlags, State.ut_modUt]
  exact ⟨rfl, rfl⟩
theorem darkTurn_keeps (h : (s.ut q).fencedDark) : ((s.darkTurn p).ut q).fencedDark := by
  by_cases hq : q = p
  · exact hq ▸ darkTurn_self s q
  · obtain ⟨b, w, hu⟩ := goDark_ut_ne (s.modFlags p fun f => { f with fencedDie := true }) p q hq
    rw [State.darkTurn, hu, State.modFlags, State.ut_modUt_ne _ _ _ _ hq]
    exact h
theorem fenceAllDies_dark : (s.fenceAllDies.ut p).fencedDark :=
  foldl_of_mem (f := State.darkTurn) (P := fun _ => True) (Q := fun t => (t.ut p).fencedDark) (mem_allPos p) (fun t _ => darkTurn_self t p)
    (fun _ _ _ _ => trivial) (fun t q _ h => darkTurn_keeps t q p h) trivial
theorem ClockAsked.fencedDark {s t : State} (h : ClockAsked s t) (hd : (s.ut p).fencedDark) : (t.ut p).fencedDark := by
  obtain ⟨k, hk⟩ := h.2.1 p
  rw [hk]
  exact hd
theorem stopped_dark (c : Cause) (lt : BitVec 7) : ((s.stopped c lt).ut p).fencedDark := (askSteps_asked _ 5 5).fencedDark p (fenceAllDies_dark _ p)

theorem chartLoss_cht : ∃ c, s.chartLoss.ut p = { s.ut p with cht := c } := by
  unfold State.chartLoss
  extract_lets clr gone s1 keep
  rw [State.ut_allUts]
  exact ⟨_, rfl⟩
theorem chartLoss_lkh : s.chartLoss.lkh = s.lkh := by
  unfold State.chartLoss
  extract_lets clr gone s1 keep
  rw [State.allUts_lkh]
  rfl
theorem mooredNow_pstate : s.mooredNow.lkh.pstate = .moored := rfl
/-- The records and ALERT_N of a moor change nothing else. -/
theorem moorRecorded_leaves (v : State) (data : List Nat) (old new : PanelState) (hm : v.lkh.pstate = .moored) :
    let w := ((v.logRec 0x24 .firmware data).logState false old new).alert
    w.lkh.pstate = .moored ∧ w.ut p = v.ut p ∧ w.pins.alertN = false := by
  refine ⟨hm, rfl, ?_⟩
  show ((v.lkh.pstate == .active || v.lkh.pstate == .standby) && _ && _ && _ && _) = false
  rw [hm]
  rfl
theorem moorLogged_leaves (data : List Nat) (old : PanelState) (hm : s.lkh.pstate = .moored) (hd : (s.ut p).fencedDark) :
    (s.moorLogged data old).lkh.pstate = .moored ∧ ((s.moorLogged data old).ut p).fencedDark ∧ (s.moorLogged data old).pins.alertN = false := by
  obtain ⟨c, hc⟩ := chartLoss_cht s p
  obtain ⟨h1, h2, h3⟩ := moorRecorded_leaves p s.chartLoss data old .moored (by rw [chartLoss_lkh, hm])
  refine ⟨h1, ?_, h3⟩
  rw [State.moorLogged, h2, hc]
  exact hd
theorem moor_leaves (c : Cause) (lt : BitVec 7) (hm : s.lkh.pstate ≠ .moored) (ho : s.lkh.pstate ≠ .off) : (s.moor c lt).lkh.pstate = .moored ∧
    ((s.moor c lt).ut p).fencedDark ∧ (s.moor c lt).pins.alertN = false := by
  obtain ⟨data, old, h⟩ := moor_of_serving (c := c) (lt := lt) ho hm
  rw [h]
  have hd := stopped_dark s p c lt
  generalize s.stopped c lt = u at hd
  exact moorLogged_leaves u.mooredNow p data old (mooredNow_pstate u) (by rw [mooredNow_ut]; exact hd)

end

/-! ### Pseudo-channels (R431, R432) -/

theorem fenceUnit_out (s : State) (unit : BitVec 40) (c : BitVec 8) (v : BitVec 3) : unitOut (s.fenceUnit unit c v) unit = true := by
  unfold unitOut State.fenceUnit
  dsimp only
  split
  · next h => exact h
  · exact List.contains_iff_mem.mpr (List.mem_append_right _ (List.mem_singleton_self _))
theorem fenceUnit_hbm (s : State) (unit : BitVec 40) (c : BitVec 8) (v : BitVec 3) : (s.fenceUnit unit c v).hbm = s.hbm := by
  obtain ⟨l, k, us, h⟩ := fenceUnit_only s unit c v
  rw [h]

section
variable {m : StackN} {pc : Fin 64} {t : Nat} {s : State}

/-- A pseudo-channel that may not retrain. -/
theorem retrainBarred_iff (k : Stack) (x y n : Nat) (r : Bool) :
    (decide (x ≠ y) || k.lost || !k.present || k.retraining.contains pc || (r && decide (n ≤ 4096))) = true ↔
      x ≠ y ∨ k.lost = true ∨ k.present = false ∨ pc ∈ k.retraining ∨ (r = true ∧ n ≤ 4096) := by
  simp [or_assoc]
theorem hbmRetrainDone_eq (ok : Bool) (h : pc ∈ (s.hbm[m]).retraining) :
    let n := if ok then 0 else tblGet 0 (s.hbm[m]).failedRetrains pc.val + 1
    let v := (s.at_ t).modStack m fun k => { k with
      retraining := k.retraining.filter fun x => x != pc, failedRetrains := tblPut 0 k.failedRetrains pc.val n }
    execHbmRetrainDone m pc ok t s = .next (if n < 3 then v else (v.loseStack m).fenceUnit (unitId 6 m.val) 0x0A 0) :=
  congrArg Host.Outcome.next (if_neg (c := (!((s.hbm[m]).retraining.contains pc)) = true) (by rw [List.contains_iff_mem.mpr h]; decide))
theorem stackFenced_leaves (v : State) (m : StackN) : let w := (v.loseStack m).fenceUnit (unitId 6 m.val) 0x0A 0
    (w.hbm[m]).lost = true ∧ (w.hbm[m]).mem = [] ∧ unitOut w (unitId 6 m.val) = true := by
  have h : ((v.loseStack m).fenceUnit (unitId 6 m.val) 0x0A 0).hbm[m] =
      { (v.hbm[m]) with mem := [], single := [], bad := [], lost := true, selfRefresh := false, retraining := [] } := by
    rw [fenceUnit_hbm]
    exact vmod_get_same ..
  refine ⟨?_, ?_, fenceUnit_out ..⟩
  · rw [h]
  · rw [h]
end

theorem lanesAndStacks_hold : Sys2Proof.Rules.LanesAndStacks := by
  intro p d lane second n t m pc s u g mend
  refine ⟨fun h => ?_, fun h8 hp ho h0 h1 => ⟨fun he hs => ?_, fun he hs => ?_, fun hx hy hf => ?_, fun hx hy hf => ?_⟩,
    fun ht hl hp hr hv => ?_, fun h => ?_, fun ok h => ?_, fun h => ⟨?_, fun hn => ?_, fun hn => ?_⟩, fun why h => ?_, fun why h => ?_,
    fun c lt hm ho => ?_, ⟨_, rfl, rfl, rfl, fun x hx => ?_, rfl, rfl, rfl⟩⟩
  · refine congrArg Host.Outcome.next (if_pos ?_)
    rw [show decide (((s.at_ t).ut p).mesh.replaysOf d lane t ≤ 8) = true from decide_eq_true h]
    rfl
  · exact (laneRepair_charged h8 hp ho h0 h1).trans (congrArg Host.Outcome.next (if_pos ((takesFirst_iff ..).mpr ⟨he, hs⟩)))
  · refine (laneRepair_charged h8 hp ho h0 h1).trans (congrArg Host.Outcome.next ((if_neg fun hc => ?_).trans (if_pos ((group_free _).mpr he))))
    obtain ⟨hx, hc⟩ := (takesFirst_iff ..).mp hc
    rcases hs with hs | hs
    · exact hc.elim (fun h => absurd (hs.symm.trans h) (by decide)) fun h => h he
    · exact hs hx
  · refine (laneRepair_charged h8 hp ho h0 h1).trans (congrArg Host.Outcome.next ((if_neg fun hc => ?_).trans ((if_neg ?_).trans (if_pos ?_))))
    · exact hx ((takesFirst_iff ..).mp hc).1
    · exact fun h => hy ((group_free _).mp h)
    · rw [hf]
      rfl
  · obtain ⟨hq, hb⟩ := seamOut_leaves (p := p) (d := d) (lane := lane) u (BitVec.ofNat 13 (g.repair0.toNat + 64 * g.repair1.toNat))
    refine ⟨_, (laneRepair_charged h8 hp ho h0 h1).trans (congrArg Host.Outcome.next ((if_neg fun hc => ?_).trans ((if_neg ?_).trans (if_neg ?_)))),
      ⟨_, hq, ?_⟩, hb⟩
    · exact hx ((takesFirst_iff ..).mp hc).1
    · exact fun h => hy ((group_free _).mp h)
    · rw [hf]
      decide
    · rw [BitVec.getLsbD_or]
      exact Bool.or_true _
  · refine congrArg Host.Outcome.next (if_neg fun hc => ?_)
    rcases (retrainBarred_iff (s.hbm[m]) t s.lastTick n (s.stackReserved m)).mp hc with h | h | h | h | ⟨h, hn⟩
    · exact h ht
    · exact absurd (hl.symm.trans h) (by decide)
    · exact absurd (hp.symm.trans h) (by decide)
    · exact hr h
    · exact hv.elim (fun h' => absurd (h'.symm.trans h) (by decide)) fun h' => Nat.not_le.mpr h' hn
  · exact congrArg Host.Outcome.next (if_pos ((retrainBarred_iff (s.hbm[m]) t s.lastTick n (s.stackReserved m)).mpr h))
  · refine congrArg Host.Outcome.next (if_pos (c := (!((s.hbm[m]).retraining.contains pc)) = true) ?_)
    rw [Bool.eq_false_iff.mpr fun hc => h (List.contains_iff_mem.mp hc)]
    rfl
  · exact hbmRetrainDone_eq true h
  · exact (hbmRetrainDone_eq false h).trans (congrArg Host.Outcome.next (if_pos (show tblGet 0 (s.hbm[m]).failedRetrains pc.val + 1 < 3 by omega)))
  · obtain ⟨h1, h2, h3⟩ := stackFenced_leaves (u.modStack m fun k => { k with
      retraining := k.retraining.filter fun x => x != pc
      failedRetrains := tblPut 0 k.failedRetrains pc.val (tblGet 0 (s.hbm[m]).failedRetrains pc.val + 1) }) m
    exact ⟨_, (hbmRetrainDone_eq false h).trans (congrArg Host.Outcome.next (if_neg (show ¬tblGet 0 (s.hbm[m]).failedRetrains pc.val + 1 < 3 by omega))),
      h1, h2, h3⟩
  · exact congrArg Host.Outcome.next (if_pos h)
  · refine congrArg Host.Outcome.next (if_neg ?_)
    rw [h]
    decide
  · exact ⟨(moor_leaves s 0 c lt hm ho).1, fun q => (moor_leaves s q c lt hm ho).2.1, (moor_leaves s 0 c lt hm ho).2.2⟩
  · exact of_decide_eq_true (List.mem_filter.mp hx).2

/-- Settles O51: the cases of each command's conditions, with the fence of a die, the seam taken out and the moor through what they leave. -/
theorem repairs : Obligations.Repairs := ⟨soundings_hold, fenceVotes_hold, substitutions_hold, lanesAndStacks_hold⟩

end Sys2Proof.Machine
end

section
/-! PROOFS. Resets, standby and the firmware update (O52). -/

namespace Sys2Proof.Machine

open Sys2Proof

/-! ### What the end of a consignment leaves (10.6, 10.7) -/

section
variable (s : State) (x : PortN) (e : Fin 256)

theorem consSignal_onlyEngines (c : Consign) : OnlyEngines s (s.consSignal x c) := .of_eq ⟨_, _, _, _, _, _, _, rfl⟩
theorem modCons_onlyEngines (f : Consign → Consign) : OnlyEngines s (s.modCons x e f) := .modPort s x

theorem tryMeet_onlyEngines : OnlyEngines s (s.tryMeet x e) := by
  unfold State.tryMeet
  extract_lets c
  split
  · exact .refl s
  split
  · exact .refl s
  split
  · exact (OnlyEngines.modPort s x).trans (modCons_onlyEngines _ x e _)
  split
  · exact ((OnlyEngines.modPort s x).trans (modCons_onlyEngines _ x e _)).trans (.modPort _ x fun q => queue_state q _)
  · exact (OnlyEngines.modPort s x).trans (modCons_onlyEngines _ x e _)

theorem fire_onlyEngines : OnlyEngines s (s.fire x e) := by
  unfold State.fire
  extract_lets q c s1
  have h1 : OnlyEngines s s1 := modCons_onlyEngines s x e _
  split
  · exact .modPort s x
  split
  · exact h1.trans (modCons_onlyEngines _ x e _)
  split
  · exact h1.trans (modCons_onlyEngines _ x e _)
  split
  · exact h1.trans (.modPort _ x fun q => queue_state q _)
  split
  · exact (h1.trans (tryMeet_onlyEngines ..)).trans (pump_onlyEngines ..)
  · exact (h1.trans (modCons_onlyEngines _ x e _)).trans (.modPort _ x fun q => queue_state q _)

/-- An entry chained behind a completed one fires. -/
def State.chained (s : State) (h : PortN × Fin 256) : State := (s.modCons h.1 h.2 fun o => { o with after := [0] }).fire h.1 h.2
theorem chained_onlyEngines (h : PortN × Fin 256) : OnlyEngines s (s.chained h) := (modCons_onlyEngines s h.1 h.2 _).trans (fire_onlyEngines _ h.1 h.2)
theorem chainOn_onlyEngines (c : Consign) : OnlyEngines s (s.chainOn x c) := by
  unfold State.chainOn
  split
  · exact .refl s
  extract_lets left hit s1 s2 now_ s3
  have h1 : OnlyEngines s s1 := ⟨⟨_, _, _, _, _, _, _, _, _, rfl⟩, fun _ => rfl, fun y => (congrArg Port.state (Vector.getElem_map ..)).trans rfl, fun _ => ⟨_, rfl⟩⟩
  clear_value s1 hit
  have h2 : OnlyEngines s1 s2 := .foldl (f := State.chained) chained_onlyEngines hit s1
  clear_value s2
  have h3 : OnlyEngines s s3 := (h1.trans h2).trans (.of_eq ⟨_, _, _, _, _, _, _, rfl⟩)
  clear_value s3 now_
  split
  · split
    · exact h3.trans (consSignal_onlyEngines ..)
    · exact h3
  · exact h3

theorem consComplete_onlyEngines : OnlyEngines s (s.consComplete x e) := by
  unfold State.consComplete
  extract_lets q c
  split
  · exact .refl s
  split
  · exact .refl s
  next row st _ =>
  extract_lets s1 s2
  have h1 : OnlyEngines s s1 := modCons_onlyEngines s x e _
  have h2 : OnlyEngines s s2 := by
    refine h1.trans ?_
    unfold s2
    split
    · exact .refl s1
    split
    · exact consSignal_onlyEngines ..
    · exact chainOn_onlyEngines ..
  split
  · exact h2.trans (.modPort _ x fun q => queue_state q _)
  · exact h2

end

/-! ### What each reset keeps (Table 16.3) -/

section
variable (s : State) (p q : Pos)

theorem modCore_spd {f : Core → Core} (hf : ∀ c, (f c).spd = c.spd := by exact fun _ => rfl) : ((s.modCore p f).core q).spd = (s.core q).spd := by
  by_cases hq : q = p
  · subst hq
    rw [State.core_modCore, hf]
  · rw [State.core_modCore_ne _ _ _ _ hq]
theorem berthReset_spd (k : Fin 64) : ((s.berthReset p k).core q).spd = (s.core q).spd := by
  have hw : (((s.berth p k).unlanded.foldl (fun (s : State) c => s.answerContrib p c .staleGeneration) s).core q).spd = (s.core q).spd := by
    obtain ⟨ns, n, h⟩ := answered_onlyNet s p (s.berth p k).unlanded
    rw [h]
    rfl
  rw [berthReset_eq, State.dropInvocations, State.modCtl]
  generalize (s.berth p k).unlanded.foldl (fun (s : State) c => s.answerContrib p c .staleGeneration) s = w at hw
  refine (modCore_spd _ p q).trans ((modCore_spd _ p q).trans ?_)
  rw [State.modBerth, State.core_modUt, hw]
theorem closeAll_spd : ((s.closeAll p).core q).spd = (s.core q).spd := by
  rw [State.closeAll, State.core_modUt]
  exact foldl_reads_same (g := fun t : State => (t.core q).spd) (fun t k _ => berthReset_spd t p q k) s

theorem resetRegs_mem (c : Core) : c.resetRegs.spd.mem = c.spd.mem := rfl
theorem coreResetAt_leaves : ((s.coreResetAt p).core p).spd.mem = (s.core p).spd.mem ∧ ((s.coreResetAt p).ut p).flags.inCoreReset = true ∧
    (s.coreResetAt p).hbm = s.hbm := by
  obtain ⟨l, hl⟩ := voidSender_core s p p .tileReset
  obtain ⟨⟨ts, ns, n, hv⟩, -⟩ := voidSender_voidsOnly s p .tileReset
  have hd : (((s.voidSender p .tileReset).dropAccepted p true).core p).spd = (s.core p).spd := by
    show ((s.voidSender p .tileReset).core p).spd = _
    rw [hl]
  have hh : ((s.voidSender p .tileReset).dropAccepted p true).hbm = s.hbm := by
    show (s.voidSender p .tileReset).hbm = _
    rw [hv]
  unfold State.coreResetAt
  generalize (s.voidSender p .tileReset).dropAccepted p true = u at hd hh
  refine ⟨?_, ?_, ?_⟩
  · rw [State.modFlags, State.core_modUt, State.core_modCore, resetRegs_mem, closeAll_spd, hd]
  · rw [State.modFlags, State.ut_modUt]
  · obtain ⟨ts, ns, n, hc⟩ := closeAll_onlyTilesAndNet u p
    rw [hc]
    exact hh

/-- The port of a wharf at a tile reset: its consignments complete, its block is at the reset values (R285). -/
def State.wharfReset (s : State) (x : PortN) : State :=
  ((List.finRange 256).foldl (fun (s : State) e => s.consComplete x e) ((s.portLeave x .off .tileReset).modPort x fun q => q.stopAll 1 .tileReset)).modPort x
    Port.blockReset
theorem portLeave_core (x : PortN) (nx : PortState) (st : Status) : (s.portLeave x nx st).core p = s.core p := rfl
theorem wharfReset_tile (x : PortN) : (s.wharfReset x).ut p = s.ut p ∧ ((s.wharfReset x).core p).spd = (s.core p).spd := by
  have hu := portLeave_ut s x .off .tileReset p
  have hc := portLeave_core s p x .off .tileReset
  unfold State.wharfReset
  generalize s.portLeave x .off .tileReset = v at hu hc
  obtain ⟨-, hw, -, hm⟩ := ((OnlyEngines.modPort v x (f := fun q => q.stopAll 1 .tileReset)).trans
    (.foldl (fun t e => consComplete_onlyEngines t x e) (List.finRange 256) _)).trans (.modPort _ x (f := Port.blockReset))
  obtain ⟨m, hm⟩ := hm p
  exact ⟨(hw p).trans hu, by rw [hm, hc]⟩

/-- The core at its reset values, or with its contents cleared as well. -/
def Tile.cleared (clear : Bool) (t : Tile) : Tile := { core := if clear then t.core.clearAll else t.core.resetRegs, ut := t.ut }
/-- A tile at its reset values, with what its slots were busy with abandoned. -/
def Tile.reset (t : Tile) (slots : Vector Slot 64) (clear : Bool) : Tile :=
  let x := t.cleared clear
  { core := { x.core with mov := { x.core.mov with slots := slots }, spd := { x.core.spd with zeroing := clear || x.core.spd.zeroing } }
    ut := { x.ut with
      stg := { x.ut.stg with ringMib := 4, flush := false }
      cht := { faultAddr := x.ut.cht.faultAddr, faultValid := x.ut.cht.faultValid }
      stepNo := 0, attempt := 0, chambers := []
      pwr := { x.ut.pwr with boostMv := 0x0F, refused := false }
      flags := { x.ut.flags with inTileReset := true } } }

theorem tileResetAt_lost (clear : Bool) (h : (s.ut p).flags.lost = true) : s.tileResetAt p clear = s := if_pos h
theorem tileResetAt_eq (clear : Bool) (h : (s.ut p).flags.lost = false) : ∃ v t slots, v.tile p = Tile.reset t slots clear ∧
    s.tileResetAt p clear = match portAt p with | some x => v.wharfReset x | none => v := by
  unfold State.tileResetAt
  rw [if_neg (by rw [h]; exact Bool.false_ne_true)]
  extract_lets slots s1 s2 s3 s4
  clear_value s1 slots
  have h2 : s2.tile p = ((s1.closeAll p).tile p).cleared clear := State.tile_modTile _ p (Tile.cleared clear)
  clear_value s2
  have h3 : s3.tile p = Tile.reset ((s1.closeAll p).tile p) slots clear := by
    rw [Tile.reset, ← h2]
    exact State.tile_modTile ..
  clear_value s3
  have h4 : s4.tile p = s3.tile p := by
    unfold s4
    split
    · rfl
    · rfl
  clear_value s4
  exact ⟨s4, _, slots, h4.trans h3, rfl⟩

theorem tileResetAt_leaves (clear : Bool) (h : (s.ut p).flags.lost = false) : ((s.tileResetAt p clear).ut p).chambers = [] ∧
    ((s.tileResetAt p clear).ut p).stepNo = 0 ∧ ((s.tileResetAt p clear).ut p).flags.inTileReset = true ∧
    (clear = true → ((s.tileResetAt p clear).core p).spd.mem = []) := by
  obtain ⟨v, t, slots, hv, he⟩ := tileResetAt_eq s p clear h
  have hu : (s.tileResetAt p clear).ut p = v.ut p ∧ ((s.tileResetAt p clear).core p).spd = (v.core p).spd := by
    rw [he]
    split
    · exact wharfReset_tile v p _
    · exact ⟨rfl, rfl⟩
  rw [hu.1, hu.2, show v.ut p = (v.tile p).ut from rfl, show v.core p = (v.tile p).core from rfl, hv]
  exact ⟨rfl, rfl, rfl, fun hc => by subst hc; rfl⟩

end

theorem contextReset_leaves (k : Core) (x y : Ctx) :
    ((k.contextReset x).ctx x = { k.ctx x with s := Vector.replicate 32 0, a := Vector.replicate 16 0, p := Vector.replicate 8 false, loops := Vector.replicate 4 {} }) ∧
    (y ≠ x → (k.contextReset x).ctx y = k.ctx y) ∧ (k.contextReset x).spd = k.spd ∧ (k.contextReset x).vMain = k.vMain := by
  refine ⟨?_, fun h => ?_, ?_, ?_⟩
  · cases x <;> rfl
  · have hc : (k.contextReset x).ctx y = (k.modCtx x fun q =>
        { q with s := Vector.replicate 32 0, a := Vector.replicate 16 0, p := Vector.replicate 8 false, loops := Vector.replicate 4 {} }).ctx y := by
      cases x <;> rfl
    rw [hc, Core.ctx_modCtx_ne (h := h)]
  · cases x <;> rfl
  · cases x <;> rfl

theorem whatResetsKeep_holds : Sys2Proof.Rules.WhatResetsKeep := by
  intro p x y clear k s
  obtain ⟨h1, h2, h3, h4⟩ := contextReset_leaves k x y
  exact ⟨⟨rfl, rfl, rfl, rfl, rfl, rfl, rfl, rfl, rfl, rfl⟩, h1, h2, h3, h4, tileResetAt_lost s p clear, tileResetAt_leaves s p clear, coreResetAt_leaves s p⟩

/-! ### LKH_RESET (16.1, R439, R440) -/

/-- The register with GO. -/
def State.resetAsked (s : State) (kind : BitVec 4) (clear update : Bool) (ctx : BitVec 2) (target : BitVec 8) : State :=
  { s with lkh := { s.lkh with reset := { kind := kind, clear := clear, update := update, ctx := ctx, target := target, busy := true, status := .done
                                          waiting := true, since := s.now, origin := .firmware, path := .internal } } }
/-- What becomes of a GO. -/
def State.resetGone (v : State) : State :=
  if v.resetIllegal v.lkh.reset then v.resetDone .illegalDescriptor else if v.resetMay v.lkh.reset then v.resetBegin else v

section
variable {s : State} {kind : BitVec 4} {clear upd : Bool} {ctx : BitVec 2} {n : Nat}

theorem fwReset_asked (hb : s.lkh.reset.busy = false) (ho : s.lkh.pstate ≠ .off) (hk : kind ≠ 1 ∨ s.lkh.pstate ≠ .starting) :
    s.fwReset kind clear upd ctx n = (s.resetAsked kind clear upd ctx (BitVec.ofNat 8 n)).resetGone := by
  refine if_neg (c := (s.lkh.reset.busy || s.lkh.pstate == .off || (kind == 1 && s.lkh.pstate == .starting)) = true) fun hc => ?_
  rw [hb, beq_eq_false_iff_ne.mpr ho, Bool.false_or, Bool.false_or, Bool.and_eq_true, beq_iff_eq, beq_iff_eq] at hc
  exact hk.elim (fun h => h hc.1) fun h => h hc.2
theorem fwReset_ignored (h : s.lkh.reset.busy = true ∨ s.lkh.pstate = .off ∨ kind = 1 ∧ s.lkh.pstate = .starting) :
    s.fwReset kind clear upd ctx n = s := by
  refine if_pos (c := (s.lkh.reset.busy || s.lkh.pstate == .off || (kind == 1 && s.lkh.pstate == .starting)) = true) ?_
  rw [Bool.or_eq_true, Bool.or_eq_true, Bool.and_eq_true, beq_iff_eq, beq_iff_eq, beq_iff_eq, or_assoc]
  exact h

/-- A GO is ILLEGAL_DESCRIPTOR, begins or waits. -/
theorem resetGone_cases (v : State) : (v.resetIllegal v.lkh.reset = true → v.resetGone = v.resetDone .illegalDescriptor) ∧
    (v.resetIllegal v.lkh.reset = false → v.resetMay v.lkh.reset = true → v.resetGone = v.resetBegin) ∧
    (v.resetIllegal v.lkh.reset = false → v.resetMay v.lkh.reset = false → v.resetGone = v) := by
  unfold State.resetGone
  refine ⟨fun h => if_pos h, fun h hm => ?_, fun h hm => ?_⟩
  · rw [h, if_neg Bool.false_ne_true, if_pos hm]
  · rw [h, if_neg Bool.false_ne_true, hm, if_neg Bool.false_ne_true]

end

theorem and_three_ne {a b c : Bool} (h : a = false ∨ b = false ∨ c = false) : ¬(a && b && c) = true := by
  rcases h with rfl | rfl | rfl
  · simp
  · simp
  · simp

theorem resets_hold : Sys2Proof.Rules.Resets := by
  intro t r p c h clear upd port s u x asked go stays
  have hgo {i : Instr} {w : State} (he : exec i s = .next w.resetGone) : go i w := by
    obtain ⟨h1, h2, h3⟩ := resetGone_cases w
    exact ⟨fun a => by rw [he, h1 a], fun a b => by rw [he, h2 a b], fun a b => by rw [he, h3 a b]⟩
  refine ⟨fun hb ho => ⟨fun hs => hgo ?_, fun hs => ?_, hgo ?_, hgo ?_, hgo ?_, hgo ?_, hgo ?_, hgo ?_⟩, fun hi => ⟨?_, ?_, ?_, ?_, ?_, ?_, ?_⟩,
    fun ho => ?_, fun ho => ?_, fun hb hw hm => ?_, fun hc => ?_, fun hb hw ht => ?_, fun hc => ?_, fun hb hw hk => ?_, fun hc => ?_, fun st => ⟨rfl, rfl, rfl⟩⟩
  · exact congrArg Host.Outcome.next (fwReset_asked hb ho (.inr hs))
  · exact congrArg Host.Outcome.next (fwReset_ignored (.inr (.inr ⟨rfl, hs⟩)))
  · exact congrArg Host.Outcome.next (fwReset_asked hb ho (.inl (by decide)))
  · exact congrArg Host.Outcome.next (fwReset_asked hb ho (.inl (by decide)))
  · exact congrArg Host.Outcome.next (fwReset_asked hb ho (.inl (by decide)))
  · exact congrArg Host.Outcome.next (fwReset_asked hb ho (.inl (by decide)))
  · refine (congrArg Host.Outcome.next (fwReset_asked (s := u) hb ho (.inl (by decide)))).trans ?_
    rw [BitVec.ofNat_toNat, BitVec.setWidth_eq]
    rfl
  · exact congrArg Host.Outcome.next (fwReset_asked hb ho (.inl (by decide)))
  iterate 7 exact congrArg Host.Outcome.next (fwReset_ignored (hi.imp_right .inl))
  · exact congrArg (fun v : State => Host.Outcome.next v.coldStart) (if_neg ho)
  · exact congrArg (fun v : State => Host.Outcome.next v.coldStart) (if_pos ho)
  · refine congrArg Host.Outcome.next (if_pos (c := (x.busy && x.waiting && u.resetMay x) = true) ?_)
    rw [hb, hw, hm]
    rfl
  · exact congrArg Host.Outcome.next (if_neg (c := (x.busy && x.waiting && u.resetMay x) = true) (and_three_ne hc))
  · refine congrArg Host.Outcome.next (if_pos (c := (x.busy && x.waiting && decide (x.since + 100000000 ≤ t)) = true) ?_)
    rw [hb, hw, decide_eq_true ht]
    rfl
  · exact congrArg Host.Outcome.next (if_neg (c := (x.busy && x.waiting && decide (x.since + 100000000 ≤ t)) = true)
      (and_three_ne (hc.imp_right (.imp_right fun h => decide_eq_false (Nat.not_le.mpr h)))))
  · refine congrArg Host.Outcome.next (if_pos (c := (x.busy && !x.waiting && x.kind != 1) = true) ?_)
    rw [hb, hw, bne_iff_ne.mpr hk]
    rfl
  · exact congrArg Host.Outcome.next (if_neg (c := (x.busy && !x.waiting && x.kind != 1) = true)
      (and_three_ne (hc.imp_right (.imp (fun h => by rw [h]; rfl) fun h => by rw [h]; rfl))))

/-! ### STANDBY (R443) and the firmware update (R459) -/

section
variable {s : State} {t : Nat}

/-- ACTIVE again, the stacks out of self-refresh. -/
def State.activeNow (s : State) : State := { s with
  hbm := s.hbm.map fun (k : Stack) => if k.initing then k else { k with selfRefresh := false }
  lkh := { s.lkh with pstate := .active, req := false, pending := false } }
theorem askRail_keeps (s : State) (p : Pos) (r : Rail) : (s.askRail p r).hbm = s.hbm ∧ (s.askRail p r).lkh = s.lkh := by
  unfold State.askRail
  dsimp only
  split
  · exact ⟨rfl, rfl⟩
  · exact ⟨rfl, rfl⟩
/-- A request for IDLE changes no stack and no state of the panel. -/
theorem powerReq_idle_keeps (s : State) (p : Pos) : (s.powerReq p 1).hbm = s.hbm ∧ (s.powerReq p 1).lkh = s.lkh := by
  by_cases h : (s.ut p).pwr.pending = false ∧ s.mayPlace p 1 = true
  · rw [powerReq_idle h.1 h.2]
    split
    · exact ⟨rfl, rfl⟩
    split
    · exact askRail_keeps _ _ _
    split
    · exact askRail_keeps _ _ _
    · exact ⟨rfl, rfl⟩
  · rw [powerReq_ignored (by simpa [or_iff_not_imp_left] using h)]
    exact ⟨rfl, rfl⟩
/-- The dies that carry an LT and are in RETAIN are asked for IDLE. -/
def State.diesWoken (s : State) : State :=
  (allPos.filter fun p => (s.ltAt p).isSome && (s.ut p).pwr.state == 2).foldl (fun (s : State) p => s.powerReq p 1) s
theorem diesWoken_keeps (s : State) : s.diesWoken.hbm = s.hbm ∧ s.diesWoken.lkh = s.lkh :=
  ⟨foldl_reads_same (g := State.hbm) (fun t p _ => (powerReq_idle_keeps t p).1) s, foldl_reads_same (g := State.lkh) (fun t p _ => (powerReq_idle_keeps t p).2) s⟩

theorem askActive_of_standby (h : s.lkh.pstate = .standby) : s.askActive = (s.activeNow.diesWoken.logState false .standby .active).alert := if_pos h
theorem panelLogged_keeps (s : State) (old new : PanelState) : ((s.logState false old new).alert).hbm = s.hbm ∧
    ((s.logState false old new).alert).lkh = s.lkh := ⟨rfl, rfl⟩
theorem askActive_leaves (h : s.lkh.pstate = .standby) : s.askActive.lkh.pstate = .active ∧ s.askActive.lkh.req = false ∧
    ∀ m : StackN, (s.hbm[m]).initing = false → (s.askActive.hbm[m]).selfRefresh = false := by
  obtain ⟨h1, h2⟩ := panelLogged_keeps s.activeNow.diesWoken .standby .active
  obtain ⟨h3, h4⟩ := diesWoken_keeps s.activeNow
  rw [askActive_of_standby h, h1, h2, h3, h4]
  refine ⟨rfl, rfl, fun m hm => ?_⟩
  have hs : s.activeNow.hbm[m] = if (s.hbm[m]).initing then s.hbm[m] else { (s.hbm[m]) with selfRefresh := false } := Vector.getElem_map ..
  rw [hs, hm, if_neg Bool.false_ne_true]

theorem enterStandby_leaves (s : State) : s.enterStandby.lkh.pstate = .standby ∧ s.enterStandby.lkh.pending = false := by
  unfold State.enterStandby
  extract_lets s1 s2 s3
  clear_value s3
  rw [(panelLogged_keeps _ _ _).2]
  exact ⟨rfl, rfl⟩

theorem askStandby_of_active (h : s.lkh.pstate = .active) : s.askStandby =
    if s.canStandby then ({ s with lkh := { s.lkh with req := true, pending := true } } : State).enterStandby
    else { s with lkh := { s.lkh with req := true, pending := true } } := if_neg (not_not.mpr h)
end

theorem panelStates_hold : Sys2Proof.Rules.PanelStates := by
  intro t g b s u v
  refine ⟨fun ha hc => ?_, fun ha hc => ?_, fun ha => ?_, fun ha hr hc => ?_, fun h => ?_, fun h => ⟨_, rfl, askActive_leaves (s := u) h⟩, fun ha => ?_,
    fun ha hs => ?_, enterStandby_leaves s, fun h => ?_, fun hu hi => ?_⟩
  · exact congrArg Host.Outcome.next ((askStandby_of_active (s := u) ha).trans (if_pos hc))
  · exact congrArg Host.Outcome.next ((askStandby_of_active (s := u) ha).trans (if_neg fun h => absurd (hc.symm.trans h) (by decide)))
  · exact congrArg Host.Outcome.next (if_pos ha)
  · refine congrArg Host.Outcome.next (if_pos (c := (s.lkh.pstate == .active && s.lkh.req && s.canStandby) = true) ?_)
    rw [ha, hr, hc]
    rfl
  · exact congrArg Host.Outcome.next (if_neg (c := (s.lkh.pstate == .active && s.lkh.req && s.canStandby) = true)
      (and_three_ne (h.imp_left beq_eq_false_iff_ne.mpr)))
  · exact congrArg Host.Outcome.next ((if_neg (by rw [show u.lkh.pstate = .active from ha]; decide)).trans (if_pos ha))
  · exact congrArg Host.Outcome.next ((if_neg hs).trans (if_neg ha))
  · show execFirmwareUpdate g t s = _
    unfold execFirmwareUpdate
    dsimp only
    split
    · rfl
    · next hu =>
      rw [show (s.at_ t).idleSlot = none from h.resolve_left hu]
  · intro w
    have he : exec (.firmwareUpdate g t) s = .next (if !w.pkgOk g || w.unitTooOld g then w.logUpdate g .illegalDescriptor
        else ({ w with sec := { w.sec with updating := true, updateStep := 1 }, lkh := { w.lkh with refBroken := true } } : State).updateNext) := by
      show execFirmwareUpdate g t s = _
      unfold execFirmwareUpdate
      dsimp only
      rw [if_neg (by rw [show (s.at_ t).sec.updating = false from hu]; exact Bool.false_ne_true), show (s.at_ t).idleSlot = some b from hi]
    clear_value w
    rw [he]
    refine ⟨fun h => ?_, fun h1 h2 => ?_⟩
    · rw [if_pos]
      rcases h with h | h
      · rw [h]
        rfl
      · rw [h, Bool.or_true]
    · rw [h1, h2, if_neg (by decide)]

/-- Settles O52: the cases of each command's conditions; what a tile reset and a core reset leave through what voids, closes and completes there. -/
theorem resetsAndStates : Obligations.ResetsAndStates := ⟨resets_hold, whatResetsKeep_holds, panelStates_hold⟩

end Sys2Proof.Machine
end

section
/-! PROOFS. Security and the Logbook (O54). -/

namespace Sys2Proof.Machine

open Sys2Proof

/-! ### Quotes and signed requests (R461, R462) -/

section
variable {q : MgmtReq} {s : State}

theorem mgmtOk_facts (h : s.mgmtOk q = true) : ∃ pk, s.sec.mgrKeys[q.key.toNat]? = some pk ∧ q.key.toNat < s.sec.mgrN ∧
    tblGet 0 s.sec.lastCtr q.key.toNat ≤ q.counter.toNat ∧ q.signedAt ≤ s.now + 5000000000 ∧ s.now ≤ q.signedAt + 5000000000 ∧
    Config.verify pk "OVP-MGMT" q.bytes q.signature = true := by
  unfold State.mgmtOk at h
  split at h
  · cases h
  · next pk hk =>
    simp only [Bool.and_eq_true, decide_eq_true_eq] at h
    obtain ⟨⟨⟨⟨⟨h1, h2⟩, h3⟩, h4⟩, -⟩, h5⟩ := h
    exact ⟨pk, hk, h1, h2, h3, h4, h5⟩

end

theorem signedRequests_hold : Sys2Proof.Rules.SignedRequests := by
  intro h q t s u c w
  refine ⟨fun hs => ?_, fun hs => ?_, fun ho => ?_, fun ho => ?_, fun hc => ?_, fun pk hk hv => ?_, fun hc => if_pos ?_, fun hr hs => if_neg ?_⟩
  · exact congrArg Host.Outcome.next (if_neg (c := (!s.lkh.serving.getLsbD h.val) = true) (by rw [hs]; decide))
  · exact congrArg Host.Outcome.next (if_pos (c := (!s.lkh.serving.getLsbD h.val) = true) (by rw [hs]; rfl))
  · exact if_neg (c := (!u.mgmtOk q) = true) (by rw [ho]; decide)
  · exact if_pos (c := (!u.mgmtOk q) = true) (by rw [ho]; rfl)
  · refine Bool.eq_false_iff.mpr fun ho => ?_
    obtain ⟨-, -, h1, h2, h3, h4, -⟩ := mgmtOk_facts ho
    omega
  · refine Bool.eq_false_iff.mpr fun ho => ?_
    obtain ⟨pk', hk', -, -, -, -, hv'⟩ := mgmtOk_facts ho
    rw [hk, Option.some.injEq] at hk'
    rw [hk', hv'] at hv
    cases hv
  · rw [Bool.or_eq_true]
    exact hc.imp_left Option.isSome_iff_exists.mpr
  · rw [hr, hs]
    decide

/-! ### Certificates (R464, R465) -/

theorem append_nextIdx_le {α : Type} (f : Logbook × Bool → α → Logbook × Bool) (hf : ∀ x a, x.1.nextIdx ≤ (f x a).1.nextIdx) (l : List α) (x : Logbook × Bool) :
    x.1.nextIdx ≤ (l.foldl f x).1.nextIdx :=
  foldl_rel (R := fun x y : Logbook × Bool => x.1.nextIdx ≤ y.1.nextIdx) (fun _ => le_rfl) .trans hf l x
/-- A record has at least one entry. -/
theorem record_nextIdx_lt (l : Logbook) (now : Nat) (hs : BitVec 3) (single holdup : Bool) (ty : BitVec 16) (o : Origin) (p : Path) (key : BitVec 8)
    (data : List Byte) : l.nextIdx < (l.record now hs single holdup ty o p key data).nextIdx := by
  obtain ⟨n, hn⟩ : ∃ n, max 1 (cdiv data.length 72) = n + 1 := ⟨max 1 (cdiv data.length 72) - 1, by omega⟩
  unfold Logbook.record
  extract_lets f
  rw [hn, logParts, List.foldl_cons]
  refine lt_of_lt_of_le ?_ (append_nextIdx_le _ (fun x bs => ?_) _ _)
  · rw [append_nextIdx]
    exact Nat.lt_succ_self _
  · rw [append_nextIdx]
    exact Nat.le_succ _
theorem logFull_nextIdx_lt (s : State) (holdup : Bool) (ty : BitVec 16) (o : Origin) (p : Path) (key : BitVec 8) (data : List Byte) :
    s.log.nextIdx < (s.logFull holdup ty o p key data).log.nextIdx := by
  have h := record_nextIdx_lt s.log s.now s.lkh.serving (decide (s.serves = 1)) holdup ty o p key data
  unfold State.logFull
  extract_lets single a l l1
  have h1 : l.nextIdx ≤ l1.nextIdx := by
    unfold l1
    split
    · exact (record_nextIdx_lt ..).le
    · exact le_rfl
  exact lt_of_lt_of_le h h1
theorem extend_nextIdx_le (s : State) (h : House) (i : Fin 8) (d : BitVec 256) : s.log.nextIdx ≤ (s.extend h i d).log.nextIdx := by
  unfold State.extend
  dsimp only
  split
  · exact le_rfl
  · exact (logFull_nextIdx_lt _ ..).le

section
variable {s : State} {c : Cert} {bs : List Byte}

theorem certAccept_leaves (s : State) (c : Cert) : (s.certAccept c).sec.lastSeq = BitVec.ofNat 64 c.seq ∧ (s.certAccept c).sec.pendingAct = some c.act ∧
    (s.certAccept c).sec.certBusy = false ∧ (s.certAccept c).sec.certStatus = .done ∧ (s.certAccept c).log.nextIdx > s.log.nextIdx := by
  have ht := certAccept_trust s c
  simp only [Security.trust, Prod.mk.injEq] at ht
  obtain ⟨-, -, hseq, -, -, -, -, -, hact⟩ := ht
  refine ⟨hseq, hact, rfl, rfl, ?_⟩
  · unfold State.certAccept
    extract_lets k s1
    have h1 : s.log.nextIdx < s1.log.nextIdx := logFull_nextIdx_lt ..
    exact lt_of_lt_of_le h1 (foldl_rel (R := fun a b : State => a.log.nextIdx ≤ b.log.nextIdx) (fun _ => le_rfl) .trans
      (fun s h => extend_nextIdx_le s h 7 _) s1.houses s1)

theorem certOk_parts (h : s.certOk c = true) : c.setGen = s.sec.setGen ∧ (c.notAfter = 0 ∨ s.now ≤ c.notAfter) := by
  simp only [State.certOk, Bool.and_eq_true, decide_eq_true_eq, Bool.or_eq_true, beq_iff_eq] at h
  obtain ⟨⟨⟨⟨⟨h1, -⟩, h2⟩, -⟩, -⟩, -⟩ := h
  exact ⟨h1, h2⟩

theorem certificateSubmit_outside {agree : Bool} {t : Nat} (h : s.sec.pendingAct = none)
    (hb : (s.at_ t).addrBad s.sec.certAddr = true ∨ 84488 < s.sec.certLen.toNat) :
    execCertificateSubmit agree t s = .next ((s.at_ t).certEnd .illegalDescriptor) := by
  unfold execCertificateSubmit
  dsimp only
  rw [if_neg (by rw [show (s.at_ t).sec.pendingAct = none from h]; decide), if_pos]
  rw [Bool.or_eq_true, decide_eq_true_iff]
  exact hb
/-- Where the certificate is read from. -/
theorem certificateSubmit_read {agree : Bool} {t : Nat} (h : s.sec.pendingAct = none) (hb : (s.at_ t).addrBad s.sec.certAddr = false)
    (hn : s.sec.certLen.toNat ≤ 84488) : execCertificateSubmit agree t s = .next (match addrClass s.sec.certAddr with
      | 1 => (match (s.at_ t).modelBytes (addrModel s.sec.certAddr) s.sec.certLen.toNat with
        | .ended s1 .done bs => s1.certDecide agree bs
        | .ended s1 _ _ => s1.certEnd .illegalDescriptor
        | .waits s1 => { s1 with sec := { s1.sec with certBusy := true } })
      | 4 => if ((s.at_ t).hostBad (fld s.sec.certAddr 0 48) s.sec.certLen.toNat).isSome then (s.at_ t).certEnd .illegalDescriptor
          else (s.at_ t).certDecide agree ((s.at_ t).hostRead (fld s.sec.certAddr 0 48) s.sec.certLen.toNat)
      | _ => (s.at_ t).certEnd .illegalDescriptor) := by
  unfold execCertificateSubmit
  dsimp only
  rw [if_neg (by rw [show (s.at_ t).sec.pendingAct = none from h]; decide), if_neg]
  · rfl
  · rw [Bool.or_eq_true, decide_eq_true_iff]
    exact fun hc => hc.elim (fun hc => absurd (hb.symm.trans hc) (by decide)) (Nat.not_lt.mpr hn)

end

theorem certificates_hold : Sys2Proof.Rules.Certificates := by
  intro agree t bs c s u a n
  refine ⟨fun h => congrArg Host.Outcome.next (if_pos h), fun h => ⟨fun hb => ?_, fun hb hn h4 => ⟨fun st hs => ?_, fun hs => ?_⟩,
      fun hb hn h1 => ⟨fun v hv => ?_, fun v st hv hst => ?_⟩⟩,
    fun hp => ?_, fun hp => ⟨fun ha => ?_, fun ha hc => ?_, fun ha h2 hc => ?_⟩, certAccept_leaves s c,
    fun hg => Bool.eq_false_iff.mpr fun hc => hg (certOk_parts hc).1, fun hq => Bool.eq_false_iff.mpr fun hc => Nat.not_lt.mpr hq (certOk_facts hc).1,
    fun h0 hn => Bool.eq_false_iff.mpr fun hc => (certOk_parts hc).2.elim h0 fun h => Nat.not_le.mpr hn h⟩
  · by_cases hg : u.addrBad a = true ∨ 84488 < n
    · exact certificateSubmit_outside h hg
    · rw [not_or, Bool.not_eq_true, Nat.not_lt] at hg
      obtain ⟨hg, hn⟩ := hg
      have hc : addrClass a ≠ 1 ∧ addrClass a ≠ 4 :=
        (hb.resolve_left fun hc => absurd (hg.symm.trans hc) (by decide)).resolve_left (Nat.not_lt.mpr hn)
      refine (certificateSubmit_read h hg hn).trans (congrArg Host.Outcome.next ?_)
      split
      · next h1 => exact absurd h1 hc.1
      · next h4 => exact absurd h4 hc.2
      · rfl
  · refine (certificateSubmit_read h hb hn).trans (congrArg Host.Outcome.next ?_)
    rw [show addrClass s.sec.certAddr = 4 from h4]
    exact if_pos (Option.isSome_iff_exists.mpr ⟨st, hs⟩)
  · refine (certificateSubmit_read h hb hn).trans (congrArg Host.Outcome.next ?_)
    rw [show addrClass s.sec.certAddr = 4 from h4]
    exact if_neg (by rw [show (s.at_ t).hostBad (fld s.sec.certAddr 0 48) s.sec.certLen.toNat = none from hs]; decide)
  · refine (certificateSubmit_read h hb hn).trans (congrArg Host.Outcome.next ?_)
    rw [show addrClass s.sec.certAddr = 1 from h1, show (s.at_ t).modelBytes (addrModel s.sec.certAddr) s.sec.certLen.toNat = _ from hv]
    rfl
  · refine (certificateSubmit_read h hb hn).trans (congrArg Host.Outcome.next ?_)
    rw [show addrClass s.sec.certAddr = 1 from h1, show (s.at_ t).modelBytes (addrModel s.sec.certAddr) s.sec.certLen.toNat = _ from hv]
    cases st with
    | done => exact absurd rfl hst
    | _ => rfl
  · unfold State.certDecide
    rw [hp]
  · unfold State.certDecide
    rw [hp]
    dsimp only
    rw [ha]
    rfl
  · unfold State.certDecide
    rw [hp]
    dsimp only
    rw [ha, if_neg (by decide), if_pos]
    rw [Bool.or_eq_true, decide_eq_true_iff, Bool.not_eq_true']
    exact hc
  · unfold State.certDecide
    rw [hp]
    dsimp only
    rw [ha, if_neg (by decide), hc, decide_eq_false (Nat.not_lt.mpr h2), if_neg (by decide)]

/-! ### Actions of certificates (Table 17.10) -/

section
variable {s : State} {a : CertAct} {f : State → State}

/-- No action waits any more. -/
def State.actTaken (s : State) : State := { s with sec := { s.sec with pendingAct := none } }
theorem carryOut_waits (h : s.sec.pendingAct = some a) : s.carryOut a f = f s.actTaken := if_pos h
theorem carryOut_none (h : ¬s.sec.pendingAct = some a) : s.carryOut a f = s := if_neg h

variable (s) (d : BitVec 256) (x : PortN) (on : Bool)

theorem setQuar_port : (s.setQuar d on).port x =
    if (s.port x).peerId = d then { (if on then (s.port x).stopAll 2 .noRights else s.port x) with quar := on } else s.port x := by
  rw [State.setQuar, port_sweep]
  exact Vector.getElem_map ..
theorem setQuar_sec : (s.setQuar d on).sec = s.sec := rfl

/-- A peer joins the set of those in quarantine. -/
def State.quarAdded (s : State) (d : BitVec 256) : State :=
  { s with sec := { s.sec with quarantine := if s.sec.quarantine.contains d then s.sec.quarantine else s.sec.quarantine ++ [d] } }
theorem quarAdded_mem : d ∈ (s.quarAdded d).sec.quarantine := by
  unfold State.quarAdded
  dsimp only
  split
  · next h => exact List.contains_iff_mem.mp h
  · exact List.mem_append_right _ (List.mem_singleton_self _)
theorem quarantined_leaves : let w := (s.quarAdded d).setQuar d true
    d ∈ w.sec.quarantine ∧ w.sec.pendingAct = s.sec.pendingAct ∧
      (∀ x : PortN, (s.port x).peerId = d → (w.port x).quar = true ∧ ∀ e : Fin 256, (s.port x).cons[e].busy = true → (s.port x).cons[e].ended = none →
        (w.port x).cons[e].ended = some (2, .noRights)) ∧ (∀ x : PortN, (s.port x).peerId ≠ d → w.port x = s.port x) := by
  have hp (x : PortN) : (s.quarAdded d).port x = s.port x := rfl
  refine ⟨?_, rfl, fun x hx => ?_, fun x hx => ?_⟩
  · rw [setQuar_sec]
    exact quarAdded_mem s d
  · rw [setQuar_port, hp, if_pos hx]
    exact ⟨rfl, fun e hb he => stopAll_ended hb he 2 .noRights⟩
  · rw [setQuar_port, hp, if_neg hx]

/-- A peer leaves it. -/
def State.quarDropped (s : State) (d : BitVec 256) : State := { s with sec := { s.sec with quarantine := s.sec.quarantine.filter fun x => x != d } }
theorem released_leaves : let w := (s.quarDropped d).setQuar d false
    d ∉ w.sec.quarantine ∧ w.sec.pendingAct = s.sec.pendingAct ∧
      ∀ x : PortN, (s.port x).peerId = d → (w.port x).quar = false ∧ (w.port x).cons = (s.port x).cons := by
  have hp (x : PortN) : (s.quarDropped d).port x = s.port x := rfl
  refine ⟨?_, rfl, fun x hx => ?_⟩
  · rw [setQuar_sec]
    exact fun h => by simpa using (List.mem_filter.mp h).2
  · rw [setQuar_port, hp, if_pos hx]
    exact ⟨rfl, rfl⟩

theorem logErr_sec (u : BitVec 40) (st n : Nat) : (s.logErr u st n).sec = s.sec := rfl
/-- A lock-house whose group ends lower is recorded. -/
def State.fuseErr (n : State → House → Nat) (s : State) (h : House) : State := s.logErr (unitId 0x0B h.val) 0 (n s h)
theorem fuseErr_sec (n : State → House → Nat) (s : State) (h : House) : (s.fuseErr n h).sec = s.sec := logErr_sec ..
theorem fuseErrs_sec (n : State → House → Nat) (l : List House) (t : State) : (l.foldl (State.fuseErr n) t).sec = t.sec :=
  foldl_reads_same (g := State.sec) (f := State.fuseErr n) (fun t h _ => fuseErr_sec n t h) t
theorem blown_eq (cls c : Fin 6) (v : Nat) (h : Fin 3) : (blown s cls v h)[c] =
    if s.lkh.serving.getLsbD h.val = true ∧ c = cls then max s.sec.groups[h][c] v else s.sec.groups[h][c] := by
  unfold blown
  by_cases hs : s.lkh.serving.getLsbD h.val = true
  · rw [if_pos hs]
    by_cases hc : c = cls
    · subst hc
      rw [vmod_get_same, if_pos ⟨hs, rfl⟩]
    · rw [vmod_get_ne _ _ hc, if_neg fun h => hc h.2]
  · rw [if_neg hs, if_neg fun h => hs h.1]

end

theorem certificateActions_hold : Sys2Proof.Rules.CertificateActions := by
  intro d g k keys cls v slot t s waits
  refine ⟨fun h => ?_, fun h => congrArg Host.Outcome.next (carryOut_none (s := s.at_ t) h), fun h => ?_,
    fun h => congrArg Host.Outcome.next (carryOut_none (s := s.at_ t) h), fun h => congrArg Host.Outcome.next (carryOut_waits h),
    fun h => congrArg Host.Outcome.next (carryOut_none h), fun h => ⟨_, congrArg Host.Outcome.next (carryOut_waits h), rfl, rfl, rfl, rfl, rfl, rfl, rfl⟩,
    fun h => congrArg Host.Outcome.next (carryOut_none h), fun h => ⟨_, congrArg Host.Outcome.next (carryOut_waits h), ?_⟩,
    fun h => congrArg Host.Outcome.next (carryOut_none h), fun h => ⟨_, congrArg Host.Outcome.next (carryOut_waits h), rfl, rfl, rfl⟩,
    fun h => congrArg Host.Outcome.next (carryOut_none h)⟩
  · exact ⟨_, congrArg Host.Outcome.next (carryOut_waits (s := s.at_ t) h), quarantined_leaves (s.at_ t).actTaken d⟩
  · exact ⟨_, congrArg Host.Outcome.next (carryOut_waits (s := s.at_ t) h), released_leaves (s.at_ t).actTaken d⟩
  · dsimp only
    rw [show ∀ t : State, (List.foldl (fun (s : State) (h : House) => s.logErr (unitId 0x0B h.val) 0 s.sec.groups[h][cls]) t _).sec = t.sec from
      fuseErrs_sec (fun s h => s.sec.groups[h][cls]) _]
    refine ⟨rfl, rfl, fun h c => ?_⟩
    have hg : (Vector.ofFn (blown s cls v.toNat))[h] = blown s cls v.toNat h := by simp
    show (Vector.ofFn (blown s cls v.toNat))[h][c] = _
    rw [hg, blown_eq]

/-! ### Records and checkpoints (R469, R471, R472) -/

theorem logCommands_hold : Sys2Proof.Rules.LogCommands := by
  intro e t v s u ck
  have hreq : exec (.logCkptRequest t) s = .next (match s.log.ckptReqAt with
      | some a => if u.now < a + 1000000000 then u else ck
      | none => ck) := rfl
  refine ⟨rfl, fun h => ?_, fun a h ht => ?_, fun a h ht => ?_, fun i r rest x hp hx => ?_, fun hp => ?_, ⟨_, rfl, rfl, rfl⟩⟩
  · rw [hreq, h]
  · rw [hreq, h]
    exact congrArg Host.Outcome.next (if_neg (Nat.not_lt.mpr ht))
  · rw [hreq, h]
    exact congrArg Host.Outcome.next (if_pos ht)
  · show execLogCheckpointSigned t s = _
    unfold execLogCheckpointSigned
    dsimp only
    rw [show (s.at_ t).log.ckptPend = (i, r) :: rest from hp]
    dsimp only
    rw [show (s.at_ t).log.entry i = some x from hx]
    rfl
  · show execLogCheckpointSigned t s = _
    unfold execLogCheckpointSigned
    dsimp only
    rw [show (s.at_ t).log.ckptPend = [] from hp]

/-- Settles O54: requests and certificates by the check that decides them, actions by what they leave of ports and of the security state. -/
theorem security : Obligations.Security := ⟨signedRequests_hold, certificates_hold, certificateActions_hold, logCommands_hold⟩

end Sys2Proof.Machine
end
